-- ==== Sys2Proof/Word.lean ====
section
/-! DEFINITION. The plain data words of the engine: bytes, words, blocks, slot frame positions and sparse tables
(files 00, 04, 05 of spec/). -/

namespace Sys2Proof

/-- One byte of a packet, a memory or an overhead block (R9). -/
abbrev Byte := BitVec 8
/-- One 32-bit register (file 17). -/
abbrev Word := BitVec 32
/-- One connection map entry (R159). -/
abbrev Entry := BitVec 64
/-- The seven payload bytes of an overhead block, byte 0 highest (R106). -/
abbrev W56 := BitVec 56
/-- A byte string, first byte first (R9). -/
abbrev Bytes := List Byte

/-- A sparse table: pairs of key and value, keys strictly rising, no entry equal to what an absent key reads as. -/
abbrev Tbl (α : Type) := List (Nat × α)

/-- A slot frame position (Table 00-2). -/
structure Sfp where
  /-- multiframe count -/
  mfc : Nat := 0
  /-- frame index -/
  fi : Nat := 0
  /-- block index -/
  bi : Nat := 0
  deriving DecidableEq, Repr

/-- One 66-bit block with the engine mark (R106, R207): bit 0 transmitted first is header bit 0, the block type is
data bits 7..0, payload byte j is data bits 8j+15..8j+8. -/
structure Block where
  /-- sync header -/
  hdr : BitVec 2 := 0
  /-- block bits 65..2 -/
  data : BitVec 64 := 0
  /-- engine mark (R207) -/
  mark : Bool := false
  deriving DecidableEq, Repr

/-- Blocks in a frame (R80). -/
abbrev frameBlocks : Nat := 163768
/-- Frames in a multiframe (R80). -/
abbrev mfFrames : Nat := 32
/-- Blocks in a multiframe (R80). -/
abbrev mfBlocks : Nat := 5240576
/-- Number of MFC values (Table 00-2). -/
abbrev mfcMod : Nat := 281474976710656

end Sys2Proof
end

