-- ==== Sys2Proof/Syntax.lean ====
section
/-! DEFINITION. The commands and events of the engine: one constructor of `Instr` for each row of
spec/opcode_table.json, in the table's order, with the operands the row's rule gives it. -/

namespace Sys2Proof

/-- Where a VCP packet came from (Table 12-1). -/
inductive Transport where
  | mgmtA | mgmtB
  | inband (port : Fin 128)
  | spi
  deriving DecidableEq, Repr

/-- The return address of a packet on management Ethernet (Table 12-1). -/
structure Return where
  /-- transport of arrival -/
  via : Transport
  /-- source MAC address of the command frame -/
  mac : BitVec 48 := 0
  /-- VLAN tag of the command frame -/
  vlan : Option (BitVec 16) := none
  deriving DecidableEq, Repr

/-- One VCP command as the sequencer takes it: the packet's header fields and its parameters (Table 12-3). -/
structure Req where
  /-- where its reply goes -/
  ret : Return
  /-- PRI -/
  pri : BitVec 2 := 0
  /-- GRP bit -/
  grp : Bool := false
  /-- DEST: device ID or group number -/
  dest : BitVec 12 := 0
  /-- ORIGIN, when O_VALID -/
  origin : Option (BitVec 12) := none
  /-- AUTH -/
  auth : BitVec 6 := 0
  /-- SEQ -/
  seq : BitVec 32 := 0
  /-- parameter bytes, CONFIRM among them -/
  params : Bytes := []
  deriving DecidableEq, Repr

/-- A bus master of the matrix (Table 16-1): 0 is M0, 6 is M6. -/
abbrev Master := Fin 7

/-- A slow block (Table 17-3). -/
inductive SlowBlock where
  | thyme | serdes | power | pins | ocxo
  deriving DecidableEq, Repr

/-- A management port. -/
inductive MgPort where
  | a | b
  deriving DecidableEq, Repr

/-- What a scrubber or a read finds in a protected word (R167, R359). -/
inductive EccFind where
  | clean
  | single (bit : Nat)
  | double
  deriving DecidableEq, Repr

/-- Analogue and external readings taken at a frame boundary (R249, R409, R39, R40, R49, R477). -/
structure FrameIn where
  /-- mean FEED_A and FEED_B voltage of the last frame in mV -/
  feedA : BitVec 16 := 0
  feedB : BitVec 16 := 0
  /-- AMPS and WATTS of the selected path -/
  load : BitVec 32 := 0
  /-- the voltage monitor has failed -/
  monFault : Bool := false
  /-- levels at the GPIO contacts -/
  gpio : BitVec 16 := 0
  /-- REFIN n: longest time without a rising edge, as it stood in the frame that ended, in ns (Table 02-4) -/
  refinGap : List Nat := []
  /-- rising edges of a REFIN at 1 Hz in the frame that ended: REFIN and block index -/
  refinEdges : List (Nat × Nat) := []
  /-- greatest phase error between reference and output in the frame that ended, in ps (R48) -/
  phase : Nat := 0
  /-- present control value of the DPLL -/
  ctl : BitVec 48 := 0
  /-- mean of the control values of the preceding multiframe (R40) -/
  ctlMean : BitVec 48 := 0
  /-- FEC of the frame that ended, by port, beside what FEC_FAIL_DECLARE and FEC_DEG_DECLARE brought: codewords, corrected
  and uncorrectable ones, corrected symbols (R125, Table 19-2) -/
  fec : List (Nat × Nat × Nat × Nat × Nat) := []
  deriving DecidableEq, Repr

/-- One Ethernet frame at a receive monitor (R145). -/
structure MonFrame where
  /-- six 0x55 bytes and 0xD5 follow the start -/
  preambleOk : Bool
  /-- destination address to FCS -/
  bytes : Bytes
  /-- it holds an error block or a control block other than terminate -/
  errBlock : Bool
  deriving DecidableEq, Repr

/-- One frame at a management port (R332, R334). -/
structure MgFrame where
  /-- destination address to FCS -/
  bytes : Bytes
  /-- invalid code groups or error blocks in it -/
  symbolErrs : Nat
  deriving DecidableEq, Repr

/-- What the memories and sensors answer to SELF_TEST (Table 14-12). -/
structure SelfTestIn where
  /-- errors the sweep corrected, and those it is the first to find and could not -/
  corrected : Nat := 0
  uncorrectable : Nat := 0
  /-- OCXO temperature sensor and feed monitor ADC answer -/
  sensorsOk : Bool := true
  /-- every lane and Chive PLL is locked -/
  pllsOk : Bool := true
  deriving DecidableEq, Repr

/-- What the boot finds (R451 to R455): one flag for each check whose outcome is the hardware's. -/
structure BootIn where
  /-- working RAM outside CODE_LOCK and the scratchpad pass their pattern test -/
  ramOk : Bool := true
  /-- at least one working-RAM bank passes -/
  someWramOk : Bool := true
  /-- the trace buffer passes -/
  traceOk : Bool := true
  /-- the save of BOOT_COUNT succeeds -/
  bootSaveOk : Bool := true
  deriving DecidableEq, Repr

/-- One entry of the pending-commit table as the mirror carries it (R91). -/
structure MirEnt where
  /-- target epoch -/
  epoch : Nat
  /-- domains -/
  mask : BitVec 8
  /-- domains withdrawn -/
  removed : BitVec 8 := 0
  /-- GRP and DEST of the first COMMIT -/
  grp : Bool := false
  dest : BitVec 12 := 0
  /-- merge records -/
  recs : List (BitVec 16 × BitVec 32) := []
  /-- COMMITs that named it -/
  count : Nat := 1
  /-- the entry is ARMED -/
  armed : Bool := false
  deriving DecidableEq, Repr

/-- One group of the protection table as the mirror carries it (Table 10-3). -/
structure MirGrp where
  /-- GRP_EN in force -/
  en : Bool
  /-- selector -/
  sel : Bool
  /-- stored LO, FS and MS: bits 2, 1 and 0 -/
  stored : BitVec 3 := 0
  /-- state request code -/
  stateReq : BitVec 4 := 0
  /-- WTR frames run -/
  wtr : Nat := 0
  /-- SF, SF_P and SD: defect present, hold-off frames run, request raised -/
  conds : List (Bool × Nat × Bool) := []
  /-- local, remote and effective requests with their REQ_SIG -/
  reqs : List (BitVec 4 × Bool) := []
  /-- APS_LOSS, FOP_PM, FOP_NR, REV_MISMATCH: bits 0 to 3 -/
  ind : BitVec 4 := 0
  /-- APS SEQ -/
  seq : BitVec 8 := 0
  deriving DecidableEq, Repr

/-- One mirror record, or a message that the twins' audit, swap and resync need over the link (Table 10-3, R221, R232,
R233, R234); the format on the link is internal to the engine (R216). `active` names the active bank or view, which only
a bulk transfer or a repair carries. -/
inductive MirrorRec where
  /-- one entry of a bank -/
  | mapStore (active : Bool) (g : Nat) (e : Entry)
  /-- one word of an SMI table -/
  | smiStore (active : Bool) (port : Nat) (w : Word)
  /-- one word of a view, by its active address -/
  | viewWrite (active : Bool) (addr : Nat) (w : Word)
  /-- STAGE_OPEN and STAGE_SUSPECT -/
  | stageBits (opens suspects : BitVec 8)
  /-- one pending-commit entry: none for FREE -/
  | commitEntry (idx : Fin 16) (ent : Option MirEnt)
  /-- the pending snapshot requests -/
  | snapshots (l : List (Sfp × BitVec 128))
  /-- outcome of a freeze validation: the failing row and index, row 0 for a pass -/
  | validation (epoch row idx : Nat)
  /-- one group of the protection table -/
  | group (g : Nat) (x : MirGrp)
  /-- urgent copies of one trunk: group, rank, frames until due, message bits 55..16 -/
  | urgent (port : Nat) (l : List (Nat × Nat × Nat × BitVec 40))
  /-- one errorless group's state and E, for comparison -/
  | eq (g : Nat) (state : Nat) (e : Nat)
  /-- one delay line's allotment: group and member -/
  | allot (line : Nat) (to_ : Option (Nat × Nat))
  /-- Thyme state code, selected candidate, REF_FAULT, MFC_VALID, REFIN QLs and force -/
  | thyme (code : Nat) (ref : Option Nat) (refFault mfcValid : Bool) (qls : BitVec 16) (force : Option Nat)
  /-- hold-off and WTR counts of one candidate, in frames remaining -/
  | cand (c : Nat) (hold wtr : Option Nat)
  /-- a new history entry, 16 bytes (Table 03-1) -/
  | history (entry : Bytes)
  /-- the full history, newest first -/
  | historyAll (l : List Bytes)
  /-- holdover value, HB_ACCUM in the engine's unit and HB_REMAIN -/
  | holdover (value : BitVec 48) (accum remain : Nat)
  /-- hash of one authority slot, for comparison -/
  | authHash (slot : Fin 64) (hash : Bytes)
  /-- last accepted sequence number of an authority -/
  | lastSeq (slot : Fin 64) (seq : BitVec 32)
  /-- the pending role swap, none when it is withdrawn -/
  | swap (f : Option Sfp)
  /-- the standby confirms the swap at F -/
  | swapConfirm (f : Sfp)
  /-- the active restarts the resync it was serving (R233) -/
  | resyncStart
  /-- one audit segment in full: 160 entries of a bank and two words of its SMI table (R221, R232) -/
  | segment (active : Bool) (k : Fin 64) (es : List Entry) (smi : List Word)
  /-- one view of a commit domain in full: the words that are not at their reset value (R221, R232) -/
  | view (active : Bool) (d : Fin 8) (ws : List (Nat × Word))
  /-- the twin in Timing asks for the bulk transfer -/
  | bulkRequest
  /-- the bulk transfer is complete -/
  | bulkEnd
  /-- the twin in Catch-up asks for its audit -/
  | auditRequest
  /-- CRC-32 values of the segments of the active bank, of the staged bank, and of the active and staged views of D1 to
  D7 in turn (R221) -/
  | audit (crcs : List Word)
  /-- the standby asks for the segments that differ, by their place in the audit (R221) -/
  | repair (k : Nat)
  deriving DecidableEq, Repr

/-- One command or event: a row of spec/opcode_table.json. -/
inductive Instr where
  -- device family (file 13)
  | devInfo (r : Req)
  | keyWrite (r : Req) (flashOk : Bool)
  | keyInfo (r : Req)
  | groupMemberSet (r : Req) (flashOk : Bool)
  | groupMemberGet (r : Req)
  | routeSet (r : Req) (flashOk : Bool)
  | routeGet (r : Req)
  | relayPortsSet (r : Req) (flashOk : Bool)
  | cfgSave (r : Req) (flashOk : Bool)
  | cfgInfo (r : Req)
  | devReset (r : Req)
  -- map family
  | mapWritePart (r : Req) (hits : List Nat) (part : Nat)
  | mapRead (r : Req)
  | mapCopyPart (r : Req) (hits : List Nat) (part : Nat)
  | mapClearPart (r : Req) (hits : List Nat) (part : Nat)
  | smiWrite (r : Req)
  | mapStatus (r : Req)
  | hMapRead (r : Req)
  | hMapWritePart (r : Req) (hits : List Nat) (part : Nat)
  | hSlotStats (r : Req)
  -- protection family
  | grpWrite (r : Req)
  | grpRead (r : Req)
  | protRequest (r : Req)
  | protGrpStatus (r : Req)
  | protEqRealign (r : Req)
  -- port family
  | portCfgWrite (r : Req)
  | portCfgRead (r : Req)
  | portAdaptWrite (r : Req)
  | portSerdesWrite (r : Req)
  | portStatus (r : Req)
  | portSnapshot (r : Req)
  | portSnapRead (r : Req)
  | tpChkWrite (r : Req)
  | tpChkRead (r : Req)
  -- commit family
  | commit (r : Req)
  | commitCancel (r : Req)
  | commitList (r : Req)
  | stageRevertPart (r : Req) (hits : List Nat) (part : Nat)
  | stageAccept (r : Req)
  | sfpRead (r : Req)
  -- timing family (file 14)
  | thyCandWrite (r : Req)
  | thyCfgWrite (r : Req)
  | thyOutWrite (r : Req)
  | thyCfgRead (r : Req)
  | thyStatus (r : Req)
  | setQl (r : Req)
  | thymeForce (r : Req)
  | setMfc (r : Req)
  | mfcRelearn (r : Req)
  | fpRealign (r : Req)
  | thymeHistoryRead (r : Req)
  -- pair family
  | pairStatus (r : Req)
  | pairCfgWrite (r : Req)
  | pairCfgRead (r : Req)
  | pairResync (r : Req)
  | pairSwap (r : Req)
  | pairForceActive (r : Req)
  -- observation family
  | ctrRead (r : Req)
  | pctrWrite (r : Req)
  | pctrRead (r : Req)
  | latlogRead (r : Req)
  | traceRead (r : Req)
  | bwCfgWrite (r : Req)
  | bwRead (r : Req)
  | traceCfgWrite (r : Req)
  | evtCfgWrite (r : Req)
  | obsCfgRead (r : Req)
  -- memory family
  | memRead (r : Req)
  | memWrite (r : Req) (collides : Nat)
  | memPower (r : Req)
  | memStatus (r : Req)
  | fwInfo (r : Req)
  | fwLoad (r : Req) (flashOk : Bool)
  | fwUpdate (r : Req) (flashOk : Bool)
  | selfTest (r : Req) (found : SelfTestIn)
  -- register family
  | regRead (r : Req)
  | regRead64 (r : Req)
  | regWrite (r : Req)
  | regWriteWait (r : Req)
  | regGuardedWrite (r : Req)
  -- power family
  | feedRead (r : Req)
  | feedSelect (r : Req)
  -- host SPI (Table 12-2)
  | pktWrite (len : Nat) (bytes : Bytes)
  | pktRead
  | statusRead
  -- TAP (R428)
  | idcode
  | samplePreload (levels : List Bool)
  | bypass (code : Byte)
  | tapReset
  -- register and memory access (files 07, 17)
  | registerWrite (m : Master) (addr v : Word)
  | sfpCapPosRead (m : Master)
  | mapHighWordWrite (m : Master) (addr v : Word)
  | mapLowWordWrite (m : Master) (addr v : Word) (collide : Bool)
  | mapHighWordRead (m : Master) (addr : Word)
  | postedWrite (m : Master) (addr v : Word)
  | postedWriteComplete (b : SlowBlock)
  | blkStatWrite (m : Master) (b : SlowBlock) (v : Word)
  | guardPairOpen (m : Master) (addr v : Word)
  | guardTimeout (addr : Word)
  | guardOrphan (m : Master) (addr v : Word)
  | remap (m : Master) (compl : Word)
  | seqRst (m : Master) (compl : Word)
  | flashWe (m : Master) (compl : Word)
  | keyWe (m : Master) (compl : Word)
  | bscanUnlock (m : Master) (compl : Word)
  | pairCtlSwap (m : Master) (compl : Word)
  | pairCtlCancel (m : Master) (compl : Word)
  | pairCtlForceActive (m : Master) (compl : Word)
  | feedSelectTarget (m : Master) (compl : Word)
  | mdioStart (m : Master) (v : Word)
  | mdioDone (rd : BitVec 16)
  | mgmtSnapArm (m : Master) (v : Word)
  | matrixAged (m : Master) (target : Fin 8)
  -- power stage (file 11)
  | powerUp (feedB both : Bool)
  | powerDown
  | feedUvCross
  | feedGlitch
  | feedUvDeclare
  | feedOvDeclare
  | feedFailoverComplete
  | feedGood (feedB : Bool)
  | feedNotGood (feedB ov : Bool)
  | ovTrip (feedB : Bool)
  | bulkUndervoltage
  | overcurrentTrip
  | feedLatchRelease
  | feedSwitchResult
  | feedSwitchTimeout
  -- reset and start-up (file 21)
  | resetNAssert
  | blockClockLoss
  | bootRomParityError
  | devResetEffect
  | resetSequenceEnd (devid : BitVec 12) (twinPos : Bool)
  | dieRelease (found : BootIn)
  | ready
  | seqException (cause : Fin 6)
  | seqWdtExpire
  | sequencerRestart
  -- boundaries
  | frameBoundary (i : FrameIn)
  | epochBoundary (temp : BitVec 16)
  -- Thyme (files 02, 03)
  | candidateHoldoffExpire (c : Fin 12)
  | candidateWtrExpire (c : Fin 12)
  | candidateQualified (c : Fin 12)
  | freqMeasurement (ppb : List Int)
  | dpllLock
  | refSwitch (offset : BitVec 32)
  | esmcPduReceive (port : Fin 128) (frame : Bytes)
  | esmcTimeout (port : Fin 128)
  | fpEdge (input : Fin 3)
  | fpMiss (input : Fin 3)
  | mfcLearn
  | historySample (freq : BitVec 48) (spread : Nat) (temp : BitVec 16)
  | holdoverExpire
  | ocxoDay (flashOk : Bool)
  | setQlAct
  | thymeForceAct
  | setMfcAct
  | mfcRelearnAct
  | fpRealignAct
  -- commit unit (file 04)
  | commitArm
  | commitValidationDone
  | commitStrobe
  | commitReport
  -- trunk receive (file 05)
  | o0Block (port : Fin 128) (b : Block)
  | o1Receive (port : Fin 128) (b : Block)
  | apsReceive (port : Fin 128) (o3 : Bool) (b : Block)
  | mgmtChunkReceive (port : Fin 128) (o4 : List Block) (o7 : Block)
  | o7Receive (port : Fin 128) (o4 : List Block) (o7 : Block)
  | ebSlip (port : Fin 128)
  | slipClear (port : Fin 128)
  | losDeclare (port : Fin 128)
  | losClear (port : Fin 128)
  | lolDeclare (port : Fin 128)
  | lolClear (port : Fin 128)
  | fecFailDeclare (port : Fin 128) (codewords : Nat)
  | fecFailClear (port : Fin 128)
  | fecDegDeclare (port : Fin 128) (symbols : Nat)
  | fecDegClear (port : Fin 128)
  -- client ports (file 06)
  | adaptBlockWrite (port : Fin 128) (b : Block)
  | adaptBlockRead (port : Fin 128)
  | adPpmReport (port : Fin 128)
  | monFrameReceive (port : Fin 128) (f : MonFrame)
  | orderedSetReceive (port : Fin 128) (remote : Bool) (gap : Nat)
  | lfClear (port : Fin 128) (remote : Bool)
  | portSnapshotLatch
  | tpCheckBlock (m : Fin 64)
  -- core (file 07)
  | calendarCycle (arrived : List (Nat × List Block)) (parityBad : List Nat)
  | mapScrub (bankB smi : Bool) (idx : Nat) (found : EccFind)
  | mapScrubWriteback
  -- protection (file 08)
  | protHoldoffExpire (g : Fin 2048) (cond : Fin 3)
  | protWtrExpire (g : Fin 2048)
  | protRequestAct
  | apsLoss (g : Fin 2048)
  | fopNr (g : Fin 2048)
  -- errorless merge (file 09)
  | pathMarkerJudge (g : Fin 2048) (prot : Bool)
  | pmLoss (g : Fin 2048) (prot : Bool)
  | eqEngage (g : Fin 2048)
  | errorlessSelectorChange (g : Fin 2048)
  -- twin pair (file 10)
  | heartbeatTake (lane : Fin 2) (b : Block) (comp : Nat) (locked : Bool)
  | chiveLaneDown (lane : Fin 2)
  | mirrorLost
  | aliveInChange (level : Bool)
  | takeover
  | mirrorRecordTake (at_ : Sfp) (m : MirrorRec)
  | mirrorAudit (crcs : List Word)
  | resyncEnd
  | pairSwapExecute
  | pairSwapAssume
  | pairSwapAbort
  | pairSwapRevert
  | txWatchEnd
  | arbitrationEnd
  | forceActiveAct
  | autoRestoreStaged
  | autoRestoreStage2
  | autoRestoreStage2Timeout
  -- VCP front end (file 12)
  | vcpPacketReceive (ret : Return) (pkt : Bytes)
  | dispatchTick
  | relayEntryExpire (i : Fin 64)
  | dupMemoryExpire (i : Fin 64)
  | replyTransmit (p : MgPort)
  | eventSend
  | channelPacketSend (port : Fin 128)
  -- reports and Sage (files 19, 20)
  | protectionReport
  | traceRingWrite
  | sageTxFrame
  | gatherSweeps
  | gatherIncomplete (block : BitVec 16)
  | pctrOverflow (n : Fin 64)
  | bwWindowEnd (port : Fin 128)
  -- management ports (file 15)
  | mgmtFrameReceive (p : MgPort) (f : MgFrame)
  | mgLinkUp (p : MgPort) (mode : Fin 4) (speed : Fin 4) (halfDuplex : Bool)
  | mgLinkDown (p : MgPort)
  | modeSearchSwitch (p : MgPort)
  | rateStepDown (p : MgPort)
  | rsRelinkExpire (p : MgPort)
  | throttleRelease (p : MgPort)
  | mgmtSnapshotLatch
  -- memories, pins, completion
  | memoryScrub (memory : Fin 6) (addr : Nat) (found : EccFind)
  | memPowerTransitionDone (memory : Fin 3) (bank : Nat)
  | gpioSwitchDrive
  | commandComplete
  | resetNRelease
  | uvReleased (ov : Bool)
  deriving DecidableEq, Repr

end Sys2Proof
end

