-- ==== Sys2Proof/Decode.lean ====
section
/-! DEFINITION. The commands that a word spells. No row of spec/opcode_table.json gives bits: its commands are packets,
register accesses and events with operands, and every row's list of fields is empty. -/

namespace Sys2Proof

/-- The command that a word of `nbits` bits spells by the table: no row gives bits, so none. -/
def decodeTableWord (_nbits _w : Nat) : Option Instr := none

end Sys2Proof
end

