-- ==== Sys2Proof/Config.lean ====
section
/-! DEFINITION. What one module fixes and the manual leaves open: each an opaque constant, so that a statement about
it holds whatever its value is. -/

namespace Sys2Proof.Config

/-- A fresh unstated word: the n-th value the manual leaves open. -/
opaque freeWord : Nat → Word
/-- A fresh unstated byte. -/
opaque freeByte : Nat → Byte
/-- The value of the KP bits of the slow register at an address at module reset (R375, R388). -/
opaque kpInit : Nat → Word
/-- JTAG IDCODE (Table 18-3: per die). -/
opaque idcode : Word
/-- Skolo revision (R393: per die). -/
opaque skoloRev : BitVec 16
/-- Module serial number, 16 BCD digits (R393: per module). -/
opaque serial : BitVec 64
/-- MAC address of MGMT_A (R333: per module). -/
opaque macA : BitVec 48
/-- MAC address of MGMT_B (R333: per module). -/
opaque macB : BitVec 48
/-- Bytes of the boot ROM (file 16: content is firmware). -/
opaque bootRom : Nat → Byte
/-- Bytes of working RAM as firmware keeps them in each of its runs: run and offset (file 16: content is firmware). -/
opaque workingRam : Nat → Nat → Byte
/-- Whether the bytes of a flash region are a valid image (R451: magic, length, CRC-32 and Ed25519 signature; the
header's layout is not given). -/
opaque imageValid : List (Nat × Byte) → Bool
/-- Version, length and CRC-32 fields of the image header in a flash region (R451; layout not given). -/
opaque imageVersion : List (Nat × Byte) → Word
opaque imageLength : List (Nat × Byte) → Word
opaque imageCrc : List (Nat × Byte) → Word
/-- Mirror compatibility level of an image (R217). -/
opaque imageCompat : List (Nat × Byte) → Byte
/-- Content of a byte of the trace buffer that no record has been written to since module reset (R430: undefined). -/
opaque traceRam : Nat → Byte
/-- Lock and detect states of a serial lane that no event of the manual's describes: lane and time (Table 18-15). -/
opaque laneStat : Nat → Nat → Word
/-- Hash of an authority slot (R219: SHA-256 over key, class and holder ID; the hashed layout is not given), 32 bytes:
byte i of the hash of (key, class, holder). -/
opaque authHashByte : List (BitVec 8) → Nat → Nat → Nat → Byte
/-- The 32 bytes. -/
def authHash (key : List (BitVec 8)) (cls holder : Nat) : List (BitVec 8) :=
  (List.range 32).map (authHashByte key cls holder)
/-- CRC-32 of the stored configuration image (Table 13-3, CFG_INFO; the stored format is firmware's). -/
opaque cfgImageCrc : Nat → Word
/-- The order of the phases of a pattern generator: the non-zero start state of a slot's generator (R150). -/
opaque tpSeed : Nat → BitVec 31
/-- Content of the value firmware reads back from one of its own registers. -/
opaque fwWord : Nat → Word
/-- Estimate in milliseconds of the time left to READY or to completion (R265, R278). -/
opaque remainMs : Nat → BitVec 16
/-- Scratchpad word at which the management DMA buffers the n-th packet (R359, R363; the place is not given). -/
opaque dmaAt : Nat → Nat

end Sys2Proof.Config
end

