-- ==== Sys2Proof/Machine/Tbl.lean ====
section
/-! DEFINITION. Sparse tables in their canonical form (MEMORY: keys strictly rising, no entry equal to what an absent
key reads as), and the few list operations the meanings share. -/

namespace Sys2Proof.Machine

/-- The value stored under a key. -/
def tfind {α : Type} : Tbl α → Nat → Option α
  | [], _ => none
  | (k, v) :: t, i => if i = k then some v else tfind t i

/-- The value under a key, `d` where nothing is stored. -/
def tget {α : Type} (d : α) (t : Tbl α) (i : Nat) : α := (tfind t i).getD d

/-- Remove a key. -/
def tdel {α : Type} : Tbl α → Nat → Tbl α
  | [], _ => []
  | (k, v) :: t, i => if i = k then tdel t i else (k, v) :: tdel t i

/-- Store under a key, keys kept rising. -/
def tset {α : Type} : Tbl α → Nat → α → Tbl α
  | [], i, x => [(i, x)]
  | (k, v) :: t, i, x =>
    if i < k then (i, x) :: (k, v) :: t
    else if i = k then (i, x) :: t
    else (k, v) :: tset t i x

/-- Store under a key; the default value is stored by removing the key. -/
def tput {α : Type} [DecidableEq α] (d : α) (t : Tbl α) (i : Nat) (x : α) : Tbl α :=
  if x = d then tdel t i else tset t i x

/-- Keys strictly rising. -/
def tsorted {α : Type} : Tbl α → Bool
  | [] => true
  | [_] => true
  | (k, _) :: (l, w) :: t => decide (k < l) && tsorted ((l, w) :: t)

/-- The canonical form over a default that may depend on the key. -/
def twf {α : Type} [DecidableEq α] (d : Nat → α) (t : Tbl α) : Bool :=
  tsorted t && t.all (fun kv => decide (kv.2 ≠ d kv.1))

/-- Drop the keys of which `p` holds. -/
def tdrop {α : Type} (p : Nat → Bool) (t : Tbl α) : Tbl α := t.filter (fun kv => !p kv.1)

/-- The entries of which `p` holds. -/
def tkeep {α : Type} (p : Nat → Bool) (t : Tbl α) : Tbl α := t.filter (fun kv => p kv.1)

/-- The numbers from `lo`, `n` of them. -/
def rangeFrom (lo n : Nat) : List Nat := (List.range n).map (lo + ·)

/-- Apply a state change for each element, first to last. -/
def forEach {α σ : Type} (l : List α) (s : σ) (f : σ → α → σ) : σ := l.foldl f s

/-- Replace the first element that satisfies `p`. -/
def updFirst {α : Type} (p : α → Bool) (f : α → α) : List α → List α
  | [] => []
  | x :: t => if p x then f x :: t else x :: updFirst p f t

/-- Remove the first element that satisfies `p`. -/
def delFirst {α : Type} (p : α → Bool) : List α → List α
  | [] => []
  | x :: t => if p x then t else x :: delFirst p t

/-- The last element that satisfies `p`. -/
def findLast {α : Type} (p : α → Bool) (l : List α) : Option α := l.reverse.find? p

end Sys2Proof.Machine
end

