-- ==== Sys2Proof/Machine/Bits.lean ====
section
/-! DEFINITION. Fields of words, packets as big-endian bytes (R9), and the arithmetic of positions. -/

namespace Sys2Proof.Machine

/-- Bits hi..lo of a word, as a number. -/
def bits {n : Nat} (w : BitVec n) (hi lo : Nat) : Nat := (w.toNat / 2 ^ lo) % 2 ^ (hi + 1 - lo)

/-- Bit i of a word. -/
def bit {n : Nat} (w : BitVec n) (i : Nat) : Bool := w.getLsbD i

/-- A word with bit i set to b. -/
def setBit {n : Nat} (w : BitVec n) (i : Nat) (b : Bool) : BitVec n :=
  if b then w ||| BitVec.ofNat n (2 ^ i) else w &&& ~~~ (BitVec.ofNat n (2 ^ i))

/-- 1 for true. -/
def b2n (b : Bool) : Nat := if b then 1 else 0

/-- A bit at a position, as a number. -/
def at1 (b : Bool) (i : Nat) : Nat := if b then 2 ^ i else 0

/-- A field of `width` bits at `lo`, as a number. -/
def fld (v width lo : Nat) : Nat := (v % 2 ^ width) * 2 ^ lo

/-- A word from the sum of its fields. -/
def word (n : Nat) : Word := BitVec.ofNat 32 n

/-- Two's-complement value of the low n bits. -/
def sgn {n : Nat} (w : BitVec n) : Int := w.toInt

/-- The low n bits of an integer. -/
def wrapI (n : Nat) (i : Int) : BitVec n := BitVec.ofInt n i

/-- n bytes of a number, most significant first (R9). -/
def beBytes : Nat → Nat → Bytes
  | 0, _ => []
  | n + 1, v => BitVec.ofNat 8 (v / 256 ^ n) :: beBytes n v

/-- The number spelt by bytes, most significant first (R9). -/
def beNat (b : Bytes) : Nat := b.foldl (fun a x => a * 256 + x.toNat) 0

/-- The number in bytes lo .. lo+n−1 of a packet; missing bytes read 0. -/
def pkNat (b : Bytes) (lo n : Nat) : Nat := beNat ((rangeFrom lo n).map (fun i => b.getD i 0))

/-- One byte of a packet as a number. -/
def pk1 (b : Bytes) (i : Nat) : Nat := (b.getD i 0).toNat

/-- n zero bytes. -/
def zeros (n : Nat) : Bytes := List.replicate n 0

/-- Bytes lo .. lo+n−1, zero-filled to n. -/
def slice (b : Bytes) (lo n : Nat) : Bytes := (rangeFrom lo n).map (fun i => b.getD i 0)

/-- A byte of a number. -/
def by1 (v : Nat) : Byte := BitVec.ofNat 8 v

/-- Bits of a vector that are 1, rising. -/
def onesOf {n : Nat} (w : BitVec n) : List Nat := (List.range n).filter (fun i => w.getLsbD i)

/-- A vector with the listed bits set. -/
def maskOf (n : Nat) (l : List Nat) : BitVec n := l.foldl (fun w i => setBit w i true) 0

/-- Population count. -/
def pop {n : Nat} (w : BitVec n) : Nat := (onesOf w).length

/-- A number clamped to a range. -/
def clampNat (lo hi v : Nat) : Nat := if v < lo then lo else if hi < v then hi else v

/-- Integer clamped to a range. -/
def clampInt (lo hi v : Int) : Int := if v < lo then lo else if hi < v then hi else v

/-- Saturating subtraction of one from a countdown; `none` stays. -/
def dec1 (o : Option Nat) : Option Nat := o.map (· - 1)

/-- Two's complement of n bits seen as a signed half-range difference a − b. -/
def halfDiff (n : Nat) (a b : Nat) : Int := (BitVec.ofNat n (a + (2 ^ n - b % 2 ^ n))).toInt

end Sys2Proof.Machine
end

