-- ==== Sys2Proof/Machine/State.lean ====
section
/-! DEFINITION. The state of the engine as plain data, and `State.reset`. Each field's comment gives: what it is |
its width | the file and rule of spec/ that names it | its reset value. -/

namespace Sys2Proof.Machine

/-- Why the machine stops. -/
inductive Fault where
  /-- Raised by no meaning: the manual names no event that leaves the engine without a next state. Safe. -/
  | none
  deriving DecidableEq, Repr

/-- Why a command is refused. -/
inductive Refusal where
  /-- An arm of `exec` that has no meaning yet. Safe. -/
  | notModelled (mnemonic : String)
  /-- A TAP instruction code the manual does not list, shifted in while BSCAN_UNLOCK is set: "outside this manual"
  (file 19, R428). Raised by BYPASS only. Safe. -/
  | bscanUnlocked
  deriving DecidableEq, Repr

/-- How far the module is powered and started (file 21). -/
inductive Phase where
  /-- unpowered (R30) -/
  | off
  /-- held in reset or inside the 40 ms sequence (R448) -/
  | reset
  /-- die released, boot loader not done (step 2 of Table 21-3) -/
  | released
  /-- sequencer released, before READY -/
  | booting
  /-- READY (R456) -/
  | ready
  /-- no working-RAM bank passed: never READY (R457) -/
  | stuck
  deriving DecidableEq, Repr

/-- Thyme state (Table 02-3), codes 0 to 4 in order. -/
inductive ThyState where
  | freerun | acquiring | locked | holdover | expired
  deriving DecidableEq, Repr

/-- Pair state (Table 10-1), codes 0 to 5 in order. -/
inductive PairState where
  | arbitrating | unpaired | active | unsynced | syncing | standby
  deriving DecidableEq, Repr

/-- State of a pending-commit entry (R91, R299); FREE is an absent entry. -/
inductive EntState where
  | pending | armed | applied | cancelled | discarded
  deriving DecidableEq, Repr

/-- Equaliser state (Table 09-3), codes 0 to 3 in order. -/
inductive EqState where
  | off | unaligned | aligned | hold
  deriving DecidableEq, Repr

/-- Memory bank power state (R362), codes 0 to 3 in order; `moving` holds the state being reached. -/
inductive BankSt where
  | on | ret | off
  | moving (src dst : Nat)
  deriving DecidableEq, Repr

/-- Frame aligner state (Table 05-9). -/
inductive Aligner where
  | search
  | verify (good : Nat)
  | inFrame (bad : Nat)
  deriving DecidableEq, Repr

/-- Matrix response (Table 16-3). -/
inductive Resp where
  | okay | decerr | slverr | asleep | collision | eccerr
  deriving DecidableEq, Repr

/-- What runs on the sequencer besides a host command. -/
inductive AutoStage where
  | idle | waitRole | stage1 | committed1 | waitLock | stage2 | committed2 | done
  deriving DecidableEq, Repr

/-- Power stage (file 11). `true` names FEED_B where a feed is named. -/
structure PowerSt where
  /-- a feed is selected | 1 | 11 R242 | DESIGN CHOICE true (2) -/
  hasSel : Bool := true
  /-- selected feed SEL | 1 | 11 T11-3 | DESIGN CHOICE FEED_A (2) -/
  sel : Bool := false
  /-- FEED_A GOOD | 1 | 11 R241 | DESIGN CHOICE true (2) -/
  goodA : Bool := true
  /-- FEED_B GOOD | 1 | 11 R241 | DESIGN CHOICE true (2) -/
  goodB : Bool := true
  /-- live comparators A_UV, B_UV, A_OV, B_OV | 4 | 11 T11-3 | 0 (2) -/
  uvA : Bool := false
  uvB : Bool := false
  ovA : Bool := false
  ovB : Bool := false
  /-- BROWNOUT | 1 | 11 R246 | 0 (2) -/
  brownout : Bool := false
  /-- a UV or OV stands declared on the selected feed | 1 | 11 R246 | 0 -/
  declared : Bool := false
  /-- overcurrent latch | 1 | 11 R247 | 0 -/
  latched : Bool := false
  /-- FEED_A path closed | 1 | 11 R243 | selected path (2) -/
  pathA : Bool := true
  /-- FEED_B path closed | 1 | 11 R243 | open (2) -/
  pathB : Bool := false
  /-- failover under way to a feed | 2 | 11 R243 | none -/
  failover : Option Bool := none
  /-- manual switch in progress, its target | 2 | 11 R250 | none -/
  switching : Option Bool := none
  /-- FEED_SELECT.TARGET last written | 1 | 18 T18-16 | SEL -/
  target : Bool := false
  /-- PATH_SUSPECT_A, _B | 2 | 11 R250 | 0 (2) -/
  suspectA : Bool := false
  suspectB : Bool := false
  /-- MON_FAULT | 1 | 11 T11-3 | 0 -/
  monFault : Bool := false
  /-- FEED_SW_RESULT | 3 | 11 T11-4 | 0 -/
  result : Nat := 0
  /-- PWR_LAST_OFF.CAUSE held by the controller | 3 | 11 R248 | 0 (2) -/
  lastOff : Nat := 0
  /-- cause of a power-down to report at the next start-up | 3 | 11 R248 | 0 -/
  offCause : Nat := 0
  /-- feed events registered by the die, to be recorded at the next frame boundary: FEED_HIST bits | 8 | 11 R249 | 0 -/
  pendHist : BitVec 8 := 0
  /-- counters of block 7 to step at the next frame boundary | list | 11 R249 | empty -/
  pendCtr : List Nat := []
  /-- FEED records to write: subtype, old SEL, new SEL, reason, SFP of registration | list | 11 R249 | empty -/
  pendRec : List (Nat × Bool × Bool × Nat × Sfp) := []
  /-- FEED_A_MV, FEED_B_MV | 16 each | 11 R249 | 0 -/
  mvA : BitVec 16 := 0
  mvB : BitVec 16 := 0
  /-- FEED_LOAD | 32 | 11 R249 | 0 -/
  load : Word := 0
  /-- the SINGLE check of the first frame boundary after release is done | 1 | 11 R253 | false -/
  firstFrame : Bool := false
  deriving DecidableEq, Repr

/-- One Thyme candidate's running state (R39 to R42). -/
structure CandSt where
  /-- qualified | 1 | 02 R42 | 0 -/
  qualified : Bool := false
  /-- in fault, as declared | 1 | 02 R39 | 0 -/
  fault : Bool := false
  /-- disqualified by a fault and not yet restored | 1 | 02 R40 | 0 -/
  disq : Bool := false
  /-- hold-off frames remaining | 15 | 02 R41 | none -/
  hold : Option Nat := none
  /-- WTR frames remaining | 23 | 02 R42 | none -/
  wtr : Option Nat := none
  /-- frames of the first qualification remaining | 10 | 02 R42 | none -/
  qual : Option Nat := none
  /-- consecutive measurements beyond FREQ_LIMIT | 2 | 02 T02-4 | 0 -/
  bad : Nat := 0
  /-- the last complete measurement lies beyond the limit | 1 | 02 R42 | 0 -/
  beyond : Bool := false
  /-- frequency-offset fault declared | 1 | 02 T02-4 | 0 -/
  freqFault : Bool := false
  /-- a frequency-offset fault to be declared at the next frame boundary | 1 | 02 R39 | 0 -/
  freqPend : Bool := false
  /-- the measurement window in progress counts for this candidate | 1 | 02 R42 | 0 -/
  winOk : Bool := false
  deriving DecidableEq, Repr

/-- One holdover history entry (Table 03-1). -/
structure HistEntry where
  /-- SAMPLE_MFC | 48 | 03 T03-1 | 0 -/
  mfc : BitVec 48 := 0
  /-- FREQ | 48 | 03 T03-1 | 0 -/
  freq : BitVec 48 := 0
  /-- TEMP | 16 | 03 T03-1 | 0x8000 -/
  temp : BitVec 16 := 0x8000
  /-- VALID | 1 | 03 R66 | 0 -/
  valid : Bool := false
  /-- FAULT_SEEN | 1 | 03 T03-1 | 0 -/
  faultSeen : Bool := false
  /-- CAND | 4 | 03 T03-1 | 0xF -/
  cand : BitVec 4 := 0xF
  /-- SPREAD | 8 | 03 T03-1 | 0 -/
  spread : BitVec 8 := 0
  deriving DecidableEq, Repr

/-- One frame-pulse input, or the trunk as frame-phase source (R51, R52). -/
structure FpSt where
  /-- position of the last pulse's edge, or of the last O0 with FI 0 | 80 | 02 R51, R52 | none -/
  last : Option Sfp := none
  /-- pulses present: a train regular to within FP_WINDOW | 1 | 02 R51 | 0 -/
  present : Bool := false
  /-- consecutive on-time pulses | 5 | 02 R51 | 0 -/
  good : Nat := 0
  /-- qualified | 1 | 02 R51 | 0 -/
  qualified : Bool := false
  /-- consecutive off-time pulses at one offset | 4 | 02 T02-10 | 0 -/
  off : Nat := 0
  /-- that offset in blocks | signed | 02 T02-10 | 0 -/
  offAt : Int := 0
  /-- consecutive missing pulses | 2 | 02 T02-10 | 0 -/
  missed : Nat := 0
  /-- the last pulse was on time | 1 | 02 T02-9 | 0 -/
  onTime : Bool := false
  /-- where the last missing pulse was counted | 80 | 02 T02-10 | none -/
  missAt : Option Sfp := none
  deriving DecidableEq, Repr

/-- The activity monitor of one REFIN (Table 02-4). -/
structure RefinSt where
  /-- position of the last rising edge at 1 Hz | 80 | 02 T02-4 | none -/
  last : Option Sfp := none
  /-- consecutive pulses missing at 1 Hz | 2 | 02 T02-4 | 0 -/
  miss : Nat := 0
  /-- at 1 Hz, no activity: before the first two pulses 1 s apart, and from the second one missing | 1 | 02 T02-4 | 1 -/
  dead : Bool := true
  /-- at another frequency, a gap beyond the limit in the last frame | 1 | 02 T02-4 | 0 -/
  gap : Bool := false
  deriving DecidableEq, Repr

/-- Thyme (files 02 and 03). -/
structure ThySt where
  /-- DPLL state | 3 | 03 R76 | FREERUN -/
  st : ThyState := .freerun
  /-- candidates 0 to 11 | table | 02 R31 | all idle -/
  cands : Tbl CandSt := []
  /-- REFIN0 to REFIN3 | table | 02 T02-4 | idle -/
  refins : Tbl RefinSt := []
  /-- a rising edge of CLKOUT n while it runs at 1 Hz | table | 02 R56 | none -/
  clkPh : Tbl (Option Sfp) := []
  /-- blocks from the epoch boundary to the rising edge of FPOUT_A and FPOUT_B in this multiframe | 23, 23 | 02 R55 | 0, 0 -/
  fpOut : Nat × Nat := (0, 0)
  /-- selected frequency reference | 4 | 02 R43 | none -/
  ref : Option Nat := none
  /-- switch due: candidate, reason and the frame boundary at which it is made | 87 | 02 R43 | none -/
  next : Option (Nat × Nat × Sfp) := none
  /-- frames in a row within LOCK_WINDOW while ACQUIRING | data | 02 R48 | 0 -/
  lockRun : Nat := 0
  /-- boundary of the last state change | 80 | 03 R76 | none -/
  changedAt : Option Sfp := none
  /-- boundary of the last D3 strobe | 80 | 02 T02-9 | none -/
  cfgAt : Option Sfp := none
  /-- THYME_FORCE | 4 | 02 R45 | none -/
  force : Option Nat := none
  /-- REF_FAULT | 1 | 02 R40 | 0 -/
  refFault : Bool := false
  /-- ALL_DNU | 1 | 02 T02-9 | 0 -/
  allDnu : Bool := false
  /-- control value | 48 | 03 Model | 0 -/
  ctl : BitVec 48 := 0
  /-- PBO_OFFSET | 32 | 02 R49 | 0 -/
  pbo : Word := 0
  /-- BW_EFF | 4 | 02 R47 | 0xB (T18-14) -/
  bwEff : BitVec 4 := 0xB
  /-- QL recorded by SET_QL for REFIN n at bits 4n+3..4n | 16 | 02 R37 | 0xFFFF (DNU) -/
  refinQl : BitVec 16 := 0xFFFF
  /-- history ring, newest first | 4096 x 128 | 03 R64 | empty entries (R79) -/
  hist : List HistEntry := []
  /-- interval flags of R66: LOCKED throughout | 1 | 03 R66 | 0 -/
  ivLocked : Bool := false
  /-- REF_FAULT seen in the interval | 1 | 03 R66 | 0 -/
  ivFault : Bool := false
  /-- reference changed in the interval | 1 | 03 R66 | 0 -/
  ivRefChange : Bool := false
  /-- the control value, where it has stood still since the last sample boundary | 48 | 03 R65 | none -/
  ivCtl : Option (BitVec 48) := none
  /-- epochs of the interval counted since the last sample boundary, none after an MFC jump | 9 | 03 R66 | none -/
  ivEpochs : Option Nat := none
  /-- HO_FREQ | 48 | 03 R69 | 0 -/
  hoFreq : BitVec 48 := 0
  /-- HO_VALID_COUNT | 12 | 03 R69 | 0 -/
  hoCount : Nat := 0
  /-- HO_WINDOW_END | 48 | 03 R69 | 0 -/
  hoEnd : BitVec 48 := 0
  /-- sum and number of the valid TEMPs of the window (T_ref) | data | 03 R71 | 0 -/
  tRef : Int × Nat := (0, 0)
  /-- HB_ACCUM in units of 10^-33 s / 86400 | data | 03 R71 | 0 -/
  hbAccum : Nat := 0
  /-- t: blocks from entry to HOLDOVER to the last evaluation | data | 03 R71 | 0 -/
  hbT : Nat := 0
  /-- position of the last evaluation, at first of entry to HOLDOVER | 80 | 03 R71 | none -/
  hbAt : Option Sfp := none
  /-- HB_REMAIN | 32 | 03 R72 | 0 -/
  hbRemain : Nat := 0
  /-- HO_READY | 1 | 03 R67 | 0 -/
  hoReady : Bool := false
  /-- OCXO_DAYS | 16 | 03 R74 | loaded from flash: 0 (6) -/
  days : Nat := 0
  /-- OCXO_DAYS has been loaded (HB_EARLY reads 1 before) | 1 | 18 T18-14 | false -/
  daysLoaded : Bool := false
  /-- where the present 24 hours of the count began, none while it does not run | 80 | 03 R74 | none -/
  dayAt : Option Sfp := none
  /-- OCXO_TEMP | 16 | 18 T18-18 | 0x8000 -/
  temp : BitVec 16 := 0x8000
  /-- TEMP of the most recent sample boundary | 16 | 03 R71 | 0x8000 -/
  sampleTemp : BitVec 16 := 0x8000
  /-- frame-phase inputs: 0 FPIN_A, 1 FPIN_B, 2 trunk | table | 02 R51 | idle -/
  fp : Tbl FpSt := []
  /-- the first alignment has been taken | 1 | 02 R54 | 0 -/
  fpAligned : Bool := false
  /-- the permission for the first step has lapsed | 1 | 02 R54 | 0 -/
  fpLapsed : Bool := false
  /-- FP_FLYWHEEL | 1 | 02 T02-10 | 0 -/
  flywheel : Bool := false
  /-- phase correction applied so far, in blocks, and epochs since the last | data | 02 R52 | 0 -/
  fpCorr : Int × Nat := (0, 0)
  /-- MFC_VALID | 1 | 02 R57 | 0 -/
  mfcValid : Bool := false
  /-- MFC_SRC_MISMATCH | 1 | 02 R58 | 0 -/
  mfcMism : Bool := false
  /-- learning: the value of the last complete multiframe received, and the local MFC it is paired with | 96 | 02 R57 | none -/
  learn1 : Option (Nat × Nat) := none
  /-- learned value awaiting the next epoch boundary | 48 | 02 R57 | none -/
  learned : Option Nat := none
  /-- pending SET_QL: boundary, REFIN, code | data | 14 R308 | empty -/
  pendQl : List (Sfp × Nat × BitVec 4) := []
  /-- pending THYME_FORCE | data | 14 R308 | none -/
  pendForce : Option (Sfp × Option Nat) := none
  /-- pending SET_MFC (some) or MFC_RELEARN (none) | data | 14 R309 | none -/
  pendMfc : Option (Sfp × Option Nat) := none
  /-- pending FP_REALIGN | 80 | 14 R310 | none -/
  pendRealign : Option Sfp := none
  deriving DecidableEq, Repr

/-- One pending-commit entry (R91). -/
structure CommitEnt where
  /-- target epoch | 48 | 04 R91 -/
  epoch : Nat
  /-- mask | 8 | 04 R91 -/
  mask : BitVec 8
  /-- domains removed by COMMIT_CANCEL | 8 | 04 R94 -/
  removed : BitVec 8 := 0
  /-- GRP of the first COMMIT | 1 | 04 R91 -/
  grp : Bool := false
  /-- DEST of the first COMMIT | 12 | 04 R91 -/
  dest : BitVec 12 := 0
  /-- merge records, AUTH and SEQ, at most 4 | 4 x 48 | 04 R91 -/
  recs : List (BitVec 16 × BitVec 32) := []
  /-- total number of COMMITs that named it | 32 | 04 R91 -/
  count : Nat := 1
  /-- state | 3 | 04 R91 -/
  st : EntState := .pending
  /-- frozen validation still to be made | 1 | 04 R92 -/
  validating : Bool := false
  /-- discard reason, row and index (R94, T19-4) | data | 04 R94 -/
  reason : Nat := 0
  row : Nat := 0
  idx : Nat := 0
  /-- AUTO_RESTORE stage that made it: 0 none | 2 | 21 R458 -/
  auto : Nat := 0
  /-- MAP_SWAP_CHANGED of its strobe | 14 | 07 R172 -/
  changed : Nat := 0
  /-- boundary or position of its outcome | 80 | 04 R94 -/
  outAt : Option Sfp := none
  deriving DecidableEq, Repr

/-- The commit unit (file 04) and the snapshot requests it sits beside (R147). -/
structure CommitSt where
  /-- pending-commit table, absent = FREE | 16 entries | 04 R91 | all FREE -/
  ents : Tbl CommitEnt := []
  /-- STAGE_OPEN | 8 | 04 R100 | 0 -/
  stageOpen : BitVec 8 := 0
  /-- STAGE_SUSPECT | 8 | 04 R100 | 0 -/
  suspect : BitVec 8 := 0
  /-- frozen domains | 8 | 04 R92 | 0 -/
  frozen : BitVec 8 := 0
  /-- epoch at which that freeze ends | 48 | 04 R92 | 0 -/
  frozenTo : Nat := 0
  /-- COMMIT_STATUS.FROZEN_WR | 1 | 04 R92 | 0 -/
  frozenWr : Bool := false
  /-- SFP of the last update strobe | 80 | 22 T22-6 | none -/
  strobeAt : Option Sfp := none
  /-- LAST_EPOCH | 48 | 04 R94 | 0 -/
  lastEpoch : Nat := 0
  /-- MFC captured with SFP_CAP_POS | 48 | 04 R84 | 0 -/
  capMfc : Nat := 0
  /-- pending PORT_SNAPSHOT requests | 8 x (80 + 128) | 06 R147 | empty -/
  snaps : List (Sfp × BitVec 128) := []
  /-- a CFG_SAVE awaiting its frame boundary: the AUTO_RESTORE flag and whether flash accepts it | 2 | 13 R285 | none -/
  cfgSave : Option (Bool × Bool) := none
  deriving DecidableEq, Repr

/-- The trunk receive side of a port (file 05). -/
structure TrunkSt where
  /-- frame aligner | data | 05 R118 | SEARCH -/
  align : Aligner := .search
  /-- in multiframe | 1 | 05 R119 | 0 -/
  inMf : Bool := false
  /-- FI expected of the next O0, once one has been read in IN_FRAME | 5 | 05 R119 | none -/
  nextFi : Option Nat := none
  /-- run of consecutive correct O0s in sequence, and out of it | 2 each | 05 R119 | 0 -/
  fiRun : Nat := 0
  fiBad : Nat := 0
  /-- runs of RDI = 1 and RDI = 0 | 2 each | 05 T05-12 | 0 -/
  rdiOn : Nat := 0
  rdiOff : Nat := 0
  /-- MFC bytes collected from FI 0 to 5 | 6 bytes | 02 R57 | empty -/
  mfcBytes : Bytes := []
  /-- consecutive multiframes whose MFC differs, and matches | 2 each | 02 R58 | 0 -/
  mfcBad : Nat := 0
  mfcGood : Nat := 0
  /-- local MFC of the multiframe last compared | 48 | 02 R58 | none -/
  mfcAt : Option Nat := none
  /-- bytes of the O0 of the present frame (for the O1 CRC), none when errored | 7 bytes | 05 T05-6 | none -/
  o0 : Option W56 := none
  /-- FI of the present frame | 5 | 05 R108 | 0 -/
  fi : Nat := 0
  /-- LPBK of the accepted O0 | 1 | 05 R117 | 0 -/
  lpbk : Bool := false
  /-- MAP_SEL received | 1 | 05 R108 | 0 -/
  mapSel : Bool := false
  /-- received SMI and its validity | 17 | 18 T18-4 | 0 -/
  rxSmi : Option (BitVec 16) := none
  /-- consecutive frames whose SMI differs, and matches | 6 each | 05 R110 | 0 -/
  smiBad : Nat := 0
  smiGood : Nat := 0
  /-- QL filter: value and run | 4 + 2 | 02 R35 | none -/
  qlCand : Option (BitVec 4 × Nat) := none
  /-- trail trace bytes of the multiframe in progress | 64 bytes | 05 R111 | empty -/
  ttiCur : Bytes := []
  /-- trail trace of the last complete multiframe | 64 bytes | 05 R111 | none -/
  ttiPrev : Option Bytes := none
  /-- RX_TTI accepted | 64 bytes | 05 R111 | none -/
  rxTti : Option Bytes := none
  /-- packet in reassembly | 2048 bytes | 05 R115 | none -/
  reasm : Option Bytes := none
  /-- identity filter: DEVID, PORT, ROLE, TSTATE as O7 bits 55..32, and its run | 24 + 2 | 05 R117 | none -/
  peerCand : Option (BitVec 24 × Nat) := none
  /-- accepted identity | 24 | 05 R117 | none -/
  peer : Option (BitVec 24) := none
  /-- payload blocks received in frame, oldest first: what the elastic buffer still holds | 2S blocks | 05 R120 | empty -/
  mem : List Block := []
  /-- elastic buffer fill in blocks, the newest of `mem` not yet delivered; none before a centring | 16 | 05 R120 | none -/
  fill : Option Nat := none
  /-- SFP of the most recent slip, while the SLIP defect stands | 80 | 05 T05-12 | none -/
  slipAt : Option Sfp := none
  deriving DecidableEq, Repr

/-- A buffer that matches two rates by deleting and inserting blocks between packets (R137 to R140): a client's
adaptation buffer, the loopback buffer of FAR mode (R148), and the de-adaptation buffer, which only inserts (R143). -/
structure AdaptSt where
  /-- blocks held, oldest first | blocks | 06 R136, R143, R148 | empty -/
  buf : List Block := []
  /-- positions of a centred buffer that no block of the stream has filled (log 77) | 16 | 06 R136 | 0 -/
  pad : Nat := 0
  /-- predecessor on the write side | 66 | 06 R137 | none -/
  prevW : Option Block := none
  /-- predecessor on the read side | 66 | 06 R137 | none -/
  prevR : Option Block := none
  /-- the read side stands inside a packet | 1 | 06 R137 | 0 -/
  pktR : Bool := false
  /-- deletion credits and blocks received toward the next | 5 + 13 | 06 R138 | 0 -/
  credits : Nat := 0
  toCredit : Nat := 0
  /-- blocks of the packet in progress on the write side, 0 outside a packet | 12 | 06 R140 | 0 -/
  pkt : Nat := 0
  /-- a whole packet is being dropped: SFP and fill at its start, blocks so far | data | 06 R139 | none -/
  dropping : Option (Sfp × Nat × Nat) := none
  /-- an overlength packet is being discarded | 1 | 06 R140 | 0 -/
  overlen : Bool := false
  deriving DecidableEq, Repr

/-- The client receive side of a port (file 06). -/
structure ClientSt where
  /-- adaptation buffer | data | 06 R136 to R140 | empty -/
  ad : AdaptSt := {}
  /-- loopback buffer of FAR mode | data | 06 R148 | empty -/
  loop : AdaptSt := {}
  /-- the adapter has centred at first lock | 1 | 06 R156 | 0 -/
  centred : Bool := false
  /-- blocks received since the last AD_PPM report | data | 06 R142 | 0 -/
  rx16 : Nat := 0
  /-- AD_PPM | 16 signed | 06 R142 | 0 -/
  adPpm : BitVec 16 := 0
  /-- consecutive reports above +200.0 ppm | 2 | 06 R142 | 0 -/
  oorRun : Nat := 0
  /-- runs of Local Fault and Remote Fault ordered sets | 3 each | 06 T06-6 | 0 -/
  lfRun : Nat := 0
  rfRun : Nat := 0
  /-- a code received by ESMC, effective at the next frame boundary | 4 | 02 R36 | none -/
  qlPend : Option (BitVec 4) := none
  /-- epochs since the ESMC timer was started; none while it does not run | 11 | 06 R146 | none -/
  esmcAge : Option Nat := none
  /-- the error block that ends a cut packet is due | 1 | 06 R155 | 0 -/
  cut : Bool := false
  /-- an SF stood at the start of the present calendar cycle: its slots carry Local Fault | 1 | 06 R155 | 0 -/
  cycLf : Bool := false
  /-- after a cleared SF the slots wait for the first start or idle block | 1 | 06 R155 | 0 -/
  waitStart : Bool := false
  deriving DecidableEq, Repr

/-- A packet in a trunk channel transmit queue (R438). -/
structure ChanPkt where
  /-- PRI -/
  pri : BitVec 2
  /-- packet bytes -/
  bytes : Bytes
  deriving DecidableEq, Repr

/-- One queued urgent APS copy (R190). -/
structure ApsCopy where
  /-- group -/
  g : Nat
  /-- 0 first copy, 1 second, 2 third -/
  rank : Nat
  /-- frames until it may go -/
  due : Nat
  /-- the message without its CRC, bits 55..16 -/
  msg : BitVec 40
  deriving DecidableEq, Repr

/-- One port (files 05, 06, 15 of the channel). -/
structure PortSt where
  /-- defect and indication conditions as they stand now, bit positions of PORT_DEF | 16 | 05 R125 | 0x0003 (R395) -/
  raw : BitVec 16 := 0x0003
  /-- live indications reported at the last frame boundary: PORT_DEF | 16 | 18 T18-4 | 0x0003 -/
  rep : BitVec 16 := 0x0003
  /-- declarations and clearings since the last frame boundary, oldest first: bit and direction | list | 05 R125 | empty -/
  chg : List (Nat × Bool) := []
  /-- the ingress slots carry Local Fault since declaration | 1 | 05 R127 | 1 -/
  fillLf : Bool := true
  /-- trunk receive side | data | 05 | idle -/
  trunk : TrunkSt := {}
  /-- client receive side | data | 06 | idle -/
  client : ClientSt := {}
  /-- accepted QL (PORT_RX_QL) | 4 | 06 R146 | 0xF (DNU) -/
  ql : BitVec 4 := 0xF
  /-- QL_STALE | 1 | 06 R146 | 0 -/
  qlStale : Bool := false
  /-- SFP of the QL's acceptance | 80 | 06 R146 | 0 -/
  qlSfp : Sfp := {}
  /-- snapshot buffer | 71 x 64 | 06 R147 | not valid -/
  snap : Option (Sfp × List Nat) := none
  /-- bandwidth window: epochs left, ingress and egress counts | data | 19 R421 | none started -/
  bwLeft : Option Nat := none
  bwIn : Nat := 0
  bwEg : Nat := 0
  /-- last completed window: length, end, counts | data | 19 R421 | 0 -/
  bwLast : Option (Nat × Sfp × Nat × Nat) := none
  /-- channel transmit queue | 8 packets | 20 R438 | empty -/
  txq : List ChanPkt := []
  /-- packet being sent on the channel and bytes already sent | data | 05 R114 | none -/
  txNow : Option (ChanPkt × Nat) := none
  /-- urgent APS queue | 192 copies | 20 T20-1 | empty -/
  urgent : List ApsCopy := []
  /-- O0, O1, O2, O3, O4 to O6 as 21 bytes, and O7 last framed on this port | W56s | 05 R103 | 0 -/
  txO0 : W56 := 0
  txO1 : W56 := 0
  txO2 : W56 := 0
  txO3 : W56 := 0
  txChunk : Bytes := []
  txO7 : W56 := 0
  /-- RDI being transmitted | 1 | 05 R127 | 0 -/
  txRdi : Bool := false
  /-- eightieths of a block that the line still takes beside n blocks a calendar cycle | data | 06 R143 | 0 -/
  egOwe : Nat := 0
  /-- de-adaptation buffer of a client | 64 blocks | 06 R143 | empty -/
  eg : AdaptSt := {}
  /-- payload blocks the port transmitted in the last calendar cycle; none while its lane is idle | list | 06 R148,
  10 R214 | empty -/
  line : List Block := []
  /-- NEAR loopback: transmitted blocks that the receive side has still to take | list | 06 R148 | empty -/
  near : List Block := []
  /-- uncorrectable codewords of the present local frame, and frames below FEC_FAIL_THR in a row | 32 + 4 | 05 R125 | 0 -/
  fecCw : Nat := 0
  fecGood : Nat := 0
  /-- corrected symbols of the present local multiframe; the last one was above FEC_DEG_THR; multiframes at or below it
  in a row | 32 + 1 + 2 | 05 R125 | 0 -/
  fecSym : Nat := 0
  degLast : Bool := false
  degGood : Nat := 0
  deriving DecidableEq, Repr

/-- A pattern checker (R151). -/
structure ChkSt where
  /-- in sync | 1 | 06 R151 | 0 -/
  sync : Bool := false
  /-- last block's payload as seed | 64 | 06 R151 | none -/
  last : Option (BitVec 64) := none
  /-- errored-block history, newest in bit 0 | 8 | 06 R151 | 0 -/
  errs : BitVec 8 := 0
  deriving DecidableEq, Repr

/-- Hold-off of one signal condition of a group (R183). -/
structure CondSt where
  /-- the defect stands reported | 1 | 08 R183 | 0 -/
  present : Bool := false
  /-- frames of hold-off run so far | 17 | 08 R183 | 0 -/
  run : Nat := 0
  /-- the request is raised | 1 | 08 R183 | 0 -/
  raised : Bool := false
  deriving DecidableEq, Repr

/-- Marker detector of one source of a lead member (R203). -/
structure MarkSt where
  /-- marker lock | 1 | 09 R203 | 0 -/
  lock : Bool := false
  /-- SEQ of the last good marker and its calendar cycle | data | 09 R203 | none -/
  last : Option (Nat × Int) := none
  /-- cycles slipped on the source port since the last marker, signed | data | 09 R203 | 0 -/
  slipped : Int := 0
  deriving DecidableEq, Repr

/-- One protection group (files 08 and 09). -/
structure GrpSt where
  /-- GRP_EN active at the last evaluation | 1 | 18 T18-8 | 0 -/
  en : Bool := false
  /-- selector | 1 | 08 Model | 0 -/
  sel : Bool := false
  /-- selector the egress side uses | 1 | 08 R187 | 0 -/
  egSel : Bool := false
  /-- frame boundary of an errorless selector change that awaits a marker boundary | 80 | 09 R208 | none -/
  eqPend : Option Sfp := none
  /-- stored LO, FS, MS | 3 | 08 R184 | 0 -/
  lo : Bool := false
  fs : Bool := false
  ms : Bool := false
  /-- pending operator requests: boundary, REQ code, holder class | list | 13 R293 | empty -/
  pend : List (Sfp × BitVec 4 × Bool) := []
  /-- state request code: 0 NR, 1 DNR, 2 WTR | 4 | 08 R185 | 0 -/
  stReq : BitVec 4 := 0
  /-- WTR frames run so far | 23 | 08 R181 | 0 -/
  wtrRun : Nat := 0
  /-- WTR was started by the strobe of the boundary still to be evaluated | 1 | 08 R181 | 0 -/
  wtrNew : Bool := false
  /-- conditions: SF on working, SF_P, SD | 3 | 08 R183 | idle -/
  sf : CondSt := {}
  sfp : CondSt := {}
  sd : CondSt := {}
  /-- local, remote and effective request codes and REQ_SIG | 5 each | 18 T18-8 | 0 -/
  loc : BitVec 4 := 0
  locSig : Bool := false
  rem : BitVec 4 := 0
  remSig : Bool := false
  eff : BitVec 4 := 0
  effSig : Bool := false
  /-- APS message last composed, bits 55..16 without SEQ changes; its SEQ | 40 + 8 | 08 R189 | none -/
  txMsg : Option (BitVec 40) := none
  seq : BitVec 8 := 0
  /-- last accepted APS message | 56 | 08 R191 | none -/
  rx : Option W56 := none
  /-- valid message of this frame | 56 | 08 R191 | none -/
  rxNew : Option W56 := none
  /-- epochs without a valid message | 3 | 08 R193 | 0 -/
  apsAge : Nat := 0
  /-- runs for FOP_PM and REV_MISMATCH, bad and good | 2 each | 08 R193 | 0 -/
  pmBad : Nat := 0
  pmGood : Nat := 0
  rvBad : Nat := 0
  rvGood : Nat := 0
  /-- boundaries at which BR_SIG received differed from REQ_SIG sent | 10 | 08 R193 | 0 -/
  nrRun : Nat := 0
  /-- APS_LOSS, FOP_PM, FOP_NR, REV_MISMATCH | 4 | 08 T08-6 | 0 -/
  apsLoss : Bool := false
  fopPm : Bool := false
  fopNr : Bool := false
  revMism : Bool := false
  /-- an indication or a dropped MS to report with the next item | 2 | 08 R194 | 0 -/
  indChg : Bool := false
  cmdDrop : Bool := false
  /-- a changed message was accepted: its SEQ is to be traced | 1 | 08 R191 | 0 -/
  rxChg : Bool := false
  /-- protection table error held | 1 | 08 T08-10 | 0 -/
  tblErr : Bool := false
  /-- equaliser state | 3 | 09 T09-3 | OFF -/
  eq : EqState := .off
  /-- equaliser reason (T13-8) | 5 | 13 R294 | 0 -/
  eqWhy : Nat := 0
  /-- E in cycles | 11 | 09 R205 | 0 -/
  e : Nat := 0
  /-- DELAYED_PATH: protection is the delayed source | 1 | 09 T09-2 | 0 -/
  delProt : Bool := false
  /-- slips whose blocks are still in the slot store: the calendar cycle that reads them, what E changed by, and for a
  slip of the delayed source its K and whether it is a skip | list | 09 R210 | empty -/
  eqShift : List (Int × Int × Option (Nat × Bool)) := []
  /-- marker detectors | data | 09 R203 | idle -/
  mw : MarkSt := {}
  mp : MarkSt := {}
  /-- last Δ measured and how many multiframes in a row it was found | data | 09 R204 | none -/
  delta : Option (Int × Nat) := none
  /-- SEQ of the last marker matched on both paths | 48 | 09 T09-2 | 0 -/
  seqBoth : Nat := 0
  /-- the first engagement after the enabling strobe is still allowed | 1 | 09 R206 | 0 -/
  firstEng : Bool := false
  /-- a PROT_EQ_REALIGN grant stands | 1 | 13 R295 | 0 -/
  grant : Bool := false
  /-- a valid measurement has come since that grant | 1 | 13 R295 | 0 -/
  grantMeas : Bool := false
  /-- EQ_MIRROR_DIFF raised | 1 | 10 R219 | 0 -/
  mirDiff : Bool := false
  deriving DecidableEq, Repr

/-- A protection event item (R434): subtype, changes and SFP, ready as a trace record's CLASS and body. -/
structure ProtItem where
  /-- 3 PROTECTION or 4 ERRORLESS -/
  cls : Nat
  /-- subtype -/
  sub : Nat
  /-- group -/
  g : Nat
  /-- SFP of the deciding boundary -/
  at_ : Sfp
  /-- DATA bytes 14 to 31 -/
  data : Bytes
  deriving DecidableEq, Repr

/-- The twin pair (file 10). -/
structure PairSt where
  /-- pair state | 3 | 10 T10-1 | ARBITRATING -/
  st : PairState := .arbitrating
  /-- reason for STANDBY_UNSYNCED | 3 | 14 T14-5 | 0 -/
  why : Nat := 0
  /-- ALIVE_IN after its deglitch | 1 | 10 R224 | DESIGN CHOICE low (3) -/
  aliveIn : Bool := false
  /-- ALIVE_OUT | 1 | 10 R214 | 0 -/
  aliveOut : Bool := false
  /-- Chive lanes live | 2 | 10 R218 | 0 -/
  live0 : Bool := false
  live1 : Bool := false
  /-- CHIVE_LANE_DOWN, per lane | 2 | 10 R218 | 0 -/
  down0 : Bool := false
  down1 : Bool := false
  /-- SFP of the last heartbeat on each lane | 80 each | 10 R218 | none -/
  hb0 : Option Sfp := none
  hb1 : Option Sfp := none
  /-- peer's last heartbeat: PAIR_STATE, POS, ALIVE, COMPAT | 13 | 14 T14-5 | none -/
  peer : Option (BitVec 3 × Bool × Bool × Byte) := none
  /-- MIRROR_LOST | 1 | 10 R218 | 0 -/
  lost : Bool := false
  /-- ALIVE_DISAGREE | 1 | 10 R227 | 0 -/
  disagree : Bool := false
  /-- DUAL_ACTIVE | 1 | 10 R228 | 0 -/
  dual : Bool := false
  /-- TAKEOVER_BLOCKED | 1 | 10 R227 | 0 -/
  blocked : Bool := false
  /-- AUTH_HASH_MISMATCH, by slot | 64 | 10 R220 | 0 -/
  hashBad : BitVec 64 := 0
  /-- TX_SUSPECT | 128 | 10 R236 | 0 -/
  txSuspect : BitVec 128 := 0
  /-- transmit watch: its end and, per port, RDI or RF standing at the change | data | 10 R236 | none -/
  watch : Option (Sfp × BitVec 128) := none
  /-- pending swap: F and whether the standby confirmed | 81 | 10 R234 | none -/
  swap : Option (Sfp × Bool) := none
  /-- old active after F, waiting for ALIVE_IN: its F | 80 | 10 R235 | none -/
  swapped : Option Sfp := none
  /-- PAIR_RESYNC in progress | 1 | 10 R232 | 0 -/
  resync : Bool := false
  /-- MFC slices of the peer's present multiframe, by FI mod 6, and the FI of its last heartbeat | data | 10 R217 | empty -/
  hbSlices : Tbl Nat := []
  hbFi : Nat := 0
  /-- the active was serving a resync that must restart | 1 | 10 R233 | 0 -/
  serving : Bool := false
  /-- SFP of the last pair-state change | 80 | 14 T14-5 | 0 -/
  changed : Sfp := {}
  /-- consecutive boundaries with ALIVE_IN high in ACTIVE or UNPAIRED | 2 | 10 R228 | 0 -/
  dualRun : Nat := 0
  /-- consecutive boundaries with ALIVE_IN low in ARBITRATING | 12 | 10 R238 | 0 -/
  arbRun : Nat := 0
  /-- PAIR_FORCE_ACTIVE pending boundary | 80 | 10 R229 | none -/
  force : Option Sfp := none
  /-- audit segments that mismatched at the last audit | list | 10 R221 | empty -/
  auditBad : List Nat := []
  /-- stamp of the last mirrored protection table | 80 | 10 R226 | none -/
  stamp : Option Sfp := none
  /-- phase of the resync in progress: 1 Link to 5 Settle, 0 none, and where each phase so far began | 3 + data | 10
  T10-5 | 0, empty -/
  phase : Nat := 0
  phaseAt : List Sfp := []
  /-- changes mirrored during the Bulk phase, oldest first: SFP and record | list | 10 T10-5 | empty -/
  journal : List (Sfp × MirrorRec) := []
  /-- ports marked in the transmit watch that runs | 128 | 10 R236 | 0 -/
  watchNew : BitVec 128 := 0
  /-- after a swap, where the drivers begin to transmit | 80 | 10 R234 | none -/
  txFrom : Option Sfp := none
  deriving DecidableEq, Repr

/-- A record in the Chive mirror queue (R219, R435). -/
structure MirItem where
  /-- SFP at which it was generated -/
  at_ : Sfp
  /-- a full-state record -/
  full : Bool
  /-- its content -/
  body : MirrorRec
  deriving DecidableEq, Repr

/-- What a full-state record or a part of the bulk transfer is read from (R435, Table 10-5). -/
inductive MirSrc where
  /-- a segment or a view, by its place in the audit -/
  | part (k : Nat)
  /-- STAGE_OPEN and STAGE_SUSPECT -/
  | stage
  /-- an entry of the pending-commit table -/
  | entry (i : Nat)
  /-- the pending snapshot requests -/
  | snaps
  /-- Thyme's state -/
  | thyme
  /-- a candidate's counts -/
  | cand (c : Nat)
  /-- the holdover history -/
  | history
  /-- the holdover value and budget -/
  | holdover
  /-- the urgent queue of a trunk -/
  | urgent (p : Nat)
  /-- a group -/
  | group (g : Nat)
  /-- an errorless group's state and E -/
  | eq (g : Nat)
  /-- a delay line's allotment -/
  | allot (l : Nat)
  /-- the hash of an authority slot -/
  | hash (k : Nat)
  /-- the last accepted sequence number of an authority -/
  | lastSeq (k : Nat)
  /-- the audit -/
  | audit
  /-- the end of the bulk transfer -/
  | bulkEnd
  deriving DecidableEq, Repr

/-- The Chive mirror engine, M3 (R219, R435). -/
structure MirSt where
  /-- mirror queue, oldest first | 16,384 lane blocks | 20 R435 | empty -/
  q : List MirItem := []
  /-- lane blocks of the oldest record already sent | data | 20 R435 | 0 -/
  sent : Nat := 0
  /-- position up to which the lanes have carried the queue | 80 | 20 R435 | none -/
  at_ : Option Sfp := none
  /-- full-state records of this frame still to be read from their tables | list | 20 R435 | empty -/
  todo : List MirSrc := []
  /-- the same of the bulk transfer and of what the peer has asked for besides | list | 10 T10-5, R221 | empty -/
  bulk : List MirSrc := []
  deriving DecidableEq, Repr

/-- A request of a master at a target of the matrix (R348, R353). -/
structure MatReq where
  /-- master -/
  m : Nat
  /-- address -/
  addr : Nat
  /-- the word written, none for a read -/
  wr : Option Word := none
  /-- a dedicated port writes the same word in the same memory cycle (R360) -/
  collide : Bool := false
  /-- raised to QoS 5 (R354) -/
  aged : Bool := false
  deriving DecidableEq, Repr

/-- One authority slot (R260). -/
structure AuthSt where
  /-- ENABLED | 1 | 12 R260 | 0 -/
  enabled : Bool := false
  /-- key | 32 bytes | 12 R260 | none -/
  key : Bytes := []
  /-- CLASS | 2 | 12 R260 | 0 -/
  cls : Nat := 0
  /-- HOLDER_ID | 10 | 12 R260 | 0 -/
  holder : Nat := 0
  /-- KEY_GEN | 8 | 12 R260 | 0 -/
  gen : BitVec 8 := 0
  deriving DecidableEq, Repr

/-- Replay state of one authority (R262). -/
structure ReplaySt where
  /-- LAST | 32 | 12 R262 | 0 -/
  last : BitVec 32 := 0
  /-- window marks, bit k for LAST − k | 32 | 12 R262 | DESIGN CHOICE all marked (7) -/
  win : BitVec 32 := 0xFFFFFFFF
  /-- accepted numbers since the last reservation | 17 | 12 R263 | 0 -/
  since : Nat := 0
  deriving DecidableEq, Repr

/-- A packet in the ingress queue (R264). -/
structure Queued where
  /-- the command -/
  req : Req
  /-- OPCODE -/
  op : BitVec 16
  /-- KEY_GEN at its tag check -/
  gen : BitVec 8
  /-- the command came without authentication (R261) -/
  boot : Bool := false
  deriving DecidableEq, Repr

/-- A packet waiting in a reply queue (R436). -/
structure OutPkt where
  /-- its address -/
  ret : Return
  /-- made by the front end -/
  front : Bool
  /-- packet bytes -/
  bytes : Bytes
  deriving DecidableEq, Repr

/-- A reply as the sequencer or the front end forms it (R270). -/
structure Reply where
  /-- the command it answers -/
  req : Req
  /-- OPCODE -/
  op : BitVec 16
  /-- STATUS -/
  status : Byte
  /-- DETAIL -/
  detail : Byte := 0
  /-- REMAIN_MS -/
  remain : BitVec 16 := 0
  /-- ACCEPT_SFP -/
  accept : Sfp := {}
  /-- parameter bytes from byte 14 -/
  data : Bytes := []
  /-- made by the front end -/
  front : Bool := false
  /-- BAD_AUTH: the TAG is all zeros (R271) -/
  zeroTag : Bool := false
  /-- key its tag is made with -/
  key : Bytes := []
  deriving DecidableEq, Repr

/-- What takes effect when a command completes, or at the first boundary after that (R32, R184, R266, R284, R287). -/
inductive EndAct where
  /-- SET_QL: REFIN and code -/
  | ql (refin : Nat) (code : BitVec 4)
  /-- THYME_FORCE -/
  | force (c : Option Nat)
  /-- SET_MFC (some) or MFC_RELEARN -/
  | mfc (v : Option Nat)
  /-- FP_REALIGN -/
  | realign
  /-- PROT_REQUEST: group, REQ, holder class -/
  | request (g : Nat) (code : BitVec 4) (holder : Bool)
  /-- GROUP_MEMBER, ROUTE and RELAY_PORTS in use -/
  | net (members : List Nat) (route : Tbl Byte) (relayPorts : BitVec 128)
  /-- DEV_RESET: true for a module reset -/
  | devReset (module : Bool)
  deriving DecidableEq, Repr

/-- The command in execution (R254). -/
structure Run where
  /-- the command -/
  req : Req
  /-- OPCODE -/
  op : BitVec 16
  /-- accept SFP (R20) -/
  accept : Sfp
  /-- key that authenticated it (R286) -/
  key : Bytes := []
  /-- the command came without authentication (R261) -/
  boot : Bool := false
  /-- of a COMMIT, the check it failed at its acceptance: status, detail and reply data (R507) -/
  verdict : Option (Byte × Byte × Bytes) := none
  /-- parts of its work done: 0 before it begins -/
  work : Nat := 0
  /-- estimate of the time it takes in ms, and where that was made (R265) -/
  est : BitVec 16 × Sfp := (1, {})
  /-- what it leaves to do when it completes (R254, R32) -/
  atEnd : Option EndAct := none
  /-- position from which the command waits, and the longest wait so far in blocks (R327) -/
  since : Sfp := {}
  worst : Nat := 0
  /-- slow blocks in which a posted write of the command stands (R327) -/
  mine : List Nat := []
  /-- entries stored and lost so far, and the first one lost (R290) -/
  stored : Nat × Nat × Nat := (0, 0, 0xFFFF)
  /-- its reply, once the command's work is done -/
  reply : Option Reply := none
  deriving DecidableEq, Repr

/-- A relay table entry (R267). -/
structure RelayEnt where
  /-- AUTH -/
  auth : BitVec 6
  /-- SEQ -/
  seq : BitVec 32
  /-- recorded transport -/
  ret : Return
  /-- SFP of the record -/
  at_ : Sfp
  deriving DecidableEq, Repr

/-- A duplicate memory entry (R269). -/
structure DupEnt where
  /-- AUTH -/
  auth : BitVec 6
  /-- SEQ -/
  seq : BitVec 32
  /-- SFP of the record -/
  at_ : Sfp
  deriving DecidableEq, Repr

/-- A command latency log record (R317). -/
structure LatRec where
  /-- OPCODE -/
  op : BitVec 16
  /-- STATUS, DETAIL -/
  status : Byte
  detail : Byte
  /-- AUTH, transport code, PRI, SEQ -/
  auth : BitVec 6
  via : Nat
  pri : BitVec 2
  seq : BitVec 32
  /-- accept SFP -/
  accept : Sfp
  /-- completion SFP, none for a command ended by a reset -/
  done : Option Sfp
  deriving DecidableEq, Repr

/-- An event packet waiting (R437). -/
structure EvPkt where
  /-- PRI -/
  pri : Nat
  /-- event code − 0xE000 -/
  cls : Nat
  /-- EVT_SEQ -/
  seq : BitVec 32
  /-- SUBTYPE -/
  sub : Nat
  /-- SFP of the event -/
  at_ : Sfp
  /-- class-specific data: bytes 12 to 31 of the record -/
  data : Bytes
  deriving DecidableEq, Repr

/-- VCP front end and sequencer's command state (file 12). -/
structure VcpSt where
  /-- ingress queue, in order of arrival | 8 packets | 12 R264 | empty -/
  queue : List Queued := []
  /-- command in execution | data | 12 R254 | none -/
  run : Option Run := none
  /-- relay table | 64 entries | 12 R267 | empty -/
  relay : List RelayEnt := []
  /-- group duplicate memory | 64 pairs | 12 R269 | empty -/
  dup : List DupEnt := []
  /-- authority slots | 64 | 12 R260 | loaded from flash: none enabled (6) -/
  auths : Tbl AuthSt := []
  /-- the key store has been loaded since the last reset | 1 | 12 R278 | false -/
  keysLoaded : Bool := false
  /-- replay state of each authority | 64 | 12 R262 | LAST from the reservation: 0 -/
  replay : Tbl ReplaySt := []
  /-- GROUP_MEMBER: groups set, but 4095 | 4096 | 12 R266 | empty (6) -/
  members : List Nat := []
  /-- ROUTE, absent = 0xFF | 4096 x 8 | 12 R266 | no routes (6) -/
  route : Tbl Byte := []
  /-- RELAY_PORTS | 128 | 12 R266 | 0 (6) -/
  relayPorts : BitVec 128 := 0
  /-- frame in which a BAD_AUTH reply was last sent | 80 | 12 R271 | none -/
  badAuthAt : Option Sfp := none
  /-- host SPI command buffer | 1500 bytes | 12 R257 | empty -/
  spiBuf : Option Bytes := none
  /-- host SPI OVERRUN | 1 | 12 R257 | 0 -/
  spiOverrun : Bool := false
  /-- host SPI receive FIFO, oldest first | 8 packets | 12 R257 | empty -/
  spiRx : List Bytes := []
  /-- SPI_STAT as STATUS_READ last reported | 3 | 18 T18-3 | 0b010 -/
  spiStat : BitVec 3 := 2
  /-- what the slave returned last | bytes | 12 T12-2 | empty -/
  spiOut : Bytes := []
  /-- latency log, newest first | 1024 records | 19 R420 | empty -/
  latlog : List LatRec := []
  /-- RELAY discard counters at the last epoch boundary | data | 19 T19-4 | 0 -/
  relayBase : Nat := 0
  deriving DecidableEq, Repr

/-- One management port (file 15). -/
structure MgSt where
  /-- settings in force, by offset in Table 18-12 (absent = reset value) | words | 15 R330 | Table 15-1 -/
  eff : Tbl Word := []
  /-- pre-authentication FIFO, oldest first | 16 packets | 15 R345 | empty -/
  fifo : List (Return × Bytes) := []
  /-- reply queue, oldest first | 32 replies | 20 R436 | empty -/
  replies : List OutPkt := []
  /-- link up | 1 | 15 R331 | 0 -/
  link : Bool := false
  /-- MODE_NOW | 2 | 18 T18-12 | 0 -/
  mode : Nat := 0
  /-- speed code | 2 | 18 T18-12 | 0 -/
  speed : Nat := 0
  /-- AUTO search stands at 10GBASE-R | 1 | 15 R331 | DESIGN CHOICE true (3) -/
  search10g : Bool := true
  /-- multiframes since the search last switched or the link was lost | 7 | 15 R331 | 0 -/
  searchAge : Nat := 0
  /-- THROTTLED | 1 | 15 R343 | 0 -/
  throttled : Bool := false
  /-- window counts of FCS, SYMBOL, SIZE, MALFORMED, BAD_AUTH, STALE_SEQ | 6 x 16 | 15 R343 | 0 -/
  win : Tbl Nat := []
  /-- limits already reached in this window, and reached since the last frame boundary | 6 each | 15 R343 | 0 -/
  hit : BitVec 6 := 0
  hitNew : BitVec 6 := 0
  /-- epochs since a limit was reached | 16 | 15 R344 | 0 -/
  limAge : Nat := 0
  /-- a W1C write left no limit bit set: release at the next frame boundary | 1 | 15 R344 | 0 -/
  relNow : Bool := false
  /-- PRI 0 to 2 packets admitted in this multiframe | 7 | 15 R344 | 0 -/
  admitted : Nat := 0
  /-- octets received and transmitted in this multiframe | data | 15 R338 | 0 -/
  octRx : Nat := 0
  octTx : Nat := 0
  /-- transmit queue held more than RS_UP_BYTES at a frame boundary of this multiframe | 1 | 15 R338 | 0 -/
  upSeen : Bool := false
  /-- multiframes in a row below the step-down threshold | 16 | 15 R338 | 0 -/
  quiet : Nat := 0
  /-- multiframes since the last step | 16 | 15 R338 | RS_DWELL reached: none -/
  sinceStep : Option Nat := none
  /-- relink after a step: target speed, and multiframes left once the restart bit is written | data | 15 R340 | none -/
  relink : Option (Nat × Option Nat) := none
  /-- MGMT_HIST bit of the last limit reached | 3 | 19 T19-4 | 0 -/
  limBit : Nat := 0
  /-- last snapshot of the 25 counters | 25 x 64 | 15 R342 | none -/
  snap : List Nat := []
  /-- last frame transmitted | bytes | 15 R336 | empty -/
  lastTx : Bytes := []
  deriving DecidableEq, Repr

/-- What both management ports share (file 15). -/
structure MgShSt where
  /-- HASH_EXTRA and MDC_DIV in force (R330) | 512 + 2 | 15 T15-1 | 0 -/
  hashExtra : BitVec 512 := 0
  mdcDiv : Nat := 0
  /-- MDIO transaction in progress: the command word | 32 | 15 R337 | none -/
  mdio : Option Word := none
  /-- it is rate-step's, for MGMT_B or not | 2 | 15 R337 | none -/
  mdioRs : Option Bool := none
  /-- rate-step's transactions still to make: for MGMT_B or not, and MDIO_CMD's fields | data | 15 R339 | none -/
  rsOps : List (Bool × Word) := []
  /-- MDIO_DATA and its valid bit | 17 | 15 R337 | 0 -/
  mdioData : BitVec 16 := 0
  mdioValid : Bool := false
  /-- armed management snapshot: boundary and ports A, B | 82 | 15 R342 | none -/
  snapPend : Option (Sfp × Bool × Bool) := none
  /-- SFP of the last snapshot | 80 | 15 R342 | 0 -/
  snapSfp : Sfp := {}
  /-- VALID_A, VALID_B, LATE, FAR | 4 | 18 T18-11 | 0 -/
  validA : Bool := false
  validB : Bool := false
  late : Bool := false
  far : Bool := false
  deriving DecidableEq, Repr

/-- A trace record (R422). -/
structure TraceRec where
  /-- SFP of the event -/
  at_ : Sfp := {}
  /-- CLASS -/
  cls : Nat := 0
  /-- SUBTYPE -/
  sub : Nat := 0
  /-- OBJECT -/
  obj : BitVec 16 := 0xFFFF
  /-- DATA, bytes 14 to 31, trailing zeros left out -/
  data : Bytes := []
  deriving DecidableEq, Repr

/-- Sage (file 19) and the queues it serves (file 20). -/
structure SageSt where
  /-- fixed counters, key block code × 65536 + index | 64 each | 19 R412 | 0 -/
  ctr : Tbl Nat := []
  /-- programmable counters | 64 x 32 | 19 R418 | 0 -/
  pctr : Tbl Nat := []
  /-- increments of the last 15 block times, of the fixed and of the programmable counters: counter, amount, SFP; no read
  shows them yet | list | 19 R413 | empty -/
  recent : List (Nat × Nat × Sfp) := []
  recentP : List (Nat × Nat × Sfp) := []
  /-- wraps awaiting their PCTR_OVERFLOW: counter and SFP of the wrap | list | 19 R419 | empty -/
  wraps : List (Nat × Sfp) := []
  /-- trace FIFO, oldest first: record number and record | 1024 | 19 R423 | empty -/
  fifo : List (Nat × TraceRec) := []
  /-- record number of the next record to enter the FIFO | 64 | 19 R423 | 0 -/
  nextNo : Nat := 0
  /-- placeholders awaiting their ring position: number and SFP of the drop | list | 19 R424 | empty -/
  holes : List (Nat × Sfp) := []
  /-- trace ring by position; a position not listed is undefined | 65536 x 32 bytes | 19 R423 | undefined until written -/
  ring : Tbl TraceRec := []
  /-- TRACE_NEXT | 64 | 19 R423 | 0 -/
  traceNext : Nat := 0
  /-- drops occurred in the present frame | 1 | 19 R424 | 0 -/
  dropFrame : Bool := false
  /-- EVT_SEQ of the next event | 32 | 12 R276 | 0 -/
  evtSeq : BitVec 32 := 0
  /-- event queue | 64 packets | 20 R437 | empty -/
  events : List EvPkt := []
  /-- protection event queue, oldest first | 4096 items | 20 R434 | empty -/
  items : List ProtItem := []
  /-- SAGE_TX frame being filled: number of its first record, SFP of its start, records | data | 19 R426 | none -/
  txCur : Option (Nat × Sfp × List TraceRec) := none
  /-- SAGE_TX transmit buffer: payloads of waiting frames, without STREAM_SEQ | 64 KiB | 19 R426 | empty -/
  txBuf : List Bytes := []
  /-- last frame sent on SAGE_TX | bytes | 19 R425 | empty -/
  lastTx : Bytes := []
  /-- STREAM_SEQ | 32 | 19 T19-5 | 0 -/
  streamSeq : BitVec 32 := 0
  /-- sweep of this epoch: its MFC, gather groups sent, gather frames formed | data | 19 R415 | none -/
  sweep : Option (Nat × Nat × Nat) := none
  /-- MATRIX_M2_LAT_MAX | 16 | 16 R356 | 0 -/
  m2Max : BitVec 16 := 0
  deriving DecidableEq, Repr

/-- Slot store, connection map and alignment store (files 07 and 09). -/
structure MapSt where
  /-- bank B is active | 1 | 07 R158 | bank A -/
  bActive : Bool := false
  /-- entries of bank A and bank B | 10240 x 64 each | 07 R159 | 0 -/
  a : Tbl Entry := []
  b : Tbl Entry := []
  /-- SMI tables, transmit in [31:16], expected in [15:0] | 128 x 32 each | 07 T07-3 | 0 -/
  smiA : Tbl Word := []
  smiB : Tbl Word := []
  /-- host port holding register | 32 | 07 R162 | DESIGN CHOICE 0 (3) -/
  hold : Word := 0
  /-- read latch of each master: address of the low word and its value | 7 x 64 | 07 R162 | empty -/
  latch : Tbl (Nat × Word) := []
  /-- words with an error: key bank × 65536 + index, SMI words at 32768 + port; value 1 single, 2 double | table | 07 R167 | none -/
  ecc : Tbl Nat := []
  /-- scrubber correction awaiting its write-back: key | data | 07 R167 | none -/
  scrub : Option Nat := none
  /-- MAP_ECC_ADDR: index, bank B, SMI word | 17 | 18 T18-6 | not valid -/
  eccAddr : Option (Nat × Bool × Bool) := none
  /-- MAP_SWAP_CHANGED | 14 | 07 R172 | 0 -/
  changed : Nat := 0
  /-- SS_PARITY_ADDR | 14 | 18 T18-6 | 0 -/
  parityAddr : Nat := 0
  /-- slot store pages, key page × 16384 + index; an absent block is Local Fault | 4 x 10240 blocks | 07 R157 | Local Fault -/
  store : Tbl Block := []
  /-- what each egress slot carried in the last calendar cycle | 10240 blocks | 07 R160 | Local Fault -/
  egress : Tbl Block := []
  /-- pattern generator of each slot | 31 | 06 R150 | none -/
  gen : Tbl (BitVec 31) := []
  /-- entries of the last write pass of the protection engine, and the frame boundary at which it began | list | 08 R187 | empty -/
  selPass : List Nat := []
  selAt : Option Sfp := none
  /-- delay lines: group and member global index | 1024 | 09 R201 | free -/
  lines : Tbl (Nat × Nat) := []
  /-- words of a line, newest first | 2048 blocks | 09 R201 | empty -/
  lineMem : Tbl (List Block) := []
  deriving DecidableEq, Repr

/-- Memories and the matrix (file 16). -/
structure MemSt where
  /-- power states of working RAM, scratchpad and alignment-store banks | 16, 8, 80 | 16 R362 | all ON -/
  wram : Tbl BankSt := []
  scratch : Tbl BankSt := []
  align : Tbl BankSt := []
  /-- scratchpad bytes written, by offset | 256 KiB | 16 T16-2 | DESIGN CHOICE 0 (4) -/
  bytes : Tbl Byte := []
  /-- banks whose content became undefined: scratchpad bank, or 64 and the working-RAM bank, and the draw that names it |
  data | 14 R321 | none -/
  junk : Tbl Nat := []
  /-- MEM_POWER waiting for a bank: memory, bank | data | 14 R321 | none -/
  powerWait : Option (Nat × Nat) := none
  /-- words with a found error: memory × 2^32 + address | data | 16 R359 | none -/
  ecc : Tbl Nat := []
  /-- MEM_ECC_ADDR | 32 | 18 T18-3 | 0 -/
  eccAddr : Word := 0
  /-- transaction in service that a bridge holds, by target | data | 20 R435 | none -/
  busy : Tbl MatReq := []
  /-- requests that wait for a grant, with their target | at most 7 | 16 R353 | none -/
  wait : List (Nat × MatReq) := []
  /-- master last granted, by target and QoS (target × 8 + QoS) | table | 16 R353 | DESIGN CHOICE none (98) -/
  granted : Tbl Nat := []
  /-- REMAP | 1 | 16 R351 | 0 -/
  remap : Bool := false
  /-- run of firmware whose content working RAM holds (the model's own) | data | 16 R367 | 0 -/
  wramGen : Nat := 0
  /-- working-RAM bytes that a bus master wrote in this run, by offset | 1 MiB | 16 T16-5 | none -/
  ram : Tbl Byte := []
  deriving DecidableEq, Repr

/-- The sequencer's reset state (file 16). -/
structure SeqSt where
  /-- running: firmware executes commands | 1 | 16 R368 | 0 -/
  running : Bool := false
  /-- SEQ_CAUSE | 4 | 18 T18-3 | 0 -/
  cause : Nat := 0
  /-- SEQ_RESET_SFP | 80 | 16 R366 | 0 -/
  resetAt : Sfp := {}
  /-- latency records of commands a reset ended, to be written at the restart | data | 19 R420 | none -/
  cutRec : Option LatRec := none
  /-- scheduled DEV_RESET or SEQ_RST: boundary and whether it is a module reset | 81 | 13 R287 | none -/
  devReset : Option (Sfp × Bool) := none
  /-- rescue firmware runs | 1 | 21 R457 | 0 -/
  rescue : Bool := false
  /-- running image is B | 1 | 13 T13-3 | 0 -/
  imageB : Bool := false
  /-- BOOT_COUNT of this run | 32 | 21 R453 | 0 (6) -/
  boot : Nat := 0
  deriving DecidableEq, Repr

/-- The saved configuration (R285). -/
structure SavedCfg where
  /-- active bank and SMI table -/
  bank : Tbl Entry
  smi : Tbl Word
  /-- active views of D1 to D7 by address -/
  regs : Tbl Word
  /-- REFIN QLs -/
  ql : BitVec 16
  /-- AUTO_RESTORE -/
  auto : Bool
  /-- BOOT_COUNT at the save -/
  boot : Nat
  /-- SFP of the capture -/
  at_ : Sfp
  deriving DecidableEq, Repr

/-- Flash (file 21 R463, Table 21-2). Kept across resets and power-down. -/
structure FlashSt where
  /-- bytes of image A, image B and the download area; an unlisted byte is 0xFF (erased) | 3 x 1 MiB | 14 R322 | DESIGN CHOICE (6) -/
  imgA : Tbl Byte := []
  imgB : Tbl Byte := []
  dl : Tbl Byte := []
  /-- boot preference record: image B preferred, copies correct | 2 | 21 R452 | A, correct (6) -/
  prefB : Bool := false
  prefOk : Bool := true
  /-- highest download offset written plus its length | 21 | 14 T14-9 | 0 -/
  dlHigh : Nat := 0
  /-- FW_WRITE_COUNT | 32 | 14 R322 | 0 (6) -/
  fwWrites : Nat := 0
  /-- key store: saved authority slots, none when no copy is correct | 64 | 21 R455 | empty (6) -/
  keys : Option (Tbl AuthSt) := some []
  /-- sequence reservations, none when no copy is correct | 64 x 32 | 21 R455 | empty (6) -/
  resv : Option (Tbl (BitVec 32)) := some []
  /-- GROUP_MEMBER, ROUTE and RELAY_PORTS, none when no copy is correct | data | 21 R455 | empty (6) -/
  net : Option (List Nat × Tbl Byte × BitVec 128) := some ([], [], 0)
  /-- OCXO_DAYS, none when no copy is correct | 16 | 21 R455 | 0 (6) -/
  days : Option Nat := some 0
  /-- BOOT_COUNT | 32 | 21 R453 | 0 (6) -/
  boot : Nat := 0
  /-- SAVE_COUNT | 32 | 13 T13-3 | 0 (6) -/
  saves : Nat := 0
  /-- saved configuration | data | 21 R455 | none (6) -/
  cfg : Option SavedCfg := none
  deriving DecidableEq, Repr

/-- An open guarded pair (R379). -/
structure GuardPair where
  /-- address A of the guarded register -/
  addr : Nat
  /-- V -/
  val : Word
  /-- SFP of the first write -/
  at_ : Sfp
  deriving DecidableEq, Repr

/-- A posted write in progress (R383). -/
structure Posted where
  /-- address -/
  addr : Nat
  /-- value -/
  val : Word
  /-- master -/
  m : Nat
  deriving DecidableEq, Repr

/-- Registers (files 17 and 18). A table's absent word is the register's reset value. -/
structure RegSt where
  /-- active views and plain RW registers by address | 32 each | 18 | reset values of file 18 -/
  act : Tbl Word := []
  /-- staged views by active address | 32 each | 17 R372 | reset values of file 18 -/
  stg : Tbl Word := []
  /-- W1C sticky registers by address | 32 each | 17 R372 | 0 -/
  hist : Tbl Word := []
  /-- KP bits by address, as differences from the module's own value | 32 each | 17 R375 | per module -/
  kp : Tbl Word := []
  /-- OVERRUN and KP_VIOLATION of each slow block | 2 each | 17 R382 | 0 -/
  blk : Tbl (BitVec 2) := []
  /-- posted write in progress in each slow block | data | 17 R383 | none -/
  posted : Tbl Posted := []
  /-- open guarded pair: 0 system block, 1 power and feeds block | data | 17 R380 | none -/
  pairs : Tbl GuardPair := []
  /-- GUARD_STATUS.FAIL and CAUSE | 1 + 3 | 17 R380 | 0 -/
  guardFail : Bool := false
  guardCause : Nat := 0
  /-- GUARD_FAIL_ADDR | 32 | 17 R380 | 0 -/
  guardAddr : Word := 0
  /-- last value accepted by each guarded register | 32 each | 18 T18-2 | 0 -/
  gw : Tbl Word := []
  /-- high words held for wide writable values (R378), by address | 32 each | 17 R378 | 0 -/
  wide : Tbl Word := []
  /-- response of the last matrix transaction of each master | 3 | 16 T16-3 | OKAY -/
  resp : Tbl Resp := []
  /-- data of the last matrix read of each master | 32 | 16 R352 | 0 -/
  rdata : Tbl Word := []
  deriving DecidableEq, Repr

/-- GPIO pins (file 22). -/
structure PinSt where
  /-- pins in their keeper frame or just after it: pin, and frames until GPIO_IN is live again | list | 22 R479 | none -/
  switching : Tbl Nat := []
  /-- function each pin drives now, by pin | 5 each | 22 T22-7 | 0 -/
  func : Tbl Nat := []
  /-- GPIO_IN | 16 | 18 T18-17 | DESIGN CHOICE 0 until the first frame boundary (3) -/
  gpioIn : BitVec 16 := 0
  /-- GPIO_OUT in force | 16 | 22 R477 | 0 -/
  gpioOut : BitVec 16 := 0
  /-- level each pin holds or drives | 16 | 22 R479 | 0 -/
  level : BitVec 16 := 0
  /-- DEVID strap | 12 | 22 R475 | DESIGN CHOICE 0 (3) -/
  devid : BitVec 12 := 0
  /-- TWIN_POS strap | 1 | 22 R475 | DESIGN CHOICE 0 (3) -/
  twinPos : Bool := false
  /-- RESET_N held low | 1 | 21 R448 | 0 -/
  resetN : Bool := false
  /-- TAP instruction register | 8 | 19 R428 | 0x01 -/
  tapIr : Byte := 1
  /-- boundary register | bits | 19 R428 | DESIGN CHOICE empty (3) -/
  tapBsr : List Bool := []
  /-- what the selected data register captured last, bit 0 first | bits | 19 R428 | empty -/
  tapDr : List Bool := []
  deriving DecidableEq, Repr

/-- AUTO_RESTORE (R458 to R462). -/
structure AutoSt where
  /-- stage | data | 21 R459 | idle -/
  stage : AutoStage := .idle
  /-- the stage was already interrupted once | 1 | 21 R462 | 0 -/
  retried : Bool := false
  /-- SFP of the stage 1 strobe | 80 | 21 R460 | none -/
  strobe1 : Option Sfp := none
  deriving DecidableEq, Repr

/-- The whole engine. -/
structure State where
  /-- commands waiting, first in first out (the model's queue) -/
  pending : List Instr := []
  /-- slot frame position | 80 | 04 R80 | 0:0:0 (R450) -/
  sfp : Sfp := {}
  /-- power and start-up phase | data | 21 R450 | die released -/
  phase : Phase := .released
  /-- power stage | data | 11 -/
  pwr : PowerSt := {}
  /-- Thyme | data | 02, 03 -/
  thy : ThySt := {}
  /-- commit unit | data | 04 -/
  com : CommitSt := {}
  /-- ports | 128 | 05, 06 -/
  ports : Tbl PortSt := []
  /-- pattern checkers | 64 | 06 R151 -/
  chks : Tbl ChkSt := []
  /-- core | data | 07, 09 -/
  map : MapSt := {}
  /-- protection groups | 2048 | 08, 09 -/
  grps : Tbl GrpSt := []
  /-- twin pair | data | 10 -/
  pair : PairSt := {}
  /-- mirror engine | data | 10 R219, 20 R435 -/
  mir : MirSt := {}
  /-- VCP | data | 12 -/
  vcp : VcpSt := {}
  /-- management ports | 2 | 15 -/
  mgA : MgSt := {}
  mgB : MgSt := {}
  mgSh : MgShSt := {}
  /-- Sage | data | 19, 20 -/
  sage : SageSt := {}
  /-- memories | data | 16 -/
  mem : MemSt := {}
  /-- sequencer | data | 16 -/
  seq : SeqSt := {}
  /-- flash | data | 21 -/
  flash : FlashSt := {}
  /-- registers | data | 17, 18 -/
  regs : RegSt := {}
  /-- pins and TAP | data | 22, 19 -/
  pins : PinSt := {}
  /-- AUTO_RESTORE | data | 21 R458 -/
  auto : AutoSt := {}
  /-- last frame boundary and last epoch boundary whose evaluation was made (model's own) | 80 each | 04 R80 | none -/
  frameDone : Option Sfp := none
  epochDone : Option Sfp := none
  /-- draws of free values made so far: the model's own field, not the manual's | data | DESIGN CHOICE 0 (5) -/
  fresh : Nat := 0
  deriving DecidableEq, Repr

/-- The machine right after a module reset, at the release of the die (R448, R450): every field at the value its
comment gives. -/
def State.reset : State := {}

end Sys2Proof.Machine
end

