-- ==== Sys2Proof/Machine/Pos.lean ====
section
/-! DEFINITION. Slot frame positions: order, distance, advance and the SFP field (file 04). -/

namespace Sys2Proof.Machine

/-- The position is a legal one (Table 00-2). -/
def sfpOk (p : Sfp) : Bool := decide (p.bi < frameBlocks) && decide (p.fi < mfFrames) && decide (p.mfc < mfcMod)

/-- One block on (R80). -/
def sfpNext (p : Sfp) : Sfp :=
  if p.bi + 1 < frameBlocks then { p with bi := p.bi + 1 }
  else if p.fi + 1 < mfFrames then { p with fi := p.fi + 1, bi := 0 }
  else { mfc := (p.mfc + 1) % mfcMod, fi := 0, bi := 0 }

/-- Signed half-range difference b − a of two MFC values (R82). -/
def mfcDiff (a b : Nat) : Int :=
  let d := (b + (mfcMod - a % mfcMod)) % mfcMod
  if d < mfcMod / 2 then d else (d : Int) - mfcMod

/-- Distance in blocks from a to b (R81). -/
def sfpDist (a b : Sfp) : Int :=
  mfcDiff a.mfc b.mfc * 5240576 + ((b.fi : Int) - a.fi) * 163768 + ((b.bi : Int) - a.bi)

/-- Position n blocks after p. -/
def sfpAdd (p : Sfp) (n : Nat) : Sfp :=
  let t := p.fi * frameBlocks + p.bi + n
  { mfc := (p.mfc + t / mfBlocks) % mfcMod
    fi := t % mfBlocks / frameBlocks
    bi := t % frameBlocks }

/-- Position at a signed distance from p. -/
def sfpOff (p : Sfp) (d : Int) : Sfp :=
  let t : Int := (p.fi : Int) * 163768 + p.bi + d
  let m : Int := (p.mfc : Int) + t.fdiv 5240576
  let r := (t.fmod 5240576).toNat
  { mfc := (m.fmod 281474976710656).toNat, fi := r / frameBlocks, bi := r % frameBlocks }

/-- A frame boundary. -/
def isFrame (p : Sfp) : Bool := p.bi == 0
/-- An epoch boundary (R3). -/
def isEpoch (p : Sfp) : Bool := p.bi == 0 && p.fi == 0
/-- The epoch boundary of an MFC value. -/
def epochAt (m : Nat) : Sfp := { mfc := m % mfcMod }
/-- The frame boundary at or before p. -/
def frameOf (p : Sfp) : Sfp := { p with bi := 0 }
/-- The next frame boundary strictly after p. -/
def nextFrame (p : Sfp) : Sfp :=
  if p.fi + 1 < mfFrames then { mfc := p.mfc, fi := p.fi + 1 } else { mfc := (p.mfc + 1) % mfcMod }
/-- The next epoch boundary strictly after p. -/
def nextEpoch (p : Sfp) : Sfp := epochAt (p.mfc + 1)
/-- A position MFC, FI and BI as the 10-byte SFP field (Table 04-1). -/
def sfpBytes (p : Sfp) : Bytes := beBytes 6 p.mfc ++ [by1 p.fi] ++ beBytes 3 p.bi
/-- The SFP in bytes lo .. lo+9 of a packet; reserved bits ignored (R10). -/
def sfpOfBytes (b : Bytes) (lo : Nat) : Sfp :=
  { mfc := pkNat b lo 6, fi := pk1 b (lo + 6) % 32, bi := pkNat b (lo + 7) 3 % 262144 }
/-- Calendar position of a block index, counted from BI 8: cycle and slot (R4). -/
def calOf (bi : Nat) : Nat × Nat := ((bi - 8) / 80, (bi - 8) % 80)
/-- Calendar cycle number, continuous across frames and multiframes (R157). -/
def calCycle (p : Sfp) : Nat := (p.mfc * 32 + p.fi) * 2047 + (p.bi - 8) / 80
/-- Two positions are the same instant. -/
def sameSfp (a b : Sfp) : Bool := a == b

end Sys2Proof.Machine
end

