-- ==== Sys2Proof/Machine/RegMap.lean ====
section
/-! DEFINITION. The register map of file 18: what stands at each address, its field mask, its commit domain and its
reset value, and the addresses the meanings use. -/

namespace Sys2Proof.Machine

/-- Add a displacement to an address. -/
def aSys : Nat := 0x40000000
def aPorts : Nat := 0x40200000
def aCore : Nat := 0x40400000
def aProt : Nat := 0x40600000
def aCommit : Nat := 0x40800000
def aSage : Nat := 0x40A00000
def aMgmt : Nat := 0x40C00000
def aThy : Nat := 0x50000000
def aSerdes : Nat := 0x50200000
def aPower : Nat := 0x50400000
def aPins : Nat := 0x50600000
def aOcxo : Nat := 0x50800000

/-- Staged views lie this far above their active addresses (R12, R86). -/
def stagedOff : Nat := 0x00100000

/-- What a register is: its access code with the mask of its fields (file 18). -/
inductive RegKind where
  /-- no register -/
  | none
  /-- RO, with the mask of its fields -/
  | ro (mask : Nat)
  /-- RW; `fw` when owned by firmware (R391) -/
  | rw (mask : Nat) (fw : Bool)
  /-- W1C bits `w` among the fields `mask` -/
  | w1c (w mask : Nat)
  /-- RS of a domain -/
  | rs (dom mask : Nat)
  /-- guarded, fields `mask`; `fw` when owned by firmware -/
  | gw (mask : Nat) (fw : Bool)
  /-- the guard port of a guarded register -/
  | port
  /-- BLK_STAT of a slow block -/
  | blk
  deriving DecidableEq, Repr

/-- All 32 bits. -/
def m32 : Nat := 0xFFFFFFFF

/-- Table 18-3, by offset. -/
def kindSys (o : Nat) : RegKind :=
  if o = 0x000 then .ro 0xFFFF1FFF
  else if o = 0x004 then .rw m32 true
  else if o = 0x008 then .rw 0xFF true
  else if o = 0x00C then .rw 1 true
  else if o = 0x010 then .gw 1 true
  else if o = 0x018 then .gw 1 true
  else if o = 0x020 then .gw 1 true
  else if o = 0x028 then .gw 1 true
  else if o = 0x030 then .gw 1 false
  else if o = 0x038 then .gw 7 false
  else if o = 0x014 ∨ o = 0x01C ∨ o = 0x024 ∨ o = 0x02C ∨ o = 0x034 ∨ o = 0x03C then .port
  else if o = 0x040 then .w1c 1 0xF
  else if o = 0x044 then .ro m32
  else if o = 0x050 ∨ o = 0x054 then .rw m32 true
  else if o = 0x058 then .rw 0xFFFF true
  else if o = 0x05C then .rw 0xFF true
  else if o = 0x060 then .rw 0x77 false
  else if o = 0x070 then .ro 0xF
  else if o = 0x074 then .ro 0xFFFF
  else if o = 0x078 then .ro m32
  else if o = 0x07C then .ro 0x7FFFFF
  else if o = 0x080 then .ro 0xFFF
  else if o = 0x090 then .rw 1 false
  else if o = 0x094 then .ro 7
  else if o = 0x0A0 then .ro m32
  else if o = 0x0A4 then .ro 0xFFFF
  else if 0x0A8 ≤ o ∧ o < 0x0BC then .ro m32
  else if o = 0x0BC then .rw m32 true
  else if o = 0x0C0 then .ro m32
  else if o = 0x0C4 then .w1c 3 3
  else if o = 0x0C8 then .rw 3 false
  else if o = 0x0CC then .w1c 1 1
  else if 0x0D0 ≤ o ∧ o ≤ 0x0FC then .rw m32 true
  else if o = 0x100 then .rs 7 0x1FFFFFFF
  else if o = 0x104 then .ro 0x1FFF
  else if o = 0x108 then .w1c 0x3FF 0x3FF
  else if o = 0x10C then .rw 0x3FF false
  else if o = 0x110 then .ro 0x13F
  else if o = 0x114 then .rw 0xFFFF false
  else if o = 0x118 then .rw m32 false
  else if o = 0x11C then .rw 0x1F false
  else if 0x120 ≤ o ∧ o < 0x130 then .ro m32
  else if o = 0x130 then .rw m32 true
  else if o = 0x134 ∨ o = 0x138 ∨ o = 0x13C then .ro m32
  else .none

/-- Table 18-4, by offset within a port. -/
def kindPort (o : Nat) : RegKind :=
  if o = 0x000 then .rs 1 0xFF
  else if o = 0x004 then .rs 1 0x1F
  else if o = 0x008 then .rs 1 0xFF
  else if o = 0x00C then .rs 1 0xFFFFFF
  else if o = 0x010 then .rs 4 0x07FF0001
  else if o = 0x014 then .rs 5 0x3FFF
  else if 0x040 ≤ o ∧ o < 0x0C0 then .rs 1 m32
  else if o = 0x100 then .ro 0xFFFF
  else if o = 0x104 then .w1c 0xFFFF 0xFFFF
  else if o = 0x108 then .rw 0xFFFF false
  else if o = 0x10C then .ro 0x80FFFFFF
  else if o = 0x110 then .ro 0x1FFFF
  else if o = 0x114 then .ro 0x1F1F
  else if o = 0x118 then .ro 0xFFFF
  else if o = 0x11C then .ro m32
  else if o = 0x124 ∨ o = 0x128 then .ro 0xFFFF
  else if 0x140 ≤ o ∧ o < 0x180 then .ro m32
  else if o = 0x180 then .ro 1
  else .none

/-- Tables 18-4 and 18-5, by offset. -/
def kindPorts (o : Nat) : RegKind :=
  if o < 0x20000 then kindPort (o % 0x400)
  else if o < 0x20100 then .rs 1 0x80003FFF
  else if o < 0x20200 then .ro 3
  else if o < 0x20210 then .ro m32
  else .none

/-- Table 18-6, by offset. -/
def kindCore (o : Nat) : RegKind :=
  if o = 0x000 then .ro 3
  else if o = 0x004 then .ro 0x3FFF
  else if o = 0x008 then .ro 0x73FFF
  else if o = 0x00C then .w1c 0xF 0xF
  else if o = 0x010 then .rw 0xF false
  else if o = 0x014 then .ro 0x3FFF
  else .none

/-- Tables 18-7 and 18-8, by offset. -/
def kindProt (o : Nat) : RegKind :=
  if o < 0x80000 then
    if o % 0x100 = 0 then .rs 2 0x3F0F7F7F
    else if o % 0x100 = 4 then .rs 2 0x007F07FF
    else if 0x40 ≤ o % 0x100 ∧ o % 0x100 < 0xE0 then .rs 2 0x3FFF3FFF
    else .none
  else if o < 0x90000 then
    if o % 0x20 = 0 then .ro m32
    else if o % 0x20 = 4 then .ro 0x1FFFF
    else if o % 0x20 = 8 then .ro 0x7FFFFF
    else if o % 0x20 = 0xC then .ro 0x80FFFFFF
    else if o % 0x20 = 0x10 then .ro m32
    else if o % 0x20 = 0x14 then .ro 0xF
    else if o % 0x20 = 0x18 then .ro 0x3FFF
    else .none
  else if o = 0x90000 then .w1c 0x1F 0x1F
  else if o = 0x90004 then .rw 0x1F false
  else if o = 0x90010 then .rw m32 true
  else .none

/-- Table 18-9, by offset. -/
def kindCommit (o : Nat) : RegKind :=
  if o = 0x000 then .w1c 0x10000 0x1F01FFFF
  else if o = 0x004 then .ro 0xFFFF
  else if o = 0x008 then .ro m32
  else if o = 0x010 then .ro 0x7FFFFF
  else if o = 0x014 then .ro 0xFFFF
  else if o = 0x018 then .ro m32
  else if o = 0x020 then .w1c 0x1F 0x1F
  else if o = 0x024 then .rw 0x1F false
  else if o = 0x030 ∨ o = 0x034 then .rw m32 true
  else if 0x100 ≤ o ∧ o < 0x300 then
    if o % 0x20 = 0 then .ro 0x8FFFFF07
    else if o % 0x20 = 4 then .ro 0xFFFF
    else if o % 0x20 = 8 ∨ o % 0x20 = 0xC then .ro m32
    else .none
  else .none

/-- Table 18-10, by offset. -/
def kindSage (o : Nat) : RegKind :=
  if o < 0x200 then (if o % 8 = 0 then .rs 5 3 else .rs 5 m32)
  else if o < 0x400 then .rs 5 0x7FF
  else if o = 0x400 then .rs 5 m32
  else if o = 0x404 then .rs 5 3
  else if o = 0x408 ∨ o = 0x410 ∨ o = 0x424 ∨ o = 0x42C then .rs 5 0xFFFF
  else if o = 0x40C ∨ o = 0x428 then .rs 5 m32
  else if o = 0x420 then .rs 5 0x03FF7F07
  else if 0x1000 ≤ o ∧ o < 0x1100 then .ro m32
  else if o = 0x1100 ∨ o = 0x1104 then .w1c m32 m32
  else if o = 0x1108 ∨ o = 0x110C then .rw m32 false
  else if o = 0x1200 then .w1c 3 3
  else if o = 0x1204 then .rw 3 false
  else if o = 0x1210 ∨ o = 0x1214 ∨ o = 0x1218 ∨ o = 0x121C ∨ o = 0x1220 ∨ o = 0x1224 then .ro m32
  else if o = 0x1230 then .ro 0xFFFF
  else if o = 0x2000 then .rw m32 false
  else if 0x2800 ≤ o ∧ o < 0x3000 then .ro m32
  else .none

/-- Table 18-12, by offset within a port. -/
def kindMg (o : Nat) : RegKind :=
  if o = 0x00 then .rw 0x1F7 false
  else if o = 0x04 then .rw 0x007F3F03 false
  else if o = 0x08 ∨ o = 0x0C then .rw 0xFFFF false
  else if o = 0x10 then .rw 0x7FFF false
  else if o = 0x14 then .rw 0x1FFF false
  else if 0x18 ≤ o ∧ o ≤ 0x2C then .rw 0xFFFF false
  else if o = 0x30 then .rw 0xFFFF007F false
  else if o = 0x34 then .ro 0x3F
  else if o = 0x38 then .w1c 0x1FF 0x1FF
  else if o = 0x3C then .rw 0x1FF false
  else .none

/-- Tables 18-11 and 18-12, by offset. -/
def kindMgmt (o : Nat) : RegKind :=
  if o = 0x000 ∨ o = 0x008 then .ro 0xFFFF
  else if o = 0x004 ∨ o = 0x00C then .ro m32
  else if o = 0x010 then .rw 3 false
  else if o = 0x014 then .rw m32 false
  else if o = 0x018 then .ro 0x1FFFF
  else if o = 0x01C then .w1c 3 3
  else if 0x040 ≤ o ∧ o < 0x080 then .rw m32 false
  else if 0x080 ≤ o ∧ o < 0x0C0 then .ro m32
  else if o = 0x0C0 then .rw 0xFFFF false
  else if o = 0x0C4 then .rw m32 false
  else if o = 0x0C8 then .rw 0x80001F03 false
  else if o = 0x0CC then .w1c 0xC 0xF
  else if o = 0x0D0 then .ro 0xFFFF
  else if o = 0x0D4 then .ro m32
  else if o = 0x0D8 then .ro 0x1F
  else if 0x100 ≤ o ∧ o < 0x200 then kindMg (o - 0x100)
  else if 0x200 ≤ o ∧ o < 0x300 then kindMg (o - 0x200)
  else if 0x1000 ≤ o ∧ o < 0x10C8 then .ro m32
  else if 0x1800 ≤ o ∧ o < 0x18C8 then .ro m32
  else .none

/-- Tables 18-13 and 18-14, by offset. -/
def kindThy (o : Nat) : RegKind :=
  if o = 0 then .blk
  else if o = 0x010 then .rs 3 0xFFFF7F3F
  else if o = 0x014 then .rs 3 0x1FFF7F7F
  else if o = 0x018 then .rs 3 0x1FFF
  else if o = 0x01C ∨ o = 0x020 ∨ o = 0x024 then .rs 3 m32
  else if o = 0x028 then .rs 3 0x03FF0FFF
  else if o = 0x02C then .rs 3 0x0FFF07FF
  else if o = 0x030 then .rs 3 0x3FFF01FF
  else if o = 0x034 then .rs 3 0xFFFFFF
  else if 0x040 ≤ o ∧ o < 0x120 then
    if o % 0x10 = 0 then .rs 3 0x0F1F7F0F else if o % 0x10 = 4 then .rs 3 0x03FF03FF else .none
  else if 0x140 ≤ o ∧ o < 0x170 then (if o % 8 = 0 then .rs 3 0x1F else .rs 3 m32)
  else if o = 0x180 then .rw 0xFFFF true
  else if o = 0x184 ∨ o = 0x188 ∨ o = 0x190 then .rw m32 true
  else if o = 0x18C then .rw 0xFFFF true
  else if o = 0x200 then .ro 0x1F
  else if o = 0x204 then .w1c 0x7F 0x7F
  else if o = 0x208 then .rw 0x7F false
  else if o = 0x20C then .ro 0x1FFFF
  else if o = 0x210 then .ro m32
  else if o = 0x214 ∨ o = 0x220 ∨ o = 0x228 then .ro 0xFFFF
  else if o = 0x218 ∨ o = 0x224 ∨ o = 0x22C then .ro m32
  else if o = 0x21C then .ro 0x0FFF0001
  else if o = 0x230 then .ro 1
  else if o = 0x234 ∨ o = 0x238 then .ro m32
  else if 0x280 ≤ o ∧ o < 0x360 then
    if o % 0x10 = 0 then .ro 0xF7F else if o % 0x10 = 4 then .ro 0x3FF
    else if o % 0x10 = 8 then .ro 0x3FFFF else .none
  else .none

/-- Table 18-15, by offset. -/
def kindSerdes (o : Nat) : RegKind :=
  if o = 0 then .blk
  else if 0x1000 ≤ o ∧ o < 0x1000 + 0x20 * 133 then
    if o % 0x20 = 0 then
      (if (o - 0x1000) / 0x20 < 128 then .rs 1 0x070F0703 else .rw 0x070F0703 true)
    else if o % 0x20 = 4 then .ro 7 else .none
  else .none

/-- Table 18-16, by offset. -/
def kindPower (o : Nat) : RegKind :=
  if o = 0 then .blk
  else if o = 0x010 then .ro 0x1FFF
  else if o = 0x014 then .w1c 0xFF 0xFF
  else if o = 0x018 then .rw 0xFF false
  else if o = 0x01C ∨ o = 0x020 then .ro 0xFFFF
  else if o = 0x024 then .ro m32
  else if o = 0x028 then .gw 1 false
  else if o = 0x02C then .port
  else if o = 0x030 ∨ o = 0x034 then .ro 7
  else .none

/-- Table 18-17, by offset. -/
def kindPins (o : Nat) : RegKind :=
  if o = 0 then .blk
  else if 0x010 ≤ o ∧ o < 0x050 then .rs 6 0x1F
  else if o = 0x050 then .ro 0xFFFF
  else if o = 0x054 then .rw 0xFFFF false
  else if o = 0x058 then .ro 0x1FFF
  else if o = 0x05C then .ro 3
  else .none

/-- Table 18-18, by offset. -/
def kindOcxo (o : Nat) : RegKind :=
  if o = 0 then .blk
  else if o = 0x010 ∨ o = 0x014 then .ro 0xFFFF
  else if o = 0x018 then .rw m32 true
  else .none

/-- What stands at an active address (Table 18-1). -/
def kindAct (a : Nat) : RegKind :=
  if a % 4 ≠ 0 then .none
  else if aSys ≤ a ∧ a ≤ aSys + 0x13F then kindSys (a - aSys)
  else if aPorts ≤ a ∧ a ≤ aPorts + 0x2020F then kindPorts (a - aPorts)
  else if aCore ≤ a ∧ a ≤ aCore + 0x17 then kindCore (a - aCore)
  else if aProt ≤ a ∧ a ≤ aProt + 0x90013 then kindProt (a - aProt)
  else if aCommit ≤ a ∧ a ≤ aCommit + 0x2FF then kindCommit (a - aCommit)
  else if aSage ≤ a ∧ a ≤ aSage + 0x2FFF then kindSage (a - aSage)
  else if aMgmt ≤ a ∧ a ≤ aMgmt + 0x1FFF then kindMgmt (a - aMgmt)
  else if aThy ≤ a ∧ a ≤ aThy + 0x35F then kindThy (a - aThy)
  else if aSerdes ≤ a ∧ a ≤ aSerdes + 0x2087 then kindSerdes (a - aSerdes)
  else if aPower ≤ a ∧ a ≤ aPower + 0x37 then kindPower (a - aPower)
  else if aPins ≤ a ∧ a ≤ aPins + 0x5F then kindPins (a - aPins)
  else if aOcxo ≤ a ∧ a ≤ aOcxo + 0x1B then kindOcxo (a - aOcxo)
  else .none

/-- The active address whose staged view lies at `a`, if one does (R389). -/
def stagedOf (a : Nat) : Option Nat :=
  if stagedOff ≤ a then
    match kindAct (a - stagedOff) with
    | .rs _ _ => some (a - stagedOff)
    | _ => none
  else none

/-- The slow block an address belongs to, its staged range included (Table 18-1): 0 Thyme, 1 SerDes, 2 power and
feeds, 3 pins, 4 OCXO. -/
def slowBlockOf (a : Nat) : Option Nat :=
  if a < 0x50000000 ∨ 0x50A00000 ≤ a then none else some ((a - 0x50000000) / 0x200000)

/-- Number of a slow block, in the order of Table 17-3. -/
def sbIdx : SlowBlock → Nat
  | .thyme => 0 | .serdes => 1 | .power => 2 | .pins => 3 | .ocxo => 4

/-- The slow window (R357). -/
def inSlow (a : Nat) : Bool := 0x50000000 ≤ a && a < 0x60000000
/-- The fast window. -/
def inFast (a : Nat) : Bool := 0x40000000 ≤ a && a < 0x50000000

/-- Reset value of a register that holds a value of its own (file 18; for RS registers both views). -/
def regReset (a : Nat) : Word :=
  if a = aSys + 0x060 then 0x00000033
  else if a = aSys + 0x0C8 then 0x00000003
  else if a = aSys + 0x100 then 0x01001000
  else if a = aSys + 0x10C then 0x000001FF
  else if aPorts ≤ a ∧ a < aPorts + 0x20000 then
    let o := (a - aPorts) % 0x400
    if o = 0 then 0x00000020 else if o = 4 then 0x00000004 else if o = 8 then 0x00000008
    else if o = 0xC then 0x00001000 else if o = 0x10 then 0x00800000 else if o = 0x14 then 0x00002400 else 0
  else if a = aCore + 0x010 then 0x00000003
  else if aProt ≤ a ∧ a < aProt + 0x80000 then
    if (a - aProt) % 0x100 = 0 then 0x00050018
    else if (a - aProt) % 0x100 = 4 then word ((a - aProt) / 0x100) else 0
  else if a = aProt + 0x90004 then 0x00000004
  else if a = aCommit + 0x024 then 0x00000014
  else if aSage + 0x200 ≤ a ∧ a < aSage + 0x400 then 0x00000010
  else if aMgmt + 0x100 ≤ a ∧ a < aMgmt + 0x300 then
    let o := (a - aMgmt) % 0x100
    if o = 0x00 then (if a < aMgmt + 0x200 then 0x00000001 else 0x00000011)
    else if o = 0x04 then 0x00500A02
    else if o = 0x08 then 0x000045E2
    else if o = 0x0C then 0x00002000
    else if o = 0x10 then 0x000005D3
    else if o = 0x14 then 0x00000100
    else if o = 0x18 ∨ o = 0x1C then 0x000003E8
    else if o = 0x20 then 0x00000100
    else if o = 0x24 ∨ o = 0x2C then 0x00000040
    else if o = 0x28 then 0x00000010
    else if o = 0x30 then 0x05D30001
    else if o = 0x3C then 0x000000FF else 0
  else if aThy ≤ a ∧ a < aThy + 0x400 then
    let o := a - aThy
    if o = 0x010 then 0xBB7B0004
    else if o = 0x014 then 0x01000C0A
    else if o = 0x018 then 0x00000100
    else if o = 0x028 then 0x003C0258
    else if o = 0x02C then 0x00A00064
    else if o = 0x030 then 0x000A0064
    else if o = 0x034 then 0x000003E8
    else if 0x040 ≤ o ∧ o < 0x120 ∧ o % 0x10 = 4 then 0x015E005A
    else if o = 0x208 then 0x00000078 else 0
  else if aSerdes + 0x1000 ≤ a ∧ a < aSerdes + 0x1000 + 0x20 * 133 then
    if (a - aSerdes) % 0x20 = 0 then 0x04000000 else 0
  else if a = aPower + 0x018 then 0x000000BF
  else 0

/-- Active view, or value of a plain register. -/
def act (s : State) (a : Nat) : Word := tget (regReset a) s.regs.act a
/-- Staged view, by active address (R86). -/
def stg (s : State) (a : Nat) : Word := tget (regReset a) s.regs.stg a
/-- A view of the registers by active address. -/
abbrev View := Nat → Word

/-- Sticky register (R372). -/
def hist (s : State) (a : Nat) : Word := tget 0 s.regs.hist a

/-- Store an active word. -/
def setAct (a : Nat) (w : Word) (r : RegSt) : RegSt := { r with act := tput (regReset a) r.act a w }
/-- Store a staged word. -/
def setStg (a : Nat) (w : Word) (r : RegSt) : RegSt := { r with stg := tput (regReset a) r.stg a w }
/-- Set sticky bits (R372). -/
def setHistR (a : Nat) (mask : Word) (r : RegSt) : RegSt :=
  { r with hist := tput 0 r.hist a (tget 0 r.hist a ||| mask) }
/-- Clear sticky bits by a W1C write. -/
def clrHistR (a : Nat) (mask : Word) (r : RegSt) : RegSt :=
  { r with hist := tput 0 r.hist a (tget 0 r.hist a &&& ~~~mask) }

/-- Set sticky bits of a register. -/
def sticky (s : State) (a : Nat) (mask : Word) : State := { s with regs := setHistR a mask s.regs }

/-! Addresses of sticky registers. -/
def hSys : Nat := aSys + 0x0C4
def hPair : Nat := aSys + 0x108
def hSlow : Nat := aSys + 0x0CC
def hCore : Nat := aCore + 0x00C
def hProt : Nat := aProt + 0x90000
def hCommit : Nat := aCommit + 0x020
def hOvfHi : Nat := aSage + 0x1100
def hOvfLo : Nat := aSage + 0x1104
def hSage : Nat := aSage + 0x1200
def hMdio : Nat := aMgmt + 0x01C
def hThy : Nat := aThy + 0x204
def hFeed : Nat := aPower + 0x014
def hPort (p : Nat) : Nat := aPorts + 0x400 * p + 0x104
def hMg (b : Bool) : Nat := aMgmt + (if b then 0x238 else 0x138)

/-! Addresses of configuration registers. -/
def aPortCfg (p : Nat) : Nat := aPorts + 0x400 * p
def aPortAdapt (p : Nat) : Nat := aPorts + 0x400 * p + 0x10
def aPortMon (p : Nat) : Nat := aPorts + 0x400 * p + 0x14
def aTxTti (p : Nat) : Nat := aPorts + 0x400 * p + 0x40
def aExpTti (p : Nat) : Nat := aPorts + 0x400 * p + 0x80
def aTpChk (m : Nat) : Nat := aPorts + 0x20000 + 4 * m
def aGrpCfg (g : Nat) : Nat := aProt + 0x100 * g
def aGrpAps (g : Nat) : Nat := aProt + 0x100 * g + 4
def aGrpMem (g w : Nat) : Nat := aProt + 0x100 * g + 0x40 + 4 * w
def aPctrCfg (n : Nat) : Nat := aSage + 8 * n
def aPctrEvt (n : Nat) : Nat := aSage + 8 * n + 4
def aBwWin (p : Nat) : Nat := aSage + 0x200 + 4 * p
def aTraceClass : Nat := aSage + 0x400
def aTraceTx : Nat := aSage + 0x404
def aEvtCfg : Nat := aSage + 0x420
def aThyCfg0 : Nat := aThy + 0x010
def aThyCfg1 : Nat := aThy + 0x014
def aThyFp : Nat := aThy + 0x018
def aHoCfg : Nat := aThy + 0x028
def aHbCfg0 : Nat := aThy + 0x02C
def aHbCfg1 : Nat := aThy + 0x030
def aHbLimit : Nat := aThy + 0x034
def aCandCfg (c : Nat) : Nat := aThy + 0x040 + 0x10 * c
def aCandTmr (c : Nat) : Nat := aThy + 0x044 + 0x10 * c
def aOutCfg (o : Nat) : Nat := aThy + 0x140 + 8 * o
def aLane (l : Nat) : Nat := aSerdes + 0x1000 + 0x20 * l
def aGpioFunc (n : Nat) : Nat := aPins + 0x010 + 4 * n
def aGpioOut : Nat := aPins + 0x054
def aPairCfg : Nat := aSys + 0x100
def aSwapHi : Nat := aSys + 0x114
def aSwapLo : Nat := aSys + 0x118
def aSwapFi : Nat := aSys + 0x11C
def aCtrSel : Nat := aSage + 0x2000
def aMdioCmd : Nat := aMgmt + 0x014
def aSnapHi : Nat := aMgmt + 0x0C0
def aSnapLo : Nat := aMgmt + 0x0C4
def aSnapCtrl : Nat := aMgmt + 0x0C8
def aMg (b : Bool) (o : Nat) : Nat := aMgmt + (if b then 0x200 else 0x100) + o

/-- High words of writable values wider than 32 bits (R378): PAIR_SWAP_MFC, TRACE_MAC, EVT_MAC, MGMT_SNAP_MFC and
THY_NEW_MFC. -/
def isWideHi (a : Nat) : Bool :=
  a == aSwapHi || a == aSage + 0x408 || a == aSage + 0x424 || a == aSnapHi || a == aThy + 0x18C
/-- Their low words. -/
def isWideLo (a : Nat) : Bool := 4 ≤ a && isWideHi (a - 4)

/-! Fields of the configuration, over either view. -/
def pMode (v : View) (p : Nat) : Nat := bits (v (aPortCfg p)) 2 0
def pLoop (v : View) (p : Nat) : Nat := bits (v (aPortCfg p)) 4 3
def pRdiEn (v : View) (p : Nat) : Bool := bit (v (aPortCfg p)) 5
def pTtiCheck (v : View) (p : Nat) : Bool := bit (v (aPortCfg p)) 6
def pTpPoly (v : View) (p : Nat) : Bool := bit (v (aPortCfg p)) 7
def pEbDepth (v : View) (p : Nat) : Nat := bits (v (aPortCfg p + 4)) 4 0
def pFecFail (v : View) (p : Nat) : Nat := bits (v (aPortCfg p + 8)) 7 0
def pFecDeg (v : View) (p : Nat) : Nat := bits (v (aPortCfg p + 12)) 23 0
def pPmEn (v : View) (p : Nat) : Bool := bit (v (aPortAdapt p)) 0
def pDropMargin (v : View) (p : Nat) : Nat := bits (v (aPortAdapt p)) 26 16
def pMonMax (v : View) (p : Nat) : Nat := bits (v (aPortMon p)) 13 0
/-- Trail trace byte j of a 64-byte register array. -/
def ttiByte (v : View) (base j : Nat) : Byte :=
  BitVec.ofNat 8 ((v (base + 4 * (j / 4))).toNat / 256 ^ (3 - j % 4))
/-- The 64 trail trace bytes. -/
def ttiOf (v : View) (base : Nat) : Bytes := (List.range 64).map (ttiByte v base)

def gEn (v : View) (g : Nat) : Bool := bit (v (aGrpCfg g)) 0
def gArch (v : View) (g : Nat) : Nat := bits (v (aGrpCfg g)) 2 1
def gRevert (v : View) (g : Nat) : Bool := bit (v (aGrpCfg g)) 3
def gSdEn (v : View) (g : Nat) : Bool := bit (v (aGrpCfg g)) 4
/-- APS_EN: for ARCH 1 and 2 taken as 1 (R398, Table 08-1). -/
def gApsEn (v : View) (g : Nat) : Bool := bit (v (aGrpCfg g)) 5 || gArch v g == 1 || gArch v g == 2
def gErrorless (v : View) (g : Nat) : Bool := bit (v (aGrpCfg g)) 6
def gHoldoff (v : View) (g : Nat) : Nat := bits (v (aGrpCfg g)) 14 8
def gWtr (v : View) (g : Nat) : Nat := bits (v (aGrpCfg g)) 19 16
def gHome (v : View) (g : Nat) : Nat := bits (v (aGrpCfg g)) 29 24
def gApsId (v : View) (g : Nat) : Nat := bits (v (aGrpAps g)) 10 0
def gCount (v : View) (g : Nat) : Nat := bits (v (aGrpAps g)) 22 16
def gMember (v : View) (g j : Nat) : Nat :=
  if j % 2 = 0 then bits (v (aGrpMem g (j / 2))) 29 16 else bits (v (aGrpMem g (j / 2))) 13 0
/-- The members in use, at most 80. -/
def gMembers (v : View) (g : Nat) : List Nat := (List.range (min (gCount v g) 80)).map (gMember v g)

def bwWin (v : View) (p : Nat) : Nat := clampNat 1 1024 (bits (v (aBwWin p)) 10 0)
def pairEn (v : View) : Bool := bit (v aPairCfg) 0
def autoResync (v : View) : Bool := bit (v aPairCfg) 1
def swapGap (v : View) : Nat := bits (v aPairCfg) 15 2
def txWatch (v : View) : Nat := bits (v aPairCfg) 28 16

def tSelMode (v : View) : Bool := bit (v aThyCfg0) 0
def tNonrevert (v : View) : Bool := bit (v aThyCfg0) 1
def tPbo (v : View) : Bool := bit (v aThyCfg0) 2
def tFrameSrc (v : View) : Nat := bits (v aThyCfg0) 4 3
def tMfcMode (v : View) : Bool := bit (v aThyCfg0) 5
def tMfcPort (v : View) : Nat := bits (v aThyCfg0) 14 8
def tAcqBw (v : View) : Nat := bits (v aThyCfg0) 19 16
def tTrackBw (v : View) : Nat := bits (v aThyCfg0) 23 20
def tQlOwn (v : View) : Nat := bits (v aThyCfg0) 27 24
def tHoQl (v : View) : Nat := bits (v aThyCfg0) 31 28
def tLockWindow (v : View) : Nat := bits (v aThyCfg1) 6 0
def tFreqLimit (v : View) : Nat := bits (v aThyCfg1) 14 8
def tLockTime (v : View) : Nat := bits (v aThyCfg1) 28 16
def tFpWindow (v : View) : Nat := bits (v aThyFp) 12 0
def cPrio (v : View) (c : Nat) : Nat := bits (v (aCandCfg c)) 3 0
def cLane (v : View) (c : Nat) : Nat := bits (v (aCandCfg c)) 14 8
def cFreq (v : View) (c : Nat) : Nat := bits (v (aCandCfg c)) 18 16
def cElec (v : View) (c : Nat) : Bool := bit (v (aCandCfg c)) 19
def cQlMode (v : View) (c : Nat) : Bool := bit (v (aCandCfg c)) 20
def cFixedQl (v : View) (c : Nat) : Nat := bits (v (aCandCfg c)) 27 24
def cHoldoff (v : View) (c : Nat) : Nat := bits (v (aCandTmr c)) 9 0
def cWtr (v : View) (c : Nat) : Nat := bits (v (aCandTmr c)) 25 16
def oFreq (v : View) (o : Nat) : Nat := bits (v (aOutCfg o)) 2 0
def oSquelch (v : View) (o : Nat) : Nat := bits (v (aOutCfg o)) 4 3
def gpioFunc (v : View) (n : Nat) : Nat := bits (v (aGpioFunc n)) 4 0

def evTransport (v : View) : Nat := bits (v aEvtCfg) 2 0
def evAuth (v : View) : Nat := bits (v aEvtCfg) 13 8
def evVlan (v : View) : Bool := bit (v aEvtCfg) 14
def evMask (v : View) (k : Nat) : Bool := bit (v aEvtCfg) (16 + k)

/-- Number of slots a mode carries (Table 06-1): TRUNK 80, C10 8, C25 and C25F 20, C50 40, C100 80. -/
def modeSlots (m : Nat) : Nat :=
  if m = 1 then 80 else if m = 2 then 8 else if m = 3 ∨ m = 4 then 20 else if m = 5 then 40
  else if m = 6 then 80 else 0

end Sys2Proof.Machine
end

