-- ==== Sys2Proof/Machine/Ops.lean ====
section
/-! DEFINITION. The named operations over the state that every family shares: element access, counters (R412 to R419),
trace records and events (R422 to R424, R433, R437), free values. -/

namespace Sys2Proof.Machine

/-! Element access. -/
def portOf (s : State) (p : Nat) : PortSt := tget {} s.ports p
def onPort (s : State) (p : Nat) (f : PortSt → PortSt) : State :=
  { s with ports := tput {} s.ports p (f (portOf s p)) }
def onTrunk (s : State) (p : Nat) (f : TrunkSt → TrunkSt) : State := onPort s p (fun x => { x with trunk := f x.trunk })
def onClient (s : State) (p : Nat) (f : ClientSt → ClientSt) : State :=
  onPort s p (fun x => { x with client := f x.client })
def grpOf (s : State) (g : Nat) : GrpSt := tget {} s.grps g
def onGrp (s : State) (g : Nat) (f : GrpSt → GrpSt) : State := { s with grps := tput {} s.grps g (f (grpOf s g)) }
def chkOf (s : State) (m : Nat) : ChkSt := tget {} s.chks m
def onChk (s : State) (m : Nat) (f : ChkSt → ChkSt) : State := { s with chks := tput {} s.chks m (f (chkOf s m)) }
def candOf (s : State) (c : Nat) : CandSt := tget {} s.thy.cands c
def onThy (s : State) (f : ThySt → ThySt) : State := { s with thy := f s.thy }
def onCand (s : State) (c : Nat) (f : CandSt → CandSt) : State :=
  onThy s (fun t => { t with cands := tput {} t.cands c (f (candOf s c)) })
def fpOf (s : State) (i : Nat) : FpSt := tget {} s.thy.fp i
def onFp (s : State) (i : Nat) (f : FpSt → FpSt) : State := onThy s (fun t => { t with fp := tput {} t.fp i (f (fpOf s i)) })
def onCom (s : State) (f : CommitSt → CommitSt) : State := { s with com := f s.com }
def onPwr (s : State) (f : PowerSt → PowerSt) : State := { s with pwr := f s.pwr }
def onPair (s : State) (f : PairSt → PairSt) : State := { s with pair := f s.pair }
def onMir (s : State) (f : MirSt → MirSt) : State := { s with mir := f s.mir }
def onVcp (s : State) (f : VcpSt → VcpSt) : State := { s with vcp := f s.vcp }
def onSage (s : State) (f : SageSt → SageSt) : State := { s with sage := f s.sage }
def onMap (s : State) (f : MapSt → MapSt) : State := { s with map := f s.map }
def onMem (s : State) (f : MemSt → MemSt) : State := { s with mem := f s.mem }
def onSeq (s : State) (f : SeqSt → SeqSt) : State := { s with seq := f s.seq }
def onFlash (s : State) (f : FlashSt → FlashSt) : State := { s with flash := f s.flash }
def onRegs (s : State) (f : RegSt → RegSt) : State := { s with regs := f s.regs }
def onPins (s : State) (f : PinSt → PinSt) : State := { s with pins := f s.pins }
def onAuto (s : State) (f : AutoSt → AutoSt) : State := { s with auto := f s.auto }
def onMgSh (s : State) (f : MgShSt → MgShSt) : State := { s with mgSh := f s.mgSh }
def mgOf (s : State) (b : Bool) : MgSt := if b then s.mgB else s.mgA
def onMg (s : State) (b : Bool) (f : MgSt → MgSt) : State :=
  if b then { s with mgB := f s.mgB } else { s with mgA := f s.mgA }
/-- True for MGMT_B. -/
def isB : MgPort → Bool
  | .a => false
  | .b => true

/-- Active view of the configuration. -/
def actv (s : State) : View := act s
/-- Staged view of the configuration. -/
def stgv (s : State) : View := stg s

/-- The die is released: commands and events have their effect (R30, R448). -/
def powered (s : State) : Bool := s.phase != .off && s.phase != .reset

/-- An effect that only a released die has. -/
def live (s t : State) : State := if powered s then t else s

/-- An effect that falls at frame boundaries of a released die only. -/
def liveFrame (s t : State) : State := if powered s && isFrame s.sfp then t else s
/-- An effect that falls at epoch boundaries of a released die only. -/
def liveEpoch (s t : State) : State := if powered s && isEpoch s.sfp then t else s

/-! The Chive mirror queue (R219, R435). -/

/-- A heartbeat stamp lies within n blocks before the present position. -/
def heardWithin (s : State) (o : Option Sfp) (n : Int) : Bool :=
  match o with
  | some f => decide (sfpDist f s.sfp < n)
  | none => false
/-- The link is silent: no lane delivered a heartbeat in the preceding 2 frames (R218). -/
def chiveSilent (s : State) : Bool := !heardWithin s s.pair.hb0 327536 && !heardWithin s s.pair.hb1 327536
/-- The peer's last heartbeat gives one of these states, on a link that is not silent. -/
def peerIs (s : State) (codes : List (BitVec 3)) : Bool :=
  !chiveSilent s && s.pair.peer.any (fun p => codes.contains p.1)
/-- The active mirrors: its peer is in STANDBY_SYNCING or STANDBY (R219). -/
def mirOn (s : State) : Bool := decide (s.pair.st = .active) && peerIs s [4, 5]

/-- Lane blocks of a record (log 86): at most 3 for an incremental record. -/
def mirSize : MirrorRec → Nat
  | .mapStore .. => 3 | .smiStore .. => 3 | .viewWrite .. => 3 | .stageBits .. => 3 | .commitEntry .. => 3
  | .snapshots _ => 3 | .validation .. => 3 | .group .. => 5 | .urgent .. => 3 | .eq .. => 2 | .allot .. => 3
  | .thyme .. => 3 | .cand .. => 3 | .history _ => 3 | .historyAll l => 2 * l.length + 1 | .holdover .. => 3
  | .authHash .. => 3 | .lastSeq .. => 3 | .swap _ => 3 | .swapConfirm _ => 3 | .resyncStart => 3
  | .segment .. => 170 | .view _ _ ws => ws.length + 1 | .bulkRequest => 3 | .bulkEnd => 3 | .auditRequest => 3
  | .audit _ => 75 | .repair _ => 3

/-- Record blocks of a lane that begin in a frame before block bi: every fourth block begins one, and 40 of them are
heartbeats (R216). -/
def recordBlocks (bi : Nat) : Nat := (bi + 3) / 4 - min 40 (((bi + 3) / 4 + 1023) / 1024)
/-- Record blocks of a lane from a to b. -/
def laneBlocks (a b : Sfp) : Nat :=
  (mfcDiff a.mfc b.mfc * 1308864 + ((b.fi : Int) - a.fi) * 40902 + (recordBlocks b.bi - recordBlocks a.bi : Int)).toNat

/-- What n more lane blocks leave of the queue, and how many of them its oldest record has had. -/
def mirPop : List MirItem → Nat → List MirItem × Nat
  | [], _ => ([], 0)
  | x :: r, n => if mirSize x.body ≤ n then mirPop r (n - mirSize x.body) else (x :: r, n)

/-- The live lanes carry the queue up to the present position; each carries every record (R435, log 86). -/
def mirDrain (s : State) : State :=
  let n := match s.mir.at_ with
    | some a => if s.pair.live0 || s.pair.live1 then laneBlocks a s.sfp else 0
    | none => 0
  onMir s (fun x => { x with q := (mirPop x.q (x.sent + n)).1, sent := (mirPop x.q (x.sent + n)).2, at_ := some s.sfp })
/-- Lane blocks free in the queue. -/
def mirFree (x : MirSt) : Nat := 16384 + x.sent - (x.q.map (fun i => mirSize i.body)).sum
/-- A record enters the queue, with the present SFP. -/
def mirPush (s : State) (full : Bool) (m : MirrorRec) : State :=
  onMir (mirDrain s) (fun x => { x with q := x.q ++ [{ at_ := s.sfp, full := full, body := m }] })
/-- An incremental record of an active that mirrors (R435). -/
def mirror (s : State) (m : MirrorRec) : State := if mirOn s then mirPush s false m else s
/-- A write that makes an incremental record is held: fewer than 3 blocks are free (R435). -/
def mirHeld (s : State) : Bool := mirOn s && decide (mirFree (mirDrain s).mir < 3)
/-- The queue is flushed, with what the engine still had to read for it (R443). -/
def mirFlush (s : State) : State := onMir s (fun _ => {})

/-- A word of a staged view is written, and mirrored (R86, R219). -/
def stgPut (s : State) (a : Nat) (w : Word) : State := mirror (onRegs s (setStg a w)) (.viewWrite false a w)
/-- STAGE_OPEN and STAGE_SUSPECT change, and are mirrored (R100, R219). -/
def setStageBits (s : State) (o u : BitVec 8) : State :=
  let s1 := onCom s (fun c => { c with stageOpen := o, suspect := u })
  if s.com.stageOpen = o ∧ s.com.suspect = u then s1 else mirror s1 (.stageBits o u)
/-- Domains stand open, or close. -/
def openDomains (s : State) (m : BitVec 8) : State := setStageBits s (s.com.stageOpen ||| m) s.com.suspect
def closeDomains (s : State) (m : BitVec 8) : State := setStageBits s (s.com.stageOpen &&& ~~~m) s.com.suspect
/-- The pending snapshot requests change, and are mirrored. -/
def setSnaps (s : State) (l : List (Sfp × BitVec 128)) : State :=
  let s1 := onCom s (fun c => { c with snaps := l })
  if s.com.snaps = l then s1 else mirror s1 (.snapshots l)
/-- The pending role swap changes, and is mirrored (R234). -/
def setSwap (s : State) (w : Option (Sfp × Bool)) : State :=
  mirror (onPair s (fun p => { p with swap := w })) (.swap (w.map (·.1)))

/-! Free values (log 5). -/

/-- Draw one free word. -/
def drawWord (s : State) : Word × State := (Config.freeWord s.fresh, { s with fresh := s.fresh + 1 })
/-- Draw n free bytes. -/
def drawBytes (s : State) (n : Nat) : Bytes × State :=
  ((List.range n).map (fun i => Config.freeByte (s.fresh + i)), { s with fresh := s.fresh + n })

/-! Counters. -/

/-- PCTR_CFG.CHAIN, ignored for counter 63 (T18-10). -/
def pctrChain (v : View) (n : Nat) : Bool := decide (n < 63) && bit (v (aPctrCfg n)) 1
/-- PCTR_CFG.ENABLE. -/
def pctrEnable (v : View) (n : Nat) : Bool := bit (v (aPctrCfg n)) 0
/-- The EVENT of counter n is ignored: the counter below chains into it (R418). -/
def pctrFed (v : View) (n : Nat) : Bool := decide (0 < n) && pctrChain v (n - 1)

/-- An event at `p` is too recent for a latch at `now`: fewer than 16 block times have passed since it (R413). -/
def unseen (now p : Sfp) : Bool := decide (0 ≤ sfpDist p now ∧ sfpDist p now < 16)
/-- A counter's increment joins those too recent to be read (R413). -/
def recentAdd (pos : Sfp) (l : List (Nat × Nat × Sfp)) (k amt : Nat) : List (Nat × Nat × Sfp) :=
  (k, amt, pos) :: l.filter (fun x => unseen pos x.2.2)
/-- What a latch at `now` does not yet see of a counter. -/
def recentOf (now : Sfp) (l : List (Nat × Nat × Sfp)) (k : Nat) : Nat :=
  ((l.filter (fun x => x.1 == k && unseen now x.2.2)).map (fun x => x.2.1)).sum

/-- Add to programmable counter n, its carries going up the chain; an unchained wrap awaits its report (R418, R419). -/
def pctrAdd (v : View) (pos : Sfp) : Nat → SageSt → Nat → Nat → SageSt
  | 0, g, _, _ => g
  | k + 1, g, n, amt =>
    if amt = 0 ∨ pctrEnable v n = false then g
    else
      let t := tget 0 g.pctr n + amt
      let g' := { g with pctr := tput 0 g.pctr n (t % 2 ^ 32), recentP := recentAdd pos g.recentP n amt }
      if t / 2 ^ 32 = 0 then g'
      else if pctrChain v n then pctrAdd v pos k g' (n + 1) (t / 2 ^ 32)
      else { g' with wraps := g'.wraps ++ [(n, pos)] }

/-- Add to fixed counter `idx` of block `blk`, and to every programmable counter that names it (R412, R414, R418). -/
def sageCount (v : View) (pos : Sfp) (g : SageSt) (blk idx amt : Nat) : SageSt :=
  if amt = 0 then g
  else
    let k := blk * 65536 + idx
    let g1 := { g with ctr := tput 0 g.ctr k ((tget 0 g.ctr k + amt) % 2 ^ 64), recent := recentAdd pos g.recent k amt }
    (List.range 64).foldl
      (fun g n => if (v (aPctrEvt n)).toNat = k && !pctrFed v n then pctrAdd v pos 64 g n amt else g) g1

/-- Count `amt` events of a fixed counter. -/
def count (s : State) (blk idx amt : Nat) : State := { s with sage := sageCount (actv s) s.sfp s.sage blk idx amt }

/-! Counter blocks (Table 19-1). -/
def cSys (s : State) (i : Nat) : State := count s 1 i 1
def cVcp (s : State) (i : Nat) : State := count s 2 i 1
def cCom (s : State) (i : Nat) : State := count s 3 i 1
def cCore (s : State) (i : Nat) : State := count s 4 i 1
def cThy (s : State) (i : Nat) : State := count s 5 i 1
def cPair (s : State) (i : Nat) : State := count s 6 i 1
def cFeed (s : State) (i : Nat) : State := count s 7 i 1
def cSage (s : State) (i : Nat) : State := count s 8 i 1
def cMg (s : State) (b : Bool) (i n : Nat) : State := count s (if b then 0xA else 9) i n
def cPort (s : State) (p i n : Nat) : State := count s (0x100 + p) i n
def cEgr (s : State) (g k n : Nat) : State := count s 0x200 (4 * g + k) n
def cGrp (s : State) (g k : Nat) : State := count s 0x300 (32 * g + k) 1
/-- Present value of a fixed counter. -/
def ctrVal (s : State) (blk idx : Nat) : Nat := tget 0 s.sage.ctr (blk * 65536 + idx)
/-- A fixed counter as a read latches it now: without the events of the last 15 block times (R413). -/
def ctrLatch (s : State) (blk idx : Nat) : Nat :=
  (ctrVal s blk idx + 2 ^ 64 - recentOf s.sfp s.sage.recent (blk * 65536 + idx)) % 2 ^ 64
/-- A programmable counter as a read latches it now. -/
def pctrLatch (s : State) (n : Nat) : Nat := (tget 0 s.sage.pctr n + 2 ^ 32 - recentOf s.sfp s.sage.recentP n % 2 ^ 32) % 2 ^ 32

/-! Trace records and events. -/

/-- Subtypes marked "trace only" in Table 19-4, and the classes that produce no event. -/
def traceOnly (cls sub : Nat) : Bool :=
  cls == 0 || 11 ≤ cls || (cls == 4 && sub == 3) || (cls == 5 && 3 ≤ sub) || (cls == 9 && sub == 6)
    || (cls == 10 && 2 ≤ sub)

/-- PRI of an event class (Table 12-12). -/
def evPri (cls : Nat) : Nat :=
  if cls = 3 ∨ cls = 6 ∨ cls = 7 then 3 else if cls = 1 ∨ cls = 2 ∨ cls = 4 ∨ cls = 8 then 2
  else if cls = 5 ∨ cls = 9 then 1 else 0

/-- The lowest PRI in the event queue. -/
def lowestPri (l : List EvPkt) : Nat := l.foldl (fun m e => min m e.pri) 4

/-- Offer an event to the event queue: when full it displaces the oldest packet of the lowest PRI below its own
(R437). -/
def evOffer (l : List EvPkt) (e : EvPkt) : List EvPkt :=
  if l.length < 64 then l ++ [e]
  else if lowestPri l < e.pri then delFirst (fun x => x.pri == lowestPri l) l ++ [e]
  else l

/-- The event authority slot is enabled (R276). -/
def evAuthOk (s : State) : Bool := (tget {} s.vcp.auths (evAuth (actv s))).enabled

/-- An event of class `cls` is put on the event queue (R276). -/
def evSent (s : State) (cls : Nat) : Bool :=
  evMask (actv s) (cls - 1) && evTransport (actv s) != 0 && evAuthOk s

/-- A record enters the trace FIFO; a full FIFO drops its oldest record (R423, R424). -/
def fifoPush (v : View) (pos : Sfp) (g : SageSt) (r : TraceRec) : SageSt :=
  match g.fifo with
  | (n, _) :: rest =>
    if 1024 ≤ g.fifo.length then
      let g1 := sageCount v pos { g with fifo := rest, holes := g.holes ++ [(n, pos)], dropFrame := true } 8 1 1
      { g1 with fifo := g1.fifo ++ [(g1.nextNo, r)], nextNo := g1.nextNo + 1 }
    else { g with fifo := g.fifo ++ [(g.nextNo, r)], nextNo := g.nextNo + 1 }
  | [] => { g with fifo := [(g.nextNo, r)], nextNo := g.nextNo + 1 }

/-- The event unit's copy of a record (R276, R433). -/
def eventOf (v : View) (pos : Sfp) (g : SageSt) (sent : Bool) (r : TraceRec) : SageSt :=
  if traceOnly r.cls r.sub then g
  else
    let e : EvPkt := { pri := evPri r.cls, cls := r.cls, seq := g.evtSeq, sub := r.sub, at_ := r.at_,
                       data := beBytes 2 r.obj.toNat ++ slice r.data 0 18 }
    let g1 := sageCount v pos { g with evtSeq := g.evtSeq + 1 } 8 7 1
    if sent then { g1 with events := evOffer g1.events e } else g1

/-- Write one trace record, with its event where the class has one. -/
def traceRec (s : State) (r : TraceRec) : State :=
  let full := decide (1024 ≤ s.sage.fifo.length)
  { s with
    sage := eventOf (actv s) s.sfp (fifoPush (actv s) s.sfp s.sage r) (evSent s r.cls) r
    regs := if full then setHistR hSage 1 s.regs else s.regs }

/-- A record of the present position. -/
def trace (s : State) (cls sub obj : Nat) (data : Bytes) : State :=
  traceRec s { at_ := s.sfp, cls := cls, sub := sub, obj := BitVec.ofNat 16 obj, data := data }
/-- A record stamped with another position. -/
def traceAt (s : State) (p : Sfp) (cls sub obj : Nat) (data : Bytes) : State :=
  traceRec s { at_ := p, cls := cls, sub := sub, obj := BitVec.ofNat 16 obj, data := data }

/-- OBJECT of a class that names no object. -/
def noObj : Nat := 0xFFFF

/-- Every port number. -/
def allPorts : List Nat := List.range 128
/-- Every group number. -/
def allGroups : List Nat := List.range 2048

end Sys2Proof.Machine
end

