-- ==== Sys2Proof/Machine/Ind.lean ====
section
/-! DEFINITION. Port defects and indications: conditions, masking, declaration and report (R125, R126, R148, R153,
R154), and what an SF-class defect does at once (R115, R127, R155, R443). -/

namespace Sys2Proof.Machine

/-! Bits of PORT_DEF (Table 13-10). -/
def dLos : Nat := 0
def dLol : Nat := 1
def dFecFail : Nat := 2
def dFecDeg : Nat := 3
def dLof : Nat := 4
def dLom : Nat := 5
def dSlip : Nat := 6
def dRdi : Nat := 7
def dMfcMis : Nat := 8
def dLf : Nat := 9
def dRf : Nat := 10
def dOor : Nat := 11
def dTim : Nat := 12
def dSmi : Nat := 13
def dLooped : Nat := 14
def dPeerLpbk : Nat := 15

/-- SF-class defects: LOS, LOL, FEC_FAIL, LOF, LOM (Tables 05-12 and 06-6). -/
def sfMask : BitVec 16 := 0x0037

/-- Mode of a port in the active configuration. -/
def modeOf (s : State) (p : Nat) : Nat := pMode (actv s) p
/-- The port is a trunk. -/
def isTrunk (s : State) (p : Nat) : Bool := modeOf s p == 1
/-- The port is a client. -/
def isClient (s : State) (p : Nat) : Bool := 2 ≤ modeOf s p && modeOf s p ≤ 6

/-- Masking of a trunk's defects (R126); LOM stays masked until the clearing of LOF is reported (R119). LOS and LOL mask
the indications LOOPED and PEER_LPBK too, which no list of R126 names (log 76). -/
def maskTrunk (raw rep : BitVec 16) : BitVec 16 :=
  if bit raw dLos then raw &&& 0x0001
  else if bit raw dLol then raw &&& 0x0002
  else if bit raw dFecFail || bit raw dLof then raw &&& ~~~ 0x31A0#16
  else if bit raw dLom then (if bit rep dLof then raw &&& ~~~ 0x31A0#16 else raw &&& ~~~ 0x3180#16)
  else raw

/-- Masking of a client's defects (R154). -/
def maskClient (raw : BitVec 16) : BitVec 16 :=
  if bit raw dLos then raw &&& 0x0001
  else if bit raw dLol then raw &&& 0x0002
  else if bit raw dFecFail then raw &&& ~~~ 0x0E08#16
  else raw

/-- The defects declared on a port now, as its conditions and masking give them. In NEAR loopback the line's own
defects are not declared and mask nothing (R148). -/
def targetInd (s : State) (p : Nat) (x : PortSt) : BitVec 16 :=
  let raw := if pLoop (actv s) p == 1 then x.raw &&& ~~~ 0x000F#16 else x.raw
  if isTrunk s p then maskTrunk raw x.rep else maskClient raw

/-- The indications as declared up to now. -/
def declNow (x : PortSt) : BitVec 16 := x.chg.foldl (fun w c => setBit w c.1 c.2) x.rep

/-- The changes that bring the declared set to its target, in bit order. -/
def indDiff (cur tgt : BitVec 16) : List (Nat × Bool) :=
  (List.range 16).filterMap (fun i => if bit cur i != bit tgt i then some (i, bit tgt i) else none)

/-- Any SF-class bit of a set. -/
def anySf (w : BitVec 16) : Bool := (w &&& sfMask) != 0

/-- Flush the channel transmit queue of a port: its packets are counted as RELAY_NO_ROUTE, and an idle chunk follows
(R442, R443). -/
def flushChannel (s : State) (p : Nat) : State :=
  let x := portOf s p
  let n := x.txq.length + (if x.txNow.isSome then 1 else 0)
  count (onPort s p (fun x => { x with txq := [], txNow := none })) 2 9 n

/-- Discard the packet in reassembly on a port, counted as MGMT_DISCARD (R115). -/
def mgmtDiscard (s : State) (p : Nat) : State :=
  if (portOf s p).trunk.reasm.isSome then cPort (onTrunk s p (fun t => { t with reasm := none })) p 28 1 else s

/-- What the declaration of the first SF-class defect on a port does at once (R127, R155, R443). -/
def sfBegins (s : State) (p : Nat) : State :=
  let s1 := flushChannel (onPort s p (fun x => { x with fillLf := true })) p
  if isClient s p && decide (0 < (portOf s p).client.ad.pkt) then
    cPort (onClient s1 p (fun c => { c with
      cut := true, ad := { c.ad with pkt := 0, dropping := none, overlen := false } })) p 40 1
  else s1

/-- A buffer centred at a fill of t: t positions that no block of the stream has filled yet (log 77). -/
def centredAd (a : AdaptSt) (t : Nat) : AdaptSt := { pad := t, credits := a.credits, toCredit := a.toCredit }

/-- Re-centring of a client's adaptation buffer at T (R155, R156). -/
def clientCentre (s : State) (p t : Nat) : State :=
  trace (cPort (onClient s p (fun c => { c with ad := centredAd c.ad t, centred := true, waitStart := true })) p 39 1)
    5 6 p (beBytes 2 t)

/-- Client block rate in blocks per microsecond times 64: 156.25, 390.625, 781.25, 1562.5 (file 06). -/
def clientRate64 (m : Nat) : Nat :=
  if m = 2 then 10000 else if m = 3 ∨ m = 4 then 25000 else if m = 5 then 50000 else if m = 6 then 100000 else 0

/-- Target fill T of a client's adaptation buffer (R136). -/
def targetFill (s : State) (p : Nat) : Nat := pEbDepth (actv s) p * clientRate64 (modeOf s p) / 64

/-- Nominal fill S of a trunk's elastic buffer (R120). -/
def ebNominal (s : State) (p : Nat) : Nat := pEbDepth (actv s) p * 3125 / 2

/-- The changes declare LOS or LOL, the defects that mask frame alignment (R115, R126). -/
def losesLine (ch : List (Nat × Bool)) : Bool := ch.any (fun c => c.2 && decide (c.1 ≤ dLol))

/-- Bring the declared indications of a port to what its conditions give: count each declaration (the SLIP counter
counts slips, R122), hold the changes for the next frame boundary, and take the actions of an SF that begins or ends;
a defect that masks frame alignment discards the packet in reassembly (R115). -/
def settle (s : State) (p : Nat) : State :=
  if modeOf s p == 0 then s
  else
    let x := portOf s p
    let cur := declNow x
    let tgt := targetInd s p x
    let ch := indDiff cur tgt
    let s1 := onPort s p (fun x => { x with chg := x.chg ++ ch })
    let s1' := if losesLine ch then mgmtDiscard s1 p else s1
    let s2 := forEach ch s1' (fun s c => if c.2 && c.1 != dSlip then cPort s p c.1 1 else s)
    if !anySf cur && anySf tgt then sfBegins s2 p
    else if anySf cur && !anySf tgt && isClient s p then clientCentre s2 p (targetFill s p)
    else s2

/-- A condition of a port begins or ends. -/
def setCond (s : State) (p i : Nat) (on : Bool) : State :=
  if bit (portOf s p).raw i == on then s
  else settle (onPort s p (fun x => { x with raw := setBit x.raw i on })) p

/-- The line meets or leaves a line condition. In NEAR loopback LOS is counted without a declaration (R148). -/
def lineCond (s : State) (p i : Nat) (on : Bool) : State :=
  let near := pLoop (actv s) p == 1 && modeOf s p != 0
  let s1 := if near && i == dLos && on && !bit (portOf s p).raw dLos then cPort s p 0 1 else s
  setCond s1 p i on

/-- The port is in use: it declares and clears defects (R395: an OFF port declares nothing). -/
def inUse (s : State) (p : Nat) : Bool := modeOf s p != 0
/-- The mode has FEC (Tables 06-1 and 06-6). -/
def hasFec (s : State) (p : Nat) : Bool := isTrunk s p || modeOf s p == 4 || modeOf s p == 5 || modeOf s p == 6

/-- One pending change reported at a frame boundary: sticky bit at a declaration, trace record and event (R125). -/
def reportChange (p : Nat) (s : State) (c : Nat × Bool) : State :=
  if c.2 then trace (sticky s (hPort p) (word (2 ^ c.1))) 5 1 p [by1 c.1]
  else trace s 5 2 p [by1 c.1]

/-- Report the changes of a port at a frame boundary; LOM may then be declared in its own right (R119). -/
def reportOnce (s : State) (p : Nat) : State :=
  let ch := (portOf s p).chg
  forEach ch (onPort s p (fun x => { x with rep := declNow x, chg := [] })) (reportChange p)

/-- The report of one port at a frame boundary (R125), and the end of a Local Fault fill that no centring ends
(R127). -/
def reportPort (s : State) (p : Nat) : State :=
  let s1 := reportOnce (settle (reportOnce s p) p) p
  let x := portOf s1 p
  if isTrunk s1 p && !anySf x.rep && !anySf (declNow x) && x.trunk.inMf then
    onPort s1 p (fun x => { x with fillLf := false })
  else s1

/-- The Local Fault sequence ordered set (R127): header 0b01, type 0x4B, O code 0, data 0x00, 0x00, 0x01. -/
def lfBlock : Block := { hdr := 1, data := 0x000000000100004B }
/-- The Local Fault fill of R127, R133 and R155, with the engine mark (R207). -/
def lfFill : Block := { lfBlock with mark := true }
/-- The error block: type 0x1E with eight /E/ (0x1E, 7 bits each) (Table 05-2), with the engine mark (R207). -/
def errBlock : Block := { hdr := 1, data := 0x3C78F1E3C78F1E1E, mark := true }
/-- The idle block: type 0x1E, eight /I/ (0x00). -/
def idleBlock : Block := { hdr := 1, data := 0x000000000000001E }

/-- Block type of a control block. -/
def blkType (b : Block) : Nat := bits b.data 7 0
/-- A control block (0b01 in the manual's notation, R106). -/
def isCtl (b : Block) : Bool := b.hdr == 1
/-- The sync header is invalid. -/
def badHdr (b : Block) : Bool := b.hdr == 0 || b.hdr == 3
/-- Payload byte j of a block (R106). -/
def blkByte (b : Block) (j : Nat) : Byte := BitVec.ofNat 8 (b.data.toNat / 2 ^ (8 * j + 8))
/-- The seven payload bytes. -/
def blkBytes (b : Block) : Bytes := (List.range 7).map (blkByte b)
/-- The 56-bit word of an overhead block. -/
def blkW (b : Block) : W56 := BitVec.ofNat 56 (beNat (blkBytes b))
/-- An overhead block from its 56-bit word. -/
def ohBlock (w : W56) : Block :=
  { hdr := 1, data := BitVec.ofNat 64 (0x3C + (List.range 7).foldl
      (fun a j => a + (w.toNat / 256 ^ (6 - j) % 256) * 2 ^ (8 * j + 8)) 0) }
/-- The seven bytes of a 56-bit word. -/
def wBytes (w : W56) : Bytes := beBytes 7 w.toNat

/-- The codes Thyme recognises (Table 02-2). -/
def qlKnown (c : BitVec 4) : Bool := c == 0x2 || c == 0x4 || c == 0x8 || c == 0xB || c == 0xF

/-- A received QL code as Thyme takes it: an unknown code is DNU, and QL_INVALID is counted (file 02). -/
def qlTake (s : State) (c : BitVec 4) : State × BitVec 4 := if qlKnown c then (s, c) else (cThy s 10, 0xF)

end Sys2Proof.Machine
end

