-- ==== Sys2Proof/Machine/Pending.lean ====
section
/-! DEFINITION. The pending-commit table's entries, the freeze, the pair's records, and what a change of the MFC does to
pending items (R59, R91, R92, R94). -/

namespace Sys2Proof.Machine

open Sys2Proof

/-- Code of an entry state (R299): FREE is 0. -/
def entCode : EntState → Nat
  | .pending => 1 | .armed => 2 | .applied => 3 | .cancelled => 4 | .discarded => 5

/-- Code of a pair state (Table 10-1). -/
def pairCode : PairState → Nat
  | .arbitrating => 0 | .unpaired => 1 | .active => 2 | .unsynced => 3 | .syncing => 4 | .standby => 5

/-- A twin in any standby state (R222). -/
def isStandby (s : State) : Bool :=
  match s.pair.st with
  | .arbitrating => false | .unpaired => false | .active => false
  | .unsynced => true | .syncing => true | .standby => true

/-- ALIVE_OUT is high exactly in ACTIVE and UNPAIRED (R214). -/
def holdsLines (s : State) : Bool :=
  match s.pair.st with
  | .unpaired => true | .active => true
  | .arbitrating => false | .unsynced => false | .syncing => false | .standby => false

/-- A domain is frozen now: until its epoch boundary (R92). -/
def frozenNow (s : State) (d : Nat) : Bool :=
  bit s.com.frozen d && decide (0 < sfpDist s.sfp (epochAt s.com.frozenTo))
/-- Any domain of a mask is frozen now. -/
def frozenAny (s : State) (m : BitVec 8) : Bool := (List.range 8).any (fun d => bit m d && frozenNow s d)

/-- A register or store write met a frozen staged view (R92). -/
def frozenWrite (s : State) : State := cCom (onCom s (fun c => { c with frozenWr := true })) 4

/-- An entry is PENDING or ARMED. -/
def entOpen (e : CommitEnt) : Bool := decide (e.st = .pending) || decide (e.st = .armed)

/-- An entry as the mirror carries it: nothing of one that has its outcome (Table 10-3). -/
def entMirror (e : CommitEnt) : Option MirEnt :=
  if entOpen e then some { epoch := e.epoch, mask := e.mask, removed := e.removed, grp := e.grp, dest := e.dest,
                           recs := e.recs, count := e.count, armed := decide (e.st = .armed) }
  else none

/-- An entry of the table is written, and mirrored; what the strobe or the report of an outcome writes each twin writes
for itself (R93, R219). -/
def entPut (s : State) (i : Nat) (e : CommitEnt) : State :=
  let s1 := onCom s (fun c => { c with ents := tset c.ents i e })
  if e.st = .applied then s1 else mirror s1 (.commitEntry (Fin.ofNat 16 i) (entMirror e))

/-- Change one entry of the table. -/
def onEnt (s : State) (i : Nat) (f : CommitEnt → CommitEnt) : State :=
  match tfind s.com.ents i with
  | some e => entPut s i (f e)
  | none => s

/-- An entry comes to its outcome. -/
def entOut (s : State) (i : Nat) (st : EntState) (reason row idx : Nat) : State :=
  onEnt s i (fun e => { e with st := st, reason := reason, row := row, idx := idx, validating := false,
                               outAt := some s.sfp })

/-- The entry for an epoch that is PENDING or ARMED. -/
def entFor (s : State) (ep : Nat) : Option (Nat × CommitEnt) :=
  s.com.ents.find? (fun kv => entOpen kv.2 && kv.2.epoch == ep)

/-- A pair record and its event: subtype, old and new state, reason (Table 19-4). -/
def pairRec (s : State) (sub : Nat) (old new : PairState) (reason : Nat) : State :=
  trace s 6 sub noObj [by1 (pairCode old), by1 (pairCode new), by1 reason]

/-- A pending role swap is aborted: counted and reported (R235, R313). -/
def swapAbort (s : State) (reason : Nat) : State :=
  pairRec (cPair (setSwap s none) 5) 4 s.pair.st s.pair.st reason

/-- Reason of an abort that the manual names and gives no code: a free byte (log 5). -/
def freeReason (s : State) : Nat × State :=
  let (b, s1) := drawBytes s 1
  (b.foldl (fun a x => a + x.toNat) 0, s1)

/-- A pending position no longer lies at least `blocks` after the present one. -/
def tooNear (s : State) (blocks : Int) (p : Sfp) : Bool := decide (sfpDist s.sfp p < blocks)
/-- Two frames. -/
def twoFrames : Int := 327536
/-- Two multiframes. -/
def twoMfs : Int := 10481152

/-- Pending snapshots that are too near are discarded, each with its record (R59). -/
def dropSnaps (s : State) : State :=
  let bad := s.com.snaps.filter (fun r => tooNear s twoFrames r.1)
  forEach bad (setSnaps s (s.com.snaps.filter (fun r => !tooNear s twoFrames r.1)))
    (fun t r => trace t 10 4 noObj (beBytes 6 r.1.mfc ++ [by1 r.1.fi, 1, by1 (pop r.2)]))

/-- A pending management snapshot that is too near is cleared and LATE set (R59). -/
def dropMgSnap (s : State) : State :=
  match s.mgSh.snapPend with
  | some (f, _) => if tooNear s twoFrames f then onMgSh s (fun m => { m with snapPend := none, late := true }) else s
  | none => s

/-- A pending role swap that is too near is aborted with reason CONFIG, code 6 (R59). -/
def dropSwap (s : State) : State :=
  match s.pair.swap with
  | some (f, _) => if tooNear s twoFrames f then swapAbort s 6 else s
  | none => s

/-! A step of the count (R54, R59, R222): what is stamped with a position keeps its distance, and what waits for the
first frame or epoch boundary waits for the first one of the new count. -/

/-- A stamp at the distance it had. -/
def shiftPos (old new x : Sfp) : Sfp := sfpOff new (sfpDist old x)
/-- The boundary an item waits for: this instant, or the first frame boundary from here. -/
def shiftFrame (old new x : Sfp) : Sfp := if x = old then new else nextFrame new
/-- The same for an epoch boundary. -/
def shiftEpoch (old new x : Sfp) : Sfp := if x = old then new else nextEpoch new

/-- Timers and pending items of Thyme. -/
def shiftThy (old new : Sfp) (t : ThySt) : ThySt :=
  let g := Option.map (shiftPos old new)
  { t with
    next := t.next.map (fun r => (r.1, r.2.1, shiftFrame old new r.2.2)), changedAt := g t.changedAt, cfgAt := g t.cfgAt
    hbAt := g t.hbAt, dayAt := g t.dayAt
    fp := t.fp.map (fun kv => (kv.1, { kv.2 with last := g kv.2.last, missAt := g kv.2.missAt }))
    refins := t.refins.map (fun kv => (kv.1, { kv.2 with last := g kv.2.last }))
    clkPh := t.clkPh.map (fun kv => (kv.1, g kv.2))
    pendQl := t.pendQl.map (fun r => (shiftFrame old new r.1, r.2))
    pendForce := t.pendForce.map (fun r => (shiftFrame old new r.1, r.2))
    pendMfc := t.pendMfc.map (fun r => (shiftEpoch old new r.1, r.2))
    pendRealign := t.pendRealign.map (shiftEpoch old new) }

/-- Stamps of a protection group: requests that wait for a boundary, and calendar cycles. -/
def shiftGrp (old new : Sfp) (x : GrpSt) : GrpSt :=
  let d : Int := (calCycle new : Int) - calCycle old
  let m := fun (k : MarkSt) => { k with last := k.last.map (fun q => (q.1, q.2 + d)) }
  { x with
    pend := x.pend.map (fun r => (shiftFrame old new r.1, r.2)), eqPend := x.eqPend.map (shiftPos old new)
    mw := m x.mw, mp := m x.mp, eqShift := x.eqShift.map (fun q => (q.1 + d, q.2)) }

/-- The count steps from `old` to the present position (R80). -/
def reStamp (old : Sfp) (s : State) : State :=
  let g := shiftPos old s.sfp
  let f := Option.map g
  let s1 := onVcp s (fun v => { v with
    badAuthAt := f v.badAuthAt, relay := v.relay.map (fun e => { e with at_ := g e.at_ })
    dup := v.dup.map (fun e => { e with at_ := g e.at_ })
    run := v.run.map (fun r => { r with since := g r.since, est := (r.est.1, g r.est.2) }) })
  let s2 := onRegs s1 (fun r => { r with pairs := r.pairs.map (fun kv => (kv.1, { kv.2 with at_ := g kv.2.at_ })) })
  let s3 := onPair s2 (fun p => { p with
    hb0 := f p.hb0, hb1 := f p.hb1, stamp := f p.stamp, watch := p.watch.map (fun w => (g w.1, w.2))
    swapped := f p.swapped, phaseAt := p.phaseAt.map g, txFrom := f p.txFrom
    force := p.force.map (shiftFrame old s.sfp) })
  let s4 := onSeq (onThy s3 (shiftThy old s.sfp)) (fun q => { q with
    devReset := q.devReset.map (fun r => (shiftEpoch old s.sfp r.1, r.2)) })
  let s5 := onCom s4 (fun c => { c with
    strobeAt := f c.strobeAt, ents := c.ents.map (fun kv => (kv.1, { kv.2 with outAt := f kv.2.outAt })) })
  let s6 := onSage (onAuto s5 (fun a => { a with strobe1 := f a.strobe1 })) (fun x => { x with
    txCur := x.txCur.map (fun r => (r.1, g r.2.1, r.2.2)) })
  { onMir s6 (fun x => { x with at_ := f x.at_ }) with
    grps := s4.grps.map (fun kv => (kv.1, shiftGrp old s.sfp kv.2)), map := { s4.map with selAt := f s4.map.selAt }
    ports := s4.ports.map (fun kv => (kv.1, { kv.2 with trunk := { kv.2.trunk with slipAt := f kv.2.trunk.slipAt } })) }

/-- The multiframe that begins here carries a new MFC; pending items that are no longer far enough ahead are discarded,
and a freeze ends with its entry (R59, R66). -/
def mfcChange (s : State) (new : Nat) : State :=
  let n := new % mfcMod
  let pos := fun (o : Option Sfp) => if o = some s.sfp then some { s.sfp with mfc := n } else o
  let s1 := reStamp s.sfp { onThy s (fun t => { t with ivEpochs := none }) with
    sfp := { s.sfp with mfc := n }, frameDone := pos s.frameDone, epochDone := pos s.epochDone }
  let bad := (s1.com.ents.filter (fun kv => entOpen kv.2 && tooNear s1 twoMfs (epochAt kv.2.epoch))).map (·.1)
  let s2 := forEach bad s1 (fun t i => entOut t i .discarded 2 0 0)
  let held := s2.com.ents.any (fun kv => decide (kv.2.st = .armed))
  dropSwap (dropMgSnap (dropSnaps (onCom s2 (fun c => { c with frozen := if held then c.frozen else 0 }))))

end Sys2Proof.Machine
end

