-- ==== Sys2Proof/Machine/PairOps.lean ====
section
/-! DEFINITION. Changes of the pair state that several families make (R214, R215, R231, R443). -/

namespace Sys2Proof.Machine

open Sys2Proof

/-- ALIVE_OUT is high in a pair state (R214). -/
def drives (p : PairState) : Bool := decide (p = .active) || decide (p = .unpaired)

/-- Domains of the two stages of AUTO_RESTORE (R459, R461). -/
def stageMask (n : Nat) : BitVec 8 := if n = 1 then 0xE8 else 0x17

/-- A standby applies no AUTO_RESTORE: a stage in progress ends, and its domains close (R239). -/
def autoLeave (s : State) : State :=
  match s.auto.stage with
  | .idle => s
  | .stage1 => onAuto (closeDomains s (stageMask 1)) (fun a => { a with stage := .done })
  | .stage2 => onAuto (closeDomains s (stageMask 2)) (fun a => { a with stage := .done })
  | .waitRole => onAuto s (fun a => { a with stage := .done })
  | .committed1 => onAuto s (fun a => { a with stage := .done })
  | .waitLock => onAuto s (fun a => { a with stage := .done })
  | .committed2 => onAuto s (fun a => { a with stage := .done })
  | .done => s

/-- Every trunk channel queue is flushed when the engine leaves ACTIVE or UNPAIRED, and packets in reassembly go
(R222, R443). -/
def leaveLines (s : State) : State :=
  autoLeave (forEach allPorts (onPair s (fun p => { p with txFrom := none })) (fun t p => flushChannel (mgmtDiscard t p) p))

/-- The pair state changes: counted, sticky, recorded and reported once, with the subtype of what changed it; `reason`
is that of STANDBY_UNSYNCED (R215, R233). -/
def pairChange (s : State) (sub : Nat) (n : PairState) (reason : Nat) : State :=
  let old := s.pair.st
  if old = n then onPair s (fun p => { p with why := reason })
  else
    let s1 := cPair (sticky (onPair s (fun p => { p with st := n, why := reason, changed := s.sfp
                                                         aliveOut := drives n, dualRun := 0
                                                         phase := 0, phaseAt := [], journal := [] })) hPair 0x200) 0
    let s2 := if drives old && !drives n then leaveLines s1 else s1
    pairRec s2 sub old n reason
/-- A change with no subtype of its own. -/
def pairTo (s : State) (n : PairState) (reason : Nat) : State := pairChange s 1 n reason

/-- A pair indication begins: its sticky bit (Table 18-3). -/
def pairSticky (s : State) (bitNo : Nat) : State := sticky s hPair (word (2 ^ bitNo))

/-- Opcode of PAIR_RESYNC. -/
def opPairResync : BitVec 16 := 0x0704

/-- The PAIR_RESYNC in execution ends with a status and a detail (R231, R232). -/
def endResync (s : State) (status detail : Byte) (data : Bytes) : State :=
  let s1 := onPair s (fun p => { p with resync := false })
  match s.vcp.run with
  | some r =>
    if r.op = opPairResync ∧ r.reply = none then
      onVcp s1 (fun v => { v with run := some { r with reply := some {
        req := r.req, op := r.op, status := status, detail := detail, accept := r.accept, data := data,
        key := r.key } } })
    else s1
  | none => s1

/-- A D7 strobe that changes PAIR_EN (R231, R238, R313). -/
def pairEnStrobe (s : State) (now : Bool) : State :=
  if now then (if s.pair.st = .unpaired then pairTo s .active 0 else s)
  else
    let s1 := if s.pair.swap.isSome then swapAbort s 6 else s
    match s.pair.st with
    | .active => pairTo s1 .unpaired 0
    | .standby => pairTo s1 .unsynced 6
    | .syncing => pairTo (endResync s1 4 9 []) .unsynced 6
    | .unsynced => onPair s1 (fun p => { p with why := 6 })
    | .arbitrating => s1
    | .unpaired => s1

end Sys2Proof.Machine
end

