-- ==== Sys2Proof/Machine/Crc.lean ====
section
/-! DEFINITION. Check codes: CRC-8 and CRC-16 of the overhead (Table 05-4), the Ethernet FCS and the image CRC-32,
SHA-256, and the 16-byte tag of a packet (R258). -/

namespace Sys2Proof.Machine

/-- One bit of a CRC, most significant bit first. -/
def crcBit (n : Nat) (poly : BitVec n) (c : BitVec n) (b : Bool) : BitVec n :=
  if (c.msb != b) then (c <<< 1) ^^^ poly else c <<< 1

/-- The eight bits of a byte, most significant first. -/
def msbBits (b : Byte) : List Bool := (List.range 8).map (fun i => b.getLsbD (7 - i))

/-- A CRC over whole bytes in increasing order, most significant bit of each byte first (R107). -/
def crcMsb (n : Nat) (poly init : BitVec n) (d : Bytes) : BitVec n :=
  (d.flatMap msbBits).foldl (crcBit n poly) init

/-- CRC-8 of Table 05-4. -/
def crc8 (d : Bytes) : Byte := crcMsb 8 0x07 0 d
/-- CRC-16 of Table 05-4. -/
def crc16 (d : Bytes) : BitVec 16 := crcMsb 16 0x1021 0xFFFF d

/-- One bit of the reflected CRC-32. -/
def crc32Bit (c : Word) : Word := if c.getLsbD 0 then (c >>> 1) ^^^ 0xEDB88320 else c >>> 1
/-- One byte of the reflected CRC-32. -/
def crc32Byte (c : Word) (b : Byte) : Word :=
  (List.range 8).foldl (fun x _ => crc32Bit x) (c ^^^ b.setWidth 32)
/-- CRC-32 of IEEE 802.3: the FCS of a frame and the check of images and stores (R451). -/
def crc32 (d : Bytes) : Word := ~~~ (d.foldl crc32Byte 0xFFFFFFFF)
/-- The four FCS bytes as transmitted, low byte of the CRC first. -/
def fcsBytes (d : Bytes) : Bytes :=
  let c := crc32 d
  [c.setWidth 8, (c >>> 8).setWidth 8, (c >>> 16).setWidth 8, (c >>> 24).setWidth 8]
/-- A frame with its FCS is good. -/
def fcsOk (f : Bytes) : Bool := f.drop (f.length - 4) == fcsBytes (f.take (f.length - 4))

/-! SHA-256 (FIPS 180-4; PRESUMED, log 8). Its constants are the first 32 bits of the fractional parts of the cube roots
of the first 64 primes and of the square roots of the first 8. -/

/-- No number from 2 to 17 divides it but itself: below 324, a prime. -/
def isPrime (n : Nat) : Bool := decide (2 ≤ n) && (rangeFrom 2 16).all (fun d => n == d || n % d != 0)
/-- The 64 primes below 312. -/
def primes : List Nat := (List.range 312).filter isPrime
/-- The largest r ≥ `r` with r ^ k ≤ x that `n` more bits give. -/
def rootFrom (k x : Nat) : Nat → Nat → Nat
  | 0, r => r
  | n + 1, r => rootFrom k x n (if (r + 2 ^ n) ^ k ≤ x then r + 2 ^ n else r)
/-- The first 32 bits after the point of the k-th root of p. -/
def rootFrac (k p : Nat) : Word := word (rootFrom k (p * 2 ^ (32 * k)) 40 0)
/-- Round constants. -/
def shaK : List Word := primes.map (rootFrac 3)
/-- Initial hash value. -/
def shaInit : List Word := (primes.take 8).map (rootFrac 2)

/-- The next word of the message schedule from the last sixteen, newest first. -/
def shaNext (w : List Word) : Word :=
  let a := w.getD 14 0
  let b := w.getD 1 0
  let s0 := a.rotateRight 7 ^^^ a.rotateRight 18 ^^^ (a >>> 3)
  let s1 := b.rotateRight 17 ^^^ b.rotateRight 19 ^^^ (b >>> 10)
  w.getD 15 0 + s0 + w.getD 6 0 + s1

/-- The schedule, newest first, after n extensions. -/
def shaSched : Nat → List Word → List Word
  | 0, w => w
  | n + 1, w => shaSched n (shaNext w :: w)

/-- One round of SHA-256 on the eight working words. -/
def shaRound (h : List Word) (kw : Word × Word) : List Word :=
  let a := h.getD 0 0
  let e := h.getD 4 0
  let s1 := e.rotateRight 6 ^^^ e.rotateRight 11 ^^^ e.rotateRight 25
  let ch := (e &&& h.getD 5 0) ^^^ (~~~ e &&& h.getD 6 0)
  let t1 := h.getD 7 0 + s1 + ch + kw.1 + kw.2
  let s0 := a.rotateRight 2 ^^^ a.rotateRight 13 ^^^ a.rotateRight 22
  let mj := (a &&& h.getD 1 0) ^^^ (a &&& h.getD 2 0) ^^^ (h.getD 1 0 &&& h.getD 2 0)
  [t1 + (s0 + mj), a, h.getD 1 0, h.getD 2 0, h.getD 3 0 + t1, e, h.getD 5 0, h.getD 6 0]

/-- Words of a byte string, four bytes each. -/
def wordsOf (n : Nat) (b : Bytes) : List Word := (List.range n).map (fun i => word (pkNat b (4 * i) 4))

/-- One 64-byte block. -/
def shaBlock (h : List Word) (b : Bytes) : List Word :=
  let w := (shaSched 48 (wordsOf 16 b).reverse).reverse
  let r := (shaK.zip w).foldl shaRound h
  h.zipWith (· + ·) r

/-- The padded message. -/
def shaPad (b : Bytes) : Bytes :=
  b ++ [0x80] ++ zeros ((119 - b.length % 64) % 64) ++ beBytes 8 (8 * b.length)

/-- Blocks of the padded message, `n` of them. -/
def shaBlocks : Nat → Bytes → List Word → List Word
  | 0, _, h => h
  | n + 1, b, h => shaBlocks n (b.drop 64) (shaBlock h (b.take 64))

/-- SHA-256 (FIPS 180-4). -/
def sha256 (b : Bytes) : Bytes :=
  let p := shaPad b
  (shaBlocks (p.length / 64) p shaInit).flatMap (fun w => beBytes 4 w.toNat)

/-- HMAC-SHA256 with a key of at most 64 bytes (RFC 2104). -/
def hmac (key msg : Bytes) : Bytes :=
  let k := key ++ zeros (64 - key.length)
  sha256 (k.map (· ^^^ 0x5C) ++ sha256 (k.map (· ^^^ 0x36) ++ msg))

/-- The 16-byte tag: the first 16 bytes of the HMAC (R258). -/
def tagOf (key msg : Bytes) : Bytes := (hmac key msg).take 16

end Sys2Proof.Machine
end

