-- ==== Sys2Proof/Machine/Client.lean ====
section
/-! DEFINITION. Client ports (file 06): ingress adaptation, receive monitor, LF and RF, ESMC, snapshots, pattern
checkers. -/

namespace Sys2Proof.Machine

open Sys2Proof

/-! Block kinds (R137). -/
def isStart (b : Block) : Bool := isCtl b && (blkType b == 0x78 || blkType b == 0x33)
def isTerm (b : Block) : Bool :=
  isCtl b && [0x87, 0x99, 0xAA, 0xB4, 0xCC, 0xD2, 0xE1, 0xFF].contains (blkType b)
def isOrdSet (b : Block) : Bool := isCtl b && blkType b == 0x4B
def isIdleB (b : Block) : Bool := isCtl b && b.data == 0x1E
def isErrB (b : Block) : Bool := b.hdr == 1 && b.data == errBlock.data

/-- The position after a block is an insertion point (R137). -/
def isInsPoint (prev : Option Block) : Bool :=
  match prev with
  | some b => isTerm b || isIdleB b || isOrdSet b
  | none => false

/-- A deletable block (R137). -/
def isDeletable (prev : Option Block) (b : Block) : Bool :=
  match prev with
  | some q => (isIdleB b && isInsPoint prev) || (isOrdSet b && q.data == b.data && q.hdr == b.hdr)
  | none => false

/-! The buffer that deletes and inserts between packets (R137 to R140), used three times: a client's ingress adaptation,
its loopback buffer (R148), and, reading only, its de-adaptation (R143). -/

/-- Its fill. -/
def adFill (a : AdaptSt) : Nat := a.pad + a.buf.length

/-- What one block at the writing side did beside the buffer: counts of AD_IDLE_DEL, AD_PKT_DROP, AD_BLK_DROP and
AD_OVERLENGTH, and the drop whose terminate block came: SFP and fill at its start, blocks (R138 to R140). -/
structure AdOut where
  /-- the buffer after it -/
  ad : AdaptSt
  del : Nat := 0
  pkts : Nat := 0
  blks : Nat := 0
  overl : Nat := 0
  /-- the record of a whole dropped packet -/
  dropped : Option (Sfp × Nat × Nat) := none
  deriving DecidableEq, Repr

/-- One block received toward the deletion credits (R138). -/
def earnCredit (a : AdaptSt) : AdaptSt :=
  if a.toCredit + 1 < 5000 then { a with toCredit := a.toCredit + 1 }
  else { a with toCredit := 0, credits := min 16 (a.credits + 1) }

/-- Write a block into the buffer. -/
def adPush (a : AdaptSt) (b : Block) : AdaptSt := { a with buf := a.buf ++ [b], prevW := some b }

/-- A block offered to the buffer outside a discard, at target fill t and drop margin m: a 2,049th block of a packet
gives way to the error block (a start block there begins its own packet after it); a start block at t + m starts the
discard of its packet; a deletable block above t with a credit is deleted; any other block is written. -/
def adAccept (pos : Sfp) (t m : Nat) (a : AdaptSt) (b : Block) : AdOut :=
  if a.pkt = 2048 then
    let e := adPush { a with pkt := 0 } errBlock
    if isStart b then
      if t + m ≤ adFill e then { ad := { e with dropping := some (pos, adFill e, 1) }, overl := 1, pkts := 1, blks := 1 }
      else { ad := adPush { e with pkt := 1 } b, overl := 1 }
    else { ad := { e with overlen := !isTerm b }, overl := 1, blks := 1 }
  else if isStart b then
    if t + m ≤ adFill a then { ad := { a with dropping := some (pos, adFill a, 1), pkt := 0 }, pkts := 1, blks := 1 }
    else { ad := adPush { a with pkt := 1 } b }
  else if 0 < a.pkt then { ad := adPush { a with pkt := if isTerm b then 0 else a.pkt + 1 } b }
  else if isDeletable a.prevW b && decide (t < adFill a) && decide (0 < a.credits) then
    { ad := { a with credits := a.credits - 1, prevW := some b }, del := 1 }
  else { ad := adPush a b }

/-- One block at the writing side: a packet being discarded goes on to its terminate block (R139), an overlength one to
its terminate block or to the next start block (R140). -/
def adWrite (pos : Sfp) (t m : Nat) (a : AdaptSt) (b : Block) : AdOut :=
  match a.dropping with
  | some (at_, fill, n) =>
    if isTerm b then { ad := { a with dropping := none }, blks := 1, dropped := some (at_, fill, n + 1) }
    else { ad := { a with dropping := some (at_, fill, n + 1) }, blks := 1 }
  | none =>
    if a.overlen && !isStart b then { ad := { a with overlen := !isTerm b }, blks := 1 }
    else adAccept pos t m { a with overlen := false } b

/-- The read side stands inside a packet after a block: a start block opens it; a terminate block ends it, and so does
what ends a packet without one, an error block (R140, R155) or an ordered set (log 77). -/
def inPkt (was : Bool) (b : Block) : Bool :=
  if isStart b then true else if isTerm b || isErrB b || isOrdSet b then false else was

/-- The reading side is at an insertion point (R137). -/
def adInsPoint (a : AdaptSt) : Bool := !a.pktR && isInsPoint a.prevR

/-- The block inserted after the one last read (R137). -/
def adIns (a : AdaptSt) : Block :=
  match a.prevR with
  | some q => if isOrdSet q then q else idleBlock
  | none => idleBlock

/-- One block at the reading side, at target fill t: an inserted one at an insertion point below t, else the oldest
block; a position that nothing has filled carries Local Fault. None of an empty buffer (R138). The flag tells an
insertion. -/
def adRead (t : Nat) (a : AdaptSt) : Option (Block × Bool × AdaptSt) :=
  if adInsPoint a && decide (adFill a < t) then some (adIns a, true, { a with prevR := some (adIns a) })
  else if 0 < a.pad then some (lfFill, false, { a with pad := a.pad - 1, prevR := none, pktR := false })
  else
    match a.buf with
    | b :: rest => some (b, false, { a with buf := rest, prevR := some b, pktR := inPkt a.pktR b })
    | [] => none

/-- A block that nothing provides: its content is open (log 5). -/
def freeBlock (s : State) : Block × State :=
  let (w, s1) := drawWord s
  let (v, s2) := drawWord s1
  ({ hdr := 2, data := w ++ v }, s2)

/-- The client block as the receive path hands it on (R141). -/
def clientRx (b : Block) : Block := if badHdr b || (isCtl b && blkType b == 0x3C) then errBlock else b

/-- What a write did is counted, and the record of a dropped packet and of an overlength one written (R139, R140). -/
def adCounts (s : State) (p : Nat) (o : AdOut) : State :=
  let s1 := cPort (cPort (cPort (cPort s p 32 o.del) p 34 o.pkts) p 35 o.blks) p 36 o.overl
  let s2 := if 0 < o.overl then trace s1 5 5 p [] else s1
  match o.dropped with
  | some (at_, fill, n) => traceAt s2 at_ 5 4 p (beBytes 2 fill ++ beBytes 2 n)
  | none => s2

/-- The port's receive side is looped to its own transmit (R148). -/
def isNear (s : State) (p : Nat) : Bool := pLoop (actv s) p == 1
/-- The port's line transmit carries its receive side (R148). -/
def isFar (s : State) (p : Nat) : Bool := pLoop (actv s) p == 2

/-- One client block after the monitor: counted whatever stands (R154), taken by the loopback buffer in FAR (R148: T
128, margin 64, no count), and by the adaptation buffer while no SF stands (R138 to R141, R155). -/
def adBlock (s : State) (p : Nat) (b0 : Block) : State :=
  let b := clientRx b0
  let s0 := cPort (onClient s p (fun c => { c with
    rx16 := c.rx16 + 1, ad := earnCredit c.ad
    loop := if isFar s p then (adWrite s.sfp 128 64 (earnCredit c.loop) b).ad else c.loop })) p 30 1
  let s1 := if badHdr b0 || (isCtl b0 && blkType b0 == 0x3C) then cPort s0 p 37 1 else s0
  if anySf (declNow (portOf s1 p)) then s1
  else
    let o := adWrite s.sfp (targetFill s p) (pDropMargin (actv s) p) (portOf s1 p).client.ad b
    adCounts (onClient s1 p (fun c => { c with ad := o.ad })) p o

/-- ADAPT_BLOCK_WRITE. In NEAR loopback the block is the next one the port itself has transmitted (R148). -/
def xAdaptBlockWrite (p : Nat) (b : Block) (s : State) : State :=
  if isClient s p then
    if isNear s p then
      match (portOf s p).near with
      | c :: rest => adBlock (onPort s p (fun x => { x with near := rest })) p c
      | [] => s
    else adBlock s p b
  else s

def execAdaptBlockWrite (port : Fin 128) (b : Block) (s : State) : Host.Outcome State Fault Refusal :=
  .next (live s (xAdaptBlockWrite port.val b s))

/-- A block that the bandwidth windows count: no idle block, ordered set, error block or path marker (R421). -/
def bwCounts (b : Block) : Bool := !(isIdleB b || isOrdSet b || isErrB b || (isCtl b && blkType b == 0x3C))

/-- Store a block into the slot store's page of the present cycle (R157), with its port's bandwidth count (R421). -/
def storeSlot (s : State) (g : Nat) (b : Block) : State :=
  let s1 := onMap s (fun m => { m with store := tput lfFill m.store (calCycle s.sfp % 4 * 16384 + g) b })
  if bwCounts b then onPort s1 (g / 80) (fun x => { x with bwIn := x.bwIn + 1 }) else s1

/-- The block an ingress slot has written in the present calendar cycle (R157); a slot that nothing wrote carries Local
Fault (R133). -/
def stored (s : State) (g : Nat) : Block := tget lfFill s.map.store (calCycle s.sfp % 4 * 16384 + g)

/-- The path marker of a multiframe (Table 09-1). -/
def markerBlock (mfc : Nat) : Block :=
  let seq := beBytes 6 mfc
  ohBlock (BitVec.ofNat 56 (beNat (seq ++ [crc8 seq ^^^ 0xA5])))

/-- A block of the client stream goes to its slot: after a centring, from the first start or idle block read on; until
then the slots carry Local Fault (R155). -/
def slotIn (s : State) (p g : Nat) (b : Block) (ofStream : Bool) : State :=
  if (portOf s p).client.waitStart then
    if ofStream && (isStart b || isIdleB b) then
      storeSlot (onPort (onClient s p (fun c => { c with waitStart := false })) p (fun x => { x with fillLf := false })) g b
    else storeSlot s g lfFill
  else storeSlot s g b

/-- The block a client's reader delivers when its stream is in service (R138, R155). -/
def adReadStream (s : State) (p g : Nat) : State :=
  let c := (portOf s p).client
  match adRead (targetFill s p) c.ad with
  | some (b, ins, a) =>
    cPort (slotIn (onClient s p (fun c => { c with ad := a })) p g b (!ins && c.ad.pad == 0)) p 33 (b2n ins)
  | none => slotIn (freeBlock s).2 p g (freeBlock s).1 true

/-- The first block of a calendar cycle fixes whether the cycle carries the Local Fault of an SF (R155). -/
def cycleLf (s : State) (p k : Nat) : State :=
  if k = 0 then onClient s p (fun c => { c with cycLf := anySf (declNow (portOf s p)) }) else s

/-- ADAPT_BLOCK_READ: one block into the slot of the present calendar position (R133, R138, R144, R155). -/
def xAdaptBlockRead (p : Nat) (s : State) : State :=
  let k := (s.sfp.bi - 8) % 80
  if isClient s p && decide (8 ≤ s.sfp.bi) && decide (k < modeSlots (modeOf s p)) then
    let g := p * 80 + k
    let s1 := cycleLf s p k
    if pPmEn (actv s) p && decide (s.sfp.fi = 0 ∧ s.sfp.bi = 8) then
      cPort (storeSlot s1 g (markerBlock s.sfp.mfc)) p 38 1
    else if anySf (declNow (portOf s1 p)) && (portOf s1 p).client.cycLf then
      if (portOf s1 p).client.cut then storeSlot (onClient s1 p (fun c => { c with cut := false })) g errBlock
      else storeSlot s1 g lfFill
    else adReadStream s1 p g
  else s

def execAdaptBlockRead (port : Fin 128) (s : State) : Host.Outcome State Fault Refusal :=
  .next (live s (xAdaptBlockRead port.val s))

/-- AD_PPM in units of 0.1 ppm, rounded to nearest and saturating (R142). -/
def ppmOf (rx n : Nat) : Int :=
  let d : Int := ((rx : Int) - n) * 10000000
  clampInt (-32767) 32767 ((2 * d + n) / (2 * n))

/-- AD_PPM_REPORT: every 16 multiframes (R142). -/
def xAdPpmReport (p : Nat) (s : State) : State :=
  if isClient s p && isEpoch s.sfp && decide (s.sfp.mfc % 16 = 0) then
    let n := modeSlots (modeOf s p) * 2047 * 512
    let v := ppmOf (portOf s p).client.rx16 n
    let r := if 2000 < v then (portOf s p).client.oorRun + 1 else 0
    let s1 := onClient s p (fun c => { c with adPpm := BitVec.ofInt 16 v, rx16 := 0, oorRun := min r 2 })
    if 2 ≤ r then setCond s1 p dOor true else if v ≤ 1800 then setCond s1 p dOor false else s1
  else s

def execAdPpmReport (port : Fin 128) (s : State) : Host.Outcome State Fault Refusal :=
  .next (live s (xAdPpmReport port.val s))

/-- Index of the size counter of a frame length (Tables 06-2 and 19-2). -/
def sizeIdx (n : Nat) : Nat :=
  if n ≤ 64 then 62 else if n ≤ 127 then 63 else if n ≤ 255 then 64 else if n ≤ 511 then 65 else if n ≤ 1023 then 66
  else if n ≤ 1518 then 67 else 68

/-- Index of the address-type counter: unicast, multicast, broadcast. -/
def addrIdx (f : Bytes) : Nat :=
  if f.take 6 == List.replicate 6 0xFF then 53 else if bit (f.getD 0 0) 0 then 52 else 51

/-- EtherType of an untagged frame. -/
def etherType (f : Bytes) : Nat := pkNat f 12 2

/-- MON_FRAME_RECEIVE: the receive monitor MAC's counters (Table 06-2). -/
def xMonFrameReceive (p : Nat) (f : MonFrame) (s : State) : State :=
  if isClient s p then
    let n := f.bytes.length
    let s1 := cPort s p 50 n
    if !f.preambleOk then cPort s1 p 60 1
    else
      let ok := fcsOk f.bytes
      let mx := pMonMax (actv s) p
      let s2 := if f.errBlock then cPort s1 p 61 1 else s1
      if n < 64 then cPort s2 p (if ok then 56 else 57) 1
      else if mx < n then cPort s2 p (if ok then 58 else 59) 1
      else if !ok then cPort s2 p 55 1
      else
        let s3 := cPort (cPort (cPort (cPort s2 p 48 1) p 49 n) p (addrIdx f.bytes) 1) p (sizeIdx n) 1
        if etherType f.bytes == 0x8808 then cPort s3 p 54 1 else s3
  else s

def execMonFrameReceive (port : Fin 128) (f : MonFrame) (s : State) : Host.Outcome State Fault Refusal :=
  .next (live s (xMonFrameReceive port.val f s))

/-- ORDERED_SET_RECEIVE: 4 sets, each within 128 blocks of the one before, declare LF or RF (Table 06-6). -/
def xOrderedSetReceive (p : Nat) (remote : Bool) (gap : Nat) (s : State) : State :=
  if isClient s p then
    let c := (portOf s p).client
    let n := if gap ≤ 128 then (if remote then c.rfRun else c.lfRun) + 1 else 1
    let s1 := onClient s p (fun c => if remote then { c with rfRun := min n 4 } else { c with lfRun := min n 4 })
    if 4 ≤ n then setCond s1 p (if remote then dRf else dLf) true else s1
  else s

def execOrderedSetReceive (port : Fin 128) (remote : Bool) (gap : Nat) (s : State) :
    Host.Outcome State Fault Refusal :=
  .next (live s (xOrderedSetReceive port.val remote gap s))

/-- LF_CLEAR: 128 consecutive blocks without the ordered set (Table 06-6). -/
def xLfClear (p : Nat) (remote : Bool) (s : State) : State :=
  if isClient s p then
    setCond (onClient s p (fun c => if remote then { c with rfRun := 0 } else { c with lfRun := 0 })) p
      (if remote then dRf else dLf) false
  else s

def execLfClear (port : Fin 128) (remote : Bool) (s : State) : Host.Outcome State Fault Refusal :=
  .next (live s (xLfClear port.val remote s))

/-- The frame is a slow-protocol frame of subtype 0x0A (Table 06-2). -/
def isSlow0A (f : Bytes) : Bool := etherType f == 0x8809 && f.getD 14 0 == 0x0A

/-- The conditions of R36 for an ESMC PDU (field places PRESUMED from ITU-T G.8264, log 9). -/
def esmcOk (f : Bytes) : Bool :=
  f.take 6 == [0x01, 0x80, 0xC2, 0x00, 0x00, 0x02] && isSlow0A f && slice f 15 3 == [0x00, 0x19, 0xA7]
    && pkNat f 18 2 == 1 && bits (f.getD 20 0) 7 4 == 1 && fcsOk f && f.getD 24 0 == 0x01 && pkNat f 25 2 == 4

/-- ESMC_PDU_RECEIVE (R36, R146). -/
def xEsmcPduReceive (p : Nat) (f : Bytes) (s : State) : State :=
  if isClient s p then
    if esmcOk f then
      let (s1, v) := qlTake (cPort s p 69 1) (BitVec.ofNat 4 (bits (f.getD 27 0) 3 0))
      onPort (onClient s1 p (fun c => { c with qlPend := some v, esmcAge := some 0 })) p
        (fun x => { x with qlSfp := s.sfp })
    else if isSlow0A f then cPort s p 70 1
    else s
  else s

def execEsmcPduReceive (port : Fin 128) (frame : Bytes) (s : State) : Host.Outcome State Fault Refusal :=
  .next (live s (xEsmcPduReceive port.val frame s))

/-- ESMC_TIMEOUT: 1,491 multiframes without a valid PDU (R146). -/
def xEsmcTimeout (p : Nat) (s : State) : State :=
  match (portOf s p).client.esmcAge with
  | some n =>
    if isClient s p && decide (1491 ≤ n) && !(portOf s p).qlStale then
      cPort (cThy (onClient (onPort s p (fun x => { x with ql := 0xF, qlStale := true })) p
        (fun c => { c with qlPend := none })) 11) p 43 1
    else s
  | none => s

def execEsmcTimeout (port : Fin 128) (s : State) : Host.Outcome State Fault Refusal :=
  .next (live s (xEsmcTimeout port.val s))

/-- Copy of every fixed counter of a port (R147, Table 19-2). -/
def portCounters (s : State) (p : Nat) : List Nat := (List.range 71).map (fun i => ctrVal s (0x100 + p) i)

/-- PORT_SNAPSHOT_LATCH: at a named boundary the counters of the named ports are copied (R147). -/
def xPortSnapshotLatch (s : State) : State :=
  match s.com.snaps.find? (fun r => r.1 == s.sfp) with
  | some (at_, ports) =>
    let s1 := forEach (onesOf ports) s (fun t p => onPort t p (fun x => { x with snap := some (at_, portCounters s p) }))
    onCom s1 (fun c => { c with snaps := c.snaps.filter (fun r => r.1 != s.sfp) })
  | none => s

def execPortSnapshotLatch (s : State) : Host.Outcome State Fault Refusal :=
  .next (live s (xPortSnapshotLatch s))

/-- The next 64 bits of a pattern after the 64 given, first bit in bit 0: x^31 + x^28 + 1, or x^23 + x^18 + 1 for
POLY 1 (R150). -/
def prbsNext (poly : Bool) (last : BitVec 64) : BitVec 64 :=
  let (a, b) := if poly then (23, 18) else (31, 28)
  let full : BitVec 128 := (List.range 64).foldl
    (fun w i => setBit w (64 + i) (bit w (64 + i - a) != bit w (64 + i - b))) (last.setWidth 128)
  (full >>> 64).setWidth 64

/-- The ingress slot a checker is assigned to, when it is enabled (R151). -/
def chkSlot (s : State) (m : Nat) : Option Nat :=
  if bit (act s (aTpChk m)) 31 then some (bits (act s (aTpChk m)) 13 0) else none

/-- One block at a checker in sync (R151). -/
def chkInSync (s : State) (m : Nat) (b : Block) (want : BitVec 64) : State :=
  let errs := if b.hdr == 2 then pop (b.data ^^^ want) else 64
  let hist := ((chkOf s m).errs <<< 1) ||| (if errs = 0 then 0 else 1)
  let s1 := count s 0xB (4 * m) 1
  let s2 := if errs = 0 then s1 else count (count s1 0xB (4 * m + 1) 1) 0xB (4 * m + 2) errs
  if 4 ≤ pop hist then
    count (onChk s2 m (fun _ => { sync := false, last := none, errs := 0 })) 0xB (4 * m + 3) 1
  else onChk s2 m (fun c => { c with last := some want, errs := hist })

/-- TP_CHECKER_BLOCK: the block that the checker's ingress slot wrote in the present calendar cycle (R151). -/
def xTpCheckerBlock (m : Nat) (s : State) : State :=
  match chkSlot s m with
  | some g =>
    let b := stored s g
    let c := chkOf s m
    match c.last with
    | some l =>
      let want := prbsNext (pTpPoly (actv s) (g / 80)) l
      if c.sync then chkInSync s m b want
      else if b.hdr == 2 && b.data == want then
        onChk s m (fun _ => { sync := true, last := some want, errs := 0 })
      else onChk s m (fun _ => { sync := false, last := if b.hdr == 2 then some b.data else none, errs := 0 })
    | none => onChk s m (fun c => { c with last := if b.hdr == 2 then some b.data else none })
  | none => s

def execTpCheckBlock (m : Fin 64) (s : State) : Host.Outcome State Fault Refusal :=
  .next (live s (xTpCheckerBlock m.val s))

end Sys2Proof.Machine
end

