-- ==== Sys2Proof/Machine/MapOps.lean ====
section
/-! DEFINITION. The connection map's memory (file 07): entries, host stores, selector stores and errors. -/

namespace Sys2Proof.Machine

/-! Fields of an entry (Table 07-1). -/
def eValid (e : Entry) : Bool := bit e 63
def eKind (e : Entry) : Nat := bits e 62 61
def eSrcPort (e : Entry) : Nat := bits e 60 54
def eSrcSlot (e : Entry) : Nat := bits e 53 47
def eAltPort (e : Entry) : Nat := bits e 46 40
def eAltSlot (e : Entry) : Nat := bits e 39 33
def eGroup (e : Entry) : Nat := bits e 32 21
def eHolder (e : Entry) : Nat := bits e 20 11
def eSel (e : Entry) : Bool := bit e 10
/-- Global index of the source (R5). -/
def eSrc (e : Entry) : Nat := eSrcPort e * 80 + eSrcSlot e
/-- Global index of the alternate source. -/
def eAlt (e : Entry) : Nat := eAltPort e * 80 + eAltSlot e
/-- A protected-select entry. -/
def eProt (e : Entry) : Bool := eValid e && eKind e == 1
/-- The entry is a member of group g (R164). -/
def eMemberOf (e : Entry) (g : Nat) : Bool := eProt e && eGroup e == g

/-- Entries of a bank: true for bank B. -/
def bankOf (m : MapSt) (b : Bool) : Tbl Entry := if b then m.b else m.a
/-- SMI table of a bank. -/
def smiOf (m : MapSt) (b : Bool) : Tbl Word := if b then m.smiB else m.smiA
/-- Replace the entries of a bank. -/
def setBank (m : MapSt) (b : Bool) (t : Tbl Entry) : MapSt := if b then { m with b := t } else { m with a := t }
/-- Replace the SMI table of a bank. -/
def setSmi (m : MapSt) (b : Bool) (t : Tbl Word) : MapSt := if b then { m with smiB := t } else { m with smiA := t }
/-- One entry. -/
def entryOf (m : MapSt) (b : Bool) (g : Nat) : Entry := tget 0 (bankOf m b) g
/-- One SMI word. -/
def smiWord (m : MapSt) (b : Bool) (p : Nat) : Word := tget 0 (smiOf m b) p
/-- Entry of the active bank. -/
def activeEntry (s : State) (g : Nat) : Entry := entryOf s.map s.map.bActive g
/-- Entry of the staged bank. -/
def stagedEntry (s : State) (g : Nat) : Entry := entryOf s.map (!s.map.bActive) g

/-- Key of a map word in the table of errors: entries by index, SMI words at 0x8000 + port. -/
def eccKey (b : Bool) (i : Nat) : Nat := (if b then 65536 else 0) + i
/-- The word holds an uncorrectable error. -/
def eccDouble (m : MapSt) (b : Bool) (i : Nat) : Bool := tget 0 m.ecc (eccKey b i) == 2

/-- A port write to a word: its error goes, and a pending scrubber correction of it is discarded (R167, R359). -/
def eccRewrite (m : MapSt) (b : Bool) (i : Nat) : MapSt :=
  { m with ecc := tdel m.ecc (eccKey b i), scrub := if m.scrub = some (eccKey b i) then none else m.scrub }

/-- The entry as the memory stores it: SEL from the protection table for a VALID protected-select entry, else 0
(R164). -/
def withSel (s : State) (e : Entry) : Entry := setBit e 10 (eProt e && (grpOf s (eGroup e)).sel)

/-- The protection engine is storing this entry: its write pass lasts up to BI 32,768 of the frame (R165, R187). -/
def inPass (s : State) (g : Nat) : Bool :=
  s.map.selPass.contains g && s.map.selAt == some (frameOf s.sfp) && decide (s.sfp.bi ≤ 32768)

/-- One host store of an entry (R162, R164, R165). `collide` says that the protection engine stores the same entry in
the same memory cycle; it does so only during its write pass. -/
def hostStore (s : State) (b : Bool) (g : Nat) (e : Entry) (collide : Bool) : State :=
  if collide && inPass s g then cCore (sticky s hCore 8) 0
  else mirror (onMap s (fun m => eccRewrite (setBank m b (tput 0 (bankOf m b) g (withSel s e))) b g))
    (.mapStore (b == s.map.bActive) g (withSel s e))

/-- One host store of an SMI word. -/
def hostSmi (s : State) (b : Bool) (p : Nat) (w : Word) : State :=
  mirror (onMap s (fun m => eccRewrite (setSmi m b (tput 0 (smiOf m b) p w)) b (0x8000 + p)))
    (.smiStore (b == s.map.bActive) p w)

/-- Set SEL in every member entry of a bank (R164), but not in an entry with an uncorrectable error (R167). -/
def selBank (m : MapSt) (b : Bool) (g : Nat) (sel : Bool) : Tbl Entry :=
  (bankOf m b).map (fun kv => if eMemberOf kv.2 g && !eccDouble m b kv.1 then (kv.1, setBit kv.2 10 sel) else kv)

/-- A starting state of a pattern generator: non-zero in the bits that its polynomial uses (R150). -/
def genSeed (poly : Bool) (g : BitVec 31) : BitVec 31 :=
  if (if poly then g >>> 8 else g) = 0 then BitVec.allOnes 31 else g

/-- Slots with an entry in either bank. -/
def mapKeys (m : MapSt) : List Nat := m.a.map (·.1) ++ (m.b.map (·.1)).filter (fun i => (tfind m.a i).isNone)

/-- Indices of entries that hold something in either bank, or an error in the staged one, rising. -/
def touchedKeys (m : MapSt) : List Nat :=
  let off := if m.bActive then 0 else 65536
  let errs := (m.ecc.filter (fun kv => decide (off ≤ kv.1 ∧ kv.1 < off + 10240))).map (fun kv => kv.1 - off)
  ((mapKeys m ++ errs).foldl (fun (t : Tbl Unit) i => tset t i ()) []).map (·.1)

/-- Indices of the members of a group in a bank. -/
def membersIn (m : MapSt) (b : Bool) (g : Nat) : List Nat :=
  ((bankOf m b).filter (fun kv => eMemberOf kv.2 g)).map (·.1)

/-- The write pass of a selector change: every member entry of both banks through the dedicated port (R164, R187). -/
def selStore (s : State) (g : Nat) (sel : Bool) : State :=
  onMap s (fun m =>
    let hit := membersIn m false g ++ membersIn m true g
    let fix := fun (m : MapSt) (b : Bool) => (membersIn m b g).foldl
      (fun m i => if eccDouble m b i then m else eccRewrite m b i) m
    let m1 := fix (fix { m with a := selBank m false g sel, b := selBank m true g sel } false) true
    { m1 with selPass := (if m1.selAt = some (frameOf s.sfp) then m1.selPass else []) ++ hit, selAt := some (frameOf s.sfp) })

/-- Working port of a group: the source port of its lead member's active entry (R180, R197). -/
def leadOf (s : State) (g : Nat) : Option Nat := (gMembers (actv s) g).min?
def leadEntry (s : State) (g : Nat) : Option Entry :=
  match leadOf s g with
  | some i => if eMemberOf (activeEntry s i) g then some (activeEntry s i) else none
  | none => none
def workPort (s : State) (g : Nat) : Option Nat := (leadEntry s g).map eSrcPort
def protPort (s : State) (g : Nat) : Option Nat := (leadEntry s g).map eAltPort

/-- The fixed report of an uncorrectable map word (R167): MAP_ECC_ADDR, counter, sticky bit, record and event. -/
def mapUncorr (s : State) (b : Bool) (i : Nat) (smi : Bool) : State :=
  let s1 := onMap s (fun m => { m with ecc := tset m.ecc (eccKey b (if smi then 0x8000 + i else i)) 2,
                                       eccAddr := some (i, b, smi) })
  trace (cCore (sticky s1 hCore 1) 3) 8 1 2 (beBytes 4 (if smi then 0x8000 + i else i) ++ [by1 (b2n b)])

/-- MAP_SCRUB: what the scrubber finds in one word (R167). -/
def xMapScrub (bankB smi : Bool) (idx : Nat) (found : EccFind) (s : State) : State :=
  let i := if smi then 0x8000 + idx else idx
  match found with
  | .clean => s
  | .single _ =>
    if eccDouble s.map bankB i then s
    else cCore (onMap s (fun m => { m with ecc := tset m.ecc (eccKey bankB i) 1, scrub := some (eccKey bankB i) })) 2
  | .double => if eccDouble s.map bankB i then s else mapUncorr s bankB idx smi

def execMapScrub (bankB smi : Bool) (idx : Nat) (found : EccFind) (s : State) :
    Host.Outcome State Fault Refusal :=
  .next (live s (xMapScrub bankB smi idx found s))

/-- MAP_SCRUB_WRITEBACK: the corrected word is written back in a free memory cycle (R167). -/
def xMapScrubWriteback (s : State) : State :=
  match s.map.scrub with
  | some k => onMap s (fun m => { m with ecc := tdel m.ecc k, scrub := none })
  | none => s

def execMapScrubWriteback (s : State) : Host.Outcome State Fault Refusal :=
  .next (live s (xMapScrubWriteback s))

end Sys2Proof.Machine
end

