-- ==== Sys2Proof/Machine/Trunk.lean ====
section
/-! DEFINITION. The trunk receive side (file 05): frame and multiframe alignment, O0, O1 and O7, line defects. -/

namespace Sys2Proof.Machine

open Sys2Proof

/-! Fields of O0 (Table 05-5), O1 (Table 05-6) and O7 (Table 05-8). -/
def o0Fi (w : W56) : Nat := bits w 31 27
def o0Slice (w : W56) : Byte := BitVec.ofNat 8 (bits w 26 19)
def o0Rdi (w : W56) : Bool := bit w 18
def o0MapSel (w : W56) : Bool := bit w 17
def o0Lpbk (w : W56) : Bool := bit w 15
def o1Smi (w : W56) : BitVec 16 := BitVec.ofNat 16 (bits w 55 40)
def o1Ql (w : W56) : BitVec 4 := BitVec.ofNat 4 (bits w 35 32)
def o1Tti (w : W56) : Bytes := beBytes 2 (bits w 31 16)
def o7Ident (w : W56) : BitVec 24 := BitVec.ofNat 24 (bits w 55 32)

/-- A control block of type 0x3C with the control header (R106). -/
def isOverhead (b : Block) : Bool := isCtl b && blkType b == 0x3C

/-- A correct O0: header, type, marker and CRC-8 (file 05, "errored O0"). -/
def o0Good (b : Block) : Bool :=
  isOverhead b && bits (blkW b) 55 32 == 0xE471B2 && crc8 ((blkBytes b).take 6) == blkByte b 6

/-- A correct O1: its CRC-16 covers O0 bytes 0 to 6 and O1 bytes 0 to 4 (Table 05-6). -/
def o1Good (o0 : W56) (b : Block) : Bool :=
  isOverhead b && (crc16 (wBytes o0 ++ (blkBytes b).take 5)).toNat == bits (blkW b) 15 0

/-- A correct O7: its CRC-16 covers the chunk and O7 bytes 0 to 4 (Table 05-8). -/
def o7Good (chunk : Bytes) (b : Block) : Bool :=
  isOverhead b && (crc16 (chunk ++ (blkBytes b).take 5)).toNat == bits (blkW b) 15 0

/-- Fields of a frame aligner in IN_FRAME. -/
def inFrame (t : TrunkSt) : Bool :=
  match t.align with
  | .inFrame _ => true
  | .search => false
  | .verify _ => false

/-- SMI word of a port in the active bank (Table 07-3). -/
def activeSmi (s : State) (p : Nat) : Word := smiWord s.map s.map.bActive p
/-- It holds an uncorrectable error. -/
def smiLost (s : State) (p : Nat) : Bool := eccDouble s.map s.map.bActive (0x8000 + p)
/-- The SMI a trunk transmits: 0 while its word is uncorrectable (R110, R167). -/
def smiSent (s : State) (p : Nat) : Nat := if smiLost s p then 0 else bits (activeSmi s p) 31 16

/-- The MFC of the local multiframe whose epoch boundary lies within half a multiframe of a start `back` blocks before
the present position (R57, R119). -/
def pairedMfc (pos : Sfp) (back : Nat) : Nat :=
  let off : Int := (pos.fi * frameBlocks + pos.bi : Int) - back
  let m : Int := if off < -(mfBlocks / 2 : Int) then -1 else if off < (mfBlocks / 2 : Int) then 0 else 1
  ((pos.mfc + mfcMod : Int) + m).toNat % mfcMod

/-- A run counter: one more, or 0. -/
def run (ok : Bool) (n : Nat) : Nat := if ok then n + 1 else 0

/-- What the memory behind an elastic buffer holds at most: 2S blocks of the largest setting (R120). -/
def ebMemory : Nat := 50000

/-- The largest fill at most n at which received and local calendar positions coincide, when r is what the fill leaves
modulo a calendar cycle. -/
def fillBelow (n r : Nat) : Nat := n - (n + 80 - r % 80) % 80

/-- The fill nearest n of those that leave r; of two equally near, the upper one when `up` (R121). -/
def nearFill (n r : Nat) (up : Bool) : Nat :=
  let lo := fillBelow n r
  if n - lo < 40 ∨ n - lo = 40 ∧ up = false then lo else lo + 80

/-- Centring of the elastic buffer (R121): the fill nearest S at which positions coincide. Which of two equally near ones
it takes is open (log 5). -/
def trunkCentre (s : State) (p r : Nat) : State :=
  let n := ebNominal s p
  let (up, s0) := if n - fillBelow n r = 40 then (bit (drawWord s).1 0, (drawWord s).2) else (false, s)
  let f := nearFill n r up
  let s1 := trace (cPort (onTrunk s0 p (fun t => { t with fill := some f })) p 29 1) 5 6 p (beBytes 2 f)
  if anySf (declNow (portOf s1 p)) then s1 else onPort s1 p (fun x => { x with fillLf := false })

/-- Blocks from a position to the next local calendar-cycle boundary after it (R157). -/
def toCycle (pos : Sfp) : Nat :=
  if pos.bi < 8 then 8 - pos.bi
  else
    let d := 80 - (pos.bi - 8) % 80
    if pos.bi + d < frameBlocks then d else d + 8

/-- What the fill leaves modulo a calendar cycle at the next local cycle boundary, when an O0 arrives at a position: the
payload blocks that follow its frame's eight overhead blocks until then (R103, R121). -/
def o0Phase (pos : Sfp) : Nat := (toCycle pos - 8) % 80

/-- The trunk's receive side is looped to its own transmit: an overhead block is then the one the port itself sends
(R148). -/
def rxOverhead (s : State) (p : Nat) (own : W56) (b : Block) : Block := if pLoop (actv s) p == 1 then ohBlock own else b

/-- The receiver leaves frame alignment: LOF and LOM stand, multiframe alignment ends (R118, R119). -/
def loseFrame (s : State) (p : Nat) : State :=
  let s1 := onTrunk s p (fun t => { t with align := .search, inMf := false, nextFi := none, fiRun := 0, fiBad := 0,
                                           rdiOn := 0, rdiOff := 0, mfcBytes := [], o0 := none, fill := none, mem := [],
                                           ttiCur := [], ttiPrev := none, peerCand := none, mfcBad := 0,
                                           mfcGood := 0, mfcAt := none })
  setCond (setCond (mgmtDiscard s1 p) p dLom true) p dLof true

/-- Thyme's comparison of a received MFC with its own, whether or not the own one is valid (R58, log 79), on MFC_PORT only
while it is in multiframe (R61). Only multiframes that follow one another make a run of two. -/
def mfcCompare (s : State) (p v : Nat) : State :=
  if (portOf s p).trunk.inMf || p != tMfcPort (actv s) then
    let own := pairedMfc s.sfp (5 * frameBlocks)
    let same := decide (v = own)
    let t := (portOf s p).trunk
    let next := decide (t.mfcAt = some ((own + mfcMod - 1) % mfcMod))
    let bad := run (!same) (if next then t.mfcBad else 0)
    let good := run same (if next then t.mfcGood else 0)
    let s1 := onTrunk s p (fun t => { t with mfcBad := min bad 2, mfcGood := min good 2, mfcAt := some own })
    let src := decide (p = tMfcPort (actv s))
    if bad = 2 then
      let s2 := setCond s1 p dMfcMis true
      if src && !s2.thy.mfcMism then
        trace (cThy (onThy s2 (fun t => { t with mfcMism := true })) 12) 2 4 noObj (beBytes 6 s.sfp.mfc)
      else s2
    else if good = 2 then
      let s2 := setCond s1 p dMfcMis false
      if src then onThy s2 (fun t => { t with mfcMism := false }) else s2
    else s1
  else s

/-- Learning the MFC from MFC_PORT: two multiframes in a row, the second exactly 1 greater (R57). The value waits for
the next epoch boundary. -/
def mfcLearnFrom (s : State) (p v : Nat) : State :=
  if tMfcMode (actv s) && !s.thy.mfcValid && decide (p = tMfcPort (actv s)) && s.thy.learned.isNone
      && (portOf s p).trunk.inMf then
    let own := pairedMfc s.sfp (5 * frameBlocks)
    let again := onThy s (fun t => { t with learn1 := some (v, own) })
    match s.thy.learn1 with
    | some (u, m) =>
      if own = (m + 1) % mfcMod ∧ v = (u + 1) % mfcMod then
        let d := mfcDiff own (s.sfp.mfc + 1)
        onThy s (fun t => { t with learn1 := none, learned := some (((v : Int) + d).toNat % mfcMod) })
      else again
    | none => again
  else s

/-- Six MFC bytes from the O0s of FI 0 to 5, all correct (R57, R108). -/
def mfcCollect (s : State) (p : Nat) (w : W56) : State :=
  let t := (portOf s p).trunk
  let fi := o0Fi w
  let got := if fi = 0 then [o0Slice w] else if fi = t.mfcBytes.length ∧ fi ≤ 5 then t.mfcBytes ++ [o0Slice w]
             else if fi ≤ 5 then [] else t.mfcBytes
  let s1 := onTrunk s p (fun t => { t with mfcBytes := got })
  if fi = 5 ∧ got.length = 6 then mfcLearnFrom (mfcCompare s1 p (beNat got)) p (beNat got) else s1

/-- Multiframe alignment from one correct O0 in IN_FRAME (R119), with the centring on reaching it (R121). The third O0
out of sequence, which declares LOM, is the first of the run that can end it: the first two do not count toward being
in multiframe again (log 75). -/
def mfAlign (s : State) (p fi : Nat) : State :=
  let t := (portOf s p).trunk
  let asExpected := decide (t.nextFi = some fi)
  if t.inMf then
    if asExpected then onTrunk s p (fun t => { t with nextFi := some ((fi + 1) % 32), fiBad := 0 })
    else if t.fiBad + 1 < 3 then
      onTrunk s p (fun t => { t with nextFi := t.nextFi.map (fun n => (n + 1) % 32), fiBad := t.fiBad + 1 })
    else
      setCond (onTrunk s p (fun t => { t with inMf := false, nextFi := some ((fi + 1) % 32), fiBad := 0, fiRun := 1,
                                              fill := none })) p dLom true
  else
    let n := if asExpected then t.fiRun + 1 else 1
    let s1 := onTrunk s p (fun t => { t with nextFi := some ((fi + 1) % 32), fiRun := min n 3 })
    if n < 3 then s1
    else trunkCentre (setCond (onTrunk s1 p (fun t => { t with inMf := true, fiBad := 0 })) p dLom false) p
      (o0Phase s.sfp)

/-- RDI from 3 consecutive correct O0s, and LPBK (R108, R117, Table 05-12). -/
def o0Flags (s : State) (p : Nat) (w : W56) : State :=
  let t := (portOf s p).trunk
  let on := run (o0Rdi w) t.rdiOn
  let off := run (!o0Rdi w) t.rdiOff
  let s1 := onTrunk s p (fun t => { t with rdiOn := min on 3, rdiOff := min off 3, lpbk := o0Lpbk w,
                                           mapSel := o0MapSel w, fi := o0Fi w, o0 := some w })
  let s2 := if on = 3 then setCond s1 p dRdi true else if off = 3 then setCond s1 p dRdi false else s1
  setCond s2 p dPeerLpbk (o0Lpbk w)

/-- An errored O0 at an expected position (R118, R119). -/
def o0Errored (s : State) (p : Nat) (b : Block) : State :=
  let t := (portOf s p).trunk
  let s1 := cPort s p 21 1
  match t.align with
  | .search => s
  | .verify _ => onTrunk s1 p (fun t => { t with align := .search })
  | .inFrame bad =>
    if bad + 1 < 3 then
      mgmtDiscard (onTrunk s1 p (fun t => { t with align := .inFrame (bad + 1), o0 := some (blkW b), mfcBytes := [],
                                                   nextFi := t.nextFi.map (fun n => (n + 1) % 32) })) p
    else loseFrame s1 p

/-- A correct O0 (R118, R119). RDI is judged before the alignment that may unmask it (R126). -/
def o0Correct (s : State) (p : Nat) (b : Block) : State :=
  let w := blkW b
  match (portOf s p).trunk.align with
  | .search => onTrunk s p (fun t => { t with align := .verify 0 })
  | .verify 0 => onTrunk s p (fun t => { t with align := .verify 1 })
  | .verify _ =>
    let s1 := setCond (onTrunk s p (fun t => { t with align := .inFrame 0, nextFi := none, fiRun := 0 })) p dLof false
    mfCollectAll s1 p w
  | .inFrame _ =>
    mfCollectAll (onTrunk s p (fun t => { t with align := .inFrame 0 })) p w
where
  /-- What every correct O0 in IN_FRAME feeds. -/
  mfCollectAll (s : State) (p : Nat) (w : W56) : State :=
    mfcCollect (mfAlign (o0Flags s p w) p (o0Fi w)) p w

/-- O0_RECEIVE (R118, R119, R108, R57, R58, R121). -/
def xO0Receive (p : Nat) (b0 : Block) (s : State) : State :=
  let b := rxOverhead s p (portOf s p).txO0 b0
  if isTrunk s p then (if o0Good b then o0Correct s p b else o0Errored s p b) else s

def execO0Block (port : Fin 128) (b : Block) (s : State) : Host.Outcome State Fault Refusal :=
  .next (live s (xO0Receive port.val b s))

/-- TIM as judged at an acceptance, or at a strobe that changes TTI_CHECK or EXP_TTI (R111). -/
def judgeTim (s : State) (p : Nat) : State :=
  let differs := match (portOf s p).trunk.rxTti with
    | some v => v != ttiOf (actv s) (aExpTti p)
    | none => false
  setCond s p dTim (pTtiCheck (actv s) p && differs)

/-- SMI comparison against the active bank: 32 frames that differ raise SMI_MISMATCH, 32 that match clear it (R110). None
is made against an uncorrectable word, and the counts start anew after it (R167). -/
def smiCompare (s : State) (p : Nat) (v : BitVec 16) : State :=
  if smiLost s p then onTrunk s p (fun t => { t with rxSmi := some v, smiBad := 0, smiGood := 0 })
  else smiJudge s p v
where
  /-- The comparison itself. -/
  smiJudge (s : State) (p : Nat) (v : BitVec 16) : State :=
    let same := decide (v.toNat = bits (activeSmi s p) 15 0)
    let t := (portOf s p).trunk
    let bad := run (!same) t.smiBad
    let good := run same t.smiGood
    let s1 := onTrunk s p (fun t => { t with rxSmi := some v, smiBad := min bad 32, smiGood := min good 32 })
    if 32 ≤ bad then setCond s1 p dSmi true else if 32 ≤ good then setCond s1 p dSmi false else s1

/-- A trunk's QL is accepted once it has arrived unchanged in 3 frames with a correct CRC (R35). -/
def qlFrame (s : State) (p : Nat) (c : BitVec 4) : State :=
  let n := match (portOf s p).trunk.qlCand with
    | some (v, k) => if v = c then k + 1 else 1
    | none => 1
  let s1 := onTrunk s p (fun t => { t with qlCand := some (c, min n 4) })
  if n = 3 then
    let (s2, v) := qlTake s1 c
    onPort s2 p (fun x => { x with ql := v, qlSfp := s.sfp })
  else s1

/-- One trail trace slice (R111). -/
def ttiSlice (s : State) (p fi : Nat) (two : Bytes) : State :=
  let t := (portOf s p).trunk
  if fi = 0 then
    onTrunk s p (fun t => { t with ttiPrev := if t.ttiCur.length = 64 then some t.ttiCur else none, ttiCur := two })
  else if t.ttiCur.length = 2 * fi then
    let cur := t.ttiCur ++ two
    let s1 := onTrunk s p (fun t => { t with ttiCur := cur })
    if fi = 31 ∧ t.ttiPrev = some cur then judgeTim (onTrunk s1 p (fun t => { t with rxTti := some cur })) p else s1
  else onTrunk s p (fun t => { t with ttiCur := [], ttiPrev := none })

/-- O1_RECEIVE (R109, R110, R35, R111). -/
def xO1Receive (p : Nat) (b0 : Block) (s : State) : State :=
  let b := rxOverhead s p (portOf s p).txO1 b0
  let t := (portOf s p).trunk
  if isTrunk s p && inFrame t then
    match t.o0 with
    | some w0 =>
      if o1Good w0 b then
        let w := blkW b
        ttiSlice (qlFrame (smiCompare s p (o1Smi w)) p (o1Ql w)) p (o0Fi w0) (o1Tti w)
      else cPort (onTrunk s p (fun t => { t with ttiCur := [], ttiPrev := none })) p 22 1
    | none => s
  else s

def execO1Receive (port : Fin 128) (b : Block) (s : State) : Host.Outcome State Fault Refusal :=
  .next (live s (xO1Receive port.val b s))

/-- The 21 payload bytes of O4, O5 and O6 (R113). -/
def chunkOf (o4 : List Block) : Bytes := (o4.take 3).flatMap blkBytes
/-- The three management blocks are overhead blocks: one with an invalid sync header is errored (Table 05-2). -/
def chunkOk (o4 : List Block) : Bool := decide (o4.length = 3) && o4.all isOverhead
/-- The management blocks of a frame as the receiver has them: in NEAR loopback the port's own (R148). -/
def rxChunk (s : State) (p : Nat) (o4 : List Block) : Bool × Bytes :=
  if pLoop (actv s) p == 1 then (true, (portOf s p).txChunk) else (chunkOk o4, chunkOf o4)

/-- O7_RECEIVE: identity accepted after 3 frames with a correct CRC; LOOPED when it is the engine's own (R117). -/
def xO7Receive (p : Nat) (o4 : List Block) (b : Block) (s : State) : State :=
  let t := (portOf s p).trunk
  let (ok, chunk) := rxChunk s p o4
  let o7 := rxOverhead s p (portOf s p).txO7 b
  if isTrunk s p && inFrame t then
    if ok && o7Good chunk o7 then
      let c := o7Ident (blkW o7)
      let n := match t.peerCand with
        | some (v, k) => if v = c then k + 1 else 1
        | none => 1
      let s1 := onTrunk s p (fun t => { t with peerCand := some (c, min n 4) })
      if n = 3 then
        let own := decide (bits c 23 12 = s.pins.devid.toNat ∧ bits c 11 5 = p)
        setCond (onTrunk s1 p (fun t => { t with peer := some c })) p dLooped own
      else s1
    else cPort (onTrunk s p (fun t => { t with peerCand := none })) p 27 1
  else s

def execO7Receive (port : Fin 128) (o4 : List Block) (o7 : Block) (s : State) : Host.Outcome State Fault Refusal :=
  .next (live s (xO7Receive port.val o4 o7 s))

/-- LOS_DECLARE (R125, R153; in NEAR counted only, R148). -/
def xLosDeclare (p : Nat) (s : State) : State := if inUse s p then lineCond s p dLos true else s
def execLosDeclare (port : Fin 128) (s : State) : Host.Outcome State Fault Refusal :=
  .next (live s (xLosDeclare port.val s))

/-- LOS_CLEAR. -/
def xLosClear (p : Nat) (s : State) : State := if inUse s p then lineCond s p dLos false else s
def execLosClear (port : Fin 128) (s : State) : Host.Outcome State Fault Refusal :=
  .next (live s (xLosClear port.val s))

/-- LOL_DECLARE. -/
def xLolDeclare (p : Nat) (s : State) : State := if inUse s p then lineCond s p dLol true else s
def execLolDeclare (port : Fin 128) (s : State) : Host.Outcome State Fault Refusal :=
  .next (live s (xLolDeclare port.val s))

/-- LOL_CLEAR. -/
def xLolClear (p : Nat) (s : State) : State := if inUse s p then lineCond s p dLol false else s
def execLolClear (port : Fin 128) (s : State) : Host.Outcome State Fault Refusal :=
  .next (live s (xLolClear port.val s))

/-- Codewords that the FEC could not correct, and symbols it corrected: counted raw and into the present local frame and
multiframe; FEC_FAIL is declared as soon as a frame's count reaches FEC_FAIL_THR, FEC_DEG as soon as a second
multiframe's passes FEC_DEG_THR (Table 05-12, R125). -/
def fecTake (s : State) (p cw sym : Nat) : State :=
  if hasFec s p then
    let s1 := cPort (cPort s p 18 cw) p 19 sym
    let s2 := onPort s1 p (fun x => { x with fecCw := x.fecCw + cw, fecSym := x.fecSym + sym })
    let s3 := if pFecFail (actv s) p ≤ (portOf s2 p).fecCw then lineCond s2 p dFecFail true else s2
    if (portOf s3 p).degLast && decide (pFecDeg (actv s) p < (portOf s3 p).fecSym) then lineCond s3 p dFecDeg true else s3
  else s

/-- The local frame ends: its count is judged toward the 8 frames below the threshold (Table 05-12). -/
def fecFrame (s : State) (p : Nat) : State :=
  if hasFec s p then
    onPort s p (fun x => { x with fecCw := 0, fecGood := if x.fecCw < pFecFail (actv s) p then min 8 (x.fecGood + 1) else 0 })
  else s

/-- The local multiframe ends: its count is judged toward 2 multiframes above, or at or below, the threshold. -/
def fecEpoch (s : State) (p : Nat) : State :=
  if hasFec s p then
    onPort s p (fun x =>
      let high := decide (pFecDeg (actv s) p < x.fecSym)
      { x with fecSym := 0, degLast := high, degGood := if high then 0 else min 2 (x.degGood + 1) })
  else s

/-- FEC_FAIL_DECLARE: `cw` uncorrectable codewords decoded in the present frame since the last such row. -/
def xFecFailDeclare (p cw : Nat) (s : State) : State := fecTake s p cw 0
def execFecFailDeclare (port : Fin 128) (codewords : Nat) (s : State) : Host.Outcome State Fault Refusal :=
  .next (live s (xFecFailDeclare port.val codewords s))

/-- FEC_FAIL_CLEAR: 8 frames in a row below the threshold. -/
def xFecFailClear (p : Nat) (s : State) : State :=
  if hasFec s p && decide (8 ≤ (portOf s p).fecGood) then lineCond s p dFecFail false else s
def execFecFailClear (port : Fin 128) (s : State) : Host.Outcome State Fault Refusal :=
  .next (live s (xFecFailClear port.val s))

/-- FEC_DEG_DECLARE: `sym` symbols corrected in the present multiframe since the last such row. -/
def xFecDegDeclare (p sym : Nat) (s : State) : State := fecTake s p 0 sym
def execFecDegDeclare (port : Fin 128) (symbols : Nat) (s : State) : Host.Outcome State Fault Refusal :=
  .next (live s (xFecDegDeclare port.val symbols s))

/-- FEC_DEG_CLEAR: 2 multiframes in a row at or below the threshold. -/
def xFecDegClear (p : Nat) (s : State) : State :=
  if hasFec s p && decide (2 ≤ (portOf s p).degGood) then lineCond s p dFecDeg false else s
def execFecDegClear (port : Fin 128) (s : State) : Host.Outcome State Fault Refusal :=
  .next (live s (xFecDegClear port.val s))

/-- SLIP_CLEAR: the SLIP defect clears 32 frames after the most recent slip (Table 05-12). -/
def xSlipClear (p : Nat) (s : State) : State :=
  match (portOf s p).trunk.slipAt with
  | some f =>
    if (32 * 163768 : Int) ≤ sfpDist f s.sfp then
      setCond (onTrunk s p (fun t => { t with slipAt := none })) p dSlip false
    else s
  | none => s
def execSlipClear (port : Fin 128) (s : State) : Host.Outcome State Fault Refusal :=
  .next (live s (xSlipClear port.val s))

end Sys2Proof.Machine
end

