-- ==== Sys2Proof/Machine/Prot.lean ====
section
/-! DEFINITION. Protection groups (file 08): conditions, requests, selection, APS and reports. -/

namespace Sys2Proof.Machine

open Sys2Proof

/-- Frames of t seconds × 10: ceiling of t ÷ 104.81152 µs, a frame being 10,481,152 units of 10 ps (R181). -/
def framesOfTenths (t : Nat) : Nat := (t * 10000000000 + 10481151) / 10481152
/-- Hold-off in frames (R181). -/
def holdFrames (s : State) (g : Nat) : Nat := framesOfTenths (gHoldoff (actv s) g)
/-- WTR in frames (R181). -/
def wtrFrames (s : State) (g : Nat) : Nat := framesOfTenths (600 * gWtr (actv s) g)

/-- An SF-class defect stands reported on a port. -/
def portSf (s : State) (p : Option Nat) : Bool :=
  match p with
  | some q => anySf (portOf s q).rep
  | none => false
/-- FEC_DEG stands reported on a port. -/
def portSd (s : State) (p : Option Nat) : Bool :=
  match p with
  | some q => bit (portOf s q).rep dFecDeg
  | none => false

/-- Group counters (Table 19-3). -/
def condCounter (k : Nat) : Nat := 2 + k

/-- One signal condition at a frame boundary (R183): hold-off starts at the report; a defect that clears within it is
counted; with no hold-off the request is raised at once. -/
def condStep (hold : Nat) (now : Bool) (c : CondSt) : CondSt :=
  if now then
    if c.present then (if c.raised then c else { c with run := c.run + 1 })
    else { present := true, run := 0, raised := decide (hold = 0) }
  else {}

/-- Apply it to one condition of a group and count what came about. -/
def condEval (s : State) (g k : Nat) (now : Bool) (get : GrpSt → CondSt) (put : GrpSt → CondSt → GrpSt) : State :=
  let old := get (grpOf s g)
  let new := condStep (holdFrames s g) now old
  let s1 := onGrp s g (fun x => put x new)
  let s2 := if new.raised && !old.raised then cGrp s1 g (condCounter k) else s1
  if old.present && !old.raised && !now then cGrp s2 g 5 else s2

/-- The three conditions of a group from the reported defects (Table 08-2). -/
def condsEval (s : State) (g : Nat) : State :=
  let w := workPort s g
  let p := protPort s g
  let s1 := condEval s g 0 (portSf s w) (·.sf) (fun x c => { x with sf := c })
  let s2 := condEval s1 g 1 (portSf s p) (·.sfp) (fun x c => { x with sfp := c })
  condEval s2 g 2 (portSd s w && gSdEn (actv s) g && !portSd s p) (·.sd) (fun x c => { x with sd := c })

/-- The local request without the state request: its code is its priority (Table 08-2). -/
def baseReq (x : GrpSt) : Nat :=
  if x.lo then 14 else if x.sfp.raised then 12 else if x.fs then 10 else if x.sf.raised then 8
  else if x.sd.raised then 6 else if x.ms then 4 else 0
/-- REQ_SIG of a request code; NR and the two null-signal requests carry 0 (Table 08-2). -/
def reqSig (c : Nat) : Bool := c != 0 && c != 12 && c != 14

/-! Fields of an APS message (Table 05-7). -/
def apsGroup (w : W56) : Nat := bits w 55 44
def apsReq (w : W56) : Nat := bits w 43 40
def apsReqSig (w : W56) : Nat := bits w 39 36
def apsBrSig (w : W56) : Nat := bits w 35 32
def apsA (w : W56) : Bool := bit w 31
def apsB (w : W56) : Bool := bit w 30
def apsD (w : W56) : Bool := bit w 29
def apsR (w : W56) : Bool := bit w 28

/-- The remote request as R186 takes it: code and REQ_SIG. -/
def remoteReq (s : State) (g : Nat) : Nat × Bool :=
  let x := grpOf s g
  if gArch (actv s) g != 0 && !x.fopPm && !x.apsLoss then
    match x.rx with
    | some w => (apsReq w, apsReqSig w == 1)
    | none => (0, false)
  else (0, false)

/-- BR_SIG of the last accepted message is 1. -/
def bridged (x : GrpSt) : Bool :=
  match x.rx with
  | some w => apsBrSig w == 1
  | none => false

/-- The state request after a boundary (R185): `base` the local request without it, `rem` the remote code. -/
def stateReq (revert : Bool) (x : GrpSt) (base rem : Nat) : Nat :=
  let held := x.sel && decide (x.eff = x.loc) && x.effSig
  let st := x.stReq.toNat
  if base = 14 ∨ base = 12 ∨ rem = 14 ∨ rem = 12 then 0
  else if base = 0 ∧ held = true ∧ (x.loc.toNat = 8 ∨ x.loc.toNat = 6) then (if revert then 2 else 1)
  else if base = 0 ∧ held = true ∧ (x.loc.toNat = 10 ∨ x.loc.toNat = 4) then (if revert then 0 else 1)
  else if st = 2 ∧ (0 < base ∨ 2 < rem) then 0
  else st

/-- Indications as GRP_STAT[30:27]. -/
def indBits (x : GrpSt) : Nat := at1 x.apsLoss 0 + at1 x.fopPm 1 + at1 x.fopNr 2 + at1 x.revMism 3
/-- A request as a record carries it: REQ in [7:4], REQ_SIG in [0]. -/
def reqByte (c : Nat) (sig : Bool) : Byte := by1 (c * 16 + b2n sig)

/-- Rank of a report's subtype: SEL_CHANGE, REQ_CHANGE, CMD_DROPPED, INDICATION (R434). -/
def subRank (sub : Nat) : Nat := if sub = 1 then 0 else if sub = 2 then 1 else if sub = 4 then 2 else 3

/-- Put one item of a group on the protection event queue; two changes of one boundary share one item (R434). -/
def pushItem (s : State) (it : ProtItem) : State :=
  onSage s (fun q =>
    match q.items.find? (fun o => o.cls == it.cls && o.cls == 3 && o.g == it.g && o.at_ == it.at_) with
    | some o =>
      let m : ProtItem := { it with sub := if subRank o.sub ≤ subRank it.sub then o.sub else it.sub,
                                    data := o.data.take 1 ++ it.data.drop 1 }
      { q with items := updFirst (fun z => z == o) (fun _ => m) q.items }
    | none => { q with items := q.items ++ [it] })

/-- The APS message a group sends, without SEQ and CRC, as W[55:16] (Table 08-5). -/
def apsBody (s : State) (g tx : Nat) (sig : Bool) : BitVec 40 :=
  let a := gArch (actv s) g
  BitVec.ofNat 40 (gApsId (actv s) g * 2 ^ 28 + tx * 2 ^ 24 + b2n sig * 2 ^ 20 + b2n sig * 2 ^ 16 + 2 ^ 15
    + at1 (a == 2) 14 + at1 (a != 0) 13 + at1 (gRevert (actv s) g) 12)
/-- With its SEQ. -/
def apsWithSeq (m : BitVec 40) (q : BitVec 8) : BitVec 40 := m ||| BitVec.ofNat 40 (q.toNat * 16)
/-- The whole word with its CRC-16. -/
def apsWord (m : BitVec 40) : W56 :=
  let b := beBytes 5 m.toNat
  BitVec.ofNat 56 (m.toNat * 65536 + (crc16 b).toNat)
/-- An empty message position: GROUP 0xFFF (R112). -/
def apsEmpty : W56 := apsWord (BitVec.ofNat 40 (0xFFF * 2 ^ 28))

/-- Compose the group's message. A change of REQ, of a signal or of a flag takes the next SEQ; a changed content queues
three urgent copies, in the three frames after the present one, in place of those of the older message (R189, R190;
log 90). The first message of a newly enabled group queues none (R506). -/
def apsCompose (s : State) (g tx : Nat) (sig : Bool) : State :=
  if gApsEn (actv s) g then
    let x := grpOf s g
    let m := apsBody s g tx sig
    match x.txMsg with
    | some o =>
      if o = m then s
      else
        let q := if o.setWidth 28 = m.setWidth 28 then x.seq else x.seq + 1
        let s1 := onGrp s g (fun x => { x with txMsg := some m, seq := q })
        let wait := if s.frameDone = some s.sfp then 0 else 1
        match protPort s g with
        | some p =>
          let c := fun k => ({ g := g, rank := k, due := k + wait, msg := apsWithSeq m q } : ApsCopy)
          onPort s1 p (fun y => { y with urgent := y.urgent.filter (fun u => u.g != g) ++ [c 0, c 1, c 2] })
        | none => s1
    | none => onGrp s g (fun x => { x with txMsg := some m })
  else s

/-- The report item of a group as it stands now (Table 19-4): the subtype, the selector before, the reason, and the SEQ
of a changed message just received, 0 without one (R191; log 88). -/
def protItem (s : State) (g sub : Nat) (old : Bool) (why : Nat) (rxSeq : Byte) : ProtItem :=
  let x := grpOf s g
  { cls := 3, sub := sub, g := g, at_ := s.sfp,
    data := [by1 (b2n old), by1 (b2n x.sel), reqByte x.loc.toNat x.locSig, reqByte x.rem.toNat x.remSig,
             reqByte x.eff.toNat x.effSig, by1 why, by1 (indBits x), by1 x.seq.toNat, rxSeq] }

/-- Decide a group at a frame boundary (R186): requests, target, selector, message, report. `why` is the reason of
Table 19-4. A standby makes no decisions (R219). -/
def decideGrp (s : State) (g why : Nat) : State :=
  let x0 := grpOf s g
  if x0.tblErr || isStandby s then s
  else
    let base0 := baseReq x0
    let (rem, remSig) := remoteReq s g
    let dropMs := x0.ms && decide (4 < max base0 rem)
    let x1 := if dropMs then { x0 with ms := false, cmdDrop := true } else x0
    let base := baseReq x1
    let st := stateReq (gRevert (actv s) g) x1 base rem
    let startWtr := decide (st = 2) && !decide (x1.stReq.toNat = 2)
    let loc := max base st
    let locSig := reqSig loc
    let useRem := decide (loc < rem)
    let eff := if useRem then rem else loc
    let effSig := if useRem then remSig else locSig
    let tx := if useRem then 0 else loc
    let target := effSig && !(decide (gArch (actv s) g = 2) && !bridged x1)
    let sel := target
    let selCh := sel != x1.sel
    let reqCh := decide (x1.loc.toNat ≠ loc) || decide (x1.rem.toNat ≠ rem) || decide (x1.eff.toNat ≠ eff)
      || x1.locSig != locSig || x1.remSig != remSig || x1.effSig != effSig
    let x2 : GrpSt := { x1 with
      stReq := BitVec.ofNat 4 st, wtrRun := if startWtr then 0 else x1.wtrRun
      loc := BitVec.ofNat 4 loc, locSig := locSig, rem := BitVec.ofNat 4 rem, remSig := remSig
      eff := BitVec.ofNat 4 eff, effSig := effSig, sel := sel, cmdDrop := false, indChg := false, rxChg := false
      eqPend := if selCh then some s.sfp else x1.eqPend }
    let s1 := onGrp s g (fun _ => x2)
    let s2 := if dropMs then cGrp (sticky s1 hProt 0x10) g 6 else s1
    let s3 := if selCh then selStore (cGrp (sticky s2 hProt 1) g 0) g sel else s2
    let s4 := apsCompose s3 g tx effSig
    if selCh || reqCh || x1.cmdDrop || x1.indChg || x1.rxChg then
      let rxSeq := match x1.rxChg, x1.rx with
        | true, some w => by1 (bits w 27 20)
        | _, _ => 0
      pushItem s4 (protItem s4 g (if selCh then 1 else if reqCh || x1.rxChg then 2 else if x1.cmdDrop then 4 else 3)
        x1.sel (if useRem then 2 else why) rxSeq)
    else s4

/-- What a boundary does to a group before it is decided: the message of the frame is taken, timers run, FOP_NR is
judged (R185, R191, R193). -/
def grpTake (s : State) (g : Nat) : State :=
  let s0 := onGrp s g (fun x => { x with
    rx := x.rxNew.or x.rx, rxNew := none, wtrNew := false
    wtrRun := if x.stReq.toNat = 2 ∧ x.wtrNew = false then x.wtrRun + 1 else x.wtrRun })
  let s1 := condsEval s0 g
  let x := grpOf s1 g
  let s2 := if x.sel then cGrp s1 g 1 else s1
  if gArch (actv s) g != 0 then
    match x.rx with
    | some w =>
      let sentSig := match x.txMsg with
        | some m => bit m 20
        | none => false
      if (apsBrSig w == 1) == sentSig then
        onGrp s2 g (fun x => { x with nrRun := 0, fopNr := false, indChg := x.indChg || x.fopNr })
      else onGrp s2 g (fun x => { x with nrRun := min (x.nrRun + 1) 512 })
    | none => s2
  else s2

/-- An ordinary selector change acts one frame after its decision (R187); an errorless one waits for its marker
boundary while the group is engaged and a source is locked (R208; log 14). -/
def egressTake (s : State) (g : Nat) : State :=
  let x := grpOf s g
  match x.eqPend with
  | some f =>
    let engaged := decide (x.eq = .aligned) || decide (x.eq = .hold)
    let wait := engaged && (x.mw.lock && !portSf s (workPort s g) || x.mp.lock && !portSf s (protPort s g))
    if f != s.sfp && !wait then onGrp s g (fun x => { x with egSel := x.sel, eqPend := none }) else s
  | none => s

/-- One enabled group at a frame boundary (R186). -/
def evalGrp (s : State) (g : Nat) : State := decideGrp (grpTake (egressTake s g) g) g 1

/-- The enabled groups. -/
def enabledGroups (s : State) : List Nat := allGroups.filter (fun g => (grpOf s g).en)

/-! Transmission of the APS channel (R190). -/

/-- An urgent copy goes before another: rank, then higher request, then lower APS_ID. -/
def copyBefore (a b : ApsCopy) : Bool :=
  if a.rank != b.rank then decide (a.rank < b.rank)
  else
    let ra := bits a.msg 27 24
    let rb := bits b.msg 27 24
    if ra != rb then decide (rb < ra) else decide (bits a.msg 39 28 < bits b.msg 39 28)

/-- The copy to send now: the first, in that order, of the ones due. -/
def pickCopy (l : List ApsCopy) (notG : Option Nat) : Option ApsCopy :=
  (l.filter (fun c => c.due == 0 && notG != some c.g)).foldl
    (fun best c => match best with
      | some b => if copyBefore c b then some c else some b
      | none => some c) none

/-- The group whose refresh position this is, on a port. -/
def refreshGroup (s : State) (p m : Nat) : Option Nat :=
  (enabledGroups s).find? (fun g => gApsEn (actv s) g && gHome (actv s) g == m && protPort s g == some p)

/-- Fill one message position of a trunk: O2 for `o3` false (R190). -/
def fillAps (s : State) (p : Nat) (o3 : Bool) (notG : Option Nat) : State × Option Nat × W56 :=
  let m := 2 * s.sfp.fi + b2n o3
  let home := refreshGroup s p m
  match pickCopy (portOf s p).urgent notG with
  | some c =>
    let s1 := cGrp (onPort s p (fun x => { x with urgent := delFirst (fun u => u == c) x.urgent })) c.g 7
    let s2 := match home with
      | some h => cGrp s1 h 11
      | none => s1
    (s2, some c.g, apsWord c.msg)
  | none =>
    match home with
    | some h =>
      match (grpOf s h).txMsg with
      | some msg => (cGrp s h 8, none, apsWord (apsWithSeq msg (grpOf s h).seq))
      | none => (s, none, apsEmpty)
    | none => (s, none, apsEmpty)

/-- O2 and O3 of one trunk for the frame that begins (R190). -/
def apsFrame (s : State) (p : Nat) : State :=
  if isTrunk s p then
    let (s1, g1, w2) := fillAps s p false none
    let (s2, _, w3) := fillAps s1 p true g1
    onPort s2 p (fun x => { x with txO2 := w2, txO3 := w3,
                                   urgent := x.urgent.map (fun c => { c with due := c.due - 1 }) })
  else s

/-! Rows. -/

/-- The condition of a group by number: 0 SF, 1 SF_P, 2 SD. -/
def condAt (x : GrpSt) (k : Nat) : CondSt := if k = 0 then x.sf else if k = 1 then x.sfp else x.sd
def setCondAt (x : GrpSt) (k : Nat) (c : CondSt) : GrpSt :=
  if k = 0 then { x with sf := c } else if k = 1 then { x with sfp := c } else { x with sd := c }

/-- PROT_HOLDOFF_EXPIRE: the defect was present at every boundary for the hold-off time (R183). -/
def xProtHoldoffExpire (g k : Nat) (s : State) : State :=
  let c := condAt (grpOf s g) k
  if (grpOf s g).en && c.present && !c.raised && decide (holdFrames s g ≤ c.run) then
    decideGrp (cGrp (onGrp s g (fun x => setCondAt x k { c with raised := true })) g (condCounter k)) g 1
  else s
def execProtHoldoffExpire (g : Fin 2048) (cond : Fin 3) (s : State) : Host.Outcome State Fault Refusal :=
  .next (liveFrame s (xProtHoldoffExpire g.val cond.val s))

/-- PROT_WTR_EXPIRE: the state request returns to NR (R185). -/
def xProtWtrExpire (g : Nat) (s : State) : State :=
  let x := grpOf s g
  if x.en && decide (x.stReq.toNat = 2) && decide (wtrFrames s g ≤ x.wtrRun) then
    decideGrp (onGrp s g (fun x => { x with stReq := 0 })) g 3
  else s
def execProtWtrExpire (g : Fin 2048) (s : State) : Host.Outcome State Fault Refusal :=
  .next (liveFrame s (xProtWtrExpire g.val s))

/-- One operator request at its ACT_SFP: LO, FS, MS or CLEAR (14, 10, 4, 0), from a holder or not (R184). -/
def applyReq (s : State) (g : Nat) (r : BitVec 4 × Bool) : State :=
  let x := grpOf s g
  if r.1 = 14 then onGrp s g (fun x => { x with lo := true })
  else if r.1 = 10 then onGrp s g (fun x => { x with fs := true })
  else if r.1 = 4 then
    if 4 < max (baseReq x) (remoteReq s g).1 then
      cGrp (sticky (onGrp s g (fun x => { x with cmdDrop := true })) hProt 0x10) g 6
    else onGrp s g (fun x => { x with ms := true })
  else if r.2 then onGrp s g (fun x => { x with ms := false })
  else onGrp s g (fun x => { x with lo := false, fs := false, ms := false, stReq := 0 })

/-- The requests of one group that are due, in order; one that finds the group disabled is discarded and counted
(R293). -/
def reqAct (s : State) (g : Nat) : State :=
  let due := (grpOf s g).pend.filter (fun r => r.1 == s.sfp)
  if due.isEmpty then s
  else
    let s1 := onGrp s g (fun x => { x with pend := x.pend.filter (fun r => r.1 != s.sfp) })
    if (grpOf s g).en then decideGrp (forEach due s1 (fun t r => applyReq t g r.2)) g 1
    else forEach due s1 (fun t _ => cGrp t g 6)

/-- PROT_REQUEST_ACT (R184). -/
def xProtRequestAct (s : State) : State := forEach (s.grps.map (·.1)) s reqAct
def execProtRequestAct (s : State) : Host.Outcome State Fault Refusal := .next (liveFrame s (xProtRequestAct s))

/-- The APS-enabled group with an APS_ID whose protection port is `p` (R191). -/
def apsGroupAt (s : State) (p a : Nat) : Option Nat :=
  (enabledGroups s).find? (fun g => gApsEn (actv s) g && gApsId (actv s) g == a && protPort s g == some p)

/-- The content rule of R192. -/
def apsValid (w : W56) : Bool :=
  [0, 1, 2, 4, 6, 8, 10, 12, 14].contains (apsReq w) && decide (apsReqSig w ≤ 1) && decide (apsBrSig w ≤ 1)

/-- Raise or clear an indication by runs of 3 valid messages: the flag, bad run and good run that result (R193). -/
def run3 (bad : Bool) (flag : Bool) (nb ng : Nat) : Bool × Nat × Nat :=
  let b := min (run bad nb) 3
  let k := min (run (!bad) ng) 3
  (if b = 3 then true else if k = 3 then false else flag, b, k)

/-- The content of an APS word: without its reserved bits and its CRC (R10, Table 05-7). -/
def apsContent (w : W56) : BitVec 36 := (w >>> 20).setWidth 36

/-- A valid message of a group (R191, R193). -/
def apsAccept (s : State) (g : Nat) (w : W56) : State :=
  let x := grpOf s g
  let arch := gArch (actv s) g
  let pmBad := apsB w != decide (arch = 2) || apsD w != decide (arch ≠ 0) || !apsA w
  let rvBad := apsR w != gRevert (actv s) g
  let (pm, pb, pg) := run3 pmBad x.fopPm x.pmBad x.pmGood
  let (rv, rb, rg) := run3 rvBad x.revMism x.rvBad x.rvGood
  let prev := x.rxNew.or x.rx
  let s1 := cGrp s g 9
  let same := prev.map apsContent == some (apsContent w)
  let s2 := if same then s1 else cGrp s1 g 10
  let s3 := onGrp s2 g (fun x => { x with
    rxNew := some w, rxChg := x.rxChg || !same, apsAge := 0, apsLoss := false, fopPm := pm, pmBad := pb, pmGood := pg, revMism := rv, rvBad := rb,
    rvGood := rg, indChg := x.indChg || x.apsLoss || pm != x.fopPm || rv != x.revMism })
  if (pm && !x.fopPm) || (rv && !x.revMism) then sticky s3 hProt 2 else s3

/-- APS_RECEIVE (R112, R191, R192). Under NEAR loopback the port receives what it sends (R148). -/
def xApsReceive (p : Nat) (o3 : Bool) (arrived : Block) (s : State) : State :=
  let b := rxOverhead s p (if o3 then (portOf s p).txO3 else (portOf s p).txO2) arrived
  if isTrunk s p && inFrame (portOf s p).trunk then
    let w := blkW b
    if !(isOverhead b && (crc16 ((blkBytes b).take 5)).toNat == bits w 15 0) then cPort s p (if o3 then 24 else 23) 1
    else if apsGroup w = 0xFFF then s
    else if 0x800 ≤ apsGroup w then cPort s p 25 1
    else
      match apsGroupAt s p (apsGroup w) with
      | some g => if apsValid w then apsAccept s g w else cPort s p 44 1
      | none => cPort s p 26 1
  else s
def execApsReceive (port : Fin 128) (o3 : Bool) (b : Block) (s : State) : Host.Outcome State Fault Refusal :=
  .next (live s (xApsReceive port.val o3 b s))

/-- APS_LOSS, of a bidirectional group: no valid message in 4 consecutive multiframes while the protection port is free of SF (R193). -/
def xApsLoss (g : Nat) (s : State) : State :=
  let x := grpOf s g
  if x.en && gArch (actv s) g != 0 && decide (5 ≤ x.apsAge) && !x.apsLoss && !portSf s (protPort s g) then
    decideGrp (sticky (onGrp s g (fun x => { x with apsLoss := true, indChg := true })) hProt 2) g 1
  else s
def execApsLoss (g : Fin 2048) (s : State) : Host.Outcome State Fault Refusal :=
  .next (liveFrame s (xApsLoss g.val s))

/-- FOP_NR: the received BR_SIG differed from the sent REQ_SIG at every boundary for 16 multiframes (R193). -/
def xFopNr (g : Nat) (s : State) : State :=
  let x := grpOf s g
  if x.en && gArch (actv s) g != 0 && decide (512 ≤ x.nrRun) && !x.fopNr then
    decideGrp (sticky (onGrp s g (fun x => { x with fopNr := true, indChg := true })) hProt 2) g 1
  else s
def execFopNr (g : Fin 2048) (s : State) : Host.Outcome State Fault Refusal :=
  .next (liveFrame s (xFopNr g.val s))

/-- PROTECTION_REPORT: the report unit takes one item and writes its record (R434). -/
def xProtectionReport (s : State) : State :=
  match s.sage.items with
  | it :: rest => traceAt (onSage s (fun q => { q with items := rest })) it.at_ it.cls it.sub it.g it.data
  | [] => s
def execProtectionReport (s : State) : Host.Outcome State Fault Refusal := .next (live s (xProtectionReport s))

/-- The state of a group that starts: selector 0, NR, timers idle; SEQ runs on with the message last sent, and the
egress side keeps the SEL it took until the next boundary (R187, R196). The equaliser has its own rules (R209). -/
def grpFresh (x : GrpSt) (at_ : Sfp) : GrpSt :=
  { ({} : GrpSt) with
    en := x.en, seq := x.seq, txMsg := x.txMsg, mirDiff := x.mirDiff, egSel := x.egSel
    eqPend := if x.egSel then some at_ else none
    eq := x.eq, eqWhy := x.eqWhy, e := x.e, delProt := x.delProt, eqShift := x.eqShift, mw := x.mw, mp := x.mp
    delta := x.delta, seqBoth := x.seqBoth, firstEng := x.firstEng, grant := x.grant, grantMeas := x.grantMeas }

/-- A group loses its state to a strobe: a selector change, a request change or an indication change is counted and
reported with the reason configuration (R175, R194, Table 08-9). -/
def grpDefaults (s : State) (g : Nat) : State :=
  let x := grpOf s g
  let s1 := selStore (onGrp s g (fun x => grpFresh x s.sfp)) g false
  let s2 := forEach allPorts s1 (fun t p => if (portOf t p).urgent.any (fun c => c.g == g) then
    onPort t p (fun y => { y with urgent := y.urgent.filter (fun c => c.g != g) }) else t)
  let s3 := if x.sel then cGrp (sticky s2 hProt 1) g 0 else s2
  let req := x.loc != 0 || x.rem != 0 || x.eff != 0 || x.locSig || x.remSig || x.effSig
  if x.sel || req || indBits x != 0 then
    pushItem s3 (protItem s3 g (if x.sel then 1 else if req then 2 else 3) x.sel 4 0)
  else s3

end Sys2Proof.Machine
end

