-- ==== Sys2Proof/Machine/Errorless.lean ====
section
/-! DEFINITION. Errorless groups (file 09): marker detection, engagement, states, slips, and the SLIP row of file 05. -/

namespace Sys2Proof.Machine

open Sys2Proof

/-- Code of an equaliser state (Table 09-3). -/
def eqCode : EqState → Nat
  | .off => 0 | .unaligned => 1 | .aligned => 2 | .hold => 3

/-- The group is engaged. -/
def engaged (x : GrpSt) : Bool := decide (x.eq = .aligned) || decide (x.eq = .hold)

/-- The Δ last measured, 0 where none. -/
def deltaOf (x : GrpSt) : Int :=
  match x.delta with
  | some (d, _) => d
  | none => 0

/-- An ERRORLESS report item (Table 19-4). -/
def eqItem (s : State) (g sub oldSt : Nat) (x : GrpSt) : ProtItem :=
  { cls := 4, sub := sub, g := g, at_ := s.sfp,
    data := [by1 oldSt, by1 (eqCode x.eq), by1 x.eqWhy] ++ beBytes 2 x.e ++ [by1 (b2n x.delProt)]
      ++ beBytes 2 (BitVec.ofInt 16 (deltaOf x)).toNat }

/-- A group passes to a state with a reason: counted and reported when the state changes (R209). -/
def eqTo (s : State) (g : Nat) (st : EqState) (why : Nat) : State :=
  let x := grpOf s g
  let s1 := onGrp s g (fun x => { x with eq := st, eqWhy := why })
  if x.eq = st then s1 else pushItem (cGrp s1 g 16) (eqItem s1 g 1 (eqCode x.eq) (grpOf s1 g))

/-- Marker lock as the states use it: a source whose port is in SF carries no markers (R203; log 14). -/
def lockW (s : State) (g : Nat) : Bool := (grpOf s g).mw.lock && !portSf s (workPort s g)
def lockP (s : State) (g : Nat) : Bool := (grpOf s g).mp.lock && !portSf s (protPort s g)

/-- Insertion into a rising list. -/
def insRise (x : Nat) : List Nat → List Nat
  | [] => [x]
  | y :: t => if x ≤ y then x :: y :: t else y :: insRise x t
/-- The members of a group in increasing global index. -/
def risingMembers (l : List Nat) : List Nat := l.foldr insRise []

/-- A correct path marker: its 48-bit SEQ (Table 09-1). -/
def markerSeq (b : Block) : Option Nat :=
  if isOverhead b && (crc8 ((blkBytes b).take 6) ^^^ 0xA5) == blkByte b 6 then some (beNat ((blkBytes b).take 6))
  else none

/-- One good marker of a source: two in a row under the spacing rule lock; in lock, one that fits neither the next nor
the second expected place is wrong and leaves the expected places as they are (R203). -/
def markStep (m : MarkSt) (seq : Nat) (cyc : Int) : MarkSt :=
  match m.last with
  | some (q, c) =>
    let n := (seq + mfcMod - q % mfcMod) % mfcMod
    let off : Int := cyc - c - 65504 * n
    let fits := (decide (n = 1) || m.lock && decide (n = 2)) &&
      (off == 0 || off == m.slipped || off == -m.slipped)
    if fits then { lock := true, last := some (seq, cyc), slipped := 0 }
    else if m.lock then m
    else { m with last := some (seq, cyc), slipped := 0 }
  | none => { m with last := some (seq, cyc), slipped := 0 }

/-- The differential delay once both sources have shown the same SEQ: its value and for how many multiframes in a row
(R204). -/
def measure (x : GrpSt) : GrpSt :=
  match x.mw.last, x.mp.last with
  | some (qw, cw), some (qp, cp) =>
    if qw = qp then
      let d : Int := cp - cw
      let n := match x.delta with
        | some (o, k) => if o = d ∧ qw = (x.seqBoth + 1) % mfcMod then k + 1 else 1
        | none => 1
      { x with delta := some (d, min n 2), seqBoth := qw, grantMeas := x.grant && decide (2 ≤ n) }
    else x
  | _, _ => x

/-- The source that a detector of a group watches: its lead member's, the member with the lowest global index (R197). -/
def leadSource (s : State) (g : Nat) (prot : Bool) : Option Nat :=
  (risingMembers (gMembers (actv s) g)).head?.map (fun i =>
    if prot then eAlt (activeEntry s i) else eSrc (activeEntry s i))

/-- PATH_MARKER_DETECT: the detector reads the block that its source has written into the slot store in the present
calendar cycle; a block that is no correct marker gives nothing (R203, R204). -/
def xPathMarkerDetect (g : Nat) (prot : Bool) (s : State) : State :=
  if (grpOf s g).en && gErrorless (actv s) g && decide (8 ≤ s.sfp.bi) then
    match (leadSource s g prot).bind (fun i => markerSeq (stored s i)) with
    | some q =>
      let c : Int := calCycle s.sfp
      onGrp s g (fun x =>
        let y := if prot then { x with mp := markStep x.mp q c } else { x with mw := markStep x.mw q c }
        if y.mw.last = x.mw.last ∧ y.mp.last = x.mp.last then y else measure y)
    | none => s
  else s
def execPathMarkerJudge (g : Fin 2048) (prot : Bool) (s : State) : Host.Outcome State Fault Refusal :=
  .next (live s (xPathMarkerDetect g.val prot s))

/-- The reason a group that cannot engage waits with (R203 to R206, Table 13-8). -/
def waitReason (s : State) (g : Nat) : Nat :=
  let x := grpOf s g
  if !lockW s g && !lockP s g then 7
  else if !lockW s g then 2
  else if !lockP s g then 3
  else
    match x.delta with
    | some (d, n) =>
      if n < 2 then 1
      else if 1953 < d.natAbs then 4
      else if d ≠ 0 ∧ x.egSel = decide (d < 0) ∧ x.firstEng = false ∧ x.grant = false then 5
      else 1
    | none => 1

/-- The equaliser state of an errorless group at a frame boundary, after protection evaluation (R209). -/
def eqEval (s : State) (g : Nat) : State :=
  let x := grpOf s g
  match x.eq with
  | .off => s
  | .unaligned =>
    let w := waitReason s g
    if (x.eqWhy = 6 ∨ x.eqWhy = 4 ∧ x.delta.all (fun d => decide (d.2 < 2)) = true) ∧ w = 1 then s
    else
      let s1 := onGrp s g (fun x => { x with eqWhy := w })
      if w = 4 ∧ x.eqWhy ≠ 4 then cGrp s1 g 17 else s1
  | .aligned => if lockW s g && lockP s g then s else eqTo s g .hold 0
  | .hold =>
    if lockW s g && lockP s g then
      let want : Int := if x.delProt then -(x.e : Int) else x.e
      if x.delta.map (·.1) = some want then eqTo s g .aligned 0
      else eqTo (onGrp s g (fun x => { x with delta := none })) g .unaligned 1
    else s

/-- PM_LOSS: the places expected in 2 consecutive multiframes have passed without a right marker (R203). -/
def xPmLoss (g : Nat) (prot : Bool) (s : State) : State :=
  let x := grpOf s g
  let m := if prot then x.mp else x.mw
  let late := match m.last with
    | some (_, c) => decide (c + m.slipped.natAbs + 2 * 65504 ≤ (calCycle s.sfp : Int))
    | none => true
  if m.lock && late then
    let z := { m with lock := false, last := none, slipped := 0 }
    let s1 := cGrp (onGrp s g (fun x => if prot then { x with mp := z, delta := none }
                                        else { x with mw := z, delta := none })) g (if prot then 22 else 21)
    if x.eq = .aligned then eqTo s1 g .hold 0 else s1
  else s
def execPmLoss (g : Fin 2048) (prot : Bool) (s : State) : Host.Outcome State Fault Refusal :=
  .next (live s (xPmLoss g.val prot s))

/-- The cycle in which a source's next marker falls is the present one (R208). -/
def markerDue (m : MarkSt) (add : Nat) (cyc : Nat) : Bool :=
  match m.last with
  | some (_, c) =>
    let due : Int := c + m.slipped + add
    decide (due ≤ (cyc : Int)) && decide (((cyc : Int) - due) % 65504 = 0)
  | none => false

/-- A calendar-cycle boundary. -/
def cycleStart (p : Sfp) : Bool := decide (8 ≤ p.bi) && decide ((p.bi - 8) % 80 = 0)

/-- EQ_ENGAGE: engagement at a permitted marker boundary (R205, R206). The later source's marker marks it. -/
def xEqEngage (g : Nat) (s : State) : State :=
  let x := grpOf s g
  match x.delta with
  | some (d, n) =>
    let later := if d < 0 then x.mw else x.mp
    let early := decide (d < 0)
    let onEarly := decide (d ≠ 0) && x.egSel == early
    if x.en && decide (x.eq = .unaligned) && cycleStart s.sfp && markerDue later 0 (calCycle s.sfp) && lockW s g
        && lockP s g && decide (2 ≤ n) && decide (d.natAbs ≤ 1953) && (!onEarly || x.firstEng || x.grant && x.grantMeas) then
      let s1 := onGrp s g (fun x => { x with e := d.natAbs, delProt := early, firstEng := false, grant := false
                                             eqShift := [] })
      let s2 := eqTo s1 g .aligned 0
      if onEarly then pushItem (cGrp s2 g 18) (eqItem s2 g 2 1 (grpOf s2 g)) else s2
    else s
  | none => s
def execEqEngage (g : Fin 2048) (s : State) : Host.Outcome State Fault Refusal :=
  .next (live s (xEqEngage g.val s))

/-- A marker boundary of an engaged group: the cycle in which its lead member's equalised streams present a marker; in
HOLD, that of a source still locked (R208). -/
def markerBoundary (s : State) (g : Nat) : Bool :=
  let x := grpOf s g
  let c := calCycle s.sfp
  cycleStart s.sfp &&
    ((lockW s g && markerDue x.mw (if x.delProt then 0 else x.e) c)
      || (lockP s g && markerDue x.mp (if x.delProt then x.e else 0) c))

/-- ERRORLESS_SELECTOR_CHANGE: at the first marker boundary at or after (F+1):0 the members take the selector (R208). -/
def xErrorlessSelectorChange (g : Nat) (s : State) : State :=
  let x := grpOf s g
  match x.eqPend with
  | some f =>
    if engaged x && decide (0 ≤ sfpDist (nextFrame f) s.sfp) && markerBoundary s g then
      onGrp s g (fun x => { x with egSel := x.sel, eqPend := none })
    else s
  | none => s
def execErrorlessSelectorChange (g : Fin 2048) (s : State) : Host.Outcome State Fault Refusal :=
  .next (live s (xErrorlessSelectorChange g.val s))

/-! Delay lines (R201). -/

/-- Lowest free line. -/
def freeLine (t : Tbl (Nat × Nat)) : Option Nat := (List.range 1024).find? (fun i => (tfind t i).isNone)

/-- Release the lines of a group. -/
def releaseLines (m : MapSt) (g : Nat) : MapSt :=
  let mine := (m.lines.filter (fun kv => kv.2.1 == g)).map (·.1)
  { m with lines := m.lines.filter (fun kv => kv.2.1 != g), lineMem := tdrop (fun k => mine.contains k) m.lineMem }

/-- Insertion of a (global index, group) into a list that rises by global index. -/
def insMember (x : Nat × Nat) : List (Nat × Nat) → List (Nat × Nat)
  | [] => [x]
  | y :: t => if x.1 ≤ y.1 then x :: y :: t else y :: insMember x t

/-- Allot one line to each member of the groups, in increasing global index, each the lowest free line; the groups of the
members that find none (R201). -/
def allotLines (m : MapSt) (gs : List (Nat × List Nat)) : MapSt × List Nat :=
  let want := (gs.flatMap (fun x => x.2.map (fun i => (i, x.1)))).foldr insMember []
  want.foldl (fun a x => match freeLine a.1.lines with
    | some l => ({ a.1 with lines := tset a.1.lines l (x.2, x.1) }, a.2)
    | none => (a.1, a.2 ++ [x.2])) (m, [])

/-- The line of a member of a group. -/
def lineFor (m : MapSt) (g i : Nat) : Option Nat := (m.lines.find? (fun kv => kv.2 == (g, i))).map (·.1)

/-- The banks a line lies in: 20,480 bytes from i × 20,480, in banks of 262,144 (R201). -/
def lineBanks (i : Nat) : List Nat :=
  let a := i * 20480 / 262144
  let b := (i * 20480 + 20479) / 262144
  if a = b then [a] else [a, b]

/-- A group becomes errorless at a strobe, or starts anew as such: UNALIGNED with reason MEASURING (R209). -/
def eqStart (s : State) (g : Nat) : State :=
  eqTo (onGrp s g (fun x => { x with firstEng := true, grant := false, grantMeas := false, delta := none, mw := {},
                                     mp := {}, e := 0, delProt := false, eqShift := [] })) g .unaligned 1

/-- A group ceases to be errorless: OFF (R209). -/
def eqStop (s : State) (g : Nat) : State :=
  eqTo (onGrp s g (fun x => { x with e := 0, grant := false, grantMeas := false, firstEng := false, eqShift := [] })) g
    .off 0

/-! Slips (R122, R210). -/

/-- The measured Δ is no longer that of the two paths: it is found anew (R204). -/
def remeasure (s : State) (g : Nat) : State := onGrp s g (fun x => { x with delta := none })

/-- E after an adjustment, and the Δ it follows: taken, or the group goes to UNALIGNED with DELAY_RANGE (R210). The slot
store holds two cycles of blocks from before the slip, so the lines follow two cycles later (R157): `line` is what
they then do. -/
def adjustE (s : State) (g : Nat) (e : Int) (line : Option (Nat × Bool)) : State :=
  if 0 ≤ e ∧ e ≤ 2047 then
    onGrp s g (fun x => { x with
      e := e.toNat, delta := x.delta.map (fun d => (if x.delProt then -e else e, d.2))
      eqShift := x.eqShift ++ [((calCycle s.sfp : Int) + 2, e - x.e, line)] })
  else eqTo (remeasure s g) g .unaligned 4

/-- E as the lines apply it: without the slips whose blocks are still in the slot store. -/
def lineE (x : GrpSt) : Nat := ((x.e : Int) - (x.eqShift.map (fun q => q.2.1)).sum).toNat

/-- The lines of a group at a slip on its delayed source: a skip writes K marked words, a repeat discards the newest K
(Table 09-4). -/
def slipLines (m : MapSt) (g k : Nat) (skip : Bool) : MapSt :=
  (m.lines.filter (fun kv => kv.2.1 == g)).foldl (fun m kv =>
    let old := tget [] m.lineMem kv.1
    let new := if skip then (List.replicate k errBlock ++ old).take 2048 else old.drop k
    { m with lineMem := tput [] m.lineMem kv.1 new }) m

/-- The slips of a group whose first blocks the egress reads in the present cycle reach its lines (R157, R210). -/
def shiftLines (s : State) (g : Nat) : State :=
  let now := (grpOf s g).eqShift.filter (fun q => decide (q.1 ≤ (calCycle s.sfp : Int)))
  if now.isEmpty then s
  else
    onGrp (onMap s (fun m => now.foldl (fun m q => match q.2.2 with
      | some (k, skip) => slipLines m g k skip
      | none => m) m)) g (fun x => { x with eqShift := x.eqShift.filter (fun q => decide ((calCycle s.sfp : Int) < q.1)) })

/-- A slip of K cycles on port p, at one errorless group (R203, R210). -/
def eqSlip (s : State) (p k : Nat) (skip : Bool) (g : Nat) : State :=
  let onW := workPort s g == some p
  let onP := protPort s g == some p
  let d : Int := if skip then -(k : Int) else k
  let s0 := onGrp s g (fun x =>
    let x1 := if onW then { x with mw := { x.mw with slipped := x.mw.slipped + d } } else x
    if onP then { x1 with mp := { x1.mp with slipped := x1.mp.slipped + d } } else x1)
  let x := grpOf s0 g
  if engaged x && (onW || onP) then
    let delayedHit := if x.delProt then onP else onW
    if delayedHit then
      let s1 := adjustE s0 g ((x.e : Int) - d) (some (k, skip))
      if engaged (grpOf s1 g) then pushItem (cGrp s1 g 19) (eqItem s1 g 3 (eqCode x.eq) (grpOf s1 g)) else s1
    else if x.egSel == !x.delProt then adjustE s0 g ((x.e : Int) + d) none
    else eqTo (remeasure s0 g) g .unaligned 6
  else if onW || onP then remeasure s0 g
  else s0

/-- SLIP: a fill below 80 or above 2S − 80 at a calendar-cycle boundary: the reader goes back K cycles or skips K of those
the buffer holds (R122, Table 05-12). -/
def xSlip (p : Nat) (s : State) : State :=
  let n := ebNominal s p
  let k := n / 80
  match (portOf s p).trunk.fill with
  | some fill =>
    let skip := decide (2 * n < fill + 80)
    if isTrunk s p && cycleStart s.sfp && (decide (fill < 80) || skip) then
      let nf := if skip then fill - 80 * k else fill + 80 * k
      let s1 := cPort (onTrunk s p (fun t => { t with fill := some nf, slipAt := some s.sfp })) p dSlip 1
      let s2 := trace s1 5 3 p ([by1 (if skip then 0 else 1)] ++ beBytes 2 k)
      let s3 := setCond s2 p dSlip true
      forEach ((enabledGroups s3).filter (fun g => gErrorless (actv s3) g)) s3 (fun u g => eqSlip u p k skip g)
    else s
  | none => s
def execEbSlip (port : Fin 128) (s : State) : Host.Outcome State Fault Refusal :=
  .next (live s (xSlip port.val s))

end Sys2Proof.Machine
end

