-- ==== Sys2Proof/Machine/Overhead.lean ====
section
/-! DEFINITION. The overhead words a trunk sends (Tables 05-5, 05-6, 05-8) and the QL in them (R38). -/

namespace Sys2Proof.Machine

open Sys2Proof

/-- Code of a Thyme state (Table 02-3). -/
def thyCode : ThyState → Nat
  | .freerun => 0 | .acquiring => 1 | .locked => 2 | .holdover => 3 | .expired => 4

/-- Effective QL of a frequency candidate (R37). -/
def effQl (s : State) (c : Nat) : Nat :=
  if c < 8 then (if cQlMode (actv s) c then cFixedQl (actv s) c else (portOf s (cLane (actv s) c)).ql.toNat)
  else bits s.thy.refinQl (4 * (c - 8) + 3) (4 * (c - 8))
/-- QL sent in O1 of a trunk (Table 02-3). -/
def txQl (s : State) (p : Nat) : Nat :=
  match s.thy.ref with
  | some c =>
    if c < 8 ∧ cLane (actv s) c = p then 15
    else if s.thy.st = .locked then effQl s c
    else if s.thy.st = .holdover then tHoQl (actv s) else tQlOwn (actv s)
  | none => if s.thy.st = .holdover then tHoQl (actv s) else tQlOwn (actv s)

/-! The overhead a trunk sends (Tables 05-5, 05-6, 05-8). -/

/-- A word from its number and its CRC field, over the six or five bytes above it. -/
def withCrc8 (n : Nat) : W56 := BitVec.ofNat 56 (n * 256 + (crc8 (beBytes 6 n)).toNat)
def withCrc16 (pre : Bytes) (n : Nat) : W56 := BitVec.ofNat 56 (n * 65536 + (crc16 (pre ++ beBytes 5 n)).toNat)

/-- LPBK: FAR loopback, or an egress entry of KIND test-pattern (R149). -/
def txLpbk (s : State) (p : Nat) : Bool :=
  pLoop (actv s) p == 2
    || (List.range 80).any (fun k => eValid (activeEntry s (80 * p + k)) && eKind (activeEntry s (80 * p + k)) == 3)
/-- O0 (Table 05-5): bits 55 to 8 as a number. -/
def o0Fields (p : Sfp) (rdi mapSel lpbk : Bool) : Nat :=
  0xE471B2 * 2 ^ 24 + p.fi * 2 ^ 19 + pk1 (beBytes 6 p.mfc) (p.fi % 6) * 2 ^ 11 + at1 rdi 10 + at1 mapSel 9 + at1 lpbk 7
/-- O0 of a frame. -/
def o0Word (p : Sfp) (rdi mapSel lpbk : Bool) : W56 := withCrc8 (o0Fields p rdi mapSel lpbk)
/-- O1 (Table 05-6): transmit SMI, own QL, trail trace slice. -/
def o1Word (o0 : W56) (smi ql tti0 tti1 : Nat) : W56 :=
  withCrc16 (wBytes o0) (smi * 2 ^ 24 + ql * 2 ^ 16 + tti0 * 256 + tti1)
/-- ROLE in O7 (R116, R215). -/
def txRole (s : State) : Nat := if s.pair.st = .active then 1 else if s.pair.st = .unpaired then 0 else 2
/-- O7 (Table 05-8). -/
def o7Word (chunk : Bytes) (devid port role tstate : Nat) : W56 :=
  withCrc16 chunk ((devid * 2 ^ 12 + port * 2 ^ 5 + role * 8 + tstate) * 65536)

/-- O0, O1 and O7 of the frame in progress, from what the machine is now (R38, R108, R109, R116). -/
def sendWords (s : State) (p : Nat) : State :=
  let x := portOf s p
  let o0 := o0Word s.sfp x.txRdi s.map.bActive (txLpbk s p)
  let tti := fun (j : Nat) => (ttiByte (actv s) (aTxTti p) (2 * s.sfp.fi + j)).toNat
  onPort s p (fun x => { x with
    txO0 := o0, txO1 := o1Word o0 (smiSent s p) (txQl s p) (tti 0) (tti 1)
    txO7 := o7Word x.txChunk s.pins.devid.toNat p (txRole s) (thyCode s.thy.st) })

/-- A row that changes Thyme, the count or the role at a frame boundary already evaluated: the frame that begins there
carries the change (R38, R73, R309, R116). -/
def resend (s : State) : State :=
  if s.frameDone = some s.sfp then forEach allPorts s (fun t p => if isTrunk t p then sendWords t p else t) else s

end Sys2Proof.Machine
end

