-- ==== Sys2Proof/Machine/Thyme.lean ====
section
/-! DEFINITION. Thyme (files 02 and 03): candidates, selection, the DPLL state machine, holdover and its budget, the
frame phase, the multiframe count. -/

namespace Sys2Proof.Machine

open Sys2Proof

/-! Candidates. -/

/-- Enabled: priority 1 to 15. -/
def candEn (s : State) (c : Nat) : Bool := cPrio (actv s) c != 0
/-- Rank of a QL code, 1 best (Table 02-2). -/
def qlRank (q : Nat) : Nat := if q = 2 then 1 else if q = 4 then 2 else if q = 8 then 3 else if q = 11 then 4 else 5

/-- The lane of a candidate is in fault (Table 02-4). A lane in NEAR loopback recovers no line clock (R148). -/
def laneFault (s : State) (p : Nat) : Bool :=
  let r := (portOf s p).rep
  if pLoop (actv s) p == 1 || modeOf s p == 0 then true
  else if isTrunk s p then (r &&& 0x0033#16) != 0 else (r &&& 0x0003#16) != 0

/-! The activity monitors of REFIN0 to REFIN3 (Table 02-4). -/

def refinOf (s : State) (n : Nat) : RefinSt := tget {} s.thy.refins n
def onRefin (s : State) (n : Nat) (f : RefinSt → RefinSt) : State :=
  onThy s (fun t => { t with refins := tput {} t.refins n (f (refinOf s n)) })
/-- Programmed frequency of REFIN n. -/
def refinFreq (s : State) (n : Nat) : Nat := cFreq (actv s) (8 + n)
/-- One second, and 1 µs in whole blocks. -/
def secBlocks : Nat := 1562500000
def usBlocks : Nat := 1562
/-- 3 nominal periods or 1 µs, whichever is longer, in ps, for the frequencies other than 1 Hz. -/
def gapLimit (fr : Nat) : Nat := if fr = 2 then 375000000 else if fr = 3 then 1464844 else 1000000

/-- A rising edge of a REFIN at 1 Hz: within 1 s ± 1 µs of the one before it, it ends a fault and a run of missing pulses;
one on the grid of the pulses that were missed ends the run only (log 80). -/
def refinEdge (at_ : Sfp) (x : RefinSt) : RefinSt :=
  let near := fun (k : Nat) => match x.last with
    | some a => decide ((sfpDist a at_ - (k * secBlocks : Nat)).natAbs ≤ usBlocks)
    | none => false
  if near 1 then { x with last := some at_, miss := 0, dead := false }
  else if near (x.miss + 1) then { x with last := some at_, miss := 0 }
  else { x with last := some at_ }
/-- The pulses missing by a position: the second in a row is a fault. -/
def refinMissed (now : Sfp) (x : RefinSt) : RefinSt :=
  match x.last with
  | some a =>
    if ((x.miss + 1) * secBlocks + usBlocks : Nat) < sfpDist a now then
      { x with miss := min 2 (x.miss + 1), dead := x.dead || decide (1 ≤ x.miss) }
    else x
  | none => x

/-- One REFIN over the frame that ended. -/
def refinFrame (i : FrameIn) (s : State) (n : Nat) : State :=
  let fr := refinFreq s n
  if fr = 0 then onRefin s n (fun _ => {})
  else if fr = 1 then
    let edges := (i.refinEdges.filter (fun e => e.1 == n)).map (fun e => sfpOff s.sfp ((e.2 : Int) - frameBlocks))
    onRefin s n (fun x => refinMissed s.sfp (edges.foldl (fun x e => refinEdge e x) x))
  else onRefin s n (fun x => { x with gap := decide (gapLimit fr ≤ 1000 * i.refinGap.getD n 0) })

/-- The fault condition of REFIN n (Table 02-4). -/
def refinFault (s : State) (n : Nat) : Bool :=
  if refinFreq s n = 1 then (refinOf s n).dead else (refinOf s n).gap

/-- The fault condition of a frequency candidate (R39). -/
def candFaultNow (s : State) (c : Nat) : Bool :=
  (candOf s c).freqFault || (if c < 8 then laneFault s (cLane (actv s) c) else refinFault s (c - 8))

/-- Frames in a count of multiframes. -/
def framesOfMf (n : Nat) : Nat := 32 * n

/-- One candidate's timers at a frame boundary where its fault condition is `f` (R39 to R42). -/
def candStep (v : View) (c : Nat) (f : Bool) (x : CandSt) : CandSt :=
  if f then
    if x.fault then { x with hold := dec1 x.hold }
    else { x with fault := true, wtr := none, qual := none
                  hold := if x.qualified then some (framesOfMf (cHoldoff v c)) else none }
  else
    let y := { x with fault := false, hold := none }
    if y.qualified then y
    else if y.beyond then { y with wtr := none, qual := none }
    else if y.disq then
      { y with wtr := match y.wtr with
                      | some n => some (n - 1)
                      | none => some (framesOfMf (256 * cWtr v c)) }
    else
      { y with qual := match y.qual with
                       | some n => some (n - 1)
                       | none => some (framesOfMf 16) }

/-- One frequency candidate at a frame boundary: a pending frequency-offset fault is declared and counted. -/
def candEval (s : State) (c : Nat) : State :=
  if candEn s c then
    let s1 := if (candOf s c).freqPend && !(candOf s c).freqFault then
        cThy (onCand s c (fun x => { x with freqFault := true, freqPend := false })) 9
      else onCand s c (fun x => { x with freqPend := false })
    let f := candFaultNow s1 c
    onCand s1 c (candStep (actv s1) c f)
  else onCand s c (fun _ => {})

/-- The frequency candidates. -/
def freqCands : List Nat := List.range 12

/-! Selection (R43 to R46). -/

/-- A switch falls due at this boundary: selection waits for it (R43, R75). -/
def switchDue (s : State) : Bool :=
  match s.thy.next with
  | some (_, _, f) => decide (f = s.sfp)
  | none => false

/-- Eligible (R43). -/
def eligible (s : State) (c : Nat) : Bool :=
  let x := candOf s c
  candEn s c && x.qualified && (!x.fault || (decide (s.thy.ref = some c) && x.hold.isSome))
    && (tSelMode (actv s) || effQl s c != 15)

/-- The order of R43: QL rank in QL mode, then priority, then number. -/
def candBefore (s : State) (a b : Nat) : Bool :=
  let ra := if tSelMode (actv s) then 0 else qlRank (effQl s a)
  let rb := if tSelMode (actv s) then 0 else qlRank (effQl s b)
  if ra ≠ rb then decide (ra < rb)
  else if cPrio (actv s) a ≠ cPrio (actv s) b then decide (cPrio (actv s) a < cPrio (actv s) b)
  else decide (a < b)

/-- The first candidate of a list in that order. -/
def bestCand (s : State) (l : List Nat) : Option Nat :=
  l.foldl (fun best c => match best with
    | some b => if candBefore s c b then some c else some b
    | none => some c) none

/-- The choice of R43, none where nothing is eligible. Two joints are the model's choice (log 81): in priority mode a
force makes an eligible candidate that carries DNU the reference, as the pseudocode of R43 does, whatever R45 says of DNU
candidates, which QL mode alone excludes; and there NONREVERT keeps the current reference whatever the ranks, because QL
is ignored. -/
def choose (s : State) : Option Nat :=
  let el := freqCands.filter (eligible s)
  match s.thy.force with
  | some f => if el.contains f then some f else chooseFree s el
  | none => chooseFree s el
where
  /-- Without a force: NONREVERT keeps the current reference at equal rank. -/
  chooseFree (s : State) (el : List Nat) : Option Nat :=
    match bestCand s el, s.thy.ref with
    | some b, some c =>
      if tNonrevert (actv s) && el.contains c && (tSelMode (actv s) || qlRank (effQl s b) == qlRank (effQl s c))
      then some c else some b
    | o, _ => o

/-- Reason of a switch (Table 19-4): 1 fault, 2 QL change, 3 revert, 4 force, 5 configuration, 6 acquire. R46 lists the
codes; which one stands where several fit is the model's choice, the first of the order here (log 82). -/
def switchReason (s : State) (choice : Nat) : Nat :=
  match s.thy.ref with
  | none => 6
  | some c =>
    if s.thy.force = some choice then 4
    else if s.thy.cfgAt = some s.sfp ∨ candEn s c = false then 5
    else if (candOf s c).qualified = false then 1
    else if tSelMode (actv s) then 3
    else if qlRank (effQl s choice) ≠ qlRank (effQl s c) then 2
    else 3

/-! Holdover (R64 to R72). -/

/-- One multiframe in units of 10 ps (R68). -/
def mfTicks : Nat := 335396864
/-- Guard in multiframes. -/
def guardMf (s : State) : Nat := (bits (actv s aHoCfg) 25 16 * 100000000000 + (mfTicks - 1)) / mfTicks
/-- Window in entries. -/
def windowN (s : State) : Nat := (bits (actv s aHoCfg) 11 0 * 100000000000 + (256 * mfTicks - 1)) / (256 * mfTicks)
/-- E: the latest sample boundary at or before the limit. -/
def windowEnd (s : State) : Nat := (s.sfp.mfc + mfcMod - guardMf s % mfcMod) % mfcMod / 256 * 256
/-- The entries of the window, newest first. -/
def windowEntries (s : State) : List HistEntry :=
  (s.thy.hist.filter (fun e => decide (0 ≤ mfcDiff e.mfc.toNat (windowEnd s)))).take (windowN s)
/-- The valid ones. -/
def windowValid (s : State) : List HistEntry := (windowEntries s).filter (·.valid)
/-- The history is valid (R69). -/
def histValid (s : State) : Bool :=
  decide (16 ≤ (windowValid s).length) && decide ((windowN s + 1) / 2 ≤ (windowValid s).length)
/-- Mean of FREQ, rounded to the nearest LSB. -/
def meanFreq (l : List HistEntry) : Int :=
  let n : Int := l.length
  let t := l.foldl (fun a e => a + e.freq.toInt) (0 : Int)
  if n = 0 then 0 else (2 * t + n) / (2 * n)
/-- Sum and number of the valid temperatures. -/
def tempSum (l : List HistEntry) : Int × Nat :=
  (l.filter (fun e => e.temp != 0x8000)).foldl (fun a e => (a.1 + e.temp.toInt, a.2 + 1)) (0, 0)

/-- The state changes: sticky bit, record, event (R77). -/
def thyTo (s : State) (n : ThyState) : State :=
  let old := s.thy.st
  let s1 := onThy (sticky s hThy (word (2 ^ thyCode n))) (fun t => { t with st := n, changedAt := some s.sfp })
  trace s1 2 1 noObj ([by1 (thyCode old), by1 (thyCode n)]
    ++ (if n = .holdover then beBytes 6 s1.thy.hoFreq.toNat ++ beBytes 2 s1.thy.hoCount else []))

/-- The state may change at this boundary: at most once (R76). -/
def mayChange (s : State) : Bool := s.thy.changedAt != some s.sfp

/-- Bandwidth in use (R47): the ceiling of the selected candidate's frequency. -/
def bwCeiling (s : State) (c : Nat) : Nat :=
  if c < 8 then 13 else if cFreq (actv s) c = 1 then 2 else if cFreq (actv s) c = 2 then 9 else 13
/-- BW_EFF; a standby follows the Chive lane clock at code 11 (R222). -/
def bwNow (s : State) : Nat :=
  if isStandby s then 11
  else
    let b := if s.thy.st = .locked then tTrackBw (actv s) else tAcqBw (actv s)
    match s.thy.ref with
    | some c => min b (bwCeiling s c)
    | none => b
/-- Recompute BW_EFF. -/
def setBw (s : State) : State := onThy s (fun t => { t with bwEff := BitVec.ofNat 4 (bwNow s) })

/-! The budget, in units of 10^-33 s / 86400 of phase and 10^-22 / 86400 of frequency (R71). -/

/-- Temperature term. -/
def hbTemp (s : State) : Nat :=
  let cap := bits (actv s aHbCfg1) 8 0 * (1000000000000 * 86400)
  let (sum, n) := s.thy.tRef
  if n = 0 ∨ s.thy.sampleTemp = 0x8000 then cap
  else
    min cap (bits (actv s aHbCfg0) 27 16 * (s.thy.sampleTemp.toInt * n - sum).natAbs * (10000000000 * 86400) / (16 * n))
/-- Ageing coefficient in 0.01 ppb a day: four times HB_AGEING in the first 30 days. -/
def hbAge (s : State) : Nat := bits (actv s aHbCfg0) 10 0 * (if s.thy.days < 30 then 4 else 1)
/-- y after t blocks of 0.64 ns. -/
def hbY (s : State) (t : Nat) : Nat :=
  bits (actv s aHbCfg1) 29 16 * (100000000000 * 86400) + hbAge s * (t * 64) + hbTemp s
/-- HB_LIMIT in units of HB_ACCUM. -/
def hbLimit (s : State) : Nat := bits (actv s aHbLimit) 23 0 * (10 ^ 24 * 86400)
/-- Units of HB_ACCUM in a nanosecond. -/
def hbNs : Nat := 10 ^ 24 * 86400
/-- Twice the phase gathered in k more seconds. -/
def hbAhead (s : State) (k : Nat) : Nat :=
  2 * hbY s s.thy.hbT * k * 100000000000 + hbAge s * 10 ^ 22 * k * k
/-- HB_REMAIN: the greatest whole number of seconds that does not pass the limit, saturating (R72). -/
def hbRemainNow (s : State) : Nat :=
  (List.range 32).foldl (fun k i =>
    let k' := k + 2 ^ (31 - i)
    if 2 * s.thy.hbAccum + hbAhead s k' ≤ 2 * hbLimit s then k' else k) 0

/-- The holdover value and its budget, for the standby (Table 10-3). -/
def mirHoldover (s : State) : State := mirror s (.holdover s.thy.hoFreq s.thy.hbAccum s.thy.hbRemain)

/-- Loss from LOCKED (R68, R69). -/
def lossLocked (s : State) : State :=
  let v := windowValid s
  let ok := histValid s
  let f : BitVec 48 := if ok then BitVec.ofInt 48 (meanFreq v) else 0
  let s1 := onThy s (fun t => { t with ref := none, next := none, refFault := false, ctl := f, hoFreq := f,
                                       hoCount := v.length, hoEnd := BitVec.ofNat 48 (windowEnd s) })
  if ok then
    let s2 := onThy s1 (fun t => { t with tRef := tempSum v, hbAccum := 0, hbT := 0, hbAt := some s.sfp })
    mirHoldover (thyTo (onThy s2 (fun t => { t with hbRemain := hbRemainNow s2 })) .holdover)
  else thyTo (sticky (cThy s1 3) hThy 0x20) .freerun

/-- No frequency candidate is eligible (R46). -/
def refLoss (s : State) : State :=
  match s.thy.st with
  | .locked => if mayChange s then lossLocked s else s
  | .acquiring =>
    if mayChange s then
      thyTo (onThy s (fun t => { t with ref := none, next := none, refFault := false, ctl := 0 })) .freerun
    else s
  | .freerun => onThy s (fun t => { t with next := none })
  | .holdover => onThy s (fun t => { t with next := none })
  | .expired => onThy s (fun t => { t with next := none })

/-- ALL_DNU: in QL mode every qualified frequency candidate carries DNU (Table 02-9). -/
def allDnuEval (s : State) : State :=
  let q := freqCands.filter (fun c => candEn s c && (candOf s c).qualified)
  let a := !tSelMode (actv s) && !q.isEmpty && q.all (fun c => effQl s c == 15)
  let s1 := onThy s (fun t => { t with allDnu := a })
  if a && !s.thy.allDnu then cThy s1 2 else s1

/-- Selection at a frame boundary (R43, R46, R75). A switch that falls due here is made first: REF_SWITCH then runs
selection on the new reference. -/
def selectEval (s : State) : State :=
  if switchDue s then s
  else match choose s with
    | none => refLoss s
    | some c =>
      if s.thy.ref = some c then onThy s (fun t => { t with next := none })
      else onThy s (fun t => { t with next := some (c, switchReason s c, nextFrame s.sfp) })

/-- The DPLL follows no reference now, or its reference is in fault: the control value stands (R40, R70). -/
def ctlHeld (s : State) : Bool := !isStandby s && (s.thy.ref.isNone || s.thy.refFault)

/-- REF_FAULT and the control value at a frame boundary (R40): frozen at the mean of the preceding multiframe when the
reference goes into fault; otherwise the DPLL's own while it follows a reference, and on a standby the Chive lane clock
(R222). -/
def ctlEval (i : FrameIn) (s : State) : State :=
  if isStandby s then onThy s (fun t => { t with ctl := i.ctl })
  else match s.thy.ref with
    | some c =>
      let f := (candOf s c).fault
      if f && !s.thy.refFault then onThy s (fun t => { t with refFault := true, ctl := i.ctlMean })
      else if f then s
      else onThy s (fun t => { t with refFault := false, ctl := i.ctl })
    | none => s

/-- The control value that has stood through the interval up to here (R65). -/
def ivCtlEval (s : State) : State :=
  onThy s (fun t => { t with ivCtl := if ctlHeld s && t.ivCtl == some t.ctl then t.ivCtl else none })

/-- The flags of the sample interval (R66). -/
def ivEval (s : State) : State :=
  onThy s (fun t => { t with ivLocked := t.ivLocked && decide (t.st = .locked), ivFault := t.ivFault || t.refFault })

/-- Frames in a row with the phase error within LOCK_WINDOW, while the DPLL acquires on a reference free of fault
(R48). -/
def lockEval (i : FrameIn) (s : State) : State :=
  let ok := decide (s.thy.st = .acquiring) && !s.thy.refFault && decide (i.phase ≤ 1000 * tLockWindow (actv s))
  onThy s (fun t => { t with lockRun := if ok then t.lockRun + 1 else 0 })

/-- HO_READY: a loss declared at this boundary would enter HOLDOVER. From another state than LOCKED no loss does (R67,
R69, Table 03-2; log 83). -/
def hoReadyNow (s : State) : Bool := decide (s.thy.st = .locked) && histValid s

/-- The 1 Hz outputs are aligned with a selected REFIN at 1 Hz (R56). -/
def clkAlign (s : State) : State :=
  match s.thy.ref with
  | some c =>
    if 8 ≤ c ∧ refinFreq s (c - 8) = 1 then
      forEach (List.range 4) s (fun t o => if oFreq (actv t) o = 1 then
        onThy t (fun x => { x with clkPh := tput none x.clkPh o (refinOf t (c - 8)).last }) else t)
    else s
  | none => s

/-- Thyme at a frame boundary, after any strobe and after the defect reports. -/
def thyFrame (i : FrameIn) (s : State) : State :=
  let s0 := if s.thy.st = .freerun ∧ s.pwr.firstFrame = false then sticky s hThy 1 else s
  let s1 := clkAlign (forEach freqCands (forEach (List.range 4) s0 (refinFrame i)) candEval)
  let s2 := lockEval i (ctlEval i (ivCtlEval s1))
  let ready := hoReadyNow s2
  let s3 := ivEval (if isStandby s2 then s2 else selectEval (allDnuEval s2))
  setBw (onThy s3 (fun t => { t with hoReady := ready, flywheel := t.flywheel && tFrameSrc (actv s3) != 0 }))

/-- Selection again, when a row of a boundary already evaluated changes what it rests on; the frame that begins carries
the outcome (R38). -/
def reselect (s : State) : State :=
  if isStandby s || s.frameDone != some s.sfp then s else resend (setBw (selectEval (allDnuEval s)))

/-! Rows of the candidates. -/

/-- CANDIDATE_HOLDOFF_EXPIRE: the fault outlived its hold-off: disqualified, and selection runs (R40, R41). -/
def xCandidateHoldoffExpire (c : Nat) (s : State) : State :=
  let x := candOf s c
  if candEn s c && x.fault && x.qualified && decide (x.hold = some 0) then
    reselect (onCand s c (fun x => { x with qualified := false, disq := true, hold := none, wtr := none }))
  else s
def execCandidateHoldoffExpire (c : Fin 12) (s : State) : Host.Outcome State Fault Refusal :=
  .next (liveFrame s (xCandidateHoldoffExpire c.val s))

/-- CANDIDATE_WTR_EXPIRE: free of fault for its wait-to-restore time (R42). -/
def xCandidateWtrExpire (c : Nat) (s : State) : State :=
  let x := candOf s c
  if candEn s c && x.disq && !x.fault && decide (x.wtr = some 0) then
    reselect (onCand s c (fun x => { x with qualified := true, disq := false, wtr := none }))
  else s
def execCandidateWtrExpire (c : Fin 12) (s : State) : Host.Outcome State Fault Refusal :=
  .next (liveFrame s (xCandidateWtrExpire c.val s))

/-- CANDIDATE_QUALIFIED: 16 multiframes free of fault after it was enabled (R42). -/
def xCandidateQualified (c : Nat) (s : State) : State :=
  let x := candOf s c
  if candEn s c && !x.qualified && !x.disq && !x.fault && decide (x.qual = some 0) then
    reselect (onCand s c (fun x => { x with qualified := true, qual := none }))
  else s
def execCandidateQualified (c : Fin 12) (s : State) : Host.Outcome State Fault Refusal :=
  .next (liveFrame s (xCandidateQualified c.val s))

/-- One candidate's measurement in ppb at the end of a window (Table 02-4, R42). -/
def freqOne (lim : Nat) (ppb : Int) (x : CandSt) : CandSt :=
  if x.winOk then
    let a := ppb.natAbs
    if 1000 * lim < a then
      { x with bad := min 2 (x.bad + 1), beyond := true, freqPend := decide (1 ≤ x.bad) && !x.freqFault }
    else if a ≤ 800 * lim then { x with bad := 0, beyond := false, freqFault := false, freqPend := false }
    else { x with bad := 0, freqPend := false }
  else { x with winOk := true }

/-- FREQ_MEASUREMENT: the window of 16 multiframes that ends here (R42). -/
def xFreqMeasurement (ppb : List Int) (s : State) : State :=
  if isEpoch s.sfp && decide (s.sfp.mfc % 16 = 0) then
    forEach freqCands s (fun t c => if candEn t c then
      onCand t c (freqOne (tFreqLimit (actv t)) (ppb.getD c 0)) else t)
  else s
def execFreqMeasurement (ppb : List Int) (s : State) : Host.Outcome State Fault Refusal :=
  .next (live s (xFreqMeasurement ppb s))

/-- DPLL_LOCK: the phase error stayed within the window for LOCK_TIME (R48). -/
def xDpllLock (s : State) : State :=
  if decide (s.thy.st = .acquiring) && !s.thy.refFault && decide (framesOfMf (tLockTime (actv s)) ≤ s.thy.lockRun)
      && mayChange s && !isStandby s then resend (setBw (thyTo s .locked)) else s
def execDpllLock (s : State) : Host.Outcome State Fault Refusal := .next (liveFrame s (xDpllLock s))

/-- The switch itself: the reference, PBO_OFFSET, the record, ACQ_RESTART or the passage to ACQUIRING (R46 to R50,
R75). -/
def switchTo (offset : Word) (c why : Nat) (s : State) : State :=
  let old := s.thy.ref
  let s1 := onThy s (fun t => { t with ref := some c, next := none, refFault := false, pbo := offset,
                                       ivRefChange := true, lockRun := 0 })
  let oq := match old with
    | some o => effQl s o
    | none => 15
  let s2 := trace (cThy s1 0) 2 2 c ([by1 (old.getD 15), by1 c, by1 oq, by1 (effQl s c), by1 why]
    ++ beBytes 4 offset.toNat)
  match s.thy.st with
  | .locked => s2
  | .acquiring => cThy s2 1
  | .freerun => thyTo s2 .acquiring
  | .holdover => thyTo s2 .acquiring
  | .expired => thyTo s2 .acquiring

/-- REF_SWITCH: the switch due at this frame boundary, then selection on the new reference (R43). -/
def xRefSwitch (offset : Word) (s : State) : State :=
  match s.thy.next with
  | some (c, why, f) =>
    if f = s.sfp ∧ isStandby s = false then resend (setBw (selectEval (allDnuEval (switchTo offset c why s)))) else s
  | none => s
def execRefSwitch (offset : BitVec 32) (s : State) : Host.Outcome State Fault Refusal :=
  .next (liveFrame s (xRefSwitch offset s))

/-! Frame phase (R51 to R54). -/

/-- A frame-phase input is enabled and its source is the one FRAME_SRC names: 0 FPIN_A, 1 FPIN_B, 2 the trunk MFC_PORT
(Table 02-7, R51). -/
def fpEnabled (s : State) (k : Nat) : Bool :=
  if k < 2 then cPrio (actv s) (12 + k) != 0 && tFrameSrc (actv s) == 1 else tFrameSrc (actv s) == 2
/-- MFC_PORT is a trunk in multiframe (R61). -/
def mfcPortReady (s : State) : Bool :=
  isTrunk s (tMfcPort (actv s)) && (portOf s (tMfcPort (actv s))).trunk.inMf
/-- The better of two frame-pulse inputs that satisfy a condition: lower PRIORITY, then FPIN_A (R51). -/
def fpBest (s : State) (ok : Nat → Bool) : Option Nat :=
  if ok 0 && ok 1 then some (if cPrio (actv s) 13 < cPrio (actv s) 12 then 1 else 0)
  else if ok 0 then some 0 else if ok 1 then some 1 else none
/-- The frame-phase input in use. -/
def selFp (s : State) : Option Nat :=
  if tFrameSrc (actv s) = 1 then fpBest s (fun k => fpEnabled s k && (fpOf s k).qualified)
  else if tFrameSrc (actv s) = 2 && mfcPortReady s && decide ((fpOf s 2).off < 8) then some 2 else none
/-- A FRAME_PULSE record (Table 19-4). -/
def fpRec (s : State) (k code : Nat) : State := trace s 2 6 (if k < 2 then 12 + k else noObj) [by1 code]
/-- Some trunk port is in frame. -/
def trunkInFrame (s : State) : Bool := allPorts.any (fun p => isTrunk s p && inFrame (portOf s p).trunk)
/-- Compensation of an input. -/
def fpComp (s : State) (k : Nat) : Int := (actv s (aThy + 0x01C + 4 * k)).toInt

/-- A step of the SFP: the next epoch boundary comes `wait` blocks from now, where `wait` is a whole multiframe also now;
the MFC stays (R54, log 55). -/
def stepSfp (s : State) (wait : Nat) : State :=
  reStamp s.sfp
    { s with sfp := sfpAdd (epochAt s.sfp.mfc) ((mfBlocks - wait % mfBlocks) % mfBlocks), frameDone := none, epochDone := none }

/-- Blocks from here to the next reference instant of an input: one of the train that its last edge begins, each with
the compensation (R52). -/
def instantWait (s : State) (k : Nat) (edge : Sfp) : Nat := ((fpComp s k - sfpDist edge s.sfp) % (mfBlocks : Int)).toNat

/-- The first qualification of a frame-phase candidate, CAND12 or CAND13, after reset: the step, or the permission lapses
(R54). -/
def firstAlign (s : State) (k : Nat) : State :=
  if s.thy.fpAligned || s.thy.fpLapsed || k == 2 then s
  else if trunkInFrame s then onThy s (fun t => { t with fpLapsed := true })
  else stepSfp (onThy s (fun t => { t with fpAligned := true })) (instantWait s k s.sfp)

/-- Pulses of this input are judged against the predicted epoch boundary: from the first alignment on (R51). -/
def fpPredicted (s : State) (k : Nat) : Bool := s.thy.fpAligned || s.thy.fpLapsed || k == 2

/-- How far the reference instant of an edge here lies from the nearest epoch boundary, in blocks: the error of a pulse
against the predicted instant (R52). -/
def fpErr (s : State) (k : Nat) : Int :=
  let i := sfpOff s.sfp (fpComp s k)
  let r := i.fi * frameBlocks + i.bi
  if 2 * r ≤ mfBlocks then r else (r : Int) - mfBlocks

/-- The edge here lies one multiframe, ± FP_WINDOW, after the previous one: the train is regular (R51). -/
def fpRegular (s : State) (k : Nat) : Bool :=
  match (fpOf s k).last with
  | some a => decide ((sfpDist a s.sfp - mfBlocks).natAbs ≤ tFpWindow (actv s))
  | none => false

/-- An on-time pulse (R51, R52). -/
def fpOnTime (s : State) (k : Nat) (err : Int) : State :=
  let x := fpOf s k
  let g := min 16 (x.good + 1)
  let s1 := onFp s k (fun x => { x with last := some s.sfp, present := fpRegular s k, good := g, off := 0,
                                        missed := 0, onTime := true, qualified := x.qualified || g == 16 })
  let s2 := if selFp s1 = some k then onThy s1 (fun t => { t with flywheel := false }) else s1
  let s3 := if selFp s2 = some k && err != 0 && decide (16 ≤ s2.thy.fpCorr.2) then
      onThy s2 (fun t => { t with fpCorr := (t.fpCorr.1 + (if 0 < err then 1 else -1), 0) })
    else s2
  if !x.qualified && (fpOf s3 k).qualified then firstAlign s3 k else s3

/-- A pulse before the first alignment that does not continue a regular train (R51). -/
def fpIrregular (s : State) (k : Nat) : State :=
  onFp s k (fun x => { x with last := some s.sfp, present := false, good := 0, off := 0, onTime := false })

/-- An off-time pulse: 8 at one new offset disqualify its input without moving the SFP (R52, Table 02-10). -/
def fpOffTime (s : State) (k : Nat) (err : Int) : State :=
  let x := fpOf s k
  let w := tFpWindow (actv s)
  let same := decide (0 < x.off) && decide ((err - x.offAt).natAbs ≤ w)
  let n := if same then x.off + 1 else 1
  let other := decide (selFp s ≠ some k) && (selFp s).isSome && x.qualified
  let s1 := onFp s k (fun x => { x with last := some s.sfp, good := 0, missed := 0, off := min 8 n, offAt := err,
                                        onTime := false, present := fpRegular s k,
                                        qualified := x.qualified && !other && n < 8 })
  if other then fpRec (cThy s1 7) k 3
  else if n = 8 then
    let s2 := fpRec (cThy s1 8) k 4
    if (selFp s2).isNone && !s2.thy.flywheel then fpRec (onThy s2 (fun t => { t with flywheel := true })) k 5 else s2
  else s1

/-- A further pulse of the multiframe whose on-time pulse has come (Table 02-9): two on-time pulses lie nearer to a
multiframe apart than the two windows. -/
def fpExtra (s : State) (k : Nat) : Bool :=
  match (fpOf s k).last with
  | some a => (fpOf s k).onTime && decide (sfpDist a s.sfp < (mfBlocks : Int) - 2 * tFpWindow (actv s))
  | none => false

/-- FP_PULSE: an edge at an input, or an O0 with FI 0 on MFC_PORT, at this position (R51, R52, Table 02-9). -/
def xFpPulse (k : Nat) (s : State) : State :=
  if fpEnabled s k && (decide (k < 2) || mfcPortReady s) then
    let err := fpErr s k
    if fpExtra s k then fpRec (cThy s 6) k 2
    else if fpPredicted s k then
      (if err.natAbs ≤ tFpWindow (actv s) then fpOnTime s k err else fpOffTime s k err)
    else if fpRegular s k then fpOnTime s k 0 else fpIrregular s k
  else s
def execFpEdge (input : Fin 3) (s : State) : Host.Outcome State Fault Refusal :=
  .next (live s (xFpPulse input.val s))

/-- No edge has come for more than a multiframe, and the miss of this one is not counted yet. -/
def fpMissing (s : State) (k : Nat) : Bool :=
  let x := fpOf s k
  (match x.last with
    | some a => decide ((mfBlocks : Int) < sfpDist a s.sfp)
    | none => true)
  && (match x.missAt with
    | some a => decide ((mfBlocks : Int) ≤ sfpDist a s.sfp)
    | none => true)

/-- FP_MISS: no pulse in the multiframe; three in a row disqualify the input (Table 02-10, R61). -/
def xFpMiss (k : Nat) (s : State) : State :=
  if fpEnabled s k && fpMissing s k then
    let n := min 3 ((fpOf s k).missed + 1)
    let s1 := fpRec (cThy (onFp s k (fun x => { x with missed := n, missAt := some s.sfp, good := 0, off := 0,
                                                       present := false, qualified := x.qualified && n < 3 })) 5) k 1
    let src := tFrameSrc (actv s)
    let fly := (decide (src = 1) && decide (n = 3) && decide (k < 2) && (selFp s1).isNone)
      || (decide (src = 2) && decide (k = 2) && !mfcPortReady s)
    if fly && !s1.thy.flywheel then fpRec (onThy s1 (fun t => { t with flywheel := true })) k 5 else s1
  else s
def execFpMiss (input : Fin 3) (s : State) : Host.Outcome State Fault Refusal :=
  .next (live s (xFpMiss input.val s))

/-- The input FP_REALIGN would follow: an enabled one with pulses present, or the trunk in frame (R310). -/
def realignInput (s : State) : Option Nat :=
  if tFrameSrc (actv s) = 1 then fpBest s (fun k => fpEnabled s k && (fpOf s k).present)
  else if tFrameSrc (actv s) = 2 && isTrunk s (tMfcPort (actv s))
      && inFrame (portOf s (tMfcPort (actv s))).trunk then some 2
  else none

/-- Blocks to the next reference instant of an input. Of a trunk in frame whose FI 0 has not come yet it is free
(log 5). -/
def realignWait (s : State) (k : Nat) : Nat × State :=
  match (fpOf s k).last with
  | some a => (instantWait s k a, s)
  | none => ((drawWord s).1.toNat % mfBlocks, (drawWord s).2)

/-- FP_REALIGN_STEP: the step at ACT_SFP, the last thing at its boundary (Table 14-17); every trunk loses frame alignment
(R54, R310). With no reference instant left there is no step. -/
def xFpRealignStep (s : State) : State :=
  if s.thy.pendRealign = some s.sfp then
    let s1 := onThy s (fun t => { t with pendRealign := none })
    match realignInput s1 with
    | some k =>
      let s2 := onThy (onFp s1 k (fun x => { x with good := 0, off := 0, missed := 0 })) (fun t => { t with fpAligned := true })
      let s3 := forEach allPorts s2 (fun t p => if isTrunk t p && inFrame (portOf t p).trunk then loseFrame t p else t)
      stepSfp (realignWait s3 k).2 (realignWait s3 k).1
    | none => s1
  else s
def execFpRealignAct (s : State) : Host.Outcome State Fault Refusal :=
  .next (live s (xFpRealignStep s))

/-! The multiframe count (R57 to R59). -/

/-- MFC_LEARN: the learned value takes effect at this epoch boundary. -/
def xMfcLearn (s : State) : State :=
  match s.thy.learned with
  | some v =>
    if isEpoch s.sfp && !s.thy.mfcValid && tMfcMode (actv s) && !isStandby s then
      let s1 := mfcChange (onThy s (fun t => { t with learned := none, learn1 := none, mfcValid := true })) v
      resend (trace s1 2 3 noObj (beBytes 6 s1.sfp.mfc))
    else s
  | none => s
def execMfcLearn (s : State) : Host.Outcome State Fault Refusal := .next (live s (xMfcLearn s))

/-- SET_MFC_ACT (R309). -/
def xSetMfcAct (s : State) : State :=
  match s.thy.pendMfc with
  | some (f, some v) =>
    if f = s.sfp then
      let s1 := mfcChange (onThy s (fun t => { t with pendMfc := none, mfcValid := true })) v
      resend (trace s1 2 5 noObj (beBytes 6 s1.sfp.mfc))
    else s
  | _ => s
def execSetMfcAct (s : State) : Host.Outcome State Fault Refusal := .next (live s (xSetMfcAct s))

/-- MFC_RELEARN_ACT: MFC_VALID and MFC_SRC_MISMATCH clear, the MFC keeps counting, learning runs again (R309). -/
def xMfcRelearnAct (s : State) : State :=
  match s.thy.pendMfc with
  | some (f, none) =>
    if f = s.sfp then onThy s (fun t => { t with pendMfc := none, mfcValid := false, mfcMism := false, learn1 := none,
                                                 learned := none })
    else s
  | _ => s
def execMfcRelearnAct (s : State) : Host.Outcome State Fault Refusal := .next (live s (xMfcRelearnAct s))

/-- SET_QL_ACT: the codes due at this boundary are recorded (R308). -/
def xSetQlAct (s : State) : State :=
  let due := s.thy.pendQl.filter (fun r => r.1 == s.sfp)
  reselect <| onThy s (fun t => { t with
    pendQl := t.pendQl.filter (fun r => r.1 != s.sfp)
    refinQl := due.foldl (fun w r => (List.range 4).foldl (fun w i => setBit w (4 * r.2.1 + i) (bit r.2.2 i)) w)
      t.refinQl })
def execSetQlAct (s : State) : Host.Outcome State Fault Refusal := .next (live s (xSetQlAct s))

/-- THYME_FORCE_ACT (R45, R308). -/
def xThymeForceAct (s : State) : State :=
  match s.thy.pendForce with
  | some (f, o) => if f = s.sfp then reselect (onThy s (fun t => { t with pendForce := none, force := o })) else s
  | none => s
def execThymeForceAct (s : State) : Host.Outcome State Fault Refusal := .next (live s (xThymeForceAct s))

/-! History and budget rows. -/

/-- A history entry from its 16 bytes (Table 03-1). -/
def histOfBytes (b : Bytes) : HistEntry :=
  { mfc := BitVec.ofNat 48 (pkNat b 0 6), freq := BitVec.ofNat 48 (pkNat b 6 6), temp := BitVec.ofNat 16 (pkNat b 12 2)
    valid := bit (b.getD 14 0) 7, faultSeen := bit (b.getD 14 0) 6, cand := BitVec.ofNat 4 (pk1 b 14)
    spread := b.getD 15 0 }
/-- The 16 bytes of a history entry. -/
def histBytes (e : HistEntry) : Bytes :=
  beBytes 6 e.mfc.toNat ++ beBytes 6 e.freq.toNat ++ beBytes 2 e.temp.toNat
    ++ [by1 (at1 e.valid 7 + at1 e.faultSeen 6 + e.cand.toNat), e.spread]

/-- HISTORY_SAMPLE: the entry of the interval that ends at this sample boundary (R64 to R66, Table 03-6). FREQ and SPREAD
of an interval through which the control value stood are that value and 0; of any other they are what the DPLL measured. A
synchronised standby takes its entries from the mirror (R219). -/
def xHistorySample (freq : BitVec 48) (spread : Nat) (temp : BitVec 16) (s : State) : State :=
  if isEpoch s.sfp && decide (s.sfp.mfc % 256 = 0) && decide (s.thy.ivEpochs ≠ some 0) then
    let bad := temp == 0x8000 || decide (temp.toInt < -880) || decide (2000 < temp.toInt)
    let t := if bad then 0x8000 else temp
    let s1 := if bad then sticky (cThy s 4) hThy 0x40 else s
    let e : HistEntry := { mfc := BitVec.ofNat 48 s.sfp.mfc, freq := s.thy.ivCtl.getD freq, temp := t
                           valid := s.thy.ivLocked && !s.thy.ivFault && !s.thy.ivRefChange
                             && decide (s.thy.ivEpochs = some 256)
                           faultSeen := s.thy.ivFault
                           cand := match s.thy.ref with
                             | some c => BitVec.ofNat 4 c
                             | none => 0xF
                           spread := BitVec.ofNat 8 (if s.thy.ivCtl.isSome then 0 else min 255 spread) }
    let s2 := onThy s1 (fun h => { h with
      hist := if mirrored s then h.hist else (e :: h.hist).take 4096
      sampleTemp := t, temp := t, ivLocked := true, ivFault := false, ivRefChange := false
      ivCtl := if ctlHeld s then some h.ctl else none, ivEpochs := some 0 })
    mirror s2 (.history (histBytes e))
  else s
where
  /-- The twin receives the mirror (R219). -/
  mirrored (s : State) : Bool := decide (s.pair.st = .standby) || decide (s.pair.st = .syncing)
def execHistorySample (freq : BitVec 48) (spread : Nat) (temp : BitVec 16) (s : State) :
    Host.Outcome State Fault Refusal :=
  .next (live s (xHistorySample freq spread temp s))

/-- The budget stands still from the boundary at which selection finds a candidate (R75). -/
def hbRuns (s : State) : Bool := decide (s.thy.st = .holdover) && s.thy.next.isNone && !isStandby s

/-- Blocks since the last evaluation of the budget. -/
def hbStep (s : State) : Nat :=
  match s.thy.hbAt with
  | some a => (sfpDist a s.sfp).toNat
  | none => 0

/-- The budget at an epoch boundary (R71, R72). A standby, whose HB_ACCUM and HB_REMAIN are the mirror's, counts the time
on (log 84). -/
def hbEval (s : State) : State :=
  let d := hbStep s
  if s.thy.st = .holdover ∧ isStandby s then onThy s (fun t => { t with hbT := t.hbT + d, hbAt := some s.sfp })
  else if hbRuns s && d != 0 then
    let t1 := s.thy.hbT + d
    let s1 := onThy s (fun t => { t with hbT := t1, hbAt := some s.sfp, hbAccum := t.hbAccum + hbY s t1 * (d * 64) })
    mirHoldover (onThy s1 (fun t => { t with hbRemain := hbRemainNow s1 }))
  else s

/-- HOLDOVER_EXPIRE: HB_ACCUM has reached HB_LIMIT (R73). -/
def xHoldoverExpire (s : State) : State :=
  if isEpoch s.sfp && hbRuns s && mayChange s && decide (hbLimit s ≤ s.thy.hbAccum) then resend (setBw (thyTo s .expired))
  else s
def execHoldoverExpire (s : State) : Host.Outcome State Fault Refusal := .next (live s (xHoldoverExpire s))

/-- Blocks in 24 hours (R74). -/
def dayBlocks24 : Nat := 135000000000000

/-- OCXO_DAY: 24 hours of the count have passed: one more day, saved (R74). Of a save that fails R74 says nothing: the
running value has advanced, the store keeps the old one, and nothing is repeated or counted (log 85). -/
def xOcxoDay (flashOk : Bool) (s : State) : State :=
  match s.thy.dayAt with
  | some a =>
    if (dayBlocks24 : Int) ≤ sfpDist a s.sfp then
      let d := min 65535 (s.thy.days + 1)
      let s1 := onThy s (fun t => { t with days := d, dayAt := some (sfpOff a dayBlocks24) })
      if flashOk then onFlash s1 (fun f => { f with days := some d, saves := f.saves + 1 }) else s1
    else s
  | none => s
def execOcxoDay (flashOk : Bool) (s : State) : Host.Outcome State Fault Refusal := .next (live s (xOcxoDay flashOk s))

/-! Outputs (R55, R56). -/

/-- An output is held low: disabled, squelched in this state, or gated with ALIVE_OUT (R56, R214). -/
def outputLow (s : State) (o : Nat) : Bool :=
  let q := oSquelch (actv s) o
  let st := s.thy.st
  oFreq (actv s) o == 0 || !holdsLines s || (decide (1 ≤ q) && decide (st = .freerun))
    || (decide (2 ≤ q) && decide (st = .expired)) || (q == 3 && decide (st = .holdover))

/-- Place in the multiframe of the rising edge of FPOUT_A (4) or FPOUT_B (5): FPOUT_OFFSET after the edge of the selected
input, which is its reference instant less its compensation, or after the epoch boundary (R55). -/
def fpOutPlace (s : State) (o : Nat) : Nat :=
  let edge : Nat := match (selFp s).bind (fun k => (fpOf s k).last) with
    | some a => a.fi * frameBlocks + a.bi
    | none => 0
  (((edge : Int) + (actv s (aOutCfg o + 4)).toInt) % (mfBlocks : Int)).toNat

/-- FPOUT o is high: 1,024 blocks from its rising edge, unless it is held low (R55, R56). -/
def fpOutHigh (s : State) (o : Nat) : Bool :=
  let e := if o = 4 then s.thy.fpOut.1 else s.thy.fpOut.2
  !outputLow s o && decide ((s.sfp.fi * frameBlocks + s.sfp.bi + mfBlocks - e) % mfBlocks < 1024)

/-- Thyme at an epoch boundary: the budget, the interval's count, the place of the output pulses, a learned value that did
not take effect counts on. -/
def thyEpoch (temp : BitVec 16) (s : State) : State :=
  let s1 := hbEval s
  onThy s1 (fun t => { t with
    temp := temp
    ivEpochs := t.ivEpochs.map (· + 1)
    fpOut := (fpOutPlace s1 4, fpOutPlace s1 5)
    fpCorr := (t.fpCorr.1, t.fpCorr.2 + 1)
    learned := t.learned.map (fun v => (v + 1) % mfcMod) })

/-- A 1 Hz output that a D3 strobe enables takes its phase there; which one is open (R56, log 5). -/
def clkStrobe (old : View) (s : State) (o : Nat) : State :=
  if oFreq (actv s) o = 1 ∧ oFreq old o ≠ 1 then
    let (w, s1) := drawWord s
    onThy s1 (fun t => { t with clkPh := tput none t.clkPh o (some (sfpAdd s.sfp (w.toNat % secBlocks))) })
  else if oFreq (actv s) o = 1 then s
  else onThy s (fun t => { t with clkPh := tput none t.clkPh o none })

/-- What a D3 strobe does to the candidates: a newly enabled one and one whose input changed start anew; a disabled one
is idle (R42). `old` is the configuration before the strobe. -/
def thyStrobe (old : View) (s : State) : State :=
  let s1 := forEach freqCands s (fun t c =>
    let input := fun (v : View) => (cLane v c, cFreq v c, cElec v c)
    if cPrio (actv t) c = 0 ∨ cPrio old c = 0 ∨ input old ≠ input (actv t) then onCand t c (fun _ => {}) else t)
  let s2 := forEach [0, 1, 2] s1 (fun t k =>
    if fpEnabled t k && (decide (k < 2) || tMfcPort old == tMfcPort (actv t)) then t else onFp t k (fun _ => {}))
  let s3 := forEach (List.range 4) s2 (fun t n =>
    if cFreq old (8 + n) = refinFreq t n then t else onRefin t n (fun _ => {}))
  let port := tMfcPort old == tMfcPort (actv s) && tMfcMode old == tMfcMode (actv s)
  let s4 := onThy s3 (fun t => { t with cfgAt := some s.sfp, learn1 := if port then t.learn1 else none })
  clkAlign (forEach (List.range 4) s4 (clkStrobe old))

end Sys2Proof.Machine
end

