-- ==== Sys2Proof/Machine/Validate.lean ====
section
/-! DEFINITION. Validation: the D3 check of R33 at acceptance and the freeze checks of Table 07-5 (R92, R171). -/

namespace Sys2Proof.Machine

open Sys2Proof

/-- Domain of a register in a commit domain. -/
def domOf (a : Nat) : Option Nat :=
  match kindAct a with
  | .rs d _ => some d
  | _ => none

/-- A number lies in a range. -/
def inR (lo hi v : Nat) : Bool := decide (lo ≤ v) && decide (v ≤ hi)
/-- A signed register lies within ± m. -/
def inS (m : Nat) (w : Word) : Bool := decide (w.toInt.natAbs ≤ m)
/-- A code of Table 02-2. -/
def qlCode (q : Nat) : Bool := q == 2 || q == 4 || q == 8 || q == 11 || q == 15

/-- One candidate's fields in range (Tables 02-8 and 14-3). -/
def d3Cand (v : View) (c : Nat) : Bool :=
  inR 0 600 (cHoldoff v c) && inR 0 840 (cWtr v c) && inR 0 6 (cFreq v c)
    && (decide (8 ≤ c) || (if cQlMode v c then qlCode (cFixedQl v c) else cFixedQl v c == 0))

/-- One output's fields in range (Table 14-3). -/
def d3Out (v : View) (o : Nat) : Bool :=
  inR 0 (if o < 4 then 6 else 1) (oFreq v o)
    && (if o < 4 then v (aOutCfg o + 4) == 0 else inS 5240575 (v (aOutCfg o + 4)))

/-- Every D3 field in range (Tables 02-8 and 03-4). -/
def d3Range (v : View) : Bool :=
  inR 0 2 (tFrameSrc v) && inR 0 13 (tAcqBw v) && inR 0 13 (tTrackBw v) && qlCode (tQlOwn v) && qlCode (tHoQl v)
    && inR 2 100 (tLockWindow v) && inR 1 100 (tFreqLimit v) && inR 16 4096 (tLockTime v)
    && inR 8 4096 (tFpWindow v) && inS 65535 (v (aThy + 0x01C)) && inS 65535 (v (aThy + 0x020))
    && inS 65535 (v (aThy + 0x024)) && inR 16 2048 (bits (v aHoCfg) 11 0) && inR 4 600 (bits (v aHoCfg) 25 16)
    && inR 1 2000 (bits (v aHbCfg0) 10 0) && inR 1 4000 (bits (v aHbCfg0) 27 16)
    && inR 1 500 (bits (v aHbCfg1) 8 0) && inR 1 10000 (bits (v aHbCfg1) 29 16)
    && inR 10 10000000 (bits (v aHbLimit) 23 0)
    && (List.range 14).all (d3Cand v) && (List.range 6).all (d3Out v)

/-- The D3 check: its detail code, 0 for a pass (R33, Table 13-1). -/
def d3Check (v : View) : Nat :=
  let lanes := ((List.range 8).filter (fun c => cPrio v c != 0)).map (cLane v)
  if !decide (lanes.Nodup) then 0x45
  else if [8, 9, 10, 11].any (fun c => cPrio v c != 0 && cFreq v c == 0) then 0x46
  else if d3Range v then 0 else 0x47

/-! Table 07-5. Each row answers the least index that fails it. -/

/-- The least element. -/
def least (l : List Nat) : Option Nat := l.min?

/-- The configuration that will be active after the strobe of a mask. -/
def afterView (s : State) (mask : BitVec 8) : View := fun a =>
  match domOf a with
  | some d => if bit mask d then stg s a else act s a
  | none => act s a
/-- The bank that will be active. -/
def afterBank (s : State) (mask : BitVec 8) : Bool := if bit mask 0 then !s.map.bActive else s.map.bActive
/-- Its entries. -/
def afterEntries (s : State) (mask : BitVec 8) : Tbl Entry := bankOf s.map (afterBank s mask)

/-- Groups with a D2 word that differs from its reset value in either view. -/
def cfgGroups (s : State) : List Nat :=
  let keys := s.regs.act.map (·.1) ++ s.regs.stg.map (·.1)
  allGroups.filter (fun g => keys.any (fun k => decide (aProt + 0x100 * g ≤ k) && decide (k < aProt + 0x100 * g + 0x100)))
/-- Enabled groups of a view. -/
def enGroups (s : State) (v : View) : List Nat := (cfgGroups s).filter (gEn v)

/-- Row 1. -/
def row1 (es : Tbl Entry) : Option Nat :=
  least ((es.filter (fun kv => eValid kv.2 &&
    (decide (79 < eSrcSlot kv.2) || decide (79 < eAltSlot kv.2) || decide (2047 < eGroup kv.2)))).map (·.1))

/-- Bits that a kind uses: VALID, KIND and HOLDER always (Table 07-2). -/
def usedBits (k : Nat) : Entry :=
  if k = 0 then 0xFFFF80000000_0000#64 ||| 0x00000000001FF800#64
  else if k = 1 then 0xFFFFFFFFFFFFFC00#64
  else 0xE000000000000000#64 ||| 0x00000000001FF800#64
/-- Row 2. -/
def row2 (es : Tbl Entry) : Option Nat :=
  least ((es.filter (fun kv => eValid kv.2 && (kv.2 &&& ~~~ usedBits (eKind kv.2)) != 0)).map (·.1))

/-- Row 3. -/
def row3 (v : View) (es : Tbl Entry) : Option Nat :=
  least ((es.filter (fun kv => eProt kv.2 && (decide (2047 < eGroup kv.2) || !gEn v (eGroup kv.2)
    || !(gMembers v (eGroup kv.2)).contains kv.1 || eSrc kv.2 == eAlt kv.2))).map (·.1))

/-- Row 4. -/
def row4 (v : View) (es : Tbl Entry) (gs : List Nat) : Option Nat :=
  least (gs.flatMap (fun g => (gMembers v g).filter (fun i => !eMemberOf (tget 0 es i) g)))

/-- Sources an entry names. -/
def srcsOf (e : Entry) : List Nat :=
  if !eValid e then [] else if eKind e = 0 then [eSrc e] else if eKind e = 1 then [eSrc e, eAlt e] else []
/-- Row 5: the first entry, in index order, that reads a source under a second holder. -/
def row5 (es : Tbl Entry) : Option Nat :=
  (es.foldl (fun (a : List (Nat × Nat) × Option Nat) kv =>
    let own := (srcsOf kv.2).map (fun g => (g, eHolder kv.2))
    let clash := own.any (fun x => a.1.any (fun y => y.1 == x.1 && y.2 != x.2))
    (a.1 ++ own, a.2.or (if clash then some kv.1 else none))) ([], none)).2

/-- A slot that its client port does not use. -/
def deadSlot (v : View) (g : Nat) : Bool :=
  let m := pMode v (g / 80)
  decide (2 ≤ m) && decide (m ≤ 6) && decide (modeSlots m ≤ g % 80)
/-- The egress entries of a client port break R135 as a whole. -/
def portBad (v : View) (es : Tbl Entry) (p : Nat) : Bool :=
  let m := pMode v p
  if decide (2 ≤ m) && decide (m ≤ 6) then
    let l := ((List.range (modeSlots m)).map (fun k => tget 0 es (p * 80 + k)))
    let ok := l.filter eValid
    if ok.isEmpty then false
    else if ok.length ≠ l.length then true
    else
      match ok with
      | [] => false
      | e :: t => t.any (fun x => eKind x != eKind e || ((eKind e == 0 || eKind e == 1) && eSrcPort x != eSrcPort e)
          || (eKind e == 1 && eAltPort x != eAltPort e))
  else false
/-- Row 6. -/
def row6 (v : View) (es : Tbl Entry) : Option Nat :=
  let one := (es.filter (fun kv => eValid kv.2 && (deadSlot v kv.1 || (srcsOf kv.2).any (deadSlot v)))).map (·.1)
  least (one ++ ((allPorts.filter (portBad v es)).map (· * 80)))

/-- The fields of a group whose change restarts it (Table 08-9), but for its ports. -/
def grpKey (v : View) (g : Nat) : Nat × Nat × Nat × List Nat := (gArch v g, gApsId v g, gHome v g, gMembers v g)
/-- Working and protection port of a group under a view and a bank. -/
def grpPorts (v : View) (es : Tbl Entry) (g : Nat) : Option (Nat × Nat) :=
  match (gMembers v g).min? with
  | some i => if eMemberOf (tget 0 es i) g then some (eSrcPort (tget 0 es i), eAltPort (tget 0 es i)) else none
  | none => none
/-- A D2 strobe restarts an enabled group. -/
def grpRestarts (old new : View) (oe ne : Tbl Entry) (g : Nat) : Bool :=
  gEn old g && gEn new g && (grpKey old g != grpKey new g || grpPorts old oe g != grpPorts new ne g)

/-- The delay lines after the strobe of a mask, and the groups with a member that finds no line: the lines of every group
that ceases to be errorless or starts anew are released, then those of the groups that begin are allotted (R201). -/
def linesAfter (s : State) (mask : BitVec 8) : MapSt × List Nat :=
  if bit mask 2 then
    let v := afterView s mask
    let was := fun g => gEn (actv s) g && gErrorless (actv s) g
    let will := fun g => gEn v g && gErrorless v g
    let again := fun g => grpRestarts (actv s) v (bankOf s.map s.map.bActive) (afterEntries s mask) g
    let gone := (cfgGroups s).filter (fun g => was g && (!will g || again g))
    let come := (cfgGroups s).filter (fun g => will g && (!was g || again g))
    allotLines (gone.foldl releaseLines s.map) (come.map (fun g => (g, gMembers v g)))
  else (s.map, [])
/-- Row 7: the group at which the members pass 1,024, groups with a line in a bank that is not ON, and groups that find no
line (R200, R201). -/
def row7 (s : State) (mask : BitVec 8) : Option Nat :=
  let v := afterView s mask
  let el := (enGroups s v).filter (gErrorless v)
  let tooMany := (el.foldl (fun (a : Nat × Option Nat) g =>
    let n := a.1 + (gMembers v g).length
    (n, a.2.or (if 1024 < n then some g else none))) (0, none)).2
  let after := linesAfter s mask
  let off := (after.1.lines.filter (fun kv =>
    (lineBanks kv.1).any (fun b => tget BankSt.on s.mem.align b != .on))).map (·.2.1)
  least (tooMany.toList ++ off ++ after.2)

/-- Row 8: uncorrectable words of the staged bank. -/
def row8 (s : State) : Option Nat :=
  let b := !s.map.bActive
  least ((s.map.ecc.filter (fun kv => kv.2 == 2 && decide (kv.1 / 65536 = b2n b))).map (fun kv => kv.1 % 65536))

/-- R180 for one enabled group. -/
def grpBad (v : View) (es : Tbl Entry) (gs : List Nat) (g : Nat) : Bool :=
  let mem := gMembers v g
  let ports := mem.map (fun i => (eSrcPort (tget 0 es i), eAltPort (tget 0 es i)))
  let one := match ports with
    | [] => true
    | p :: t => t.any (fun q => q != p) || p.1 == p.2 || (gApsEn v g && pMode v p.2 != 1)
  let others := gs.filter (· != g)
  let aps := gApsEn v g && others.any (fun h => gApsEn v h
    && (grpPorts v es h).map (·.2) == (grpPorts v es g).map (·.2)
    && (gApsId v h == gApsId v g || gHome v h == gHome v g))
  one || aps || others.any (fun h => (gMembers v h).any mem.contains) || !decide (mem.Nodup)
/-- Fields of Table 08-1 in range. -/
def grpRange (v : View) (g : Nat) : Bool :=
  inR 0 2 (gArch v g) && inR 0 100 (gHoldoff v g) && inR 1 12 (gWtr v g) && inR (b2n (gEn v g)) 80 (gCount v g)
    && (gMembers v g).all (fun i => decide (i < 10240))
/-- Row 9. -/
def row9 (s : State) (mask : BitVec 8) : Option Nat :=
  let v := afterView s mask
  let es := afterEntries s mask
  let gs := enGroups s v
  least (gs.filter (grpBad v es gs)
    ++ (if bit mask 2 then (cfgGroups s).filter (fun g => !grpRange v g) else []))

/-- Row 10. -/
def row10 (v : View) (mask : BitVec 8) : Option Nat :=
  let d1 := if bit mask 1 then
      ((allPorts.filter (fun p => !(inR 0 6 (pMode v p) && inR 0 2 (pLoop v p) && inR 1 16 (pEbDepth v p)
        && inR 1 255 (pFecFail v p) && inR 1 16777215 (pFecDeg v p)))).map (· * 80))
      ++ (((List.range 64).filter (fun m => decide (10240 ≤ bits (v (aTpChk m)) 13 0))).map (0x4000 + ·))
    else []
  let d4 := if bit mask 4 then (allPorts.filter (fun p => !inR 16 1024 (pDropMargin v p))).map (· * 80) else []
  least (d1 ++ d4)

/-- Row 11. -/
def row11 (v : View) : Option Nat := least ((List.range 16).filter (fun n => decide (10 < gpioFunc v n)))

/-- Row 12. -/
def row12 (v : View) (mask : BitVec 8) : Option Nat :=
  let d5 := if bit mask 5 then
      ((allPorts.filter (fun p => !(inR 1 1024 (bits (v (aBwWin p)) 10 0) && inR 1518 16376 (pMonMax v p)))).map (· * 80))
      ++ (if bit (v (aPctrCfg 63)) 1 then [63] else [])
      ++ (if 4 < evTransport v then [0xFFFF] else [])
    else []
  let d7 := if bit mask 7 ∧ (inR 8 16383 (swapGap v) && inR 16 4096 (txWatch v)) = false then [0xFFFF] else []
  least (d5 ++ d7)

/-- A row and the index it reports. -/
def asRow (n : Nat) (o : Option Nat) : Option (Nat × Nat) := o.map (fun i => (n, i))

/-- The rows of Table 07-5 in order, each where its domains are named: the first that fails. -/
def firstRow (s : State) (mask : BitVec 8) : Option (Nat × Nat) :=
  let v := afterView s mask
  let es := afterEntries s mask
  let gs := enGroups s v
  let m012 := bit mask 0 || bit mask 1 || bit mask 2
  let on := fun (b : Bool) (o : Option (Nat × Nat)) => if b then o else none
  on m012 (asRow 1 (row1 es)) |>.or <| on m012 (asRow 2 (row2 es)) |>.or <| on m012 (asRow 3 (row3 v es))
    |>.or <| on m012 (asRow 4 (row4 v es gs)) |>.or <| on m012 (asRow 5 (row5 es))
    |>.or <| on (bit mask 0 || bit mask 1) (asRow 6 (row6 v es)) |>.or <| on m012 (asRow 7 (row7 s mask))
    |>.or <| on (bit mask 0) (asRow 8 (row8 s)) |>.or <| on m012 (asRow 9 (row9 s mask))
    |>.or <| asRow 10 (row10 v mask) |>.or <| on (bit mask 6) (asRow 11 (row11 v)) |>.or <| asRow 12 (row12 v mask)

end Sys2Proof.Machine
end

