-- ==== Sys2Proof/Machine/Commit.lean ====
section
/-! DEFINITION. The commit unit (file 04): arming, validation, the strobe with what it does in each domain, reports. -/

namespace Sys2Proof.Machine

open Sys2Proof

/-- Indices of the entries that satisfy a condition. -/
def entsWhere (s : State) (p : CommitEnt → Bool) : List Nat := (s.com.ents.filter (fun kv => p kv.2)).map (·.1)

/-- COMMIT_ARM: at (E−1):00:0 the entry for E is ARMED and its domains freeze (R92). -/
def xCommitArm (s : State) : State :=
  let e := (s.sfp.mfc + 1) % mfcMod
  if isEpoch s.sfp then
    match (s.com.ents.find? (fun kv => decide (kv.2.st = .pending) && kv.2.epoch == e)) with
    | some (i, ent) =>
      onCom (onEnt s i (fun x => { x with st := .armed, validating := true }))
        (fun c => { c with frozen := ent.mask, frozenTo := e })
    | none => s
  else s
def execCommitArm (s : State) : Host.Outcome State Fault Refusal := .next (live s (xCommitArm s))

/-- COMMIT_VALIDATION_DONE: firmware has validated the armed entry: it stays ARMED or becomes DISCARDED (R92, R171). A
failure of the D3 ranges names a row the manual does not number (log 5): it is reported where no numbered row fails
(log 91). A standby takes the active's outcome (R219). -/
def xCommitValidationDone (s : State) : State :=
  if s.seq.running && !isStandby s then
    match s.com.ents.find? (fun kv => decide (kv.2.st = .armed) && kv.2.validating) with
    | some (i, ent) =>
      match firstRow s ent.mask with
      | some (r, x) => mirror (entOut s i .discarded 1 r x) (.validation ent.epoch r x)
      | none =>
        if bit ent.mask 3 && d3Check (afterView s ent.mask) != 0 then
          let (r, s1) := freeReason s
          mirror (entOut s1 i .discarded 1 r 0) (.validation ent.epoch r 0)
        else mirror (onEnt s i (fun x => { x with validating := false })) (.validation ent.epoch 0 0)
    | none => s
  else s
def execCommitValidationDone (s : State) : Host.Outcome State Fault Refusal := .next (live s (xCommitValidationDone s))

/-! The strobe. -/

/-- Copy the staged words of the domains of a mask to the active views (R86). -/
def copyViews (r : RegSt) (mask : BitVec 8) : RegSt :=
  let keys := (r.act.map (·.1) ++ r.stg.map (·.1)).filter (fun a => match domOf a with
    | some d => bit mask d
    | none => false)
  { r with act := keys.foldl (fun t a => tput (regReset a) t a (tget (regReset a) r.stg a)) r.act }

/-- What an egress slot reads under an entry: 0 unequipped, 1 idle-fill, 2 test-pattern, else its source (R160). -/
def effSource (e : Entry) : Nat :=
  if !eValid e then 0 else if eKind e = 0 then 3 + eSrc e
  else if eKind e = 1 then 3 + (if eSel e then eAlt e else eSrc e) else if eKind e = 2 then 1 else 2

/-- The bank swap: roles exchanged, MAP_SWAP_CHANGED set, generators of new test-pattern entries start from a new
state, the next of the free seeds (R150, R172). -/
def bankSwap (s : State) : State :=
  let old := fun i => activeEntry s i
  let new := fun i => stagedEntry s i
  let ks := mapKeys s.map
  let n := (ks.filter (fun i => effSource (old i) != effSource (new i))).length
  let begun := ks.filter (fun i => effSource (new i) == 2 && effSource (old i) != 2)
  let seed := fun i => genSeed (pTpPoly (actv s) (i / 80)) (Config.tpSeed (10240 + s.fresh + i))
  onMap { s with fresh := s.fresh + 10240 } (fun m => { m with
    bActive := !m.bActive, changed := n, gen := begun.foldl (fun t i => tset t i (seed i)) m.gen })

/-- The groups that have member entries in a bank. -/
def groupsIn (m : MapSt) (b : Bool) : List Nat := (((bankOf m b).map (·.2)).filter eProt).map eGroup |>.eraseDups

/-- Groups left without member entries return to their defaults and, errorless, to a measurement anew; one that this
strobe disables has lost its state already (R175, R209). `was` is the bank active before. -/
def dropGroups (s : State) (was : Bool) : State :=
  let gs := (groupsIn s.map was).filter (fun g => (membersIn s.map (!was) g).isEmpty)
  forEach gs s (fun t g =>
    let t1 := if (grpOf t g).en then grpDefaults t g else t
    let t2 := if (grpOf t1 g).eq = .off then t1 else eqStart t1 g
    cCore (sticky t2 hProt 8) 5)

/-- A port whose MODE changes: the old mode's receive side goes, the new one starts unlocked (R129, R146, R156,
Table 05-13, R395). -/
def modeChange (s : State) (p new : Nat) : State :=
  let s1 := flushChannel (mgmtDiscard s p) p
  let base := fun (x : PortSt) => { x with
    trunk := {}, client := {}, fillLf := true, ql := 0xF, qlStale := false, urgent := [], txRdi := false, egOwe := 0
    eg := { pad := 64 }, line := [], near := [], fecCw := 0, fecGood := 0, fecSym := 0, degLast := false, degGood := 0 }
  let raw0 := (portOf s p).raw
  if new = 0 then onPort s1 p (fun x => { base x with raw := 0x0003, rep := 0x0003, chg := [] })
  else
    let raw := (if (portOf s p).rep = 0x0003 then 0x0003 else raw0 &&& 0x0001) ||| 0x0002
      ||| (if new = 1 then 0x0030#16 else 0)
    let s2 := onPort s1 p (fun x => { base x with
      raw := raw
      client := if 2 ≤ new then { esmcAge := some 0 } else {} })
    if (portOf s p).rep = 0x0003 then onPort s2 p (fun x => { x with rep := 0x0001, chg := [] }) else settle s2 p

/-- A centring of a trunk whose buffer runs: positions coincide where the present fill leaves the same (R121). -/
def recentre (s : State) (p : Nat) : State :=
  match (portOf s p).trunk.fill with
  | some f => trunkCentre s p f
  | none => s

/-- A loopback change on a port whose mode stays (R148). A client's loopback buffer starts centred at its T of 128. -/
def loopChange (s0 : State) (p old new : Nat) : State :=
  let s := onPort (onClient s0 p (fun c => { c with loop := if new = 2 then { pad := 128 } else {} })) p
    (fun x => { x with near := [] })
  if isTrunk s p then
    if old = 1 ∨ new = 1 then settle (loseFrame s p) p else recentre s p
  else if anySf (declNow (portOf s p)) then settle s p
  else settle (clientCentre s p (targetFill s p)) p

/-- A depth change on a port whose mode stays (R121, Tables 05-13 and 06-5): a port in a defect has no fill to centre. -/
def depthChange (s : State) (p : Nat) : State :=
  if anySf (declNow (portOf s p)) then s
  else if isTrunk s p then recentre s p
  else if (portOf s p).client.centred then clientCentre s p (targetFill s p) else s

/-- What a D1 strobe does to one port. -/
def portStrobe (old : View) (s : State) (p : Nat) : State :=
  let v := actv s
  if pMode old p ≠ pMode v p then modeChange s p (pMode v p)
  else if pMode v p = 0 then s
  else
    let s1 := if pLoop old p ≠ pLoop v p then loopChange s p (pLoop old p) (pLoop v p) else s
    let s2 := if pEbDepth old p ≠ pEbDepth v p ∧ pLoop old p = pLoop v p then depthChange s1 p else s1
    if pMode v p = 1 ∧ (pTtiCheck old p ≠ pTtiCheck v p ∨ ttiOf old (aExpTti p) ≠ ttiOf v (aExpTti p)) then judgeTim s2 p
    else s2

/-- Checkers whose assignment changes start out of sync (R151). -/
def chkStrobe (old : View) (s : State) (m : Nat) : State :=
  if old (aTpChk m) = act s (aTpChk m) then s else onChk s m (fun _ => {})

/-- The equaliser of a group after a strobe that starts or ends it: one change of state (R201, R209). -/
def eqStrobe (s : State) (g : Nat) : State :=
  if gEn (actv s) g && gErrorless (actv s) g then eqStart s g
  else if (grpOf s g).eq = .off then s else eqStop s g

/-- A group that a strobe disables loses all but its SEQ and the requests still to act, which find it disabled (R196,
R293). -/
def grpDisable (s : State) (g : Nat) : State :=
  let p := (grpOf s g).pend
  onGrp (eqStrobe (grpDefaults s g) g) g (fun x => { x with en := false, pend := p, txMsg := none, egSel := false, eqPend := none })

/-- A group that starts at its defaults, its pending requests kept: they act after the strobe (R293). One newly enabled
has sent no message yet (R506). -/
def grpRestart (s : State) (g : Nat) (anew : Bool) : State :=
  let p := (grpOf s g).pend
  eqStrobe (onGrp (grpDefaults s g) g (fun x => { x with
    en := true, pend := p, txMsg := if anew then none else x.txMsg })) g

/-- A running group whose configuration changes without a restart (Table 08-9, R185, R201, R295). -/
def grpTune (old : View) (s : State) (g : Nat) : State :=
  let v := actv s
  let x := grpOf s g
  let s1 := onGrp s g (fun x => { x with grant := if old (aGrpCfg g) = v (aGrpCfg g) then x.grant else false })
  let s2 := if !gRevert v g && decide (x.stReq.toNat = 2) then onGrp s1 g (fun x => { x with stReq := 1 })
    else if gRevert v g && decide (x.stReq.toNat = 1) then
      onGrp s1 g (fun x => { x with stReq := 2, wtrRun := 0, wtrNew := s.frameDone != some s.sfp })
    else s1
  let s3 := if gApsEn v g then s2 else onGrp s2 g (fun x => { x with txMsg := none })
  if gErrorless v g != gErrorless old g then eqStrobe s3 g else s3

/-- What a D2 strobe does to one group (R196, R201, Table 08-9). `oe` are the entries active before the strobe. -/
def grpStrobe (old : View) (oe : Tbl Entry) (s : State) (g : Nat) : State :=
  let v := actv s
  if gEn old g && !gEn v g then grpDisable s g
  else if !gEn old g && gEn v g then grpRestart s g true
  else if grpRestarts old v oe (bankOf s.map s.map.bActive) g then grpRestart s g false
  else if gEn v g then grpTune old s g else s

/-- A D2 strobe rewrites the protection table: groups held by a table error are released (Table 08-10). -/
def releaseHeld (s : State) : State :=
  forEach ((s.grps.filter (fun kv => kv.2.tblErr)).map (·.1)) s (fun t g => onGrp t g (fun x => { x with tblErr := false }))

/-- The end of a bandwidth window of w multiframes: its counts are latched (R421). -/
def bwLatch (s : State) (p w : Nat) : State :=
  onPort s p (fun x => { x with bwLast := some (w, s.sfp, x.bwIn, x.bwEg), bwIn := 0, bwEg := 0 })
/-- A changed window: one that ends at this epoch is latched, then a new series begins; the present epoch boundary is
still to be counted (R421, Table 19-7). -/
def bwRestart (old v : View) (s : State) (p : Nat) : State :=
  let s1 := if (portOf s p).bwLeft = some 1 then bwLatch s p (bwWin old p) else s
  onPort s1 p (fun x => { x with bwLeft := some (bwWin v p + 1), bwIn := 0, bwEg := 0 })

/-- What a D5 strobe does: changed programmable counters start at 0, changed windows start anew, a changed EVT_CFG
empties the event queue (R418, R421, R443). -/
def obsStrobe (old : View) (s : State) : State :=
  let v := actv s
  let s1 := forEach (List.range 64) s (fun t n =>
    if old (aPctrCfg n) = v (aPctrCfg n) ∧ old (aPctrEvt n) = v (aPctrEvt n) then t
    else onSage t (fun q => { q with pctr := tput 0 q.pctr n 0, recentP := q.recentP.filter (fun x => x.1 != n) }))
  let s2 := forEach allPorts s1 (fun t p =>
    if old (aBwWin p) = v (aBwWin p) then t else bwRestart old v t p)
  if old aEvtCfg = v aEvtCfg then s2 else onSage s2 (fun q => { q with events := [] })

/-- The level a pin's keeper takes over at the strobe: the level last driven, or sampled for an input. EPOCH, SAMPLE and
STROBE are low just before an epoch boundary (Tables 22-6, 22-7). -/
def keptLevel (s : State) (n : Nat) : Bool :=
  let c := tget 0 s.pins.func n
  if c = 0 then bit s.pins.gpioIn n else if c = 5 then s.pair.aliveOut
  else if c = 7 ∨ c = 8 ∨ c = 9 then false else bit s.pins.level n

/-- What a D6 strobe does: a pin whose code changes is released to its keeper for one frame (R479). -/
def pinStrobe (old : View) (s : State) : State :=
  forEach (List.range 16) s (fun t n =>
    if gpioFunc old n = gpioFunc (actv t) n then t
    else onPins t (fun p => { p with
      switching := tset p.switching n 2, level := setBit p.level n (keptLevel t n), func := tdel p.func n }))

/-- The stage 1 entry of AUTO_RESTORE strobes: each REFIN takes its saved QL (R459). -/
def autoStrobe (s : State) (stage : Nat) : State :=
  if stage = 1 then
    let ql := match s.flash.cfg with
      | some c => c.ql
      | none => s.thy.refinQl
    onAuto (onThy s (fun t => { t with refinQl := ql }))
      (fun a => { a with stage := .waitLock, strobe1 := some s.sfp, retried := false })
  else if stage = 2 then onAuto s (fun a => { a with stage := .done })
  else s

/-- The entries that strobe now: ARMED, for this epoch. -/
def dueEnts (s : State) : List Nat := entsWhere s (fun e => decide (e.st = .armed) && e.epoch == s.sfp.mfc)

/-- What the new active configuration of the domains of a mask does in each of them, but for PAIR_EN: `old` is the view
before, `was` the bank that was active, `lines` the delay lines that result (R86, R93, R201). -/
def afterCopy (old : View) (was : Bool) (lines : MapSt) (mask : BitVec 8) (s1 : State) : State :=
  let oe := bankOf s1.map was
  let s2 := if bit mask 1 then forEach (List.range 64) (forEach allPorts s1 (portStrobe old)) (chkStrobe old) else s1
  let s3 := if bit mask 3 then thyStrobe old s2 else s2
  let s4 := if bit mask 2 then
      let t := onMap s3 (fun m => { m with lines := lines.lines, lineMem := lines.lineMem })
      forEach (cfgGroups t) (releaseHeld t) (grpStrobe old oe)
    else s3
  let s5 := if bit mask 0 then dropGroups s4 was else s4
  let s6 := if bit mask 5 then obsStrobe old s5 else s5
  if bit mask 6 then pinStrobe old s6 else s6

/-- The update strobe over a mask: every view and the banks in one cycle, then what follows in each domain (R86,
R93). -/
def strobe (s : State) (mask : BitVec 8) : State :=
  let old := actv s
  let r := onRegs s (fun r => copyViews r mask)
  let s7 := afterCopy old s.map.bActive (linesAfter s mask).1 mask (if bit mask 0 then bankSwap r else r)
  let moved := (List.range 1024).filter (fun l => tfind s.map.lines l != tfind s7.map.lines l)
  let s8 := if bit mask 2 then forEach moved s7 (fun t l => mirror t (.allot l (tfind s7.map.lines l))) else s7
  if bit mask 7 && pairEn old != pairEn (actv s8) then pairEnStrobe s8 (pairEn (actv s8)) else s8

/-- COMMIT_STROBE: at E:00:0 every ARMED entry for E applies; the freeze ends (R92, R93). -/
def xCommitStrobe (s : State) : State :=
  let l := dueEnts s
  if isEpoch s.sfp && !l.isEmpty then
    let mask := l.foldl (fun (m : BitVec 8) i => match tfind s.com.ents i with
      | some e => m ||| e.mask
      | none => m) 0
    let autos := l.filterMap (fun i => (tfind s.com.ents i).map (·.auto))
    let s1 := strobe s mask
    let n := if bit mask 0 then s1.map.changed else 0
    let s2 := forEach l s1 (fun t i => onEnt (entOut t i .applied 0 0 0) i (fun e => { e with changed := n }))
    forEach autos (onCom s2 (fun c => { c with frozen := 0, strobeAt := some s.sfp })) autoStrobe
  else s
def execCommitStrobe (s : State) : Host.Outcome State Fault Refusal := .next (live s (xCommitStrobe s))

/-- Counter index, subtype and reason of an outcome's report (R94, Table 19-4). -/
def outIdx : EntState → Nat
  | .pending => 0 | .armed => 0 | .applied => 0 | .cancelled => 1 | .discarded => 2

/-- The report of one entry; it becomes FREE (R91, R94). An AUTO_RESTORE whose commit does not apply ends (R459). -/
def reportEnt (s : State) (i : Nat) : State :=
  match tfind s.com.ents i with
  | some e =>
    let k := outIdx e.st
    let mask := if e.st = .cancelled then e.removed else e.mask
    let why := if e.st = .cancelled then 3 else e.reason
    let s1 := cCom (sticky s hCommit (word (2 ^ k))) k
    let s2 := if e.st = .discarded ∧ e.reason = 2 then sticky s1 hCommit 8 else s1
    let s3 := traceAt s2 (epochAt e.epoch) 1 (k + 1) i ([by1 mask.toNat, by1 why] ++ beBytes 6 e.epoch ++ beBytes 2 e.changed
      ++ beBytes 2 e.idx ++ [by1 e.row])
    let s4 := onCom s3 (fun c => { c with lastEpoch := e.epoch, ents := tdel c.ents i })
    if e.auto ≠ 0 ∧ e.st ≠ .applied then onAuto s4 (fun a => { a with stage := .done }) else s4
  | none => s

/-- COMMIT_REPORT: the first frame boundary after an outcome (R94). -/
def xCommitReport (s : State) : State :=
  forEach (entsWhere s (fun e => !entOpen e && e.outAt != some s.sfp)) s reportEnt
def execCommitReport (s : State) : Host.Outcome State Fault Refusal := .next (liveFrame s (xCommitReport s))

/-- A new entry takes the lowest FREE index (R91). -/
def freeEnt (s : State) : Option Nat := (List.range 16).find? (fun i => (tfind s.com.ents i).isNone)

/-- EARLIEST: the lowest epoch that meets the lead-time rule from an acceptance position (R89, R300). -/
def earliest (a : Sfp) : Nat := (a.mfc + (if isEpoch a then 2 else 3)) % mfcMod

/-- Checks 6 to 10 of Table 04-3 against an acceptance position: the first failing one's status and detail. -/
def commitRefuse (s : State) (a : Sfp) (mask : BitVec 8) (e : Nat) : Option (Byte × Byte) :=
  let d3 := if bit mask 3 then d3Check (stgv s) else 0
  if sfpDist a (epochAt e) < twoMfs then some (9, 0)
  else if 268435456 < mfcDiff a.mfc e then some (8, 0x43)
  else if (s.com.suspect &&& mask) != 0 then some (4, 6)
  else if d3 ≠ 0 then some (8, by1 d3)
  else if (entFor s e).isNone && (freeEnt s).isNone then some (4, 4)
  else none

/-- A COMMIT that passed its checks makes its entry, or merges into the one for its epoch (R90, R91). -/
def commitEnter (s : State) (mask : BitVec 8) (e : Nat) (grp : Bool) (dest : BitVec 12) (mr : BitVec 16 × BitVec 32)
    (auto : Nat) : State :=
  match entFor s e with
  | some (i, _) =>
    onEnt s i (fun x => { x with mask := x.mask ||| mask, count := x.count + 1,
                                 recs := if x.recs.length < 4 then x.recs ++ [mr] else x.recs
                                 auto := if x.auto = 0 then auto else x.auto })
  | none =>
    match freeEnt s with
    | some i =>
      let x : CommitEnt := { epoch := e, mask := mask, grp := grp, dest := dest, recs := [mr], auto := auto }
      entPut s i x
    | none => s

end Sys2Proof.Machine
end

