-- ==== Sys2Proof/Machine/Pair.lean ====
section
/-! DEFINITION. The twin pair (file 10): what the state of the link does, takeover, the role swap, arbitration and the start
of AUTO_RESTORE (file 21). -/

namespace Sys2Proof.Machine

open Sys2Proof

/-! What the state of the link does to the pair. -/

/-- Mirror compatibility level of the running image (R217). -/
def ownCompat (s : State) : Byte := Config.imageCompat (if s.seq.imageB then s.flash.imgB else s.flash.imgA)

/-- ALIVE_DISAGREE: ALIVE_IN low while a live heartbeat says ALIVE (R227). -/
def disagreeEval (s : State) : State :=
  let alive := match s.pair.peer with
    | some (_, _, a, _) => a
    | none => false
  let d := isStandby s && !s.pair.aliveIn && alive && !chiveSilent s
  let s1 := onPair s (fun p => { p with disagree := d })
  if d && !s.pair.disagree then pairSticky s1 1 else s1

/-- TAKEOVER_BLOCKED: both conditions on a standby that is not synchronised (R227). -/
def blockedEval (s : State) : State :=
  let unsync := decide (s.pair.st = .unsynced) || decide (s.pair.st = .syncing)
  if unsync && !s.pair.aliveIn && chiveSilent s && !s.pair.blocked then
    pairSticky (cPair (onPair s (fun p => { p with blocked := true })) 2) 3
  else s

/-- A resync begins with its Link phase: STANDBY_SYNCING, the sequencer busy with it (R230, R232). -/
def startResync (s : State) : State :=
  onPair (pairTo (onPair s (fun p => { p with resync := true })) .syncing 0)
    (fun p => { p with phase := 1, phaseAt := [s.sfp], journal := [], auditBad := [], hbSlices := [] })

/-- A resync that fails (R232, R233). -/
def failResync (s : State) (detail : Byte) (why : Nat) : State := pairTo (endResync s 4 detail []) .unsynced why

/-- ALIVE_IN_CHANGE: the level after its deglitch of 64 blocks (R224, R227, R235). -/
def xAliveInChange (level : Bool) (s : State) : State :=
  let s1 := onPair s (fun p => { p with
    aliveIn := level
    blocked := p.blocked && !level
    swapped := match p.swapped with
      | some f => if level && decide (sfpDist f s.sfp ≤ 2048) then none else some f
      | none => none })
  let s2 := if level && decide (s1.pair.st = .standby) && chiveSilent s1 then pairTo s1 .unsynced 2 else s1
  blockedEval (disagreeEval s2)
def execAliveInChange (level : Bool) (s : State) : Host.Outcome State Fault Refusal :=
  .next (live s (xAliveInChange level s))

/-- The hash of an authority slot: SHA-256 over key, class and holder ID (R219). The manual does not give the bytes that
are hashed: the hash of a slot is a constant of the module's contents (log 33). -/
def authHash (s : State) (slot : Nat) : Bytes :=
  let a : AuthSt := tget {} s.vcp.auths slot
  Config.authHash a.key a.cls a.holder

/-! Taking and leaving the lines. -/

/-- The ports whose far end reports a failure now: RDI on a trunk, RF on a client (R236). -/
def farBad (s : State) : BitVec 128 :=
  maskOf 128 (allPorts.filter (fun p =>
    (isTrunk s p && bit (portOf s p).rep dRdi) || (isClient s p && bit (portOf s p).rep dRf)))

/-- The transmit watch begins (R236). -/
def startWatch (s : State) : State :=
  onPair s (fun p => { p with watch := some (sfpAdd s.sfp (txWatch (actv s) * mfBlocks), farBad s), watchNew := 0 })

/-- TX_SUSPECT marks the ports that newly report a failure in this watch; the event lists those it has marked (R236). -/
def txSuspectEval (s : State) : State :=
  match s.pair.watch with
  | some (_, was) =>
    let m := s.pair.watchNew ||| (farBad s &&& ~~~was)
    if m = s.pair.watchNew then s
    else trace (pairSticky (cPair (onPair s (fun p => { p with txSuspect := p.txSuspect ||| m, watchNew := m })) 6) 7) 6 6
      noObj (beBytes 16 m.toNat)
  | none => s

/-- Every hold-off and WTR count of the protection table has run on since its stamp (R226). -/
def runOn (s : State) : State :=
  match s.pair.stamp with
  | some f =>
    let n := (sfpDist f (frameOf s.sfp)).toNat / frameBlocks
    let c := fun (x : CondSt) => if x.present && !x.raised then { x with run := x.run + n } else x
    forEach (enabledGroups s) s (fun t g => onGrp t g (fun x => { x with
      sf := c x.sf, sfp := c x.sfp, sd := c x.sd, wtrRun := if x.stReq.toNat = 2 then x.wtrRun + n else x.wtrRun }))
  | none => s

/-- Thyme goes on from the mirrored state: HOLDOVER and HOLDOVER_EXPIRED with the mirrored value, FREERUN with 0, the
others with the control value that stands (R70, R226). -/
def thyTake (s : State) : State :=
  onThy s (fun t => { t with ctl := match t.st with
    | .holdover => t.hoFreq
    | .expired => t.hoFreq
    | .freerun => 0
    | .acquiring => t.ctl
    | .locked => t.ctl })

/-- TAKEOVER (R224, R226, R443). The drivers are enabled at once (log 87). -/
def xTakeover (s : State) : State :=
  if s.pair.st = .standby ∧ pairEn (actv s) ∧ s.pair.aliveIn = false ∧ chiveSilent s then
    let s1 := pairSticky (cPair (onPair (thyTake (runOn s)) (fun p => { p with swap := none, swapped := none })) 1) 6
    let s2 := pairChange (mirFlush s1) 2 .active 0
    startWatch (forEach allPorts s2 mgmtDiscard)
  else s
def execTakeover (s : State) : Host.Outcome State Fault Refusal := .next (live s (xTakeover s))

/-- PAIR_SWAP_EXECUTE: at a confirmed F the old active leaves the lines (R234, R443). With ALIVE_IN high already there is
nothing to wait for (R235). -/
def xPairSwapExecute (s : State) : State :=
  match s.pair.swap with
  | some (f, c) =>
    if f = s.sfp ∧ c ∧ s.pair.st = .active then
      pairTo (onPair (mirFlush s) (fun p => { p with
        swap := none, swapped := if p.aliveIn then none else some f, watch := none })) .standby 0
    else s
  | none => s
def execPairSwapExecute (s : State) : Host.Outcome State Fault Refusal := .next (live s (xPairSwapExecute s))

/-- PAIR_SWAP_ASSUME: at F:64 the standby that sees ALIVE_IN low takes the lines, its drivers transmitting from
F:SWAP_GAP; one that still sees it high stays (R234, R235, R443). -/
def xPairSwapAssume (s : State) : State :=
  match s.pair.swap with
  | some (f, _) =>
    if sfpAdd f 64 = s.sfp then
      let s1 := onPair s (fun p => { p with swap := none })
      if s.pair.st = .standby ∧ s.pair.aliveIn = false then
        let s2 := pairChange (mirFlush (thyTake (cPair s1 4))) 3 .active 0
        startWatch (onPair s2 (fun p => { p with txFrom := some (sfpAdd f (swapGap (actv s))) }))
      else s1
    else s
  | none => s
def execPairSwapAssume (s : State) : Host.Outcome State Fault Refusal := .next (live s (xPairSwapAssume s))

/-- PAIR_SWAP_ABORT: not confirmed by (F−1):0 (R235). The reason's code is not given: a free byte (log 5). -/
def xPairSwapAbort (s : State) : State :=
  match s.pair.swap with
  | some (f, c) =>
    if isFrame s.sfp ∧ nextFrame s.sfp = f ∧ c = false ∧ s.pair.st = .active then
      let (r, s1) := freeReason s
      swapAbort s1 r
    else s
  | none => s
def execPairSwapAbort (s : State) : Host.Outcome State Fault Refusal := .next (live s (xPairSwapAbort s))

/-- PAIR_SWAP_REVERT: at F:4096 the old active that saw no ALIVE_IN takes the lines again (R235). -/
def xPairSwapRevert (s : State) : State :=
  match s.pair.swapped with
  | some f =>
    if sfpAdd f 4096 = s.sfp ∧ s.pair.st = .standby then
      let (r, s1) := freeReason (cPair (onPair s (fun p => { p with swapped := none })) 5)
      pairChange s1 4 .active r
    else s
  | none => s
def execPairSwapRevert (s : State) : Host.Outcome State Fault Refusal := .next (live s (xPairSwapRevert s))

/-- TX_WATCH_END (R236). -/
def xTxWatchEnd (s : State) : State :=
  match s.pair.watch with
  | some (e, _) =>
    if 0 ≤ sfpDist e s.sfp then onPair (txSuspectEval s) (fun p => { p with watch := none }) else s
  | none => s
def execTxWatchEnd (s : State) : Host.Outcome State Fault Refusal := .next (live s (xTxWatchEnd s))

/-- FORCE_ACTIVE_ACT: at its frame boundary (R229). -/
def xForceActiveAct (s : State) : State :=
  if s.pair.force = some s.sfp then
    let s1 := onPair s (fun p => { p with force := none, blocked := false })
    if s.pair.st = .unsynced ∨ s.pair.st = .syncing then pairTo (endResync s1 4 9 []) .active 0 else s1
  else s
def execForceActiveAct (s : State) : Host.Outcome State Fault Refusal := .next (live s (xForceActiveAct s))

/-- The pair at a frame boundary: arbitration, dual actives, the transmit watch (R228, R236, R238). -/
def pairFrame (s : State) : State :=
  let p := s.pair
  let s1 :=
    match p.st with
    | .arbitrating =>
      if s.phase != .ready || s.seq.rescue then s
      else if p.aliveIn then pairTo (onPair s (fun q => { q with arbRun := 0 })) .unsynced 1
      else onPair s (fun q => { q with arbRun := min 2048 (q.arbRun + 1) })
    | .active => s | .unpaired => s | .unsynced => s | .syncing => s | .standby => s
  let s2 :=
    if holdsLines s1 then
      let n := if s1.pair.aliveIn then min 2 (s1.pair.dualRun + 1) else 0
      let d := decide (n = 2)
      let t := onPair s1 (fun q => { q with dualRun := n, dual := d })
      let t1 := if d && !s1.pair.dual then pairSticky t 2 else t
      if d && t1.pins.twinPos then pairTo t1 .unsynced 4 else t1
    else onPair s1 (fun q => { q with dual := false })
  txSuspectEval s2

/-! Arbitration's end and AUTO_RESTORE (R238, R458 to R462). -/

/-- A stage begins: the sequencer stages, its domains stand open (R282, R459, R461). -/
def beginStage (s : State) (n : Nat) : State :=
  openDomains (onAuto s (fun a => { a with stage := if n = 1 then .stage1 else .stage2, retried := false })) (stageMask n)

/-- ARBITRATION_END: ALIVE_IN low at 2 boundaries, or 2,048 at position 1 (R238). -/
def xArbitrationEnd (s : State) : State :=
  let need := if s.pins.twinPos then 2048 else 2
  if s.phase = .ready ∧ s.seq.rescue = false ∧ s.pair.st = .arbitrating ∧ s.pair.aliveIn = false ∧ need ≤ s.pair.arbRun then
    let s1 := pairTo s (if pairEn (actv s) then .active else .unpaired) 0
    match s1.flash.cfg with
    | some c => if c.auto && !s1.seq.rescue then beginStage s1 1 else s1
    | none => s1
  else s
def execArbitrationEnd (s : State) : Host.Outcome State Fault Refusal := .next (liveFrame s (xArbitrationEnd s))

/-- The saved words of the domains of a mask in the staged views, every other word of them at its reset value. -/
def stageSaved (s : State) (saved : Tbl Word) (mask : BitVec 8) : State :=
  let mine := fun (a : Nat) => match domOf a with
    | some d => bit mask d
    | none => false
  forEach ((s.regs.stg.map (·.1) ++ saved.map (·.1)).filter mine) s (fun t a => stgPut t a (tget (regReset a) saved a))

/-- The saved map and SMI table stored in the staged bank, which ends the errors of its words (R167, R461). -/
def stageMap (s : State) (c : SavedCfg) : State :=
  let b := !s.map.bActive
  let s1 := forEach (touchedKeys s.map ++ c.bank.map (·.1)) s (fun t i => hostStore t b i (tget 0 c.bank i) false)
  forEach allPorts s1 (fun t p => hostSmi t b p (tget 0 c.smi p))

/-- AUTO_RESTORE_STAGED: a stage has staged its domains and commits them to the earliest epoch (R459, R461). -/
def xAutoRestoreStaged (s : State) : State :=
  let n := if s.auto.stage = .stage1 then 1 else if s.auto.stage = .stage2 then 2 else 0
  match s.flash.cfg with
  | some c =>
    if n ≠ 0 ∧ s.seq.running ∧ holdsLines s then
      let m := stageMask n
      let s1 := stageSaved s c.regs m
      let s2 := if n = 2 then stageMap s1 c else s1
      let s3 := closeDomains s2 m
      let e := earliest s.sfp
      if (commitRefuse s3 s.sfp m e).isSome then onAuto s3 (fun a => { a with stage := .done })
      else onAuto (commitEnter s3 m e false s.pins.devid (0xFFFF, 0) n)
        (fun a => { a with stage := if n = 1 then .committed1 else .committed2 })
    else s
  | none => s
def execAutoRestoreStaged (s : State) : Host.Outcome State Fault Refusal := .next (live s (xAutoRestoreStaged s))

/-- The sequencer of an engine in ACTIVE or UNPAIRED is free for a stage (R239). -/
def stageFree (s : State) : Bool :=
  decide (s.auto.stage = .waitLock) && s.seq.running && s.vcp.run.isNone && holdsLines s

/-- AUTO_RESTORE_STAGE2: Thyme is LOCKED and, with FRAME_SRC 1, the first step has been taken (R460). -/
def xAutoRestoreStage2 (s : State) : State :=
  if stageFree s && decide (s.thy.st = .locked) && (tFrameSrc (actv s) != 1 || s.thy.fpAligned) then beginStage s 2 else s
def execAutoRestoreStage2 (s : State) : Host.Outcome State Fault Refusal := .next (liveFrame s (xAutoRestoreStage2 s))

/-- AUTO_RESTORE_STAGE2_TIMEOUT: 178,893 multiframes after the stage 1 strobe; a THYME_STATE event reports the state
(R460). -/
def xAutoRestoreStage2Timeout (s : State) : State :=
  match s.auto.strobe1 with
  | some m =>
    if stageFree s && decide (178893 * 5240576 ≤ sfpDist m s.sfp) then
      trace (beginStage s 2) 2 1 noObj [by1 (thyCode s.thy.st), by1 (thyCode s.thy.st)]
    else s
  | none => s
def execAutoRestoreStage2Timeout (s : State) : Host.Outcome State Fault Refusal :=
  .next (liveFrame s (xAutoRestoreStage2Timeout s))

end Sys2Proof.Machine
end

