-- ==== Sys2Proof/Machine/MapCore.lean ====
section
/-! DEFINITION. The switching core's calendar cycle (files 07 and 09): slot store writes, egress reads, merge, pattern
generators, client egress. -/

namespace Sys2Proof.Machine

open Sys2Proof

/-- A payload block as the receive path of a trunk hands it on: an invalid sync header, which the FEC gives the blocks
of a codeword it cannot correct too, makes it the marked error block (Table 05-2, R508). -/
def ingressBlock (b : Block) : Block := if badHdr b then errBlock else b

/-- Payload blocks that arrive on a trunk: counted; in frame they enter its elastic buffer (R118, R120, R508). -/
def laneIn (s : State) (p : Nat) (bs : List Block) : State :=
  let s1 := cPort (cPort s p 30 bs.length) p 20 (bs.filter badHdr).length
  if inFrame (portOf s p).trunk then
    onTrunk s1 p (fun t =>
      let m := t.mem ++ bs.map ingressBlock
      { t with mem := m.drop (m.length - ebMemory), fill := t.fill.map (· + bs.length) })
  else s1

/-- Received block that the elastic buffer delivers in calendar position k of the present cycle: the k-th of the oldest
not yet delivered (R120). A place that the memory does not hold carries Local Fault. -/
def delivered (t : TrunkSt) (fill k : Nat) : Block :=
  if fill ≤ t.mem.length + k then t.mem.getD (t.mem.length + k - fill) lfFill else lfFill

/-- The elastic buffer delivers one calendar cycle to the slot store, whose page holds Local Fault instead while an SF
stands on the port (R120, R127, R157). -/
def trunkRead (s : State) (p : Nat) : State :=
  let t := (portOf s p).trunk
  match t.fill with
  | some f =>
    if isTrunk s p && decide (80 ≤ f) then
      let s1 := onTrunk s p (fun t => { t with fill := some (f - 80) })
      if (portOf s p).fillLf then s1
      else forEach (List.range 80) s1 (fun u k => storeSlot u (p * 80 + k) (delivered t f k))
    else s
  | none => s

/-- A new page starts with the Local Fault fill in every slot that nothing writes (R133). -/
def clearPage (s : State) : State :=
  onMap s (fun m => { m with store := tdrop (fun k => k / 16384 == calCycle s.sfp % 4) m.store })

/-- The block of a source in the page that the egress reads: page (c − 2) mod 4 (R157); a parity error makes it the
error block. -/
def readStore (s : State) (bad : List Nat) (src : Nat) : Block :=
  if bad.contains src then errBlock else tget lfFill s.map.store ((calCycle s.sfp + 2) % 4 * 16384 + src)

/-- The next 64 bits of a generator and its next state (R150). -/
def genNext (poly : Bool) (g : BitVec 31) : BitVec 64 × BitVec 31 :=
  let (a, b) := if poly then (8, 13) else (0, 3)
  let full : BitVec 95 := (List.range 64).foldl
    (fun w i => setBit w (31 + i) (bit w (i + a) != bit w (i + b))) (g.setWidth 95)
  ((full >>> 31).setWidth 64, (full >>> 64).setWidth 31)

/-- State of a slot's generator, non-zero from its start (R150). -/
def genState (s : State) (i : Nat) : BitVec 31 :=
  match tfind s.map.gen i with
  | some g => g
  | none => genSeed (pTpPoly (actv s) (i / 80)) (Config.tpSeed i)

/-- What one egress slot carries, and whether it is a substitution (R160, R207). -/
structure Carried where
  /-- the block -/
  blk : Block
  /-- the group that substituted -/
  subst : Option Nat := none
  /-- the line written and its content -/
  line : Option (Nat × List Block) := none
  /-- the generator's next state -/
  gen : Option (BitVec 31) := none
  deriving DecidableEq, Repr

/-- A protected-select entry (R160, R205, R207). -/
def carryProt (s : State) (bad : List Nat) (i : Nat) (e : Entry) : Carried :=
  let g := eGroup e
  let x := grpOf s g
  let w := readStore s bad (eSrc e)
  let p := readStore s bad (eAlt e)
  let sel := if x.en then x.egSel else eSel e
  match lineFor s.map g i with
  | some l =>
    let delProt := if engaged x then x.delProt else decide (deltaOf x < 0)
    let mem := ((if delProt then p else w) :: tget [] s.map.lineMem l).take 2048
    if engaged x then
      let d := mem.getD (lineE x) errBlock
      let w' := if x.delProt then w else d
      let p' := if x.delProt then d else p
      let own := if sel then p' else w'
      let oth := if sel then w' else p'
      let othOk := decide (x.eq = .aligned) || (if sel then lockW s g else lockP s g)
      if own.mark && !oth.mark && othOk then { blk := oth, subst := some g, line := some (l, mem) }
      else { blk := own, line := some (l, mem) }
    else { blk := if sel then p else w, line := some (l, mem) }
  | none => { blk := if sel then p else w }

/-- What egress slot i carries under its active entry (Table 07-2, R167). -/
def carry (s : State) (bad : List Nat) (i : Nat) (e : Entry) : Carried :=
  if !eValid e || eccDouble s.map s.map.bActive i then { blk := lfFill }
  else if eKind e = 0 then { blk := readStore s bad (eSrc e) }
  else if eKind e = 1 then carryProt s bad i e
  else if eKind e = 2 then { blk := idleBlock }
  else
    let (d, n) := genNext (pTpPoly (actv s) (i / 80)) (genState s i)
    { blk := { hdr := 2, data := d }, gen := some n }

/-- The slot is transmitted: its port is a trunk, or a client that uses it (R160). -/
def slotLive (s : State) (i : Nat) : Bool :=
  decide (i < 10240) && decide (i % 80 < modeSlots (modeOf s (i / 80)))

/-- One egress slot in one cycle: the block is latched and counted (R289, R207, R421). -/
def egressSlot (s0 : State) (bad : List Nat) (s : State) (i : Nat) : State :=
  let c := carry s0 bad i (activeEntry s0 i)
  let s1 := onMap s (fun m => { m with
    egress := tput lfFill m.egress i c.blk
    lineMem := match c.line with
      | some (l, b) => tput [] m.lineMem l b
      | none => m.lineMem
    gen := match c.gen with
      | some n => tset m.gen i n
      | none => m.gen })
  if slotLive s0 i then
    let s2 := cEgr s1 i 0 1
    let s3 := if c.blk.data == lfBlock.data && isCtl c.blk then cEgr s2 i 1 1 else s2
    let s4 := if isErrB c.blk then cEgr s3 i 2 1 else s3
    let s5 := match c.subst with
      | some g => cGrp (cEgr s4 i 3 1) g 20
      | none => s4
    if bwCounts c.blk then onPort s5 (i / 80) (fun x => { x with bwEg := x.bwEg + 1 }) else s5
  else s1

/-- A parity error of the slot store: counter, address and sticky bit (file 07). -/
def parityError (s : State) (src : Nat) : State :=
  cCore (sticky (onMap s (fun m => { m with parityAddr := src })) hCore 2) 4

/-! Transmission (R143, R148, R214). -/

/-- The lane's driver is on: the port is in use and the engine drives ALIVE_OUT, after a swap from F:SWAP_GAP (R129, R214,
R234). -/
def laneOn (s : State) (p : Nat) : Bool :=
  modeOf s p != 0 && s.pair.aliveOut && s.pair.txFrom.all (fun f => decide (0 ≤ sfpDist f s.sfp))

/-- The payload that a port's transmit side carries in this cycle goes to the lane while its driver is on, and in NEAR
loopback to the port's own receive side (R148, R214). -/
def transmit (s : State) (p : Nat) (bs : List Block) : State :=
  let s1 := onPort s p (fun x => { x with line := if laneOn s p then bs else []
                                          near := if isNear s p && isClient s p then x.near ++ bs else [] })
  if isNear s p && isTrunk s p then laneIn s1 p bs else s1

/-- The blocks that the egress slots of a port carry in this cycle. -/
def egressOf (s : State) (p n : Nat) : List Block := (List.range n).map (fun k => tget lfFill s.map.egress (p * 80 + k))

/-- The payload a trunk in FAR loopback sends back: what its elastic buffer delivers in this cycle; open where it delivers
nothing (R148, log 5). -/
def farPayload (s : State) (t : TrunkSt) : List Block × State :=
  match t.fill with
  | some f => ((List.range 80).map (delivered t f), s)
  | none => forEach (List.range 80) (([] : List Block), s) (fun u _ => (u.1 ++ [(freeBlock u.2).1], (freeBlock u.2).2))

/-- A trunk's transmit side in one cycle; `t` is its receive side before the cycle was delivered. -/
def trunkEgress (s : State) (p : Nat) (t : TrunkSt) : State :=
  let (bs, s1) := if isFar s p then farPayload s t else (egressOf s p 80, s)
  transmit (cPort s1 p 31 80) p bs

/-- One block for the line from the de-adaptation buffer: insertions are counted; an empty buffer's block is open. -/
def egTake (p : Nat) (u : List Block × State) : List Block × State :=
  match adRead 64 (portOf u.2 p).eg with
  | some (b, ins, a) => (u.1 ++ [b], cPort (onPort u.2 p (fun x => { x with eg := a })) p 42 (b2n ins))
  | none => (u.1 ++ [(freeBlock u.2).1], (freeBlock u.2).2)

/-- One gathered block: a block of type 0x3C is removed, any other enters the de-adaptation buffer (R143). -/
def gatherBlock (p : Nat) (s : State) (b : Block) : State :=
  if isCtl b && blkType b == 0x3C then cPort s p 41 1
  else onPort s p (fun x => { x with eg := { x.eg with buf := x.eg.buf ++ [b] } })

/-- The line takes one block for each slot of the cycle, and one more when the overhead's share of the frames has come to
a whole block (R104, R143). -/
def deAdapt (s : State) (p : Nat) : List Block × State :=
  let u := forEach (egressOf s p (modeSlots (modeOf s p))) (([] : List Block), s)
    (fun u b => let v := egTake p u; (v.1, gatherBlock p v.2 b))
  if 80 ≤ (portOf u.2 p).egOwe then egTake p (u.1, onPort u.2 p (fun x => { x with egOwe := x.egOwe - 80 })) else u

/-- What a client in FAR loopback sends in place of it: as many blocks from its loopback buffer (R148). -/
def farTake (p n : Nat) (s : State) : List Block × State :=
  forEach (List.range n) (([] : List Block), s) (fun u _ =>
    match adRead 128 (portOf u.2 p).client.loop with
    | some (b, _, a) => (u.1 ++ [b], onClient u.2 p (fun c => { c with loop := a }))
    | none => (u.1 ++ [(freeBlock u.2).1], (freeBlock u.2).2))

/-- A client's transmit side in one cycle (R143, R148). -/
def clientEgress (s : State) (p : Nat) : State :=
  let (bs, s1) := deAdapt s p
  let (out, s2) := if isFar s p then farTake p bs.length s1 else (bs, s1)
  transmit (cPort s2 p 31 out.length) p out

/-- The transmit side of one port; `was` are the ports before the cycle was delivered. -/
def portEgress (was : State) (s : State) (p : Nat) : State :=
  if isClient s p then clientEgress s p else if isTrunk s p then trunkEgress s p (portOf was p).trunk
  else if (portOf s p).line.isEmpty then s else onPort s p (fun x => { x with line := [] })

/-- What arrives on the lanes during the cycle; a port in NEAR loopback takes its own transmit side instead (R148). -/
def lineArrive (s : State) (pb : Nat × List Block) : State :=
  if decide (pb.1 < 128) && isTrunk s pb.1 && !isNear s pb.1 then laneIn s pb.1 pb.2 else s

/-- CALENDAR_CYCLE (R157, R160, R207). A slip that is due comes first (R122, log 78). The ingress side of each port
delivers the cycle, every egress slot reads, every port transmits, and the blocks that arrive on trunk lanes during the
cycle enter the elastic buffers. -/
def xCalendarCycle (arrived : List (Nat × List Block)) (bad : List Nat) (s : State) : State :=
  if cycleStart s.sfp then
    let s0 := forEach allPorts s (fun u p => xSlip p u)
    let s1 := forEach (enabledGroups s0) (forEach allPorts (clearPage s0) trunkRead) shiftLines
    let s2 := forEach bad s1 parityError
    let s3 := forEach (List.range 10240) s2 (egressSlot s2 bad)
    forEach arrived (forEach allPorts s3 (portEgress s0)) lineArrive
  else s
def execCalendarCycle (arrived : List (Nat × List Block)) (parityBad : List Nat) (s : State) :
    Host.Outcome State Fault Refusal :=
  .next (live s (xCalendarCycle arrived parityBad s))

end Sys2Proof.Machine
end

