-- ==== Sys2Proof/Machine/Power.lean ====
section
/-! DEFINITION. The power stage: two feeds, failover, manual switch, brown-out and power-down (file 11). A feed is named
by a Bool: true is FEED_B. -/

namespace Sys2Proof.Machine

open Sys2Proof

/-! The controller's view of one feed. -/
def feedGoodOf (p : PowerSt) (b : Bool) : Bool := if b then p.goodB else p.goodA
def setFeedGood (p : PowerSt) (b v : Bool) : PowerSt := if b then { p with goodB := v } else { p with goodA := v }
def feedUv (p : PowerSt) (b : Bool) : Bool := if b then p.uvB else p.uvA
def setFeedUv (p : PowerSt) (b v : Bool) : PowerSt := if b then { p with uvB := v } else { p with uvA := v }
def feedOv (p : PowerSt) (b : Bool) : Bool := if b then p.ovB else p.ovA
def setFeedOv (p : PowerSt) (b v : Bool) : PowerSt := if b then { p with ovB := v } else { p with ovA := v }
def feedPath (p : PowerSt) (b : Bool) : Bool := if b then p.pathB else p.pathA
def setFeedPath (p : PowerSt) (b v : Bool) : PowerSt := if b then { p with pathB := v } else { p with pathA := v }
def setSuspect (p : PowerSt) (b v : Bool) : PowerSt := if b then { p with suspectB := v } else { p with suspectA := v }

/-- The die registers feed events: sticky bits and counters due at the next frame boundary (R249). A die in reset
registers nothing. -/
def feedReg (s : State) (hist : BitVec 8) (ctrs : List Nat) : State :=
  if powered s then onPwr s (fun p => { p with pendHist := p.pendHist ||| hist, pendCtr := p.pendCtr ++ ctrs }) else s

/-- A record due at the next frame boundary: subtype, old and new SEL, RESULT or reason, present SFP (R249). -/
def feedRec (s : State) (sub : Nat) (old new : Bool) (reason : Nat) : State :=
  if powered s then onPwr s (fun p => { p with pendRec := p.pendRec ++ [(sub, old, new, reason, s.sfp)] }) else s

/-- A record whose reason code the manual does not give: a free byte (log 5). -/
def feedRecFree (s : State) (sub : Nat) (old new : Bool) : State :=
  let (r, s1) := drawBytes s 1
  feedRec s1 sub old new (beNat r)

/-- Opcode of FEED_SELECT. -/
def opFeedSelect : BitVec 16 := 0x0A02

/-- Address of FEED_SELECT (Table 18-2). -/
def aFeedSelect : Nat := aPower + 0x028

/-- The power block's BUSY ends when the result of a manual switch is stored (R250, R381). -/
def feedIdle (s : State) : State :=
  match tfind s.regs.posted 2 with
  | some p => if p.addr = aFeedSelect then onRegs s (fun r => { r with posted := tdel r.posted 2 }) else s
  | none => s

/-- The result of a manual switch is stored: the controller is idle again and FEED_SELECT replies (R250, R329). -/
def storeResult (s : State) (n : Nat) : State :=
  let s1 := feedIdle (onPwr s (fun p => { p with switching := none, result := n }))
  match s1.vcp.run with
  | some r =>
    if r.op = opFeedSelect ∧ r.reply = none then
      let rep : Reply := { req := r.req, op := r.op, status := 0, accept := r.accept, key := r.key
                           data := [by1 n, by1 (b2n s1.pwr.sel)] ++ sfpBytes s.sfp }
      onVcp s1 (fun v => { v with run := some { r with reply := some rep } })
    else s1
  | none => s1

/-- A manual switch is asked for: TARGET is held; it starts, or its result is known at once (Table 11-4). One asked for
while a failover runs ends with it. -/
def startSwitch (s : State) (t : Bool) : State :=
  let s1 := onPwr s (fun p => { p with target := t })
  if t = s.pwr.sel then feedRec (storeResult s1 1) 4 s.pwr.sel s.pwr.sel 1
  else if feedGoodOf s.pwr t = false then
    feedRec (feedReg (storeResult s1 2) 0x80 [8]) 4 s.pwr.sel s.pwr.sel 2
  else onPwr s1 (fun p => setFeedPath { p with switching := some t } t true)

/-- The new path carries the load: the old feed is the standby feed (R243, R245, R249). A manual switch onto it ends with
FAILOVER (Tables 11-4, 14-17). -/
def failoverDone (s : State) (b : Bool) : State :=
  let old := s.pwr.sel
  let s1 := onPwr s (fun p => setFeedPath { p with sel := b, failover := none, declared := false, brownout := false }
    old false)
  let s2 := feedRecFree (feedReg s1 0x01 [0]) 1 old b
  let s3 := if feedGoodOf s2.pwr old then s2 else feedReg s2 0x20 [9]
  if s.pwr.switching = some b then feedRec (storeResult s3 4) 4 old b 4 else s3

/-- A UV or OV stands declared on the selected feed: failover to a GOOD standby feed, else brown-out (R243, R246). A
manual switch in progress ends with FAILOVER, its target selected at once (Table 11-4). -/
def feedDeclared (s : State) : State :=
  let b := !s.pwr.sel
  if feedGoodOf s.pwr b then
    if s.pwr.switching = some b then failoverDone s b
    else onPwr s (fun p => setFeedPath { p with failover := some b, declared := true } b true)
  else if s.pwr.brownout then onPwr s (fun p => { p with declared := true })
  else
    feedRecFree (feedReg (onPwr s (fun p => { p with declared := true, brownout := true })) 0x10 [6]) 2 s.pwr.sel
      s.pwr.sel

/-- FEED_UV_CROSS: the selected feed crosses the UV threshold (R243, R244). -/
def xFeedUvCross (s : State) : State := if s.pwr.hasSel then onPwr s (fun p => setFeedUv p p.sel true) else s
def execFeedUvCross (s : State) : Host.Outcome State Fault Refusal := .next (xFeedUvCross s)

/-- FEED_GLITCH: it recovers within the qualification time (R249). -/
def xFeedGlitch (s : State) : State :=
  if s.pwr.hasSel && feedUv s.pwr s.pwr.sel && !s.pwr.declared then
    feedReg (onPwr s (fun p => setFeedUv p p.sel false)) 0 [if s.pwr.sel then 5 else 4]
  else s
def execFeedGlitch (s : State) : Host.Outcome State Fault Refusal := .next (xFeedGlitch s)

/-- A UV or OV is declared on the selected feed, which is GOOD no longer: what follows (R243, R246, R249). -/
def feedDeclare (s : State) (ov : Bool) (hist : BitVec 8) (ctr : Nat) : State :=
  let b := s.pwr.sel
  if s.pwr.hasSel && s.pwr.failover.isNone && !s.pwr.declared then
    let s1 := feedReg (onPwr s (fun p => setFeedGood (if ov then setFeedOv p b true else setFeedUv p b true) b false)) hist [ctr]
    feedDeclared (if feedGoodOf s.pwr b then feedRecFree s1 3 b b else s1)
  else s

/-- FEED_UV_DECLARE (R241, R243, R246). -/
def xFeedUvDeclare (s : State) : State :=
  feedDeclare s false (if s.pwr.sel then 0x04 else 0x02) (if s.pwr.sel then 2 else 1)
def execFeedUvDeclare (s : State) : Host.Outcome State Fault Refusal := .next (xFeedUvDeclare s)

/-- FEED_OV_DECLARE (R241, R243, R246). -/
def xFeedOvDeclare (s : State) : State := feedDeclare s true 0x08 3
def execFeedOvDeclare (s : State) : Host.Outcome State Fault Refusal := .next (xFeedOvDeclare s)

/-- FEED_FAILOVER_COMPLETE (R243). -/
def xFeedFailoverComplete (s : State) : State :=
  match s.pwr.failover with
  | some b => failoverDone s b
  | none => s
def execFeedFailoverComplete (s : State) : Host.Outcome State Fault Refusal := .next (xFeedFailoverComplete s)

/-- FEED_GOOD: 10 ms within the release thresholds. It never switches a healthy module back; during a brown-out it
starts the failover, and a selected feed back in range ends what was declared on it (R241, R245, R246). -/
def xFeedGood (b : Bool) (s : State) : State :=
  let back := s.pwr.hasSel && b == s.pwr.sel && s.pwr.failover.isNone
  let s1 := onPwr s (fun p =>
    let q := setFeedGood (setFeedUv (setFeedOv p b false) b false) b true
    { q with declared := q.declared && !back, brownout := q.brownout && !back })
  let s2 := if feedGoodOf s.pwr b then s1 else feedRecFree s1 3 s.pwr.sel s.pwr.sel
  if s.pwr.hasSel && b != s.pwr.sel && s.pwr.declared && s.pwr.failover.isNone then feedDeclared s2 else s2
def execFeedGood (feedB : Bool) (s : State) : Host.Outcome State Fault Refusal := .next (xFeedGood feedB s)

/-- The standby feed is no longer GOOD: SINGLE, counted and reported (R241, Table 11-7). -/
def feedLost (s : State) (b : Bool) : State :=
  let s1 := onPwr s (fun p => setFeedGood p b false)
  if feedGoodOf s.pwr b && b != s.pwr.sel then feedRecFree (feedReg s1 0x20 [9]) 3 s.pwr.sel s.pwr.sel else s1

/-- FEED_NOT_GOOD: a UV or OV on the standby feed (R241). -/
def xFeedNotGood (b ov : Bool) (s : State) : State :=
  if s.pwr.hasSel && b == s.pwr.sel then s
  else feedLost (onPwr s (fun p => if ov then setFeedOv p b true else setFeedUv p b true)) b
def execFeedNotGood (feedB ov : Bool) (s : State) : Host.Outcome State Fault Refusal := .next (xFeedNotGood feedB ov s)

/-- OV_TRIP: the path of any feed at the trip threshold opens at once (R246). -/
def xOvTrip (b : Bool) (s : State) : State :=
  let s1 := onPwr s (fun p => setFeedPath (setFeedOv p b true) b false)
  if s.pwr.hasSel && b == s.pwr.sel then s1 else feedLost s1 b
def execOvTrip (feedB : Bool) (s : State) : Host.Outcome State Fault Refusal := .next (xOvTrip feedB s)

/-- FEED_SWITCH_RESULT: the target carries 90 % of the load, or has lost GOOD (R250, Table 11-4). -/
def xFeedSwitchResult (s : State) : State :=
  match s.pwr.switching with
  | some t =>
    let old := s.pwr.sel
    if feedGoodOf s.pwr t then
      let s1 := onPwr s (fun p => setSuspect (setFeedPath { p with sel := t } old false) t false)
      feedRec (feedReg (storeResult s1 0) 0x40 [7]) 4 old t 0
    else feedRec (feedReg (storeResult (onPwr s (fun p => setFeedPath p t false)) 2) 0x80 [8]) 4 old old 2
  | none => s
def execFeedSwitchResult (s : State) : Host.Outcome State Fault Refusal := .next (xFeedSwitchResult s)

/-- FEED_SWITCH_TIMEOUT: NO_CURRENT, and the target's path is suspect (R250, Table 11-4). -/
def xFeedSwitchTimeout (s : State) : State :=
  match s.pwr.switching with
  | some t =>
    let s1 := onPwr s (fun p => setSuspect (setFeedPath p t false) t true)
    feedRec (feedReg (storeResult s1 3) 0x80 [8]) 4 s.pwr.sel s.pwr.sel 3
  | none => s
def execFeedSwitchTimeout (s : State) : Host.Outcome State Fault Refusal := .next (xFeedSwitchTimeout s)

/-- UV_RELEASE: the selected feed rises above the UV release threshold, or with `ov` falls below the OV release threshold,
which is handled in the same way: the BROWNOUT it caused clears and nothing else changes (R246). -/
def xUvRelease (ov : Bool) (s : State) : State :=
  let b := s.pwr.sel
  if s.pwr.brownout && (if ov then feedOv s.pwr b else feedUv s.pwr b) then
    onPwr s (fun p =>
      let q := { p with brownout := false, declared := false }
      if ov then setFeedOv q b false else setFeedUv q b false)
  else s
def execUvReleased (ov : Bool) (s : State) : Host.Outcome State Fault Refusal := .next (xUvRelease ov s)

/-- FEED_LATCH_RELEASE: both feeds below 2 V for 100 ms: the latch opens; the cause kept is the loss of both feeds
(R247, R248). -/
def xFeedLatchRelease (s : State) : State :=
  if s.phase = .off then onPwr s (fun p => { p with latched := false, offCause := 1 }) else s
def execFeedLatchRelease (s : State) : Host.Outcome State Fault Refusal := .next (xFeedLatchRelease s)

/-! The die at a frame boundary (R249, R253). -/

/-- One pending feed record. -/
def feedTrace (s : State) (r : Nat × Bool × Bool × Nat × Sfp) : State :=
  traceAt s r.2.2.2.2 7 r.1 noObj ([by1 (b2n r.2.1), by1 (b2n r.2.2.1)] ++ beBytes 2 s.pwr.mvA.toNat
    ++ beBytes 2 s.pwr.mvB.toNat ++ [by1 r.2.2.2.1])

/-- Measurements, sticky bits, counters and records of the feeds. -/
def feedFrame (i : FrameIn) (s : State) : State :=
  let p := s.pwr
  let single := !feedGoodOf p (!p.sel)
  let hist := p.pendHist ||| (if !p.firstFrame && single then 0x20 else 0)
  let s1 := onPwr s (fun p => { p with
    mvA := if i.monFault then 0xFFFF else i.feedA, mvB := if i.monFault then 0xFFFF else i.feedB
    load := i.load, monFault := i.monFault, firstFrame := true, pendHist := 0, pendCtr := [], pendRec := [] })
  let s2 := sticky s1 hFeed (hist.setWidth 32)
  forEach p.pendRec (forEach p.pendCtr s2 cFeed) feedTrace

end Sys2Proof.Machine
end

