-- ==== Sys2Proof/Machine/VcpOps.lean ====
section
/-! DEFINITION. Packets of the command protocol, replies and where they go, relay, replay, the latency log (file 12;
R436, R438, R420). -/

namespace Sys2Proof.Machine

open Sys2Proof

/-! Packets (Table 12-3). -/
def vcVersion (b : Bytes) : Nat := pk1 b 0 / 16
def vcReply (b : Bytes) : Bool := bit (b.getD 0 0) 3
def vcEvent (b : Bytes) : Bool := bit (b.getD 0 0) 2
def vcPri (b : Bytes) : BitVec 2 := BitVec.ofNat 2 (pk1 b 1 / 64)
def vcHop (b : Bytes) : Nat := pk1 b 1 % 16
def vcGrp (b : Bytes) : Bool := bit (b.getD 2 0) 7
def vcDest (b : Bytes) : BitVec 12 := BitVec.ofNat 12 (pkNat b 2 2)
def vcOrigin (b : Bytes) : Option (BitVec 12) :=
  if bit (b.getD 4 0) 7 then some (BitVec.ofNat 12 (pkNat b 4 2)) else none
def vcAuth (b : Bytes) : BitVec 6 := BitVec.ofNat 6 (pkNat b 6 2)
def vcSeq (b : Bytes) : Word := BitVec.ofNat 32 (pkNat b 8 4)
def vcOp (b : Bytes) : BitVec 16 := BitVec.ofNat 16 (pkNat b 12 2)
def vcPlen (b : Bytes) : Nat := pkNat b 14 2
def vcParams (b : Bytes) : Bytes := slice b 16 (vcPlen b)
def vcTag (b : Bytes) : Bytes := b.drop (16 + vcPlen b)

/-- VERSION other than 1, a length that disagrees with PLEN, or fewer than 32 bytes (R271). -/
def vcMalformed (b : Bytes) : Bool :=
  decide (b.length < 32) || vcVersion b != 1 || decide (b.length ≠ 32 + vcPlen b) || decide (1500 < b.length)

/-- The bytes a tag covers: HOP and ORIGIN count as 0 (R259). -/
def tagInput (b : Bytes) : Bytes :=
  slice b 0 1 ++ [b.getD 1 0 &&& 0xF0] ++ slice b 2 2 ++ [0, 0] ++ b.drop 6

/-- The tag of a packet given without it. -/
def tagFor (key b : Bytes) : Bytes := tagOf key (tagInput b)

/-- All 128 bits of the tag match (R259). -/
def tagMatches (key b : Bytes) : Bool := vcTag b == tagFor key (b.take (16 + vcPlen b))

/-- The command a packet carries. -/
def reqOf (ret : Return) (b : Bytes) : Req :=
  { ret := ret, pri := vcPri b, grp := vcGrp b, dest := vcDest b, origin := vcOrigin b, auth := vcAuth b
    seq := vcSeq b, params := vcParams b }

/-- HOP reduced by one, and ORIGIN set by a gateway: the only fields an engine changes in transit (R258, R266,
R267). -/
def vcTransit (b : Bytes) (gateway : Option (BitVec 12)) : Bytes :=
  let o := match gateway with
    | some d => beBytes 2 (0x8000 + d.toNat)
    | none => slice b 4 2
  slice b 0 1 ++ [b.getD 1 0 - 1] ++ slice b 2 2 ++ o ++ b.drop 6

/-- An authority slot. -/
def authOf (s : State) (a : Nat) : AuthSt := tget {} s.vcp.auths a
/-- Any slot is ENABLED (R261). -/
def anyEnabled (s : State) : Bool := s.vcp.auths.any (fun kv => kv.2.enabled)

/-- The management port a transport names. -/
def viaPort : Transport → Option Bool
  | .mgmtA => some false | .mgmtB => some true | .inband _ => none | .spi => none
/-- Transport code of the latency log (R317). -/
def viaCode : Transport → Nat
  | .mgmtA => 0 | .mgmtB => 1 | .inband _ => 2 | .spi => 3
/-- The packet came in-band. -/
def viaInband : Transport → Bool
  | .mgmtA => false | .mgmtB => false | .inband _ => true | .spi => false

/-! Management port settings and limited counters (R330, R343). -/

/-- A setting in force, by its offset in Table 18-12. -/
def mgEff (s : State) (b : Bool) (o : Nat) : Word := tget (regReset (aMg b o)) (mgOf s b).eff o

/-- Counter index of limited counter k: FCS, SYMBOL, SIZE, MALFORMED, BAD_AUTH, STALE_SEQ (Table 15-4). -/
def mgLimIdx (k : Nat) : Nat := [2, 3, 4, 9, 10, 11].getD k 0
/-- LIM of limited counter k. -/
def mgLimit (s : State) (b : Bool) (k : Nat) : Nat := (mgEff s b (0x18 + 4 * k)).toNat % 65536

/-- n more in the window count of a limited counter; a limit reached acts at the next frame boundary (R343). -/
def mgWindow (s : State) (b : Bool) (k n : Nat) : State :=
  let c := min 65535 (tget 0 (mgOf s b).win k + n)
  let lim := mgLimit s b k
  let got := decide (lim ≠ 0 ∧ lim ≤ c) && !bit (mgOf s b).hit k
  onMg s b (fun m => { m with win := tput 0 m.win k c
                              hit := if got then setBit m.hit k true else m.hit
                              hitNew := if got then setBit m.hitNew k true else m.hitNew })

/-- n events of a limited counter. -/
def mgLimited (s : State) (b : Bool) (k n : Nat) : State := mgWindow (cMg s b (mgLimIdx k) n) b k n
/-- n events of a limited counter of a packet's port, if it came by one. -/
def viaLimited (s : State) (v : Transport) (k : Nat) : State :=
  match viaPort v with
  | some b => mgLimited s b k 1
  | none => s

/-! The management DMA (R359, R363). -/

/-- Scratchpad offset of a packet's buffer: free. -/
def dmaOff (s : State) : Nat := Config.dmaAt s.fresh % 32768 * 8
/-- The DMA stores a packet; false when the bank sleeps and the packet is discarded (R363). -/
def dmaPut (s : State) : State × Bool :=
  let t := { s with fresh := s.fresh + 1 }
  if tget BankSt.on s.mem.scratch (dmaOff s / 32768) = .on then (t, true) else (cSys t 10, false)
/-- The DMA reads a packet of n bytes; false when it is discarded (R359, R363). -/
def dmaTake (s : State) (n : Nat) : State × Bool :=
  let o := 2 ^ 32 + dmaOff s
  let t := dmaPut s
  if t.2 && s.mem.ecc.any (fun kv => decide (kv.2 = 2 ∧ o ≤ kv.1 ∧ kv.1 < o + n)) then (cSys t.1 9, false) else t

/-! Where a finished packet goes. -/

/-- A packet joins a port's reply queue (R336, R436). -/
def replyQueue (s : State) (b : Bool) (p : OutPkt) : State :=
  let q := (mgOf s b).replies
  if !(mgOf s b).link then cMg s b 18 1
  else if q.length < 32 then onMg s b (fun m => { m with replies := q ++ [p] })
  else if p.front then cMg s b 18 1
  else
    let q' := if q.any (·.front) then delFirst (·.front) q else q.drop 1
    cMg (onMg s b (fun m => { m with replies := q' ++ [p] })) b 18 1

/-- A packet joins the host SPI receive FIFO (R257). -/
def spiPush (s : State) (b : Bytes) : State :=
  if 8 ≤ s.vcp.spiRx.length then cVcp s 5 else onVcp s (fun v => { v with spiRx := v.spiRx ++ [b] })

/-- A packet joins a trunk's channel queue (R438): the newest of lower PRI that has not started gives way. True when the
arriving packet is in. -/
def chanPut (s : State) (p : Nat) (pri : BitVec 2) (b : Bytes) : State × Bool :=
  let x := portOf s p
  let put := fun (q : List ChanPkt) => onPort s p (fun x => { x with txq := q ++ [{ pri := pri, bytes := b }] })
  if x.txq.length + b2n x.txNow.isSome < 8 then (put x.txq, true)
  else if x.txq.any (fun c => decide (c.pri < pri)) then
    (cVcp (put (delFirst (fun c => decide (c.pri < pri)) x.txq.reverse).reverse) 9, true)
  else (cVcp s 9, false)

/-- A port that may carry relayed packets: a trunk in RELAY_PORTS whose receive side is in frame (R266). -/
def relayPort (s : State) (p : Nat) : Bool :=
  decide (p < 128) && isTrunk s p && bit s.vcp.relayPorts p && inFrame (portOf s p).trunk

/-- ROUTE of a device. -/
def routeOf (s : State) (d : BitVec 12) : Nat := (tget 0xFF s.vcp.route d.toNat).toNat

/-- An in-band reply goes on ROUTE[ORIGIN] (R268); with no gateway or no route it is discarded and counted. -/
def inbandOut (s : State) (origin : Option (BitVec 12)) (pri : BitVec 2) (b : Bytes) : State :=
  match origin with
  | some d => if holdsLines s && relayPort s (routeOf s d) then (chanPut s (routeOf s d) pri b).1 else cVcp s 9
  | none => cVcp s 9

/-- A packet goes to the transport of a command (Table 12-1). -/
def outVia (s : State) (ret : Return) (front : Bool) (origin : Option (BitVec 12)) (pri : BitVec 2) (b : Bytes) : State :=
  match ret.via with
  | .mgmtA => replyQueue s false { ret := ret, front := front, bytes := b }
  | .mgmtB => replyQueue s true { ret := ret, front := front, bytes := b }
  | .spi => spiPush s b
  | .inband _ => inbandOut s origin pri b

/-! Replies (R270, R271). -/

/-- The bytes of a reply before its tag. -/
def replyBody (s : State) (r : Reply) : Bytes :=
  let q := r.req
  let inb := viaInband q.ret.via
  let o := if inb then (match q.origin with
    | some d => 0x8000 + d.toNat
    | none => 0) else 0
  let ps := [r.status, r.detail] ++ beBytes 2 r.remain.toNat ++ sfpBytes r.accept ++ r.data
  [0x18, by1 (q.pri.toNat * 64 + (if inb then 15 else 0))] ++ beBytes 2 s.pins.devid.toNat ++ beBytes 2 o
    ++ beBytes 2 q.auth.toNat ++ beBytes 4 q.seq.toNat ++ beBytes 2 r.op.toNat ++ beBytes 2 ps.length ++ ps

/-- The reply packet. -/
def replyBytes (s : State) (r : Reply) : Bytes :=
  let b := replyBody s r
  b ++ (if r.zeroTag then zeros 16 else tagFor r.key b)

/-- A reply is handed to its transport. -/
def sendReply (s : State) (r : Reply) : State :=
  outVia s r.req.ret r.front r.req.origin r.req.pri (replyBytes s r)

/-- A reply of the front end (Table 12-8). -/
def frontReply (s : State) (q : Req) (op : BitVec 16) (status detail : Byte) (remain : BitVec 16) : State :=
  let a := authOf s q.auth.toNat
  sendReply s { req := q, op := op, status := status, detail := detail, remain := remain, front := true
                zeroTag := status == 5 || !a.enabled, key := a.key }

/-- A failure of check 3 or 6: counted, and answered once a frame (R271). -/
def badAuth (s : State) (q : Req) (op : BitVec 16) (detail : Byte) (check3 : Bool) : State :=
  let s1 := cVcp s 3
  let s2 := if check3 then viaLimited s1 q.ret.via 4 else s1
  if s.vcp.badAuthAt = some (frameOf s.sfp) then s2
  else frontReply (onVcp s2 (fun v => { v with badAuthAt := some (frameOf s.sfp) })) q op 5 detail 0

/-- The commands of Table 12-5: FW_UPDATE, PAIR_RESYNC, SELF_TEST. -/
def slowOp (op : BitVec 16) : Bool := op == 0x0912 || op == 0x0704 || op == 0x0920

/-- An AUTO_RESTORE stage is being staged (R459, R461). -/
def autoStaging (s : State) : Bool := decide (s.auto.stage = .stage1) || decide (s.auto.stage = .stage2)

/-- A REMAIN_MS that is an estimate: free, and never 0 (R265). -/
def remainFree (s : State) : BitVec 16 := if Config.remainMs s.fresh = 0 then 1 else Config.remainMs s.fresh
/-- Blocks in a millisecond. -/
def msBlocks : Nat := 1562500
/-- The estimate made at a command's acceptance, counted down each millisecond and never 0 (R265). -/
def runRemain (s : State) (r : Run) : BitVec 16 :=
  BitVec.ofNat 16 (max 1 (r.est.1.toNat - (sfpDist r.est.2 s.sfp).toNat / msBlocks))

/-- Why the front end answers BUSY now, with its status and REMAIN_MS (R265, R278, R457, Table 12-15). -/
def busyNow (s : State) : Option (Byte × BitVec 16) :=
  if s.phase = .stuck then some (1, 0xFFFF)
  else if s.phase ≠ .ready then some (1, remainFree s)
  else if !s.seq.running then some (1, 250)
  else match s.vcp.run with
    | some r => some (if slowOp r.op then 0x0C else 1, runRemain s r)
    | none => if s.pair.resync then some (0x0C, remainFree s) else if autoStaging s then some (1, remainFree s) else none

/-- A BUSY or SLOW_BUSY reply. -/
def answerBusy (s : State) (q : Req) (op : BitVec 16) (st : Byte) (remain : BitVec 16) : State :=
  frontReply (cVcp { s with fresh := s.fresh + 1 } (if st = 1 then 1 else 2)) q op st 0 remain

/-- The queued packet that gives way to a higher PRI: the latest of the lowest PRI (R264). -/
def queueVictim (l : List Queued) : Option Queued :=
  l.foldl (fun o x => match o with
    | some b => if x.req.pri ≤ b.req.pri then some x else o
    | none => some x) none

/-- An authenticated packet is offered to the ingress queue (R264). -/
def queueIn (s : State) (q : Queued) : State :=
  if s.vcp.queue.length < 8 then onVcp s (fun v => { v with queue := v.queue ++ [q] })
  else match queueVictim s.vcp.queue with
    | some x =>
      if x.req.pri < q.req.pri then
        let l := (delFirst (fun y => y == x) s.vcp.queue.reverse).reverse
        answerBusy (onVcp s (fun v => { v with queue := l ++ [q] })) x.req x.op 1 0
      else answerBusy s q.req q.op 1 0
    | none => s

/-- An authenticated packet for this engine: answered BUSY, or queued (checks 4 and 5). -/
def arrive (s : State) (q : Queued) : State :=
  match busyNow s with
  | some (st, r) => answerBusy s q.req q.op st r
  | none => queueIn s q

/-! Replay (R262, R263). -/

/-- Replay state of an authority. -/
def replayOf (s : State) (a : Nat) : ReplaySt := tget {} s.vcp.replay a

/-- The state after a number that passes, none where it fails. -/
def seqTake (x : ReplaySt) (seq : Word) : Option ReplaySt :=
  let d := halfDiff 32 seq.toNat x.last.toNat
  if 0 < d then some { x with last := seq, win := (if 32 ≤ d then 1 else (x.win <<< d.toNat) ||| 1), since := x.since + 1 }
  else if -32 < d ∧ bit x.win (-d).toNat = false then
    some { x with win := setBit x.win (-d).toNat true, since := x.since + 1 }
  else none

/-- The lowest number that would pass (R263). -/
def nextSeq (x : ReplaySt) : Word :=
  match (List.range 32).find? (fun i => !bit x.win (31 - i)) with
  | some i => x.last - word (31 - i)
  | none => x.last + 1

/-- The reservation saved for an authority. -/
def reservation (s : State) (a : Nat) : Word := tget 0 (s.flash.resv.getD []) a

/-- The number is recorded; at every 65,536th accepted number a reservation is saved (R263; log 19). -/
def seqRecord (s : State) (a : Nat) (x : ReplaySt) : State :=
  let save := decide (65536 ≤ x.since)
  let y := if save then { x with since := 0 } else x
  let s1 := mirror (onVcp s (fun v => { v with replay := tput {} v.replay a y })) (.lastSeq (Fin.ofNat 64 a) x.last)
  if save then
    onFlash s1 (fun f => { f with resv := some (tput 0 (f.resv.getD []) a (x.last + 65536)) })
  else s1

/-! The command in execution. -/

/-- The sequencer's reply to the command in execution. -/
def setReply (s : State) (status detail : Byte) (data : Bytes) : State :=
  match s.vcp.run with
  | some r => onVcp s (fun v => { v with run := some { r with reply := some {
      req := r.req, op := r.op, status := status, detail := detail, accept := r.accept, data := data
      zeroTag := r.boot, key := r.key } } })
  | none => s
/-- OK, with the reply's own fields. -/
def replyOk (s : State) (data : Bytes) : State := setReply s 0 0 data
/-- Change the command in execution. -/
def onRun (s : State) (f : Run → Run) : State := onVcp s (fun v => { v with run := v.run.map f })
/-- OK, with an effect that waits for the command's completion; the reply begins with the boundary that it reports. -/
def replyEnd (s : State) (e : EndAct) : State := replyOk (onRun s (fun r => { r with atEnd := some e })) []

/-- A record joins the latency log: the last 1,024 are kept, and SAGE_HIST[1] is set each time the write position is
back at the first record and overwrites it (R420). -/
def latPush (s : State) (r : LatRec) : State :=
  let s1 := cSage (onVcp s (fun v => { v with latlog := (r :: v.latlog).take 1024 })) 6
  if 1024 < ctrVal s1 8 6 ∧ ctrVal s1 8 6 % 1024 = 1 then sticky s1 hSage 2 else s1

/-- The latency record of a command. -/
def latOf (r : Run) (status detail : Byte) (done : Option Sfp) : LatRec :=
  { op := r.op, status := status, detail := detail, auth := r.req.auth, via := viaCode r.req.ret.via
    pri := r.req.pri, seq := r.req.seq, accept := r.accept, done := done }

/-! Relay (R266 to R269). -/

/-- Forward a packet on the ports named: each copy that is queued counts. -/
def relayOn (s : State) (ports : List Nat) (pri : BitVec 2) (b : Bytes) : State :=
  forEach ports s (fun t p =>
    let r := chanPut t p pri b
    if r.2 then cVcp r.1 11 else r.1)

/-- Forward a command: the conditions of R266 in order, the gateway's entry (R267). True when it was forwarded. -/
def forwardCmd (s : State) (ret : Return) (b : Bytes) (ports : List Nat) (deliver : Bool) : State × Bool :=
  if !holdsLines s then (s, false)
  else if vcHop b = 0 then (if deliver then s else cVcp s 10, false)
  else
    let ok := ports.filter (relayPort s)
    if ok.isEmpty then (if vcGrp b then s else cVcp s 9, false)
    else if viaInband ret.via then (relayOn s ok (vcPri b) (vcTransit b none), true)
    else if 64 ≤ s.vcp.relay.length then (cVcp s 6, false)
    else
      let e : RelayEnt := { auth := vcAuth b, seq := vcSeq b, ret := ret, at_ := s.sfp }
      let s1 := onVcp s (fun v => { v with relay := v.relay ++ [e] })
      (relayOn s1 ok (vcPri b) (vcTransit b (some s.pins.devid)), true)

/-- A reply received in-band: the gateway passes it on by its relay table, any other engine forwards it on
ROUTE[ORIGIN] (R268). -/
def relayReply (s : State) (b : Bytes) : State :=
  match vcOrigin b with
  | some o =>
    if o = s.pins.devid then
      match s.vcp.relay.find? (fun e => e.auth == vcAuth b && e.seq == vcSeq b) with
      | some e => outVia s e.ret (decide (pk1 b 16 = 1 ∨ pk1 b 16 = 5 ∨ pk1 b 16 = 12)) none (vcPri b) b
      | none => cVcp s 7
    else if !holdsLines s then s
    else if vcHop b = 0 then cVcp s 10
    else if relayPort s (routeOf s o) then relayOn s [routeOf s o] (vcPri b) (vcTransit b none)
    else cVcp s 9
  | none => cVcp s 7

/-- A pair of AUTH and SEQ is remembered; with 64 pairs the oldest gives way (R269). -/
def dupAdd (s : State) (b : Bytes) : State :=
  let e : DupEnt := { auth := vcAuth b, seq := vcSeq b, at_ := s.sfp }
  onVcp s (fun v => { v with dup := (v.dup ++ [e]).drop (v.dup.length + 1 - 64) })

/-- The pair is remembered. -/
def dupHeld (s : State) (b : Bytes) : Bool := s.vcp.dup.any (fun e => e.auth == vcAuth b && e.seq == vcSeq b)

/-- The engine is a member of a group: always of 4,095 (R266). -/
def isMember (s : State) (g : BitVec 12) : Bool := g == 4095 || s.vcp.members.contains g.toNat

end Sys2Proof.Machine
end

