-- ==== Sys2Proof/Machine/RegRead.lean ====
section
/-! DEFINITION. What every register and every word of a memory window reads (files 16, 18; Tables 07-3, 09-2). -/

namespace Sys2Proof.Machine

open Sys2Proof

/-! Words of wider values (R377). -/
def hiW (n : Nat) : Word := word (n / 2 ^ 32)
def loW (n : Nat) : Word := word (n % 2 ^ 32)
/-- High or low word, by the address's bit 2. -/
def halfW (a n : Nat) : Word := if a / 4 % 2 = 0 then hiW n else loW n
/-- FI and BI of a position as SEQ_RESET_POS and SFP_CAP_POS hold them. -/
def posW (p : Sfp) : Word := word (fld p.fi 5 18 + fld p.bi 18 0)

/-- The running image, none in rescue mode. -/
def runImage (s : State) : Tbl Byte := if s.seq.imageB then s.flash.imgB else s.flash.imgA
/-- Firmware has started since the last module reset. -/
def fwRuns (s : State) : Bool := decide (s.phase = .ready) || decide (s.phase = .booting)
/-- The running firmware's version, 0.0.0.0 in rescue mode (R457). -/
def fwVersion (s : State) : Word := if s.seq.rescue || !fwRuns s then 0 else Config.imageVersion (runImage s)
/-- A firmware-owned register whose content is internal: what a master wrote, else 0 before firmware runs and
firmware's own after (R391). -/
def fwReg (s : State) (a : Nat) : Word :=
  match tfind s.regs.act a with
  | some w => w
  | none => if fwRuns s then Config.fwWord a else 0

/-- A firmware-owned register whose content the model holds: what a master wrote over it, else that content. -/
def fwOver (s : State) (a : Nat) (v : Word) : Word := (tfind s.regs.act a).getD v

/-- Code of a bank's power state (R362). -/
def bankCode : BankSt → Nat
  | .on => 0 | .ret => 1 | .off => 2 | .moving _ _ => 3
/-- Banks of a memory: 0 working RAM, 1 scratchpad, 2 alignment store. -/
def banksOf (s : State) (m : Nat) : Tbl BankSt := if m = 0 then s.mem.wram else if m = 1 then s.mem.scratch else s.mem.align
/-- State of one bank. -/
def bankSt (s : State) (m b : Nat) : BankSt := tget .on (banksOf s m) b
/-- Two bits per bank for n banks from `lo`. -/
def bankBits (s : State) (m lo n : Nat) : Nat :=
  (rangeFrom lo n).foldl (fun a b => a + bankCode (bankSt s m b) * 4 ^ (b - lo)) 0

/-- Banks firmware marks in use (R363). -/
def inUseW (s : State) : Nat := (fwReg s (aSys + 0x058)).toNat % 65536
def inUseS (s : State) : Nat := (fwReg s (aSys + 0x05C)).toNat % 256
/-- Alignment-store banks that hold allotted lines. -/
def lineBankMask (s : State) : BitVec 80 := maskOf 80 (s.map.lines.flatMap (fun kv => lineBanks kv.1))

/-! Status words. -/

/-- PAIR_LIVE (Table 18-3). -/
def pairLive (s : State) : Nat :=
  let p := s.pair
  at1 p.lost 0 + at1 p.disagree 1 + at1 p.dual 2 + at1 p.blocked 3 + at1 (p.hashBad != 0) 4
    + at1 (s.grps.any (fun kv => kv.2.mirDiff)) 5 + at1 (p.down0 || p.down1) 8
/-- PAIR_STATUS (Table 18-3). -/
def pairStatusW (s : State) : Nat :=
  let p := s.pair
  pairCode p.st + at1 s.pins.twinPos 3 + at1 p.aliveIn 4 + at1 p.aliveOut 5 + at1 p.live0 6 + at1 p.live1 7
    + fld p.why 3 8 + at1 p.swap.isSome 11 + at1 p.resync 12

/-- FEED_STATUS (Table 11-3). -/
def feedStatusW (s : State) : Nat :=
  let p := s.pwr
  at1 p.goodA 0 + at1 p.goodB 1 + at1 p.sel 2 + at1 p.uvA 3 + at1 p.uvB 4 + at1 p.ovA 5 + at1 p.ovB 6 + at1 p.brownout 7
    + at1 (!feedGoodOf p (!p.sel)) 8 + at1 p.switching.isSome 9 + at1 p.suspectA 10 + at1 p.suspectB 11 + at1 p.monFault 12

/-- Buffer fill of a port: elastic for a trunk, adaptation for a client. -/
def portFill (s : State) (p : Nat) : Nat :=
  if isTrunk s p then (portOf s p).trunk.fill.getD 0 else if isClient s p then adFill (portOf s p).client.ad else 0

/-- The remaining hold-off frames of a group: the longest of its conditions that still runs. -/
def grpHoldRem (s : State) (g : Nat) : Nat :=
  let x := grpOf s g
  let rem := fun (c : CondSt) => if c.present && !c.raised then holdFrames s g - c.run else 0
  max (rem x.sf) (max (rem x.sfp) (rem x.sd))
/-- The remaining wait-to-restore frames. -/
def grpWtrRem (s : State) (g : Nat) : Nat :=
  let x := grpOf s g
  if x.stReq.toNat = 2 then wtrFrames s g - x.wtrRun else 0

/-- GRP_STAT (Table 18-8). -/
def grpStat (s : State) (g : Nat) : Nat :=
  let x := grpOf s g
  at1 x.sel 0 + at1 x.en 1 + fld (eqCode x.eq) 3 2 + fld x.eqWhy 3 5 + fld x.loc.toNat 4 8 + fld x.rem.toNat 4 12
    + fld x.eff.toNat 4 16 + fld (x.stReq.toNat) 4 20 + at1 x.lo 24 + at1 x.fs 25 + at1 x.ms 26 + at1 x.apsLoss 27
    + at1 x.fopPm 28 + at1 x.fopNr 29 + at1 x.revMism 30 + at1 x.tblErr 31
/-- GRP_EQ (Table 18-8). -/
def grpEq (s : State) (g : Nat) : Nat :=
  let x := grpOf s g
  fld x.e 11 0 + at1 x.delProt 11 + at1 x.mw.lock 12 + at1 x.mp.lock 13

/-- The frame-phase source in use (Table 14-3, byte 15). -/
def fpCode (s : State) : Nat :=
  match selFp s with
  | some k => 0xC + k
  | none => 0xF
/-- THY_STATUS (Table 18-14). -/
def thyStatusW (s : State) : Nat :=
  let t := s.thy
  fld (t.ref.getD 0xF) 4 0 + fld (fpCode s) 4 4 + fld t.bwEff.toNat 4 8 + at1 t.refFault 12 + at1 t.allDnu 13
    + at1 t.mfcValid 14 + at1 t.mfcMism 15 + at1 t.flywheel 16

/-- A frame-phase candidate's condition, as a frequency candidate's bits (Table 18-14). -/
def fpCandBits (s : State) (c : Nat) : Nat :=
  let k := c - 12
  let f := fpOf s k
  at1 (candEn s c) 0 + at1 (candEn s c && !f.qualified && f.last.isSome) 1 + at1 f.qualified 4
    + at1 (fpEnabled s k && f.qualified) 5
/-- Multiframes that a count of frames still takes. -/
def mfsOf (o : Option Nat) : Nat := ((o.getD 0) + 31) / 32
/-- Candidate status bits [6:0] (Table 18-14; R306). -/
def candBits (s : State) (c : Nat) : Nat :=
  if 12 ≤ c then fpCandBits s c
  else
    let x := candOf s c
    at1 (candEn s c) 0 + at1 x.fault 1 + at1 x.hold.isSome 2 + at1 x.wtr.isSome 3 + at1 x.qualified 4 + at1 (eligible s c) 5
      + at1 (decide (c < 8) && (portOf s (cLane (actv s) c)).qlStale) 6
/-- Effective QL of a candidate, DNU for the frame-pulse inputs. -/
def candQl (s : State) (c : Nat) : Nat := if c < 12 then effQl s c else 0xF

/-- HB_EARLY (R74). -/
def hbEarly (s : State) : Bool := !s.thy.daysLoaded || decide (s.thy.days < 30)
/-- HB_ACCUM in ns, saturating. -/
def hbAccumNs (s : State) : Nat := min 0xFFFFFFFF (s.thy.hbAccum / hbNs)

/-! Interrupts (R394). -/

/-- A sticky register shares a set bit with its enables. -/
def irqHit (s : State) (h e : Nat) : Bool := (hist s h &&& act s e) != 0
/-- PORT_SUMMARY bit of a port. -/
def portIrq (s : State) (p : Nat) : Bool := irqHit s (hPort p) (hPort p + 4)
/-- INT_SUMMARY. -/
def intSummary (s : State) : Nat :=
  at1 (irqHit s hThy (hThy + 4)) 0 + at1 (irqHit s hFeed (hFeed + 4)) 1 + at1 (allPorts.any (portIrq s)) 2
    + at1 (irqHit s hProt (hProt + 4)) 3 + at1 (irqHit s hCommit (hCommit + 4)) 4 + at1 (irqHit s hCore (hCore + 4)) 5
    + at1 (irqHit s (hMg false) (hMg false + 4)) 6 + at1 (irqHit s (hMg true) (hMg true + 4)) 7
    + at1 (irqHit s hPair (hPair + 4)) 8
    + at1 (irqHit s hOvfHi (hOvfHi + 8) || irqHit s hOvfLo (hOvfLo + 8) || irqHit s hSage (hSage + 4)) 9
    + at1 (bit (act s (aSys + 0x090)) 0 && !s.vcp.spiRx.isEmpty) 10 + at1 (irqHit s hSys (hSys + 4)) 11
/-- INT_N is asserted exactly while INT_SUMMARY is non-zero. -/
def intAsserted (s : State) : Bool := intSummary s != 0

/-! The counter catalogue (Tables 19-1 to 19-3, R414). -/

/-- Number of indices of a block, 0 for no block. -/
def catSize (blk : Nat) : Nat :=
  if blk = 1 then 31 else if blk = 2 then 12 else if blk = 3 then 5 else if blk = 4 then 7 else if blk = 5 then 13
  else if blk = 6 then 9 else if blk = 7 then 10 else if blk = 8 then 8 else if blk = 9 ∨ blk = 0xA then 25
  else if blk = 0xB then 256 else if 0x100 ≤ blk ∧ blk < 0x180 then 71 else if blk = 0x200 then 40960
  else if blk = 0x300 then 65536 else 0

/-- OLDEST record number held (R423). -/
def traceOldest (s : State) : Nat := s.sage.traceNext - 65536

/-- Hash bin of a destination address (R335). -/
def macBin (six : Bytes) : Nat := bits (crc32 six) 31 23
/-- Group address of a group (R256). -/
def groupMac (g : Nat) : Bytes := [0x03, 0x5A, 0x42, 0x00] ++ beBytes 2 (g % 4096)
/-- Effective hash: HASH_EXTRA with the bins of group 4,095 and, from READY, of the member groups (R334, R347). -/
def effHash (s : State) : BitVec 512 :=
  (4095 :: (if s.phase = .ready then s.vcp.members else [])).foldl (fun w g => setBit w (macBin (groupMac g)) true)
    s.mgSh.hashExtra

/-- A 64-bit counter word pair of the counter window (R402). -/
def ctrWin (s : State) (a : Nat) : Word :=
  let sel := (act s aCtrSel).toNat
  let blk := sel / 65536
  let idx := sel % 65536 + (a - (aSage + 0x2800)) / 8
  if idx < catSize blk then halfW a (ctrLatch s blk idx) else 0

/-! Registers by block. -/

/-- Table 18-3. -/
def readSys (s : State) (o : Nat) : Word :=
  let a := aSys + o
  if o = 0x000 then word (s.pins.devid.toNat + at1 s.pins.twinPos 12 + Config.skoloRev.toNat * 65536)
  else if o = 0x004 then fwOver s a (fwVersion s)
  else if o = 0x008 then fwOver s a (if fwRuns s && !s.seq.rescue then (ownCompat s).setWidth 32 else 0)
  else if o = 0x00C then fwOver s a (word (b2n (decide (s.phase = .ready))))
  else if o = 0x010 then word (b2n s.mem.remap)
  else if o = 0x018 ∨ o = 0x020 ∨ o = 0x028 ∨ o = 0x030 ∨ o = 0x038 then tget 0 s.regs.gw a
  else if o = 0x040 then word (at1 s.regs.guardFail 0 + fld s.regs.guardCause 3 1)
  else if o = 0x044 then s.regs.guardAddr
  else if o = 0x060 ∨ o = 0x090 ∨ o = 0x0C8 ∨ o = 0x100 ∨ o = 0x10C ∨ o = 0x114 ∨ o = 0x118 ∨ o = 0x11C then act s a
  else if o = 0x070 then word s.seq.cause
  else if o = 0x074 then hiW s.seq.resetAt.mfc
  else if o = 0x078 then loW s.seq.resetAt.mfc
  else if o = 0x07C then posW s.seq.resetAt
  else if o = 0x080 then word (intSummary s)
  else if o = 0x094 then s.vcp.spiStat.setWidth 32
  else if o = 0x0A0 then word (bankBits s 0 0 16)
  else if o = 0x0A4 then word (bankBits s 1 0 8)
  else if 0x0A8 ≤ o ∧ o < 0x0BC then word (bankBits s 2 (16 * ((o - 0x0A8) / 4)) 16)
  else if o = 0x0C0 then s.mem.eccAddr
  else if o = 0x0C4 ∨ o = 0x0CC ∨ o = 0x108 then hist s a
  else if o = 0x104 then word (pairStatusW s)
  else if o = 0x110 then word (pairLive s)
  else if 0x120 ≤ o ∧ o < 0x130 then word (s.pair.txSuspect.toNat / 2 ^ (8 * (o - 0x120)))
  else if o = 0x130 then fwOver s a (word s.seq.boot)
  else if o = 0x134 then Config.idcode
  else if o = 0x138 then hiW Config.serial.toNat
  else if o = 0x13C then loW Config.serial.toNat
  else if kindSys o = .none ∨ kindSys o = .port then 0
  else fwReg s a

/-- Table 18-4, status of port p at offset o. -/
def readPortStat (s : State) (p o : Nat) : Word :=
  let x := portOf s p
  if o = 0x100 then x.rep.setWidth 32
  else if o = 0x104 then hist s (hPort p)
  else if o = 0x108 then act s (hPort p + 4)
  else if o = 0x10C then
    (match x.trunk.peer with
     | some w => word (bits w 23 12 + bits w 11 5 * 2 ^ 12 + bits w 4 3 * 2 ^ 19 + bits w 2 0 * 2 ^ 21 + 2 ^ 31)
     | none => 0)
  else if o = 0x110 then
    (match x.trunk.rxSmi with
     | some v => word (v.toNat + 65536)
     | none => 0)
  else if o = 0x114 then word (x.ql.toNat + at1 x.qlStale 4 + fld x.qlSfp.fi 5 8)
  else if o = 0x118 then hiW x.qlSfp.mfc
  else if o = 0x11C then loW x.qlSfp.mfc
  else if o = 0x124 then x.client.adPpm.setWidth 32
  else if o = 0x128 then word (portFill s p % 65536)
  else if 0x140 ≤ o ∧ o < 0x180 then word (pkNat (x.trunk.rxTti.getD []) (o - 0x140) 4)
  else if o = 0x180 then word (b2n x.trunk.rxTti.isSome)
  else 0

/-- Tables 18-4 and 18-5. -/
def readPorts (s : State) (o : Nat) : Word :=
  if o < 0x20000 then
    (if o % 0x400 < 0x100 then (if kindPort (o % 0x400) = .none then 0 else act s (aPorts + o))
     else readPortStat s (o / 0x400) (o % 0x400))
  else if o < 0x20100 then act s (aPorts + o)
  else if o < 0x20200 then
    (let m := (o - 0x20100) / 4
     word (at1 (chkOf s m).sync 0 + at1 (bit (actv s (aTpChk m)) 31) 1))
  else if o < 0x20210 then
    (let w := (o - 0x20200) / 4
     word ((List.range 32).foldl (fun a j => a + at1 (portIrq s (32 * w + j)) j) 0))
  else 0

/-- Table 18-6. -/
def readCore (s : State) (o : Nat) : Word :=
  if o = 0 then word (at1 s.map.bActive 0
    + at1 (s.com.ents.any (fun kv => decide (kv.2.st = .armed) && bit kv.2.mask 0)) 1)
  else if o = 4 then word s.map.changed
  else if o = 8 then
    (match s.map.eccAddr with
     | some (i, b, smi) => word (i + at1 b 16 + 2 ^ 17 + at1 smi 18)
     | none => 0)
  else if o = 0xC then hist s hCore
  else if o = 0x10 then act s (aCore + 0x10)
  else if o = 0x14 then word s.map.parityAddr
  else 0

/-- Tables 18-7 and 18-8. -/
def readProt (s : State) (o : Nat) : Word :=
  if o < 0x80000 then (if kindProt o = .none then 0 else act s (aProt + o))
  else if o < 0x90000 then
    (let g := (o - 0x80000) / 0x20
     let k := o % 0x20
     let x := grpOf s g
     if k = 0 then word (grpStat s g)
     else if k = 4 then word (grpHoldRem s g)
     else if k = 8 then word (grpWtrRem s g)
     else if k = 0xC then
       (match x.rx with
        | some w => word (bits w 55 32 + 2 ^ 31)
        | none => 0)
     else if k = 0x10 then
       (match x.rx with
        | some w => word (bits w 31 0)
        | none => 0)
     else if k = 0x14 then word (at1 x.locSig 0 + at1 x.remSig 1 + at1 x.effSig 2 + at1 (reqSig x.stReq.toNat) 3)
     else if k = 0x18 then word (grpEq s g)
     else 0)
  else if o = 0x90000 then hist s hProt
  else if o = 0x90004 then act s (hProt + 4)
  else if o = 0x90010 then fwReg s (aProt + o)
  else 0

/-- Table 18-9. -/
def readCommit (s : State) (o : Nat) : Word :=
  let c := s.com
  if o = 0 then word (c.suspect.toNat + c.stageOpen.toNat * 256 + at1 c.frozenWr 16 + fld c.ents.length 5 24)
  else if o = 4 then hiW c.lastEpoch
  else if o = 8 then loW c.lastEpoch
  else if o = 0x10 then posW s.sfp
  else if o = 0x14 then hiW c.capMfc
  else if o = 0x18 then loW c.capMfc
  else if o = 0x20 then hist s hCommit
  else if o = 0x24 then act s (hCommit + 4)
  else if o = 0x30 ∨ o = 0x34 then fwReg s (aCommit + o)
  else if 0x100 ≤ o ∧ o < 0x300 then
    (match tfind c.ents ((o - 0x100) / 0x20) with
     | some e =>
       let k := o % 0x20
       if k = 0 then word (entCode e.st + fld e.mask.toNat 8 8 + at1 e.grp 31 + fld e.dest.toNat 12 16)
       else if k = 4 then hiW e.epoch
       else if k = 8 then loW e.epoch
       else if k = 0xC then word e.count
       else 0
     | none => 0)
  else 0

/-- Table 18-10. -/
def readSage (s : State) (o : Nat) : Word :=
  let a := aSage + o
  if o < 0x1000 then (if kindSage o = .none then 0 else act s a)
  else if o < 0x1100 then word (pctrLatch s ((o - 0x1000) / 4))
  else if o = 0x1100 ∨ o = 0x1104 ∨ o = 0x1200 then hist s a
  else if o = 0x1108 ∨ o = 0x110C ∨ o = 0x1204 ∨ o = 0x2000 then act s a
  else if o = 0x1210 ∨ o = 0x1214 then (if o = 0x1210 then hiW s.sage.traceNext else loW s.sage.traceNext)
  else if o = 0x1218 ∨ o = 0x121C then (if o = 0x1218 then hiW (ctrVal s 8 1) else loW (ctrVal s 8 1))
  else if o = 0x1220 ∨ o = 0x1224 then (if o = 0x1220 then hiW (ctrVal s 8 6) else loW (ctrVal s 8 6))
  else if o = 0x1230 then s.sage.m2Max.setWidth 32
  else if 0x2800 ≤ o ∧ o < 0x3000 then ctrWin s a
  else 0

/-- Table 18-12, a status or setting of one port. -/
def readMg (s : State) (b : Bool) (o : Nat) : Word :=
  let m := mgOf s b
  if o = 0x34 then word (fld m.mode 2 0 + fld m.speed 2 2 + at1 m.link 4 + at1 m.throttled 5)
  else if o = 0x38 then hist s (hMg b)
  else if kindMg o = .none then 0
  else act s (aMg b o)

/-- Tables 18-11 and 18-12. -/
def readMgmt (s : State) (o : Nat) : Word :=
  let h := s.mgSh
  if o = 0 then hiW Config.macA.toNat
  else if o = 4 then loW Config.macA.toNat
  else if o = 8 then hiW Config.macB.toNat
  else if o = 0xC then loW Config.macB.toNat
  else if o = 0x14 then (act s aMdioCmd &&& 0x73FFFFFF#32) ||| word (at1 h.mdio.isSome 31)
  else if o = 0x18 then word (h.mdioData.toNat + at1 h.mdioValid 16)
  else if o = 0x1C then hist s hMdio
  else if 0x80 ≤ o ∧ o < 0xC0 then word ((effHash s).toNat / 2 ^ (8 * (o - 0x80)))
  else if o = 0xC8 then (act s aSnapCtrl &&& 0x1F03#32) ||| word (at1 h.snapPend.isSome 31)
  else if o = 0xCC then word (at1 h.validA 0 + at1 h.validB 1 + at1 h.late 2 + at1 h.far 3)
  else if o = 0xD0 then hiW h.snapSfp.mfc
  else if o = 0xD4 then loW h.snapSfp.mfc
  else if o = 0xD8 then word h.snapSfp.fi
  else if 0x100 ≤ o ∧ o < 0x200 then readMg s false (o - 0x100)
  else if 0x200 ≤ o ∧ o < 0x300 then readMg s true (o - 0x200)
  else if 0x1000 ≤ o ∧ o < 0x10C8 then halfW o (s.mgA.snap.getD ((o - 0x1000) / 8) 0)
  else if 0x1800 ≤ o ∧ o < 0x18C8 then halfW o (s.mgB.snap.getD ((o - 0x1800) / 8) 0)
  else if kindMgmt o = .none then 0
  else act s (aMgmt + o)

/-- The KP bits of a slow register as they stand: those outside its fields (R375). -/
def kpOf (s : State) (a mask : Nat) : Word := (Config.kpInit a ^^^ tget 0 s.regs.kp a) &&& ~~~(word mask)

/-- BLK_STAT of a slow block (R382). -/
def blkStat (s : State) (k : Nat) : Word :=
  let w := tget 0 s.regs.blk k
  word (at1 (tfind s.regs.posted k).isSome 0 + at1 (bit w 0) 1 + at1 (bit w 1) 2)

/-- Tables 18-13 and 18-14. -/
def readThy (s : State) (o : Nat) : Word :=
  let t := s.thy
  if o = 0x180 then t.refinQl.setWidth 32
  else if 0x184 ≤ o ∧ o < 0x194 then fwReg s (aThy + o)
  else if o < 0x200 then act s (aThy + o)
  else if o = 0x200 then word (2 ^ thyCode t.st)
  else if o = 0x204 then hist s hThy
  else if o = 0x208 then act s (hThy + 4)
  else if o = 0x20C then word (thyStatusW s)
  else if o = 0x210 then t.pbo
  else if o = 0x214 then hiW t.ctl.toNat
  else if o = 0x218 then loW t.ctl.toNat
  else if o = 0x21C then word (at1 t.hoReady 0 + fld t.hoCount 12 16)
  else if o = 0x220 then hiW t.hoFreq.toNat
  else if o = 0x224 then loW t.hoFreq.toNat
  else if o = 0x228 then hiW t.hoEnd.toNat
  else if o = 0x22C then loW t.hoEnd.toNat
  else if o = 0x230 then word (b2n (hbEarly s))
  else if o = 0x234 then word (hbAccumNs s)
  else if o = 0x238 then word t.hbRemain
  else if 0x280 ≤ o ∧ o < 0x360 then
    (let c := (o - 0x280) / 0x10
     if o % 0x10 = 0 then word (candBits s c + fld (candQl s c) 4 8)
     else if o % 0x10 = 4 then word (mfsOf (candOf s c).hold)
     else if o % 0x10 = 8 then word (mfsOf (candOf s c).wtr)
     else 0)
  else 0

/-- LANE_STAT of a lane: a port's CDR lock and signal detect follow LOL and LOS; the rest is the lane's own. -/
def laneStatW (s : State) (l : Nat) : Word :=
  let free := Config.laneStat l s.fresh &&& 7
  if l < 128 then
    (if modeOf s l = 0 then 0
     else (free &&& 1) ||| word (at1 (!bit (portOf s l).raw dLos && !bit (portOf s l).raw dLol) 1
       + at1 (!bit (portOf s l).raw dLos) 2))
  else free

/-- Slow-block fields of a register (Tables 18-13 to 18-18). -/
def readSlowFields (s : State) (a : Nat) : Word :=
  if a < aSerdes then readThy s (a - aThy)
  else if a < aPower then
    (let o := a - aSerdes - 0x1000
     if o % 0x20 = 0 then act s a else laneStatW s (o / 0x20))
  else if a < aPins then
    (let o := a - aPower
     if o = 0x010 then word (feedStatusW s)
     else if o = 0x014 then hist s hFeed
     else if o = 0x018 then act s a
     else if o = 0x01C then s.pwr.mvA.setWidth 32
     else if o = 0x020 then s.pwr.mvB.setWidth 32
     else if o = 0x024 then s.pwr.load
     else if o = 0x028 then word (b2n s.pwr.target)
     else if o = 0x030 then word s.pwr.result
     else word s.pwr.lastOff)
  else if a < aOcxo then
    (let o := a - aPins
     if o = 0x050 then s.pins.gpioIn.setWidth 32
     else if o = 0x058 then word (s.pins.devid.toNat + at1 s.pins.twinPos 12)
     else if o = 0x05C then word (at1 s.pair.aliveIn 0 + at1 s.pair.aliveOut 1)
     else act s a)
  else
    (let o := a - aOcxo
     if o = 0x010 then s.thy.temp.setWidth 32
     else if o = 0x014 then word s.thy.days
     else fwReg s a)

/-- Fields of a register kind, as a mask. -/
def kindMask : RegKind → Nat
  | .none => 0 | .ro m => m | .rw m _ => m | .w1c _ m => m | .rs _ m => m | .gw m _ => m | .port => 0 | .blk => m32

/-- A slow register with its KP bits. A read of the register a posted write is reaching gives its value before it,
which the fields still hold (R385). -/
def readSlow (s : State) (a : Nat) : Word :=
  match kindAct a with
  | .blk => blkStat s ((slowBlockOf a).getD 0)
  | .none => (match stagedOf a with
    | some b => (stg s b &&& word (kindMask (kindAct b))) ||| kpOf s b (kindMask (kindAct b))
    | none => 0)
  | .port => 0
  | .ro m => (readSlowFields s a &&& word m) ||| kpOf s a m
  | .rw m _ => (readSlowFields s a &&& word m) ||| kpOf s a m
  | .w1c _ m => (readSlowFields s a &&& word m) ||| kpOf s a m
  | .rs _ m => (readSlowFields s a &&& word m) ||| kpOf s a m
  | .gw m _ => (readSlowFields s a &&& word m) ||| kpOf s a m

/-- A fast register: reserved bits read 0 (R375). -/
def readFast (s : State) (a : Nat) : Word :=
  match stagedOf a with
  | some b => stg s b &&& word (kindMask (kindAct b))
  | none =>
    let v :=
      if kindAct a = .none then 0
      else if a < aPorts then readSys s (a - aSys)
      else if a < aCore then readPorts s (a - aPorts)
      else if a < aProt then readCore s (a - aCore)
      else if a < aCommit then readProt s (a - aProt)
      else if a < aSage then readCommit s (a - aCommit)
      else if a < aMgmt then readSage s (a - aSage)
      else readMgmt s (a - aMgmt)
    v &&& word (kindMask (kindAct a))

/-- What a register address of either window reads. -/
def readReg (s : State) (a : Nat) : Word := if inSlow a then readSlow s a else if inFast a then readFast s a else 0

/-! Memory windows. -/

/-- A word of the map window (Table 07-3), an uncorrectable word as its entry's zeros (R167). -/
def readMapWord (s : State) (a : Nat) : Word :=
  let o := a - 0x20000000
  let b := decide (0x20000 ≤ o)
  let r := o % 0x20000
  if 0x40000 ≤ o then 0
  else if r < 0x14000 then halfW r (entryOf s.map b (r / 8)).toNat
  else if r < 0x14200 then smiWord s.map b ((r - 0x14000) / 4)
  else 0

/-- Line i of the alignment-store control window as 128 bits (Table 09-2). -/
def lineWord (s : State) (i : Nat) : Nat :=
  match tfind s.map.lines i with
  | some (g, m) =>
    let x := grpOf s g
    2 ^ 127 + fld g 11 116 + fld m 14 102 + at1 x.delProt 101 + fld x.e 11 90
  | none => 0
/-- Group g of that window. -/
def groupWord (s : State) (g : Nat) : Nat :=
  let x := grpOf s g
  fld (eqCode x.eq) 3 125 + fld x.eqWhy 5 120 + fld x.e 11 109 + at1 x.delProt 108 + at1 x.mp.lock 106 + at1 x.mw.lock 107
    + fld x.seqBoth 48 48
/-- A word of the alignment-store control window. -/
def readAlignWord (s : State) (a : Nat) : Word :=
  let o := a - 0x28000000
  let pick := fun (n : Nat) => word (n / 2 ^ (32 * (3 - o / 4 % 4)))
  if o < 0x4000 then pick (lineWord s (o / 16))
  else if o < 0xC000 then pick (groupWord s ((o - 0x4000) / 16))
  else 0

/-- The 32 bytes of a trace record (R422). -/
def recBytes (r : TraceRec) : Bytes :=
  sfpBytes r.at_ ++ [by1 r.cls, by1 r.sub] ++ beBytes 2 r.obj.toNat ++ slice r.data 0 18
/-- A byte of the trace buffer. -/
def traceByte (s : State) (o : Nat) : Byte :=
  match tfind s.sage.ring (o / 32) with
  | some r => (recBytes r).getD (o % 32) 0
  | none => Config.traceRam o

/-- A byte of the scratchpad; the content of a bank that has lost it is free (R321). -/
def scratchByte (s : State) (o : Nat) : Byte :=
  match tfind s.mem.bytes o with
  | some b => b
  | none => (match tfind s.mem.junk (o / 32768) with
    | some d => Config.freeByte (d + o % 32768)
    | none => 0)
/-- The locked code range, by offset in working RAM (R365); none while CODE_LOCK holds zeros. -/
def codeLocked (s : State) (o : Nat) : Bool :=
  let b := (fwReg s (aSys + 0x050)).toNat
  let l := (fwReg s (aSys + 0x054)).toNat
  decide (b ≤ o) && decide (o ≤ l) && (b != 0 || l != 0)

/-- A byte of working RAM; the content of a bank that has lost it is free (R321). Firmware's own content is that of this
boot and, outside the locked code, of this run of the sequencer (R367, R368). -/
def ramByte (s : State) (o : Nat) : Byte :=
  match tfind s.mem.ram o with
  | some b => b
  | none => (match tfind s.mem.junk (64 + o / 65536) with
    | some d => Config.freeByte (d + o % 65536)
    | none => Config.workingRam (s.seq.boot * 2 ^ 32 + if codeLocked s o then 0 else s.mem.wramGen) o)

end Sys2Proof.Machine
end

