-- ==== Sys2Proof/Machine/RegWrite.lean ====
section
/-! DEFINITION. Matrix transactions of 32 bits: decode, reach, responses, and what a write of every register and memory
word does: access codes, staged views, wide values, guarded pairs, posted writes (files 07, 16, 17, 18). -/

namespace Sys2Proof.Machine

open Sys2Proof

/-! The matrix (Tables 16-1 to 16-3). -/

/-- Target of an address, none outside the map (Table 16-2). -/
def targetOf (a : Nat) : Option Nat :=
  if a < 0x10000000 then some 0 else if a < 0x18000000 then some 1 else if a < 0x20000000 then some 2
  else if a < 0x28000000 then some 3 else if a < 0x30000000 then some 4 else if a < 0x38000000 then some 7
  else if a < 0x40000000 then none else if a < 0x50000000 then some 5 else if a < 0x60000000 then some 6 else none

/-- A master reads a target (Table 16-1). -/
def mayRead (m t : Nat) : Bool :=
  (m == 0 && t ≤ 1) || m == 1 || (m == 2 && (t == 3 || t == 5)) || (m == 3 && (t == 3 || t == 5 || t == 6))
    || (m == 4 && t == 5) || (m == 5 && (t == 5 || t == 6)) || (m == 6 && (t ≤ 1 || t == 5))
/-- A master writes a target; M1 reaches T4 and T7 to read them, and T4 itself refuses its writes (Tables 16-1, 16-2). -/
def mayWrite (m t : Nat) : Bool :=
  (m == 1 && t != 7) || (m == 2 && t == 5) || (m == 3 && (t == 3 || t == 5 || t == 6)) || (m == 4 && t == 5)
    || (m == 5 && t == 7) || (m == 6 && (t ≤ 1 || t == 5))

/-- Offset in working RAM of an address (Table 16-2, REMAP). -/
def wramOff (s : State) (a : Nat) : Option Nat :=
  let base := if s.mem.remap then 0 else 0x10000000
  if base ≤ a ∧ a < base + 0x100000 then some (a - base) else none
/-- Offset in the boot ROM. -/
def romOff (s : State) (a : Nat) : Option Nat :=
  let base := if s.mem.remap then 0x10000000 else 0
  if base ≤ a ∧ a < base + 0x40000 then some (a - base) else none

/-- The response of a master's transaction. -/
def setResp (s : State) (m : Nat) (r : Resp) : State := onRegs s (fun x => { x with resp := tput .okay x.resp m r })
/-- The response of a master's last transaction. -/
def respOf (s : State) (m : Nat) : Resp := tget .okay s.regs.resp m

/-- DECERR: counted for the master (Table 16-3). -/
def decErr (s : State) (m : Nat) : State := setResp (cSys s (16 + m)) m .decerr
/-- SLVERR. -/
def slvErr (s : State) (m : Nat) : State := setResp (cSys s (24 + m)) m .slverr
/-- ASLEEP (R363). -/
def asleep (s : State) (m : Nat) : State := setResp (cSys s 7) m .asleep

/-- Four bytes of a word, most significant first. -/
def wordBytes (v : Word) : Bytes := beBytes 4 v.toNat

/-- Store bytes into working RAM from an offset. -/
def ramPut (s : State) (o : Nat) (b : Bytes) : State :=
  onMem s (fun x => { x with ram := (List.range b.length).foldl (fun t i => tset t (o + i) (b.getD i 0)) x.ram })
/-- Store bytes into the scratchpad from an offset. In a bank of undefined content every written byte is listed. -/
def scratchPut (s : State) (o : Nat) (b : Bytes) : State :=
  onMem s (fun x => { x with bytes := (List.range b.length).foldl (fun t i =>
    if (tfind x.junk ((o + i) / 32768)).isSome then tset t (o + i) (b.getD i 0)
    else tput 0 t (o + i) (b.getD i 0)) x.bytes })
/-- A port write discards the correction pending for its word and rewrites its check bits (R359). -/
def eccFresh (s : State) (memory o : Nat) : State :=
  onMem s (fun x => { x with ecc := tdel x.ecc (memory * 2 ^ 32 + o / 8 * 8) })

/-- The record that 32 bytes of the trace buffer spell. -/
def recOfBytes (b : Bytes) : TraceRec :=
  { at_ := sfpOfBytes b 0, cls := pk1 b 10, sub := pk1 b 11, obj := BitVec.ofNat 16 (pkNat b 12 2), data := slice b 14 18 }

/-- A write to working RAM, ROM or an address beyond them (T0, T1). -/
def codeWrite (s : State) (m a : Nat) (v : Word) : State :=
  match wramOff s a with
  | some o =>
    if bankSt s 0 (o / 65536) ≠ .on then asleep s m
    else if codeLocked s o && !(m == 6 && !s.seq.running) then slvErr s m
    else setResp (eccFresh (ramPut s (o / 4 * 4) (wordBytes v)) 0 o) m .okay
  | none => if (romOff s a).isSome then slvErr s m else decErr s m

/-- A write to the scratchpad (T2). -/
def scratchWrite (s : State) (m a : Nat) (v : Word) (collide : Bool) : State :=
  let o := a - 0x18000000
  if 0x40000 ≤ o then decErr s m
  else if bankSt s 1 (o / 32768) ≠ .on then asleep s m
  else if collide then setResp (cSys s 8) m .collision
  else setResp (eccFresh (scratchPut s (o / 4 * 4) (wordBytes v)) 1 o) m .okay

/-- A write to the trace buffer (T7): Sage's reader alone makes one. -/
def traceWrite (s : State) (m a : Nat) (v : Word) : State :=
  let o := a - 0x30000000
  if 0x200000 ≤ o then decErr s m
  else
    let b := (rangeFrom (o / 32 * 32) 32).map (traceByte s)
    let k := o % 32 / 4 * 4
    let w := b.take k ++ wordBytes v ++ b.drop (k + 4)
    setResp (eccFresh (onSage s (fun g => { g with ring := tset g.ring (o / 32) (recOfBytes w) })) 3 o) m .okay

/-- A write to the map window (T3; Table 07-3, R162 to R165). -/
def mapWordWrite (s : State) (m a : Nat) (v : Word) (collide : Bool) : State :=
  let o := a - 0x20000000
  let b := decide (0x20000 ≤ o)
  let r := o % 0x20000
  if 0x40000 ≤ o ∨ 0x14200 ≤ r then setResp s m .okay
  else if b = s.map.bActive then slvErr (cCore (sticky s hCore 4) 1) m
  else if frozenNow s 0 then slvErr (frozenWrite s) m
  else if 0x14000 ≤ r then setResp (hostSmi s b ((r - 0x14000) / 4) v) m .okay
  else if r % 8 < 4 then setResp (onMap s (fun x => { x with hold := v })) m .okay
  else
    let g := r / 8
    let e : Entry := BitVec.ofNat 64 (s.map.hold.toNat * 2 ^ 32 + v.toNat)
    setResp (hostStore s b g e collide) m (if collide && inPass s g then .collision else .okay)

/-! Registers without a guard: what a write does at its completion (R372, R378). -/

/-- A staged word is written (R86); the high word of a wide value is held (R378). -/
def stageWord (s : State) (b mask : Nat) (v : Word) : State :=
  let w := v &&& word mask
  if isWideHi b then onRegs s (fun r => { r with wide := tput 0 r.wide b w })
  else if isWideLo b then stgPut (stgPut s (b - 4) (tget 0 s.regs.wide (b - 4))) b w
  else stgPut s b w

/-- A management port setting as it is stored: out-of-range fields at the nearest end of their range (R404). -/
def mgClamp (o : Nat) (v : Word) : Word :=
  if o = 0x04 then (v &&& 0x3#32) ||| word (clampNat 1 50 (bits v 13 8) * 2 ^ 8 + clampNat 50 100 (bits v 22 16) * 2 ^ 16)
  else if o = 0x08 then word (clampNat 16 65535 v.toNat)
  else if o = 0x0C then word (clampNat 1500 65535 v.toNat)
  else if o = 0x10 then word (clampNat 298 17890 v.toNat)
  else if o = 0x14 then word (clampNat 16 4096 v.toNat)
  else if o = 0x30 then word (clampNat 0 64 (bits v 6 0) + bits v 31 16 * 2 ^ 16)
  else v

/-- MDIO_CMD (R337): a START while BUSY is discarded; an invalid operation is ignored. -/
def mdioWrite (s : State) (v : Word) : State :=
  if bit v 31 = false then onRegs s (setAct aMdioCmd v)
  else if s.mgSh.mdio.isSome then sticky s hMdio 1
  else if bit v 30 = false ∧ (bits v 29 28 = 0 ∨ bits v 29 28 = 3) then sticky s hMdio 2
  else onMgSh (onRegs s (setAct aMdioCmd v)) (fun h => { h with mdio := some v, mdioValid := false })

/-- The frame boundary a management snapshot names. -/
def snapNamed (s : State) (v : Word) : Sfp :=
  { mfc := bits (act s aSnapHi) 15 0 * 2 ^ 32 + (act s aSnapLo).toNat, fi := bits v 12 8 }
/-- 2^28 multiframes in blocks. -/
def horizon : Int := 268435456 * 5240576

/-- MGMT_SNAP_CTRL (R342): the write latches the whole request. -/
def snapWrite (s : State) (v : Word) : State :=
  let f := snapNamed s v
  let s1 := onRegs s (setAct aSnapCtrl v)
  if bit v 31 = false then onMgSh s1 (fun h => { h with snapPend := none })
  else if tooNear s twoFrames f then onMgSh s1 (fun h => { h with snapPend := none, late := true })
  else if horizon < sfpDist s.sfp f then onMgSh s1 (fun h => { h with snapPend := none, far := true })
  else onMgSh s1 (fun h => { h with snapPend := some (f, bit v 0, bit v 1) })

/-- MATRIX_QOS: a 7 leaves its field (R349). -/
def qosWrite (s : State) (v : Word) : Word :=
  let old := act s (aSys + 0x060)
  let pick := fun (lo : Nat) => if bits v (lo + 2) lo = 7 then bits old (lo + 2) lo else bits v (lo + 2) lo
  word (pick 0 + pick 4 * 16)

/-- A plain register is written. -/
def plainWrite (s : State) (a mask : Nat) (v : Word) : State :=
  let w := v &&& word mask
  if isWideHi a then onRegs s (fun r => { r with wide := tput 0 r.wide a w })
  else if isWideLo a then onRegs s (fun r => setAct a w (setAct (a - 4) (tget 0 r.wide (a - 4)) r))
  else if a = aSys + 0x060 then onRegs s (setAct a (qosWrite s w))
  else if a = aMdioCmd then mdioWrite s w
  else if a = aSnapCtrl then snapWrite s w
  else if a = aMgmt + 0x010 then onRegs s (setAct a (word (clampNat 0 2 w.toNat)))
  else if aMgmt + 0x100 ≤ a ∧ a < aMgmt + 0x300 then onRegs s (setAct a (mgClamp ((a - aMgmt) % 0x100) w))
  else if a = aThy + 0x180 then onThy s (fun t => { t with refinQl := w.setWidth 16 })
  else onRegs s (setAct a w)

/-- Bits of a W1C register are cleared (R372, R374); a management port left without a limit bit is released (R344). -/
def clearSticky (s : State) (a : Nat) (w : Word) : State :=
  if a = aSys + 0x040 then onRegs s (fun r => { r with guardFail := r.guardFail && !bit w 0 })
  else if a = aCommit then onCom s (fun c => { c with frozenWr := c.frozenWr && !bit w 16 })
  else if a = aMgmt + 0x0CC then onMgSh s (fun h => { h with late := h.late && !bit w 2, far := h.far && !bit w 3 })
  else
    let s1 := onRegs s (clrHistR a w)
    let rel := fun (b : Bool) (t : State) =>
      if a = hMg b ∧ (hist t a &&& 0x3F#32) = 0 ∧ (w &&& 0x3F#32) ≠ 0 then onMg t b (fun m => { m with relNow := true }) else t
    rel true (rel false s1)

/-! Guarded pairs (R379 to R381, Table 17-2). -/

/-- The guard domain of an address: 0 the system block, 1 the power and feeds block, staged ranges included. -/
def guardBlock (a : Nat) : Option Nat :=
  let inB := fun (base last : Nat) => decide (base ≤ a ∧ a ≤ base + last)
    || decide (base + stagedOff ≤ a ∧ a ≤ base + stagedOff + last)
  if inB aSys 0x13F then some 0 else if inB aPower 0x37 then some 1 else none

/-- A pair fails: FAIL, CAUSE and address, count and record (R380). -/
def guardFailed (s : State) (cause addr : Nat) : State :=
  let s1 := cSys (onRegs s (fun r => { r with guardFail := true, guardCause := cause, guardAddr := word addr })) 2
  trace s1 11 1 noObj ([by1 cause, 0] ++ beBytes 4 addr)
/-- The open pair of a block is closed. -/
def closePair (s : State) (k : Nat) : State := onRegs s (fun r => { r with pairs := tdel r.pairs k })
/-- More than 100,000 block times have passed since its first write. -/
def pairLate (s : State) (p : GuardPair) : Bool := decide (100000 < sfpDist p.at_ s.sfp)
/-- A pair whose time has run out fails with TIMEOUT. -/
def pairTimeout (s : State) (k : Nat) : State :=
  match tfind s.regs.pairs k with
  | some p => if pairLate s p then guardFailed (closePair s k) 1 p.addr else s
  | none => s
/-- A write other than the pair's own reaches the block: an open pair fails with INTERLEAVED. -/
def interleave (s : State) (k : Nat) : State :=
  let s1 := pairTimeout s k
  match tfind s1.regs.pairs k with
  | some p => guardFailed (closePair s1 k) 2 p.addr
  | none => s1
/-- Any write that reaches an address of no pair. -/
def interleaveAt (s : State) (a : Nat) : State :=
  match guardBlock a with
  | some k => interleave s k
  | none => s
/-- A first write: it opens a pair, in place of one that is open. -/
def openPair (s : State) (k a : Nat) (v : Word) : State :=
  let s1 := pairTimeout s k
  let s2 := match tfind s1.regs.pairs k with
    | some p => guardFailed (closePair s1 k) 6 p.addr
    | none => s1
  onRegs s2 (fun r => { r with pairs := tset r.pairs k { addr := a, val := v, at_ := s.sfp } })
/-- A second write at the guard port of register a: the accepted value, if the pair succeeds. -/
def secondWrite (s : State) (k a : Nat) (c : Word) : State × Option Word :=
  let s1 := pairTimeout s k
  match tfind s1.regs.pairs k with
  | some p =>
    if p.addr ≠ a then (guardFailed (guardFailed (closePair s1 k) 2 p.addr) 4 a, none)
    else if p.val = ~~~c then (closePair s1 k, some p.val)
    else (guardFailed (closePair s1 k) 3 p.addr, none)
  | none => (guardFailed s1 4 a, none)

/-! PAIR_CTL (R393, R234, R313, R229). -/

/-- The swap boundary held in PAIR_SWAP_*. -/
def swapNamed (s : State) : Sfp :=
  { mfc := bits (act s aSwapHi) 15 0 * 2 ^ 32 + (act s aSwapLo).toNat, fi := bits (act s aSwapFi) 4 0 }
/-- The peer's last heartbeat, on a link that is not silent, says STANDBY. -/
def peerStandby (s : State) : Bool := peerIs s [5]
/-- The checks of a swap at F from an acceptance position: status and detail of the first that fails. -/
def swapCheck (s : State) (acc f : Sfp) : Option (Byte × Byte) :=
  if s.pair.st ≠ .active then some (4, 9)
  else if horizon < sfpDist acc f then some (8, 0x43)
  else if sfpDist acc f < twoFrames then some (9, 0)
  else if !peerStandby s || s.pair.dual || s.pair.disagree then some (4, 9)
  else if s.pair.swap.isSome then some (4, 4)
  else none
/-- The checks of a cancellation: withdrawn before (F−1):0. -/
def cancelCheck (s : State) (acc f : Sfp) : Option (Byte × Byte) :=
  if s.pair.st ≠ .active then some (4, 9)
  else if s.pair.swap.map (·.1) ≠ some f then some (8, 0x41)
  else if sfpDist acc f ≤ 163768 then some (9, 0)
  else none
/-- The checks of a forced activation (R229); the command serves STANDBY_UNSYNCED alone (R314). -/
def forceCheck (s : State) (syncing : Bool) : Option (Byte × Byte) :=
  if decide (s.pair.st = .unsynced) || (syncing && decide (s.pair.st = .syncing)) then
    (if s.pair.aliveIn || s.pair.live0 || s.pair.live1 then some (4, 9) else none)
  else some (4, 9)
/-- A swap is recorded; the standby is still to confirm it. -/
def swapRecord (s : State) (f : Sfp) : State := setSwap s (some (f, false))
/-- A pending swap is withdrawn. -/
def swapWithdraw (s : State) : State := setSwap s none
/-- The twin becomes ACTIVE at the next frame boundary. -/
def forceRecord (s : State) : State := onPair s (fun p => { p with force := some (nextFrame s.sfp) })

/-- The checks of a PAIR_CTL value, counted from `acc`: where the write is made, or where its command was accepted. -/
def pairCtlCheck (acc : Sfp) (s : State) (v : Word) : Option (Byte × Byte) :=
  let n := bits v 2 0
  if n = 0 then none
  else if n = 1 then swapCheck s acc (swapNamed s)
  else if n = 2 then cancelCheck s acc (swapNamed s)
  else if n = 4 then forceCheck s true
  else some (4, 9)

/-- DEV_RESET is in execution: its completion gives the epoch boundary (R287). -/
def devResetRuns (s : State) : Bool := s.vcp.run.any (fun r => r.op == 0x010B)
/-- A sequencer reset is due at the next epoch boundary, unless a module reset is. -/
def seqRstDue (s : State) : State :=
  if devResetRuns s then s
  else onSeq s (fun q => { q with devReset := match q.devReset with
    | some (f, true) => some (f, true)
    | _ => some (nextEpoch s.sfp, false) })

/-- What an accepted value of a guarded register of the system block does. -/
def gwEffect (s : State) (a : Nat) (v : Word) : State :=
  let o := a - aSys
  if o = 0x010 then onMem s (fun x => { x with remap := bit v 0 })
  else if o = 0x018 then (if bit v 0 then seqRstDue s else s)
  else if o = 0x030 then (if bit v 0 then trace s 11 3 noObj [] else s)
  else if o = 0x038 then
    (let n := bits v 2 0
     if n = 1 then swapRecord s (swapNamed s) else if n = 2 then swapWithdraw s else if n = 4 then forceRecord s else s)
  else s

/-- A guarded register of the system block takes a value; one that fails PAIR_CTL's checks leaves it and is recorded with
CAUSE 0 (R393). -/
def gwTake (acc : Sfp) (s : State) (a mask : Nat) (v : Word) : State :=
  if a = aSys + 0x038 ∧ (pairCtlCheck acc s v).isSome then
    onRegs s (fun r => { r with guardFail := true, guardCause := 0, guardAddr := word a })
  else gwEffect (onRegs s (fun r => { r with gw := tput 0 r.gw a (v &&& word mask) })) a v

/-- A second write in the system block. -/
def sysSecond (s : State) (a : Nat) (c : Word) : State :=
  let r := secondWrite s 0 a c
  match r.2 with
  | some v => gwTake s.sfp r.1 a (kindMask (kindAct a)) v
  | none => r.1

/-! The fast bridge (T5). -/

/-- A fast register write (R372, R375, R376). -/
def fastWrite (s : State) (m a : Nat) (v : Word) : State :=
  match stagedOf a with
  | some b =>
    (match kindAct b with
     | .rs d mask =>
       let s1 := interleaveAt s a
       if frozenNow s d then slvErr (frozenWrite s1) m else setResp (stageWord s1 b mask v) m .okay
     | _ => setResp s m .okay)
  | none =>
    match kindAct a with
    | .none => setResp (interleaveAt s a) m .okay
    | .ro _ => setResp (interleaveAt s a) m .okay
    | .rw mask _ => setResp (plainWrite (interleaveAt s a) a mask v) m .okay
    | .w1c w _ => setResp (clearSticky (interleaveAt s a) a (v &&& word w)) m .okay
    | .rs d mask =>
      let s1 := interleaveAt s a
      if frozenNow s d then slvErr (frozenWrite s1) m else setResp (stageWord s1 a mask v) m .okay
    | .gw _ _ => setResp (openPair s 0 a v) m .okay
    | .port => setResp (sysSecond s (a - 4) v) m .okay
    | .blk => setResp s m .okay

/-! The slow bridge (T6). -/

/-- BSCAN_UNLOCK is set. -/
def unlocked (s : State) : Bool := bit (tget 0 s.regs.gw (aSys + 0x030)) 0

/-- The KP bits of a write to the slow register b (its fields `mask`) through address a (R375). -/
def kpWrite (s : State) (a b mask : Nat) (v : Word) : State :=
  let new := v &&& ~~~(word mask)
  if new = kpOf s b mask then s
  else if unlocked s then
    onRegs s (fun r => { r with kp := tput 0 r.kp b ((Config.kpInit b ^^^ new) &&& ~~~(word mask)) })
  else
    let k := (slowBlockOf a).getD 0
    let s1 := cSys (onRegs s (fun r => { r with blk := tput 0 r.blk k (tget 0 r.blk k ||| 2) })) 4
    trace s1 11 2 noObj ([0, 0] ++ beBytes 4 a)

/-- OVERRUN: a write that finds its block BUSY is dropped (R385). -/
def overrun (s : State) (k : Nat) : State :=
  cSys (onRegs s (fun r => { r with blk := tput 0 r.blk k (tget 0 r.blk k ||| 1) })) 3
/-- The block is BUSY. -/
def slowBusy (s : State) (k : Nat) : Bool := (tfind s.regs.posted k).isSome
/-- A write is posted (R383). -/
def post (s : State) (k m a : Nat) (v : Word) : State :=
  onRegs s (fun r => { r with posted := tset r.posted k { addr := a, val := v, m := m } })

/-- BLK_STAT takes effect on arrival (R382). -/
def blkWrite (s : State) (k : Nat) (v : Word) : State :=
  onRegs s (fun r => { r with blk := tput 0 r.blk k (tget 0 r.blk k &&& ~~~(BitVec.ofNat 2 (bits v 2 1))) })

/-- A second write in the power and feeds block: FEED_SELECT is posted and the switch starts (R250, R381). -/
def feedSecond (s : State) (m : Nat) (c : Word) : State :=
  let r := secondWrite s 1 aFeedSelect c
  match r.2 with
  | some v => startSwitch (kpWrite (post r.1 2 m aFeedSelect v) aFeedSelect aFeedSelect 1 v) (bit v 0)
  | none => r.1

/-- A slow register write: posted (R383), dropped where it finds its block BUSY (R385). -/
def slowWrite (s : State) (m a : Nat) (v : Word) : State :=
  let k := (slowBlockOf a).getD 0
  if kindAct a = .blk then setResp (blkWrite (interleaveAt s a) k v) m .okay
  else if kindAct a = .none ∧ (stagedOf a).isNone then setResp (sticky (interleaveAt s a) hSlow 1) m .okay
  else if slowBusy s k then
    (if kindAct a = .gw 1 false then setResp (guardFailed (overrun s k) 7 a) m .okay
     else setResp (overrun s k) m .okay)
  else
    match kindAct a with
    | .gw _ _ => setResp (openPair s 1 a v) m .okay
    | .port => setResp (feedSecond s m v) m .okay
    | _ => setResp (post (interleaveAt s a) k m a v) m .okay

/-- How many items of a register command were discarded by a freeze, kept above the 32 bits of its other count. -/
def discUnit : Nat := 2 ^ 32

/-- A posted write takes effect in its block (R376, R383); one that a freeze discards is the loss of the command that
posted it (R327). -/
def slowComplete (s : State) (p : Posted) : State :=
  let b := (stagedOf p.addr).getD p.addr
  match kindAct b with
  | .rs d mask =>
    if frozenNow s d then onRun (frozenWrite s) (fun q => if q.mine.contains ((slowBlockOf p.addr).getD 0) then
      { q with worst := q.worst + discUnit } else q)
    else stageWord (kpWrite s p.addr b mask p.val) b mask p.val
  | .rw mask _ => plainWrite (kpWrite s p.addr b mask p.val) b mask p.val
  | .w1c w mask => clearSticky (kpWrite s p.addr b mask p.val) b (p.val &&& word w)
  | .ro mask => kpWrite s p.addr b mask p.val
  | _ => s

/-! A write and a read of a master. -/

/-- One granted 32-bit write (R348, R350, R352). `collide` says that a memory's dedicated port writes the same word in the same
memory cycle (R360). -/
def matDoWrite (s : State) (m a : Nat) (v : Word) (collide : Bool) : State :=
  match targetOf a with
  | none => decErr s m
  | some t =>
    if !mayWrite m t then decErr s m
    else if t ≤ 1 then codeWrite s m a v
    else if t = 2 then scratchWrite s m a v collide
    else if t = 3 then mapWordWrite s m a v collide
    else if t = 4 then slvErr s m
    else if t = 5 then fastWrite s m a v
    else if t = 6 then slowWrite s m a v
    else traceWrite s m a v

/-- The value of a master's read. -/
def setData (s : State) (m : Nat) (w : Word) : State :=
  setResp (onRegs s (fun x => { x with rdata := tput 0 x.rdata m w })) m .okay
/-- A read whose data is not to be used: a free word, ECCERR (Table 16-3). -/
def eccData (s : State) (m : Nat) : State :=
  let (w, s1) := drawWord s
  setResp (onRegs s1 (fun x => { x with rdata := tput 0 x.rdata m w })) m .eccerr

/-- Memory numbers of R359 and Table 19-4: 0 working RAM, 1 scratchpad, 3 trace buffer. -/
def memBase (s : State) (memory : Nat) : Nat :=
  if memory = 0 then (if s.mem.remap then 0 else 0x10000000) else if memory = 1 then 0x18000000 else 0x30000000

/-- An uncorrectable error of a scrubbed memory: counted, latched, reported (R359). -/
def memUncorr (s : State) (memory o bank : Nat) : State :=
  let s1 := cSys (sticky (onMem s (fun x => { x with eccAddr := word (memBase s memory + o) })) hSys 1) 6
  trace s1 8 1 memory (beBytes 4 (memBase s memory + o) ++ [by1 bank])
/-- The 64-bit word at an offset holds an uncorrectable error. -/
def memDouble (s : State) (memory o : Nat) : Bool := tget 0 s.mem.ecc (memory * 2 ^ 32 + o / 8 * 8) == 2

/-- The word at an offset of a byte memory. -/
def wordAt (f : Nat → Byte) (o : Nat) : Word := word (beNat ((rangeFrom (o / 4 * 4) 4).map f))

/-- A read of a byte memory with power states and check code. -/
def memRead32 (s : State) (m memory o bank : Nat) (f : Nat → Byte) : State :=
  if memory ≤ 1 ∧ bankSt s memory bank ≠ .on then asleep s m
  else if memDouble s memory o then eccData (memUncorr s memory (o / 8 * 8) bank) m
  else setData s m (wordAt f o)

/-- A read of the map window: a high-word read latches the low word, which serves one read (R162); an uncorrectable
entry returns ECCERR. -/
def mapWordRead (s : State) (m a : Nat) : State :=
  let o := a - 0x20000000
  let b := decide (0x20000 ≤ o)
  let r := o % 0x20000
  if 0x40000 ≤ o ∨ 0x14200 ≤ r then setData s m 0
  else if 0x14000 ≤ r then
    (if eccDouble s.map b (0x8000 + (r - 0x14000) / 4) then eccData s m else setData s m (readMapWord s a))
  else if r % 8 < 4 then
    (if eccDouble s.map b (r / 8) then eccData s m
     else setData (onMap s (fun x => { x with latch := tset x.latch m (a / 4 * 4 + 4, readMapWord s (a + 4)) })) m
       (readMapWord s a))
  else
    match tfind s.map.latch m with
    | some (l, w) =>
      if l = a / 4 * 4 then setData (onMap s (fun x => { x with latch := tdel x.latch m })) m w
      else if eccDouble s.map b (r / 8) then eccData s m else setData s m (readMapWord s a)
    | none => if eccDouble s.map b (r / 8) then eccData s m else setData s m (readMapWord s a)

/-- Address of SFP_CAP_POS. -/
def aCapPos : Nat := aCommit + 0x010

/-- One granted 32-bit read: its data and its one side effect, the capture of SFP_CAP_POS (R84, R373). -/
def matRead (s : State) (m a : Nat) : State :=
  match targetOf a with
  | none => decErr s m
  | some t =>
    if !mayRead m t then decErr s m
    else if t ≤ 1 then
      (match wramOff s a with
       | some o => memRead32 s m 0 o (o / 65536) (ramByte s)
       | none => (match romOff s a with
         | some o => setData s m (wordAt Config.bootRom o)
         | none => decErr s m))
    else if t = 2 then
      (if 0x40000 ≤ a - 0x18000000 then decErr s m
       else memRead32 s m 1 (a - 0x18000000) ((a - 0x18000000) / 32768) (scratchByte s))
    else if t = 3 then mapWordRead s m a
    else if t = 4 then setData s m (readAlignWord s a)
    else if t = 7 then
      (if 0x200000 ≤ a - 0x30000000 then decErr s m
       else memRead32 s m 3 (a - 0x30000000) ((a - 0x30000000) / 131072) (traceByte s))
    else if a = aCapPos then setData (onCom s (fun c => { c with capMfc := s.sfp.mfc })) m (readReg s a)
    else setData s m (readReg s a)
/-- Data of a master's last read. -/
def dataOf (s : State) (m : Nat) : Word := tget 0 s.regs.rdata m

/-! Arbitration (R353, R354). -/

/-- QoS of a master (Table 16-1, R349). -/
def qosOf (s : State) (m : Nat) : Nat :=
  let q := act s (aSys + 0x060)
  if m = 0 then bits q 2 0 else if m = 1 then bits q 6 4 else if m = 2 then 7 else if m = 3 then 6 else if m = 4 then 4
  else if m = 5 then 1 else 5
/-- QoS of a request: raised to 5 once it has aged (R354). -/
def reqQos (s : State) (r : MatReq) : Nat := if r.aged then max 5 (qosOf s r.m) else qosOf s r.m

/-- The master has a transaction outstanding (R348). -/
def outstanding (s : State) (m : Nat) : Bool := s.mem.busy.any (fun kv => kv.2.m == m) || s.mem.wait.any (fun x => x.2.m == m)

/-- The write makes a record for the standby: it stores into the staged bank or a staged view (R219, R435). -/
def mirWrites (s : State) (a : Nat) : Bool :=
  if a / 0x40000 = 0x800 then
    let r := a % 0x20000
    decide (0x20000 ≤ a % 0x40000) != s.map.bActive && decide (r < 0x14200) && (decide (0x14000 ≤ r) || decide (4 ≤ r % 8))
  else match kindAct ((stagedOf a).getD a) with
    | .rs _ _ => decide (targetOf a = some 5)
    | _ => false
/-- The bridge holds the transaction (R435). -/
def reqHeld (s : State) (r : MatReq) : Bool := r.wr.isSome && mirHeld s && mirWrites s r.addr

/-- M3 waits for BUSY before it writes to a register of a slow block (R385). -/
def reqWaits (s : State) (r : MatReq) : Bool :=
  r.m == 3 && r.wr.isSome && kindAct r.addr != .blk && (kindAct r.addr != .none || (stagedOf r.addr).isSome)
    && (slowBlockOf r.addr).any (slowBusy s)

/-- A granted transaction is performed. -/
def matPerform (s : State) (r : MatReq) : State :=
  match r.wr with
  | some v => matDoWrite s r.m r.addr v r.collide
  | none => matRead s r.m r.addr

/-- A request is granted at a target (R353): it is performed, or held in service by its bridge. -/
def matGrant (s : State) (t : Nat) (r : MatReq) : State :=
  let s1 := onMem s (fun x => { x with granted := tset x.granted (t * 8 + reqQos s r) r.m })
  if reqHeld s1 r then onMem s1 (fun x => { x with busy := tset x.busy t r }) else matPerform s1 r

/-- The first request to be granted: a higher QoS, or at the same QoS the master next in turn after the one last granted
at it (R353). -/
def before (s : State) (t : Nat) (x y : MatReq) : Bool :=
  let q := reqQos s x
  let turn := fun (r : MatReq) => (r.m + 13 - tget 6 s.mem.granted (t * 8 + q)) % 7
  decide (reqQos s y < q) || (decide (reqQos s y = q) && decide (turn x < turn y))
/-- The request that wins an arbitration at a target. -/
def matBest (s : State) (t : Nat) : Option MatReq :=
  s.mem.wait.foldl (fun b x => if x.1 = t ∧ reqWaits s x.2 = false then (match b with
    | some y => if before s t x.2 y then some x.2 else b
    | none => some x.2) else b) none
/-- One arbitration at a target whose service has ended. -/
def matArbitrate (s : State) (t : Nat) : State :=
  if (tfind s.mem.busy t).isSome then s
  else match matBest s t with
    | some r => matGrant (onMem s (fun x => { x with wait := delFirst (fun y => y.2 == r) x.wait })) t r
    | none => s
/-- A transaction that a bridge has held goes on once there is space, then the requests that wait are served in turn. -/
def matServe (s : State) (t : Nat) : State :=
  match tfind s.mem.busy t with
  | some r =>
    if reqHeld s r then s
    else forEach (List.range 7) (matPerform (onMem s (fun x => { x with busy := tdel x.busy t })) r)
      (fun u _ => matArbitrate u t)
  | none => s
/-- Every target goes on as far as it can. -/
def matRun (s : State) : State := forEach (s.mem.wait.map (·.1)) (forEach (s.mem.busy.map (·.1)) s matServe) matArbitrate

/-- A master presents a transaction (R348, R353): outside the map or its reach it ends at once; a free target grants it,
one in service lets it wait. A master whose last transaction is outstanding presents none. -/
def matIssue (s : State) (r : MatReq) : State :=
  let u := matRun s
  match targetOf r.addr with
  | none => matPerform u r
  | some t =>
    if !(if r.wr.isSome then mayWrite r.m t else mayRead r.m t) then matPerform u r
    else if outstanding u r.m then u
    else if (tfind u.mem.busy t).isSome || reqWaits u r then onMem u (fun x => { x with wait := x.wait ++ [(t, r)] })
    else matGrant u t r
/-- A write of a master. -/
def matWrite (s : State) (m a : Nat) (v : Word) (collide : Bool) : State :=
  matIssue s { m := m, addr := a, wr := some v, collide := collide }

/-! The rows. -/

/-- REGISTER_WRITE (R371, R372, R378). -/
def xRegisterWrite (m addr : Nat) (v : Word) (s : State) : State := matWrite s m addr v false
def execRegisterWrite (m : Master) (addr v : Word) (s : State) : Host.Outcome State Fault Refusal :=
  .next (live s (xRegisterWrite m.val addr.toNat v s))

/-- SFP_CAP_POS_READ (R84). -/
def xSfpCapPosRead (m : Nat) (s : State) : State := matIssue s { m := m, addr := aCapPos }
def execSfpCapPosRead (m : Master) (s : State) : Host.Outcome State Fault Refusal :=
  .next (live s (xSfpCapPosRead m.val s))

/-- MAP_HIGH_WORD_WRITE (R162). -/
def xMapHighWordWrite (m addr : Nat) (v : Word) (s : State) : State := matWrite s m addr v false
def execMapHighWordWrite (m : Master) (addr v : Word) (s : State) : Host.Outcome State Fault Refusal :=
  .next (live s (xMapHighWordWrite m.val addr.toNat v s))

/-- MAP_LOW_WORD_WRITE (R162, R163, R164, R165). -/
def xMapLowWordWrite (m addr : Nat) (v : Word) (collide : Bool) (s : State) : State := matWrite s m addr v collide
def execMapLowWordWrite (m : Master) (addr v : Word) (collide : Bool) (s : State) : Host.Outcome State Fault Refusal :=
  .next (live s (xMapLowWordWrite m.val addr.toNat v collide s))

/-- MAP_HIGH_WORD_READ (R162). -/
def xMapHighWordRead (m addr : Nat) (s : State) : State := matIssue s { m := m, addr := addr }
def execMapHighWordRead (m : Master) (addr : Word) (s : State) : Host.Outcome State Fault Refusal :=
  .next (live s (xMapHighWordRead m.val addr.toNat s))

/-- POSTED_WRITE (R383, R385). -/
def xPostedWrite (m addr : Nat) (v : Word) (s : State) : State := matWrite s m addr v false
def execPostedWrite (m : Master) (addr v : Word) (s : State) : Host.Outcome State Fault Refusal :=
  .next (live s (xPostedWrite m.val addr.toNat v s))

/-- POSTED_WRITE_COMPLETE (R383): BUSY clears as the write takes effect. A FEED_SELECT completes with its result. A write
to a staged view waits for space in the mirror queue (R435). -/
def xPostedWriteComplete (k : Nat) (s : State) : State :=
  match tfind s.regs.posted k with
  | some p =>
    let staged := match kindAct ((stagedOf p.addr).getD p.addr) with
      | .rs _ _ => true
      | _ => false
    if decide (p.addr = aFeedSelect) || (staged && mirHeld s) then s
    else matRun (onRun (slowComplete (onRegs s (fun r => { r with posted := tdel r.posted k })) p)
      (fun q => { q with mine := q.mine.filter (· != k) }))
  | none => s
def execPostedWriteComplete (b : SlowBlock) (s : State) : Host.Outcome State Fault Refusal :=
  .next (live s (xPostedWriteComplete (sbIdx b) s))

/-- Base of a slow block. -/
def slowBase (k : Nat) : Nat := 0x50000000 + 0x200000 * k

/-- BLK_STAT_WRITE (R382). -/
def xBlkStatWrite (m k : Nat) (v : Word) (s : State) : State := matWrite s m (slowBase k) v false
def execBlkStatWrite (m : Master) (b : SlowBlock) (v : Word) (s : State) : Host.Outcome State Fault Refusal :=
  .next (live s (xBlkStatWrite m.val (sbIdx b) v s))

/-- GUARD_PAIR_OPEN (R379, R380, R381). -/
def xGuardPairOpen (m addr : Nat) (v : Word) (s : State) : State := matWrite s m addr v false
def execGuardPairOpen (m : Master) (addr v : Word) (s : State) : Host.Outcome State Fault Refusal :=
  .next (live s (xGuardPairOpen m.val addr.toNat v s))

/-- GUARD_TIMEOUT (R380, Table 17-2): the pair open on the register has waited for more than 100,000 block times. -/
def xGuardTimeout (addr : Nat) (s : State) : State :=
  match guardBlock addr with
  | some k =>
    (match tfind s.regs.pairs k with
     | some p => if p.addr = addr then pairTimeout s k else s
     | none => s)
  | none => s
def execGuardTimeout (addr : Word) (s : State) : Host.Outcome State Fault Refusal :=
  .next (live s (xGuardTimeout addr.toNat s))

/-- GUARD_ORPHAN (R380, Table 17-2). -/
def xGuardOrphan (m addr : Nat) (v : Word) (s : State) : State := matWrite s m addr v false
def execGuardOrphan (m : Master) (addr v : Word) (s : State) : Host.Outcome State Fault Refusal :=
  .next (live s (xGuardOrphan m.val addr.toNat v s))

/-- REMAP: the second write of its pair (R351). -/
def xRemap (m : Nat) (c : Word) (s : State) : State := matWrite s m (aSys + 0x014) c false
def execRemap (m : Master) (compl : Word) (s : State) : Host.Outcome State Fault Refusal :=
  .next (live s (xRemap m.val compl s))

/-- SEQ_RST: the second write of its pair (Table 18-3). -/
def xSeqRst (m : Nat) (c : Word) (s : State) : State := matWrite s m (aSys + 0x01C) c false
def execSeqRst (m : Master) (compl : Word) (s : State) : Host.Outcome State Fault Refusal :=
  .next (live s (xSeqRst m.val compl s))

/-- FLASH_WE: the second write of its pair (Table 18-3). -/
def xFlashWe (m : Nat) (c : Word) (s : State) : State := matWrite s m (aSys + 0x024) c false
def execFlashWe (m : Master) (compl : Word) (s : State) : Host.Outcome State Fault Refusal :=
  .next (live s (xFlashWe m.val compl s))

/-- KEY_WE: the second write of its pair (Table 18-3). -/
def xKeyWe (m : Nat) (c : Word) (s : State) : State := matWrite s m (aSys + 0x02C) c false
def execKeyWe (m : Master) (compl : Word) (s : State) : Host.Outcome State Fault Refusal :=
  .next (live s (xKeyWe m.val compl s))

/-- BSCAN_UNLOCK: the second write of its pair (R375, R428). -/
def xBscanUnlock (m : Nat) (c : Word) (s : State) : State := matWrite s m (aSys + 0x034) c false
def execBscanUnlock (m : Master) (compl : Word) (s : State) : Host.Outcome State Fault Refusal :=
  .next (live s (xBscanUnlock m.val compl s))

/-- PAIR_CTL with SWAP: the second write of its pair (R234, R313, R393). -/
def xPairCtlSwap (m : Nat) (c : Word) (s : State) : State := matWrite s m (aSys + 0x03C) c false
def execPairCtlSwap (m : Master) (compl : Word) (s : State) : Host.Outcome State Fault Refusal :=
  .next (live s (xPairCtlSwap m.val compl s))

/-- PAIR_CTL with CANCEL: the second write of its pair (R313, R393). -/
def xPairCtlCancel (m : Nat) (c : Word) (s : State) : State := matWrite s m (aSys + 0x03C) c false
def execPairCtlCancel (m : Master) (compl : Word) (s : State) : Host.Outcome State Fault Refusal :=
  .next (live s (xPairCtlCancel m.val compl s))

/-- PAIR_CTL with FORCE_ACTIVE: the second write of its pair (R229, R393). -/
def xPairCtlForceActive (m : Nat) (c : Word) (s : State) : State := matWrite s m (aSys + 0x03C) c false
def execPairCtlForceActive (m : Master) (compl : Word) (s : State) : Host.Outcome State Fault Refusal :=
  .next (live s (xPairCtlForceActive m.val compl s))

/-- FEED_SELECT: the second write of its pair (R250, R381). -/
def xFeedSelectTarget (m : Nat) (c : Word) (s : State) : State := matWrite s m (aPower + 0x02C) c false
def execFeedSelectTarget (m : Master) (compl : Word) (s : State) : Host.Outcome State Fault Refusal :=
  .next (live s (xFeedSelectTarget m.val compl s))

/-- MDIO_START (R337). -/
def xMdioStart (m : Nat) (v : Word) (s : State) : State := matWrite s m aMdioCmd v false
def execMdioStart (m : Master) (v : Word) (s : State) : Host.Outcome State Fault Refusal :=
  .next (live s (xMdioStart m.val v s))

/-- MGMT_SNAP_ARM (R342). -/
def xMgmtSnapArm (m : Nat) (v : Word) (s : State) : State := matWrite s m aSnapCtrl v false
def execMgmtSnapArm (m : Master) (v : Word) (s : State) : Host.Outcome State Fault Refusal :=
  .next (live s (xMgmtSnapArm m.val v s))

/-- MATRIX_AGED (R354): a request of a master below QoS 5 has waited 1,024 cycles at a target and is raised, for the
rest of its wait. -/
def xMatrixAged (m t : Nat) (s : State) : State :=
  if (mayRead m t || mayWrite m t) && decide (qosOf s m < 5) && !s.mem.wait.any (fun x => x.2.m == m && x.2.aged) then
    cSys (onMem s (fun x => { x with wait := x.wait.map (fun y =>
      if y.1 = t ∧ y.2.m = m then (y.1, { y.2 with aged := true }) else y) })) 11
  else s
def execMatrixAged (m : Master) (target : Fin 8) (s : State) : Host.Outcome State Fault Refusal :=
  .next (live s (xMatrixAged m.val target.val s))

end Sys2Proof.Machine
end

