-- ==== Sys2Proof/Machine/Chive.lean ====
section
/-! DEFINITION. The Chive link and the mirror (file 10, R435): heartbeats, full-state records, what a twin does with a
record, the audit, the bulk transfer and the resync. -/

namespace Sys2Proof.Machine

open Sys2Proof

/-! Heartbeats. -/

/-- The heartbeat with index n of the frame, as this twin sends it; a twin past ARBITRATING sends one on each lane every
4,096 block times (R216, Table 10-2). -/
def heartbeatW (s : State) (n : Nat) : W56 :=
  let w := 0x9C5E * 2 ^ 32 + fld s.sfp.fi 5 27 + fld n 6 21 + fld (s.sfp.mfc / 256 ^ (5 - s.sfp.fi % 6)) 8 13
    + fld (pairCode s.pair.st) 3 10 + at1 s.pair.aliveOut 9 + at1 s.pins.twinPos 8 + (ownCompat s).toNat
  BitVec.ofNat 56 (w * 256 + (crc8 (beBytes 6 w) ^^^ 0x5A).toNat)

/-- A heartbeat's word is correct (Table 10-2). -/
def hbGood (b : Block) : Bool :=
  isCtl b && blkType b == 0x3C && bits (blkW b) 55 40 == 0x9C5E
    && crc8 ((blkBytes b).take 6) ^^^ 0x5A == blkByte b 6

/-- The peer's position as a heartbeat gives it, `comp` blocks after the block was sent: its MFC from the six slices,
or the value nearest the present count while they are not complete (R217, R222). -/
def hbPosition (s : State) (w : W56) (comp : Nat) : Sfp :=
  let fi := bits w 39 35 % mfFrames
  let bi := (bits w 34 29 * 4096) % frameBlocks
  let sl := s.pair.hbSlices
  let near := fun (m : Nat) => (sfpDist s.sfp { mfc := m % mfcMod, fi := fi, bi := bi }).natAbs
  let m0 := s.sfp.mfc
  let guess := if near (m0 + 1) < near m0 then (m0 + 1) % mfcMod
    else if near (m0 + (mfcMod - 1)) < near m0 then (m0 + (mfcMod - 1)) % mfcMod else m0
  let mfc := if sl.length = 6 then beNat ((List.range 6).map (fun i => by1 (tget 0 sl i))) else guess
  sfpAdd { mfc := mfc, fi := fi, bi := bi } comp

/-- A standby's count follows the peer's heartbeats and keeps within 4 blocks of them (R222). -/
def followPeer (s : State) (w : W56) (comp : Nat) : State :=
  let fi := bits w 39 35
  let old := if fi < s.pair.hbFi then [] else s.pair.hbSlices
  let s1 := onPair s (fun p => { p with hbFi := fi, hbSlices := tset old (fi % 6) (bits w 28 21) })
  if isStandby s1 then
    let q := hbPosition s1 w comp
    if 4 < (sfpDist s1.sfp q).natAbs then
      reStamp s1.sfp { s1 with sfp := q, frameDone := none, epochDone := none,
                               thy := { s1.thy with ivEpochs := none } }
    else s1
  else s1

/-! What the mirror engine reads from its tables (Table 10-3, Table 10-5). -/

/-- One condition of a group as the mirror carries it. -/
def condMir (c : CondSt) : Bool × Nat × Bool := (c.present, c.run, c.raised)
/-- One group of the protection table as the mirror carries it. -/
def groupMir (s : State) (g : Nat) : MirGrp :=
  let x := grpOf s g
  { en := x.en, sel := x.sel, stored := BitVec.ofNat 3 (at1 x.lo 2 + at1 x.fs 1 + b2n x.ms), stateReq := x.stReq
    wtr := x.wtrRun, conds := [condMir x.sf, condMir x.sfp, condMir x.sd]
    reqs := [(x.loc, x.locSig), (x.rem, x.remSig), (x.eff, x.effSig)], ind := BitVec.ofNat 4 (indBits x), seq := x.seq }

/-- A bank or a view by its role: the active one or the staged one. -/
def roleBank (s : State) (act : Bool) : Bool := if act then s.map.bActive else !s.map.bActive
/-- The entries of audit segment k: 160 of a bank. -/
def segEntries (s : State) (act : Bool) (k : Nat) : List Entry :=
  (rangeFrom (160 * k) 160).map (entryOf s.map (roleBank s act))
/-- Its two SMI words. -/
def segSmi (s : State) (act : Bool) (k : Nat) : List Word := (rangeFrom (2 * k) 2).map (smiWord s.map (roleBank s act))
/-- The words of a view of a domain that are not at their reset value, rising by address. -/
def viewWords (s : State) (act : Bool) (d : Nat) : List (Nat × Word) :=
  (if act then s.regs.act else s.regs.stg).filter (fun kv => domOf kv.1 == some d)

/-- The CRC-32 values of the audit, in its order; entries and words big-endian, a view as addresses and words (R221;
log 92). -/
def auditCrcs (s : State) : List Word :=
  let seg := fun (act : Bool) (k : Nat) =>
    crc32 ((segEntries s act k).flatMap (fun e => beBytes 8 e.toNat) ++ (segSmi s act k).flatMap wordBytes)
  let view := fun (act : Bool) (d : Nat) =>
    crc32 ((viewWords s act d).flatMap (fun kv => beBytes 4 kv.1 ++ wordBytes kv.2))
  (List.range 64).map (seg true) ++ (List.range 64).map (seg false)
    ++ (rangeFrom 1 7).map (view true) ++ (rangeFrom 1 7).map (view false)

/-- The record that resends segment k of the audit in full (R221). -/
def repairRec (s : State) (k : Nat) : MirrorRec :=
  let seg := fun (act : Bool) (i : Nat) => MirrorRec.segment act (Fin.ofNat 64 i) (segEntries s act i) (segSmi s act i)
  let view := fun (act : Bool) (d : Nat) => MirrorRec.view act (Fin.ofNat 8 d) (viewWords s act d)
  if k < 64 then seg true k else if k < 128 then seg false (k - 64) else if k < 135 then view true (k - 127)
  else view false (k - 134)

/-- The record of one source, read now. -/
def srcRec (s : State) : MirSrc → MirrorRec
  | .part k => repairRec s k
  | .stage => .stageBits s.com.stageOpen s.com.suspect
  | .entry i => .commitEntry (Fin.ofNat 16 i) ((tfind s.com.ents i).bind entMirror)
  | .snaps => .snapshots s.com.snaps
  | .thyme => .thyme (thyCode s.thy.st) s.thy.ref s.thy.refFault s.thy.mfcValid s.thy.refinQl s.thy.force
  | .cand c => .cand c (candOf s c).hold (candOf s c).wtr
  | .history => .historyAll (s.thy.hist.map histBytes)
  | .holdover => .holdover s.thy.hoFreq s.thy.hbAccum s.thy.hbRemain
  | .urgent p => .urgent p ((portOf s p).urgent.map (fun c => (c.g, c.rank, c.due, c.msg)))
  | .group g => .group g (groupMir s g)
  | .eq g => .eq g (eqCode (grpOf s g).eq) (grpOf s g).e
  | .allot l => .allot l (tfind s.map.lines l)
  | .hash k => .authHash (Fin.ofNat 64 k) (authHash s k)
  | .lastSeq k => .lastSeq (Fin.ofNat 64 k) (replayOf s k).last
  | .audit => .audit (auditCrcs s)
  | .bulkEnd => .bulkEnd

/-- The full-state records of the frame that begins: the tables of every frame, at an epoch the errorless states, and
every 256 multiframes the hashes and the audit (R219, R221, R435). -/
def frameSrcs (s : State) : List MirSrc :=
  let gs := s.grps.map (·.1)
  let rare := isEpoch s.sfp && s.sfp.mfc % 256 == 0
  List.flatten [(List.range 16).map MirSrc.entry, [.snaps, .thyme], (List.range 14).map MirSrc.cand,
    (allPorts.filter (isTrunk s)).map MirSrc.urgent, gs.map MirSrc.group,
    if isEpoch s.sfp then (gs.filter (gErrorless (actv s))).map MirSrc.eq else [],
    if rare then .audit :: (List.range 64).map MirSrc.hash else []]
/-- The bulk transfer of a resync (Table 10-5). -/
def bulkSrcs (s : State) : List MirSrc :=
  List.flatten [(List.range 142).map MirSrc.part, [.stage], (List.range 16).map MirSrc.entry, [.snaps, .thyme],
    (List.range 14).map MirSrc.cand, [.history, .holdover], (allPorts.filter (isTrunk s)).map MirSrc.urgent,
    s.grps.map (fun kv => MirSrc.group kv.1), s.map.lines.map (fun kv => MirSrc.allot kv.1),
    (List.range 64).map MirSrc.lastSeq, [.bulkEnd]]

/-- Records are read from their tables as far as queue space allows; what is left to read (R435). -/
def mirTake (full : Bool) : List MirSrc → State → List MirSrc × State
  | [], s => ([], s)
  | x :: r, s =>
    let m := srcRec s x
    if mirSize m ≤ mirFree s.mir then mirTake full r (mirPush s full m) else (x :: r, s)
/-- The engine goes on reading: this frame's records, then the bulk transfer. -/
def mirFill (s : State) : State :=
  let s0 := mirDrain s
  let a := mirTake true s0.mir.todo s0
  let b := if a.1.isEmpty then mirTake false a.2.mir.bulk a.2 else (a.2.mir.bulk, a.2)
  onMir b.2 (fun x => { x with todo := a.1, bulk := b.1 })

/-- The mirror at a frame boundary: a full-state record that has not been sent is replaced by the new frame's (R435). -/
def mirFrame (s : State) : State :=
  if mirOn s then
    let s0 := mirDrain s
    let keep := match s0.mir.q with
      | x :: r => if s0.mir.sent = 0 then (x :: r).filter (fun i => !i.full) else x :: r.filter (fun i => !i.full)
      | [] => []
    matRun (mirFill (onMir s0 (fun x => { x with q := keep, todo := frameSrcs s })))
  else s

/-! Records at a standby. -/

/-- State of a code (Table 02-3). -/
def thyOf (n : Nat) : ThyState :=
  if n = 0 then .freerun else if n = 1 then .acquiring else if n = 2 then .locked else if n = 3 then .holdover
  else .expired

/-- One mirrored condition of a group. -/
def mirCond (x : MirGrp) (k : Nat) : CondSt :=
  let c := x.conds.getD k (false, 0, false)
  { present := c.1, run := c.2.1, raised := c.2.2 }

/-- One group of the mirrored protection table; the selector reaches the banks at the next frame boundary (R196, R219). -/
def mirGroup (s : State) (stamp : Sfp) (g : Nat) (x : MirGrp) : State :=
  let q := fun (k : Nat) => x.reqs.getD k (0, false)
  onPair (onGrp s g (fun y => { y with
    en := x.en, sel := x.sel, lo := bit x.stored 2, fs := bit x.stored 1, ms := bit x.stored 0, stReq := x.stateReq
    wtrRun := x.wtr, sf := mirCond x 0, sfp := mirCond x 1, sd := mirCond x 2
    loc := (q 0).1, locSig := (q 0).2, rem := (q 1).1, remSig := (q 1).2, eff := (q 2).1, effSig := (q 2).2
    apsLoss := bit x.ind 0, fopPm := bit x.ind 1, fopNr := bit x.ind 2, revMism := bit x.ind 3, seq := x.seq }))
    (fun p => { p with stamp := some (frameOf stamp) })

/-- A mirrored entry of the pending-commit table: an entry that has its outcome here keeps it, and an armed one freezes
its domains (R92, R219). -/
def mirEnt (s : State) (i : Nat) (e : MirEnt) : State :=
  let x : CommitEnt :=
    { epoch := e.epoch, mask := e.mask, removed := e.removed, grp := e.grp, dest := e.dest, recs := e.recs,
      count := e.count, st := if e.armed then .armed else .pending, validating := e.armed }
  let put := fun (x : CommitEnt) => onCom s (fun c => { c with
    ents := tset c.ents i x, frozen := if e.armed then e.mask else c.frozen
    frozenTo := if e.armed then e.epoch else c.frozenTo })
  match tfind s.com.ents i with
  | some o =>
    if o.epoch ≠ e.epoch then put x
    else if entOpen o then put { x with validating := if o.st = .armed then o.validating else e.armed, auto := o.auto }
    else s
  | none => put x

/-- EQ_MIRROR_DIFF of a group from the active's state and E (R219). -/
def mirEq (s : State) (g code e : Nat) : State :=
  let d := eqCode (grpOf s g).eq != code || (grpOf s g).e != e
  let s1 := onGrp s g (fun x => { x with mirDiff := d })
  if d && !(grpOf s g).mirDiff then pairSticky s1 5 else s1

/-- AUTH_HASH_MISMATCH from one slot's comparison (R220). -/
def mirHash (s : State) (slot : Nat) (h : Bytes) : State :=
  let d := authHash s slot != h
  let s1 := onPair s (fun p => { p with hashBad := setBit p.hashBad slot d })
  if d && s.pair.hashBad == 0 then pairSticky s1 4 else s1

/-- A segment arrives in full. -/
def mirSegment (s : State) (act : Bool) (k : Nat) (es : List Entry) (smi : List Word) : State :=
  let b := roleBank s act
  let s1 := forEach (rangeFrom (160 * k) 160) s (fun t i => onMap t (fun m =>
    eccRewrite (setBank m b (tput 0 (bankOf m b) i (es.getD (i - 160 * k) 0))) b i))
  forEach (rangeFrom (2 * k) 2) s1 (fun t p => onMap t (fun m =>
    eccRewrite (setSmi m b (tput 0 (smiOf m b) p (smi.getD (p - 2 * k) 0))) b (0x8000 + p)))

/-- A view of a domain arrives in full; an active one acts as a strobe of its domain does. -/
def mirView (s : State) (act : Bool) (d : Nat) (ws : List (Nat × Word)) : State :=
  let load := fun (t : Tbl Word) =>
    (ws.filter (fun kv => domOf kv.1 == some d)).foldl (fun t kv => tput (regReset kv.1) t kv.1 kv.2)
      (tdrop (fun a => domOf a == some d) t)
  if act then afterCopy (actv s) s.map.bActive s.map (BitVec.ofNat 8 (2 ^ d)) (onRegs s (fun r => { r with act := load r.act }))
  else onRegs s (fun r => { r with stg := load r.stg })

/-- The mirrored Thyme state. A standby records no change of state of its own (log 93); the entry to HOLDOVER starts its
time and takes T_ref from the mirrored history (log 84). -/
def mirThyme (s : State) (at_ : Sfp) (st : ThyState) (ref : Option Nat) (rf mv : Bool) (qls : BitVec 16)
    (force : Option Nat) : State :=
  let enters := decide (st = .holdover) && !decide (s.thy.st = .holdover)
  onThy s (fun t => { t with
    st := st, ref := ref, refFault := rf, mfcValid := mv, refinQl := qls, force := force, next := none
    hbT := if enters then 0 else t.hbT, hbAt := if enters then some at_ else t.hbAt
    tRef := if enters then tempSum (windowValid s) else t.tRef })

/-- A record for the standby (Table 10-3). The allotments of a synchronised standby are its own (R219). -/
def mirApply (at_ : Sfp) (m : MirrorRec) (s : State) : State :=
  match m with
  | .mapStore act g e =>
    let b := roleBank s act
    onMap s (fun m => eccRewrite (setBank m b (tput 0 (bankOf m b) g e)) b g)
  | .smiStore act p w => hostSmi s (roleBank s act) p w
  | .viewWrite act a w => onRegs s (if act then setAct a w else setStg a w)
  | .stageBits o u => onCom s (fun c => { c with stageOpen := o, suspect := u })
  | .commitEntry i (some e) => mirEnt s i.val e
  | .commitEntry i none => if (tfind s.com.ents i.val).any entOpen then onCom s (fun c => { c with ents := tdel c.ents i.val }) else s
  | .snapshots l => onCom s (fun c => { c with snaps := l })
  | .validation ep row idx =>
    match s.com.ents.find? (fun kv => decide (kv.2.st = .armed) && kv.2.epoch == ep) with
    | some (i, _) => if row = 0 then onEnt s i (fun x => { x with validating := false }) else entOut s i .discarded 1 row idx
    | none => s
  | .group g x => mirGroup s at_ g x
  | .urgent p l => onPort s p (fun y => { y with
      urgent := l.map (fun c => { g := c.1, rank := c.2.1, due := c.2.2.1, msg := c.2.2.2 }) })
  | .eq g code e => mirEq s g code e
  | .allot line to_ =>
    if s.pair.st = .standby then s
    else onMap s (fun m => { m with lines := match to_ with
      | some x => tset m.lines line x
      | none => tdel m.lines line })
  | .thyme code ref rf mv qls force => mirThyme s at_ (thyOf code) ref rf mv qls force
  | .cand c h w => onCand s c (fun x => { x with hold := h, wtr := w })
  | .history e => onThy s (fun t => { t with hist := (histOfBytes e :: t.hist).take 4096 })
  | .historyAll l => onThy s (fun t => { t with hist := l.map histOfBytes })
  | .holdover v a r => onThy s (fun t => { t with hoFreq := v, ctl := v, hbAccum := a, hbRemain := r })
  | .authHash slot h => mirHash s slot.val h
  | .lastSeq slot q => onVcp s (fun v => { v with
      replay := tset v.replay slot.val { tget {} v.replay slot.val with last := q, win := 0xFFFFFFFF } })
  | .swap (some f) => mirPush (onPair s (fun p => { p with swap := some (f, true) })) false (.swapConfirm f)
  | .swap none => onPair s (fun p => { p with swap := none })
  | .segment act k es smi => mirSegment s act k.val es smi
  | .view act d ws => mirView s act d.val ws
  | .swapConfirm _ => s
  | .resyncStart => s
  | .bulkRequest => s
  | .bulkEnd => s
  | .auditRequest => s
  | .audit _ => s
  | .repair _ => s

/-! The audit. -/

/-- The audit at a twin that receives the mirror: each segment that differs is asked for and counted; one that differs
again at the next audit ends the synchronisation. In Catch-up a full match ends the phase, and a mismatch asks for
another audit (R221, R232). -/
def xMirrorAudit (crcs : List Word) (s : State) : State :=
  let own := auditCrcs s
  let bad := (List.range 142).filter (fun k => own.getD k 0 != crcs.getD k 0)
  let ask := fun (t : State) => forEach bad (count t 6 3 bad.length) (fun u k => mirPush u false (.repair k))
  if s.pair.st = .standby then
    if bad.any (fun k => s.pair.auditBad.contains k) then
      pairTo (count (onPair s (fun p => { p with auditBad := [] })) 6 3 bad.length) .unsynced 3
    else ask (onPair s (fun p => { p with auditBad := bad }))
  else if s.pair.st = .syncing ∧ s.pair.phase = 4 then
    if bad.isEmpty then onPair s (fun p => { p with phase := 5, phaseAt := p.phaseAt ++ [s.sfp] })
    else mirPush (ask s) false .auditRequest
  else s
def execMirrorAudit (crcs : List Word) (s : State) : Host.Outcome State Fault Refusal :=
  .next (live s (xMirrorAudit crcs s))

/-! Records. -/

/-- A record at a synchronising twin: nothing before the bulk transfer; during it, tables are loaded as they come and
changes are journalled; its end applies the journal and asks for the audit (Table 10-5). -/
def syncTake (at_ : Sfp) (m : MirrorRec) (s : State) : State :=
  if s.pair.phase = 3 then
    match m with
    | .segment act k es smi => mirSegment s act k.val es smi
    | .view act d ws => mirView s act d.val ws
    | .historyAll l => onThy s (fun t => { t with hist := l.map histOfBytes })
    | .bulkEnd =>
      let s1 := forEach s.pair.journal s (fun t r => mirApply r.1 r.2 t)
      mirPush (onPair s1 (fun p => { p with journal := [], phase := 4, phaseAt := p.phaseAt ++ [s.sfp] })) false .auditRequest
    | _ => onPair s (fun p => { p with journal := p.journal ++ [(at_, m)] })
  else if 4 ≤ s.pair.phase then
    match m with
    | .audit l => xMirrorAudit l s
    | _ => mirApply at_ m s
  else s

/-- A message of the standby at the active: it confirms a swap, asks for the bulk transfer, an audit or a segment (R221,
R232, R234). -/
def activeTake (m : MirrorRec) (s : State) : State :=
  match m with
  | .swapConfirm f => onPair s (fun p => { p with swap := match p.swap with
      | some (g, c) => some (g, c || f == g)
      | none => none })
  | .bulkRequest => mirFill (onMir s (fun x => { x with bulk := bulkSrcs s }))
  | .auditRequest => mirrorFull s .audit
  | .repair k => mirrorFull s (.part k)
  | _ => s
where
  /-- Read after what is being read. -/
  mirrorFull (s : State) (x : MirSrc) : State := mirFill (onMir s (fun y => { y with bulk := y.bulk ++ [x] }))

/-- MIRROR_RECORD_RECEIVE: a synchronised or synchronising standby takes the active's records, each with the SFP at which
it was generated; the active takes what the standby asks; an unsynchronised twin takes the active's restart of its resync
(R219, R233, R234). -/
def xMirrorRecordReceive (at_ : Sfp) (m : MirrorRec) (s : State) : State :=
  match s.pair.st with
  | .standby =>
    match m with
    | .audit l => xMirrorAudit l s
    | _ => mirApply at_ m s
  | .syncing => syncTake at_ m s
  | .active => activeTake m s
  | .unsynced => if m = .resyncStart ∧ s.seq.running ∧ s.vcp.run = none then startResync s else s
  | .arbitrating => s
  | .unpaired => s
def execMirrorRecordTake (at_ : Sfp) (m : MirrorRec) (s : State) : Host.Outcome State Fault Refusal :=
  .next (live s (xMirrorRecordReceive at_ m s))

/-! Rows of the link. -/

/-- A resync on a heartbeat: the Link phase ends with equal compatibility levels, the Timing phase with the count aligned
to a complete MFC and the DPLL locked to the Chive clock (R222, R232, R233, Table 10-5). -/
def syncHeartbeat (s : State) (compat : Byte) (locked : Bool) : State :=
  if compat ≠ ownCompat s then failResync s 7 5
  else if s.pair.phase = 1 then onPair s (fun p => { p with phase := 2, phaseAt := p.phaseAt ++ [s.sfp] })
  else if s.pair.phase = 2 ∧ s.pair.hbSlices.length = 6 ∧ locked then
    mirPush (onPair s (fun p => { p with phase := 3, phaseAt := p.phaseAt ++ [s.sfp] })) false .bulkRequest
  else s

/-- HEARTBEAT_RECEIVE (R217, R218, R222, R227, R230, R232, R233). `comp` is half the measured Chive round trip; `locked`
says that the DPLL is locked to the Chive clock. -/
def xHeartbeatReceive (lane : Nat) (b : Block) (comp : Nat) (locked : Bool) (s : State) : State :=
  if hbGood b then
    let w := blkW b
    let st := bits w 20 18
    let compat := BitVec.ofNat 8 (bits w 15 8)
    let back := chiveSilent s
    let s1 := followPeer s w comp
    let again := decide (s1.pair.st = .active) && decide (st = 3) && back && s1.pair.serving
    let s2 := onPair s1 (fun p =>
      { p with
        hb0 := if lane = 0 then some s1.sfp else p.hb0, hb1 := if lane = 0 then p.hb1 else some s1.sfp
        live0 := p.live0 || decide (lane = 0), live1 := p.live1 || decide (lane ≠ 0)
        down0 := p.down0 && decide (lane ≠ 0), down1 := p.down1 && decide (lane = 0)
        lost := false, blocked := p.blocked && !(bit w 17 && (st == 1 || st == 2))
        peer := some (BitVec.ofNat 3 st, bit w 16, bit w 17, compat)
        serving := if p.st = .active then decide (st = 4) || again || (p.serving && st != 3 && st != 5) else p.serving })
    let s3 := disagreeEval (if again then mirPush s2 false .resyncStart else s2)
    let s4 :=
      if s3.pair.st = .syncing then syncHeartbeat s3 compat locked
      else if s3.pair.st = .unsynced ∧ autoResync (actv s3) ∧ st = 2 ∧ s3.seq.running ∧ s3.vcp.run = none
          ∧ (back ∨ s3.pair.why ≠ 5) then startResync s3
      else s3
    matRun (mirFill s4)
  else s
def execHeartbeatTake (lane : Fin 2) (b : Block) (comp : Nat) (locked : Bool) (s : State) :
    Host.Outcome State Fault Refusal :=
  .next (live s (xHeartbeatReceive lane.val b comp locked s))

/-- CHIVE_LANE_DOWN: a lane without a heartbeat for 16,384 blocks (R218). The lanes have carried the queue so far. -/
def xChiveLaneDown (lane : Nat) (s : State) : State :=
  let down := if lane = 0 then s.pair.down0 else s.pair.down1
  let hb := if lane = 0 then s.pair.hb0 else s.pair.hb1
  if !down && !heardWithin s hb 16384 then
    pairSticky (cPair (onPair (mirDrain s) (fun p =>
      if lane = 0 then { p with down0 := true, live0 := false } else { p with down1 := true, live1 := false })) 8) 8
  else s
def execChiveLaneDown (lane : Fin 2) (s : State) : Host.Outcome State Fault Refusal :=
  .next (live s (xChiveLaneDown lane.val s))

/-- MIRROR_LOST: the link becomes silent; the mirror queue is flushed, and a held write goes on (R218, R227, R232, R233,
R435, R443). -/
def xMirrorLost (s : State) : State :=
  if chiveSilent s && !s.pair.lost && (s.pair.hb0.isSome || s.pair.hb1.isSome) then
    let s1 := pairSticky (onPair s (fun p => { p with lost := true, live0 := false, live1 := false, hbSlices := [] })) 0
    let s2 := match s1.pair.st with
      | .standby => if s1.pair.aliveIn then pairTo s1 .unsynced 2 else s1
      | .syncing => failResync s1 8 2
      | .unsynced => s1 | .arbitrating => s1 | .unpaired => s1 | .active => s1
    matRun (mirFlush (blockedEval (disagreeEval s2)))
  else s
def execMirrorLost (s : State) : Host.Outcome State Fault Refusal := .next (live s (xMirrorLost s))

/-- Milliseconds of the phases so far: of each from its beginning to that of the next, the last up to now, a millisecond
being 1,562,500 blocks; what is begun of one is not counted (log 94). -/
def phaseMs : List Sfp → Sfp → List Nat
  | [], _ => []
  | [a], now => [(sfpDist a now).toNat / 1562500]
  | a :: b :: r, now => (sfpDist a b).toNat / 1562500 :: phaseMs (b :: r) now

/-- RESYNC_DONE: after the last phase the target is STANDBY at the epoch boundary and the command replies OK with the
milliseconds of the phases and the groups that still differ (R232, Table 14-5). -/
def xResyncDone (s : State) : State :=
  if isEpoch s.sfp && decide (s.pair.st = .syncing) && decide (s.pair.phase = 5) then
    let n := (enabledGroups s).filter (fun g => (grpOf s g).mirDiff)
    let ms := phaseMs s.pair.phaseAt s.sfp
    let data := (List.range 5).flatMap (fun i => beBytes 2 (ms.getD i 0)) ++ beBytes 2 n.length
    pairChange (onPair (endResync s 0 0 data) (fun p => { p with auditBad := [] })) 5 .standby 0
  else s
def execResyncEnd (s : State) : Host.Outcome State Fault Refusal := .next (live s (xResyncDone s))

end Sys2Proof.Machine
end

