-- ==== Sys2Proof/Machine/Vcp.lean ====
section
/-! DEFINITION. The VCP front end: reception, relay, dispatch, the order of checks, transmission of replies, events and
channel packets, the host SPI (file 12; R336, R437, R438, R115). -/

namespace Sys2Proof.Machine

open Sys2Proof

/-! Reception (Table 12-10, checks 1 to 5). -/

/-- Opcode of KEY_WRITE. -/
def opKeyWrite : BitVec 16 := 0x0102

/-- The one command that needs no authentication while no slot is ENABLED (R261). -/
def bootstrapCmd (r : Req) (op : BitVec 16) : Bool :=
  r.ret.via == .spi && r.auth == 0 && op == opKeyWrite && decide (3 ≤ r.params.length) && pk1 r.params 0 == 0
    && pk1 r.params 2 == 0

/-- A packet for this engine: check 3, then checks 4 and 5 (R259, R261, R278). -/
def deliver (s : State) (r : Req) (op : BitVec 16) (tagOk zeroTag : Bool) : State :=
  let a := authOf s r.auth.toNat
  if !s.vcp.keysLoaded then badAuth s r op 0x0B true
  else if !anyEnabled s then
    (if bootstrapCmd r op && zeroTag then arrive s { req := r, op := op, gen := a.gen, boot := true }
     else badAuth s r op 0x0B true)
  else if !a.enabled then badAuth s r op 0x0B true
  else if !tagOk then badAuth s r op 0 true
  else arrive s { req := r, op := op, gen := a.gen }

/-- A standby discards every packet it receives in-band (R222). -/
def inbandBarred (s : State) (v : Transport) : Bool := viaInband v && isStandby s

/-- A well-formed command packet: duplicates, delivery and forwarding (R266, R269). -/
def handleCmd (s : State) (ret : Return) (b : Bytes) : State :=
  let arrival := match ret.via with
    | .inband p => some p.val
    | .mgmtA => none | .mgmtB => none | .spi => none
  let go := fun (t : State) => deliver t (reqOf ret b) (vcOp b) (tagMatches (authOf t (vcAuth b).toNat).key b)
    (vcTag b == zeros 16)
  if vcGrp b then
    if dupHeld s b then cVcp s 8
    else
      let mine := isMember s (vcDest b)
      let ports := allPorts.filter (fun p => bit s.vcp.relayPorts p && decide (some p ≠ arrival))
      let f := forwardCmd s ret b ports mine
      let s1 := if mine || f.2 then dupAdd f.1 b else f.1
      if mine then go s1 else s1
  else if vcDest b = s.pins.devid then go s
  else (forwardCmd s ret b [routeOf s (vcDest b)] false).1

/-- The front end takes one packet (check 1, then what kind of packet it is). Event packets are never commands. -/
def frontEnd (s : State) (ret : Return) (b : Bytes) : State :=
  if inbandBarred s ret.via then cPair s 7
  else if vcMalformed b then viaLimited (cVcp s 4) ret.via 3
  else if vcEvent b then s
  else if vcReply b then (if viaInband ret.via then relayReply s b else cVcp s 7)
  else handleCmd s ret b

/-- The packet that waits at a transport: the head of a port's pre-authentication FIFO, or the host SPI's command
buffer (Table 20-1). -/
def waitingPacket (s : State) (v : Transport) : Option ((Return × Bytes) × State) :=
  match v with
  | .mgmtA => match s.mgA.fifo with
    | p :: l => some (p, onMg s false (fun m => { m with fifo := l }))
    | [] => none
  | .mgmtB => match s.mgB.fifo with
    | p :: l => some (p, onMg s true (fun m => { m with fifo := l }))
    | [] => none
  | .spi => match s.vcp.spiBuf with
    | some b => some (({ via := .spi }, b), onVcp s (fun v => { v with spiBuf := none }))
    | none => none
  | .inband _ => none

/-- VCP_PACKET_RECEIVE (R266): the front end takes the packet that waits at the transport, or else the one given. -/
def xVcpPacketReceive (ret : Return) (pkt : Bytes) (s : State) : State :=
  match waitingPacket s ret.via with
  | some (p, s1) => frontEnd s1 p.1 p.2
  | none => frontEnd s ret pkt
def execVcpPacketReceive (ret : Return) (pkt : Bytes) (s : State) : Host.Outcome State Fault Refusal :=
  .next (live s (xVcpPacketReceive ret pkt s))

/-- Header of a channel chunk (R113). -/
def chunkSop (h : Byte) : Bool := bit h 7
def chunkEop (h : Byte) : Bool := bit h 6
def chunkLen (h : Byte) : Nat := bits h 4 0

/-- A chunk whose O7 CRC is correct (R115). -/
def chunkTake (s : State) (p : Fin 128) (chunk : Bytes) : State :=
  let h := chunk.getD 0 0
  let part := slice chunk 1 (chunkLen h)
  let ship := fun (t : State) (b : Bytes) =>
    if chunkEop h then frontEnd (onTrunk t p (fun x => { x with reasm := none })) { via := .inband p } b
    else onTrunk t p (fun x => { x with reasm := some b })
  if 20 < chunkLen h then mgmtDiscard s p
  else if chunkSop h then ship (mgmtDiscard s p) part
  else match (portOf s p).trunk.reasm with
    | some got =>
      if chunkLen h ≠ 20 ∧ chunkEop h = false then mgmtDiscard s p
      else if 2048 < got.length + chunkLen h then mgmtDiscard s p
      else ship s (got ++ part)
    | none => s

/-- MGMT_CHUNK_RECEIVE (R115). -/
def xMgmtChunkReceive (p : Fin 128) (o4 : List Block) (b : Block) (s : State) : State :=
  let (ok, chunk) := rxChunk s p o4
  let o7 := rxOverhead s p (portOf s p).txO7 b
  if isTrunk s p && inFrame (portOf s p).trunk then
    (if ok && o7Good chunk o7 then chunkTake s p chunk else mgmtDiscard s p)
  else s
def execMgmtChunkReceive (port : Fin 128) (o4 : List Block) (o7 : Block) (s : State) :
    Host.Outcome State Fault Refusal :=
  .next (live s (xMgmtChunkReceive port o4 o7 s))

/-! The checks of the sequencer (Table 12-10, checks 9 to 12). -/

/-- Classes that may issue an opcode: 0 operator, 1 observer, 2 holder (the Class columns of files 13 and 14). -/
def opClasses (op : Nat) : List Nat :=
  if op = 0x0101 ∨ op = 0x0380 ∨ op = 0x0382 ∨ op = 0x0404 ∨ op = 0x0B06 then [0, 1, 2]
  else if op = 0x0381 ∨ op = 0x0403 then [0, 2]
  else if [0x0103, 0x0105, 0x0107, 0x010A, 0x0201, 0x0202, 0x0302, 0x0306, 0x0402, 0x0504, 0x0505, 0x050B, 0x0602, 0x0605,
      0x0606, 0x0607, 0x0609, 0x0701, 0x0703, 0x0801, 0x0803, 0x0804, 0x0805, 0x0807, 0x080A].contains op then [0, 1]
  else if [0x0901, 0x0904, 0x0910, 0x0A01, 0x0B03].contains op then [0, 1]
  else [0]

/-- A standby twin executes the opcode (the Standby columns; R223, R304). -/
def opStandby (op : Nat) : Bool :=
  (0x0101 ≤ op && op ≤ 0x010B)
    || [0x0201, 0x0202, 0x0302, 0x0306, 0x0380, 0x0382, 0x0402, 0x0404, 0x0504, 0x0505, 0x050B, 0x0602, 0x0605, 0x0607,
      0x0609].contains op
    || [0x0701, 0x0703, 0x0704, 0x0705, 0x0706, 0x0801, 0x0803, 0x0804, 0x0805, 0x0807, 0x080A, 0x0901, 0x0904, 0x0910, 0x0911,
      0x0912, 0x0920, 0x0A01, 0x0B03, 0x0B06].contains op

/-- Rescue firmware executes the opcode (R457). -/
def opRescue (op : Nat) : Bool :=
  [0x0101, 0x0102, 0x0103, 0x0910, 0x0911, 0x0912, 0x0920, 0x0904, 0x0B06, 0x010B].contains op

/-- Guarded opcodes end in CONFIRM (R275). -/
def opGuarded (op : Nat) : Bool :=
  [0x0102, 0x010B, 0x0205, 0x050A, 0x0705, 0x0706, 0x0912, 0x0A02].contains op

/-- PLEN equals the opcode's length, or the length its COUNT gives (check 11). -/
def opLenOk (op : Nat) (p : Bytes) : Bool :=
  let n := p.length
  let fixed := fun (k : Nat) => n == k
  let per := fun (hd lo w unit : Nat) => decide (hd ≤ n) && n == hd + unit * pkNat p lo w
  if [0x0101, 0x0105, 0x010A, 0x0303, 0x0306, 0x0505, 0x0509, 0x0701, 0x0704, 0x0803, 0x0904, 0x0910, 0x0920, 0x0A01].contains op
      || [0x0B03, 0x0B06].contains op then fixed 0
  else if [0x0109, 0x0507, 0x0605, 0x0609, 0x0703, 0x0807, 0x0B04, 0x0B05].contains op then fixed 1
  else if [0x0103, 0x0404, 0x0405, 0x0506, 0x0602, 0x0607, 0x080A].contains op then fixed 2
  else if [0x0402, 0x0504].contains op then fixed 3
  else if [0x0107, 0x0202, 0x0304, 0x0403, 0x050A, 0x050B, 0x0603, 0x0608, 0x0706, 0x0804, 0x0806, 0x0903].contains op then fixed 4
  else if op = 0x0382 then fixed 5
  else if [0x0201, 0x0302, 0x0508, 0x0604, 0x0702, 0x0801].contains op then fixed 6
  else if [0x010B, 0x0380, 0x0503, 0x0802, 0x0901, 0x0912, 0x0A02].contains op then fixed 8
  else if op = 0x0805 then fixed 10
  else if [0x0205, 0x0501, 0x0B01, 0x0B02].contains op then fixed 12
  else if [0x0808, 0x0809].contains op then fixed 14
  else if [0x0108, 0x0705].contains op then fixed 16
  else if op = 0x0606 then fixed 26
  else if op = 0x0502 then fixed 40
  else if op = 0x0102 then fixed 44
  else if op = 0x0601 then fixed 138
  else if op = 0x0104 then fixed 512
  else if op = 0x0106 then per 2 0 2 4
  else if op = 0x0203 then per 2 0 2 8
  else if op = 0x0204 then per 4 0 2 8
  else if op = 0x0301 then per 2 0 2 10
  else if op = 0x0305 then per 2 0 1 6
  else if op = 0x0381 then per 4 2 2 10
  else if op = 0x0401 then per 10 8 1 2
  else if op = 0x0902 then per 8 4 2 4
  else if op = 0x0911 then per 8 4 2 1
  else false

/-- The CONFIRM a guarded command must end in (R275). -/
def confirmOf (op : BitVec 16) (seq : Word) : Nat := 0xFFFFFFFF - (op.toNat * 65536 + seq.toNat % 65536)
def confirmOk (op : BitVec 16) (r : Req) : Bool :=
  pkNat r.params (r.params.length - 4) 4 == confirmOf op r.seq

/-- Class of the authority that sent a command; the bootstrap command acts as an operator (R261). -/
def clsOf (s : State) (q : Run) : Nat := if q.boot then 0 else (authOf s q.req.auth.toNat).cls
/-- HOLDER_ID of the authority. -/
def holderOf (s : State) (q : Run) : Nat := (authOf s q.req.auth.toNat).holder

/-- A holder-class authority whose HOLDER_ID some member entry of the group in the active bank does not carry (R184,
R293). -/
def groupBarred (s : State) (q : Run) (g : Nat) : Bool :=
  clsOf s q == 2 && (membersIn s.map s.map.bActive g).any (fun i => eHolder (activeEntry s i) != holderOf s q)

/-- A holder-class authority may name only its own holder in the holder opcodes, may not request LO or FS, and may name
only a group whose members it holds: part of check 9 (Table 12-4, R288, R293). -/
def holderCheck (s : State) (q : Run) : Option (Byte × Byte) :=
  let op := q.op.toNat
  let p := q.req.params
  if clsOf s q ≠ 2 then none
  else if 0x0380 ≤ op ∧ op ≤ 0x0382 ∧ 2 ≤ p.length ∧ pkNat p 0 2 ≠ holderOf s q then some (4, 2)
  else if op = 0x0403 ∧ 3 ≤ p.length ∧ (pk1 p 2 = 0xE ∨ pk1 p 2 = 0xA) then some (4, 1)
  else if (op = 0x0403 ∨ op = 0x0404) ∧ 2 ≤ p.length ∧ pkNat p 0 2 < 2048 ∧ groupBarred s q (pkNat p 0 2) then
    some (4, 2)
  else none

/-- The first failing check of 9 to 12 that every command shares: its status and detail. -/
def checkCommand (s : State) (q : Run) : Option (Byte × Byte) :=
  let op := q.op.toNat
  if (opClasses op).contains (clsOf s q) = false then some (4, 1)
  else if (holderCheck s q).isSome then holderCheck s q
  else if isStandby s && !opStandby op then some (2, 0)
  else if !opLenOk op q.req.params then some (8, 0x40)
  else if s.seq.rescue && !opRescue op then some (4, 9)
  else if opGuarded op && !confirmOk q.op q.req then some (0x0B, 0)
  else none

/-! Dispatch (R264, checks 6 to 8). -/

/-- Opcodes that the command references define (Tables 13-2 to 13-11 and 14-2 to 14-15). -/
def opDefined (op : Nat) : Bool :=
  (0x0101 ≤ op && op ≤ 0x010B) || (0x0201 ≤ op && op ≤ 0x0205) || (0x0301 ≤ op && op ≤ 0x0306)
    || (0x0380 ≤ op && op ≤ 0x0382) || (0x0401 ≤ op && op ≤ 0x0405) || (0x0501 ≤ op && op ≤ 0x050B)
    || (0x0601 ≤ op && op ≤ 0x0609) || (0x0701 ≤ op && op ≤ 0x0706) || (0x0801 ≤ op && op ≤ 0x080A)
    || (0x0901 ≤ op && op ≤ 0x0904) || (0x0910 ≤ op && op ≤ 0x0912) || op == 0x0920
    || (0x0A01 ≤ op && op ≤ 0x0A02) || (0x0B01 ≤ op && op ≤ 0x0B06)

/-- The checks of Table 04-3 that a COMMIT fails first, all against the state at its acceptance (R88, R507): status,
detail and reply data. -/
def commitVerdict (s : State) (q : Run) : Option (Byte × Byte × Bytes) :=
  let p := q.req.params
  let m := p.getD 0 0
  let f := sfpOfBytes p 2
  match checkCommand s q with
  | some (st, d) => some (st, d, [])
  | none =>
    if m = 0 then some (8, 0x42, [])
    else if f.fi ≠ 0 ∨ f.bi ≠ 0 then some (8, 0x44, [])
    else if q.req.grp ∧ s.thy.mfcMism then some (4, 5, [])
    else (commitRefuse s q.accept m f.mfc).map (fun r =>
      (r.1, r.2, if r.1 = 9 then beBytes 6 (earliest q.accept) else []))

/-- The highest PRI, and among equals the first to arrive. -/
def queueBest (l : List Queued) : Option Queued :=
  l.foldl (fun o x => match o with
    | some b => if b.req.pri < x.req.pri then some x else o
    | none => some x) none

/-- The sequencer starts a command: its estimate is made, every packet still queued is answered BUSY, the number is
recorded (R262, R264, R265). -/
def acceptCmd (s : State) (q : Queued) : State :=
  let a := q.req.auth.toNat
  let key := (authOf s a).key
  let rest := s.vcp.queue
  let run0 : Run := { req := q.req, op := q.op, accept := s.sfp, key := key, boot := q.boot, est := (remainFree s, s.sfp)
                      since := s.sfp }
  let run := if q.op = 0x0B01 then { run0 with verdict := commitVerdict s run0 } else run0
  let s1 := cVcp (onVcp { s with fresh := s.fresh + 1 } (fun v => { v with queue := [], run := some run })) 0
  let s2 := forEach rest s1 (fun t x => answerBusy t x.req x.op 1 run.est.1)
  match seqTake (replayOf s2 a) q.req.seq with
  | some y => if opDefined q.op.toNat then seqRecord s2 a y else setReply (seqRecord s2 a y) 7 0 []
  | none => viaLimited (setReply s2 6 0 (beBytes 4 (nextSeq (replayOf s2 a)).toNat)) q.req.ret.via 5

/-- Hand over the best packet; one whose key changed is refused and the next is taken (check 6). -/
def dispatchN : Nat → State → State
  | 0, s => s
  | n + 1, s =>
    match queueBest s.vcp.queue with
    | some q =>
      let s1 := onVcp s (fun v => { v with queue := delFirst (fun x => x == q) v.queue })
      if (authOf s q.req.auth.toNat).gen = q.gen then acceptCmd s1 q
      else dispatchN n (badAuth s1 q.req q.op 0x0A false)
    | none => s

/-- A dispatch tick falls at every BI that is a multiple of 8,192 (R264). -/
def isTick (p : Sfp) : Bool := p.bi % 8192 == 0

/-- A dispatch tick with the sequencer idle. -/
def dispatch (s : State) : State :=
  if isTick s.sfp && (busyNow s).isNone then dispatchN 8 s else s

/-- DISPATCH_TICK (R264). -/
def execDispatchTick (s : State) : Host.Outcome State Fault Refusal := .next (live s (dispatch s))

/-! Command rows. -/

/-- The run is this command, and its reply is still to be made. -/
def runIs (s : State) (op : BitVec 16) (r : Req) : Option Run :=
  match s.vcp.run with
  | some q => if q.req = r ∧ q.op = op ∧ q.reply = none ∧ s.seq.running then some q else none
  | none => none

/-- A command row with nothing in execution stands for the arrival of its authenticated packet, and at a dispatch tick
for its acceptance too; while another command executes it is answered BUSY (R264, R265). -/
def offer (s : State) (op : BitVec 16) (r : Req) : State :=
  match s.vcp.run with
  | some q => if q.req = r ∧ q.op = op then s else offerNew s
  | none => dispatch (offerNew s)
where
  /-- The packet of the row arrives. -/
  offerNew (s : State) : State :=
    if inbandBarred s r.ret.via then cPair s 7 else deliver s r op true true

/-- The command in execution does its work: on its first part, after the checks it shares with every command. `body`
may be entered again while the command still works. -/
def runSteps (op : BitVec 16) (r : Req) (body : Run → State → State) (s : State) : State :=
  let s1 := offer s op r
  match runIs s1 op r with
  | some q =>
    if q.work = 0 then
      match checkCommand s1 q with
      | some (st, d) => setReply s1 st d []
      | none => body q (onRun s1 (fun x => { x with work := 1 }))
    else body q s1
  | none => s1

/-- A command that acts on the pending-commit table: within 1 ms, 1,562,500 blocks, of its acceptance, which is all that
its work may take (R507). What it was accepted with decides where `checked` says so. -/
def runSoon (op : BitVec 16) (r : Req) (checked : Bool) (body : Run → State → State) (s : State) : State :=
  let s1 := offer s op r
  match runIs s1 op r with
  | some q =>
    if q.work = 0 ∧ sfpDist q.since s1.sfp ≤ 1562500 then
      match (if checked then none else checkCommand s1 q) with
      | some (st, d) => setReply s1 st d []
      | none => body q (onRun s1 (fun x => { x with work := 1 }))
    else s1
  | none => s1

/-- A command whose work is done in one part. -/
def runOnce (op : BitVec 16) (r : Req) (body : Run → State → State) (s : State) : State :=
  runSteps op r (fun q t => if q.work = 0 then body q t else t) s

/-- A staging command sets STAGE_OPEN of its domains while it executes; a frozen domain refuses it (R282). While its
writes are held for space in the mirror queue the command waits: it begins at a later row (R435). -/
def staging (mask : BitVec 8) (s : State) (body : State → State) : State :=
  if frozenAny s mask then setReply s 4 3 []
  else if mirHeld s then onRun s (fun x => { x with work := 0 })
  else body (openDomains s mask)

/-- What a command schedules or changes at its completion, and the boundary its reply reports (R254, R32, R184, R284,
R287, R293, R308, R309, R310). -/
def endAct (s : State) : EndAct → State × Bytes
  | .ql n c =>
    let f := nextFrame s.sfp
    (onThy s (fun t => { t with pendQl := t.pendQl ++ [(f, n, c)] }), sfpBytes f)
  | .force c =>
    let f := nextFrame s.sfp
    (onThy s (fun t => { t with pendForce := some (f, c) }), sfpBytes f)
  | .mfc v =>
    let f := nextEpoch s.sfp
    (onThy s (fun t => { t with pendMfc := some (f, v) }), sfpBytes f)
  | .realign =>
    let f := nextEpoch s.sfp
    (onThy s (fun t => { t with pendRealign := some f }), sfpBytes f)
  | .request g c holder =>
    let f := nextFrame s.sfp
    (onGrp s g (fun x => { x with pend := x.pend ++ [(f, c, holder)] }), sfpBytes f)
  | .net m rt rp => (onVcp s (fun v => { v with members := m, route := rt, relayPorts := rp }), [])
  | .devReset module =>
    let f := nextEpoch s.sfp
    (onSeq s (fun q => { q with devReset := match q.devReset with
      | some (e, true) => some (e, true)
      | _ => some (f, module) }), sfpBytes f)
/-- That, of the command in execution; a route in force changes once the reply has gone out. -/
def endOf (s : State) (q : Run) : State × Bytes :=
  match q.atEnd with
  | some e => endAct s e
  | none => (s, [])

/-- COMMAND_COMPLETE (R254): the reply is handed to its transport, what the command leaves to its completion is done, the
latency record written, STAGE_OPEN cleared and the sequencer idle. -/
def xCommandComplete (s : State) : State :=
  match s.vcp.run with
  | some q =>
    match q.reply with
    | some r =>
      let s1 := setStageBits (onVcp s (fun v => { v with run := none })) 0 s.com.suspect
      let s2 := sendReply s1 { r with data := (endOf s1 q).2 ++ r.data }
      latPush (endOf s2 q).1 (latOf q r.status r.detail (some s.sfp))
    | none => s
  | none => s
def execCommandComplete (s : State) : Host.Outcome State Fault Refusal := .next (live s (xCommandComplete s))

/-! Relay table and duplicate memory. -/

/-- 10 s and 2 s in blocks of 0.64 ns (R267, R269). -/
def relayLife : Int := 15625000000
def dupLife : Int := 3125000000

/-- RELAY_ENTRY_EXPIRE (R267). -/
def xRelayEntryExpire (i : Nat) (s : State) : State :=
  match s.vcp.relay[i]? with
  | some e => if relayLife ≤ sfpDist e.at_ s.sfp then onVcp s (fun v => { v with relay := v.relay.eraseIdx i }) else s
  | none => s
def execRelayEntryExpire (i : Fin 64) (s : State) : Host.Outcome State Fault Refusal :=
  .next (live s (xRelayEntryExpire i.val s))

/-- DUP_MEMORY_EXPIRE (R269). -/
def xDupMemoryExpire (i : Nat) (s : State) : State :=
  match s.vcp.dup[i]? with
  | some e => if dupLife ≤ sfpDist e.at_ s.sfp then onVcp s (fun v => { v with dup := v.dup.eraseIdx i }) else s
  | none => s
def execDupMemoryExpire (i : Fin 64) (s : State) : Host.Outcome State Fault Refusal :=
  .next (live s (xDupMemoryExpire i.val s))

/-! Transmission on the management ports (R256, R336). -/

/-- A port's own unicast address (R333). -/
def ownMac (b : Bool) : BitVec 48 := if b then Config.macB else Config.macA

/-- An Ethernet frame for a packet: padded to the 64-byte minimum, with its FCS (R256). -/
def etherFrame (dst src : BitVec 48) (vlan : Option (BitVec 16)) (p : Bytes) : Bytes :=
  let tag := match vlan with
    | some t => [0x81, 0x00] ++ beBytes 2 t.toNat
    | none => []
  let b := beBytes 6 dst.toNat ++ beBytes 6 src.toNat ++ tag ++ [0x88, 0xB5] ++ p
  let c := b ++ zeros (60 - b.length)
  c ++ fcsBytes c

/-- A frame goes out on a port: `k` is the counter of its kind, 16 replies or 17 events. -/
def mgTransmit (s : State) (b : Bool) (f : Bytes) (k : Nat) : State :=
  cMg (cMg (cMg (onMg s b (fun m => { m with lastTx := f, octTx := m.octTx + f.length })) b 14 1) b 15 f.length) b k 1

/-- REPLY_TRANSMIT (R336); a reply the management DMA cannot read is discarded (R359, R363). -/
def xReplyTransmit (b : Bool) (s : State) : State :=
  match (mgOf s b).replies with
  | p :: l =>
    let s1 := onMg s b (fun m => { m with replies := l })
    if (mgOf s b).link then
      let d := dmaTake s1 p.bytes.length
      if d.2 then mgTransmit d.1 b (etherFrame p.ret.mac (ownMac b) p.ret.vlan p.bytes) 16 else d.1
    else cMg s1 b 18 1
  | [] => s
def execReplyTransmit (p : MgPort) (s : State) : Host.Outcome State Fault Refusal :=
  .next (live s (xReplyTransmit (isB p) s))

/-- Collector address and VLAN tag of event packets (Table 18-10). -/
def evMac (v : View) : BitVec 48 := BitVec.ofNat 48 (bits (v (aSage + 0x424)) 15 0 * 2 ^ 32 + (v (aSage + 0x428)).toNat)
def evTag (v : View) : Option (BitVec 16) :=
  if evVlan v then some (BitVec.ofNat 16 (v (aSage + 0x42C)).toNat) else none

/-- An event packet (R276). -/
def eventBytes (s : State) (e : EvPkt) : Bytes :=
  let ps := sfpBytes e.at_ ++ beBytes 2 s.seq.boot ++ [by1 e.sub, 0] ++ slice e.data 0 20
  let b := [0x14, by1 (e.pri * 64)] ++ beBytes 2 s.pins.devid.toNat ++ [0, 0] ++ beBytes 2 (evAuth (actv s))
    ++ beBytes 4 e.seq.toNat ++ beBytes 2 (0xE000 + e.cls) ++ beBytes 2 ps.length ++ ps
  b ++ tagFor (authOf s (evAuth (actv s))).key b

/-- The packet at the head: the highest PRI, and among equals the oldest (R432). -/
def eventHead (l : List EvPkt) : Option EvPkt :=
  l.foldl (fun o x => match o with
    | some b => if b.pri < x.pri then some x else o
    | none => some x) none

/-- The management ports EVT_CFG names (R276). -/
def evPorts (v : View) : List Bool :=
  if evTransport v = 1 then [false] else if evTransport v = 2 then [true] else if evTransport v = 3 then [false, true]
  else []

/-- An event on one port; a port whose link is down drops its copy (R437). -/
def eventOn (p : Bytes) (s : State) (b : Bool) : State :=
  if (mgOf s b).link then mgTransmit s b (etherFrame (evMac (actv s)) (ownMac b) (evTag (actv s)) p) 17 else s

/-- EVENT_SEND (R336, R437): the head of the event queue is sent or discarded; a reply that waits at a port starts
first. -/
def xEventSend (s : State) : State :=
  let v := actv s
  match eventHead s.sage.events with
  | some e =>
    let s1 := onSage s (fun g => { g with events := delFirst (fun x => x == e) g.events })
    if (evPorts v).any (fun b => (mgOf s b).link && !(mgOf s b).replies.isEmpty) then s
    else if !evAuthOk s then s1
    else if evTransport v = 4 then spiPush s1 (eventBytes s e)
    else forEach (evPorts v) s1 (eventOn (eventBytes s e))
  | none => s
def execEventSend (s : State) : Host.Outcome State Fault Refusal := .next (live s (xEventSend s))

/-- CHANNEL_PACKET_SEND (R114, R438): the highest PRI, then the oldest, starts in consecutive frames. -/
def xChannelPacketSend (p : Nat) (s : State) : State :=
  let x := portOf s p
  let best := x.txq.foldl (fun (o : Option ChanPkt) c => match o with
    | some b => if b.pri < c.pri then some c else o
    | none => some c) none
  match best with
  | some c =>
    if isTrunk s p && x.txNow.isNone then
      onPort s p (fun y => { y with txq := delFirst (fun z => z == c) y.txq, txNow := some (c, 0) })
    else s
  | none => s
def execChannelPacketSend (port : Fin 128) (s : State) : Host.Outcome State Fault Refusal :=
  .next (live s (xChannelPacketSend port.val s))

/-- The chunk of this frame on a port's channel, and what is left to send (R113, R114). -/
def chunkNext (t : Option (ChanPkt × Nat)) : Bytes × Option (ChanPkt × Nat) :=
  match t with
  | some (c, k) =>
    let n := min 20 (c.bytes.length - k)
    let last := decide (c.bytes.length ≤ k + 20)
    (by1 (at1 (k == 0) 7 + at1 last 6 + n) :: slice (slice c.bytes k n) 0 20, if last then none else some (c, k + 20))
  | none => (zeros 21, none)

/-! Host SPI (Table 12-2). -/

/-- PKT_WRITE: discarded with OVERRUN while TX_FREE = 0, or when its length does not match the bytes clocked or exceeds
the buffer. -/
def xPktWrite (len : Nat) (b : Bytes) (s : State) : State :=
  if s.vcp.spiBuf.isSome || decide (len ≠ b.length) || decide (1500 < len) then
    onVcp s (fun v => { v with spiOverrun := true, spiOut := [] })
  else onVcp s (fun v => { v with spiBuf := some b, spiOut := [] })
def execPktWrite (len : Nat) (bytes : Bytes) (s : State) : Host.Outcome State Fault Refusal :=
  .next (live s (xPktWrite len bytes s))

/-- PKT_READ: a length, then the oldest packet of the receive FIFO. -/
def xPktRead (s : State) : State :=
  match s.vcp.spiRx with
  | p :: l => onVcp s (fun v => { v with spiRx := l, spiOut := beBytes 2 p.length ++ p })
  | [] => onVcp s (fun v => { v with spiOut := [0, 0] })
def execPktRead (s : State) : Host.Outcome State Fault Refusal := .next (live s (xPktRead s))

/-- RX_READY, TX_FREE and OVERRUN. -/
def spiStatus (v : VcpSt) : BitVec 3 :=
  BitVec.ofNat 3 (at1 (!v.spiRx.isEmpty) 0 + at1 v.spiBuf.isNone 1 + at1 v.spiOverrun 2)

/-- STATUS_READ: one byte; the read clears OVERRUN. -/
def xStatusRead (s : State) : State :=
  onVcp s (fun v => { v with spiOut := [(spiStatus v).setWidth 8], spiStat := spiStatus v, spiOverrun := false })
def execStatusRead (s : State) : Host.Outcome State Fault Refusal := .next (live s (xStatusRead s))

end Sys2Proof.Machine
end

