-- ==== Sys2Proof/Machine/Staging.lean ====
section
/-! DEFINITION. What the commands share: replies by name, guarded pairs of a command, flash saves, stores of map entries
and their report, copies of active views (R275, R281, R285, R290, R302). -/

namespace Sys2Proof.Machine

open Sys2Proof

/-- BAD_PARAM with a detail. -/
def bad (s : State) (d : Byte) : State := setReply s 8 d []
/-- BAD_PARAM, detail RANGE. -/
def badRange (s : State) : State := bad s 0x41
/-- DENIED with a detail. -/
def denied (s : State) (d : Byte) : State := setReply s 4 d []
/-- DENIED, detail STATE. -/
def deniedState (s : State) : State := denied s 9
/-- DENIED, detail FLASH_FAIL (R285). -/
def flashFail (s : State) : State := denied s 0x4B

/-- A guarded pair on a register of the system block whose writes follow each other at once: a pair left open there fails
(R380). -/
def guardedPair (s : State) (a : Nat) (v : Word) : State := sysSecond (openPair s 0 a v) a (~~~v)

/-- The guarded pair of a command on a register of the system block, one write at each of two rows of the command: the
first opens it; at the second the command goes on, or ends with GUARD_FAIL where the pair failed (R275, R379, R380). -/
def pairRows (a : Nat) (v : Word) (q : Run) (s : State) (go : State → State) : State :=
  if q.work = 0 then onRun (openPair s 0 a v) (fun x => { x with work := 2 })
  else
    let r := secondWrite s 0 a (~~~v)
    match r.2 with
    | some w => go (gwTake q.accept r.1 a (kindMask (kindAct a)) w)
    | none => setReply r.1 0x0B 0 []

/-- The first write of a command's pair on FEED_SELECT. -/
def feedPairOpen (s : State) (v : Word) : State := onRun (openPair s 1 aFeedSelect v) (fun x => { x with work := 2 })
/-- The second one: the switch starts, or the command ends with GUARD_FAIL (R250, R275, R381). -/
def feedPairClose (s : State) (v : Word) : State :=
  let t := onRun (feedSecond s 1 (~~~v)) (fun x => { x with work := 3 })
  if (secondWrite s 1 aFeedSelect (~~~v)).2.isSome then t else setReply t 0x0B 0 []

/-- One write of the configuration store or key store (R285). -/
def savedOnce (s : State) : State := onFlash s (fun f => { f with saves := (f.saves + 1) % 2 ^ 32 })

/-- 64-bit value of a counter in 8 bytes. -/
def ctr8 (s : State) (blk idx : Nat) : Bytes := beBytes 8 (ctrVal s blk idx)
/-- A 128-bit port mask in 16 bytes (R281). -/
def maskBytes (w : BitVec 128) : Bytes := beBytes 16 w.toNat
/-- A port mask from 16 bytes of a packet. -/
def pkMask (p : Bytes) (lo : Nat) : BitVec 128 := BitVec.ofNat 128 (pkNat p lo 16)

/-- The bank a BANK byte names (R281): true for bank B. -/
def bankSel (s : State) (n : Nat) : Bool :=
  if n = 0 then false else if n = 1 then true else if n = 2 then s.map.bActive else !s.map.bActive

/-! Stores of entries and their report (R290). -/

/-- Stores done so far: state, entries stored, entries lost, the first of them. -/
structure Stored where
  /-- state -/
  st : State
  /-- STORED -/
  stored : Nat := 0
  /-- PREEMPT_COUNT -/
  lost : Nat := 0
  /-- FIRST_PREEMPT -/
  first : Nat := 0xFFFF

/-- One store of an entry of the staged bank; `hits` lists the entries the protection engine stores in the same memory
cycle (R165). -/
def storeOne (hits : List Nat) (x : Stored) (ge : Nat × Entry) : Stored :=
  let col := hits.contains ge.1 && inPass x.st ge.1
  let t := hostStore x.st (!x.st.map.bActive) ge.1 ge.2 col
  if col then { x with st := t, lost := x.lost + 1, first := if x.lost = 0 then ge.1 else x.first }
  else { x with st := t, stored := x.stored + 1 }
/-- Stores of n items of a list, from the d-th on, in order. -/
def storeItems (items : List (Nat × Entry)) (hits : List Nat) (x : Stored) (d n : Nat) : Stored :=
  ((items.drop d).take n).foldl (storeOne hits) x
/-- The store report. -/
def storeReport (x : Stored) : Bytes :=
  [by1 (b2n (!x.st.map.bActive)), 0] ++ beBytes 2 x.stored ++ beBytes 2 x.lost ++ beBytes 2 x.first
/-- The reply of an opcode that stores entries. -/
def storeReply (x : Stored) : State := setReply x.st (if x.lost = 0 then 0 else 3) 0 (storeReport x)

/-- Stores that meet the freeze are discarded (R92, Table 13-13). -/
def frozenStores (s : State) (n : Nat) : State := if n = 0 then s else count (onCom s (fun c => { c with frozenWr := true })) 3 4 n

/-- One row of an opcode that makes `total` stores: `part` of them are made at it, `stores` making n from the d-th on;
`fin` follows the last. The first row opens the domains; a freeze that has begun by a later one discards the rest, and
the reply is DENIED with the store report (R290, Table 13-13). `work` is one more than the stores done. -/
def storeRow (mask : BitVec 8) (total part : Nat) (stores : Stored → Nat → Nat → Stored) (fin : Stored → Stored) (q : Run)
    (s : State) : State :=
  let d := q.work - 1
  let x0 := fun (t : State) => ({ st := t, stored := q.stored.1, lost := q.stored.2.1, first := q.stored.2.2 } : Stored)
  let go := fun (t : State) =>
    let n := min part (total - d)
    let x := stores (x0 t) d n
    if d + n = total then storeReply (fin x)
    else onRun x.st (fun r => { r with work := d + n + 1, stored := (x.stored, x.lost, x.first) })
  if q.work = 0 then staging mask s go
  else if frozenNow s 0 then setReply (frozenStores s (total - d)) 4 3 (storeReport (x0 s))
  else if mirHeld s then s else go s

/-- Stores of values in a run of indices from `lo`: an entry at which nothing changes is counted without a store. -/
def storeSpan (x : Stored) (lo n : Nat) (f : Nat → Entry) (hits : List Nat) : Stored :=
  let ks := (touchedKeys x.st.map).filter (fun i => decide (lo ≤ i ∧ i < lo + n))
  let y := (ks.map (fun i => (i, f i))).foldl (storeOne hits) x
  { y with stored := y.stored + (n - ks.length) }
/-- A part of the copy of the active bank to the staged bank (R290): an uncorrectable entry becomes zeros. STORED counts
all 10,240 entries but those lost. -/
def copyPart (hits : List Nat) (x : Stored) (d n : Nat) : Stored :=
  storeSpan x d n (fun i => if eccDouble x.st.map x.st.map.bActive i then 0 else activeEntry x.st i) hits
/-- The copy ends with the SMI words; an uncorrectable one becomes zeros. -/
def copySmi (x : Stored) : Stored :=
  let b := x.st.map.bActive
  { x with st := forEach allPorts x.st (fun t p =>
      hostSmi t (!b) p (if eccDouble x.st.map b (0x8000 + p) then 0 else smiWord x.st.map b p)) }

/-- The active views of the domains of a mask are copied to their staged views (R302). -/
def revertViews (s : State) (mask : BitVec 8) : State :=
  let mine := fun (a : Nat) => match domOf a with
    | some d => bit mask d
    | none => false
  forEach ((s.regs.act.map (·.1) ++ s.regs.stg.map (·.1)).filter mine) s (fun t a => stgPut t a (actv s a))

/-- Marks of STAGE_SUSPECT are cleared. -/
def clearSuspect (s : State) (mask : BitVec 8) : State := setStageBits s s.com.stageOpen (s.com.suspect &&& ~~~mask)

/-- The end of STAGE_REVERT (R302): D0 keeps its mark while a store was lost. -/
def revertEnd (mask : BitVec 8) (x : Stored) : Stored :=
  { x with st := clearSuspect x.st (if x.lost = 0 then mask else mask &&& 0xFE#8) }

end Sys2Proof.Machine
end

