-- ==== Sys2Proof/Machine/Device.lean ====
section
/-! DEFINITION. The device family of commands (Tables 13-2 and 13-3). -/

namespace Sys2Proof.Machine

open Sys2Proof

/-- DEV_INFO (Table 13-3). -/
def xDevInfo (_ : Run) (s : State) : State :=
  replyOk s (beBytes 2 s.pins.devid.toNat ++ [by1 (b2n s.pins.twinPos + 2 * pairCode s.pair.st),
    (readReg s (aSys + 0x008)).setWidth 8, by1 (b2n (decide (s.phase = .ready)) + 2 * b2n s.seq.imageB), 0]
    ++ beBytes 4 (fwVersion s).toNat ++ beBytes 4 s.seq.boot ++ beBytes 2 Config.skoloRev.toNat ++ [0, 0]
    ++ beBytes 8 Config.serial.toNat ++ sfpBytes s.sfp)
def execDevInfo (r : Req) (s : State) : Host.Outcome State Fault Refusal := .next (live s (runOnce 0x0101 r xDevInfo s))

/-- The slot a KEY_WRITE asks for. -/
def keyNew (s : State) (p : Bytes) : AuthSt :=
  { enabled := bit (p.getD 1 0) 0, key := slice p 8 32, cls := pk1 p 2, holder := pkNat p 4 2
    gen := (authOf s (pk1 p 0)).gen + 1 }
/-- Some slot of operator class stays ENABLED. -/
def hasOperator (t : Tbl AuthSt) : Bool := t.any (fun kv => kv.2.enabled && kv.2.cls == 0)

/-- KEY_WRITE (R286, R263, R285): the slot, its KEY_GEN, its LAST and reservation. -/
def xKeyWrite (flashOk : Bool) (q : Run) (s : State) : State :=
  let p := q.req.params
  let k := pk1 p 0
  let t := tput {} s.vcp.auths k (keyNew s p)
  if 63 < k ∨ 2 < pk1 p 2 ∨ 1023 < pkNat p 4 2 then badRange s
  else if !hasOperator t then denied s 0x4A
  else
    pairRows (aSys + 0x028) 1 q s (fun s1 =>
      if !flashOk then flashFail (guardedPair s1 (aSys + 0x028) 0)
      else
        let s2 := onVcp s1 (fun v => { v with auths := t, replay := tdel v.replay k })
        let s3 := onFlash s2 (fun f => { f with keys := some t, resv := some (tdel (f.resv.getD []) k) })
        replyOk (guardedPair (savedOnce s3) (aSys + 0x028) 0) [by1 k, (keyNew s p).gen])
def execKeyWrite (r : Req) (flashOk : Bool) (s : State) : Host.Outcome State Fault Refusal :=
  .next (live s (runSteps 0x0102 r (xKeyWrite flashOk) s))

/-- One record of KEY_INFO. -/
def keyRec (s : State) (k : Nat) : Bytes :=
  let a := authOf s k
  [by1 k, by1 (b2n a.enabled), by1 a.cls, a.gen] ++ beBytes 2 a.holder ++ [0, 0] ++ beBytes 4 (replayOf s k).last.toNat
    ++ authHash s k
/-- KEY_INFO (Table 13-3). -/
def xKeyInfo (q : Run) (s : State) : State :=
  let f := pk1 q.req.params 0
  let n := pk1 q.req.params 1
  if 63 < f ∨ n < 1 ∨ 32 < n ∨ 64 < f + n then badRange s
  else replyOk s ([by1 f, by1 n] ++ (rangeFrom f n).flatMap (keyRec s))
def execKeyInfo (r : Req) (s : State) : Host.Outcome State Fault Refusal := .next (live s (runOnce 0x0103 r xKeyInfo s))

/-- Groups of a bitmap, group 4,095 apart (Table 13-3). -/
def groupsOf (p : Bytes) : List Nat := (List.range 4095).filter (fun g => bit (p.getD (g / 8) 0) (g % 8))
/-- The bitmap of a list of groups, with group 4,095 set. -/
def groupBits (l : List Nat) : Bytes :=
  (List.range 512).map (fun i => by1 ((List.range 8).foldl
    (fun a j => a + at1 (l.contains (8 * i + j) || 8 * i + j == 4095) j) 0))

/-- GROUP_MEMBER, ROUTE and RELAY_PORTS are saved (R285); they come into use when the command completes (R284). -/
def netSave (s : State) (m : List Nat) (rt : Tbl Byte) (rp : BitVec 128) : State :=
  replyEnd (savedOnce (onFlash s (fun f => { f with net := some (m, rt, rp) }))) (.net m rt rp)

/-- GROUP_MEMBER_SET (R284). -/
def xGroupMemberSet (flashOk : Bool) (q : Run) (s : State) : State :=
  if !flashOk then flashFail s
  else netSave s (groupsOf q.req.params) s.vcp.route s.vcp.relayPorts
def execGroupMemberSet (r : Req) (flashOk : Bool) (s : State) : Host.Outcome State Fault Refusal :=
  .next (live s (runOnce 0x0104 r (xGroupMemberSet flashOk) s))

/-- GROUP_MEMBER_GET (Table 13-3). -/
def xGroupMemberGet (_ : Run) (s : State) : State := replyOk s (groupBits s.vcp.members)
def execGroupMemberGet (r : Req) (s : State) : Host.Outcome State Fault Refusal :=
  .next (live s (runOnce 0x0105 r xGroupMemberGet s))

/-- Items of ROUTE_SET: device and port. -/
def routeItems (p : Bytes) : List (Nat × Nat) :=
  (List.range (pkNat p 0 2)).map (fun i => (pkNat p (2 + 4 * i) 2 % 4096, pk1 p (4 + 4 * i)))
/-- ROUTE_SET (R284): items in order. -/
def xRouteSet (flashOk : Bool) (q : Run) (s : State) : State :=
  let p := q.req.params
  let n := pkNat p 0 2
  if n < 1 ∨ 366 < n ∨ (routeItems p).any (fun x => decide (127 < x.2) && x.2 != 0xFF) then badRange s
  else if !flashOk then flashFail s
  else
    let rt := (routeItems p).foldl (fun t x => tput 0xFF t x.1 (by1 x.2)) s.vcp.route
    netSave s s.vcp.members rt s.vcp.relayPorts
def execRouteSet (r : Req) (flashOk : Bool) (s : State) : Host.Outcome State Fault Refusal :=
  .next (live s (runOnce 0x0106 r (xRouteSet flashOk) s))

/-- ROUTE_GET (Table 13-3). -/
def xRouteGet (q : Run) (s : State) : State :=
  let f := pkNat q.req.params 0 2
  let n := pkNat q.req.params 2 2
  if 4095 < f ∨ n < 1 ∨ 1024 < n ∨ 4096 < f + n then badRange s
  else replyOk s (beBytes 2 f ++ beBytes 2 n ++ maskBytes s.vcp.relayPorts
    ++ (rangeFrom f n).map (fun d => tget 0xFF s.vcp.route d))
def execRouteGet (r : Req) (s : State) : Host.Outcome State Fault Refusal := .next (live s (runOnce 0x0107 r xRouteGet s))

/-- RELAY_PORTS_SET (Table 13-3). -/
def xRelayPortsSet (flashOk : Bool) (q : Run) (s : State) : State :=
  let m := pkMask q.req.params 0
  if m = 0 then bad s 0x42
  else if !flashOk then flashFail s
  else netSave s s.vcp.members s.vcp.route m
def execRelayPortsSet (r : Req) (flashOk : Bool) (s : State) : Host.Outcome State Fault Refusal :=
  .next (live s (runOnce 0x0108 r (xRelayPortsSet flashOk) s))

/-- CFG_SAVE (R285): the capture awaits the next frame boundary, which completes the command. -/
def xCfgSave (flashOk : Bool) (q : Run) (s : State) : State :=
  onCom s (fun c => { c with cfgSave := some (bit (q.req.params.getD 0 0) 0, flashOk) })
def execCfgSave (r : Req) (flashOk : Bool) (s : State) : Host.Outcome State Fault Refusal :=
  .next (live s (runOnce 0x0109 r (xCfgSave flashOk) s))

/-- The capture of a CFG_SAVE at a frame boundary after its acceptance: what is active, the REFIN QLs, the flag
(R285). -/
def cfgCapture (s : State) : State :=
  match s.com.cfgSave with
  | some (auto, ok) =>
    let s1 := onCom s (fun c => { c with cfgSave := none })
    if !ok then flashFail s1
    else
      let inDom := fun (kv : Nat × Word) => (domOf kv.1).isSome
      let c : SavedCfg := { bank := bankOf s.map s.map.bActive, smi := smiOf s.map s.map.bActive
                            regs := s.regs.act.filter inDom, ql := s.thy.refinQl, auto := auto
                            boot := s.seq.boot, at_ := s.sfp }
      let s2 := savedOnce (onFlash s1 (fun f => { f with cfg := some c }))
      replyOk s2 (beBytes 4 s2.flash.saves ++ sfpBytes s.sfp)
  | none => s

/-- CFG_INFO (Table 13-3): the fields of a configuration that is not valid are free. -/
def xCfgInfo (_ : Run) (s : State) : State :=
  match s.flash.cfg with
  | some c =>
    replyOk s ([by1 (1 + 2 * b2n c.auto), 0] ++ beBytes 4 s.flash.saves ++ beBytes 4 c.boot ++ sfpBytes c.at_
      ++ beBytes 4 (Config.cfgImageCrc s.flash.saves).toNat)
  | none =>
    let (d, s1) := drawBytes s 18
    replyOk s1 ([0, 0] ++ beBytes 4 s.flash.saves ++ d.take 4 ++ sfpBytes (sfpOfBytes d 4) ++ d.drop 14)
def execCfgInfo (r : Req) (s : State) : Host.Outcome State Fault Refusal := .next (live s (runOnce 0x010A r xCfgInfo s))

/-- DEV_RESET (R287): the reset is due at the first epoch boundary after completion; TYPE 0 through SEQ_RST. -/
def xDevReset (q : Run) (s : State) : State :=
  let t := pk1 q.req.params 0
  if 1 < t then badRange s
  else if t = 0 then pairRows (aSys + 0x018) 1 q s (fun t => replyEnd t (.devReset false))
  else replyEnd s (.devReset true)
def execDevReset (r : Req) (s : State) : Host.Outcome State Fault Refusal := .next (live s (runSteps 0x010B r xDevReset s))

end Sys2Proof.Machine
end

