-- ==== Sys2Proof/Machine/Mgmt.lean ====
section
/-! DEFINITION. The management ports: link and mode, receive filter, throttled mode, rate-step, MDIO and the snapshot
(file 15). -/

namespace Sys2Proof.Machine

open Sys2Proof

/-! Settings in force (Table 15-1). -/
def mgEn (s : State) (b : Bool) : Bool := bit (mgEff s b 0) 0
def mgMode (s : State) (b : Bool) : Nat := bits (mgEff s b 0) 2 1
def mgPhyad (s : State) (b : Bool) : Nat := bits (mgEff s b 0) 8 4
def rsEn (s : State) (b : Bool) : Bool := bit (mgEff s b 4) 0
def rsMin (s : State) (b : Bool) : Nat := bits (mgEff s b 4) 1 1
def rsDownPct (s : State) (b : Bool) : Nat := bits (mgEff s b 4) 13 8
def rsUpPct (s : State) (b : Bool) : Nat := bits (mgEff s b 4) 22 16
def rsDwell (s : State) (b : Bool) : Nat := bits (mgEff s b 8) 15 0
def rsUpBytes (s : State) (b : Bool) : Nat := bits (mgEff s b 0xC) 15 0
def rsRelink (s : State) (b : Bool) : Nat := bits (mgEff s b 0x10) 14 0
def limWin (s : State) (b : Bool) : Nat := bits (mgEff s b 0x14) 12 0
def thrRate (s : State) (b : Bool) : Nat := bits (mgEff s b 0x30) 6 0
def thrRelease (s : State) (b : Bool) : Nat := bits (mgEff s b 0x30) 31 16
/-- A port as the OBJECT of a VCP record. -/
def mgObj (b : Bool) : Nat := b2n b

/-! Link and mode (R331, R332, R336). -/

/-- 1 at an epoch boundary that has been evaluated, whose multiframe a count of epoch boundaries so begins with; else 0. -/
def evaluated (s : State) : Nat := b2n (s.epochDone == some s.sfp)
/-- Loss of link: the FIFO and the reply queue are flushed (R336, R443, Table 15-7). -/
def linkLoss (s : State) (b : Bool) : State :=
  let n := (mgOf s b).replies.length
  let s1 := onMg s b (fun m => { m with link := false, mode := 0, fifo := [], replies := [], searchAge := evaluated s })
  trace (sticky (cMg (cMg s1 b 18 n) b 19 1) (hMg b) 0x100) 9 6 (mgObj b) [0]

/-- MG_LINK_DOWN. -/
def xMgLinkDown (b : Bool) (s : State) : State := if (mgOf s b).link then linkLoss s b else s
def execMgLinkDown (p : MgPort) (s : State) : Host.Outcome State Fault Refusal :=
  .next (live s (xMgLinkDown (isB p) s))

/-- A mode the port may come up in: its fixed mode, or in AUTO one of the rate it stands at (R331). -/
def modeAllowed (s : State) (b : Bool) (mode : Nat) : Bool :=
  mode != 0 && (if mgMode s b = 0 then (mgOf s b).search10g == (mode == 3) else mode == mgMode s b)
/-- A speed of the mode (Table 15-2): 0 to 3 for 10, 100, 1000 Mb/s and 10 Gb/s. -/
def speedAllowed (mode speed : Nat) : Bool :=
  if mode = 1 then decide (speed ≤ 2) else if mode = 2 then speed == 2 else speed == 3

/-- The link is up in a mode and at a speed; a relink at the target speed is over (R331, R340). -/
def linkUp (s : State) (b : Bool) (mode speed : Nat) : State :=
  let was := (mgOf s b).link
  let s1 := onMg s b (fun m => { m with
    link := true, mode := mode, speed := speed, search10g := mode == 3
    quiet := if m.speed = speed then m.quiet else 0
    relink := if m.relink.map (·.1) = some speed then none else m.relink })
  if was then s1 else trace s1 9 6 (mgObj b) [1]

/-- MG_LINK_UP; a half-duplex link is treated as down (R332). -/
def xMgLinkUp (b : Bool) (mode speed : Nat) (half : Bool) (s : State) : State :=
  if mgEn s b && modeAllowed s b mode && speedAllowed mode speed then
    if half then (if mode = 1 then xMgLinkDown b (sticky s (hMg b) 0x80) else s) else linkUp s b mode speed
  else s
def execMgLinkUp (p : MgPort) (mode speed : Fin 4) (halfDuplex : Bool) (s : State) :
    Host.Outcome State Fault Refusal :=
  .next (live s (xMgLinkUp (isB p) mode.val speed.val halfDuplex s))

/-- MODE_SEARCH_SWITCH: an AUTO port without link for 64 multiframes, the time between 65 epoch boundaries, goes to the
other rate (R331). -/
def xModeSearchSwitch (b : Bool) (s : State) : State :=
  if mgEn s b && mgMode s b == 0 && !(mgOf s b).link && decide (65 ≤ (mgOf s b).searchAge) then
    onMg s b (fun m => { m with search10g := !m.search10g, searchAge := evaluated s })
  else s
def execModeSearchSwitch (p : MgPort) (s : State) : Host.Outcome State Fault Refusal :=
  .next (liveEpoch s (xModeSearchSwitch (isB p) s))

/-! Receive filter and admission (R332 to R335, R344, R345). -/

/-- The destination address passes the filter. -/
def macPasses (s : State) (b : Bool) (six : Bytes) : Bool :=
  six == List.replicate 6 0xFF || six == beBytes 6 (ownMac b).toNat
    || (bit (six.getD 0 0) 0 && bit (effHash s) (macBin six))

/-- Offset of the EtherType: 12, or 16 after one IEEE 802.1Q tag (R256). -/
def typeAt (f : Bytes) : Nat := if pkNat f 12 2 = 0x8100 then 16 else 12
/-- The VLAN tag of a frame. -/
def vlanOf (f : Bytes) : Option (BitVec 16) := if typeAt f = 16 then some (BitVec.ofNat 16 (pkNat f 14 2)) else none
/-- The VCP packet of a frame: padding after the length PLEN gives is ignored (R256). -/
def vcpOf (f : Bytes) : Bytes :=
  let body := (f.take (f.length - 4)).drop (typeAt f + 2)
  if 16 ≤ body.length ∧ 32 + vcPlen body ≤ body.length then body.take (32 + vcPlen body) else body

/-- Remove the most recent packet of PRI 0 to 2. -/
def dropLow (l : List (Return × Bytes)) : List (Return × Bytes) :=
  (delFirst (fun x => decide ((vcPri x.2).toNat < 3)) l.reverse).reverse

/-- A packet is offered to the pre-authentication FIFO (R345). -/
def fifoOffer (s : State) (b : Bool) (x : Return × Bytes) : State :=
  let q := (mgOf s b).fifo
  let put := fun (l : List (Return × Bytes)) (t : State) => cMg (onMg t b (fun m => { m with fifo := l ++ [x] })) b 8 1
  if q.length < 16 then put q s
  else if vcPri x.2 = 3 ∧ q.any (fun y => decide ((vcPri y.2).toNat < 3)) then put (dropLow q) (cMg s b 13 1)
  else cMg s b 13 1

/-- Throttled mode admits every PRI 3 packet, and THR_RATE others in a multiframe (R344). -/
def admitPkt (s : State) (b : Bool) (x : Return × Bytes) : State :=
  if (mgOf s b).throttled = false ∨ vcPri x.2 = 3 then fifoOffer s b x
  else if (mgOf s b).admitted < thrRate s b then
    fifoOffer (onMg s b (fun m => { m with admitted := m.admitted + 1 })) b x
  else cMg s b 12 1

/-- A frame of legal length with a correct FCS (R334). -/
def goodFrame (s : State) (b : Bool) (f : Bytes) : State :=
  let s1 := cMg (cMg (onMg s b (fun m => { m with octRx := m.octRx + f.length })) b 0 1) b 1 f.length
  if pkNat f 12 2 = 0x8808 then cMg s1 b 7 1
  else if macPasses s b (slice f 0 6) = false then cMg s1 b 6 1
  else if pkNat f (typeAt f) 2 ≠ 0x88B5 then cMg s1 b 7 1
  else
    let r : Return := { via := if b then .mgmtB else .mgmtA, mac := BitVec.ofNat 48 (pkNat f 6 6), vlan := vlanOf f }
    let d := dmaPut s1
    if d.2 then admitPkt d.1 b (r, vcpOf f) else d.1

/-- MGMT_FRAME_RECEIVE. -/
def xMgmtFrameReceive (b : Bool) (f : MgFrame) (s : State) : State :=
  if !(mgOf s b).link then s
  else
    let s1 := mgLimited s b 1 f.symbolErrs
    let n := f.bytes.length
    if n < 64 then mgLimited s1 b 2 1
    else if 1522 < n then mgWindow (cMg s1 b 5 1) b 2 1
    else if fcsOk f.bytes then goodFrame s1 b f.bytes
    else mgLimited s1 b 0 1
def execMgmtFrameReceive (p : MgPort) (f : MgFrame) (s : State) : Host.Outcome State Fault Refusal :=
  .next (live s (xMgmtFrameReceive (isB p) f s))

/-! Error limits and throttled mode at the boundaries (R343, R344). -/

/-- The limits reached since the last frame boundary. -/
def limitsFrame (s : State) (b : Bool) : State :=
  let h := onesOf (mgOf s b).hitNew
  if h.isEmpty then s
  else
    let was := (mgOf s b).throttled
    let s1 := cMg (sticky s (hMg b) ((mgOf s b).hitNew.setWidth 32)) b 23 h.length
    let s2 := onMg s1 b (fun m => { m with hitNew := 0, relNow := false, throttled := true, limAge := 0
                                           limBit := h.getLastD 0 })
    if was then s2 else trace (cMg s2 b 24 1) 9 2 (mgObj b) [by1 (h.headD 0)]

/-- THROTTLE_RELEASE: more than THR_RELEASE epoch boundaries since a limit was last reached are THR_RELEASE whole
multiframes; or the W1C write of R344. It follows the evaluation of its boundary. -/
def xThrottleRelease (b : Bool) (s : State) : State :=
  let m := mgOf s b
  let timed := isEpoch s.sfp && s.epochDone == some s.sfp && thrRelease s b != 0 && decide (thrRelease s b < m.limAge)
  let cleared := s.frameDone == some s.sfp && m.relNow
  if m.throttled && (timed || cleared) then
    trace (onMg s b (fun m => { m with throttled := false, relNow := false })) 9 3 (mgObj b) [by1 m.limBit]
  else s
def execThrottleRelease (p : MgPort) (s : State) : Host.Outcome State Fault Refusal :=
  .next (liveFrame s (xThrottleRelease (isB p) s))

/-! MDIO (R337). -/

/-- The rate-step unit starts its next transaction when the master is free. -/
def mdioNext (s : State) : State :=
  match s.mgSh.mdio, s.mgSh.rsOps with
  | none, (b, w) :: l => onMgSh s (fun h => { h with mdio := some w, mdioRs := some b, rsOps := l })
  | _, _ => s

/-- An MDIO_CMD word: Clause 22, OP 1 write or 2 read. -/
def mdioCmd (op phy reg data : Nat) : Word :=
  word (2 ^ 31 + op * 2 ^ 28 + phy % 32 * 2 ^ 21 + reg % 32 * 2 ^ 16 + data % 65536)
/-- OP, register and data of a transaction. -/
def mdioOp (w : Word) : Nat := bits w 29 28
def mdioReg (w : Word) : Nat := bits w 20 16

/-- The restart bit is written: the link goes down until the PHY links again, and the relink time runs, its last
multiframe a whole one (R339, R340). -/
def rsRestart (s : State) (b : Bool) : State :=
  let s1 := onMg s b (fun m => { m with relink := m.relink.map (fun r => (r.1, some (rsRelink s b + 1 - evaluated s))) })
  xMgLinkDown b s1

/-- MDIO_DONE: a read's value becomes valid; the rate-step unit goes on to its next transaction. Its "set the restart
bit" is the read of register 0 and a write of that value with bit 9 set. -/
def xMdioDone (rd : BitVec 16) (s : State) : State :=
  match s.mgSh.mdio with
  | some w =>
    let s1 := onMgSh s (fun h => { h with mdio := none, mdioRs := none })
    match s.mgSh.mdioRs with
    | some b =>
      if mdioOp w = 2 then
        let back := mdioCmd 1 (bits w 25 21) 0 (setBit rd 9 true).toNat
        mdioNext (onMgSh s1 (fun h => { h with rsOps := (b, back) :: h.rsOps }))
      else if mdioReg w = 0 then mdioNext (rsRestart s1 b)
      else mdioNext s1
    | none =>
      if 2 ≤ mdioOp w then mdioNext (onMgSh s1 (fun h => { h with mdioData := rd, mdioValid := true })) else mdioNext s1
  | none => s
def execMdioDone (rd : BitVec 16) (s : State) : Host.Outcome State Fault Refusal := .next (live s (xMdioDone rd s))

/-! Rate-step (R338 to R340). -/

/-- Capacity of one multiframe in bytes at a speed code. -/
def rsCap (speed : Nat) : Nat := if speed = 2 then 419246 else if speed = 1 then 41924 else 4192
/-- Rate-step acts on the port. -/
def rsActs (s : State) (b : Bool) : Bool :=
  (mgOf s b).link && (mgOf s b).mode == 1 && rsEn s b

/-- Full-duplex abilities of the listed speeds in register 4 (with the selector of IEEE 802.3) and register 9. -/
def advert4 (l : List Nat) : Nat := 1 + at1 (l.contains 0) 6 + at1 (l.contains 1) 8
def advert9 (l : List Nat) : Nat := at1 (l.contains 2) 9
/-- The transactions that advertise the listed speeds and restart auto-negotiation. -/
def rsOpsFor (phy : Nat) (l : List Nat) : List Word :=
  [mdioCmd 1 phy 4 (advert4 l), mdioCmd 1 phy 9 (advert9 l), mdioCmd 2 phy 0 0]
/-- They queue for the MDIO master, after a host's transaction. -/
def rsStart (s : State) (b : Bool) (l : List Nat) : State :=
  mdioNext (onMgSh s (fun h => { h with rsOps := h.rsOps ++ (rsOpsFor (mgPhyad s b) l).map (fun w => (b, w)) }))

/-- A step to a speed, counted under k: 20 down, 21 up (R339). -/
def rsStep (s : State) (b : Bool) (to_ k : Nat) : State :=
  let old := (mgOf s b).speed
  let s1 := onMg s b (fun m => { m with sinceStep := some 0, quiet := 0, relink := some (to_, none) })
  trace (cMg (rsStart s1 b [to_]) b k 1) 9 4 (mgObj b) [by1 old, by1 to_]

/-- Transactions of a step are under way: its restart bit is still to be written. -/
def rsBusy (s : State) (b : Bool) : Bool :=
  (mgOf s b).relink.any (fun r => r.2.isNone) || s.mgSh.mdioRs == some b || s.mgSh.rsOps.any (fun x => x.1 == b)

/-- The last multiframe calls for a step up (R338). -/
def rsUpDue (s : State) (b : Bool) : Bool :=
  let m := mgOf s b
  rsActs s b && !rsBusy s b && decide (m.speed < 2)
    && (m.upSeen || decide (rsUpPct s b * rsCap m.speed < m.octRx * 100))
/-- RATE_STEP_UP, within EPOCH_BOUNDARY. -/
def rateStepUp (s : State) (b : Bool) : State := if rsUpDue s b then rsStep s b ((mgOf s b).speed + 1) 21 else s

/-- Both directions stayed below the threshold in the last multiframe. -/
def rsQuiet (s : State) (b : Bool) : Bool :=
  let m := mgOf s b
  let lim := rsDownPct s b * rsCap (m.speed - 1)
  decide (m.octRx * 100 < lim ∧ m.octTx * 100 < lim)

/-- No step was made in the last RS_DWELL multiframes. -/
def rsRested (s : State) (b : Bool) : Bool :=
  match (mgOf s b).sinceStep with
  | some n => decide (rsDwell s b ≤ n)
  | none => true

/-- RATE_STEP_DOWN, after the epoch's evaluation. -/
def xRateStepDown (b : Bool) (s : State) : State :=
  let m := mgOf s b
  if rsActs s b && !rsBusy s b && s.epochDone == some s.sfp && decide (rsMin s b < m.speed ∧ m.speed ≤ 2)
      && decide (rsDwell s b ≤ m.quiet) && rsRested s b then
    rsStep s b (m.speed - 1) 20
  else s
def execRateStepDown (p : MgPort) (s : State) : Host.Outcome State Fault Refusal :=
  .next (liveEpoch s (xRateStepDown (isB p) s))

/-- RS_RELINK_EXPIRE: every full-duplex speed from RS_MIN is advertised again and RS_EN cleared (R340). -/
def xRsRelinkExpire (b : Bool) (s : State) : State :=
  match (mgOf s b).relink with
  | some (_, some 0) =>
    let off := fun (w : Word) => setBit w 0 false
    let s1 := onMg s b (fun m => { m with relink := none, eff := tput (regReset (aMg b 4)) m.eff 4 (off (mgEff s b 4)) })
    let s2 := onRegs s1 (setAct (aMg b 4) (off (act s (aMg b 4))))
    sticky (cMg (rsStart s2 b ([0, 1, 2].filter (fun v => decide (rsMin s b ≤ v)))) b 22 1) (hMg b) 0x40
  | _ => s
def execRsRelinkExpire (p : MgPort) (s : State) : Host.Outcome State Fault Refusal :=
  .next (live s (xRsRelinkExpire (isB p) s))

/-! What the boundaries do. -/

/-- Bytes waiting for a port's transmitter: its replies, and the events it carries (R338, Table 20-1). -/
def txWaiting (s : State) (b : Bool) : Nat :=
  ((mgOf s b).replies.map (fun p => p.bytes.length)).sum
    + (if (evPorts (actv s)).contains b then 66 * s.sage.events.length else 0)

/-- The settings written before this boundary take effect (R330). A port disabled, or set to another fixed mode, loses
its link (R331, R443). -/
def settingsFrame (s : State) (b : Bool) : State :=
  let s1 := onMg s b (fun m => { m with
    eff := (rangeFrom 0 13).foldl (fun t k => tput (regReset (aMg b (4 * k))) t (4 * k) (act s (aMg b (4 * k)))) m.eff })
  if (mgOf s1 b).link && (!mgEn s1 b || (mgMode s1 b != 0 && mgMode s1 b != (mgOf s1 b).mode)) then linkLoss s1 b else s1

/-- More than RS_UP_BYTES wait at this frame boundary. -/
def txFull (s : State) (b : Bool) : Bool := decide (rsUpBytes s b < txWaiting s b)
/-- A port at a frame boundary; that of an epoch belongs to the multiframe that begins (R338). -/
def mgFrame (s : State) (b : Bool) : State :=
  let s1 := limitsFrame (settingsFrame s b) b
  onMg s1 b (fun m => { m with upSeen := m.upSeen || (!isEpoch s.sfp && txFull s1 b) })

/-- HASH_EXTRA as the registers hold it. -/
def hashReg (s : State) : BitVec 512 :=
  BitVec.ofNat 512 ((List.range 16).foldl (fun n w => n + (act s (aMgmt + 0x40 + 4 * w)).toNat * 2 ^ (32 * w)) 0)
/-- Both ports at a frame boundary. -/
def mgmtFrame (s : State) : State :=
  let s1 := onMgSh s (fun h => { h with hashExtra := hashReg s, mdcDiv := (act s (aMgmt + 0x10)).toNat })
  mgFrame (mgFrame s1 false) true

/-- A port at an epoch boundary: rate-step, then the counts of the multiframe begin again (R338, R343, R344). -/
def mgEpoch (s : State) (b : Bool) : State :=
  let win := decide (s.sfp.mfc % max 1 (limWin s b) = 0)
  let s1 := onMg s b (fun m => { m with
    quiet := if rsQuiet s b then min 65535 (m.quiet + 1) else 0
    sinceStep := m.sinceStep.map (fun n => min 65536 (n + 1))
    relink := m.relink.map (fun r => (r.1, r.2.map (· - 1)))
    limAge := min 65536 (m.limAge + 1)
    searchAge := if m.link then m.searchAge else min 65 (m.searchAge + 1) })
  let s2 := rateStepUp s1 b
  onMg s2 b (fun m => { m with
    admitted := 0, octRx := 0, octTx := 0, upSeen := txFull s2 b
    win := if win then [] else m.win
    hit := if win then 0 else m.hit })
/-- Both ports at an epoch boundary. -/
def mgmtEpoch (s : State) : State := mgEpoch (mgEpoch s false) true

/-! Statistics snapshot (R342). -/

/-- The 25 counters of a port (Table 15-4). -/
def mgCounters (s : State) (b : Bool) : List Nat := (List.range 25).map (ctrVal s (if b then 0xA else 9))
/-- MGMT_SNAPSHOT_LATCH. -/
def xMgmtSnapshotLatch (s : State) : State :=
  match s.mgSh.snapPend with
  | some (f, a, b) =>
    if s.sfp = f then
      let s1 := if a then onMg s false (fun m => { m with snap := mgCounters s false }) else s
      let s2 := if b then onMg s1 true (fun m => { m with snap := mgCounters s true }) else s1
      onMgSh s2 (fun h => { h with snapPend := none, snapSfp := f, validA := a, validB := b })
    else s
  | none => s
def execMgmtSnapshotLatch (s : State) : Host.Outcome State Fault Refusal := .next (live s (xMgmtSnapshotLatch s))

end Sys2Proof.Machine
end

