-- ==== Sys2Proof/Machine/Pins.lean ====
section
/-! DEFINITION. The GPIO pins and the TAP (file 22, R476 to R480; R428, R447). -/

namespace Sys2Proof.Machine

open Sys2Proof

/-- High for 1,024 blocks from a boundary of the present multiframe's start. -/
def epochPulse (p : Sfp) : Bool := decide (p.fi = 0 ∧ p.bi < 1024)
/-- The level an output function latches at a frame boundary (Table 22-6): codes 1 to 4, 6 and 10. -/
def latchedLevel (s : State) (c n : Nat) : Bool :=
  if c = 1 ∨ c = 2 then bit s.pins.gpioOut n
  else if c = 3 then s.thy.st == .locked
  else if c = 4 then s.thy.st == .holdover || s.thy.st == .expired
  else if c = 6 then decide (feedStatusW s / 256 % 2 = 1)
  else if c = 10 then intAsserted s
  else bit s.pins.level n
/-- The boundary of this position has been evaluated, and its other changes may still follow (R76, R477). -/
def atBoundary (s : State) : Bool := isFrame s.sfp && s.frameDone == some s.sfp
/-- The level of a pin now: ACTIVE follows ALIVE_OUT, EPOCH, SAMPLE and STROBE their boundaries; LOCKED, HOLDOVER and IRQ
change at the frame boundary of their source; the others hold what was latched, and a pin of code 0 the level its keeper
holds (R477). -/
def pinLevel (s : State) (n : Nat) : Bool :=
  let c := tget 0 s.pins.func n
  if (c = 3 ∨ c = 4 ∨ c = 10) ∧ atBoundary s then latchedLevel s c n else
  if c = 5 then s.pair.aliveOut
  else if c = 7 then epochPulse s.sfp
  else if c = 8 then epochPulse s.sfp && decide (s.sfp.mfc % 256 = 0)
  else if c = 9 then (match s.com.strobeAt with
    | some f => decide (0 ≤ sfpDist f s.sfp ∧ sfpDist f s.sfp < 1024)
    | none => false)
  else bit s.pins.level n

/-- A pin's latched level at a frame boundary; the keeper of an input holds the level sampled. -/
def pinLatch (s : State) (n : Nat) : State :=
  let c := tget 0 s.pins.func n
  let v := if c = 0 then (if (tfind s.pins.switching n).isSome then bit s.pins.level n else bit s.pins.gpioIn n)
    else latchedLevel s c n
  onPins s (fun p => { p with level := setBit p.level n v })

/-- The count leaves a frame boundary: the pins hold the levels they have there. -/
def pinsLeave (s : State) : State :=
  if atBoundary s then onPins s (fun p => { p with
    level := (List.range 16).foldl (fun w n => setBit w n (pinLevel s n)) p.level }) else s

/-- The pins at a frame boundary: GPIO_OUT takes effect, GPIO_IN samples the contacts; a pin that switches is frozen,
and live again one frame after it drives (Table 22-7, R477, R409). -/
def pinsFrame (s : State) (contacts : BitVec 16) : State :=
  let done := ((s.pins.switching.filter (fun kv => decide (kv.2 = 1) && s.sfp.fi == 2)).map (·.1))
  let s1 := onPins s (fun p => { p with switching := tdrop (fun n => done.contains n) p.switching })
  let s2 := onPins s1 (fun p => { p with
    gpioOut := (act s aGpioOut).setWidth 16
    gpioIn := (List.range 16).foldl (fun w n =>
      if (tfind p.switching n).isSome then w else setBit w n (bit contacts n)) p.gpioIn })
  forEach (List.range 16) s2 pinLatch

/-- GPIO_SWITCH_DRIVE: at E:01:0 the new function drives (Table 22-7). -/
def xGpioSwitchDrive (s : State) : State :=
  if s.sfp.fi = 1 then
    forEach ((s.pins.switching.filter (fun kv => decide (kv.2 = 2))).map (·.1)) s (fun t n =>
      let t1 := onPins t (fun p => { p with
        switching := tset p.switching n 1, func := tput 0 p.func n (gpioFunc (actv t) n)
        gpioOut := (act t aGpioOut).setWidth 16 })
      pinLatch t1 n)
  else s
def execGpioSwitchDrive (s : State) : Host.Outcome State Fault Refusal := .next (liveFrame s (xGpioSwitchDrive s))

/-! The TAP (R428). -/

/-- The TAP works in a powered module. -/
def tapLive (s t : State) : State := if s.phase = .off then s else t
/-- Bits of a word, bit 0 first. -/
def wordBits (w : Word) : List Bool := (List.range 32).map (bit w)
/-- BSCAN_UNLOCK. -/
def bscanOpen (s : State) : Bool := bit (tget 0 s.regs.gw (aSys + 0x030)) 0

/-- An instruction is loaded, and its data register captures. -/
def tapLoad (s : State) (ir : Byte) (dr : List Bool) : State := onPins s (fun p => { p with tapIr := ir, tapDr := dr })

/-- IDCODE, code 0x01. -/
def execIdcode (s : State) : Host.Outcome State Fault Refusal :=
  .next (tapLive s (tapLoad s 1 (wordBits Config.idcode)))

/-- SAMPLE/PRELOAD, code 0x02: the boundary register captures the contacts' levels, and nothing is driven. -/
def execSamplePreload (levels : List Bool) (s : State) : Host.Outcome State Fault Refusal :=
  .next (tapLive s (onPins (tapLoad s 2 levels) (fun p => { p with tapBsr := levels })))

/-- BYPASS, code 0xFF, and while locked every code that is not listed. The codes of IDCODE and SAMPLE/PRELOAD do not
select it. While unlocked an unlisted code lies outside the manual. -/
def execBypass (code : Byte) (s : State) : Host.Outcome State Fault Refusal :=
  if code = 1 ∨ code = 2 then .next s
  else if code ≠ 0xFF ∧ bscanOpen s then .refused .bscanUnlocked
  else .next (tapLive s (tapLoad s code [false]))

/-- TAP_RESET: TRST_N or Test-Logic-Reset loads IDCODE and touches nothing outside the TAP (R428, R447). -/
def execTapReset (s : State) : Host.Outcome State Fault Refusal := .next (tapLive s (tapLoad s 1 []))

end Sys2Proof.Machine
end

