-- ==== Sys2Proof/Machine/Sage.lean ====
section
/-! DEFINITION. Sage's own events: the trace ring, SAGE_TX, sweeps, overflow reports, bandwidth windows (file 19). -/

namespace Sys2Proof.Machine

open Sys2Proof

/-- SAGE_TX_EN: the lane transmits (R425). -/
def txEn (v : View) : Bool := bit (v aTraceTx) 0
/-- TRACE_CLASS bit k (R426). -/
def txClass (v : View) (k : Nat) : Bool := bit (v aTraceClass) k

/-! Frames (R425, Table 19-5). -/

/-- A frame's payload without STREAM_SEQ: TYPE, bytes 8 to 15, COUNT, flags, content. -/
def sagePayload (s : State) (type : Nat) (eight : Bytes) (count flags : Nat) (content : Bytes) : Bytes :=
  [by1 (0x10 + type), 0] ++ beBytes 2 (s.pins.devid.toNat + at1 s.pins.twinPos 12) ++ beBytes 4 s.seq.boot ++ eight
    ++ beBytes 2 count ++ [by1 flags, 0] ++ zeros 4 ++ content

/-- The Ethernet frame of a payload, with its STREAM_SEQ and FCS. -/
def sageFrame (s : State) (p : Bytes) : Bytes :=
  let v := actv s
  let tag := if bit (v aTraceTx) 1 then [0x81, 0x00] ++ beBytes 2 (bits (v (aSage + 0x410)) 15 0) else []
  let b := beBytes 2 (bits (v (aSage + 0x408)) 15 0) ++ beBytes 4 (v (aSage + 0x40C)).toNat ++ beBytes 6 Config.macA.toNat
    ++ tag ++ [0x88, 0xB6] ++ p.take 20 ++ beBytes 4 s.sage.streamSeq.toNat ++ p.drop 24
  let c := b ++ zeros (60 - b.length)
  c ++ fcsBytes c

/-- A frame is offered to the transmit buffer of 64 KiB; one it cannot take is dropped whole, and STREAM_SEQ advances
(R426). -/
def txOffer (s : State) (p : Bytes) : State :=
  if (s.sage.txBuf.map (·.length)).sum + p.length ≤ 65536 then onSage s (fun g => { g with txBuf := g.txBuf ++ [p] })
  else cSage (onSage s (fun g => { g with streamSeq := g.streamSeq + 1 })) 3

/-- The trace frame being filled is complete. -/
def txClose (s : State) : State :=
  match s.sage.txCur with
  | some (n, _, l) =>
    txOffer (onSage s (fun g => { g with txCur := none })) (sagePayload s 1 (beBytes 8 n) l.length 0 (l.flatMap recBytes))
  | none => s

/-- It holds 45 records, or one frame time has passed since its first record (R426). -/
def txDue (s : State) : Bool :=
  match s.sage.txCur with
  | some (_, f, l) => decide (45 ≤ l.length) || decide (163768 ≤ sfpDist f s.sfp)
  | none => false

/-- A record written to the ring is streamed if its class is selected; a break in the run ends the frame (R426). -/
def txStream (s : State) (n : Nat) (r : TraceRec) : State :=
  let v := actv s
  if txEn v && decide (1 ≤ r.cls) && txClass v r.cls then
    let goes := match s.sage.txCur with
      | some (n0, _, l) => decide (n0 + l.length = n ∧ l.length < 45)
      | none => false
    let s1 := if goes then s else txClose s
    onSage s1 (fun g => { g with txCur := match g.txCur with
      | some (n0, f, l) => some (n0, f, l ++ [r])
      | none => some (n, s.sfp, [r]) })
  else s

/-! The ring (R423, R424). -/

/-- The reader writes one record at its ring position. -/
def ringWrite (s : State) (n : Nat) (r : TraceRec) : State :=
  let o := n % 65536
  let s1 := onSage s (fun g => { g with ring := tset g.ring o r, traceNext := n + 1 })
  let s2 := forEach (List.range 4) s1 (fun t k => eccFresh t 3 (32 * o + 8 * k))
  txStream (cSage s2 0) n r

/-- TRACE_RING_WRITE: a dropped record's position gets its placeholder, else the FIFO's oldest record is written. -/
def xTraceRingWrite (s : State) : State :=
  match s.sage.holes with
  | (n, f) :: l => ringWrite (onSage s (fun g => { g with holes := l })) n { at_ := f }
  | [] =>
    match s.sage.fifo with
    | (n, r) :: l => ringWrite (onSage s (fun g => { g with fifo := l })) n r
    | [] => s
def execTraceRingWrite (s : State) : Host.Outcome State Fault Refusal := .next (live s (xTraceRingWrite s))

/-! Sweeps (R415 to R417). -/

/-- Bursts of up to 16 consecutive indices of a run of n from `lo`: block, first index, count. -/
def burstsOf (blk lo n : Nat) : List (Nat × Nat × Nat) :=
  (List.range ((n + 15) / 16)).map (fun k => (blk, lo + 16 * k, min 16 (n - 16 * k)))
/-- Single reads of a slow block's counters. -/
def singlesOf (blk n : Nat) : List (Nat × Nat × Nat) := (List.range n).map (fun k => (blk, k, 1))
/-- Every gather group of a sweep, by block code and index (R415, Tables 19-1 to 19-3). -/
def gatherGroups : List (Nat × Nat × Nat) :=
  burstsOf 1 0 12 ++ burstsOf 1 16 7 ++ burstsOf 1 24 7 ++ burstsOf 2 0 12 ++ burstsOf 3 0 5 ++ burstsOf 4 0 7
    ++ singlesOf 5 13 ++ burstsOf 6 0 9 ++ singlesOf 7 10 ++ burstsOf 8 0 8 ++ burstsOf 9 0 25 ++ burstsOf 0xA 0 25
    ++ burstsOf 0xB 0 256 ++ (List.range 128).flatMap (fun p => burstsOf (0x100 + p) 0 45 ++ burstsOf (0x100 + p) 48 23)
    ++ burstsOf 0x200 0 40960
    ++ (List.range 2048).flatMap (fun g => burstsOf 0x300 (32 * g) 12 ++ burstsOf 0x300 (32 * g + 16) 9)

/-- A gather group read now (R417). -/
def groupBytes (s : State) (x : Nat × Nat × Nat) : Bytes :=
  sfpBytes s.sfp ++ beBytes 2 x.1 ++ beBytes 2 x.2.1 ++ [by1 x.2.2, 0]
    ++ (List.range x.2.2).flatMap (fun k => beBytes 8 (ctrLatch s x.1 (x.2.1 + k)))

/-- The sweep goes on with the listed groups, which form one gather frame where they are sent. -/
def gatherFrame (s : State) (m k j : Nat) (l : List (Nat × Nat × Nat)) (flags : Nat) : State :=
  txOffer (onSage s (fun g => { g with sweep := some (m, k + l.length, j + 1) }))
    (sagePayload s 2 (beBytes 6 m ++ beBytes 2 j) l.length flags (l.flatMap (groupBytes s)))

/-- Gather frames are sent (R417). -/
def gatherSent (s : State) : Bool := txEn (actv s) && txClass (actv s) 0

/-- The next gather frame of the sweep, up to ten groups. -/
def gatherNext (s : State) : State :=
  match s.sage.sweep with
  | some (m, k, j) =>
    let l := (gatherGroups.drop k).take 10
    if gatherSent s && !l.isEmpty then gatherFrame s m k j l (b2n (decide (gatherGroups.length ≤ k + 10))) else s
  | none => s

/-- GATHER_SWEEPS: a sweep begins where MFC[7:0] = 0, and is counted. -/
def xGatherSweeps (s : State) : State :=
  if s.sfp.mfc % 256 = 0 ∧ s.sage.sweep.map (·.1) ≠ some s.sfp.mfc then
    cSage (onSage s (fun g => { g with sweep := some (s.sfp.mfc, 0, 0) })) 4
  else s
def execGatherSweeps (s : State) : Host.Outcome State Fault Refusal := .next (liveEpoch s (xGatherSweeps s))

/-- GATHER_INCOMPLETE: the sweep stops at the next epoch boundary, at a block. Its last gather frame carries
INCOMPLETE. -/
def xGatherIncomplete (blk : Nat) (s : State) : State :=
  match s.sage.sweep with
  | some (m, k, j) =>
    if m = s.sfp.mfc ∨ gatherGroups.length ≤ k then s
    else
      let l := ((gatherGroups.drop k).takeWhile (fun x => decide (x.1 ≤ blk))).take 10
      let s1 := if gatherSent s then gatherFrame s m k j l 3 else s
      trace (cSage (onSage s1 (fun g => { g with sweep := none })) 5) 10 3 noObj (beBytes 2 blk)
  | none => s
def execGatherIncomplete (block : BitVec 16) (s : State) : Host.Outcome State Fault Refusal :=
  .next (liveEpoch s (xGatherIncomplete block.toNat s))

/-! SAGE_TX. -/

/-- The frame that starts next: a waiting trace frame before a gather frame (R426). -/
def txHead (l : List Bytes) : Option Bytes :=
  match l.find? (fun p => p.getD 0 0 == 0x11) with
  | some p => some p
  | none => l.head?

/-- SAGE_TX_FRAME: a trace frame that is due is closed; with none waiting the sweep forms its next frame; then the lane
sends a frame. -/
def xSageTxFrame (s : State) : State :=
  if txEn (actv s) then
    let s1 := if txDue s then txClose s else s
    let s2 := if s1.sage.txBuf.isEmpty then gatherNext s1 else s1
    match txHead s2.sage.txBuf with
    | some p =>
      cSage (onSage s2 (fun g => { g with
        txBuf := delFirst (fun x => x == p) g.txBuf, lastTx := sageFrame s2 p, streamSeq := g.streamSeq + 1 })) 2
    | none => s2
  else s
def execSageTxFrame (s : State) : Host.Outcome State Fault Refusal := .next (live s (xSageTxFrame s))

/-! Overflow reports and bandwidth windows. -/

/-- PCTR_OVERFLOW (R418, R419): the record bears the SFP of the wrap. -/
def xPctrOverflow (n : Nat) (s : State) : State :=
  match s.sage.wraps.find? (fun x => x.1 == n) with
  | some (_, f) =>
    let s1 := onSage s (fun g => { g with wraps := delFirst (fun x => x.1 == n) g.wraps })
    traceAt (sticky s1 (if 32 ≤ n then hOvfHi else hOvfLo) (word (2 ^ (n % 32)))) f 10 1 noObj [by1 n]
  | none => s
def execPctrOverflow (n : Fin 64) (s : State) : Host.Outcome State Fault Refusal := .next (live s (xPctrOverflow n.val s))

/-- BW_WINDOW_END (R421): windows run back to back. -/
def xBwWindowEnd (p : Nat) (s : State) : State :=
  if (portOf s p).bwLeft = some 0 then
    onPort (bwLatch s p (bwWin (actv s) p)) p (fun x => { x with bwLeft := some (bwWin (actv s) p) })
  else s
def execBwWindowEnd (port : Fin 128) (s : State) : Host.Outcome State Fault Refusal :=
  .next (liveEpoch s (xBwWindowEnd port.val s))

/-- A window at an epoch boundary: the first begins at the first one after reset. -/
def bwEpoch (s : State) (p : Nat) : State :=
  match (portOf s p).bwLeft with
  | some n => onPort s p (fun x => { x with bwLeft := some (n - 1) })
  | none => onPort s p (fun x => { x with bwLeft := some (bwWin (actv s) p), bwIn := 0, bwEg := 0 })

/-- Sage at a frame boundary: the record of the drops of the last frame (R424), and the longest M2 latency, whose value
within R356 is free: 117 cycles at most (Table 16-4). -/
def sageFrameEnd (s : State) : State :=
  let s1 := { onSage s (fun g => { g with
    m2Max := if g.m2Max < BitVec.ofNat 16 ((Config.freeWord s.fresh).toNat % 118)
      then BitVec.ofNat 16 ((Config.freeWord s.fresh).toNat % 118) else g.m2Max }) with fresh := s.fresh + 1 }
  if s1.sage.dropFrame then
    trace (onSage s1 (fun g => { g with dropFrame := false })) 10 2 noObj (beBytes 8 (ctrVal s1 8 1))
  else s1

/-- Sage at an epoch boundary: a sweep never runs past it. -/
def sageEpoch (s : State) : State :=
  let s1 := if s.sage.sweep.map (·.1) = some s.sfp.mfc then s else onSage s (fun g => { g with sweep := none })
  forEach allPorts s1 bwEpoch

end Sys2Proof.Machine
end

