-- ==== Sys2Proof/Machine/Boundary.lean ====
section
/-! DEFINITION. What is evaluated at every frame boundary and every epoch boundary, after any strobe there (R3, R125,
R93), and the overhead of the frame that begins (R103 to R117). -/

namespace Sys2Proof.Machine

open Sys2Proof

/-! The overhead of the frame that begins. -/

/-- The overhead of the frame that begins on one trunk, beside its APS messages (R108, R109, R113, R116, R127). -/
def overheadFrame (s : State) (p : Nat) : State :=
  if isTrunk s p then
    let x := portOf s p
    let ch := chunkNext x.txNow
    sendWords (onPort s p (fun x => { x with txRdi := pRdiEn (actv s) p && anySf (declNow x), txChunk := ch.1, txNow := ch.2 })) p
  else s

/-! Parts of the frame boundary. -/

/-- A client port: a QL code received takes effect; the line is owed eight blocks of each slot, the overhead's share of
the frame (R36, R143). -/
def clientFrame (s : State) (p : Nat) : State :=
  if isClient s p then
    let s1 := match (portOf s p).client.qlPend with
      | some v => onPort (onClient s p (fun c => { c with qlPend := none })) p (fun x => { x with ql := v, qlStale := false })
      | none => s
    onPort s1 p (fun x => { x with egOwe := x.egOwe + 8 * modeSlots (modeOf s p) })
  else s

/-- An active engine evaluates a group; while its protection port is in SF no message is missed (R186, R193). -/
def evalAps (s : State) (g : Nat) : State :=
  evalGrp (if portSf s (protPort s g) then onGrp s g (fun x => { x with apsAge := 0 }) else s) g

/-- A standby brings its banks to a selector that the mirror changed (R219). -/
def grpMirrored (s : State) (g : Nat) : State :=
  let x := grpOf s g
  if (gMembers (actv s) g).any (fun i => eProt (activeEntry s i) && eSel (activeEntry s i) != x.sel) || x.egSel != x.sel then
    onGrp (selStore s g x.sel) g (fun x => { x with egSel := x.sel, eqPend := none })
  else s

/-- The protection engine at a frame boundary. A standby takes the selectors from the mirror and runs the equalisers on
its own inputs (R186, R209, R219). -/
def protFrame (s : State) : State :=
  forEach (enabledGroups s) s (fun t g =>
    let u := if isStandby t then grpMirrored t g else evalAps t g
    if gErrorless (actv u) g then eqEval u g else u)

/-- A CFG_SAVE accepted before this boundary captures here (R285). -/
def saveFrame (s : State) : State :=
  match s.vcp.run with
  | some q => if s.com.cfgSave.isSome && q.accept != s.sfp then cfgCapture s else s
  | none => s

/-- What the FEC of one port did in the frame that ended (R125, Table 19-2). -/
def fecIn (s : State) (i : Nat × Nat × Nat × Nat × Nat) : State :=
  let (p, cw, ok, bad, sym) := i
  if decide (p < 128) && hasFec s p then fecTake (cPort (cPort s p 16 cw) p 17 ok) p bad sym else s

/-- FRAME_BOUNDARY: the evaluations of a frame boundary, once at each. -/
def xFrameBoundary (i : FrameIn) (s : State) : State :=
  if s.frameDone = some s.sfp then s
  else
    let s0 := forEach allPorts (forEach i.fec s fecIn) fecFrame
    let s1 := forEach allPorts (forEach allPorts s0 reportPort) clientFrame
    let s2 := feedFrame i (thyFrame i s1)
    let s3 := forEach allPorts (protFrame s2) (fun t p => overheadFrame (apsFrame t p) p)
    let s4 := pinsFrame (saveFrame (sageFrameEnd (mgmtFrame (pairFrame s3)))) i.gpio
    { mirFrame s4 with frameDone := some s.sfp }
def execFrameBoundary (i : FrameIn) (s : State) : Host.Outcome State Fault Refusal :=
  .next (liveFrame s (xFrameBoundary i s))

/-! The epoch boundary. -/

/-- One more multiframe without an ESMC PDU. -/
def esmcEpoch (s : State) (p : Nat) : State :=
  onClient s p (fun c => { c with esmcAge := c.esmcAge.map (fun n => min 2047 (n + 1)) })
/-- One more multiframe without a valid APS message. -/
def apsEpoch (s : State) (g : Nat) : State := onGrp s g (fun x => { x with apsAge := min 7 (x.apsAge + 1) })

/-- The relay discards of indices 6 to 10 so far. -/
def relayLost (s : State) : Nat := ((rangeFrom 6 5).map (ctrVal s 2)).sum
/-- RELAY_LIMIT: 64 or more of them in the multiframe that ends (Table 19-4). -/
def relayEpoch (s : State) : State :=
  let n := relayLost s - s.vcp.relayBase
  let s1 := onVcp s (fun v => { v with relayBase := relayLost s })
  if 64 ≤ n then trace s1 9 5 noObj (beBytes 2 (min 65535 n)) else s1

/-- EPOCH_BOUNDARY: the evaluations of an epoch boundary, once at each. -/
def xEpochBoundary (temp : BitVec 16) (s : State) : State :=
  if s.epochDone = some s.sfp then s
  else
    let s1 := forEach allPorts (forEach allPorts (thyEpoch temp s) esmcEpoch) fecEpoch
    let s2 := forEach (enabledGroups s1) s1 apsEpoch
    { sageEpoch (relayEpoch (mgmtEpoch s2)) with epochDone := some s.sfp }
def execEpochBoundary (temp : BitVec 16) (s : State) : Host.Outcome State Fault Refusal :=
  .next (liveEpoch s (xEpochBoundary temp s))

end Sys2Proof.Machine
end

