-- ==== Sys2Proof/Machine/CommitCmd.lean ====
section
/-! DEFINITION. The commit family of commands (Tables 13-11 and 13-12; R88 to R95, R507). -/

namespace Sys2Proof.Machine

open Sys2Proof

/-- The merge record of a command. -/
def mergeRec (q : Run) : BitVec 16 × BitVec 32 := (q.req.auth.setWidth 16, q.req.seq)
/-- Index of the entry that a COMMIT made or merged into. -/
def entIdx (s : State) (e : Nat) : Nat :=
  match entFor s e with
  | some (i, _) => i
  | none => 0

/-- COMMIT: the verdict of its acceptance, else the entry (R88, R90, R91, R300, R507). -/
def xCommit (q : Run) (s : State) : State :=
  let m := q.req.params.getD 0 0
  let e := (sfpOfBytes q.req.params 2).mfc
  match q.verdict with
  | some (st, d, data) => setReply (if st = 4 ∧ d = 5 then cCom s 3 else s) st d data
  | none =>
    let merged := (entFor s e).isSome
    let s1 := commitEnter s m e q.req.grp q.req.dest (mergeRec q) 0
    let s2 := if s1.auto.stage = .waitLock then onAuto s1 (fun a => { a with stage := .done }) else s1
    let i := entIdx s2 e
    replyOk s2 [by1 (b2n merged), by1 i, ((tfind s2.com.ents i).map (·.mask)).getD 0]
def execCommit (r : Req) (s : State) : Host.Outcome State Fault Refusal := .next (live s (runSoon 0x0B01 r true xCommit s))

/-- COMMIT_CANCEL (R95, R301). -/
def xCommitCancel (q : Run) (s : State) : State :=
  let p := q.req.params
  let m := p.getD 0 0
  let f := sfpOfBytes p 2
  if m = 0 then bad s 0x42
  else if f.fi ≠ 0 ∨ f.bi ≠ 0 then bad s 0x44
  else
    match entFor s f.mfc with
    | none => bad s 0x48
    | some (i, e) =>
      if e.st = .armed then setReply s 9 0 []
      else if (e.mask &&& m) = 0 then bad s 0x49
      else
        let left := e.mask &&& ~~~m
        let s1 := onEnt s i (fun x => { x with mask := left, removed := x.removed ||| (e.mask &&& m) })
        let s2 := if left = 0 then entOut s1 i .cancelled 3 0 0 else s1
        replyOk s2 [by1 (b2n (decide (left = 0))), by1 i, left]
def execCommitCancel (r : Req) (s : State) : Host.Outcome State Fault Refusal :=
  .next (live s (runSoon 0x0B02 r false xCommitCancel s))

/-- One record of COMMIT_LIST (R299). -/
def entRec (ie : Nat × CommitEnt) : Bytes :=
  let e := ie.2
  [by1 ie.1, by1 (entCode e.st), e.mask, by1 e.recs.length] ++ beBytes 6 e.epoch
    ++ beBytes 2 (at1 e.grp 15 + e.dest.toNat) ++ beBytes 4 e.count
    ++ slice (e.recs.flatMap (fun r => beBytes 2 r.1.toNat ++ beBytes 4 r.2.toNat)) 0 24
/-- Insert an entry by epoch, half range from the present MFC. -/
def epochInsert (now : Nat) (x : Nat × CommitEnt) : List (Nat × CommitEnt) → List (Nat × CommitEnt)
  | [] => [x]
  | y :: t => if mfcDiff now x.2.epoch < mfcDiff now y.2.epoch then x :: y :: t else y :: epochInsert now x t
/-- The non-FREE entries in epoch order. -/
def entsByEpoch (s : State) : List (Nat × CommitEnt) := s.com.ents.foldl (fun l x => epochInsert s.sfp.mfc x l) []

/-- COMMIT_LIST (Table 13-12). -/
def xCommitList (_ : Run) (s : State) : State :=
  let c := s.com
  replyOk s ([by1 c.ents.length, c.suspect, c.stageOpen, by1 (b2n c.frozenWr)] ++ beBytes 6 c.lastEpoch
    ++ (entsByEpoch s).flatMap entRec)
def execCommitList (r : Req) (s : State) : Host.Outcome State Fault Refusal :=
  .next (live s (runOnce 0x0B03 r xCommitList s))

/-- STAGE_REVERT (R302). -/
def xStageRevert (hits : List Nat) (part : Nat) (q : Run) (s : State) : State :=
  let m := q.req.params.getD 0 0
  let views := fun (t : State) => if q.work = 0 then revertViews t (m &&& 0xFE#8) else t
  if m = 0 then bad s 0x42
  else if bit m 0 then
    storeRow m 10240 part (fun x d n => copyPart hits { x with st := views x.st } d n) (fun x => revertEnd m (copySmi x)) q s
  else staging m s (fun t => replyOk (clearSuspect (views t) m) [])
def execStageRevertPart (r : Req) (hits : List Nat) (part : Nat) (s : State) : Host.Outcome State Fault Refusal :=
  .next (live s (runSteps 0x0B04 r (xStageRevert hits part) s))

/-- STAGE_ACCEPT (R302). -/
def xStageAccept (q : Run) (s : State) : State :=
  let m := q.req.params.getD 0 0
  if m = 0 then bad s 0x42
  else
    let s1 := clearSuspect (openDomains s m) m
    replyOk s1 [s1.com.suspect]
def execStageAccept (r : Req) (s : State) : Host.Outcome State Fault Refusal :=
  .next (live s (runOnce 0x0B05 r xStageAccept s))

/-- SFP_READ (Table 13-12). -/
def xSfpRead (_ : Run) (s : State) : State :=
  replyOk s (sfpBytes s.sfp ++ [by1 (at1 s.thy.mfcValid 0 + at1 s.thy.mfcMism 1), by1 (b2n (tMfcMode (actv s)))])
def execSfpRead (r : Req) (s : State) : Host.Outcome State Fault Refusal := .next (live s (runOnce 0x0B06 r xSfpRead s))

end Sys2Proof.Machine
end

