-- ==== Sys2Proof/Machine/MapCmd.lean ====
section
/-! DEFINITION. The map family of commands (Tables 13-4 and 13-5). -/

namespace Sys2Proof.Machine

open Sys2Proof

/-- Items of 10 bytes: global index and entry. -/
def entryItems (p : Bytes) (lo n : Nat) : List (Nat × Entry) :=
  (List.range n).map (fun i => (pkNat p (lo + 10 * i) 2, BitVec.ofNat 64 (pkNat p (lo + 10 * i + 2) 8)))
/-- A global index is in range (R281). -/
def idxOk (g : Nat) : Bool := decide (g < 10240)
/-- FIRST_G and COUNT name slots (Tables 13-5). -/
def spanOk (f n hi : Nat) : Bool := decide (1 ≤ n) && decide (n ≤ hi) && decide (f + n ≤ 10240)

/-- MAP_WRITE (R290). -/
def xMapWrite (hits : List Nat) (part : Nat) (q : Run) (s : State) : State :=
  let p := q.req.params
  let n := pkNat p 0 2
  let l := entryItems p 2 n
  if n < 1 ∨ 146 < n ∨ !l.all (fun x => idxOk x.1) then badRange s
  else storeRow 1 n part (storeItems l hits) id q s
def execMapWritePart (r : Req) (hits : List Nat) (part : Nat) (s : State) : Host.Outcome State Fault Refusal :=
  .next (live s (runSteps 0x0301 r (xMapWrite hits part) s))

/-- The 8 bytes of an entry as a command reads it; the content of a word with an uncorrectable error is free: byte
8 k onward of the draw. -/
def entryBytes (s : State) (b : Bool) (g k : Nat) (e : Entry) : Bytes :=
  if eccDouble s.map b g then (List.range 8).map (fun i => Config.freeByte (s.fresh + 8 * k + i)) else beBytes 8 e.toNat
/-- The reply of MAP_READ and H_MAP_READ, each entry passed through `f`. -/
def mapReadReply (s : State) (b : Bool) (first n : Nat) (f : Entry → Entry) : State :=
  let es := (List.range n).flatMap (fun k => entryBytes s b (first + k) k (f (entryOf s.map b (first + k))))
  replyOk { s with fresh := s.fresh + 8 * n } ([by1 (b2n b), 0] ++ beBytes 2 first ++ beBytes 2 n ++ es)

/-- MAP_READ (Table 13-5). -/
def xMapRead (q : Run) (s : State) : State :=
  let p := q.req.params
  if 3 < pk1 p 0 ∨ !spanOk (pkNat p 2 2) (pkNat p 4 2) 180 then badRange s
  else mapReadReply s (bankSel s (pk1 p 0)) (pkNat p 2 2) (pkNat p 4 2) (fun e => e)
def execMapRead (r : Req) (s : State) : Host.Outcome State Fault Refusal := .next (live s (runOnce 0x0302 r xMapRead s))

/-- MAP_COPY (R290). -/
def xMapCopy (hits : List Nat) (part : Nat) (q : Run) (s : State) : State :=
  storeRow 1 10240 part (copyPart hits) copySmi q s
def execMapCopyPart (r : Req) (hits : List Nat) (part : Nat) (s : State) : Host.Outcome State Fault Refusal :=
  .next (live s (runSteps 0x0303 r (xMapCopy hits part) s))

/-- MAP_CLEAR (Table 13-5). -/
def xMapClear (hits : List Nat) (part : Nat) (q : Run) (s : State) : State :=
  let p := q.req.params
  if !spanOk (pkNat p 0 2) (pkNat p 2 2) 10240 then badRange s
  else storeRow 1 (pkNat p 2 2) part (fun x d n => storeSpan x (pkNat p 0 2 + d) n (fun _ => 0) hits) id q s
def execMapClearPart (r : Req) (hits : List Nat) (part : Nat) (s : State) : Host.Outcome State Fault Refusal :=
  .next (live s (runSteps 0x0304 r (xMapClear hits part) s))

/-- Items of SMI_WRITE: port and word. -/
def smiItems (p : Bytes) : List (Nat × Word) :=
  (List.range (pk1 p 0)).map (fun i => (pk1 p (2 + 6 * i), word (pkNat p (4 + 6 * i) 4)))
/-- SMI_WRITE (Table 13-5). -/
def xSmiWrite (q : Run) (s : State) : State :=
  let l := smiItems q.req.params
  if l.length < 1 ∨ 128 < l.length ∨ !l.all (fun x => decide (x.1 < 128)) then badRange s
  else staging 1 s (fun t => replyOk (forEach l t (fun u x => hostSmi u (!u.map.bActive) x.1 x.2)) [])
def execSmiWrite (r : Req) (s : State) : Host.Outcome State Fault Refusal := .next (live s (runOnce 0x0305 r xSmiWrite s))

/-- MAP_STATUS (Table 13-5). -/
def xMapStatus (_ : Run) (s : State) : State :=
  let a := match s.map.eccAddr with
    | some (i, b, _) => beBytes 2 i ++ [by1 (b2n b + 2)]
    | none => [0, 0, 0]
  replyOk s ([(readCore s 0).setWidth 8, 0] ++ beBytes 2 s.map.changed ++ a ++ [0, 0, 0] ++ ctr8 s 4 0 ++ ctr8 s 4 1
    ++ ctr8 s 4 2 ++ ctr8 s 4 3)
def execMapStatus (r : Req) (s : State) : Host.Outcome State Fault Refusal := .next (live s (runOnce 0x0306 r xMapStatus s))

/-- H_MAP_READ (Table 13-5). -/
def xHMapRead (q : Run) (s : State) : State :=
  let p := q.req.params
  let h := pkNat p 0 2
  if 1023 < h ∨ 3 < pk1 p 2 ∨ !spanOk (pkNat p 4 2) (pkNat p 6 2) 180 then badRange s
  else mapReadReply s (bankSel s (pk1 p 2)) (pkNat p 4 2) (pkNat p 6 2) (fun e => if eHolder e = h then e else 0)
def execHMapRead (r : Req) (s : State) : Host.Outcome State Fault Refusal := .next (live s (runOnce 0x0380 r xHMapRead s))

/-- H_MAP_WRITE (R291): every item is checked before any is stored. -/
def xHMapWrite (hits : List Nat) (part : Nat) (q : Run) (s : State) : State :=
  let p := q.req.params
  let h := pkNat p 0 2
  let n := pkNat p 2 2
  let l := entryItems p 4 n
  if 1023 < h ∨ n < 1 ∨ 146 < n ∨ !l.all (fun x => idxOk x.1) then badRange s
  else if q.work = 0 ∧ l.any (fun x => eHolder (stagedEntry s x.1) != h || eHolder x.2 != h) then denied s 2
  else storeRow 1 n part (storeItems l hits) id q s
def execHMapWritePart (r : Req) (hits : List Nat) (part : Nat) (s : State) : Host.Outcome State Fault Refusal :=
  .next (live s (runSteps 0x0381 r (xHMapWrite hits part) s))

/-- One record of H_SLOT_STATS (R289). -/
def slotRec (s : State) (h g : Nat) : Bytes :=
  let vis := decide (eHolder (activeEntry s g) = h)
  beBytes 2 g ++ [by1 (b2n vis), 0] ++ (if vis then (List.range 4).flatMap (fun k => ctr8 s 0x200 (4 * g + k)) else zeros 32)
/-- H_SLOT_STATS (Table 13-5). -/
def xHSlotStats (q : Run) (s : State) : State :=
  let p := q.req.params
  let h := pkNat p 0 2
  if 1023 < h ∨ !spanOk (pkNat p 2 2) (pk1 p 4) 32 then badRange s
  else replyOk s (sfpBytes s.sfp ++ [by1 (pk1 p 4), 0] ++ (rangeFrom (pkNat p 2 2) (pk1 p 4)).flatMap (slotRec s h))
def execHSlotStats (r : Req) (s : State) : Host.Outcome State Fault Refusal := .next (live s (runOnce 0x0382 r xHSlotStats s))

end Sys2Proof.Machine
end

