-- ==== Sys2Proof/Machine/ProtCmd.lean ====
section
/-! DEFINITION. The protection family of commands (Tables 13-6 and 13-7). -/

namespace Sys2Proof.Machine

open Sys2Proof

/-- A word of a staged view, written by a command. -/
def stage (s : State) (a : Nat) (v : Nat) : State := stgPut s a (word v)
/-- Words of staged views in order. -/
def stageList (s : State) (l : List (Nat × Nat)) : State := forEach l s (fun t x => stage t x.1 x.2)
/-- The view a VIEW byte names (R281). -/
def viewSel (s : State) (n : Nat) : View := if n = 0 then actv s else stgv s

/-- GRP_WRITE's fields in range (Table 13-7). -/
def grpArgsOk (p : Bytes) : Bool :=
  let n := pk1 p 8
  decide (pkNat p 0 2 < 2048) && decide (bits (p.getD 2 0) 2 1 ≤ 2) && decide (pk1 p 3 ≤ 100) && decide (1 ≤ pk1 p 4)
    && decide (pk1 p 4 ≤ 12) && decide (pk1 p 5 ≤ 63) && decide (n ≤ 80) && (!bit (p.getD 2 0) 7 || decide (1 ≤ n))
    && (List.range n).all (fun j => decide (pkNat p (10 + 2 * j) 2 < 10240))
/-- The registers a GRP_WRITE stages: GRP_CFG, GRP_APS and the member words in use (Table 18-7). -/
def grpWords (p : Bytes) : List (Nat × Nat) :=
  let g := pkNat p 0 2
  let f := p.getD 2 0
  let n := pk1 p 8
  let mem := fun (j : Nat) => if j < n then pkNat p (10 + 2 * j) 2 else 0
  [(aGrpCfg g, at1 (bit f 7) 0 + fld (bits f 2 1) 2 1 + at1 (bit f 6) 3 + at1 (bit f 5) 4
      + at1 (bit f 4 || bits f 2 1 != 0) 5 + at1 (bit f 3) 6 + fld (pk1 p 3) 7 8 + fld (pk1 p 4) 4 16 + fld (pk1 p 5) 6 24),
   (aGrpAps g, fld (pkNat p 6 2) 11 0 + fld n 7 16)]
    ++ (List.range ((n + 1) / 2)).map (fun w => (aGrpMem g w, fld (mem (2 * w)) 14 16 + fld (mem (2 * w + 1)) 14 0))

/-- GRP_WRITE (Table 13-7). -/
def xGrpWrite (q : Run) (s : State) : State :=
  let p := q.req.params
  if !grpArgsOk p then badRange s else staging 4 s (fun t => replyOk (stageList t (grpWords p)) [])
def execGrpWrite (r : Req) (s : State) : Host.Outcome State Fault Refusal := .next (live s (runOnce 0x0401 r xGrpWrite s))

/-- GRP_READ (Table 13-7). -/
def xGrpRead (q : Run) (s : State) : State :=
  let g := pkNat q.req.params 0 2
  let v := viewSel s (pk1 q.req.params 2)
  let n := gCount v g
  if 2047 < g ∨ 1 < pk1 q.req.params 2 then badRange s
  else replyOk s (beBytes 2 g ++ [by1 (at1 (gEn v g) 7 + at1 (gRevert v g) 6 + at1 (gSdEn v g) 5 + at1 (gApsEn v g) 4
      + at1 (gErrorless v g) 3 + fld (gArch v g) 2 1), by1 (gHoldoff v g), by1 (gWtr v g), by1 (gHome v g)]
    ++ beBytes 2 (gApsId v g) ++ [by1 n, 0] ++ (List.range (min n 80)).flatMap (fun j => beBytes 2 (gMember v g j)))
def execGrpRead (r : Req) (s : State) : Host.Outcome State Fault Refusal := .next (live s (runOnce 0x0402 r xGrpRead s))

/-- PROT_REQUEST (R293): the request acts at the first frame boundary after completion. -/
def xProtRequest (q : Run) (s : State) : State :=
  let g := pkNat q.req.params 0 2
  let c := pk1 q.req.params 2
  if 2047 < g ∨ (c ≠ 14 ∧ c ≠ 10 ∧ c ≠ 4 ∧ c ≠ 0) then badRange s
  else if !gEn (actv s) g then deniedState s
  else replyEnd s (.request g (BitVec.ofNat 4 c) (clsOf s q == 2))
def execProtRequest (r : Req) (s : State) : Host.Outcome State Fault Refusal :=
  .next (live s (runOnce 0x0403 r xProtRequest s))

/-- PROT_GRP_STATUS (Table 13-7). -/
def xProtGrpStatus (q : Run) (s : State) : State :=
  let g := pkNat q.req.params 0 2
  let x := grpOf s g
  if 2047 < g then badRange s
  else replyOk s (beBytes 2 g ++ [by1 (at1 x.sel 0 + at1 (gEn (actv s) g) 1 + fld (eqCode x.eq) 3 2), reqByte x.loc.toNat x.locSig,
      reqByte x.rem.toNat x.remSig, reqByte x.eff.toNat x.effSig, reqByte x.stReq.toNat (reqSig x.stReq.toNat),
      by1 (at1 x.lo 0 + at1 x.fs 1 + at1 x.ms 2)]
    ++ beBytes 4 (grpHoldRem s g) ++ beBytes 4 (grpWtrRem s g)
    ++ [by1 (at1 x.apsLoss 0 + at1 x.fopPm 1 + at1 x.fopNr 2 + at1 x.revMism 3 + at1 x.tblErr 4), by1 x.eqWhy]
    ++ (match x.rx with
        | some w => wBytes w
        | none => List.replicate 7 0xFF))
def execProtGrpStatus (r : Req) (s : State) : Host.Outcome State Fault Refusal :=
  .next (live s (runOnce 0x0404 r xProtGrpStatus s))

/-- PROT_EQ_REALIGN (R295). -/
def xProtEqRealign (q : Run) (s : State) : State :=
  let g := pkNat q.req.params 0 2
  let x := grpOf s g
  if 2047 < g then badRange s
  else if x.eq ≠ .unaligned then deniedState s
  else if x.eqWhy = 4 then denied s 0x4C
  else if x.eqWhy = 2 ∨ x.eqWhy = 3 ∨ x.eqWhy = 7 then denied s 0x4D
  else replyOk (onGrp s g (fun y => { y with grant := true, grantMeas := false })) [by1 (eqCode x.eq), by1 x.eqWhy]
def execProtEqRealign (r : Req) (s : State) : Host.Outcome State Fault Refusal :=
  .next (live s (runOnce 0x0405 r xProtEqRealign s))

end Sys2Proof.Machine
end

