-- ==== Sys2Proof/Machine/Memory.lean ====
section
/-! DEFINITION. Check-code errors of the memories and their power states (R359, R362, R321, Tables 08-10, 09-7,
16-10). -/

namespace Sys2Proof.Machine

open Sys2Proof

/-- Implemented bytes of a scrubbed memory: 0 working RAM, 1 scratchpad, 3 trace buffer (Table 16-5). -/
def memSize (memory : Nat) : Nat :=
  if memory = 0 then 0x100000 else if memory = 1 then 0x40000 else if memory = 3 then 0x200000 else 0
/-- The bank an offset lies in. -/
def memBankOf (memory o : Nat) : Nat :=
  if memory = 0 then o / 0x10000 else if memory = 1 then o / 0x8000 else o / 0x20000
/-- The bank is ON; the trace buffer always is. -/
def bankOn (s : State) (memory bank : Nat) : Bool := decide (2 < memory) || bankSt s memory bank == .on

/-- A corrected error: counted (R359). -/
def memCorr (s : State) : State := cSys s 5

/-- A word of a scrubbed memory as its scrubber finds it (R359). -/
def scrubWord (s : State) (memory addr : Nat) (f : EccFind) : State :=
  let o := addr / 8 * 8
  let b := memBankOf memory o
  if memSize memory ≤ o ∨ bankOn s memory b = false then s
  else match f with
    | .clean => eccFresh s memory o
    | .single _ => memCorr (eccFresh s memory o)
    | .double => memUncorr (onMem s (fun x => { x with ecc := tset x.ecc (memory * 2 ^ 32 + o) 2 })) memory o b

/-- An uncorrectable error of an alignment-store word, line `addr` div 2,048 and its word `addr` mod 2,048, newest
first: the word is treated as marked and EQ_ECC is counted (Table 09-7). -/
def alignError (s : State) (addr : Nat) : State :=
  let l := addr / 2048
  match tfind s.map.lines l with
  | some (g, _) =>
    let ws := tget [] s.map.lineMem l
    let ws' := (List.range ws.length).zip ws |>.map (fun kw => if kw.1 = addr % 2048 then { kw.2 with mark := true } else kw.2)
    let s1 := cGrp (onMap s (fun m => { m with lineMem := tput [] m.lineMem l ws' })) g 23
    trace s1 8 1 4 (beBytes 4 addr ++ [by1 ((lineBanks l).headD 0)])
  | none => s

/-- An uncorrectable error of the protection table's entry of a group: its selector is held until a D2 commit
(Table 08-10). -/
def tableError (s : State) (g : Nat) : State :=
  if 2047 < g ∨ (grpOf s g).tblErr then s
  else trace (cCore (sticky (onGrp s g (fun x => { x with tblErr := true })) hProt 4) 6) 8 1 5 (beBytes 4 g ++ [0])

/-- MEMORY_SCRUB (R359). The map's scrubber has a row of its own. -/
def xMemoryScrub (memory addr : Nat) (f : EccFind) (s : State) : State :=
  if memory = 2 then s
  else if memory = 4 then (if f = .double then alignError s addr else s)
  else if memory = 5 then (if f = .double then tableError s addr else s)
  else scrubWord s memory addr f
def execMemoryScrub (memory : Fin 6) (addr : Nat) (found : EccFind) (s : State) : Host.Outcome State Fault Refusal :=
  .next (live s (xMemoryScrub memory.val addr found s))

/-! Power states. -/

/-- A power state of a code (R321). -/
def bankOfCode (n : Nat) : BankSt := if n = 0 then .on else if n = 1 then .ret else .off
/-- Set the state of a bank: 0 working RAM, 1 scratchpad, 2 alignment store. -/
def setBank2 (s : State) (memory b : Nat) (x : BankSt) : State :=
  onMem s (fun m =>
    if memory = 0 then { m with wram := tput .on m.wram b x }
    else if memory = 1 then { m with scratch := tput .on m.scratch b x }
    else { m with align := tput .on m.align b x })

/-- A bank's content becomes undefined, with valid check bits: its bytes are free (R321, R362). -/
def loseContent (s : State) (memory b : Nat) : State :=
  if memory = 0 then
    { onMem s (fun m => { m with ram := tdrop (fun o => o / 65536 == b) m.ram, junk := tset m.junk (64 + b) s.fresh,
                                 ecc := tdrop (fun k => k / 2 ^ 32 == 0 && k % 2 ^ 32 / 65536 == b) m.ecc }) with
      fresh := s.fresh + 65536 }
  else if memory = 1 then
    { onMem s (fun m => { m with bytes := tdrop (fun o => o / 32768 == b) m.bytes, junk := tset m.junk b s.fresh,
                                 ecc := tdrop (fun k => k / 2 ^ 32 == 1 && k % 2 ^ 32 / 32768 == b) m.ecc }) with
      fresh := s.fresh + 32768 }
  else s

/-- MEM_POWER_TRANSITION_DONE: a changing bank reaches its state; the MEM_POWER that waits for it is answered (R321,
R362). -/
def xMemPowerTransitionDone (memory b : Nat) (s : State) : State :=
  match bankSt s memory b with
  | .moving src dst =>
    let s1 := setBank2 s memory b (bankOfCode dst)
    let s2 := if dst = 2 ∧ src ≠ 2 then loseContent s1 memory b else s1
    if s.mem.powerWait = some (memory, b) then
      replyOk (onMem s2 (fun m => { m with powerWait := none })) [by1 src, by1 dst]
    else s2
  | .on => s
  | .ret => s
  | .off => s
def execMemPowerTransitionDone (memory : Fin 3) (bank : Nat) (s : State) : Host.Outcome State Fault Refusal :=
  .next (live s (xMemPowerTransitionDone memory.val bank s))

end Sys2Proof.Machine
end

