-- ==== Sys2Proof/Machine/SeqReset.lean ====
section
/-! DEFINITION. The sequencer reset and the exceptions that cause it (files 16 and 17). -/

namespace Sys2Proof.Machine

open Sys2Proof

/-! Sequencer reset (R100, R366 to R368). -/

/-- The opcode a reset interrupts, two bytes: free where none ran (log 5). -/
def cutOpcode (s : State) : Bytes × State :=
  match s.vcp.run with
  | some q => (beBytes 2 q.op.toNat, s)
  | none => drawBytes s 2

/-- Every open guarded pair fails with CAUSE RESET (R380). -/
def failPairs (s : State) : State := forEach s.regs.pairs s (fun t kv => guardFailed (closePair t kv.1) 5 kv.2.addr)

/-- Staged domains that stood open become suspect (R100). -/
def suspectOpen (s : State) : State :=
  let m := s.com.stageOpen
  let s1 := setStageBits (onCom s (fun c => { c with cfgSave := none })) 0 (s.com.suspect ||| m)
  if m = 0 then s1 else sticky s1 hCommit 0x10

/-- The command in execution ends without a reply; its latency record is due at the restart (R317, R420). -/
def cutRun (s : State) : State :=
  match s.vcp.run with
  | some q => onVcp (onSeq s (fun x => { x with cutRec := some (latOf q 0xFF 0 none) })) (fun v => { v with run := none })
  | none => s

/-- A resync in progress restarts from its Link phase (R233). -/
def cutResync (s : State) : State :=
  if s.pair.st = .syncing then startResync (pairTo (onPair s (fun p => { p with resync := false })) .unsynced 5)
  else onPair s (fun p => { p with resync := false })

/-- What a sequencer reset does outside the sequencer, with its cause (Table 16-7, Table 12-15). -/
def seqReset (cause : Nat) (s : State) : State :=
  let (op, s1) := cutOpcode s
  let s2 := trace (sticky s1 hSys 2) 9 1 noObj ([by1 cause] ++ op)
  let s3 := cutResync (cutRun (failPairs (suspectOpen s2)))
  onMem (onSeq s3 (fun q => { q with running := false, cause := cause, resetAt := s.sfp })) (fun m => { m with powerWait := none })

/-- Firmware has been started and a reset of its sequencer is possible. -/
def fwStarted (s : State) : Bool := decide (s.phase = .ready) || decide (s.phase = .booting)

/-- An uncorrectable word of working RAM that the sequencer met: its address is the hardware's. -/
def codeUncorr (s : State) : State :=
  let (w, s1) := drawWord s
  let o := w.toNat % 0x100000 / 8 * 8
  memUncorr s1 0 o (memBankOf 0 o)
/-- The transaction behind an exception: DECERR and SLVERR are counted for M0 or M1, a check-code error is reported
(R359, R366). -/
def causeEffect (cause : Nat) (s : State) : State :=
  if cause = 1 then cSys s 16 else if cause = 2 then cSys s 24 else if cause = 3 ∨ cause = 4 then codeUncorr s
  else if cause = 5 then cSys s 17 else s

/-- SEQ_EXCEPTION, causes 1 to 6 (R366, Table 18-3). -/
def xSeqException (cause : Nat) (s : State) : State :=
  if fwStarted s then seqReset (cause + 1) (cSys (causeEffect (cause + 1) s) 0) else s

end Sys2Proof.Machine
end

