-- ==== Sys2Proof/Machine/MemCmd.lean ====
section
/-! DEFINITION. The memory family of commands (Tables 14-8 to 14-12; R318 to R324). -/

namespace Sys2Proof.Machine

open Sys2Proof

/-! MEM_READ and MEM_WRITE (R319, R320). -/

/-- A region MEM_READ reaches: memory of Table 19-4's numbers with its base and size; 6 the boot ROM, 7 the
alignment-store control window. -/
def memRegion (s : State) (a : Nat) : Option (Nat × Nat × Nat) :=
  let wb := if s.mem.remap then 0 else 0x10000000
  let rb := if s.mem.remap then 0x10000000 else 0
  ([(0, wb, 0x100000), (6, rb, 0x40000), (1, 0x18000000, 0x40000), (2, 0x20000000, 0x8000000), (7, 0x28000000, 0x8000000),
    (3, 0x30000000, 0x200000)] : List (Nat × Nat × Nat)).find? (fun r => decide (r.2.1 ≤ a) && decide (a < r.2.1 + r.2.2))

/-- The access of a MEM_READ or MEM_WRITE, in range: its region, aligned address and words. -/
def memAccess (s : State) (p : Bytes) : Option (Nat × Nat × Nat) :=
  let a := pkNat p 0 4
  let n := pkNat p 4 2
  let rot := bit (p.getD 6 0) 0
  match memRegion s a with
  | some (k, base, size) =>
    if n = 0 ∨ 256 < n ∨ (rot = false ∧ a % 4 ≠ 0) ∨ (rot ∧ (n ≠ 1 ∨ 1 < k)) ∨ base + size < a / 4 * 4 + 4 * n then none
    else some (k, a / 4 * 4, n)
  | none => none

/-- The first bank not ON that an access touches (R319). -/
def asleepBank (s : State) (k w n : Nat) : Option BankSt :=
  if 1 < k then none
  else
    let o := w - memBase s k
    let lo := memBankOf k o
    let hi := memBankOf k (o + 4 * n - 1)
    ((rangeFrom lo (hi + 1 - lo)).map (bankSt s k)).find? (· != .on)
/-- MEM_ASLEEP with BANK_RET or BANK_OFF; nothing is transferred. -/
def memAsleep (s : State) (b : BankSt) : State := setReply (cSys s 7) 0x0A (if b = .ret then 0x50 else 0x51) []

/-- The response of M1's last read is ECCERR, in working RAM or the scratchpad: an exception (R366). A record of the
trace buffer and a word of the map are returned with it (Table 16-10; log 95). -/
def memFault (t : State) (k : Nat) : Bool := decide (k ≤ 1) && respOf t 1 == .eccerr
/-- Words read in order by M1: the state after them and their bytes; an uncorrectable word's are free (Table 16-3). -/
def memFetch (s : State) (k w n : Nat) : State × Bytes :=
  (List.range n).foldl (fun (x : State × Bytes) i =>
    if memFault x.1 k then x
    else
      let t := matRead x.1 1 (w + 4 * i)
      (t, x.2 ++ wordBytes (dataOf t 1))) (setResp s 1 .okay, [])
/-- Four bytes in the order of a rotated access at byte a mod 4. -/
def rotate4 (a : Nat) (b : Bytes) : Bytes := (List.range 4).map (fun k => b.getD ((a % 4 + k) % 4) 0)

/-- MEM_READ. An uncorrectable word is an exception of the sequencer, which ends the command without a reply. -/
def xMemRead (q : Run) (s : State) : State :=
  let p := q.req.params
  match memAccess s p with
  | none => badRange s
  | some (k, w, n) =>
    match asleepBank s k w n with
    | some b => memAsleep s b
    | none =>
      let (t, b) := memFetch s k w n
      if memFault t k then seqReset 4 (cSys t 0)
      else replyOk t (slice p 0 4 ++ slice p 4 2 ++ (if bit (p.getD 6 0) 0 then rotate4 (pkNat p 0 4) b else b))
def execMemRead (r : Req) (s : State) : Host.Outcome State Fault Refusal := .next (live s (runOnce 0x0901 r xMemRead s))

/-- Bytes stored by a rotated write: the first of `n` in the rotated order. -/
def rotStore (s : State) (w a n : Nat) (d : Bytes) : State :=
  forEach (List.range n) s (fun t k => scratchPut t (w - 0x18000000 + (a % 4 + k) % 4) [d.getD k 0])
/-- MEM_WRITE: the scratchpad only; each collided word is written again at once, and counted (R360). -/
def xMemWrite (collides : Nat) (q : Run) (s : State) : State :=
  let p := q.req.params
  let rot := bit (p.getD 6 0) 0
  let m := pk1 p 7
  match memAccess s p with
  | none => badRange s
  | some (k, w, n) =>
    if k ≠ 1 ∨ (rot ∧ (m = 0 ∨ 4 < m)) ∨ (rot = false ∧ m ≠ 0) then badRange s
    else match asleepBank s k w n with
      | some b => memAsleep s b
      | none =>
        let s1 := count s 1 8 (min collides n)
        let s2 := if rot then rotStore s1 w (pkNat p 0 4) m (slice p 8 4)
          else scratchPut s1 (w - 0x18000000) (slice p 8 (4 * n))
        replyOk (forEach (List.range n) s2 (fun t i => eccFresh t 1 (w - 0x18000000 + 4 * i))) (beBytes 2 n)
def execMemWrite (r : Req) (collides : Nat) (s : State) : Host.Outcome State Fault Refusal :=
  .next (live s (runOnce 0x0902 r (xMemWrite collides) s))

/-! MEM_POWER and MEM_STATUS (R321, R362). -/

/-- The bank is marked in use, or holds an allotted line. -/
def bankInUse (s : State) (k b : Nat) : Bool :=
  if k = 0 then (inUseW s).testBit b else if k = 1 then (inUseS s).testBit b else bit (lineBankMask s) b
/-- MEM_POWER: it completes when the bank has reached the state. -/
def xMemPower (q : Run) (s : State) : State :=
  let p := q.req.params
  let k := pk1 p 0
  let b := pk1 p 1
  let d := pk1 p 2
  let banks := if k = 0 then 16 else if k = 1 then 8 else 80
  if 2 < k ∨ banks ≤ b ∨ 2 < d then badRange s
  else if bankInUse s k b then bad s 0x52
  else
    let go := fun (src : Nat) => onMem (setBank2 s k b (.moving src d)) (fun m => { m with powerWait := some (k, b) })
    match bankSt s k b with
    | .on => if d = 0 then replyOk s [0, 0] else go 0
    | .ret => if d = 1 then replyOk s [1, 1] else go 1
    | .off => if d = 2 then replyOk s [2, 2] else go 2
    | .moving src _ => go src
def execMemPower (r : Req) (s : State) : Host.Outcome State Fault Refusal := .next (live s (runOnce 0x0903 r xMemPower s))

/-- MEM_STATUS (Table 14-9): errors of the scrubbed memories and of the map. -/
def xMemStatus (_ : Run) (s : State) : State :=
  replyOk s (beBytes 4 (bankBits s 0 0 16) ++ beBytes 2 (bankBits s 1 0 8) ++ beBytes 20 (bankBits s 2 0 80)
    ++ beBytes 2 (inUseW s) ++ [by1 (inUseS s), 0] ++ beBytes 10 (lineBankMask s).toNat ++ [0, 0]
    ++ beBytes 8 ((ctrVal s 1 5 + ctrVal s 4 2) % 2 ^ 64) ++ beBytes 8 ((ctrVal s 1 6 + ctrVal s 4 3) % 2 ^ 64))
def execMemStatus (r : Req) (s : State) : Host.Outcome State Fault Refusal :=
  .next (live s (runOnce 0x0904 r xMemStatus s))

/-! Firmware images (R322, R323, R451). -/

/-- The region holds a valid image; an erased one has no header (R451). -/
def imageOk (t : Tbl Byte) : Bool := !t.isEmpty && Config.imageValid t
/-- An image region: true for image B. -/
def imageAt (s : State) (b : Bool) : Tbl Byte := if b then s.flash.imgB else s.flash.imgA
/-- Replace an image region. -/
def putImage (s : State) (b : Bool) (t : Tbl Byte) : State :=
  onFlash s (fun f => if b then { f with imgB := t } else { f with imgA := t })
/-- The preferred image: image A where no copy of the record is correct (R452). -/
def preferred (s : State) : Bool := s.flash.prefOk && s.flash.prefB

/-- FW_INFO (Table 14-9). -/
def xFwInfo (_ : Run) (s : State) : State :=
  let a := s.flash.imgA
  let b := s.flash.imgB
  replyOk s ([by1 (at1 s.seq.imageB 0 + at1 (preferred s) 1 + at1 (imageOk a) 2 + at1 (imageOk b) 3
        + at1 s.flash.dl.isEmpty 4), 0]
    ++ wordBytes (Config.imageVersion a) ++ wordBytes (Config.imageVersion b) ++ wordBytes (Config.imageLength a)
    ++ wordBytes (Config.imageLength b) ++ wordBytes (Config.imageCrc a) ++ wordBytes (Config.imageCrc b)
    ++ beBytes 4 s.flash.dlHigh ++ beBytes 4 s.flash.fwWrites)
def execFwInfo (r : Req) (s : State) : Host.Outcome State Fault Refusal := .next (live s (runOnce 0x0910 r xFwInfo s))

/-- FLASH_WE is set or cleared by its guarded pair (R392). -/
def flashWe (s : State) (v : Word) : State := guardedPair s (aSys + 0x020) v
/-- Program bytes into the download area. -/
def dlPut (s : State) (o : Nat) (b : Bytes) : State :=
  onFlash s (fun f => { f with dl := (List.range b.length).foldl (fun t i => tput 0xFF t (o + i) (b.getD i 0)) f.dl })
/-- A page the bytes lie in is not blank. -/
def notBlank (s : State) (o n : Nat) : Bool :=
  s.flash.dl.any (fun kv => decide (o / 256 ≤ kv.1 / 256) && decide (kv.1 / 256 ≤ (o + n - 1) / 256))
/-- The next phase of the command in execution. -/
def phaseTo (s : State) (n : Nat) : State := onRun s (fun x => { x with work := n })

/-- Programming of a page is under way: which of its bits are programmed is free (Table 21-4). -/
def dlProgram (s : State) (o : Nat) (b : Bytes) : State :=
  let (d, s1) := drawBytes s b.length
  dlPut s1 o (List.zipWith (· ||| ·) b d)
/-- FW_LOAD (R322): its checks and the pair on FLASH_WE; then the page is being programmed; at a further FW_LOAD row it
is programmed and read back. A page that reads back wrong holds what it may and leaves the highest offset. -/
def xFwLoad (flashOk : Bool) (q : Run) (s : State) : State :=
  let p := q.req.params
  let o := pkNat p 0 4
  let n := pkNat p 4 2
  if 2 < q.work then
    if flashOk then
      replyOk (flashWe (onFlash (dlPut s o (slice p 8 n)) (fun f => { f with dlHigh := max f.dlHigh (o + n) })) 0) []
    else
      let (b, s2) := drawBytes s n
      flashFail (flashWe (dlPut s2 o b) 0)
  else if o % 256 ≠ 0 ∨ n = 0 ∨ 1024 < n ∨ 1048576 < o + n then badRange s
  else if notBlank s o n then denied s 0x53
  else pairRows (aSys + 0x020) 1 q s (fun t => phaseTo (dlProgram t o (slice p 8 n)) 3)
def execFwLoad (r : Req) (flashOk : Bool) (s : State) : Host.Outcome State Fault Refusal :=
  .next (live s (runSteps 0x0911 r (xFwLoad flashOk) s))

/-- The image an INSTALL writes: the inactive one; in rescue mode the preferred one (R322, R457). -/
def installTarget (s : State) : Bool := if s.seq.rescue then preferred s else !s.seq.imageB
/-- The reply of FW_UPDATE. -/
def fwReply (s : State) (img changed : Bool) : State :=
  replyOk s ([by1 (b2n img), by1 (b2n changed)] ++ beBytes 4 s.flash.fwWrites)
/-- The boot preference record is written. -/
def prefer (s : State) (b : Bool) : State := onFlash s (fun f => { f with prefB := b, prefOk := true })
/-- The download area is erased. -/
def dlErase (s : State) : State := onFlash s (fun f => { f with dl := [], dlHigh := 0 })
/-- The erasure of the download area is under way: which bytes of it are still there is free, and some are
(Table 14-11). -/
def dlErasing (s : State) : State :=
  let l := s.flash.dl
  let (b, s1) := drawBytes s l.length
  let rest := ((l.zip b).filter (fun x => bit x.2 0)).map (·.1)
  onFlash s1 (fun f => { f with dl := if rest.isEmpty then l.take 1 else rest })
/-- Erase, the first phase of INSTALL that writes. -/
def installErase (s : State) : State :=
  onFlash (putImage s (installTarget s) []) (fun f => { f with fwWrites := (f.fwWrites + 1) % 2 ^ 32 })
/-- A further phase of FW_UPDATE (Tables 14-10, 14-11). Of INSTALL: 3 Program image body and header, 4 the boot preference
record, 5 Read-back, 6 and 7 Clear under way and done; 15 to 17 the last three after a record that changed nothing. Of
ERASE_DOWNLOAD: 20 the rest of it. -/
def flashPhase (flashOk activate : Bool) (n : Nat) (s : State) : State :=
  let b := installTarget s
  if !flashOk then flashFail (flashWe s 0)
  else if n = 3 then phaseTo (putImage s b s.flash.dl) 4
  else if n = 4 then
    (if activate && !s.seq.rescue then phaseTo (prefer s b) (if preferred s = b then 15 else 5) else phaseTo s 15)
  else if n = 5 then phaseTo s 6
  else if n = 6 then phaseTo (dlErasing s) 7
  else if n = 15 then phaseTo s 16
  else if n = 16 then phaseTo (dlErasing s) 17
  else if n = 20 then fwReply (flashWe (dlErase s) 0) (preferred s) false
  else fwReply (flashWe (dlErase s) 0) b (decide (n = 7))

/-- FW_UPDATE (R322, Table 14-10): its checks and the pair on FLASH_WE, then its phases, each at a further FW_UPDATE row. -/
def xFwUpdate (flashOk : Bool) (q : Run) (s : State) : State :=
  let act := pk1 q.req.params 0
  let b := preferred s
  if 2 < q.work then flashPhase flashOk (bit (q.req.params.getD 1 0) 0) q.work s
  else if 2 < act then badRange s
  else if act = 1 ∧ imageOk s.flash.dl = false then denied s 0x54
  else if act = 2 ∧ imageOk (imageAt s (!preferred s)) = false then deniedState s
  else pairRows (aSys + 0x020) 1 q s (fun t =>
    if act = 1 then phaseTo (installErase t) 3
    else if !flashOk then flashFail (flashWe t 0)
    else if act = 2 then fwReply (flashWe (prefer t (!b)) 0) (!b) true
    else phaseTo (dlErasing t) 20)
def execFwUpdate (r : Req) (flashOk : Bool) (s : State) : Host.Outcome State Fault Refusal :=
  .next (live s (runSteps 0x0912 r (xFwUpdate flashOk) s))

/-! SELF_TEST (R324). -/

/-- Where the sweep reads: the ON banks of working RAM, scratchpad and trace buffer, and the allotted lines of the
alignment store. -/
def sweepSites (s : State) : List (Nat × Nat) :=
  ([(0, 16), (1, 8), (3, 16)].flatMap (fun m => (List.range m.2).map (fun b => (m.1, b)))).filter (fun x => bankOn s x.1 x.2)
    ++ s.map.lines.map (fun kv => (4, kv.1))
/-- The words of the swept memories already known to be uncorrectable: their keys. -/
def sweepKnown (s : State) : List Nat :=
  (s.mem.ecc.filter (fun kv => kv.2 == 2 && bankOn s (kv.1 / 2 ^ 32) (memBankOf (kv.1 / 2 ^ 32) (kv.1 % 2 ^ 32)))).map (·.1)
/-- The sweep reads one of them: the usual MEMORY event. -/
def sweepOld (s : State) (k : Nat) : State := memUncorr s (k / 2 ^ 32) (k % 2 ^ 32) (memBankOf (k / 2 ^ 32) (k % 2 ^ 32))
/-- An uncorrectable error that the sweep is the first to find: in which bank it reads, and where, is the hardware's
(log 5). -/
def sweepNew (s : State) : State :=
  let (w, s1) := drawWord s
  let (x, s2) := drawWord s1
  match (sweepSites s)[w.toNat % (sweepSites s).length]? with
  | some (m, b) =>
    if m = 4 then alignError s2 (b * 2048 + x.toNat % 2048)
    else
      let size := if m = 0 then 0x10000 else if m = 1 then 0x8000 else 0x20000
      let o := b * size + x.toNat % size / 8 * 8
      memUncorr (onMem s2 (fun y => { y with ecc := tset y.ecc (m * 2 ^ 32 + o) 2 })) m o b
  | none => s2
/-- A correct copy of what the configuration store holds, but for the saved configuration, which may never have been
saved (R455, R463). -/
def storeGood (s : State) : Bool := s.flash.net.isSome && s.flash.days.isSome && s.flash.resv.isSome
/-- The masks of a self-test, `n` uncorrectable words found: pass, fail, absent. -/
def testMasks (s : State) (f : SelfTestIn) (n : Nat) : Nat × Nat × Nat :=
  let checks : List (Bool × Bool) := [(s.flash.imgA.isEmpty, imageOk s.flash.imgA), (s.flash.imgB.isEmpty, imageOk s.flash.imgB),
    (false, storeGood s), (false, s.flash.keys.isSome), (false, n == 0), (false, f.sensorsOk), (false, f.pllsOk)]
  (List.range 7).foldl (fun (m : Nat × Nat × Nat) k =>
    let c := checks.getD k (true, false)
    if c.1 then (m.1, m.2.1, m.2.2 + 2 ^ k) else if c.2 then (m.1 + 2 ^ k, m.2.1, m.2.2) else (m.1, m.2.1 + 2 ^ k, m.2.2))
    (0, 0, 0)
/-- SELF_TEST: what the checks find anew is given by the hardware. -/
def xSelfTest (f : SelfTestIn) (_ : Run) (s : State) : State :=
  let old := sweepKnown s
  let n := old.length + f.uncorrectable
  let m := testMasks s f n
  let s1 := forEach old (count s 1 5 f.corrected) sweepOld
  let s2 := forEach (List.range f.uncorrectable) s1 (fun t _ => sweepNew t)
  replyOk s2 (beBytes 2 m.1 ++ beBytes 2 m.2.1 ++ beBytes 2 m.2.2 ++ beBytes 4 f.corrected ++ beBytes 4 n)
def execSelfTest (r : Req) (found : SelfTestIn) (s : State) : Host.Outcome State Fault Refusal :=
  .next (live s (runOnce 0x0920 r (xSelfTest found) s))

end Sys2Proof.Machine
end

