-- ==== Sys2Proof/Machine/ObsCmd.lean ====
section
/-! DEFINITION. The observation family of commands (Tables 14-6 and 14-7; R315 to R317, R427). -/

namespace Sys2Proof.Machine

open Sys2Proof

/-- CTR_READ: counters of one block, latched in this cycle (R316). -/
def xCtrRead (q : Run) (s : State) : State :=
  let p := q.req.params
  let b := pkNat p 0 2
  let f := pkNat p 2 2
  let n := pkNat p 4 2
  if n = 0 ∨ 160 < n ∨ catSize b < f + n then badRange s
  else replyOk s (sfpBytes s.sfp ++ beBytes 2 b ++ beBytes 2 f ++ beBytes 2 n ++ (rangeFrom f n).flatMap (fun i => beBytes 8 (ctrLatch s b i)))
def execCtrRead (r : Req) (s : State) : Host.Outcome State Fault Refusal := .next (live s (runOnce 0x0801 r xCtrRead s))

/-- PCTR_WRITE (Table 14-7). -/
def xPctrWrite (q : Run) (s : State) : State :=
  let p := q.req.params
  let n := pk1 p 0
  if 63 < n ∨ (n = 63 ∧ bit (p.getD 1 0) 1) then badRange s
  else staging 32 s (fun t =>
    replyOk (stageList t [(aPctrCfg n, bits (p.getD 1 0) 1 0), (aPctrEvt n, pkNat p 4 4)]) [])
def execPctrWrite (r : Req) (s : State) : Host.Outcome State Fault Refusal :=
  .next (live s (runOnce 0x0802 r xPctrWrite s))

/-- PCTR_READ: every programmable counter and the overflow bits in one cycle (R316, R418). -/
def xPctrRead (_ : Run) (s : State) : State :=
  replyOk s (sfpBytes s.sfp ++ wordBytes (hist s hOvfHi) ++ wordBytes (hist s hOvfLo)
    ++ (List.range 64).flatMap (fun n => beBytes 4 (pctrLatch s n)))
def execPctrRead (r : Req) (s : State) : Host.Outcome State Fault Refusal :=
  .next (live s (runOnce 0x0803 r xPctrRead s))

/-- The 40 bytes of a latency record (R317). -/
def latBytes (x : LatRec) : Bytes :=
  beBytes 2 x.op.toNat ++ [x.status, x.detail, by1 x.auth.toNat, by1 (x.via + 4 * x.pri.toNat), 0, 0]
    ++ beBytes 4 x.seq.toNat ++ sfpBytes x.accept
    ++ (match x.done with
        | some d => sfpBytes d ++ beBytes 8 ((sfpDist x.accept d).toNat * 64 / 100)
        | none => List.replicate 18 0xFF)
/-- LATLOG_READ: newest first; records not held are left out of COUNT. -/
def xLatlogRead (q : Run) (s : State) : State :=
  let f := pkNat q.req.params 0 2
  let n := pkNat q.req.params 2 2
  let l := (s.vcp.latlog.drop f).take n
  if 1023 < f ∨ n = 0 ∨ 32 < n then badRange s
  else replyOk s (ctr8 s 8 6 ++ beBytes 2 l.length ++ l.flatMap latBytes)
def execLatlogRead (r : Req) (s : State) : Host.Outcome State Fault Refusal :=
  .next (live s (runOnce 0x0804 r xLatlogRead s))

/-- The eight bytes of the trace buffer at an offset: free ones of an uncorrectable word, each read of which is reported
(R359, Table 16-10). -/
def traceWord (x : State × Bytes) (o : Nat) : State × Bytes :=
  if memDouble x.1 3 o then
    let (b, t) := drawBytes (memUncorr x.1 3 o (o / 131072)) 8
    (t, x.2 ++ b)
  else (x.1, x.2 ++ (rangeFrom o 8).map (traceByte x.1))
/-- The record of a number, from its place in the ring. -/
def traceRecord (x : State × Bytes) (n : Nat) : State × Bytes :=
  (List.range 4).foldl (fun y w => traceWord y (32 * (n % 65536) + 8 * w)) x
/-- TRACE_READ: a FIRST below OLDEST begins at OLDEST (R316). -/
def xTraceRead (q : Run) (s : State) : State :=
  let n := pkNat q.req.params 8 2
  let f := max (pkNat q.req.params 0 8) (traceOldest s)
  let k := min n (s.sage.traceNext - f)
  if n = 0 ∨ 40 < n then badRange s
  else
    let r := (rangeFrom f k).foldl traceRecord (s, [])
    replyOk r.1 (beBytes 8 (traceOldest s) ++ beBytes 8 s.sage.traceNext ++ ctr8 s 8 1 ++ beBytes 2 k ++ r.2)
def execTraceRead (r : Req) (s : State) : Host.Outcome State Fault Refusal :=
  .next (live s (runOnce 0x0805 r xTraceRead s))

/-- BW_CFG_WRITE (Table 14-7). -/
def xBwCfgWrite (q : Run) (s : State) : State :=
  let p := q.req.params
  if 127 < pk1 p 0 || !inR 1 1024 (pkNat p 2 2) then badRange s
  else staging 32 s (fun t => replyOk (stage t (aBwWin (pk1 p 0)) (pkNat p 2 2)) [])
def execBwCfgWrite (r : Req) (s : State) : Host.Outcome State Fault Refusal :=
  .next (live s (runOnce 0x0806 r xBwCfgWrite s))

/-- A rate in units of 10 kb/s: blocks of 64 bits over a window of w multiframes (R421). -/
def bwRate (w blocks : Nat) : Nat := if w = 0 then 0 else blocks * 64 * 10000000 / (w * 335396864)
/-- BW_READ: the last completed window; zeros until the first has ended (R421). -/
def xBwRead (q : Run) (s : State) : State :=
  let p := pk1 q.req.params 0
  if 127 < p then badRange s
  else
    match (portOf s p).bwLast with
    | some (w, f, i, e) =>
      replyOk s (beBytes 2 w ++ sfpBytes f ++ beBytes 8 i ++ beBytes 8 e ++ beBytes 4 (bwRate w i) ++ beBytes 4 (bwRate w e))
    | none => replyOk s (zeros 36)
def execBwRead (r : Req) (s : State) : Host.Outcome State Fault Refusal := .next (live s (runOnce 0x0807 r xBwRead s))

/-- TRACE_CFG_WRITE (Table 14-7). -/
def xTraceCfgWrite (q : Run) (s : State) : State :=
  let p := q.req.params
  staging 32 s (fun t => replyOk (stageList t [(aTraceClass, pkNat p 0 4), (aTraceTx, bits (p.getD 4 0) 1 0),
    (aSage + 0x408, pkNat p 6 2), (aSage + 0x40C, pkNat p 8 4), (aSage + 0x410, pkNat p 12 2)]) [])
def execTraceCfgWrite (r : Req) (s : State) : Host.Outcome State Fault Refusal :=
  .next (live s (runOnce 0x0808 r xTraceCfgWrite s))

/-- EVT_CFG_WRITE: its event authority is ENABLED, of operator or observer class (R316). -/
def xEvtCfgWrite (q : Run) (s : State) : State :=
  let p := q.req.params
  let a := authOf s (pk1 p 1)
  if 4 < pk1 p 0 ∨ 63 < pk1 p 1 ∨ a.enabled = false ∨ 1 < a.cls then badRange s
  else staging 32 s (fun t => replyOk (stageList t
    [(aEvtCfg, pk1 p 0 + fld (pk1 p 1) 6 8 + at1 (bit (p.getD 12 0) 0) 14 + fld (pkNat p 2 2) 10 16),
     (aSage + 0x424, pkNat p 4 2), (aSage + 0x428, pkNat p 6 4), (aSage + 0x42C, pkNat p 10 2)]) [])
def execEvtCfgWrite (r : Req) (s : State) : Host.Outcome State Fault Refusal :=
  .next (live s (runOnce 0x0809 r xEvtCfgWrite s))

/-- The write layouts of the observation settings in a view. -/
def obsLayout (v : View) (part : Nat) : Bytes :=
  if part = 0 then (List.range 64).flatMap (fun n => [by1 (bits (v (aPctrCfg n)) 1 0), 0, 0] ++ wordBytes (v (aPctrEvt n)))
  else if part = 1 then allPorts.flatMap (fun p => beBytes 2 (bits (v (aBwWin p)) 10 0))
  else if part = 2 then wordBytes (v aTraceClass) ++ [by1 (bits (v aTraceTx) 1 0), 0]
    ++ beBytes 2 (bits (v (aSage + 0x408)) 15 0) ++ wordBytes (v (aSage + 0x40C)) ++ beBytes 2 (bits (v (aSage + 0x410)) 15 0)
  else [by1 (evTransport v), by1 (evAuth v)] ++ beBytes 2 (bits (v aEvtCfg) 25 16)
    ++ beBytes 2 (bits (v (aSage + 0x424)) 15 0) ++ wordBytes (v (aSage + 0x428)) ++ beBytes 2 (bits (v (aSage + 0x42C)) 15 0)
    ++ [by1 (b2n (evVlan v)), 0]
/-- OBS_CFG_READ (Table 14-7). -/
def xObsCfgRead (q : Run) (s : State) : State :=
  let k := pk1 q.req.params 1
  if 1 < pk1 q.req.params 0 ∨ 3 < k then badRange s
  else replyOk s ([by1 k, 0] ++ obsLayout (viewSel s (pk1 q.req.params 0)) k)
def execObsCfgRead (r : Req) (s : State) : Host.Outcome State Fault Refusal :=
  .next (live s (runOnce 0x080A r xObsCfgRead s))

end Sys2Proof.Machine
end

