-- ==== Sys2Proof/Machine/PairCmd.lean ====
section
/-! DEFINITION. The pair family of commands (Tables 14-4 and 14-5; R312 to R314). -/

namespace Sys2Proof.Machine

open Sys2Proof

/-- A command on PAIR_CTL: `check` before anything changes, then `pre` and the guarded pair; a value that PAIR_CTL itself
refuses at its second write ends the command with that check's status (R281, R328, R393; log 22). -/
def pairCtlRows (v : Word) (check : State → Option (Byte × Byte)) (pre : State → State) (q : Run) (s : State)
    (ok : State → State) : State :=
  let late := fun (t : State) => pairCtlCheck q.accept t v
  if q.work = 0 then
    match check s with
    | some (st, d) => setReply s st d []
    | none => pairRows (aSys + 0x038) v q (pre s) ok
  else pairRows (aSys + 0x038) v q s (fun t => match late s with
    | some (st, d) => setReply t st d []
    | none => ok t)

/-- PAIR_STATUS (Table 14-5). -/
def xPairStatus (_ : Run) (s : State) : State :=
  let p := s.pair
  let peer := p.peer.getD (0, false, false, 0)
  let swap := match p.swap with
    | some (f, _) => sfpBytes f
    | none => zeros 10
  replyOk s ([by1 (pairCode p.st + at1 s.pins.twinPos 3 + at1 p.aliveIn 4 + at1 p.aliveOut 5 + at1 p.live0 6
        + at1 p.live1 7), by1 p.why,
      by1 (pairLive s % 64 + at1 p.swap.isSome 6 + at1 p.resync 7), 0,
      by1 (peer.1.toNat + at1 peer.2.1 3 + at1 peer.2.2.1 4), peer.2.2.2]
    ++ swap ++ sfpBytes p.changed ++ maskBytes p.txSuspect ++ ctr8 s 6 1 ++ ctr8 s 6 3)
def execPairStatus (r : Req) (s : State) : Host.Outcome State Fault Refusal :=
  .next (live s (runOnce 0x0701 r xPairStatus s))

/-- PAIR_CFG_WRITE (Table 14-5): its write reaches the system block. -/
def xPairCfgWrite (q : Run) (s : State) : State :=
  let p := q.req.params
  if !inR 8 16383 (pkNat p 2 2) || !inR 16 4096 (pkNat p 4 2) then badRange s
  else staging 128 s (fun t =>
    replyOk (stage (interleave t 0) aPairCfg (bits (p.getD 0 0) 1 0 + fld (pkNat p 2 2) 14 2 + fld (pkNat p 4 2) 13 16)) [])
def execPairCfgWrite (r : Req) (s : State) : Host.Outcome State Fault Refusal :=
  .next (live s (runOnce 0x0702 r xPairCfgWrite s))

/-- PAIR_CFG_READ (Table 14-5). -/
def xPairCfgRead (q : Run) (s : State) : State :=
  let k := pk1 q.req.params 0
  let v := viewSel s k
  if 1 < k then badRange s
  else replyOk s ([by1 (at1 (pairEn v) 0 + at1 (autoResync v) 1), 0] ++ beBytes 2 (swapGap v) ++ beBytes 2 (txWatch v))
def execPairCfgRead (r : Req) (s : State) : Host.Outcome State Fault Refusal :=
  .next (live s (runOnce 0x0703 r xPairCfgRead s))

/-- PAIR_RESYNC (R231, R232, R233, R314): its reply follows when the target enters STANDBY, or when the resync ends. The
Link phase fails at once against a silent link or another COMPAT. -/
def xPairResync (_ : Run) (s : State) : State :=
  let peer := s.pair.peer.getD (0, false, false, 0)
  if s.pair.st ≠ .unsynced then deniedState s
  else if chiveSilent s then failResync (startResync s) 8 2
  else if peer.1 ≠ 2 then deniedState s
  else if peer.2.2.2 ≠ ownCompat s then failResync (startResync s) 7 5
  else startResync s
def execPairResync (r : Req) (s : State) : Host.Outcome State Fault Refusal :=
  .next (live s (runOnce 0x0704 r xPairResync s))

/-- The boundary goes to PAIR_SWAP_MFC and PAIR_SWAP_FI before the guarded pair. -/
def swapRegs (s : State) (f : Sfp) : State :=
  onRegs (interleave s 0) (fun r => setAct aSwapFi (word f.fi) (setAct aSwapLo (loW f.mfc) (setAct aSwapHi (hiW f.mfc) r)))
/-- PAIR_SWAP (R234, R313). -/
def xPairSwap (q : Run) (s : State) : State :=
  let p := q.req.params
  let f := sfpOfBytes p 0
  let cancel := bit (p.getD 10 0) 0
  if f.bi ≠ 0 then badRange s
  else
    let v : Word := if cancel then 2 else 1
    let check := fun (t : State) => if cancel then cancelCheck t q.accept f else swapCheck t q.accept f
    pairCtlRows v check (fun t => swapRegs t f) q s (fun t => replyOk t (sfpBytes f))
def execPairSwap (r : Req) (s : State) : Host.Outcome State Fault Refusal :=
  .next (live s (runSteps 0x0705 r xPairSwap s))

/-- PAIR_FORCE_ACTIVE (R229, R314). -/
def xPairForceActive (q : Run) (s : State) : State :=
  pairCtlRows 4 (fun t => forceCheck t false) id q s (fun t => replyOk t (sfpBytes (nextFrame t.sfp)))
def execPairForceActive (r : Req) (s : State) : Host.Outcome State Fault Refusal :=
  .next (live s (runSteps 0x0706 r xPairForceActive s))

end Sys2Proof.Machine
end

