-- ==== Sys2Proof/Machine/PortCmd.lean ====
section
/-! DEFINITION. The port family of commands (Tables 13-9 and 13-10). -/

namespace Sys2Proof.Machine

open Sys2Proof

/-- The 16 words of a trail trace identifier in a packet. -/
def ttiWords (base : Nat) (p : Bytes) (lo : Nat) : List (Nat × Nat) :=
  (List.range 16).map (fun w => (base + 4 * w, pkNat p (lo + 4 * w) 4))
/-- PORT_CFG_WRITE's fields in range (Table 13-10). -/
def portArgsOk (p : Bytes) : Bool :=
  let f := p.getD 3 0
  decide (pk1 p 0 < 128) && decide (pk1 p 1 ≤ 6) && inR 1 16 (pk1 p 2) && decide (bits f 4 3 ≤ 2) && inR 1 255 (pk1 p 4)
    && inR 1 16777215 (pkNat p 6 4)
/-- The registers it stages (Table 18-4). -/
def portWords (p : Bytes) : List (Nat × Nat) :=
  let n := pk1 p 0
  let f := p.getD 3 0
  [(aPortCfg n, fld (pk1 p 1) 3 0 + fld (bits f 4 3) 2 3 + at1 (bit f 0) 5 + at1 (bit f 1) 6 + at1 (bit f 2) 7),
   (aPortCfg n + 4, fld (pk1 p 2) 5 0), (aPortCfg n + 8, fld (pk1 p 4) 8 0), (aPortCfg n + 12, fld (pkNat p 6 4) 24 0)]
    ++ ttiWords (aTxTti n) p 10 ++ ttiWords (aExpTti n) p 74
/-- PORT_CFG_WRITE (Table 13-10). -/
def xPortCfgWrite (q : Run) (s : State) : State :=
  let p := q.req.params
  if !portArgsOk p then badRange s else staging 2 s (fun t => replyOk (stageList t (portWords p)) [])
def execPortCfgWrite (r : Req) (s : State) : Host.Outcome State Fault Refusal :=
  .next (live s (runOnce 0x0601 r xPortCfgWrite s))

/-- The PORT_CFG_WRITE layout of a view. -/
def portLayout (v : View) (n : Nat) : Bytes :=
  [by1 n, by1 (pMode v n), by1 (pEbDepth v n), by1 (at1 (pRdiEn v n) 0 + at1 (pTtiCheck v n) 1 + at1 (pTpPoly v n) 2
    + fld (pLoop v n) 2 3), by1 (pFecFail v n), 0] ++ beBytes 4 (pFecDeg v n) ++ ttiOf v (aTxTti n) ++ ttiOf v (aExpTti n)
/-- The PORT_SERDES_WRITE layout of a view. -/
def serdesLayout (v : View) (n : Nat) : Bytes :=
  let w := v (aLane n)
  [by1 n, by1 (bits w 1 0), by1 (bits w 10 8), by1 (bits w 19 16), by1 (bits w 26 24), 0]
/-- The PORT_ADAPT_WRITE layout of a view. -/
def adaptLayout (v : View) (n : Nat) : Bytes := [by1 n, by1 (b2n (pPmEn v n))] ++ beBytes 2 (pDropMargin v n)
/-- PORT_CFG_READ (Table 13-10). -/
def xPortCfgRead (q : Run) (s : State) : State :=
  let n := pk1 q.req.params 0
  let v := viewSel s (pk1 q.req.params 1)
  if 127 < n ∨ 1 < pk1 q.req.params 1 then badRange s
  else replyOk s (portLayout v n ++ serdesLayout v n ++ adaptLayout v n)
def execPortCfgRead (r : Req) (s : State) : Host.Outcome State Fault Refusal :=
  .next (live s (runOnce 0x0602 r xPortCfgRead s))

/-- PORT_ADAPT_WRITE (Table 13-10). -/
def xPortAdaptWrite (q : Run) (s : State) : State :=
  let p := q.req.params
  if 127 < pk1 p 0 ∨ !inR 16 1024 (pkNat p 2 2) then badRange s
  else staging 16 s (fun t =>
    replyOk (stage t (aPortAdapt (pk1 p 0)) (at1 (bit (p.getD 1 0) 0) 0 + fld (pkNat p 2 2) 11 16)) [])
def execPortAdaptWrite (r : Req) (s : State) : Host.Outcome State Fault Refusal :=
  .next (live s (runOnce 0x0603 r xPortAdaptWrite s))

/-- PORT_SERDES_WRITE (Table 13-10). -/
def xPortSerdesWrite (q : Run) (s : State) : State :=
  let p := q.req.params
  if 127 < pk1 p 0 ∨ 7 < pk1 p 2 ∨ 15 < pk1 p 3 ∨ 7 < pk1 p 4 then badRange s
  else staging 2 s (fun t => replyOk (stage t (aLane (pk1 p 0)) (fld (pk1 p 1) 2 0 + fld (pk1 p 2) 3 8 + fld (pk1 p 3) 4 16
    + fld (pk1 p 4) 3 24)) [])
def execPortSerdesWrite (r : Req) (s : State) : Host.Outcome State Fault Refusal :=
  .next (live s (runOnce 0x0604 r xPortSerdesWrite s))

/-- PORT_STATUS (Table 13-10). -/
def xPortStatus (q : Run) (s : State) : State :=
  let n := pk1 q.req.params 0
  let x := portOf s n
  let peer := match x.trunk.peer with
    | some w => beBytes 2 (bits w 23 12 + 32768) ++ [by1 (bits w 11 5), by1 (bits w 4 3 + 4 * bits w 2 0)]
    | none => [0, 0, 0, 0]
  if 127 < n then badRange s
  else replyOk s ([by1 n, by1 (modeOf s n)] ++ beBytes 2 x.rep.toNat ++ peer
    ++ beBytes 2 (x.trunk.rxSmi.getD 0).toNat ++ [by1 (x.ql.toNat + at1 x.qlStale 4), 0]
    ++ beBytes 4 (x.client.adPpm.signExtend 32).toNat ++ beBytes 2 (portFill s n)
    ++ slice (x.trunk.rxTti.getD []) 0 64 ++ [by1 (b2n x.trunk.rxTti.isSome)])
def execPortStatus (r : Req) (s : State) : Host.Outcome State Fault Refusal :=
  .next (live s (runOnce 0x0605 r xPortStatus s))

/-- A snapshot request joins the pending ones, merged by position (R147). -/
def snapAdd (l : List (Sfp × BitVec 128)) (f : Sfp) (m : BitVec 128) : List (Sfp × BitVec 128) :=
  if l.any (fun r => r.1 == f) then l.map (fun r => if r.1 = f then (r.1, r.2 ||| m) else r) else l ++ [(f, m)]
/-- PORT_SNAPSHOT (R147, R297): its position is judged from the acceptance. -/
def xPortSnapshot (q : Run) (s : State) : State :=
  let m := pkMask q.req.params 0
  let f := sfpOfBytes q.req.params 16
  let merged := s.com.snaps.any (fun r => r.1 == f)
  if m = 0 then bad s 0x42
  else if f.bi ≠ 0 then badRange s
  else if horizon < sfpDist q.accept f then bad s 0x43
  else if sfpDist q.accept f < twoFrames then setReply s 9 0 []
  else if !merged && decide (8 ≤ s.com.snaps.length) then denied s 4
  else
    let s1 := setSnaps s (snapAdd s.com.snaps f m)
    replyOk s1 [by1 (b2n merged), by1 s1.com.snaps.length]
def execPortSnapshot (r : Req) (s : State) : Host.Outcome State Fault Refusal :=
  .next (live s (runOnce 0x0606 r xPortSnapshot s))

/-- PORT_SNAP_READ (R297): a port without a snapshot reads VALID = 0, its position and counters 0. -/
def xPortSnapRead (q : Run) (s : State) : State :=
  let n := pk1 q.req.params 0
  let k := pk1 q.req.params 1
  let x := (portOf s n).snap
  let vals := (x.map (·.2)).getD (List.replicate 71 0)
  let l := (vals.drop (160 * k)).take 160
  if 127 < n then badRange s
  else replyOk s ([by1 n, by1 (b2n x.isSome)] ++ sfpBytes ((x.map (·.1)).getD {}) ++ [by1 k, by1 l.length]
    ++ l.flatMap (beBytes 8))
def execPortSnapRead (r : Req) (s : State) : Host.Outcome State Fault Refusal :=
  .next (live s (runOnce 0x0607 r xPortSnapRead s))

/-- TP_CHK_WRITE (Table 13-10). -/
def xTpChkWrite (q : Run) (s : State) : State :=
  let p := q.req.params
  if 63 < pk1 p 0 ∨ 10239 < pkNat p 2 2 then badRange s
  else staging 2 s (fun t => replyOk (stage t (aTpChk (pk1 p 0)) (at1 (bit (p.getD 1 0) 0) 31 + pkNat p 2 2)) [])
def execTpChkWrite (r : Req) (s : State) : Host.Outcome State Fault Refusal :=
  .next (live s (runOnce 0x0608 r xTpChkWrite s))

/-- TP_CHK_READ (Table 13-10). -/
def xTpChkRead (q : Run) (s : State) : State :=
  let m := pk1 q.req.params 0
  let w := actv s (aTpChk m)
  if 63 < m then badRange s
  else replyOk s ([by1 m, by1 (at1 (bit w 31) 0 + at1 (chkOf s m).sync 1)] ++ beBytes 2 (bits w 13 0)
    ++ (List.range 4).flatMap (fun k => ctr8 s 0xB (4 * m + k)))
def execTpChkRead (r : Req) (s : State) : Host.Outcome State Fault Refusal :=
  .next (live s (runOnce 0x0609 r xTpChkRead s))

end Sys2Proof.Machine
end

