-- ==== Sys2Proof/Machine/PowerCmd.lean ====
section
/-! DEFINITION. The power family of commands (Tables 14-15 and 14-16; R329). -/

namespace Sys2Proof.Machine

open Sys2Proof

/-- FEED_READ (Table 14-16). -/
def xFeedRead (_ : Run) (s : State) : State :=
  replyOk s (beBytes 2 (feedStatusW s) ++ [by1 (bits (hist s hFeed) 7 0), by1 (bits (act s (aPower + 0x018)) 7 0)]
    ++ beBytes 2 s.pwr.mvA.toNat ++ beBytes 2 s.pwr.mvB.toNat ++ wordBytes s.pwr.load
    ++ [by1 s.pwr.result, by1 s.pwr.lastOff] ++ ctr8 s 7 0 ++ ctr8 s 7 7 ++ ctr8 s 7 8)
def execFeedRead (r : Req) (s : State) : Host.Outcome State Fault Refusal := .next (live s (runOnce 0x0A01 r xFeedRead s))

/-- FEED_SELECT: the guarded write of R250, with the KP bits as read; its reply is made when the result is stored. A pair
that finds the block BUSY fails. -/
def xFeedSelect (q : Run) (s : State) : State :=
  let t := pk1 q.req.params 0
  let v := word t ||| kpOf s aFeedSelect 1
  if 1 < t then badRange s
  else if q.work = 0 then
    (if slowBusy s 2 then setReply (guardFailed (overrun s 2) 7 aFeedSelect) 0x0B 0 [] else feedPairOpen s v)
  else if q.work = 2 then feedPairClose s v
  else s
def execFeedSelect (r : Req) (s : State) : Host.Outcome State Fault Refusal :=
  .next (live s (runSteps 0x0A02 r xFeedSelect s))

end Sys2Proof.Machine
end

