-- ==== Sys2Proof/Machine/RegCmd.lean ====
section
/-! DEFINITION. The register family of commands (Tables 14-13 and 14-14; R325 to R328). -/

namespace Sys2Proof.Machine

open Sys2Proof

/-- An address of the register windows, 4-aligned (R325). -/
def regAddrOk (a : Nat) : Bool := a % 4 == 0 && decide (0x40000000 ≤ a) && decide (a < 0x60000000)

/-- Words read in order by M1 (R325, R352). -/
def regFetch (s : State) (a n : Nat) : State × Bytes :=
  (List.range n).foldl (fun (x : State × Bytes) i =>
    let t := matRead x.1 1 (a + 4 * i)
    (t, x.2 ++ wordBytes (dataOf t 1))) (s, [])

/-- REG_READ. -/
def xRegRead (q : Run) (s : State) : State :=
  let a := pkNat q.req.params 0 4
  let n := pkNat q.req.params 4 2
  if n = 0 ∨ 64 < n ∨ !regAddrOk a ∨ !regAddrOk (a + 4 * (n - 1)) then badRange s
  else
    let (t, b) := regFetch s a n
    replyOk t (beBytes 4 a ++ beBytes 2 n ++ b)
def execRegRead (r : Req) (s : State) : Host.Outcome State Fault Refusal := .next (live s (runOnce 0x0201 r xRegRead s))

/-- The low word and the high word again after `h`, the high word's n-th read, until two high reads agree, in at most 4 of
them (R326). -/
def read64 (a : Nat) : Nat → Nat → Word → State → State
  | 0, _, _, s => deniedState s
  | k + 1, n, h, s =>
    let t := matRead s 1 (a + 4)
    let u := matRead t 1 a
    if dataOf u 1 = h then replyOk u (beBytes 4 a ++ wordBytes h ++ wordBytes (dataOf t 1) ++ [by1 (n + 1)])
    else read64 a k (n + 1) (dataOf u 1) u
/-- REG_READ64 (R326, R377): high, low, high. -/
def xRegRead64 (q : Run) (s : State) : State :=
  let a := pkNat q.req.params 0 4
  if !regAddrOk a || !regAddrOk (a + 4) then badRange s
  else
    let t := matRead s 1 a
    read64 a 3 1 (dataOf t 1) t
def execRegRead64 (r : Req) (s : State) : Host.Outcome State Fault Refusal :=
  .next (live s (runOnce 0x0202 r xRegRead64 s))

/-! REG_WRITE and REG_WRITE_WAIT (R327). -/

/-- Address and value of item k. -/
def regItem (p : Bytes) (hd k : Nat) : Nat × Word := (pkNat p (hd + 8 * k) 4, word (pkNat p (hd + 8 * k + 4) 4))
/-- The commit domain an address stages. -/
def regDom (a : Nat) : Option Nat := domOf ((stagedOf a).getD a)
/-- The register at an address is owned by firmware (R391). -/
def regFw (a : Nat) : Bool :=
  match kindAct a with
  | .rw _ fw => fw
  | _ => false
/-- The address is a guarded register or its guard port. -/
def regGuarded (a : Nat) : Bool :=
  match kindAct a with
  | .gw _ _ => true
  | .port => true
  | _ => false
/-- The checks of every item before any is written: RANGE, then FW_OWNED, then FROZEN. -/
def regCheck (s : State) (as : List Nat) : Option (Byte × Byte) :=
  if as.any (fun a => !regAddrOk a || regGuarded a) then some (8, 0x41)
  else if as.any regFw then some (4, 0x4E)
  else if as.any (fun a => (regDom a).any (frozenNow s)) then some (4, 3)
  else none
/-- The domains the items stage. -/
def regMask (as : List Nat) : BitVec 8 := maskOf 8 (as.filterMap regDom)

/-- The item's slow block is BUSY: any address of it but BLK_STAT (R382, R385). -/
def itemBusy (s : State) (a : Nat) : Bool := kindAct a != .blk && (slowBlockOf a).any (slowBusy s)
/-- The item is a fast-bus one whose domain is frozen; a posted one is judged at its completion (R376). -/
def itemFrozen (s : State) (a : Nat) : Bool := !inSlow a && (regDom a).any (frozenNow s)
/-- The blocks with a posted write of the command, after its write to address a. -/
def itemMine (s : State) (q : Run) (a : Nat) : List Nat :=
  match slowBlockOf a with
  | some k => if slowBusy s k then k :: q.mine else q.mine
  | none => q.mine
/-- One item is written by M1: the command goes on at a row at which its last write is no longer held (R435). -/
def itemWrite (s : State) (q : Run) (a : Nat) (v : Word) (work worst : Nat) : State :=
  let t := matWrite s 1 a v false
  onRun t (fun x => { x with work := work, worst := worst, since := s.sfp, mine := if itemBusy s a then q.mine else itemMine t q a })

/-- The reply of REG_WRITE from its n items and what it kept. -/
def regReply (s : State) (n kept : Nat) : State :=
  let drop := kept % discUnit
  let disc := kept / discUnit
  let data := beBytes 2 (n - pop (word drop) - disc) ++ beBytes 4 drop
  if disc = 0 then replyOk s data else setReply s 4 3 data

/-- REG_WRITE: one item at each row of the command, its check at the first. `work` is one more than the items done and
`worst` keeps DROPPED; the command replies once its last write is made. -/
def xRegWrite (q : Run) (s : State) : State :=
  let p := q.req.params
  let n := pkNat p 0 2
  let as := (List.range n).map (fun k => (regItem p 2 k).1)
  let k := q.work - 1
  let go := fun (t : State) =>
    let it := regItem p 2 k
    let kept := q.worst + (if itemBusy t it.1 then 2 ^ k else if itemFrozen t it.1 then discUnit else 0)
    if outstanding (matRun t) 1 then matRun t
    else if k = n then regReply t n q.worst
    else
      let t1 := itemWrite t q it.1 it.2 (k + 2) kept
      if k + 1 = n ∧ outstanding t1 1 = false then regReply t1 n kept else t1
  if q.work ≠ 0 then go s
  else if n = 0 ∨ 32 < n then badRange s
  else match regCheck s as with
    | some (st, d) => setReply s st d []
    | none => go (openDomains s (regMask as))
def execRegWrite (r : Req) (s : State) : Host.Outcome State Fault Refusal := .next (live s (runSteps 0x0203 r xRegWrite s))

/-- Blocks as whole microseconds. -/
def usOf (blocks : Nat) : Nat := blocks * 64 / 100000
/-- The wait at an item of REG_WRITE_WAIT: past its TIMEOUT. -/
def waitOver (s : State) (q : Run) (us : Nat) : Bool := decide (us * 100000 < (sfpDist q.since s.sfp).toNat * 64)
/-- The reply of REG_WRITE_WAIT. -/
def waitReply (s : State) (status detail : Byte) (done worst : Nat) : State :=
  setReply s status detail (beBytes 2 done ++ beBytes 2 (usOf (worst % discUnit)))

/-- One row of a REG_WRITE_WAIT in progress: the item whose slow block is free is written, or the wait goes on; after the
last item the command waits for its block again. -/
def waitStep (q : Run) (k : Nat) (s : State) : State :=
  let p := q.req.params
  let n := pkNat p 0 2
  let us := pkNat p 2 2
  let at_ := if k < n then (regItem p 4 k).1 else (regItem p 4 (n - 1)).1
  let waited := (sfpDist q.since s.sfp).toNat
  let disc := q.worst / discUnit
  if outstanding (matRun s) 1 then matRun s
  else if itemBusy s at_ then (if waitOver s q us then waitReply s 4 0x4F (min k n - disc) (max (q.worst % discUnit) waited) else s)
  else
    let worst := (if inSlow at_ then max (q.worst % discUnit) waited else q.worst % discUnit) + disc * discUnit
    if k < n then
      let kept := worst + (if itemFrozen s at_ then discUnit else 0)
      let t := itemWrite s q at_ (regItem p 4 k).2 (k + 2) kept
      if k + 1 = n ∧ itemBusy t at_ = false ∧ outstanding t 1 = false then
        (if kept < discUnit then waitReply t 0 0 n kept else waitReply t 4 3 (n - kept / discUnit) kept)
      else t
    else if disc = 0 then waitReply s 0 0 n worst else waitReply s 4 3 (n - disc) worst
/-- REG_WRITE_WAIT. -/
def xRegWriteWait (q : Run) (s : State) : State :=
  let p := q.req.params
  let n := pkNat p 0 2
  let us := pkNat p 2 2
  let as := (List.range n).map (fun k => (regItem p 4 k).1)
  if q.work ≠ 0 then waitStep q (q.work - 1) s
  else if n = 0 ∨ 32 < n ∨ us = 0 ∨ 50000 < us ∨ 200000 < n * us then badRange s
  else match regCheck s as with
    | some (st, d) => setReply s st d []
    | none =>
      waitStep { q with since := s.sfp } 0
        (onRun (openDomains s (regMask as)) (fun x => { x with since := s.sfp }))
def execRegWriteWait (r : Req) (s : State) : Host.Outcome State Fault Refusal :=
  .next (live s (runSteps 0x0204 r xRegWriteWait s))

/-! REG_GUARDED_WRITE (R328). -/

/-- The checks of a PAIR_CTL value as its opcodes make them (R313, R314, R328). -/
def ctlCheck (acc : Sfp) (v : Word) (s : State) : Option (Byte × Byte) :=
  if bits v 2 0 = 4 then forceCheck s false else pairCtlCheck acc s v
/-- The value read back. -/
def readBack (s : State) (a : Nat) : State :=
  let t := matRead s 1 a
  replyOk t (wordBytes (dataOf t 1))
/-- The pair on FEED_SELECT: once the block is free; the command ends when it is free again. -/
def feedPairStep (q : Run) (v : Word) (s : State) : State :=
  if slowBusy s 2 then s
  else if q.work = 2 then feedPairClose s v
  else if q.work = 3 then readBack s aFeedSelect
  else feedPairOpen s v
/-- REG_GUARDED_WRITE. -/
def xRegGuardedWrite (q : Run) (s : State) : State :=
  let a := pkNat q.req.params 0 4
  let v := word (pkNat q.req.params 4 4)
  match kindAct a with
  | .gw _ fw =>
    if fw then denied s 0x4E
    else if a = aFeedSelect then feedPairStep q v s
    else if a = aSys + 0x038 then pairCtlRows v (ctlCheck q.accept v) id q s (fun t => readBack t a)
    else pairRows a v q s (fun t => readBack t a)
  | _ => badRange s
def execRegGuardedWrite (r : Req) (s : State) : Host.Outcome State Fault Refusal :=
  .next (live s (runSteps 0x0205 r xRegGuardedWrite s))

end Sys2Proof.Machine
end

