-- ==== Sys2Proof/Machine/Reset.lean ====
section
/-! DEFINITION. Power-up and power-down, the module reset and the start-up sequence, the sequencer reset (files 21, 16,
11). -/

namespace Sys2Proof.Machine

open Sys2Proof

/-! Module reset (R447 to R449). -/

/-- What the power-stage controller keeps across a module reset: its paths, SEL, PATH_SUSPECT and PWR_LAST_OFF; the die's
registers of the block take their reset values (R253, R449, Table 18-16). -/
def pwrAfterReset (p : PowerSt) : PowerSt :=
  { p with target := p.sel, monFault := false, result := 0, pendHist := 0, pendCtr := [], pendRec := [],
           mvA := 0, mvB := 0, load := 0, firstFrame := false }

/-- Everything returns to its reset value but the flash, what the controller keeps, and the levels at the contacts
(R449); the queue and the draws are the model's own. -/
def bare (s : State) (ph : Phase) (p : PowerSt) : State :=
  { pending := s.pending, phase := ph, pwr := p, flash := s.flash, fresh := s.fresh
    pins := { devid := s.pins.devid, twinPos := s.pins.twinPos, resetN := s.pins.resetN }
    pair := { aliveIn := s.pair.aliveIn } }

/-- A module reset begins: its sequence of 40 ms runs (R448). -/
def moduleReset (s : State) : State := bare s .reset (pwrAfterReset s.pwr)
/-- A module reset of a powered module. -/
def resetIfOn (s : State) : State := if s.phase = .off then s else moduleReset s

/-- RESET_N_ASSERT: held low for 10 µs (R447, R448). -/
def xResetNAssert (s : State) : State := resetIfOn (onPins s (fun p => { p with resetN := true }))
def execResetNAssert (s : State) : Host.Outcome State Fault Refusal := .next (xResetNAssert s)

/-- RESET_N_RELEASE: the sequence begins once RESET_N is high (R448). -/
def xResetNRelease (s : State) : State := onPins s (fun p => { p with resetN := false })
def execResetNRelease (s : State) : Host.Outcome State Fault Refusal := .next (xResetNRelease s)

/-- BLOCK_CLOCK_LOSS (Table 21-1). -/
def execBlockClockLoss (s : State) : Host.Outcome State Fault Refusal := .next (live s (moduleReset s))
/-- BOOT_ROM_PARITY_ERROR (Table 21-1). -/
def execBootRomParityError (s : State) : Host.Outcome State Fault Refusal := .next (live s (moduleReset s))

/-! Power (R242, R246 to R248). -/

/-- POWER_UP: with no feed selected and no latch, the first GOOD feed is selected, FEED_A of both (R242). -/
def xPowerUp (feedB both : Bool) (s : State) : State :=
  if s.phase = .off ∧ s.pwr.latched = false then
    let b := feedB && !both
    let good := fun (p : PowerSt) (f : Bool) => setFeedGood (setFeedUv (setFeedOv p f false) f false) f true
    let p := setFeedPath (good (if both then good s.pwr (!b) else s.pwr) b) b true
    moduleReset { s with pwr := { p with hasSel := true, sel := b, lastOff := s.pwr.offCause } }
  else s
def execPowerUp (feedB both : Bool) (s : State) : Host.Outcome State Fault Refusal := .next (xPowerUp feedB both s)

/-- The module stops: SEL and PATH_SUSPECT clear, both paths open, the cause is kept (R248, R253). -/
def powerOff (s : State) (cause : Nat) : State :=
  let p := pwrAfterReset s.pwr
  bare s .off { p with hasSel := false, sel := false, target := false, suspectA := false, suspectB := false, pathA := false
                       pathB := false, failover := none, switching := none, brownout := false, declared := false
                       offCause := cause }

/-- POWER_DOWN: both feeds are lost; a cause kept since an earlier power-down goes with them (Table 21-1, R248). -/
def xPowerDown (s : State) : State :=
  let s1 := onPwr s (fun p => { p with goodA := false, goodB := false, uvA := true, uvB := true })
  if s.phase = .off then onPwr s1 (fun p => { p with offCause := 1 }) else powerOff s1 1
def execPowerDown (s : State) : Host.Outcome State Fault Refusal := .next (xPowerDown s)

/-- BULK_UNDERVOLTAGE: its cause is 3 after an OV trip that opened the selected path, else 2; where both feeds then fall
below 2 V, POWER_DOWN makes it 1 (R246, R248, Table 11-6). -/
def xBulkUndervoltage (s : State) : State :=
  if s.phase = .off then s
  else powerOff s (if feedPath s.pwr s.pwr.sel = false ∧ feedOv s.pwr s.pwr.sel then 3 else 2)
def execBulkUndervoltage (s : State) : Host.Outcome State Fault Refusal := .next (xBulkUndervoltage s)

/-- OVERCURRENT_TRIP: no failover; both paths stay latched open (R247). -/
def xOvercurrentTrip (s : State) : State :=
  if s.phase = .off then s else onPwr (powerOff s 4) (fun p => { p with latched := true })
def execOvercurrentTrip (s : State) : Host.Outcome State Fault Refusal := .next (xOvercurrentTrip s)

/-! Start-up (R450 to R457). -/

/-- RESET_SEQUENCE_END: the straps are sampled and the die is released; the SFP counts from 0 (R448, R450). -/
def xResetSequenceEnd (devid : BitVec 12) (twinPos : Bool) (s : State) : State :=
  if s.phase = .reset ∧ s.pins.resetN = false then
    { onPins s (fun p => { p with devid := devid, twinPos := twinPos }) with phase := .released, sfp := {} }
  else s
def execResetSequenceEnd (devid : BitVec 12) (twinPos : Bool) (s : State) : Host.Outcome State Fault Refusal :=
  .next (xResetSequenceEnd devid twinPos s)

/-- The key store as firmware loads it: without a correct copy of the reservations every slot is loaded with
ENABLED 0 (R455). -/
def loadKeys (s : State) : State :=
  let t := s.flash.keys.getD []
  let t' : Tbl AuthSt := if s.flash.resv.isSome then t
    else t.foldl (fun u kv => tput {} u kv.1 { kv.2 with enabled := false }) []
  onVcp s (fun v => { v with auths := t', keysLoaded := true })
/-- GROUP_MEMBER, ROUTE and RELAY_PORTS (R455); rescue firmware does not read the configuration store (R457). -/
def loadNet (s : State) : State :=
  let n := if s.seq.rescue then ([], [], 0) else s.flash.net.getD ([], [], 0)
  onVcp s (fun v => { v with members := n.1, route := n.2.1, relayPorts := n.2.2 })
/-- Each LAST from its reservation, in rescue mode too (R263, R278; log 74). -/
def loadLast (s : State) : State :=
  onVcp s (fun v => { v with replay := (s.flash.resv.getD []).foldl (fun t kv => tput {} t kv.1 { last := kv.2 }) [] })
/-- OCXO_DAYS (R74); not in rescue mode (R457). -/
def loadDays (s : State) : State :=
  if s.seq.rescue then s else onThy s (fun t => { t with days := s.flash.days.getD 0, daysLoaded := true })

/-- The image the boot loader starts: none for rescue mode (R452). -/
def bootImage (s : State) : Option Bool :=
  let p := preferred s
  if imageOk (imageAt s p) then some p else if imageOk (imageAt s (!p)) then some (!p) else none

/-- The trace buffer fails its start-up test at one word: which one is the hardware's (R454). -/
def traceTestFails (s : State) : State :=
  let (w, s1) := drawWord s
  let o := w.toNat % 0x200000 / 8 * 8
  memUncorr (onMem s1 (fun x => { x with ecc := tset x.ecc (3 * 2 ^ 32 + o) 2 })) 3 o (memBankOf 3 o)

/-- DIE_RELEASE: the boot is counted, an image chosen, CODE_LOCK and REMAP set, the sequencer released; its self-test
and its stores follow (R450 to R455, R457, R370). -/
def xDieRelease (f : BootIn) (s : State) : State :=
  if s.phase = .released then
    let n := (s.flash.boot + 1) % 2 ^ 32
    let s1 := onSeq s (fun q => { q with boot := n })
    let s2 := if f.bootSaveOk then onFlash s1 (fun x => { x with boot := n }) else s1
    let img := bootImage s
    let rescue := img.isNone || !f.ramOk || !f.someWramOk
    let s3 := onMem (onSeq s2 (fun q => { q with rescue := rescue, imageB := img.getD false && !rescue, running := true }))
      (fun m => { m with remap := !rescue })
    let s4 := if f.traceOk then s3 else traceTestFails s3
    if !f.someWramOk then { onSeq s4 (fun q => { q with running := false }) with phase := .stuck }
    else { loadDays (loadNet (loadLast (loadKeys s4))) with phase := .booting }
  else s
def execDieRelease (found : BootIn) (s : State) : Host.Outcome State Fault Refusal := .next (xDieRelease found s)

/-- READY (R456, R453): a BOOT_COUNT whose save failed is saved again, and the 24-hour count of OCXO_DAYS starts, but
not in rescue mode (R74). -/
def xReady (s : State) : State :=
  if s.phase = .booting ∧ s.seq.running then
    let s1 := onThy s (fun t => { t with dayAt := if s.seq.rescue then none else some s.sfp })
    { onPair (onFlash s1 (fun f => { f with boot := s.seq.boot })) (fun p => { p with st := .arbitrating, arbRun := 0 }) with
      phase := .ready }
  else s
def execReady (s : State) : Host.Outcome State Fault Refusal := .next (xReady s)

/-! Sequencer reset: its rows (R366 to R368). -/

/-- SEQ_EXCEPTION, causes 1 to 6 (R366, Table 18-3). -/
def execSeqException (cause : Fin 6) (s : State) : Host.Outcome State Fault Refusal :=
  .next (live s (xSeqException cause.val s))

/-- SEQ_WDT_EXPIRE (R366). -/
def xSeqWdtExpire (s : State) : State := if fwStarted s then seqReset 7 (cSys s 1) else s
def execSeqWdtExpire (s : State) : Host.Outcome State Fault Refusal := .next (live s (xSeqWdtExpire s))

/-- DEV_RESET_EFFECT: at its epoch boundary, after any strobe there (R287). -/
def xDevResetEffect (s : State) : State :=
  match s.seq.devReset with
  | some (f, full) =>
    if f = s.sfp then
      let s1 := onSeq s (fun q => { q with devReset := none })
      if full then moduleReset s1 else if fwStarted s1 then seqReset 8 s1 else s1
    else s
  | none => s
def execDevResetEffect (s : State) : Host.Outcome State Fault Refusal := .next (live s (xDevResetEffect s))

/-- Working RAM outside CODE_LOCK is reinitialised: the content is that of a new run, with valid check bits (R368). -/
def wramInit (s : State) : State :=
  onMem s (fun m => { m with
    wramGen := m.wramGen + 1, ram := tdrop (fun o => tget BankSt.on m.wram (o / 65536) == .on) m.ram
    junk := tdrop (fun k => 64 ≤ k && tget BankSt.on m.wram (k - 64) == .on) m.junk
    ecc := tdrop (fun k => k / 2 ^ 32 == 0 && tget BankSt.on m.wram (k % 2 ^ 32 / 65536) == .on) m.ecc })

/-- An interrupted stage of AUTO_RESTORE: reverted and repeated once; the second time it ends (R462). -/
def autoRestart (s : State) : State :=
  if autoStaging s && holdsLines s then
    let n := if s.auto.stage = .stage1 then 1 else 2
    let m := stageMask n
    let v := revertViews s (m &&& 0xFE#8)
    let s1 := if bit m 0 then (revertEnd m (copySmi (copyPart [] { st := v } 0 10240))).st else clearSuspect v m
    if s.auto.retried then onAuto s1 (fun a => { a with stage := .done })
    else onAuto (beginStage s1 n) (fun a => { a with retried := true })
  else s

/-- SEQUENCER_RESTART (R368, R420, R464). -/
def xSequencerRestart (s : State) : State :=
  if fwStarted s && !s.seq.running then
    let s1 := wramInit (onSeq s (fun q => { q with running := true, cutRec := none }))
    let s2 := match s.seq.cutRec with
      | some r => latPush s1 r
      | none => s1
    autoRestart (loadNet (loadKeys s2))
  else s
def execSequencerRestart (s : State) : Host.Outcome State Fault Refusal := .next (live s (xSequencerRestart s))

end Sys2Proof.Machine
end

