-- ==== Sys2Proof/Machine/Shorthand.lean ====
section
/-! DEFINITION. Shorthands: fifteen rows of the table under the operand lists they had in the first sitting, each an
abbreviation of the row's constructor and of its meaning as they are now. They carry no behaviour of their own and
nothing of the model, its laws or its statements uses them: they keep the host's reading of the first sitting's arms
(Host/Slice0/DispatchArms.lean) true. An operand whose name begins with an underscore is one the row no longer takes:
the model computes it from State. -/

namespace Sys2Proof

/-- MAP_WRITE done whole in one row (R290). -/
def Instr.mapWrite (r : Req) (hits : List Nat) : Instr := .mapWritePart r hits 10240
/-- MAP_COPY done whole in one row (R290). -/
def Instr.mapCopy (r : Req) (hits : List Nat) : Instr := .mapCopyPart r hits 10240
/-- MAP_CLEAR done whole in one row (R290). -/
def Instr.mapClear (r : Req) (hits : List Nat) : Instr := .mapClearPart r hits 10240
/-- H_MAP_WRITE done whole in one row (R290). -/
def Instr.hMapWrite (r : Req) (hits : List Nat) : Instr := .hMapWritePart r hits 10240
/-- STAGE_REVERT done whole in one row (R290). -/
def Instr.stageRevert (r : Req) (hits : List Nat) : Instr := .stageRevertPart r hits 10240
/-- FP_PULSE: the error is formed from the edge and the predicted boundary (R52). -/
def Instr.fpPulse (input : Fin 3) (_err : Int) : Instr := .fpEdge input
/-- FP_REALIGN_STEP: the wait is formed from the pulse's error (R54). -/
def Instr.fpRealignStep (_wait : Nat) : Instr := .fpRealignAct
/-- O0_RECEIVE: the fill is that of the elastic buffer in State (R120). -/
def Instr.o0Receive (port : Fin 128) (b : Block) (_fill : Nat) : Instr := .o0Block port b
/-- SLIP: the fill is that of the elastic buffer in State (R122). -/
def Instr.slip (port : Fin 128) (_fill : Nat) : Instr := .ebSlip port
/-- TP_CHECKER_BLOCK: the block is the one in the slot the checker names (R151). -/
def Instr.tpCheckerBlock (m : Fin 64) (_b : Block) : Instr := .tpCheckBlock m
/-- PATH_MARKER_DETECT: the block is the one in the group's slot store (R203). -/
def Instr.pathMarkerDetect (g : Fin 2048) (prot : Bool) (_b : Block) : Instr := .pathMarkerJudge g prot
/-- HEARTBEAT_RECEIVE on a lane in lock (R219). -/
def Instr.heartbeatReceive (lane : Fin 2) (b : Block) (comp : Nat) : Instr := .heartbeatTake lane b comp true
/-- MIRROR_RECORD_RECEIVE of a record stamped at time zero (R219). -/
def Instr.mirrorRecordReceive (m : MirrorRec) : Instr := .mirrorRecordTake { mfc := 0, fi := 0, bi := 0 } m
/-- RESYNC_DONE: the phases' times are held in State (R232). -/
def Instr.resyncDone (_ms : List Nat) : Instr := .resyncEnd
/-- UV_RELEASE of the undervoltage comparator (R246). -/
def Instr.uvRelease : Instr := .uvReleased false

end Sys2Proof

namespace Sys2Proof.Machine

open Sys2Proof

/-- The meaning of `Instr.mapWrite`. -/
def execMapWrite (r : Req) (hits : List Nat) (s : State) : Host.Outcome State Fault Refusal :=
  execMapWritePart r hits 10240 s
/-- The meaning of `Instr.mapCopy`. -/
def execMapCopy (r : Req) (hits : List Nat) (s : State) : Host.Outcome State Fault Refusal :=
  execMapCopyPart r hits 10240 s
/-- The meaning of `Instr.mapClear`. -/
def execMapClear (r : Req) (hits : List Nat) (s : State) : Host.Outcome State Fault Refusal :=
  execMapClearPart r hits 10240 s
/-- The meaning of `Instr.hMapWrite`. -/
def execHMapWrite (r : Req) (hits : List Nat) (s : State) : Host.Outcome State Fault Refusal :=
  execHMapWritePart r hits 10240 s
/-- The meaning of `Instr.stageRevert`. -/
def execStageRevert (r : Req) (hits : List Nat) (s : State) : Host.Outcome State Fault Refusal :=
  execStageRevertPart r hits 10240 s
/-- The meaning of `Instr.fpPulse`. -/
def execFpPulse (input : Fin 3) (_err : Int) (s : State) : Host.Outcome State Fault Refusal := execFpEdge input s
/-- The meaning of `Instr.fpRealignStep`. -/
def execFpRealignStep (_wait : Nat) (s : State) : Host.Outcome State Fault Refusal := execFpRealignAct s
/-- The meaning of `Instr.o0Receive`. -/
def execO0Receive (port : Fin 128) (b : Block) (_fill : Nat) (s : State) : Host.Outcome State Fault Refusal :=
  execO0Block port b s
/-- The meaning of `Instr.slip`. -/
def execSlip (port : Fin 128) (_fill : Nat) (s : State) : Host.Outcome State Fault Refusal := execEbSlip port s
/-- The meaning of `Instr.tpCheckerBlock`. -/
def execTpCheckerBlock (m : Fin 64) (_b : Block) (s : State) : Host.Outcome State Fault Refusal :=
  execTpCheckBlock m s
/-- The meaning of `Instr.pathMarkerDetect`. -/
def execPathMarkerDetect (g : Fin 2048) (prot : Bool) (_b : Block) (s : State) :
    Host.Outcome State Fault Refusal := execPathMarkerJudge g prot s
/-- The meaning of `Instr.heartbeatReceive`. -/
def execHeartbeatReceive (lane : Fin 2) (b : Block) (comp : Nat) (s : State) : Host.Outcome State Fault Refusal :=
  execHeartbeatTake lane b comp true s
/-- The meaning of `Instr.mirrorRecordReceive`. -/
def execMirrorRecordReceive (m : MirrorRec) (s : State) : Host.Outcome State Fault Refusal :=
  execMirrorRecordTake { mfc := 0, fi := 0, bi := 0 } m s
/-- The meaning of `Instr.resyncDone`. -/
def execResyncDone (_ms : List Nat) (s : State) : Host.Outcome State Fault Refusal := execResyncEnd s
/-- The meaning of `Instr.uvRelease`. -/
def execUvRelease (s : State) : Host.Outcome State Fault Refusal := execUvReleased false s

end Sys2Proof.Machine
end

