-- ==== Sys2Proof/Machine/TimingCmd.lean ====
section
/-! DEFINITION. The timing family of commands (Tables 14-2 and 14-3; R306 to R311). -/

namespace Sys2Proof.Machine

open Sys2Proof

/-- Sign-magnitude range of a 4-byte signed field. -/
def pkS (p : Bytes) (lo m : Nat) : Bool := inS m (word (pkNat p lo 4))

/-! THY_CAND_WRITE (R307). -/

/-- Byte 3 without its reserved bits: frequency, electrical form, QL_MODE. -/
def candFlags (p : Bytes) : Byte := p.getD 3 0
/-- Fields that candidate c does not use are 0, and those it uses lie in range. -/
def candArgsOk (p : Bytes) : Bool :=
  let c := pk1 p 0
  let f := candFlags p
  let fq := bits (p.getD 4 0) 3 0
  let lane := pk1 p 2 == 0
  let noQl := !bit f 4 && fq == 0
  let noEl := bits f 3 0 == 0
  let noTm := pkNat p 6 2 == 0 && pkNat p 8 2 == 0
  decide (c ≤ 13) && decide (pk1 p 1 ≤ 15) && inR 0 600 (pkNat p 6 2) && inR 0 840 (pkNat p 8 2)
    && (if c < 8 then decide (pk1 p 2 ≤ 127) && noEl && (if bit f 4 then qlCode fq else fq == 0)
        else if c < 12 then lane && noQl && inR 0 6 (bits f 2 0)
        else lane && noQl && noEl && noTm)
/-- The registers it stages (Table 18-13). -/
def candWords (p : Bytes) : List (Nat × Nat) :=
  let f := candFlags p
  [(aCandCfg (pk1 p 0), fld (pk1 p 1) 4 0 + fld (pk1 p 2) 7 8 + fld (bits f 2 0) 3 16 + at1 (bit f 3) 19 + at1 (bit f 4) 20
      + fld (bits (p.getD 4 0) 3 0) 4 24),
   (aCandTmr (pk1 p 0), fld (pkNat p 6 2) 10 0 + fld (pkNat p 8 2) 10 16)]
/-- THY_CAND_WRITE. -/
def xThyCandWrite (q : Run) (s : State) : State :=
  let p := q.req.params
  if !candArgsOk p then badRange s else staging 8 s (fun t => replyOk (stageList t (candWords p)) [])
def execThyCandWrite (r : Req) (s : State) : Host.Outcome State Fault Refusal :=
  .next (live s (runOnce 0x0501 r xThyCandWrite s))

/-! THY_CFG_WRITE. -/

/-- THY_CFG_WRITE's fields in range (Table 14-3). -/
def thyArgsOk (p : Bytes) : Bool :=
  let b2 := p.getD 2 0
  let b6 := p.getD 6 0
  inR 0 2 (bits (p.getD 0 0) 4 3) && inR 0 127 (pk1 p 1) && inR 0 13 (bits b2 3 0) && inR 0 13 (bits b2 7 4)
    && inR 2 100 (pk1 p 3) && inR 16 4096 (pkNat p 4 2) && qlCode (bits b6 3 0) && qlCode (bits b6 7 4)
    && inR 1 100 (pk1 p 7) && inR 8 4096 (pkNat p 8 2) && pkS p 10 65535 && pkS p 14 65535 && pkS p 18 65535
    && inR 16 2048 (pkNat p 22 2) && inR 4 600 (pkNat p 24 2) && inR 1 2000 (pkNat p 26 2)
    && inR 1 4000 (pkNat p 28 2) && inR 1 500 (pkNat p 30 2) && inR 1 10000 (pkNat p 32 2)
    && inR 10 10000000 (pkNat p 34 4)
/-- The registers it stages (Table 18-13). -/
def thyWords (p : Bytes) : List (Nat × Nat) :=
  let b0 := p.getD 0 0
  let b2 := p.getD 2 0
  let b6 := p.getD 6 0
  [(aThyCfg0, bits b0 5 0 + fld (pk1 p 1) 7 8 + fld (bits b2 3 0) 4 16 + fld (bits b2 7 4) 4 20 + fld (bits b6 3 0) 4 24
      + fld (bits b6 7 4) 4 28),
   (aThyCfg1, fld (pk1 p 3) 7 0 + fld (pk1 p 7) 7 8 + fld (pkNat p 4 2) 13 16),
   (aThyFp, fld (pkNat p 8 2) 13 0), (aThy + 0x01C, pkNat p 10 4), (aThy + 0x020, pkNat p 14 4),
   (aThy + 0x024, pkNat p 18 4), (aHoCfg, fld (pkNat p 22 2) 12 0 + fld (pkNat p 24 2) 10 16),
   (aHbCfg0, fld (pkNat p 26 2) 11 0 + fld (pkNat p 28 2) 12 16),
   (aHbCfg1, fld (pkNat p 30 2) 9 0 + fld (pkNat p 32 2) 14 16), (aHbLimit, fld (pkNat p 34 4) 24 0)]
/-- THY_CFG_WRITE. -/
def xThyCfgWrite (q : Run) (s : State) : State :=
  let p := q.req.params
  if !thyArgsOk p then badRange s else staging 8 s (fun t => replyOk (stageList t (thyWords p)) [])
def execThyCfgWrite (r : Req) (s : State) : Host.Outcome State Fault Refusal :=
  .next (live s (runOnce 0x0502 r xThyCfgWrite s))

/-! THY_OUT_WRITE. -/

/-- THY_OUT_WRITE's fields in range (Table 14-3). -/
def outArgsOk (p : Bytes) : Bool :=
  let o := pk1 p 0
  let f := bits (p.getD 1 0) 2 0
  decide (o ≤ 5) && (if o < 4 then decide (f ≤ 6) && pkNat p 4 4 == 0 else decide (f ≤ 1) && pkS p 4 5240575)
/-- THY_OUT_WRITE. -/
def xThyOutWrite (q : Run) (s : State) : State :=
  let p := q.req.params
  if !outArgsOk p then badRange s
  else staging 8 s (fun t =>
    replyOk (stageList t [(aOutCfg (pk1 p 0), bits (p.getD 1 0) 4 0), (aOutCfg (pk1 p 0) + 4, pkNat p 4 4)]) [])
def execThyOutWrite (r : Req) (s : State) : Host.Outcome State Fault Refusal :=
  .next (live s (runOnce 0x0503 r xThyOutWrite s))

/-! THY_CFG_READ. -/

/-- The THY_CFG_WRITE layout of a view. -/
def thyLayout (v : View) : Bytes :=
  let c0 := v aThyCfg0
  [by1 (bits c0 5 0), by1 (bits c0 14 8), by1 (bits c0 23 16), by1 (tLockWindow v)] ++ beBytes 2 (tLockTime v)
    ++ [by1 (bits c0 31 24), by1 (tFreqLimit v)] ++ beBytes 2 (tFpWindow v) ++ wordBytes (v (aThy + 0x01C))
    ++ wordBytes (v (aThy + 0x020)) ++ wordBytes (v (aThy + 0x024)) ++ beBytes 2 (bits (v aHoCfg) 11 0)
    ++ beBytes 2 (bits (v aHoCfg) 25 16) ++ beBytes 2 (bits (v aHbCfg0) 10 0) ++ beBytes 2 (bits (v aHbCfg0) 27 16)
    ++ beBytes 2 (bits (v aHbCfg1) 8 0) ++ beBytes 2 (bits (v aHbCfg1) 29 16) ++ beBytes 4 (bits (v aHbLimit) 23 0)
    ++ zeros 2
/-- The THY_CAND_WRITE layout of a view. -/
def candLayout (v : View) (c : Nat) : Bytes :=
  [by1 c, by1 (cPrio v c), by1 (cLane v c), by1 (cFreq v c + at1 (cElec v c) 3 + at1 (cQlMode v c) 4), by1 (cFixedQl v c), 0]
    ++ beBytes 2 (cHoldoff v c) ++ beBytes 2 (cWtr v c) ++ zeros 2
/-- The THY_OUT_WRITE layout of a view. -/
def outLayout (v : View) (o : Nat) : Bytes :=
  [by1 o, by1 (bits (v (aOutCfg o)) 4 0), 0, 0] ++ wordBytes (v (aOutCfg o + 4))
/-- THY_CFG_READ. -/
def xThyCfgRead (q : Run) (s : State) : State :=
  let p := q.req.params
  let v := viewSel s (pk1 p 0)
  let k := pk1 p 1
  let i := pk1 p 2
  if 1 < pk1 p 0 ∨ 2 < k ∨ (k = 0 ∧ i ≠ 0) ∨ (k = 1 ∧ 13 < i) ∨ (k = 2 ∧ 5 < i) then badRange s
  else replyOk s ([by1 k, by1 i] ++ (if k = 0 then thyLayout v else if k = 1 then candLayout v i else outLayout v i))
def execThyCfgRead (r : Req) (s : State) : Host.Outcome State Fault Refusal :=
  .next (live s (runOnce 0x0504 r xThyCfgRead s))

/-! THY_STATUS. -/

/-- One candidate record. -/
def candRec (s : State) (c : Nat) : Bytes :=
  [by1 (candBits s c), by1 (candQl s c)] ++ beBytes 2 (mfsOf (candOf s c).hold) ++ beBytes 4 (mfsOf (candOf s c).wtr)
/-- THY_STATUS (Table 14-3). -/
def xThyStatus (_ : Run) (s : State) : State :=
  let t := s.thy
  replyOk s ([by1 (thyCode t.st + at1 t.refFault 3 + at1 t.allDnu 4 + at1 t.mfcValid 5 + at1 t.mfcMism 6 + at1 t.flywheel 7),
      by1 (t.ref.getD 0xF + 16 * fpCode s), by1 t.bwEff.toNat, by1 (bits (hist s hThy) 6 0)] ++ wordBytes t.pbo
    ++ beBytes 6 t.ctl.toNat ++ [by1 (at1 t.hoReady 0 + at1 (hbEarly s) 1), 0] ++ beBytes 6 t.hoFreq.toNat
    ++ beBytes 2 t.hoCount ++ beBytes 6 t.hoEnd.toNat ++ beBytes 4 (hbAccumNs s) ++ beBytes 4 t.hbRemain
    ++ beBytes 2 t.days ++ beBytes 2 t.temp.toNat ++ zeros 4 ++ (List.range 14).flatMap (candRec s))
def execThyStatus (r : Req) (s : State) : Host.Outcome State Fault Refusal :=
  .next (live s (runOnce 0x0505 r xThyStatus s))

/-! SET_QL, THYME_FORCE (R308). -/

/-- SET_QL: recorded at the first frame boundary after completion, for its REFIN enabled or not. -/
def xSetQl (q : Run) (s : State) : State :=
  let p := q.req.params
  let c := bits (p.getD 1 0) 3 0
  if 3 < pk1 p 0 ∨ !qlCode c then badRange s else replyEnd s (.ql (pk1 p 0) (BitVec.ofNat 4 c))
def execSetQl (r : Req) (s : State) : Host.Outcome State Fault Refusal := .next (live s (runOnce 0x0506 r xSetQl s))

/-- THYME_FORCE: acts at the first frame boundary after completion. -/
def xThymeForce (q : Run) (s : State) : State :=
  let c := pk1 q.req.params 0
  if 11 < c ∧ c ≠ 0xFF then badRange s else replyEnd s (.force (if c = 0xFF then none else some c))
def execThymeForce (r : Req) (s : State) : Host.Outcome State Fault Refusal :=
  .next (live s (runOnce 0x0507 r xThymeForce s))

/-! SET_MFC, MFC_RELEARN (R309): the later one replaces the earlier. -/

/-- The count is set or learnt again at the first epoch boundary after completion. -/
def pendMfcAt (s : State) (o : Option Nat) : State := replyEnd s (.mfc o)
/-- SET_MFC: MFC_MODE is NONE. -/
def xSetMfc (q : Run) (s : State) : State :=
  if tMfcMode (actv s) then deniedState s else pendMfcAt s (some (pkNat q.req.params 0 6))
def execSetMfc (r : Req) (s : State) : Host.Outcome State Fault Refusal := .next (live s (runOnce 0x0508 r xSetMfc s))
/-- MFC_RELEARN: MFC_MODE is PORT. -/
def xMfcRelearn (_ : Run) (s : State) : State :=
  if tMfcMode (actv s) then pendMfcAt s none else deniedState s
def execMfcRelearn (r : Req) (s : State) : Host.Outcome State Fault Refusal :=
  .next (live s (runOnce 0x0509 r xMfcRelearn s))

/-- FP_REALIGN (R310): FRAME_SRC is not 0 and a reference instant exists. -/
def xFpRealign (_ : Run) (s : State) : State :=
  if tFrameSrc (actv s) = 0 ∨ (realignInput s).isNone then deniedState s else replyEnd s .realign
def execFpRealign (r : Req) (s : State) : Host.Outcome State Fault Refusal :=
  .next (live s (runOnce 0x050A r xFpRealign s))

/-- THYME_HISTORY_READ (R311): newest first; an empty entry as R79 states. -/
def xThymeHistoryRead (q : Run) (s : State) : State :=
  let a := pkNat q.req.params 0 2
  let n := pkNat q.req.params 2 2
  if 4095 < a ∨ n = 0 ∨ 80 < n ∨ 4096 < a + n then badRange s
  else replyOk s (beBytes 2 a ++ beBytes 2 n ++ (rangeFrom a n).flatMap (fun i => histBytes (s.thy.hist.getD i {})))
def execThymeHistoryRead (r : Req) (s : State) : Host.Outcome State Fault Refusal :=
  .next (live s (runOnce 0x050B r xThymeHistoryRead s))

end Sys2Proof.Machine
end

