-- ==== Sys2Proof/Machine/Dispatch.lean ====
section
/-! DEFINITION. The machine's dispatch: one arm for each row of spec/opcode_table.json, in the table's order. -/

namespace Sys2Proof.Machine

open Sys2Proof

/-- The effect of one command or event on everything but the queue of waiting commands. -/
def exec (i : Instr) (s : State) : Host.Outcome State Fault Refusal :=
  match i with
  | .devInfo r => Sys2Proof.Machine.execDevInfo r s
  | .keyWrite r flashOk => Sys2Proof.Machine.execKeyWrite r flashOk s
  | .keyInfo r => Sys2Proof.Machine.execKeyInfo r s
  | .groupMemberSet r flashOk => Sys2Proof.Machine.execGroupMemberSet r flashOk s
  | .groupMemberGet r => Sys2Proof.Machine.execGroupMemberGet r s
  | .routeSet r flashOk => Sys2Proof.Machine.execRouteSet r flashOk s
  | .routeGet r => Sys2Proof.Machine.execRouteGet r s
  | .relayPortsSet r flashOk => Sys2Proof.Machine.execRelayPortsSet r flashOk s
  | .cfgSave r flashOk => Sys2Proof.Machine.execCfgSave r flashOk s
  | .cfgInfo r => Sys2Proof.Machine.execCfgInfo r s
  | .devReset r => Sys2Proof.Machine.execDevReset r s
  | .mapWritePart r hits part => Sys2Proof.Machine.execMapWritePart r hits part s
  | .mapRead r => Sys2Proof.Machine.execMapRead r s
  | .mapCopyPart r hits part => Sys2Proof.Machine.execMapCopyPart r hits part s
  | .mapClearPart r hits part => Sys2Proof.Machine.execMapClearPart r hits part s
  | .smiWrite r => Sys2Proof.Machine.execSmiWrite r s
  | .mapStatus r => Sys2Proof.Machine.execMapStatus r s
  | .hMapRead r => Sys2Proof.Machine.execHMapRead r s
  | .hMapWritePart r hits part => Sys2Proof.Machine.execHMapWritePart r hits part s
  | .hSlotStats r => Sys2Proof.Machine.execHSlotStats r s
  | .grpWrite r => Sys2Proof.Machine.execGrpWrite r s
  | .grpRead r => Sys2Proof.Machine.execGrpRead r s
  | .protRequest r => Sys2Proof.Machine.execProtRequest r s
  | .protGrpStatus r => Sys2Proof.Machine.execProtGrpStatus r s
  | .protEqRealign r => Sys2Proof.Machine.execProtEqRealign r s
  | .portCfgWrite r => Sys2Proof.Machine.execPortCfgWrite r s
  | .portCfgRead r => Sys2Proof.Machine.execPortCfgRead r s
  | .portAdaptWrite r => Sys2Proof.Machine.execPortAdaptWrite r s
  | .portSerdesWrite r => Sys2Proof.Machine.execPortSerdesWrite r s
  | .portStatus r => Sys2Proof.Machine.execPortStatus r s
  | .portSnapshot r => Sys2Proof.Machine.execPortSnapshot r s
  | .portSnapRead r => Sys2Proof.Machine.execPortSnapRead r s
  | .tpChkWrite r => Sys2Proof.Machine.execTpChkWrite r s
  | .tpChkRead r => Sys2Proof.Machine.execTpChkRead r s
  | .commit r => Sys2Proof.Machine.execCommit r s
  | .commitCancel r => Sys2Proof.Machine.execCommitCancel r s
  | .commitList r => Sys2Proof.Machine.execCommitList r s
  | .stageRevertPart r hits part => Sys2Proof.Machine.execStageRevertPart r hits part s
  | .stageAccept r => Sys2Proof.Machine.execStageAccept r s
  | .sfpRead r => Sys2Proof.Machine.execSfpRead r s
  | .thyCandWrite r => Sys2Proof.Machine.execThyCandWrite r s
  | .thyCfgWrite r => Sys2Proof.Machine.execThyCfgWrite r s
  | .thyOutWrite r => Sys2Proof.Machine.execThyOutWrite r s
  | .thyCfgRead r => Sys2Proof.Machine.execThyCfgRead r s
  | .thyStatus r => Sys2Proof.Machine.execThyStatus r s
  | .setQl r => Sys2Proof.Machine.execSetQl r s
  | .thymeForce r => Sys2Proof.Machine.execThymeForce r s
  | .setMfc r => Sys2Proof.Machine.execSetMfc r s
  | .mfcRelearn r => Sys2Proof.Machine.execMfcRelearn r s
  | .fpRealign r => Sys2Proof.Machine.execFpRealign r s
  | .thymeHistoryRead r => Sys2Proof.Machine.execThymeHistoryRead r s
  | .pairStatus r => Sys2Proof.Machine.execPairStatus r s
  | .pairCfgWrite r => Sys2Proof.Machine.execPairCfgWrite r s
  | .pairCfgRead r => Sys2Proof.Machine.execPairCfgRead r s
  | .pairResync r => Sys2Proof.Machine.execPairResync r s
  | .pairSwap r => Sys2Proof.Machine.execPairSwap r s
  | .pairForceActive r => Sys2Proof.Machine.execPairForceActive r s
  | .ctrRead r => Sys2Proof.Machine.execCtrRead r s
  | .pctrWrite r => Sys2Proof.Machine.execPctrWrite r s
  | .pctrRead r => Sys2Proof.Machine.execPctrRead r s
  | .latlogRead r => Sys2Proof.Machine.execLatlogRead r s
  | .traceRead r => Sys2Proof.Machine.execTraceRead r s
  | .bwCfgWrite r => Sys2Proof.Machine.execBwCfgWrite r s
  | .bwRead r => Sys2Proof.Machine.execBwRead r s
  | .traceCfgWrite r => Sys2Proof.Machine.execTraceCfgWrite r s
  | .evtCfgWrite r => Sys2Proof.Machine.execEvtCfgWrite r s
  | .obsCfgRead r => Sys2Proof.Machine.execObsCfgRead r s
  | .memRead r => Sys2Proof.Machine.execMemRead r s
  | .memWrite r collides => Sys2Proof.Machine.execMemWrite r collides s
  | .memPower r => Sys2Proof.Machine.execMemPower r s
  | .memStatus r => Sys2Proof.Machine.execMemStatus r s
  | .fwInfo r => Sys2Proof.Machine.execFwInfo r s
  | .fwLoad r flashOk => Sys2Proof.Machine.execFwLoad r flashOk s
  | .fwUpdate r flashOk => Sys2Proof.Machine.execFwUpdate r flashOk s
  | .selfTest r found => Sys2Proof.Machine.execSelfTest r found s
  | .regRead r => Sys2Proof.Machine.execRegRead r s
  | .regRead64 r => Sys2Proof.Machine.execRegRead64 r s
  | .regWrite r => Sys2Proof.Machine.execRegWrite r s
  | .regWriteWait r => Sys2Proof.Machine.execRegWriteWait r s
  | .regGuardedWrite r => Sys2Proof.Machine.execRegGuardedWrite r s
  | .feedRead r => Sys2Proof.Machine.execFeedRead r s
  | .feedSelect r => Sys2Proof.Machine.execFeedSelect r s
  | .pktWrite len bytes => Sys2Proof.Machine.execPktWrite len bytes s
  | .pktRead => Sys2Proof.Machine.execPktRead s
  | .statusRead => Sys2Proof.Machine.execStatusRead s
  | .idcode => Sys2Proof.Machine.execIdcode s
  | .samplePreload levels => Sys2Proof.Machine.execSamplePreload levels s
  | .bypass code => Sys2Proof.Machine.execBypass code s
  | .tapReset => Sys2Proof.Machine.execTapReset s
  | .registerWrite m addr v => Sys2Proof.Machine.execRegisterWrite m addr v s
  | .sfpCapPosRead m => Sys2Proof.Machine.execSfpCapPosRead m s
  | .mapHighWordWrite m addr v => Sys2Proof.Machine.execMapHighWordWrite m addr v s
  | .mapLowWordWrite m addr v collide => Sys2Proof.Machine.execMapLowWordWrite m addr v collide s
  | .mapHighWordRead m addr => Sys2Proof.Machine.execMapHighWordRead m addr s
  | .postedWrite m addr v => Sys2Proof.Machine.execPostedWrite m addr v s
  | .postedWriteComplete b => Sys2Proof.Machine.execPostedWriteComplete b s
  | .blkStatWrite m b v => Sys2Proof.Machine.execBlkStatWrite m b v s
  | .guardPairOpen m addr v => Sys2Proof.Machine.execGuardPairOpen m addr v s
  | .guardTimeout addr => Sys2Proof.Machine.execGuardTimeout addr s
  | .guardOrphan m addr v => Sys2Proof.Machine.execGuardOrphan m addr v s
  | .remap m compl => Sys2Proof.Machine.execRemap m compl s
  | .seqRst m compl => Sys2Proof.Machine.execSeqRst m compl s
  | .flashWe m compl => Sys2Proof.Machine.execFlashWe m compl s
  | .keyWe m compl => Sys2Proof.Machine.execKeyWe m compl s
  | .bscanUnlock m compl => Sys2Proof.Machine.execBscanUnlock m compl s
  | .pairCtlSwap m compl => Sys2Proof.Machine.execPairCtlSwap m compl s
  | .pairCtlCancel m compl => Sys2Proof.Machine.execPairCtlCancel m compl s
  | .pairCtlForceActive m compl => Sys2Proof.Machine.execPairCtlForceActive m compl s
  | .feedSelectTarget m compl => Sys2Proof.Machine.execFeedSelectTarget m compl s
  | .mdioStart m v => Sys2Proof.Machine.execMdioStart m v s
  | .mdioDone rd => Sys2Proof.Machine.execMdioDone rd s
  | .mgmtSnapArm m v => Sys2Proof.Machine.execMgmtSnapArm m v s
  | .matrixAged m target => Sys2Proof.Machine.execMatrixAged m target s
  | .powerUp feedB both => Sys2Proof.Machine.execPowerUp feedB both s
  | .powerDown => Sys2Proof.Machine.execPowerDown s
  | .feedUvCross => Sys2Proof.Machine.execFeedUvCross s
  | .feedGlitch => Sys2Proof.Machine.execFeedGlitch s
  | .feedUvDeclare => Sys2Proof.Machine.execFeedUvDeclare s
  | .feedOvDeclare => Sys2Proof.Machine.execFeedOvDeclare s
  | .feedFailoverComplete => Sys2Proof.Machine.execFeedFailoverComplete s
  | .feedGood feedB => Sys2Proof.Machine.execFeedGood feedB s
  | .feedNotGood feedB ov => Sys2Proof.Machine.execFeedNotGood feedB ov s
  | .ovTrip feedB => Sys2Proof.Machine.execOvTrip feedB s
  | .bulkUndervoltage => Sys2Proof.Machine.execBulkUndervoltage s
  | .overcurrentTrip => Sys2Proof.Machine.execOvercurrentTrip s
  | .feedLatchRelease => Sys2Proof.Machine.execFeedLatchRelease s
  | .feedSwitchResult => Sys2Proof.Machine.execFeedSwitchResult s
  | .feedSwitchTimeout => Sys2Proof.Machine.execFeedSwitchTimeout s
  | .resetNAssert => Sys2Proof.Machine.execResetNAssert s
  | .blockClockLoss => Sys2Proof.Machine.execBlockClockLoss s
  | .bootRomParityError => Sys2Proof.Machine.execBootRomParityError s
  | .devResetEffect => Sys2Proof.Machine.execDevResetEffect s
  | .resetSequenceEnd devid twinPos => Sys2Proof.Machine.execResetSequenceEnd devid twinPos s
  | .dieRelease found => Sys2Proof.Machine.execDieRelease found s
  | .ready => Sys2Proof.Machine.execReady s
  | .seqException cause => Sys2Proof.Machine.execSeqException cause s
  | .seqWdtExpire => Sys2Proof.Machine.execSeqWdtExpire s
  | .sequencerRestart => Sys2Proof.Machine.execSequencerRestart s
  | .frameBoundary k => Sys2Proof.Machine.execFrameBoundary k s
  | .epochBoundary temp => Sys2Proof.Machine.execEpochBoundary temp s
  | .candidateHoldoffExpire c => Sys2Proof.Machine.execCandidateHoldoffExpire c s
  | .candidateWtrExpire c => Sys2Proof.Machine.execCandidateWtrExpire c s
  | .candidateQualified c => Sys2Proof.Machine.execCandidateQualified c s
  | .freqMeasurement ppb => Sys2Proof.Machine.execFreqMeasurement ppb s
  | .dpllLock => Sys2Proof.Machine.execDpllLock s
  | .refSwitch offset => Sys2Proof.Machine.execRefSwitch offset s
  | .esmcPduReceive port frame => Sys2Proof.Machine.execEsmcPduReceive port frame s
  | .esmcTimeout port => Sys2Proof.Machine.execEsmcTimeout port s
  | .fpEdge input => Sys2Proof.Machine.execFpEdge input s
  | .fpMiss input => Sys2Proof.Machine.execFpMiss input s
  | .mfcLearn => Sys2Proof.Machine.execMfcLearn s
  | .historySample freq spread temp => Sys2Proof.Machine.execHistorySample freq spread temp s
  | .holdoverExpire => Sys2Proof.Machine.execHoldoverExpire s
  | .ocxoDay flashOk => Sys2Proof.Machine.execOcxoDay flashOk s
  | .setQlAct => Sys2Proof.Machine.execSetQlAct s
  | .thymeForceAct => Sys2Proof.Machine.execThymeForceAct s
  | .setMfcAct => Sys2Proof.Machine.execSetMfcAct s
  | .mfcRelearnAct => Sys2Proof.Machine.execMfcRelearnAct s
  | .fpRealignAct => Sys2Proof.Machine.execFpRealignAct s
  | .commitArm => Sys2Proof.Machine.execCommitArm s
  | .commitValidationDone => Sys2Proof.Machine.execCommitValidationDone s
  | .commitStrobe => Sys2Proof.Machine.execCommitStrobe s
  | .commitReport => Sys2Proof.Machine.execCommitReport s
  | .o0Block port b => Sys2Proof.Machine.execO0Block port b s
  | .o1Receive port b => Sys2Proof.Machine.execO1Receive port b s
  | .apsReceive port o3 b => Sys2Proof.Machine.execApsReceive port o3 b s
  | .mgmtChunkReceive port o4 o7 => Sys2Proof.Machine.execMgmtChunkReceive port o4 o7 s
  | .o7Receive port o4 o7 => Sys2Proof.Machine.execO7Receive port o4 o7 s
  | .ebSlip port => Sys2Proof.Machine.execEbSlip port s
  | .slipClear port => Sys2Proof.Machine.execSlipClear port s
  | .losDeclare port => Sys2Proof.Machine.execLosDeclare port s
  | .losClear port => Sys2Proof.Machine.execLosClear port s
  | .lolDeclare port => Sys2Proof.Machine.execLolDeclare port s
  | .lolClear port => Sys2Proof.Machine.execLolClear port s
  | .fecFailDeclare port codewords => Sys2Proof.Machine.execFecFailDeclare port codewords s
  | .fecFailClear port => Sys2Proof.Machine.execFecFailClear port s
  | .fecDegDeclare port symbols => Sys2Proof.Machine.execFecDegDeclare port symbols s
  | .fecDegClear port => Sys2Proof.Machine.execFecDegClear port s
  | .adaptBlockWrite port b => Sys2Proof.Machine.execAdaptBlockWrite port b s
  | .adaptBlockRead port => Sys2Proof.Machine.execAdaptBlockRead port s
  | .adPpmReport port => Sys2Proof.Machine.execAdPpmReport port s
  | .monFrameReceive port f => Sys2Proof.Machine.execMonFrameReceive port f s
  | .orderedSetReceive port remote gap => Sys2Proof.Machine.execOrderedSetReceive port remote gap s
  | .lfClear port remote => Sys2Proof.Machine.execLfClear port remote s
  | .portSnapshotLatch => Sys2Proof.Machine.execPortSnapshotLatch s
  | .tpCheckBlock m => Sys2Proof.Machine.execTpCheckBlock m s
  | .calendarCycle arrived parityBad => Sys2Proof.Machine.execCalendarCycle arrived parityBad s
  | .mapScrub bankB smi idx found => Sys2Proof.Machine.execMapScrub bankB smi idx found s
  | .mapScrubWriteback => Sys2Proof.Machine.execMapScrubWriteback s
  | .protHoldoffExpire g cond => Sys2Proof.Machine.execProtHoldoffExpire g cond s
  | .protWtrExpire g => Sys2Proof.Machine.execProtWtrExpire g s
  | .protRequestAct => Sys2Proof.Machine.execProtRequestAct s
  | .apsLoss g => Sys2Proof.Machine.execApsLoss g s
  | .fopNr g => Sys2Proof.Machine.execFopNr g s
  | .pathMarkerJudge g prot => Sys2Proof.Machine.execPathMarkerJudge g prot s
  | .pmLoss g prot => Sys2Proof.Machine.execPmLoss g prot s
  | .eqEngage g => Sys2Proof.Machine.execEqEngage g s
  | .errorlessSelectorChange g => Sys2Proof.Machine.execErrorlessSelectorChange g s
  | .heartbeatTake lane b comp locked => Sys2Proof.Machine.execHeartbeatTake lane b comp locked s
  | .chiveLaneDown lane => Sys2Proof.Machine.execChiveLaneDown lane s
  | .mirrorLost => Sys2Proof.Machine.execMirrorLost s
  | .aliveInChange level => Sys2Proof.Machine.execAliveInChange level s
  | .takeover => Sys2Proof.Machine.execTakeover s
  | .mirrorRecordTake at_ m => Sys2Proof.Machine.execMirrorRecordTake at_ m s
  | .mirrorAudit crcs => Sys2Proof.Machine.execMirrorAudit crcs s
  | .resyncEnd => Sys2Proof.Machine.execResyncEnd s
  | .pairSwapExecute => Sys2Proof.Machine.execPairSwapExecute s
  | .pairSwapAssume => Sys2Proof.Machine.execPairSwapAssume s
  | .pairSwapAbort => Sys2Proof.Machine.execPairSwapAbort s
  | .pairSwapRevert => Sys2Proof.Machine.execPairSwapRevert s
  | .txWatchEnd => Sys2Proof.Machine.execTxWatchEnd s
  | .arbitrationEnd => Sys2Proof.Machine.execArbitrationEnd s
  | .forceActiveAct => Sys2Proof.Machine.execForceActiveAct s
  | .autoRestoreStaged => Sys2Proof.Machine.execAutoRestoreStaged s
  | .autoRestoreStage2 => Sys2Proof.Machine.execAutoRestoreStage2 s
  | .autoRestoreStage2Timeout => Sys2Proof.Machine.execAutoRestoreStage2Timeout s
  | .vcpPacketReceive ret pkt => Sys2Proof.Machine.execVcpPacketReceive ret pkt s
  | .dispatchTick => Sys2Proof.Machine.execDispatchTick s
  | .relayEntryExpire k => Sys2Proof.Machine.execRelayEntryExpire k s
  | .dupMemoryExpire k => Sys2Proof.Machine.execDupMemoryExpire k s
  | .replyTransmit p => Sys2Proof.Machine.execReplyTransmit p s
  | .eventSend => Sys2Proof.Machine.execEventSend s
  | .channelPacketSend port => Sys2Proof.Machine.execChannelPacketSend port s
  | .protectionReport => Sys2Proof.Machine.execProtectionReport s
  | .traceRingWrite => Sys2Proof.Machine.execTraceRingWrite s
  | .sageTxFrame => Sys2Proof.Machine.execSageTxFrame s
  | .gatherSweeps => Sys2Proof.Machine.execGatherSweeps s
  | .gatherIncomplete block => Sys2Proof.Machine.execGatherIncomplete block s
  | .pctrOverflow n => Sys2Proof.Machine.execPctrOverflow n s
  | .bwWindowEnd port => Sys2Proof.Machine.execBwWindowEnd port s
  | .mgmtFrameReceive p f => Sys2Proof.Machine.execMgmtFrameReceive p f s
  | .mgLinkUp p mode speed halfDuplex => Sys2Proof.Machine.execMgLinkUp p mode speed halfDuplex s
  | .mgLinkDown p => Sys2Proof.Machine.execMgLinkDown p s
  | .modeSearchSwitch p => Sys2Proof.Machine.execModeSearchSwitch p s
  | .rateStepDown p => Sys2Proof.Machine.execRateStepDown p s
  | .rsRelinkExpire p => Sys2Proof.Machine.execRsRelinkExpire p s
  | .throttleRelease p => Sys2Proof.Machine.execThrottleRelease p s
  | .mgmtSnapshotLatch => Sys2Proof.Machine.execMgmtSnapshotLatch s
  | .memoryScrub memory addr found => Sys2Proof.Machine.execMemoryScrub memory addr found s
  | .memPowerTransitionDone memory bank => Sys2Proof.Machine.execMemPowerTransitionDone memory bank s
  | .gpioSwitchDrive => Sys2Proof.Machine.execGpioSwitchDrive s
  | .commandComplete => Sys2Proof.Machine.execCommandComplete s
  | .resetNRelease => Sys2Proof.Machine.execResetNRelease s
  | .uvReleased ov => Sys2Proof.Machine.execUvReleased ov s

end Sys2Proof.Machine
end

