-- ==== Sys2Proof/Machine/Tick.lean ====
section
/-! DEFINITION. The tick of the block clock: what a step does while no command waits (log 1). -/

namespace Sys2Proof.Machine

/-- The block clock runs from the release of the die until the next reset (R80, R450). -/
def clockRuns (s : State) : Bool :=
  match s.phase with
  | .off => false
  | .reset => false
  | .released => true
  | .booting => true
  | .ready => true
  | .stuck => true

/-- One block time: the SFP advances by one block (R80), and the pins hold what they showed at a frame boundary (R477). -/
def tick (s : State) : State := if clockRuns s then { pinsLeave s with sfp := sfpNext s.sfp } else s

end Sys2Proof.Machine
end

