-- ==== Sys2Proof/Safety.lean ====
section
/-! DEFINITION. What counts as a safe state and a safe step, in the terms the statements use: invariants, a command in
execution and its reply, counters stepped, records written, what a command leaves unchanged. -/

namespace Sys2Proof.Machine

open Sys2Proof

/-! Invariants. -/

/-- The slot frame position lies in its ranges (Table 00-2). -/
abbrev SfpInv (s : State) : Prop := sfpOk s.sfp = true

/-- The memories of bytes stand in their canonical form: rising offsets, and no scratchpad byte outside its 256 KiB or
that reads as an unlisted one. In a bank of undefined content, where an unlisted byte is free, every written byte is
listed. -/
def Memory.wf (m : MemSt) : Bool :=
  tsorted m.bytes && m.bytes.all (fun kv => decide (kv.1 < 0x40000) &&
    (kv.2 != 0 || (tfind m.junk (kv.1 / 32768)).isSome)) && tsorted m.ram

/-- Both banks of the connection map, and the one a saved configuration keeps, stand in their canonical form. -/
abbrev MapInv (s : State) : Prop :=
  twf (fun _ => (0 : Entry)) s.map.a = true ∧ twf (fun _ => (0 : Entry)) s.map.b = true ∧
  s.flash.cfg.all (fun c => twf (fun _ => (0 : Entry)) c.bank) = true

/-! VCP commands. -/

/-- OPCODE of the command a row carries (Tables 13-2 to 13-11 and 14-2 to 14-15). -/
def opcodeOf : Instr → Option (BitVec 16)
  | .devInfo _ => some 0x0101
  | .keyWrite _ _ => some 0x0102
  | .keyInfo _ => some 0x0103
  | .groupMemberSet _ _ => some 0x0104
  | .groupMemberGet _ => some 0x0105
  | .routeSet _ _ => some 0x0106
  | .routeGet _ => some 0x0107
  | .relayPortsSet _ _ => some 0x0108
  | .cfgSave _ _ => some 0x0109
  | .cfgInfo _ => some 0x010A
  | .devReset _ => some 0x010B
  | .mapWritePart _ _ _ => some 0x0301
  | .mapRead _ => some 0x0302
  | .mapCopyPart _ _ _ => some 0x0303
  | .mapClearPart _ _ _ => some 0x0304
  | .smiWrite _ => some 0x0305
  | .mapStatus _ => some 0x0306
  | .hMapRead _ => some 0x0380
  | .hMapWritePart _ _ _ => some 0x0381
  | .hSlotStats _ => some 0x0382
  | .grpWrite _ => some 0x0401
  | .grpRead _ => some 0x0402
  | .protRequest _ => some 0x0403
  | .protGrpStatus _ => some 0x0404
  | .protEqRealign _ => some 0x0405
  | .portCfgWrite _ => some 0x0601
  | .portCfgRead _ => some 0x0602
  | .portAdaptWrite _ => some 0x0603
  | .portSerdesWrite _ => some 0x0604
  | .portStatus _ => some 0x0605
  | .portSnapshot _ => some 0x0606
  | .portSnapRead _ => some 0x0607
  | .tpChkWrite _ => some 0x0608
  | .tpChkRead _ => some 0x0609
  | .commit _ => some 0x0B01
  | .commitCancel _ => some 0x0B02
  | .commitList _ => some 0x0B03
  | .stageRevertPart _ _ _ => some 0x0B04
  | .stageAccept _ => some 0x0B05
  | .sfpRead _ => some 0x0B06
  | .thyCandWrite _ => some 0x0501
  | .thyCfgWrite _ => some 0x0502
  | .thyOutWrite _ => some 0x0503
  | .thyCfgRead _ => some 0x0504
  | .thyStatus _ => some 0x0505
  | .setQl _ => some 0x0506
  | .thymeForce _ => some 0x0507
  | .setMfc _ => some 0x0508
  | .mfcRelearn _ => some 0x0509
  | .fpRealign _ => some 0x050A
  | .thymeHistoryRead _ => some 0x050B
  | .pairStatus _ => some 0x0701
  | .pairCfgWrite _ => some 0x0702
  | .pairCfgRead _ => some 0x0703
  | .pairResync _ => some 0x0704
  | .pairSwap _ => some 0x0705
  | .pairForceActive _ => some 0x0706
  | .ctrRead _ => some 0x0801
  | .pctrWrite _ => some 0x0802
  | .pctrRead _ => some 0x0803
  | .latlogRead _ => some 0x0804
  | .traceRead _ => some 0x0805
  | .bwCfgWrite _ => some 0x0806
  | .bwRead _ => some 0x0807
  | .traceCfgWrite _ => some 0x0808
  | .evtCfgWrite _ => some 0x0809
  | .obsCfgRead _ => some 0x080A
  | .memRead _ => some 0x0901
  | .memWrite _ _ => some 0x0902
  | .memPower _ => some 0x0903
  | .memStatus _ => some 0x0904
  | .fwInfo _ => some 0x0910
  | .fwLoad _ _ => some 0x0911
  | .fwUpdate _ _ => some 0x0912
  | .selfTest _ _ => some 0x0920
  | .regRead _ => some 0x0201
  | .regRead64 _ => some 0x0202
  | .regWrite _ => some 0x0203
  | .regWriteWait _ => some 0x0204
  | .regGuardedWrite _ => some 0x0205
  | .feedRead _ => some 0x0A01
  | .feedSelect _ => some 0x0A02
  | _ => none

/-- The command is in execution, and its work has not begun. -/
abbrev Begun (op : BitVec 16) (r : Req) (q : Run) (s : State) : Prop :=
  powered s = true ∧ s.seq.running = true ∧ s.vcp.run = some q ∧ q.req = r ∧ q.op = op ∧ q.reply = none ∧ q.work = 0

/-- It is in execution, its work not begun, and it passes the checks that every command shares (Table 12-10). -/
abbrev Accepted (op : BitVec 16) (r : Req) (q : Run) (s : State) : Prop := Begun op r q s ∧ checkCommand s q = none

/-- The reply of the command in execution. -/
def replyNow (t : State) : Option Reply := t.vcp.run.bind (·.reply)

/-- The command in execution has made its reply: STATUS, DETAIL and the fields from byte 14. -/
abbrev Answers (t : State) (status detail : Byte) (data : Bytes) : Prop :=
  (replyNow t).map (fun a => (a.status, a.detail, a.data)) = some (status, detail, data)

/-- The fields of that reply from byte 14. -/
def answer (t : State) : Bytes := ((replyNow t).map (·.data)).getD []

/-- It leaves this effect to its completion. -/
abbrev AtEnd (t : State) (e : EndAct) : Prop := t.vcp.run.bind (·.atEnd) = some e

/-- A staging command has written staged words of its domains, which stand open; nothing else changes but its own
execution and mirror records (R282, R435). -/
abbrev Staged (s t : State) (mask : BitVec 8) : Prop :=
  t.com.stageOpen = s.com.stageOpen ||| mask ∧
  t = { s with vcp := t.vcp, com := { s.com with stageOpen := t.com.stageOpen }, mir := t.mir
               regs := { s.regs with stg := t.regs.stg } }

/-- The second write of its guarded pair is due: the first one stands open on the register, not too long ago (R275,
R379, R380). -/
abbrev SecondWrite (op : BitVec 16) (r : Req) (q : Run) (k a : Nat) (v : Word) (s : State) : Prop :=
  powered s = true ∧ s.seq.running = true ∧ s.vcp.run = some q ∧ q.req = r ∧ q.op = op ∧ q.reply = none ∧ q.work = 2 ∧
  s.regs.pairs.map (fun x => (x.1, x.2.addr, x.2.val)) = [(k, a, v)] ∧
  s.regs.pairs.all (fun x => decide (sfpDist x.2.at_ s.sfp ≤ 100000)) = true

/-- No transaction is in service or waits at a target of the matrix (R353). -/
abbrev MatFree (s : State) : Prop := s.mem.busy = [] ∧ s.mem.wait = []

/-! Protection. -/

/-- A group stands decided by R186: the effective request is the remote one only where it is the higher, REQ_SIG follows
the local code, and the selector stands on protection exactly where the effective request signals it and, in a 1:1
group, the far end reports its bridge. -/
abbrev Decided (s t : State) (g : Nat) : Prop :=
  (grpOf t g).rem.toNat = (remoteReq s g).1 ∧ (grpOf t g).remSig = (remoteReq s g).2 ∧
  (grpOf t g).locSig = reqSig (grpOf t g).loc.toNat ∧
  ((grpOf t g).rem.toNat ≤ (grpOf t g).loc.toNat →
    (grpOf t g).eff = (grpOf t g).loc ∧ (grpOf t g).effSig = (grpOf t g).locSig) ∧
  ((grpOf t g).loc.toNat < (grpOf t g).rem.toNat →
    (grpOf t g).eff = (grpOf t g).rem ∧ (grpOf t g).effSig = (grpOf t g).remSig) ∧
  (grpOf t g).sel = ((grpOf t g).effSig && !(gArch (actv s) g == 2 && !bridged (grpOf s g)))

/-- Every member entry of a group, in both banks, carries its selector (R164), but for words with an uncorrectable
error (R167). -/
abbrev MembersFollow (s t : State) (g : Nat) : Prop :=
  (∀ kv ∈ s.map.a, eMemberOf kv.2 g = true → eccDouble s.map false kv.1 = false →
    (kv.1, setBit kv.2 10 (grpOf t g).sel) ∈ t.map.a) ∧
  (∀ kv ∈ s.map.b, eMemberOf kv.2 g = true → eccDouble s.map true kv.1 = false →
    (kv.1, setBit kv.2 10 (grpOf t g).sel) ∈ t.map.b)

/-- No other group, and nothing but groups, ports' urgent copies, member entries, reports, counters and mirror records.
-/
abbrev OnlyGroup (s t : State) (g : Nat) : Prop :=
  (∀ h : Fin 2048, h.val ≠ g → grpOf t h = grpOf s h) ∧
  t = { s with grps := t.grps, map := { s.map with a := t.map.a, b := t.map.b, ecc := t.map.ecc, scrub := t.map.scrub
                                                   selPass := t.map.selPass, selAt := t.map.selAt }
               mir := t.mir, ports := t.ports, sage := t.sage, regs := { s.regs with hist := t.regs.hist } }

/-! Thyme and the overhead sent. -/

/-- Of a port nothing changes but the overhead words of the frame it sends (R38, R108, R109, R116). -/
abbrev OnlyWords (s t : State) : Prop := ∀ p : Fin 128,
  portOf t p = { portOf s p with txO0 := (portOf t p).txO0, txO1 := (portOf t p).txO1, txO7 := (portOf t p).txO7 }

/-- Nothing changes but Thyme, what the trunks send of it, mirror records, Sage and the sticky registers. -/
abbrev OnlyThyme (s t : State) : Prop :=
  OnlyWords s t ∧
  t = { s with thy := t.thy, ports := t.ports, mir := t.mir, sage := t.sage, regs := { s.regs with hist := t.regs.hist } }

/-- A step of the count leaves the views, the banks, the state of every group and the reported conditions of every
port. -/
abbrev CountOnly (s t : State) : Prop :=
  t.regs.act = s.regs.act ∧ t.regs.stg = s.regs.stg ∧ t.map.a = s.map.a ∧ t.map.b = s.map.b
  ∧ t.map.bActive = s.map.bActive
  ∧ (∀ g : Fin 2048, (grpOf t g).sel = (grpOf s g).sel ∧ (grpOf t g).loc = (grpOf s g).loc
      ∧ (grpOf t g).eff = (grpOf s g).eff)
  ∧ (∀ p : Fin 128, (portOf t p).rep = (portOf s p).rep ∧ (portOf t p).trunk.align = (portOf s p).trunk.align)

/-! Ports. -/

/-- No other port, and nothing but ports, counters, records and sticky bits. -/
abbrev OnlyPort (s t : State) (p : Fin 128) : Prop :=
  (∀ q : Fin 128, q ≠ p → portOf t q = portOf s q) ∧
  t = { s with ports := t.ports, sage := t.sage, regs := { s.regs with hist := t.regs.hist } }

/-! Observation. -/

/-- A fixed counter has counted one event. -/
abbrev Counted (s t : State) (blk idx : Nat) : Prop := ctrVal t blk idx = (ctrVal s blk idx + 1) % 2 ^ 64

/-- The newest record of the trace FIFO. -/
def newest (t : State) : Option TraceRec := (t.sage.fifo.getLast?).map (·.2)

/-! The pair. -/

/-- The twin's pair state has changed to `n` at this position: ALIVE_OUT drives exactly in ACTIVE and UNPAIRED, the change
is counted and sticky, and its record has the subtype `sub` (R214, R215). -/
abbrev PairBecomes (s t : State) (sub : Nat) (n : PairState) : Prop :=
  t.pair.st = n ∧ t.pair.changed = s.sfp ∧ (t.pair.aliveOut = true ↔ n = .active ∨ n = .unpaired) ∧
  bit (hist t hPair) 9 = true ∧ Counted s t 6 0 ∧
  (newest t).map (fun r => (r.cls, r.sub, r.at_)) = some (6, sub, s.sfp)

end Sys2Proof.Machine
end

