-- ==== Sys2Proof/WellFormed.lean ====
section
/-! DEFINITION. Well-formed commands: the bounds the spec puts on operands that the types do not already hold. A
meaning is total: on an ill-formed operand it acts as its rule says for the fields it reads. -/

namespace Sys2Proof

/-- Parameters of a packet: 0 to 1,468 bytes (Table 12-13). -/
def Req.wf (r : Req) : Bool := decide (r.params.length ≤ 1468)

/-- Global indices of slots (R5). -/
def slotsWf (l : List Nat) : Bool := l.all (fun g => decide (g < 10240))

/-- A 32-bit register is 4-aligned (file 17). -/
def addrWf (a : Word) : Bool := decide (a.toNat % 4 = 0)

/-- A word of a protected memory holds fewer than 72 bits, check bits among them (R167, R359). -/
def eccWf : EccFind → Bool
  | .clean => true
  | .single b => decide (b < 72)
  | .double => true

/-- Indices of a mirror record lie in their tables (Table 10-3). -/
def MirrorRec.wf : MirrorRec → Bool
  | .mapStore _ g _ => decide (g < 10240)
  | .smiStore _ p _ => decide (p < 128)
  | .viewWrite _ a _ => decide (a % 4 = 0)
  | .validation _ _ i => decide (i < 10240)
  | .group g x => decide (g < 2048) && decide (x.conds.length = 3) && decide (x.reqs.length = 3)
  | .urgent p l => decide (p < 128) && decide (l.length ≤ 192)
  | .eq g st e => decide (g < 2048) && decide (st < 4) && decide (e < 2048)
  | .allot l _ => decide (l < 1024)
  | .thyme code _ _ _ _ _ => decide (code < 5)
  | .cand c _ _ => decide (c < 14)
  | .history e => decide (e.length = 16)
  | .historyAll l => decide (l.length ≤ 4096) && l.all (fun e => decide (e.length = 16))
  | .authHash _ h => decide (h.length = 32)
  | .segment _ _ es ws => decide (es.length = 160) && decide (ws.length = 2)
  | .view _ _ ws => ws.all (fun kv => decide (kv.1 % 4 = 0))
  | .audit l => decide (l.length = 142)
  | .repair k => decide (k < 142)
  | _ => true

/-- The VCP command a row carries, if it is one. -/
def Instr.req : Instr → Option Req
  | .devInfo r => some r
  | .keyWrite r _ => some r
  | .keyInfo r => some r
  | .groupMemberSet r _ => some r
  | .groupMemberGet r => some r
  | .routeSet r _ => some r
  | .routeGet r => some r
  | .relayPortsSet r _ => some r
  | .cfgSave r _ => some r
  | .cfgInfo r => some r
  | .devReset r => some r
  | .mapWritePart r _ _ => some r
  | .mapRead r => some r
  | .mapCopyPart r _ _ => some r
  | .mapClearPart r _ _ => some r
  | .smiWrite r => some r
  | .mapStatus r => some r
  | .hMapRead r => some r
  | .hMapWritePart r _ _ => some r
  | .hSlotStats r => some r
  | .grpWrite r => some r
  | .grpRead r => some r
  | .protRequest r => some r
  | .protGrpStatus r => some r
  | .protEqRealign r => some r
  | .portCfgWrite r => some r
  | .portCfgRead r => some r
  | .portAdaptWrite r => some r
  | .portSerdesWrite r => some r
  | .portStatus r => some r
  | .portSnapshot r => some r
  | .portSnapRead r => some r
  | .tpChkWrite r => some r
  | .tpChkRead r => some r
  | .commit r => some r
  | .commitCancel r => some r
  | .commitList r => some r
  | .stageRevertPart r _ _ => some r
  | .stageAccept r => some r
  | .sfpRead r => some r
  | .thyCandWrite r => some r
  | .thyCfgWrite r => some r
  | .thyOutWrite r => some r
  | .thyCfgRead r => some r
  | .thyStatus r => some r
  | .setQl r => some r
  | .thymeForce r => some r
  | .setMfc r => some r
  | .mfcRelearn r => some r
  | .fpRealign r => some r
  | .thymeHistoryRead r => some r
  | .pairStatus r => some r
  | .pairCfgWrite r => some r
  | .pairCfgRead r => some r
  | .pairResync r => some r
  | .pairSwap r => some r
  | .pairForceActive r => some r
  | .ctrRead r => some r
  | .pctrWrite r => some r
  | .pctrRead r => some r
  | .latlogRead r => some r
  | .traceRead r => some r
  | .bwCfgWrite r => some r
  | .bwRead r => some r
  | .traceCfgWrite r => some r
  | .evtCfgWrite r => some r
  | .obsCfgRead r => some r
  | .memRead r => some r
  | .memWrite r _ => some r
  | .memPower r => some r
  | .memStatus r => some r
  | .fwInfo r => some r
  | .fwLoad r _ => some r
  | .fwUpdate r _ => some r
  | .selfTest r _ => some r
  | .regRead r => some r
  | .regRead64 r => some r
  | .regWrite r => some r
  | .regWriteWait r => some r
  | .regGuardedWrite r => some r
  | .feedRead r => some r
  | .feedSelect r => some r
  | _ => none

/-- The operands beside a VCP packet are in range. -/
def Instr.operandsWf : Instr → Bool
  | .mapWritePart _ h _ => slotsWf h
  | .mapCopyPart _ h _ => slotsWf h
  | .mapClearPart _ h _ => slotsWf h
  | .hMapWritePart _ h _ => slotsWf h
  | .stageRevertPart _ h _ => slotsWf h
  | .registerWrite _ a _ => addrWf a
  | .mapHighWordWrite _ a _ => addrWf a
  | .mapLowWordWrite _ a _ _ => addrWf a
  | .mapHighWordRead _ a => addrWf a
  | .postedWrite _ a _ => addrWf a
  | .guardPairOpen _ a _ => addrWf a
  | .guardTimeout a => addrWf a
  | .guardOrphan _ a _ => addrWf a
  | .freqMeasurement l => decide (l.length = 12)
  | .historySample _ sp _ => decide (sp < 256)
  | .mgmtChunkReceive _ o4 _ => decide (o4.length = 3)
  | .o7Receive _ o4 _ => decide (o4.length = 3)
  | .calendarCycle l pb => l.all (fun x => decide (x.1 < 128)) && slotsWf pb
  | .mapScrub _ smi i f => decide (i < if smi then 128 else 10240) && eccWf f
  | .memoryScrub _ _ f => eccWf f
  | .mirrorRecordTake _ m => m.wf
  | .mirrorAudit l => decide (l.length = 142)
  | .heartbeatTake _ _ c _ => decide (c ≤ 640)
  | .pktWrite n b => decide (b.length ≤ n)
  | .memPowerTransitionDone m b => decide (b < if m.val = 0 then 16 else if m.val = 1 then 8 else 80)
  | _ => true

/-- A well-formed command. -/
def Instr.wf (i : Instr) : Bool :=
  (match i.req with
   | some r => r.wf
   | none => true) && i.operandsWf

/-- The command is a VCP command of files 13 and 14. -/
def Instr.isCommand (i : Instr) : Bool := i.req.isSome

end Sys2Proof
end

