-- ==== Sys2Proof/Certificates/Slice0/Obligations.lean ====
section
/-! DEFINITION. The statements for the provers. Each says what its rules of spec/ say; `t` is the state after, `s` the
state before, and `t = ` a copy of `s` with named parts replaced by `t`'s says that every other part is unchanged. -/

open Sys2Proof Sys2Proof.Machine

/-! The step. -/

/-- A step takes the command at the front of the queue and is exec of it on the state with the queue's rest. Readings of
the model it rests on: log 10. -/
def Obligations.StepRunsFront : Prop :=
  ∀ (c : Instr) (l : List Instr) (s : State), s.pending = c :: l → step s = exec c { s with pending := l }

/-- On an empty queue a released die's block clock advances the SFP by one block: BI, then FI after BI 163,767, then the
MFC after FI 31, modulo 2^48 (R80); any other die stands still. Nothing else changes, but that the pins hold the levels
they have at a frame boundary when the count leaves it (R477). That the step of an empty queue is this tick is the
model's choice (log 1). Readings of the model it rests on: log 1. -/
def Obligations.IdleStepTicks : Prop :=
  ∀ s : State, s.pending = [] →
    (clockRuns s = false → step s = .next s) ∧
    (clockRuns s = true →
      ∃ t, step s = .next t ∧ t = { s with sfp := t.sfp, pins := { s.pins with level := t.pins.level } }
        ∧ (atBoundary s = false → t.pins = s.pins)
        ∧ (atBoundary s = true → ∀ n : Fin 16, bit t.pins.level n = pinLevel s n)
        ∧ (s.sfp.bi + 1 < 163768 → t.sfp = { s.sfp with bi := s.sfp.bi + 1 })
        ∧ (163767 ≤ s.sfp.bi → s.sfp.fi + 1 < 32 → t.sfp = { s.sfp with fi := s.sfp.fi + 1, bi := 0 })
        ∧ (163767 ≤ s.sfp.bi → 31 ≤ s.sfp.fi → t.sfp = { mfc := (s.sfp.mfc + 1) % 2 ^ 48, fi := 0, bi := 0 }))

/-! Thyme. -/

/-- Qualification: a fault that outlives its hold-off disqualifies a candidate (R40, R41); a disqualified one that was
free of fault for its WTR, and a new one free of fault for 16 multiframes, qualifies (R42). No other candidate's
state, and nothing outside Thyme, what the trunks send of it, the mirror, Sage and the sticky registers changes. -/
def Obligations.CandidateQualification : Prop :=
  ∀ (c : Fin 12) (s : State), powered s = true → isFrame s.sfp = true → candEn s c = true →
    ((candOf s c).fault = true → (candOf s c).qualified = true → (candOf s c).hold = some 0 →
      ∃ t, exec (.candidateHoldoffExpire c) s = .next t
        ∧ t.thy.cands = tput {} s.thy.cands c
            { candOf s c with qualified := false, disq := true, hold := none, wtr := none }
        ∧ OnlyThyme s t) ∧
    ((candOf s c).disq = true → (candOf s c).fault = false → (candOf s c).wtr = some 0 →
      ∃ t, exec (.candidateWtrExpire c) s = .next t
        ∧ t.thy.cands = tput {} s.thy.cands c { candOf s c with qualified := true, disq := false, wtr := none }
        ∧ OnlyThyme s t) ∧
    ((candOf s c).disq = false → (candOf s c).fault = false → (candOf s c).qualified = false →
      (candOf s c).qual = some 0 →
      ∃ t, exec (.candidateQualified c) s = .next t
        ∧ t.thy.cands = tput {} s.thy.cands c { candOf s c with qualified := true, qual := none }
        ∧ OnlyThyme s t)

/-- Selection without a force and without NONREVERT: the choice is eligible, and before every other eligible candidate by
QL rank (in QL mode), then PRIORITY, then number; there is none exactly where nothing is eligible (R43, R44). -/
def Obligations.SelectionChoosesBest : Prop :=
  ∀ s : State, s.thy.force = none → tNonrevert (actv s) = false →
    (choose s = none ↔ ∀ c, c < 12 → eligible s c = false) ∧
    (∀ c, choose s = some c → c < 12 ∧ eligible s c = true ∧
      ∀ d, d < 12 → eligible s d = true → d ≠ c → candBefore s c d = true)

/-- The DPLL's transitions on their rows (Table 03-2): lock, once the phase error has stayed within the window for
LOCK_TIME (R48); the switch that selection made due at this frame boundary makes its candidate the reference, stores the
offset measured, counts THY_REF_SWITCH, and leads to ACQUIRING from FREERUN, HOLDOVER and HOLDOVER_EXPIRED, while
ACQUIRING and LOCKED stay as long as that candidate is still eligible (R43, R46, R49, R75); the budget's limit leads
from HOLDOVER to HOLDOVER_EXPIRED at an epoch boundary (R73). The control value and the history stay. Readings of the
model it rests on: log 54. -/
def Obligations.DpllTransitions : Prop :=
  ∀ (s : State) (c why : Nat) (offset : Word), powered s = true → isFrame s.sfp = true → isStandby s = false →
    (s.thy.st = .acquiring → s.thy.refFault = false → s.thy.changedAt ≠ some s.sfp →
      32 * tLockTime (actv s) ≤ s.thy.lockRun →
      ∃ t, exec .dpllLock s = .next t ∧ t.thy.st = .locked ∧ bit (hist t hThy) 2 = true
        ∧ t.thy = { s.thy with st := .locked, changedAt := some s.sfp, bwEff := t.thy.bwEff } ∧ OnlyThyme s t) ∧
    (s.thy.next = some (c, why, s.sfp) → c < 12 → eligible s c = true → (candOf s c).fault = false →
      ∃ t, exec (.refSwitch offset) s = .next t ∧ t.thy.ref = some c ∧ t.thy.pbo = offset
        ∧ (s.thy.st = .freerun ∨ s.thy.st = .holdover ∨ s.thy.st = .expired → t.thy.st = .acquiring)
        ∧ (s.thy.st = .acquiring ∨ s.thy.st = .locked → t.thy.st = s.thy.st)
        ∧ Counted s t 5 0 ∧ t.thy.ctl = s.thy.ctl ∧ t.thy.hist = s.thy.hist ∧ OnlyThyme s t) ∧
    (isEpoch s.sfp = true → s.thy.st = .holdover → s.thy.next = none → s.thy.changedAt ≠ some s.sfp →
      hbLimit s ≤ s.thy.hbAccum →
      ∃ t, exec .holdoverExpire s = .next t ∧ t.thy.st = .expired ∧ bit (hist t hThy) 4 = true
        ∧ t.thy = { s.thy with st := .expired, changedAt := some s.sfp, bwEff := t.thy.bwEff } ∧ OnlyThyme s t)

/-- A frequency measurement at the end of a window of 16 multiframes, for each enabled candidate whose window counts
(Table 02-4, R42): beyond FREQ_LIMIT twice in a row makes the fault due; within 0.8 of it clears the fault. The end of
24 hours of the count from READY, or from the day before, adds one to OCXO_DAYS and saves it (R74); that a save that
fails leaves the store as it was is the model's choice (log 85). Readings of the model it rests on: log 85. -/
def Obligations.PeriodicMeasurements : Prop :=
  (∀ (l : List Int) (s : State), powered s = true → isEpoch s.sfp = true → s.sfp.mfc % 16 = 0 →
     ∃ t, exec (.freqMeasurement l) s = .next t
       ∧ (∀ c : Fin 12, candEn s c = true → (candOf s c).winOk = true →
           (1000 * tFreqLimit (actv s) < (l.getD c 0).natAbs →
             (candOf t c).beyond = true ∧ ((candOf t c).freqPend = true ↔ 1 ≤ (candOf s c).bad ∧ (candOf s c).freqFault = false)) ∧
           ((l.getD c 0).natAbs ≤ 800 * tFreqLimit (actv s) →
             (candOf t c).beyond = false ∧ (candOf t c).freqFault = false ∧ (candOf t c).bad = 0))
       ∧ (∀ c : Fin 12, candEn s c = false → candOf t c = candOf s c)
       ∧ t = { s with thy := { s.thy with cands := t.thy.cands } }) ∧
  (∀ (ok : Bool) (a : Sfp) (s : State), powered s = true → s.thy.dayAt = some a → s.thy.days < 65535 →
     135000000000000 ≤ sfpDist a s.sfp →
     ∃ t, exec (.ocxoDay ok) s = .next t ∧ t.thy.days = s.thy.days + 1
       ∧ t.thy.dayAt = some (sfpOff a 135000000000000)
       ∧ (ok = true → t.flash.days = some (s.thy.days + 1)) ∧ (ok = false → t.flash = s.flash)
       ∧ t = { s with thy := { s.thy with days := t.thy.days, dayAt := t.thy.dayAt }
                      flash := { s.flash with days := t.flash.days, saves := t.flash.saves } })

/-- The rows that carry out timing commands at their boundary: SET_QL records its codes and THYME_FORCE its candidate
(R308, R45); SET_MFC and learning give the multiframe its MFC and set MFC_VALID (R57, R309); MFC_RELEARN clears
MFC_VALID and MFC_SRC_MISMATCH and leaves the count (R309). A change of the MFC discards every open commit whose epoch
does not lie at least 2 multiframes after the new MFC, keeps every other entry (what is stamped with a position keeps
its distance from the present), and discards the pending snapshots that do not lie at least 2 frames after (R59).
Readings of the model it rests on: log 55. -/
def Obligations.TimingActs : Prop :=
  (∀ (s : State) (i : Fin 4) (c : BitVec 4) (o : Option Nat) (v : Nat), powered s = true → v < 2 ^ 48 →
     (s.thy.pendQl = [(s.sfp, i.val, c)] →
       ∃ t, exec .setQlAct s = .next t ∧ bits t.thy.refinQl (4 * i + 3) (4 * i) = c.toNat ∧ t.thy.pendQl = []
         ∧ (∀ k : Fin 16, k.val / 4 ≠ i.val → bit t.thy.refinQl k = bit s.thy.refinQl k)
         ∧ (s.frameDone ≠ some s.sfp → t = { s with thy := { s.thy with pendQl := [], refinQl := t.thy.refinQl } })
         ∧ OnlyThyme s t) ∧
     (s.thy.pendForce = some (s.sfp, o) →
       ∃ t, exec .thymeForceAct s = .next t ∧ t.thy.pendForce = none ∧ t.thy.force = o
         ∧ (s.frameDone ≠ some s.sfp → t = { s with thy := { s.thy with pendForce := none, force := o } })
         ∧ OnlyThyme s t) ∧
     (s.thy.pendMfc = some (s.sfp, some v) →
       ∃ t, exec .setMfcAct s = .next t ∧ t.sfp = { s.sfp with mfc := v } ∧ t.thy.mfcValid = true
         ∧ t.thy.pendMfc = none ∧ CountOnly s t) ∧
     (s.thy.learned = some v → isEpoch s.sfp = true → s.thy.mfcValid = false →
       tMfcMode (actv s) = true → isStandby s = false →
       ∃ t, exec .mfcLearn s = .next t ∧ t.sfp = { s.sfp with mfc := v } ∧ t.thy.mfcValid = true
         ∧ t.thy.learned = none ∧ CountOnly s t) ∧
     (s.thy.pendMfc = some (s.sfp, none) →
       exec .mfcRelearnAct s = .next { s with thy := { s.thy with pendMfc := none, mfcValid := false, mfcMism := false,
                                                                  learn1 := none, learned := none } })) ∧
  (∀ (s : State) (v : Nat), powered s = true → v < 2 ^ 48 → s.thy.pendMfc = some (s.sfp, some v) →
     tsorted s.com.ents = true →
     ∃ t, exec .setMfcAct s = .next t
       ∧ t.com.ents = s.com.ents.map (fun kv =>
           if entOpen kv.2 ∧ sfpDist { s.sfp with mfc := v } (epochAt kv.2.epoch) < 10481152 then
             (kv.1, { kv.2 with st := .discarded, reason := 2, row := 0, idx := 0, validating := false
                                outAt := some { s.sfp with mfc := v } })
           else (kv.1, { kv.2 with outAt := kv.2.outAt.map (shiftPos s.sfp { s.sfp with mfc := v }) }))
       ∧ t.com.snaps = s.com.snaps.filter (fun r => decide (327536 ≤ sfpDist { s.sfp with mfc := v } r.1)))

/-- A history sample of a complete interval (R64 to R66, Table 03-6): the new entry stands first with the MFC, the mean,
the selected candidate and VALID by the four conditions; the ring keeps 4,096; a reading outside −55 °C to +125 °C is
stored as 0x8000 and counted; FREQ and SPREAD of an interval through which the control value stood are that value and 0
(R65); a twin that receives the mirror adds no entry of its own (R219). Frame-pulse rows. A further pulse of a
multiframe is ignored and counts FP_EXTRA; a pulse on time counts the run of its input; an off-time pulse does not move
the SFP; before the first alignment a pulse continues a regular train or starts one anew; a missing pulse counts FP_MISS
and a third in a row disqualifies its input (Table 02-9, Table 02-10, R51, R52). The step of FP_REALIGN at its epoch
boundary: the next epoch boundary comes at the input's next reference instant, the MFC stays, and every trunk in frame
loses its frame (R54, R310). Readings of the model it rests on: log 55, 56. -/
def Obligations.HistoryAndPulses : Prop :=
  (∀ (freq : BitVec 48) (spread : Nat) (temp : BitVec 16) (s : State), powered s = true → isEpoch s.sfp = true →
     s.sfp.mfc % 256 = 0 → s.sfp.mfc < 2 ^ 48 → s.thy.ivEpochs ≠ some 0 →
     ∃ t, exec (.historySample freq spread temp) s = .next t
       ∧ (s.pair.st = .standby ∨ s.pair.st = .syncing → t.thy.hist = s.thy.hist)
       ∧ (s.pair.st ≠ .standby → s.pair.st ≠ .syncing → (let e := t.thy.hist.headD {}
         t.thy.hist = (e :: s.thy.hist).take 4096
         ∧ e.mfc.toNat = s.sfp.mfc
         ∧ (s.thy.ivCtl = none → e.freq = freq ∧ (spread ≤ 255 → e.spread.toNat = spread))
         ∧ (∀ v, s.thy.ivCtl = some v → e.freq = v ∧ e.spread = 0)
         ∧ (e.valid = true ↔ s.thy.ivLocked = true ∧ s.thy.ivFault = false ∧ s.thy.ivRefChange = false
             ∧ s.thy.ivEpochs = some 256)
         ∧ e.faultSeen = s.thy.ivFault
         ∧ (∀ c : Fin 12, s.thy.ref = some c.val → e.cand.toNat = c) ∧ (s.thy.ref = none → e.cand = 0xF)
         ∧ ((temp ≠ 0x8000 ∧ -880 ≤ temp.toInt ∧ temp.toInt ≤ 2000) → e.temp = temp)
         ∧ (¬(temp ≠ 0x8000 ∧ -880 ≤ temp.toInt ∧ temp.toInt ≤ 2000) → e.temp = 0x8000)))
       ∧ ((temp ≠ 0x8000 ∧ -880 ≤ temp.toInt ∧ temp.toInt ≤ 2000) → ctrVal t 5 4 = ctrVal s 5 4)
       ∧ (¬(temp ≠ 0x8000 ∧ -880 ≤ temp.toInt ∧ temp.toInt ≤ 2000) → Counted s t 5 4 ∧ bit (hist t hThy) 6 = true)
       ∧ t.thy.st = s.thy.st ∧ t.thy.ctl = s.thy.ctl
       ∧ t = { s with thy := t.thy, mir := t.mir, sage := t.sage, regs := { s.regs with hist := t.regs.hist } }) ∧
  (∀ (k : Fin 3) (s : State), powered s = true → fpEnabled s k = true → (k.val = 2 → mfcPortReady s = true) →
     ((fpExtra s k = true →
         ∃ t, exec (.fpEdge k) s = .next t ∧ Counted s t 5 6 ∧ t.thy = s.thy
           ∧ t = { s with sage := t.sage, regs := { s.regs with hist := t.regs.hist } }) ∧
       (fpExtra s k = false → fpPredicted s k = true → (fpErr s k).natAbs ≤ tFpWindow (actv s) →
         (fpOf s k).good < 15 →
         ∃ t, exec (.fpEdge k) s = .next t ∧ (fpOf t k).good = (fpOf s k).good + 1 ∧ (fpOf t k).onTime = true
           ∧ (fpOf t k).missed = 0 ∧ (fpOf t k).last = some s.sfp ∧ t.sfp = s.sfp ∧ t = { s with thy := t.thy }) ∧
       (fpExtra s k = false → fpPredicted s k = true → tFpWindow (actv s) < (fpErr s k).natAbs →
         ∃ t, exec (.fpEdge k) s = .next t ∧ (fpOf t k).good = 0 ∧ (fpOf t k).last = some s.sfp ∧ t.sfp = s.sfp
           ∧ t = { s with thy := t.thy, sage := t.sage, regs := { s.regs with hist := t.regs.hist } }) ∧
       (fpExtra s k = false → fpPredicted s k = false →
         (fpRegular s k = true → (fpOf s k).good < 15 →
           ∃ t, exec (.fpEdge k) s = .next t ∧ (fpOf t k).good = (fpOf s k).good + 1 ∧ (fpOf t k).present = true
             ∧ t = { s with thy := t.thy }) ∧
         (fpRegular s k = false →
           ∃ t, exec (.fpEdge k) s = .next t ∧ (fpOf t k).good = 0 ∧ (fpOf t k).present = false
             ∧ (fpOf t k).last = some s.sfp ∧ t = { s with thy := t.thy }))) ∧
     (fpMissing s k = true →
       ∃ t, exec (.fpMiss k) s = .next t ∧ Counted s t 5 5 ∧ (fpOf t k).good = 0
         ∧ (2 ≤ (fpOf s k).missed → (fpOf t k).qualified = false)
         ∧ ((fpOf s k).missed < 2 → (fpOf t k).qualified = (fpOf s k).qualified) ∧ t.sfp = s.sfp
         ∧ t = { s with thy := t.thy, sage := t.sage, regs := { s.regs with hist := t.regs.hist } })) ∧
  (∀ (s : State) (k : Nat), powered s = true → s.thy.pendRealign = some s.sfp → realignInput s = some k →
     s.sfp.mfc < 2 ^ 48 →
     ∃ t, exec .fpRealignAct s = .next t ∧ t.sfp.mfc = s.sfp.mfc ∧ t.thy.pendRealign = none
       ∧ (∀ a, (fpOf s k).last = some a →
           (t.sfp.fi * 163768 + t.sfp.bi + instantWait s k a) % 5240576 = 0)
       ∧ (∀ p : Fin 128, isTrunk s p = true → inFrame (portOf t p).trunk = false)) ∧
  (∀ s : State, powered s = true → s.thy.pendRealign = some s.sfp → realignInput s = none →
     exec .fpRealignAct s = .next { s with thy := { s.thy with pendRealign := none } })

/-- An ESMC PDU that meets the six conditions is counted on its port, and its code — DNU, with QL_INVALID counted, for a
code Table 02-2 does not list — awaits the next frame boundary with the ESMC timer started anew (R36, R146, Table
02-10); 1,491 multiframes without one make the received QL DNU, set QL_STALE and count ESMC_TIMEOUT (R146). Readings
of the model it rests on: log 9. -/
def Obligations.EsmcRows : Prop :=
  ∀ (p : Fin 128) (f : Bytes) (n : Nat) (s : State), powered s = true → isClient s p = true →
    (esmcOk f = true →
      ∃ t, exec (.esmcPduReceive p f) s = .next t ∧ Counted s t (0x100 + p) 69
        ∧ (portOf t p).client.esmcAge = some 0 ∧ (portOf t p).qlSfp = s.sfp ∧ (portOf t p).ql = (portOf s p).ql
        ∧ (let c := bits (f.getD 27 0) 3 0
           (c = 2 ∨ c = 4 ∨ c = 8 ∨ c = 11 ∨ c = 15 →
              (portOf t p).client.qlPend = some (BitVec.ofNat 4 c) ∧ ctrVal t 5 10 = ctrVal s 5 10) ∧
           (c ≠ 2 ∧ c ≠ 4 ∧ c ≠ 8 ∧ c ≠ 11 ∧ c ≠ 15 →
              (portOf t p).client.qlPend = some 0xF ∧ Counted s t 5 10))
        ∧ (∀ q : Fin 128, q ≠ p → portOf t q = portOf s q)
        ∧ t = { s with ports := t.ports, sage := t.sage }) ∧
    ((portOf s p).client.esmcAge = some n → 1491 ≤ n → (portOf s p).qlStale = false →
      ∃ t, exec (.esmcTimeout p) s = .next t ∧ (portOf t p).ql = 0xF ∧ (portOf t p).qlStale = true
        ∧ Counted s t 5 11 ∧ Counted s t (0x100 + p) 43
        ∧ (∀ q : Fin 128, q ≠ p → portOf t q = portOf s q)
        ∧ t = { s with ports := t.ports, sage := t.sage })

/-- The timing family's staging commands (Table 14-3, R282, R307). An accepted one with its fields in range, while D3 is
not frozen, answers OK, stages its fields in D3 alone and sets STAGE_OPEN of D3; the active view does not change; while
the mirror queue has no space for its writes it waits and nothing changes (R435). The timing family's reads (Table
14-3, R311): each answers OK with its fields and changes nothing but the command in execution. The timing commands that
act at a later boundary (R308 to R310, R45): each answers OK and leaves its effect to its completion; SET_MFC needs
MFC_MODE NONE, MFC_RELEARN needs PORT, FP_REALIGN needs a FRAME_SRC and a reference instant, or the answer is DENIED,
detail STATE, with nothing left to do. COMMAND_COMPLETE then leaves the request pending for the first frame boundary
or the first epoch boundary after it, which the reply reports as ACT_SFP (R254, R32). Readings of the model it rests
on: log 41, 42. -/
def Obligations.TimingCommands : Prop :=
  (∀ (r : Req) (q : Run) (s : State), frozenNow s 3 = false → mirHeld s = false →
     (Accepted 0x0501 r q s → candArgsOk r.params = true →
       ∃ t, exec (.thyCandWrite r) s = .next t ∧ Answers t 0 0 []
         ∧ (let p := r.params
            let c := pk1 p 0
            cPrio (stgv t) c = pk1 p 1 ∧ cLane (stgv t) c = pk1 p 2 ∧ cHoldoff (stgv t) c = pkNat p 6 2
              ∧ cWtr (stgv t) c = pkNat p 8 2)
         ∧ Staged s t 8) ∧
     (Accepted 0x0502 r q s → thyArgsOk r.params = true →
       ∃ t, exec (.thyCfgWrite r) s = .next t ∧ Answers t 0 0 []
         ∧ (let p := r.params
            let v := stgv t
            tMfcPort v = pk1 p 1 ∧ tAcqBw v = pk1 p 2 % 16 ∧ tTrackBw v = pk1 p 2 / 16 ∧ tLockWindow v = pk1 p 3
              ∧ tLockTime v = pkNat p 4 2 ∧ tFreqLimit v = pk1 p 7 ∧ tFpWindow v = pkNat p 8 2)
         ∧ Staged s t 8) ∧
     (Accepted 0x0503 r q s → outArgsOk r.params = true →
       ∃ t, exec (.thyOutWrite r) s = .next t ∧ Answers t 0 0 []
         ∧ (let p := r.params
            oFreq (stgv t) (pk1 p 0) = pk1 p 1 % 8 ∧ oSquelch (stgv t) (pk1 p 0) = pk1 p 1 / 8 % 4
              ∧ stgv t (aOutCfg (pk1 p 0) + 4) = word (pkNat p 4 4))
         ∧ Staged s t 8)) ∧
  (∀ (r : Req) (q : Run) (s : State), frozenNow s 3 = false → mirHeld s = true → Accepted 0x0501 r q s →
     candArgsOk r.params = true → exec (.thyCandWrite r) s = .next s) ∧
  (∀ (r : Req) (q : Run) (s : State),
     (Accepted 0x0504 r q s → pk1 r.params 0 ≤ 1 → pk1 r.params 1 = 1 → pk1 r.params 2 ≤ 13 →
       ∃ t, exec (.thyCfgRead r) s = .next t ∧ Answers t 0 0 (answer t) ∧ (answer t).length = 14
         ∧ pk1 (answer t) 0 = 1 ∧ pk1 (answer t) 1 = pk1 r.params 2
         ∧ (let v := viewSel s (pk1 r.params 0)
            pk1 (answer t) 3 = cPrio v (pk1 r.params 2) ∧ pk1 (answer t) 4 = cLane v (pk1 r.params 2)
              ∧ pkNat (answer t) 8 2 = cHoldoff v (pk1 r.params 2) ∧ pkNat (answer t) 10 2 = cWtr v (pk1 r.params 2))
         ∧ t = { s with vcp := t.vcp }) ∧
     (Accepted 0x0505 r q s →
       ∃ t, exec (.thyStatus r) s = .next t ∧ Answers t 0 0 (answer t) ∧ (answer t).length = 158
         ∧ pk1 (answer t) 0 % 8 = thyCode s.thy.st ∧ bit ((answer t).getD 0 0) 3 = s.thy.refFault
         ∧ bit ((answer t).getD 0 0) 4 = s.thy.allDnu ∧ bit ((answer t).getD 0 0) 5 = s.thy.mfcValid
         ∧ bit ((answer t).getD 0 0) 6 = s.thy.mfcMism ∧ bit ((answer t).getD 0 0) 7 = s.thy.flywheel
         ∧ pkNat (answer t) 4 4 = s.thy.pbo.toNat ∧ pkNat (answer t) 8 6 = s.thy.ctl.toNat
         ∧ t = { s with vcp := t.vcp }) ∧
     (Accepted 0x050B r q s → pkNat r.params 0 2 ≤ 4095 → 1 ≤ pkNat r.params 2 2 → pkNat r.params 2 2 ≤ 80 →
       pkNat r.params 0 2 + pkNat r.params 2 2 ≤ 4096 →
       ∃ t, exec (.thymeHistoryRead r) s = .next t
         ∧ Answers t 0 0 (beBytes 2 (pkNat r.params 0 2) ++ beBytes 2 (pkNat r.params 2 2)
             ++ (List.range (pkNat r.params 2 2)).flatMap
                 (fun i => histBytes (s.thy.hist.getD (pkNat r.params 0 2 + i) {})))
         ∧ t = { s with vcp := t.vcp })) ∧
  (∀ (r : Req) (q : Run) (s : State),
     (Accepted 0x0506 r q s → pk1 r.params 0 ≤ 3 → qlCode (pk1 r.params 1 % 16) = true →
       ∃ t, exec (.setQl r) s = .next t ∧ Answers t 0 0 []
         ∧ AtEnd t (.ql (pk1 r.params 0) (BitVec.ofNat 4 (pk1 r.params 1 % 16))) ∧ t = { s with vcp := t.vcp }) ∧
     (Accepted 0x0507 r q s → (pk1 r.params 0 ≤ 11 ∨ pk1 r.params 0 = 255) →
       ∃ t, exec (.thymeForce r) s = .next t ∧ Answers t 0 0 []
         ∧ AtEnd t (.force (if pk1 r.params 0 = 255 then none else some (pk1 r.params 0))) ∧ t = { s with vcp := t.vcp }) ∧
     (Accepted 0x0508 r q s →
       (tMfcMode (actv s) = false → ∃ t, exec (.setMfc r) s = .next t ∧ Answers t 0 0 []
         ∧ AtEnd t (.mfc (some (pkNat r.params 0 6))) ∧ t = { s with vcp := t.vcp }) ∧
       (tMfcMode (actv s) = true → ∃ t, exec (.setMfc r) s = .next t ∧ Answers t 4 9 [] ∧ t = { s with vcp := t.vcp })) ∧
     (Accepted 0x0509 r q s →
       (tMfcMode (actv s) = true → ∃ t, exec (.mfcRelearn r) s = .next t ∧ Answers t 0 0 []
         ∧ AtEnd t (.mfc none) ∧ t = { s with vcp := t.vcp }) ∧
       (tMfcMode (actv s) = false → ∃ t, exec (.mfcRelearn r) s = .next t ∧ Answers t 4 9 [] ∧ t = { s with vcp := t.vcp })) ∧
     (Accepted 0x050A r q s →
       (tFrameSrc (actv s) ≠ 0 → (realignInput s).isSome = true →
         ∃ t, exec (.fpRealign r) s = .next t ∧ Answers t 0 0 [] ∧ AtEnd t .realign ∧ t = { s with vcp := t.vcp }) ∧
       (tFrameSrc (actv s) = 0 ∨ realignInput s = none →
         ∃ t, exec (.fpRealign r) s = .next t ∧ Answers t 4 9 [] ∧ t = { s with vcp := t.vcp }))) ∧
  (∀ (s : State) (q : Run) (a : Reply) (n : Nat) (c : BitVec 4) (o v : Option Nat), powered s = true →
     s.vcp.run = some q → q.reply = some a →
     (q.atEnd = some (.ql n c) →
       ∃ t, exec .commandComplete s = .next t ∧ t.vcp.run = none
         ∧ t.thy = { s.thy with pendQl := s.thy.pendQl ++ [(nextFrame s.sfp, n, c)] }) ∧
     (q.atEnd = some (.force o) →
       ∃ t, exec .commandComplete s = .next t ∧ t.vcp.run = none
         ∧ t.thy = { s.thy with pendForce := some (nextFrame s.sfp, o) }) ∧
     (q.atEnd = some (.mfc v) →
       ∃ t, exec .commandComplete s = .next t ∧ t.vcp.run = none
         ∧ t.thy = { s.thy with pendMfc := some (nextEpoch s.sfp, v) }) ∧
     (q.atEnd = some .realign →
       ∃ t, exec .commandComplete s = .next t ∧ t.vcp.run = none
         ∧ t.thy = { s.thy with pendRealign := some (nextEpoch s.sfp) }) ∧
     ((endOf s q).2 = match q.atEnd with
       | some (.ql _ _) => sfpBytes (nextFrame s.sfp) | some (.force _) => sfpBytes (nextFrame s.sfp)
       | some (.mfc _) => sfpBytes (nextEpoch s.sfp) | some .realign => sfpBytes (nextEpoch s.sfp)
       | some (.request _ _ _) => sfpBytes (nextFrame s.sfp) | some (.net _ _ _) => []
       | some (.devReset _) => sfpBytes (nextEpoch s.sfp) | none => []))


/-! Commit. -/

/-- A COMMIT that passed every check of Table 04-3 at its acceptance (R88 to R91, R507): with no entry for its epoch it
takes the lowest FREE index and creates a PENDING entry with its mask, its destination, its merge record and the count
1; with one it merges, the mask becoming the union and the count rising. The reply gives MERGED, the index and the
entry's mask. One that failed a check answers that failure and changes nothing but its own execution (and the counter
of R60). The checks 4 to 10 of Table 04-3 in their order, made against the acceptance position and the state there
(R88, R89, R60). EARLIEST comes with LATE_EPOCH. The dispatch tick that accepts a COMMIT makes these checks. -/
def Obligations.CommitOutcome : Prop :=
  (∀ (r : Req) (q : Run) (s : State) (e i : Nat) (x : CommitEnt), Begun 0x0B01 r q s →
     sfpDist q.since s.sfp ≤ 1562500 → q.verdict = none → sfpOfBytes r.params 2 = epochAt e → e < 2 ^ 48 →
     (entFor s e = none → freeEnt s = some i →
       let y : CommitEnt := { epoch := e, mask := r.params.getD 0 0, grp := r.grp, dest := r.dest
                              recs := [(r.auth.setWidth 16, r.seq)], count := 1, st := .pending }
       ∃ t, exec (.commit r) s = .next t ∧ Answers t 0 0 [0, by1 i, r.params.getD 0 0]
         ∧ (s.auto.stage = .waitLock → t.auto = { s.auto with stage := .done })
         ∧ (s.auto.stage ≠ .waitLock → t.auto = s.auto)
         ∧ t = { s with vcp := t.vcp, com := { s.com with ents := tset s.com.ents i y }, mir := t.mir, auto := t.auto }) ∧
     (entFor s e = some (i, x) → tfind s.com.ents i = some x →
       let y : CommitEnt := { x with mask := x.mask ||| r.params.getD 0 0, count := x.count + 1
                                     recs := if x.recs.length < 4 then x.recs ++ [(r.auth.setWidth 16, r.seq)] else x.recs }
       ∃ t, exec (.commit r) s = .next t ∧ Answers t 0 0 [1, by1 i, y.mask]
         ∧ (s.auto.stage = .waitLock → t.auto = { s.auto with stage := .done })
         ∧ (s.auto.stage ≠ .waitLock → t.auto = s.auto)
         ∧ t = { s with vcp := t.vcp, com := { s.com with ents := tset s.com.ents i y }, mir := t.mir, auto := t.auto })) ∧
  (∀ (r : Req) (q : Run) (s : State) (st d : Byte) (data : Bytes), Begun 0x0B01 r q s →
     sfpDist q.since s.sfp ≤ 1562500 → q.verdict = some (st, d, data) →
     ∃ t, exec (.commit r) s = .next t ∧ Answers t st d data
       ∧ (st = 4 ∧ d = 5 → Counted s t 3 3 ∧ t = { s with vcp := t.vcp, sage := t.sage })
       ∧ (¬(st = 4 ∧ d = 5) → t = { s with vcp := t.vcp })) ∧
  (∀ (q : Run) (s : State) (e : Nat), checkCommand s q = none → sfpOfBytes q.req.params 2 = epochAt e → e < 2 ^ 48 →
     let m := q.req.params.getD 0 0
     (m = 0 → commitVerdict s q = some (8, 0x42, [])) ∧
     (m ≠ 0 → q.req.grp = true → s.thy.mfcMism = true → commitVerdict s q = some (4, 5, [])) ∧
     (m ≠ 0 → (q.req.grp = false ∨ s.thy.mfcMism = false) →
       (sfpDist q.accept (epochAt e) < 10481152 →
         commitVerdict s q = some (9, 0, beBytes 6 (earliest q.accept))) ∧
       (10481152 ≤ sfpDist q.accept (epochAt e) →
         (268435456 < mfcDiff q.accept.mfc e → commitVerdict s q = some (8, 0x43, [])) ∧
         (mfcDiff q.accept.mfc e ≤ 268435456 →
           (s.com.suspect &&& m ≠ 0 → commitVerdict s q = some (4, 6, [])) ∧
           (s.com.suspect &&& m = 0 → (bit m 3 = true → d3Check (stgv s) = 0) →
             (entFor s e = none → freeEnt s = none → commitVerdict s q = some (4, 4, [])) ∧
             (entFor s e ≠ none ∨ freeEnt s ≠ none → commitVerdict s q = none)))))) ∧
  (∀ (x : Queued) (s : State), powered s = true → isTick s.sfp = true → busyNow s = none → s.vcp.queue = [x] →
     x.op = 0x0B01 → (authOf s x.req.auth.toNat).gen = x.gen → seqTake (replayOf s x.req.auth.toNat) x.req.seq ≠ none →
     ∃ t y, exec .dispatchTick s = .next t ∧ t.vcp.run = some y ∧ y.req = x.req ∧ y.accept = s.sfp ∧ y.reply = none
       ∧ y.verdict = commitVerdict { s with vcp := { s.vcp with queue := [] } } { y with verdict := none })

/-- The other commands of the commit family (R95, R299 to R302, Table 13-12): COMMIT_CANCEL removes domains from a PENDING
entry, which is CANCELLED when none is left, and answers LATE_EPOCH for an ARMED one; STAGE_ACCEPT clears the marks of
its domains and STAGE_REVERT of D1 to D7 copies their active words to the staged view; COMMIT_LIST and SFP_READ change
nothing. -/
def Obligations.CommitFamily : Prop :=
  ∀ (r : Req) (q : Run) (s : State) (e i part : Nat) (x : CommitEnt),
    (Accepted 0x0B02 r q s → sfpDist q.since s.sfp ≤ 1562500 → r.params.getD 0 0 ≠ 0 →
      sfpOfBytes r.params 2 = epochAt e → e < 2 ^ 48 → entFor s e = some (i, x) → tfind s.com.ents i = some x →
      (x.st = .armed → ∃ t, exec (.commitCancel r) s = .next t ∧ Answers t 9 0 [] ∧ t = { s with vcp := t.vcp }) ∧
      (x.st = .pending → x.mask &&& r.params.getD 0 0 ≠ 0 →
        (x.mask &&& ~~~(r.params.getD 0 0) ≠ 0 →
          let y : CommitEnt := { x with mask := x.mask &&& ~~~(r.params.getD 0 0)
                                        removed := x.removed ||| (x.mask &&& r.params.getD 0 0) }
          ∃ t, exec (.commitCancel r) s = .next t ∧ Answers t 0 0 [0, by1 i, y.mask]
            ∧ t = { s with vcp := t.vcp, com := { s.com with ents := tset s.com.ents i y }, mir := t.mir }) ∧
        (x.mask &&& ~~~(r.params.getD 0 0) = 0 →
          ∃ t, exec (.commitCancel r) s = .next t ∧ Answers t 0 0 [1, by1 i, 0]
            ∧ (tfind t.com.ents i).map (fun y => (y.st, y.mask, y.removed))
                = some (.cancelled, 0, x.removed ||| x.mask)
            ∧ t = { s with vcp := t.vcp, com := { s.com with ents := t.com.ents }, mir := t.mir }))) ∧
    (Accepted 0x0B03 r q s →
      ∃ t, exec (.commitList r) s = .next t ∧ Answers t 0 0 (answer t)
        ∧ pk1 (answer t) 0 = s.com.ents.length % 256 ∧ (answer t).getD 1 0 = s.com.suspect
        ∧ (answer t).getD 2 0 = s.com.stageOpen
        ∧ pk1 (answer t) 3 = b2n s.com.frozenWr ∧ t = { s with vcp := t.vcp }) ∧
    (Accepted 0x0B04 r q s → r.params.getD 0 0 ≠ 0 → bit (r.params.getD 0 0) 0 = false →
      frozenAny s (r.params.getD 0 0) = false → mirHeld s = false →
      ∃ t, exec (.stageRevertPart r [] part) s = .next t ∧ Answers t 0 0 []
        ∧ (∀ kv ∈ s.regs.act ++ s.regs.stg, ∀ d : Fin 8, domOf kv.1 = some d.val →
            (bit (r.params.getD 0 0) d = true → stgv t kv.1 = actv s kv.1) ∧
            (bit (r.params.getD 0 0) d = false → stgv t kv.1 = stgv s kv.1))
        ∧ t.com.suspect = s.com.suspect &&& ~~~(r.params.getD 0 0)
        ∧ t = { s with vcp := t.vcp, regs := { s.regs with stg := t.regs.stg }, mir := t.mir
                       com := { s.com with suspect := t.com.suspect, stageOpen := t.com.stageOpen } }) ∧
    (Accepted 0x0B05 r q s → r.params.getD 0 0 ≠ 0 →
      ∃ t, exec (.stageAccept r) s = .next t ∧ Answers t 0 0 [s.com.suspect &&& ~~~(r.params.getD 0 0)]
        ∧ t = { s with vcp := t.vcp, mir := t.mir
                       com := { s.com with suspect := s.com.suspect &&& ~~~(r.params.getD 0 0)
                                           stageOpen := t.com.stageOpen } }) ∧
    (Accepted 0x0B06 r q s →
      ∃ t, exec (.sfpRead r) s = .next t
        ∧ Answers t 0 0 (sfpBytes s.sfp ++ [by1 (b2n s.thy.mfcValid + 2 * b2n s.thy.mfcMism), by1 (b2n (tMfcMode (actv s)))])
        ∧ t = { s with vcp := t.vcp })

/-- The commit unit (R92 to R94). At (E−1):00:0 the PENDING entry for E is ARMED and its domains freeze until E. At E:00:0
the strobe of an ARMED entry gives every active word of its domains its staged value, leaves the others and every
staged word, exchanges the banks' roles exactly where the mask names D0, makes the entry APPLIED and lifts the freeze.
At the first frame boundary after an outcome its report counts it, sets LAST_EPOCH and frees the entry. The validation
of an ARMED entry discards it by the first row of Table 07-5 that fails, or where D3 alone fails its ranges, and leaves
it ARMED otherwise (R92, R171; which row a failure of D3 alone reports is the model's choice, log 91). -/
def Obligations.CommitUnit : Prop :=
  ∀ (s : State) (i : Nat) (x : CommitEnt), powered s = true → s.com.ents = [(i, x)] → s.sfp.mfc < 2 ^ 48 → x.epoch < 2 ^ 48 →
    (isEpoch s.sfp = true → x.st = .pending → x.epoch = (s.sfp.mfc + 1) % 2 ^ 48 →
      ∃ t, exec .commitArm s = .next t ∧ t = { s with mir := t.mir, com := { s.com with
        ents := [(i, { x with st := .armed, validating := true })], frozen := x.mask, frozenTo := x.epoch } }) ∧
    (isEpoch s.sfp = true → x.st = .armed → x.epoch = s.sfp.mfc → x.auto = 0 →
      ∃ t, exec .commitStrobe s = .next t
        ∧ (∀ kv ∈ s.regs.act ++ s.regs.stg, ∀ d : Fin 8, domOf kv.1 = some d.val →
            (bit x.mask d = true → actv t kv.1 = stgv s kv.1) ∧ (bit x.mask d = false → actv t kv.1 = actv s kv.1))
        ∧ t.regs.stg = s.regs.stg ∧ (t.map.bActive = s.map.bActive ↔ bit x.mask 0 = false)
        ∧ t.sfp = s.sfp ∧ t.thy.st = s.thy.st
        ∧ (tfind t.com.ents i).map (·.st) = some .applied ∧ t.com.frozen = 0 ∧ t.com.strobeAt = some s.sfp) ∧
    (isFrame s.sfp = true → entOpen x = false → x.outAt ≠ some s.sfp → x.auto = 0 →
      ∃ t, exec .commitReport s = .next t ∧ t.com.ents = [] ∧ t.com.lastEpoch = x.epoch
        ∧ Counted s t 3 (match x.st with | .cancelled => 1 | .discarded => 2 | .applied => 0 | .pending => 0 | .armed => 0)
        ∧ t = { s with com := { s.com with ents := [], lastEpoch := x.epoch }
                       sage := t.sage, regs := { s.regs with hist := t.regs.hist } }) ∧
    (s.seq.running = true → isStandby s = false → x.st = .armed → x.validating = true →
      (firstRow s x.mask = none → (bit x.mask 3 = true → d3Check (afterView s x.mask) = 0) →
        ∃ t, exec .commitValidationDone s = .next t
          ∧ t = { s with mir := t.mir, com := { s.com with ents := [(i, { x with validating := false })] } }) ∧
      ((firstRow s x.mask).isSome = true →
        ∃ t, exec .commitValidationDone s = .next t
          ∧ (tfind t.com.ents i).map (fun y => (y.st, y.reason, some (y.row, y.idx)))
              = some (.discarded, 1, firstRow s x.mask)
          ∧ t = { s with mir := t.mir, com := { s.com with ents := t.com.ents } }) ∧
      (firstRow s x.mask = none → bit x.mask 3 = true → d3Check (afterView s x.mask) ≠ 0 →
        ∃ t, exec .commitValidationDone s = .next t
          ∧ (tfind t.com.ents i).map (fun y => (y.st, y.reason, y.idx)) = some (.discarded, 1, 0)
          ∧ t = { s with mir := t.mir, fresh := t.fresh, com := { s.com with ents := t.com.ents } }))

/-! Trunk ports. -/

/-- Frame and multiframe alignment of a trunk's receiver (R118, R119, R121). A correct O0 leads from SEARCH to VERIFY, a
second there, and a third in sequence to IN_FRAME, which clears LOF; three correct O0s in FI sequence reach multiframe
alignment, clear LOM and centre the elastic buffer at the fill nearest its nominal one at which calendar positions
coincide; a third O0 out of sequence raises LOM. An errored O0 at an expected position is counted; it ends VERIFY, and
a third in a row ends IN_FRAME with LOF and LOM. Outside an expected position nothing happens. No other port changes.
What a trunk's receiver takes from the overhead of a frame in alignment (R35, R57, R58, R108, R110, R111, R117). O0:
the third RDI in a row raises RDI, the third without it clears it; the sixth MFC byte completes an MFC, which in a
second multiframe in a row different from Thyme's raises MFC_MISMATCH, on MFC_PORT Thyme's own MFC_SRC_MISMATCH too.
O1: SMI is received at once and compared, while the active word is no uncorrectable one (32 frames), a QL is taken in
its third frame, RX_TTI in the second equal multiframe. O7: an identity is accepted in its third frame, and LOOPED
stands exactly where it is the port's own. A wrong CRC is counted and gives nothing. In NEAR loopback all this is of
the port's own words (R148). Readings of the model it rests on: log 49, 79. -/
def Obligations.TrunkReceiver : Prop :=
  (∀ (p : Fin 128) (b : Block) (n : Nat) (s : State), powered s = true → isTrunk s p = true →
     let b' := rxOverhead s p (portOf s p).txO0 b
     (o0Good b' = true →
       ((portOf s p).trunk.align = .search →
         ∃ t, exec (.o0Block p b) s = .next t ∧ (portOf t p).trunk.align = .verify 0
           ∧ (∀ q : Fin 128, q ≠ p → portOf t q = portOf s q) ∧ t = { s with ports := t.ports }) ∧
       ((portOf s p).trunk.align = .verify 0 →
         ∃ t, exec (.o0Block p b) s = .next t ∧ (portOf t p).trunk.align = .verify 1
           ∧ (∀ q : Fin 128, q ≠ p → portOf t q = portOf s q) ∧ t = { s with ports := t.ports }) ∧
       ((portOf s p).trunk.align = .verify (n + 1) →
         ∃ t, exec (.o0Block p b) s = .next t ∧ (portOf t p).trunk.align = .inFrame 0
           ∧ bit (portOf t p).raw dLof = false ∧ (∀ q : Fin 128, q ≠ p → portOf t q = portOf s q)
           ∧ t = { s with ports := t.ports, thy := t.thy, sage := t.sage, regs := { s.regs with hist := t.regs.hist }
                          fresh := t.fresh }) ∧
       ((portOf s p).trunk.align = .inFrame n →
         ∃ t, exec (.o0Block p b) s = .next t ∧ (portOf t p).trunk.align = .inFrame 0
           ∧ (portOf t p).trunk.fi = o0Fi (blkW b')
           ∧ ((portOf s p).trunk.inMf = false → (portOf s p).trunk.nextFi = some (o0Fi (blkW b')) →
               2 ≤ (portOf s p).trunk.fiRun →
               (portOf t p).trunk.inMf = true ∧ bit (portOf t p).raw dLom = false ∧ Counted s t (0x100 + p) 29
                 ∧ ∃ f, (portOf t p).trunk.fill = some f
                   ∧ (1 ≤ pEbDepth (actv s) p → f % 80 = o0Phase s.sfp ∧ f ≤ ebNominal s p + 40 ∧ ebNominal s p ≤ f + 40))
           ∧ ((portOf s p).trunk.inMf = true → (portOf s p).trunk.nextFi = some (o0Fi (blkW b')) →
               (portOf t p).trunk.inMf = true ∧ (portOf t p).trunk.nextFi = some ((o0Fi (blkW b') + 1) % 32))
           ∧ ((portOf s p).trunk.inMf = true → (portOf s p).trunk.nextFi ≠ some (o0Fi (blkW b')) →
               2 ≤ (portOf s p).trunk.fiBad → (portOf t p).trunk.inMf = false ∧ bit (portOf t p).raw dLom = true)
           ∧ (∀ q : Fin 128, q ≠ p → portOf t q = portOf s q)
           ∧ t = { s with ports := t.ports, thy := t.thy, sage := t.sage, regs := { s.regs with hist := t.regs.hist }
                          fresh := t.fresh })) ∧
     (o0Good b' = false →
       ((portOf s p).trunk.align = .search → exec (.o0Block p b) s = .next s) ∧
       ((portOf s p).trunk.align = .verify n →
         ∃ t, exec (.o0Block p b) s = .next t ∧ (portOf t p).trunk.align = .search ∧ Counted s t (0x100 + p) 21
           ∧ (∀ q : Fin 128, q ≠ p → portOf t q = portOf s q) ∧ t = { s with ports := t.ports, sage := t.sage }) ∧
       ((portOf s p).trunk.align = .inFrame n →
         ∃ t, exec (.o0Block p b) s = .next t ∧ Counted s t (0x100 + p) 21 ∧ (portOf t p).trunk.reasm = none
           ∧ (n < 2 → (portOf t p).trunk.align = .inFrame (n + 1) ∧ (portOf t p).trunk.inMf = (portOf s p).trunk.inMf
               ∧ (portOf t p).raw = (portOf s p).raw)
           ∧ (2 ≤ n → (portOf t p).trunk.align = .search ∧ (portOf t p).trunk.inMf = false
               ∧ bit (portOf t p).raw dLof = true ∧ bit (portOf t p).raw dLom = true)
           ∧ (∀ q : Fin 128, q ≠ p → portOf t q = portOf s q) ∧ t = { s with ports := t.ports, sage := t.sage }))) ∧
  (∀ (p : Fin 128) (b : Block) (o4 : List Block) (n : Nat) (w0 : W56) (s : State), powered s = true → isTrunk s p = true →
     (portOf s p).trunk.align = .inFrame n →
     let b0 := rxOverhead s p (portOf s p).txO0 b
     let b1 := rxOverhead s p (portOf s p).txO1 b
     let b7 := rxOverhead s p (portOf s p).txO7 b
     let chunk := rxChunk s p o4
     (o0Good b0 = true →
       ∃ t, exec (.o0Block p b) s = .next t
         ∧ (o0Rdi (blkW b0) = true → (portOf s p).trunk.rdiOn = 2 → bit (portOf t p).raw dRdi = true)
         ∧ (o0Rdi (blkW b0) = false → (portOf s p).trunk.rdiOff = 2 → bit (portOf t p).raw dRdi = false)
         ∧ bit (portOf t p).raw dPeerLpbk = o0Lpbk (blkW b0)
         ∧ (o0Fi (blkW b0) = 5 → (portOf s p).trunk.mfcBytes.length = 5 →
             ((portOf s p).trunk.inMf = true ∧ (portOf s p).trunk.nextFi = some 5 ∨ p.val ≠ tMfcPort (actv s)) →
             (portOf s p).trunk.mfcBad = 1 →
             (portOf s p).trunk.mfcAt = some ((pairedMfc s.sfp 818840 + 2 ^ 48 - 1) % 2 ^ 48) →
             beNat ((portOf s p).trunk.mfcBytes ++ [o0Slice (blkW b0)]) ≠ pairedMfc s.sfp 818840 →
             bit (portOf t p).raw dMfcMis = true
               ∧ (p = tMfcPort (actv s) → t.thy.mfcMism = true ∧ (s.thy.mfcMism = false → Counted s t 5 12)))
         ∧ t = { s with ports := t.ports, thy := t.thy, sage := t.sage, regs := { s.regs with hist := t.regs.hist }
                        fresh := t.fresh }) ∧
     ((portOf s p).trunk.o0 = some w0 →
       (o1Good w0 b1 = true →
         ∃ t, exec (.o1Receive p b) s = .next t ∧ (portOf t p).trunk.rxSmi = some (o1Smi (blkW b1))
           ∧ (smiLost s p = false →
               ((o1Smi (blkW b1)).toNat ≠ bits (activeSmi s p) 15 0 → (portOf s p).trunk.smiBad = 31 →
                 bit (portOf t p).raw dSmi = true) ∧
               ((o1Smi (blkW b1)).toNat = bits (activeSmi s p) 15 0 → (portOf s p).trunk.smiGood = 31 →
                 bit (portOf t p).raw dSmi = false))
           ∧ (smiLost s p = true → bit (portOf t p).raw dSmi = bit (portOf s p).raw dSmi
               ∧ (portOf t p).trunk.smiBad = 0 ∧ (portOf t p).trunk.smiGood = 0)
           ∧ ((portOf s p).trunk.qlCand = some (o1Ql (blkW b1), 2) → (portOf t p).qlSfp = s.sfp
               ∧ (qlKnown (o1Ql (blkW b1)) = true → (portOf t p).ql = o1Ql (blkW b1))
               ∧ (qlKnown (o1Ql (blkW b1)) = false → (portOf t p).ql = 0xF ∧ Counted s t 5 10))
           ∧ (o0Fi w0 = 31 → (portOf s p).trunk.ttiCur.length = 62 →
               (portOf s p).trunk.ttiPrev = some ((portOf s p).trunk.ttiCur ++ o1Tti (blkW b1)) →
               (portOf t p).trunk.rxTti = (portOf s p).trunk.ttiPrev)
           ∧ (∀ q : Fin 128, q ≠ p → portOf t q = portOf s q) ∧ t = { s with ports := t.ports, sage := t.sage }) ∧
       (o1Good w0 b1 = false →
         ∃ t, exec (.o1Receive p b) s = .next t ∧ Counted s t (0x100 + p) 22 ∧ (portOf t p).trunk.ttiCur = []
           ∧ (portOf t p).trunk.ttiPrev = none ∧ (portOf t p).trunk.rxTti = (portOf s p).trunk.rxTti
           ∧ (∀ q : Fin 128, q ≠ p → portOf t q = portOf s q) ∧ t = { s with ports := t.ports, sage := t.sage })) ∧
     (chunk.1 = true → o7Good chunk.2 b7 = true → (portOf s p).trunk.peerCand = some (o7Ident (blkW b7), 2) →
       ∃ t, exec (.o7Receive p o4 b) s = .next t ∧ (portOf t p).trunk.peer = some (o7Ident (blkW b7))
         ∧ (bit (portOf t p).raw dLooped = true ↔
             bits (o7Ident (blkW b7)) 23 12 = s.pins.devid.toNat ∧ bits (o7Ident (blkW b7)) 11 5 = p)
         ∧ (∀ q : Fin 128, q ≠ p → portOf t q = portOf s q) ∧ t = { s with ports := t.ports, sage := t.sage }) ∧
     (chunk.1 = false ∨ o7Good chunk.2 b7 = false →
       ∃ t, exec (.o7Receive p o4 b) s = .next t ∧ Counted s t (0x100 + p) 27 ∧ (portOf t p).trunk.peerCand = none
         ∧ (portOf t p).trunk.peer = (portOf s p).trunk.peer ∧ t = { s with ports := t.ports, sage := t.sage }))


/-- Line defects outside NEAR loopback (Table 05-12, R125, R126). LOS, LOL, FEC_FAIL and FEC_DEG that begin are declared
and counted unless a stronger one masks them, and their clearing withdraws them; FEC codewords and symbols are counted
raw and in the present frame and multiframe; FEC_FAIL is declared as soon as a frame's count reaches its threshold,
FEC_DEG as soon as a second multiframe's passes its own, and they clear after 8 frames below, and 2 multiframes at or
below it. The reported set waits for the frame boundary, and no other port changes. A slip of a trunk's elastic buffer
at a calendar cycle's start (R122, Table 05-12): a fill below 80 blocks repeats, and one above 2S − 80 drops, K = S/80
whole cycles, counted as SLIP, which is then present; between the two nothing happens. SLIP clears 32 frames after the
last slip. Readings of the model it rests on: log 47. -/
def Obligations.LineDefects : Prop :=
  (∀ (p : Fin 128) (n : Nat) (s : State), powered s = true → inUse s p = true → pLoop (actv s) p ≠ 1 →
     (bit (portOf s p).raw dLos = false → bit (declNow (portOf s p)) dLos = false →
       ∃ t, exec (.losDeclare p) s = .next t ∧ (portOf t p).raw = setBit (portOf s p).raw dLos true
         ∧ declNow (portOf t p) = 1 ∧ Counted s t (0x100 + p) dLos ∧ (portOf t p).rep = (portOf s p).rep
         ∧ OnlyPort s t p) ∧
     (bit (portOf s p).raw dLos = true →
       ∃ t, exec (.losClear p) s = .next t ∧ (portOf t p).raw = setBit (portOf s p).raw dLos false
         ∧ bit (declNow (portOf t p)) dLos = false ∧ (portOf t p).rep = (portOf s p).rep ∧ OnlyPort s t p) ∧
     (bit (portOf s p).raw dLos = false → bit (portOf s p).raw dLol = false → bit (declNow (portOf s p)) dLol = false →
       ∃ t, exec (.lolDeclare p) s = .next t ∧ (portOf t p).raw = setBit (portOf s p).raw dLol true
         ∧ declNow (portOf t p) = 2 ∧ Counted s t (0x100 + p) dLol ∧ (portOf t p).rep = (portOf s p).rep
         ∧ OnlyPort s t p) ∧
     (bit (portOf s p).raw dLol = true →
       ∃ t, exec (.lolClear p) s = .next t ∧ (portOf t p).raw = setBit (portOf s p).raw dLol false
         ∧ bit (declNow (portOf t p)) dLol = false ∧ (portOf t p).rep = (portOf s p).rep ∧ OnlyPort s t p) ∧
     (hasFec s p = true →
       (∃ t, exec (.fecFailDeclare p n) s = .next t
         ∧ (pFecFail (actv s) p ≤ (portOf s p).fecCw + n → bit (portOf t p).raw dFecFail = true)
         ∧ ((portOf s p).fecCw + n < pFecFail (actv s) p → bit (portOf t p).raw dFecFail = bit (portOf s p).raw dFecFail)
         ∧ (portOf t p).fecCw = (portOf s p).fecCw + n
         ∧ ctrVal t (0x100 + p) 18 = (ctrVal s (0x100 + p) 18 + n) % 2 ^ 64 ∧ OnlyPort s t p) ∧
       (8 ≤ (portOf s p).fecGood →
         ∃ t, exec (.fecFailClear p) s = .next t ∧ (portOf t p).raw = setBit (portOf s p).raw dFecFail false
           ∧ OnlyPort s t p) ∧
       ((portOf s p).fecGood < 8 → exec (.fecFailClear p) s = .next s) ∧
       (∃ t, exec (.fecDegDeclare p n) s = .next t
         ∧ ((portOf s p).degLast = true → pFecDeg (actv s) p < (portOf s p).fecSym + n →
             bit (portOf t p).raw dFecDeg = true)
         ∧ ((portOf s p).degLast = false → bit (portOf t p).raw dFecDeg = bit (portOf s p).raw dFecDeg)
         ∧ (portOf t p).fecSym = (portOf s p).fecSym + n
         ∧ ctrVal t (0x100 + p) 19 = (ctrVal s (0x100 + p) 19 + n) % 2 ^ 64 ∧ OnlyPort s t p) ∧
       (2 ≤ (portOf s p).degGood →
         ∃ t, exec (.fecDegClear p) s = .next t ∧ (portOf t p).raw = setBit (portOf s p).raw dFecDeg false
           ∧ OnlyPort s t p) ∧
       ((portOf s p).degGood < 2 → exec (.fecDegClear p) s = .next s))) ∧
  (∀ (p : Fin 128) (fill : Nat) (f : Sfp) (s : State), powered s = true →
     (isTrunk s p = true → (portOf s p).trunk.fill = some fill → cycleStart s.sfp = true → 80 ≤ ebNominal s p →
       (let n := ebNominal s p
        (fill < 80 →
           ∃ t, exec (.ebSlip p) s = .next t ∧ (portOf t p).trunk.fill = some (fill + 80 * (n / 80))
             ∧ (portOf t p).trunk.slipAt = some s.sfp ∧ bit (portOf t p).raw dSlip = true ∧ Counted s t (0x100 + p) 6
             ∧ (∀ q : Fin 128, q ≠ p → portOf t q = portOf s q)
             ∧ t = { s with ports := t.ports, grps := t.grps, sage := t.sage, regs := { s.regs with hist := t.regs.hist } }) ∧
        (80 ≤ fill → 2 * n < fill + 80 →
           ∃ t, exec (.ebSlip p) s = .next t ∧ (portOf t p).trunk.fill = some (fill - 80 * (n / 80))
             ∧ (portOf t p).trunk.slipAt = some s.sfp ∧ bit (portOf t p).raw dSlip = true ∧ Counted s t (0x100 + p) 6
             ∧ (∀ q : Fin 128, q ≠ p → portOf t q = portOf s q)
             ∧ t = { s with ports := t.ports, grps := t.grps, sage := t.sage, regs := { s.regs with hist := t.regs.hist } }) ∧
        (80 ≤ fill → fill + 80 ≤ 2 * n → exec (.ebSlip p) s = .next s))) ∧
     ((portOf s p).trunk.slipAt = some f → 5240576 ≤ sfpDist f s.sfp →
       ∃ t, exec (.slipClear p) s = .next t ∧ bit (portOf t p).raw dSlip = false ∧ (portOf t p).trunk.slipAt = none
         ∧ OnlyPort s t p))

/-! Client ports. -/

/-- Blocks of a client into its adaptation buffer (R138 to R142, R154, R155). Each block is counted, and one with an
invalid header or of type 0x3C becomes the error block, counted, whatever stands; while an SF-class defect stands the
stream is not stored. A block that is no start block, inside a packet of fewer than 2,048 blocks, is stored; a start
block at T plus DROP_MARGIN begins the drop of its packet, counted, storing nothing; a deletable block above T with a
credit is deleted; a 2,049th block of a packet gives way to the error block and ends it, a start block there too. A
client's reader fills the slot of the present calendar position (R133, R137, R138, R144, R155): the path marker first
in a multiframe where PM_EN is set; in a cycle that began under an SF-class defect Local Fault, with one error block
where a packet was cut; else, below T at an insertion point, an inserted block, counted; else Local Fault for a place
of a centred buffer that nothing has filled, else the oldest block of the buffer, from the first start or idle block
on after a centring. In NEAR loopback the blocks written are the port's own (R148). Readings of the model it rests on:
log 50, 77. -/
def Obligations.ClientAdaptation : Prop :=
  (∀ (p : Fin 128) (b : Block) (s : State), powered s = true → isClient s p = true → isNear s p = false →
     let c := (portOf s p).client
     let bad := badHdr b || (isCtl b && blkType b == 0x3C)
     ∃ t, exec (.adaptBlockWrite p b) s = .next t ∧ Counted s t (0x100 + p) 30
       ∧ (portOf t p).client.rx16 = c.rx16 + 1
       ∧ (bad = true → Counted s t (0x100 + p) 37) ∧ (bad = false → ctrVal t (0x100 + p) 37 = ctrVal s (0x100 + p) 37)
       ∧ (anySf (declNow (portOf s p)) = true → (portOf t p).client.ad.buf = c.ad.buf)
       ∧ (anySf (declNow (portOf s p)) = false → c.ad.dropping = none → c.ad.overlen = false →
         (bad = false → isStart b = false → 0 < c.ad.pkt → c.ad.pkt < 2048 →
           (portOf t p).client.ad.buf = c.ad.buf ++ [b]) ∧
         (bad = true → 0 < c.ad.pkt → c.ad.pkt < 2048 → (portOf t p).client.ad.buf = c.ad.buf ++ [errBlock]) ∧
         (bad = false → isStart b = true → c.ad.pkt ≠ 2048 → targetFill s p + pDropMargin (actv s) p ≤ adFill c.ad →
           (portOf t p).client.ad.buf = c.ad.buf ∧ (portOf t p).client.ad.dropping = some (s.sfp, adFill c.ad, 1)
             ∧ Counted s t (0x100 + p) 34 ∧ Counted s t (0x100 + p) 35) ∧
         (bad = false → isStart b = true → c.ad.pkt ≠ 2048 → adFill c.ad < targetFill s p + pDropMargin (actv s) p →
           (portOf t p).client.ad.buf = c.ad.buf ++ [b] ∧ (portOf t p).client.ad.pkt = 1) ∧
         (bad = false → c.ad.pkt = 0 → isDeletable c.ad.prevW b = true → isStart b = false →
           targetFill s p < adFill c.ad → 0 < c.ad.credits →
           (portOf t p).client.ad.buf = c.ad.buf ∧ Counted s t (0x100 + p) 32) ∧
         (bad = false → isStart b = false → c.ad.pkt = 2048 →
           (portOf t p).client.ad.buf = c.ad.buf ++ [errBlock] ∧ (portOf t p).client.ad.pkt = 0
             ∧ (portOf t p).client.ad.overlen = (!isTerm b) ∧ Counted s t (0x100 + p) 36 ∧ Counted s t (0x100 + p) 35) ∧
         (bad = false → isStart b = true → c.ad.pkt = 2048 → Counted s t (0x100 + p) 36
             ∧ (portOf t p).client.ad.buf.take (c.ad.buf.length + 1) = c.ad.buf ++ [errBlock]))
       ∧ (portOf t p).trunk = (portOf s p).trunk ∧ (portOf t p).raw = (portOf s p).raw ∧ OnlyPort s t p) ∧
  (∀ (p : Fin 128) (b c : Block) (rest : List Block) (s : State), powered s = true → isClient s p = true →
     isNear s p = true →
     ((portOf s p).near = [] → exec (.adaptBlockWrite p b) s = .next s) ∧
     ((portOf s p).near = c :: rest →
       ∃ t, exec (.adaptBlockWrite p b) s = .next t ∧ Counted s t (0x100 + p) 30 ∧ (portOf t p).near = rest
         ∧ OnlyPort s t p)) ∧
  (∀ (p : Fin 128) (b : Block) (rest : List Block) (s : State), powered s = true → isClient s p = true → 8 ≤ s.sfp.bi →
     (s.sfp.bi - 8) % 80 < modeSlots (modeOf s p) →
     let k := (s.sfp.bi - 8) % 80
     let slot := calCycle s.sfp % 4 * 16384 + (p * 80 + k)
     let pm := pPmEn (actv s) p && decide (s.sfp.fi = 0 ∧ s.sfp.bi = 8)
     let c := (portOf s p).client
     let sf := anySf (declNow (portOf s p))
     let ins := adInsPoint c.ad && decide (adFill c.ad < targetFill s p)
     ∃ t, exec (.adaptBlockRead p) s = .next t
       ∧ (pm = true → tget lfFill t.map.store slot = markerBlock s.sfp.mfc ∧ Counted s t (0x100 + p) 38
           ∧ (portOf t p).client.ad = c.ad)
       ∧ (pm = false → sf = true → (k = 0 ∨ c.cycLf = true) →
           (portOf t p).client.ad = c.ad ∧
           (c.cut = true → tget lfFill t.map.store slot = errBlock ∧ (portOf t p).client.cut = false) ∧
           (c.cut = false → tget lfFill t.map.store slot = lfFill))
       ∧ (pm = false → sf = false → c.waitStart = false →
           (ins = true →
             Counted s t (0x100 + p) 33 ∧ (portOf t p).client.ad.buf = c.ad.buf ∧ (portOf t p).client.ad.pad = c.ad.pad
               ∧ tget lfFill t.map.store slot
                   = (match c.ad.prevR with | some q => if isOrdSet q then q else idleBlock | none => idleBlock)) ∧
           (ins = false → 0 < c.ad.pad →
             tget lfFill t.map.store slot = lfFill ∧ (portOf t p).client.ad.pad = c.ad.pad - 1) ∧
           (ins = false → c.ad.pad = 0 → c.ad.buf = b :: rest →
             tget lfFill t.map.store slot = b ∧ (portOf t p).client.ad.buf = rest ∧ (portOf t p).client.ad.prevR = some b))
       ∧ (pm = false → sf = false → c.waitStart = true → ins = false → c.ad.pad = 0 → c.ad.buf = b :: rest →
           (portOf t p).client.ad.buf = rest ∧
           (isStart b = true ∨ isIdleB b = true →
             tget lfFill t.map.store slot = b ∧ (portOf t p).client.waitStart = false) ∧
           (isStart b = false → isIdleB b = false →
             tget lfFill t.map.store slot = lfFill ∧ (portOf t p).client.waitStart = true))
       ∧ (∀ kv ∈ s.map.store ++ t.map.store, kv.1 ≠ slot → tget lfFill t.map.store kv.1 = tget lfFill s.map.store kv.1)
       ∧ (∀ q : Fin 128, q ≠ p → portOf t q = portOf s q)
       ∧ t = { s with ports := t.ports, map := { s.map with store := t.map.store }, sage := t.sage, fresh := t.fresh })


/-- The client indications of Table 06-6 and AD_PPM (R142). At every 16th epoch boundary AD_PPM takes the offset in units
of 0.1 ppm, rounded and saturating, and the count begins anew; above +200.0 ppm twice in a row OOR begins, at or below
+180.0 ppm it ends. Four ordered sets, each within 128 blocks of the one before, begin LF or RF; a 128-block pause
ends it. The receive monitor and the pattern checkers count and change nothing else (Table 06-2, R145, R151), and a
port snapshot copies every counter of the ports it names at its position (R147). A frame of legal length with a
correct FCS counts as good with its bytes, its address type and its size, one with a wrong FCS as FCS error, one
without a correct preamble as such alone. A checker takes the block that its slot wrote in the present calendar cycle; in
sync it counts each block, and the bits that differ. -/
def Obligations.ClientObservation : Prop :=
  (∀ (p : Fin 128) (remote : Bool) (gap : Nat) (s : State), powered s = true → isClient s p = true →
     (isEpoch s.sfp = true → s.sfp.mfc % 16 = 0 →
       let v := ppmOf (portOf s p).client.rx16 (modeSlots (modeOf s p) * 2047 * 512)
       ∃ t, exec (.adPpmReport p) s = .next t ∧ (portOf t p).client.adPpm.toInt = v ∧ (portOf t p).client.rx16 = 0
         ∧ (2000 < v → 1 ≤ (portOf s p).client.oorRun → bit (portOf t p).raw dOor = true)
         ∧ (v ≤ 1800 → bit (portOf t p).raw dOor = false)
         ∧ (1800 < v → v ≤ 2000 → (portOf t p).raw = (portOf s p).raw)
         ∧ OnlyPort s t p) ∧
     (let n := if remote then (portOf s p).client.rfRun else (portOf s p).client.lfRun
      let d := if remote then dRf else dLf
      ∃ t, exec (.orderedSetReceive p remote gap) s = .next t
        ∧ (gap ≤ 128 → n = 3 → bit (portOf t p).raw d = true)
        ∧ (128 < gap → (portOf t p).raw = (portOf s p).raw
             ∧ (if remote then (portOf t p).client.rfRun else (portOf t p).client.lfRun) = 1)
        ∧ (n < 3 → (portOf t p).raw = (portOf s p).raw)
        ∧ OnlyPort s t p) ∧
     (∃ t, exec (.lfClear p remote) s = .next t ∧ bit (portOf t p).raw (if remote then dRf else dLf) = false
        ∧ (if remote then (portOf t p).client.rfRun else (portOf t p).client.lfRun) = 0
        ∧ OnlyPort s t p)) ∧
  (∀ (p : Fin 128) (m : Fin 64) (f : MonFrame) (l : BitVec 64) (g : Nat) (set : BitVec 128)
       (rest : List (Sfp × BitVec 128)) (s : State), powered s = true →
     (isClient s p = true →
       ∃ t, exec (.monFrameReceive p f) s = .next t ∧ (let k := 0x100 + p.val
         ctrVal t k 50 = (ctrVal s k 50 + f.bytes.length) % 2 ^ 64
         ∧ (f.preambleOk = false → Counted s t k 60 ∧ ctrVal t k 48 = ctrVal s k 48)
         ∧ (f.preambleOk = true → 64 ≤ f.bytes.length → f.bytes.length ≤ pMonMax (actv s) p →
             (fcsOk f.bytes = false → Counted s t k 55 ∧ ctrVal t k 48 = ctrVal s k 48) ∧
             (fcsOk f.bytes = true → Counted s t k 48 ∧ Counted s t k (addrIdx f.bytes) ∧ Counted s t k (sizeIdx f.bytes.length)
               ∧ ctrVal t k 49 = (ctrVal s k 49 + f.bytes.length) % 2 ^ 64))
         ∧ (f.preambleOk = true → f.bytes.length < 64 → Counted s t k (if fcsOk f.bytes then 56 else 57)))
         ∧ t = { s with sage := t.sage }) ∧
     (s.com.snaps = (s.sfp, set) :: rest → (∀ r ∈ rest, r.1 ≠ s.sfp) →
       ∃ t, exec .portSnapshotLatch s = .next t
         ∧ (∀ q : Fin 128, bit set q = true → portOf t q = { portOf s q with snap := some (s.sfp, portCounters s q) })
         ∧ (∀ q : Fin 128, bit set q = false → portOf t q = portOf s q)
         ∧ t = { s with ports := t.ports, com := { s.com with snaps := rest } }) ∧
     (chkSlot s m = some g → (chkOf s m).last = some l →
       let want := prbsNext (pTpPoly (actv s) (g / 80)) l
       let b := stored s g
       ((chkOf s m).sync = true → b.hdr = 2 → b.data = want →
         pop (chkOf s m).errs < 4 →
         ∃ t, exec (.tpCheckBlock m) s = .next t ∧ Counted s t 0xB (4 * m) ∧ ctrVal t 0xB (4 * m + 2) = ctrVal s 0xB (4 * m + 2)
           ∧ (chkOf t m).sync = true ∧ (chkOf t m).last = some want ∧ t = { s with chks := t.chks, sage := t.sage }) ∧
       ((chkOf s m).sync = true → b.hdr = 2 → b.data ≠ want →
         ∃ t, exec (.tpCheckBlock m) s = .next t ∧ Counted s t 0xB (4 * m + 1)
           ∧ ctrVal t 0xB (4 * m + 2) = (ctrVal s 0xB (4 * m + 2) + pop (b.data ^^^ want)) % 2 ^ 64
           ∧ t = { s with chks := t.chks, sage := t.sage }) ∧
       ((chkOf s m).sync = false → b.hdr = 2 → b.data = want →
         ∃ t, exec (.tpCheckBlock m) s = .next t ∧ (chkOf t m).sync = true ∧ t = { s with chks := t.chks })))


/-! The connection map and the core. -/

/-- The commands that store in the staged bank while D0 is not frozen, no store is preempted and one row makes every store
(R162, R164, R290, R291): MAP_WRITE and H_MAP_WRITE store each item, the last of an index standing, with SEL from the protection table;
MAP_CLEAR stores zeros in its span; MAP_COPY makes the staged bank the active one's copy, SMI words included;
SMI_WRITE stores its words. The reply is the store report. Nothing of the active bank and no other entry of the staged
one changes. A store of the map that meets the protection engine's own store of the same entry in the same memory
cycle is lost and reported (R165): PREEMPTED with the count and the first index, MAP_PREEMPTED counted, CORE_HIST[3]
set, the entry unchanged. A staging command of a frozen domain is DENIED, detail FROZEN, and stores nothing (R94,
R282); one that meets the freeze on its way stores no more, and the answer carries its store report (R290). Readings of
the model it rests on: log 41. -/
def Obligations.MapStores : Prop :=
  (∀ (r : Req) (q : Run) (part : Nat) (s : State), frozenAny s 1 = false → mirHeld s = false →
     let p := r.params
     let same := fun (t : State) => t = { s with vcp := t.vcp, com := { s.com with stageOpen := s.com.stageOpen ||| 1 }
                                                 map := { s.map with a := t.map.a, b := t.map.b, smiA := t.map.smiA
                                                                     smiB := t.map.smiB, ecc := t.map.ecc, scrub := t.map.scrub }
                                                 mir := t.mir }
     let report := fun (n : Nat) => [by1 (b2n (!s.map.bActive)), 0] ++ beBytes 2 n ++ [0, 0, 0xFF, 0xFF]
     (Accepted 0x0301 r q s → 1 ≤ pkNat p 0 2 → pkNat p 0 2 ≤ 146 → pkNat p 0 2 ≤ part →
       (entryItems p 2 (pkNat p 0 2)).all (fun x => idxOk x.1) = true →
       ∃ t, exec (.mapWritePart r [] part) s = .next t ∧ Answers t 0 0 (report (pkNat p 0 2))
         ∧ (∀ i : Fin 146, i < pkNat p 0 2 → (∀ j : Fin 146, i < j → j < pkNat p 0 2 → pkNat p (2 + 10 * j) 2 ≠ pkNat p (2 + 10 * i) 2) →
             stagedEntry t (pkNat p (2 + 10 * i) 2) = withSel s (BitVec.ofNat 64 (pkNat p (4 + 10 * i) 8)))
         ∧ (∀ kv ∈ bankOf s.map (!s.map.bActive) ++ bankOf t.map (!s.map.bActive),
             ((entryItems p 2 (pkNat p 0 2)).all fun x => x.1 != kv.1) = true → stagedEntry t kv.1 = stagedEntry s kv.1)
         ∧ bankOf t.map s.map.bActive = bankOf s.map s.map.bActive ∧ t.map.smiA = s.map.smiA ∧ t.map.smiB = s.map.smiB
         ∧ same t) ∧
     (Accepted 0x0381 r q s → pkNat p 0 2 ≤ 1023 → 1 ≤ pkNat p 2 2 → pkNat p 2 2 ≤ 146 →
       (entryItems p 4 (pkNat p 2 2)).all (fun x => idxOk x.1) = true →
       ((entryItems p 4 (pkNat p 2 2)).all (fun x => eHolder (stagedEntry s x.1) == pkNat p 0 2 && eHolder x.2 == pkNat p 0 2) = true →
         pkNat p 2 2 ≤ part →
         ∃ t, exec (.hMapWritePart r [] part) s = .next t ∧ Answers t 0 0 (report (pkNat p 2 2))
           ∧ (∀ i : Fin 146, i < pkNat p 2 2 → (∀ j : Fin 146, i < j → j < pkNat p 2 2 → pkNat p (4 + 10 * j) 2 ≠ pkNat p (4 + 10 * i) 2) →
               stagedEntry t (pkNat p (4 + 10 * i) 2) = withSel s (BitVec.ofNat 64 (pkNat p (6 + 10 * i) 8)))
           ∧ bankOf t.map s.map.bActive = bankOf s.map s.map.bActive ∧ same t) ∧
       ((entryItems p 4 (pkNat p 2 2)).all (fun x => eHolder (stagedEntry s x.1) == pkNat p 0 2 && eHolder x.2 == pkNat p 0 2) = false →
         ∃ t, exec (.hMapWritePart r [] part) s = .next t ∧ Answers t 4 2 [] ∧ t = { s with vcp := t.vcp })) ∧
     (Accepted 0x0304 r q s → spanOk (pkNat p 0 2) (pkNat p 2 2) 10240 = true → pkNat p 2 2 ≤ part →
       ∃ t, exec (.mapClearPart r [] part) s = .next t ∧ Answers t 0 0 (report (pkNat p 2 2))
         ∧ (∀ kv ∈ bankOf s.map (!s.map.bActive) ++ bankOf t.map (!s.map.bActive),
             (pkNat p 0 2 ≤ kv.1 → kv.1 < pkNat p 0 2 + pkNat p 2 2 → stagedEntry t kv.1 = 0) ∧
             (kv.1 < pkNat p 0 2 ∨ pkNat p 0 2 + pkNat p 2 2 ≤ kv.1 → stagedEntry t kv.1 = stagedEntry s kv.1))
         ∧ bankOf t.map s.map.bActive = bankOf s.map s.map.bActive ∧ same t) ∧
     (Accepted 0x0303 r q s → 10240 ≤ part → s.map.ecc = [] → s.map.a.all (fun kv => idxOk kv.1) = true → s.map.b.all (fun kv => idxOk kv.1) = true →
       ∃ t, exec (.mapCopyPart r [] part) s = .next t ∧ Answers t 0 0 (report 10240)
         ∧ (∀ kv ∈ s.map.a ++ s.map.b ++ t.map.a ++ t.map.b, stagedEntry t kv.1 = withSel s (activeEntry s kv.1))
         ∧ (∀ port : Fin 128, smiWord t.map (!s.map.bActive) port = smiWord s.map s.map.bActive port)
         ∧ bankOf t.map s.map.bActive = bankOf s.map s.map.bActive ∧ same t) ∧
     (Accepted 0x0305 r q s → 1 ≤ pk1 p 0 → pk1 p 0 ≤ 128 → (smiItems p).all (fun x => decide (x.1 < 128)) = true →
       ∃ t, exec (.smiWrite r) s = .next t ∧ Answers t 0 0 []
         ∧ (∀ i : Fin 128, i < pk1 p 0 → (∀ j : Fin 128, i < j → j < pk1 p 0 → pk1 p (2 + 6 * j) ≠ pk1 p (2 + 6 * i)) →
             smiWord t.map (!s.map.bActive) (pk1 p (2 + 6 * i)) = word (pkNat p (4 + 6 * i) 4))
         ∧ (∀ port : Fin 128, ((smiItems p).all fun x => x.1 != port.val) = true →
             smiWord t.map (!s.map.bActive) port = smiWord s.map (!s.map.bActive) port)
         ∧ smiOf t.map s.map.bActive = smiOf s.map s.map.bActive ∧ t.map.a = s.map.a ∧ t.map.b = s.map.b ∧ same t)) ∧
  (∀ (r : Req) (q : Run) (g : Nat) (s : State), Accepted 0x0301 r q s → pkNat r.params 0 2 = 1 → pkNat r.params 2 2 = g → g < 10240 →
     (frozenAny s 1 = false → mirHeld s = false → inPass s g = true →
       ∃ t, exec (.mapWritePart r [g] 1) s = .next t
         ∧ Answers t 3 0 ([by1 (b2n (!s.map.bActive)), 0, 0, 0, 0, 1] ++ beBytes 2 g)
         ∧ t.map = s.map ∧ Counted s t 4 0 ∧ bit (hist t hCore) 3 = true
         ∧ t = { s with vcp := t.vcp, com := { s.com with stageOpen := s.com.stageOpen ||| 1 }, mir := t.mir
                        sage := t.sage, regs := { s.regs with hist := t.regs.hist } }) ∧
     (frozenAny s 1 = true →
       ∃ t, exec (.mapWritePart r [g] 1) s = .next t ∧ Answers t 4 3 [] ∧ t = { s with vcp := t.vcp })) ∧
  (∀ (r : Req) (q : Run) (d n part : Nat) (s : State), powered s = true → s.seq.running = true → s.vcp.run = some q →
     q.req = r → q.op = 0x0301 → q.reply = none → q.work = d + 1 → pkNat r.params 0 2 = n → d < n → n ≤ 146 →
     (entryItems r.params 2 n).all (fun x => idxOk x.1) = true → frozenNow s 0 = true →
     ∃ t, exec (.mapWritePart r [] part) s = .next t
       ∧ Answers t 4 3 ([by1 (b2n (!s.map.bActive)), 0] ++ beBytes 2 q.stored.1 ++ beBytes 2 q.stored.2.1
           ++ beBytes 2 q.stored.2.2)
       ∧ t.com.frozenWr = true ∧ ctrVal t 3 4 = (ctrVal s 3 4 + (n - d)) % 2 ^ 64
       ∧ t = { s with vcp := t.vcp, com := { s.com with frozenWr := true }, sage := t.sage })


/-- The map family's reads (R281, R289): MAP_READ gives the entries of the bank named, H_MAP_READ zeros for those of
another holder, MAP_STATUS the state of the map, H_SLOT_STATS the counters of the slots its holder sees at the present
position. They change nothing but the command in execution (and draw the free values of words with an error). -/
def Obligations.MapReads : Prop :=
  ∀ (r : Req) (q : Run) (s : State), s.map.ecc = [] →
    let p := r.params
    (Accepted 0x0302 r q s → pk1 p 0 ≤ 3 → spanOk (pkNat p 2 2) (pkNat p 4 2) 180 = true →
      ∃ t, exec (.mapRead r) s = .next t
        ∧ Answers t 0 0 ([by1 (b2n (bankSel s (pk1 p 0))), 0] ++ beBytes 2 (pkNat p 2 2) ++ beBytes 2 (pkNat p 4 2)
            ++ (List.range (pkNat p 4 2)).flatMap (fun k => beBytes 8 (entryOf s.map (bankSel s (pk1 p 0)) (pkNat p 2 2 + k)).toNat))
        ∧ t = { s with vcp := t.vcp, fresh := t.fresh }) ∧
    (Accepted 0x0380 r q s → pkNat p 0 2 ≤ 1023 → pk1 p 2 ≤ 3 → spanOk (pkNat p 4 2) (pkNat p 6 2) 180 = true →
      ∃ t, exec (.hMapRead r) s = .next t
        ∧ Answers t 0 0 ([by1 (b2n (bankSel s (pk1 p 2))), 0] ++ beBytes 2 (pkNat p 4 2) ++ beBytes 2 (pkNat p 6 2)
            ++ (List.range (pkNat p 6 2)).flatMap (fun k =>
                let e := entryOf s.map (bankSel s (pk1 p 2)) (pkNat p 4 2 + k)
                if eHolder e = pkNat p 0 2 then beBytes 8 e.toNat else zeros 8))
        ∧ t = { s with vcp := t.vcp, fresh := t.fresh }) ∧
    (Accepted 0x0306 r q s →
      ∃ t, exec (.mapStatus r) s = .next t ∧ Answers t 0 0 (answer t)
        ∧ bit ((answer t).getD 0 0) 0 = s.map.bActive ∧ pkNat (answer t) 2 2 = s.map.changed % 65536
        ∧ (∀ k : Fin 4, pkNat (answer t) (10 + 8 * k) 8 = ctrVal s 4 k % 2 ^ 64) ∧ t = { s with vcp := t.vcp }) ∧
    (Accepted 0x0382 r q s → pkNat p 0 2 ≤ 1023 → spanOk (pkNat p 2 2) (pk1 p 4) 32 = true →
      ∃ t, exec (.hSlotStats r) s = .next t
        ∧ Answers t 0 0 (sfpBytes s.sfp ++ [by1 (pk1 p 4), 0]
            ++ (rangeFrom (pkNat p 2 2) (pk1 p 4)).flatMap (fun g =>
                if eHolder (activeEntry s g) = pkNat p 0 2 then
                  beBytes 2 g ++ [1, 0] ++ (List.range 4).flatMap (fun k => beBytes 8 (ctrVal s 0x200 (4 * g + k)))
                else beBytes 2 g ++ [0, 0] ++ zeros 32))
        ∧ t = { s with vcp := t.vcp })

/-- The scrubber of the connection map (R167): a single error is corrected, counted and awaits its write back, which
leaves the word without error; an uncorrectable one is recorded with its address, counted, sticky and traced. No
stored word changes. The scrubbers, the power transitions, the pins and the TAP (R321, R359, R362, R428, R447, R477;
Tables 08-10, 16-10 and 22-7). A clean word loses its error, a single error is corrected and counted, a double one
counted, latched and reported; a bank that is not ON is passed over. A transition reaches its state and answers the
MEM_POWER that waits for it. A pin drives its new function one frame after it was released. TAP instructions load
their data registers; while BSCAN_UNLOCK is 1 a code the manual does not list is refused. Readings of the model it
rests on: log 30, 66, 67, 70. -/
def Obligations.MemoriesAndPins : Prop :=
  (∀ (bankB smi : Bool) (idx n k : Nat) (s : State), powered s = true →
     (exec (.mapScrub bankB smi idx .clean) s = .next s) ∧
     (let i := if smi then 0x8000 + idx else idx
      eccDouble s.map bankB i = false →
       (∃ t, exec (.mapScrub bankB smi idx (.single n)) s = .next t ∧ Counted s t 4 2
         ∧ tget 0 t.map.ecc (eccKey bankB i) = 1 ∧ t.map.scrub = some (eccKey bankB i)
         ∧ t = { s with map := { s.map with ecc := t.map.ecc, scrub := t.map.scrub }, sage := t.sage }) ∧
       (∃ t, exec (.mapScrub bankB smi idx .double) s = .next t ∧ Counted s t 4 3 ∧ eccDouble t.map bankB i = true
         ∧ t.map.eccAddr = some (idx, bankB, smi) ∧ bit (hist t hCore) 0 = true
         ∧ (newest t).map (fun x => (x.cls, x.sub, x.at_)) = some (8, 1, s.sfp)
         ∧ t = { s with map := { s.map with ecc := t.map.ecc, eccAddr := t.map.eccAddr }, sage := t.sage
                        regs := { s.regs with hist := t.regs.hist } })) ∧
     (s.map.scrub = some k →
       ∃ t, exec .mapScrubWriteback s = .next t ∧ tget 0 t.map.ecc k = 0 ∧ t.map.scrub = none
         ∧ t = { s with map := { s.map with ecc := t.map.ecc, scrub := none } })) ∧
  (∀ (mem : Fin 6) (mb : Fin 3) (a : Nat) (e : Fin 72) (src dst bank : Nat) (q : Run) (n : Fin 16) (l : List Bool) (code : Byte) (s : State),
     powered s = true →
     let o := a / 8 * 8
     let m := mem.val
     (m = 0 ∨ m = 1 ∨ m = 3 → o < memSize m →
       (bankOn s m (memBankOf m o) = true →
         (∃ t, exec (.memoryScrub mem a .clean) s = .next t ∧ tfind t.mem.ecc (m * 2 ^ 32 + o) = none ∧ t.sage = s.sage
           ∧ t = { s with mem := { s.mem with ecc := t.mem.ecc } }) ∧
         (∃ t, exec (.memoryScrub mem a (.single e)) s = .next t ∧ tfind t.mem.ecc (m * 2 ^ 32 + o) = none ∧ Counted s t 1 5
           ∧ t = { s with mem := { s.mem with ecc := t.mem.ecc }, sage := t.sage }) ∧
         (∃ t, exec (.memoryScrub mem a .double) s = .next t ∧ tfind t.mem.ecc (m * 2 ^ 32 + o) = some 2 ∧ Counted s t 1 6
           ∧ t.mem.eccAddr = word (memBase s m + o) ∧ bit (hist t hSys) 0 = true
           ∧ (newest t).map (fun r => (r.cls, r.sub, r.obj.toNat)) = some (8, 1, m)
           ∧ t = { s with mem := { s.mem with ecc := t.mem.ecc, eccAddr := t.mem.eccAddr }, sage := t.sage
                          regs := { s.regs with hist := t.regs.hist } })) ∧
       (bankOn s m (memBankOf m o) = false → exec (.memoryScrub mem a .double) s = .next s)) ∧
     (m = 5 → a < 2048 → (grpOf s a).tblErr = false →
       ∃ t, exec (.memoryScrub mem a .double) s = .next t ∧ (grpOf t a).tblErr = true ∧ bit (hist t hProt) 2 = true ∧ Counted s t 4 6
         ∧ t = { s with grps := t.grps, sage := t.sage, regs := { s.regs with hist := t.regs.hist } }) ∧
     (m = 4 → (tfind s.map.lines (a / 2048)).isSome = true →
       ∃ t, exec (.memoryScrub mem a .double) s = .next t
         ∧ ((tget [] t.map.lineMem (a / 2048))[a % 2048]?).map (·.mark) = ((tget [] s.map.lineMem (a / 2048))[a % 2048]?).map (fun _ => true)
         ∧ Counted s t 0x300 (32 * ((tfind s.map.lines (a / 2048)).map (·.1)).getD 0 + 23)
         ∧ t = { s with map := { s.map with lineMem := t.map.lineMem }, sage := t.sage, regs := { s.regs with hist := t.regs.hist } }) ∧
     (bankSt s mb bank = .moving src dst → dst ≤ 2 →
       (∃ t, exec (.memPowerTransitionDone mb bank) s = .next t
         ∧ bankSt t mb bank = (if dst = 0 then .on else if dst = 1 then .ret else .off)
         ∧ (s.mem.powerWait = some (mb.val, bank) → s.vcp.run = some q → Answers t 0 0 [by1 src, by1 dst] ∧ t.mem.powerWait = none)
         ∧ (s.mem.powerWait ≠ some (mb.val, bank) → t.vcp = s.vcp)
         ∧ (dst ≠ 2 ∨ src = 2 → t.mem.bytes = s.mem.bytes ∧ t.mem.ram = s.mem.ram)
         ∧ t = { s with mem := t.mem, vcp := t.vcp, fresh := t.fresh })) ∧
     (isFrame s.sfp = true → s.sfp.fi = 1 → s.pins.switching = [(n.val, 2)] →
       ∃ t, exec .gpioSwitchDrive s = .next t ∧ t.pins.switching = [(n.val, 1)] ∧ tget 0 t.pins.func n = gpioFunc (actv s) n
         ∧ t = { s with pins := { s.pins with switching := t.pins.switching, func := t.pins.func, gpioOut := t.pins.gpioOut
                                              level := t.pins.level } }) ∧
     (∃ t, exec .idcode s = .next t ∧ t.pins.tapIr = 1
       ∧ (∀ k : Fin 32, t.pins.tapDr.getD k false = bit Config.idcode k) ∧ t = { s with pins := { s.pins with tapIr := 1, tapDr := t.pins.tapDr } }) ∧
     (exec (.samplePreload l) s = .next { s with pins := { s.pins with tapIr := 2, tapDr := l, tapBsr := l } }) ∧
     (code ≠ 1 → code ≠ 2 → (code = 0xFF ∨ bscanOpen s = false) →
       exec (.bypass code) s = .next { s with pins := { s.pins with tapIr := code, tapDr := [false] } }) ∧
     (code ≠ 1 → code ≠ 2 → code ≠ 0xFF → bscanOpen s = true → exec (.bypass code) s = .refused .bscanUnlocked) ∧
     (exec .tapReset s = .next { s with pins := { s.pins with tapIr := 1, tapDr := [] } }))

/-- One calendar cycle of the core (R120, R122, R127, R133, R143, R157, R160, R214). Ingress: a trunk whose fill calls for
no slip delivers the oldest cycle of its elastic buffer to its slots of the cycle's page, unless its port carries the
Local Fault fill; a slot that no trunk delivers holds Local Fault. Egress: each slot carries the block that its active
entry selects from the page two cycles back — Local Fault without a valid entry or with an uncorrectable one, the
source of a unicast entry, the selected source of a protected-select entry without a delay line, idle, or the error
block where the read has a parity error, which is counted. A trunk outside FAR loopback puts its 80 blocks on the lane
while its driver is on. The blocks that arrive on a trunk in frame enter its elastic buffer, those with an invalid
header as the error block. The connection map stays as it is. -/
def Obligations.CalendarCycles : Prop :=
  ∀ (i : Fin 10240) (p : Fin 128) (f : Nat) (bs : List Block) (bad : List Nat) (s : State), powered s = true →
    cycleStart s.sfp = true →
    let e := activeEntry s i
    let page := (calCycle s.sfp + 2) % 4 * 16384
    let tr := (portOf s p).trunk
    ∃ t, exec (.calendarCycle [(p.val, bs)] bad) s = .next t
      ∧ (isTrunk s p = true → tr.fill = some f → 80 ≤ f → f + 80 ≤ 2 * ebNominal s p →
          ((portOf s p).fillLf = false → ∀ k : Fin 80,
            tget lfFill t.map.store (calCycle s.sfp % 4 * 16384 + (p * 80 + k)) = delivered tr f k) ∧
          (isNear s p = false → inFrame tr = true →
            (portOf t p).trunk.fill = some (f - 80 + bs.length)
              ∧ (portOf t p).trunk.mem = (tr.mem ++ bs.map ingressBlock).drop (tr.mem.length + bs.length - 50000)))
      ∧ (isTrunk s (i / 80) = false ∨ (portOf s (i / 80)).fillLf = true ∨ (portOf s (i / 80)).trunk.fill = none →
          tget lfFill t.map.store (calCycle s.sfp % 4 * 16384 + i) = lfFill)
      ∧ (eValid e = false ∨ eccDouble s.map s.map.bActive i = true → tget lfFill t.map.egress i = lfFill)
      ∧ (eValid e = true → eccDouble s.map s.map.bActive i = false →
          (eKind e = 0 → bad.contains (eSrc e) = false → eSrc e < 16384 →
            tget lfFill t.map.egress i = tget lfFill s.map.store (page + eSrc e)) ∧
          (eKind e = 0 → bad.contains (eSrc e) = true → tget lfFill t.map.egress i = errBlock) ∧
          (let src := if (if (grpOf s (eGroup e)).en then (grpOf s (eGroup e)).egSel else eSel e) then eAlt e else eSrc e
           eKind e = 1 → lineFor s.map (eGroup e) i = none → bad.contains src = false → src < 16384 →
            tget lfFill t.map.egress i = tget lfFill s.map.store (page + src)) ∧
          (eKind e = 2 → tget lfFill t.map.egress i = idleBlock))
      ∧ (isTrunk s p = true → isFar s p = false →
          (portOf t p).line = if laneOn s p then (List.range 80).map (fun k => tget lfFill t.map.egress (p * 80 + k)) else [])
      ∧ (isTrunk s p = true → isNear s p = false →
          ctrVal t (0x100 + p) 30 = (ctrVal s (0x100 + p) 30 + bs.length) % 2 ^ 64
            ∧ ctrVal t (0x100 + p) 20 = (ctrVal s (0x100 + p) 20 + (bs.filter badHdr).length) % 2 ^ 64)
      ∧ ctrVal t 4 4 = (ctrVal s 4 4 + bad.length) % 2 ^ 64
      ∧ (bad ≠ [] → bit (hist t hCore) 1 = true ∧ some t.map.parityAddr = bad.getLast?)
      ∧ t = { s with map := { s.map with store := t.map.store, egress := t.map.egress, lineMem := t.map.lineMem
                                         gen := t.map.gen, parityAddr := t.map.parityAddr }
                     ports := t.ports, grps := t.grps, sage := t.sage, regs := { s.regs with hist := t.regs.hist }
                     fresh := t.fresh }

/-! Protection. -/

/-- The end of a group's hold-off raises its condition's request, counted, and decides the group (R183, R186); the end of
WTR takes the state request back to NR and decides it (R185). A selector that moves is counted, sticky and followed by
every member entry of both banks (R164, R187). Operator requests at their boundary (R184, R293): LO, FS and MS are
stored — MS is refused and counted where a higher request stands — CLEAR takes all three away, from a holder MS alone,
and the group is decided; a request that finds its group disabled is discarded and counted. Readings of the model it
rests on: log 31, 48, 88, 90. -/
def Obligations.ProtectionDecisions : Prop :=
  (∀ (g : Fin 2048) (k : Fin 3) (s : State), powered s = true → isFrame s.sfp = true → isStandby s = false →
     (grpOf s g).en = true → (grpOf s g).tblErr = false →
     ((condAt (grpOf s g) k).present = true → (condAt (grpOf s g) k).raised = false →
       holdFrames s g ≤ (condAt (grpOf s g) k).run →
       ∃ t, exec (.protHoldoffExpire g k) s = .next t ∧ (condAt (grpOf t g) k).raised = true
         ∧ Counted s t 0x300 (32 * g + (2 + k))
         ∧ ((if k.val = 0 then 8 else if k.val = 1 then 12 else 6) ≤ (grpOf t g).loc.toNat)
         ∧ Decided s t g
         ∧ ((grpOf t g).sel ≠ (grpOf s g).sel →
             Counted s t 0x300 (32 * g) ∧ bit (hist t hProt) 0 = true ∧ MembersFollow s t g)
         ∧ ((grpOf t g).sel = (grpOf s g).sel → t.map = s.map) ∧ OnlyGroup s t g) ∧
     ((grpOf s g).stReq = 2 → wtrFrames s g ≤ (grpOf s g).wtrRun → (grpOf s g).lo = false → (grpOf s g).fs = false →
       (grpOf s g).ms = false → (grpOf s g).sf.raised = false → (grpOf s g).sfp.raised = false →
       (grpOf s g).sd.raised = false → (grpOf s g).loc = 2 →
       ∃ t, exec (.protWtrExpire g) s = .next t ∧ (grpOf t g).stReq = 0 ∧ (grpOf t g).loc = 0 ∧ Decided s t g
         ∧ ((grpOf t g).sel ≠ (grpOf s g).sel →
             Counted s t 0x300 (32 * g) ∧ bit (hist t hProt) 0 = true ∧ MembersFollow s t g)
         ∧ OnlyGroup s t g)) ∧
  (∀ (g : Fin 2048) (x : GrpSt) (c : BitVec 4) (holder : Bool) (s : State), powered s = true → isFrame s.sfp = true →
     isStandby s = false → s.grps = [(g.val, x)] → x.pend = [(s.sfp, c, holder)] →
     (x.en = true → x.tblErr = false →
       ∃ t, exec .protRequestAct s = .next t ∧ (grpOf t g).pend = [] ∧ Decided s t g ∧ OnlyGroup s t g
         ∧ (c = 14 → (grpOf t g).lo = true ∧ (grpOf t g).loc = 14)
         ∧ (c = 10 → (grpOf t g).fs = true ∧ 10 ≤ (grpOf t g).loc.toNat)
         ∧ (c = 4 → max (baseReq x) (remoteReq s g).1 ≤ 4 → (grpOf t g).ms = true)
         ∧ (c = 4 → 4 < max (baseReq x) (remoteReq s g).1 → x.ms = false →
             (grpOf t g).ms = false ∧ Counted s t 0x300 (32 * g + 6) ∧ bit (hist t hProt) 4 = true)
         ∧ (c = 0 → holder = false → (grpOf t g).lo = false ∧ (grpOf t g).fs = false ∧ (grpOf t g).ms = false)
         ∧ (c = 0 → holder = true → (grpOf t g).lo = x.lo ∧ (grpOf t g).fs = x.fs ∧ (grpOf t g).ms = false)) ∧
     (x.en = false →
       ∃ t, exec .protRequestAct s = .next t ∧ grpOf t g = { x with pend := [] } ∧ Counted s t 0x300 (32 * g + 6)
         ∧ t = { s with grps := t.grps, sage := t.sage }))

/-- The APS channel (R112, R191 to R193). A block with a wrong CRC is counted by its position; an empty message gives
nothing; an APS_ID above 0x7FF, one of no group with this protection port, and an invalid content are counted. A valid
message is counted, and counted as a change where its content, without the reserved bits, is another than the message
before it had (R10); it waits for the frame boundary and ends APS_LOSS. Under NEAR loopback the port receives what it
sends (R148). APS_LOSS and FOP_NR of a bidirectional group begin by their timers, sticky, and the group is decided. The
report unit writes the oldest item as a trace record. Readings of the model it rests on: log 48, 78, 88. -/
def Obligations.ApsChannel : Prop :=
  ∀ (p : Fin 128) (o3 : Bool) (b : Block) (n : Nat) (g : Fin 2048) (it : ProtItem) (rest : List ProtItem) (s : State),
    powered s = true →
    (isTrunk s p = true → (portOf s p).trunk.align = .inFrame n →
      let b1 := rxOverhead s p (if o3 then (portOf s p).txO3 else (portOf s p).txO2) b
      let w := blkW b1
      let ok := isOverhead b1 && (crc16 ((blkBytes b1).take 5)).toNat == bits w 15 0
      (ok = false → ∃ t, exec (.apsReceive p o3 b) s = .next t ∧ Counted s t (0x100 + p) (if o3 then 24 else 23)
        ∧ t = { s with sage := t.sage }) ∧
      (ok = true → apsGroup w = 0xFFF → exec (.apsReceive p o3 b) s = .next s) ∧
      (ok = true → 0x800 ≤ apsGroup w → apsGroup w ≠ 0xFFF →
        ∃ t, exec (.apsReceive p o3 b) s = .next t ∧ Counted s t (0x100 + p) 25 ∧ t = { s with sage := t.sage }) ∧
      (ok = true → apsGroup w < 0x800 → apsGroupAt s p (apsGroup w) = none →
        ∃ t, exec (.apsReceive p o3 b) s = .next t ∧ Counted s t (0x100 + p) 26 ∧ t = { s with sage := t.sage }) ∧
      (ok = true → apsGroup w < 0x800 → apsGroupAt s p (apsGroup w) = some g.val →
        (apsValid w = false →
          ∃ t, exec (.apsReceive p o3 b) s = .next t ∧ Counted s t (0x100 + p) 44 ∧ t = { s with sage := t.sage }) ∧
        (apsValid w = true →
          ∃ t, exec (.apsReceive p o3 b) s = .next t ∧ Counted s t 0x300 (32 * g + 9)
            ∧ (((grpOf s g).rxNew.or (grpOf s g).rx).map apsContent = some (apsContent w) →
                ctrVal t 0x300 (32 * g + 10) = ctrVal s 0x300 (32 * g + 10))
            ∧ (((grpOf s g).rxNew.or (grpOf s g).rx).map apsContent ≠ some (apsContent w) → Counted s t 0x300 (32 * g + 10))
            ∧ (grpOf t g).rxNew = some w ∧ (grpOf t g).apsAge = 0 ∧ (grpOf t g).apsLoss = false
            ∧ (grpOf t g).sel = (grpOf s g).sel ∧ (grpOf t g).rx = (grpOf s g).rx ∧ OnlyGroup s t g))) ∧
    (isFrame s.sfp = true → isStandby s = false → (grpOf s g).en = true → (grpOf s g).tblErr = false →
      (gArch (actv s) g ≠ 0 → 5 ≤ (grpOf s g).apsAge → (grpOf s g).apsLoss = false → portSf s (protPort s g) = false →
        ∃ t, exec (.apsLoss g) s = .next t ∧ (grpOf t g).apsLoss = true ∧ (grpOf t g).rem = 0
          ∧ bit (hist t hProt) 1 = true ∧ OnlyGroup s t g) ∧
      (gArch (actv s) g ≠ 0 → 512 ≤ (grpOf s g).nrRun → (grpOf s g).fopNr = false →
        ∃ t, exec (.fopNr g) s = .next t ∧ (grpOf t g).fopNr = true ∧ bit (hist t hProt) 1 = true ∧ OnlyGroup s t g)) ∧
    (s.sage.items = it :: rest →
      ∃ t, exec .protectionReport s = .next t ∧ t.sage.items = rest
        ∧ (newest t).map (fun x => (x.at_, x.cls, x.sub, x.obj, x.data))
            = some (it.at_, it.cls, it.sub, BitVec.ofNat 16 it.g, it.data)
        ∧ t = { s with sage := t.sage, regs := { s.regs with hist := t.regs.hist } })

/-- The protection family's commands (Table 13-7, R184, R293 to R295). GRP_WRITE stages the group's registers in D2 alone;
GRP_READ and PROT_GRP_STATUS change nothing; PROT_REQUEST leaves its request to its completion (R254), from which it is
pending for the next frame boundary, and is DENIED, detail STATE, for a disabled group; MS and PROT_GRP_STATUS of a group
whose members another holder holds are DENIED, detail HOLDER; PROT_EQ_REALIGN grants a realignment of an UNALIGNED group
both of whose sources are locked, at the next valid measurement, and is DENIED for any other: detail STATE,
EQ_DELAY_RANGE or EQ_NO_LOCK. Readings of the model it rests on: log 41, 42, 86. -/
def Obligations.ProtectionCommands : Prop :=
  ∀ (r : Req) (q : Run) (s : State),
    let p := r.params
    let g := pkNat p 0 2
    (Accepted 0x0401 r q s → frozenAny s 4 = false → mirHeld s = false → grpArgsOk p = true →
      ∃ t, exec (.grpWrite r) s = .next t ∧ Answers t 0 0 []
        ∧ (let v := stgv t
           gEn v g = bit (p.getD 2 0) 7 ∧ gArch v g = bits (p.getD 2 0) 2 1 ∧ gRevert v g = bit (p.getD 2 0) 6
             ∧ gErrorless v g = bit (p.getD 2 0) 3 ∧ gHoldoff v g = pk1 p 3 ∧ gWtr v g = pk1 p 4 ∧ gHome v g = pk1 p 5
             ∧ gApsId v g = pkNat p 6 2 % 2048 ∧ gCount v g = pk1 p 8
             ∧ ∀ j : Fin 80, j < pk1 p 8 → gMember v g j = pkNat p (10 + 2 * j) 2)
        ∧ Staged s t 4) ∧
    (Accepted 0x0402 r q s → g ≤ 2047 → pk1 p 2 ≤ 1 →
      let v := viewSel s (pk1 p 2)
      ∃ t, exec (.grpRead r) s = .next t ∧ Answers t 0 0 (answer t) ∧ pkNat (answer t) 0 2 = g
        ∧ bit ((answer t).getD 2 0) 7 = gEn v g ∧ pk1 (answer t) 3 = gHoldoff v g ∧ pk1 (answer t) 4 = gWtr v g
        ∧ pkNat (answer t) 6 2 = gApsId v g ∧ (answer t).length = 10 + 2 * min (gCount v g) 80
        ∧ t = { s with vcp := t.vcp }) ∧
    (Accepted 0x0403 r q s → g ≤ 2047 → (pk1 p 2 = 14 ∨ pk1 p 2 = 10 ∨ pk1 p 2 = 4 ∨ pk1 p 2 = 0) →
      (gEn (actv s) g = true →
        ∃ t, exec (.protRequest r) s = .next t ∧ Answers t 0 0 []
          ∧ AtEnd t (.request g (BitVec.ofNat 4 (pk1 p 2)) (clsOf s q == 2)) ∧ t = { s with vcp := t.vcp }) ∧
      (gEn (actv s) g = false →
        ∃ t, exec (.protRequest r) s = .next t ∧ Answers t 4 9 [] ∧ t = { s with vcp := t.vcp })) ∧
    (Accepted 0x0404 r q s → g ≤ 2047 →
      ∃ t, exec (.protGrpStatus r) s = .next t ∧ Answers t 0 0 (answer t) ∧ (answer t).length = 25
        ∧ pkNat (answer t) 0 2 = g ∧ bit ((answer t).getD 2 0) 0 = (grpOf s g).sel
        ∧ (answer t).getD 5 0 = reqByte (grpOf s g).eff.toNat (grpOf s g).effSig ∧ t = { s with vcp := t.vcp }) ∧
    (Begun 0x0404 r q s → g ≤ 2047 → 2 ≤ p.length → groupBarred s q g = true →
      ∃ t, exec (.protGrpStatus r) s = .next t ∧ Answers t 4 2 [] ∧ t = { s with vcp := t.vcp }) ∧
    (Begun 0x0403 r q s → g ≤ 2047 → 3 ≤ p.length → pk1 p 2 = 4 → groupBarred s q g = true →
      ∃ t, exec (.protRequest r) s = .next t ∧ Answers t 4 2 [] ∧ t = { s with vcp := t.vcp }) ∧
    (Accepted 0x0405 r q s → g ≤ 2047 →
      let x := grpOf s g
      (x.eq = .unaligned → (x.eqWhy = 1 ∨ x.eqWhy = 5 ∨ x.eqWhy = 6) →
        ∃ t, exec (.protEqRealign r) s = .next t ∧ Answers t 0 0 [1, by1 x.eqWhy]
          ∧ grpOf t g = { x with grant := true, grantMeas := false }
          ∧ (∀ h : Fin 2048, h.val ≠ g → grpOf t h = grpOf s h) ∧ t = { s with vcp := t.vcp, grps := t.grps }) ∧
      (x.eq = .unaligned → x.eqWhy = 4 →
        ∃ t, exec (.protEqRealign r) s = .next t ∧ Answers t 4 0x4C [] ∧ t = { s with vcp := t.vcp }) ∧
      (x.eq = .unaligned → (x.eqWhy = 2 ∨ x.eqWhy = 3 ∨ x.eqWhy = 7) →
        ∃ t, exec (.protEqRealign r) s = .next t ∧ Answers t 4 0x4D [] ∧ t = { s with vcp := t.vcp }) ∧
      (x.eq ≠ .unaligned →
        ∃ t, exec (.protEqRealign r) s = .next t ∧ Answers t 4 9 [] ∧ t = { s with vcp := t.vcp }))

/-- The rows of an errorless group (R203 to R209). The detector reads the block that the lead member's source wrote into the
slot store: a marker whose SEQ follows its predecessor's by 1, 65,504 cycles later, locks its source, and any other
block than a marker gives nothing. Lock is lost once the places of 2 consecutive multiframes have passed without one:
counted, and ALIGNED goes to HOLD. Engagement at a permitted marker boundary, for a granted group after the next valid
measurement (R295), makes E the measured delay and the earlier source the delayed one, ALIGNED. A pending selector
change reaches the egress side at a marker boundary. Readings of the model it rests on: log 14, 48. -/
def Obligations.ErrorlessRows : Prop :=
  ∀ (g : Fin 2048) (prot : Bool) (i q : Nat) (c d : Int) (n : Nat) (f : Sfp) (s : State), powered s = true →
    let x := grpOf s g
    let mine := fun (y : GrpSt) => if prot then y.mp else y.mw
    (x.en = true → gErrorless (actv s) g = true → 8 ≤ s.sfp.bi →
      leadSource s g prot = some i →
      ((mine x).last = some (q, c) → markerSeq (stored s i) = some ((q + 1) % mfcMod) → (calCycle s.sfp : Int) = c + 65504 →
        ∃ t, exec (.pathMarkerJudge g prot) s = .next t ∧ (mine (grpOf t g)).lock = true
          ∧ (mine (grpOf t g)).last = some ((q + 1) % mfcMod, (calCycle s.sfp : Int)) ∧ (mine (grpOf t g)).slipped = 0
          ∧ (grpOf t g).eq = x.eq ∧ (grpOf t g).e = x.e ∧ (grpOf t g).sel = x.sel
          ∧ (∀ h : Fin 2048, h ≠ g → grpOf t h = grpOf s h) ∧ t = { s with grps := t.grps }) ∧
      (markerSeq (stored s i) = none → exec (.pathMarkerJudge g prot) s = .next s)) ∧
    ((mine x).lock = true → (mine x).last = some (q, c) →
      c + (mine x).slipped.natAbs + 2 * 65504 ≤ (calCycle s.sfp : Int) →
      ∃ t, exec (.pmLoss g prot) s = .next t ∧ (mine (grpOf t g)).lock = false
        ∧ (mine (grpOf t g)).last = none
        ∧ Counted s t 0x300 (32 * g + (if prot then 22 else 21))
        ∧ (x.eq = .aligned → (grpOf t g).eq = .hold) ∧ (x.eq ≠ .aligned → (grpOf t g).eq = x.eq)
        ∧ (grpOf t g).e = x.e ∧ (grpOf t g).sel = x.sel ∧ OnlyGroup s t g) ∧
    (x.en = true → x.eq = .unaligned → x.delta = some (d, n) → 2 ≤ n → d.natAbs ≤ 1953 → lockW s g = true → lockP s g = true →
      cycleStart s.sfp = true → markerDue (if d < 0 then x.mw else x.mp) 0 (calCycle s.sfp) = true →
      (d = 0 ∨ x.egSel ≠ decide (d < 0) ∨ x.firstEng = true ∨ x.grant = true ∧ x.grantMeas = true) →
      ∃ t, exec (.eqEngage g) s = .next t ∧ (grpOf t g).eq = .aligned ∧ (grpOf t g).e = d.natAbs
        ∧ (grpOf t g).delProt = decide (d < 0) ∧ (grpOf t g).grant = false ∧ Counted s t 0x300 (32 * g + 16)
        ∧ (grpOf t g).sel = x.sel ∧ OnlyGroup s t g) ∧
    (x.eqPend = some f → engaged x = true → 0 ≤ sfpDist (nextFrame f) s.sfp → markerBoundary s g = true →
      ∃ t, exec (.errorlessSelectorChange g) s = .next t ∧ (grpOf t g).egSel = x.sel ∧ (grpOf t g).eqPend = none
        ∧ (∀ h : Fin 2048, h ≠ g → grpOf t h = grpOf s h) ∧ t = { s with grps := t.grps })

/-! The twin pair. -/

/-- The pair family's commands (Table 14-5, R229, R231 to R234, R275, R313, R314, R393). PAIR_STATUS and PAIR_CFG_READ
change nothing; PAIR_CFG_WRITE stages PAIR_CFG in D7; PAIR_RESYNC of an UNSYNCED twin with a live active peer of its
COMPAT begins SYNCING and answers later; it is DENIED for any other twin, and at once against a silent link. PAIR_SWAP
and PAIR_FORCE_ACTIVE make their guarded pair on PAIR_CTL: the first write opens it, at the second the boundary is
recorded, unconfirmed, a pending swap withdrawn, or the twin becomes ACTIVE at the next frame boundary; a check that
fails leaves the pair as it was. Readings of the model it rests on: log 22, 25, 86. -/
def Obligations.PairCommands : Prop :=
  ∀ (r : Req) (q : Run) (x : Byte × Byte) (s : State),
    let p := r.params
    let f := sfpOfBytes p 0
    let ctl := aSys + 0x038
    (Accepted 0x0701 r q s →
      ∃ t, exec (.pairStatus r) s = .next t ∧ Answers t 0 0 (answer t) ∧ (answer t).length = 58
        ∧ pk1 (answer t) 0 % 8 = pairCode s.pair.st ∧ bit ((answer t).getD 0 0) 3 = s.pins.twinPos
        ∧ bit ((answer t).getD 0 0) 4 = s.pair.aliveIn ∧ bit ((answer t).getD 0 0) 5 = s.pair.aliveOut
        ∧ bit ((answer t).getD 2 0) 6 = s.pair.swap.isSome ∧ bit ((answer t).getD 2 0) 7 = s.pair.resync
        ∧ t = { s with vcp := t.vcp }) ∧
    (Accepted 0x0702 r q s → frozenAny s 128 = false → mirHeld s = false → s.regs.pairs = [] → 8 ≤ pkNat p 2 2 →
      pkNat p 2 2 ≤ 16383 → 16 ≤ pkNat p 4 2 → pkNat p 4 2 ≤ 4096 →
      ∃ t, exec (.pairCfgWrite r) s = .next t ∧ Answers t 0 0 []
        ∧ (let v := stgv t
           pairEn v = bit (p.getD 0 0) 0 ∧ autoResync v = bit (p.getD 0 0) 1 ∧ swapGap v = pkNat p 2 2 ∧ txWatch v = pkNat p 4 2)
        ∧ Staged s t 128) ∧
    (Accepted 0x0703 r q s → pk1 p 0 ≤ 1 →
      let v := viewSel s (pk1 p 0)
      ∃ t, exec (.pairCfgRead r) s = .next t
        ∧ Answers t 0 0 ([by1 (at1 (pairEn v) 0 + at1 (autoResync v) 1), 0] ++ beBytes 2 (swapGap v) ++ beBytes 2 (txWatch v))
        ∧ t = { s with vcp := t.vcp }) ∧
    (Accepted 0x0704 r q s →
      (s.pair.st = .unsynced → chiveSilent s = false →
        s.pair.peer.map (fun y => (y.1, y.2.2.2)) = some (2, ownCompat s) →
        ∃ t, exec (.pairResync r) s = .next t ∧ replyNow t = none ∧ PairBecomes s t 1 .syncing ∧ t.pair.resync = true
          ∧ t.pair.phase = 1
          ∧ t = { s with vcp := t.vcp, pair := t.pair, sage := t.sage, regs := { s.regs with hist := t.regs.hist } }) ∧
      (s.pair.st = .unsynced → chiveSilent s = true →
        ∃ t, exec (.pairResync r) s = .next t ∧ Answers t 4 8 [] ∧ t.pair.st = .unsynced ∧ t.pair.why = 2
          ∧ t = { s with vcp := t.vcp, pair := t.pair, sage := t.sage, regs := { s.regs with hist := t.regs.hist } }) ∧
      (s.pair.st ≠ .unsynced →
        ∃ t, exec (.pairResync r) s = .next t ∧ Answers t 4 9 [] ∧ t = { s with vcp := t.vcp })) ∧
    (Accepted 0x0705 r q s → f.bi = 0 → bit (p.getD 10 0) 0 = false → s.regs.pairs = [] →
      (swapCheck s q.accept f = none →
        ∃ t, exec (.pairSwap r) s = .next t ∧ replyNow t = none ∧ t.vcp.run.map (·.work) = some 2
          ∧ t.regs.pairs = [(0, { addr := ctl, val := 1, at_ := s.sfp })]
          ∧ (f.mfc < mfcMod → f.fi < 32 → swapNamed t = f)
          ∧ t = { s with vcp := t.vcp, regs := { s.regs with act := t.regs.act, pairs := t.regs.pairs } }) ∧
      (swapCheck s q.accept f = some x →
        ∃ t, exec (.pairSwap r) s = .next t ∧ Answers t x.1 x.2 [] ∧ t = { s with vcp := t.vcp })) ∧
    (SecondWrite 0x0705 r q 0 ctl 1 s → f.bi = 0 → bit (p.getD 10 0) 0 = false →
      (swapCheck s q.accept (swapNamed s) = none →
        ∃ t, exec (.pairSwap r) s = .next t ∧ Answers t 0 0 (sfpBytes f)
          ∧ t.pair = { s.pair with swap := some (swapNamed s, false) } ∧ t.regs.pairs = []
          ∧ t = { s with vcp := t.vcp, pair := t.pair, mir := t.mir
                         regs := { s.regs with gw := t.regs.gw, pairs := t.regs.pairs } }) ∧
      (swapCheck s q.accept (swapNamed s) = some x →
        ∃ t, exec (.pairSwap r) s = .next t ∧ Answers t x.1 x.2 [] ∧ t.pair = s.pair ∧ t.regs.pairs = [])) ∧
    (SecondWrite 0x0705 r q 0 ctl 2 s → f.bi = 0 → bit (p.getD 10 0) 0 = true →
      cancelCheck s q.accept (swapNamed s) = none →
      ∃ t, exec (.pairSwap r) s = .next t ∧ Answers t 0 0 (sfpBytes f) ∧ t.pair = { s.pair with swap := none }
        ∧ t = { s with vcp := t.vcp, pair := t.pair, mir := t.mir
                       regs := { s.regs with gw := t.regs.gw, pairs := t.regs.pairs } }) ∧
    (Accepted 0x0706 r q s → s.regs.pairs = [] → s.pair.st = .unsynced → s.pair.aliveIn = false → s.pair.live0 = false →
      s.pair.live1 = false →
      ∃ t, exec (.pairForceActive r) s = .next t ∧ replyNow t = none ∧ t.vcp.run.map (·.work) = some 2
        ∧ t = { s with vcp := t.vcp, regs := { s.regs with pairs := [(0, { addr := ctl, val := 4, at_ := s.sfp })] } }) ∧
    (SecondWrite 0x0706 r q 0 ctl 4 s → (s.pair.st = .unsynced ∨ s.pair.st = .syncing) → s.pair.aliveIn = false →
      s.pair.live0 = false → s.pair.live1 = false →
      ∃ t, exec (.pairForceActive r) s = .next t ∧ Answers t 0 0 (sfpBytes (nextFrame s.sfp))
        ∧ t.pair = { s.pair with force := some (nextFrame s.sfp) }
        ∧ t = { s with vcp := t.vcp, pair := t.pair, regs := { s.regs with gw := t.regs.gw, pairs := t.regs.pairs } })

/-- The Chive link and ALIVE (R217, R218, R222, R224 to R227, R232, R435). A heartbeat with a wrong code or CRC gives
nothing; a correct one is the peer's present state, and a standby's count, its MFC slices complete, then lies within 4
blocks of it; one of a live active ends a blocked takeover; at a resync it ends the Link phase. A lane without one for
16,384 blocks is down, counted; with both silent the mirror is lost, its queue flushed, and a resync fails. ALIVE_IN
follows its pin. A STANDBY whose link is silent while ALIVE_IN is high is UNSYNCED; with ALIVE_IN low too it takes over:
ACTIVE, counted, with no swap pending, the mirror queue flushed and the transmit watch begun. Readings of the model it
rests on: log 57, 84, 86, 87. -/
def Obligations.PairLink : Prop :=
  ∀ (lane : Fin 2) (b : Block) (comp : Nat) (locked level : Bool) (s : State), powered s = true →
    (hbGood b = false → exec (.heartbeatTake lane b comp locked) s = .next s) ∧
    (hbGood b = true → MatFree s → (holdsLines s = true ∨ s.pair.st = .standby) →
      ∃ t, exec (.heartbeatTake lane b comp locked) s = .next t
        ∧ t.pair.peer = some (BitVec.ofNat 3 (bits (blkW b) 20 18), bit (blkW b) 16, bit (blkW b) 17, BitVec.ofNat 8 (bits (blkW b) 15 8))
        ∧ (if lane.val = 0 then t.pair.hb0 else t.pair.hb1) = some t.sfp
        ∧ (if lane.val = 0 then t.pair.live0 else t.pair.live1) = true ∧ t.pair.lost = false
        ∧ (bit (blkW b) 17 = true → bits (blkW b) 20 18 = 2 → t.pair.blocked = false)
        ∧ t.pair.st = s.pair.st ∧ (holdsLines s = true → t = { s with pair := t.pair, mir := t.mir })
        ∧ (s.pair.st = .standby → t.pair.hbSlices.length = 6 → (sfpDist t.sfp (hbPosition t (blkW b) comp)).natAbs ≤ 4)
        ∧ CountOnly s t) ∧
    (hbGood b = true → MatFree s → s.pair.st = .syncing →
      (s.pair.phase = 1 → bits (blkW b) 15 8 = (ownCompat s).toNat →
        ∃ t, exec (.heartbeatTake lane b comp locked) s = .next t ∧ t.pair.st = .syncing ∧ t.pair.phase = 2
          ∧ CountOnly s t) ∧
      (bits (blkW b) 15 8 ≠ (ownCompat s).toNat →
        ∃ t, exec (.heartbeatTake lane b comp locked) s = .next t ∧ t.pair.st = .unsynced ∧ t.pair.why = 5
          ∧ t.pair.resync = false ∧ CountOnly s t)) ∧
    ((if lane.val = 0 then s.pair.down0 else s.pair.down1) = false →
      heardWithin s (if lane.val = 0 then s.pair.hb0 else s.pair.hb1) 16384 = false →
      ∃ t, exec (.chiveLaneDown lane) s = .next t ∧ (if lane.val = 0 then t.pair.down0 else t.pair.down1) = true
        ∧ (if lane.val = 0 then t.pair.live0 else t.pair.live1) = false ∧ Counted s t 6 8 ∧ bit (hist t hPair) 8 = true
        ∧ t.pair.st = s.pair.st
        ∧ t = { s with pair := t.pair, mir := t.mir, sage := t.sage, regs := { s.regs with hist := t.regs.hist } }) ∧
    (chiveSilent s = true → s.pair.lost = false → s.pair.hb0.isSome = true → MatFree s →
      ∃ t, exec .mirrorLost s = .next t ∧ t.pair.lost = true ∧ bit (hist t hPair) 0 = true ∧ t.mir = {}
        ∧ (s.pair.st = .standby → s.pair.aliveIn = true → t.pair.st = .unsynced ∧ t.pair.why = 2)
        ∧ (s.pair.st = .syncing → t.pair.st = .unsynced ∧ t.pair.why = 2 ∧ t.pair.resync = false)
        ∧ (s.pair.st ≠ .syncing → (s.pair.st ≠ .standby ∨ s.pair.aliveIn = false) → t.pair.st = s.pair.st ∧ t.vcp = s.vcp)
        ∧ t = { s with vcp := t.vcp, pair := t.pair, mir := t.mir, sage := t.sage
                       regs := { s.regs with hist := t.regs.hist } }) ∧
    (∃ t, exec (.aliveInChange level) s = .next t ∧ t.pair.aliveIn = level
        ∧ (s.pair.st = .standby → level = true → chiveSilent s = true → PairBecomes s t 1 .unsynced)
        ∧ (s.pair.st ≠ .standby ∨ level = false ∨ chiveSilent s = false → t.pair.st = s.pair.st)
        ∧ t = { s with pair := t.pair, sage := t.sage, regs := { s.regs with hist := t.regs.hist } }) ∧
    (s.pair.st = .standby → pairEn (actv s) = true → s.pair.aliveIn = false → chiveSilent s = true →
      ∃ t, exec .takeover s = .next t ∧ PairBecomes s t 2 .active ∧ Counted s t 6 1 ∧ bit (hist t hPair) 6 = true
        ∧ t.pair.swap = none ∧ t.mir = {} ∧ (t.pair.watch.map (·.1)) = some (sfpAdd s.sfp (txWatch (actv s) * 5240576))
        ∧ (s.thy.st = .holdover → t.thy.ctl = s.thy.hoFreq)
        ∧ t.map = s.map ∧ t.com = s.com ∧ t.sfp = s.sfp)

/-- The mirror (R219, R221, R232 to R235, R435). A standby applies the active's records, each to the part it names; during
the bulk transfer of a resync changes are journalled; a twin that is UNPAIRED or ARBITRATING takes none; the standby
confirms a swap and the active takes the confirmation; an UNSYNCED twin takes the active's restart of its resync. The
twin compares the audit's CRC values with its own: it counts the segments that differ and asks for each; the second
audit in a row that finds one of them ends the synchronisation of a STANDBY, and in Catch-up a match of all ends the
phase. A resync that is done makes the twin STANDBY at the epoch boundary. Readings of the model it rests on: log 56, 86,
92, 94. -/
def Obligations.PairMirror : Prop :=
  ∀ (at_ : Sfp) (m : MirrorRec) (g a : Nat) (act : Bool) (e : Entry) (w : Word) (o u : BitVec 8) (f : Sfp)
    (crcs : List Word) (q : Run) (s : State), powered s = true →
    let bad := (List.range 142).filter (fun k => (auditCrcs s).getD k 0 != crcs.getD k 0)
    (s.pair.st = .unpaired ∨ s.pair.st = .arbitrating → exec (.mirrorRecordTake at_ m) s = .next s) ∧
    (s.pair.st = .standby ∨ s.pair.st = .syncing ∧ 4 ≤ s.pair.phase →
      (∃ t, exec (.mirrorRecordTake at_ (.mapStore act g e)) s = .next t
        ∧ entryOf t.map (if act then s.map.bActive else !s.map.bActive) g = e
        ∧ t = { s with map := { s.map with a := t.map.a, b := t.map.b, ecc := t.map.ecc, scrub := t.map.scrub } }) ∧
      (∃ t, exec (.mirrorRecordTake at_ (.viewWrite act a w)) s = .next t ∧ (if act then actv t a else stgv t a) = w
        ∧ t = { s with regs := { s.regs with act := t.regs.act, stg := t.regs.stg } }) ∧
      exec (.mirrorRecordTake at_ (.stageBits o u)) s = .next { s with com := { s.com with stageOpen := o, suspect := u } } ∧
      (∃ t, exec (.mirrorRecordTake at_ (.swap (some f))) s = .next t
        ∧ t = { s with pair := { s.pair with swap := some (f, true) }, mir := t.mir })) ∧
    (s.pair.st = .syncing → s.pair.phase = 3 →
      exec (.mirrorRecordTake at_ (.mapStore act g e)) s
        = .next { s with pair := { s.pair with journal := s.pair.journal ++ [(at_, .mapStore act g e)] } }) ∧
    (s.pair.st = .standby →
      ∃ t, exec (.mirrorAudit crcs) s = .next t ∧ ctrVal t 6 3 = (ctrVal s 6 3 + bad.length) % 2 ^ 64
        ∧ (bad.any (fun k => s.pair.auditBad.contains k) = true → PairBecomes s t 1 .unsynced ∧ t.pair.why = 3)
        ∧ (bad.any (fun k => s.pair.auditBad.contains k) = false → t.pair = { s.pair with auditBad := bad })
        ∧ t = { s with pair := t.pair, mir := t.mir, sage := t.sage, regs := { s.regs with hist := t.regs.hist } }) ∧
    (s.pair.st = .syncing → s.pair.phase = 4 →
      ∃ t, exec (.mirrorAudit crcs) s = .next t ∧ ctrVal t 6 3 = (ctrVal s 6 3 + bad.length) % 2 ^ 64
        ∧ t.pair.st = .syncing ∧ t.pair.phase = (if bad.isEmpty then 5 else 4)
        ∧ t = { s with pair := t.pair, mir := t.mir, sage := t.sage }) ∧
    (s.pair.st = .active →
      (s.pair.swap = some (f, false) →
        exec (.mirrorRecordTake at_ (.swapConfirm f)) s = .next { s with pair := { s.pair with swap := some (f, true) } }) ∧
      (∃ t, exec (.mirrorRecordTake at_ .auditRequest) s = .next t ∧ t = { s with mir := t.mir })) ∧
    (s.pair.st = .unsynced → s.seq.running = true → s.vcp.run = none →
      ∃ t, exec (.mirrorRecordTake at_ .resyncStart) s = .next t ∧ PairBecomes s t 1 .syncing
        ∧ t = { s with pair := t.pair, sage := t.sage, regs := { s.regs with hist := t.regs.hist } }) ∧
    (s.pair.st = .syncing → s.pair.phase = 5 → isEpoch s.sfp = true →
      ∃ t, exec .resyncEnd s = .next t ∧ PairBecomes s t 5 .standby ∧ t.pair.resync = false
        ∧ (s.vcp.run = some q → q.op = 0x0704 → q.reply = none → Answers t 0 0 (answer t) ∧ (answer t).length = 12)
        ∧ t = { s with vcp := t.vcp, pair := t.pair, sage := t.sage, regs := { s.regs with hist := t.regs.hist } })

/-- The planned swap, the watch, forcing and arbitration (R229, R234 to R236, R238, R239). At a confirmed F the active
leaves the lines, its queues flushed; at F:64 the standby that sees ALIVE_IN low takes them, to transmit from F:SWAP_GAP,
and one that sees it high stays; an unconfirmed swap is aborted one frame before F, counted; an old active that saw no
ALIVE_IN by F:4096 takes the lines again. TX_SUSPECT takes the ports that newly report a failure. A forced twin is ACTIVE
at its boundary. Arbitration ends after its run of boundaries with ALIVE_IN low, ACTIVE where PAIR_EN is set, else
UNPAIRED. Readings of the model it rests on: log 57. -/
def Obligations.PairSwaps : Prop :=
  ∀ (f : Sfp) (c : Bool) (was : BitVec 128) (s : State), powered s = true →
    (s.pair.swap = some (s.sfp, true) → s.pair.st = .active →
      ∃ t, exec .pairSwapExecute s = .next t ∧ PairBecomes s t 1 .standby ∧ t.pair.swap = none
        ∧ t.pair.swapped = (if s.pair.aliveIn then none else some s.sfp) ∧ t.pair.watch = none ∧ t.mir = {}
        ∧ (∀ p : Fin 128, (portOf t p).txq = [] ∧ (portOf t p).txNow = none ∧ (portOf t p).trunk.reasm = none)
        ∧ t = { s with pair := t.pair, ports := t.ports, mir := t.mir, sage := t.sage, auto := t.auto
                       com := { s.com with stageOpen := t.com.stageOpen }, regs := { s.regs with hist := t.regs.hist } }) ∧
    (s.pair.swap = some (f, c) → sfpAdd f 64 = s.sfp → s.pair.st = .standby →
      (s.pair.aliveIn = false →
        ∃ t, exec .pairSwapAssume s = .next t ∧ t.pair.swap = none ∧ PairBecomes s t 3 .active ∧ Counted s t 6 4
          ∧ t.pair.txFrom = some (sfpAdd f (swapGap (actv s))) ∧ t.pair.watch.isSome = true ∧ t.mir = {}
          ∧ t = { s with pair := t.pair, thy := { s.thy with ctl := t.thy.ctl }, mir := t.mir, sage := t.sage
                         regs := { s.regs with hist := t.regs.hist } }) ∧
      (s.pair.aliveIn = true → exec .pairSwapAssume s = .next { s with pair := { s.pair with swap := none } })) ∧
    (s.pair.swap = some (f, false) → isFrame s.sfp = true → nextFrame s.sfp = f → s.pair.st = .active →
      ∃ t, exec .pairSwapAbort s = .next t ∧ t.pair = { s.pair with swap := none } ∧ Counted s t 6 5
        ∧ t = { s with pair := t.pair, mir := t.mir, sage := t.sage, fresh := t.fresh
                       regs := { s.regs with hist := t.regs.hist } }) ∧
    (s.pair.swapped = some f → sfpAdd f 4096 = s.sfp → s.pair.st = .standby →
      ∃ t, exec .pairSwapRevert s = .next t ∧ PairBecomes s t 4 .active ∧ Counted s t 6 5 ∧ t.pair.swapped = none
        ∧ t = { s with pair := t.pair, sage := t.sage, fresh := t.fresh, regs := { s.regs with hist := t.regs.hist } }) ∧
    (s.pair.watch = some (f, was) → 0 ≤ sfpDist f s.sfp →
      ∃ t, exec .txWatchEnd s = .next t ∧ t.pair.watch = none
        ∧ (farBad s &&& ~~~was &&& ~~~s.pair.watchNew ≠ 0 →
            t.pair.txSuspect = s.pair.txSuspect ||| s.pair.watchNew ||| (farBad s &&& ~~~was) ∧ Counted s t 6 6)
        ∧ (farBad s &&& ~~~was &&& ~~~s.pair.watchNew = 0 → t.pair.txSuspect = s.pair.txSuspect ∧ t.sage = s.sage)
        ∧ t = { s with pair := t.pair, sage := t.sage, regs := { s.regs with hist := t.regs.hist } }) ∧
    (s.pair.force = some s.sfp → s.pair.st = .unsynced ∨ s.pair.st = .syncing →
      ∃ t, exec .forceActiveAct s = .next t ∧ PairBecomes s t 1 .active ∧ t.pair.force = none ∧ t.pair.blocked = false
        ∧ t = { s with vcp := t.vcp, pair := t.pair, sage := t.sage, regs := { s.regs with hist := t.regs.hist } }) ∧
    (isFrame s.sfp = true → s.phase = .ready → s.seq.rescue = false → s.pair.st = .arbitrating → s.pair.aliveIn = false →
      (if s.pins.twinPos then 2048 else 2) ≤ s.pair.arbRun → s.flash.cfg = none →
      ∃ t, exec .arbitrationEnd s = .next t ∧ PairBecomes s t 1 (if pairEn (actv s) then .active else .unpaired)
        ∧ t = { s with pair := t.pair, sage := t.sage, regs := { s.regs with hist := t.regs.hist } })

/-- AUTO_RESTORE (R239, R458 to R461). A saved configuration with AUTO_RESTORE set begins stage 1 at the end of
arbitration: D3, D5, D6 and D7 stand open. A stage that is staged by an engine in ACTIVE or UNPAIRED holds the saved
words of its domains in their staged views, and its commit is pending at the earliest epoch. Stage 2 begins once Thyme is
LOCKED, or 178,893 multiframes after the first strobe; a standby begins none. Readings of the model it rests on: log 58.
-/
def Obligations.AutoRestore : Prop :=
  ∀ (c : SavedCfg) (i : Nat) (m : Sfp) (s : State), powered s = true →
    (isFrame s.sfp = true → s.phase = .ready → s.seq.rescue = false → s.pair.st = .arbitrating → s.pair.aliveIn = false →
      2048 ≤ s.pair.arbRun → s.flash.cfg = some c → c.auto = true →
      ∃ t, exec .arbitrationEnd s = .next t ∧ t.auto.stage = .stage1 ∧ t.com.stageOpen = s.com.stageOpen ||| 0xE8
        ∧ t = { s with pair := t.pair, auto := t.auto, com := { s.com with stageOpen := t.com.stageOpen }, mir := t.mir
                       sage := t.sage, regs := { s.regs with hist := t.regs.hist } }) ∧
    (s.auto.stage = .stage1 → s.flash.cfg = some c → s.seq.running = true → holdsLines s = true →
      commitRefuse (closeDomains (stageSaved s c.regs 0xE8) 0xE8) s.sfp 0xE8 (earliest s.sfp) = none →
      entFor s (earliest s.sfp) = none → freeEnt s = some i →
      ∃ t, exec .autoRestoreStaged s = .next t ∧ t.auto.stage = .committed1
        ∧ (tfind t.com.ents i).map (fun x => (x.epoch, x.mask, x.st)) = some (earliest s.sfp, 0xE8, .pending)
        ∧ (∀ kv ∈ s.regs.stg ++ c.regs, ∀ d : Fin 8, domOf kv.1 = some d.val →
            (bit (0xE8 : BitVec 8) d = true → stgv t kv.1 = tget (regReset kv.1) c.regs kv.1) ∧
            (bit (0xE8 : BitVec 8) d = false → stgv t kv.1 = stgv s kv.1))
        ∧ t.com.stageOpen = s.com.stageOpen &&& ~~~0xE8 ∧ t.regs.act = s.regs.act ∧ t.map = s.map) ∧
    (isFrame s.sfp = true → s.auto.stage = .waitLock → s.seq.running = true → s.vcp.run = none →
      (holdsLines s = true → s.thy.st = .locked → tFrameSrc (actv s) ≠ 1 →
        ∃ t, exec .autoRestoreStage2 s = .next t ∧ t.auto.stage = .stage2 ∧ t.com.stageOpen = s.com.stageOpen ||| 0x17
          ∧ t = { s with auto := t.auto, com := { s.com with stageOpen := t.com.stageOpen }, mir := t.mir }) ∧
      (holdsLines s = true → s.auto.strobe1 = some m → 178893 * 5240576 ≤ sfpDist m s.sfp →
        ∃ t, exec .autoRestoreStage2Timeout s = .next t ∧ t.auto.stage = .stage2
          ∧ t.com.stageOpen = s.com.stageOpen ||| 0x17 ∧ (newest t).map (fun r => (r.cls, r.sub)) = some (2, 1)
          ∧ t = { s with auto := t.auto, com := { s.com with stageOpen := t.com.stageOpen }, mir := t.mir, sage := t.sage
                         regs := { s.regs with hist := t.regs.hist } }) ∧
      (holdsLines s = false →
        exec .autoRestoreStage2 s = .next s ∧ exec .autoRestoreStage2Timeout s = .next s))

/-! The power stage. -/

/-- Two feeds (R241 to R246, R249). A crossing alone moves nothing; one that recovers within the qualification time is a
glitch. A UV or OV declared on the selected feed takes its GOOD away and begins the failover to a GOOD standby feed,
whose path closes; without one the module is browned out, and SEL stays. The failover's end selects the standby feed
and opens the old path. A feed that becomes GOOD never switches a healthy module back, but begins the failover of a
browned-out one; a standby feed that is no longer GOOD leaves SEL; an OV
trip opens its path at once. A UV or OV release of the selected feed ends the brown-out that it caused. Counters, sticky
bits and records wait for the frame boundary. Readings of the model it rests on: log 59. -/
def Obligations.FeedSupervision : Prop :=
  ∀ (b ov : Bool) (s : State), powered s = true → s.pwr.hasSel = true →
    let sel := s.pwr.sel
    let only := fun (t : State) => t = { s with pwr := t.pwr, fresh := t.fresh }
    (∃ t, exec .feedUvCross s = .next t ∧ feedUv t.pwr sel = true ∧ t.pwr.sel = sel ∧ feedGoodOf t.pwr sel = feedGoodOf s.pwr sel
      ∧ only t) ∧
    (feedUv s.pwr sel = true → s.pwr.declared = false →
      ∃ t, exec .feedGlitch s = .next t ∧ feedUv t.pwr sel = false ∧ t.pwr.sel = sel
        ∧ t.pwr.pendCtr = s.pwr.pendCtr ++ [if sel then 5 else 4] ∧ feedGoodOf t.pwr sel = feedGoodOf s.pwr sel ∧ only t) ∧
    (s.pwr.failover = none → s.pwr.declared = false → s.pwr.switching = none →
      (feedGoodOf s.pwr (!sel) = true →
        (∃ t, exec .feedUvDeclare s = .next t ∧ t.pwr.failover = some (!sel) ∧ feedPath t.pwr (!sel) = true ∧ t.pwr.sel = sel
          ∧ feedGoodOf t.pwr sel = false ∧ feedUv t.pwr sel = true ∧ only t) ∧
        (∃ t, exec .feedOvDeclare s = .next t ∧ t.pwr.failover = some (!sel) ∧ feedPath t.pwr (!sel) = true ∧ t.pwr.sel = sel
          ∧ feedGoodOf t.pwr sel = false ∧ feedOv t.pwr sel = true ∧ only t)) ∧
      (feedGoodOf s.pwr (!sel) = false → s.pwr.brownout = false →
        (∃ t, exec .feedUvDeclare s = .next t ∧ t.pwr.brownout = true ∧ t.pwr.sel = sel ∧ t.pwr.failover = none
          ∧ t.pwr.pendCtr = s.pwr.pendCtr ++ [if sel then 2 else 1, 6] ∧ only t) ∧
        (∃ t, exec .feedOvDeclare s = .next t ∧ t.pwr.brownout = true ∧ t.pwr.sel = sel ∧ t.pwr.failover = none
          ∧ t.pwr.pendCtr = s.pwr.pendCtr ++ [3, 6] ∧ only t))) ∧
    (s.pwr.failover = some b → b ≠ sel → s.pwr.switching = none →
      ∃ t, exec .feedFailoverComplete s = .next t ∧ t.pwr.sel = b ∧ feedPath t.pwr sel = false ∧ t.pwr.failover = none
        ∧ t.pwr.brownout = false ∧ t.pwr.declared = false ∧ 0 ∈ t.pwr.pendCtr ∧ only t) ∧
    (∃ t, exec (.feedGood b) s = .next t ∧ feedGoodOf t.pwr b = true ∧ feedUv t.pwr b = false ∧ feedOv t.pwr b = false
      ∧ (s.pwr.declared = false → t.pwr.sel = sel ∧ t.pwr.failover = s.pwr.failover)
      ∧ (s.pwr.declared = true → b ≠ sel → s.pwr.failover = none → s.pwr.switching = none →
          t.pwr.failover = some b ∧ t.pwr.sel = sel ∧ feedPath t.pwr b = true)
      ∧ (b = sel → s.pwr.failover = none → t.pwr.declared = false ∧ t.pwr.brownout = false ∧ t.pwr.sel = sel)
      ∧ (s.pwr.switching = none → only t)) ∧
    (b ≠ sel →
      (∃ t, exec (.feedNotGood b ov) s = .next t ∧ feedGoodOf t.pwr b = false ∧ t.pwr.sel = sel
        ∧ (if ov then feedOv t.pwr b else feedUv t.pwr b) = true
        ∧ (feedGoodOf s.pwr b = true → bit t.pwr.pendHist 5 = true ∧ t.pwr.pendCtr = s.pwr.pendCtr ++ [9]) ∧ only t)) ∧
    (∃ t, exec (.ovTrip b) s = .next t ∧ feedPath t.pwr b = false ∧ feedOv t.pwr b = true ∧ t.pwr.sel = sel ∧ only t) ∧
    (s.pwr.brownout = true → (if ov then feedOv s.pwr sel else feedUv s.pwr sel) = true →
      ∃ t, exec (.uvReleased ov) s = .next t ∧ t.pwr.brownout = false ∧ t.pwr.declared = false
        ∧ (if ov then feedOv t.pwr sel else feedUv t.pwr sel) = false ∧ t.pwr.sel = sel
        ∧ t.pwr.pendCtr = s.pwr.pendCtr ∧ only t)

/-- A manual switch (R250, R275, R329, Table 11-4). FEED_SELECT makes its guarded pair in the power and feeds block: the
first write opens it, the second holds the block BUSY until the result is stored, and the switch towards TARGET starts.
A GOOD target that is not selected closes its path and waits; the selected feed answers NO_CHANGE at once, one that is
not GOOD NOT_GOOD. The result is DONE with the target selected and the old path open, NOT_GOOD where the target has lost
GOOD, NO_CURRENT at the time limit with the target's path suspect and open, in both SEL stays, or FAILOVER where a
failover onto the target ends it. FEED_READ changes nothing. A second write of a master on FEED_SELECT does the same
(R381), and one that is no complement fails its pair. Readings of the model it rests on: log 22, 59. -/
def Obligations.ManualSwitch : Prop :=
  (∀ (r : Req) (q : Run) (tgt : Bool) (s : State),
     let v := word (b2n tgt) ||| kpOf s aFeedSelect 1
     let ends := fun (t : State) => t = { s with pwr := t.pwr, vcp := t.vcp, fresh := t.fresh
                                                 regs := { s.regs with posted := t.regs.posted } }
     (Accepted 0x0A02 r q s → pk1 r.params 0 = b2n tgt → s.regs.pairs = [] →
       (slowBusy s 2 = false →
         ∃ t, exec (.feedSelect r) s = .next t ∧ replyNow t = none ∧ t.vcp.run.map (·.work) = some 2
           ∧ t = { s with vcp := t.vcp
                          regs := { s.regs with pairs := [(1, { addr := aFeedSelect, val := v, at_ := s.sfp })] } }) ∧
       (slowBusy s 2 = true →
         ∃ t, exec (.feedSelect r) s = .next t ∧ Answers t 0x0B 0 [] ∧ t.pwr = s.pwr ∧ t.regs.guardFail = true
           ∧ t.regs.guardCause = 7)) ∧
     (SecondWrite 0x0A02 r q 1 aFeedSelect v s → pk1 r.params 0 = b2n tgt → slowBusy s 2 = false →
       (tgt ≠ s.pwr.sel → feedGoodOf s.pwr tgt = true →
         ∃ t, exec (.feedSelect r) s = .next t ∧ replyNow t = none ∧ t.pwr.switching = some tgt ∧ feedPath t.pwr tgt = true
           ∧ slowBusy t 2 = true ∧ t.pwr.sel = s.pwr.sel ∧ t.regs.act = s.regs.act ∧ t.map = s.map ∧ t.com = s.com) ∧
       (tgt ≠ s.pwr.sel → feedGoodOf s.pwr tgt = false →
         ∃ t, exec (.feedSelect r) s = .next t ∧ Answers t 0 0 ([2, by1 (b2n s.pwr.sel)] ++ sfpBytes s.sfp)
           ∧ t.pwr.result = 2 ∧ t.pwr.sel = s.pwr.sel ∧ t.pwr.pathA = s.pwr.pathA ∧ t.pwr.pathB = s.pwr.pathB) ∧
       (tgt = s.pwr.sel →
         ∃ t, exec (.feedSelect r) s = .next t ∧ Answers t 0 0 ([1, by1 (b2n s.pwr.sel)] ++ sfpBytes s.sfp)
           ∧ t.pwr.result = 1 ∧ t.pwr.sel = s.pwr.sel ∧ t.pwr.pathA = s.pwr.pathA ∧ t.pwr.pathB = s.pwr.pathB)) ∧
     (Accepted 0x0A01 r q s →
       ∃ t, exec (.feedRead r) s = .next t ∧ Answers t 0 0 (answer t) ∧ (answer t).length = 38
         ∧ pkNat (answer t) 0 2 = feedStatusW s % 65536 ∧ pkNat (answer t) 4 2 = s.pwr.mvA.toNat
         ∧ pkNat (answer t) 6 2 = s.pwr.mvB.toNat ∧ pk1 (answer t) 12 = s.pwr.result % 256 ∧ t = { s with vcp := t.vcp }) ∧
     (s.pwr.switching = some tgt → tgt ≠ s.pwr.sel →
       (feedGoodOf s.pwr tgt = true →
         ∃ t, exec .feedSwitchResult s = .next t ∧ t.pwr.sel = tgt ∧ feedPath t.pwr s.pwr.sel = false ∧ t.pwr.result = 0
           ∧ t.pwr.switching = none ∧ ends t) ∧
       (feedGoodOf s.pwr tgt = false →
         ∃ t, exec .feedSwitchResult s = .next t ∧ t.pwr.sel = s.pwr.sel ∧ feedPath t.pwr tgt = false ∧ t.pwr.result = 2
           ∧ t.pwr.switching = none ∧ ends t) ∧
       (∃ t, exec .feedSwitchTimeout s = .next t ∧ t.pwr.sel = s.pwr.sel ∧ feedPath t.pwr tgt = false ∧ t.pwr.result = 3
         ∧ (if tgt then t.pwr.suspectB else t.pwr.suspectA) = true ∧ t.pwr.switching = none ∧ ends t) ∧
       (s.pwr.failover = some tgt →
         ∃ t, exec .feedFailoverComplete s = .next t ∧ t.pwr.sel = tgt ∧ feedPath t.pwr s.pwr.sel = false
           ∧ t.pwr.result = 4 ∧ t.pwr.switching = none ∧ t.pwr.failover = none ∧ ends t))) ∧
  (∀ (m : Master) (a v : Word) (p : GuardPair) (s : State), powered s = true → MatFree s → mayWrite m 6 = true →
     slowBusy s 2 = false → tfind s.regs.pairs 1 = some p → p.addr = aFeedSelect → p.val = v →
     sfpDist p.at_ s.sfp ≤ 100000 → s.vcp.run = none →
     let tgt := bit v 0
     (tgt ≠ s.pwr.sel → feedGoodOf s.pwr tgt = true →
       ∃ t, exec (.feedSelectTarget m (~~~v)) s = .next t ∧ t.pwr.target = tgt ∧ t.pwr.switching = some tgt ∧ feedPath t.pwr tgt = true
         ∧ slowBusy t 2 = true ∧ tfind t.regs.pairs 1 = none ∧ t.pwr.sel = s.pwr.sel
         ∧ t.map = s.map ∧ t.ports = s.ports ∧ t.com = s.com ∧ t.regs.act = s.regs.act) ∧
     (tgt ≠ s.pwr.sel → feedGoodOf s.pwr tgt = false →
       ∃ t, exec (.feedSelectTarget m (~~~v)) s = .next t ∧ t.pwr.target = tgt ∧ t.pwr.switching = none ∧ t.pwr.result = 2
         ∧ t.pwr.sel = s.pwr.sel ∧ t.pwr.pathA = s.pwr.pathA ∧ t.pwr.pathB = s.pwr.pathB) ∧
     (tgt = s.pwr.sel →
       ∃ t, exec (.feedSelectTarget m (~~~v)) s = .next t ∧ t.pwr.result = 1 ∧ t.pwr.sel = s.pwr.sel
         ∧ t.pwr.pathA = s.pwr.pathA ∧ t.pwr.pathB = s.pwr.pathB) ∧
     (a ≠ ~~~v →
       ∃ t, exec (.feedSelectTarget m a) s = .next t ∧ t.pwr = s.pwr ∧ t.regs.guardFail = true ∧ t.regs.guardCause = 3
         ∧ t.regs.guardAddr = word aFeedSelect ∧ Counted s t 1 2))

/-- Power-down and power-up (R242, R246 to R248). The loss of both feeds, the undervoltage of the bulk supply and an
overcurrent stop the module with their causes, both paths open, and only the overcurrent latches; the latch opens with
both feeds gone, which is then the cause that is kept. Power comes up with the first GOOD feed selected, FEED_A of both, in the reset sequence. Only flash,
the controller's own state and the straps survive. A module reset (R447 to R450): RESET_N, the loss of the block
clock, a boot ROM parity error and a DEV_RESET of type module at its boundary each return everything to its reset
value but the flash, the power stage's own state, the levels at the contacts. RESET_N's release starts the sequence;
its end samples the straps and releases the die, the SFP from 0. Readings of the model it rests on: log 3, 32. -/
def Obligations.PowerAndReset : Prop :=
  (∀ (b both : Bool) (s : State),
     let cleared := fun (t : State) => t =
       ({ pending := s.pending, phase := t.phase, pwr := t.pwr, flash := s.flash, fresh := s.fresh
          pins := { devid := s.pins.devid, twinPos := s.pins.twinPos, resetN := s.pins.resetN }
          pair := { aliveIn := s.pair.aliveIn } } : State)
     (s.phase ≠ .off →
       (∃ t, exec .powerDown s = .next t ∧ t.phase = .off ∧ t.pwr.offCause = 1 ∧ t.pwr.hasSel = false
         ∧ t.pwr.pathA = false ∧ t.pwr.pathB = false ∧ t.pwr.latched = s.pwr.latched ∧ cleared t) ∧
       (∃ t, exec .bulkUndervoltage s = .next t ∧ t.phase = .off ∧ t.pwr.hasSel = false
         ∧ t.pwr.pathA = false ∧ t.pwr.pathB = false
         ∧ (feedPath s.pwr s.pwr.sel = false → feedOv s.pwr s.pwr.sel = true → t.pwr.offCause = 3)
         ∧ (feedPath s.pwr s.pwr.sel = true ∨ feedOv s.pwr s.pwr.sel = false → t.pwr.offCause = 2) ∧ cleared t) ∧
       (∃ t, exec .overcurrentTrip s = .next t ∧ t.phase = .off ∧ t.pwr.offCause = 4 ∧ t.pwr.latched = true
         ∧ t.pwr.hasSel = false ∧ t.pwr.pathA = false ∧ t.pwr.pathB = false ∧ cleared t)) ∧
     (s.phase = .off →
       (∃ t, exec .feedLatchRelease s = .next t ∧ t.pwr.latched = false ∧ t.pwr.offCause = 1 ∧ t.phase = .off
         ∧ t = { s with pwr := t.pwr }) ∧
       (∃ t, exec .powerDown s = .next t ∧ t.pwr.offCause = 1 ∧ t.pwr.latched = s.pwr.latched ∧ t = { s with pwr := t.pwr }) ∧
       (s.pwr.latched = false →
         ∃ t, exec (.powerUp b both) s = .next t ∧ t.phase = .reset ∧ t.pwr.hasSel = true ∧ t.pwr.sel = (b && !both)
           ∧ feedPath t.pwr t.pwr.sel = true ∧ feedGoodOf t.pwr t.pwr.sel = true ∧ t.pwr.lastOff = s.pwr.offCause
           ∧ (both = true → t.pwr.goodA = true ∧ t.pwr.goodB = true) ∧ cleared t) ∧
       (s.pwr.latched = true → exec (.powerUp b both) s = .next s))) ∧
  (∀ (devid : BitVec 12) (twinPos : Bool) (s : State),
     let cleared := fun (t : State) (n : Bool) => t =
       ({ pending := s.pending, phase := .reset, pwr := t.pwr, flash := s.flash, fresh := s.fresh
          pins := { devid := s.pins.devid, twinPos := s.pins.twinPos, resetN := n }, pair := { aliveIn := s.pair.aliveIn } } : State)
       ∧ t.pwr.sel = s.pwr.sel ∧ t.pwr.hasSel = s.pwr.hasSel ∧ t.pwr.pathA = s.pwr.pathA ∧ t.pwr.pathB = s.pwr.pathB
       ∧ t.pwr.suspectA = s.pwr.suspectA ∧ t.pwr.suspectB = s.pwr.suspectB ∧ t.pwr.lastOff = s.pwr.lastOff
     (s.phase ≠ .off → ∃ t, exec .resetNAssert s = .next t ∧ cleared t true) ∧
     (powered s = true →
       (∃ t, exec .blockClockLoss s = .next t ∧ cleared t s.pins.resetN) ∧
       (∃ t, exec .bootRomParityError s = .next t ∧ cleared t s.pins.resetN) ∧
       (s.seq.devReset = some (s.sfp, true) → ∃ t, exec .devResetEffect s = .next t ∧ cleared t s.pins.resetN)) ∧
     (exec .resetNRelease s = .next { s with pins := { s.pins with resetN := false } }) ∧
     (s.phase = .reset →
       (s.pins.resetN = true → exec (.resetSequenceEnd devid twinPos) s = .next s) ∧
       (s.pins.resetN = false → exec (.resetSequenceEnd devid twinPos) s
         = .next { s with phase := .released, sfp := { mfc := 0, fi := 0, bi := 0 }
                          pins := { s.pins with devid := devid, twinPos := twinPos } })))

/-! Reset and start-up. -/

/-- Start-up (R451 to R457). The boot loader counts the boot, starts the preferred image whose check passes or the other
one, and rescue firmware without either; without one working-RAM bank the module stays stuck. Keys, groups, routes and
OCXO_DAYS come from flash, but for rescue firmware, which loads only the keys; without the reservations every key
loads disabled. READY begins arbitration, and the 24-hour count of OCXO_DAYS (R74). Readings of the model it rests on: log 53, 74. -/
def Obligations.StartUp : Prop :=
  ∀ (f : BootIn) (s : State),
    (s.phase = .released → f.traceOk = true →
      ∃ t, exec (.dieRelease f) s = .next t ∧ t.seq.boot = (s.flash.boot + 1) % 2 ^ 32
        ∧ t.flash = { s.flash with boot := if f.bootSaveOk then (s.flash.boot + 1) % 2 ^ 32 else s.flash.boot }
        ∧ (f.someWramOk = false → t.phase = .stuck ∧ t.seq.running = false)
        ∧ (f.someWramOk = true → t.phase = .booting ∧ t.seq.running = true ∧ t.vcp.keysLoaded = true
            ∧ (t.seq.rescue = false →
                t.vcp.members = (s.flash.net.getD ([], [], 0)).1 ∧ t.vcp.route = (s.flash.net.getD ([], [], 0)).2.1
                  ∧ t.thy.days = s.flash.days.getD 0)
            ∧ (t.seq.rescue = true → t.vcp.members = [] ∧ t.vcp.route = [] ∧ t.vcp.relayPorts = 0 ∧ t.thy = s.thy)
            ∧ (s.flash.resv.isSome = true → t.vcp.auths = s.flash.keys.getD [])
            ∧ (s.flash.resv = none → ∀ kv ∈ t.vcp.auths, kv.2.enabled = false))
        ∧ t.seq.rescue = ((bootImage s).isNone || !f.ramOk || !f.someWramOk)
        ∧ t.seq.imageB = ((bootImage s).getD false && !t.seq.rescue) ∧ t.mem.remap = (!t.seq.rescue)
        ∧ t = { s with phase := t.phase, seq := t.seq, mem := t.mem, vcp := t.vcp, thy := t.thy, flash := t.flash }) ∧
    (s.phase = .booting → s.seq.running = true →
      ∃ t, exec .ready s = .next t ∧ t.phase = .ready ∧ t.pair.st = .arbitrating ∧ t.pair.arbRun = 0
        ∧ t.flash.boot = s.seq.boot
        ∧ t = { s with phase := .ready, pair := { s.pair with st := .arbitrating, arbRun := 0 }
                       thy := { s.thy with dayAt := if s.seq.rescue then none else some s.sfp }
                       flash := { s.flash with boot := s.seq.boot } })

/-- A sequencer reset (R100, R366, R367, R380): an exception, the watchdog and a DEV_RESET of type sequencer each stop
the sequencer with their cause and position, counted and sticky; the command in execution ends without a reply, domains
that stood open become suspect, open guarded pairs fail. Traffic, Thyme, protection and every active view run on
unchanged. Its restart takes the keys and networks from flash again. exec answers a next state for each of
DEV_RESET_EFFECT, SEQ_EXCEPTION, SEQ_WDT_EXPIRE and SEQUENCER_RESTART, on the conditions stated. Readings of the model
it rests on: log 34, 35. -/
def Obligations.SequencerResets : Prop :=
  ∀ (cause : Fin 6) (s : State), powered s = true → fwStarted s = true →
    let stopped := fun (t : State) (n : Nat) => t.seq.running = false ∧ t.seq.cause = n ∧ t.seq.resetAt = s.sfp
      ∧ t.vcp.run = none ∧ t.com.suspect = s.com.suspect ||| s.com.stageOpen ∧ t.com.stageOpen = 0
      ∧ t.regs.pairs.length ≤ s.regs.pairs.length ∧ bit (hist t hSys) 1 = true
      ∧ (s.com.stageOpen ≠ 0 → bit (hist t hCommit) 4 = true)
      ∧ t.map = s.map ∧ t.ports = s.ports ∧ t.grps = s.grps ∧ t.thy = s.thy ∧ t.sfp = s.sfp ∧ t.regs.act = s.regs.act
      ∧ t.regs.stg = s.regs.stg ∧ t.com.ents = s.com.ents ∧ t.pwr = s.pwr ∧ t.flash = s.flash
      ∧ (s.pair.st ≠ .syncing → t.pair.st = s.pair.st)
    (∃ t, exec (.seqException cause) s = .next t ∧ stopped t (cause + 1) ∧ Counted s t 1 0) ∧
    (∃ t, exec .seqWdtExpire s = .next t ∧ stopped t 7 ∧ Counted s t 1 1) ∧
    (s.seq.devReset = some (s.sfp, false) → ∃ t, exec .devResetEffect s = .next t ∧ stopped t 8 ∧ t.seq.devReset = none) ∧
    (s.seq.running = false → autoStaging s = false → s.flash.resv.isSome = true →
      ∃ t, exec .sequencerRestart s = .next t ∧ t.seq.running = true ∧ t.vcp.auths = s.flash.keys.getD []
        ∧ (s.seq.cutRec.isSome = true → t.vcp.latlog.head? = s.seq.cutRec)
        ∧ (s.mem.wram = [] → t.mem.ram = []) ∧ t.mem.bytes = s.mem.bytes
        ∧ t.map = s.map ∧ t.ports = s.ports ∧ t.grps = s.grps ∧ t.thy = s.thy ∧ t.sfp = s.sfp ∧ t.regs.act = s.regs.act
        ∧ t.pair = s.pair ∧ t.com = s.com)

/-! The device and port families. -/

/-- The device family's commands (Tables 13-2 and 13-3, R254, R260, R275, R284 to R287). DEV_INFO, KEY_INFO,
GROUP_MEMBER_GET, ROUTE_GET and CFG_INFO change nothing. KEY_WRITE makes its guarded pair on KEY_WE, then stores the
slot with the next KEY_GEN, forgets its sequence numbers and saves both, but never takes the last operator away. The
network commands save at once and come into use at their completion; a failed save is DENIED, detail FLASH_FAIL, and
stores nothing. CFG_SAVE waits for its capture. DEV_RESET leaves the reset to its completion, TYPE 0 after its guarded
pair on SEQ_RST. exec answers a next state for each of DEV_INFO, KEY_WRITE, KEY_INFO, GROUP_MEMBER_SET,
GROUP_MEMBER_GET, ROUTE_SET, ROUTE_GET, RELAY_PORTS_SET, CFG_SAVE, CFG_INFO and DEV_RESET, on the conditions stated.
Readings of the model it rests on: log 21, 22, 41. -/
def Obligations.DeviceCommands : Prop :=
  ∀ (r : Req) (q : Run) (ok : Bool) (c : SavedCfg) (s : State),
    let p := r.params
    let keyWe := aSys + 0x028
    let seqRst := aSys + 0x018
    let only := fun (t : State) => t = { s with vcp := { s.vcp with run := t.vcp.run } }
    let saved := fun (t : State) (n : List Nat × Tbl Byte × BitVec 128) => Answers t 0 0 [] ∧ AtEnd t (.net n.1 n.2.1 n.2.2)
      ∧ t.flash.net = some n ∧ t = { s with vcp := { s.vcp with run := t.vcp.run }
                                            flash := { s.flash with net := t.flash.net, saves := t.flash.saves } }
    (Accepted 0x0101 r q s →
      ∃ t, exec (.devInfo r) s = .next t ∧ Answers t 0 0 (answer t) ∧ pkNat (answer t) 0 2 = s.pins.devid.toNat
        ∧ pk1 (answer t) 2 = b2n s.pins.twinPos + 2 * pairCode s.pair.st ∧ pkNat (answer t) 10 4 = s.seq.boot % 2 ^ 32
        ∧ (answer t).drop 26 = sfpBytes s.sfp ∧ only t) ∧
    (pk1 p 0 ≤ 63 → pk1 p 2 ≤ 2 → pkNat p 4 2 ≤ 1023 →
      (hasOperator (tput {} s.vcp.auths (pk1 p 0) (keyNew s p)) = true →
        (Accepted 0x0102 r q s → s.regs.pairs = [] →
          ∃ t, exec (.keyWrite r ok) s = .next t ∧ replyNow t = none ∧ t.vcp.run.map (·.work) = some 2
            ∧ t = { s with vcp := { s.vcp with run := t.vcp.run }
                           regs := { s.regs with pairs := [(0, { addr := keyWe, val := 1, at_ := s.sfp })] } }) ∧
        (SecondWrite 0x0102 r q 0 keyWe 1 s →
          (∃ t, exec (.keyWrite r true) s = .next t ∧ Answers t 0 0 [by1 (pk1 p 0), (authOf s (pk1 p 0)).gen + 1]
            ∧ authOf t (pk1 p 0) = { enabled := bit (p.getD 1 0) 0, key := slice p 8 32, cls := pk1 p 2, holder := pkNat p 4 2
                                     gen := (authOf s (pk1 p 0)).gen + 1 }
            ∧ replayOf t (pk1 p 0) = {}
            ∧ (∀ k : Fin 64, k.val ≠ pk1 p 0 → authOf t k = authOf s k ∧ replayOf t k = replayOf s k)
            ∧ t.flash.keys = some t.vcp.auths ∧ tget 0 t.regs.gw keyWe = 0
            ∧ t = { s with vcp := t.vcp, regs := { s.regs with gw := t.regs.gw, pairs := t.regs.pairs }
                           flash := { s.flash with keys := t.flash.keys, resv := t.flash.resv, saves := t.flash.saves } }) ∧
          (∃ t, exec (.keyWrite r false) s = .next t ∧ Answers t 4 0x4B [] ∧ tget 0 t.regs.gw keyWe = 0
            ∧ t = { s with vcp := { s.vcp with run := t.vcp.run }
                           regs := { s.regs with gw := t.regs.gw, pairs := t.regs.pairs } }))) ∧
      (Accepted 0x0102 r q s → hasOperator (tput {} s.vcp.auths (pk1 p 0) (keyNew s p)) = false →
        ∃ t, exec (.keyWrite r ok) s = .next t ∧ Answers t 4 0x4A [] ∧ only t)) ∧
    (Accepted 0x0103 r q s → 1 ≤ pk1 p 1 → pk1 p 1 ≤ 32 → pk1 p 0 + pk1 p 1 ≤ 64 →
      ∃ t, exec (.keyInfo r) s = .next t ∧ Answers t 0 0 (answer t) ∧ (answer t).length = 2 + 44 * pk1 p 1
        ∧ (∀ i : Fin 32, i < pk1 p 1 → pk1 (answer t) (2 + 44 * i) = pk1 p 0 + i
            ∧ pk1 (answer t) (3 + 44 * i) = b2n (authOf s (pk1 p 0 + i)).enabled
            ∧ (answer t).getD (5 + 44 * i) 0 = (authOf s (pk1 p 0 + i)).gen)
        ∧ only t) ∧
    (Accepted 0x0104 r q s →
      (∃ (t : State) (m : List Nat), exec (.groupMemberSet r true) s = .next t ∧ saved t (m, s.vcp.route, s.vcp.relayPorts)
        ∧ (∀ g : Fin 4095, m.contains g.val = bit (p.getD (g / 8) 0) (g % 8))) ∧
      (∃ t, exec (.groupMemberSet r false) s = .next t ∧ Answers t 4 0x4B [] ∧ only t)) ∧
    (Accepted 0x0105 r q s →
      ∃ t, exec (.groupMemberGet r) s = .next t ∧ Answers t 0 0 (answer t) ∧ (answer t).length = 512
        ∧ (∀ g : Fin 4095, bit ((answer t).getD (g / 8) 0) (g % 8) = s.vcp.members.contains g.val) ∧ only t) ∧
    (Accepted 0x0106 r q s → 1 ≤ pkNat p 0 2 → pkNat p 0 2 ≤ 366 →
      (routeItems p).all (fun x => decide (x.2 ≤ 127) || x.2 == 0xFF) = true →
      (∃ (t : State) (rt : Tbl Byte), exec (.routeSet r true) s = .next t ∧ saved t (s.vcp.members, rt, s.vcp.relayPorts)
        ∧ (∀ i : Fin 366, i < pkNat p 0 2 →
            (∀ j : Fin 366, i < j → j < pkNat p 0 2 → pkNat p (2 + 4 * j) 2 % 4096 ≠ pkNat p (2 + 4 * i) 2 % 4096) →
            (tget 0xFF rt (pkNat p (2 + 4 * i) 2 % 4096)).toNat = pk1 p (4 + 4 * i))) ∧
      (∃ t, exec (.routeSet r false) s = .next t ∧ Answers t 4 0x4B [] ∧ only t)) ∧
    (Accepted 0x0107 r q s → pkNat p 0 2 ≤ 4095 → 1 ≤ pkNat p 2 2 → pkNat p 2 2 ≤ 1024 → pkNat p 0 2 + pkNat p 2 2 ≤ 4096 →
      ∃ t, exec (.routeGet r) s = .next t
        ∧ Answers t 0 0 (beBytes 2 (pkNat p 0 2) ++ beBytes 2 (pkNat p 2 2) ++ beBytes 16 s.vcp.relayPorts.toNat
            ++ (rangeFrom (pkNat p 0 2) (pkNat p 2 2)).map (fun d => tget 0xFF s.vcp.route d)) ∧ only t) ∧
    (Accepted 0x0108 r q s → pkMask p 0 ≠ 0 →
      (∃ t, exec (.relayPortsSet r true) s = .next t ∧ saved t (s.vcp.members, s.vcp.route, pkMask p 0)) ∧
      (∃ t, exec (.relayPortsSet r false) s = .next t ∧ Answers t 4 0x4B [] ∧ only t)) ∧
    (Accepted 0x0109 r q s →
      ∃ t, exec (.cfgSave r ok) s = .next t ∧ replyNow t = none
        ∧ t = { s with vcp := t.vcp, com := { s.com with cfgSave := some (bit (p.getD 0 0) 0, ok) } }) ∧
    (Accepted 0x010A r q s →
      (s.flash.cfg = some c →
        ∃ t, exec (.cfgInfo r) s = .next t ∧ Answers t 0 0 (answer t) ∧ pk1 (answer t) 0 = 1 + 2 * b2n c.auto
          ∧ pkNat (answer t) 2 4 = s.flash.saves % 2 ^ 32 ∧ slice (answer t) 10 10 = sfpBytes c.at_ ∧ only t) ∧
      (s.flash.cfg = none →
        ∃ t, exec (.cfgInfo r) s = .next t ∧ Answers t 0 0 (answer t) ∧ pk1 (answer t) 0 = 0
          ∧ t = { s with vcp := { s.vcp with run := t.vcp.run }, fresh := t.fresh })) ∧
    (Accepted 0x010B r q s →
      (pk1 p 0 = 1 → ∃ t, exec (.devReset r) s = .next t ∧ Answers t 0 0 [] ∧ AtEnd t (.devReset true) ∧ only t) ∧
      (pk1 p 0 = 0 → s.regs.pairs = [] →
        ∃ t, exec (.devReset r) s = .next t ∧ replyNow t = none ∧ t.vcp.run.map (·.work) = some 2
          ∧ t = { s with vcp := { s.vcp with run := t.vcp.run }
                         regs := { s.regs with pairs := [(0, { addr := seqRst, val := 1, at_ := s.sfp })] } })) ∧
    (SecondWrite 0x010B r q 0 seqRst 1 s → pk1 p 0 = 0 →
      ∃ t, exec (.devReset r) s = .next t ∧ Answers t 0 0 [] ∧ AtEnd t (.devReset false)
        ∧ t = { s with vcp := { s.vcp with run := t.vcp.run }
                       regs := { s.regs with gw := t.regs.gw, pairs := t.regs.pairs } })

/-- The port family's commands (Tables 13-9 and 13-10, R147, R297). The writes stage their fields, D1 for
PORT_CFG_WRITE, PORT_SERDES_WRITE and TP_CHK_WRITE, D4 for PORT_ADAPT_WRITE; the reads change nothing; PORT_SNAPSHOT
joins the pending requests, merged with one for the same position, where it lies at least 2 frames ahead of the
acceptance. exec answers a next state for each of PORT_CFG_WRITE, PORT_CFG_READ, PORT_ADAPT_WRITE, PORT_SERDES_WRITE,
PORT_STATUS, PORT_SNAPSHOT, PORT_SNAP_READ, TP_CHK_WRITE and TP_CHK_READ, on the conditions stated. Readings of the
model it rests on: log 41, 44, 86. -/
def Obligations.PortCommands : Prop :=
  ∀ (r : Req) (q : Run) (s : State),
    let p := r.params
    let n := pk1 p 0
    (Accepted 0x0601 r q s → frozenAny s 2 = false → mirHeld s = false → portArgsOk p = true →
      ∃ t, exec (.portCfgWrite r) s = .next t ∧ Answers t 0 0 []
        ∧ (let v := stgv t
           pMode v n = pk1 p 1 ∧ pEbDepth v n = pk1 p 2 ∧ pLoop v n = bits (p.getD 3 0) 4 3 ∧ pRdiEn v n = bit (p.getD 3 0) 0
             ∧ pTtiCheck v n = bit (p.getD 3 0) 1 ∧ pTpPoly v n = bit (p.getD 3 0) 2 ∧ pFecFail v n = pk1 p 4
             ∧ pFecDeg v n = pkNat p 6 4 ∧ ttiOf v (aTxTti n) = slice p 10 64 ∧ ttiOf v (aExpTti n) = slice p 74 64)
        ∧ Staged s t 2) ∧
    (Accepted 0x0603 r q s → frozenAny s 16 = false → mirHeld s = false → n ≤ 127 → 16 ≤ pkNat p 2 2 → pkNat p 2 2 ≤ 1024 →
      ∃ t, exec (.portAdaptWrite r) s = .next t ∧ Answers t 0 0 [] ∧ pPmEn (stgv t) n = bit (p.getD 1 0) 0
        ∧ pDropMargin (stgv t) n = pkNat p 2 2 ∧ Staged s t 16) ∧
    (Accepted 0x0604 r q s → frozenAny s 2 = false → mirHeld s = false → n ≤ 127 → pk1 p 2 ≤ 7 → pk1 p 3 ≤ 15 → pk1 p 4 ≤ 7 →
      ∃ t, exec (.portSerdesWrite r) s = .next t ∧ Answers t 0 0 []
        ∧ stgv t (aLane n) = word (pk1 p 1 % 4 + pk1 p 2 * 2 ^ 8 + pk1 p 3 * 2 ^ 16 + pk1 p 4 * 2 ^ 24) ∧ Staged s t 2) ∧
    (Accepted 0x0608 r q s → frozenAny s 2 = false → mirHeld s = false → n ≤ 63 → pkNat p 2 2 ≤ 10239 →
      ∃ t, exec (.tpChkWrite r) s = .next t ∧ Answers t 0 0 []
        ∧ stgv t (aTpChk n) = word (at1 (bit (p.getD 1 0) 0) 31 + pkNat p 2 2) ∧ Staged s t 2) ∧
    (Accepted 0x0602 r q s → n ≤ 127 → pk1 p 1 ≤ 1 →
      let v := viewSel s (pk1 p 1)
      ∃ t, exec (.portCfgRead r) s = .next t ∧ Answers t 0 0 (answer t) ∧ (answer t).length = 148 ∧ pk1 (answer t) 0 = n
        ∧ pk1 (answer t) 1 = pMode v n ∧ pk1 (answer t) 2 = pEbDepth v n ∧ pkNat (answer t) 146 2 = pDropMargin v n
        ∧ t = { s with vcp := t.vcp }) ∧
    (Accepted 0x0605 r q s → n ≤ 127 →
      ∃ t, exec (.portStatus r) s = .next t ∧ Answers t 0 0 (answer t) ∧ (answer t).length = 83 ∧ pk1 (answer t) 0 = n
        ∧ pk1 (answer t) 1 = modeOf s n ∧ pkNat (answer t) 2 2 = (portOf s n).rep.toNat
        ∧ pk1 (answer t) 10 % 16 = (portOf s n).ql.toNat ∧ t = { s with vcp := t.vcp }) ∧
    (Accepted 0x0606 r q s → pkMask p 0 ≠ 0 →
      let f := sfpOfBytes p 16
      f.bi = 0 → sfpDist q.accept f ≤ horizon →
      (sfpDist q.accept f < 327536 → ∃ t, exec (.portSnapshot r) s = .next t ∧ Answers t 9 0 [] ∧ t = { s with vcp := t.vcp }) ∧
      (327536 ≤ sfpDist q.accept f → s.com.snaps.any (fun x => x.1 == f) = false →
        (8 ≤ s.com.snaps.length → ∃ t, exec (.portSnapshot r) s = .next t ∧ Answers t 4 4 [] ∧ t = { s with vcp := t.vcp }) ∧
        (s.com.snaps.length < 8 →
          ∃ t, exec (.portSnapshot r) s = .next t ∧ Answers t 0 0 [0, by1 (s.com.snaps.length + 1)]
            ∧ t = { s with vcp := t.vcp, mir := t.mir, com := { s.com with snaps := s.com.snaps ++ [(f, pkMask p 0)] } })) ∧
      (327536 ≤ sfpDist q.accept f → s.com.snaps.any (fun x => x.1 == f) = true →
        ∃ t, exec (.portSnapshot r) s = .next t ∧ Answers t 0 0 [1, by1 s.com.snaps.length]
          ∧ t = { s with vcp := t.vcp, mir := t.mir, com := { s.com with
              snaps := s.com.snaps.map (fun x => if x.1 = f then (x.1, x.2 ||| pkMask p 0) else x) } })) ∧
    (Accepted 0x0607 r q s → n ≤ 127 → pk1 p 1 = 0 →
      ∃ t, exec (.portSnapRead r) s = .next t
        ∧ (∀ i : Fin 71, pkNat (answer t) (14 + 8 * i) 8 = (((portOf s n).snap.map (·.2)).getD []).getD i 0 % 2 ^ 64
            ∨ (((portOf s n).snap.map (·.2)).getD []).length ≤ i)
        ∧ Answers t 0 0 (answer t) ∧ pk1 (answer t) 0 = n ∧ pk1 (answer t) 1 = b2n (portOf s n).snap.isSome
        ∧ slice (answer t) 2 10 = sfpBytes (((portOf s n).snap.map (·.1)).getD {}) ∧ t = { s with vcp := t.vcp }) ∧
    (Accepted 0x0609 r q s → n ≤ 63 →
      ∃ t, exec (.tpChkRead r) s = .next t
        ∧ Answers t 0 0 ([by1 n, by1 (at1 (bit (actv s (aTpChk n)) 31) 0 + at1 (chkOf s n).sync 1)]
            ++ beBytes 2 (bits (actv s (aTpChk n)) 13 0) ++ (List.range 4).flatMap (fun k => beBytes 8 (ctrVal s 0xB (4 * n + k))))
        ∧ t = { s with vcp := t.vcp })

/-! Observation, memory and register families. -/

/-- The observation family's commands (Tables 14-6 and 14-7, R315 to R317, R421, R427). The reads answer the values of
one instant, a counter without the events of the last 15 block times (R413), and change nothing; the writes stage their
registers in D5. exec answers a next state for each of CTR_READ, PCTR_WRITE, PCTR_READ, LATLOG_READ, TRACE_READ,
BW_CFG_WRITE, BW_READ, TRACE_CFG_WRITE, EVT_CFG_WRITE and OBS_CFG_READ, on the conditions stated. Readings of the model
it rests on: log 45, 46, 86. -/
def Obligations.ObservationCommands : Prop :=
  ∀ (r : Req) (q : Run) (s : State),
    let p := r.params
    (Accepted 0x0801 r q s → 1 ≤ pkNat p 4 2 → pkNat p 4 2 ≤ 160 → pkNat p 2 2 + pkNat p 4 2 ≤ catSize (pkNat p 0 2) →
      ∃ t, exec (.ctrRead r) s = .next t ∧ Answers t 0 0 (answer t) ∧ slice (answer t) 0 10 = sfpBytes s.sfp
        ∧ slice (answer t) 10 6 = slice p 0 6
        ∧ (∀ i : Fin 160, i < pkNat p 4 2 →
            pkNat (answer t) (16 + 8 * i) 8 = ctrLatch s (pkNat p 0 2) (pkNat p 2 2 + i))
        ∧ t = { s with vcp := t.vcp }) ∧
    (Accepted 0x0802 r q s → frozenAny s 32 = false → mirHeld s = false → pk1 p 0 ≤ 63 → (pk1 p 0 = 63 → bit (p.getD 1 0) 1 = false) →
      ∃ t, exec (.pctrWrite r) s = .next t ∧ Answers t 0 0 [] ∧ pctrEnable (stgv t) (pk1 p 0) = bit (p.getD 1 0) 0
        ∧ pctrChain (stgv t) (pk1 p 0) = bit (p.getD 1 0) 1 ∧ (stgv t (aPctrEvt (pk1 p 0))).toNat = pkNat p 4 4 ∧ Staged s t 32) ∧
    (Accepted 0x0803 r q s →
      ∃ t, exec (.pctrRead r) s = .next t ∧ Answers t 0 0 (answer t) ∧ slice (answer t) 0 10 = sfpBytes s.sfp
        ∧ (∀ n : Fin 64, bit (BitVec.ofNat 64 (pkNat (answer t) 10 8)) n = bit (hist s (if 32 ≤ n.val then hOvfHi else hOvfLo)) (n % 32))
        ∧ (∀ n : Fin 64, pkNat (answer t) (18 + 4 * n) 4 = pctrLatch s n) ∧ t = { s with vcp := t.vcp }) ∧
    (Accepted 0x0804 r q s → pkNat p 0 2 ≤ 1023 → 1 ≤ pkNat p 2 2 → pkNat p 2 2 ≤ 32 →
      ∃ t, exec (.latlogRead r) s = .next t ∧ Answers t 0 0 (answer t)
        ∧ pkNat (answer t) 0 8 = ctrVal s 8 6 % 2 ^ 64
        ∧ pkNat (answer t) 8 2 = min (pkNat p 2 2) (s.vcp.latlog.length - pkNat p 0 2)
        ∧ (∀ i : Fin 32, i < pkNat (answer t) 8 2 →
            (s.vcp.latlog[pkNat p 0 2 + i.val]?).map latBytes = some (slice (answer t) (10 + 40 * i) 40))
        ∧ t = { s with vcp := t.vcp }) ∧
    (Accepted 0x0805 r q s → s.mem.ecc = [] → 1 ≤ pkNat p 8 2 → pkNat p 8 2 ≤ 40 →
      let f := max (pkNat p 0 8) (s.sage.traceNext - 65536)
      ∃ t, exec (.traceRead r) s = .next t ∧ Answers t 0 0 (answer t)
        ∧ pkNat (answer t) 0 8 = (s.sage.traceNext - 65536) % 2 ^ 64 ∧ pkNat (answer t) 8 8 = s.sage.traceNext % 2 ^ 64
        ∧ pkNat (answer t) 24 2 = min (pkNat p 8 2) (s.sage.traceNext - f)
        ∧ (∀ i : Fin 40, i < pkNat (answer t) 24 2 →
            (tfind s.sage.ring ((f + i) % 65536)).map recBytes = some (slice (answer t) (26 + 32 * i) 32)
              ∨ tfind s.sage.ring ((f + i) % 65536) = none)
        ∧ t = { s with vcp := t.vcp }) ∧
    (Accepted 0x0806 r q s → frozenAny s 32 = false → mirHeld s = false → pk1 p 0 ≤ 127 → 1 ≤ pkNat p 2 2 → pkNat p 2 2 ≤ 1024 →
      ∃ t, exec (.bwCfgWrite r) s = .next t ∧ Answers t 0 0 [] ∧ bwWin (stgv t) (pk1 p 0) = pkNat p 2 2 ∧ Staged s t 32) ∧
    (Accepted 0x0807 r q s → pk1 p 0 ≤ 127 →
      let l := (portOf s (pk1 p 0)).bwLast.getD (0, {}, 0, 0)
      ((portOf s (pk1 p 0)).bwLast = some l →
        ∃ t, exec (.bwRead r) s = .next t
          ∧ Answers t 0 0 (beBytes 2 l.1 ++ sfpBytes l.2.1 ++ beBytes 8 l.2.2.1 ++ beBytes 8 l.2.2.2
              ++ beBytes 4 (bwRate l.1 l.2.2.1) ++ beBytes 4 (bwRate l.1 l.2.2.2))
          ∧ t = { s with vcp := t.vcp }) ∧
      ((portOf s (pk1 p 0)).bwLast = none →
        ∃ t, exec (.bwRead r) s = .next t ∧ Answers t 0 0 (zeros 36) ∧ t = { s with vcp := t.vcp })) ∧
    (Accepted 0x0808 r q s → frozenAny s 32 = false → mirHeld s = false →
      ∃ t, exec (.traceCfgWrite r) s = .next t ∧ Answers t 0 0 []
        ∧ (∀ k : Fin 16, txClass (stgv t) k = bit (BitVec.ofNat 32 (pkNat p 0 4)) k) ∧ txEn (stgv t) = bit (p.getD 4 0) 0
        ∧ Staged s t 32) ∧
    (Accepted 0x0809 r q s → frozenAny s 32 = false → mirHeld s = false → pk1 p 0 ≤ 4 → pk1 p 1 ≤ 63 → (authOf s (pk1 p 1)).enabled = true →
      (authOf s (pk1 p 1)).cls ≤ 1 →
      ∃ t, exec (.evtCfgWrite r) s = .next t ∧ Answers t 0 0 [] ∧ evTransport (stgv t) = pk1 p 0 ∧ evAuth (stgv t) = pk1 p 1
        ∧ (∀ c : Fin 10, evMask (stgv t) c = bit (BitVec.ofNat 16 (pkNat p 2 2)) c)
        ∧ (evMac (stgv t)).toNat = pkNat p 4 6
        ∧ evTag (stgv t) = (if bit (p.getD 12 0) 0 then some (BitVec.ofNat 16 (pkNat p 10 2)) else none) ∧ Staged s t 32) ∧
    (Accepted 0x080A r q s → pk1 p 0 ≤ 1 → pk1 p 1 ≤ 3 →
      let v := viewSel s (pk1 p 0)
      ∃ t, exec (.obsCfgRead r) s = .next t ∧ Answers t 0 0 (answer t) ∧ slice (answer t) 0 2 = [by1 (pk1 p 1), 0]
        ∧ (pk1 p 1 = 0 → ∀ n : Fin 64, pkNat (answer t) (5 + 7 * n) 4 = (v (aPctrEvt n)).toNat)
        ∧ (pk1 p 1 = 1 → ∀ n : Fin 128, pkNat (answer t) (2 + 2 * n) 2 = bwWin v n)
        ∧ (pk1 p 1 = 2 → slice (answer t) 2 4 = wordBytes (v aTraceClass))
        ∧ (pk1 p 1 = 3 → slice (answer t) 2 2 = [by1 (evTransport v), by1 (evAuth v)])
        ∧ t = { s with vcp := t.vcp })

/-- The memory family's commands (Tables 14-8 to 14-12, R318 to R324, R360, R366). MEM_READ returns the bytes of its
words, rotated at an unaligned word; an uncorrectable word of the scratchpad is an exception of the sequencer, and ends
the command without a reply. MEM_WRITE stores them and leaves every other byte; a bank that is not ON gives MEM_ASLEEP
and transfers nothing; MEM_POWER starts a bank's transition and answers when it is over, a bank in use is DENIED;
MEM_STATUS, FW_INFO and SELF_TEST report. Firmware images (Tables 14-9 to 14-11, R275, R322, R323, R451). FW_LOAD and
FW_UPDATE make their guarded pair on FLASH_WE and work in phases. FW_LOAD programs blank pages of the download area and
reads them back; FW_UPDATE clears it, refuses to install from an empty one, and installs: erase, program, prefer, read
back, clear. A phase that fails is DENIED, detail FLASH_FAIL. exec answers a next state for each of MEM_READ,
MEM_WRITE, MEM_POWER, MEM_STATUS, FW_INFO, FW_LOAD, FW_UPDATE and SELF_TEST, on the conditions stated. Readings of the
model it rests on: log 4, 22, 26, 28, 29, 95. -/
def Obligations.MemoryCommands : Prop :=
  (∀ (r : Req) (q : Run) (x c : Nat) (f : SelfTestIn) (s : State), s.mem.ecc = [] →
     let p := r.params
     let a := pkNat p 0 4
     let n := pkNat p 4 2
     let o := a - 0x18000000
     let rot := bit (p.getD 6 0) 0
     (Accepted 0x0901 r q s → 0x18000000 ≤ a → a / 4 * 4 + 4 * n ≤ 0x18040000 → 1 ≤ n → n ≤ 256 →
       (∀ b : Fin 8, bankSt s 1 b = .on) →
       (rot = false → a % 4 = 0 →
         ∃ t, exec (.memRead r) s = .next t ∧ Answers t 0 0 (answer t) ∧ slice (answer t) 0 6 = slice p 0 6
           ∧ (answer t).length = 6 + 4 * n
           ∧ (∀ i : Fin 1024, i < 4 * n → (answer t).getD (6 + i) 0 = scratchByte s (o + i))
           ∧ t = { s with vcp := t.vcp, regs := { s.regs with rdata := t.regs.rdata, resp := t.regs.resp } }) ∧
       (rot = true → n = 1 →
         ∃ t, exec (.memRead r) s = .next t ∧ Answers t 0 0 (answer t)
           ∧ (∀ i : Fin 4, (answer t).getD (6 + i) 0 = scratchByte s (o / 4 * 4 + (o % 4 + i) % 4))
           ∧ t = { s with vcp := t.vcp, regs := { s.regs with rdata := t.regs.rdata, resp := t.regs.resp } })) ∧
     (Accepted 0x0902 r q s → 0x18000000 ≤ a → a / 4 * 4 + 4 * n ≤ 0x18040000 → 1 ≤ n → n ≤ 256 →
       (∀ b : Fin 8, bankSt s 1 b = .on) →
       (rot = false → a % 4 = 0 → pk1 p 7 = 0 →
         ∃ t, exec (.memWrite r c) s = .next t ∧ Answers t 0 0 (beBytes 2 n)
           ∧ (∀ i : Fin 1024, i < 4 * n → scratchByte t (o + i) = p.getD (8 + i) 0)
           ∧ (x < o ∨ o + 4 * n ≤ x → scratchByte t x = scratchByte s x)
           ∧ t = { s with vcp := t.vcp, mem := { s.mem with bytes := t.mem.bytes }, sage := t.sage }) ∧
       (rot = true → n = 1 → 1 ≤ pk1 p 7 → pk1 p 7 ≤ 4 →
         ∃ t, exec (.memWrite r c) s = .next t ∧ Answers t 0 0 (beBytes 2 1)
           ∧ (∀ i : Fin 4, i < pk1 p 7 → scratchByte t (o / 4 * 4 + (o % 4 + i) % 4) = p.getD (8 + i) 0)
           ∧ (∀ i : Fin 4, pk1 p 7 ≤ i → scratchByte t (o / 4 * 4 + (o % 4 + i) % 4) = scratchByte s (o / 4 * 4 + (o % 4 + i) % 4))
           ∧ (x / 4 ≠ o / 4 → scratchByte t x = scratchByte s x)
           ∧ t = { s with vcp := t.vcp, mem := { s.mem with bytes := t.mem.bytes }, sage := t.sage })) ∧
     (Accepted 0x0901 r q s →
       let m := (memAccess s p).getD (0, 0, 0)
       let b := (asleepBank s m.1 m.2.1 m.2.2).getD .on
       memAccess s p = some m → asleepBank s m.1 m.2.1 m.2.2 = some b →
       ∃ t, exec (.memRead r) s = .next t ∧ Answers t 0x0A (if b = .ret then 0x50 else 0x51) [] ∧ Counted s t 1 7
         ∧ t = { s with vcp := t.vcp, sage := t.sage }) ∧
     (Accepted 0x0903 r q s → pk1 p 0 ≤ 2 → pk1 p 1 < (if pk1 p 0 = 0 then 16 else if pk1 p 0 = 1 then 8 else 80) → pk1 p 2 ≤ 2 →
       (bankInUse s (pk1 p 0) (pk1 p 1) = true →
         ∃ t, exec (.memPower r) s = .next t ∧ Answers t 8 0x52 [] ∧ t = { s with vcp := t.vcp }) ∧
       (bankInUse s (pk1 p 0) (pk1 p 1) = false → bankSt s (pk1 p 0) (pk1 p 1) = .on →
         (pk1 p 2 = 0 → ∃ t, exec (.memPower r) s = .next t ∧ Answers t 0 0 [0, 0] ∧ t = { s with vcp := t.vcp }) ∧
         (pk1 p 2 ≠ 0 → ∃ t, exec (.memPower r) s = .next t ∧ replyNow t = none
           ∧ bankSt t (pk1 p 0) (pk1 p 1) = .moving 0 (pk1 p 2) ∧ t.mem.powerWait = some (pk1 p 0, pk1 p 1)
           ∧ t.mem.bytes = s.mem.bytes ∧ t.mem.ram = s.mem.ram
           ∧ t = { s with vcp := t.vcp, mem := t.mem }))) ∧
     (Accepted 0x0904 r q s →
       ∃ t, exec (.memStatus r) s = .next t ∧ Answers t 0 0 (answer t) ∧ pkNat (answer t) 0 4 = bankBits s 0 0 16 % 2 ^ 32
         ∧ pkNat (answer t) 4 2 = bankBits s 1 0 8 % 2 ^ 16 ∧ pkNat (answer t) 42 8 = (ctrVal s 1 5 + ctrVal s 4 2) % 2 ^ 64
         ∧ pkNat (answer t) 50 8 = (ctrVal s 1 6 + ctrVal s 4 3) % 2 ^ 64 ∧ t = { s with vcp := t.vcp }) ∧
     (Accepted 0x0920 r q s → f.uncorrectable = 0 →
       ∃ t, exec (.selfTest r f) s = .next t ∧ Answers t 0 0 (answer t) ∧ (answer t).length = 14
         ∧ (let pass := BitVec.ofNat 16 (pkNat (answer t) 0 2)
            let fail := BitVec.ofNat 16 (pkNat (answer t) 2 2)
            let absent := BitVec.ofNat 16 (pkNat (answer t) 4 2)
            (∀ k : Fin 7, (bit pass k || bit fail k || bit absent k) = true) ∧ bit pass 4 = true
              ∧ bit absent 0 = s.flash.imgA.isEmpty ∧ bit absent 1 = s.flash.imgB.isEmpty ∧ bit pass 2 = storeGood s
              ∧ bit fail 2 = !storeGood s ∧ bit pass 3 = s.flash.keys.isSome ∧ bit pass 5 = f.sensorsOk
              ∧ bit fail 5 = !f.sensorsOk ∧ bit pass 6 = f.pllsOk)
         ∧ ctrVal t 1 5 = (ctrVal s 1 5 + f.corrected) % 2 ^ 64
         ∧ t = { s with vcp := t.vcp, sage := t.sage })) ∧
  (∀ (r : Req) (q : Run) (w : Nat) (s : State), Accepted 0x0901 r q s → memAccess s r.params = some (1, w, 1) →
     asleepBank s 1 w 1 = none → memDouble s 1 (w - 0x18000000) = true →
     ∃ t, exec (.memRead r) s = .next t ∧ t.seq.running = false ∧ t.seq.cause = 4 ∧ t.vcp.run = none
       ∧ bit (hist t hSys) 0 = true ∧ bit (hist t hSys) 1 = true ∧ t.map = s.map ∧ t.ports = s.ports ∧ t.grps = s.grps
       ∧ t.thy = s.thy ∧ t.regs.act = s.regs.act) ∧
  (∀ (r : Req) (q : Run) (x : Nat) (s : State), s.regs.pairs = [] →
     let p := r.params
     let o := pkNat p 0 4
     let n := pkNat p 4 2
     let we := aSys + 0x020
     let opened := fun (t : State) => replyNow t = none ∧ t.vcp.run.map (·.work) = some 2
       ∧ t = { s with vcp := t.vcp, regs := { s.regs with pairs := [(0, { addr := we, val := 1, at_ := s.sfp })] } }
     let phase := fun (op : BitVec 16) (k : Nat) => powered s = true ∧ s.seq.running = true ∧ s.vcp.run = some q ∧ q.req = r
       ∧ q.op = op ∧ q.reply = none ∧ q.work = k
     let img := installTarget s
     (Accepted 0x0910 r q s →
       ∃ t, exec (.fwInfo r) s = .next t ∧ Answers t 0 0 (answer t) ∧ (answer t).length = 34
         ∧ bit ((answer t).getD 0 0) 0 = s.seq.imageB ∧ bit ((answer t).getD 0 0) 1 = (s.flash.prefOk && s.flash.prefB)
         ∧ bit ((answer t).getD 0 0) 4 = s.flash.dl.isEmpty ∧ pkNat (answer t) 26 4 = s.flash.dlHigh % 2 ^ 32
         ∧ pkNat (answer t) 30 4 = s.flash.fwWrites % 2 ^ 32 ∧ t = { s with vcp := t.vcp }) ∧
     (Accepted 0x0911 r q s → o % 256 = 0 → 1 ≤ n → n ≤ 1024 → o + n ≤ 1048576 →
       (notBlank s o n = true →
         ∃ t, exec (.fwLoad r true) s = .next t ∧ Answers t 4 0x53 [] ∧ t = { s with vcp := t.vcp }) ∧
       (notBlank s o n = false → ∃ t, exec (.fwLoad r true) s = .next t ∧ opened t)) ∧
     (phase 0x0911 3 → 8 + n ≤ p.length →
       (∃ t, exec (.fwLoad r true) s = .next t ∧ Answers t 0 0 []
         ∧ (∀ i : Fin 1024, i < n → tget 0xFF t.flash.dl (o + i) = p.getD (8 + i) 0)
         ∧ (x < o ∨ o + n ≤ x → tget 0xFF t.flash.dl x = tget 0xFF s.flash.dl x)
         ∧ t.flash.dlHigh = max s.flash.dlHigh (o + n)
         ∧ t = { s with vcp := t.vcp, flash := { s.flash with dl := t.flash.dl, dlHigh := t.flash.dlHigh }
                        regs := { s.regs with gw := t.regs.gw } }) ∧
       (∃ t, exec (.fwLoad r false) s = .next t ∧ Answers t 4 0x4B [] ∧ t.flash.dlHigh = s.flash.dlHigh
         ∧ (x < o ∨ o + n ≤ x → tget 0xFF t.flash.dl x = tget 0xFF s.flash.dl x)
         ∧ t = { s with vcp := t.vcp, flash := { s.flash with dl := t.flash.dl }, fresh := t.fresh
                        regs := { s.regs with gw := t.regs.gw } })) ∧
     (Accepted 0x0912 r q s →
       (pk1 p 0 = 0 → ∃ t, exec (.fwUpdate r true) s = .next t ∧ opened t) ∧
       (pk1 p 0 = 1 → s.flash.dl = [] →
         ∃ t, exec (.fwUpdate r true) s = .next t ∧ Answers t 4 0x54 [] ∧ t = { s with vcp := t.vcp })) ∧
     (phase 0x0912 3 →
       (∃ t, exec (.fwUpdate r true) s = .next t ∧ imageAt t img = s.flash.dl ∧ imageAt t (!img) = imageAt s (!img)
         ∧ t.vcp.run = some { q with work := 4 }
         ∧ t = { s with vcp := t.vcp, flash := { s.flash with imgA := t.flash.imgA, imgB := t.flash.imgB } }) ∧
       (∃ t, exec (.fwUpdate r false) s = .next t ∧ Answers t 4 0x4B []
         ∧ t = { s with vcp := t.vcp, regs := { s.regs with gw := t.regs.gw } })) ∧
     (phase 0x0912 4 → s.seq.rescue = false →
       (bit (p.getD 1 0) 0 = true →
         ∃ t, exec (.fwUpdate r true) s = .next t ∧ t.flash.prefB = img ∧ t.flash.prefOk = true ∧ replyNow t = none
           ∧ t = { s with vcp := t.vcp, flash := { s.flash with prefB := img, prefOk := true } }) ∧
       (bit (p.getD 1 0) 0 = false →
         ∃ t, exec (.fwUpdate r true) s = .next t ∧ replyNow t = none ∧ t = { s with vcp := t.vcp })) ∧
     (phase 0x0912 5 →
       ∃ t, exec (.fwUpdate r true) s = .next t ∧ t = { s with vcp := { s.vcp with run := some { q with work := 6 } } }) ∧
     (phase 0x0912 6 →
       ∃ t, exec (.fwUpdate r true) s = .next t ∧ t.vcp.run = some { q with work := 7 }
         ∧ t = { s with vcp := t.vcp, flash := { s.flash with dl := t.flash.dl }, fresh := t.fresh }) ∧
     (phase 0x0912 7 →
       ∃ t, exec (.fwUpdate r true) s = .next t ∧ Answers t 0 0 ([by1 (b2n img), 1] ++ beBytes 4 s.flash.fwWrites)
         ∧ t = { s with vcp := t.vcp, flash := { s.flash with dl := [], dlHigh := 0 }, regs := { s.regs with gw := t.regs.gw } }) ∧
     (phase 0x0912 20 →
       ∃ t, exec (.fwUpdate r true) s = .next t ∧ Answers t 0 0 ([by1 (b2n (preferred s)), 0] ++ beBytes 4 s.flash.fwWrites)
         ∧ t = { s with vcp := t.vcp, flash := { s.flash with dl := [], dlHigh := 0 }, regs := { s.regs with gw := t.regs.gw } })) ∧
  (∀ (r : Req) (q : Run) (x : Nat) (s : State),
     let p := r.params
     let o := pkNat p 0 4
     let n := pkNat p 4 2
     let img := installTarget s
     (SecondWrite 0x0911 r q 0 (aSys + 0x020) 1 s → o % 256 = 0 → 1 ≤ n → n ≤ 1024 → o + n ≤ 1048576 →
       notBlank s o n = false →
       ∃ t, exec (.fwLoad r true) s = .next t ∧ replyNow t = none ∧ t.vcp.run.map (·.work) = some 3
         ∧ (x < o ∨ o + n ≤ x → tget 0xFF t.flash.dl x = tget 0xFF s.flash.dl x) ∧ tget 0 t.regs.gw (aSys + 0x020) = 1
         ∧ t = { s with vcp := t.vcp, flash := { s.flash with dl := t.flash.dl }, fresh := t.fresh
                        regs := { s.regs with gw := t.regs.gw, pairs := [] } }) ∧
     (SecondWrite 0x0912 r q 0 (aSys + 0x020) 1 s →
       (pk1 p 0 = 0 →
         ∃ t, exec (.fwUpdate r true) s = .next t ∧ replyNow t = none ∧ t.vcp.run.map (·.work) = some 20
           ∧ t = { s with vcp := t.vcp, flash := { s.flash with dl := t.flash.dl }, fresh := t.fresh
                          regs := { s.regs with gw := t.regs.gw, pairs := [] } }) ∧
       (pk1 p 0 = 1 →
         ∃ t, exec (.fwUpdate r true) s = .next t
           ∧ (imageOk s.flash.dl = false → Answers t 4 0x54 [] ∧ t = { s with vcp := t.vcp })
           ∧ (imageOk s.flash.dl = true → imageAt t img = [] ∧ imageAt t (!img) = imageAt s (!img)
               ∧ t.flash.fwWrites = (s.flash.fwWrites + 1) % 2 ^ 32 ∧ t.vcp.run.map (·.work) = some 3
               ∧ t = { s with vcp := t.vcp, regs := { s.regs with gw := t.regs.gw, pairs := [] }
                              flash := { s.flash with imgA := t.flash.imgA, imgB := t.flash.imgB
                                                      fwWrites := t.flash.fwWrites } }))))

/-- The register family's commands (Tables 14-13 and 14-14, R275, R325 to R328, R353, R435). REG_READ gives the words
of consecutive registers, REG_READ64 high, low and a high that agrees. REG_WRITE checks every item first (RANGE,
FW_OWNED, FROZEN), stages what it names, and reports a write dropped at a busy slow block. REG_WRITE_WAIT posts a slow
item once its block is free, and gives up past its TIMEOUT. REG_GUARDED_WRITE makes the pair on BSCAN_UNLOCK and
answers its value, and refuses a register firmware owns. exec answers a next state for each of REG_READ, REG_READ64,
REG_WRITE, REG_WRITE_WAIT and REG_GUARDED_WRITE, on the conditions stated. Readings of the model it rests on: log 22,
23, 24, 86. -/
def Obligations.RegisterCommands : Prop :=
  ∀ (r : Req) (q : Run) (s : State),
    let p := r.params
    let a := pkNat p 0 4
    let n := pkNat p 4 2
    let read := fun (t : State) => t = { s with vcp := t.vcp, regs := { s.regs with rdata := t.regs.rdata, resp := t.regs.resp } }
    (Accepted 0x0201 r q s → 1 ≤ n → n ≤ 64 → regAddrOk a = true → regAddrOk (a + 4 * (n - 1)) = true →
      (a + 4 * (n - 1) < aCapPos ∨ aCapPos < a) →
      ∃ t, exec (.regRead r) s = .next t ∧ Answers t 0 0 (answer t) ∧ slice (answer t) 0 6 = slice p 0 6
        ∧ (∀ i : Fin 64, i < n → slice (answer t) (6 + 4 * i) 4 = wordBytes (readReg s (a + 4 * i))) ∧ read t) ∧
    (Accepted 0x0202 r q s → regAddrOk a = true → regAddrOk (a + 4) = true → a ≠ aCapPos → a + 4 ≠ aCapPos →
      ∃ t, exec (.regRead64 r) s = .next t
        ∧ Answers t 0 0 (beBytes 4 a ++ wordBytes (readReg s a) ++ wordBytes (readReg s (a + 4)) ++ [2]) ∧ read t) ∧
    (Accepted 0x0203 r q s → MatFree s → mirHeld s = false → pkNat p 0 2 = 1 →
      let b := pkNat p 2 4
      let d := (domOf b).getD 0
      (domOf b = some d → regAddrOk b = true → isWideHi b = false → isWideLo b = false → frozenNow s d = false →
        inSlow b = false → guardBlock b = none → mirOn s = false →
        ∃ t, exec (.regWrite r) s = .next t ∧ Answers t 0 0 [0, 1, 0, 0, 0, 0] ∧ stgv t b = word (pkNat p 6 4) &&& word (kindMask (kindAct b))
          ∧ t.com.stageOpen = s.com.stageOpen ||| maskOf 8 [d]
          ∧ t = { s with vcp := t.vcp, com := { s.com with stageOpen := t.com.stageOpen }
                         mem := { s.mem with granted := t.mem.granted }
                         regs := { s.regs with stg := t.regs.stg, resp := t.regs.resp } }) ∧
      (regCheck s [b] = none → itemBusy s b = true → guardBlock b = none → kindAct b ≠ .none →
        ∃ t, exec (.regWrite r) s = .next t ∧ Answers t 0 0 [0, 0, 0, 0, 0, 1] ∧ Counted s t 1 3
          ∧ t.regs.stg = s.regs.stg ∧ t.regs.act = s.regs.act ∧ t.regs.posted = s.regs.posted)) ∧
    (Accepted 0x0203 r q s → 1 ≤ pkNat p 0 2 → pkNat p 0 2 ≤ 32 →
      let items := (List.range (pkNat p 0 2)).map (fun k => pkNat p (2 + 8 * k) 4)
      let c := (regCheck s items).getD (0, 0)
      regCheck s items = some c →
      ∃ t, exec (.regWrite r) s = .next t ∧ Answers t c.1 c.2 [] ∧ t = { s with vcp := t.vcp }) ∧
    (Accepted 0x0204 r q s → MatFree s → pkNat p 0 2 = 1 → 1 ≤ pkNat p 2 2 → pkNat p 2 2 ≤ 50000 →
      let b := pkNat p 4 4
      let d := (domOf b).getD 0
      let k := (slowBlockOf b).getD 0
      domOf b = some d → regAddrOk b = true → frozenNow s d = false → inSlow b = true → slowBlockOf b = some k →
      guardBlock b = none →
      (slowBusy s k = false →
        ∃ t, exec (.regWriteWait r) s = .next t ∧ replyNow t = none
          ∧ tfind t.regs.posted k = some { addr := b, val := word (pkNat p 8 4), m := 1 }
          ∧ t.com.stageOpen = s.com.stageOpen ||| maskOf 8 [d]
          ∧ t = { s with vcp := t.vcp, com := { s.com with stageOpen := t.com.stageOpen }, mir := t.mir
                         mem := { s.mem with granted := t.mem.granted }
                         regs := { s.regs with posted := t.regs.posted, resp := t.regs.resp } }) ∧
      (slowBusy s k = true →
        ∃ t, exec (.regWriteWait r) s = .next t ∧ replyNow t = none ∧ t.regs = s.regs ∧ t.sage = s.sage)) ∧
    (powered s = true → s.seq.running = true → s.vcp.run = some q → q.req = r → q.op = 0x0204 → q.reply = none → q.work = 2 →
      MatFree s → pkNat p 0 2 = 1 → let k := (slowBlockOf (pkNat p 4 4)).getD 0
      slowBlockOf (pkNat p 4 4) = some k → inSlow (pkNat p 4 4) = true → kindAct (pkNat p 4 4) ≠ .blk →
      (slowBusy s k = true → (pkNat p 2 2 : Int) * 100000 < (sfpDist q.since s.sfp).toNat * 64 →
        ∃ t, exec (.regWriteWait r) s = .next t ∧ (replyNow t).map (fun y => (y.status, y.detail)) = some (4, 0x4F)
          ∧ t = { s with vcp := t.vcp }) ∧
      (slowBusy s k = false → q.worst < 2 ^ 32 →
        ∃ t, exec (.regWriteWait r) s = .next t ∧ (replyNow t).map (fun y => (y.status, y.detail)) = some (0, 0)
          ∧ slice (answer t) 0 2 = [0, 1] ∧ t = { s with vcp := t.vcp })) ∧
    (a = aSys + 0x030 →
      (Accepted 0x0205 r q s → s.regs.pairs = [] →
        ∃ t, exec (.regGuardedWrite r) s = .next t ∧ replyNow t = none ∧ t.vcp.run.map (·.work) = some 2
          ∧ t = { s with vcp := t.vcp, regs := { s.regs with
              pairs := [(0, { addr := aSys + 0x030, val := word (pkNat p 4 4), at_ := s.sfp })] } }) ∧
      (SecondWrite 0x0205 r q 0 (aSys + 0x030) (word (pkNat p 4 4)) s →
        ∃ t, exec (.regGuardedWrite r) s = .next t ∧ Answers t 0 0 (wordBytes (word (pkNat p 4 4) &&& 1))
          ∧ bscanOpen t = bit (word (pkNat p 4 4)) 0
          ∧ t = { s with vcp := t.vcp, sage := t.sage
                         regs := { s.regs with gw := t.regs.gw, pairs := [], rdata := t.regs.rdata, resp := t.regs.resp
                                               hist := t.regs.hist } })) ∧
    (Accepted 0x0205 r q s → a ∈ [aSys + 0x010, aSys + 0x018, aSys + 0x020, aSys + 0x028] →
      ∃ t, exec (.regGuardedWrite r) s = .next t ∧ Answers t 4 0x4E [] ∧ t = { s with vcp := t.vcp })

/-! The matrix and guarded pairs. -/

/-- Writes of fast registers (R372, R374, R375, R378, R86, R92; Tables 16-1 to 16-3): an RS register stages, through
either of its addresses, unless its domain is frozen; a W1C register clears the bits written as 1; the high word of a
wide value waits for its low word; RO registers and addresses of no register discard; a write that no path carries
answers DECERR and is counted. A write that would make a mirror record is held by the bridge while the queue has no
space, and what comes to a target in service waits (R353, R435). Readings of the model it rests on: log 37, 86, 98. -/
def Obligations.RegisterWrites : Prop :=
  ∀ (m : Master) (a : Word) (b : Nat) (v : Word) (r0 : MatReq) (s : State), powered s = true →
    let d := (domOf b).getD 0
    let gr := { s.mem with granted := (tset s.mem.granted (5 * 8 + qosOf s m) m.val) }
    (MatFree s → mirHeld s = false → mayWrite m 5 = true → targetOf b = some 5 → domOf b = some d → guardBlock b = none → isWideHi b = false → isWideLo b = false →
      stagedOf b = none → (a.toNat = b ∨ a.toNat = b + stagedOff) →
      (frozenNow s d = false →
        ∃ t, exec (.registerWrite m a v) s = .next t ∧ stgv t b = v &&& word (kindMask (kindAct b)) ∧ actv t b = actv s b
          ∧ respOf t m = .okay
          ∧ t = { s with mem := gr, mir := t.mir, regs := { s.regs with stg := t.regs.stg, resp := t.regs.resp } }) ∧
      (frozenNow s d = true →
        ∃ t, exec (.registerWrite m a v) s = .next t ∧ respOf t m = .slverr ∧ t.com.frozenWr = true ∧ Counted s t 3 4
          ∧ t = { s with mem := gr, com := { s.com with frozenWr := true }, sage := t.sage
                         regs := { s.regs with resp := t.regs.resp } })) ∧
    (MatFree s → mayWrite m 5 = true → b ∈ [hCore, hProt] → a.toNat = b →
      ∃ t, exec (.registerWrite m a v) s = .next t ∧ (∀ i : Fin 4, bit (hist t b) i = (bit (hist s b) i && !bit v i))
        ∧ t = { s with mem := gr, regs := { s.regs with hist := t.regs.hist, resp := t.regs.resp } }) ∧
    (MatFree s → mirHeld s = false → mayWrite m 5 = true → b ∈ [aSage + 0x408, aSage + 0x424] →
      (a.toNat = b → frozenNow s 5 = false →
        ∃ t, exec (.registerWrite m a v) s = .next t ∧ tget 0 t.regs.wide b = v &&& 0xFFFF#32
          ∧ t = { s with mem := gr, regs := { s.regs with wide := t.regs.wide, resp := t.regs.resp } }) ∧
      (a.toNat = b + 4 → frozenNow s 5 = false →
        ∃ t, exec (.registerWrite m a v) s = .next t ∧ stgv t b = tget 0 s.regs.wide b ∧ stgv t (b + 4) = v
          ∧ t = { s with mem := gr, mir := t.mir, regs := { s.regs with stg := t.regs.stg, resp := t.regs.resp } })) ∧
    (MatFree s → mayWrite m 5 = true → a.toNat = aMgmt + 0x010 →
      ∃ t, exec (.registerWrite m a v) s = .next t ∧ (actv t (aMgmt + 0x010)).toNat = min 2 (v.toNat % 4)
        ∧ t = { s with mem := gr, regs := { s.regs with act := t.regs.act, resp := t.regs.resp } }) ∧
    (MatFree s → mayWrite m 5 = true → targetOf a.toNat = some 5 → guardBlock a.toNat = none → kindMask (kindAct a.toNat) = 0 →
      kindAct a.toNat = .none → stagedOf a.toNat = none →
      ∃ t, exec (.registerWrite m a v) s = .next t ∧ respOf t m = .okay
        ∧ t = { s with mem := gr, regs := { s.regs with resp := t.regs.resp } }) ∧
    (MatFree s → (targetOf a.toNat).all (fun x => !mayWrite m x) = true →
      ∃ t, exec (.registerWrite m a v) s = .next t ∧ respOf t m = .decerr ∧ Counted s t 1 (16 + m)
        ∧ t = { s with sage := t.sage, regs := { s.regs with resp := t.regs.resp } }) ∧
    (MatFree s → mirHeld s = true → mayWrite m 5 = true → targetOf a.toNat = some 5 → mirWrites s a.toNat = true →
      exec (.registerWrite m a v) s
        = .next { s with mem := { gr with busy := [(5, { m := m.val, addr := a.toNat, wr := some v })] } }) ∧
    (s.mem.busy = [(5, r0)] → s.mem.wait = [] → r0.wr.isSome = true → mirHeld s = true → mirWrites s r0.addr = true → r0.m ≠ m.val →
      mayWrite m 5 = true → targetOf a.toNat = some 5 →
      exec (.registerWrite m a v) s
        = .next { s with mem := { s.mem with wait := [(5, { m := m.val, addr := a.toNat, wr := some v })] } })

/-- The host port of the map (Table 07-3, R162 to R165): a high word is held; a low word stores the whole entry of the
staged bank with SEL from the protection table; a collision with the engine's write pass changes nothing; the active
bank is refused with SLVERR and MAP_ACTIVE_WRITE; a store that the mirror queue has no space for is held by its
bridge (R435). A read of a high word latches the low word for its master. The
capture of SFP_CAP_POS (R84). Readings of the model it rests on: log 37, 86, 98. -/
def Obligations.MapPort : Prop :=
  ∀ (m : Master) (a v : Word) (c : Bool) (x : Nat) (s : State), powered s = true → MatFree s →
    let b := decide (0x20020000 ≤ a.toNat)
    let g := a.toNat % 0x20000 / 8
    let e : Entry := BitVec.ofNat 64 (s.map.hold.toNat * 2 ^ 32 + v.toNat)
    let off := if b then 0x20020000 else 0x20000000
    let gr := fun (n : Nat) => { s.mem with granted := tset s.mem.granted (n * 8 + qosOf s m) m.val }
    (mayWrite m 3 = true → off ≤ a.toNat → a.toNat < off + 0x14000 → mirHeld s = false →
      (b = s.map.bActive →
        (∃ t, exec (.mapHighWordWrite m a v) s = .next t ∧ respOf t m = .slverr ∧ Counted s t 4 1 ∧ bit (hist t hCore) 2 = true
          ∧ t = { s with mem := gr 3, sage := t.sage, regs := { s.regs with hist := t.regs.hist, resp := t.regs.resp } }) ∧
        (∃ t, exec (.mapLowWordWrite m a v c) s = .next t ∧ respOf t m = .slverr ∧ Counted s t 4 1 ∧ bit (hist t hCore) 2 = true
          ∧ t = { s with mem := gr 3, sage := t.sage, regs := { s.regs with hist := t.regs.hist, resp := t.regs.resp } })) ∧
      (b ≠ s.map.bActive → frozenNow s 0 = true →
        ∃ t, exec (.mapLowWordWrite m a v c) s = .next t ∧ respOf t m = .slverr ∧ t.map = s.map ∧ Counted s t 3 4) ∧
      (b ≠ s.map.bActive → frozenNow s 0 = false →
        (a.toNat % 8 = 0 →
          ∃ t, exec (.mapHighWordWrite m a v) s = .next t ∧ t.map.hold = v ∧ respOf t m = .okay
            ∧ t = { s with mem := gr 3, map := { s.map with hold := v }, regs := { s.regs with resp := t.regs.resp } }) ∧
        (a.toNat % 8 = 4 →
          ((c && inPass s g) = false →
            ∃ t, exec (.mapLowWordWrite m a v c) s = .next t ∧ respOf t m = .okay ∧ entryOf t.map b g = withSel s e
              ∧ (x ≠ g → entryOf t.map b x = entryOf s.map b x) ∧ entryOf t.map (!b) x = entryOf s.map (!b) x
              ∧ t = { s with map := { s.map with a := t.map.a, b := t.map.b, ecc := t.map.ecc, scrub := t.map.scrub }
                             mem := gr 3, mir := t.mir, regs := { s.regs with resp := t.regs.resp } }) ∧
          (c = true → inPass s g = true →
            ∃ t, exec (.mapLowWordWrite m a v c) s = .next t ∧ respOf t m = .collision ∧ Counted s t 4 0
              ∧ bit (hist t hCore) 3 = true
              ∧ t = { s with mem := gr 3, sage := t.sage, regs := { s.regs with hist := t.regs.hist, resp := t.regs.resp } })))) ∧
    (mayWrite m 3 = true → off ≤ a.toNat → a.toNat < off + 0x14000 → mirHeld s = true → b ≠ s.map.bActive → a.toNat % 8 = 4 →
      exec (.mapLowWordWrite m a v c) s
        = .next { s with mem := { gr 3 with busy := [(3, { m := m.val, addr := a.toNat, wr := some v, collide := c })] } }) ∧
    (mayRead m 3 = true → off ≤ a.toNat → a.toNat < off + 0x14000 → a.toNat % 8 = 0 → eccDouble s.map b g = false →
      ∃ t, exec (.mapHighWordRead m a) s = .next t ∧ (dataOf t m).toNat = (entryOf s.map b g).toNat / 2 ^ 32
        ∧ (tfind t.map.latch m).map (fun l => (l.1, l.2.toNat)) = some (a.toNat + 4, (entryOf s.map b g).toNat % 2 ^ 32)
        ∧ t = { s with mem := gr 3, map := { s.map with latch := t.map.latch }
                       regs := { s.regs with rdata := t.regs.rdata, resp := t.regs.resp } }) ∧
    (mayRead m 5 = true → sfpOk s.sfp = true →
      ∃ t, exec (.sfpCapPosRead m) s = .next t ∧ (dataOf t m).toNat = s.sfp.fi * 2 ^ 18 + s.sfp.bi ∧ t.com.capMfc = s.sfp.mfc
        ∧ t = { s with mem := gr 5, com := { s.com with capMfc := s.sfp.mfc }
                       regs := { s.regs with rdata := t.regs.rdata, resp := t.regs.resp } })

/-- Slow blocks (R376, R382, R383, R385): a write is posted and its block BUSY until it completes; a write that finds the
block BUSY is dropped with OVERRUN, but M3 waits for it; the completed write stages an RS register's fields, and KP
bits that differ are refused while BSCAN_UNLOCK is 0. BLK_STAT clears what is written as 1. MDIO_CMD, MGMT_SNAP_CTRL
(R337, R342). Of two requests that wait at a target the higher QoS is granted first, and at the same QoS not the master
last granted; one that has aged is raised (R353, R354). Readings of the model it rests on: log 38, 39, 51, 98. -/
def Obligations.SlowAndShared : Prop :=
  ∀ (m : Master) (sb : SlowBlock) (a v : Word) (tg : Fin 8) (p : Posted) (b : Nat) (v0 v1 v2 : Word)
    (r0 x y : MatReq) (s : State), powered s = true → s.regs.pairs = [] →
    let k := sbIdx sb
    let d := (domOf a.toNat).getD 0
    let kp := v &&& ~~~(word (kindMask (kindAct p.addr)))
    let gr := fun (n : Nat) => { s.mem with granted := tset s.mem.granted (n * 8 + qosOf s m) m.val }
    (MatFree s → mayWrite m 6 = true → slowBlockOf a.toNat = some k → domOf a.toNat = some d →
      (slowBusy s k = false →
        ∃ t, exec (.postedWrite m a v) s = .next t ∧ tfind t.regs.posted k = some { addr := a.toNat, val := v, m := m }
          ∧ respOf t m = .okay ∧ t = { s with mem := gr 6, regs := { s.regs with posted := t.regs.posted, resp := t.regs.resp } }) ∧
      (slowBusy s k = true → m ≠ 3 →
        ∃ t, exec (.postedWrite m a v) s = .next t ∧ Counted s t 1 3 ∧ bit (tget 0 t.regs.blk k) 0 = true
          ∧ t = { s with mem := gr 6, sage := t.sage, regs := { s.regs with blk := t.regs.blk, resp := t.regs.resp } }) ∧
      (slowBusy s k = true → m = 3 →
        exec (.postedWrite m a v) s = .next { s with mem := { s.mem with wait := [(6, { m := 3, addr := a.toNat, wr := some v })] } })) ∧
    (MatFree s → mirHeld s = false → tfind s.regs.posted k = some p → p.val = v → p.addr = a.toNat → domOf p.addr = some d → slowBlockOf p.addr = some k →
      frozenNow s d = false → isWideHi p.addr = false → isWideLo p.addr = false →
      ∃ t, exec (.postedWriteComplete sb) s = .next t ∧ tfind t.regs.posted k = none
        ∧ stgv t p.addr = v &&& word (kindMask (kindAct p.addr)) ∧ actv t p.addr = actv s p.addr
        ∧ (kp = kpOf s p.addr (kindMask (kindAct p.addr)) → t.regs.blk = s.regs.blk ∧ t.sage = s.sage ∧ t.regs.kp = s.regs.kp)
        ∧ (kp ≠ kpOf s p.addr (kindMask (kindAct p.addr)) →
            (unlocked s = true → kpOf t p.addr (kindMask (kindAct p.addr)) = kp) ∧
            (unlocked s = false → t.regs.kp = s.regs.kp ∧ bit (tget 0 t.regs.blk k) 1 = true ∧ Counted s t 1 4))
        ∧ t = { s with regs := { s.regs with stg := t.regs.stg, posted := t.regs.posted, kp := t.regs.kp, blk := t.regs.blk
                                             hist := t.regs.hist }
                       vcp := { s.vcp with run := t.vcp.run }, mir := t.mir, sage := t.sage }) ∧
    (MatFree s → mayWrite m 6 = true →
      ∃ t, exec (.blkStatWrite m sb v) s = .next t
        ∧ bit (tget 0 t.regs.blk k) 0 = (bit (tget 0 s.regs.blk k) 0 && !bit v 1)
        ∧ bit (tget 0 t.regs.blk k) 1 = (bit (tget 0 s.regs.blk k) 1 && !bit v 2)
        ∧ t = { s with mem := gr 6, regs := { s.regs with blk := t.regs.blk, resp := t.regs.resp } }) ∧
    (MatFree s → mayWrite m 5 = true → bit v 31 = true →
      (s.mgSh.mdio = none → (bit v 30 = true ∨ bits v 29 28 = 1 ∨ bits v 29 28 = 2) →
        ∃ t, exec (.mdioStart m v) s = .next t ∧ t.mgSh.mdio = some (v &&& word (kindMask (kindAct aMdioCmd)))
          ∧ t.mgSh.mdioValid = false
          ∧ t = { s with mem := gr 5, mgSh := { s.mgSh with mdio := t.mgSh.mdio, mdioValid := false }
                         regs := { s.regs with act := t.regs.act, resp := t.regs.resp } }) ∧
      (s.mgSh.mdio.isSome = true →
        ∃ t, exec (.mdioStart m v) s = .next t ∧ bit (hist t hMdio) 0 = true
          ∧ t = { s with mem := gr 5, regs := { s.regs with hist := t.regs.hist, resp := t.regs.resp } }) ∧
      (s.mgSh.mdio = none → bit v 30 = false → (bits v 29 28 = 0 ∨ bits v 29 28 = 3) →
        ∃ t, exec (.mdioStart m v) s = .next t ∧ bit (hist t hMdio) 1 = true
          ∧ t = { s with mem := gr 5, regs := { s.regs with hist := t.regs.hist, resp := t.regs.resp } })) ∧
    (MatFree s → mayWrite m 5 = true →
      let f := snapNamed s v
      let g : State → Option (Sfp × Bool × Bool) → Bool → Bool → Prop := fun t o l r =>
        t = { s with mem := gr 5, mgSh := { s.mgSh with snapPend := o, late := l, far := r }
                     regs := { s.regs with act := t.regs.act, resp := t.regs.resp } }
      (bit v 31 = false → ∃ t, exec (.mgmtSnapArm m v) s = .next t ∧ g t none s.mgSh.late s.mgSh.far) ∧
      (bit v 31 = true → sfpDist s.sfp f < 327536 → ∃ t, exec (.mgmtSnapArm m v) s = .next t ∧ g t none true s.mgSh.far) ∧
      (bit v 31 = true → horizon < sfpDist s.sfp f → ∃ t, exec (.mgmtSnapArm m v) s = .next t ∧ g t none s.mgSh.late true) ∧
      (bit v 31 = true → 327536 ≤ sfpDist s.sfp f → sfpDist s.sfp f ≤ horizon →
        ∃ t, exec (.mgmtSnapArm m v) s = .next t ∧ g t (some (f, bit v 0, bit v 1)) s.mgSh.late s.mgSh.far)) ∧
    ((mayRead m tg = true ∨ mayWrite m tg = true) → qosOf s m < 5 →
      s.mem.wait.any (fun w => w.2.m == m.val && w.2.aged) = false →
      ∃ t, exec (.matrixAged m tg) s = .next t ∧ Counted s t 1 11
        ∧ t.mem.wait = s.mem.wait.map (fun w => if w.1 = tg.val ∧ w.2.m = m.val then (w.1, { w.2 with aged := true }) else w)
        ∧ (∀ w ∈ t.mem.wait, w.1 = tg.val → w.2.m = m.val → reqQos t w.2 = 5)
        ∧ t = { s with mem := { s.mem with wait := t.mem.wait }, sage := t.sage }) ∧
    (mirOn s = false → s.mem.busy = [(5, r0)] → s.mem.wait = [(5, x), (5, y)] → x.m ≤ 6 → y.m ≤ 6 → x.m ≠ y.m →
      targetOf b = some 5 → (domOf b).isSome = true → guardBlock b = none → isWideHi b = false → isWideLo b = false → stagedOf b = none →
      frozenNow s ((domOf b).getD 0) = false →
      (∀ q ∈ [r0, x, y], q.addr = b ∧ mayWrite q.m 5 = true) →
      r0.wr = some v0 → x.wr = some v1 → y.wr = some v2 → targetOf a.toNat = none →
      ∃ t, exec (.registerWrite m a v) s = .next t ∧ t.mem.busy = [] ∧ t.mem.wait = []
        ∧ ((reqQos s x < reqQos s y ∨ (reqQos s x = reqQos s y ∧ tfind s.mem.granted (5 * 8 + reqQos s x) = some x.m)) →
            stgv t b = v1 &&& word (kindMask (kindAct b)))
        ∧ ((reqQos s y < reqQos s x ∨ (reqQos s y = reqQos s x ∧ tfind s.mem.granted (5 * 8 + reqQos s x) = some y.m)) →
            stgv t b = v2 &&& word (kindMask (kindAct b))))

/-- Guarded pairs (R379, R380, R393, Table 17-2). A first write opens a pair, in place of one left open; its complement at
the guard port within 100,000 block times makes the value take effect; any other value, a pair out of time, a second
write without a pair each fail with their cause, counted and latched, and the register keeps its value. REMAP,
SEQ_RST, FLASH_WE, KEY_WE and BSCAN_UNLOCK take their bit; PAIR_CTL acts where its checks pass and is recorded with
CAUSE 0 where they do not. Readings of the model it rests on: log 22, 40, 98. -/
def Obligations.GuardedRegisters : Prop :=
  ∀ (m : Master) (a v : Word) (p : GuardPair) (s : State), powered s = true → MatFree s → mayWrite m 5 = true →
    let regs := [aSys + 0x010, aSys + 0x018, aSys + 0x020, aSys + 0x028, aSys + 0x030, aSys + 0x038]
    let opened := fun (b : Nat) (l : State) => tfind l.regs.pairs 0 = some p ∧ p.addr = b ∧ p.val = v ∧ sfpDist p.at_ l.sfp ≤ 100000
    let failed := fun (t : State) (cause : Nat) (b : Nat) => t.regs.guardFail = true ∧ t.regs.guardCause = cause
      ∧ t.regs.guardAddr = word b ∧ t.regs.gw = s.regs.gw
    let gr := fun (t : State) => { s.mem with granted := t.mem.granted }
    let rest := fun (t : State) => t = { s with
      mem := gr t, sage := t.sage
      regs := { s.regs with hist := t.regs.hist, pairs := t.regs.pairs, resp := t.regs.resp, guardFail := t.regs.guardFail
                            guardCause := t.regs.guardCause, guardAddr := t.regs.guardAddr } }
    let taken := fun (t : State) (b : Nat) => tget 0 t.regs.gw b = v &&& word (kindMask (kindAct b)) ∧ tfind t.regs.pairs 0 = none
      ∧ t.regs.guardFail = s.regs.guardFail ∧ t.ports = s.ports ∧ t.grps = s.grps ∧ t.map = s.map ∧ t.regs.act = s.regs.act
      ∧ t.regs.stg = s.regs.stg ∧ t.flash = s.flash ∧ t.vcp = s.vcp
    (a.toNat ∈ regs →
      (tfind s.regs.pairs 0 = none →
        ∃ t, exec (.guardPairOpen m a v) s = .next t
          ∧ tfind t.regs.pairs 0 = some { addr := a.toNat, val := v, at_ := s.sfp } ∧ t.sage = s.sage
          ∧ t.regs.guardFail = s.regs.guardFail ∧ rest t) ∧
      (tfind s.regs.pairs 0 = some p → sfpDist p.at_ s.sfp ≤ 100000 →
        ∃ t, exec (.guardPairOpen m a v) s = .next t ∧ failed t 6 p.addr
          ∧ tfind t.regs.pairs 0 = some { addr := a.toNat, val := v, at_ := s.sfp } ∧ Counted s t 1 2 ∧ rest t)) ∧
    (∀ b ∈ regs, a.toNat = b + 4 → tfind s.regs.pairs 0 = none →
      ∃ t, exec (.guardOrphan m a v) s = .next t ∧ failed t 4 b ∧ Counted s t 1 2 ∧ rest t) ∧
    (a.toNat ∈ regs → p.addr = a.toNat → tfind s.regs.pairs 0 = some p → 100000 < sfpDist p.at_ s.sfp →
      ∃ t, exec (.guardTimeout a) s = .next t ∧ failed t 1 a.toNat ∧ Counted s t 1 2 ∧ tfind t.regs.pairs 0 = none ∧ rest t) ∧
    (opened (aSys + 0x010) s → tsorted s.regs.pairs = true →
      (∃ t, exec (.remap m (~~~v)) s = .next t ∧ taken t (aSys + 0x010) ∧ t.mem.remap = bit v 0 ∧ t.sage = s.sage) ∧
      (a ≠ ~~~v → ∃ t, exec (.remap m a) s = .next t ∧ failed t 3 (aSys + 0x010) ∧ Counted s t 1 2 ∧ rest t)) ∧
    (opened (aSys + 0x018) s → tsorted s.regs.pairs = true →
      (∃ t, exec (.seqRst m (~~~v)) s = .next t ∧ taken t (aSys + 0x018)
        ∧ (bit v 0 = true → s.seq.devReset = none → devResetRuns s = false → t.seq.devReset = some (nextEpoch s.sfp, false))
        ∧ (bit v 0 = false → t.seq = s.seq)) ∧
      (a ≠ ~~~v → ∃ t, exec (.seqRst m a) s = .next t ∧ failed t 3 (aSys + 0x018) ∧ Counted s t 1 2 ∧ rest t)) ∧
    (opened (aSys + 0x020) s → tsorted s.regs.pairs = true →
      (∃ t, exec (.flashWe m (~~~v)) s = .next t ∧ taken t (aSys + 0x020)) ∧
      (a ≠ ~~~v → ∃ t, exec (.flashWe m a) s = .next t ∧ failed t 3 (aSys + 0x020) ∧ Counted s t 1 2 ∧ rest t)) ∧
    (opened (aSys + 0x028) s → tsorted s.regs.pairs = true →
      (∃ t, exec (.keyWe m (~~~v)) s = .next t ∧ taken t (aSys + 0x028)) ∧
      (a ≠ ~~~v → ∃ t, exec (.keyWe m a) s = .next t ∧ failed t 3 (aSys + 0x028) ∧ Counted s t 1 2 ∧ rest t)) ∧
    (opened (aSys + 0x030) s → tsorted s.regs.pairs = true →
      (∃ t, exec (.bscanUnlock m (~~~v)) s = .next t ∧ taken t (aSys + 0x030) ∧ bscanOpen t = bit v 0
        ∧ (bit v 0 = true → (newest t).map (fun r => (r.cls, r.sub, r.at_)) = some (11, 3, s.sfp))) ∧
      (a ≠ ~~~v → ∃ t, exec (.bscanUnlock m a) s = .next t ∧ failed t 3 (aSys + 0x030) ∧ Counted s t 1 2 ∧ rest t)) ∧
    (opened (aSys + 0x038) s → tsorted s.regs.pairs = true →
      (bits v 2 0 = 1 →
        (swapCheck s s.sfp (swapNamed s) = none →
          ∃ t, exec (.pairCtlSwap m (~~~v)) s = .next t ∧ taken t (aSys + 0x038) ∧ t.pair.swap = some (swapNamed s, false)
            ∧ t.pair = { s.pair with swap := t.pair.swap }) ∧
        ((swapCheck s s.sfp (swapNamed s)).isSome = true →
          ∃ t, exec (.pairCtlSwap m (~~~v)) s = .next t ∧ failed t 0 (aSys + 0x038) ∧ t.pair = s.pair ∧ rest t)) ∧
      (bits v 2 0 = 2 →
        (cancelCheck s s.sfp (swapNamed s) = none →
          ∃ t, exec (.pairCtlCancel m (~~~v)) s = .next t ∧ taken t (aSys + 0x038) ∧ t.pair.swap = none
            ∧ t.pair = { s.pair with swap := none }) ∧
        ((cancelCheck s s.sfp (swapNamed s)).isSome = true →
          ∃ t, exec (.pairCtlCancel m (~~~v)) s = .next t ∧ failed t 0 (aSys + 0x038) ∧ t.pair = s.pair ∧ rest t)) ∧
      (bits v 2 0 = 4 →
        (forceCheck s true = none →
          ∃ t, exec (.pairCtlForceActive m (~~~v)) s = .next t ∧ taken t (aSys + 0x038) ∧ t.pair.force = some (nextFrame s.sfp)
            ∧ t.pair = { s.pair with force := t.pair.force }) ∧
        ((forceCheck s true).isSome = true →
          ∃ t, exec (.pairCtlForceActive m (~~~v)) s = .next t ∧ failed t 0 (aSys + 0x038) ∧ t.pair = s.pair ∧ rest t)))

/-! The command protocol. -/

/-- The checks every command shares (Table 12-10, checks 9 to 12, R275, R288, R293, R304, R457). A row whose command is in
execution answers the first that fails with its status and detail and does nothing else: class or holder, standby,
length, rescue, CONFIRM. Dispatch (R262 to R264): at a tick with the sequencer idle the packet of the highest PRI
starts, the first to arrive among equals; it is counted and its number recorded; every other packet is answered BUSY;
a number already used is answered STALE_SEQ with the lowest that would pass. A COMMIT that fails a shared check failed
it at its acceptance (R507). Between ticks, and while a command
executes, nothing starts. Readings of the model it rests on: log 18, 20, 43. -/
def Obligations.CommandDispatch : Prop :=
  (∀ (i : Instr) (op : BitVec 16) (r : Req) (q : Run) (s : State), opcodeOf i = some op → i.req = some r → Begun op r q s →
     op ≠ 0x0B01 → (op = 0x0B02 → sfpDist q.since s.sfp ≤ 1562500) →
     let n := op.toNat
     let stops := fun (st d : Byte) =>
       ∃ t, exec i s = .next t ∧ Answers t st d [] ∧ t = { s with vcp := { s.vcp with run := t.vcp.run } }
     ((opClasses n).contains (clsOf s q) = false → stops 4 1) ∧
     ((opClasses n).contains (clsOf s q) = true →
       (clsOf s q = 2 → 0x0380 ≤ n → n ≤ 0x0382 → 2 ≤ r.params.length → pkNat r.params 0 2 ≠ holderOf s q → stops 4 2) ∧
       (clsOf s q = 2 → n = 0x0403 → 3 ≤ r.params.length → (pk1 r.params 2 = 0xE ∨ pk1 r.params 2 = 0xA) → stops 4 1) ∧
       (holderCheck s q = none →
         (isStandby s = true → opStandby n = false → stops 2 0) ∧
         ((isStandby s = false ∨ opStandby n = true) →
           (opLenOk n r.params = false → stops 8 0x40) ∧
           (opLenOk n r.params = true →
             (s.seq.rescue = true → opRescue n = false → stops 4 9) ∧
             ((s.seq.rescue = false ∨ opRescue n = true) → opGuarded n = true →
               pkNat r.params (r.params.length - 4) 4 ≠ confirmOf op r.seq → stops 0x0B 0)))))) ∧
  (∀ (q : Run) (s : State) (st d : Byte), checkCommand s q = some (st, d) → commitVerdict s q = some (st, d, [])) ∧
  (∀ (q : Queued) (s : State), powered s = true →
     (s.sfp.bi % 8192 ≠ 0 → exec .dispatchTick s = .next s) ∧
     ((busyNow s).isSome = true → exec .dispatchTick s = .next s) ∧
     (s.sfp.bi % 8192 = 0 → busyNow s = none → queueBest s.vcp.queue = some q → (authOf s q.req.auth.toNat).gen = q.gen →
       q ∈ s.vcp.queue ∧ (∀ y ∈ s.vcp.queue, y.req.pri ≤ q.req.pri) ∧
       ∃ t, exec .dispatchTick s = .next t ∧ t.vcp.queue = []
         ∧ (t.vcp.run.map (fun x => (x.req, x.op, x.accept, x.work))) = some (q.req, q.op, s.sfp, 0)
         ∧ Counted s t 2 0
         ∧ ((seqTake (replayOf s q.req.auth.toNat) q.req.seq).isSome = true →
             some (replayOf t q.req.auth.toNat).last = (seqTake (replayOf s q.req.auth.toNat) q.req.seq).map (·.last)
             ∧ (opDefined q.op.toNat = true → replyNow t = none) ∧ (opDefined q.op.toNat = false → Answers t 7 0 []))
         ∧ (seqTake (replayOf s q.req.auth.toNat) q.req.seq = none →
             Answers t 6 0 (beBytes 4 (nextSeq (replayOf s q.req.auth.toNat)).toNat) ∧ t.vcp.replay = s.vcp.replay)
         ∧ (ctrVal t 2 1 = (ctrVal s 2 1 + (s.vcp.queue.length - 1)) % 2 ^ 64 ∨ 2 ^ 64 ≤ ctrVal s 2 1)
         ∧ t.map = s.map ∧ t.regs.act = s.regs.act ∧ t.regs.stg = s.regs.stg ∧ t.com = s.com ∧ t.thy = s.thy ∧ t.grps = s.grps))

/-- Reception (R257, R259, R261, R264 to R269, R271, R278): malformed packets are counted and dropped, a good packet for
this engine joins the queue, a bad tag is counted, a busy engine answers, duplicates of a group packet and packets
without a route or hops are dropped and counted, a command for another device goes out on its route with one hop less.
A channel chunk joins the packet being assembled, and the last one completes it; in NEAR loopback the chunk is the
port's own (R148). Relay and duplicate entries expire. PKT_WRITE fills the SPI buffer.
Readings of the model it rests on: log 5, 11, 16, 17. -/
def Obligations.CommandArrival : Prop :=
  (∀ (ret : Return) (pkt : Bytes) (p : Fin 128) (s : State), powered s = true →
     let w := (waitingPacket s ret.via).getD ((ret, pkt), s)
     let via := w.1.1.via
     let b := w.1.2
     let u := w.2
     let mine := vcGrp b = false ∧ vcDest b = u.pins.devid
     let only := fun (t : State) => t = { u with sage := t.sage, mgA := t.mgA, mgB := t.mgB, vcp := t.vcp }
     inbandBarred s ret.via = false → inbandBarred u via = false →
     (vcMalformed b = true →
       ∃ t, exec (.vcpPacketReceive ret pkt) s = .next t ∧ Counted u t 2 4 ∧ t.vcp = u.vcp ∧ only t) ∧
     (vcMalformed b = false → vcEvent b = true → exec (.vcpPacketReceive ret pkt) s = .next u) ∧
     (vcMalformed b = false → vcEvent b = false → vcReply b = false →
       (mine → u.vcp.keysLoaded = true → anyEnabled u = true → (authOf u (vcAuth b).toNat).enabled = true →
         (tagMatches (authOf u (vcAuth b).toNat).key b = false →
           ∃ t, exec (.vcpPacketReceive ret pkt) s = .next t ∧ Counted u t 2 3 ∧ t.vcp.queue = u.vcp.queue
             ∧ t.vcp.run = u.vcp.run ∧ t.vcp.replay = u.vcp.replay
             ∧ t = { u with sage := t.sage, mgA := t.mgA, mgB := t.mgB, vcp := t.vcp, ports := t.ports }) ∧
         (tagMatches (authOf u (vcAuth b).toNat).key b = true → busyNow u = none → u.vcp.queue.length < 8 →
           ∃ t, exec (.vcpPacketReceive ret pkt) s = .next t
             ∧ t = { u with vcp := { u.vcp with queue := u.vcp.queue ++ [{ req := reqOf w.1.1 b, op := vcOp b
                                                                           gen := (authOf u (vcAuth b).toNat).gen }] } }) ∧
         (tagMatches (authOf u (vcAuth b).toNat).key b = true → u.phase = .ready → u.seq.running = true → u.vcp.run.isSome = true →
           ∃ t, exec (.vcpPacketReceive ret pkt) s = .next t ∧ t.vcp.run = u.vcp.run ∧ t.vcp.queue = u.vcp.queue
             ∧ Counted u t 2 (if (u.vcp.run.map (fun q => slowOp q.op)).getD false then 2 else 1)
             ∧ t = { u with sage := t.sage, mgA := t.mgA, mgB := t.mgB, vcp := t.vcp, ports := t.ports, fresh := t.fresh })) ∧
       (vcGrp b = true → dupHeld u b = true →
         ∃ t, exec (.vcpPacketReceive ret pkt) s = .next t ∧ Counted u t 2 8 ∧ t.vcp = u.vcp ∧ only t) ∧
       (vcGrp b = false → vcDest b ≠ u.pins.devid → holdsLines u = true →
         (vcHop b = 0 → ∃ t, exec (.vcpPacketReceive ret pkt) s = .next t ∧ Counted u t 2 10 ∧ t.vcp = u.vcp ∧ only t) ∧
         (vcHop b ≠ 0 → relayPort u (routeOf u (vcDest b)) = false →
           ∃ t, exec (.vcpPacketReceive ret pkt) s = .next t ∧ Counted u t 2 9 ∧ t.vcp = u.vcp ∧ only t) ∧
         (vcHop b ≠ 0 → relayPort u (routeOf u (vcDest b)) = true → routeOf u (vcDest b) = p → viaInband via = false →
           u.vcp.relay.length < 64 → (portOf u p).txq.length + b2n (portOf u p).txNow.isSome < 8 →
           ∃ t, exec (.vcpPacketReceive ret pkt) s = .next t ∧ Counted u t 2 11
             ∧ t.vcp.relay = u.vcp.relay ++ [{ auth := vcAuth b, seq := vcSeq b, ret := w.1.1, at_ := u.sfp }]
             ∧ (portOf t p).txq = (portOf u p).txq
                 ++ [{ pri := vcPri b, bytes := slice b 0 1 ++ [b.getD 1 0 - 1] ++ slice b 2 2
                                                ++ beBytes 2 (0x8000 + u.pins.devid.toNat) ++ b.drop 6 }]
             ∧ t = { u with vcp := t.vcp, ports := t.ports, sage := t.sage })))) ∧
  (∀ (p : Fin 128) (o4 : List Block) (b : Bytes) (o7 : Block) (i : Fin 64) (n : Nat) (s : State), powered s = true →
     let chunk := (rxChunk s p o4).2
     let good := (rxChunk s p o4).1 && o7Good chunk (rxOverhead s p (portOf s p).txO7 o7)
     let h := chunk.getD 0 0
     let part := slice chunk 1 (bits h 4 0)
     let got := ((portOf s p).trunk.reasm).getD []
     let freed := onTrunk s p (fun x => { x with reasm := none })
     (isTrunk s p = true → inFrame (portOf s p).trunk = true →
       (good = true → bits h 4 0 ≤ 20 →
         (bit h 7 = true → bit h 6 = false → (portOf s p).trunk.reasm = none →
           ∃ t, exec (.mgmtChunkReceive p o4 o7) s = .next t ∧ (portOf t p).trunk.reasm = some part ∧ t = { s with ports := t.ports }) ∧
         (bit h 7 = true → bit h 6 = true → (portOf s p).trunk.reasm = none →
           exec (.mgmtChunkReceive p o4 o7) s = exec (.vcpPacketReceive { via := .inband p } part) freed) ∧
         (bit h 7 = false → bit h 6 = false → bits h 4 0 = 20 → (portOf s p).trunk.reasm = some got → got.length + 20 ≤ 2048 →
           ∃ t, exec (.mgmtChunkReceive p o4 o7) s = .next t ∧ (portOf t p).trunk.reasm = some (got ++ part) ∧ t = { s with ports := t.ports }) ∧
         (bit h 7 = false → bit h 6 = true → (portOf s p).trunk.reasm = some got → got.length + bits h 4 0 ≤ 2048 →
           exec (.mgmtChunkReceive p o4 o7) s = exec (.vcpPacketReceive { via := .inband p } (got ++ part)) freed)) ∧
       (good = false → (portOf s p).trunk.reasm.isSome = true →
         ∃ t, exec (.mgmtChunkReceive p o4 o7) s = .next t ∧ (portOf t p).trunk.reasm = none ∧ Counted s t (0x100 + p) 28
           ∧ t = { s with ports := t.ports, sage := t.sage })) ∧
     (let e := s.vcp.relay.getD i { auth := 0, seq := 0, ret := { via := .spi }, at_ := {} }
      i < s.vcp.relay.length →
       (15625000000 ≤ sfpDist e.at_ s.sfp →
         exec (.relayEntryExpire i) s = .next { s with vcp := { s.vcp with relay := s.vcp.relay.eraseIdx i } }) ∧
       (sfpDist e.at_ s.sfp < 15625000000 → exec (.relayEntryExpire i) s = .next s)) ∧
     (let e := s.vcp.dup.getD i { auth := 0, seq := 0, at_ := {} }
      i < s.vcp.dup.length →
       (3125000000 ≤ sfpDist e.at_ s.sfp →
         exec (.dupMemoryExpire i) s = .next { s with vcp := { s.vcp with dup := s.vcp.dup.eraseIdx i } }) ∧
       (sfpDist e.at_ s.sfp < 3125000000 → exec (.dupMemoryExpire i) s = .next s)) ∧
     (s.vcp.spiBuf = none → n = b.length → n ≤ 1500 →
       exec (.pktWrite n b) s = .next { s with vcp := { s.vcp with spiBuf := some b, spiOut := [] } }) ∧
     ((s.vcp.spiBuf.isSome = true ∨ n ≠ b.length ∨ 1500 < n) →
       exec (.pktWrite n b) s = .next { s with vcp := { s.vcp with spiOverrun := true, spiOut := [] } }))

/-- Departure (R254, R256, R257, R276, R336, R432, R437, R438): completion hands the reply to the transport of its
command, records its latency, frees the sequencer and does what the command leaves to it, at the first boundary after it
(R32, R184, R254, R284, R287, R309, R310); a port sends its oldest reply as an Ethernet frame; the event of
the highest PRI goes to the transport of EVT_CFG; a trunk starts its packet of the highest PRI; PKT_READ returns the
oldest packet of the receive FIFO, STATUS_READ the status, clearing OVERRUN. Readings of the model it rests on: log
42, 60. -/
def Obligations.CommandDeparture : Prop :=
  ∀ (port : MgPort) (q : Run) (rp : Reply) (o : OutPkt) (e : EvPkt) (c : ChanPkt) (p : Fin 128) (b : Bytes) (s : State),
    powered s = true →
    let m := isB port
    let pre := match q.atEnd with
      | none => [] | some (.net ..) => []
      | some (.ql ..) => sfpBytes (nextFrame s.sfp) | some (.force _) => sfpBytes (nextFrame s.sfp)
      | some (.request ..) => sfpBytes (nextFrame s.sfp)
      | some (.mfc _) => sfpBytes (nextEpoch s.sfp) | some .realign => sfpBytes (nextEpoch s.sfp)
      | some (.devReset _) => sfpBytes (nextEpoch s.sfp)
    let wire := replyBytes s { rp with data := pre ++ rp.data }
    (s.vcp.run = some q → q.reply = some rp →
      (∃ t, exec .commandComplete s = .next t ∧ t.vcp.run = none ∧ t.com = { s.com with stageOpen := 0 }
        ∧ t.vcp.latlog.head? = some (latOf q rp.status rp.detail (some s.sfp)) ∧ Counted s t 8 6
        ∧ (rp.req.ret.via = (if m then .mgmtB else .mgmtA) → (mgOf s m).link = true → (mgOf s m).replies.length < 32 →
            (mgOf t m).replies = (mgOf s m).replies ++ [{ ret := rp.req.ret, front := rp.front, bytes := wire }])
        ∧ (rp.req.ret.via = .spi → s.vcp.spiRx.length < 8 → t.vcp.spiRx = s.vcp.spiRx ++ [wire])
        ∧ (rp.req.ret.via = .spi → 8 ≤ s.vcp.spiRx.length → t.vcp.spiRx = s.vcp.spiRx ∧ Counted s t 2 5)
        ∧ (∀ n c, q.atEnd = some (.ql n c) → t.thy = { s.thy with pendQl := s.thy.pendQl ++ [(nextFrame s.sfp, n, c)] })
        ∧ (∀ c, q.atEnd = some (.force c) → t.thy = { s.thy with pendForce := some (nextFrame s.sfp, c) })
        ∧ (∀ v, q.atEnd = some (.mfc v) → t.thy = { s.thy with pendMfc := some (nextEpoch s.sfp, v) })
        ∧ (q.atEnd = some .realign → t.thy = { s.thy with pendRealign := some (nextEpoch s.sfp) })
        ∧ (∀ (g : Fin 2048) c h, q.atEnd = some (.request g c h) →
            grpOf t g = { grpOf s g with pend := (grpOf s g).pend ++ [(nextFrame s.sfp, c, h)] }
            ∧ (∀ x : Fin 2048, x ≠ g → grpOf t x = grpOf s x))
        ∧ (∀ l rt rl, q.atEnd = some (.net l rt rl) → t.vcp.members = l ∧ t.vcp.route = rt ∧ t.vcp.relayPorts = rl)
        ∧ (∀ w, q.atEnd = some (.devReset w) → (∀ f, s.seq.devReset ≠ some (f, true)) →
            t.seq = { s.seq with devReset := some (nextEpoch s.sfp, w) })
        ∧ t = { s with vcp := t.vcp, com := t.com, sage := t.sage, mgA := t.mgA, mgB := t.mgB, ports := t.ports, mir := t.mir
                       regs := { s.regs with hist := t.regs.hist }, thy := t.thy, grps := t.grps, seq := t.seq }
        ∧ (q.atEnd = none → t.thy = s.thy ∧ t.grps = s.grps ∧ t.seq = s.seq ∧ t.vcp.members = s.vcp.members
            ∧ t.vcp.route = s.vcp.route ∧ t.vcp.relayPorts = s.vcp.relayPorts))) ∧
    ((mgOf s m).replies.head? = some o →
      ((mgOf s m).link = true → (∀ k : Fin 8, bankSt s 1 k = .on) → s.mem.ecc = [] →
        ∃ t, exec (.replyTransmit port) s = .next t ∧ (mgOf t m).replies = (mgOf s m).replies.tail
          ∧ (mgOf t m).lastTx = etherFrame o.ret.mac (ownMac m) o.ret.vlan o.bytes
          ∧ Counted s t (if m then 0xA else 9) 14 ∧ Counted s t (if m then 0xA else 9) 16 ∧ mgOf t (!m) = mgOf s (!m)
          ∧ t = { s with mgA := t.mgA, mgB := t.mgB, sage := t.sage, fresh := s.fresh + 1 }) ∧
      ((mgOf s m).link = false →
        ∃ t, exec (.replyTransmit port) s = .next t ∧ (mgOf t m).replies = (mgOf s m).replies.tail
          ∧ Counted s t (if m then 0xA else 9) 18 ∧ t = { s with mgA := t.mgA, mgB := t.mgB, sage := t.sage })) ∧
    (eventHead s.sage.events = some e → evAuthOk s = true →
      (evPorts (actv s) = [m] → (mgOf s m).link = true → (mgOf s m).replies = [] →
        ∃ t, exec .eventSend s = .next t ∧ e ∈ s.sage.events ∧ (∀ x ∈ s.sage.events, x.pri ≤ e.pri)
          ∧ t.sage.events = delFirst (fun x => x == e) s.sage.events
          ∧ (mgOf t m).lastTx = etherFrame (evMac (actv s)) (ownMac m) (evTag (actv s)) (eventBytes s e)
          ∧ Counted s t (if m then 0xA else 9) 17
          ∧ t = { s with mgA := t.mgA, mgB := t.mgB, sage := t.sage }) ∧
      (evTransport (actv s) = 4 → s.vcp.spiRx.length < 8 →
        ∃ t, exec .eventSend s = .next t ∧ t.vcp.spiRx = s.vcp.spiRx ++ [eventBytes s e]
          ∧ t.sage.events = delFirst (fun x => x == e) s.sage.events ∧ t = { s with vcp := t.vcp, sage := t.sage })) ∧
    (isTrunk s p = true → (portOf s p).txNow = none → c ∈ (portOf s p).txq → (∀ x ∈ (portOf s p).txq, x.pri ≤ c.pri) →
      ((portOf s p).txq.find? (fun x => x.pri == c.pri)) = some c →
      ∃ t, exec (.channelPacketSend p) s = .next t ∧ (portOf t p).txNow = some (c, 0)
        ∧ (portOf t p).txq = delFirst (fun x => x == c) (portOf s p).txq ∧ t = { s with ports := t.ports }) ∧
    (s.vcp.spiRx.head? = some b →
      exec .pktRead s = .next { s with vcp := { s.vcp with spiRx := s.vcp.spiRx.tail, spiOut := beBytes 2 b.length ++ b } }) ∧
    (s.vcp.spiRx = [] → exec .pktRead s = .next { s with vcp := { s.vcp with spiOut := [0, 0] } }) ∧
    (∃ t, exec .statusRead s = .next t
      ∧ t.vcp.spiOut = [by1 (at1 (!s.vcp.spiRx.isEmpty) 0 + at1 s.vcp.spiBuf.isNone 1 + at1 s.vcp.spiOverrun 2)]
      ∧ t = { s with vcp := { s.vcp with spiOut := t.vcp.spiOut, spiStat := t.vcp.spiStat, spiOverrun := false } })

/-! Management ports. -/

/-- Frames received on a management port (R332, R334, R343 to R345): a runt, an oversize frame, a bad FCS and a foreign
EtherType are counted; a VCP frame that passes the filter joins the pre-authentication FIFO with its return address; a
throttled port admits THR_RATE packets of PRI 0 to 2 in a multiframe; a full FIFO drops them. A port without link
receives nothing. The management ports' own events (R331, R332, R336 to R340, R342 to R344): link up in an allowed
mode, link loss with its flushes, the AUTO search, the step down of the rate, its expired relink, the release of
throttling, the snapshot at its boundary, the end of an MDIO transaction. Readings of the model it rests on: log 60,
61, 62, 63, 64. -/
def Obligations.ManagementPorts : Prop :=
  (∀ (p : MgPort) (f : MgFrame) (s : State), powered s = true → f.symbolErrs = 0 →
     let b := isB p
     let k := if b then 0xA else 9
     let via : Transport := if b then .mgmtB else .mgmtA
     let rest := fun (t : State) => mgOf t (!b) = mgOf s (!b) ∧ t = { s with mgA := t.mgA, mgB := t.mgB, sage := t.sage, fresh := t.fresh }
     ((mgOf s b).link = false → exec (.mgmtFrameReceive p f) s = .next s) ∧
     ((mgOf s b).link = true →
       (f.bytes.length < 64 →
         ∃ t, exec (.mgmtFrameReceive p f) s = .next t ∧ Counted s t k 4 ∧ (mgOf t b).fifo = (mgOf s b).fifo ∧ rest t) ∧
       (1522 < f.bytes.length →
         ∃ t, exec (.mgmtFrameReceive p f) s = .next t ∧ Counted s t k 5 ∧ (mgOf t b).fifo = (mgOf s b).fifo ∧ rest t) ∧
       (64 ≤ f.bytes.length → f.bytes.length ≤ 1522 → fcsOk f.bytes = false →
         ∃ t, exec (.mgmtFrameReceive p f) s = .next t ∧ Counted s t k 2 ∧ (mgOf t b).fifo = (mgOf s b).fifo ∧ rest t) ∧
       (64 ≤ f.bytes.length → f.bytes.length ≤ 1522 → fcsOk f.bytes = true → pkNat f.bytes 12 2 ≠ 0x8808 →
         macPasses s b (slice f.bytes 0 6) = true →
         (pkNat f.bytes (typeAt f.bytes) 2 ≠ 0x88B5 →
           ∃ t, exec (.mgmtFrameReceive p f) s = .next t ∧ Counted s t k 7 ∧ Counted s t k 0
             ∧ (mgOf t b).fifo = (mgOf s b).fifo ∧ rest t) ∧
         (pkNat f.bytes (typeAt f.bytes) 2 = 0x88B5 → (∀ j : Fin 8, bankSt s 1 j = .on) →
           let x : Return × Bytes := ({ via := via, mac := BitVec.ofNat 48 (pkNat f.bytes 6 6), vlan := vlanOf f.bytes }, vcpOf f.bytes)
           (((mgOf s b).throttled = false ∨ vcPri x.2 = 3 ∨ (mgOf s b).admitted < thrRate s b) → (mgOf s b).fifo.length < 16 →
             ∃ t, exec (.mgmtFrameReceive p f) s = .next t ∧ (mgOf t b).fifo = (mgOf s b).fifo ++ [x] ∧ Counted s t k 8
               ∧ Counted s t k 0 ∧ rest t) ∧
           ((mgOf s b).throttled = true → vcPri x.2 ≠ 3 → thrRate s b ≤ (mgOf s b).admitted →
             ∃ t, exec (.mgmtFrameReceive p f) s = .next t ∧ (mgOf t b).fifo = (mgOf s b).fifo ∧ Counted s t k 12 ∧ rest t) ∧
           ((mgOf s b).throttled = false → vcPri x.2 ≠ 3 → 16 ≤ (mgOf s b).fifo.length →
             ∃ t, exec (.mgmtFrameReceive p f) s = .next t ∧ (mgOf t b).fifo = (mgOf s b).fifo ∧ Counted s t k 13 ∧ rest t))))) ∧
  (∀ (p : MgPort) (mode speed : Fin 4) (rd : BitVec 16) (w : Word) (f : Sfp) (va vb : Bool) (x : Nat) (s : State), powered s = true →
     let b := isB p
     let k := if b then 0xA else 9
     let rest := fun (t : State) => mgOf t (!b) = mgOf s (!b)
       ∧ t = { s with mgA := t.mgA, mgB := t.mgB, mgSh := t.mgSh, sage := t.sage, regs := { s.regs with hist := t.regs.hist } }
     (mgEn s b = true → modeAllowed s b mode = true → speedAllowed mode speed = true →
       (∃ t, exec (.mgLinkUp p mode speed false) s = .next t ∧ (mgOf t b).link = true ∧ (mgOf t b).mode = mode
         ∧ (mgOf t b).speed = speed ∧ (mgOf t b).fifo = (mgOf s b).fifo
         ∧ ((mgOf s b).link = false → (newest t).map (fun r => (r.cls, r.sub, r.obj, r.data)) = some (9, 6, BitVec.ofNat 16 (b2n b), [1]))
         ∧ rest t) ∧
       (mode = 1 → ∃ t, exec (.mgLinkUp p mode speed true) s = .next t ∧ (mgOf t b).link = false ∧ bit (hist t (hMg b)) 7 = true ∧ rest t)) ∧
     ((mgOf s b).link = true →
       ∃ t, exec (.mgLinkDown p) s = .next t ∧ (mgOf t b).link = false ∧ (mgOf t b).mode = 0 ∧ (mgOf t b).fifo = []
         ∧ (mgOf t b).replies = [] ∧ Counted s t k 19 ∧ bit (hist t (hMg b)) 8 = true
         ∧ (newest t).map (fun r => (r.cls, r.sub, r.obj, r.data)) = some (9, 6, BitVec.ofNat 16 (b2n b), [0]) ∧ rest t) ∧
     (isEpoch s.sfp = true → mgEn s b = true → mgMode s b = 0 → (mgOf s b).link = false → 65 ≤ (mgOf s b).searchAge →
       ∃ t, exec (.modeSearchSwitch p) s = .next t ∧ (mgOf t b).search10g = !(mgOf s b).search10g ∧ (mgOf t b).searchAge = b2n (s.epochDone == some s.sfp) ∧ rest t) ∧
     (isEpoch s.sfp = true → s.epochDone = some s.sfp → rsActs s b = true → rsBusy s b = false → rsMin s b < (mgOf s b).speed →
       (mgOf s b).speed ≤ 2 → rsDwell s b ≤ (mgOf s b).quiet → rsRested s b = true →
       ∃ t, exec (.rateStepDown p) s = .next t ∧ (mgOf t b).relink = some ((mgOf s b).speed - 1, none) ∧ (mgOf t b).sinceStep = some 0
         ∧ Counted s t k 20 ∧ (t.mgSh.mdio.isSome = true)
         ∧ (newest t).map (fun r => (r.cls, r.sub, r.data)) = some (9, 4, [by1 (mgOf s b).speed, by1 ((mgOf s b).speed - 1)]) ∧ rest t) ∧
     ((mgOf s b).relink = some (x, some 0) →
       ∃ t, exec (.rsRelinkExpire p) s = .next t ∧ (mgOf t b).relink = none ∧ rsEn t b = false ∧ bit (actv t (aMg b 4)) 0 = false
         ∧ Counted s t k 22 ∧ bit (hist t (hMg b)) 6 = true ∧ mgOf t (!b) = mgOf s (!b)
         ∧ t = { s with mgA := t.mgA, mgB := t.mgB, mgSh := t.mgSh, sage := t.sage
                        regs := { s.regs with hist := t.regs.hist, act := t.regs.act } }) ∧
     (isFrame s.sfp = true → (mgOf s b).throttled = true → s.frameDone = some s.sfp → (mgOf s b).relNow = true →
       ∃ t, exec (.throttleRelease p) s = .next t ∧ (mgOf t b).throttled = false
         ∧ (newest t).map (fun r => (r.cls, r.sub, r.obj)) = some (9, 3, BitVec.ofNat 16 (b2n b)) ∧ rest t) ∧
     (isEpoch s.sfp = true → (mgOf s b).throttled = true → s.epochDone = some s.sfp → (mgOf s b).relNow = false → thrRelease s b ≠ 0 →
       (thrRelease s b < (mgOf s b).limAge → ∃ t, exec (.throttleRelease p) s = .next t ∧ (mgOf t b).throttled = false ∧ rest t) ∧
       ((mgOf s b).limAge ≤ thrRelease s b → exec (.throttleRelease p) s = .next s)) ∧
     (s.mgSh.snapPend = some (f, va, vb) →
       (s.sfp = f →
         ∃ t, exec .mgmtSnapshotLatch s = .next t ∧ t.mgSh.snapPend = none ∧ t.mgSh.snapSfp = f ∧ t.mgSh.validA = va
           ∧ t.mgSh.validB = vb ∧ (va = true → t.mgA.snap = (List.range 25).map (ctrVal s 9))
           ∧ (vb = true → t.mgB.snap = (List.range 25).map (ctrVal s 0xA))
           ∧ t = { s with mgA := { s.mgA with snap := t.mgA.snap }, mgB := { s.mgB with snap := t.mgB.snap }, mgSh := t.mgSh }) ∧
       (s.sfp ≠ f → exec .mgmtSnapshotLatch s = .next s)) ∧
     (s.mgSh.mdio = some w → s.mgSh.mdioRs = none → s.mgSh.rsOps = [] →
       (2 ≤ bits w 29 28 →
         exec (.mdioDone rd) s = .next { s with mgSh := { s.mgSh with mdio := none, mdioRs := none, mdioData := rd, mdioValid := true } }) ∧
       (bits w 29 28 < 2 → exec (.mdioDone rd) s = .next { s with mgSh := { s.mgSh with mdio := none, mdioRs := none } })))

/-! Sage, memories, pins. -/

/-- Sage's own rows (R415 to R426, Tables 19-4 to 19-7): a dropped record's position gets its placeholder, else the oldest
record goes to its ring position; a sweep begins where MFC[7:0] = 0 and one still unfinished at the next epoch is cut;
SAGE_TX sends a waiting frame; a wrapped counter is reported with its position; bandwidth windows run back to back.
Readings of the model it rests on: log 65. -/
def Obligations.SageRows : Prop :=
  ∀ (n : Nat) (r : TraceRec) (f : Sfp) (c : Fin 64) (p : Fin 128) (blk : BitVec 16) (m k j : Nat) (b : Bytes) (s : State), powered s = true →
    (txEn (actv s) = false →
      (s.sage.holes = [] → s.sage.fifo.head? = some (n, r) →
        ∃ t, exec .traceRingWrite s = .next t ∧ tfind t.sage.ring (n % 65536) = some r ∧ t.sage.fifo = s.sage.fifo.tail
          ∧ t.sage.traceNext = n + 1 ∧ Counted s t 8 0
          ∧ t = { s with sage := t.sage, mem := { s.mem with ecc := t.mem.ecc } }) ∧
      (s.sage.holes.head? = some (n, f) →
        ∃ t, exec .traceRingWrite s = .next t ∧ tfind t.sage.ring (n % 65536) = some { at_ := f } ∧ t.sage.fifo = s.sage.fifo
          ∧ t.sage.holes = s.sage.holes.tail ∧ t.sage.traceNext = n + 1
          ∧ t = { s with sage := t.sage, mem := { s.mem with ecc := t.mem.ecc } })) ∧
    (isEpoch s.sfp = true → s.sfp.mfc % 256 = 0 → s.sage.sweep.map (·.1) ≠ some s.sfp.mfc →
      ∃ t, exec .gatherSweeps s = .next t ∧ t.sage.sweep = some (s.sfp.mfc, 0, 0) ∧ Counted s t 8 4 ∧ t = { s with sage := t.sage }) ∧
    (isEpoch s.sfp = true → s.sage.sweep = some (m, k, j) → m ≠ s.sfp.mfc → (gatherGroups.drop k).isEmpty = false →
      ∃ t, exec (.gatherIncomplete blk) s = .next t ∧ t.sage.sweep = none ∧ Counted s t 8 5
        ∧ (newest t).map (fun y => (y.cls, y.sub, y.data)) = some (10, 3, beBytes 2 blk.toNat)
        ∧ t = { s with sage := t.sage, regs := { s.regs with hist := t.regs.hist } }) ∧
    (txEn (actv s) = true → txDue s = false → txHead s.sage.txBuf = some b →
      ∃ t, exec .sageTxFrame s = .next t ∧ t.sage.lastTx = sageFrame s b ∧ t.sage.streamSeq = s.sage.streamSeq + 1
        ∧ t.sage.txBuf = delFirst (fun y => y == b) s.sage.txBuf ∧ Counted s t 8 2 ∧ t = { s with sage := t.sage }) ∧
    (txEn (actv s) = false → exec .sageTxFrame s = .next s) ∧
    (s.sage.wraps.find? (fun y => y.1 == c.val) = some (c.val, f) →
      ∃ t, exec (.pctrOverflow c) s = .next t ∧ t.sage.wraps = delFirst (fun y => y.1 == c.val) s.sage.wraps
        ∧ bit (hist t (if 32 ≤ c.val then hOvfHi else hOvfLo)) (c % 32) = true
        ∧ (newest t).map (fun y => (y.cls, y.sub, y.at_, y.data)) = some (10, 1, f, [by1 c])
        ∧ t = { s with sage := t.sage, regs := { s.regs with hist := t.regs.hist } }) ∧
    (isEpoch s.sfp = true →
      ((portOf s p).bwLeft = some 0 →
        ∃ t, exec (.bwWindowEnd p) s = .next t
          ∧ (portOf t p).bwLast = some (bwWin (actv s) p, s.sfp, (portOf s p).bwIn, (portOf s p).bwEg)
          ∧ (portOf t p).bwLeft = some (bwWin (actv s) p) ∧ (portOf t p).bwIn = 0 ∧ (portOf t p).bwEg = 0
          ∧ t = { s with ports := t.ports }) ∧
      ((portOf s p).bwLeft ≠ some 0 → exec (.bwWindowEnd p) s = .next s))


/-! Boundaries. -/

/-- A frame boundary is evaluated once (R93, R108, R109, R127, R249, R330, R477; Tables 05-5 and 05-6): the feeds'
measurements are stored and their pending events cleared, the management settings take effect, GPIO_IN samples the
contacts and GPIO_OUT takes effect, each trunk sends its O0 and O1 of the frame that begins (with no transaction held at
the matrix, which would go on there). An epoch boundary is
evaluated once: the temperature is stored, the counts of the multiframe begin again, windows and ages advance.
Readings of the model it rests on: log 66, 68. -/
def Obligations.Boundaries : Prop :=
  ∀ (i : FrameIn) (temp : BitVec 16) (p : Fin 128) (g : Fin 2048) (s : State), powered s = true →
    (isFrame s.sfp = true → s.frameDone = some s.sfp → exec (.frameBoundary i) s = .next s) ∧
    (isFrame s.sfp = true → s.frameDone ≠ some s.sfp →
      ∃ t, exec (.frameBoundary i) s = .next t ∧ t.frameDone = some s.sfp ∧ t.sfp = s.sfp ∧ (MatFree s →
        (i.monFault = false → t.pwr.mvA = i.feedA ∧ t.pwr.mvB = i.feedB) ∧ (i.monFault = true → t.pwr.mvA = 0xFFFF)
        ∧ t.pwr.pendHist = 0 ∧ t.pwr.pendCtr = [] ∧ t.pwr.pendRec = []
        ∧ (∀ b : Bool, ∀ k : Fin 13, mgEff t b (4 * k) = actv s (aMg b (4 * k)))
        ∧ t.pins.gpioOut = (actv s aGpioOut).setWidth 16
        ∧ (s.pins.switching = [] → ∀ n : Fin 16, bit t.pins.gpioIn n = bit i.gpio n)
        ∧ (isTrunk s p = true → sfpOk s.sfp = true → bits (portOf t p).txO0 55 32 = 0xE471B2 ∧ bits (portOf t p).txO0 31 27 = s.sfp.fi
            ∧ bits (portOf t p).txO0 17 17 = b2n t.map.bActive
            ∧ crc8 ((List.range 6).map (fun k => by1 (bits (portOf t p).txO0 (55 - 8 * k) (48 - 8 * k)))) = by1 (bits (portOf t p).txO0 7 0)
            ∧ bits (portOf t p).txO1 55 40 = smiSent t p)
        ∧ t.map.bActive = s.map.bActive ∧ t.regs.act = s.regs.act ∧ t.regs.stg = s.regs.stg ∧ t.phase = s.phase
        ∧ t.pending = s.pending)) ∧
    (isEpoch s.sfp = true → s.epochDone = some s.sfp → exec (.epochBoundary temp) s = .next s) ∧
    (isEpoch s.sfp = true → s.epochDone ≠ some s.sfp →
      ∃ t, exec (.epochBoundary temp) s = .next t ∧ t.epochDone = some s.sfp ∧ t.sfp = s.sfp ∧ t.thy.temp = temp
        ∧ (∀ b : Bool, (mgOf t b).octRx = 0 ∧ (mgOf t b).octTx = 0 ∧ (mgOf t b).admitted = 0)
        ∧ (∀ w : Fin 1024, (portOf s p).bwLeft = some w.val → (portOf t p).bwLeft = some (w.val - 1))
        ∧ ((portOf s p).bwLeft = none → (portOf t p).bwLeft = some (bwWin (actv s) p) ∧ (portOf t p).bwIn = 0 ∧ (portOf t p).bwEg = 0)
        ∧ ((grpOf s g).en = true → (grpOf s g).apsAge < 7 → (grpOf t g).apsAge = (grpOf s g).apsAge + 1)
        ∧ t.map = s.map ∧ t.regs.act = s.regs.act ∧ t.regs.stg = s.regs.stg ∧ t.com = s.com ∧ t.flash = s.flash ∧ t.pair = s.pair
        ∧ t.phase = s.phase ∧ t.pending = s.pending)

/-! The whole machine. -/

/-- The machine after reset (R99, R177, R267, R269, R388, R412, R449, R450): the count at the origin, the queue of the
model empty, both map banks and both SMI tables zero with bank A active, every commit entry free with nothing open or
suspect, both views of every register at its reset value, every sticky register and counter 0, no pair or posted write
open, nothing in the trace, the packet queues, the relay table or the duplicate memory, no reply and no command. The
history after a module reset (R79): it is empty, so that each entry reads with VALID, SAMPLE_MFC, FREQ, FAULT_SEEN and
SPREAD at 0, CAND = 0xF and TEMP = 0x8000, and the budget's sum and every sticky bit are 0. Readings of the model it
rests on: log 73. -/
def Obligations.ResetValues : Prop :=
  (∀ (a blk idx : Nat) (p : Fin 128) (g : Fin 2048),
     let s := State.reset
     s.sfp = { mfc := 0, fi := 0, bi := 0 } ∧ s.pending = [] ∧ s.phase = .released ∧
     entryOf s.map false a = 0 ∧ entryOf s.map true a = 0 ∧ smiWord s.map false a = 0 ∧ smiWord s.map true a = 0 ∧
     s.map.bActive = false ∧ tfind s.com.ents a = none ∧ s.com.stageOpen = 0 ∧ s.com.suspect = 0 ∧ s.com.frozen = 0 ∧
     actv s a = regReset a ∧ stgv s a = regReset a ∧ hist s a = 0 ∧ ctrVal s blk idx = 0 ∧
     tfind s.regs.pairs a = none ∧ tfind s.regs.posted a = none ∧ s.regs.guardFail = false ∧
     s.vcp.run = none ∧ s.vcp.queue = [] ∧ s.vcp.relay = [] ∧ s.vcp.dup = [] ∧ s.vcp.spiRx = [] ∧ s.sage.fifo = [] ∧
     s.sage.events = [] ∧ (portOf s p).txq = [] ∧ (grpOf s g).en = false ∧ (grpOf s g).sel = false) ∧
  (∀ (s : State) (n a : Nat), s.phase ≠ .off →
     ∃ t, exec .resetNAssert s = .next t
       ∧ histBytes (t.thy.hist.getD n {}) = zeros 12 ++ [0x80, 0, 0x0F, 0] ∧ t.thy.hbAccum = 0 ∧ hist t a = 0
       ∧ (powered s = true → fwStarted s = true →
           ∃ u, exec .seqWdtExpire s = .next u ∧ u.thy.hist = s.thy.hist ∧ u.thy.hbAccum = s.thy.hbAccum
             ∧ u.thy.hbRemain = s.thy.hbRemain ∧ hist u hThy = hist s hThy))

/-- The invariants of the step statements hold after reset. -/
def Obligations.ResetMeetsInvariants : Prop :=
  SfpInv State.reset ∧ Memory.wf State.reset.mem = true ∧ MapInv State.reset

/-- Whatever a step does, the slot frame position stays in its ranges: FI below 32, BI below 163,768, the MFC below 2^48
(Table 00-2, R80). -/
def Obligations.StepKeepsSfp : Prop :=
  ∀ s t : State, SfpInv s → step s = .next t → SfpInv t

/-- Whatever a step does, the memories and both banks of the connection map keep their canonical form. -/
def Obligations.StepKeepsMemory : Prop :=
  ∀ s t : State, Memory.wf s.mem = true → MapInv s → step s = .next t → Memory.wf t.mem = true ∧ MapInv t

/-- A command never reaches the queue of the commands that wait behind it: it runs on everything but the queue. Readings
of the model it rests on: log 10. -/
def Obligations.ExecKeepsQueue : Prop :=
  ∀ (i : Instr) (s t : State), exec i s = .next t → t.pending = s.pending

/-- The SFP leaves its even count only at the events R80 lists: a step of the frame phase (the first alignment, on a frame
pulse, or FP_REALIGN's) and a change of the MFC, which keeps FI and BI; at a standby's realignment to its peer (R222);
and where a module reset ends. No other command moves it. -/
def Obligations.SfpMovesOnlyAt : Prop :=
  ∀ (i : Instr) (s t : State), SfpInv s → exec i s = .next t → t.phase ≠ .reset → t.phase ≠ .off → t.sfp ≠ s.sfp →
    ((∃ k, i = .fpEdge k) ∨ i = .fpRealignAct) ∧ t.sfp.mfc = s.sfp.mfc ∨
    ((i = .mfcLearn ∨ i = .setMfcAct) ∧ t.sfp.fi = s.sfp.fi ∧ t.sfp.bi = s.sfp.bi) ∨
    (∃ lane b comp l, i = .heartbeatTake lane b comp l ∧ isStandby s = true) ∨
    (∃ d p, i = .resetSequenceEnd d p ∧ s.phase = .reset)

/-- The active view of a commit domain changes at a strobe, or on a standby with its active's record of that change, and
at no other command short of a module reset (R86, R219). Readings of the model it rests on: log 56. -/
def Obligations.ActiveViewsChangeOnlyAtStrobes : Prop :=
  ∀ (i : Instr) (s t : State) (a : Nat), exec i s = .next t → t.phase ≠ .reset → t.phase ≠ .off → (domOf a).isSome = true →
    actv t a ≠ actv s a → i = .commitStrobe ∨ ∃ f m, i = .mirrorRecordTake f m ∧ isStandby s = true

/-- A sequencer restart takes the key store, GROUP_MEMBER, ROUTE and RELAY_PORTS from flash, whatever they held before; a
store without a correct copy is taken as R455 says (R464). -/
def Obligations.RestartReloadsStores : Prop :=
  ∀ (m : List Nat) (route : Tbl Byte) (ports : BitVec 128) (keys : Tbl AuthSt) (s : State), powered s = true → fwStarted s = true →
    s.seq.running = false →
    ∃ t, exec .sequencerRestart s = .next t ∧ t.seq.running = true ∧ t.vcp.keysLoaded = true
      ∧ (s.flash.net = some (m, route, ports) → t.vcp.members = m ∧ t.vcp.route = route ∧ t.vcp.relayPorts = ports)
      ∧ (s.flash.net = none → t.vcp.members = [] ∧ t.vcp.route = [] ∧ t.vcp.relayPorts = 0)
      ∧ (s.flash.resv.isSome = true → s.flash.keys = some keys → t.vcp.auths = keys)
      ∧ (s.flash.keys = none → t.vcp.auths = [])
      ∧ (s.flash.resv = none → ∀ kv ∈ t.vcp.auths, kv.2.enabled = false)

/-- The lead time (R89): a COMMIT whose epoch lies at least 10,481,152 blocks after its acceptance is not answered
LATE_EPOCH, and any nearer one is; acceptance at (E−2):00:0 just meets the rule and one block later fails it; an epoch
that is past or current always fails it. The command's work answers by the verdict of its acceptance. -/
def Obligations.CommitLeadTime : Prop :=
  ∀ (q : Run) (s : State) (e : Nat), checkCommand s q = none → q.req.params.getD 0 0 ≠ 0 →
    sfpOfBytes q.req.params 2 = epochAt e → e < 2 ^ 48 → (q.req.grp = false ∨ s.thy.mfcMism = false) →
    let late := (commitVerdict s q).map (·.1) = some 9
    (10481152 ≤ sfpDist q.accept (epochAt e) → ¬late) ∧
    (sfpDist q.accept (epochAt e) < 10481152 → late) ∧
    (q.accept = epochAt ((e + (2 ^ 48 - 2)) % 2 ^ 48) → ¬late) ∧
    (q.accept = { epochAt ((e + (2 ^ 48 - 2)) % 2 ^ 48) with bi := 1 } → late) ∧
    (mfcDiff q.accept.mfc e ≤ 0 → late) ∧
    (∀ u : State, Begun 0x0B01 q.req q u → sfpDist q.since u.sfp ≤ 1562500 → q.verdict = commitVerdict s q →
      ∃ t, exec (.commit q.req) u = .next t ∧ (replyNow t).isSome = true ∧ ((replyNow t).map (·.status) = some 9 ↔ late))

/-- The replay window (R262): a number after LAST passes and becomes LAST, its mark joining those of the 32 numbers up to
it; one inside the window passes once and is then marked; every other fails. Dispatch records the number of the packet
it starts exactly where it passes, and no other authority's; reception records nothing. -/
def Obligations.ReplayWindow : Prop :=
  (∀ (x : ReplaySt) (n m : Word),
     let d := (n - x.last).toNat
     let inWin := fun (y : ReplaySt) (k : Word) => (y.last - k).toNat < 32
     let marked := fun (y : ReplaySt) (k : Word) => inWin y k ∧ bit y.win (y.last - k).toNat = true
     let y := (seqTake x n).getD {}
     (0 < d → d < 2147483648 →
       seqTake x n = some y ∧ y.last = n ∧ marked y n ∧ (m ≠ n → inWin y m → (marked y m ↔ marked x m))) ∧
     (d = 0 ∨ 2147483648 ≤ d →
       (¬inWin x n ∨ marked x n → seqTake x n = none) ∧
       (inWin x n → ¬marked x n → seqTake x n = some y ∧ y.last = x.last ∧ marked y n ∧ (m ≠ n → (marked y m ↔ marked x m))))) ∧
  (∀ (q : Queued) (k : Fin 64) (s : State), powered s = true → s.sfp.bi % 8192 = 0 → busyNow s = none →
     queueBest s.vcp.queue = some q → (authOf s q.req.auth.toNat).gen = q.gen →
     let x := replayOf s q.req.auth.toNat
     ∃ t, exec .dispatchTick s = .next t
       ∧ ((seqTake x q.req.seq).isSome = true →
           (seqTake x q.req.seq).map (fun y => (y.last, y.win))
             = some ((replayOf t q.req.auth.toNat).last, (replayOf t q.req.auth.toNat).win))
       ∧ (seqTake x q.req.seq = none →
           replayOf t q.req.auth.toNat = x ∧ (replyNow t).map (·.status) = some 6)
       ∧ (k.val ≠ q.req.auth.toNat → replayOf t k = replayOf s k)) ∧
  (∀ (ret : Return) (pkt : Bytes) (s t : State), exec (.vcpPacketReceive ret pkt) s = .next t → t.vcp.replay = s.vcp.replay)
end

