-- ==== Sys2Proof/Laws/State.lean ====
section
/-! SUPPORT. One lemma per field per named update of the state, each true by `rfl`. -/

namespace Sys2Proof.Machine

/-! onPort changes ports alone. -/
@[simp] theorem onPort_pending (s : State) (p : Nat) (f : PortSt → PortSt) : (onPort s p f).pending = s.pending := rfl
@[simp] theorem onPort_sfp (s : State) (p : Nat) (f : PortSt → PortSt) : (onPort s p f).sfp = s.sfp := rfl
@[simp] theorem onPort_phase (s : State) (p : Nat) (f : PortSt → PortSt) : (onPort s p f).phase = s.phase := rfl
@[simp] theorem onPort_pwr (s : State) (p : Nat) (f : PortSt → PortSt) : (onPort s p f).pwr = s.pwr := rfl
@[simp] theorem onPort_thy (s : State) (p : Nat) (f : PortSt → PortSt) : (onPort s p f).thy = s.thy := rfl
@[simp] theorem onPort_com (s : State) (p : Nat) (f : PortSt → PortSt) : (onPort s p f).com = s.com := rfl
@[simp] theorem onPort_chks (s : State) (p : Nat) (f : PortSt → PortSt) : (onPort s p f).chks = s.chks := rfl
@[simp] theorem onPort_map (s : State) (p : Nat) (f : PortSt → PortSt) : (onPort s p f).map = s.map := rfl
@[simp] theorem onPort_grps (s : State) (p : Nat) (f : PortSt → PortSt) : (onPort s p f).grps = s.grps := rfl
@[simp] theorem onPort_pair (s : State) (p : Nat) (f : PortSt → PortSt) : (onPort s p f).pair = s.pair := rfl
@[simp] theorem onPort_mir (s : State) (p : Nat) (f : PortSt → PortSt) : (onPort s p f).mir = s.mir := rfl
@[simp] theorem onPort_vcp (s : State) (p : Nat) (f : PortSt → PortSt) : (onPort s p f).vcp = s.vcp := rfl
@[simp] theorem onPort_mgA (s : State) (p : Nat) (f : PortSt → PortSt) : (onPort s p f).mgA = s.mgA := rfl
@[simp] theorem onPort_mgB (s : State) (p : Nat) (f : PortSt → PortSt) : (onPort s p f).mgB = s.mgB := rfl
@[simp] theorem onPort_mgSh (s : State) (p : Nat) (f : PortSt → PortSt) : (onPort s p f).mgSh = s.mgSh := rfl
@[simp] theorem onPort_sage (s : State) (p : Nat) (f : PortSt → PortSt) : (onPort s p f).sage = s.sage := rfl
@[simp] theorem onPort_mem (s : State) (p : Nat) (f : PortSt → PortSt) : (onPort s p f).mem = s.mem := rfl
@[simp] theorem onPort_seq (s : State) (p : Nat) (f : PortSt → PortSt) : (onPort s p f).seq = s.seq := rfl
@[simp] theorem onPort_flash (s : State) (p : Nat) (f : PortSt → PortSt) : (onPort s p f).flash = s.flash := rfl
@[simp] theorem onPort_regs (s : State) (p : Nat) (f : PortSt → PortSt) : (onPort s p f).regs = s.regs := rfl
@[simp] theorem onPort_pins (s : State) (p : Nat) (f : PortSt → PortSt) : (onPort s p f).pins = s.pins := rfl
@[simp] theorem onPort_auto (s : State) (p : Nat) (f : PortSt → PortSt) : (onPort s p f).auto = s.auto := rfl
@[simp] theorem onPort_frameDone (s : State) (p : Nat) (f : PortSt → PortSt) : (onPort s p f).frameDone = s.frameDone := rfl
@[simp] theorem onPort_epochDone (s : State) (p : Nat) (f : PortSt → PortSt) : (onPort s p f).epochDone = s.epochDone := rfl
@[simp] theorem onPort_fresh (s : State) (p : Nat) (f : PortSt → PortSt) : (onPort s p f).fresh = s.fresh := rfl
/-! onTrunk changes ports alone. -/
@[simp] theorem onTrunk_pending (s : State) (p : Nat) (f : TrunkSt → TrunkSt) : (onTrunk s p f).pending = s.pending := rfl
@[simp] theorem onTrunk_sfp (s : State) (p : Nat) (f : TrunkSt → TrunkSt) : (onTrunk s p f).sfp = s.sfp := rfl
@[simp] theorem onTrunk_phase (s : State) (p : Nat) (f : TrunkSt → TrunkSt) : (onTrunk s p f).phase = s.phase := rfl
@[simp] theorem onTrunk_pwr (s : State) (p : Nat) (f : TrunkSt → TrunkSt) : (onTrunk s p f).pwr = s.pwr := rfl
@[simp] theorem onTrunk_thy (s : State) (p : Nat) (f : TrunkSt → TrunkSt) : (onTrunk s p f).thy = s.thy := rfl
@[simp] theorem onTrunk_com (s : State) (p : Nat) (f : TrunkSt → TrunkSt) : (onTrunk s p f).com = s.com := rfl
@[simp] theorem onTrunk_chks (s : State) (p : Nat) (f : TrunkSt → TrunkSt) : (onTrunk s p f).chks = s.chks := rfl
@[simp] theorem onTrunk_map (s : State) (p : Nat) (f : TrunkSt → TrunkSt) : (onTrunk s p f).map = s.map := rfl
@[simp] theorem onTrunk_grps (s : State) (p : Nat) (f : TrunkSt → TrunkSt) : (onTrunk s p f).grps = s.grps := rfl
@[simp] theorem onTrunk_pair (s : State) (p : Nat) (f : TrunkSt → TrunkSt) : (onTrunk s p f).pair = s.pair := rfl
@[simp] theorem onTrunk_mir (s : State) (p : Nat) (f : TrunkSt → TrunkSt) : (onTrunk s p f).mir = s.mir := rfl
@[simp] theorem onTrunk_vcp (s : State) (p : Nat) (f : TrunkSt → TrunkSt) : (onTrunk s p f).vcp = s.vcp := rfl
@[simp] theorem onTrunk_mgA (s : State) (p : Nat) (f : TrunkSt → TrunkSt) : (onTrunk s p f).mgA = s.mgA := rfl
@[simp] theorem onTrunk_mgB (s : State) (p : Nat) (f : TrunkSt → TrunkSt) : (onTrunk s p f).mgB = s.mgB := rfl
@[simp] theorem onTrunk_mgSh (s : State) (p : Nat) (f : TrunkSt → TrunkSt) : (onTrunk s p f).mgSh = s.mgSh := rfl
@[simp] theorem onTrunk_sage (s : State) (p : Nat) (f : TrunkSt → TrunkSt) : (onTrunk s p f).sage = s.sage := rfl
@[simp] theorem onTrunk_mem (s : State) (p : Nat) (f : TrunkSt → TrunkSt) : (onTrunk s p f).mem = s.mem := rfl
@[simp] theorem onTrunk_seq (s : State) (p : Nat) (f : TrunkSt → TrunkSt) : (onTrunk s p f).seq = s.seq := rfl
@[simp] theorem onTrunk_flash (s : State) (p : Nat) (f : TrunkSt → TrunkSt) : (onTrunk s p f).flash = s.flash := rfl
@[simp] theorem onTrunk_regs (s : State) (p : Nat) (f : TrunkSt → TrunkSt) : (onTrunk s p f).regs = s.regs := rfl
@[simp] theorem onTrunk_pins (s : State) (p : Nat) (f : TrunkSt → TrunkSt) : (onTrunk s p f).pins = s.pins := rfl
@[simp] theorem onTrunk_auto (s : State) (p : Nat) (f : TrunkSt → TrunkSt) : (onTrunk s p f).auto = s.auto := rfl
@[simp] theorem onTrunk_frameDone (s : State) (p : Nat) (f : TrunkSt → TrunkSt) : (onTrunk s p f).frameDone = s.frameDone := rfl
@[simp] theorem onTrunk_epochDone (s : State) (p : Nat) (f : TrunkSt → TrunkSt) : (onTrunk s p f).epochDone = s.epochDone := rfl
@[simp] theorem onTrunk_fresh (s : State) (p : Nat) (f : TrunkSt → TrunkSt) : (onTrunk s p f).fresh = s.fresh := rfl
/-! onClient changes ports alone. -/
@[simp] theorem onClient_pending (s : State) (p : Nat) (f : ClientSt → ClientSt) : (onClient s p f).pending = s.pending := rfl
@[simp] theorem onClient_sfp (s : State) (p : Nat) (f : ClientSt → ClientSt) : (onClient s p f).sfp = s.sfp := rfl
@[simp] theorem onClient_phase (s : State) (p : Nat) (f : ClientSt → ClientSt) : (onClient s p f).phase = s.phase := rfl
@[simp] theorem onClient_pwr (s : State) (p : Nat) (f : ClientSt → ClientSt) : (onClient s p f).pwr = s.pwr := rfl
@[simp] theorem onClient_thy (s : State) (p : Nat) (f : ClientSt → ClientSt) : (onClient s p f).thy = s.thy := rfl
@[simp] theorem onClient_com (s : State) (p : Nat) (f : ClientSt → ClientSt) : (onClient s p f).com = s.com := rfl
@[simp] theorem onClient_chks (s : State) (p : Nat) (f : ClientSt → ClientSt) : (onClient s p f).chks = s.chks := rfl
@[simp] theorem onClient_map (s : State) (p : Nat) (f : ClientSt → ClientSt) : (onClient s p f).map = s.map := rfl
@[simp] theorem onClient_grps (s : State) (p : Nat) (f : ClientSt → ClientSt) : (onClient s p f).grps = s.grps := rfl
@[simp] theorem onClient_pair (s : State) (p : Nat) (f : ClientSt → ClientSt) : (onClient s p f).pair = s.pair := rfl
@[simp] theorem onClient_mir (s : State) (p : Nat) (f : ClientSt → ClientSt) : (onClient s p f).mir = s.mir := rfl
@[simp] theorem onClient_vcp (s : State) (p : Nat) (f : ClientSt → ClientSt) : (onClient s p f).vcp = s.vcp := rfl
@[simp] theorem onClient_mgA (s : State) (p : Nat) (f : ClientSt → ClientSt) : (onClient s p f).mgA = s.mgA := rfl
@[simp] theorem onClient_mgB (s : State) (p : Nat) (f : ClientSt → ClientSt) : (onClient s p f).mgB = s.mgB := rfl
@[simp] theorem onClient_mgSh (s : State) (p : Nat) (f : ClientSt → ClientSt) : (onClient s p f).mgSh = s.mgSh := rfl
@[simp] theorem onClient_sage (s : State) (p : Nat) (f : ClientSt → ClientSt) : (onClient s p f).sage = s.sage := rfl
@[simp] theorem onClient_mem (s : State) (p : Nat) (f : ClientSt → ClientSt) : (onClient s p f).mem = s.mem := rfl
@[simp] theorem onClient_seq (s : State) (p : Nat) (f : ClientSt → ClientSt) : (onClient s p f).seq = s.seq := rfl
@[simp] theorem onClient_flash (s : State) (p : Nat) (f : ClientSt → ClientSt) : (onClient s p f).flash = s.flash := rfl
@[simp] theorem onClient_regs (s : State) (p : Nat) (f : ClientSt → ClientSt) : (onClient s p f).regs = s.regs := rfl
@[simp] theorem onClient_pins (s : State) (p : Nat) (f : ClientSt → ClientSt) : (onClient s p f).pins = s.pins := rfl
@[simp] theorem onClient_auto (s : State) (p : Nat) (f : ClientSt → ClientSt) : (onClient s p f).auto = s.auto := rfl
@[simp] theorem onClient_frameDone (s : State) (p : Nat) (f : ClientSt → ClientSt) : (onClient s p f).frameDone = s.frameDone := rfl
@[simp] theorem onClient_epochDone (s : State) (p : Nat) (f : ClientSt → ClientSt) : (onClient s p f).epochDone = s.epochDone := rfl
@[simp] theorem onClient_fresh (s : State) (p : Nat) (f : ClientSt → ClientSt) : (onClient s p f).fresh = s.fresh := rfl
/-! onGrp changes grps alone. -/
@[simp] theorem onGrp_pending (s : State) (g : Nat) (f : GrpSt → GrpSt) : (onGrp s g f).pending = s.pending := rfl
@[simp] theorem onGrp_sfp (s : State) (g : Nat) (f : GrpSt → GrpSt) : (onGrp s g f).sfp = s.sfp := rfl
@[simp] theorem onGrp_phase (s : State) (g : Nat) (f : GrpSt → GrpSt) : (onGrp s g f).phase = s.phase := rfl
@[simp] theorem onGrp_pwr (s : State) (g : Nat) (f : GrpSt → GrpSt) : (onGrp s g f).pwr = s.pwr := rfl
@[simp] theorem onGrp_thy (s : State) (g : Nat) (f : GrpSt → GrpSt) : (onGrp s g f).thy = s.thy := rfl
@[simp] theorem onGrp_com (s : State) (g : Nat) (f : GrpSt → GrpSt) : (onGrp s g f).com = s.com := rfl
@[simp] theorem onGrp_ports (s : State) (g : Nat) (f : GrpSt → GrpSt) : (onGrp s g f).ports = s.ports := rfl
@[simp] theorem onGrp_chks (s : State) (g : Nat) (f : GrpSt → GrpSt) : (onGrp s g f).chks = s.chks := rfl
@[simp] theorem onGrp_map (s : State) (g : Nat) (f : GrpSt → GrpSt) : (onGrp s g f).map = s.map := rfl
@[simp] theorem onGrp_pair (s : State) (g : Nat) (f : GrpSt → GrpSt) : (onGrp s g f).pair = s.pair := rfl
@[simp] theorem onGrp_mir (s : State) (g : Nat) (f : GrpSt → GrpSt) : (onGrp s g f).mir = s.mir := rfl
@[simp] theorem onGrp_vcp (s : State) (g : Nat) (f : GrpSt → GrpSt) : (onGrp s g f).vcp = s.vcp := rfl
@[simp] theorem onGrp_mgA (s : State) (g : Nat) (f : GrpSt → GrpSt) : (onGrp s g f).mgA = s.mgA := rfl
@[simp] theorem onGrp_mgB (s : State) (g : Nat) (f : GrpSt → GrpSt) : (onGrp s g f).mgB = s.mgB := rfl
@[simp] theorem onGrp_mgSh (s : State) (g : Nat) (f : GrpSt → GrpSt) : (onGrp s g f).mgSh = s.mgSh := rfl
@[simp] theorem onGrp_sage (s : State) (g : Nat) (f : GrpSt → GrpSt) : (onGrp s g f).sage = s.sage := rfl
@[simp] theorem onGrp_mem (s : State) (g : Nat) (f : GrpSt → GrpSt) : (onGrp s g f).mem = s.mem := rfl
@[simp] theorem onGrp_seq (s : State) (g : Nat) (f : GrpSt → GrpSt) : (onGrp s g f).seq = s.seq := rfl
@[simp] theorem onGrp_flash (s : State) (g : Nat) (f : GrpSt → GrpSt) : (onGrp s g f).flash = s.flash := rfl
@[simp] theorem onGrp_regs (s : State) (g : Nat) (f : GrpSt → GrpSt) : (onGrp s g f).regs = s.regs := rfl
@[simp] theorem onGrp_pins (s : State) (g : Nat) (f : GrpSt → GrpSt) : (onGrp s g f).pins = s.pins := rfl
@[simp] theorem onGrp_auto (s : State) (g : Nat) (f : GrpSt → GrpSt) : (onGrp s g f).auto = s.auto := rfl
@[simp] theorem onGrp_frameDone (s : State) (g : Nat) (f : GrpSt → GrpSt) : (onGrp s g f).frameDone = s.frameDone := rfl
@[simp] theorem onGrp_epochDone (s : State) (g : Nat) (f : GrpSt → GrpSt) : (onGrp s g f).epochDone = s.epochDone := rfl
@[simp] theorem onGrp_fresh (s : State) (g : Nat) (f : GrpSt → GrpSt) : (onGrp s g f).fresh = s.fresh := rfl
/-! onChk changes chks alone. -/
@[simp] theorem onChk_pending (s : State) (m : Nat) (f : ChkSt → ChkSt) : (onChk s m f).pending = s.pending := rfl
@[simp] theorem onChk_sfp (s : State) (m : Nat) (f : ChkSt → ChkSt) : (onChk s m f).sfp = s.sfp := rfl
@[simp] theorem onChk_phase (s : State) (m : Nat) (f : ChkSt → ChkSt) : (onChk s m f).phase = s.phase := rfl
@[simp] theorem onChk_pwr (s : State) (m : Nat) (f : ChkSt → ChkSt) : (onChk s m f).pwr = s.pwr := rfl
@[simp] theorem onChk_thy (s : State) (m : Nat) (f : ChkSt → ChkSt) : (onChk s m f).thy = s.thy := rfl
@[simp] theorem onChk_com (s : State) (m : Nat) (f : ChkSt → ChkSt) : (onChk s m f).com = s.com := rfl
@[simp] theorem onChk_ports (s : State) (m : Nat) (f : ChkSt → ChkSt) : (onChk s m f).ports = s.ports := rfl
@[simp] theorem onChk_map (s : State) (m : Nat) (f : ChkSt → ChkSt) : (onChk s m f).map = s.map := rfl
@[simp] theorem onChk_grps (s : State) (m : Nat) (f : ChkSt → ChkSt) : (onChk s m f).grps = s.grps := rfl
@[simp] theorem onChk_pair (s : State) (m : Nat) (f : ChkSt → ChkSt) : (onChk s m f).pair = s.pair := rfl
@[simp] theorem onChk_mir (s : State) (m : Nat) (f : ChkSt → ChkSt) : (onChk s m f).mir = s.mir := rfl
@[simp] theorem onChk_vcp (s : State) (m : Nat) (f : ChkSt → ChkSt) : (onChk s m f).vcp = s.vcp := rfl
@[simp] theorem onChk_mgA (s : State) (m : Nat) (f : ChkSt → ChkSt) : (onChk s m f).mgA = s.mgA := rfl
@[simp] theorem onChk_mgB (s : State) (m : Nat) (f : ChkSt → ChkSt) : (onChk s m f).mgB = s.mgB := rfl
@[simp] theorem onChk_mgSh (s : State) (m : Nat) (f : ChkSt → ChkSt) : (onChk s m f).mgSh = s.mgSh := rfl
@[simp] theorem onChk_sage (s : State) (m : Nat) (f : ChkSt → ChkSt) : (onChk s m f).sage = s.sage := rfl
@[simp] theorem onChk_mem (s : State) (m : Nat) (f : ChkSt → ChkSt) : (onChk s m f).mem = s.mem := rfl
@[simp] theorem onChk_seq (s : State) (m : Nat) (f : ChkSt → ChkSt) : (onChk s m f).seq = s.seq := rfl
@[simp] theorem onChk_flash (s : State) (m : Nat) (f : ChkSt → ChkSt) : (onChk s m f).flash = s.flash := rfl
@[simp] theorem onChk_regs (s : State) (m : Nat) (f : ChkSt → ChkSt) : (onChk s m f).regs = s.regs := rfl
@[simp] theorem onChk_pins (s : State) (m : Nat) (f : ChkSt → ChkSt) : (onChk s m f).pins = s.pins := rfl
@[simp] theorem onChk_auto (s : State) (m : Nat) (f : ChkSt → ChkSt) : (onChk s m f).auto = s.auto := rfl
@[simp] theorem onChk_frameDone (s : State) (m : Nat) (f : ChkSt → ChkSt) : (onChk s m f).frameDone = s.frameDone := rfl
@[simp] theorem onChk_epochDone (s : State) (m : Nat) (f : ChkSt → ChkSt) : (onChk s m f).epochDone = s.epochDone := rfl
@[simp] theorem onChk_fresh (s : State) (m : Nat) (f : ChkSt → ChkSt) : (onChk s m f).fresh = s.fresh := rfl
/-! onThy changes thy alone. -/
@[simp] theorem onThy_pending (s : State) (f : ThySt → ThySt) : (onThy s f).pending = s.pending := rfl
@[simp] theorem onThy_sfp (s : State) (f : ThySt → ThySt) : (onThy s f).sfp = s.sfp := rfl
@[simp] theorem onThy_phase (s : State) (f : ThySt → ThySt) : (onThy s f).phase = s.phase := rfl
@[simp] theorem onThy_pwr (s : State) (f : ThySt → ThySt) : (onThy s f).pwr = s.pwr := rfl
@[simp] theorem onThy_thy (s : State) (f : ThySt → ThySt) : (onThy s f).thy = f s.thy := rfl
@[simp] theorem onThy_com (s : State) (f : ThySt → ThySt) : (onThy s f).com = s.com := rfl
@[simp] theorem onThy_ports (s : State) (f : ThySt → ThySt) : (onThy s f).ports = s.ports := rfl
@[simp] theorem onThy_chks (s : State) (f : ThySt → ThySt) : (onThy s f).chks = s.chks := rfl
@[simp] theorem onThy_map (s : State) (f : ThySt → ThySt) : (onThy s f).map = s.map := rfl
@[simp] theorem onThy_grps (s : State) (f : ThySt → ThySt) : (onThy s f).grps = s.grps := rfl
@[simp] theorem onThy_pair (s : State) (f : ThySt → ThySt) : (onThy s f).pair = s.pair := rfl
@[simp] theorem onThy_mir (s : State) (f : ThySt → ThySt) : (onThy s f).mir = s.mir := rfl
@[simp] theorem onThy_vcp (s : State) (f : ThySt → ThySt) : (onThy s f).vcp = s.vcp := rfl
@[simp] theorem onThy_mgA (s : State) (f : ThySt → ThySt) : (onThy s f).mgA = s.mgA := rfl
@[simp] theorem onThy_mgB (s : State) (f : ThySt → ThySt) : (onThy s f).mgB = s.mgB := rfl
@[simp] theorem onThy_mgSh (s : State) (f : ThySt → ThySt) : (onThy s f).mgSh = s.mgSh := rfl
@[simp] theorem onThy_sage (s : State) (f : ThySt → ThySt) : (onThy s f).sage = s.sage := rfl
@[simp] theorem onThy_mem (s : State) (f : ThySt → ThySt) : (onThy s f).mem = s.mem := rfl
@[simp] theorem onThy_seq (s : State) (f : ThySt → ThySt) : (onThy s f).seq = s.seq := rfl
@[simp] theorem onThy_flash (s : State) (f : ThySt → ThySt) : (onThy s f).flash = s.flash := rfl
@[simp] theorem onThy_regs (s : State) (f : ThySt → ThySt) : (onThy s f).regs = s.regs := rfl
@[simp] theorem onThy_pins (s : State) (f : ThySt → ThySt) : (onThy s f).pins = s.pins := rfl
@[simp] theorem onThy_auto (s : State) (f : ThySt → ThySt) : (onThy s f).auto = s.auto := rfl
@[simp] theorem onThy_frameDone (s : State) (f : ThySt → ThySt) : (onThy s f).frameDone = s.frameDone := rfl
@[simp] theorem onThy_epochDone (s : State) (f : ThySt → ThySt) : (onThy s f).epochDone = s.epochDone := rfl
@[simp] theorem onThy_fresh (s : State) (f : ThySt → ThySt) : (onThy s f).fresh = s.fresh := rfl
/-! onCand changes thy alone. -/
@[simp] theorem onCand_pending (s : State) (c : Nat) (f : CandSt → CandSt) : (onCand s c f).pending = s.pending := rfl
@[simp] theorem onCand_sfp (s : State) (c : Nat) (f : CandSt → CandSt) : (onCand s c f).sfp = s.sfp := rfl
@[simp] theorem onCand_phase (s : State) (c : Nat) (f : CandSt → CandSt) : (onCand s c f).phase = s.phase := rfl
@[simp] theorem onCand_pwr (s : State) (c : Nat) (f : CandSt → CandSt) : (onCand s c f).pwr = s.pwr := rfl
@[simp] theorem onCand_com (s : State) (c : Nat) (f : CandSt → CandSt) : (onCand s c f).com = s.com := rfl
@[simp] theorem onCand_ports (s : State) (c : Nat) (f : CandSt → CandSt) : (onCand s c f).ports = s.ports := rfl
@[simp] theorem onCand_chks (s : State) (c : Nat) (f : CandSt → CandSt) : (onCand s c f).chks = s.chks := rfl
@[simp] theorem onCand_map (s : State) (c : Nat) (f : CandSt → CandSt) : (onCand s c f).map = s.map := rfl
@[simp] theorem onCand_grps (s : State) (c : Nat) (f : CandSt → CandSt) : (onCand s c f).grps = s.grps := rfl
@[simp] theorem onCand_pair (s : State) (c : Nat) (f : CandSt → CandSt) : (onCand s c f).pair = s.pair := rfl
@[simp] theorem onCand_mir (s : State) (c : Nat) (f : CandSt → CandSt) : (onCand s c f).mir = s.mir := rfl
@[simp] theorem onCand_vcp (s : State) (c : Nat) (f : CandSt → CandSt) : (onCand s c f).vcp = s.vcp := rfl
@[simp] theorem onCand_mgA (s : State) (c : Nat) (f : CandSt → CandSt) : (onCand s c f).mgA = s.mgA := rfl
@[simp] theorem onCand_mgB (s : State) (c : Nat) (f : CandSt → CandSt) : (onCand s c f).mgB = s.mgB := rfl
@[simp] theorem onCand_mgSh (s : State) (c : Nat) (f : CandSt → CandSt) : (onCand s c f).mgSh = s.mgSh := rfl
@[simp] theorem onCand_sage (s : State) (c : Nat) (f : CandSt → CandSt) : (onCand s c f).sage = s.sage := rfl
@[simp] theorem onCand_mem (s : State) (c : Nat) (f : CandSt → CandSt) : (onCand s c f).mem = s.mem := rfl
@[simp] theorem onCand_seq (s : State) (c : Nat) (f : CandSt → CandSt) : (onCand s c f).seq = s.seq := rfl
@[simp] theorem onCand_flash (s : State) (c : Nat) (f : CandSt → CandSt) : (onCand s c f).flash = s.flash := rfl
@[simp] theorem onCand_regs (s : State) (c : Nat) (f : CandSt → CandSt) : (onCand s c f).regs = s.regs := rfl
@[simp] theorem onCand_pins (s : State) (c : Nat) (f : CandSt → CandSt) : (onCand s c f).pins = s.pins := rfl
@[simp] theorem onCand_auto (s : State) (c : Nat) (f : CandSt → CandSt) : (onCand s c f).auto = s.auto := rfl
@[simp] theorem onCand_frameDone (s : State) (c : Nat) (f : CandSt → CandSt) : (onCand s c f).frameDone = s.frameDone := rfl
@[simp] theorem onCand_epochDone (s : State) (c : Nat) (f : CandSt → CandSt) : (onCand s c f).epochDone = s.epochDone := rfl
@[simp] theorem onCand_fresh (s : State) (c : Nat) (f : CandSt → CandSt) : (onCand s c f).fresh = s.fresh := rfl
/-! onFp changes thy alone. -/
@[simp] theorem onFp_pending (s : State) (i : Nat) (f : FpSt → FpSt) : (onFp s i f).pending = s.pending := rfl
@[simp] theorem onFp_sfp (s : State) (i : Nat) (f : FpSt → FpSt) : (onFp s i f).sfp = s.sfp := rfl
@[simp] theorem onFp_phase (s : State) (i : Nat) (f : FpSt → FpSt) : (onFp s i f).phase = s.phase := rfl
@[simp] theorem onFp_pwr (s : State) (i : Nat) (f : FpSt → FpSt) : (onFp s i f).pwr = s.pwr := rfl
@[simp] theorem onFp_com (s : State) (i : Nat) (f : FpSt → FpSt) : (onFp s i f).com = s.com := rfl
@[simp] theorem onFp_ports (s : State) (i : Nat) (f : FpSt → FpSt) : (onFp s i f).ports = s.ports := rfl
@[simp] theorem onFp_chks (s : State) (i : Nat) (f : FpSt → FpSt) : (onFp s i f).chks = s.chks := rfl
@[simp] theorem onFp_map (s : State) (i : Nat) (f : FpSt → FpSt) : (onFp s i f).map = s.map := rfl
@[simp] theorem onFp_grps (s : State) (i : Nat) (f : FpSt → FpSt) : (onFp s i f).grps = s.grps := rfl
@[simp] theorem onFp_pair (s : State) (i : Nat) (f : FpSt → FpSt) : (onFp s i f).pair = s.pair := rfl
@[simp] theorem onFp_mir (s : State) (i : Nat) (f : FpSt → FpSt) : (onFp s i f).mir = s.mir := rfl
@[simp] theorem onFp_vcp (s : State) (i : Nat) (f : FpSt → FpSt) : (onFp s i f).vcp = s.vcp := rfl
@[simp] theorem onFp_mgA (s : State) (i : Nat) (f : FpSt → FpSt) : (onFp s i f).mgA = s.mgA := rfl
@[simp] theorem onFp_mgB (s : State) (i : Nat) (f : FpSt → FpSt) : (onFp s i f).mgB = s.mgB := rfl
@[simp] theorem onFp_mgSh (s : State) (i : Nat) (f : FpSt → FpSt) : (onFp s i f).mgSh = s.mgSh := rfl
@[simp] theorem onFp_sage (s : State) (i : Nat) (f : FpSt → FpSt) : (onFp s i f).sage = s.sage := rfl
@[simp] theorem onFp_mem (s : State) (i : Nat) (f : FpSt → FpSt) : (onFp s i f).mem = s.mem := rfl
@[simp] theorem onFp_seq (s : State) (i : Nat) (f : FpSt → FpSt) : (onFp s i f).seq = s.seq := rfl
@[simp] theorem onFp_flash (s : State) (i : Nat) (f : FpSt → FpSt) : (onFp s i f).flash = s.flash := rfl
@[simp] theorem onFp_regs (s : State) (i : Nat) (f : FpSt → FpSt) : (onFp s i f).regs = s.regs := rfl
@[simp] theorem onFp_pins (s : State) (i : Nat) (f : FpSt → FpSt) : (onFp s i f).pins = s.pins := rfl
@[simp] theorem onFp_auto (s : State) (i : Nat) (f : FpSt → FpSt) : (onFp s i f).auto = s.auto := rfl
@[simp] theorem onFp_frameDone (s : State) (i : Nat) (f : FpSt → FpSt) : (onFp s i f).frameDone = s.frameDone := rfl
@[simp] theorem onFp_epochDone (s : State) (i : Nat) (f : FpSt → FpSt) : (onFp s i f).epochDone = s.epochDone := rfl
@[simp] theorem onFp_fresh (s : State) (i : Nat) (f : FpSt → FpSt) : (onFp s i f).fresh = s.fresh := rfl
/-! onCom changes com alone. -/
@[simp] theorem onCom_pending (s : State) (f : CommitSt → CommitSt) : (onCom s f).pending = s.pending := rfl
@[simp] theorem onCom_sfp (s : State) (f : CommitSt → CommitSt) : (onCom s f).sfp = s.sfp := rfl
@[simp] theorem onCom_phase (s : State) (f : CommitSt → CommitSt) : (onCom s f).phase = s.phase := rfl
@[simp] theorem onCom_pwr (s : State) (f : CommitSt → CommitSt) : (onCom s f).pwr = s.pwr := rfl
@[simp] theorem onCom_thy (s : State) (f : CommitSt → CommitSt) : (onCom s f).thy = s.thy := rfl
@[simp] theorem onCom_com (s : State) (f : CommitSt → CommitSt) : (onCom s f).com = f s.com := rfl
@[simp] theorem onCom_ports (s : State) (f : CommitSt → CommitSt) : (onCom s f).ports = s.ports := rfl
@[simp] theorem onCom_chks (s : State) (f : CommitSt → CommitSt) : (onCom s f).chks = s.chks := rfl
@[simp] theorem onCom_map (s : State) (f : CommitSt → CommitSt) : (onCom s f).map = s.map := rfl
@[simp] theorem onCom_grps (s : State) (f : CommitSt → CommitSt) : (onCom s f).grps = s.grps := rfl
@[simp] theorem onCom_pair (s : State) (f : CommitSt → CommitSt) : (onCom s f).pair = s.pair := rfl
@[simp] theorem onCom_mir (s : State) (f : CommitSt → CommitSt) : (onCom s f).mir = s.mir := rfl
@[simp] theorem onCom_vcp (s : State) (f : CommitSt → CommitSt) : (onCom s f).vcp = s.vcp := rfl
@[simp] theorem onCom_mgA (s : State) (f : CommitSt → CommitSt) : (onCom s f).mgA = s.mgA := rfl
@[simp] theorem onCom_mgB (s : State) (f : CommitSt → CommitSt) : (onCom s f).mgB = s.mgB := rfl
@[simp] theorem onCom_mgSh (s : State) (f : CommitSt → CommitSt) : (onCom s f).mgSh = s.mgSh := rfl
@[simp] theorem onCom_sage (s : State) (f : CommitSt → CommitSt) : (onCom s f).sage = s.sage := rfl
@[simp] theorem onCom_mem (s : State) (f : CommitSt → CommitSt) : (onCom s f).mem = s.mem := rfl
@[simp] theorem onCom_seq (s : State) (f : CommitSt → CommitSt) : (onCom s f).seq = s.seq := rfl
@[simp] theorem onCom_flash (s : State) (f : CommitSt → CommitSt) : (onCom s f).flash = s.flash := rfl
@[simp] theorem onCom_regs (s : State) (f : CommitSt → CommitSt) : (onCom s f).regs = s.regs := rfl
@[simp] theorem onCom_pins (s : State) (f : CommitSt → CommitSt) : (onCom s f).pins = s.pins := rfl
@[simp] theorem onCom_auto (s : State) (f : CommitSt → CommitSt) : (onCom s f).auto = s.auto := rfl
@[simp] theorem onCom_frameDone (s : State) (f : CommitSt → CommitSt) : (onCom s f).frameDone = s.frameDone := rfl
@[simp] theorem onCom_epochDone (s : State) (f : CommitSt → CommitSt) : (onCom s f).epochDone = s.epochDone := rfl
@[simp] theorem onCom_fresh (s : State) (f : CommitSt → CommitSt) : (onCom s f).fresh = s.fresh := rfl
/-! onPwr changes pwr alone. -/
@[simp] theorem onPwr_pending (s : State) (f : PowerSt → PowerSt) : (onPwr s f).pending = s.pending := rfl
@[simp] theorem onPwr_sfp (s : State) (f : PowerSt → PowerSt) : (onPwr s f).sfp = s.sfp := rfl
@[simp] theorem onPwr_phase (s : State) (f : PowerSt → PowerSt) : (onPwr s f).phase = s.phase := rfl
@[simp] theorem onPwr_pwr (s : State) (f : PowerSt → PowerSt) : (onPwr s f).pwr = f s.pwr := rfl
@[simp] theorem onPwr_thy (s : State) (f : PowerSt → PowerSt) : (onPwr s f).thy = s.thy := rfl
@[simp] theorem onPwr_com (s : State) (f : PowerSt → PowerSt) : (onPwr s f).com = s.com := rfl
@[simp] theorem onPwr_ports (s : State) (f : PowerSt → PowerSt) : (onPwr s f).ports = s.ports := rfl
@[simp] theorem onPwr_chks (s : State) (f : PowerSt → PowerSt) : (onPwr s f).chks = s.chks := rfl
@[simp] theorem onPwr_map (s : State) (f : PowerSt → PowerSt) : (onPwr s f).map = s.map := rfl
@[simp] theorem onPwr_grps (s : State) (f : PowerSt → PowerSt) : (onPwr s f).grps = s.grps := rfl
@[simp] theorem onPwr_pair (s : State) (f : PowerSt → PowerSt) : (onPwr s f).pair = s.pair := rfl
@[simp] theorem onPwr_mir (s : State) (f : PowerSt → PowerSt) : (onPwr s f).mir = s.mir := rfl
@[simp] theorem onPwr_vcp (s : State) (f : PowerSt → PowerSt) : (onPwr s f).vcp = s.vcp := rfl
@[simp] theorem onPwr_mgA (s : State) (f : PowerSt → PowerSt) : (onPwr s f).mgA = s.mgA := rfl
@[simp] theorem onPwr_mgB (s : State) (f : PowerSt → PowerSt) : (onPwr s f).mgB = s.mgB := rfl
@[simp] theorem onPwr_mgSh (s : State) (f : PowerSt → PowerSt) : (onPwr s f).mgSh = s.mgSh := rfl
@[simp] theorem onPwr_sage (s : State) (f : PowerSt → PowerSt) : (onPwr s f).sage = s.sage := rfl
@[simp] theorem onPwr_mem (s : State) (f : PowerSt → PowerSt) : (onPwr s f).mem = s.mem := rfl
@[simp] theorem onPwr_seq (s : State) (f : PowerSt → PowerSt) : (onPwr s f).seq = s.seq := rfl
@[simp] theorem onPwr_flash (s : State) (f : PowerSt → PowerSt) : (onPwr s f).flash = s.flash := rfl
@[simp] theorem onPwr_regs (s : State) (f : PowerSt → PowerSt) : (onPwr s f).regs = s.regs := rfl
@[simp] theorem onPwr_pins (s : State) (f : PowerSt → PowerSt) : (onPwr s f).pins = s.pins := rfl
@[simp] theorem onPwr_auto (s : State) (f : PowerSt → PowerSt) : (onPwr s f).auto = s.auto := rfl
@[simp] theorem onPwr_frameDone (s : State) (f : PowerSt → PowerSt) : (onPwr s f).frameDone = s.frameDone := rfl
@[simp] theorem onPwr_epochDone (s : State) (f : PowerSt → PowerSt) : (onPwr s f).epochDone = s.epochDone := rfl
@[simp] theorem onPwr_fresh (s : State) (f : PowerSt → PowerSt) : (onPwr s f).fresh = s.fresh := rfl
/-! onPair changes pair alone. -/
@[simp] theorem onPair_pending (s : State) (f : PairSt → PairSt) : (onPair s f).pending = s.pending := rfl
@[simp] theorem onPair_sfp (s : State) (f : PairSt → PairSt) : (onPair s f).sfp = s.sfp := rfl
@[simp] theorem onPair_phase (s : State) (f : PairSt → PairSt) : (onPair s f).phase = s.phase := rfl
@[simp] theorem onPair_pwr (s : State) (f : PairSt → PairSt) : (onPair s f).pwr = s.pwr := rfl
@[simp] theorem onPair_thy (s : State) (f : PairSt → PairSt) : (onPair s f).thy = s.thy := rfl
@[simp] theorem onPair_com (s : State) (f : PairSt → PairSt) : (onPair s f).com = s.com := rfl
@[simp] theorem onPair_ports (s : State) (f : PairSt → PairSt) : (onPair s f).ports = s.ports := rfl
@[simp] theorem onPair_chks (s : State) (f : PairSt → PairSt) : (onPair s f).chks = s.chks := rfl
@[simp] theorem onPair_map (s : State) (f : PairSt → PairSt) : (onPair s f).map = s.map := rfl
@[simp] theorem onPair_grps (s : State) (f : PairSt → PairSt) : (onPair s f).grps = s.grps := rfl
@[simp] theorem onPair_pair (s : State) (f : PairSt → PairSt) : (onPair s f).pair = f s.pair := rfl
@[simp] theorem onPair_mir (s : State) (f : PairSt → PairSt) : (onPair s f).mir = s.mir := rfl
@[simp] theorem onPair_vcp (s : State) (f : PairSt → PairSt) : (onPair s f).vcp = s.vcp := rfl
@[simp] theorem onPair_mgA (s : State) (f : PairSt → PairSt) : (onPair s f).mgA = s.mgA := rfl
@[simp] theorem onPair_mgB (s : State) (f : PairSt → PairSt) : (onPair s f).mgB = s.mgB := rfl
@[simp] theorem onPair_mgSh (s : State) (f : PairSt → PairSt) : (onPair s f).mgSh = s.mgSh := rfl
@[simp] theorem onPair_sage (s : State) (f : PairSt → PairSt) : (onPair s f).sage = s.sage := rfl
@[simp] theorem onPair_mem (s : State) (f : PairSt → PairSt) : (onPair s f).mem = s.mem := rfl
@[simp] theorem onPair_seq (s : State) (f : PairSt → PairSt) : (onPair s f).seq = s.seq := rfl
@[simp] theorem onPair_flash (s : State) (f : PairSt → PairSt) : (onPair s f).flash = s.flash := rfl
@[simp] theorem onPair_regs (s : State) (f : PairSt → PairSt) : (onPair s f).regs = s.regs := rfl
@[simp] theorem onPair_pins (s : State) (f : PairSt → PairSt) : (onPair s f).pins = s.pins := rfl
@[simp] theorem onPair_auto (s : State) (f : PairSt → PairSt) : (onPair s f).auto = s.auto := rfl
@[simp] theorem onPair_frameDone (s : State) (f : PairSt → PairSt) : (onPair s f).frameDone = s.frameDone := rfl
@[simp] theorem onPair_epochDone (s : State) (f : PairSt → PairSt) : (onPair s f).epochDone = s.epochDone := rfl
@[simp] theorem onPair_fresh (s : State) (f : PairSt → PairSt) : (onPair s f).fresh = s.fresh := rfl
/-! onMir changes mir alone. -/
@[simp] theorem onMir_pending (s : State) (f : MirSt → MirSt) : (onMir s f).pending = s.pending := rfl
@[simp] theorem onMir_sfp (s : State) (f : MirSt → MirSt) : (onMir s f).sfp = s.sfp := rfl
@[simp] theorem onMir_phase (s : State) (f : MirSt → MirSt) : (onMir s f).phase = s.phase := rfl
@[simp] theorem onMir_pwr (s : State) (f : MirSt → MirSt) : (onMir s f).pwr = s.pwr := rfl
@[simp] theorem onMir_thy (s : State) (f : MirSt → MirSt) : (onMir s f).thy = s.thy := rfl
@[simp] theorem onMir_com (s : State) (f : MirSt → MirSt) : (onMir s f).com = s.com := rfl
@[simp] theorem onMir_ports (s : State) (f : MirSt → MirSt) : (onMir s f).ports = s.ports := rfl
@[simp] theorem onMir_chks (s : State) (f : MirSt → MirSt) : (onMir s f).chks = s.chks := rfl
@[simp] theorem onMir_map (s : State) (f : MirSt → MirSt) : (onMir s f).map = s.map := rfl
@[simp] theorem onMir_grps (s : State) (f : MirSt → MirSt) : (onMir s f).grps = s.grps := rfl
@[simp] theorem onMir_pair (s : State) (f : MirSt → MirSt) : (onMir s f).pair = s.pair := rfl
@[simp] theorem onMir_mir (s : State) (f : MirSt → MirSt) : (onMir s f).mir = f s.mir := rfl
@[simp] theorem onMir_vcp (s : State) (f : MirSt → MirSt) : (onMir s f).vcp = s.vcp := rfl
@[simp] theorem onMir_mgA (s : State) (f : MirSt → MirSt) : (onMir s f).mgA = s.mgA := rfl
@[simp] theorem onMir_mgB (s : State) (f : MirSt → MirSt) : (onMir s f).mgB = s.mgB := rfl
@[simp] theorem onMir_mgSh (s : State) (f : MirSt → MirSt) : (onMir s f).mgSh = s.mgSh := rfl
@[simp] theorem onMir_sage (s : State) (f : MirSt → MirSt) : (onMir s f).sage = s.sage := rfl
@[simp] theorem onMir_mem (s : State) (f : MirSt → MirSt) : (onMir s f).mem = s.mem := rfl
@[simp] theorem onMir_seq (s : State) (f : MirSt → MirSt) : (onMir s f).seq = s.seq := rfl
@[simp] theorem onMir_flash (s : State) (f : MirSt → MirSt) : (onMir s f).flash = s.flash := rfl
@[simp] theorem onMir_regs (s : State) (f : MirSt → MirSt) : (onMir s f).regs = s.regs := rfl
@[simp] theorem onMir_pins (s : State) (f : MirSt → MirSt) : (onMir s f).pins = s.pins := rfl
@[simp] theorem onMir_auto (s : State) (f : MirSt → MirSt) : (onMir s f).auto = s.auto := rfl
@[simp] theorem onMir_frameDone (s : State) (f : MirSt → MirSt) : (onMir s f).frameDone = s.frameDone := rfl
@[simp] theorem onMir_epochDone (s : State) (f : MirSt → MirSt) : (onMir s f).epochDone = s.epochDone := rfl
@[simp] theorem onMir_fresh (s : State) (f : MirSt → MirSt) : (onMir s f).fresh = s.fresh := rfl
/-! onVcp changes vcp alone. -/
@[simp] theorem onVcp_pending (s : State) (f : VcpSt → VcpSt) : (onVcp s f).pending = s.pending := rfl
@[simp] theorem onVcp_sfp (s : State) (f : VcpSt → VcpSt) : (onVcp s f).sfp = s.sfp := rfl
@[simp] theorem onVcp_phase (s : State) (f : VcpSt → VcpSt) : (onVcp s f).phase = s.phase := rfl
@[simp] theorem onVcp_pwr (s : State) (f : VcpSt → VcpSt) : (onVcp s f).pwr = s.pwr := rfl
@[simp] theorem onVcp_thy (s : State) (f : VcpSt → VcpSt) : (onVcp s f).thy = s.thy := rfl
@[simp] theorem onVcp_com (s : State) (f : VcpSt → VcpSt) : (onVcp s f).com = s.com := rfl
@[simp] theorem onVcp_ports (s : State) (f : VcpSt → VcpSt) : (onVcp s f).ports = s.ports := rfl
@[simp] theorem onVcp_chks (s : State) (f : VcpSt → VcpSt) : (onVcp s f).chks = s.chks := rfl
@[simp] theorem onVcp_map (s : State) (f : VcpSt → VcpSt) : (onVcp s f).map = s.map := rfl
@[simp] theorem onVcp_grps (s : State) (f : VcpSt → VcpSt) : (onVcp s f).grps = s.grps := rfl
@[simp] theorem onVcp_pair (s : State) (f : VcpSt → VcpSt) : (onVcp s f).pair = s.pair := rfl
@[simp] theorem onVcp_mir (s : State) (f : VcpSt → VcpSt) : (onVcp s f).mir = s.mir := rfl
@[simp] theorem onVcp_vcp (s : State) (f : VcpSt → VcpSt) : (onVcp s f).vcp = f s.vcp := rfl
@[simp] theorem onVcp_mgA (s : State) (f : VcpSt → VcpSt) : (onVcp s f).mgA = s.mgA := rfl
@[simp] theorem onVcp_mgB (s : State) (f : VcpSt → VcpSt) : (onVcp s f).mgB = s.mgB := rfl
@[simp] theorem onVcp_mgSh (s : State) (f : VcpSt → VcpSt) : (onVcp s f).mgSh = s.mgSh := rfl
@[simp] theorem onVcp_sage (s : State) (f : VcpSt → VcpSt) : (onVcp s f).sage = s.sage := rfl
@[simp] theorem onVcp_mem (s : State) (f : VcpSt → VcpSt) : (onVcp s f).mem = s.mem := rfl
@[simp] theorem onVcp_seq (s : State) (f : VcpSt → VcpSt) : (onVcp s f).seq = s.seq := rfl
@[simp] theorem onVcp_flash (s : State) (f : VcpSt → VcpSt) : (onVcp s f).flash = s.flash := rfl
@[simp] theorem onVcp_regs (s : State) (f : VcpSt → VcpSt) : (onVcp s f).regs = s.regs := rfl
@[simp] theorem onVcp_pins (s : State) (f : VcpSt → VcpSt) : (onVcp s f).pins = s.pins := rfl
@[simp] theorem onVcp_auto (s : State) (f : VcpSt → VcpSt) : (onVcp s f).auto = s.auto := rfl
@[simp] theorem onVcp_frameDone (s : State) (f : VcpSt → VcpSt) : (onVcp s f).frameDone = s.frameDone := rfl
@[simp] theorem onVcp_epochDone (s : State) (f : VcpSt → VcpSt) : (onVcp s f).epochDone = s.epochDone := rfl
@[simp] theorem onVcp_fresh (s : State) (f : VcpSt → VcpSt) : (onVcp s f).fresh = s.fresh := rfl
/-! onSage changes sage alone. -/
@[simp] theorem onSage_pending (s : State) (f : SageSt → SageSt) : (onSage s f).pending = s.pending := rfl
@[simp] theorem onSage_sfp (s : State) (f : SageSt → SageSt) : (onSage s f).sfp = s.sfp := rfl
@[simp] theorem onSage_phase (s : State) (f : SageSt → SageSt) : (onSage s f).phase = s.phase := rfl
@[simp] theorem onSage_pwr (s : State) (f : SageSt → SageSt) : (onSage s f).pwr = s.pwr := rfl
@[simp] theorem onSage_thy (s : State) (f : SageSt → SageSt) : (onSage s f).thy = s.thy := rfl
@[simp] theorem onSage_com (s : State) (f : SageSt → SageSt) : (onSage s f).com = s.com := rfl
@[simp] theorem onSage_ports (s : State) (f : SageSt → SageSt) : (onSage s f).ports = s.ports := rfl
@[simp] theorem onSage_chks (s : State) (f : SageSt → SageSt) : (onSage s f).chks = s.chks := rfl
@[simp] theorem onSage_map (s : State) (f : SageSt → SageSt) : (onSage s f).map = s.map := rfl
@[simp] theorem onSage_grps (s : State) (f : SageSt → SageSt) : (onSage s f).grps = s.grps := rfl
@[simp] theorem onSage_pair (s : State) (f : SageSt → SageSt) : (onSage s f).pair = s.pair := rfl
@[simp] theorem onSage_mir (s : State) (f : SageSt → SageSt) : (onSage s f).mir = s.mir := rfl
@[simp] theorem onSage_vcp (s : State) (f : SageSt → SageSt) : (onSage s f).vcp = s.vcp := rfl
@[simp] theorem onSage_mgA (s : State) (f : SageSt → SageSt) : (onSage s f).mgA = s.mgA := rfl
@[simp] theorem onSage_mgB (s : State) (f : SageSt → SageSt) : (onSage s f).mgB = s.mgB := rfl
@[simp] theorem onSage_mgSh (s : State) (f : SageSt → SageSt) : (onSage s f).mgSh = s.mgSh := rfl
@[simp] theorem onSage_sage (s : State) (f : SageSt → SageSt) : (onSage s f).sage = f s.sage := rfl
@[simp] theorem onSage_mem (s : State) (f : SageSt → SageSt) : (onSage s f).mem = s.mem := rfl
@[simp] theorem onSage_seq (s : State) (f : SageSt → SageSt) : (onSage s f).seq = s.seq := rfl
@[simp] theorem onSage_flash (s : State) (f : SageSt → SageSt) : (onSage s f).flash = s.flash := rfl
@[simp] theorem onSage_regs (s : State) (f : SageSt → SageSt) : (onSage s f).regs = s.regs := rfl
@[simp] theorem onSage_pins (s : State) (f : SageSt → SageSt) : (onSage s f).pins = s.pins := rfl
@[simp] theorem onSage_auto (s : State) (f : SageSt → SageSt) : (onSage s f).auto = s.auto := rfl
@[simp] theorem onSage_frameDone (s : State) (f : SageSt → SageSt) : (onSage s f).frameDone = s.frameDone := rfl
@[simp] theorem onSage_epochDone (s : State) (f : SageSt → SageSt) : (onSage s f).epochDone = s.epochDone := rfl
@[simp] theorem onSage_fresh (s : State) (f : SageSt → SageSt) : (onSage s f).fresh = s.fresh := rfl
/-! onMap changes map alone. -/
@[simp] theorem onMap_pending (s : State) (f : MapSt → MapSt) : (onMap s f).pending = s.pending := rfl
@[simp] theorem onMap_sfp (s : State) (f : MapSt → MapSt) : (onMap s f).sfp = s.sfp := rfl
@[simp] theorem onMap_phase (s : State) (f : MapSt → MapSt) : (onMap s f).phase = s.phase := rfl
@[simp] theorem onMap_pwr (s : State) (f : MapSt → MapSt) : (onMap s f).pwr = s.pwr := rfl
@[simp] theorem onMap_thy (s : State) (f : MapSt → MapSt) : (onMap s f).thy = s.thy := rfl
@[simp] theorem onMap_com (s : State) (f : MapSt → MapSt) : (onMap s f).com = s.com := rfl
@[simp] theorem onMap_ports (s : State) (f : MapSt → MapSt) : (onMap s f).ports = s.ports := rfl
@[simp] theorem onMap_chks (s : State) (f : MapSt → MapSt) : (onMap s f).chks = s.chks := rfl
@[simp] theorem onMap_map (s : State) (f : MapSt → MapSt) : (onMap s f).map = f s.map := rfl
@[simp] theorem onMap_grps (s : State) (f : MapSt → MapSt) : (onMap s f).grps = s.grps := rfl
@[simp] theorem onMap_pair (s : State) (f : MapSt → MapSt) : (onMap s f).pair = s.pair := rfl
@[simp] theorem onMap_mir (s : State) (f : MapSt → MapSt) : (onMap s f).mir = s.mir := rfl
@[simp] theorem onMap_vcp (s : State) (f : MapSt → MapSt) : (onMap s f).vcp = s.vcp := rfl
@[simp] theorem onMap_mgA (s : State) (f : MapSt → MapSt) : (onMap s f).mgA = s.mgA := rfl
@[simp] theorem onMap_mgB (s : State) (f : MapSt → MapSt) : (onMap s f).mgB = s.mgB := rfl
@[simp] theorem onMap_mgSh (s : State) (f : MapSt → MapSt) : (onMap s f).mgSh = s.mgSh := rfl
@[simp] theorem onMap_sage (s : State) (f : MapSt → MapSt) : (onMap s f).sage = s.sage := rfl
@[simp] theorem onMap_mem (s : State) (f : MapSt → MapSt) : (onMap s f).mem = s.mem := rfl
@[simp] theorem onMap_seq (s : State) (f : MapSt → MapSt) : (onMap s f).seq = s.seq := rfl
@[simp] theorem onMap_flash (s : State) (f : MapSt → MapSt) : (onMap s f).flash = s.flash := rfl
@[simp] theorem onMap_regs (s : State) (f : MapSt → MapSt) : (onMap s f).regs = s.regs := rfl
@[simp] theorem onMap_pins (s : State) (f : MapSt → MapSt) : (onMap s f).pins = s.pins := rfl
@[simp] theorem onMap_auto (s : State) (f : MapSt → MapSt) : (onMap s f).auto = s.auto := rfl
@[simp] theorem onMap_frameDone (s : State) (f : MapSt → MapSt) : (onMap s f).frameDone = s.frameDone := rfl
@[simp] theorem onMap_epochDone (s : State) (f : MapSt → MapSt) : (onMap s f).epochDone = s.epochDone := rfl
@[simp] theorem onMap_fresh (s : State) (f : MapSt → MapSt) : (onMap s f).fresh = s.fresh := rfl
/-! onMem changes mem alone. -/
@[simp] theorem onMem_pending (s : State) (f : MemSt → MemSt) : (onMem s f).pending = s.pending := rfl
@[simp] theorem onMem_sfp (s : State) (f : MemSt → MemSt) : (onMem s f).sfp = s.sfp := rfl
@[simp] theorem onMem_phase (s : State) (f : MemSt → MemSt) : (onMem s f).phase = s.phase := rfl
@[simp] theorem onMem_pwr (s : State) (f : MemSt → MemSt) : (onMem s f).pwr = s.pwr := rfl
@[simp] theorem onMem_thy (s : State) (f : MemSt → MemSt) : (onMem s f).thy = s.thy := rfl
@[simp] theorem onMem_com (s : State) (f : MemSt → MemSt) : (onMem s f).com = s.com := rfl
@[simp] theorem onMem_ports (s : State) (f : MemSt → MemSt) : (onMem s f).ports = s.ports := rfl
@[simp] theorem onMem_chks (s : State) (f : MemSt → MemSt) : (onMem s f).chks = s.chks := rfl
@[simp] theorem onMem_map (s : State) (f : MemSt → MemSt) : (onMem s f).map = s.map := rfl
@[simp] theorem onMem_grps (s : State) (f : MemSt → MemSt) : (onMem s f).grps = s.grps := rfl
@[simp] theorem onMem_pair (s : State) (f : MemSt → MemSt) : (onMem s f).pair = s.pair := rfl
@[simp] theorem onMem_mir (s : State) (f : MemSt → MemSt) : (onMem s f).mir = s.mir := rfl
@[simp] theorem onMem_vcp (s : State) (f : MemSt → MemSt) : (onMem s f).vcp = s.vcp := rfl
@[simp] theorem onMem_mgA (s : State) (f : MemSt → MemSt) : (onMem s f).mgA = s.mgA := rfl
@[simp] theorem onMem_mgB (s : State) (f : MemSt → MemSt) : (onMem s f).mgB = s.mgB := rfl
@[simp] theorem onMem_mgSh (s : State) (f : MemSt → MemSt) : (onMem s f).mgSh = s.mgSh := rfl
@[simp] theorem onMem_sage (s : State) (f : MemSt → MemSt) : (onMem s f).sage = s.sage := rfl
@[simp] theorem onMem_mem (s : State) (f : MemSt → MemSt) : (onMem s f).mem = f s.mem := rfl
@[simp] theorem onMem_seq (s : State) (f : MemSt → MemSt) : (onMem s f).seq = s.seq := rfl
@[simp] theorem onMem_flash (s : State) (f : MemSt → MemSt) : (onMem s f).flash = s.flash := rfl
@[simp] theorem onMem_regs (s : State) (f : MemSt → MemSt) : (onMem s f).regs = s.regs := rfl
@[simp] theorem onMem_pins (s : State) (f : MemSt → MemSt) : (onMem s f).pins = s.pins := rfl
@[simp] theorem onMem_auto (s : State) (f : MemSt → MemSt) : (onMem s f).auto = s.auto := rfl
@[simp] theorem onMem_frameDone (s : State) (f : MemSt → MemSt) : (onMem s f).frameDone = s.frameDone := rfl
@[simp] theorem onMem_epochDone (s : State) (f : MemSt → MemSt) : (onMem s f).epochDone = s.epochDone := rfl
@[simp] theorem onMem_fresh (s : State) (f : MemSt → MemSt) : (onMem s f).fresh = s.fresh := rfl
/-! onSeq changes seq alone. -/
@[simp] theorem onSeq_pending (s : State) (f : SeqSt → SeqSt) : (onSeq s f).pending = s.pending := rfl
@[simp] theorem onSeq_sfp (s : State) (f : SeqSt → SeqSt) : (onSeq s f).sfp = s.sfp := rfl
@[simp] theorem onSeq_phase (s : State) (f : SeqSt → SeqSt) : (onSeq s f).phase = s.phase := rfl
@[simp] theorem onSeq_pwr (s : State) (f : SeqSt → SeqSt) : (onSeq s f).pwr = s.pwr := rfl
@[simp] theorem onSeq_thy (s : State) (f : SeqSt → SeqSt) : (onSeq s f).thy = s.thy := rfl
@[simp] theorem onSeq_com (s : State) (f : SeqSt → SeqSt) : (onSeq s f).com = s.com := rfl
@[simp] theorem onSeq_ports (s : State) (f : SeqSt → SeqSt) : (onSeq s f).ports = s.ports := rfl
@[simp] theorem onSeq_chks (s : State) (f : SeqSt → SeqSt) : (onSeq s f).chks = s.chks := rfl
@[simp] theorem onSeq_map (s : State) (f : SeqSt → SeqSt) : (onSeq s f).map = s.map := rfl
@[simp] theorem onSeq_grps (s : State) (f : SeqSt → SeqSt) : (onSeq s f).grps = s.grps := rfl
@[simp] theorem onSeq_pair (s : State) (f : SeqSt → SeqSt) : (onSeq s f).pair = s.pair := rfl
@[simp] theorem onSeq_mir (s : State) (f : SeqSt → SeqSt) : (onSeq s f).mir = s.mir := rfl
@[simp] theorem onSeq_vcp (s : State) (f : SeqSt → SeqSt) : (onSeq s f).vcp = s.vcp := rfl
@[simp] theorem onSeq_mgA (s : State) (f : SeqSt → SeqSt) : (onSeq s f).mgA = s.mgA := rfl
@[simp] theorem onSeq_mgB (s : State) (f : SeqSt → SeqSt) : (onSeq s f).mgB = s.mgB := rfl
@[simp] theorem onSeq_mgSh (s : State) (f : SeqSt → SeqSt) : (onSeq s f).mgSh = s.mgSh := rfl
@[simp] theorem onSeq_sage (s : State) (f : SeqSt → SeqSt) : (onSeq s f).sage = s.sage := rfl
@[simp] theorem onSeq_mem (s : State) (f : SeqSt → SeqSt) : (onSeq s f).mem = s.mem := rfl
@[simp] theorem onSeq_seq (s : State) (f : SeqSt → SeqSt) : (onSeq s f).seq = f s.seq := rfl
@[simp] theorem onSeq_flash (s : State) (f : SeqSt → SeqSt) : (onSeq s f).flash = s.flash := rfl
@[simp] theorem onSeq_regs (s : State) (f : SeqSt → SeqSt) : (onSeq s f).regs = s.regs := rfl
@[simp] theorem onSeq_pins (s : State) (f : SeqSt → SeqSt) : (onSeq s f).pins = s.pins := rfl
@[simp] theorem onSeq_auto (s : State) (f : SeqSt → SeqSt) : (onSeq s f).auto = s.auto := rfl
@[simp] theorem onSeq_frameDone (s : State) (f : SeqSt → SeqSt) : (onSeq s f).frameDone = s.frameDone := rfl
@[simp] theorem onSeq_epochDone (s : State) (f : SeqSt → SeqSt) : (onSeq s f).epochDone = s.epochDone := rfl
@[simp] theorem onSeq_fresh (s : State) (f : SeqSt → SeqSt) : (onSeq s f).fresh = s.fresh := rfl
/-! onFlash changes flash alone. -/
@[simp] theorem onFlash_pending (s : State) (f : FlashSt → FlashSt) : (onFlash s f).pending = s.pending := rfl
@[simp] theorem onFlash_sfp (s : State) (f : FlashSt → FlashSt) : (onFlash s f).sfp = s.sfp := rfl
@[simp] theorem onFlash_phase (s : State) (f : FlashSt → FlashSt) : (onFlash s f).phase = s.phase := rfl
@[simp] theorem onFlash_pwr (s : State) (f : FlashSt → FlashSt) : (onFlash s f).pwr = s.pwr := rfl
@[simp] theorem onFlash_thy (s : State) (f : FlashSt → FlashSt) : (onFlash s f).thy = s.thy := rfl
@[simp] theorem onFlash_com (s : State) (f : FlashSt → FlashSt) : (onFlash s f).com = s.com := rfl
@[simp] theorem onFlash_ports (s : State) (f : FlashSt → FlashSt) : (onFlash s f).ports = s.ports := rfl
@[simp] theorem onFlash_chks (s : State) (f : FlashSt → FlashSt) : (onFlash s f).chks = s.chks := rfl
@[simp] theorem onFlash_map (s : State) (f : FlashSt → FlashSt) : (onFlash s f).map = s.map := rfl
@[simp] theorem onFlash_grps (s : State) (f : FlashSt → FlashSt) : (onFlash s f).grps = s.grps := rfl
@[simp] theorem onFlash_pair (s : State) (f : FlashSt → FlashSt) : (onFlash s f).pair = s.pair := rfl
@[simp] theorem onFlash_mir (s : State) (f : FlashSt → FlashSt) : (onFlash s f).mir = s.mir := rfl
@[simp] theorem onFlash_vcp (s : State) (f : FlashSt → FlashSt) : (onFlash s f).vcp = s.vcp := rfl
@[simp] theorem onFlash_mgA (s : State) (f : FlashSt → FlashSt) : (onFlash s f).mgA = s.mgA := rfl
@[simp] theorem onFlash_mgB (s : State) (f : FlashSt → FlashSt) : (onFlash s f).mgB = s.mgB := rfl
@[simp] theorem onFlash_mgSh (s : State) (f : FlashSt → FlashSt) : (onFlash s f).mgSh = s.mgSh := rfl
@[simp] theorem onFlash_sage (s : State) (f : FlashSt → FlashSt) : (onFlash s f).sage = s.sage := rfl
@[simp] theorem onFlash_mem (s : State) (f : FlashSt → FlashSt) : (onFlash s f).mem = s.mem := rfl
@[simp] theorem onFlash_seq (s : State) (f : FlashSt → FlashSt) : (onFlash s f).seq = s.seq := rfl
@[simp] theorem onFlash_flash (s : State) (f : FlashSt → FlashSt) : (onFlash s f).flash = f s.flash := rfl
@[simp] theorem onFlash_regs (s : State) (f : FlashSt → FlashSt) : (onFlash s f).regs = s.regs := rfl
@[simp] theorem onFlash_pins (s : State) (f : FlashSt → FlashSt) : (onFlash s f).pins = s.pins := rfl
@[simp] theorem onFlash_auto (s : State) (f : FlashSt → FlashSt) : (onFlash s f).auto = s.auto := rfl
@[simp] theorem onFlash_frameDone (s : State) (f : FlashSt → FlashSt) : (onFlash s f).frameDone = s.frameDone := rfl
@[simp] theorem onFlash_epochDone (s : State) (f : FlashSt → FlashSt) : (onFlash s f).epochDone = s.epochDone := rfl
@[simp] theorem onFlash_fresh (s : State) (f : FlashSt → FlashSt) : (onFlash s f).fresh = s.fresh := rfl
/-! onRegs changes regs alone. -/
@[simp] theorem onRegs_pending (s : State) (f : RegSt → RegSt) : (onRegs s f).pending = s.pending := rfl
@[simp] theorem onRegs_sfp (s : State) (f : RegSt → RegSt) : (onRegs s f).sfp = s.sfp := rfl
@[simp] theorem onRegs_phase (s : State) (f : RegSt → RegSt) : (onRegs s f).phase = s.phase := rfl
@[simp] theorem onRegs_pwr (s : State) (f : RegSt → RegSt) : (onRegs s f).pwr = s.pwr := rfl
@[simp] theorem onRegs_thy (s : State) (f : RegSt → RegSt) : (onRegs s f).thy = s.thy := rfl
@[simp] theorem onRegs_com (s : State) (f : RegSt → RegSt) : (onRegs s f).com = s.com := rfl
@[simp] theorem onRegs_ports (s : State) (f : RegSt → RegSt) : (onRegs s f).ports = s.ports := rfl
@[simp] theorem onRegs_chks (s : State) (f : RegSt → RegSt) : (onRegs s f).chks = s.chks := rfl
@[simp] theorem onRegs_map (s : State) (f : RegSt → RegSt) : (onRegs s f).map = s.map := rfl
@[simp] theorem onRegs_grps (s : State) (f : RegSt → RegSt) : (onRegs s f).grps = s.grps := rfl
@[simp] theorem onRegs_pair (s : State) (f : RegSt → RegSt) : (onRegs s f).pair = s.pair := rfl
@[simp] theorem onRegs_mir (s : State) (f : RegSt → RegSt) : (onRegs s f).mir = s.mir := rfl
@[simp] theorem onRegs_vcp (s : State) (f : RegSt → RegSt) : (onRegs s f).vcp = s.vcp := rfl
@[simp] theorem onRegs_mgA (s : State) (f : RegSt → RegSt) : (onRegs s f).mgA = s.mgA := rfl
@[simp] theorem onRegs_mgB (s : State) (f : RegSt → RegSt) : (onRegs s f).mgB = s.mgB := rfl
@[simp] theorem onRegs_mgSh (s : State) (f : RegSt → RegSt) : (onRegs s f).mgSh = s.mgSh := rfl
@[simp] theorem onRegs_sage (s : State) (f : RegSt → RegSt) : (onRegs s f).sage = s.sage := rfl
@[simp] theorem onRegs_mem (s : State) (f : RegSt → RegSt) : (onRegs s f).mem = s.mem := rfl
@[simp] theorem onRegs_seq (s : State) (f : RegSt → RegSt) : (onRegs s f).seq = s.seq := rfl
@[simp] theorem onRegs_flash (s : State) (f : RegSt → RegSt) : (onRegs s f).flash = s.flash := rfl
@[simp] theorem onRegs_regs (s : State) (f : RegSt → RegSt) : (onRegs s f).regs = f s.regs := rfl
@[simp] theorem onRegs_pins (s : State) (f : RegSt → RegSt) : (onRegs s f).pins = s.pins := rfl
@[simp] theorem onRegs_auto (s : State) (f : RegSt → RegSt) : (onRegs s f).auto = s.auto := rfl
@[simp] theorem onRegs_frameDone (s : State) (f : RegSt → RegSt) : (onRegs s f).frameDone = s.frameDone := rfl
@[simp] theorem onRegs_epochDone (s : State) (f : RegSt → RegSt) : (onRegs s f).epochDone = s.epochDone := rfl
@[simp] theorem onRegs_fresh (s : State) (f : RegSt → RegSt) : (onRegs s f).fresh = s.fresh := rfl
/-! onPins changes pins alone. -/
@[simp] theorem onPins_pending (s : State) (f : PinSt → PinSt) : (onPins s f).pending = s.pending := rfl
@[simp] theorem onPins_sfp (s : State) (f : PinSt → PinSt) : (onPins s f).sfp = s.sfp := rfl
@[simp] theorem onPins_phase (s : State) (f : PinSt → PinSt) : (onPins s f).phase = s.phase := rfl
@[simp] theorem onPins_pwr (s : State) (f : PinSt → PinSt) : (onPins s f).pwr = s.pwr := rfl
@[simp] theorem onPins_thy (s : State) (f : PinSt → PinSt) : (onPins s f).thy = s.thy := rfl
@[simp] theorem onPins_com (s : State) (f : PinSt → PinSt) : (onPins s f).com = s.com := rfl
@[simp] theorem onPins_ports (s : State) (f : PinSt → PinSt) : (onPins s f).ports = s.ports := rfl
@[simp] theorem onPins_chks (s : State) (f : PinSt → PinSt) : (onPins s f).chks = s.chks := rfl
@[simp] theorem onPins_map (s : State) (f : PinSt → PinSt) : (onPins s f).map = s.map := rfl
@[simp] theorem onPins_grps (s : State) (f : PinSt → PinSt) : (onPins s f).grps = s.grps := rfl
@[simp] theorem onPins_pair (s : State) (f : PinSt → PinSt) : (onPins s f).pair = s.pair := rfl
@[simp] theorem onPins_mir (s : State) (f : PinSt → PinSt) : (onPins s f).mir = s.mir := rfl
@[simp] theorem onPins_vcp (s : State) (f : PinSt → PinSt) : (onPins s f).vcp = s.vcp := rfl
@[simp] theorem onPins_mgA (s : State) (f : PinSt → PinSt) : (onPins s f).mgA = s.mgA := rfl
@[simp] theorem onPins_mgB (s : State) (f : PinSt → PinSt) : (onPins s f).mgB = s.mgB := rfl
@[simp] theorem onPins_mgSh (s : State) (f : PinSt → PinSt) : (onPins s f).mgSh = s.mgSh := rfl
@[simp] theorem onPins_sage (s : State) (f : PinSt → PinSt) : (onPins s f).sage = s.sage := rfl
@[simp] theorem onPins_mem (s : State) (f : PinSt → PinSt) : (onPins s f).mem = s.mem := rfl
@[simp] theorem onPins_seq (s : State) (f : PinSt → PinSt) : (onPins s f).seq = s.seq := rfl
@[simp] theorem onPins_flash (s : State) (f : PinSt → PinSt) : (onPins s f).flash = s.flash := rfl
@[simp] theorem onPins_regs (s : State) (f : PinSt → PinSt) : (onPins s f).regs = s.regs := rfl
@[simp] theorem onPins_pins (s : State) (f : PinSt → PinSt) : (onPins s f).pins = f s.pins := rfl
@[simp] theorem onPins_auto (s : State) (f : PinSt → PinSt) : (onPins s f).auto = s.auto := rfl
@[simp] theorem onPins_frameDone (s : State) (f : PinSt → PinSt) : (onPins s f).frameDone = s.frameDone := rfl
@[simp] theorem onPins_epochDone (s : State) (f : PinSt → PinSt) : (onPins s f).epochDone = s.epochDone := rfl
@[simp] theorem onPins_fresh (s : State) (f : PinSt → PinSt) : (onPins s f).fresh = s.fresh := rfl
/-! onAuto changes auto alone. -/
@[simp] theorem onAuto_pending (s : State) (f : AutoSt → AutoSt) : (onAuto s f).pending = s.pending := rfl
@[simp] theorem onAuto_sfp (s : State) (f : AutoSt → AutoSt) : (onAuto s f).sfp = s.sfp := rfl
@[simp] theorem onAuto_phase (s : State) (f : AutoSt → AutoSt) : (onAuto s f).phase = s.phase := rfl
@[simp] theorem onAuto_pwr (s : State) (f : AutoSt → AutoSt) : (onAuto s f).pwr = s.pwr := rfl
@[simp] theorem onAuto_thy (s : State) (f : AutoSt → AutoSt) : (onAuto s f).thy = s.thy := rfl
@[simp] theorem onAuto_com (s : State) (f : AutoSt → AutoSt) : (onAuto s f).com = s.com := rfl
@[simp] theorem onAuto_ports (s : State) (f : AutoSt → AutoSt) : (onAuto s f).ports = s.ports := rfl
@[simp] theorem onAuto_chks (s : State) (f : AutoSt → AutoSt) : (onAuto s f).chks = s.chks := rfl
@[simp] theorem onAuto_map (s : State) (f : AutoSt → AutoSt) : (onAuto s f).map = s.map := rfl
@[simp] theorem onAuto_grps (s : State) (f : AutoSt → AutoSt) : (onAuto s f).grps = s.grps := rfl
@[simp] theorem onAuto_pair (s : State) (f : AutoSt → AutoSt) : (onAuto s f).pair = s.pair := rfl
@[simp] theorem onAuto_mir (s : State) (f : AutoSt → AutoSt) : (onAuto s f).mir = s.mir := rfl
@[simp] theorem onAuto_vcp (s : State) (f : AutoSt → AutoSt) : (onAuto s f).vcp = s.vcp := rfl
@[simp] theorem onAuto_mgA (s : State) (f : AutoSt → AutoSt) : (onAuto s f).mgA = s.mgA := rfl
@[simp] theorem onAuto_mgB (s : State) (f : AutoSt → AutoSt) : (onAuto s f).mgB = s.mgB := rfl
@[simp] theorem onAuto_mgSh (s : State) (f : AutoSt → AutoSt) : (onAuto s f).mgSh = s.mgSh := rfl
@[simp] theorem onAuto_sage (s : State) (f : AutoSt → AutoSt) : (onAuto s f).sage = s.sage := rfl
@[simp] theorem onAuto_mem (s : State) (f : AutoSt → AutoSt) : (onAuto s f).mem = s.mem := rfl
@[simp] theorem onAuto_seq (s : State) (f : AutoSt → AutoSt) : (onAuto s f).seq = s.seq := rfl
@[simp] theorem onAuto_flash (s : State) (f : AutoSt → AutoSt) : (onAuto s f).flash = s.flash := rfl
@[simp] theorem onAuto_regs (s : State) (f : AutoSt → AutoSt) : (onAuto s f).regs = s.regs := rfl
@[simp] theorem onAuto_pins (s : State) (f : AutoSt → AutoSt) : (onAuto s f).pins = s.pins := rfl
@[simp] theorem onAuto_auto (s : State) (f : AutoSt → AutoSt) : (onAuto s f).auto = f s.auto := rfl
@[simp] theorem onAuto_frameDone (s : State) (f : AutoSt → AutoSt) : (onAuto s f).frameDone = s.frameDone := rfl
@[simp] theorem onAuto_epochDone (s : State) (f : AutoSt → AutoSt) : (onAuto s f).epochDone = s.epochDone := rfl
@[simp] theorem onAuto_fresh (s : State) (f : AutoSt → AutoSt) : (onAuto s f).fresh = s.fresh := rfl
/-! onMgSh changes mgSh alone. -/
@[simp] theorem onMgSh_pending (s : State) (f : MgShSt → MgShSt) : (onMgSh s f).pending = s.pending := rfl
@[simp] theorem onMgSh_sfp (s : State) (f : MgShSt → MgShSt) : (onMgSh s f).sfp = s.sfp := rfl
@[simp] theorem onMgSh_phase (s : State) (f : MgShSt → MgShSt) : (onMgSh s f).phase = s.phase := rfl
@[simp] theorem onMgSh_pwr (s : State) (f : MgShSt → MgShSt) : (onMgSh s f).pwr = s.pwr := rfl
@[simp] theorem onMgSh_thy (s : State) (f : MgShSt → MgShSt) : (onMgSh s f).thy = s.thy := rfl
@[simp] theorem onMgSh_com (s : State) (f : MgShSt → MgShSt) : (onMgSh s f).com = s.com := rfl
@[simp] theorem onMgSh_ports (s : State) (f : MgShSt → MgShSt) : (onMgSh s f).ports = s.ports := rfl
@[simp] theorem onMgSh_chks (s : State) (f : MgShSt → MgShSt) : (onMgSh s f).chks = s.chks := rfl
@[simp] theorem onMgSh_map (s : State) (f : MgShSt → MgShSt) : (onMgSh s f).map = s.map := rfl
@[simp] theorem onMgSh_grps (s : State) (f : MgShSt → MgShSt) : (onMgSh s f).grps = s.grps := rfl
@[simp] theorem onMgSh_pair (s : State) (f : MgShSt → MgShSt) : (onMgSh s f).pair = s.pair := rfl
@[simp] theorem onMgSh_mir (s : State) (f : MgShSt → MgShSt) : (onMgSh s f).mir = s.mir := rfl
@[simp] theorem onMgSh_vcp (s : State) (f : MgShSt → MgShSt) : (onMgSh s f).vcp = s.vcp := rfl
@[simp] theorem onMgSh_mgA (s : State) (f : MgShSt → MgShSt) : (onMgSh s f).mgA = s.mgA := rfl
@[simp] theorem onMgSh_mgB (s : State) (f : MgShSt → MgShSt) : (onMgSh s f).mgB = s.mgB := rfl
@[simp] theorem onMgSh_mgSh (s : State) (f : MgShSt → MgShSt) : (onMgSh s f).mgSh = f s.mgSh := rfl
@[simp] theorem onMgSh_sage (s : State) (f : MgShSt → MgShSt) : (onMgSh s f).sage = s.sage := rfl
@[simp] theorem onMgSh_mem (s : State) (f : MgShSt → MgShSt) : (onMgSh s f).mem = s.mem := rfl
@[simp] theorem onMgSh_seq (s : State) (f : MgShSt → MgShSt) : (onMgSh s f).seq = s.seq := rfl
@[simp] theorem onMgSh_flash (s : State) (f : MgShSt → MgShSt) : (onMgSh s f).flash = s.flash := rfl
@[simp] theorem onMgSh_regs (s : State) (f : MgShSt → MgShSt) : (onMgSh s f).regs = s.regs := rfl
@[simp] theorem onMgSh_pins (s : State) (f : MgShSt → MgShSt) : (onMgSh s f).pins = s.pins := rfl
@[simp] theorem onMgSh_auto (s : State) (f : MgShSt → MgShSt) : (onMgSh s f).auto = s.auto := rfl
@[simp] theorem onMgSh_frameDone (s : State) (f : MgShSt → MgShSt) : (onMgSh s f).frameDone = s.frameDone := rfl
@[simp] theorem onMgSh_epochDone (s : State) (f : MgShSt → MgShSt) : (onMgSh s f).epochDone = s.epochDone := rfl
@[simp] theorem onMgSh_fresh (s : State) (f : MgShSt → MgShSt) : (onMgSh s f).fresh = s.fresh := rfl
/-! onMg changes one management port. -/
@[simp] theorem onMg_pending (s : State) (b : Bool) (f : MgSt → MgSt) : (onMg s b f).pending = s.pending := by cases b <;> rfl
@[simp] theorem onMg_sfp (s : State) (b : Bool) (f : MgSt → MgSt) : (onMg s b f).sfp = s.sfp := by cases b <;> rfl
@[simp] theorem onMg_phase (s : State) (b : Bool) (f : MgSt → MgSt) : (onMg s b f).phase = s.phase := by cases b <;> rfl
@[simp] theorem onMg_pwr (s : State) (b : Bool) (f : MgSt → MgSt) : (onMg s b f).pwr = s.pwr := by cases b <;> rfl
@[simp] theorem onMg_thy (s : State) (b : Bool) (f : MgSt → MgSt) : (onMg s b f).thy = s.thy := by cases b <;> rfl
@[simp] theorem onMg_com (s : State) (b : Bool) (f : MgSt → MgSt) : (onMg s b f).com = s.com := by cases b <;> rfl
@[simp] theorem onMg_ports (s : State) (b : Bool) (f : MgSt → MgSt) : (onMg s b f).ports = s.ports := by cases b <;> rfl
@[simp] theorem onMg_chks (s : State) (b : Bool) (f : MgSt → MgSt) : (onMg s b f).chks = s.chks := by cases b <;> rfl
@[simp] theorem onMg_map (s : State) (b : Bool) (f : MgSt → MgSt) : (onMg s b f).map = s.map := by cases b <;> rfl
@[simp] theorem onMg_grps (s : State) (b : Bool) (f : MgSt → MgSt) : (onMg s b f).grps = s.grps := by cases b <;> rfl
@[simp] theorem onMg_pair (s : State) (b : Bool) (f : MgSt → MgSt) : (onMg s b f).pair = s.pair := by cases b <;> rfl
@[simp] theorem onMg_vcp (s : State) (b : Bool) (f : MgSt → MgSt) : (onMg s b f).vcp = s.vcp := by cases b <;> rfl
@[simp] theorem onMg_mgSh (s : State) (b : Bool) (f : MgSt → MgSt) : (onMg s b f).mgSh = s.mgSh := by cases b <;> rfl
@[simp] theorem onMg_sage (s : State) (b : Bool) (f : MgSt → MgSt) : (onMg s b f).sage = s.sage := by cases b <;> rfl
@[simp] theorem onMg_mem (s : State) (b : Bool) (f : MgSt → MgSt) : (onMg s b f).mem = s.mem := by cases b <;> rfl
@[simp] theorem onMg_seq (s : State) (b : Bool) (f : MgSt → MgSt) : (onMg s b f).seq = s.seq := by cases b <;> rfl
@[simp] theorem onMg_flash (s : State) (b : Bool) (f : MgSt → MgSt) : (onMg s b f).flash = s.flash := by cases b <;> rfl
@[simp] theorem onMg_regs (s : State) (b : Bool) (f : MgSt → MgSt) : (onMg s b f).regs = s.regs := by cases b <;> rfl
@[simp] theorem onMg_pins (s : State) (b : Bool) (f : MgSt → MgSt) : (onMg s b f).pins = s.pins := by cases b <;> rfl
@[simp] theorem onMg_auto (s : State) (b : Bool) (f : MgSt → MgSt) : (onMg s b f).auto = s.auto := by cases b <;> rfl
@[simp] theorem onMg_frameDone (s : State) (b : Bool) (f : MgSt → MgSt) : (onMg s b f).frameDone = s.frameDone := by cases b <;> rfl
@[simp] theorem onMg_epochDone (s : State) (b : Bool) (f : MgSt → MgSt) : (onMg s b f).epochDone = s.epochDone := by cases b <;> rfl
@[simp] theorem onMg_fresh (s : State) (b : Bool) (f : MgSt → MgSt) : (onMg s b f).fresh = s.fresh := by cases b <;> rfl
@[simp] theorem onMg_mgOf (s : State) (b : Bool) (f : MgSt → MgSt) : mgOf (onMg s b f) b = f (mgOf s b) := by cases b <;> rfl
@[simp] theorem onMg_mgOf_other (s : State) (b : Bool) (f : MgSt → MgSt) : mgOf (onMg s b f) (!b) = mgOf s (!b) := by cases b <;> rfl
/-! count changes sage alone. -/
@[simp] theorem count_pending (s : State) (blk idx amt : Nat) : (count s blk idx amt).pending = s.pending := rfl
@[simp] theorem count_sfp (s : State) (blk idx amt : Nat) : (count s blk idx amt).sfp = s.sfp := rfl
@[simp] theorem count_phase (s : State) (blk idx amt : Nat) : (count s blk idx amt).phase = s.phase := rfl
@[simp] theorem count_pwr (s : State) (blk idx amt : Nat) : (count s blk idx amt).pwr = s.pwr := rfl
@[simp] theorem count_thy (s : State) (blk idx amt : Nat) : (count s blk idx amt).thy = s.thy := rfl
@[simp] theorem count_com (s : State) (blk idx amt : Nat) : (count s blk idx amt).com = s.com := rfl
@[simp] theorem count_ports (s : State) (blk idx amt : Nat) : (count s blk idx amt).ports = s.ports := rfl
@[simp] theorem count_chks (s : State) (blk idx amt : Nat) : (count s blk idx amt).chks = s.chks := rfl
@[simp] theorem count_map (s : State) (blk idx amt : Nat) : (count s blk idx amt).map = s.map := rfl
@[simp] theorem count_grps (s : State) (blk idx amt : Nat) : (count s blk idx amt).grps = s.grps := rfl
@[simp] theorem count_pair (s : State) (blk idx amt : Nat) : (count s blk idx amt).pair = s.pair := rfl
@[simp] theorem count_mir (s : State) (blk idx amt : Nat) : (count s blk idx amt).mir = s.mir := rfl
@[simp] theorem count_vcp (s : State) (blk idx amt : Nat) : (count s blk idx amt).vcp = s.vcp := rfl
@[simp] theorem count_mgA (s : State) (blk idx amt : Nat) : (count s blk idx amt).mgA = s.mgA := rfl
@[simp] theorem count_mgB (s : State) (blk idx amt : Nat) : (count s blk idx amt).mgB = s.mgB := rfl
@[simp] theorem count_mgSh (s : State) (blk idx amt : Nat) : (count s blk idx amt).mgSh = s.mgSh := rfl
@[simp] theorem count_mem (s : State) (blk idx amt : Nat) : (count s blk idx amt).mem = s.mem := rfl
@[simp] theorem count_seq (s : State) (blk idx amt : Nat) : (count s blk idx amt).seq = s.seq := rfl
@[simp] theorem count_flash (s : State) (blk idx amt : Nat) : (count s blk idx amt).flash = s.flash := rfl
@[simp] theorem count_regs (s : State) (blk idx amt : Nat) : (count s blk idx amt).regs = s.regs := rfl
@[simp] theorem count_pins (s : State) (blk idx amt : Nat) : (count s blk idx amt).pins = s.pins := rfl
@[simp] theorem count_auto (s : State) (blk idx amt : Nat) : (count s blk idx amt).auto = s.auto := rfl
@[simp] theorem count_frameDone (s : State) (blk idx amt : Nat) : (count s blk idx amt).frameDone = s.frameDone := rfl
@[simp] theorem count_epochDone (s : State) (blk idx amt : Nat) : (count s blk idx amt).epochDone = s.epochDone := rfl
@[simp] theorem count_fresh (s : State) (blk idx amt : Nat) : (count s blk idx amt).fresh = s.fresh := rfl
/-! sticky changes regs alone. -/
@[simp] theorem sticky_pending (s : State) (a : Nat) (m : Word) : (sticky s a m).pending = s.pending := rfl
@[simp] theorem sticky_sfp (s : State) (a : Nat) (m : Word) : (sticky s a m).sfp = s.sfp := rfl
@[simp] theorem sticky_phase (s : State) (a : Nat) (m : Word) : (sticky s a m).phase = s.phase := rfl
@[simp] theorem sticky_pwr (s : State) (a : Nat) (m : Word) : (sticky s a m).pwr = s.pwr := rfl
@[simp] theorem sticky_thy (s : State) (a : Nat) (m : Word) : (sticky s a m).thy = s.thy := rfl
@[simp] theorem sticky_com (s : State) (a : Nat) (m : Word) : (sticky s a m).com = s.com := rfl
@[simp] theorem sticky_ports (s : State) (a : Nat) (m : Word) : (sticky s a m).ports = s.ports := rfl
@[simp] theorem sticky_chks (s : State) (a : Nat) (m : Word) : (sticky s a m).chks = s.chks := rfl
@[simp] theorem sticky_map (s : State) (a : Nat) (m : Word) : (sticky s a m).map = s.map := rfl
@[simp] theorem sticky_grps (s : State) (a : Nat) (m : Word) : (sticky s a m).grps = s.grps := rfl
@[simp] theorem sticky_pair (s : State) (a : Nat) (m : Word) : (sticky s a m).pair = s.pair := rfl
@[simp] theorem sticky_mir (s : State) (a : Nat) (m : Word) : (sticky s a m).mir = s.mir := rfl
@[simp] theorem sticky_vcp (s : State) (a : Nat) (m : Word) : (sticky s a m).vcp = s.vcp := rfl
@[simp] theorem sticky_mgA (s : State) (a : Nat) (m : Word) : (sticky s a m).mgA = s.mgA := rfl
@[simp] theorem sticky_mgB (s : State) (a : Nat) (m : Word) : (sticky s a m).mgB = s.mgB := rfl
@[simp] theorem sticky_mgSh (s : State) (a : Nat) (m : Word) : (sticky s a m).mgSh = s.mgSh := rfl
@[simp] theorem sticky_sage (s : State) (a : Nat) (m : Word) : (sticky s a m).sage = s.sage := rfl
@[simp] theorem sticky_mem (s : State) (a : Nat) (m : Word) : (sticky s a m).mem = s.mem := rfl
@[simp] theorem sticky_seq (s : State) (a : Nat) (m : Word) : (sticky s a m).seq = s.seq := rfl
@[simp] theorem sticky_flash (s : State) (a : Nat) (m : Word) : (sticky s a m).flash = s.flash := rfl
@[simp] theorem sticky_pins (s : State) (a : Nat) (m : Word) : (sticky s a m).pins = s.pins := rfl
@[simp] theorem sticky_auto (s : State) (a : Nat) (m : Word) : (sticky s a m).auto = s.auto := rfl
@[simp] theorem sticky_frameDone (s : State) (a : Nat) (m : Word) : (sticky s a m).frameDone = s.frameDone := rfl
@[simp] theorem sticky_epochDone (s : State) (a : Nat) (m : Word) : (sticky s a m).epochDone = s.epochDone := rfl
@[simp] theorem sticky_fresh (s : State) (a : Nat) (m : Word) : (sticky s a m).fresh = s.fresh := rfl
/-! mirror changes mir alone. -/
@[simp] theorem mirror_pending (s : State) (m : MirrorRec) : (mirror s m).pending = s.pending := by unfold mirror; split <;> rfl
@[simp] theorem mirror_sfp (s : State) (m : MirrorRec) : (mirror s m).sfp = s.sfp := by unfold mirror; split <;> rfl
@[simp] theorem mirror_phase (s : State) (m : MirrorRec) : (mirror s m).phase = s.phase := by unfold mirror; split <;> rfl
@[simp] theorem mirror_pwr (s : State) (m : MirrorRec) : (mirror s m).pwr = s.pwr := by unfold mirror; split <;> rfl
@[simp] theorem mirror_thy (s : State) (m : MirrorRec) : (mirror s m).thy = s.thy := by unfold mirror; split <;> rfl
@[simp] theorem mirror_com (s : State) (m : MirrorRec) : (mirror s m).com = s.com := by unfold mirror; split <;> rfl
@[simp] theorem mirror_ports (s : State) (m : MirrorRec) : (mirror s m).ports = s.ports := by unfold mirror; split <;> rfl
@[simp] theorem mirror_chks (s : State) (m : MirrorRec) : (mirror s m).chks = s.chks := by unfold mirror; split <;> rfl
@[simp] theorem mirror_map (s : State) (m : MirrorRec) : (mirror s m).map = s.map := by unfold mirror; split <;> rfl
@[simp] theorem mirror_grps (s : State) (m : MirrorRec) : (mirror s m).grps = s.grps := by unfold mirror; split <;> rfl
@[simp] theorem mirror_pair (s : State) (m : MirrorRec) : (mirror s m).pair = s.pair := by unfold mirror; split <;> rfl
@[simp] theorem mirror_vcp (s : State) (m : MirrorRec) : (mirror s m).vcp = s.vcp := by unfold mirror; split <;> rfl
@[simp] theorem mirror_mgA (s : State) (m : MirrorRec) : (mirror s m).mgA = s.mgA := by unfold mirror; split <;> rfl
@[simp] theorem mirror_mgB (s : State) (m : MirrorRec) : (mirror s m).mgB = s.mgB := by unfold mirror; split <;> rfl
@[simp] theorem mirror_mgSh (s : State) (m : MirrorRec) : (mirror s m).mgSh = s.mgSh := by unfold mirror; split <;> rfl
@[simp] theorem mirror_sage (s : State) (m : MirrorRec) : (mirror s m).sage = s.sage := by unfold mirror; split <;> rfl
@[simp] theorem mirror_mem (s : State) (m : MirrorRec) : (mirror s m).mem = s.mem := by unfold mirror; split <;> rfl
@[simp] theorem mirror_seq (s : State) (m : MirrorRec) : (mirror s m).seq = s.seq := by unfold mirror; split <;> rfl
@[simp] theorem mirror_flash (s : State) (m : MirrorRec) : (mirror s m).flash = s.flash := by unfold mirror; split <;> rfl
@[simp] theorem mirror_regs (s : State) (m : MirrorRec) : (mirror s m).regs = s.regs := by unfold mirror; split <;> rfl
@[simp] theorem mirror_pins (s : State) (m : MirrorRec) : (mirror s m).pins = s.pins := by unfold mirror; split <;> rfl
@[simp] theorem mirror_auto (s : State) (m : MirrorRec) : (mirror s m).auto = s.auto := by unfold mirror; split <;> rfl
@[simp] theorem mirror_frameDone (s : State) (m : MirrorRec) : (mirror s m).frameDone = s.frameDone := by unfold mirror; split <;> rfl
@[simp] theorem mirror_epochDone (s : State) (m : MirrorRec) : (mirror s m).epochDone = s.epochDone := by unfold mirror; split <;> rfl
@[simp] theorem mirror_fresh (s : State) (m : MirrorRec) : (mirror s m).fresh = s.fresh := by unfold mirror; split <;> rfl
/-! traceRec changes sage and regs alone. -/
@[simp] theorem traceRec_pending (s : State) (r : TraceRec) : (traceRec s r).pending = s.pending := rfl
@[simp] theorem traceRec_sfp (s : State) (r : TraceRec) : (traceRec s r).sfp = s.sfp := rfl
@[simp] theorem traceRec_phase (s : State) (r : TraceRec) : (traceRec s r).phase = s.phase := rfl
@[simp] theorem traceRec_pwr (s : State) (r : TraceRec) : (traceRec s r).pwr = s.pwr := rfl
@[simp] theorem traceRec_thy (s : State) (r : TraceRec) : (traceRec s r).thy = s.thy := rfl
@[simp] theorem traceRec_com (s : State) (r : TraceRec) : (traceRec s r).com = s.com := rfl
@[simp] theorem traceRec_ports (s : State) (r : TraceRec) : (traceRec s r).ports = s.ports := rfl
@[simp] theorem traceRec_chks (s : State) (r : TraceRec) : (traceRec s r).chks = s.chks := rfl
@[simp] theorem traceRec_map (s : State) (r : TraceRec) : (traceRec s r).map = s.map := rfl
@[simp] theorem traceRec_grps (s : State) (r : TraceRec) : (traceRec s r).grps = s.grps := rfl
@[simp] theorem traceRec_pair (s : State) (r : TraceRec) : (traceRec s r).pair = s.pair := rfl
@[simp] theorem traceRec_mir (s : State) (r : TraceRec) : (traceRec s r).mir = s.mir := rfl
@[simp] theorem traceRec_vcp (s : State) (r : TraceRec) : (traceRec s r).vcp = s.vcp := rfl
@[simp] theorem traceRec_mgA (s : State) (r : TraceRec) : (traceRec s r).mgA = s.mgA := rfl
@[simp] theorem traceRec_mgB (s : State) (r : TraceRec) : (traceRec s r).mgB = s.mgB := rfl
@[simp] theorem traceRec_mgSh (s : State) (r : TraceRec) : (traceRec s r).mgSh = s.mgSh := rfl
@[simp] theorem traceRec_mem (s : State) (r : TraceRec) : (traceRec s r).mem = s.mem := rfl
@[simp] theorem traceRec_seq (s : State) (r : TraceRec) : (traceRec s r).seq = s.seq := rfl
@[simp] theorem traceRec_flash (s : State) (r : TraceRec) : (traceRec s r).flash = s.flash := rfl
@[simp] theorem traceRec_pins (s : State) (r : TraceRec) : (traceRec s r).pins = s.pins := rfl
@[simp] theorem traceRec_auto (s : State) (r : TraceRec) : (traceRec s r).auto = s.auto := rfl
@[simp] theorem traceRec_frameDone (s : State) (r : TraceRec) : (traceRec s r).frameDone = s.frameDone := rfl
@[simp] theorem traceRec_epochDone (s : State) (r : TraceRec) : (traceRec s r).epochDone = s.epochDone := rfl
@[simp] theorem traceRec_fresh (s : State) (r : TraceRec) : (traceRec s r).fresh = s.fresh := rfl
/-! trace changes sage and regs alone. -/
@[simp] theorem trace_pending (s : State) (c u o : Nat) (d : Bytes) : (trace s c u o d).pending = s.pending := rfl
@[simp] theorem trace_sfp (s : State) (c u o : Nat) (d : Bytes) : (trace s c u o d).sfp = s.sfp := rfl
@[simp] theorem trace_phase (s : State) (c u o : Nat) (d : Bytes) : (trace s c u o d).phase = s.phase := rfl
@[simp] theorem trace_pwr (s : State) (c u o : Nat) (d : Bytes) : (trace s c u o d).pwr = s.pwr := rfl
@[simp] theorem trace_thy (s : State) (c u o : Nat) (d : Bytes) : (trace s c u o d).thy = s.thy := rfl
@[simp] theorem trace_com (s : State) (c u o : Nat) (d : Bytes) : (trace s c u o d).com = s.com := rfl
@[simp] theorem trace_ports (s : State) (c u o : Nat) (d : Bytes) : (trace s c u o d).ports = s.ports := rfl
@[simp] theorem trace_chks (s : State) (c u o : Nat) (d : Bytes) : (trace s c u o d).chks = s.chks := rfl
@[simp] theorem trace_map (s : State) (c u o : Nat) (d : Bytes) : (trace s c u o d).map = s.map := rfl
@[simp] theorem trace_grps (s : State) (c u o : Nat) (d : Bytes) : (trace s c u o d).grps = s.grps := rfl
@[simp] theorem trace_pair (s : State) (c u o : Nat) (d : Bytes) : (trace s c u o d).pair = s.pair := rfl
@[simp] theorem trace_mir (s : State) (c u o : Nat) (d : Bytes) : (trace s c u o d).mir = s.mir := rfl
@[simp] theorem trace_vcp (s : State) (c u o : Nat) (d : Bytes) : (trace s c u o d).vcp = s.vcp := rfl
@[simp] theorem trace_mgA (s : State) (c u o : Nat) (d : Bytes) : (trace s c u o d).mgA = s.mgA := rfl
@[simp] theorem trace_mgB (s : State) (c u o : Nat) (d : Bytes) : (trace s c u o d).mgB = s.mgB := rfl
@[simp] theorem trace_mgSh (s : State) (c u o : Nat) (d : Bytes) : (trace s c u o d).mgSh = s.mgSh := rfl
@[simp] theorem trace_mem (s : State) (c u o : Nat) (d : Bytes) : (trace s c u o d).mem = s.mem := rfl
@[simp] theorem trace_seq (s : State) (c u o : Nat) (d : Bytes) : (trace s c u o d).seq = s.seq := rfl
@[simp] theorem trace_flash (s : State) (c u o : Nat) (d : Bytes) : (trace s c u o d).flash = s.flash := rfl
@[simp] theorem trace_pins (s : State) (c u o : Nat) (d : Bytes) : (trace s c u o d).pins = s.pins := rfl
@[simp] theorem trace_auto (s : State) (c u o : Nat) (d : Bytes) : (trace s c u o d).auto = s.auto := rfl
@[simp] theorem trace_frameDone (s : State) (c u o : Nat) (d : Bytes) : (trace s c u o d).frameDone = s.frameDone := rfl
@[simp] theorem trace_epochDone (s : State) (c u o : Nat) (d : Bytes) : (trace s c u o d).epochDone = s.epochDone := rfl
@[simp] theorem trace_fresh (s : State) (c u o : Nat) (d : Bytes) : (trace s c u o d).fresh = s.fresh := rfl
/-! traceAt changes sage and regs alone. -/
@[simp] theorem traceAt_pending (s : State) (p : Sfp) (c u o : Nat) (d : Bytes) : (traceAt s p c u o d).pending = s.pending := rfl
@[simp] theorem traceAt_sfp (s : State) (p : Sfp) (c u o : Nat) (d : Bytes) : (traceAt s p c u o d).sfp = s.sfp := rfl
@[simp] theorem traceAt_phase (s : State) (p : Sfp) (c u o : Nat) (d : Bytes) : (traceAt s p c u o d).phase = s.phase := rfl
@[simp] theorem traceAt_pwr (s : State) (p : Sfp) (c u o : Nat) (d : Bytes) : (traceAt s p c u o d).pwr = s.pwr := rfl
@[simp] theorem traceAt_thy (s : State) (p : Sfp) (c u o : Nat) (d : Bytes) : (traceAt s p c u o d).thy = s.thy := rfl
@[simp] theorem traceAt_com (s : State) (p : Sfp) (c u o : Nat) (d : Bytes) : (traceAt s p c u o d).com = s.com := rfl
@[simp] theorem traceAt_ports (s : State) (p : Sfp) (c u o : Nat) (d : Bytes) : (traceAt s p c u o d).ports = s.ports := rfl
@[simp] theorem traceAt_chks (s : State) (p : Sfp) (c u o : Nat) (d : Bytes) : (traceAt s p c u o d).chks = s.chks := rfl
@[simp] theorem traceAt_map (s : State) (p : Sfp) (c u o : Nat) (d : Bytes) : (traceAt s p c u o d).map = s.map := rfl
@[simp] theorem traceAt_grps (s : State) (p : Sfp) (c u o : Nat) (d : Bytes) : (traceAt s p c u o d).grps = s.grps := rfl
@[simp] theorem traceAt_pair (s : State) (p : Sfp) (c u o : Nat) (d : Bytes) : (traceAt s p c u o d).pair = s.pair := rfl
@[simp] theorem traceAt_mir (s : State) (p : Sfp) (c u o : Nat) (d : Bytes) : (traceAt s p c u o d).mir = s.mir := rfl
@[simp] theorem traceAt_vcp (s : State) (p : Sfp) (c u o : Nat) (d : Bytes) : (traceAt s p c u o d).vcp = s.vcp := rfl
@[simp] theorem traceAt_mgA (s : State) (p : Sfp) (c u o : Nat) (d : Bytes) : (traceAt s p c u o d).mgA = s.mgA := rfl
@[simp] theorem traceAt_mgB (s : State) (p : Sfp) (c u o : Nat) (d : Bytes) : (traceAt s p c u o d).mgB = s.mgB := rfl
@[simp] theorem traceAt_mgSh (s : State) (p : Sfp) (c u o : Nat) (d : Bytes) : (traceAt s p c u o d).mgSh = s.mgSh := rfl
@[simp] theorem traceAt_mem (s : State) (p : Sfp) (c u o : Nat) (d : Bytes) : (traceAt s p c u o d).mem = s.mem := rfl
@[simp] theorem traceAt_seq (s : State) (p : Sfp) (c u o : Nat) (d : Bytes) : (traceAt s p c u o d).seq = s.seq := rfl
@[simp] theorem traceAt_flash (s : State) (p : Sfp) (c u o : Nat) (d : Bytes) : (traceAt s p c u o d).flash = s.flash := rfl
@[simp] theorem traceAt_pins (s : State) (p : Sfp) (c u o : Nat) (d : Bytes) : (traceAt s p c u o d).pins = s.pins := rfl
@[simp] theorem traceAt_auto (s : State) (p : Sfp) (c u o : Nat) (d : Bytes) : (traceAt s p c u o d).auto = s.auto := rfl
@[simp] theorem traceAt_frameDone (s : State) (p : Sfp) (c u o : Nat) (d : Bytes) : (traceAt s p c u o d).frameDone = s.frameDone := rfl
@[simp] theorem traceAt_epochDone (s : State) (p : Sfp) (c u o : Nat) (d : Bytes) : (traceAt s p c u o d).epochDone = s.epochDone := rfl
@[simp] theorem traceAt_fresh (s : State) (p : Sfp) (c u o : Nat) (d : Bytes) : (traceAt s p c u o d).fresh = s.fresh := rfl

end Sys2Proof.Machine
end

