-- ==== Sys2Proof/Laws/Tbl.lean ====
section
/-! SUPPORT. The laws of the sparse tables: a read after a write, the canonical form, and induction over `forEach`. -/

namespace Sys2Proof.Machine

variable {α : Type}

@[simp] theorem tfind_nil (i : Nat) : tfind ([] : Tbl α) i = none := rfl
@[simp] theorem tget_nil (d : α) (i : Nat) : tget d [] i = d := rfl

/-- A stored key is found. -/
@[simp] theorem tfind_tset_same (t : Tbl α) (i : Nat) (x : α) : tfind (tset t i x) i = some x := by
  induction t with
  | nil => simp [tset, tfind]
  | cons h t ih =>
    obtain ⟨k, v⟩ := h
    simp only [tset]
    split
    · simp [tfind]
    · split
      · simp [tfind]
      · simp [tfind, *]

/-- Storing under one key leaves every other alone. -/
theorem tfind_tset_ne (t : Tbl α) {i j : Nat} (x : α) (h : j ≠ i) : tfind (tset t i x) j = tfind t j := by
  induction t with
  | nil => simp [tset, tfind, h]
  | cons a t ih =>
    obtain ⟨k, v⟩ := a
    simp only [tset]
    split
    · simp [tfind, h]
    · split
      · subst_vars; simp [tfind, h]
      · simp [tfind, ih]

/-- Removing one key leaves every other alone. -/
theorem tfind_tdel_ne (t : Tbl α) {i j : Nat} (h : j ≠ i) : tfind (tdel t i) j = tfind t j := by
  induction t with
  | nil => rfl
  | cons a t ih =>
    obtain ⟨k, v⟩ := a
    simp only [tdel]
    split
    · subst_vars; simp [tfind, h, ih]
    · simp [tfind, ih]

/-- A write elsewhere is not seen. -/
theorem tget_tput_ne [DecidableEq α] (d : α) (t : Tbl α) {i j : Nat} (x : α) (h : j ≠ i) :
    tget d (tput d t i x) j = tget d t j := by
  unfold tget tput
  split
  · rw [tfind_tdel_ne t h]
  · rw [tfind_tset_ne t x h]

/-- Every key of a table lies above a bound. -/
def keysAbove (b : Nat) (t : Tbl α) : Prop := ∀ kv ∈ t, b < kv.1

theorem tsorted_cons {a : Nat × α} {t : Tbl α} (h : tsorted (a :: t) = true) : tsorted t = true ∧ keysAbove a.1 t := by
  induction t generalizing a with
  | nil => exact ⟨rfl, by intro kv hk; cases hk⟩
  | cons b t ih =>
    obtain ⟨k, v⟩ := a
    obtain ⟨l, w⟩ := b
    simp only [tsorted, Bool.and_eq_true, decide_eq_true_eq] at h
    refine ⟨h.2, ?_⟩
    intro kv hk
    rcases List.mem_cons.mp hk with rfl | hk
    · exact h.1
    · exact Nat.lt_trans h.1 ((ih h.2).2 kv hk)

theorem tsorted_of {a : Nat × α} {t : Tbl α} (h : tsorted t = true) (g : keysAbove a.1 t) : tsorted (a :: t) = true := by
  cases t with
  | nil => rfl
  | cons b t =>
    obtain ⟨k, v⟩ := a
    obtain ⟨l, w⟩ := b
    simp only [tsorted, Bool.and_eq_true, decide_eq_true_eq]
    exact ⟨g (l, w) (by simp), h⟩

theorem keysAbove_tdel {b : Nat} {t : Tbl α} (i : Nat) (h : keysAbove b t) : keysAbove b (tdel t i) := by
  induction t with
  | nil => simpa [tdel] using h
  | cons a t ih =>
    obtain ⟨k, v⟩ := a
    have ht : keysAbove b t := fun kv hk => h kv (List.mem_cons_of_mem _ hk)
    simp only [tdel]
    split
    · exact ih ht
    · intro kv hk
      rcases List.mem_cons.mp hk with rfl | hk
      · exact h (k, v) (by simp)
      · exact ih ht kv hk

theorem keysAbove_tset {b i : Nat} {t : Tbl α} (x : α) (h : keysAbove b t) (hi : b < i) : keysAbove b (tset t i x) := by
  induction t with
  | nil => intro kv hk; simp [tset] at hk; subst hk; exact hi
  | cons a t ih =>
    obtain ⟨k, v⟩ := a
    have ht : keysAbove b t := fun kv hk => h kv (List.mem_cons_of_mem _ hk)
    simp only [tset]
    split
    · intro kv hk
      rcases List.mem_cons.mp hk with rfl | hk
      · exact hi
      · exact h kv hk
    · split
      · intro kv hk
        rcases List.mem_cons.mp hk with rfl | hk
        · exact hi
        · exact ht kv hk
      · intro kv hk
        rcases List.mem_cons.mp hk with rfl | hk
        · exact h (k, v) (by simp)
        · exact ih ht kv hk

/-- Removal keeps the keys rising. -/
theorem tsorted_tdel {t : Tbl α} (i : Nat) (h : tsorted t = true) : tsorted (tdel t i) = true := by
  induction t with
  | nil => rfl
  | cons a t ih =>
    obtain ⟨k, v⟩ := a
    obtain ⟨h1, h2⟩ := tsorted_cons h
    simp only [tdel]
    split
    · exact ih h1
    · exact tsorted_of (ih h1) (keysAbove_tdel i h2)

/-- Storing keeps the keys rising. -/
theorem tsorted_tset {t : Tbl α} (i : Nat) (x : α) (h : tsorted t = true) : tsorted (tset t i x) = true := by
  induction t with
  | nil => rfl
  | cons a t ih =>
    obtain ⟨k, v⟩ := a
    obtain ⟨h1, h2⟩ := tsorted_cons h
    simp only [tset]
    split
    · rename_i hlt
      refine tsorted_of h ?_
      intro kv hk
      rcases List.mem_cons.mp hk with rfl | hk
      · exact hlt
      · exact Nat.lt_trans hlt (h2 kv hk)
    · split
      · rename_i he; subst he; exact tsorted_of h1 h2
      · rename_i hn he
        exact tsorted_of (ih h1) (keysAbove_tset x h2 (by simp; omega))

/-- A removed key is gone. -/
@[simp] theorem tfind_tdel_same (t : Tbl α) (i : Nat) : tfind (tdel t i) i = none := by
  induction t with
  | nil => rfl
  | cons a t ih =>
    obtain ⟨k, v⟩ := a
    simp only [tdel]
    split
    · exact ih
    · rename_i hne; simp [tfind, hne, ih]

/-- A read after a write of the same key. -/
@[simp] theorem tget_tput_same [DecidableEq α] (d : α) (t : Tbl α) (i : Nat) (x : α) : tget d (tput d t i x) i = x := by
  unfold tget tput
  split
  · rw [tfind_tdel_same]; simp [*]
  · simp

/-- A read after a write, of any key. -/
theorem tget_tput [DecidableEq α] (d : α) (t : Tbl α) (i j : Nat) (x : α) :
    tget d (tput d t i x) j = if j = i then x else tget d t j := by
  split
  · subst_vars; exact tget_tput_same d t _ x
  · rename_i h; exact tget_tput_ne d t x h

theorem mem_tdel {t : Tbl α} {i : Nat} {kv : Nat × α} (h : kv ∈ tdel t i) : kv ∈ t := by
  induction t with
  | nil => simp [tdel] at h
  | cons a t ih =>
    obtain ⟨k, v⟩ := a
    simp only [tdel] at h
    split at h
    · exact List.mem_cons_of_mem _ (ih h)
    · rcases List.mem_cons.mp h with rfl | h
      · simp
      · exact List.mem_cons_of_mem _ (ih h)

theorem mem_tset {t : Tbl α} {i : Nat} {x : α} {kv : Nat × α} (h : kv ∈ tset t i x) : kv = (i, x) ∨ kv ∈ t := by
  induction t with
  | nil => simpa [tset] using h
  | cons a t ih =>
    obtain ⟨k, v⟩ := a
    simp only [tset] at h
    split at h
    · rcases List.mem_cons.mp h with rfl | h
      · simp
      · exact .inr h
    · split at h
      · rcases List.mem_cons.mp h with rfl | h
        · simp
        · exact .inr (List.mem_cons_of_mem _ h)
      · rcases List.mem_cons.mp h with rfl | h
        · simp
        · rcases ih h with h | h
          · exact .inl h
          · exact .inr (List.mem_cons_of_mem _ h)

/-- A write keeps the canonical form. -/
theorem twf_tput [DecidableEq α] (d : α) {t : Tbl α} (i : Nat) (x : α) (h : twf (fun _ => d) t = true) :
    twf (fun _ => d) (tput d t i x) = true := by
  simp only [twf, Bool.and_eq_true, List.all_eq_true, decide_eq_true_eq] at h ⊢
  unfold tput
  split
  · exact ⟨tsorted_tdel i h.1, fun kv hk => h.2 kv (mem_tdel hk)⟩
  · refine ⟨tsorted_tset i x h.1, fun kv hk => ?_⟩
    rcases mem_tset hk with rfl | hk
    · assumption
    · exact h.2 kv hk

theorem keysAbove_filter {b : Nat} {t : Tbl α} (p : Nat × α → Bool) (h : keysAbove b t) : keysAbove b (t.filter p) :=
  fun kv hk => h kv (List.mem_filter.mp hk).1

/-- Dropping keys keeps the order. -/
theorem tsorted_filter {t : Tbl α} (p : Nat × α → Bool) (h : tsorted t = true) : tsorted (t.filter p) = true := by
  induction t with
  | nil => rfl
  | cons a t ih =>
    obtain ⟨h1, h2⟩ := tsorted_cons h
    simp only [List.filter]
    split
    · exact tsorted_of (ih h1) (keysAbove_filter p h2)
    · exact ih h1

/-- Dropping keys keeps the canonical form. -/
theorem twf_tdrop [DecidableEq α] (d : Nat → α) {t : Tbl α} (p : Nat → Bool) (h : twf d t = true) :
    twf d (tdrop p t) = true := by
  simp only [twf, Bool.and_eq_true, List.all_eq_true, decide_eq_true_eq] at h ⊢
  exact ⟨tsorted_filter _ h.1, fun kv hk => h.2 kv (List.mem_filter.mp hk).1⟩

/-! forEach. -/

@[simp] theorem forEach_nil {σ : Type} (s : σ) (f : σ → α → σ) : forEach [] s f = s := rfl
@[simp] theorem forEach_cons {σ : Type} (x : α) (l : List α) (s : σ) (f : σ → α → σ) :
    forEach (x :: l) s f = forEach l (f s x) f := rfl

/-- What each part keeps, the whole keeps. -/
theorem forEach_keeps {σ : Type} (P : σ → Prop) (l : List α) (s : σ) (f : σ → α → σ) (h : P s)
    (hf : ∀ t x, P t → P (f t x)) : P (forEach l s f) := by
  induction l generalizing s with
  | nil => exact h
  | cons x l ih => exact ih (f s x) (hf s x h)

/-- A projection that no part changes. -/
theorem forEach_same {σ β : Type} (g : σ → β) (l : List α) (s : σ) (f : σ → α → σ) (hf : ∀ t x, g (f t x) = g t) :
    g (forEach l s f) = g s := by
  induction l generalizing s with
  | nil => rfl
  | cons x l ih => rw [forEach_cons, ih, hf]

end Sys2Proof.Machine
end

