-- ==== Sys2Proof/Laws/Mem.lean ====
section
/-! SUPPORT. The memory operations keep the canonical forms of `Memory.wf` and `MapInv`. -/

namespace Sys2Proof.Machine

open Sys2Proof

/-- An entry of the scratchpad may stand listed. -/
abbrev listedOk (junk : Tbl Nat) (kv : Nat × Byte) : Prop :=
  kv.1 < 0x40000 ∧ (kv.2 ≠ 0 ∨ (tfind junk (kv.1 / 32768)).isSome = true)

/-- `Memory.wf`, said of every entry. -/
theorem memory_wf_iff (m : MemSt) :
    Memory.wf m = true ↔ tsorted m.bytes = true ∧ (∀ kv ∈ m.bytes, listedOk m.junk kv) ∧ tsorted m.ram = true := by
  simp [Memory.wf, listedOk, and_assoc]

theorem memory_wf_reset : Memory.wf State.reset.mem = true := rfl
theorem mapInv_reset : MapInv State.reset := ⟨rfl, rfl, rfl⟩

/-- Folding stores keeps the keys rising. -/
theorem tsorted_puts {α : Type} (o : Nat) (f : Nat → α) (l : List Nat) :
    ∀ t : Tbl α, tsorted t = true → tsorted (l.foldl (fun u i => tset u (o + i) (f i)) t) = true := by
  induction l with
  | nil => intro t h; exact h
  | cons i l ih => intro t h; exact ih _ (tsorted_tset _ _ h)

/-- Bytes stored into working RAM. -/
theorem ramPut_wf (s : State) (o : Nat) (b : Bytes) (h : Memory.wf s.mem = true) : Memory.wf (ramPut s o b).mem = true := by
  rw [memory_wf_iff] at h ⊢
  exact ⟨h.1, h.2.1, tsorted_puts _ _ _ _ h.2.2⟩

/-- One byte stored into the scratchpad. -/
theorem scratch_put_one (junk : Tbl Nat) (t : Tbl Byte) (k : Nat) (x : Byte) (hk : k < 0x40000)
    (h : tsorted t = true ∧ ∀ kv ∈ t, listedOk junk kv) :
    let u := if (tfind junk (k / 32768)).isSome then tset t k x else tput 0 t k x
    tsorted u = true ∧ ∀ kv ∈ u, listedOk junk kv := by
  dsimp only
  split
  · rename_i hj
    refine ⟨tsorted_tset _ _ h.1, fun kv hm => ?_⟩
    rcases mem_tset hm with rfl | hm
    · exact ⟨hk, .inr hj⟩
    · exact h.2 kv hm
  · unfold tput
    split
    · exact ⟨tsorted_tdel _ h.1, fun kv hm => h.2 kv (mem_tdel hm)⟩
    · rename_i hx
      refine ⟨tsorted_tset _ _ h.1, fun kv hm => ?_⟩
      rcases mem_tset hm with rfl | hm
      · exact ⟨hk, .inl hx⟩
      · exact h.2 kv hm

/-- Bytes stored into the scratchpad, inside it. -/
theorem scratchPut_wf (s : State) (o : Nat) (b : Bytes) (ho : o + b.length ≤ 0x40000) (h : Memory.wf s.mem = true) :
    Memory.wf (scratchPut s o b).mem = true := by
  rw [memory_wf_iff] at h ⊢
  have fold : ∀ (l : List Nat) (t : Tbl Byte), (∀ i ∈ l, o + i < 0x40000) →
      (tsorted t = true ∧ ∀ kv ∈ t, listedOk s.mem.junk kv) →
      tsorted (l.foldl (fun t i => if (tfind s.mem.junk ((o + i) / 32768)).isSome then tset t (o + i) (b.getD i 0)
        else tput 0 t (o + i) (b.getD i 0)) t) = true ∧
      ∀ kv ∈ l.foldl (fun t i => if (tfind s.mem.junk ((o + i) / 32768)).isSome then tset t (o + i) (b.getD i 0)
        else tput 0 t (o + i) (b.getD i 0)) t, listedOk s.mem.junk kv := by
    intro l
    induction l with
    | nil => intro t _ ht; exact ht
    | cons i l ih =>
      intro t hl ht
      exact ih _ (fun j hj => hl j (List.mem_cons_of_mem _ hj)) (scratch_put_one _ _ _ _ (hl i (by simp)) ht)
  obtain ⟨h1, h2⟩ := fold (List.range b.length) s.mem.bytes
    (fun i hi => by have := List.mem_range.mp hi; omega) ⟨h.1, h.2.1⟩
  exact ⟨h1, h2, h.2.2⟩

/-- A check-code error or its rewriting touches no byte. -/
theorem eccFresh_wf (s : State) (m o : Nat) (h : Memory.wf s.mem = true) : Memory.wf (eccFresh s m o).mem = true := h

/-- Marks of banks that lost their content only grow. -/
theorem isSome_tset {α : Type} (t : Tbl α) (i j : Nat) (x : α) (h : (tfind t j).isSome = true) :
    (tfind (tset t i x) j).isSome = true := by
  by_cases hj : j = i
  · subst hj; simp
  · rw [tfind_tset_ne _ _ hj]; exact h

/-- A bank that loses its content. -/
theorem loseContent_wf (s : State) (m b : Nat) (h : Memory.wf s.mem = true) : Memory.wf (loseContent s m b).mem = true := by
  rw [memory_wf_iff] at h
  unfold loseContent
  split
  · rw [memory_wf_iff]
    exact ⟨h.1, fun kv hk => (h.2.1 kv hk).imp_right (Or.imp_right <| isSome_tset _ _ _ _), tsorted_filter _ h.2.2⟩
  · split
    · rw [memory_wf_iff]
      exact ⟨tsorted_filter _ h.1, fun kv hk => (h.2.1 kv (List.mem_filter.mp hk).1).imp_right (Or.imp_right <| isSome_tset _ _ _ _), h.2.2⟩
    · rw [memory_wf_iff]; exact h

/-- Dropping marks of working-RAM banks leaves those of the scratchpad. -/
theorem tfind_tdrop {α : Type} (t : Tbl α) (p : Nat → Bool) (j : Nat) (h : p j = false) :
    tfind (tdrop p t) j = tfind t j := by
  induction t with
  | nil => rfl
  | cons a t ih =>
    obtain ⟨k, v⟩ := a
    unfold tdrop at ih ⊢
    by_cases hk : p k = true
    · have hne : j ≠ k := by rintro rfl; simp [h] at hk
      simp [List.filter, hk, tfind, hne, ih]
    · simp [List.filter, hk, tfind, ih]

/-- Working RAM reinitialised at a sequencer restart; the scratchpad's 8 banks keep their marks. -/
theorem wramInit_wf (s : State) (h : Memory.wf s.mem = true) : Memory.wf (wramInit s).mem = true := by
  rw [memory_wf_iff] at h ⊢
  refine ⟨h.1, fun kv hk => ?_, tsorted_filter _ h.2.2⟩
  obtain ⟨hb, hs⟩ := h.2.1 kv hk
  refine ⟨hb, hs.imp_right (fun hs => ?_)⟩
  simp only [wramInit, onMem]
  rw [tfind_tdrop]
  · exact hs
  · simp; omega

/-! The connection map. -/

/-- One host store. -/
theorem hostStore_map (s : State) (b : Bool) (g : Nat) (e : Entry) (c : Bool) (h : MapInv s) :
    MapInv (hostStore s b g e c) := by
  unfold hostStore
  split
  · exact h
  · obtain ⟨ha, hb, hc⟩ := h
    simp only [MapInv, mirror_map, mirror_flash, onMap_map, onMap_flash]
    cases b
    · exact ⟨twf_tput _ _ _ ha, hb, hc⟩
    · exact ⟨ha, twf_tput _ _ _ hb, hc⟩

/-- One host store of an SMI word. -/
theorem hostSmi_map (s : State) (b : Bool) (p : Nat) (w : Word) (h : MapInv s) : MapInv (hostSmi s b p w) := by
  unfold hostSmi
  simp only [MapInv, mirror_map, mirror_flash, onMap_map, onMap_flash]
  cases b <;> exact h

/-- Changing values, not keys, keeps the keys rising. -/
theorem tsorted_mapVal {α β : Type} (f : Nat × α → β) (t : Tbl α) (h : tsorted t = true) :
    tsorted (t.map (fun kv => (kv.1, f kv))) = true := by
  induction t with
  | nil => rfl
  | cons a t ih =>
    obtain ⟨h1, h2⟩ := tsorted_cons h
    refine tsorted_of (ih h1) (fun kv hk => ?_)
    obtain ⟨kv', hm, rfl⟩ := List.mem_map.mp hk
    exact h2 kv' hm

/-- SEL never empties a VALID entry. -/
theorem setSel_ne_zero {e : Entry} {g : Nat} (h : eMemberOf e g = true) (b : Bool) : setBit e 10 b ≠ 0 := by
  intro h0
  have hv : e.getLsbD 63 = true := by
    simp only [eMemberOf, eProt, eValid, bit, Bool.and_eq_true] at h
    exact h.1.1
  have hb : (setBit e 10 b).getLsbD 63 = true := by
    cases b <;> simp [setBit, hv]
  rw [h0] at hb
  simp at hb

/-- A selector's pass over one bank. -/
theorem selBank_twf (m : MapSt) (b : Bool) (g : Nat) (sel : Bool) (h : twf (fun _ => (0 : Entry)) (bankOf m b) = true) :
    twf (fun _ => (0 : Entry)) (selBank m b g sel) = true := by
  simp only [twf, Bool.and_eq_true, List.all_eq_true, decide_eq_true_eq] at h ⊢
  have hk : selBank m b g sel = (bankOf m b).map (fun kv =>
      (kv.1, if eMemberOf kv.2 g && !eccDouble m b kv.1 then setBit kv.2 10 sel else kv.2)) := by
    unfold selBank
    refine List.map_congr_left (fun kv _ => ?_)
    split <;> rfl
  rw [hk]
  refine ⟨tsorted_mapVal _ _ h.1, fun kv hm => ?_⟩
  obtain ⟨x, hx, rfl⟩ := List.mem_map.mp hm
  dsimp only
  split
  · rename_i hc
    simp only [Bool.and_eq_true] at hc
    exact setSel_ne_zero hc.1 sel
  · exact h.2 x hx

/-- Rewriting check bits leaves both banks. -/
theorem eccRewrites_banks (b : Bool) (l : List Nat) :
    ∀ m : MapSt, (l.foldl (fun m i => if eccDouble m b i then m else eccRewrite m b i) m).a = m.a
      ∧ (l.foldl (fun m i => if eccDouble m b i then m else eccRewrite m b i) m).b = m.b := by
  induction l with
  | nil => intro m; exact ⟨rfl, rfl⟩
  | cons i l ih =>
    intro m
    obtain ⟨h1, h2⟩ := ih (if eccDouble m b i then m else eccRewrite m b i)
    simp only [List.foldl_cons]
    refine ⟨h1.trans ?_, h2.trans ?_⟩ <;> split <;> rfl

/-- What a selector's pass leaves in the banks. -/
theorem selStore_banks (s : State) (g : Nat) (sel : Bool) :
    (selStore s g sel).map.a = selBank s.map false g sel ∧ (selStore s g sel).map.b = selBank s.map true g sel := by
  unfold selStore onMap
  dsimp only
  rw [(eccRewrites_banks true _ _).1, (eccRewrites_banks true _ _).2, (eccRewrites_banks false _ _).1,
    (eccRewrites_banks false _ _).2]
  exact ⟨rfl, rfl⟩

/-- A selector's pass over both banks. -/
theorem selStore_map (s : State) (g : Nat) (sel : Bool) (h : MapInv s) : MapInv (selStore s g sel) := by
  obtain ⟨ha, hb, hf⟩ := h
  obtain ⟨ea, eb⟩ := selStore_banks s g sel
  refine ⟨?_, ?_, hf⟩
  · rw [ea]; exact selBank_twf s.map false g sel ha
  · rw [eb]; exact selBank_twf s.map true g sel hb

/-- What every store of a host keeps, staging the saved map keeps. -/
theorem stageMap_keeps (P : State → Prop) (s : State) (c : SavedCfg) (h : P s)
    (he : ∀ t i, P t → P (hostStore t (!s.map.bActive) i (tget 0 c.bank i) false))
    (hw : ∀ t p, P t → P (hostSmi t (!s.map.bActive) p (tget 0 c.smi p))) : P (stageMap s c) :=
  forEach_keeps P allPorts _ _ (forEach_keeps P _ s _ h he) hw

/-- The saved map staged again. -/
theorem stageMap_map (s : State) (c : SavedCfg) (h : MapInv s) : MapInv (stageMap s c) :=
  stageMap_keeps MapInv s c h (fun t _ ht => hostStore_map t _ _ _ _ ht) (fun t _ ht => hostSmi_map t _ _ _ ht)

end Sys2Proof.Machine
end

