-- ==== Sys2Proof/Laws/Ops.lean ====
section
/-! SUPPORT. What counting an event and writing a trace record do to Sage. -/

namespace Sys2Proof.Machine

open Sys2Proof

/-! Counters. -/

/-- A programmable counter's step leaves the fixed counters, the trace and the events as they are. -/
theorem pctrAdd_keeps (v : View) (pos : Sfp) (k : Nat) :
    ∀ (g : SageSt) (n amt : Nat), (pctrAdd v pos k g n amt).ctr = g.ctr ∧ (pctrAdd v pos k g n amt).fifo = g.fifo
      ∧ (pctrAdd v pos k g n amt).events = g.events ∧ (pctrAdd v pos k g n amt).nextNo = g.nextNo
      ∧ (pctrAdd v pos k g n amt).evtSeq = g.evtSeq := by
  induction k with
  | zero => intro g n amt; exact ⟨rfl, rfl, rfl, rfl, rfl⟩
  | succ k ih =>
    intro g n amt
    unfold pctrAdd
    split
    · exact ⟨rfl, rfl, rfl, rfl, rfl⟩
    · dsimp only
      split
      · exact ⟨rfl, rfl, rfl, rfl, rfl⟩
      · split
        · exact ih _ _ _
        · exact ⟨rfl, rfl, rfl, rfl, rfl⟩

/-- The programmable counters that name an event. -/
theorem pctrFold_keeps (v : View) (pos : Sfp) (c amt : Nat) (l : List Nat) :
    ∀ g : SageSt,
      let h := l.foldl (fun g n => if (v (aPctrEvt n)).toNat = c && !pctrFed v n then pctrAdd v pos 64 g n amt else g) g
      h.ctr = g.ctr ∧ h.fifo = g.fifo ∧ h.events = g.events ∧ h.nextNo = g.nextNo ∧ h.evtSeq = g.evtSeq := by
  induction l with
  | nil => intro g; exact ⟨rfl, rfl, rfl, rfl, rfl⟩
  | cons n l ih =>
    intro g
    dsimp only [List.foldl_cons]
    split
    · obtain ⟨a, b, c, d, e⟩ := ih (pctrAdd v pos 64 g n amt)
      obtain ⟨a', b', c', d', e'⟩ := pctrAdd_keeps v pos 64 g n amt
      exact ⟨a.trans a', b.trans b', c.trans c', d.trans d', e.trans e'⟩
    · exact ih g

/-- Counting leaves the trace FIFO, the event queue and their numbers. -/
theorem sageCount_keeps (v : View) (pos : Sfp) (g : SageSt) (b i n : Nat) :
    (sageCount v pos g b i n).fifo = g.fifo ∧ (sageCount v pos g b i n).events = g.events
      ∧ (sageCount v pos g b i n).nextNo = g.nextNo ∧ (sageCount v pos g b i n).evtSeq = g.evtSeq := by
  unfold sageCount
  split
  · exact ⟨rfl, rfl, rfl, rfl⟩
  · exact (pctrFold_keeps v pos _ n _ _).2

/-- A counter after an event of some counter. -/
theorem sageCount_ctr (v : View) (pos : Sfp) (g : SageSt) (b i n k : Nat) :
    tget 0 (sageCount v pos g b i n).ctr k =
      if k = b * 65536 + i ∧ n ≠ 0 then (tget 0 g.ctr k + n) % 2 ^ 64 else tget 0 g.ctr k := by
  unfold sageCount
  split
  · rename_i h; simp [h]
  · rename_i h
    have := (pctrFold_keeps v pos (b * 65536 + i) n (List.range 64)
      { g with ctr := tput 0 g.ctr (b * 65536 + i) ((tget 0 g.ctr (b * 65536 + i) + n) % 2 ^ 64)
               recent := recentAdd pos g.recent (b * 65536 + i) n }).1
    dsimp only at this ⊢
    rw [this]
    by_cases hk : k = b * 65536 + i
    · subst hk; simp [h]
    · rw [tget_tput_ne _ _ _ hk]; simp [hk]

@[simp] theorem count_fifo (s : State) (b i n : Nat) : (count s b i n).sage.fifo = s.sage.fifo :=
  (sageCount_keeps _ _ _ _ _ _).1

/-- The counter counted. -/
theorem ctrVal_count (s : State) (b i n b' i' : Nat) :
    ctrVal (count s b i n) b' i' =
      if b' * 65536 + i' = b * 65536 + i ∧ n ≠ 0 then (ctrVal s b' i' + n) % 2 ^ 64 else ctrVal s b' i' :=
  sageCount_ctr _ _ _ _ _ _ _

/-- Only Sage's counters change. -/
theorem counted_count (s : State) (b i : Nat) : Counted s (count s b i 1) b i := by
  simp [Counted, ctrVal_count]

/-! Trace records. -/

/-- A counter is stepped by a record only where it is Sage's own of drops or events. -/
theorem ctrVal_fifoPush (v : View) (pos : Sfp) (g : SageSt) (r : TraceRec) (k : Nat) (h : k ≠ 8 * 65536 + 1) :
    tget 0 (fifoPush v pos g r).ctr k = tget 0 g.ctr k := by
  unfold fifoPush
  split
  · split
    · dsimp only
      rw [sageCount_ctr, if_neg (by simp [h])]
    · rfl
  · rfl

/-- The record is the newest of the FIFO. -/
theorem fifoPush_last (v : View) (pos : Sfp) (g : SageSt) (r : TraceRec) :
    ((fifoPush v pos g r).fifo.getLast?).map (·.2) = some r := by
  unfold fifoPush
  split
  · split <;> simp
  · simp

theorem eventOf_fifo (v : View) (pos : Sfp) (g : SageSt) (sent : Bool) (r : TraceRec) :
    (eventOf v pos g sent r).fifo = g.fifo := by
  unfold eventOf
  split
  · rfl
  · dsimp only
    split <;> exact (sageCount_keeps _ _ _ _ _ _).1

theorem eventOf_ctr (v : View) (pos : Sfp) (g : SageSt) (sent : Bool) (r : TraceRec) (k : Nat) (h : k ≠ 8 * 65536 + 7) :
    tget 0 (eventOf v pos g sent r).ctr k = tget 0 g.ctr k := by
  unfold eventOf
  split
  · rfl
  · dsimp only
    split <;> rw [sageCount_ctr, if_neg (by simp [h])]

/-- The record a row writes is the newest. -/
theorem newest_traceRec (s : State) (r : TraceRec) : newest (traceRec s r) = some r := by
  unfold newest traceRec
  dsimp only
  rw [eventOf_fifo, fifoPush_last]

@[simp] theorem newest_trace (s : State) (c u o : Nat) (d : Bytes) :
    newest (trace s c u o d) = some { at_ := s.sfp, cls := c, sub := u, obj := BitVec.ofNat 16 o, data := d } :=
  newest_traceRec _ _
@[simp] theorem newest_traceAt (s : State) (p : Sfp) (c u o : Nat) (d : Bytes) :
    newest (traceAt s p c u o d) = some { at_ := p, cls := c, sub := u, obj := BitVec.ofNat 16 o, data := d } :=
  newest_traceRec _ _

/-- A record steps no counter but Sage's drops and events. -/
theorem ctrVal_traceRec (s : State) (r : TraceRec) (b i : Nat) (h : b * 65536 + i ≠ 8 * 65536 + 1)
    (h' : b * 65536 + i ≠ 8 * 65536 + 7) : ctrVal (traceRec s r) b i = ctrVal s b i := by
  unfold ctrVal traceRec
  dsimp only
  rw [eventOf_ctr _ _ _ _ _ _ h', ctrVal_fifoPush _ _ _ _ _ h]

end Sys2Proof.Machine
end

