-- ==== Sys2Proof/Laws/PerInstr.lean ====
section
/-! SUPPORT. The family F: a fact about every command as syntax, one lemma a constructor. -/

namespace Sys2Proof.Laws.F

open Sys2Proof

/-- A well-formed VCP command carries at most the 1,468 parameter bytes of Table 12-13. -/
def Statement (i : Instr) : Prop := i.wf = true → ∀ r, i.req = some r → r.params.length ≤ 1468

/-- What well-formedness says of the packet. -/
theorem of_wf (i : Instr) : Statement i := by
  intro h r hr
  unfold Instr.wf at h
  rw [hr] at h
  simp only [Bool.and_eq_true] at h
  exact of_decide_eq_true h.1

theorem devInfo (r : Req) : Statement (.devInfo r) := of_wf _
theorem keyWrite (r : Req) (flashOk : Bool) : Statement (.keyWrite r flashOk) := of_wf _
theorem keyInfo (r : Req) : Statement (.keyInfo r) := of_wf _
theorem groupMemberSet (r : Req) (flashOk : Bool) : Statement (.groupMemberSet r flashOk) := of_wf _
theorem groupMemberGet (r : Req) : Statement (.groupMemberGet r) := of_wf _
theorem routeSet (r : Req) (flashOk : Bool) : Statement (.routeSet r flashOk) := of_wf _
theorem routeGet (r : Req) : Statement (.routeGet r) := of_wf _
theorem relayPortsSet (r : Req) (flashOk : Bool) : Statement (.relayPortsSet r flashOk) := of_wf _
theorem cfgSave (r : Req) (flashOk : Bool) : Statement (.cfgSave r flashOk) := of_wf _
theorem cfgInfo (r : Req) : Statement (.cfgInfo r) := of_wf _
theorem devReset (r : Req) : Statement (.devReset r) := of_wf _
theorem mapWritePart (r : Req) (hits : List Nat) (part : Nat) : Statement (.mapWritePart r hits part) := of_wf _
theorem mapRead (r : Req) : Statement (.mapRead r) := of_wf _
theorem mapCopyPart (r : Req) (hits : List Nat) (part : Nat) : Statement (.mapCopyPart r hits part) := of_wf _
theorem mapClearPart (r : Req) (hits : List Nat) (part : Nat) : Statement (.mapClearPart r hits part) := of_wf _
theorem smiWrite (r : Req) : Statement (.smiWrite r) := of_wf _
theorem mapStatus (r : Req) : Statement (.mapStatus r) := of_wf _
theorem hMapRead (r : Req) : Statement (.hMapRead r) := of_wf _
theorem hMapWritePart (r : Req) (hits : List Nat) (part : Nat) : Statement (.hMapWritePart r hits part) := of_wf _
theorem hSlotStats (r : Req) : Statement (.hSlotStats r) := of_wf _
theorem grpWrite (r : Req) : Statement (.grpWrite r) := of_wf _
theorem grpRead (r : Req) : Statement (.grpRead r) := of_wf _
theorem protRequest (r : Req) : Statement (.protRequest r) := of_wf _
theorem protGrpStatus (r : Req) : Statement (.protGrpStatus r) := of_wf _
theorem protEqRealign (r : Req) : Statement (.protEqRealign r) := of_wf _
theorem portCfgWrite (r : Req) : Statement (.portCfgWrite r) := of_wf _
theorem portCfgRead (r : Req) : Statement (.portCfgRead r) := of_wf _
theorem portAdaptWrite (r : Req) : Statement (.portAdaptWrite r) := of_wf _
theorem portSerdesWrite (r : Req) : Statement (.portSerdesWrite r) := of_wf _
theorem portStatus (r : Req) : Statement (.portStatus r) := of_wf _
theorem portSnapshot (r : Req) : Statement (.portSnapshot r) := of_wf _
theorem portSnapRead (r : Req) : Statement (.portSnapRead r) := of_wf _
theorem tpChkWrite (r : Req) : Statement (.tpChkWrite r) := of_wf _
theorem tpChkRead (r : Req) : Statement (.tpChkRead r) := of_wf _
theorem commit (r : Req) : Statement (.commit r) := of_wf _
theorem commitCancel (r : Req) : Statement (.commitCancel r) := of_wf _
theorem commitList (r : Req) : Statement (.commitList r) := of_wf _
theorem stageRevertPart (r : Req) (hits : List Nat) (part : Nat) : Statement (.stageRevertPart r hits part) := of_wf _
theorem stageAccept (r : Req) : Statement (.stageAccept r) := of_wf _
theorem sfpRead (r : Req) : Statement (.sfpRead r) := of_wf _
theorem thyCandWrite (r : Req) : Statement (.thyCandWrite r) := of_wf _
theorem thyCfgWrite (r : Req) : Statement (.thyCfgWrite r) := of_wf _
theorem thyOutWrite (r : Req) : Statement (.thyOutWrite r) := of_wf _
theorem thyCfgRead (r : Req) : Statement (.thyCfgRead r) := of_wf _
theorem thyStatus (r : Req) : Statement (.thyStatus r) := of_wf _
theorem setQl (r : Req) : Statement (.setQl r) := of_wf _
theorem thymeForce (r : Req) : Statement (.thymeForce r) := of_wf _
theorem setMfc (r : Req) : Statement (.setMfc r) := of_wf _
theorem mfcRelearn (r : Req) : Statement (.mfcRelearn r) := of_wf _
theorem fpRealign (r : Req) : Statement (.fpRealign r) := of_wf _
theorem thymeHistoryRead (r : Req) : Statement (.thymeHistoryRead r) := of_wf _
theorem pairStatus (r : Req) : Statement (.pairStatus r) := of_wf _
theorem pairCfgWrite (r : Req) : Statement (.pairCfgWrite r) := of_wf _
theorem pairCfgRead (r : Req) : Statement (.pairCfgRead r) := of_wf _
theorem pairResync (r : Req) : Statement (.pairResync r) := of_wf _
theorem pairSwap (r : Req) : Statement (.pairSwap r) := of_wf _
theorem pairForceActive (r : Req) : Statement (.pairForceActive r) := of_wf _
theorem ctrRead (r : Req) : Statement (.ctrRead r) := of_wf _
theorem pctrWrite (r : Req) : Statement (.pctrWrite r) := of_wf _
theorem pctrRead (r : Req) : Statement (.pctrRead r) := of_wf _
theorem latlogRead (r : Req) : Statement (.latlogRead r) := of_wf _
theorem traceRead (r : Req) : Statement (.traceRead r) := of_wf _
theorem bwCfgWrite (r : Req) : Statement (.bwCfgWrite r) := of_wf _
theorem bwRead (r : Req) : Statement (.bwRead r) := of_wf _
theorem traceCfgWrite (r : Req) : Statement (.traceCfgWrite r) := of_wf _
theorem evtCfgWrite (r : Req) : Statement (.evtCfgWrite r) := of_wf _
theorem obsCfgRead (r : Req) : Statement (.obsCfgRead r) := of_wf _
theorem memRead (r : Req) : Statement (.memRead r) := of_wf _
theorem memWrite (r : Req) (collides : Nat) : Statement (.memWrite r collides) := of_wf _
theorem memPower (r : Req) : Statement (.memPower r) := of_wf _
theorem memStatus (r : Req) : Statement (.memStatus r) := of_wf _
theorem fwInfo (r : Req) : Statement (.fwInfo r) := of_wf _
theorem fwLoad (r : Req) (flashOk : Bool) : Statement (.fwLoad r flashOk) := of_wf _
theorem fwUpdate (r : Req) (flashOk : Bool) : Statement (.fwUpdate r flashOk) := of_wf _
theorem selfTest (r : Req) (found : SelfTestIn) : Statement (.selfTest r found) := of_wf _
theorem regRead (r : Req) : Statement (.regRead r) := of_wf _
theorem regRead64 (r : Req) : Statement (.regRead64 r) := of_wf _
theorem regWrite (r : Req) : Statement (.regWrite r) := of_wf _
theorem regWriteWait (r : Req) : Statement (.regWriteWait r) := of_wf _
theorem regGuardedWrite (r : Req) : Statement (.regGuardedWrite r) := of_wf _
theorem feedRead (r : Req) : Statement (.feedRead r) := of_wf _
theorem feedSelect (r : Req) : Statement (.feedSelect r) := of_wf _
theorem pktWrite (len : Nat) (bytes : Bytes) : Statement (.pktWrite len bytes) := of_wf _
theorem pktRead : Statement (.pktRead) := of_wf _
theorem statusRead : Statement (.statusRead) := of_wf _
theorem idcode : Statement (.idcode) := of_wf _
theorem samplePreload (levels : List Bool) : Statement (.samplePreload levels) := of_wf _
theorem bypass (code : Byte) : Statement (.bypass code) := of_wf _
theorem tapReset : Statement (.tapReset) := of_wf _
theorem registerWrite (m : Master) (addr v : Word) : Statement (.registerWrite m addr v) := of_wf _
theorem sfpCapPosRead (m : Master) : Statement (.sfpCapPosRead m) := of_wf _
theorem mapHighWordWrite (m : Master) (addr v : Word) : Statement (.mapHighWordWrite m addr v) := of_wf _
theorem mapLowWordWrite (m : Master) (addr v : Word) (collide : Bool) : Statement (.mapLowWordWrite m addr v collide) := of_wf _
theorem mapHighWordRead (m : Master) (addr : Word) : Statement (.mapHighWordRead m addr) := of_wf _
theorem postedWrite (m : Master) (addr v : Word) : Statement (.postedWrite m addr v) := of_wf _
theorem postedWriteComplete (b : SlowBlock) : Statement (.postedWriteComplete b) := of_wf _
theorem blkStatWrite (m : Master) (b : SlowBlock) (v : Word) : Statement (.blkStatWrite m b v) := of_wf _
theorem guardPairOpen (m : Master) (addr v : Word) : Statement (.guardPairOpen m addr v) := of_wf _
theorem guardTimeout (addr : Word) : Statement (.guardTimeout addr) := of_wf _
theorem guardOrphan (m : Master) (addr v : Word) : Statement (.guardOrphan m addr v) := of_wf _
theorem remap (m : Master) (compl : Word) : Statement (.remap m compl) := of_wf _
theorem seqRst (m : Master) (compl : Word) : Statement (.seqRst m compl) := of_wf _
theorem flashWe (m : Master) (compl : Word) : Statement (.flashWe m compl) := of_wf _
theorem keyWe (m : Master) (compl : Word) : Statement (.keyWe m compl) := of_wf _
theorem bscanUnlock (m : Master) (compl : Word) : Statement (.bscanUnlock m compl) := of_wf _
theorem pairCtlSwap (m : Master) (compl : Word) : Statement (.pairCtlSwap m compl) := of_wf _
theorem pairCtlCancel (m : Master) (compl : Word) : Statement (.pairCtlCancel m compl) := of_wf _
theorem pairCtlForceActive (m : Master) (compl : Word) : Statement (.pairCtlForceActive m compl) := of_wf _
theorem feedSelectTarget (m : Master) (compl : Word) : Statement (.feedSelectTarget m compl) := of_wf _
theorem mdioStart (m : Master) (v : Word) : Statement (.mdioStart m v) := of_wf _
theorem mdioDone (rd : BitVec 16) : Statement (.mdioDone rd) := of_wf _
theorem mgmtSnapArm (m : Master) (v : Word) : Statement (.mgmtSnapArm m v) := of_wf _
theorem matrixAged (m : Master) (target : Fin 8) : Statement (.matrixAged m target) := of_wf _
theorem powerUp (feedB both : Bool) : Statement (.powerUp feedB both) := of_wf _
theorem powerDown : Statement (.powerDown) := of_wf _
theorem feedUvCross : Statement (.feedUvCross) := of_wf _
theorem feedGlitch : Statement (.feedGlitch) := of_wf _
theorem feedUvDeclare : Statement (.feedUvDeclare) := of_wf _
theorem feedOvDeclare : Statement (.feedOvDeclare) := of_wf _
theorem feedFailoverComplete : Statement (.feedFailoverComplete) := of_wf _
theorem feedGood (feedB : Bool) : Statement (.feedGood feedB) := of_wf _
theorem feedNotGood (feedB ov : Bool) : Statement (.feedNotGood feedB ov) := of_wf _
theorem ovTrip (feedB : Bool) : Statement (.ovTrip feedB) := of_wf _
theorem bulkUndervoltage : Statement (.bulkUndervoltage) := of_wf _
theorem overcurrentTrip : Statement (.overcurrentTrip) := of_wf _
theorem feedLatchRelease : Statement (.feedLatchRelease) := of_wf _
theorem feedSwitchResult : Statement (.feedSwitchResult) := of_wf _
theorem feedSwitchTimeout : Statement (.feedSwitchTimeout) := of_wf _
theorem resetNAssert : Statement (.resetNAssert) := of_wf _
theorem blockClockLoss : Statement (.blockClockLoss) := of_wf _
theorem bootRomParityError : Statement (.bootRomParityError) := of_wf _
theorem devResetEffect : Statement (.devResetEffect) := of_wf _
theorem resetSequenceEnd (devid : BitVec 12) (twinPos : Bool) : Statement (.resetSequenceEnd devid twinPos) := of_wf _
theorem dieRelease (found : BootIn) : Statement (.dieRelease found) := of_wf _
theorem ready : Statement (.ready) := of_wf _
theorem seqException (cause : Fin 6) : Statement (.seqException cause) := of_wf _
theorem seqWdtExpire : Statement (.seqWdtExpire) := of_wf _
theorem sequencerRestart : Statement (.sequencerRestart) := of_wf _
theorem frameBoundary (i : FrameIn) : Statement (.frameBoundary i) := of_wf _
theorem epochBoundary (temp : BitVec 16) : Statement (.epochBoundary temp) := of_wf _
theorem candidateHoldoffExpire (c : Fin 12) : Statement (.candidateHoldoffExpire c) := of_wf _
theorem candidateWtrExpire (c : Fin 12) : Statement (.candidateWtrExpire c) := of_wf _
theorem candidateQualified (c : Fin 12) : Statement (.candidateQualified c) := of_wf _
theorem freqMeasurement (ppb : List Int) : Statement (.freqMeasurement ppb) := of_wf _
theorem dpllLock : Statement (.dpllLock) := of_wf _
theorem refSwitch (offset : BitVec 32) : Statement (.refSwitch offset) := of_wf _
theorem esmcPduReceive (port : Fin 128) (frame : Bytes) : Statement (.esmcPduReceive port frame) := of_wf _
theorem esmcTimeout (port : Fin 128) : Statement (.esmcTimeout port) := of_wf _
theorem fpEdge (input : Fin 3) : Statement (.fpEdge input) := of_wf _
theorem fpMiss (input : Fin 3) : Statement (.fpMiss input) := of_wf _
theorem mfcLearn : Statement (.mfcLearn) := of_wf _
theorem historySample (freq : BitVec 48) (spread : Nat) (temp : BitVec 16) : Statement (.historySample freq spread temp) := of_wf _
theorem holdoverExpire : Statement (.holdoverExpire) := of_wf _
theorem ocxoDay (flashOk : Bool) : Statement (.ocxoDay flashOk) := of_wf _
theorem setQlAct : Statement (.setQlAct) := of_wf _
theorem thymeForceAct : Statement (.thymeForceAct) := of_wf _
theorem setMfcAct : Statement (.setMfcAct) := of_wf _
theorem mfcRelearnAct : Statement (.mfcRelearnAct) := of_wf _
theorem fpRealignAct : Statement (.fpRealignAct) := of_wf _
theorem commitArm : Statement (.commitArm) := of_wf _
theorem commitValidationDone : Statement (.commitValidationDone) := of_wf _
theorem commitStrobe : Statement (.commitStrobe) := of_wf _
theorem commitReport : Statement (.commitReport) := of_wf _
theorem o0Block (port : Fin 128) (b : Block) : Statement (.o0Block port b) := of_wf _
theorem o1Receive (port : Fin 128) (b : Block) : Statement (.o1Receive port b) := of_wf _
theorem apsReceive (port : Fin 128) (o3 : Bool) (b : Block) : Statement (.apsReceive port o3 b) := of_wf _
theorem mgmtChunkReceive (port : Fin 128) (o4 : List Block) (o7 : Block) : Statement (.mgmtChunkReceive port o4 o7) := of_wf _
theorem o7Receive (port : Fin 128) (o4 : List Block) (o7 : Block) : Statement (.o7Receive port o4 o7) := of_wf _
theorem ebSlip (port : Fin 128) : Statement (.ebSlip port) := of_wf _
theorem slipClear (port : Fin 128) : Statement (.slipClear port) := of_wf _
theorem losDeclare (port : Fin 128) : Statement (.losDeclare port) := of_wf _
theorem losClear (port : Fin 128) : Statement (.losClear port) := of_wf _
theorem lolDeclare (port : Fin 128) : Statement (.lolDeclare port) := of_wf _
theorem lolClear (port : Fin 128) : Statement (.lolClear port) := of_wf _
theorem fecFailDeclare (port : Fin 128) (codewords : Nat) : Statement (.fecFailDeclare port codewords) := of_wf _
theorem fecFailClear (port : Fin 128) : Statement (.fecFailClear port) := of_wf _
theorem fecDegDeclare (port : Fin 128) (symbols : Nat) : Statement (.fecDegDeclare port symbols) := of_wf _
theorem fecDegClear (port : Fin 128) : Statement (.fecDegClear port) := of_wf _
theorem adaptBlockWrite (port : Fin 128) (b : Block) : Statement (.adaptBlockWrite port b) := of_wf _
theorem adaptBlockRead (port : Fin 128) : Statement (.adaptBlockRead port) := of_wf _
theorem adPpmReport (port : Fin 128) : Statement (.adPpmReport port) := of_wf _
theorem monFrameReceive (port : Fin 128) (f : MonFrame) : Statement (.monFrameReceive port f) := of_wf _
theorem orderedSetReceive (port : Fin 128) (remote : Bool) (gap : Nat) : Statement (.orderedSetReceive port remote gap) := of_wf _
theorem lfClear (port : Fin 128) (remote : Bool) : Statement (.lfClear port remote) := of_wf _
theorem portSnapshotLatch : Statement (.portSnapshotLatch) := of_wf _
theorem tpCheckBlock (m : Fin 64) : Statement (.tpCheckBlock m) := of_wf _
theorem calendarCycle (arrived : List (Nat × List Block)) (parityBad : List Nat) : Statement (.calendarCycle arrived parityBad) :=
  of_wf _
theorem mapScrub (bankB smi : Bool) (idx : Nat) (found : EccFind) : Statement (.mapScrub bankB smi idx found) := of_wf _
theorem mapScrubWriteback : Statement (.mapScrubWriteback) := of_wf _
theorem protHoldoffExpire (g : Fin 2048) (cond : Fin 3) : Statement (.protHoldoffExpire g cond) := of_wf _
theorem protWtrExpire (g : Fin 2048) : Statement (.protWtrExpire g) := of_wf _
theorem protRequestAct : Statement (.protRequestAct) := of_wf _
theorem apsLoss (g : Fin 2048) : Statement (.apsLoss g) := of_wf _
theorem fopNr (g : Fin 2048) : Statement (.fopNr g) := of_wf _
theorem pathMarkerJudge (g : Fin 2048) (prot : Bool) : Statement (.pathMarkerJudge g prot) := of_wf _
theorem pmLoss (g : Fin 2048) (prot : Bool) : Statement (.pmLoss g prot) := of_wf _
theorem eqEngage (g : Fin 2048) : Statement (.eqEngage g) := of_wf _
theorem errorlessSelectorChange (g : Fin 2048) : Statement (.errorlessSelectorChange g) := of_wf _
theorem heartbeatTake (lane : Fin 2) (b : Block) (comp : Nat) (locked : Bool) : Statement (.heartbeatTake lane b comp locked) := of_wf _
theorem chiveLaneDown (lane : Fin 2) : Statement (.chiveLaneDown lane) := of_wf _
theorem mirrorLost : Statement (.mirrorLost) := of_wf _
theorem aliveInChange (level : Bool) : Statement (.aliveInChange level) := of_wf _
theorem takeover : Statement (.takeover) := of_wf _
theorem mirrorRecordTake (at_ : Sfp) (m : MirrorRec) : Statement (.mirrorRecordTake at_ m) := of_wf _
theorem mirrorAudit (crcs : List Word) : Statement (.mirrorAudit crcs) := of_wf _
theorem resyncEnd : Statement (.resyncEnd) := of_wf _
theorem pairSwapExecute : Statement (.pairSwapExecute) := of_wf _
theorem pairSwapAssume : Statement (.pairSwapAssume) := of_wf _
theorem pairSwapAbort : Statement (.pairSwapAbort) := of_wf _
theorem pairSwapRevert : Statement (.pairSwapRevert) := of_wf _
theorem txWatchEnd : Statement (.txWatchEnd) := of_wf _
theorem arbitrationEnd : Statement (.arbitrationEnd) := of_wf _
theorem forceActiveAct : Statement (.forceActiveAct) := of_wf _
theorem autoRestoreStaged : Statement (.autoRestoreStaged) := of_wf _
theorem autoRestoreStage2 : Statement (.autoRestoreStage2) := of_wf _
theorem autoRestoreStage2Timeout : Statement (.autoRestoreStage2Timeout) := of_wf _
theorem vcpPacketReceive (ret : Return) (pkt : Bytes) : Statement (.vcpPacketReceive ret pkt) := of_wf _
theorem dispatchTick : Statement (.dispatchTick) := of_wf _
theorem relayEntryExpire (i : Fin 64) : Statement (.relayEntryExpire i) := of_wf _
theorem dupMemoryExpire (i : Fin 64) : Statement (.dupMemoryExpire i) := of_wf _
theorem replyTransmit (p : MgPort) : Statement (.replyTransmit p) := of_wf _
theorem eventSend : Statement (.eventSend) := of_wf _
theorem channelPacketSend (port : Fin 128) : Statement (.channelPacketSend port) := of_wf _
theorem protectionReport : Statement (.protectionReport) := of_wf _
theorem traceRingWrite : Statement (.traceRingWrite) := of_wf _
theorem sageTxFrame : Statement (.sageTxFrame) := of_wf _
theorem gatherSweeps : Statement (.gatherSweeps) := of_wf _
theorem gatherIncomplete (block : BitVec 16) : Statement (.gatherIncomplete block) := of_wf _
theorem pctrOverflow (n : Fin 64) : Statement (.pctrOverflow n) := of_wf _
theorem bwWindowEnd (port : Fin 128) : Statement (.bwWindowEnd port) := of_wf _
theorem mgmtFrameReceive (p : MgPort) (f : MgFrame) : Statement (.mgmtFrameReceive p f) := of_wf _
theorem mgLinkUp (p : MgPort) (mode : Fin 4) (speed : Fin 4) (halfDuplex : Bool) : Statement (.mgLinkUp p mode speed halfDuplex) := of_wf _
theorem mgLinkDown (p : MgPort) : Statement (.mgLinkDown p) := of_wf _
theorem modeSearchSwitch (p : MgPort) : Statement (.modeSearchSwitch p) := of_wf _
theorem rateStepDown (p : MgPort) : Statement (.rateStepDown p) := of_wf _
theorem rsRelinkExpire (p : MgPort) : Statement (.rsRelinkExpire p) := of_wf _
theorem throttleRelease (p : MgPort) : Statement (.throttleRelease p) := of_wf _
theorem mgmtSnapshotLatch : Statement (.mgmtSnapshotLatch) := of_wf _
theorem memoryScrub (memory : Fin 6) (addr : Nat) (found : EccFind) : Statement (.memoryScrub memory addr found) := of_wf _
theorem memPowerTransitionDone (memory : Fin 3) (bank : Nat) : Statement (.memPowerTransitionDone memory bank) := of_wf _
theorem gpioSwitchDrive : Statement (.gpioSwitchDrive) := of_wf _
theorem commandComplete : Statement (.commandComplete) := of_wf _
theorem resetNRelease : Statement (.resetNRelease) := of_wf _
theorem uvReleased (ov : Bool) : Statement (.uvReleased ov) := of_wf _

end Sys2Proof.Laws.F
end

