-- ==== Sys2Proof/Laws/Vcp.lean ====
section
/-! SUPPORT. What a row of a VCP command does while its command is in execution. -/

namespace Sys2Proof.Machine

open Sys2Proof

@[simp] theorem live_on {s : State} (h : powered s = true) (t : State) : live s t = t := by simp [live, h]

/-- The row's command is the one in execution: nothing is offered to the front end. -/
theorem offer_begun {op : BitVec 16} {r : Req} {q : Run} {s : State} (h : Begun op r q s) : offer s op r = s := by
  obtain ⟨_, _, hr, hq, ho, _, _⟩ := h
  simp [offer, hr, hq, ho]

theorem runIs_begun {op : BitVec 16} {r : Req} {q : Run} {s : State} (h : Begun op r q s) : runIs s op r = some q := by
  obtain ⟨_, hs, hr, hq, ho, hn, _⟩ := h
  simp [runIs, hr, hq, ho, hn, hs]

/-- A command in one part: its checks, then its body. -/
theorem runOnce_begun {op : BitVec 16} {r : Req} {q : Run} {s : State} (h : Begun op r q s)
    (body : Run → State → State) :
    runOnce op r body s = match checkCommand s q with
      | some (st, d) => setReply s st d []
      | none => body q (onRun s (fun x => { x with work := 1 })) := by
  unfold runOnce runSteps
  simp only [offer_begun h, runIs_begun h, h.2.2.2.2.2.2, if_true] <;>
    (rcases checkCommand s q with _ | ⟨a, b⟩ <;> rfl)

/-- An accepted command in one part does its body. -/
theorem runOnce_accepted {op : BitVec 16} {r : Req} {q : Run} {s : State} (h : Accepted op r q s)
    (body : Run → State → State) :
    runOnce op r body s = body q (onRun s (fun x => { x with work := 1 })) := by
  rw [runOnce_begun h.1, h.2]

/-- A command in several parts that is entered for the first time. -/
theorem runSteps_accepted {op : BitVec 16} {r : Req} {q : Run} {s : State} (h : Accepted op r q s)
    (body : Run → State → State) :
    runSteps op r body s = body q (onRun s (fun x => { x with work := 1 })) := by
  unfold runSteps
  rw [offer_begun h.1]
  simp only [runIs_begun h.1, h.1.2.2.2.2.2.2, if_true, h.2]

/-- The reply of a command in execution. -/
theorem setReply_answers {s : State} {q : Run} (h : s.vcp.run = some q) (st d : Byte) (data : Bytes) :
    Answers (setReply s st d data) st d data := by
  simp [Answers, replyNow, setReply, h, onVcp]

theorem setReply_answer {s : State} {q : Run} (h : s.vcp.run = some q) (st d : Byte) (data : Bytes) :
    answer (setReply s st d data) = data := by simp [answer, replyNow, setReply, h, onVcp]

/-- The run of a command that has begun its work. -/
theorem onRun_run {s : State} {q : Run} (h : s.vcp.run = some q) (f : Run → Run) :
    (onRun s f).vcp.run = some (f q) := by simp [onRun, onVcp, h]

end Sys2Proof.Machine
end

