-- ==== Sys2Proof/Tests/Slice0.lean ====
section
/-! SUPPORT. Tests on small states: well-formedness, worked examples of the spec, and for every statement with
hypotheses a state and operands that meet them. -/

namespace Sys2Proof.Tests

open Sys2Proof Sys2Proof.Machine

set_option Elab.async false

/-! States to test on. -/

/-- A module that runs unpaired. -/
def base : State := { phase := .ready, seq := { running := true }, pair := { st := .unpaired, aliveOut := true } }
/-- It stands at an epoch boundary. -/
def atE : State := { base with sfp := ⟨0x100, 0, 0⟩ }
/-- Active words of registers. -/
def put (l : List (Nat × Nat)) (s : State) : State :=
  forEach l s (fun t x => { t with regs := { t.regs with act := tput (regReset x.1) t.regs.act x.1 (word x.2) } })
/-- Staged words of registers. -/
def putStg (l : List (Nat × Nat)) (s : State) : State :=
  forEach l s (fun t x => { t with regs := { t.regs with stg := tput (regReset x.1) t.regs.stg x.1 (word x.2) } })
/-- A packet's command. -/
def rq (params : Bytes) (seq : BitVec 32 := 1) : Req := { ret := { via := .mgmtA }, seq := seq, params := params }
/-- Its execution. -/
def rn (op : BitVec 16) (r : Req) : Run := { req := r, op := op, accept := ⟨0x100, 0, 8192⟩, since := ⟨0x100, 0, 0⟩ }
/-- It is in execution in a state. -/
def runs (op : BitVec 16) (r : Req) (s : State) : State := { s with vcp := { s.vcp with run := some (rn op r) } }
/-- It has reached the second write of its guarded pair. -/
def rn2 (op : BitVec 16) (r : Req) : Run := { rn op r with work := 2 }
/-- Its guarded pair stands open. -/
def second (op : BitVec 16) (r : Req) (k a : Nat) (v : Word) (s : State) : State :=
  { s with vcp := { s.vcp with run := some (rn2 op r) }
           regs := { s.regs with pairs := [(k, { addr := a, val := v, at_ := ⟨0x100, 0, 0⟩ })] } }
/-- A guarded command's parameters, CONFIRM last (R275). -/
def guarded (op : BitVec 16) (p : Bytes) (seq : BitVec 32 := 1) : Bytes := p ++ beBytes 4 (confirmOf op seq)


/-! Well-formedness: each check refuses an ill-formed operand, and passes the same row's well-formed one. -/

theorem test_wf_refuses :
    (Instr.devInfo (rq (zeros 1469))).wf = false ∧ (Instr.mapWritePart (rq []) [10240] 0).wf = false ∧
    (Instr.mapCopyPart (rq []) [10240] 0).wf = false ∧ (Instr.mapClearPart (rq []) [10240] 0).wf = false ∧
    (Instr.hMapWritePart (rq []) [10240] 0).wf = false ∧ (Instr.stageRevertPart (rq []) [10240] 0).wf = false ∧
    (Instr.registerWrite 0 2 0).wf = false ∧ (Instr.mapHighWordWrite 0 2 0).wf = false ∧
    (Instr.mapLowWordWrite 0 2 0 false).wf = false ∧ (Instr.mapHighWordRead 0 2).wf = false ∧
    (Instr.postedWrite 0 2 0).wf = false ∧ (Instr.guardPairOpen 0 2 0).wf = false ∧ (Instr.guardTimeout 2).wf = false ∧
    (Instr.guardOrphan 0 2 0).wf = false ∧ (Instr.freqMeasurement []).wf = false ∧
    (Instr.historySample 0 256 0).wf = false ∧ (Instr.mgmtChunkReceive 0 [{}, {}] {}).wf = false ∧
    (Instr.o7Receive 0 [{}, {}, {}, {}] {}).wf = false ∧ (Instr.calendarCycle [(128, [])] []).wf = false ∧
    (Instr.calendarCycle [] [10240]).wf = false ∧ (Instr.mapScrub false true 128 .clean).wf = false ∧
    (Instr.mapScrub false false 10240 .clean).wf = false ∧ (Instr.mapScrub false false 0 (.single 72)).wf = false ∧
    (Instr.memoryScrub 0 0 (.single 72)).wf = false ∧ (Instr.mirrorAudit []).wf = false ∧
    (Instr.heartbeatTake 0 {} 641 false).wf = false ∧ (Instr.pktWrite 0 [0]).wf = false ∧
    (Instr.memPowerTransitionDone 0 16).wf = false ∧ (Instr.memPowerTransitionDone 1 8).wf = false ∧
    (Instr.memPowerTransitionDone 2 80).wf = false := by decide +kernel

/-- A mirrored group with a number of conditions and of requests. -/
def mirGrpOf (c r : Nat) : MirGrp :=
  { en := true, sel := false, conds := List.replicate c (false, 0, false), reqs := List.replicate r (0, false) }

theorem test_wf_refuses_mirror :
    (MirrorRec.mapStore true 10240 0).wf = false ∧ (MirrorRec.smiStore true 128 0).wf = false ∧
    (MirrorRec.viewWrite true 2 0).wf = false ∧ (MirrorRec.validation 0 0 10240).wf = false ∧
    (MirrorRec.group 2048 (mirGrpOf 3 3)).wf = false ∧ (MirrorRec.group 0 (mirGrpOf 2 3)).wf = false ∧
    (MirrorRec.group 0 (mirGrpOf 3 4)).wf = false ∧ (MirrorRec.urgent 128 []).wf = false ∧
    (MirrorRec.urgent 0 (List.replicate 193 (0, 0, 0, 0))).wf = false ∧ (MirrorRec.eq 2048 0 0).wf = false ∧
    (MirrorRec.eq 0 4 0).wf = false ∧ (MirrorRec.eq 0 0 2048).wf = false ∧ (MirrorRec.allot 1024 none).wf = false ∧
    (MirrorRec.thyme 5 none false false 0 none).wf = false ∧ (MirrorRec.cand 14 none none).wf = false ∧
    (MirrorRec.history []).wf = false ∧ (MirrorRec.historyAll [[]]).wf = false ∧ (MirrorRec.authHash 0 []).wf = false ∧
    (MirrorRec.segment true 0 [] [0, 0]).wf = false ∧ (MirrorRec.segment true 0 (List.replicate 160 0) [0]).wf = false ∧
    (MirrorRec.view true 0 [(2, 0)]).wf = false ∧ (MirrorRec.audit []).wf = false ∧ (MirrorRec.repair 142).wf = false := by
  decide +kernel

theorem test_wf_passes :
    (Instr.devInfo (rq (zeros 1468))).wf = true ∧ (Instr.mapWritePart (rq []) [10239] 0).wf = true ∧
    (Instr.registerWrite 0 4 0).wf = true ∧ (Instr.mapScrub true true 127 (.single 71)).wf = true ∧
    (Instr.memPowerTransitionDone 2 79).wf = true ∧ (Instr.mirrorRecordTake {} (.eq 2047 3 2047)).wf = true ∧
    (Instr.mirrorRecordTake {} (.segment true 63 (List.replicate 160 0) [0, 0])).wf = true := by
  decide +kernel

/-! No row of the table gives bits. -/

theorem test_decode_none : Sys2Proof.decodeTableWord 32 0xFFFFFFFF = none ∧ State.reset.withFetchWord 32 5 = State.reset :=
  ⟨rfl, rfl⟩

/-! Worked examples of the spec. -/

/-- The bytes of "123456789". -/
def digits : Bytes := [0x31, 0x32, 0x33, 0x34, 0x35, 0x36, 0x37, 0x38, 0x39]

/-- The check values of R111's CRC-8, R112's CRC-16 and the CRC-32 of Ethernet. -/
theorem test_crc_check_values : crc8 digits = 0xF4 ∧ crc16 digits = 0x29B1 ∧ crc32 digits = 0xCBF43926 := by decide +kernel

/-- SHA-256 of "abc" (FIPS 180-4, which file 12 names). -/
theorem test_sha256_abc : slice (sha256 [0x61, 0x62, 0x63]) 0 8 = [0xBA, 0x78, 0x16, 0xBF, 0x8F, 0x01, 0xCF, 0xEA] := by
  decide +kernel

/-- The O0 word of file 05's worked example: FI 3, MAP_SEL 1, CRC-8 0x61. -/
theorem test_o0_word :
    let w : W56 := 0xE471B218620061
    bits w 55 32 = 0xE471B2 ∧ o0Fi w = 3 ∧ o0MapSel w = true ∧ o0Rdi w = false ∧ o0Lpbk w = false ∧
    crc8 [0xE4, 0x71, 0xB2, 0x18, 0x62, 0x00] = 0x61 := by decide +kernel

/-- The entries of file 07's worked example: G5140 of HX-07 and G720 of HX-12. -/
theorem test_map_entries :
    let e : Entry := 0x814000000006C800
    let f : Entry := 0xB00A42280226C800
    (eValid e, eKind e, eSrcPort e, eSrcSlot e, eHolder e) = (true, 0, 5, 0, 217) ∧
    (eValid f, eKind f, eSrcPort f, eSrcSlot f) = (true, 1, 64, 20) ∧
    (eAltPort f, eAltSlot f, eGroup f, eHolder f, eSel f) = (66, 20, 17, 217, false) := by decide +kernel

/-- G5140 is written through the host port: its high word to 0x2002_A0A0, then its low word to 0x2002_A0A4. -/
theorem test_map_write :
    (match exec (.mapHighWordWrite 1 0x2002A0A0 0x81400000) base with
     | .next s => (match exec (.mapLowWordWrite 1 0x2002A0A4 0x0006C800 false) s with
       | .next t => entryOf t.map true 5140 == 0x814000000006C800 && entryOf t.map false 5140 == 0
       | _ => false)
     | _ => false) = true := by decide +kernel

/-- PORT_EB of P64 (file 18): a write to 0x4021_0004 stages, and leaves the active view. -/
theorem test_port_eb :
    (match exec (.registerWrite 1 0x40210004 8) (put [(0x40210004, 4)] base) with
     | .next t => readReg t 0x40210004 == 4 && readReg t 0x40310004 == 8
     | _ => false) = true := by decide +kernel

/-- Group 17 of file 18's worked example, its configuration registers read as it decodes them. -/
theorem test_group_17 :
    let v := actv (put [(0x40601100, 0x0A05007B), (0x40601104, 0x00140011), (0x40601140, 0x02D002D1)] base)
    gEn v 17 = true ∧ gArch v 17 = 1 ∧ gRevert v 17 = true ∧ gApsEn v 17 = true ∧ gErrorless v 17 = true ∧
    gHoldoff v 17 = 0 ∧ gWtr v 17 = 5 ∧ gHome v 17 = 10 ∧ gApsId v 17 = 17 ∧ gCount v 17 = 20 ∧
    gMember v 17 0 = 720 ∧ gMember v 17 1 = 721 := by decide +kernel

/-- Its status registers, ALIGNED on working and then in HOLD on protection. -/
theorem test_group_17_status :
    let one := fun (x : GrpSt) => put [(0x40601100, 0x0A05007B)] { base with grps := [(17, x)] }
    let lock : MarkSt := { lock := true }
    let s := one { en := true, eq := .aligned, e := 124, mw := lock, mp := lock }
    let t := one { en := true, eq := .hold, sel := true, loc := 8, locSig := true, eff := 8, effSig := true, remSig := true }
    readReg s 0x40680220 = 0x0000000A ∧ readReg s 0x40680238 = 0x0000307C ∧
    readReg t 0x40680220 = 0x0008080F ∧ readReg t 0x40680234 = 0x00000007 := by decide +kernel

/-- CONFIRM of opcode 0x0912 with SEQ 0x0002_3C07 (file 14). -/
theorem test_confirm : confirmOf 0x0912 0x00023C07 = 0xF6EDC3F8 := by decide

/-- The COMMIT packet of Table 12-16. -/
theorem test_commit_packet :
    let b : Bytes := [0x10, 0x42, 0x80, 0x03, 0, 0, 0, 5, 0, 1, 0x2A, 0x40, 0x0B, 1, 0, 12,
                      1, 0, 0, 0, 0x5A, 0, 8, 0, 0, 0, 0, 0] ++ zeros 16
    vcMalformed b = false ∧ vcPri b = 1 ∧ vcHop b = 2 ∧ vcGrp b = true ∧ vcDest b = 3 ∧ vcOrigin b = none ∧ vcAuth b = 5 ∧
    vcSeq b = 0x00012A40 ∧ vcOp b = 0x0B01 ∧ vcPlen b = 12 ∧ (vcParams b).getD 0 0 = 1 ∧
    sfpOfBytes (vcParams b) 2 = epochAt 0x5A000800 := by decide +kernel

/-- EARLIEST: the acceptance MFC + 2 at an epoch boundary, else + 3 (file 13). -/
theorem test_earliest : earliest ⟨0x100, 0, 0⟩ = 0x102 ∧ earliest ⟨0x100, 0, 1⟩ = 0x103 := by decide

/-- Hold-off and WTR in frames (file 08): 0.1 s, 10 s, 5 min and 12 min. -/
theorem test_protection_times :
    framesOfTenths 1 = 955 ∧ framesOfTenths 100 = 95410 ∧ framesOfTenths 3000 = 2862281 ∧ framesOfTenths 7200 = 6869474 := by
  decide

/-- Guard, window and its end in file 03's worked example. -/
theorem test_holdover_window :
    let s : State := { base with sfp := ⟨0x4100006C, 4, 0⟩ }
    guardMf s = 17890 ∧ windowN s = 699 ∧ windowEnd s = 0x40FFBA00 := by decide +kernel

/-- The distance of file 19's latency example, and its latency in ns. -/
theorem test_latency : sfpDist ⟨7, 3, 16384⟩ ⟨7, 5, 144⟩ = 311296 ∧ 311296 * 64 / 100 = 199229 := by decide

/-- A multiframe carries into the MFC, modulo 2^48 (R80). -/
theorem test_sfp_wraps : sfpNext ⟨0xFFFFFFFFFFFF, 31, 163767⟩ = ⟨0, 0, 0⟩ := by decide +kernel

/-! Hypotheses of the statements: for each, states and operands that meet them, at least one for each clause. -/

namespace Thyme

def cand (c : Nat) (x : CandSt) (s : State) : State := put [(aCandCfg c, 1)] (onCand s c (fun _ => x))
def v1 : State := (cand 3 { fault := true, qualified := true, hold := some 0 } atE)
def v2 : State := (cand 3 { disq := true, wtr := some 0 } atE)
def v3 : State := (cand 3 { qual := some 0 } atE)
def v5 : State := {atE with thy := { st := .acquiring, lockRun := 100000 }}
def due (st : ThyState) : State := put [(aCandCfg 4, 1), (aThyCfg0, 1)] {atE with thy := { st := st, next := some (4,1,⟨0x100,0,0⟩), cands := [(4, { qualified := true })] }}
def v6 : State := due .acquiring
def v8 : State := due .expired
def v7 : State := due .locked
def v9 : State := {atE with thy := { st := .holdover, hbAccum := 10^34*86400 }}
def v11 : State := (cand 3 {winOk := true, bad := 1, beyond := true} (cand 2 {winOk := true, freqFault := true} (cand 1 {winOk := true} (cand 0 { winOk := true, bad := 1 } atE))))
def v12 : State := {atE with thy := { pendQl := [(⟨0x100,0,0⟩,2,4)], pendForce := some (⟨0x100,0,0⟩, some 3), pendMfc := some (⟨0x100,0,0⟩, some 77) }}
def v13 : Option ℕ := (some 3)
def v14 : State := {atE with thy := { pendMfc := some (⟨0x100,0,0⟩, none) }}
def v15 : State := (put [(aThyCfg0, 0x20)] {atE with thy := { learned := some 77 }})
def v16 : State := {atE with thy := { pendMfc := some (⟨0x100,0,0⟩, some 77) }, com := { ents := [(0,{epoch := 78, mask := 1}), (2,{epoch := 79, mask := 1}), (3,{epoch := 50, mask := 1, st := .applied})], snaps := [(⟨77,1,0⟩,3),(⟨77,2,0⟩,3)] }}
def v17 : State := {atE with thy := { ref := some 3, ivLocked := true, ivEpochs := some 256 }}
def v18 : State := {atE with thy := { ivFault := true, ivLocked := true, ivEpochs := some 255, ivCtl := some 5 }}
def v19 : State := {v17 with pair := { st := .standby }}
def fp (x : FpSt) : State := put [(aCandCfg 12, 1), (aThyCfg0, 8)] { atE with thy := { fp := [(0, x)] } }
def fpA (x : FpSt) : State := { fp x with thy := { (fp x).thy with fpAligned := true } }
def v20 : State := (fpA { last := some ⟨0x100,0,0⟩, onTime := true })
def v21 : State := (fpA { last := some ⟨0xFF,0,0⟩, onTime := true, present := true, good := 14 })
def v22 : State := { fpA { last := some ⟨0xFF,0,450⟩, good := 14, qualified := true, off := 7, offAt := 450 } with sfp := ⟨0x100, 0, 450⟩ }
def v30 : State := (fp { last := some ⟨0xFF,0,0⟩, good := 14 })
def v31 : State := (fp { last := some ⟨0xFF,0,400⟩, good := 14 })
def v23 : State := { fpA { last := some ⟨0xFF,0,0⟩, present := true, good := 14, qualified := true, missed := 2 } with sfp := ⟨0x101, 0, 100⟩ }
def v32 : State := { fpA { last := some ⟨0xFF,0,0⟩, present := true, good := 14, qualified := true, missed := 1 } with sfp := ⟨0x101, 0, 100⟩ }
def v24 : State := (put [(aCandCfg 12, 1), (aThyCfg0, 8)] { atE with thy := { pendRealign := some ⟨0x100,0,0⟩, fp := [(0, { last := some ⟨0xFF,3,7⟩, present := true })] } })
def v33 : State := { atE with thy := { pendRealign := some ⟨0x100,0,0⟩ } }
def v25 : Bytes := ([0x01,0x80,0xC2,0,0,2,0,0,0,0,0,0,0x88,9,0x0A,0,0x19,0xA7,0,1,0x10,0,0,0,1,0,4,2]++zeros 32 ++ fcsBytes ([0x01,0x80,0xC2,0,0,2,0,0,0,0,0,0,0x88,9,0x0A,0,0x19,0xA7,0,1,0x10,0,0,0,1,0,4,2]++zeros 32))
def v26 : State := (put [(aPortCfg 5, 2)] { atE with ports := [(5, { client := { esmcAge := some 1500 } })] })
def v27 : State := { atE with thy := { daysLoaded := true, days := 3, dayAt := some (sfpOff ⟨0x100,0,0⟩ (-135000000000000)) } }
def bq : Bytes := [0x01,0x80,0xC2,0,0,2,0,0,0,0,0,0,0x88,9,0x0A,0,0x19,0xA7,0,1,0x10,0,0,0,1,0,4,3] ++ zeros 32
def v28 : Bytes := (bq ++ fcsBytes bq)
def v29 : State := (put [(aPortCfg 5, 2)] atE)
def two : State := put [(aCandCfg 1, 1), (aCandCfg 2, 1), (aThyCfg0, 1)] { atE with thy := { mfcValid := true, cands := [(1, { qualified := true }), (2, { qualified := true })] } }

/-- States and operands that meet the hypotheses of CandidateQualification. -/
theorem wit_CandidateQualification :
    ((powered v1 = true) ∧ (isFrame v1.sfp = true) ∧ (candEn v1 3 = true) ∧ ((candOf v1 3).fault = true) ∧
      ((candOf v1 3).qualified = true) ∧ ((candOf v1 3).hold = some 0)) ∧
    ((powered v2 = true) ∧ (isFrame v2.sfp = true) ∧ (candEn v2 3 = true) ∧ ((candOf v2 3).disq = true) ∧
      ((candOf v2 3).fault = false) ∧ ((candOf v2 3).wtr = some 0)) ∧
    ((powered v3 = true) ∧ (isFrame v3.sfp = true) ∧ (candEn v3 3 = true) ∧ ((candOf v3 3).disq = false) ∧
      ((candOf v3 3).fault = false) ∧ ((candOf v3 3).qualified = false) ∧ ((candOf v3 3).qual = some 0)) :=
  ⟨by decide +kernel,
   by decide +kernel,
   by decide +kernel⟩

/-- States and operands that meet the hypotheses of DpllTransitions. -/
theorem wit_DpllTransitions :
    ((powered v5 = true) ∧ (isFrame v5.sfp = true) ∧ (isStandby v5 = false) ∧ (v5.thy.st = ThyState.acquiring) ∧
      (v5.thy.refFault = false) ∧ (v5.thy.changedAt ≠ some v5.sfp) ∧ (32 * tLockTime (actv v5) ≤ v5.thy.lockRun)) ∧
    ((powered v6 = true) ∧ (isFrame v6.sfp = true) ∧ (isStandby v6 = false) ∧ (v6.thy.next = some (4, 1, v6.sfp)) ∧
      (4 < 12) ∧ (eligible v6 4 = true) ∧ ((candOf v6 4).fault = false) ∧
      (v6.thy.st = ThyState.acquiring ∨ v6.thy.st = ThyState.locked)) ∧
    ((powered v7 = true) ∧ (isFrame v7.sfp = true) ∧ (isStandby v7 = false) ∧ (v7.thy.next = some (4, 1, v7.sfp)) ∧
      (4 < 12) ∧ (eligible v7 4 = true) ∧ ((candOf v7 4).fault = false) ∧
      (v7.thy.st = ThyState.acquiring ∨ v7.thy.st = ThyState.locked)) ∧
    ((powered v8 = true) ∧ (isFrame v8.sfp = true) ∧ (isStandby v8 = false) ∧ (v8.thy.next = some (4, 1, v8.sfp)) ∧
      (4 < 12) ∧ (eligible v8 4 = true) ∧ ((candOf v8 4).fault = false) ∧
      (v8.thy.st = ThyState.freerun ∨ v8.thy.st = ThyState.holdover ∨ v8.thy.st = ThyState.expired)) ∧
    ((powered v9 = true) ∧ (isFrame v9.sfp = true) ∧ (isStandby v9 = false) ∧ (isEpoch v9.sfp = true) ∧
      (v9.thy.st = ThyState.holdover) ∧ (v9.thy.next = none) ∧ (v9.thy.changedAt ≠ some v9.sfp) ∧
      (hbLimit v9 ≤ v9.thy.hbAccum)) :=
  ⟨by decide +kernel,
   by decide +kernel,
   by decide +kernel,
   by decide +kernel,
   by decide +kernel⟩

/-- States and operands that meet the hypotheses of PeriodicMeasurements. -/
theorem wit_PeriodicMeasurements :
    ((powered v11 = true) ∧ (isEpoch v11.sfp = true) ∧ (v11.sfp.mfc % 16 = 0)) ∧
    ((powered v27 = true) ∧ (v27.thy.dayAt = some (sfpOff { mfc := 256 } (-135000000000000 : ℤ))) ∧
      (v27.thy.days < 65535) ∧
      ((135000000000000 : ℤ) ≤ sfpDist (sfpOff { mfc := 256 } (-135000000000000 : ℤ)) v27.sfp) ∧ (true = true)) ∧
    ((powered v27 = true) ∧ (v27.thy.dayAt = some (sfpOff { mfc := 256 } (-135000000000000 : ℤ))) ∧
      (v27.thy.days < 65535) ∧
      ((135000000000000 : ℤ) ≤ sfpDist (sfpOff { mfc := 256 } (-135000000000000 : ℤ)) v27.sfp) ∧ (false = false)) :=
  ⟨by decide +kernel,
   by decide +kernel,
   by decide +kernel⟩

/-- States and operands that meet the hypotheses of TimingActs. -/
theorem wit_TimingActs :
    ((powered v12 = true) ∧ (77 < 2 ^ 48) ∧ (v12.thy.pendQl = [(v12.sfp, 2, (4 : BitVec 4))]) ∧
      (v12.frameDone ≠ some v12.sfp) ∧ (v12.thy.pendForce = some (v12.sfp, v13)) ∧
      (v12.thy.pendMfc = some (v12.sfp, some 77))) ∧
    ((powered v14 = true) ∧ (77 < 2 ^ 48) ∧ (v14.thy.pendMfc = some (v14.sfp, none))) ∧
    ((powered v15 = true) ∧ (77 < 2 ^ 48) ∧ (v15.thy.learned = some 77) ∧ (isEpoch v15.sfp = true) ∧
      (v15.thy.mfcValid = false) ∧ (tMfcMode (actv v15) = true) ∧ (isStandby v15 = false)) ∧
    ((powered v16 = true) ∧ (77 < 2 ^ 48) ∧ (v16.thy.pendMfc = some (v16.sfp, some 77)) ∧ (tsorted v16.com.ents = true)) :=
  ⟨by decide +kernel,
   by decide +kernel,
   by decide +kernel,
   by decide +kernel⟩

/-- States and operands that meet the hypotheses of HistoryAndPulses. -/
theorem wit_HistoryAndPulses :
    ((powered v17 = true) ∧ (isEpoch v17.sfp = true) ∧ (v17.sfp.mfc % 256 = 0) ∧ (v17.sfp.mfc < 2 ^ 48) ∧
      (v17.thy.ivEpochs ≠ some 0) ∧ (v17.pair.st ≠ PairState.standby) ∧ (v17.pair.st ≠ PairState.syncing) ∧
      (v17.thy.ivCtl = none) ∧ (9 ≤ 255) ∧
      ((256 : BitVec 16) ≠ (32768 : BitVec 16) ∧ (-880 : ℤ) ≤ BitVec.toInt (256 : BitVec 16) ∧ BitVec.toInt (256 : BitVec 16) ≤ (2000 : ℤ))) ∧
    ((powered v18 = true) ∧ (isEpoch v18.sfp = true) ∧ (v18.sfp.mfc % 256 = 0) ∧ (v18.sfp.mfc < 2 ^ 48) ∧
      (v18.thy.ivEpochs ≠ some 0) ∧ (v18.pair.st ≠ PairState.standby) ∧ (v18.pair.st ≠ PairState.syncing) ∧
      (v18.thy.ref = none) ∧
      (¬((32768 : BitVec 16) ≠ (32768 : BitVec 16) ∧ (-880 : ℤ) ≤ BitVec.toInt (32768 : BitVec 16) ∧ BitVec.toInt (32768 : BitVec 16) ≤ (2000 : ℤ)))) ∧
    ((powered v19 = true) ∧ (isEpoch v19.sfp = true) ∧ (v19.sfp.mfc % 256 = 0) ∧ (v19.sfp.mfc < 2 ^ 48) ∧
      (v19.thy.ivEpochs ≠ some 0) ∧ (v19.pair.st = PairState.standby ∨ v19.pair.st = PairState.syncing) ∧
      ((256 : BitVec 16) ≠ (32768 : BitVec 16) ∧ (-880 : ℤ) ≤ BitVec.toInt (256 : BitVec 16) ∧ BitVec.toInt (256 : BitVec 16) ≤ (2000 : ℤ))) ∧
    ((powered v20 = true) ∧ (fpEnabled v20 0 = true) ∧ (0 = 2 → mfcPortReady v20 = true) ∧ (fpExtra v20 0 = true)) ∧
    ((powered v21 = true) ∧ (fpEnabled v21 0 = true) ∧ (0 = 2 → mfcPortReady v21 = true) ∧ (fpExtra v21 0 = false) ∧
      (fpPredicted v21 0 = true) ∧ ((fpErr v21 0).natAbs ≤ tFpWindow (actv v21)) ∧ ((fpOf v21 0).good < 15)) ∧
    ((powered v22 = true) ∧ (fpEnabled v22 0 = true) ∧ (0 = 2 → mfcPortReady v22 = true) ∧ (fpExtra v22 0 = false) ∧
      (fpPredicted v22 0 = true) ∧ (tFpWindow (actv v22) < (fpErr v22 0).natAbs)) ∧
    ((powered v30 = true) ∧ (fpEnabled v30 0 = true) ∧ (0 = 2 → mfcPortReady v30 = true) ∧ (fpExtra v30 0 = false) ∧
      (fpPredicted v30 0 = false) ∧ (fpRegular v30 0 = true) ∧ ((fpOf v30 0).good < 15)) ∧
    ((powered v31 = true) ∧ (fpEnabled v31 0 = true) ∧ (0 = 2 → mfcPortReady v31 = true) ∧ (fpExtra v31 0 = false) ∧
      (fpPredicted v31 0 = false) ∧ (fpRegular v31 0 = false)) ∧
    ((powered v23 = true) ∧ (fpEnabled v23 0 = true) ∧ (0 = 2 → mfcPortReady v23 = true) ∧ (fpExtra v23 0 = false) ∧
      (fpPredicted v23 0 = true) ∧ ((fpErr v23 0).natAbs ≤ tFpWindow (actv v23)) ∧ ((fpOf v23 0).good < 15) ∧
      (fpMissing v23 0 = true) ∧ (2 ≤ (fpOf v23 0).missed)) ∧
    ((powered v32 = true) ∧ (fpEnabled v32 0 = true) ∧ (0 = 2 → mfcPortReady v32 = true) ∧ (fpExtra v32 0 = false) ∧
      (fpPredicted v32 0 = true) ∧ ((fpErr v32 0).natAbs ≤ tFpWindow (actv v32)) ∧ ((fpOf v32 0).good < 15) ∧
      (fpMissing v32 0 = true) ∧ ((fpOf v32 0).missed < 2)) ∧
    ((powered v24 = true) ∧ (v24.thy.pendRealign = some v24.sfp) ∧ (realignInput v24 = some 0) ∧ (v24.sfp.mfc < 2 ^ 48)) ∧
    ((powered v33 = true) ∧ (v33.thy.pendRealign = some v33.sfp) ∧ (realignInput v33 = none)) :=
  ⟨by decide +kernel,
   by decide +kernel,
   by decide +kernel,
   by decide +kernel,
   by decide +kernel,
   by decide +kernel,
   by decide +kernel,
   by decide +kernel,
   by decide +kernel,
   by decide +kernel,
   by decide +kernel,
   by decide +kernel⟩

/-- States and operands that meet the hypotheses of EsmcRows. -/
theorem wit_EsmcRows :
    ((powered v26 = true) ∧ (isClient v26 5 = true) ∧ (esmcOk v25 = true) ∧
      (bits (List.getD v25 27 (0 : Byte)) 3 0 = 2 ∨ bits (List.getD v25 27 (0 : Byte)) 3 0 = 4 ∨ bits (List.getD v25 27 (0 : Byte)) 3 0 = 8 ∨ bits (List.getD v25 27 (0 : Byte)) 3 0 = 11 ∨ bits (List.getD v25 27 (0 : Byte)) 3 0 = 15) ∧
      ((portOf v26 5).client.esmcAge = some 1500) ∧ (1491 ≤ 1500) ∧ ((portOf v26 5).qlStale = false)) ∧
    ((powered v29 = true) ∧ (isClient v29 5 = true) ∧ (esmcOk v28 = true) ∧
      (bits (List.getD v28 27 (0 : Byte)) 3 0 ≠ 2 ∧ bits (List.getD v28 27 (0 : Byte)) 3 0 ≠ 4 ∧ bits (List.getD v28 27 (0 : Byte)) 3 0 ≠ 8 ∧ bits (List.getD v28 27 (0 : Byte)) 3 0 ≠ 11 ∧ bits (List.getD v28 27 (0 : Byte)) 3 0 ≠ 15)) :=
  ⟨by decide +kernel,
   by decide +kernel⟩

/-- States and operands that meet the hypotheses of SelectionChoosesBest. -/
theorem wit_SelectionChoosesBest :
    (two.thy.force = none) ∧ (tNonrevert (actv two) = false) ∧ (choose two = some 1) ∧ (2 < 12) ∧
      (eligible two 2 = true) ∧ (2 ≠ 1) :=
  by decide +kernel


end Thyme

namespace TimingCmd

def cw2 : Req := rq [3, 2, 64, 0x10, 0xB, 0, 0, 90, 0, 50, 0,0]
def tw : Req := rq ([0x07, 64, 0x7B, 10, 1, 0, 0xBB, 12, 1, 0] ++ zeros 12 ++ beBytes 2 600 ++ beBytes 2 60 ++ beBytes 2 100 ++ beBytes 2 160 ++ beBytes 2 100 ++ beBytes 2 10 ++ beBytes 4 1000 ++ [0,0])
def ow : Req := rq [4, 0x11, 0,0, 0xFF,0xFF,0xFF,0xFF]
def v1 : Run := (rn 0x0501 cw2)
def v2 : State := (runs 0x0501 cw2 atE)
def v3 : Run := (rn 0x0502 tw)
def v4 : State := (runs 0x0502 tw atE)
def v5 : Run := (rn 0x0503 ow)
def v6 : State := (runs 0x0503 ow atE)
def r1 : Req := rq [0,1,3]
def v7 : Run := (rn 0x0504 r1)
def v8 : State := (runs 0x0504 r1 (put [(aCandCfg 3, 0xB105502),(aCandTmr 3, 0x5A005A)] atE))
def r0 : Req := rq []
def v9 : Run := (rn 0x0505 r0)
def v10 : State := (runs 0x0505 r0 {atE with thy := {st := .locked, allDnu := true, flywheel := true}})
def r2 : Req := rq [0,1,0,3]
def v11 : Run := (rn 0x050B r2)
def v12 : State := (runs 0x050B r2 {atE with thy := {hist := [{mfc := 0x100},{mfc:=0},{mfc:=0}] }})
def q1 : Req := rq [2,4]
def v13 : Run := (rn 0x0506 q1)
def v14 : State := (runs 0x0506 q1 atE)
def q2 : Req := rq [255]
def v15 : Run := (rn 0x0507 q2)
def v16 : State := (runs 0x0507 q2 atE)
def q3 : Req := rq [0,0,0,0,1,0]
def v17 : Run := (rn 0x0508 q3)
def v18 : State := (runs 0x0508 q3 atE)
def v19 : Run := (rn 0x0509 r0)
def v20 : State := (runs 0x0509 r0 atE)
def q5 : Req := rq (guarded 0x050A [])
def v21 : Run := (rn 0x050A q5)
def v22 : State := (runs 0x050A q5 (put [(aCandCfg 12, 1), (aThyCfg0, 8)] { atE with thy := { fp := [(0, { last := some ⟨0xFF,3,7⟩, present := true })] } }))
def v23 : State := (runs 0x050A q5 atE)
def v24 : State := (runs 0x0508 q3 (put [(aThyCfg0, 0x20)] atE))
def v25 : State := (runs 0x0509 r0 (put [(aThyCfg0, 0x20)] atE))
/-- A mirror queue without space for a record. -/
def fullMir (s : State) : State :=
  { s with pair := { s.pair with st := .active, hb0 := some s.sfp, peer := some (5, false, false, 0) }
           mir := { at_ := some s.sfp, q := [{ at_ := s.sfp, full := true, body := .historyAll (List.replicate 8191 []) }] } }
def v26 : State := fullMir v2
def ans : Reply := { req := q1, op := 0x0506, status := 0, detail := 0, remain := 0, accept := ⟨0x100, 0, 8192⟩ }
def fin (e : EndAct) : Run := { rn 0x0506 q1 with reply := some ans, atEnd := some e }
def done (q : Run) : State := { atE with vcp := { run := some q } }

/-- States and operands that meet the hypotheses of TimingCommands. -/
theorem wit_TimingCommands :
    ((frozenNow v2 3 = false) ∧ (mirHeld v2 = false) ∧ (Accepted (1281 : BitVec 16) cw2 v1 v2) ∧
      (candArgsOk cw2.params = true)) ∧
    ((frozenNow v4 3 = false) ∧ (mirHeld v4 = false) ∧ (Accepted (1282 : BitVec 16) tw v3 v4) ∧
      (thyArgsOk tw.params = true)) ∧
    ((frozenNow v6 3 = false) ∧ (mirHeld v6 = false) ∧ (Accepted (1283 : BitVec 16) ow v5 v6) ∧
      (outArgsOk ow.params = true)) ∧
    ((frozenNow v26 3 = false) ∧ (mirHeld v26 = true) ∧ (Accepted (1281 : BitVec 16) cw2 v1 v26) ∧
      (candArgsOk cw2.params = true)) ∧
    ((Accepted (1284 : BitVec 16) r1 v7 v8) ∧ (pk1 r1.params 0 ≤ 1) ∧ (pk1 r1.params 1 = 1) ∧ (pk1 r1.params 2 ≤ 13)) ∧
    ((Accepted (1285 : BitVec 16) r0 v9 v10)) ∧
    ((Accepted (1291 : BitVec 16) r2 v11 v12) ∧ (pkNat r2.params 0 2 ≤ 4095) ∧ (1 ≤ pkNat r2.params 2 2) ∧
      (pkNat r2.params 2 2 ≤ 80) ∧ (pkNat r2.params 0 2 + pkNat r2.params 2 2 ≤ 4096)) ∧
    ((Accepted (1286 : BitVec 16) q1 v13 v14) ∧ (pk1 q1.params 0 ≤ 3) ∧ (qlCode (pk1 q1.params 1 % 16) = true)) ∧
    ((Accepted (1287 : BitVec 16) q2 v15 v16) ∧ (pk1 q2.params 0 ≤ 11 ∨ pk1 q2.params 0 = 255)) ∧
    ((Accepted (1288 : BitVec 16) q3 v17 v18) ∧ (tMfcMode (actv v18) = false)) ∧
    ((Accepted (1288 : BitVec 16) q3 v17 v24) ∧ (tMfcMode (actv v24) = true)) ∧
    ((Accepted (1289 : BitVec 16) r0 v19 v20) ∧ (tMfcMode (actv v20) = false)) ∧
    ((Accepted (1289 : BitVec 16) r0 v19 v25) ∧ (tMfcMode (actv v25) = true)) ∧
    ((Accepted (1290 : BitVec 16) q5 v21 v22) ∧ (tFrameSrc (actv v22) ≠ 0) ∧ ((realignInput v22).isSome = true)) ∧
    ((Accepted (1290 : BitVec 16) q5 v21 v23) ∧ (tFrameSrc (actv v23) = 0 ∨ realignInput v23 = none)) ∧
    ((powered (done (fin (EndAct.ql 2 (4 : BitVec 4)))) = true) ∧
      ((done (fin (EndAct.ql 2 (4 : BitVec 4)))).vcp.run = some (fin (EndAct.ql 2 (4 : BitVec 4)))) ∧
      ((fin (EndAct.ql 2 (4 : BitVec 4))).reply = some ans) ∧
      ((fin (EndAct.ql 2 (4 : BitVec 4))).atEnd = some (EndAct.ql 2 (4 : BitVec 4)))) ∧
    ((powered (done (fin (EndAct.force none))) = true) ∧
      ((done (fin (EndAct.force none))).vcp.run = some (fin (EndAct.force none))) ∧
      ((fin (EndAct.force none)).reply = some ans) ∧ ((fin (EndAct.force none)).atEnd = some (EndAct.force none))) ∧
    ((powered (done (fin (EndAct.mfc none))) = true) ∧
      ((done (fin (EndAct.mfc none))).vcp.run = some (fin (EndAct.mfc none))) ∧
      ((fin (EndAct.mfc none)).reply = some ans) ∧ ((fin (EndAct.mfc none)).atEnd = some (EndAct.mfc none))) ∧
    ((powered (done (fin EndAct.realign)) = true) ∧ ((done (fin EndAct.realign)).vcp.run = some (fin EndAct.realign)) ∧
      ((fin EndAct.realign).reply = some ans) ∧ ((fin EndAct.realign).atEnd = some EndAct.realign)) :=
  ⟨by decide +kernel,
   by decide +kernel,
   by decide +kernel,
   by decide +kernel,
   by decide +kernel,
   by decide +kernel,
   by decide +kernel,
   by decide +kernel,
   by decide +kernel,
   by decide +kernel,
   by decide +kernel,
   by decide +kernel,
   by decide +kernel,
   by decide +kernel,
   by decide +kernel,
   by decide +kernel,
   by decide +kernel,
   by decide +kernel,
   by decide +kernel⟩


end TimingCmd

namespace Commit

def cm (m : Byte) (e : Nat) : Req := rq (m :: 0 :: sfpBytes (epochAt e))
def s1 := runs 0x0B01 (cm 3 0x105) atE
def v1 : Req := (cm 3 0x105)
def v2 : Run := (rn 0x0B01 (cm 3 0x105))
def x0 : CommitEnt := {epoch := 0x105, mask := 4, recs := [(1,2)]}
def s2 : State := { s1 with com := { ents := [(0,{epoch := 0x104, mask := 1}),(1,x0)] } }
def full : List (Nat × CommitEnt) := (List.range 16).map (fun i => (i, {epoch := 0x200+i, mask := 1}))
def s3 : State := { s1 with com := { ents := full } }
def s4 : State := { s1 with com := { ents := full, suspect := 2 } }
def v4 : Req := (cm 3 0x102)
def v5 : Run := (rn 0x0B01 (cm 3 0x102))
def v6 : State := (runs 0x0B01 (cm 3 0x102) atE)
def v7 : Req := (cm 3 0x10000101)
def v8 : Run := (rn 0x0B01 (cm 3 0x10000101))
def v9 : State := (runs 0x0B01 (cm 3 0x10000101) atE)
def v10 : Req := (cm 0 0x102)
def v11 : Run := (rn 0x0B01 (cm 0 0x102))
def v12 : State := (runs 0x0B01 (cm 0 0x102) atE)
def g1 : Req := { cm 3 0x105 with grp := true }
def v13 : Run := (rn 0x0B01 g1)
def v14 : State := (runs 0x0B01 g1 { atE with thy := { mfcMism := true } })
def s5 : State := runs 0x0B02 (cm 4 0x105) { atE with com := { ents := [(0,{epoch := 0x104, mask := 1}),(1,x0)] } }
def v15 : Req := (cm 4 0x105)
def v16 : Run := (rn 0x0B02 (cm 4 0x105))
def x1 : CommitEnt := {x0 with mask := 12}
def s6 : State := runs 0x0B02 (cm 4 0x105) { atE with com := { ents := [(0,{epoch := 0x104, mask := 1}),(1,x1)] } }
def x2 : CommitEnt := {x0 with st := .armed}
def s7 : State := runs 0x0B02 (cm 4 0x105) { atE with com := { ents := [(0,{epoch := 0x104, mask := 1}),(1,x2)] } }
def e0 : Req := rq []
def v17 : Run := (rn 0x0B03 e0)
def v18 : State := (runs 0x0B03 e0 s7)
def v19 : Run := (rn 0x0B06 e0)
def v20 : State := (runs 0x0B06 e0 s7)
def e1 : Req := rq [0x0C]
def s8 : State := { put [(aCandCfg 3, 5), (aGrpCfg 7, 9), (aPortCfg 5, 1)] (putStg [(aCandCfg 4, 5), (aPortCfg 5, 2)] atE) with com := {suspect := 0xF} }
def v21 : Run := (rn 0x0B04 e1)
def v22 : State := (runs 0x0B04 e1 s8)
def v23 : Run := (rn 0x0B05 e1)
def v24 : State := (runs 0x0B05 e1 s8)
def y0 : CommitEnt := {epoch := 0x101, mask := 5}
def v25 : State := {s8 with com := {ents := [(2,y0)]}}
def y1 : CommitEnt := {epoch := 0x100, mask := 0x0A, st := .armed, validating := true}
def v26 : State := {s8 with com := {ents := [(2,y1)], frozen := 0x0A}}
def y2 : CommitEnt := {epoch := 0x100, mask := 0xF7, st := .armed, validating := true}
def v27 : State := {s8 with com := {ents := [(2,y2)], frozen := 0xF7}}
def y3 : CommitEnt := {epoch := 0x100, mask := 0xF7, st := .discarded, reason := 2}
def v28 : State := {s8 with com := {ents := [(2,y3)], frozen := 0xF7}}
def y4 : CommitEnt := {epoch := 0x100, mask := 0x02, st := .armed, validating := true}
def v29 : State := {putStg [(aPortCfg 5, 7)] s8 with com := {ents := [(2,y4)], frozen := 0xF7}}
def vd (q : Run) (st d : Byte) (l : Bytes) : Run := { q with verdict := some (st, d, l) }
def refused (st d : Byte) (l : Bytes) : State := { atE with vcp := { run := some (vd v2 st d l) } }
def waitLock (s : State) : State := { s with auto := { s.auto with stage := .waitLock } }
def qd : Queued := { req := cm 3 0x105, op := 0x0B01, gen := 0 }
def offered : State := { atE with vcp := { queue := [qd] } }
def onTick : State := { atE with com := { suspect := 4 } }
def y5 : CommitEnt := {epoch := 0x100, mask := 8, st := .armed, validating := true}
def v30 : State := {putStg [(aThy + 0x01C, 0x7FFFFFFF)] atE with com := {ents := [(2,y5)], frozen := 8}}

/-- States and operands that meet the hypotheses of CommitOutcome. -/
theorem wit_CommitOutcome :
    ((Begun (2817 : BitVec 16) v1 v2 s1) ∧ (sfpDist v2.since s1.sfp ≤ (1562500 : ℤ)) ∧ (v2.verdict = none) ∧
      (sfpOfBytes v1.params 2 = epochAt 261) ∧ (261 < 2 ^ 48) ∧ (entFor s1 261 = none) ∧ (freeEnt s1 = some 0) ∧
      (s1.auto.stage ≠ AutoStage.waitLock)) ∧
    ((Begun (2817 : BitVec 16) v1 v2 s2) ∧ (sfpDist v2.since s2.sfp ≤ (1562500 : ℤ)) ∧ (v2.verdict = none) ∧
      (sfpOfBytes v1.params 2 = epochAt 261) ∧ (261 < 2 ^ 48) ∧ (entFor s2 261 = some (1, x0)) ∧
      (tfind s2.com.ents 1 = some x0) ∧ (s2.auto.stage ≠ AutoStage.waitLock)) ∧
    ((Begun (2817 : BitVec 16) v1 v2 (waitLock s2)) ∧ (sfpDist v2.since (waitLock s2).sfp ≤ (1562500 : ℤ)) ∧
      (v2.verdict = none) ∧ (sfpOfBytes v1.params 2 = epochAt 261) ∧ (261 < 2 ^ 48) ∧
      (entFor (waitLock s2) 261 = some (1, x0)) ∧ (tfind (waitLock s2).com.ents 1 = some x0) ∧
      ((waitLock s2).auto.stage = AutoStage.waitLock)) ∧
    ((Begun (2817 : BitVec 16) v1 v2 (waitLock s1)) ∧ (sfpDist v2.since (waitLock s1).sfp ≤ (1562500 : ℤ)) ∧
      (v2.verdict = none) ∧ (sfpOfBytes v1.params 2 = epochAt 261) ∧ (261 < 2 ^ 48) ∧
      (entFor (waitLock s1) 261 = none) ∧ (freeEnt (waitLock s1) = some 0) ∧
      ((waitLock s1).auto.stage = AutoStage.waitLock)) ∧
    ((Begun (2817 : BitVec 16) v1 (vd v2 (9 : Byte) (0 : Byte) [(1 : Byte)]) (refused (9 : Byte) (0 : Byte) [(1 : Byte)])) ∧
      (sfpDist (vd v2 (9 : Byte) (0 : Byte) [(1 : Byte)]).since (refused (9 : Byte) (0 : Byte) [(1 : Byte)]).sfp ≤ (1562500 : ℤ)) ∧
      ((vd v2 (9 : Byte) (0 : Byte) [(1 : Byte)]).verdict = some ((9 : Byte), (0 : Byte), [(1 : Byte)])) ∧
      (¬((9 : Byte) = (4 : Byte) ∧ (0 : Byte) = (5 : Byte)))) ∧
    ((Begun (2817 : BitVec 16) v1 (vd v2 (4 : Byte) (5 : Byte) []) (refused (4 : Byte) (5 : Byte) [])) ∧
      (sfpDist (vd v2 (4 : Byte) (5 : Byte) []).since (refused (4 : Byte) (5 : Byte) []).sfp ≤ (1562500 : ℤ)) ∧
      ((vd v2 (4 : Byte) (5 : Byte) []).verdict = some ((4 : Byte), (5 : Byte), [])) ∧
      ((4 : Byte) = (4 : Byte) ∧ (5 : Byte) = (5 : Byte))) ∧
    ((checkCommand v12 v11 = none) ∧ (sfpOfBytes v11.req.params 2 = epochAt 258) ∧ (258 < 2 ^ 48) ∧
      (List.getD v11.req.params 0 (0 : Byte) = (0 : Byte))) ∧
    ((checkCommand v14 v13 = none) ∧ (sfpOfBytes v13.req.params 2 = epochAt 261) ∧ (261 < 2 ^ 48) ∧
      (List.getD v13.req.params 0 (0 : Byte) ≠ (0 : Byte)) ∧ (v13.req.grp = true) ∧ (v14.thy.mfcMism = true)) ∧
    ((checkCommand v6 v5 = none) ∧ (sfpOfBytes v5.req.params 2 = epochAt 258) ∧ (258 < 2 ^ 48) ∧
      (List.getD v5.req.params 0 (0 : Byte) ≠ (0 : Byte)) ∧ (v5.req.grp = false ∨ v6.thy.mfcMism = false) ∧
      (sfpDist v5.accept (epochAt 258) < (10481152 : ℤ))) ∧
    ((checkCommand v9 v8 = none) ∧ (sfpOfBytes v8.req.params 2 = epochAt 268435713) ∧ (268435713 < 2 ^ 48) ∧
      (List.getD v8.req.params 0 (0 : Byte) ≠ (0 : Byte)) ∧ (v8.req.grp = false ∨ v9.thy.mfcMism = false) ∧
      ((10481152 : ℤ) ≤ sfpDist v8.accept (epochAt 268435713)) ∧ ((268435456 : ℤ) < mfcDiff v8.accept.mfc 268435713)) ∧
    ((checkCommand s4 v2 = none) ∧ (sfpOfBytes v2.req.params 2 = epochAt 261) ∧ (261 < 2 ^ 48) ∧
      (List.getD v2.req.params 0 (0 : Byte) ≠ (0 : Byte)) ∧ (v2.req.grp = false ∨ s4.thy.mfcMism = false) ∧
      ((10481152 : ℤ) ≤ sfpDist v2.accept (epochAt 261)) ∧ (mfcDiff v2.accept.mfc 261 ≤ (268435456 : ℤ)) ∧
      (s4.com.suspect &&& List.getD v2.req.params 0 (0 : Byte) ≠ (0 : BitVec 8))) ∧
    ((checkCommand s3 v2 = none) ∧ (sfpOfBytes v2.req.params 2 = epochAt 261) ∧ (261 < 2 ^ 48) ∧
      (List.getD v2.req.params 0 (0 : Byte) ≠ (0 : Byte)) ∧ (v2.req.grp = false ∨ s3.thy.mfcMism = false) ∧
      ((10481152 : ℤ) ≤ sfpDist v2.accept (epochAt 261)) ∧ (mfcDiff v2.accept.mfc 261 ≤ (268435456 : ℤ)) ∧
      (s3.com.suspect &&& List.getD v2.req.params 0 (0 : Byte) = (0 : BitVec 8)) ∧
      (bit (List.getD v2.req.params 0 (0 : Byte)) 3 = true → d3Check (stgv s3) = 0) ∧ (entFor s3 261 = none) ∧
      (freeEnt s3 = none)) ∧
    ((checkCommand s1 v2 = none) ∧ (sfpOfBytes v2.req.params 2 = epochAt 261) ∧ (261 < 2 ^ 48) ∧
      (List.getD v2.req.params 0 (0 : Byte) ≠ (0 : Byte)) ∧ (v2.req.grp = false ∨ s1.thy.mfcMism = false) ∧
      ((10481152 : ℤ) ≤ sfpDist v2.accept (epochAt 261)) ∧ (mfcDiff v2.accept.mfc 261 ≤ (268435456 : ℤ)) ∧
      (s1.com.suspect &&& List.getD v2.req.params 0 (0 : Byte) = (0 : BitVec 8)) ∧
      (bit (List.getD v2.req.params 0 (0 : Byte)) 3 = true → d3Check (stgv s1) = 0) ∧
      (entFor s1 261 ≠ none ∨ freeEnt s1 ≠ none)) ∧
    ((powered offered = true) ∧ (isTick offered.sfp = true) ∧ (busyNow offered = none) ∧ (offered.vcp.queue = [qd]) ∧
      (qd.op = (2817 : BitVec 16)) ∧ ((authOf offered qd.req.auth.toNat).gen = qd.gen) ∧
      (seqTake (replayOf offered qd.req.auth.toNat) qd.req.seq ≠ none)) :=
  ⟨by decide +kernel,
   by decide +kernel,
   by decide +kernel,
   by decide +kernel,
   by decide +kernel,
   by decide +kernel,
   by decide +kernel,
   by decide +kernel,
   by decide +kernel,
   by decide +kernel,
   by decide +kernel,
   by decide +kernel,
   by decide +kernel,
   by decide +kernel⟩

/-- States and operands that meet the hypotheses of CommitFamily. -/
theorem wit_CommitFamily :
    ((Accepted (2818 : BitVec 16) v15 v16 s5) ∧ (sfpDist v16.since s5.sfp ≤ (1562500 : ℤ)) ∧
      (List.getD v15.params 0 (0 : Byte) ≠ (0 : Byte)) ∧ (sfpOfBytes v15.params 2 = epochAt 261) ∧ (261 < 2 ^ 48) ∧
      (entFor s5 261 = some (1, x0)) ∧ (tfind s5.com.ents 1 = some x0) ∧ (x0.st = EntState.pending) ∧
      (x0.mask &&& List.getD v15.params 0 (0 : Byte) ≠ (0 : BitVec 8)) ∧
      (x0.mask &&& ~~~List.getD v15.params 0 (0 : Byte) = (0 : BitVec 8))) ∧
    ((Accepted (2818 : BitVec 16) v15 v16 s6) ∧ (sfpDist v16.since s6.sfp ≤ (1562500 : ℤ)) ∧
      (List.getD v15.params 0 (0 : Byte) ≠ (0 : Byte)) ∧ (sfpOfBytes v15.params 2 = epochAt 261) ∧ (261 < 2 ^ 48) ∧
      (entFor s6 261 = some (1, x1)) ∧ (tfind s6.com.ents 1 = some x1) ∧ (x1.st = EntState.pending) ∧
      (x1.mask &&& List.getD v15.params 0 (0 : Byte) ≠ (0 : BitVec 8)) ∧
      (x1.mask &&& ~~~List.getD v15.params 0 (0 : Byte) ≠ (0 : BitVec 8))) ∧
    ((Accepted (2818 : BitVec 16) v15 v16 s7) ∧ (sfpDist v16.since s7.sfp ≤ (1562500 : ℤ)) ∧
      (List.getD v15.params 0 (0 : Byte) ≠ (0 : Byte)) ∧ (sfpOfBytes v15.params 2 = epochAt 261) ∧ (261 < 2 ^ 48) ∧
      (entFor s7 261 = some (1, x2)) ∧ (tfind s7.com.ents 1 = some x2) ∧ (x2.st = EntState.armed)) ∧
    ((Accepted (2819 : BitVec 16) e0 v17 v18)) ∧
    ((Accepted (2822 : BitVec 16) e0 v19 v20)) ∧
    ((Accepted (2820 : BitVec 16) e1 v21 v22) ∧ (List.getD e1.params 0 (0 : Byte) ≠ (0 : Byte)) ∧
      (bit (List.getD e1.params 0 (0 : Byte)) 0 = false) ∧ (frozenAny v22 (List.getD e1.params 0 (0 : Byte)) = false) ∧
      (mirHeld v22 = false)) ∧
    ((Accepted (2821 : BitVec 16) e1 v23 v24) ∧ (List.getD e1.params 0 (0 : Byte) ≠ (0 : Byte))) :=
  ⟨by decide +kernel,
   by decide +kernel,
   by decide +kernel,
   by decide +kernel,
   by decide +kernel,
   by decide +kernel,
   by decide +kernel⟩

/-- States and operands that meet the hypotheses of CommitUnit. -/
theorem wit_CommitUnit :
    ((powered v25 = true) ∧ (v25.com.ents = [(2, y0)]) ∧ (v25.sfp.mfc < 2 ^ 48) ∧ (y0.epoch < 2 ^ 48) ∧
      (isEpoch v25.sfp = true) ∧ (y0.st = EntState.pending) ∧ (y0.epoch = (v25.sfp.mfc + 1) % 2 ^ 48)) ∧
    ((powered v26 = true) ∧ (v26.com.ents = [(2, y1)]) ∧ (v26.sfp.mfc < 2 ^ 48) ∧ (y1.epoch < 2 ^ 48) ∧
      (isEpoch v26.sfp = true) ∧ (y1.st = EntState.armed) ∧ (y1.epoch = v26.sfp.mfc) ∧ (y1.auto = 0) ∧
      (v26.seq.running = true) ∧ (isStandby v26 = false) ∧ (y1.validating = true) ∧
      ((firstRow v26 y1.mask).isSome = true)) ∧
    ((powered v27 = true) ∧ (v27.com.ents = [(2, y2)]) ∧ (v27.sfp.mfc < 2 ^ 48) ∧ (y2.epoch < 2 ^ 48) ∧
      (isEpoch v27.sfp = true) ∧ (y2.st = EntState.armed) ∧ (y2.epoch = v27.sfp.mfc) ∧ (y2.auto = 0) ∧
      (v27.seq.running = true) ∧ (isStandby v27 = false) ∧ (y2.validating = true) ∧ (firstRow v27 y2.mask = none) ∧
      (bit y2.mask 3 = true → d3Check (afterView v27 y2.mask) = 0)) ∧
    ((powered v28 = true) ∧ (v28.com.ents = [(2, y3)]) ∧ (v28.sfp.mfc < 2 ^ 48) ∧ (y3.epoch < 2 ^ 48) ∧
      (isFrame v28.sfp = true) ∧ (entOpen y3 = false) ∧ (y3.outAt ≠ some v28.sfp) ∧ (y3.auto = 0)) ∧
    ((powered v29 = true) ∧ (v29.com.ents = [(2, y4)]) ∧ (v29.sfp.mfc < 2 ^ 48) ∧ (y4.epoch < 2 ^ 48) ∧
      (isEpoch v29.sfp = true) ∧ (y4.st = EntState.armed) ∧ (y4.epoch = v29.sfp.mfc) ∧ (y4.auto = 0) ∧
      (v29.seq.running = true) ∧ (isStandby v29 = false) ∧ (y4.validating = true) ∧
      ((firstRow v29 y4.mask).isSome = true)) ∧
    ((powered v30 = true) ∧ (v30.com.ents = [(2, y5)]) ∧ (v30.sfp.mfc < 2 ^ 48) ∧ (y5.epoch < 2 ^ 48) ∧
      (isEpoch v30.sfp = true) ∧ (y5.st = EntState.armed) ∧ (y5.epoch = v30.sfp.mfc) ∧ (y5.auto = 0) ∧
      (v30.seq.running = true) ∧ (isStandby v30 = false) ∧ (y5.validating = true) ∧ (firstRow v30 y5.mask = none) ∧
      (bit y5.mask 3 = true) ∧ (d3Check (afterView v30 y5.mask) ≠ 0)) :=
  ⟨by decide +kernel,
   by decide +kernel,
   by decide +kernel,
   by decide +kernel,
   by decide +kernel,
   by decide +kernel⟩


end Commit

namespace Ports

def prt (p : Nat) (x : PortSt) (s : State) : State := { s with ports := tset s.ports p x }
def trk (x : TrunkSt) (raw : BitVec 16 := 0) : State :=
  prt 3 { raw := raw, rep := raw, trunk := x } (put [(aPortCfg 3, 1), (aPortCfg 3 + 4, 4), (aPortCfg 3 + 8, 5), (aPortCfg 3 + 12, 100)] { atE with sfp := ⟨0x100, 2, 100⟩, thy := { mfcValid := true } })
def o0w (x : Nat) : Block := ohBlock (BitVec.ofNat 56 (0xE471B200000000 + x * 256 + (crc8 (beBytes 6 (0xE471B2000000 + x))).toNat))
def o0 (fi slice fl : Nat) : Block := o0w (fi * 2 ^ 19 + slice * 2 ^ 11 + fl)
def b0 : Block := o0 3 0 0
def v1 : State := (trk {})
def v2 : State := (trk { align := .verify 0 })
def v3 : State := (trk { align := .verify 1 } 0x30)
def v4 : State := (trk { align := .inFrame 1, nextFi := some 3, fiRun := 2 } 0x20)
def v5 : State := (trk { align := .inFrame 2, inMf := true, nextFi := some 3 })
def v6 : State := (trk { align := .inFrame 0, inMf := true, nextFi := some 4, fiBad := 2 })
def v7 : Block := {}
def v8 : State := (trk { align := .verify 1 })
def v9 : State := (trk { align := .inFrame 1, inMf := true, reasm := some [] })
def v10 : State := (trk { align := .inFrame 2, inMf := true, reasm := some [] })
def bR : Block := o0 3 0 0x400
def bM : Block := o0 5 1 0x80
def v11 : Bytes := []
def v12 : State := (trk { align := .inFrame 0, rdiOn := 2 })
def v13 : State := (trk { align := .inFrame 0, rdiOff := 2 } 0x80)
def v14 : State := (put [(aThyCfg0, 0x300)] (trk { align := .inFrame 0, inMf := true, nextFi := some 5, mfcBytes := [0,0,0,0,0], mfcBad := 1, mfcAt := some ((pairedMfc ⟨0x100, 2, 100⟩ 818840 + 2 ^ 48 - 1) % 2 ^ 48) }))
def o1 (w0 : W56) (smi ql tti : Nat) : Block :=
  let x := smi * 2 ^ 24 + ql * 2 ^ 16 + tti
  ohBlock (BitVec.ofNat 56 (x * 65536 + (crc16 (wBytes w0 ++ beBytes 5 x)).toNat))
def w31 : W56 := blkW (o0 31 0 0)
def tr1 : TrunkSt := { align := .inFrame 0, o0 := some w31, smiBad := 31, qlCand := some (2, 2), ttiCur := zeros 62, ttiPrev := some (zeros 62 ++ [1, 2]) }
def tr2 : TrunkSt := { align := .inFrame 0, o0 := some w31, smiGood := 31, qlCand := some (5, 2), ttiCur := zeros 62, ttiPrev := some (zeros 62 ++ [1, 2]) }
def v16 : Block := (o1 w31 7 2 0x0102)
def v17 : State := (trk tr1)
def v18 : Block := (o1 w31 0 5 0x0102)
def v19 : State := (trk tr2 0x2000)
def o4 : List Block := List.replicate 3 (ohBlock 0)
def chunk : Bytes := chunkOf o4
def o7 (id : Nat) : Block :=
  let x := id * 65536
  ohBlock (BitVec.ofNat 56 (x * 65536 + (crc16 (chunk ++ beBytes 5 x)).toNat))
def v20 : Block := (o7 0x60)
def v21 : State := (trk { align := .inFrame 0, peerCand := some (0x60, 2) })
def v24 : State := (trk {} 3)
def v25 : State := (trk {} 0x0E)
def cyc (x : TrunkSt) (raw : BitVec 16 := 0) : State := { trk x raw with sfp := ⟨0x100, 2, 88⟩ }
def v28 : State := (cyc { fill := some 79 })
def v29 : State := (cyc { fill := some 12421 })
def v30 : Sfp := ⟨0xFF,2,88⟩
def v31 : State := (cyc { fill := some 90, slipAt := some ⟨0xFF,2,88⟩ } 0x40)
def cli (m : Nat) (x : ClientSt) (raw : BitVec 16 := 0) : State :=
  prt 5 { raw := raw, rep := raw, client := x } (put [(aPortCfg 5, m), (aPortCfg 5 + 4, 4), (aPortAdapt 5, 0x00640001), (aPortMon 5, 1518)] { atE with sfp := ⟨0x100, 0, 8⟩ })
def dat : Block := { hdr := 2, data := 5 }
def stb : Block := { hdr := 1, data := 0x78 }
def v32 : State := (cli 2 {} 1)
def v33 : State := (cli 2 { ad := { pkt := 2047 } })
def v34 : State := (cli 2 { ad := { pkt := 2 } })
def v35 : State := (cli 2 { ad := { pad := 625 + 100 } })
def v36 : State := (cli 2 { ad := { pad := 625 + 99 } })
def v37 : State := (cli 2 { ad := { pad := 626, credits := 1, prevW := some idleBlock, toCredit := 4999 } })
def v38 : State := (cli 2 { ad := { pkt := 2048 } })
def v40 : List Block := []
def v41 : State := (cli 2 { ad := { buf := [dat] } })
def at9 (s : State) : State := { s with sfp := ⟨0x100, 0, 15⟩ }
def v42 : State := (at9 (cli 2 { ad := { buf := [dat], pktR := true } }))
def v43 : State := (at9 (cli 2 { waitStart := true, ad := { buf := [dat], pktR := true } }))
def v44 : State := (at9 (cli 2 { waitStart := true, ad := { buf := [stb], pktR := true } }))
def v46 : State := (at9 (cli 2 { ad := { pad := 700 } }))
def v45 : State := (at9 (cli 2 { ad := { buf := [dat, dat], prevR := some idleBlock } }))
def v49 : State := (at9 (cli 2 { cut := true, cycLf := true } 1))
def v50 : State := (at9 (cli 2 { cycLf := true } 1))
def at16 (s : State) : State := { s with sfp := ⟨0x100, 0, 0⟩ }
def v51 : State := (at16 (cli 2 { rfRun := 3, oorRun := 1, rx16 := 8384512 + 1720 }))
def v52 : State := (at16 (cli 2 { lfRun := 3, oorRun := 1, rx16 := 8384512 + 1509 } 0x800))
def v53 : State := (at16 (cli 2 { lfRun := 2, oorRun := 1, rx16 := 8384512 + 1600 } 0x200))
def good (n : Nat) : Bytes := let d := zeros (n - 4); d ++ fcsBytes d
def v55 : MonFrame := { preambleOk := true, bytes := good 64, errBlock := false }
def v57 : State := (cli 2 {})
def v58 : MonFrame := { preambleOk := false, bytes := good 64, errBlock := false }
def v59 : MonFrame := { preambleOk := true, bytes := good 63, errBlock := false }
def v60 : MonFrame := { preambleOk := true, bytes := zeros 64, errBlock := false }
def snp : State := { cli 2 {} with com := { snaps := [(⟨0x100, 0, 8⟩, 0x21), (⟨0x100, 1, 0⟩, 1)] } }
def v62 : List (Sfp × BitVec 128) := [(⟨0x100, 1, 0⟩, 1)]
def ck (x : ChkSt) : State := { put [(aTpChk 3, 0x80000005)] atE with chks := [(3, x)] }
def nx : BitVec 64 := prbsNext false 0x123
def wrote (d : BitVec 64) (x : ChkSt) : State :=
  { ck x with map := { store := [(calCycle ⟨0x100, 0, 0⟩ % 4 * 16384 + 5, { hdr := 2, data := d })] } }
def v64 : State := (wrote nx { sync := true, last := some 0x123, errs := 7 })
def v65 : State := (wrote (nx ^^^ 5) { sync := true, last := some 0x123, errs := 7 })
def v66 : State := (wrote nx { sync := false, last := some 0x123, errs := 7 })
/-- Looped near. -/
def near (l : List Block) : State :=
  prt 5 { raw := 0, rep := 0, near := l } (put [(aPortCfg 5, 0x0A), (aPortCfg 5 + 4, 4), (aPortAdapt 5, 0x00640001), (aPortMon 5, 1518)] { atE with sfp := ⟨0x100, 0, 8⟩ })
def v67 : State := prt 3 { portOf v1 3 with fecCw := 3, fecSym := 100, degLast := true, fecGood := 8, degGood := 2 } v1
def v68 : State := prt 3 { portOf v1 3 with raw := 0x6, fecGood := 2 } v1
def eccSmi (s : State) : State := { s with map := { s.map with ecc := [(eccKey s.map.bActive (0x8000 + 3), 2)] } }
def badO4 : List Block := [{}]

/-- States and operands that meet the hypotheses of TrunkReceiver. -/
theorem wit_TrunkReceiver :
    ((powered v1 = true) ∧ (isTrunk v1 3 = true) ∧ (o0Good (rxOverhead v1 3 (portOf v1 3).txO0 b0) = true) ∧
      ((portOf v1 3).trunk.align = Aligner.search)) ∧
    ((powered v2 = true) ∧ (isTrunk v2 3 = true) ∧ (o0Good (rxOverhead v2 3 (portOf v2 3).txO0 b0) = true) ∧
      ((portOf v2 3).trunk.align = Aligner.verify 0)) ∧
    ((powered v3 = true) ∧ (isTrunk v3 3 = true) ∧ (o0Good (rxOverhead v3 3 (portOf v3 3).txO0 b0) = true) ∧
      ((portOf v3 3).trunk.align = Aligner.verify (0 + 1))) ∧
    ((powered v4 = true) ∧ (isTrunk v4 3 = true) ∧ (o0Good (rxOverhead v4 3 (portOf v4 3).txO0 b0) = true) ∧
      ((portOf v4 3).trunk.align = Aligner.inFrame 1) ∧ ((portOf v4 3).trunk.inMf = false) ∧
      ((portOf v4 3).trunk.nextFi = some (o0Fi (blkW (rxOverhead v4 3 (portOf v4 3).txO0 b0)))) ∧
      (2 ≤ (portOf v4 3).trunk.fiRun)) ∧
    ((powered v5 = true) ∧ (isTrunk v5 3 = true) ∧ (o0Good (rxOverhead v5 3 (portOf v5 3).txO0 b0) = true) ∧
      ((portOf v5 3).trunk.align = Aligner.inFrame 2) ∧ ((portOf v5 3).trunk.inMf = true) ∧
      ((portOf v5 3).trunk.nextFi = some (o0Fi (blkW (rxOverhead v5 3 (portOf v5 3).txO0 b0))))) ∧
    ((powered v6 = true) ∧ (isTrunk v6 3 = true) ∧ (o0Good (rxOverhead v6 3 (portOf v6 3).txO0 b0) = true) ∧
      ((portOf v6 3).trunk.align = Aligner.inFrame 0) ∧ ((portOf v6 3).trunk.inMf = true) ∧
      ((portOf v6 3).trunk.nextFi ≠ some (o0Fi (blkW (rxOverhead v6 3 (portOf v6 3).txO0 b0)))) ∧
      (2 ≤ (portOf v6 3).trunk.fiBad)) ∧
    ((powered v1 = true) ∧ (isTrunk v1 3 = true) ∧ (o0Good (rxOverhead v1 3 (portOf v1 3).txO0 v7) = false) ∧
      ((portOf v1 3).trunk.align = Aligner.search)) ∧
    ((powered v8 = true) ∧ (isTrunk v8 3 = true) ∧ (o0Good (rxOverhead v8 3 (portOf v8 3).txO0 v7) = false) ∧
      ((portOf v8 3).trunk.align = Aligner.verify 1)) ∧
    ((powered v9 = true) ∧ (isTrunk v9 3 = true) ∧ (o0Good (rxOverhead v9 3 (portOf v9 3).txO0 v7) = false) ∧
      ((portOf v9 3).trunk.align = Aligner.inFrame 1) ∧ (1 < 2)) ∧
    ((powered v10 = true) ∧ (isTrunk v10 3 = true) ∧ (o0Good (rxOverhead v10 3 (portOf v10 3).txO0 v7) = false) ∧
      ((portOf v10 3).trunk.align = Aligner.inFrame 2) ∧ (2 ≤ 2)) ∧
    ((powered v12 = true) ∧ (isTrunk v12 3 = true) ∧ ((portOf v12 3).trunk.align = Aligner.inFrame 0) ∧
      (o0Good (rxOverhead v12 3 (portOf v12 3).txO0 bR) = true) ∧
      (o0Rdi (blkW (rxOverhead v12 3 (portOf v12 3).txO0 bR)) = true) ∧ ((portOf v12 3).trunk.rdiOn = 2) ∧
      ((rxChunk v12 3 o4).1 = false ∨ o7Good (rxChunk v12 3 o4).2 (rxOverhead v12 3 (portOf v12 3).txO7 bR) = false)) ∧
    ((powered v13 = true) ∧ (isTrunk v13 3 = true) ∧ ((portOf v13 3).trunk.align = Aligner.inFrame 0) ∧
      (o0Good (rxOverhead v13 3 (portOf v13 3).txO0 b0) = true) ∧
      (o0Rdi (blkW (rxOverhead v13 3 (portOf v13 3).txO0 b0)) = false) ∧ ((portOf v13 3).trunk.rdiOff = 2) ∧
      ((rxChunk v13 3 o4).1 = false ∨ o7Good (rxChunk v13 3 o4).2 (rxOverhead v13 3 (portOf v13 3).txO7 b0) = false)) ∧
    ((powered v14 = true) ∧ (isTrunk v14 3 = true) ∧ ((portOf v14 3).trunk.align = Aligner.inFrame 0) ∧
      (o0Good (rxOverhead v14 3 (portOf v14 3).txO0 bM) = true) ∧
      (o0Fi (blkW (rxOverhead v14 3 (portOf v14 3).txO0 bM)) = 5) ∧ (List.length (portOf v14 3).trunk.mfcBytes = 5) ∧
      ((portOf v14 3).trunk.inMf = true ∧ (portOf v14 3).trunk.nextFi = some 5 ∨ 3 ≠ tMfcPort (actv v14)) ∧
      ((portOf v14 3).trunk.mfcBad = 1) ∧
      ((portOf v14 3).trunk.mfcAt = some ((pairedMfc v14.sfp 818840 + 2 ^ 48 - 1) % 2 ^ 48)) ∧
      (beNat ((portOf v14 3).trunk.mfcBytes ++ [o0Slice (blkW (rxOverhead v14 3 (portOf v14 3).txO0 bM))]) ≠ pairedMfc v14.sfp 818840) ∧
      (3 = tMfcPort (actv v14)) ∧ (v14.thy.mfcMism = false) ∧
      ((rxChunk v14 3 o4).1 = false ∨ o7Good (rxChunk v14 3 o4).2 (rxOverhead v14 3 (portOf v14 3).txO7 bM) = false)) ∧
    ((powered v17 = true) ∧ (isTrunk v17 3 = true) ∧ ((portOf v17 3).trunk.align = Aligner.inFrame 0) ∧
      ((portOf v17 3).trunk.o0 = some w31) ∧ (o1Good w31 (rxOverhead v17 3 (portOf v17 3).txO1 v16) = true) ∧
      (smiLost v17 3 = false) ∧
      ((o1Smi (blkW (rxOverhead v17 3 (portOf v17 3).txO1 v16))).toNat ≠ bits (activeSmi v17 3) 15 0) ∧
      ((portOf v17 3).trunk.smiBad = 31) ∧
      ((portOf v17 3).trunk.qlCand = some (o1Ql (blkW (rxOverhead v17 3 (portOf v17 3).txO1 v16)), 2)) ∧
      (qlKnown (o1Ql (blkW (rxOverhead v17 3 (portOf v17 3).txO1 v16))) = true) ∧ (o0Fi w31 = 31) ∧
      (List.length (portOf v17 3).trunk.ttiCur = 62) ∧
      ((portOf v17 3).trunk.ttiPrev = some ((portOf v17 3).trunk.ttiCur ++ o1Tti (blkW (rxOverhead v17 3 (portOf v17 3).txO1 v16)))) ∧
      ((rxChunk v17 3 o4).1 = false ∨ o7Good (rxChunk v17 3 o4).2 (rxOverhead v17 3 (portOf v17 3).txO7 v16) = false)) ∧
    ((powered v19 = true) ∧ (isTrunk v19 3 = true) ∧ ((portOf v19 3).trunk.align = Aligner.inFrame 0) ∧
      ((portOf v19 3).trunk.o0 = some w31) ∧ (o1Good w31 (rxOverhead v19 3 (portOf v19 3).txO1 v18) = true) ∧
      (smiLost v19 3 = false) ∧
      ((o1Smi (blkW (rxOverhead v19 3 (portOf v19 3).txO1 v18))).toNat = bits (activeSmi v19 3) 15 0) ∧
      ((portOf v19 3).trunk.smiGood = 31) ∧
      ((portOf v19 3).trunk.qlCand = some (o1Ql (blkW (rxOverhead v19 3 (portOf v19 3).txO1 v18)), 2)) ∧
      (qlKnown (o1Ql (blkW (rxOverhead v19 3 (portOf v19 3).txO1 v18))) = false) ∧ (o0Fi w31 = 31) ∧
      (List.length (portOf v19 3).trunk.ttiCur = 62) ∧
      ((portOf v19 3).trunk.ttiPrev = some ((portOf v19 3).trunk.ttiCur ++ o1Tti (blkW (rxOverhead v19 3 (portOf v19 3).txO1 v18)))) ∧
      ((rxChunk v19 3 o4).1 = false ∨ o7Good (rxChunk v19 3 o4).2 (rxOverhead v19 3 (portOf v19 3).txO7 v18) = false)) ∧
    ((powered (eccSmi v19) = true) ∧ (isTrunk (eccSmi v19) 3 = true) ∧
      ((portOf (eccSmi v19) 3).trunk.align = Aligner.inFrame 0) ∧ ((portOf (eccSmi v19) 3).trunk.o0 = some w31) ∧
      (o1Good w31 (rxOverhead (eccSmi v19) 3 (portOf (eccSmi v19) 3).txO1 v18) = true) ∧
      (smiLost (eccSmi v19) 3 = true) ∧
      ((portOf (eccSmi v19) 3).trunk.qlCand = some (o1Ql (blkW (rxOverhead (eccSmi v19) 3 (portOf (eccSmi v19) 3).txO1 v18)), 2)) ∧
      (qlKnown (o1Ql (blkW (rxOverhead (eccSmi v19) 3 (portOf (eccSmi v19) 3).txO1 v18))) = false) ∧ (o0Fi w31 = 31) ∧
      (List.length (portOf (eccSmi v19) 3).trunk.ttiCur = 62) ∧
      ((portOf (eccSmi v19) 3).trunk.ttiPrev = some ((portOf (eccSmi v19) 3).trunk.ttiCur ++ o1Tti (blkW (rxOverhead (eccSmi v19) 3 (portOf (eccSmi v19) 3).txO1 v18)))) ∧
      ((rxChunk (eccSmi v19) 3 o4).1 = false ∨ o7Good (rxChunk (eccSmi v19) 3 o4).2 (rxOverhead (eccSmi v19) 3 (portOf (eccSmi v19) 3).txO7 v18) = false)) ∧
    ((powered v17 = true) ∧ (isTrunk v17 3 = true) ∧ ((portOf v17 3).trunk.align = Aligner.inFrame 0) ∧
      (o0Good (rxOverhead v17 3 (portOf v17 3).txO0 b0) = true) ∧ ((portOf v17 3).trunk.o0 = some w31) ∧
      (o1Good w31 (rxOverhead v17 3 (portOf v17 3).txO1 b0) = false) ∧
      ((rxChunk v17 3 badO4).1 = false ∨ o7Good (rxChunk v17 3 badO4).2 (rxOverhead v17 3 (portOf v17 3).txO7 b0) = false)) ∧
    ((powered v21 = true) ∧ (isTrunk v21 3 = true) ∧ ((portOf v21 3).trunk.align = Aligner.inFrame 0) ∧
      ((rxChunk v21 3 o4).1 = true) ∧ (o7Good (rxChunk v21 3 o4).2 (rxOverhead v21 3 (portOf v21 3).txO7 v20) = true) ∧
      ((portOf v21 3).trunk.peerCand = some (o7Ident (blkW (rxOverhead v21 3 (portOf v21 3).txO7 v20)), 2))) :=
  ⟨by decide +kernel,
   by decide +kernel,
   by decide +kernel,
   by decide +kernel,
   by decide +kernel,
   by decide +kernel,
   by decide +kernel,
   by decide +kernel,
   by decide +kernel,
   by decide +kernel,
   by decide +kernel,
   by decide +kernel,
   by decide +kernel,
   by decide +kernel,
   by decide +kernel,
   by decide +kernel,
   by decide +kernel,
   by decide +kernel⟩

/-- States and operands that meet the hypotheses of LineDefects. -/
theorem wit_LineDefects :
    ((powered v1 = true) ∧ (inUse v1 3 = true) ∧ (pLoop (actv v1) 3 ≠ 1) ∧ (bit (portOf v1 3).raw dLos = false) ∧
      (bit (declNow (portOf v1 3)) dLos = false) ∧ (bit (portOf v1 3).raw dLol = false) ∧
      (bit (declNow (portOf v1 3)) dLol = false) ∧ (hasFec v1 3 = true) ∧
      (pFecFail (actv v1) 3 ≤ (portOf v1 3).fecCw + 5) ∧ ((portOf v1 3).fecGood < 8) ∧ ((portOf v1 3).degLast = false) ∧
      ((portOf v1 3).degGood < 2)) ∧
    ((powered v1 = true) ∧ (inUse v1 3 = true) ∧ (pLoop (actv v1) 3 ≠ 1) ∧ (bit (portOf v1 3).raw dLos = false) ∧
      (bit (declNow (portOf v1 3)) dLos = false) ∧ (bit (portOf v1 3).raw dLol = false) ∧
      (bit (declNow (portOf v1 3)) dLol = false) ∧ (hasFec v1 3 = true) ∧
      ((portOf v1 3).fecCw + 0 < pFecFail (actv v1) 3) ∧ ((portOf v1 3).fecGood < 8) ∧ ((portOf v1 3).degLast = false) ∧
      ((portOf v1 3).degGood < 2)) ∧
    ((powered v24 = true) ∧ (inUse v24 3 = true) ∧ (pLoop (actv v24) 3 ≠ 1) ∧ (bit (portOf v24 3).raw dLos = true) ∧
      (bit (portOf v24 3).raw dLol = true) ∧ (hasFec v24 3 = true) ∧
      (pFecFail (actv v24) 3 ≤ (portOf v24 3).fecCw + 5) ∧ ((portOf v24 3).fecGood < 8) ∧
      ((portOf v24 3).degLast = false) ∧ ((portOf v24 3).degGood < 2)) ∧
    ((powered v25 = true) ∧ (inUse v25 3 = true) ∧ (pLoop (actv v25) 3 ≠ 1) ∧ (bit (portOf v25 3).raw dLos = false) ∧
      (bit (declNow (portOf v25 3)) dLos = false) ∧ (bit (portOf v25 3).raw dLol = true) ∧ (hasFec v25 3 = true) ∧
      (pFecFail (actv v25) 3 ≤ (portOf v25 3).fecCw + 5) ∧ ((portOf v25 3).fecGood < 8) ∧
      ((portOf v25 3).degLast = false) ∧ ((portOf v25 3).degGood < 2)) ∧
    ((powered v67 = true) ∧ (inUse v67 3 = true) ∧ (pLoop (actv v67) 3 ≠ 1) ∧ (bit (portOf v67 3).raw dLos = false) ∧
      (bit (declNow (portOf v67 3)) dLos = false) ∧ (bit (portOf v67 3).raw dLol = false) ∧
      (bit (declNow (portOf v67 3)) dLol = false) ∧ (hasFec v67 3 = true) ∧
      (pFecFail (actv v67) 3 ≤ (portOf v67 3).fecCw + 5) ∧ (8 ≤ (portOf v67 3).fecGood) ∧
      ((portOf v67 3).degLast = true) ∧ (pFecDeg (actv v67) 3 < (portOf v67 3).fecSym + 5) ∧
      (2 ≤ (portOf v67 3).degGood)) ∧
    ((powered v68 = true) ∧ (inUse v68 3 = true) ∧ (pLoop (actv v68) 3 ≠ 1) ∧ (bit (portOf v68 3).raw dLos = false) ∧
      (bit (declNow (portOf v68 3)) dLos = false) ∧ (bit (portOf v68 3).raw dLol = true) ∧ (hasFec v68 3 = true) ∧
      (pFecFail (actv v68) 3 ≤ (portOf v68 3).fecCw + 5) ∧ ((portOf v68 3).fecGood < 8) ∧
      ((portOf v68 3).degLast = false) ∧ ((portOf v68 3).degGood < 2)) ∧
    ((powered v28 = true) ∧ (isTrunk v28 3 = true) ∧ ((portOf v28 3).trunk.fill = some 79) ∧
      (cycleStart v28.sfp = true) ∧ (80 ≤ ebNominal v28 3) ∧ (79 < 80)) ∧
    ((powered v29 = true) ∧ (isTrunk v29 3 = true) ∧ ((portOf v29 3).trunk.fill = some 12421) ∧
      (cycleStart v29.sfp = true) ∧ (80 ≤ ebNominal v29 3) ∧ (80 ≤ 12421) ∧ (2 * ebNominal v29 3 < 12421 + 80)) ∧
    ((powered v31 = true) ∧ (isTrunk v31 3 = true) ∧ ((portOf v31 3).trunk.fill = some 90) ∧
      (cycleStart v31.sfp = true) ∧ (80 ≤ ebNominal v31 3) ∧ (80 ≤ 90) ∧ (90 + 80 ≤ 2 * ebNominal v31 3) ∧
      ((portOf v31 3).trunk.slipAt = some v30) ∧ ((5240576 : ℤ) ≤ sfpDist v30 v31.sfp)) :=
  ⟨by decide +kernel,
   by decide +kernel,
   by decide +kernel,
   by decide +kernel,
   by decide +kernel,
   by decide +kernel,
   by decide +kernel,
   by decide +kernel,
   by decide +kernel⟩

/-- States and operands that meet the hypotheses of ClientAdaptation. -/
theorem wit_ClientAdaptation :
    ((powered v32 = true) ∧ (isClient v32 5 = true) ∧ (isNear v32 5 = false) ∧
      ((badHdr dat || isCtl dat && blkType dat == 60) = false) ∧ (anySf (declNow (portOf v32 5)) = true)) ∧
    ((powered v33 = true) ∧ (isClient v33 5 = true) ∧ (isNear v33 5 = false) ∧
      ((badHdr dat || isCtl dat && blkType dat == 60) = false) ∧ (anySf (declNow (portOf v33 5)) = false) ∧
      ((portOf v33 5).client.ad.dropping = none) ∧ ((portOf v33 5).client.ad.overlen = false) ∧ (isStart dat = false) ∧
      (0 < (portOf v33 5).client.ad.pkt) ∧ ((portOf v33 5).client.ad.pkt < 2048)) ∧
    ((powered v34 = true) ∧ (isClient v34 5 = true) ∧ (isNear v34 5 = false) ∧
      ((badHdr v7 || isCtl v7 && blkType v7 == 60) = true) ∧ (anySf (declNow (portOf v34 5)) = false) ∧
      ((portOf v34 5).client.ad.dropping = none) ∧ ((portOf v34 5).client.ad.overlen = false) ∧
      (0 < (portOf v34 5).client.ad.pkt) ∧ ((portOf v34 5).client.ad.pkt < 2048)) ∧
    ((powered v35 = true) ∧ (isClient v35 5 = true) ∧ (isNear v35 5 = false) ∧
      ((badHdr stb || isCtl stb && blkType stb == 60) = false) ∧ (anySf (declNow (portOf v35 5)) = false) ∧
      ((portOf v35 5).client.ad.dropping = none) ∧ ((portOf v35 5).client.ad.overlen = false) ∧ (isStart stb = true) ∧
      ((portOf v35 5).client.ad.pkt ≠ 2048) ∧
      (targetFill v35 5 + pDropMargin (actv v35) 5 ≤ adFill (portOf v35 5).client.ad)) ∧
    ((powered v36 = true) ∧ (isClient v36 5 = true) ∧ (isNear v36 5 = false) ∧
      ((badHdr stb || isCtl stb && blkType stb == 60) = false) ∧ (anySf (declNow (portOf v36 5)) = false) ∧
      ((portOf v36 5).client.ad.dropping = none) ∧ ((portOf v36 5).client.ad.overlen = false) ∧ (isStart stb = true) ∧
      ((portOf v36 5).client.ad.pkt ≠ 2048) ∧
      (adFill (portOf v36 5).client.ad < targetFill v36 5 + pDropMargin (actv v36) 5)) ∧
    ((powered v37 = true) ∧ (isClient v37 5 = true) ∧ (isNear v37 5 = false) ∧
      ((badHdr idleBlock || isCtl idleBlock && blkType idleBlock == 60) = false) ∧
      (anySf (declNow (portOf v37 5)) = false) ∧ ((portOf v37 5).client.ad.dropping = none) ∧
      ((portOf v37 5).client.ad.overlen = false) ∧ ((portOf v37 5).client.ad.pkt = 0) ∧
      (isDeletable (portOf v37 5).client.ad.prevW idleBlock = true) ∧ (isStart idleBlock = false) ∧
      (targetFill v37 5 < adFill (portOf v37 5).client.ad) ∧ (0 < (portOf v37 5).client.ad.credits)) ∧
    ((powered v38 = true) ∧ (isClient v38 5 = true) ∧ (isNear v38 5 = false) ∧
      ((badHdr dat || isCtl dat && blkType dat == 60) = false) ∧ (anySf (declNow (portOf v38 5)) = false) ∧
      ((portOf v38 5).client.ad.dropping = none) ∧ ((portOf v38 5).client.ad.overlen = false) ∧ (isStart dat = false) ∧
      ((portOf v38 5).client.ad.pkt = 2048)) ∧
    ((powered v38 = true) ∧ (isClient v38 5 = true) ∧ (isNear v38 5 = false) ∧
      ((badHdr stb || isCtl stb && blkType stb == 60) = false) ∧ (anySf (declNow (portOf v38 5)) = false) ∧
      ((portOf v38 5).client.ad.dropping = none) ∧ ((portOf v38 5).client.ad.overlen = false) ∧ (isStart stb = true) ∧
      ((portOf v38 5).client.ad.pkt = 2048)) ∧
    ((powered (near []) = true) ∧ (isClient (near []) 5 = true) ∧ (isNear (near []) 5 = true) ∧
      ((portOf (near []) 5).near = [])) ∧
    ((powered (near [dat, stb]) = true) ∧ (isClient (near [dat, stb]) 5 = true) ∧ (isNear (near [dat, stb]) 5 = true) ∧
      ((portOf (near [dat, stb]) 5).near = [dat, stb])) ∧
    ((powered v41 = true) ∧ (isClient v41 5 = true) ∧ (8 ≤ v41.sfp.bi) ∧
      ((v41.sfp.bi - 8) % 80 < modeSlots (modeOf v41 5)) ∧
      ((pPmEn (actv v41) 5 && decide (v41.sfp.fi = 0 ∧ v41.sfp.bi = 8)) = true)) ∧
    ((powered v42 = true) ∧ (isClient v42 5 = true) ∧ (8 ≤ v42.sfp.bi) ∧
      ((v42.sfp.bi - 8) % 80 < modeSlots (modeOf v42 5)) ∧
      ((pPmEn (actv v42) 5 && decide (v42.sfp.fi = 0 ∧ v42.sfp.bi = 8)) = false) ∧
      (anySf (declNow (portOf v42 5)) = false) ∧ ((portOf v42 5).client.waitStart = false) ∧
      ((adInsPoint (portOf v42 5).client.ad && decide (adFill (portOf v42 5).client.ad < targetFill v42 5)) = false) ∧
      ((portOf v42 5).client.ad.pad = 0) ∧ ((portOf v42 5).client.ad.buf = dat :: v40)) ∧
    ((powered v43 = true) ∧ (isClient v43 5 = true) ∧ (8 ≤ v43.sfp.bi) ∧
      ((v43.sfp.bi - 8) % 80 < modeSlots (modeOf v43 5)) ∧
      ((pPmEn (actv v43) 5 && decide (v43.sfp.fi = 0 ∧ v43.sfp.bi = 8)) = false) ∧
      (anySf (declNow (portOf v43 5)) = false) ∧ ((portOf v43 5).client.waitStart = true) ∧
      ((adInsPoint (portOf v43 5).client.ad && decide (adFill (portOf v43 5).client.ad < targetFill v43 5)) = false) ∧
      ((portOf v43 5).client.ad.pad = 0) ∧ ((portOf v43 5).client.ad.buf = dat :: v40) ∧ (isStart dat = false) ∧
      (isIdleB dat = false)) ∧
    ((powered v44 = true) ∧ (isClient v44 5 = true) ∧ (8 ≤ v44.sfp.bi) ∧
      ((v44.sfp.bi - 8) % 80 < modeSlots (modeOf v44 5)) ∧
      ((pPmEn (actv v44) 5 && decide (v44.sfp.fi = 0 ∧ v44.sfp.bi = 8)) = false) ∧
      (anySf (declNow (portOf v44 5)) = false) ∧ ((portOf v44 5).client.waitStart = true) ∧
      ((adInsPoint (portOf v44 5).client.ad && decide (adFill (portOf v44 5).client.ad < targetFill v44 5)) = false) ∧
      ((portOf v44 5).client.ad.pad = 0) ∧ ((portOf v44 5).client.ad.buf = stb :: v40) ∧
      (isStart stb = true ∨ isIdleB stb = true)) ∧
    ((powered v45 = true) ∧ (isClient v45 5 = true) ∧ (8 ≤ v45.sfp.bi) ∧
      ((v45.sfp.bi - 8) % 80 < modeSlots (modeOf v45 5)) ∧
      ((pPmEn (actv v45) 5 && decide (v45.sfp.fi = 0 ∧ v45.sfp.bi = 8)) = false) ∧
      (anySf (declNow (portOf v45 5)) = false) ∧ ((portOf v45 5).client.waitStart = false) ∧
      ((adInsPoint (portOf v45 5).client.ad && decide (adFill (portOf v45 5).client.ad < targetFill v45 5)) = true)) ∧
    ((powered v46 = true) ∧ (isClient v46 5 = true) ∧ (8 ≤ v46.sfp.bi) ∧
      ((v46.sfp.bi - 8) % 80 < modeSlots (modeOf v46 5)) ∧
      ((pPmEn (actv v46) 5 && decide (v46.sfp.fi = 0 ∧ v46.sfp.bi = 8)) = false) ∧
      (anySf (declNow (portOf v46 5)) = false) ∧ ((portOf v46 5).client.waitStart = false) ∧
      ((adInsPoint (portOf v46 5).client.ad && decide (adFill (portOf v46 5).client.ad < targetFill v46 5)) = false) ∧
      (0 < (portOf v46 5).client.ad.pad)) ∧
    ((powered v49 = true) ∧ (isClient v49 5 = true) ∧ (8 ≤ v49.sfp.bi) ∧
      ((v49.sfp.bi - 8) % 80 < modeSlots (modeOf v49 5)) ∧
      ((pPmEn (actv v49) 5 && decide (v49.sfp.fi = 0 ∧ v49.sfp.bi = 8)) = false) ∧
      (anySf (declNow (portOf v49 5)) = true) ∧ ((v49.sfp.bi - 8) % 80 = 0 ∨ (portOf v49 5).client.cycLf = true) ∧
      ((portOf v49 5).client.cut = true)) ∧
    ((powered v50 = true) ∧ (isClient v50 5 = true) ∧ (8 ≤ v50.sfp.bi) ∧
      ((v50.sfp.bi - 8) % 80 < modeSlots (modeOf v50 5)) ∧
      ((pPmEn (actv v50) 5 && decide (v50.sfp.fi = 0 ∧ v50.sfp.bi = 8)) = false) ∧
      (anySf (declNow (portOf v50 5)) = true) ∧ ((v50.sfp.bi - 8) % 80 = 0 ∨ (portOf v50 5).client.cycLf = true) ∧
      ((portOf v50 5).client.cut = false)) :=
  ⟨by decide +kernel,
   by decide +kernel,
   by decide +kernel,
   by decide +kernel,
   by decide +kernel,
   by decide +kernel,
   by decide +kernel,
   by decide +kernel,
   by decide +kernel,
   by decide +kernel,
   by decide +kernel,
   by decide +kernel,
   by decide +kernel,
   by decide +kernel,
   by decide +kernel,
   by decide +kernel,
   by decide +kernel,
   by decide +kernel⟩

/-- States and operands that meet the hypotheses of ClientObservation. -/
theorem wit_ClientObservation :
    ((powered v51 = true) ∧ (isClient v51 5 = true) ∧ (isEpoch v51.sfp = true) ∧ (v51.sfp.mfc % 16 = 0) ∧
      ((2000 : ℤ) < ppmOf (portOf v51 5).client.rx16 (modeSlots (modeOf v51 5) * 2047 * 512)) ∧
      (1 ≤ (portOf v51 5).client.oorRun) ∧ (128 ≤ 128) ∧
      ((if true = true then (portOf v51 5).client.rfRun else (portOf v51 5).client.lfRun) = 3)) ∧
    ((powered v52 = true) ∧ (isClient v52 5 = true) ∧ (isEpoch v52.sfp = true) ∧ (v52.sfp.mfc % 16 = 0) ∧
      (ppmOf (portOf v52 5).client.rx16 (modeSlots (modeOf v52 5) * 2047 * 512) ≤ (1800 : ℤ)) ∧ (128 < 129)) ∧
    ((powered v53 = true) ∧ (isClient v53 5 = true) ∧ (isEpoch v53.sfp = true) ∧ (v53.sfp.mfc % 16 = 0) ∧
      ((1800 : ℤ) < ppmOf (portOf v53 5).client.rx16 (modeSlots (modeOf v53 5) * 2047 * 512)) ∧
      (ppmOf (portOf v53 5).client.rx16 (modeSlots (modeOf v53 5) * 2047 * 512) ≤ (2000 : ℤ)) ∧
      ((if false = true then (portOf v53 5).client.rfRun else (portOf v53 5).client.lfRun) < 3)) ∧
    ((powered v57 = true) ∧ (isClient v57 5 = true) ∧ (v55.preambleOk = true) ∧ (64 ≤ List.length v55.bytes) ∧
      (List.length v55.bytes ≤ pMonMax (actv v57) 5) ∧ (fcsOk v55.bytes = true)) ∧
    ((powered v57 = true) ∧ (isClient v57 5 = true) ∧ (v58.preambleOk = false)) ∧
    ((powered v57 = true) ∧ (isClient v57 5 = true) ∧ (v59.preambleOk = true) ∧ (List.length v59.bytes < 64)) ∧
    ((powered v57 = true) ∧ (isClient v57 5 = true) ∧ (v60.preambleOk = true) ∧ (64 ≤ List.length v60.bytes) ∧
      (List.length v60.bytes ≤ pMonMax (actv v57) 5) ∧ (fcsOk v60.bytes = false)) ∧
    ((powered snp = true) ∧ (isClient snp 5 = true) ∧ (v55.preambleOk = true) ∧ (64 ≤ List.length v55.bytes) ∧
      (List.length v55.bytes ≤ pMonMax (actv snp) 5) ∧ (fcsOk v55.bytes = true) ∧
      (snp.com.snaps = (snp.sfp, (33 : BitVec 128)) :: v62) ∧ (∀ r ∈ v62, r.1 ≠ snp.sfp)) ∧
    ((powered v64 = true) ∧ (chkSlot v64 3 = some 5) ∧ ((chkOf v64 3).last = some (291 : BitVec 64)) ∧
      ((chkOf v64 3).sync = true) ∧ ((stored v64 5).hdr = (2 : BitVec 2)) ∧
      ((stored v64 5).data = prbsNext (pTpPoly (actv v64) (5 / 80 : ℕ)) (291 : BitVec 64)) ∧
      (pop (chkOf v64 3).errs < 4)) ∧
    ((powered v65 = true) ∧ (chkSlot v65 3 = some 5) ∧ ((chkOf v65 3).last = some (291 : BitVec 64)) ∧
      ((chkOf v65 3).sync = true) ∧ ((stored v65 5).hdr = (2 : BitVec 2)) ∧
      ((stored v65 5).data ≠ prbsNext (pTpPoly (actv v65) (5 / 80 : ℕ)) (291 : BitVec 64))) ∧
    ((powered v66 = true) ∧ (chkSlot v66 3 = some 5) ∧ ((chkOf v66 3).last = some (291 : BitVec 64)) ∧
      ((chkOf v66 3).sync = false) ∧ ((stored v66 5).hdr = (2 : BitVec 2)) ∧
      ((stored v66 5).data = prbsNext (pTpPoly (actv v66) (5 / 80 : ℕ)) (291 : BitVec 64))) :=
  ⟨by decide +kernel,
   by decide +kernel,
   by decide +kernel,
   by decide +kernel,
   by decide +kernel,
   by decide +kernel,
   by decide +kernel,
   by decide +kernel,
   by decide +kernel,
   by decide +kernel,
   by decide +kernel⟩


end Ports

namespace Map

def mb : State := { atE with
  map := { bActive := true, a := [(7, 0x8000_0000_0000_2800), (9, 5)], b := [(7, 3), (10, 0xA00000010000_0000)], smiA := [(3, 5)], smiB := [(4, 6)] }
  grps := [(8, { sel := true })] }
def it (l : List (Nat × Nat)) : Bytes := l.flatMap (fun x => beBytes 2 x.1 ++ beBytes 8 x.2)
def w1 : Req := rq (beBytes 2 2 ++ it [(7, 0x8140_0000_0006_C800), (10239, 0xA000_0001_0000_0000)])
def v1 : Run := (rn 0x0301 w1)
def v2 : State := (runs 0x0301 w1 mb)
def h1 : Req := rq ([0, 5] ++ beBytes 2 1 ++ it [(7, 0x8140_0000_0000_2800)])
def v5 : Run := (rn 0x0381 h1)
def v6 : State := (runs 0x0381 h1 mb)
def h2 : Req := rq ([0, 6] ++ beBytes 2 1 ++ it [(7, 0x8140_0000_0000_2800)])
def v7 : Run := (rn 0x0381 h2)
def v8 : State := (runs 0x0381 h2 mb)
def c1 : Req := rq (beBytes 2 0 ++ beBytes 2 8)
def v9 : Run := (rn 0x0304 c1)
def v10 : State := (runs 0x0304 c1 mb)
def e0 : Req := rq []
def v11 : Run := (rn 0x0303 e0)
def v12 : State := (runs 0x0303 e0 mb)
def s1 : Req := rq ([2, 0] ++ [3, 0, 0, 0, 0, 9] ++ [127, 0, 0, 0, 0, 1])
def v13 : Run := (rn 0x0305 s1)
def v14 : State := (runs 0x0305 s1 mb)
def w2 : Req := rq (beBytes 2 1 ++ it [(9, 0x8140_0000_0006_C800)])
def v15 : Run := (rn 0x0301 w2)
def v16 : State := (runs 0x0301 w2 { mb with map := { mb.map with selPass := [9], selAt := some ⟨0x100, 0, 0⟩ } })
def v17 : State := (runs 0x0301 w2 { mb with com := { frozen := 1, frozenTo := 0x101 } })
def r1 : Req := rq ([3, 0] ++ beBytes 2 7 ++ beBytes 2 3)
def v18 : Run := (rn 0x0302 r1)
def v19 : State := (runs 0x0302 r1 mb)
def r2 : Req := rq ([0, 5, 0, 0] ++ beBytes 2 7 ++ beBytes 2 3)
def v20 : Run := (rn 0x0380 r2)
def v21 : State := (runs 0x0380 r2 mb)
def v22 : Run := (rn 0x0306 e0)
def v23 : State := (runs 0x0306 e0 { mb with map := { mb.map with changed := 5 } })
def r3 : Req := rq ([0, 0] ++ beBytes 2 7 ++ [4])
def v24 : Run := (rn 0x0382 r3)
def v25 : State := (runs 0x0382 r3 mb)
def v26 : ℕ := (65536 + 7)
def v27 : State := { mb with map := { mb.map with scrub := some (65536 + 7), ecc := [(65536 + 7, 1)] } }
def cc : State := { mb with sfp := ⟨0x100, 1, 88⟩, ports := [(2, { raw := 0, rep := 0, fillLf := false })]
                            map := { mb.map with store := [(tget 0 [] 0 + 5, { hdr := 2 })]
                                                 b := [(7, 0x8000_0000_0000_0000), (8, 0xC000_0000_0000_0000), (12, 0xA000_0000_0000_0000), (11, 0x8080_0000_0000_0000)] } }
def cs : State := put [(aPortCfg 2, 1)] { cc with map := { cc.map with store := [((calCycle cc.sfp + 2) % 4 * 16384, { hdr := 2, data := 5 })] } }
def v29 : List ℕ := []
def v31 : List ℕ := [1, 160]
/-- A store that the freeze met on its way. -/
def v32 : Run := { rn 0x0301 w1 with work := 2, stored := (1, 0, 0xFFFF) }
def v33 : State := { mb with vcp := { run := some v32 }, com := { frozen := 1, frozenTo := 0x101 } }
def v34 : State := { cs with ports := [(2, { raw := 0, rep := 0, fillLf := false, trunk := { align := .inFrame 0, fill := some 90, mem := List.replicate 90 { hdr := 2, data := 9 } } })] }
def dat : Block := { hdr := 2, data := 5 }

/-- States and operands that meet the hypotheses of MapStores. -/
theorem wit_MapStores :
    ((frozenAny v2 (1 : BitVec 8) = false) ∧ (mirHeld v2 = false) ∧ (Accepted (769 : BitVec 16) w1 v1 v2) ∧
      (1 ≤ pkNat w1.params 0 2) ∧ (pkNat w1.params 0 2 ≤ 146) ∧
      (((entryItems w1.params 2 (pkNat w1.params 0 2)).all fun (x : ℕ × Entry) => idxOk x.1) = true)) ∧
    ((frozenAny v6 (1 : BitVec 8) = false) ∧ (mirHeld v6 = false) ∧ (Accepted (897 : BitVec 16) h1 v5 v6) ∧
      (pkNat h1.params 0 2 ≤ 1023) ∧ (1 ≤ pkNat h1.params 2 2) ∧ (pkNat h1.params 2 2 ≤ 146) ∧
      (((entryItems h1.params 4 (pkNat h1.params 2 2)).all fun (x : ℕ × Entry) => idxOk x.1) = true) ∧
      (((entryItems h1.params 4 (pkNat h1.params 2 2)).all fun (x : ℕ × Entry) => eHolder (stagedEntry v6 x.1) == pkNat h1.params 0 2 && eHolder x.2 == pkNat h1.params 0 2) = true)) ∧
    ((frozenAny v8 (1 : BitVec 8) = false) ∧ (mirHeld v8 = false) ∧ (Accepted (897 : BitVec 16) h2 v7 v8) ∧
      (pkNat h2.params 0 2 ≤ 1023) ∧ (1 ≤ pkNat h2.params 2 2) ∧ (pkNat h2.params 2 2 ≤ 146) ∧
      (((entryItems h2.params 4 (pkNat h2.params 2 2)).all fun (x : ℕ × Entry) => idxOk x.1) = true) ∧
      (((entryItems h2.params 4 (pkNat h2.params 2 2)).all fun (x : ℕ × Entry) => eHolder (stagedEntry v8 x.1) == pkNat h2.params 0 2 && eHolder x.2 == pkNat h2.params 0 2) = false)) ∧
    ((frozenAny v10 (1 : BitVec 8) = false) ∧ (mirHeld v10 = false) ∧ (Accepted (772 : BitVec 16) c1 v9 v10) ∧
      (spanOk (pkNat c1.params 0 2) (pkNat c1.params 2 2) 10240 = true) ∧ (pkNat c1.params 2 2 ≤ 20000)) ∧
    ((frozenAny v12 (1 : BitVec 8) = false) ∧ (mirHeld v12 = false) ∧ (Accepted (771 : BitVec 16) e0 v11 v12) ∧
      (10240 ≤ 10240) ∧ (v12.map.ecc = []) ∧ ((List.all v12.map.a fun (kv : ℕ × Entry) => idxOk kv.1) = true) ∧
      ((List.all v12.map.b fun (kv : ℕ × Entry) => idxOk kv.1) = true)) ∧
    ((frozenAny v14 (1 : BitVec 8) = false) ∧ (mirHeld v14 = false) ∧ (Accepted (773 : BitVec 16) s1 v13 v14) ∧
      (1 ≤ pk1 s1.params 0) ∧ (pk1 s1.params 0 ≤ 128) ∧
      (((smiItems s1.params).all fun (x : ℕ × Word) => decide (x.1 < 128)) = true)) ∧
    ((Accepted (769 : BitVec 16) w2 v15 v16) ∧ (pkNat w2.params 0 2 = 1) ∧ (pkNat w2.params 2 2 = 9) ∧ (9 < 10240) ∧
      (frozenAny v16 (1 : BitVec 8) = false) ∧ (mirHeld v16 = false) ∧ (inPass v16 9 = true)) ∧
    ((Accepted (769 : BitVec 16) w2 v15 v17) ∧ (pkNat w2.params 0 2 = 1) ∧ (pkNat w2.params 2 2 = 9) ∧ (9 < 10240) ∧
      (frozenAny v17 (1 : BitVec 8) = true)) ∧
    ((powered v33 = true) ∧ (v33.seq.running = true) ∧ (v33.vcp.run = some v32) ∧ (v32.req = w1) ∧
      (v32.op = (769 : BitVec 16)) ∧ (v32.reply = none) ∧ (v32.work = 1 + 1) ∧ (pkNat w1.params 0 2 = 2) ∧ (1 < 2) ∧
      (2 ≤ 146) ∧ (((entryItems w1.params 2 2).all fun (x : ℕ × Entry) => idxOk x.1) = true) ∧ (frozenNow v33 0 = true)) :=
  ⟨by decide +kernel,
   by decide +kernel,
   by decide +kernel,
   by decide +kernel,
   by decide +kernel,
   by decide +kernel,
   by decide +kernel,
   by decide +kernel,
   by decide +kernel⟩

/-- States and operands that meet the hypotheses of MapReads. -/
theorem wit_MapReads :
    ((v19.map.ecc = []) ∧ (Accepted (770 : BitVec 16) r1 v18 v19) ∧ (pk1 r1.params 0 ≤ 3) ∧
      (spanOk (pkNat r1.params 2 2) (pkNat r1.params 4 2) 180 = true)) ∧
    ((v21.map.ecc = []) ∧ (Accepted (896 : BitVec 16) r2 v20 v21) ∧ (pkNat r2.params 0 2 ≤ 1023) ∧
      (pk1 r2.params 2 ≤ 3) ∧ (spanOk (pkNat r2.params 4 2) (pkNat r2.params 6 2) 180 = true)) ∧
    ((v23.map.ecc = []) ∧ (Accepted (774 : BitVec 16) e0 v22 v23)) ∧
    ((v25.map.ecc = []) ∧ (Accepted (898 : BitVec 16) r3 v24 v25) ∧ (pkNat r3.params 0 2 ≤ 1023) ∧
      (spanOk (pkNat r3.params 2 2) (pk1 r3.params 4) 32 = true)) :=
  ⟨by decide +kernel,
   by decide +kernel,
   by decide +kernel,
   by decide +kernel⟩

/-- States and operands that meet the hypotheses of MemoriesAndPins. -/
theorem wit_MemoriesAndPins :
    ((powered v27 = true) ∧ (eccDouble v27.map true (if true = true then 32768 + 5 else 5) = false) ∧
      (v27.map.scrub = some v26)) ∧
    ((powered v27 = true) ∧ (eccDouble v27.map true (if false = true then 32768 + 5 else 5) = false) ∧
      (v27.map.scrub = some v26)) :=
  ⟨by decide +kernel,
   by decide +kernel⟩

/-- States and operands that meet the hypotheses of CalendarCycles. -/
theorem wit_CalendarCycles :
    ((powered v34 = true) ∧ (cycleStart v34.sfp = true) ∧ (isTrunk v34 2 = true) ∧
      ((portOf v34 2).trunk.fill = some 90) ∧ (80 ≤ 90) ∧ (90 + 80 ≤ 2 * ebNominal v34 2) ∧
      ((portOf v34 2).fillLf = false) ∧ (isNear v34 2 = false) ∧ (inFrame (portOf v34 2).trunk = true) ∧
      (eValid (activeEntry v34 160) = false ∨ eccDouble v34.map v34.map.bActive 160 = true) ∧ (isFar v34 2 = false)) ∧
    ((powered v34 = true) ∧ (cycleStart v34.sfp = true) ∧ (isTrunk v34 2 = true) ∧
      ((portOf v34 2).trunk.fill = some 90) ∧ (80 ≤ 90) ∧ (90 + 80 ≤ 2 * ebNominal v34 2) ∧
      ((portOf v34 2).fillLf = false) ∧ (isNear v34 2 = false) ∧ (inFrame (portOf v34 2).trunk = true) ∧
      (isTrunk v34 (7 / 80 : ℕ) = false ∨ (portOf v34 (7 / 80 : ℕ)).fillLf = true ∨ (portOf v34 (7 / 80 : ℕ)).trunk.fill = none) ∧
      (eValid (activeEntry v34 7) = true) ∧ (eccDouble v34.map v34.map.bActive 7 = false) ∧
      (eKind (activeEntry v34 7) = 0) ∧ (v29.contains (eSrc (activeEntry v34 7)) = false) ∧
      (eSrc (activeEntry v34 7) < 16384) ∧ (isFar v34 2 = false)) ∧
    ((powered v34 = true) ∧ (cycleStart v34.sfp = true) ∧ (isTrunk v34 2 = true) ∧
      ((portOf v34 2).trunk.fill = some 90) ∧ (80 ≤ 90) ∧ (90 + 80 ≤ 2 * ebNominal v34 2) ∧
      ((portOf v34 2).fillLf = false) ∧ (isNear v34 2 = false) ∧ (inFrame (portOf v34 2).trunk = true) ∧
      (isTrunk v34 (8 / 80 : ℕ) = false ∨ (portOf v34 (8 / 80 : ℕ)).fillLf = true ∨ (portOf v34 (8 / 80 : ℕ)).trunk.fill = none) ∧
      (eValid (activeEntry v34 8) = true) ∧ (eccDouble v34.map v34.map.bActive 8 = false) ∧
      (eKind (activeEntry v34 8) = 2) ∧ (isFar v34 2 = false) ∧ (v31 ≠ [])) ∧
    ((powered v34 = true) ∧ (cycleStart v34.sfp = true) ∧ (isTrunk v34 2 = true) ∧
      ((portOf v34 2).trunk.fill = some 90) ∧ (80 ≤ 90) ∧ (90 + 80 ≤ 2 * ebNominal v34 2) ∧
      ((portOf v34 2).fillLf = false) ∧ (isNear v34 2 = false) ∧ (inFrame (portOf v34 2).trunk = true) ∧
      (isTrunk v34 (9 / 80 : ℕ) = false ∨ (portOf v34 (9 / 80 : ℕ)).fillLf = true ∨ (portOf v34 (9 / 80 : ℕ)).trunk.fill = none) ∧
      (eValid (activeEntry v34 9) = false ∨ eccDouble v34.map v34.map.bActive 9 = true) ∧ (isFar v34 2 = false) ∧
      (v31 ≠ [])) ∧
    ((powered v34 = true) ∧ (cycleStart v34.sfp = true) ∧ (isTrunk v34 2 = true) ∧
      ((portOf v34 2).trunk.fill = some 90) ∧ (80 ≤ 90) ∧ (90 + 80 ≤ 2 * ebNominal v34 2) ∧
      ((portOf v34 2).fillLf = false) ∧ (isNear v34 2 = false) ∧ (inFrame (portOf v34 2).trunk = true) ∧
      (isTrunk v34 (11 / 80 : ℕ) = false ∨ (portOf v34 (11 / 80 : ℕ)).fillLf = true ∨ (portOf v34 (11 / 80 : ℕ)).trunk.fill = none) ∧
      (eValid (activeEntry v34 11) = true) ∧ (eccDouble v34.map v34.map.bActive 11 = false) ∧
      (eKind (activeEntry v34 11) = 0) ∧ (v31.contains (eSrc (activeEntry v34 11)) = true) ∧ (isFar v34 2 = false) ∧
      (v31 ≠ [])) ∧
    ((powered v34 = true) ∧ (cycleStart v34.sfp = true) ∧ (isTrunk v34 2 = true) ∧
      ((portOf v34 2).trunk.fill = some 90) ∧ (80 ≤ 90) ∧ (90 + 80 ≤ 2 * ebNominal v34 2) ∧
      ((portOf v34 2).fillLf = false) ∧ (isNear v34 2 = false) ∧ (inFrame (portOf v34 2).trunk = true) ∧
      (isTrunk v34 (12 / 80 : ℕ) = false ∨ (portOf v34 (12 / 80 : ℕ)).fillLf = true ∨ (portOf v34 (12 / 80 : ℕ)).trunk.fill = none) ∧
      (eValid (activeEntry v34 12) = true) ∧ (eccDouble v34.map v34.map.bActive 12 = false) ∧
      (eKind (activeEntry v34 12) = 1) ∧ (lineFor v34.map (eGroup (activeEntry v34 12)) 12 = none) ∧
      (v31.contains (if (if (grpOf v34 (eGroup (activeEntry v34 12))).en = true then (grpOf v34 (eGroup (activeEntry v34 12))).egSel else eSel (activeEntry v34 12)) = true then eAlt (activeEntry v34 12) else eSrc (activeEntry v34 12)) = false) ∧
      ((if (if (grpOf v34 (eGroup (activeEntry v34 12))).en = true then (grpOf v34 (eGroup (activeEntry v34 12))).egSel else eSel (activeEntry v34 12)) = true then eAlt (activeEntry v34 12) else eSrc (activeEntry v34 12)) < 16384) ∧
      (isFar v34 2 = false) ∧ (v31 ≠ [])) :=
  ⟨by decide +kernel,
   by decide +kernel,
   by decide +kernel,
   by decide +kernel,
   by decide +kernel,
   by decide +kernel⟩


end Map

namespace Prot

def ent : Entry := 0xA000_0000_0000_0000 + 2 * 2 ^ 54 + 3 * 2 ^ 40 + 5 * 2 ^ 21
def pg (cfg : Nat) (x : GrpSt) : State := put [(aGrpCfg 5, cfg), (aGrpAps 5, 0x00010011), (aGrpMem 5 0, 400 * 65536), (aPortCfg 3, 1)]
  { atE with map := { a := [(400, ent)], b := [(400, ent), (401, ent)] }, grps := [(5, x)]
             ports := [(2, { raw := 0, rep := 0 }), (3, { raw := 0, rep := 0, trunk := { align := .inFrame 0 } })] }
def v1 : State := (pg 0x50001 { en := true, sf := { present := true, run := 1 } })
def v4 : State := (pg 0x10009 { en := true, sel := true, egSel := true, stReq := 2, wtrRun := 572457, loc := 2, locSig := true, eff := 2, effSig := true })
def rqs (c : BitVec 4) (h : Bool) (x : GrpSt) : GrpSt := { x with pend := [(⟨0x100, 0, 0⟩, c, h)] }
def v6 : GrpSt := (rqs 14 false { en := true })
def v7 : State := (pg 1 (rqs 14 false { en := true }))
def v8 : GrpSt := (rqs 10 false { en := true })
def v9 : State := (pg 1 (rqs 10 false { en := true }))
def v10 : GrpSt := (rqs 4 false { en := true })
def v11 : State := (pg 1 (rqs 4 false { en := true }))
def v12 : GrpSt := (rqs 4 false { en := true, fs := true })
def v13 : State := (pg 1 (rqs 4 false { en := true, fs := true }))
def v14 : GrpSt := (rqs 0 false { en := true, fs := true, lo := true, stReq := 1 })
def v15 : State := (pg 1 (rqs 0 false { en := true, fs := true, lo := true, stReq := 1 }))
def v16 : GrpSt := (rqs 0 true { en := true, fs := true, ms := true })
def v17 : State := (pg 1 (rqs 0 true { en := true, fs := true, ms := true }))
def v18 : GrpSt := (rqs 0 true { fs := true, ms := true })
def v19 : State := (pg 1 (rqs 0 true { fs := true, ms := true }))
def ap (m : Nat) : Block := ohBlock (apsWord (BitVec.ofNat 40 m))
def it0 : ProtItem := { cls := 3, sub := 1, g := 5, at_ := ⟨0xFF, 0, 0⟩, data := [0, 1] }
def okm : Nat := 0x11 * 2 ^ 28 + 4 * 2 ^ 24 + 2 ^ 20 + 2 ^ 16 + 0xA000
def v20 : Block := {}
def v22 : State := (pg 0x23 { en := true })
def v23 : Block := (ap (0xFFF * 2 ^ 28))
def v24 : Block := (ap (0x800 * 2 ^ 28))
def v25 : Block := (ap (0x12 * 2 ^ 28))
def v26 : Block := (ap (0x11 * 2 ^ 28 + 3 * 2 ^ 24))
def v27 : Block := (ap okm)
def v28 : State := (pg 0x23 { en := true, apsLoss := true, pmBad := 2 })
def v29 : List ProtItem := [it0]
def v30 : State := { pg 0x23 { en := true, apsAge := 5, rem := 4, rx := some (apsWord (BitVec.ofNat 40 okm)) } with sage := { items := [it0, it0] } }
def v31 : State := (pg 0x23 { en := true, nrRun := 512 })
def gw : Req := rq ([0, 5, 0b11011010, 10, 5, 63] ++ beBytes 2 0x11 ++ [3, 0] ++ [1, 0x90, 1, 0x91, 0x27, 0xFF])
def v32 : Run := (rn 0x0401 gw)
def v33 : State := (runs 0x0401 gw (pg 0 {}))
def gr : Req := rq [0, 5, 1]
def v34 : Run := (rn 0x0402 gr)
def v35 : State := (runs 0x0402 gr (pg 0x0A05007B {}))
def pr : Req := rq [0, 5, 10, 0]
def v36 : Run := (rn 0x0403 pr)
def v37 : State := (runs 0x0403 pr (pg 1 { en := true }))
def v38 : State := (runs 0x0403 pr (pg 0 { en := false }))
def ps : Req := { rq [0, 5] with auth := 3 }
def v39 : Run := (rn 0x0404 ps)
def v40 : State := (runs 0x0404 ps (pg 1 { en := true, sel := true, eff := 8, effSig := true }))
def v41 : State := (runs 0x0404 ps { pg 1 { en := true } with vcp := { auths := [(3, { enabled := true, cls := 2, holder := 7 })] } })
def prms : Req := { rq [0, 5, 4, 0] with auth := 3 }
def v42 : Run := (rn 0x0403 prms)
def v43 : State := (runs 0x0403 prms { pg 1 { en := true } with vcp := { auths := [(3, { enabled := true, cls := 2, holder := 7 })] } })
def v44 : Run := (rn 0x0405 ps)
def v45 : State := (runs 0x0405 ps (pg 0x41 { en := true, eq := .unaligned, eqWhy := 5 }))
def v46 : State := (runs 0x0405 ps (pg 0x41 { en := true, eq := .hold }))
def at8 (s : State) : State := { s with sfp := ⟨0x100, 0, 8⟩ }
def c0 : Nat := calCycle ⟨0x100, 0, 8⟩
def v48 : ℤ := c0 - 65504
/-- The block of the protection source, slot 240, in the page of the cycle. -/
def src (b : Block) (s : State) : State :=
  { s with map := { s.map with store := [(c0 % 4 * 16384 + 240, b)] } }
def v50 : State := src (markerBlock 0x100) (at8 (pg 0x41 { en := true, eq := .unaligned, mp := { last := some (0xFF, c0 - 65504), slipped := 2 } }))
def v53 : State := src idleBlock v50
def old : MarkSt := { lock := true, last := some (0xFE, c0 - 2 * 65504 - 1), slipped := -1 }
def v51 : State := at8 (pg 0x41 { en := true, eq := .aligned, e := 3, mw := old })
def v52 : State := at8 (pg 0x41 { en := true, eq := .hold, e := 3, mp := old })
def lk (d : Nat) : MarkSt := { lock := true, last := some (0x100, c0 - d) }
def v54 : ℤ := (-5)
def v55 : State := at8 (pg 0x41 { en := true, eq := .unaligned, egSel := true, grant := true, grantMeas := true, delta := some (-5, 2), mw := lk 0, mp := lk 5 })
def v58 : State := at8 (pg 0x41 { en := true, eq := .unaligned, delta := some (0, 2), firstEng := false, mw := lk 0, mp := lk 0 })
def v56 : Sfp := ⟨0xFF, 31, 0⟩
def v57 : State := at8 (pg 0x41 { en := true, eq := .aligned, e := 5, sel := true, eqPend := some ⟨0xFF, 31, 0⟩, mw := lk 5, mp := lk 0 })
def v59 : ℤ := c0 - 2 * 65504 - 1
def v47 : State := (runs 0x0405 ps (pg 0x41 { en := true, eq := .unaligned, eqWhy := 4 }))
def v49 : State := (runs 0x0405 ps (pg 0x41 { en := true, eq := .unaligned, eqWhy := 7 }))
def v60 := leadSource v50 5 true
def v61 := leadSource v50 5 false

/-- States and operands that meet the hypotheses of ProtectionDecisions. -/
theorem wit_ProtectionDecisions :
    ((powered v1 = true) ∧ (isFrame v1.sfp = true) ∧ (isStandby v1 = false) ∧ ((grpOf v1 5).en = true) ∧
      ((grpOf v1 5).tblErr = false) ∧ ((condAt (grpOf v1 5) 0).present = true) ∧
      ((condAt (grpOf v1 5) 0).raised = false) ∧ (holdFrames v1 5 ≤ (condAt (grpOf v1 5) 0).run)) ∧
    ((powered v4 = true) ∧ (isFrame v4.sfp = true) ∧ (isStandby v4 = false) ∧ ((grpOf v4 5).en = true) ∧
      ((grpOf v4 5).tblErr = false) ∧ ((grpOf v4 5).stReq = (2 : BitVec 4)) ∧ (wtrFrames v4 5 ≤ (grpOf v4 5).wtrRun) ∧
      ((grpOf v4 5).lo = false) ∧ ((grpOf v4 5).fs = false) ∧ ((grpOf v4 5).ms = false) ∧
      ((grpOf v4 5).sf.raised = false) ∧ ((grpOf v4 5).sfp.raised = false) ∧ ((grpOf v4 5).sd.raised = false) ∧
      ((grpOf v4 5).loc = (2 : BitVec 4))) ∧
    ((powered v7 = true) ∧ (isFrame v7.sfp = true) ∧ (isStandby v7 = false) ∧ (v7.grps = [(5, v6)]) ∧
      (v6.pend = [(v7.sfp, (14 : BitVec 4), false)]) ∧ (v6.en = true) ∧ (v6.tblErr = false) ∧
      ((14 : BitVec 4) = (14 : BitVec 4))) ∧
    ((powered v9 = true) ∧ (isFrame v9.sfp = true) ∧ (isStandby v9 = false) ∧ (v9.grps = [(5, v8)]) ∧
      (v8.pend = [(v9.sfp, (10 : BitVec 4), false)]) ∧ (v8.en = true) ∧ (v8.tblErr = false) ∧
      ((10 : BitVec 4) = (10 : BitVec 4))) ∧
    ((powered v11 = true) ∧ (isFrame v11.sfp = true) ∧ (isStandby v11 = false) ∧ (v11.grps = [(5, v10)]) ∧
      (v10.pend = [(v11.sfp, (4 : BitVec 4), false)]) ∧ (v10.en = true) ∧ (v10.tblErr = false) ∧
      ((4 : BitVec 4) = (4 : BitVec 4)) ∧ (max (baseReq v10) (remoteReq v11 5).1 ≤ 4)) ∧
    ((powered v13 = true) ∧ (isFrame v13.sfp = true) ∧ (isStandby v13 = false) ∧ (v13.grps = [(5, v12)]) ∧
      (v12.pend = [(v13.sfp, (4 : BitVec 4), false)]) ∧ (v12.en = true) ∧ (v12.tblErr = false) ∧
      ((4 : BitVec 4) = (4 : BitVec 4)) ∧ (4 < max (baseReq v12) (remoteReq v13 5).1) ∧ (v12.ms = false)) ∧
    ((powered v15 = true) ∧ (isFrame v15.sfp = true) ∧ (isStandby v15 = false) ∧ (v15.grps = [(5, v14)]) ∧
      (v14.pend = [(v15.sfp, (0 : BitVec 4), false)]) ∧ (v14.en = true) ∧ (v14.tblErr = false) ∧
      ((0 : BitVec 4) = (0 : BitVec 4)) ∧ (false = false)) ∧
    ((powered v17 = true) ∧ (isFrame v17.sfp = true) ∧ (isStandby v17 = false) ∧ (v17.grps = [(5, v16)]) ∧
      (v16.pend = [(v17.sfp, (0 : BitVec 4), true)]) ∧ (v16.en = true) ∧ (v16.tblErr = false) ∧
      ((0 : BitVec 4) = (0 : BitVec 4)) ∧ (true = true)) ∧
    ((powered v19 = true) ∧ (isFrame v19.sfp = true) ∧ (isStandby v19 = false) ∧ (v19.grps = [(5, v18)]) ∧
      (v18.pend = [(v19.sfp, (0 : BitVec 4), true)]) ∧ (v18.en = false)) :=
  ⟨by decide +kernel,
   by decide +kernel,
   by decide +kernel,
   by decide +kernel,
   by decide +kernel,
   by decide +kernel,
   by decide +kernel,
   by decide +kernel,
   by decide +kernel⟩

/-- States and operands that meet the hypotheses of ApsChannel. -/
theorem wit_ApsChannel :
    ((powered v22 = true) ∧ (isTrunk v22 3 = true) ∧ ((portOf v22 3).trunk.align = Aligner.inFrame 0) ∧
      ((isOverhead (rxOverhead v22 3 (if true = true then (portOf v22 3).txO3 else (portOf v22 3).txO2) v20) && (crc16 (List.take 5 (blkBytes (rxOverhead v22 3 (if true = true then (portOf v22 3).txO3 else (portOf v22 3).txO2) v20)))).toNat == bits (blkW (rxOverhead v22 3 (if true = true then (portOf v22 3).txO3 else (portOf v22 3).txO2) v20)) 15 0) = false)) ∧
    ((powered v22 = true) ∧ (isTrunk v22 3 = true) ∧ ((portOf v22 3).trunk.align = Aligner.inFrame 0) ∧
      ((isOverhead (rxOverhead v22 3 (if true = true then (portOf v22 3).txO3 else (portOf v22 3).txO2) v23) && (crc16 (List.take 5 (blkBytes (rxOverhead v22 3 (if true = true then (portOf v22 3).txO3 else (portOf v22 3).txO2) v23)))).toNat == bits (blkW (rxOverhead v22 3 (if true = true then (portOf v22 3).txO3 else (portOf v22 3).txO2) v23)) 15 0) = true) ∧
      (apsGroup (blkW (rxOverhead v22 3 (if true = true then (portOf v22 3).txO3 else (portOf v22 3).txO2) v23)) = 4095)) ∧
    ((powered v22 = true) ∧ (isTrunk v22 3 = true) ∧ ((portOf v22 3).trunk.align = Aligner.inFrame 0) ∧
      ((isOverhead (rxOverhead v22 3 (if false = true then (portOf v22 3).txO3 else (portOf v22 3).txO2) v24) && (crc16 (List.take 5 (blkBytes (rxOverhead v22 3 (if false = true then (portOf v22 3).txO3 else (portOf v22 3).txO2) v24)))).toNat == bits (blkW (rxOverhead v22 3 (if false = true then (portOf v22 3).txO3 else (portOf v22 3).txO2) v24)) 15 0) = true) ∧
      (2048 ≤ apsGroup (blkW (rxOverhead v22 3 (if false = true then (portOf v22 3).txO3 else (portOf v22 3).txO2) v24))) ∧
      (apsGroup (blkW (rxOverhead v22 3 (if false = true then (portOf v22 3).txO3 else (portOf v22 3).txO2) v24)) ≠ 4095)) ∧
    ((powered v22 = true) ∧ (isTrunk v22 3 = true) ∧ ((portOf v22 3).trunk.align = Aligner.inFrame 0) ∧
      ((isOverhead (rxOverhead v22 3 (if true = true then (portOf v22 3).txO3 else (portOf v22 3).txO2) v25) && (crc16 (List.take 5 (blkBytes (rxOverhead v22 3 (if true = true then (portOf v22 3).txO3 else (portOf v22 3).txO2) v25)))).toNat == bits (blkW (rxOverhead v22 3 (if true = true then (portOf v22 3).txO3 else (portOf v22 3).txO2) v25)) 15 0) = true) ∧
      (apsGroup (blkW (rxOverhead v22 3 (if true = true then (portOf v22 3).txO3 else (portOf v22 3).txO2) v25)) < 2048) ∧
      (apsGroupAt v22 3 (apsGroup (blkW (rxOverhead v22 3 (if true = true then (portOf v22 3).txO3 else (portOf v22 3).txO2) v25))) = none)) ∧
    ((powered v22 = true) ∧ (isTrunk v22 3 = true) ∧ ((portOf v22 3).trunk.align = Aligner.inFrame 0) ∧
      ((isOverhead (rxOverhead v22 3 (if true = true then (portOf v22 3).txO3 else (portOf v22 3).txO2) v26) && (crc16 (List.take 5 (blkBytes (rxOverhead v22 3 (if true = true then (portOf v22 3).txO3 else (portOf v22 3).txO2) v26)))).toNat == bits (blkW (rxOverhead v22 3 (if true = true then (portOf v22 3).txO3 else (portOf v22 3).txO2) v26)) 15 0) = true) ∧
      (apsGroup (blkW (rxOverhead v22 3 (if true = true then (portOf v22 3).txO3 else (portOf v22 3).txO2) v26)) < 2048) ∧
      (apsGroupAt v22 3 (apsGroup (blkW (rxOverhead v22 3 (if true = true then (portOf v22 3).txO3 else (portOf v22 3).txO2) v26))) = some 5) ∧
      (apsValid (blkW (rxOverhead v22 3 (if true = true then (portOf v22 3).txO3 else (portOf v22 3).txO2) v26)) = false)) ∧
    ((powered v28 = true) ∧ (isTrunk v28 3 = true) ∧ ((portOf v28 3).trunk.align = Aligner.inFrame 0) ∧
      ((isOverhead (rxOverhead v28 3 (if true = true then (portOf v28 3).txO3 else (portOf v28 3).txO2) v27) && (crc16 (List.take 5 (blkBytes (rxOverhead v28 3 (if true = true then (portOf v28 3).txO3 else (portOf v28 3).txO2) v27)))).toNat == bits (blkW (rxOverhead v28 3 (if true = true then (portOf v28 3).txO3 else (portOf v28 3).txO2) v27)) 15 0) = true) ∧
      (apsGroup (blkW (rxOverhead v28 3 (if true = true then (portOf v28 3).txO3 else (portOf v28 3).txO2) v27)) < 2048) ∧
      (apsGroupAt v28 3 (apsGroup (blkW (rxOverhead v28 3 (if true = true then (portOf v28 3).txO3 else (portOf v28 3).txO2) v27))) = some 5) ∧
      (apsValid (blkW (rxOverhead v28 3 (if true = true then (portOf v28 3).txO3 else (portOf v28 3).txO2) v27)) = true) ∧
      (Option.map apsContent ((grpOf v28 5).rxNew.or (grpOf v28 5).rx) ≠ some (apsContent (blkW (rxOverhead v28 3 (if true = true then (portOf v28 3).txO3 else (portOf v28 3).txO2) v27))))) ∧
    ((powered v30 = true) ∧ (isTrunk v30 3 = true) ∧ ((portOf v30 3).trunk.align = Aligner.inFrame 0) ∧
      ((isOverhead (rxOverhead v30 3 (if true = true then (portOf v30 3).txO3 else (portOf v30 3).txO2) v27) && (crc16 (List.take 5 (blkBytes (rxOverhead v30 3 (if true = true then (portOf v30 3).txO3 else (portOf v30 3).txO2) v27)))).toNat == bits (blkW (rxOverhead v30 3 (if true = true then (portOf v30 3).txO3 else (portOf v30 3).txO2) v27)) 15 0) = true) ∧
      (apsGroup (blkW (rxOverhead v30 3 (if true = true then (portOf v30 3).txO3 else (portOf v30 3).txO2) v27)) < 2048) ∧
      (apsGroupAt v30 3 (apsGroup (blkW (rxOverhead v30 3 (if true = true then (portOf v30 3).txO3 else (portOf v30 3).txO2) v27))) = some 5) ∧
      (apsValid (blkW (rxOverhead v30 3 (if true = true then (portOf v30 3).txO3 else (portOf v30 3).txO2) v27)) = true) ∧
      (Option.map apsContent ((grpOf v30 5).rxNew.or (grpOf v30 5).rx) = some (apsContent (blkW (rxOverhead v30 3 (if true = true then (portOf v30 3).txO3 else (portOf v30 3).txO2) v27)))) ∧
      (isFrame v30.sfp = true) ∧ (isStandby v30 = false) ∧ ((grpOf v30 5).en = true) ∧ ((grpOf v30 5).tblErr = false) ∧
      (gArch (actv v30) 5 ≠ 0) ∧ (5 ≤ (grpOf v30 5).apsAge) ∧ ((grpOf v30 5).apsLoss = false) ∧
      (portSf v30 (protPort v30 5) = false) ∧ (v30.sage.items = it0 :: v29)) ∧
    ((powered v31 = true) ∧ (isTrunk v31 3 = true) ∧ ((portOf v31 3).trunk.align = Aligner.inFrame 0) ∧
      ((isOverhead (rxOverhead v31 3 (if true = true then (portOf v31 3).txO3 else (portOf v31 3).txO2) v27) && (crc16 (List.take 5 (blkBytes (rxOverhead v31 3 (if true = true then (portOf v31 3).txO3 else (portOf v31 3).txO2) v27)))).toNat == bits (blkW (rxOverhead v31 3 (if true = true then (portOf v31 3).txO3 else (portOf v31 3).txO2) v27)) 15 0) = true) ∧
      (apsGroup (blkW (rxOverhead v31 3 (if true = true then (portOf v31 3).txO3 else (portOf v31 3).txO2) v27)) < 2048) ∧
      (apsGroupAt v31 3 (apsGroup (blkW (rxOverhead v31 3 (if true = true then (portOf v31 3).txO3 else (portOf v31 3).txO2) v27))) = some 5) ∧
      (apsValid (blkW (rxOverhead v31 3 (if true = true then (portOf v31 3).txO3 else (portOf v31 3).txO2) v27)) = true) ∧
      (Option.map apsContent ((grpOf v31 5).rxNew.or (grpOf v31 5).rx) ≠ some (apsContent (blkW (rxOverhead v31 3 (if true = true then (portOf v31 3).txO3 else (portOf v31 3).txO2) v27)))) ∧
      (isFrame v31.sfp = true) ∧ (isStandby v31 = false) ∧ ((grpOf v31 5).en = true) ∧ ((grpOf v31 5).tblErr = false) ∧
      (gArch (actv v31) 5 ≠ 0) ∧ (512 ≤ (grpOf v31 5).nrRun) ∧ ((grpOf v31 5).fopNr = false)) :=
  ⟨by decide +kernel,
   by decide +kernel,
   by decide +kernel,
   by decide +kernel,
   by decide +kernel,
   by decide +kernel,
   by decide +kernel,
   by decide +kernel⟩

/-- States and operands that meet the hypotheses of ProtectionCommands. -/
theorem wit_ProtectionCommands :
    ((Accepted (1025 : BitVec 16) gw v32 v33) ∧ (frozenAny v33 (4 : BitVec 8) = false) ∧ (mirHeld v33 = false) ∧
      (grpArgsOk gw.params = true)) ∧
    ((Accepted (1026 : BitVec 16) gr v34 v35) ∧ (pkNat gr.params 0 2 ≤ 2047) ∧ (pk1 gr.params 2 ≤ 1)) ∧
    ((Accepted (1027 : BitVec 16) pr v36 v37) ∧ (pkNat pr.params 0 2 ≤ 2047) ∧
      (pk1 pr.params 2 = 14 ∨ pk1 pr.params 2 = 10 ∨ pk1 pr.params 2 = 4 ∨ pk1 pr.params 2 = 0) ∧
      (gEn (actv v37) (pkNat pr.params 0 2) = true)) ∧
    ((Accepted (1027 : BitVec 16) pr v36 v38) ∧ (pkNat pr.params 0 2 ≤ 2047) ∧
      (pk1 pr.params 2 = 14 ∨ pk1 pr.params 2 = 10 ∨ pk1 pr.params 2 = 4 ∨ pk1 pr.params 2 = 0) ∧
      (gEn (actv v38) (pkNat pr.params 0 2) = false)) ∧
    ((Accepted (1028 : BitVec 16) ps v39 v40) ∧ (pkNat ps.params 0 2 ≤ 2047)) ∧
    ((Begun (1028 : BitVec 16) ps v39 v41) ∧ (pkNat ps.params 0 2 ≤ 2047) ∧ (2 ≤ List.length ps.params) ∧
      (groupBarred v41 v39 (pkNat ps.params 0 2) = true)) ∧
    ((Begun (1027 : BitVec 16) prms v42 v43) ∧ (pkNat prms.params 0 2 ≤ 2047) ∧ (3 ≤ List.length prms.params) ∧
      (pk1 prms.params 2 = 4) ∧ (groupBarred v43 v42 (pkNat prms.params 0 2) = true)) ∧
    ((Accepted (1029 : BitVec 16) ps v44 v45) ∧ (pkNat ps.params 0 2 ≤ 2047) ∧
      ((grpOf v45 (pkNat ps.params 0 2)).eq = EqState.unaligned) ∧
      ((grpOf v45 (pkNat ps.params 0 2)).eqWhy = 1 ∨ (grpOf v45 (pkNat ps.params 0 2)).eqWhy = 5 ∨ (grpOf v45 (pkNat ps.params 0 2)).eqWhy = 6)) ∧
    ((Accepted (1029 : BitVec 16) ps v44 v46) ∧ (pkNat ps.params 0 2 ≤ 2047) ∧
      ((grpOf v46 (pkNat ps.params 0 2)).eq ≠ EqState.unaligned)) ∧
    ((Accepted (1029 : BitVec 16) ps v44 v47) ∧ (pkNat ps.params 0 2 ≤ 2047) ∧
      ((grpOf v47 (pkNat ps.params 0 2)).eq = EqState.unaligned) ∧ ((grpOf v47 (pkNat ps.params 0 2)).eqWhy = 4)) ∧
    ((Accepted (1029 : BitVec 16) ps v44 v49) ∧ (pkNat ps.params 0 2 ≤ 2047) ∧
      ((grpOf v49 (pkNat ps.params 0 2)).eq = EqState.unaligned) ∧
      ((grpOf v49 (pkNat ps.params 0 2)).eqWhy = 2 ∨ (grpOf v49 (pkNat ps.params 0 2)).eqWhy = 3 ∨ (grpOf v49 (pkNat ps.params 0 2)).eqWhy = 7)) :=
  ⟨by decide +kernel,
   by decide +kernel,
   by decide +kernel,
   by decide +kernel,
   by decide +kernel,
   by decide +kernel,
   by decide +kernel,
   by decide +kernel,
   by decide +kernel,
   by decide +kernel,
   by decide +kernel⟩

/-- States and operands that meet the hypotheses of ErrorlessRows. -/
theorem wit_ErrorlessRows :
    ((powered v50 = true) ∧ ((grpOf v50 5).en = true) ∧ (gErrorless (actv v50) 5 = true) ∧ (8 ≤ v50.sfp.bi) ∧
      (leadSource v50 5 true = some 240) ∧
      ((if true = true then (grpOf v50 5).mp else (grpOf v50 5).mw).last = some (255, v48)) ∧
      (markerSeq (stored v50 240) = some ((255 + 1) % mfcMod)) ∧ (↑(calCycle v50.sfp) = v48 + (65504 : ℤ))) ∧
    ((powered v53 = true) ∧ ((grpOf v53 5).en = true) ∧ (gErrorless (actv v53) 5 = true) ∧ (8 ≤ v53.sfp.bi) ∧
      (leadSource v53 5 true = some 240) ∧ (markerSeq (stored v53 240) = none)) ∧
    ((powered v51 = true) ∧ ((grpOf v51 5).en = true) ∧ (gErrorless (actv v51) 5 = true) ∧ (8 ≤ v51.sfp.bi) ∧
      (leadSource v51 5 false = some 160) ∧ (markerSeq (stored v51 160) = none) ∧
      ((if false = true then (grpOf v51 5).mp else (grpOf v51 5).mw).lock = true) ∧
      ((if false = true then (grpOf v51 5).mp else (grpOf v51 5).mw).last = some (254, v59)) ∧
      (v59 + ↑(if false = true then (grpOf v51 5).mp else (grpOf v51 5).mw).slipped.natAbs + (2 : ℤ) * (65504 : ℤ) ≤ ↑(calCycle v51.sfp)) ∧
      ((grpOf v51 5).eq = EqState.aligned)) ∧
    ((powered v52 = true) ∧ ((grpOf v52 5).en = true) ∧ (gErrorless (actv v52) 5 = true) ∧ (8 ≤ v52.sfp.bi) ∧
      (leadSource v52 5 true = some 240) ∧ (markerSeq (stored v52 240) = none) ∧
      ((if true = true then (grpOf v52 5).mp else (grpOf v52 5).mw).lock = true) ∧
      ((if true = true then (grpOf v52 5).mp else (grpOf v52 5).mw).last = some (254, v59)) ∧
      (v59 + ↑(if true = true then (grpOf v52 5).mp else (grpOf v52 5).mw).slipped.natAbs + (2 : ℤ) * (65504 : ℤ) ≤ ↑(calCycle v52.sfp)) ∧
      ((grpOf v52 5).eq ≠ EqState.aligned)) ∧
    ((powered v55 = true) ∧ ((grpOf v55 5).en = true) ∧ (gErrorless (actv v55) 5 = true) ∧ (8 ≤ v55.sfp.bi) ∧
      (leadSource v55 5 true = some 240) ∧ (markerSeq (stored v55 240) = none) ∧
      ((grpOf v55 5).eq = EqState.unaligned) ∧ ((grpOf v55 5).delta = some (v54, 2)) ∧ (2 ≤ 2) ∧ (v54.natAbs ≤ 1953) ∧
      (lockW v55 5 = true) ∧ (lockP v55 5 = true) ∧ (cycleStart v55.sfp = true) ∧
      (markerDue (if v54 < (0 : ℤ) then (grpOf v55 5).mw else (grpOf v55 5).mp) 0 (calCycle v55.sfp) = true) ∧
      (v54 = (0 : ℤ) ∨ (grpOf v55 5).egSel ≠ decide (v54 < (0 : ℤ)) ∨ (grpOf v55 5).firstEng = true ∨ (grpOf v55 5).grant = true ∧ (grpOf v55 5).grantMeas = true)) ∧
    ((powered v58 = true) ∧ ((grpOf v58 5).en = true) ∧ (gErrorless (actv v58) 5 = true) ∧ (8 ≤ v58.sfp.bi) ∧
      (leadSource v58 5 true = some 240) ∧ (markerSeq (stored v58 240) = none) ∧
      ((grpOf v58 5).eq = EqState.unaligned) ∧ ((grpOf v58 5).delta = some ((0 : ℤ), 2)) ∧ (2 ≤ 2) ∧
      (Int.natAbs (0 : ℤ) ≤ 1953) ∧ (lockW v58 5 = true) ∧ (lockP v58 5 = true) ∧ (cycleStart v58.sfp = true) ∧
      (markerDue (if (0 : ℤ) < (0 : ℤ) then (grpOf v58 5).mw else (grpOf v58 5).mp) 0 (calCycle v58.sfp) = true) ∧
      ((0 : ℤ) = (0 : ℤ) ∨ (grpOf v58 5).egSel ≠ decide ((0 : ℤ) < (0 : ℤ)) ∨ (grpOf v58 5).firstEng = true ∨ (grpOf v58 5).grant = true ∧ (grpOf v58 5).grantMeas = true)) ∧
    ((powered v57 = true) ∧ ((grpOf v57 5).en = true) ∧ (gErrorless (actv v57) 5 = true) ∧ (8 ≤ v57.sfp.bi) ∧
      (leadSource v57 5 true = some 240) ∧ (markerSeq (stored v57 240) = none) ∧ ((grpOf v57 5).eqPend = some v56) ∧
      (engaged (grpOf v57 5) = true) ∧ ((0 : ℤ) ≤ sfpDist (nextFrame v56) v57.sfp) ∧ (markerBoundary v57 5 = true)) :=
  ⟨by decide +kernel,
   by decide +kernel,
   by decide +kernel,
   by decide +kernel,
   by decide +kernel,
   by decide +kernel,
   by decide +kernel⟩


end Prot

namespace Pair

def pr (x : PairSt) : State := { atE with pair := x }
def e0 : Req := rq []
def v1 : Run := (rn 0x0701 e0)
def v2 : State := (runs 0x0701 e0 (pr { st := .standby, aliveIn := true, swap := some (⟨0x200, 0, 0⟩, true) }))
def cw : Req := rq ([3, 0] ++ beBytes 2 16383 ++ beBytes 2 16)
def v3 : Run := (rn 0x0702 cw)
def v4 : State := (runs 0x0702 cw (pr { st := .unpaired }))
def cr : Req := rq [1]
def v5 : Run := (rn 0x0703 cr)
def v6 : State := (runs 0x0703 cr (put [(aPairCfg, 3)] (pr { st := .unpaired })))
def rs : Run := rn 0x0704 e0
def v7 : State := (runs 0x0704 e0 (pr { st := .unsynced, hb0 := some ⟨0x100, 0, 0⟩, peer := some (2, false, true, Config.imageCompat []) }))
def v8 : State := (runs 0x0704 e0 (pr { st := .standby }))
def sw : Req := rq (guarded 0x0705 (sfpBytes ⟨0x100, 4, 0⟩ ++ [0, 0]))
def act0 : PairSt := { st := .active, aliveOut := true, peer := some (5, true, false, 0), hb0 := some ⟨0x100, 0, 0⟩ }
def v9 : Run := (rn 0x0705 sw)
def v10 : State := (runs 0x0705 sw (pr act0))
def v11 : Byte × Byte := (4, 4)
def v12 : State := (runs 0x0705 sw (pr { act0 with swap := some (⟨0x200, 0, 0⟩, true) }))
def fa : Req := rq (guarded 0x0706 [])
def v13 : Run := (rn 0x0706 fa)
def v14 : State := (runs 0x0706 fa (pr { st := .unsynced }))
def hb (st fi bi4 sl : Nat) : Block :=
  let x := 0x9C5E * 2 ^ 32 + fi * 2 ^ 27 + bi4 * 2 ^ 21 + sl * 2 ^ 13 + st * 2 ^ 10 + 2 ^ 9
  ohBlock (BitVec.ofNat 56 (x * 256 + (crc8 (beBytes 6 x) ^^^ 0x5A).toNat))
def v15 : State := (pr { st := .standby, aliveIn := true })
def v16 : Block := (hb 5 0 0 7)
def v17 : State := (pr { st := .active, lost := true, blocked := true, down1 := true })
def v18 : Block := (hb 2 5 3 7)
def v19 : State := (pr { st := .standby, hb0 := some ⟨0xFF, 31, 163768 - 16384⟩, hbFi := 4, hbSlices := [(0, 0), (1, 0), (2, 0), (3, 0), (4, 0)] })
def v20 : State := (pr { st := .standby, hb0 := some ⟨0xFF, 30, 0⟩, hbFi := 4, hbSlices := [(0, 0), (1, 0), (2, 0), (3, 0), (4, 0)] })
def v21 : State := (pr { st := .standby, aliveIn := true, hb0 := some ⟨0xFF, 30, 0⟩ })
def v23 : State := (put [(aPairCfg, 0x00100003)] { pr { st := .standby, hb0 := some ⟨0xFF, 30, 0⟩ } with thy := { st := .holdover } })
def v26 : State := (pr { st := .unpaired })
def v29 : State := (pr { st := .standby, auditBad := [3] })
def v30 : State := (pr { st := .standby })
def v31 : State := (pr { st := .syncing, phase := 4 })
def v32 : State := (runs 0x0704 e0 (pr { st := .syncing, resync := true, phase := 5, phaseAt := List.replicate 5 ⟨0xFF, 0, 0⟩ }))
def q32 : Run := rn 0x0704 e0
def v27 : State := (pr { st := .syncing, phase := 3 })
def w28 : State := (pr { act0 with swap := some (⟨0x200, 0, 0⟩, false) })
def v28 : State := (pr { st := .unsynced })
/-- The CRC values of a twin that agrees with v30 except in segments 3 and 7. -/
def crcs : List Word := (List.range 142).map (fun k => (auditCrcs v30).getD k 0 ^^^ (if k = 3 then 1 else if k = 7 then 2 else 0))
def own : List Word := auditCrcs v31
def v33 : Sfp := ⟨0x200, 0, 0⟩
def v34 : State := (pr { act0 with swap := some (⟨0x200, 0, 0⟩, false) })
def chq : State := { pr { act0 with swap := some (⟨0x100, 0, 0⟩, true) } with
  ports := [(3, { txq := [{ pri := 0, bytes := [] }], txNow := some ({ pri := 0, bytes := [] }, 0), trunk := { reasm := some [] } })] }
def at64 (n : Nat) (s : State) : State := { s with sfp := ⟨0x100, 0, n⟩ }
def v35 : Sfp := ⟨0x100, 0, 0⟩
def v36 : State := (at64 64 (pr { st := .standby, swap := some (⟨0x100, 0, 0⟩, true) }))
def v37 : State := (at64 64 (pr { st := .standby, aliveIn := true, swap := some (⟨0x100, 0, 0⟩, true) }))
def v38 : Sfp := ⟨0x100, 1, 0⟩
def v39 : State := (pr { act0 with swap := some (⟨0x100, 1, 0⟩, false) })
def v40 : State := (at64 4096 (pr { st := .standby, swapped := some ⟨0x100, 0, 0⟩ }))
def v41 : State := { put [(aPortCfg 2, 1), (aPortCfg 3, 1)] (pr { act0 with watch := some (⟨0x100, 0, 0⟩, 4) }) with ports := [(2, { rep := 0x80 }), (3, { rep := 0x80 })] }
def v42 : State := (pr { st := .unsynced, force := some ⟨0x100, 0, 0⟩, blocked := true })
def v43 : State := { pr { arbRun := 2 } with pins := { twinPos := false } }
def sv : SavedCfg := { bank := [], smi := [], regs := [(aPortCfg 5, 3), (aCandCfg 3, 1)], ql := 0, auto := true, boot := 1, at_ := {} }
def v44 : State := { pr { arbRun := 2048 } with pins := { twinPos := true }, flash := { cfg := some sv } }
def v45 : State := (putStg [(aPortCfg 7, 2), (aGrpCfg 3, 5)] { pr { st := .unpaired } with auto := { stage := .stage1 }, flash := { cfg := some sv }, com := { stageOpen := 0xE8 } })
def v46 : State := { pr { st := .unpaired } with auto := { stage := .waitLock }, thy := { st := .locked } }
def v47 : State := { pr { st := .unpaired } with sfp := ⟨178894, 0, 0⟩, auto := { stage := .waitLock, strobe1 := some ⟨1, 0, 0⟩ } }

def sn : List (Nat × Nat) := [(aSwapLo, 0x100), (aSwapFi, 4)]
def v50 : State := second 0x0705 sw 0 (aSys + 0x038) 1 (put sn (pr act0))
def v51 : State := second 0x0705 sw 0 (aSys + 0x038) 1 (put sn (pr { act0 with swap := some (⟨0x200, 0, 0⟩, true) }))
def sc : Req := rq (guarded 0x0705 (sfpBytes ⟨0x100, 4, 0⟩ ++ [1, 0]))
def v52 : State := second 0x0705 sc 0 (aSys + 0x038) 2 (put sn (pr { act0 with swap := some (⟨0x100, 4, 0⟩, true) }))
def v53 : State := second 0x0706 fa 0 (aSys + 0x038) 4 (pr { st := .unsynced })
def cp : Nat := 5
def v54 : State := (pr { st := .syncing, phase := 1, resync := true })
def v55 : State := { v47 with pair := { st := .standby } }
def v22 : State := (pr { st := .syncing, hb0 := some ⟨0xFF, 30, 0⟩, resync := true, phase := 2 })
def v56 : State := (runs 0x0704 e0 (pr { st := .unsynced }))
def v57 : State := { v41 with pair := { v41.pair with watch := some (⟨0x100, 0, 0⟩, 12) } }

/-- States and operands that meet the hypotheses of PairCommands. -/
theorem wit_PairCommands :
    ((Accepted (1793 : BitVec 16) e0 v1 v2)) ∧
    ((Accepted (1794 : BitVec 16) cw v3 v4) ∧ (frozenAny v4 (128 : BitVec 8) = false) ∧ (mirHeld v4 = false) ∧
      (v4.regs.pairs = []) ∧ (8 ≤ pkNat cw.params 2 2) ∧ (pkNat cw.params 2 2 ≤ 16383) ∧ (16 ≤ pkNat cw.params 4 2) ∧
      (pkNat cw.params 4 2 ≤ 4096)) ∧
    ((Accepted (1795 : BitVec 16) cr v5 v6) ∧ (pk1 cr.params 0 ≤ 1)) ∧
    ((Accepted (1796 : BitVec 16) e0 rs v7) ∧ (v7.pair.st = PairState.unsynced) ∧ (chiveSilent v7 = false) ∧
      (Option.map (fun (y : BitVec 3 × Bool × Bool × Byte) => (y.1, y.2.2.2)) v7.pair.peer = some ((2 : BitVec 3), ownCompat v7))) ∧
    ((Accepted (1796 : BitVec 16) e0 rs v8) ∧ (v8.pair.st ≠ PairState.unsynced)) ∧
    ((Accepted (1796 : BitVec 16) e0 rs v56) ∧ (v56.pair.st = PairState.unsynced) ∧ (chiveSilent v56 = true)) ∧
    ((Accepted (1797 : BitVec 16) sw v9 v10) ∧ ((sfpOfBytes sw.params 0).bi = 0) ∧
      (bit (List.getD sw.params 10 (0 : Byte)) 0 = false) ∧ (v10.regs.pairs = []) ∧
      (swapCheck v10 v9.accept (sfpOfBytes sw.params 0) = none) ∧ ((sfpOfBytes sw.params 0).mfc < mfcMod) ∧
      ((sfpOfBytes sw.params 0).fi < 32)) ∧
    ((Accepted (1797 : BitVec 16) sw v9 v12) ∧ ((sfpOfBytes sw.params 0).bi = 0) ∧
      (bit (List.getD sw.params 10 (0 : Byte)) 0 = false) ∧ (v12.regs.pairs = []) ∧
      (swapCheck v12 v9.accept (sfpOfBytes sw.params 0) = some v11)) ∧
    ((SecondWrite (1797 : BitVec 16) sw (rn2 (1797 : BitVec 16) sw) 0 (aSys + 56) (1 : Word) v50) ∧
      ((sfpOfBytes sw.params 0).bi = 0) ∧ (bit (List.getD sw.params 10 (0 : Byte)) 0 = false) ∧
      (swapCheck v50 (rn2 (1797 : BitVec 16) sw).accept (swapNamed v50) = none)) ∧
    ((SecondWrite (1797 : BitVec 16) sw (rn2 (1797 : BitVec 16) sw) 0 (aSys + 56) (1 : Word) v51) ∧
      ((sfpOfBytes sw.params 0).bi = 0) ∧ (bit (List.getD sw.params 10 (0 : Byte)) 0 = false) ∧
      (swapCheck v51 (rn2 (1797 : BitVec 16) sw).accept (swapNamed v51) = some v11)) ∧
    ((SecondWrite (1797 : BitVec 16) sc (rn2 (1797 : BitVec 16) sc) 0 (aSys + 56) (2 : Word) v52) ∧
      ((sfpOfBytes sc.params 0).bi = 0) ∧ (bit (List.getD sc.params 10 (0 : Byte)) 0 = true) ∧
      (cancelCheck v52 (rn2 (1797 : BitVec 16) sc).accept (swapNamed v52) = none)) ∧
    ((Accepted (1798 : BitVec 16) fa v13 v14) ∧ (v14.regs.pairs = []) ∧ (v14.pair.st = PairState.unsynced) ∧
      (v14.pair.aliveIn = false) ∧ (v14.pair.live0 = false) ∧ (v14.pair.live1 = false)) ∧
    ((SecondWrite (1798 : BitVec 16) fa (rn2 (1798 : BitVec 16) fa) 0 (aSys + 56) (4 : Word) v53) ∧
      (v53.pair.st = PairState.unsynced ∨ v53.pair.st = PairState.syncing) ∧ (v53.pair.aliveIn = false) ∧
      (v53.pair.live0 = false) ∧ (v53.pair.live1 = false)) :=
  ⟨by decide +kernel,
   by decide +kernel,
   by decide +kernel,
   by (repeat' apply And.intro) <;> first | decide +kernel | rfl,
   by decide +kernel,
   by decide +kernel,
   by decide +kernel,
   by decide +kernel,
   by decide +kernel,
   by decide +kernel,
   by decide +kernel,
   by decide +kernel,
   by decide +kernel⟩

/-- States and operands that meet the hypotheses of PairLink. -/
theorem wit_PairLink :
    ((powered v15 = true) ∧ (hbGood idleBlock = false) ∧ ((if 0 = 0 then v15.pair.down0 else v15.pair.down1) = false) ∧
      (heardWithin v15 (if 0 = 0 then v15.pair.hb0 else v15.pair.hb1) (16384 : ℤ) = false) ∧
      (v15.pair.st = PairState.standby) ∧ (true = true) ∧ (chiveSilent v15 = true)) ∧
    ((powered v17 = true) ∧ (hbGood v16 = true) ∧ (MatFree v17) ∧
      (holdsLines v17 = true ∨ v17.pair.st = PairState.standby) ∧ (holdsLines v17 = true) ∧
      (v17.pair.st ≠ PairState.standby ∨ true = false ∨ chiveSilent v17 = false)) ∧
    ((powered v19 = true) ∧ (hbGood v18 = true) ∧ (MatFree v19) ∧
      (holdsLines v19 = true ∨ v19.pair.st = PairState.standby) ∧ (bit (blkW v18) 17 = true) ∧
      (bits (blkW v18) 20 18 = 2) ∧ ((if 0 = 0 then v19.pair.down0 else v19.pair.down1) = false) ∧
      (heardWithin v19 (if 0 = 0 then v19.pair.hb0 else v19.pair.hb1) (16384 : ℤ) = false) ∧
      (v19.pair.st ≠ PairState.standby ∨ false = false ∨ chiveSilent v19 = false)) ∧
    ((powered v54 = true) ∧ ((if 0 = 0 then v54.pair.down0 else v54.pair.down1) = false) ∧
      (heardWithin v54 (if 0 = 0 then v54.pair.hb0 else v54.pair.hb1) (16384 : ℤ) = false) ∧
      (v54.pair.st ≠ PairState.standby ∨ false = false ∨ chiveSilent v54 = false)) ∧
    ((powered v20 = true) ∧ (hbGood v18 = true) ∧ (MatFree v20) ∧
      (holdsLines v20 = true ∨ v20.pair.st = PairState.standby) ∧ (bit (blkW v18) 17 = true) ∧
      (bits (blkW v18) 20 18 = 2) ∧ ((if 0 = 0 then v20.pair.down0 else v20.pair.down1) = false) ∧
      (heardWithin v20 (if 0 = 0 then v20.pair.hb0 else v20.pair.hb1) (16384 : ℤ) = false) ∧ (chiveSilent v20 = true) ∧
      (v20.pair.lost = false) ∧ (v20.pair.hb0.isSome = true) ∧ (v20.pair.st ≠ PairState.syncing) ∧
      (v20.pair.st ≠ PairState.standby ∨ v20.pair.aliveIn = false) ∧
      (v20.pair.st ≠ PairState.standby ∨ false = false ∨ chiveSilent v20 = false)) ∧
    ((powered v21 = true) ∧ (hbGood v18 = true) ∧ (MatFree v21) ∧
      (holdsLines v21 = true ∨ v21.pair.st = PairState.standby) ∧ (bit (blkW v18) 17 = true) ∧
      (bits (blkW v18) 20 18 = 2) ∧ ((if 0 = 0 then v21.pair.down0 else v21.pair.down1) = false) ∧
      (heardWithin v21 (if 0 = 0 then v21.pair.hb0 else v21.pair.hb1) (16384 : ℤ) = false) ∧ (chiveSilent v21 = true) ∧
      (v21.pair.lost = false) ∧ (v21.pair.hb0.isSome = true) ∧ (v21.pair.st = PairState.standby) ∧
      (v21.pair.aliveIn = true) ∧ (true = true)) ∧
    ((powered v22 = true) ∧ ((if 0 = 0 then v22.pair.down0 else v22.pair.down1) = false) ∧
      (heardWithin v22 (if 0 = 0 then v22.pair.hb0 else v22.pair.hb1) (16384 : ℤ) = false) ∧ (chiveSilent v22 = true) ∧
      (v22.pair.lost = false) ∧ (v22.pair.hb0.isSome = true) ∧ (MatFree v22) ∧ (v22.pair.st = PairState.syncing) ∧
      (v22.pair.st ≠ PairState.standby ∨ true = false ∨ chiveSilent v22 = false)) ∧
    ((powered v23 = true) ∧ (hbGood v18 = true) ∧ (MatFree v23) ∧
      (holdsLines v23 = true ∨ v23.pair.st = PairState.standby) ∧ (bit (blkW v18) 17 = true) ∧
      (bits (blkW v18) 20 18 = 2) ∧ ((if 0 = 0 then v23.pair.down0 else v23.pair.down1) = false) ∧
      (heardWithin v23 (if 0 = 0 then v23.pair.hb0 else v23.pair.hb1) (16384 : ℤ) = false) ∧ (chiveSilent v23 = true) ∧
      (v23.pair.lost = false) ∧ (v23.pair.hb0.isSome = true) ∧ (v23.pair.st ≠ PairState.syncing) ∧
      (v23.pair.st ≠ PairState.standby ∨ v23.pair.aliveIn = false) ∧
      (v23.pair.st ≠ PairState.standby ∨ false = false ∨ chiveSilent v23 = false) ∧ (v23.pair.st = PairState.standby) ∧
      (pairEn (actv v23) = true) ∧ (v23.pair.aliveIn = false) ∧ (v23.thy.st = ThyState.holdover)) :=
  ⟨by decide +kernel,
   by decide +kernel,
   by decide +kernel,
   by decide +kernel,
   by decide +kernel,
   by decide +kernel,
   by decide +kernel,
   by decide +kernel⟩

/-- States and operands that meet the hypotheses of PairMirror. -/
theorem wit_PairMirror :
    ((powered v26 = true) ∧ (v26.pair.st = PairState.unpaired ∨ v26.pair.st = PairState.arbitrating)) ∧
    ((powered v31 = true) ∧ (v31.pair.st = PairState.standby ∨ v31.pair.st = PairState.syncing ∧ 4 ≤ v31.pair.phase) ∧
      (v31.pair.st = PairState.syncing) ∧ (v31.pair.phase = 4)) ∧
    ((powered v27 = true) ∧ (v27.pair.st = PairState.syncing) ∧ (v27.pair.phase = 3)) ∧
    ((powered v32 = true) ∧ (v32.pair.st = PairState.standby ∨ v32.pair.st = PairState.syncing ∧ 4 ≤ v32.pair.phase) ∧
      (v32.pair.st = PairState.syncing) ∧ (v32.pair.phase = 5) ∧ (isEpoch v32.sfp = true) ∧ (v32.vcp.run = some q32) ∧
      (q32.op = (1796 : BitVec 16)) ∧ (q32.reply = none)) ∧
    ((powered w28 = true) ∧ (w28.pair.st = PairState.active) ∧ (w28.pair.swap = some (v33, false))) ∧
    ((powered v28 = true) ∧ (v28.pair.st = PairState.unsynced) ∧ (v28.seq.running = true) ∧ (v28.vcp.run = none)) :=
  ⟨by decide +kernel,
   by decide +kernel,
   by decide +kernel,
   by decide +kernel,
   by decide +kernel,
   by decide +kernel⟩

/-- States and operands that meet the hypotheses of PairSwaps. -/
theorem wit_PairSwaps :
    ((powered chq = true) ∧ (chq.pair.swap = some (chq.sfp, true)) ∧ (chq.pair.st = PairState.active)) ∧
    ((powered v36 = true) ∧ (v36.pair.swap = some (v35, true)) ∧ (sfpAdd v35 64 = v36.sfp) ∧
      (v36.pair.st = PairState.standby) ∧ (v36.pair.aliveIn = false)) ∧
    ((powered v37 = true) ∧ (v37.pair.swap = some (v35, true)) ∧ (sfpAdd v35 64 = v37.sfp) ∧
      (v37.pair.st = PairState.standby) ∧ (v37.pair.aliveIn = true)) ∧
    ((powered v39 = true) ∧ (v39.pair.swap = some (v38, false)) ∧ (isFrame v39.sfp = true) ∧
      (nextFrame v39.sfp = v38) ∧ (v39.pair.st = PairState.active)) ∧
    ((powered v40 = true) ∧ (v40.pair.swapped = some v35) ∧ (sfpAdd v35 4096 = v40.sfp) ∧
      (v40.pair.st = PairState.standby)) ∧
    ((powered v41 = true) ∧ (v41.pair.watch = some (v35, (4 : BitVec 128))) ∧ ((0 : ℤ) ≤ sfpDist v35 v41.sfp) ∧
      (farBad v41 &&& ~~~(4 : BitVec 128) &&& ~~~v41.pair.watchNew ≠ (0 : BitVec 128))) ∧
    ((powered v57 = true) ∧ (v57.pair.watch = some (v35, (12 : BitVec 128))) ∧ ((0 : ℤ) ≤ sfpDist v35 v57.sfp) ∧
      (farBad v57 &&& ~~~(12 : BitVec 128) &&& ~~~v57.pair.watchNew = (0 : BitVec 128))) ∧
    ((powered v42 = true) ∧ (v42.pair.force = some v42.sfp) ∧
      (v42.pair.st = PairState.unsynced ∨ v42.pair.st = PairState.syncing)) ∧
    ((powered v43 = true) ∧ (isFrame v43.sfp = true) ∧ (v43.phase = Phase.ready) ∧ (v43.seq.rescue = false) ∧
      (v43.pair.st = PairState.arbitrating) ∧ (v43.pair.aliveIn = false) ∧
      ((if v43.pins.twinPos = true then 2048 else 2) ≤ v43.pair.arbRun) ∧ (v43.flash.cfg = none)) :=
  ⟨by decide +kernel,
   by decide +kernel,
   by decide +kernel,
   by decide +kernel,
   by decide +kernel,
   by decide +kernel,
   by decide +kernel,
   by decide +kernel,
   by decide +kernel⟩

/-- States and operands that meet the hypotheses of AutoRestore. -/
theorem wit_AutoRestore :
    ((powered v44 = true) ∧ (isFrame v44.sfp = true) ∧ (v44.phase = Phase.ready) ∧ (v44.seq.rescue = false) ∧
      (v44.pair.st = PairState.arbitrating) ∧ (v44.pair.aliveIn = false) ∧ (2048 ≤ v44.pair.arbRun) ∧
      (v44.flash.cfg = some sv) ∧ (sv.auto = true)) ∧
    ((powered v45 = true) ∧ (v45.auto.stage = AutoStage.stage1) ∧ (v45.flash.cfg = some sv) ∧
      (v45.seq.running = true) ∧ (holdsLines v45 = true) ∧
      (commitRefuse (closeDomains (stageSaved v45 sv.regs (232 : BitVec 8)) (232 : BitVec 8)) v45.sfp (232 : BitVec 8) (earliest v45.sfp) = none) ∧
      (entFor v45 (earliest v45.sfp) = none) ∧ (freeEnt v45 = some 0)) ∧
    ((powered v46 = true) ∧ (isFrame v46.sfp = true) ∧ (v46.auto.stage = AutoStage.waitLock) ∧
      (v46.seq.running = true) ∧ (v46.vcp.run = none) ∧ (holdsLines v46 = true) ∧ (v46.thy.st = ThyState.locked) ∧
      (tFrameSrc (actv v46) ≠ 1)) ∧
    ((powered v47 = true) ∧ (isFrame v47.sfp = true) ∧ (v47.auto.stage = AutoStage.waitLock) ∧
      (v47.seq.running = true) ∧ (v47.vcp.run = none) ∧ (holdsLines v47 = true) ∧
      (v47.auto.strobe1 = some { mfc := 1 }) ∧ ((178893 : ℤ) * (5240576 : ℤ) ≤ sfpDist { mfc := 1 } v47.sfp)) ∧
    ((powered v55 = true) ∧ (isFrame v55.sfp = true) ∧ (v55.auto.stage = AutoStage.waitLock) ∧
      (v55.seq.running = true) ∧ (v55.vcp.run = none) ∧ (holdsLines v55 = false)) :=
  ⟨by decide +kernel,
   by decide +kernel,
   by decide +kernel,
   by decide +kernel,
   by decide +kernel⟩

/-- A heartbeat of a twin of some COMPAT: body of 48 bits, then the guarded CRC. -/
def hbOf (c : Byte) : Block :=
  let x := 0x9C5E * 2 ^ 32 + 4 * 2 ^ 10 + c.toNat
  ohBlock (BitVec.ofNat 56 (x * 256 + (crc8 (beBytes 6 x) ^^^ 0x5A).toNat))
theorem hbOf_compat : ∀ c : Fin 256, hbGood (hbOf (BitVec.ofFin c)) = true ∧
    bits (blkW (hbOf (BitVec.ofFin c))) 15 8 = c.val := by decide +kernel

/-- Heartbeats that meet the hypotheses of PairLink about a resync: the twin's own COMPAT, and another one. -/
theorem wit_PairLinkResync : (powered v54 = true) ∧ (MatFree v54) ∧ (v54.pair.st = .syncing) ∧ (v54.pair.phase = 1) ∧
    (hbGood (hbOf (ownCompat v54)) = true) ∧ (bits (blkW (hbOf (ownCompat v54))) 15 8 = (ownCompat v54).toNat) ∧
    (hbGood (hbOf (ownCompat v54 + 1)) = true) ∧
    (bits (blkW (hbOf (ownCompat v54 + 1))) 15 8 ≠ (ownCompat v54).toNat) := by
  have h := hbOf_compat (ownCompat v54).toFin
  have k := hbOf_compat (ownCompat v54 + 1).toFin
  refine ⟨by decide +kernel, by decide +kernel, by decide +kernel, by decide +kernel, h.1, h.2, k.1, ?_⟩
  have : bits (blkW (hbOf (ownCompat v54 + 1))) 15 8 = (ownCompat v54 + 1).toNat := k.2
  rw [this]
  generalize ownCompat v54 = c
  bv_omega

/-- Audit values that differ from the twin's own in every segment, and that differ in none. -/
theorem wit_PairMirrorAudit : (powered v29 = true) ∧ (v29.pair.st = .standby) ∧ (powered v30 = true) ∧
    (v30.pair.st = .standby) ∧
    (((List.range 142).filter (fun k => (auditCrcs v29).getD k 0 !=
      ((List.range 142).map (fun k => (auditCrcs v29).getD k 0 + 1)).getD k 0)).any
        (fun k => v29.pair.auditBad.contains k) = true) ∧
    (((List.range 142).filter (fun k => (auditCrcs v30).getD k 0 != (auditCrcs v30).getD k 0)).any
        (fun k => v30.pair.auditBad.contains k) = false) := by
  refine ⟨by decide +kernel, by decide +kernel, by decide +kernel, by decide +kernel, ?_, by simp⟩
  generalize auditCrcs v29 = l
  rw [List.any_eq_true]
  refine ⟨3, List.mem_filter.2 ⟨by decide, ?_⟩, by decide +kernel⟩
  have : (((List.range 142).map (fun k => l.getD k 0 + 1)).getD 3 0 : Word) = l.getD 3 0 + 1 := by simp
  rw [this]
  generalize l.getD 3 0 = x
  simp

end Pair

namespace Power

def pw (p : PowerSt) : State := { atE with pwr := p }
def v1 : State := (pw { uvA := true })
def v2 : State := (pw { goodB := false, failover := some true })
def v3 : State := (pw { declared := true, brownout := true, goodA := false, uvA := true })
def v4 : State := (pw { goodB := false })
def fs (t : Nat) : Req := rq (guarded 0x0A02 [by1 t, 0, 0, 0])
def v6 : Req := (fs 1)
def v7 : Run := (rn 0x0A02 (fs 1))
def v8 : State := (runs 0x0A02 (fs 1) (pw {}))
def v9 : Req := (fs 0)
def v10 : Run := (rn 0x0A02 (fs 0))
def v11 : State := (runs 0x0A02 (fs 0) (pw {}))
def e0 : Req := rq []
def v12 : Run := (rn 0x0A01 e0)
def v13 : State := (runs 0x0A01 e0 (pw { mvA := 48000, mvB := 47000, result := 3 }))
def v14 : State := (runs 0x0A02 (fs 1) (pw { switching := some true, pathB := true }))
def v15 : State := (pw { switching := some true, pathB := true, goodB := false })
def v16 : State := { pw { pathA := false, ovA := true } with map := { bActive := true } }
def v17 : State := (pw { uvA := true, uvB := true })
def v18 : State := (pw { uvB := true })
def v19 : State := { pw { hasSel := false, offCause := 4 } with phase := .off }
def v20 : State := { pw { hasSel := false, latched := true } with phase := .off }
def v21 : State := { pw {} with seq := { running := true, devReset := some (⟨0x100, 0, 0⟩, true) } }
def v22 : State := { pw {} with phase := .reset }
def v23 : State := { pw {} with phase := .reset, pins := { resetN := true } }
def bt : BootIn := {}
def fl : FlashSt := { boot := 7, keys := some [(1, { enabled := true })], resv := some [(1, 5)], net := some ([3], [(2, 4)], 6), days := some 9, imgB := [(0, 1)], prefB := true }
def v24 : State := { pw {} with phase := .released, flash := fl }
def v25 : BootIn := { ramOk := false, bootSaveOk := false }
def v26 : State := { pw {} with phase := .released, flash := { fl with resv := none } }
def v27 : BootIn := { someWramOk := false }
def v28 : State := { pw {} with phase := .booting, seq := { running := true, boot := 9 } }
def v29 : State := { runs 0x0A01 e0 (pw {}) with seq := { running := true, devReset := some (⟨0x100, 0, 0⟩, false) }, com := { stageOpen := 5, suspect := 2 } }
def v30 : State := { pw {} with seq := { running := false, cutRec := some { op := 1, status := 0, detail := 0, auth := 0, via := 0, pri := 0, seq := 1, accept := {}, done := none } }, flash := fl, mem := { ram := [(4, 5)], bytes := [(4, 5)] } }
def kp : Word := 0
def tv (t : Bool) (s : State) : Word := word (b2n t) ||| kpOf s aFeedSelect 1
def v31 : State := second 0x0A02 (fs 1) 1 aFeedSelect (tv true (pw {})) (pw {})
def v32 : State := second 0x0A02 (fs 1) 1 aFeedSelect (tv true (pw {})) (pw { goodB := false })
def v33 : State := second 0x0A02 (fs 0) 1 aFeedSelect (tv false (pw {})) (pw {})
def v34 : State := (runs 0x0A02 (fs 1) (pw { switching := some true, pathB := true, failover := some true }))
def v35 : State := (runs 0x0A02 (fs 1) { pw {} with regs := { posted := [(2, { addr := aFeedSelect, val := 1, m := 0 })] } })
def v36 : State := (pw { declared := true, brownout := true, goodA := false, ovA := true })

/-- States and operands that meet the hypotheses of FeedSupervision. -/
theorem wit_FeedSupervision :
    ((powered v1 = true) ∧ (v1.pwr.hasSel = true) ∧ (feedUv v1.pwr v1.pwr.sel = true) ∧ (v1.pwr.declared = false) ∧
      (v1.pwr.failover = none) ∧ (v1.pwr.switching = none) ∧ ((feedGoodOf v1.pwr !v1.pwr.sel) = true) ∧
      (true ≠ v1.pwr.sel) ∧ (feedGoodOf v1.pwr true = true)) ∧
    ((powered v2 = true) ∧ (v2.pwr.hasSel = true) ∧ (v2.pwr.failover = some true) ∧ (true ≠ v2.pwr.sel) ∧
      (v2.pwr.switching = none) ∧ (v2.pwr.declared = false)) ∧
    ((powered v3 = true) ∧ (v3.pwr.hasSel = true) ∧ (v3.pwr.declared = true) ∧ (true ≠ v3.pwr.sel) ∧
      (v3.pwr.failover = none) ∧ (v3.pwr.switching = none) ∧ (feedGoodOf v3.pwr true = true) ∧
      (v3.pwr.brownout = true) ∧ ((if false = true then feedOv v3.pwr v3.pwr.sel else feedUv v3.pwr v3.pwr.sel) = true)) ∧
    ((powered v36 = true) ∧ (v36.pwr.hasSel = true) ∧ (v36.pwr.declared = true) ∧ (true ≠ v36.pwr.sel) ∧
      (v36.pwr.failover = none) ∧ (v36.pwr.switching = none) ∧ (feedGoodOf v36.pwr true = true) ∧
      (v36.pwr.brownout = true) ∧
      ((if true = true then feedOv v36.pwr v36.pwr.sel else feedUv v36.pwr v36.pwr.sel) = true)) ∧
    ((powered v36 = true) ∧ (v36.pwr.hasSel = true) ∧ (false = v36.pwr.sel) ∧ (v36.pwr.failover = none) ∧
      (v36.pwr.switching = none) ∧ (v36.pwr.brownout = true) ∧
      ((if true = true then feedOv v36.pwr v36.pwr.sel else feedUv v36.pwr v36.pwr.sel) = true)) ∧
    ((powered v4 = true) ∧ (v4.pwr.hasSel = true) ∧ (v4.pwr.failover = none) ∧ (v4.pwr.declared = false) ∧
      (v4.pwr.switching = none) ∧ ((feedGoodOf v4.pwr !v4.pwr.sel) = false) ∧ (v4.pwr.brownout = false) ∧
      (true ≠ v4.pwr.sel)) :=
  ⟨by decide +kernel,
   by decide +kernel,
   by decide +kernel,
   by decide +kernel,
   by decide +kernel,
   by decide +kernel⟩

/-- States and operands that meet the hypotheses of ManualSwitch. -/
theorem wit_ManualSwitch :
    ((Accepted (2562 : BitVec 16) v6 v7 v8) ∧ (pk1 v6.params 0 = b2n true) ∧ (v8.regs.pairs = []) ∧
      (slowBusy v8 2 = false)) ∧
    ((Accepted (2562 : BitVec 16) v6 v7 v35) ∧ (pk1 v6.params 0 = b2n true) ∧ (v35.regs.pairs = []) ∧
      (slowBusy v35 2 = true)) ∧
    ((SecondWrite (2562 : BitVec 16) (fs 1) (rn2 (2562 : BitVec 16) (fs 1)) 1 aFeedSelect (word (b2n true) ||| kpOf v31 aFeedSelect 1) v31) ∧
      (pk1 (fs 1).params 0 = b2n true) ∧ (slowBusy v31 2 = false) ∧ (true ≠ v31.pwr.sel) ∧
      (feedGoodOf v31.pwr true = true)) ∧
    ((SecondWrite (2562 : BitVec 16) (fs 1) (rn2 (2562 : BitVec 16) (fs 1)) 1 aFeedSelect (word (b2n true) ||| kpOf v32 aFeedSelect 1) v32) ∧
      (pk1 (fs 1).params 0 = b2n true) ∧ (slowBusy v32 2 = false) ∧ (true ≠ v32.pwr.sel) ∧
      (feedGoodOf v32.pwr true = false)) ∧
    ((SecondWrite (2562 : BitVec 16) (fs 0) (rn2 (2562 : BitVec 16) (fs 0)) 1 aFeedSelect (word (b2n false) ||| kpOf v33 aFeedSelect 1) v33) ∧
      (pk1 (fs 0).params 0 = b2n false) ∧ (slowBusy v33 2 = false) ∧ (false = v33.pwr.sel)) ∧
    ((Accepted (2561 : BitVec 16) e0 v12 v13)) ∧
    ((Accepted (2562 : BitVec 16) v6 v7 v14) ∧ (pk1 v6.params 0 = b2n true) ∧ (v14.regs.pairs = []) ∧
      (slowBusy v14 2 = false) ∧ (v14.pwr.switching = some true) ∧ (true ≠ v14.pwr.sel) ∧
      (feedGoodOf v14.pwr true = true)) ∧
    ((v15.pwr.switching = some true) ∧ (true ≠ v15.pwr.sel) ∧ (feedGoodOf v15.pwr true = false)) ∧
    ((Accepted (2562 : BitVec 16) v6 v7 v34) ∧ (pk1 v6.params 0 = b2n true) ∧ (v34.regs.pairs = []) ∧
      (slowBusy v34 2 = false) ∧ (v34.pwr.switching = some true) ∧ (true ≠ v34.pwr.sel) ∧
      (feedGoodOf v34.pwr true = true) ∧ (v34.pwr.failover = some true)) :=
  ⟨by decide +kernel,
   by decide +kernel,
   by (repeat' apply And.intro) <;> first | decide +kernel | rfl,
   by (repeat' apply And.intro) <;> first | decide +kernel | rfl,
   by (repeat' apply And.intro) <;> first | decide +kernel | rfl,
   by decide +kernel,
   by decide +kernel,
   by decide +kernel,
   by decide +kernel⟩

/-- States and operands that meet the hypotheses of PowerAndReset. -/
theorem wit_PowerAndReset :
    ((v16.phase ≠ Phase.off) ∧ (feedPath v16.pwr v16.pwr.sel = false) ∧ (feedOv v16.pwr v16.pwr.sel = true)) ∧
    ((v17.phase ≠ Phase.off) ∧ (feedPath v17.pwr v17.pwr.sel = true ∨ feedOv v17.pwr v17.pwr.sel = false)) ∧
    ((v19.phase = Phase.off) ∧ (v19.pwr.latched = false) ∧ (true = true)) ∧
    ((v20.phase = Phase.off) ∧ (v20.pwr.latched = true)) ∧
    ((v21.phase ≠ Phase.off) ∧ (powered v21 = true) ∧ (v21.seq.devReset = some (v21.sfp, true))) ∧
    ((v22.phase ≠ Phase.off) ∧ (v22.phase = Phase.reset) ∧ (v22.pins.resetN = false)) ∧
    ((v23.phase ≠ Phase.off) ∧ (v23.phase = Phase.reset) ∧ (v23.pins.resetN = true)) :=
  ⟨by decide +kernel,
   by decide +kernel,
   by decide +kernel,
   by decide +kernel,
   by decide +kernel,
   by decide +kernel,
   by decide +kernel⟩

/-- States and operands that meet the hypotheses of StartUp. -/
theorem wit_StartUp :
    ((v24.phase = Phase.released) ∧ (bt.traceOk = true) ∧ (bt.someWramOk = true) ∧ (v24.flash.resv.isSome = true)) ∧
    ((v26.phase = Phase.released) ∧ (v25.traceOk = true) ∧ (v25.someWramOk = true) ∧ (v26.flash.resv = none)) ∧
    ((v26.phase = Phase.released) ∧ (v27.traceOk = true) ∧ (v27.someWramOk = false)) ∧
    ((v28.phase = Phase.booting) ∧ (v28.seq.running = true)) :=
  ⟨by decide +kernel,
   by decide +kernel,
   by decide +kernel,
   by decide +kernel⟩

/-- States and operands that meet the hypotheses of SequencerResets. -/
theorem wit_SequencerResets :
    ((powered v29 = true) ∧ (fwStarted v29 = true) ∧ (v29.com.stageOpen ≠ (0 : BitVec 8)) ∧
      (v29.pair.st ≠ PairState.syncing) ∧ (v29.seq.devReset = some (v29.sfp, false))) ∧
    ((powered v30 = true) ∧ (fwStarted v30 = true) ∧ (v30.pair.st ≠ PairState.syncing) ∧ (v30.seq.running = false) ∧
      (autoStaging v30 = false) ∧ (v30.flash.resv.isSome = true) ∧ (v30.seq.cutRec.isSome = true) ∧ (v30.mem.wram = [])) :=
  ⟨by decide +kernel,
   by decide +kernel⟩


end Power

namespace Device

def c0 : SavedCfg := { bank := [], smi := [], regs := [], ql := 0, auto := true, boot := 1, at_ := ⟨7, 3, 0⟩ }
def e0 : Req := rq []
def dv : State := { atE with pins := { devid := 5, twinPos := true }, flash := { cfg := some c0, saves := 9 }
                             vcp := { auths := [(0, { enabled := true, gen := 4 }), (3, { enabled := true, cls := 1 })], replay := [(3, { last := 5 })], members := [3, 4], route := [(2, 5)], relayPorts := 6 } }
def v1 : Run := (rn 0x0101 e0)
def v2 : State := (runs 0x0101 e0 dv)
def kw (k en cls : Nat) : Req := rq (guarded 0x0102 ([by1 k, by1 en, by1 cls, 0, 0, 7, 0, 0] ++ List.replicate 32 0xAA))
def v3 : Req := (kw 3 1 2)
def v4 : Run := (rn 0x0102 (kw 3 1 2))
def v5 : State := (runs 0x0102 (kw 3 1 2) dv)
def v6 : Req := (kw 0 0 0)
def v7 : Run := (rn 0x0102 (kw 0 0 0))
def v8 : State := (runs 0x0102 (kw 0 0 0) dv)
def ki : Req := rq [62, 2]
def v9 : Run := (rn 0x0103 ki)
def v10 : State := (runs 0x0103 ki dv)
def gm : Req := rq ([5, 1] ++ zeros 509 ++ [0xFF])
def v11 : Run := (rn 0x0104 gm)
def v12 : State := (runs 0x0104 gm dv)
def v13 : Run := (rn 0x0105 e0)
def v14 : State := (runs 0x0105 e0 dv)
def rt : Req := rq [0, 3, 0, 2, 7, 0, 0x0F, 0xFF, 127, 0, 0, 2, 0xFF, 0]
def v15 : Run := (rn 0x0106 rt)
def v16 : State := (runs 0x0106 rt dv)
def rg : Req := rq [0, 2, 0, 3]
def v17 : Run := (rn 0x0107 rg)
def v18 : State := (runs 0x0107 rg dv)
def rp : Req := rq (zeros 15 ++ [9])
def v19 : Run := (rn 0x0108 rp)
def v20 : State := (runs 0x0108 rp dv)
def cs : Req := rq [1]
def v21 : Run := (rn 0x0109 cs)
def v22 : State := (runs 0x0109 cs dv)
def v23 : Run := (rn 0x010A e0)
def v24 : State := (runs 0x010A e0 dv)
def dr (k : Nat) : Req := rq (guarded 0x010B [by1 k, 0, 0, 0])
def v25 : Req := (dr 0)
def v26 : Run := (rn 0x010B (dr 0))
def v27 : State := (runs 0x010B (dr 0) dv)
def v28 : Req := (dr 1)
def v29 : Run := (rn 0x010B (dr 1))
def v30 : State := (runs 0x010B (dr 1) dv)
def pw : Req := rq ([127, 6, 16, 0x17, 255, 0, 0, 0xFF, 0xFF, 0xFF] ++ (List.range 128).map (fun i => by1 i))
def v31 : Run := (rn 0x0601 pw)
def v32 : State := (runs 0x0601 pw atE)
def pa : Req := rq [127, 1, 4, 0]
def v33 : Run := (rn 0x0603 pa)
def v34 : State := (runs 0x0603 pa atE)
def px : Req := rq [127, 3, 7, 15, 7, 0]
def v35 : Run := (rn 0x0604 px)
def v36 : State := (runs 0x0604 px atE)
def tc : Req := rq [63, 1, 0x27, 0xFF]
def v37 : Run := (rn 0x0608 tc)
def v38 : State := (runs 0x0608 tc atE)
def pc : Req := rq [127, 1]
def v39 : Run := (rn 0x0602 pc)
def v40 : State := (runs 0x0602 pc (putStg [(aPortCfg 127, 6), (aPortAdapt 127, 0x03FF0000)] atE))
def ps : Req := rq [5]
def sp : State := { atE with ports := [(5, { rep := 0x123, ql := 4, snap := some (⟨1, 2, 0⟩, List.range 71) })] }
def v41 : Run := (rn 0x0605 ps)
def v42 : State := (runs 0x0605 ps sp)
def sn (k : Nat) : Req := rq (zeros 15 ++ [9] ++ sfpBytes ⟨0x100, k, 0⟩)
def v43 : Req := (sn 2)
def v44 : Run := (rn 0x0606 (sn 2))
def v45 : State := (runs 0x0606 (sn 2) atE)
def v46 : Req := (sn 3)
def v47 : Run := (rn 0x0606 (sn 3))
def v48 : State := (runs 0x0606 (sn 3) { atE with com := { snaps := (List.range 8).map (fun i => (⟨i, 0, 0⟩, 1)) } })
def v49 : State := (runs 0x0606 (sn 3) { atE with com := { snaps := (List.range 7).map (fun i => (⟨i, 0, 0⟩, 1)) } })
def v50 : State := (runs 0x0606 (sn 3) { atE with com := { snaps := [(⟨0x100, 3, 0⟩, 1)] } })
def sr : Req := rq [5, 0]
def v51 : Run := (rn 0x0607 sr)
def v52 : State := (runs 0x0607 sr sp)
def v53 : Run := (rn 0x0609 ps)
def v54 : State := (runs 0x0609 ps (put [(aTpChk 5, 0x80000009)] { atE with chks := [(5, { sync := true })] }))
def v60 : State := second 0x0102 (kw 3 1 2) 0 (aSys + 0x028) 1 dv
def v61 : State := second 0x010B (dr 0) 0 (aSys + 0x018) 1 dv
def v62 : State := (runs 0x010A e0 { dv with flash := {} })

/-- States and operands that meet the hypotheses of DeviceCommands. -/
theorem wit_DeviceCommands :
    ((Accepted (257 : BitVec 16) e0 v1 v2)) ∧
    ((pk1 v3.params 0 ≤ 63) ∧ (pk1 v3.params 2 ≤ 2) ∧ (pkNat v3.params 4 2 ≤ 1023) ∧
      (hasOperator (tput { } v5.vcp.auths (pk1 v3.params 0) (keyNew v5 v3.params)) = true) ∧
      (Accepted (258 : BitVec 16) v3 v4 v5) ∧ (v5.regs.pairs = [])) ∧
    ((pk1 (kw 3 1 2).params 0 ≤ 63) ∧ (pk1 (kw 3 1 2).params 2 ≤ 2) ∧ (pkNat (kw 3 1 2).params 4 2 ≤ 1023) ∧
      (hasOperator (tput { } v60.vcp.auths (pk1 (kw 3 1 2).params 0) (keyNew v60 (kw 3 1 2).params)) = true) ∧
      (SecondWrite (258 : BitVec 16) (kw 3 1 2) (rn2 (258 : BitVec 16) (kw 3 1 2)) 0 (aSys + 40) (1 : Word) v60)) ∧
    ((pk1 v6.params 0 ≤ 63) ∧ (pk1 v6.params 2 ≤ 2) ∧ (pkNat v6.params 4 2 ≤ 1023) ∧
      (Accepted (258 : BitVec 16) v6 v7 v8) ∧
      (hasOperator (tput { } v8.vcp.auths (pk1 v6.params 0) (keyNew v8 v6.params)) = false)) ∧
    ((Accepted (259 : BitVec 16) ki v9 v10) ∧ (1 ≤ pk1 ki.params 1) ∧ (pk1 ki.params 1 ≤ 32) ∧
      (pk1 ki.params 0 + pk1 ki.params 1 ≤ 64)) ∧
    ((Accepted (260 : BitVec 16) gm v11 v12)) ∧
    ((Accepted (261 : BitVec 16) e0 v13 v14)) ∧
    ((Accepted (262 : BitVec 16) rt v15 v16) ∧ (1 ≤ pkNat rt.params 0 2) ∧ (pkNat rt.params 0 2 ≤ 366) ∧
      (((routeItems rt.params).all fun (x : ℕ × ℕ) => decide (x.2 ≤ 127) || x.2 == 255) = true)) ∧
    ((Accepted (263 : BitVec 16) rg v17 v18) ∧ (pkNat rg.params 0 2 ≤ 4095) ∧ (1 ≤ pkNat rg.params 2 2) ∧
      (pkNat rg.params 2 2 ≤ 1024) ∧ (pkNat rg.params 0 2 + pkNat rg.params 2 2 ≤ 4096)) ∧
    ((Accepted (264 : BitVec 16) rp v19 v20) ∧ (pkMask rp.params 0 ≠ (0 : BitVec 128))) ∧
    ((Accepted (265 : BitVec 16) cs v21 v22)) ∧
    ((Accepted (266 : BitVec 16) e0 v23 v24) ∧ (v24.flash.cfg = some c0)) ∧
    ((Accepted (266 : BitVec 16) e0 v23 v62) ∧ (v62.flash.cfg = none)) ∧
    ((Accepted (267 : BitVec 16) v25 v26 v27) ∧ (pk1 v25.params 0 = 0) ∧ (v27.regs.pairs = [])) ∧
    ((Accepted (267 : BitVec 16) v28 v29 v30) ∧ (pk1 v28.params 0 = 1)) ∧
    ((SecondWrite (267 : BitVec 16) (dr 0) (rn2 (267 : BitVec 16) (dr 0)) 0 (aSys + 24) (1 : Word) v61) ∧
      (pk1 (dr 0).params 0 = 0)) :=
  ⟨by decide +kernel,
   by decide +kernel,
   by decide +kernel,
   by decide +kernel,
   by decide +kernel,
   by decide +kernel,
   by decide +kernel,
   by decide +kernel,
   by decide +kernel,
   by decide +kernel,
   by decide +kernel,
   by decide +kernel,
   by decide +kernel,
   by decide +kernel,
   by decide +kernel,
   by decide +kernel⟩

/-- States and operands that meet the hypotheses of PortCommands. -/
theorem wit_PortCommands :
    ((Accepted (1537 : BitVec 16) pw v31 v32) ∧ (frozenAny v32 (2 : BitVec 8) = false) ∧ (mirHeld v32 = false) ∧
      (portArgsOk pw.params = true)) ∧
    ((Accepted (1539 : BitVec 16) pa v33 v34) ∧ (frozenAny v34 (16 : BitVec 8) = false) ∧ (mirHeld v34 = false) ∧
      (pk1 pa.params 0 ≤ 127) ∧ (16 ≤ pkNat pa.params 2 2) ∧ (pkNat pa.params 2 2 ≤ 1024)) ∧
    ((Accepted (1540 : BitVec 16) px v35 v36) ∧ (frozenAny v36 (2 : BitVec 8) = false) ∧ (mirHeld v36 = false) ∧
      (pk1 px.params 0 ≤ 127) ∧ (pk1 px.params 2 ≤ 7) ∧ (pk1 px.params 3 ≤ 15) ∧ (pk1 px.params 4 ≤ 7)) ∧
    ((Accepted (1544 : BitVec 16) tc v37 v38) ∧ (frozenAny v38 (2 : BitVec 8) = false) ∧ (mirHeld v38 = false) ∧
      (pk1 tc.params 0 ≤ 63) ∧ (pkNat tc.params 2 2 ≤ 10239)) ∧
    ((Accepted (1538 : BitVec 16) pc v39 v40) ∧ (pk1 pc.params 0 ≤ 127) ∧ (pk1 pc.params 1 ≤ 1)) ∧
    ((Accepted (1541 : BitVec 16) ps v41 v42) ∧ (pk1 ps.params 0 ≤ 127)) ∧
    ((Accepted (1542 : BitVec 16) v43 v44 v45) ∧ (pkMask v43.params 0 ≠ (0 : BitVec 128)) ∧
      ((sfpOfBytes v43.params 16).bi = 0) ∧ (sfpDist v44.accept (sfpOfBytes v43.params 16) ≤ horizon) ∧
      (sfpDist v44.accept (sfpOfBytes v43.params 16) < (327536 : ℤ))) ∧
    ((Accepted (1542 : BitVec 16) v46 v47 v48) ∧ (pkMask v46.params 0 ≠ (0 : BitVec 128)) ∧
      ((sfpOfBytes v46.params 16).bi = 0) ∧ (sfpDist v47.accept (sfpOfBytes v46.params 16) ≤ horizon) ∧
      ((327536 : ℤ) ≤ sfpDist v47.accept (sfpOfBytes v46.params 16)) ∧
      ((v48.com.snaps.any fun (x : Sfp × BitVec 128) => x.1 == sfpOfBytes v46.params 16) = false) ∧
      (8 ≤ v48.com.snaps.length)) ∧
    ((Accepted (1542 : BitVec 16) v46 v47 v49) ∧ (pkMask v46.params 0 ≠ (0 : BitVec 128)) ∧
      ((sfpOfBytes v46.params 16).bi = 0) ∧ (sfpDist v47.accept (sfpOfBytes v46.params 16) ≤ horizon) ∧
      ((327536 : ℤ) ≤ sfpDist v47.accept (sfpOfBytes v46.params 16)) ∧
      ((v49.com.snaps.any fun (x : Sfp × BitVec 128) => x.1 == sfpOfBytes v46.params 16) = false) ∧
      (v49.com.snaps.length < 8)) ∧
    ((Accepted (1542 : BitVec 16) v46 v47 v50) ∧ (pkMask v46.params 0 ≠ (0 : BitVec 128)) ∧
      ((sfpOfBytes v46.params 16).bi = 0) ∧ (sfpDist v47.accept (sfpOfBytes v46.params 16) ≤ horizon) ∧
      ((327536 : ℤ) ≤ sfpDist v47.accept (sfpOfBytes v46.params 16)) ∧
      ((v50.com.snaps.any fun (x : Sfp × BitVec 128) => x.1 == sfpOfBytes v46.params 16) = true)) ∧
    ((Accepted (1543 : BitVec 16) sr v51 v52) ∧ (pk1 sr.params 0 ≤ 127) ∧ (pk1 sr.params 1 = 0)) ∧
    ((Accepted (1545 : BitVec 16) ps v53 v54) ∧ (pk1 ps.params 0 ≤ 63)) :=
  ⟨by decide +kernel,
   by decide +kernel,
   by decide +kernel,
   by decide +kernel,
   by decide +kernel,
   by decide +kernel,
   by decide +kernel,
   by decide +kernel,
   by decide +kernel,
   by decide +kernel,
   by decide +kernel,
   by decide +kernel⟩


end Device

namespace Commands

def sg : SageSt := { ctr := [(0x10005, 7), (0x8 * 65536 + 6, 5)], pctr := [(3, 0xFFFF_FFFF)], ring := [(0, { cls := 4, sub := 1 }), (1, { cls := 5 })], traceNext := 2 }
def ob : State := { atE with sage := sg, vcp := { latlog := [latOf (rn 0x101 (rq [])) 0 0 (some ⟨0x100, 0, 9000⟩), latOf (rn 0x102 (rq [])) 1 0 none], auths := [(3, { enabled := true, cls := 1 })] }
                             ports := [(5, { bwLast := some (16, ⟨0x90, 0, 0⟩, 1000, 2000) })] }
def cr (b f n : Nat) : Req := rq (beBytes 2 b ++ beBytes 2 f ++ beBytes 2 n)
def v1 : Req := (cr 1 0 31)
def v2 : Run := (rn 0x0801 (cr 1 0 31))
def v3 : State := (runs 0x0801 (cr 1 0 31) ob)
def pw (n f : Nat) : Req := rq [by1 n, by1 f, 0, 0, 1, 5, 0, 0x31]
def v4 : Req := (pw 63 1)
def v5 : Run := (rn 0x0802 (pw 63 1))
def v6 : State := (runs 0x0802 (pw 63 1) ob)
def e0 : Req := rq []
def v10 : Run := (rn 0x0803 e0)
def v11 : State := (runs 0x0803 e0 ob)
def ll : Req := rq [0, 0, 0, 32]
def v12 : Run := (rn 0x0804 ll)
def v13 : State := (runs 0x0804 ll ob)
def tr : Req := rq (beBytes 8 0 ++ [0, 40])
def v14 : Run := (rn 0x0805 tr)
def v15 : State := (runs 0x0805 tr ob)
def bw : Req := rq [127, 0, 4, 0]
def v16 : Run := (rn 0x0806 bw)
def v17 : State := (runs 0x0806 bw ob)
def br (p : Nat) : Req := rq [by1 p]
def v18 : Req := (br 5)
def v19 : Run := (rn 0x0807 (br 5))
def v20 : State := (runs 0x0807 (br 5) ob)
def v21 : Req := (br 127)
def v22 : Run := (rn 0x0807 (br 127))
def v23 : State := (runs 0x0807 (br 127) ob)
def tc : Req := rq [0, 0, 0x03, 0xFF, 3, 0, 1, 2, 3, 4, 5, 6, 7, 8]
def v24 : Run := (rn 0x0808 tc)
def v25 : State := (runs 0x0808 tc ob)
def ec : Req := rq [4, 3, 0x03, 0xFF, 1, 2, 3, 4, 5, 6, 0x12, 0x34, 1, 0]
def v26 : Run := (rn 0x0809 ec)
def v27 : State := (runs 0x0809 ec ob)
def oc (k : Nat) : Req := rq [1, by1 k]
def v28 : Req := (oc 0)
def v29 : Run := (rn 0x080A (oc 0))
def v30 : State := (runs 0x080A (oc 0) ob)
def v31 : Req := (oc 1)
def v32 : Run := (rn 0x080A (oc 1))
def v33 : State := (runs 0x080A (oc 1) ob)
def v34 : Req := (oc 2)
def v35 : Run := (rn 0x080A (oc 2))
def v36 : State := (runs 0x080A (oc 2) ob)
def v37 : Req := (oc 3)
def v38 : Run := (rn 0x080A (oc 3))
def v39 : State := (runs 0x080A (oc 3) ob)
def mb : State := { atE with mem := { bytes := [(0, 9), (5, 7), (0x3FFFF, 1)] }, sage := sg }
def f0 : SelfTestIn := { corrected := 3, uncorrectable := 0, sensorsOk := true, pllsOk := false }
def mr (a n r : Nat) (l : Bytes := [0]) : Req := rq (beBytes 4 a ++ beBytes 2 n ++ [by1 r] ++ l)
def v40 : Req := (mr 0x18000000 2 0)
def v41 : Run := (rn 0x0901 (mr 0x18000000 2 0))
def v42 : State := (runs 0x0901 (mr 0x18000000 2 0) mb)
def v43 : Req := (mr 0x18000006 1 1)
def v44 : Run := (rn 0x0901 (mr 0x18000006 1 1))
def v45 : State := (runs 0x0901 (mr 0x18000006 1 1) mb)
def mw (a n r m : Nat) : Req := mr a n r ([by1 m] ++ (List.range (4 * n)).map (fun i => by1 (i + 1)))
def v49 : Req := (mw 0x18000004 2 0 0)
def v50 : Run := (rn 0x0902 (mw 0x18000004 2 0 0))
def v51 : State := (runs 0x0902 (mw 0x18000004 2 0 0) mb)
def v52 : Req := (mw 0x18000006 1 1 3)
def v53 : Run := (rn 0x0902 (mw 0x18000006 1 1 3))
def v54 : State := (runs 0x0902 (mw 0x18000006 1 1 3) mb)
def mz : State := { mb with mem := { mb.mem with scratch := [(0, .ret), (1, .off)] } }
def v55 : State := (runs 0x0901 (mr 0x18000000 2 0) mz)
def mp (k b d : Nat) : Req := rq [by1 k, by1 b, by1 d, 0]
def v59 : Req := (mp 2 79 1)
def v60 : Run := (rn 0x0903 (mp 2 79 1))
def v61 : State := (runs 0x0903 (mp 2 79 1) mb)
def v62 : Req := (mp 2 79 0)
def v63 : Run := (rn 0x0903 (mp 2 79 0))
def v64 : State := (runs 0x0903 (mp 2 79 0) mb)
def v65 : Req := (mp 1 7 2)
def v66 : Run := (rn 0x0903 (mp 1 7 2))
def v67 : State := (runs 0x0903 (mp 1 7 2) (put [(aSys + 0x05C, 0x80)] mb))
def v68 : Run := (rn 0x0904 e0)
def v69 : State := (runs 0x0904 e0 mz)
def v70 : Run := (rn 0x0920 e0)
def v71 : State := (runs 0x0920 e0 mb)
def fw : State := { atE with flash := { dl := [(300, 1)], dlHigh := 301, fwWrites := 4 } }
def v72 : Run := (rn 0x0910 e0)
def v73 : State := (runs 0x0910 e0 fw)
def fl (o n : Nat) : Req := rq (beBytes 4 o ++ beBytes 2 n ++ [0, 0] ++ (List.range n).map (fun i => by1 (i + 3)))
def v74 : Req := (fl 512 300)
def v75 : Run := (rn 0x0911 (fl 512 300))
def v76 : State := (runs 0x0911 (fl 512 300) fw)
def v77 : Req := (fl 0 257)
def v78 : Run := (rn 0x0911 (fl 0 257))
def v79 : State := (runs 0x0911 (fl 0 257) fw)
def fu (a k : Nat) : Req := rq (guarded 0x0912 [by1 a, by1 k, 0, 0])
def v80 : Req := (fu 0 0)
def v81 : Run := (rn 0x0912 (fu 0 0))
def v82 : State := (runs 0x0912 (fu 0 0) fw)
def v83 : Req := (fu 1 0)
def v84 : Run := (rn 0x0912 (fu 1 0))
def v85 : State := (runs 0x0912 (fu 1 0) atE)
def we : Nat := aSys + 0x020
/-- A firmware command in one of its phases. -/
def ph (op : BitVec 16) (r : Req) (k : Nat) : Run := { rn op r with work := k }
def atAddr (op : BitVec 16) (r : Req) (k : Nat) : State := { fw with vcp := { run := some (ph op r k) } }
def v86 : Req := (fu 1 1)
def v90 : State := (atAddr 0x0912 (fu 1 1) 3)
def v92 : State := (atAddr 0x0912 (fu 1 1) 4)
def v94 : State := (atAddr 0x0912 (fu 1 0) 4)
def v95 : State := (atAddr 0x0912 (fu 1 1) 5)
def v96 : State := (atAddr 0x0912 (fu 1 1) 6)
def v97 : State := (atAddr 0x0912 (fu 1 1) 7)
def v98 : State := (atAddr 0x0912 (fu 0 0) 20)
def v87 : State := (atAddr 0x0911 (fl 512 300) 3)
def v140 : State := second 0x0911 (fl 512 300) 0 we 1 fw
def v141 : State := second 0x0912 (fu 0 0) 0 we 1 fw
def v142 : State := second 0x0912 (fu 1 0) 0 we 1 fw
/-- An uncorrectable scratchpad word. -/
def v143 : State := (runs 0x0901 (mr 0x18000000 1 0) { mb with mem := { mb.mem with ecc := [(2 ^ 32, 2)] } })
def rr (a n : Nat) : Req := rq (beBytes 4 a ++ beBytes 2 n)
def v99 : Req := (rr (aSys + 0xC0) 3)
def v100 : Run := (rn 0x0201 (rr (aSys + 0xC0) 3))
def v101 : State := (runs 0x0201 (rr (aSys + 0xC0) 3) atE)
def r6 : Req := rq (beBytes 4 (aSys + 0xA0))
def v105 : Run := (rn 0x0202 r6)
def v106 : State := (runs 0x0202 r6 atE)
def rw (l : List (Nat × Nat)) : Req := rq (beBytes 2 l.length ++ l.flatMap (fun x => beBytes 4 x.1 ++ beBytes 4 x.2))
def v107 : Req := (rw [(aPortCfg 5, 0x83)])
def v108 : Run := (rn 0x0203 (rw [(aPortCfg 5, 0x83)]))
def v109 : State := (runs 0x0203 (rw [(aPortCfg 5, 0x83)]) atE)
def bz : State := { atE with regs := { posted := [(0, { addr := aThy, val := 0, m := 3 }), (1, { addr := aLane 3, val := 0, m := 3 })] } }
def v110 : Req := (rw [(aLane 5, 3)])
def v111 : Run := (rn 0x0203 (rw [(aLane 5, 3)]))
def v112 : State := (runs 0x0203 (rw [(aLane 5, 3)]) bz)
def v113 : Req := (rw [(aSys + 4, 3)])
def v114 : Run := (rn 0x0203 (rw [(aSys + 4, 3)]))
def v115 : State := (runs 0x0203 (rw [(aSys + 4, 3)]) bz)
def ww (us : Nat) (l : List (Nat × Nat)) : Req := rq (beBytes 2 l.length ++ beBytes 2 us ++ l.flatMap (fun x => beBytes 4 x.1 ++ beBytes 4 x.2))
def v119 : Req := (ww 100 [(aLane 5, 3)])
def v120 : Run := (rn 0x0204 (ww 100 [(aLane 5, 3)]))
def v121 : State := (runs 0x0204 (ww 100 [(aLane 5, 3)]) atE)
def v122 : State := (runs 0x0204 (ww 100 [(aLane 5, 3)]) bz)
def w2 (p : Sfp) : Run := { rn 0x0204 (ww 100 [(aLane 5, 3)]) with work := 2, since := p }
def v123 : Run := (w2 ⟨0xFF, 0, 0⟩)
def v124 : State := { bz with vcp := { run := some (w2 ⟨0xFF, 0, 0⟩) } }
def v125 : State := { atE with vcp := { run := some (w2 ⟨0xFF, 0, 0⟩) } }
def gw (o v : Nat) : Req := rq (guarded 0x0205 (beBytes 4 (aSys + o) ++ beBytes 4 v))
def v126 : Req := (gw 0x30 1)
def v127 : Run := (rn 0x0205 (gw 0x30 1))
def v128 : State := (runs 0x0205 (gw 0x30 1) atE)
def v129 : Req := (gw 0x28 1)
def v130 : Run := (rn 0x0205 (gw 0x28 1))
def v131 : State := (runs 0x0205 (gw 0x28 1) atE)
def v144 : State := second 0x0205 (gw 0x30 1) 0 (aSys + 0x30) 1 atE

/-- States and operands that meet the hypotheses of ObservationCommands. -/
theorem wit_ObservationCommands :
    ((Accepted (2049 : BitVec 16) v1 v2 v3) ∧ (1 ≤ pkNat v1.params 4 2) ∧ (pkNat v1.params 4 2 ≤ 160) ∧
      (pkNat v1.params 2 2 + pkNat v1.params 4 2 ≤ catSize (pkNat v1.params 0 2))) ∧
    ((Accepted (2050 : BitVec 16) v4 v5 v6) ∧ (frozenAny v6 (32 : BitVec 8) = false) ∧ (mirHeld v6 = false) ∧
      (pk1 v4.params 0 ≤ 63) ∧ (pk1 v4.params 0 = 63 → bit (List.getD v4.params 1 (0 : Byte)) 1 = false)) ∧
    ((Accepted (2051 : BitVec 16) e0 v10 v11)) ∧
    ((Accepted (2052 : BitVec 16) ll v12 v13) ∧ (pkNat ll.params 0 2 ≤ 1023) ∧ (1 ≤ pkNat ll.params 2 2) ∧
      (pkNat ll.params 2 2 ≤ 32)) ∧
    ((Accepted (2053 : BitVec 16) tr v14 v15) ∧ (v15.mem.ecc = []) ∧ (1 ≤ pkNat tr.params 8 2) ∧
      (pkNat tr.params 8 2 ≤ 40)) ∧
    ((Accepted (2054 : BitVec 16) bw v16 v17) ∧ (frozenAny v17 (32 : BitVec 8) = false) ∧ (mirHeld v17 = false) ∧
      (pk1 bw.params 0 ≤ 127) ∧ (1 ≤ pkNat bw.params 2 2) ∧ (pkNat bw.params 2 2 ≤ 1024)) ∧
    ((Accepted (2055 : BitVec 16) v18 v19 v20) ∧ (pk1 v18.params 0 ≤ 127) ∧
      ((portOf v20 (pk1 v18.params 0)).bwLast = some ((portOf v20 (pk1 v18.params 0)).bwLast.getD (0, { }, 0, 0)))) ∧
    ((Accepted (2055 : BitVec 16) v21 v22 v23) ∧ (pk1 v21.params 0 ≤ 127) ∧
      ((portOf v23 (pk1 v21.params 0)).bwLast = none)) ∧
    ((Accepted (2056 : BitVec 16) tc v24 v25) ∧ (frozenAny v25 (32 : BitVec 8) = false) ∧ (mirHeld v25 = false)) ∧
    ((Accepted (2057 : BitVec 16) ec v26 v27) ∧ (frozenAny v27 (32 : BitVec 8) = false) ∧ (mirHeld v27 = false) ∧
      (pk1 ec.params 0 ≤ 4) ∧ (pk1 ec.params 1 ≤ 63) ∧ ((authOf v27 (pk1 ec.params 1)).enabled = true) ∧
      ((authOf v27 (pk1 ec.params 1)).cls ≤ 1)) ∧
    ((Accepted (2058 : BitVec 16) v28 v29 v30) ∧ (pk1 v28.params 0 ≤ 1) ∧ (pk1 v28.params 1 ≤ 3) ∧
      (pk1 v28.params 1 = 0)) ∧
    ((Accepted (2058 : BitVec 16) v31 v32 v33) ∧ (pk1 v31.params 0 ≤ 1) ∧ (pk1 v31.params 1 ≤ 3) ∧
      (pk1 v31.params 1 = 1)) ∧
    ((Accepted (2058 : BitVec 16) v34 v35 v36) ∧ (pk1 v34.params 0 ≤ 1) ∧ (pk1 v34.params 1 ≤ 3) ∧
      (pk1 v34.params 1 = 2)) ∧
    ((Accepted (2058 : BitVec 16) v37 v38 v39) ∧ (pk1 v37.params 0 ≤ 1) ∧ (pk1 v37.params 1 ≤ 3) ∧
      (pk1 v37.params 1 = 3)) :=
  ⟨by decide +kernel,
   by decide +kernel,
   by decide +kernel,
   by decide +kernel,
   by decide +kernel,
   by decide +kernel,
   by decide +kernel,
   by decide +kernel,
   by decide +kernel,
   by decide +kernel,
   by decide +kernel,
   by decide +kernel,
   by decide +kernel,
   by decide +kernel⟩

/-- States and operands that meet the hypotheses of MemoryCommands. -/
theorem wit_MemoryCommands :
    ((v42.mem.ecc = []) ∧ (Accepted (2305 : BitVec 16) v40 v41 v42) ∧ (402653184 ≤ pkNat v40.params 0 4) ∧
      (pkNat v40.params 0 4 / 4 * 4 + 4 * pkNat v40.params 4 2 ≤ 402915328) ∧ (1 ≤ pkNat v40.params 4 2) ∧
      (pkNat v40.params 4 2 ≤ 256) ∧ (∀ (b : Fin 8), bankSt v42 1 ↑b = BankSt.on) ∧
      (bit (List.getD v40.params 6 (0 : Byte)) 0 = false) ∧ (pkNat v40.params 0 4 % 4 = 0)) ∧
    ((v45.mem.ecc = []) ∧ (Accepted (2305 : BitVec 16) v43 v44 v45) ∧ (402653184 ≤ pkNat v43.params 0 4) ∧
      (pkNat v43.params 0 4 / 4 * 4 + 4 * pkNat v43.params 4 2 ≤ 402915328) ∧ (1 ≤ pkNat v43.params 4 2) ∧
      (pkNat v43.params 4 2 ≤ 256) ∧ (∀ (b : Fin 8), bankSt v45 1 ↑b = BankSt.on) ∧
      (bit (List.getD v43.params 6 (0 : Byte)) 0 = true) ∧ (pkNat v43.params 4 2 = 1)) ∧
    ((v51.mem.ecc = []) ∧ (Accepted (2306 : BitVec 16) v49 v50 v51) ∧ (402653184 ≤ pkNat v49.params 0 4) ∧
      (pkNat v49.params 0 4 / 4 * 4 + 4 * pkNat v49.params 4 2 ≤ 402915328) ∧ (1 ≤ pkNat v49.params 4 2) ∧
      (pkNat v49.params 4 2 ≤ 256) ∧ (∀ (b : Fin 8), bankSt v51 1 ↑b = BankSt.on) ∧
      (bit (List.getD v49.params 6 (0 : Byte)) 0 = false) ∧ (pkNat v49.params 0 4 % 4 = 0) ∧ (pk1 v49.params 7 = 0) ∧
      (12 < pkNat v49.params 0 4 - 402653184 ∨ pkNat v49.params 0 4 - 402653184 + 4 * pkNat v49.params 4 2 ≤ 12)) ∧
    ((v54.mem.ecc = []) ∧ (Accepted (2306 : BitVec 16) v52 v53 v54) ∧ (402653184 ≤ pkNat v52.params 0 4) ∧
      (pkNat v52.params 0 4 / 4 * 4 + 4 * pkNat v52.params 4 2 ≤ 402915328) ∧ (1 ≤ pkNat v52.params 4 2) ∧
      (pkNat v52.params 4 2 ≤ 256) ∧ (∀ (b : Fin 8), bankSt v54 1 ↑b = BankSt.on) ∧
      (bit (List.getD v52.params 6 (0 : Byte)) 0 = true) ∧ (pkNat v52.params 4 2 = 1) ∧ (1 ≤ pk1 v52.params 7) ∧
      (pk1 v52.params 7 ≤ 4) ∧ ((8 / 4 : ℕ) ≠ (pkNat v52.params 0 4 - 402653184) / 4)) ∧
    ((v55.mem.ecc = []) ∧ (Accepted (2305 : BitVec 16) v40 v41 v55) ∧
      (memAccess v55 v40.params = some ((memAccess v55 v40.params).getD (0, 0, 0))) ∧
      (asleepBank v55 ((memAccess v55 v40.params).getD (0, 0, 0)).1 ((memAccess v55 v40.params).getD (0, 0, 0)).2.1 ((memAccess v55 v40.params).getD (0, 0, 0)).2.2 = some ((asleepBank v55 ((memAccess v55 v40.params).getD (0, 0, 0)).1 ((memAccess v55 v40.params).getD (0, 0, 0)).2.1 ((memAccess v55 v40.params).getD (0, 0, 0)).2.2).getD BankSt.on))) ∧
    ((v61.mem.ecc = []) ∧ (Accepted (2307 : BitVec 16) v59 v60 v61) ∧ (pk1 v59.params 0 ≤ 2) ∧
      (pk1 v59.params 1 < if pk1 v59.params 0 = 0 then 16 else if pk1 v59.params 0 = 1 then 8 else 80) ∧
      (pk1 v59.params 2 ≤ 2) ∧ (bankInUse v61 (pk1 v59.params 0) (pk1 v59.params 1) = false) ∧
      (bankSt v61 (pk1 v59.params 0) (pk1 v59.params 1) = BankSt.on) ∧ (pk1 v59.params 2 ≠ 0)) ∧
    ((v64.mem.ecc = []) ∧ (Accepted (2307 : BitVec 16) v62 v63 v64) ∧ (pk1 v62.params 0 ≤ 2) ∧
      (pk1 v62.params 1 < if pk1 v62.params 0 = 0 then 16 else if pk1 v62.params 0 = 1 then 8 else 80) ∧
      (pk1 v62.params 2 ≤ 2) ∧ (bankInUse v64 (pk1 v62.params 0) (pk1 v62.params 1) = false) ∧
      (bankSt v64 (pk1 v62.params 0) (pk1 v62.params 1) = BankSt.on) ∧ (pk1 v62.params 2 = 0)) ∧
    ((v67.mem.ecc = []) ∧ (Accepted (2307 : BitVec 16) v65 v66 v67) ∧ (pk1 v65.params 0 ≤ 2) ∧
      (pk1 v65.params 1 < if pk1 v65.params 0 = 0 then 16 else if pk1 v65.params 0 = 1 then 8 else 80) ∧
      (pk1 v65.params 2 ≤ 2) ∧ (bankInUse v67 (pk1 v65.params 0) (pk1 v65.params 1) = true)) ∧
    ((v69.mem.ecc = []) ∧ (Accepted (2308 : BitVec 16) e0 v68 v69)) ∧
    ((v71.mem.ecc = []) ∧ (Accepted (2336 : BitVec 16) e0 v70 v71) ∧ (f0.uncorrectable = 0)) ∧
    ((Accepted (2305 : BitVec 16) (mr 402653184 1 0) (rn (2305 : BitVec 16) (mr 402653184 1 0)) v143) ∧
      (memAccess v143 (mr 402653184 1 0).params = some (1, 402653184, 1)) ∧ (asleepBank v143 1 402653184 1 = none) ∧
      (memDouble v143 1 (402653184 - 402653184) = true)) ∧
    ((v73.regs.pairs = []) ∧ (Accepted (2320 : BitVec 16) e0 v72 v73)) ∧
    ((v76.regs.pairs = []) ∧ (Accepted (2321 : BitVec 16) v74 v75 v76) ∧ (pkNat v74.params 0 4 % 256 = 0) ∧
      (1 ≤ pkNat v74.params 4 2) ∧ (pkNat v74.params 4 2 ≤ 1024) ∧
      (pkNat v74.params 0 4 + pkNat v74.params 4 2 ≤ 1048576) ∧
      (notBlank v76 (pkNat v74.params 0 4) (pkNat v74.params 4 2) = false)) ∧
    ((v79.regs.pairs = []) ∧ (Accepted (2321 : BitVec 16) v77 v78 v79) ∧ (pkNat v77.params 0 4 % 256 = 0) ∧
      (1 ≤ pkNat v77.params 4 2) ∧ (pkNat v77.params 4 2 ≤ 1024) ∧
      (pkNat v77.params 0 4 + pkNat v77.params 4 2 ≤ 1048576) ∧
      (notBlank v79 (pkNat v77.params 0 4) (pkNat v77.params 4 2) = true)) ∧
    ((v82.regs.pairs = []) ∧ (Accepted (2322 : BitVec 16) v80 v81 v82) ∧ (pk1 v80.params 0 = 0)) ∧
    ((v85.regs.pairs = []) ∧ (Accepted (2322 : BitVec 16) v83 v84 v85) ∧ (pk1 v83.params 0 = 1) ∧ (v85.flash.dl = [])) ∧
    ((v87.regs.pairs = []) ∧
      (powered v87 = true ∧ v87.seq.running = true ∧ v87.vcp.run = some (ph (2321 : BitVec 16) (fl 512 300) 3) ∧ (ph (2321 : BitVec 16) (fl 512 300) 3).req = fl 512 300 ∧ (ph (2321 : BitVec 16) (fl 512 300) 3).op = (2321 : BitVec 16) ∧ (ph (2321 : BitVec 16) (fl 512 300) 3).reply = none ∧ (ph (2321 : BitVec 16) (fl 512 300) 3).work = 3) ∧
      (8 + pkNat (fl 512 300).params 4 2 ≤ List.length (fl 512 300).params) ∧
      (300 < pkNat (fl 512 300).params 0 4 ∨ pkNat (fl 512 300).params 0 4 + pkNat (fl 512 300).params 4 2 ≤ 300)) ∧
    ((v90.regs.pairs = []) ∧
      (powered v90 = true ∧ v90.seq.running = true ∧ v90.vcp.run = some (ph (2322 : BitVec 16) (fu 1 1) 3) ∧ (ph (2322 : BitVec 16) (fu 1 1) 3).req = v86 ∧ (ph (2322 : BitVec 16) (fu 1 1) 3).op = (2322 : BitVec 16) ∧ (ph (2322 : BitVec 16) (fu 1 1) 3).reply = none ∧ (ph (2322 : BitVec 16) (fu 1 1) 3).work = 3)) ∧
    ((v92.regs.pairs = []) ∧
      (powered v92 = true ∧ v92.seq.running = true ∧ v92.vcp.run = some (ph (2322 : BitVec 16) (fu 1 1) 4) ∧ (ph (2322 : BitVec 16) (fu 1 1) 4).req = v86 ∧ (ph (2322 : BitVec 16) (fu 1 1) 4).op = (2322 : BitVec 16) ∧ (ph (2322 : BitVec 16) (fu 1 1) 4).reply = none ∧ (ph (2322 : BitVec 16) (fu 1 1) 4).work = 4) ∧
      (v92.seq.rescue = false) ∧ (bit (List.getD v86.params 1 (0 : Byte)) 0 = true)) ∧
    ((v94.regs.pairs = []) ∧
      (powered v94 = true ∧ v94.seq.running = true ∧ v94.vcp.run = some (ph (2322 : BitVec 16) (fu 1 0) 4) ∧ (ph (2322 : BitVec 16) (fu 1 0) 4).req = fu 1 0 ∧ (ph (2322 : BitVec 16) (fu 1 0) 4).op = (2322 : BitVec 16) ∧ (ph (2322 : BitVec 16) (fu 1 0) 4).reply = none ∧ (ph (2322 : BitVec 16) (fu 1 0) 4).work = 4) ∧
      (v94.seq.rescue = false) ∧ (bit (List.getD (fu 1 0).params 1 (0 : Byte)) 0 = false)) ∧
    ((v95.regs.pairs = []) ∧
      (powered v95 = true ∧ v95.seq.running = true ∧ v95.vcp.run = some (ph (2322 : BitVec 16) (fu 1 1) 5) ∧ (ph (2322 : BitVec 16) (fu 1 1) 5).req = v86 ∧ (ph (2322 : BitVec 16) (fu 1 1) 5).op = (2322 : BitVec 16) ∧ (ph (2322 : BitVec 16) (fu 1 1) 5).reply = none ∧ (ph (2322 : BitVec 16) (fu 1 1) 5).work = 5)) ∧
    ((v96.regs.pairs = []) ∧
      (powered v96 = true ∧ v96.seq.running = true ∧ v96.vcp.run = some (ph (2322 : BitVec 16) (fu 1 1) 6) ∧ (ph (2322 : BitVec 16) (fu 1 1) 6).req = v86 ∧ (ph (2322 : BitVec 16) (fu 1 1) 6).op = (2322 : BitVec 16) ∧ (ph (2322 : BitVec 16) (fu 1 1) 6).reply = none ∧ (ph (2322 : BitVec 16) (fu 1 1) 6).work = 6)) ∧
    ((v97.regs.pairs = []) ∧
      (powered v97 = true ∧ v97.seq.running = true ∧ v97.vcp.run = some (ph (2322 : BitVec 16) (fu 1 1) 7) ∧ (ph (2322 : BitVec 16) (fu 1 1) 7).req = v86 ∧ (ph (2322 : BitVec 16) (fu 1 1) 7).op = (2322 : BitVec 16) ∧ (ph (2322 : BitVec 16) (fu 1 1) 7).reply = none ∧ (ph (2322 : BitVec 16) (fu 1 1) 7).work = 7)) ∧
    ((v98.regs.pairs = []) ∧
      (powered v98 = true ∧ v98.seq.running = true ∧ v98.vcp.run = some (ph (2322 : BitVec 16) (fu 0 0) 20) ∧ (ph (2322 : BitVec 16) (fu 0 0) 20).req = fu 0 0 ∧ (ph (2322 : BitVec 16) (fu 0 0) 20).op = (2322 : BitVec 16) ∧ (ph (2322 : BitVec 16) (fu 0 0) 20).reply = none ∧ (ph (2322 : BitVec 16) (fu 0 0) 20).work = 20)) ∧
    ((SecondWrite (2321 : BitVec 16) (fl 512 300) (rn2 (2321 : BitVec 16) (fl 512 300)) 0 (aSys + 32) (1 : Word) v140) ∧
      (pkNat (fl 512 300).params 0 4 % 256 = 0) ∧ (1 ≤ pkNat (fl 512 300).params 4 2) ∧
      (pkNat (fl 512 300).params 4 2 ≤ 1024) ∧
      (pkNat (fl 512 300).params 0 4 + pkNat (fl 512 300).params 4 2 ≤ 1048576) ∧
      (notBlank v140 (pkNat (fl 512 300).params 0 4) (pkNat (fl 512 300).params 4 2) = false) ∧
      (300 < pkNat (fl 512 300).params 0 4 ∨ pkNat (fl 512 300).params 0 4 + pkNat (fl 512 300).params 4 2 ≤ 300)) ∧
    ((SecondWrite (2322 : BitVec 16) (fu 0 0) (rn2 (2322 : BitVec 16) (fu 0 0)) 0 (aSys + 32) (1 : Word) v141) ∧
      (pk1 (fu 0 0).params 0 = 0)) ∧
    ((SecondWrite (2322 : BitVec 16) (fu 1 0) (rn2 (2322 : BitVec 16) (fu 1 0)) 0 (aSys + 32) (1 : Word) v142) ∧
      (pk1 (fu 1 0).params 0 = 1)) :=
  ⟨by decide +kernel,
   by decide +kernel,
   by decide +kernel,
   by decide +kernel,
   by decide +kernel,
   by decide +kernel,
   by decide +kernel,
   by decide +kernel,
   by decide +kernel,
   by decide +kernel,
   by decide +kernel,
   by decide +kernel,
   by decide +kernel,
   by decide +kernel,
   by decide +kernel,
   by decide +kernel,
   by decide +kernel,
   by decide +kernel,
   by decide +kernel,
   by decide +kernel,
   by decide +kernel,
   by decide +kernel,
   by decide +kernel,
   by decide +kernel,
   by decide +kernel,
   by decide +kernel,
   by decide +kernel⟩

/-- States and operands that meet the hypotheses of RegisterCommands. -/
theorem wit_RegisterCommands :
    ((Accepted (513 : BitVec 16) v99 v100 v101) ∧ (1 ≤ pkNat v99.params 4 2) ∧ (pkNat v99.params 4 2 ≤ 64) ∧
      (regAddrOk (pkNat v99.params 0 4) = true) ∧
      (regAddrOk (pkNat v99.params 0 4 + 4 * (pkNat v99.params 4 2 - 1)) = true) ∧
      (pkNat v99.params 0 4 + 4 * (pkNat v99.params 4 2 - 1) < aCapPos ∨ aCapPos < pkNat v99.params 0 4)) ∧
    ((Accepted (514 : BitVec 16) r6 v105 v106) ∧ (regAddrOk (pkNat r6.params 0 4) = true) ∧
      (regAddrOk (pkNat r6.params 0 4 + 4) = true) ∧ (pkNat r6.params 0 4 ≠ aCapPos) ∧
      (pkNat r6.params 0 4 + 4 ≠ aCapPos)) ∧
    ((Accepted (515 : BitVec 16) v107 v108 v109) ∧ (MatFree v109) ∧ (mirHeld v109 = false) ∧
      (pkNat v107.params 0 2 = 1) ∧ (domOf (pkNat v107.params 2 4) = some ((domOf (pkNat v107.params 2 4)).getD 0)) ∧
      (regAddrOk (pkNat v107.params 2 4) = true) ∧ (isWideHi (pkNat v107.params 2 4) = false) ∧
      (isWideLo (pkNat v107.params 2 4) = false) ∧ (frozenNow v109 ((domOf (pkNat v107.params 2 4)).getD 0) = false) ∧
      (inSlow (pkNat v107.params 2 4) = false) ∧ (guardBlock (pkNat v107.params 2 4) = none) ∧ (mirOn v109 = false)) ∧
    ((Accepted (515 : BitVec 16) v110 v111 v112) ∧ (MatFree v112) ∧ (mirHeld v112 = false) ∧
      (pkNat v110.params 0 2 = 1) ∧ (regCheck v112 [pkNat v110.params 2 4] = none) ∧
      (itemBusy v112 (pkNat v110.params 2 4) = true) ∧ (guardBlock (pkNat v110.params 2 4) = none) ∧
      (kindAct (pkNat v110.params 2 4) ≠ RegKind.none)) ∧
    ((Accepted (515 : BitVec 16) v113 v114 v115) ∧ (1 ≤ pkNat v113.params 0 2) ∧ (pkNat v113.params 0 2 ≤ 32) ∧
      (regCheck v115 (List.map (fun (k : ℕ) => pkNat v113.params (2 + 8 * k) 4) (List.range (pkNat v113.params 0 2))) = some ((regCheck v115 (List.map (fun (k : ℕ) => pkNat v113.params (2 + 8 * k) 4) (List.range (pkNat v113.params 0 2)))).getD ((0 : Byte), (0 : Byte))))) ∧
    ((Accepted (516 : BitVec 16) v119 v120 v121) ∧ (MatFree v121) ∧ (pkNat v119.params 0 2 = 1) ∧
      (1 ≤ pkNat v119.params 2 2) ∧ (pkNat v119.params 2 2 ≤ 50000) ∧
      (domOf (pkNat v119.params 4 4) = some ((domOf (pkNat v119.params 4 4)).getD 0)) ∧
      (regAddrOk (pkNat v119.params 4 4) = true) ∧ (frozenNow v121 ((domOf (pkNat v119.params 4 4)).getD 0) = false) ∧
      (inSlow (pkNat v119.params 4 4) = true) ∧
      (slowBlockOf (pkNat v119.params 4 4) = some ((slowBlockOf (pkNat v119.params 4 4)).getD 0)) ∧
      (guardBlock (pkNat v119.params 4 4) = none) ∧
      (slowBusy v121 ((slowBlockOf (pkNat v119.params 4 4)).getD 0) = false)) ∧
    ((Accepted (516 : BitVec 16) v119 v120 v122) ∧ (MatFree v122) ∧ (pkNat v119.params 0 2 = 1) ∧
      (1 ≤ pkNat v119.params 2 2) ∧ (pkNat v119.params 2 2 ≤ 50000) ∧
      (domOf (pkNat v119.params 4 4) = some ((domOf (pkNat v119.params 4 4)).getD 0)) ∧
      (regAddrOk (pkNat v119.params 4 4) = true) ∧ (frozenNow v122 ((domOf (pkNat v119.params 4 4)).getD 0) = false) ∧
      (inSlow (pkNat v119.params 4 4) = true) ∧
      (slowBlockOf (pkNat v119.params 4 4) = some ((slowBlockOf (pkNat v119.params 4 4)).getD 0)) ∧
      (guardBlock (pkNat v119.params 4 4) = none) ∧
      (slowBusy v122 ((slowBlockOf (pkNat v119.params 4 4)).getD 0) = true)) ∧
    ((powered v124 = true) ∧ (v124.seq.running = true) ∧ (v124.vcp.run = some (w2 { mfc := 255 })) ∧
      ((w2 { mfc := 255 }).req = ww 100 [(aLane 5, 3)]) ∧ ((w2 { mfc := 255 }).op = (516 : BitVec 16)) ∧
      ((w2 { mfc := 255 }).reply = none) ∧ ((w2 { mfc := 255 }).work = 2) ∧ (MatFree v124) ∧
      (pkNat (ww 100 [(aLane 5, 3)]).params 0 2 = 1) ∧
      (slowBlockOf (pkNat (ww 100 [(aLane 5, 3)]).params 4 4) = some ((slowBlockOf (pkNat (ww 100 [(aLane 5, 3)]).params 4 4)).getD 0)) ∧
      (inSlow (pkNat (ww 100 [(aLane 5, 3)]).params 4 4) = true) ∧
      (kindAct (pkNat (ww 100 [(aLane 5, 3)]).params 4 4) ≠ RegKind.blk) ∧
      (slowBusy v124 ((slowBlockOf (pkNat (ww 100 [(aLane 5, 3)]).params 4 4)).getD 0) = true) ∧
      (↑(pkNat (ww 100 [(aLane 5, 3)]).params 2 2) * (100000 : ℤ) < ↑(sfpDist (w2 { mfc := 255 }).since v124.sfp).toNat * (64 : ℤ))) ∧
    ((powered v125 = true) ∧ (v125.seq.running = true) ∧ (v125.vcp.run = some (w2 { mfc := 255 })) ∧
      ((w2 { mfc := 255 }).req = ww 100 [(aLane 5, 3)]) ∧ ((w2 { mfc := 255 }).op = (516 : BitVec 16)) ∧
      ((w2 { mfc := 255 }).reply = none) ∧ ((w2 { mfc := 255 }).work = 2) ∧ (MatFree v125) ∧
      (pkNat (ww 100 [(aLane 5, 3)]).params 0 2 = 1) ∧
      (slowBlockOf (pkNat (ww 100 [(aLane 5, 3)]).params 4 4) = some ((slowBlockOf (pkNat (ww 100 [(aLane 5, 3)]).params 4 4)).getD 0)) ∧
      (inSlow (pkNat (ww 100 [(aLane 5, 3)]).params 4 4) = true) ∧
      (kindAct (pkNat (ww 100 [(aLane 5, 3)]).params 4 4) ≠ RegKind.blk) ∧
      (slowBusy v125 ((slowBlockOf (pkNat (ww 100 [(aLane 5, 3)]).params 4 4)).getD 0) = false) ∧
      ((w2 { mfc := 255 }).worst < 2 ^ 32)) ∧
    ((pkNat v126.params 0 4 = aSys + 48) ∧ (Accepted (517 : BitVec 16) v126 v127 v128) ∧ (v128.regs.pairs = [])) ∧
    ((pkNat (gw 48 1).params 0 4 = aSys + 48) ∧
      (SecondWrite (517 : BitVec 16) (gw 48 1) (rn2 (517 : BitVec 16) (gw 48 1)) 0 (aSys + 48) (word (pkNat (gw 48 1).params 4 4)) v144)) ∧
    ((Accepted (517 : BitVec 16) v129 v130 v131) ∧
      (pkNat v129.params 0 4 ∈ [aSys + 16, aSys + 24, aSys + 32, aSys + 40])) :=
  ⟨by decide +kernel,
   by decide +kernel,
   by decide +kernel,
   by decide +kernel,
   by decide +kernel,
   by decide +kernel,
   by decide +kernel,
   by decide +kernel,
   by decide +kernel,
   by decide +kernel,
   by decide +kernel,
   by decide +kernel⟩


end Commands

namespace Regs

def w (n : Nat) : Word := word n
def v1 : Word := (w (aPortCfg 5))
def v2 : ℕ := (aPortCfg 5)
def v5 : State := { atE with com := { frozen := 2, frozenTo := 0x105 } }
def hs : State := { atE with regs := { hist := [(hCore, 0xF), (hProt, 0xF)] } }
def v6 : Word := (w hCore)
def v8 : Word := (w (aSage + 0x408))
def v9 : ℕ := (aSage + 0x408)
def v10 : Word := (w (aSage + 0x428))
def v11 : ℕ := (aSage + 0x424)
def v12 : State := { atE with regs := { wide := [(aSage + 0x424, 0x77)] } }
def v13 : Word := (w (aMgmt + 0x010))
def v14 : Word := (w 0x4FFFFFFC)
def v15 : Word := (w 0x38000000)
def mp : State := { atE with map := { hold := 0x81400000, a := [(5139, 7)], b := [(5140, 9), (5141, 3)], selPass := [5141], selAt := some ⟨0x100, 0, 0⟩ } }
def v17 : Word := (w 0x2000A0A4)
def v18 : Word := (w 0x2002A0A0)
def v19 : Word := (w 0x2002A0A4)
def v20 : Word := (w 0x2002A0AC)
def v21 : State := { mp with com := { frozen := 1, frozenTo := 0x105 } }
def rg (k a v m : Nat) : State := { atE with regs := { posted := [(k, { addr := a, val := w v, m := m })], blk := [(k, 3)] } }
def v23 : Word := (w (aLane 0))
def v25 : Word := (w (aLane 3))
def v27 : State := (rg 1 (aLane 4) 0x12345 0)
def v28 : Posted := ⟨aLane 3, 0x12345, 0⟩
def v29 : State := (rg 1 (aLane 3) 0x12345 0)
def v30 : State := { rg 1 (aLane 3) 0x12345 0 with regs := { posted := [(1, { addr := aLane 3, val := w 0x12345, m := 0 })], gw := [(aSys + 0x30, 1)] } }
def v31 : State := { atE with mgSh := { mdio := some 5 } }
def v32 : State := (put [(aSnapLo, 0x100)] atE)
def v33 : State := (put [(aSnapLo, 0x10001000)] atE)
def gp (o v : Nat) (p : Sfp := ⟨0x100, 0, 0⟩) : GuardPair := ⟨aSys + o, w v, p⟩
def gs (o v : Nat) : State := { atE with regs := { pairs := [(0, gp o v)] } }
def v34 : Word := (w (aSys + 0x20))
def v35 : GuardPair := (gp 0x20 1)
def v36 : Word := (w (aSys + 0x38))
def v37 : GuardPair := (gp 0x10 1)
def v38 : State := (gs 0x10 1)
def v40 : GuardPair := (gp 0x20 1 ⟨0xFF, 0, 0⟩)
def v41 : State := { atE with regs := { pairs := [(0, gp 0x20 1 ⟨0xFF, 0, 0⟩)] } }
def v42 : GuardPair := (gp 0x18 1)
def v43 : State := (gs 0x18 1)
def v44 : GuardPair := (gp 0x18 0)
def v45 : State := (gs 0x18 0)
def v46 : State := (gs 0x20 1)
def v47 : GuardPair := (gp 0x28 1)
def v48 : State := (gs 0x28 1)
def v49 : GuardPair := (gp 0x30 1)
def v50 : State := (gs 0x30 1)
def ac : State := put [(aSwapLo, 0x110), (aSwapFi, 3)] { gs 0x38 1 with pair := { st := .active, aliveOut := true, peer := some (5, false, false, 0), hb0 := some ⟨0x100, 0, 0⟩ } }
def v51 : GuardPair := (gp 0x38 1)
def v52 : State := (gs 0x38 1)
def g2 (v : Nat) (p : PairSt) : State := put [(aSwapLo, 0x110), (aSwapFi, 3)] { gs 0x38 v with pair := p }
def v53 : GuardPair := (gp 0x38 2)
def v54 : State := (g2 2 { st := .active, swap := some (⟨0x110, 3, 0⟩, true) })
def v55 : State := (g2 2 { st := .active, swap := some (⟨0x110, 4, 0⟩, true) })
def v56 : GuardPair := (gp 0x38 4)
def v57 : State := (g2 4 { st := .unsynced })
def v58 : State := (g2 4 { st := .active })
def fp (v : Nat) : GuardPair := ⟨aFeedSelect, w v, ⟨0x100, 0, 0⟩⟩
def fs (v : Nat) (p : PowerSt) : State := { atE with pwr := p, regs := { pairs := [(1, fp v)] } }
def v59 : GuardPair := (fp 1)
def v60 : State := (fs 1 { goodA := true, goodB := true, pathA := true })
def v61 : State := (fs 1 { goodA := true, goodB := false, pathA := true })
def v62 : GuardPair := (fp 0)
def v63 : State := (fs 0 { goodA := true, goodB := false, pathA := true })
def v64 : Word := (w (aThy + 28))
def v65 : Posted := ⟨aThy + 28, 0x12345, 0⟩
def v66 : State := (rg 0 (aThy + 28) 0x12345 0)
/-- A mirror queue without space for a record. -/
def full (s : State) : State :=
  { s with pair := { s.pair with st := .active, hb0 := some s.sfp, peer := some (5, false, false, 0) }
           mir := { at_ := some s.sfp, q := [{ at_ := s.sfp, full := true, body := .historyAll (List.replicate 8191 []) }] } }
def v70 : State := full atE
def r1 : MatReq := { m := 2, addr := aPortCfg 5, wr := some 3 }
def v71 : State := { full atE with mem := { busy := [(5, r1)] } }
def v72 : State := full mp
def x1 : MatReq := { m := 3, addr := aPortCfg 5, wr := some 5 }
def x2 : MatReq := { m := 4, addr := aPortCfg 5, wr := some 6 }
def x3 : MatReq := { m := 6, addr := aPortCfg 5, wr := some 6, aged := true }
def rd : MatReq := { m := 1, addr := aPortCfg 6 }
def ag : State := { atE with mem := { busy := [(5, r1)], wait := [(5, rd)] } }
def ar (a b : MatReq) (g : Tbl Nat := []) : State := { atE with mem := { busy := [(5, r1)], wait := [(5, a), (5, b)], granted := g } }
def x4 : MatReq := { m := 4, addr := aPortCfg 5, wr := some 5, aged := true }

/-- States and operands that meet the hypotheses of RegisterWrites. -/
theorem wit_RegisterWrites :
    ((powered atE = true) ∧ (MatFree atE) ∧ (mirHeld atE = false) ∧ (mayWrite 1 5 = true) ∧ (targetOf v2 = some 5) ∧
      (domOf v2 = some ((domOf v2).getD 0)) ∧ (guardBlock v2 = none) ∧ (isWideHi v2 = false) ∧ (isWideLo v2 = false) ∧
      (stagedOf v2 = none) ∧ (BitVec.toNat v1 = v2 ∨ BitVec.toNat v1 = v2 + stagedOff) ∧
      (frozenNow atE ((domOf v2).getD 0) = false)) ∧
    ((powered v5 = true) ∧ (MatFree v5) ∧ (mirHeld v5 = false) ∧ (mayWrite 1 5 = true) ∧ (targetOf v2 = some 5) ∧
      (domOf v2 = some ((domOf v2).getD 0)) ∧ (guardBlock v2 = none) ∧ (isWideHi v2 = false) ∧ (isWideLo v2 = false) ∧
      (stagedOf v2 = none) ∧ (BitVec.toNat v1 = v2 ∨ BitVec.toNat v1 = v2 + stagedOff) ∧
      (frozenNow v5 ((domOf v2).getD 0) = true)) ∧
    ((powered hs = true) ∧ (MatFree hs) ∧ (mayWrite 1 5 = true) ∧ (hCore ∈ [hCore, hProt]) ∧ (BitVec.toNat v6 = hCore)) ∧
    ((powered atE = true) ∧ (MatFree atE) ∧ (mirHeld atE = false) ∧ (mayWrite 1 5 = true) ∧
      (v9 ∈ [aSage + 1032, aSage + 1060]) ∧ (BitVec.toNat v8 = v9) ∧ (frozenNow atE 5 = false)) ∧
    ((powered v12 = true) ∧ (MatFree v12) ∧ (mirHeld v12 = false) ∧ (mayWrite 1 5 = true) ∧
      (v11 ∈ [aSage + 1032, aSage + 1060]) ∧ (BitVec.toNat v10 = v11 + 4) ∧ (frozenNow v12 5 = false)) ∧
    ((powered atE = true) ∧ (MatFree atE) ∧ (mayWrite 1 5 = true) ∧ (BitVec.toNat v13 = aMgmt + 16)) ∧
    ((powered atE = true) ∧ (MatFree atE) ∧ (mayWrite 1 5 = true) ∧ (targetOf (BitVec.toNat v14) = some 5) ∧
      (guardBlock (BitVec.toNat v14) = none) ∧ (kindMask (kindAct (BitVec.toNat v14)) = 0) ∧
      (kindAct (BitVec.toNat v14) = RegKind.none) ∧ (stagedOf (BitVec.toNat v14) = none)) ∧
    ((powered atE = true) ∧ (MatFree atE) ∧
      (Option.all (fun (x : ℕ) => !mayWrite 4 x) (targetOf (BitVec.toNat v15)) = true)) ∧
    ((powered v70 = true) ∧ (MatFree v70) ∧ (mirHeld v70 = true) ∧ (mayWrite 1 5 = true) ∧
      (targetOf (BitVec.toNat v1) = some 5) ∧ (mirWrites v70 (BitVec.toNat v1) = true)) ∧
    ((powered v71 = true) ∧ (v71.mem.busy = [(5, r1)]) ∧ (v71.mem.wait = []) ∧ (r1.wr.isSome = true) ∧
      (mirHeld v71 = true) ∧ (mirWrites v71 r1.addr = true) ∧ (r1.m ≠ 1) ∧ (mayWrite 1 5 = true) ∧
      (targetOf (BitVec.toNat v1) = some 5)) :=
  ⟨by decide +kernel,
   by decide +kernel,
   by decide +kernel,
   by decide +kernel,
   by decide +kernel,
   by decide +kernel,
   by decide +kernel,
   by decide +kernel,
   by decide +kernel,
   by decide +kernel⟩

/-- States and operands that meet the hypotheses of MapPort. -/
theorem wit_MapPort :
    ((powered mp = true) ∧ (MatFree mp) ∧ (mayWrite 1 3 = true) ∧
      ((if decide (537001984 ≤ BitVec.toNat v17) = true then 537001984 else 536870912) ≤ BitVec.toNat v17) ∧
      (BitVec.toNat v17 < (if decide (537001984 ≤ BitVec.toNat v17) = true then 537001984 else 536870912) + 81920) ∧
      (mirHeld mp = false) ∧ (decide (537001984 ≤ BitVec.toNat v17) = mp.map.bActive) ∧ (mayRead 1 5 = true) ∧
      (sfpOk mp.sfp = true)) ∧
    ((powered mp = true) ∧ (MatFree mp) ∧ (mayWrite 1 3 = true) ∧
      ((if decide (537001984 ≤ BitVec.toNat v18) = true then 537001984 else 536870912) ≤ BitVec.toNat v18) ∧
      (BitVec.toNat v18 < (if decide (537001984 ≤ BitVec.toNat v18) = true then 537001984 else 536870912) + 81920) ∧
      (mirHeld mp = false) ∧ (decide (537001984 ≤ BitVec.toNat v18) ≠ mp.map.bActive) ∧ (frozenNow mp 0 = false) ∧
      (BitVec.toNat v18 % 8 = 0) ∧ (mayRead 1 3 = true) ∧
      (eccDouble mp.map (decide (537001984 ≤ BitVec.toNat v18)) (BitVec.toNat v18 % 131072 / 8) = false) ∧
      (mayRead 1 5 = true) ∧ (sfpOk mp.sfp = true)) ∧
    ((powered mp = true) ∧ (MatFree mp) ∧ (mayWrite 3 3 = true) ∧
      ((if decide (537001984 ≤ BitVec.toNat v19) = true then 537001984 else 536870912) ≤ BitVec.toNat v19) ∧
      (BitVec.toNat v19 < (if decide (537001984 ≤ BitVec.toNat v19) = true then 537001984 else 536870912) + 81920) ∧
      (mirHeld mp = false) ∧ (decide (537001984 ≤ BitVec.toNat v19) ≠ mp.map.bActive) ∧ (frozenNow mp 0 = false) ∧
      (BitVec.toNat v19 % 8 = 4) ∧ ((true && inPass mp (BitVec.toNat v19 % 131072 / 8)) = false) ∧
      (5141 ≠ BitVec.toNat v19 % 131072 / 8) ∧ (mayRead 3 5 = true) ∧ (sfpOk mp.sfp = true)) ∧
    ((powered mp = true) ∧ (MatFree mp) ∧ (mayWrite 3 3 = true) ∧
      ((if decide (537001984 ≤ BitVec.toNat v20) = true then 537001984 else 536870912) ≤ BitVec.toNat v20) ∧
      (BitVec.toNat v20 < (if decide (537001984 ≤ BitVec.toNat v20) = true then 537001984 else 536870912) + 81920) ∧
      (mirHeld mp = false) ∧ (decide (537001984 ≤ BitVec.toNat v20) ≠ mp.map.bActive) ∧ (frozenNow mp 0 = false) ∧
      (BitVec.toNat v20 % 8 = 4) ∧ (true = true) ∧ (inPass mp (BitVec.toNat v20 % 131072 / 8) = true) ∧
      (mayRead 3 5 = true) ∧ (sfpOk mp.sfp = true)) ∧
    ((powered v21 = true) ∧ (MatFree v21) ∧ (mayWrite 1 3 = true) ∧
      ((if decide (537001984 ≤ BitVec.toNat v19) = true then 537001984 else 536870912) ≤ BitVec.toNat v19) ∧
      (BitVec.toNat v19 < (if decide (537001984 ≤ BitVec.toNat v19) = true then 537001984 else 536870912) + 81920) ∧
      (mirHeld v21 = false) ∧ (decide (537001984 ≤ BitVec.toNat v19) ≠ v21.map.bActive) ∧ (frozenNow v21 0 = true) ∧
      (mayRead 1 5 = true) ∧ (sfpOk v21.sfp = true)) ∧
    ((powered v72 = true) ∧ (MatFree v72) ∧ (mayWrite 3 3 = true) ∧
      ((if decide (537001984 ≤ BitVec.toNat v19) = true then 537001984 else 536870912) ≤ BitVec.toNat v19) ∧
      (BitVec.toNat v19 < (if decide (537001984 ≤ BitVec.toNat v19) = true then 537001984 else 536870912) + 81920) ∧
      (mirHeld v72 = true) ∧ (decide (537001984 ≤ BitVec.toNat v19) ≠ v72.map.bActive) ∧ (BitVec.toNat v19 % 8 = 4) ∧
      (mayRead 3 5 = true) ∧ (sfpOk v72.sfp = true)) :=
  ⟨by decide +kernel,
   by decide +kernel,
   by decide +kernel,
   by decide +kernel,
   by decide +kernel,
   by decide +kernel⟩

/-- States and operands that meet the hypotheses of SlowAndShared. -/
theorem wit_SlowAndShared :
    ((powered atE = true) ∧ (atE.regs.pairs = []) ∧ (MatFree atE) ∧ (mayWrite 1 6 = true) ∧
      (slowBlockOf (BitVec.toNat v23) = some (sbIdx SlowBlock.serdes)) ∧
      (domOf (BitVec.toNat v23) = some ((domOf (BitVec.toNat v23)).getD 0)) ∧
      (slowBusy atE (sbIdx SlowBlock.serdes) = false) ∧ (mayWrite 1 5 = true) ∧ (bit (74565 : Word) 31 = false) ∧
      (mayRead 1 5 = true ∨ mayWrite 1 5 = true) ∧ (qosOf atE 1 < 5) ∧
      ((atE.mem.wait.any fun (w : ℕ × MatReq) => w.2.m == 1 && w.2.aged) = false)) ∧
    ((powered v27 = true) ∧ (v27.regs.pairs = []) ∧ (MatFree v27) ∧ (mayWrite 1 6 = true) ∧
      (slowBlockOf (BitVec.toNat v25) = some (sbIdx SlowBlock.serdes)) ∧
      (domOf (BitVec.toNat v25) = some ((domOf (BitVec.toNat v25)).getD 0)) ∧
      (slowBusy v27 (sbIdx SlowBlock.serdes) = true) ∧ ((1 : Master) ≠ (3 : Master)) ∧ (mayWrite 1 5 = true) ∧
      (bit (74565 : Word) 31 = false) ∧ (mayRead 1 5 = true ∨ mayWrite 1 5 = true) ∧ (qosOf v27 1 < 5) ∧
      ((v27.mem.wait.any fun (w : ℕ × MatReq) => w.2.m == 1 && w.2.aged) = false)) ∧
    ((powered v29 = true) ∧ (v29.regs.pairs = []) ∧ (MatFree v29) ∧ (mayWrite 3 6 = true) ∧
      (slowBlockOf (BitVec.toNat v25) = some (sbIdx SlowBlock.serdes)) ∧
      (domOf (BitVec.toNat v25) = some ((domOf (BitVec.toNat v25)).getD 0)) ∧
      (slowBusy v29 (sbIdx SlowBlock.serdes) = true) ∧ ((3 : Master) = (3 : Master)) ∧ (mirHeld v29 = false) ∧
      (tfind v29.regs.posted (sbIdx SlowBlock.serdes) = some v28) ∧ (v28.val = (74565 : Word)) ∧
      (v28.addr = BitVec.toNat v25) ∧ (domOf v28.addr = some ((domOf (BitVec.toNat v25)).getD 0)) ∧
      (slowBlockOf v28.addr = some (sbIdx SlowBlock.serdes)) ∧
      (frozenNow v29 ((domOf (BitVec.toNat v25)).getD 0) = false) ∧ (isWideHi v28.addr = false) ∧
      (isWideLo v28.addr = false) ∧ (mayWrite 3 5 = true) ∧ (bit (74565 : Word) 31 = false)) ∧
    ((powered v30 = true) ∧ (v30.regs.pairs = []) ∧ (MatFree v30) ∧ (mayWrite 1 6 = true) ∧
      (slowBlockOf (BitVec.toNat v25) = some (sbIdx SlowBlock.serdes)) ∧
      (domOf (BitVec.toNat v25) = some ((domOf (BitVec.toNat v25)).getD 0)) ∧
      (slowBusy v30 (sbIdx SlowBlock.serdes) = true) ∧ ((1 : Master) ≠ (3 : Master)) ∧ (mirHeld v30 = false) ∧
      (tfind v30.regs.posted (sbIdx SlowBlock.serdes) = some v28) ∧ (v28.val = (74565 : Word)) ∧
      (v28.addr = BitVec.toNat v25) ∧ (domOf v28.addr = some ((domOf (BitVec.toNat v25)).getD 0)) ∧
      (slowBlockOf v28.addr = some (sbIdx SlowBlock.serdes)) ∧
      (frozenNow v30 ((domOf (BitVec.toNat v25)).getD 0) = false) ∧ (isWideHi v28.addr = false) ∧
      (isWideLo v28.addr = false) ∧ (mayWrite 1 5 = true) ∧ (bit (74565 : Word) 31 = false) ∧
      (mayRead 1 5 = true ∨ mayWrite 1 5 = true) ∧ (qosOf v30 1 < 5) ∧
      ((v30.mem.wait.any fun (w : ℕ × MatReq) => w.2.m == 1 && w.2.aged) = false)) ∧
    ((powered atE = true) ∧ (atE.regs.pairs = []) ∧ (MatFree atE) ∧ (mayWrite 1 6 = true) ∧
      (slowBlockOf (BitVec.toNat v23) = some (sbIdx SlowBlock.serdes)) ∧
      (domOf (BitVec.toNat v23) = some ((domOf (BitVec.toNat v23)).getD 0)) ∧
      (slowBusy atE (sbIdx SlowBlock.serdes) = false) ∧ (mayWrite 1 5 = true) ∧ (bit (2415919104 : Word) 31 = true) ∧
      (atE.mgSh.mdio = none) ∧
      (bit (2415919104 : Word) 30 = true ∨ bits (2415919104 : Word) 29 28 = 1 ∨ bits (2415919104 : Word) 29 28 = 2) ∧
      (sfpDist atE.sfp (snapNamed atE (2415919104 : Word)) < (327536 : ℤ)) ∧
      (mayRead 1 5 = true ∨ mayWrite 1 5 = true) ∧ (qosOf atE 1 < 5) ∧
      ((atE.mem.wait.any fun (w : ℕ × MatReq) => w.2.m == 1 && w.2.aged) = false)) ∧
    ((powered atE = true) ∧ (atE.regs.pairs = []) ∧ (MatFree atE) ∧ (mayWrite 1 6 = true) ∧
      (slowBlockOf (BitVec.toNat v23) = some (sbIdx SlowBlock.serdes)) ∧
      (domOf (BitVec.toNat v23) = some ((domOf (BitVec.toNat v23)).getD 0)) ∧
      (slowBusy atE (sbIdx SlowBlock.serdes) = false) ∧ (mayWrite 1 5 = true) ∧ (bit (2147483648 : Word) 31 = true) ∧
      (atE.mgSh.mdio = none) ∧ (bit (2147483648 : Word) 30 = false) ∧
      (bits (2147483648 : Word) 29 28 = 0 ∨ bits (2147483648 : Word) 29 28 = 3) ∧
      (sfpDist atE.sfp (snapNamed atE (2147483648 : Word)) < (327536 : ℤ)) ∧
      (mayRead 1 5 = true ∨ mayWrite 1 5 = true) ∧ (qosOf atE 1 < 5) ∧
      ((atE.mem.wait.any fun (w : ℕ × MatReq) => w.2.m == 1 && w.2.aged) = false)) ∧
    ((powered v31 = true) ∧ (v31.regs.pairs = []) ∧ (MatFree v31) ∧ (mayWrite 1 6 = true) ∧
      (slowBlockOf (BitVec.toNat v23) = some (sbIdx SlowBlock.serdes)) ∧
      (domOf (BitVec.toNat v23) = some ((domOf (BitVec.toNat v23)).getD 0)) ∧
      (slowBusy v31 (sbIdx SlowBlock.serdes) = false) ∧ (mayWrite 1 5 = true) ∧ (bit (2147483648 : Word) 31 = true) ∧
      (v31.mgSh.mdio.isSome = true) ∧ (sfpDist v31.sfp (snapNamed v31 (2147483648 : Word)) < (327536 : ℤ)) ∧
      (mayRead 1 5 = true ∨ mayWrite 1 5 = true) ∧ (qosOf v31 1 < 5) ∧
      ((v31.mem.wait.any fun (w : ℕ × MatReq) => w.2.m == 1 && w.2.aged) = false)) ∧
    ((powered v32 = true) ∧ (v32.regs.pairs = []) ∧ (MatFree v32) ∧ (mayWrite 1 6 = true) ∧
      (slowBlockOf (BitVec.toNat v23) = some (sbIdx SlowBlock.serdes)) ∧
      (domOf (BitVec.toNat v23) = some ((domOf (BitVec.toNat v23)).getD 0)) ∧
      (slowBusy v32 (sbIdx SlowBlock.serdes) = false) ∧ (mayWrite 1 5 = true) ∧ (bit (2147484163 : Word) 31 = true) ∧
      (v32.mgSh.mdio = none) ∧ (bit (2147484163 : Word) 30 = false) ∧
      (bits (2147484163 : Word) 29 28 = 0 ∨ bits (2147484163 : Word) 29 28 = 3) ∧
      ((327536 : ℤ) ≤ sfpDist v32.sfp (snapNamed v32 (2147484163 : Word))) ∧
      (sfpDist v32.sfp (snapNamed v32 (2147484163 : Word)) ≤ horizon) ∧ (mayRead 1 5 = true ∨ mayWrite 1 5 = true) ∧
      (qosOf v32 1 < 5) ∧ ((v32.mem.wait.any fun (w : ℕ × MatReq) => w.2.m == 1 && w.2.aged) = false)) ∧
    ((powered v33 = true) ∧ (v33.regs.pairs = []) ∧ (MatFree v33) ∧ (mayWrite 1 6 = true) ∧
      (slowBlockOf (BitVec.toNat v23) = some (sbIdx SlowBlock.serdes)) ∧
      (domOf (BitVec.toNat v23) = some ((domOf (BitVec.toNat v23)).getD 0)) ∧
      (slowBusy v33 (sbIdx SlowBlock.serdes) = false) ∧ (mayWrite 1 5 = true) ∧ (bit (2147483907 : Word) 31 = true) ∧
      (v33.mgSh.mdio = none) ∧ (bit (2147483907 : Word) 30 = false) ∧
      (bits (2147483907 : Word) 29 28 = 0 ∨ bits (2147483907 : Word) 29 28 = 3) ∧
      (horizon < sfpDist v33.sfp (snapNamed v33 (2147483907 : Word))) ∧ (mayRead 1 5 = true ∨ mayWrite 1 5 = true) ∧
      (qosOf v33 1 < 5) ∧ ((v33.mem.wait.any fun (w : ℕ × MatReq) => w.2.m == 1 && w.2.aged) = false)) ∧
    ((powered v66 = true) ∧ (v66.regs.pairs = []) ∧ (MatFree v66) ∧ (mayWrite 1 6 = true) ∧
      (slowBlockOf (BitVec.toNat v64) = some (sbIdx SlowBlock.thyme)) ∧
      (domOf (BitVec.toNat v64) = some ((domOf (BitVec.toNat v64)).getD 0)) ∧
      (slowBusy v66 (sbIdx SlowBlock.thyme) = true) ∧ ((1 : Master) ≠ (3 : Master)) ∧ (mirHeld v66 = false) ∧
      (tfind v66.regs.posted (sbIdx SlowBlock.thyme) = some v65) ∧ (v65.val = (74565 : Word)) ∧
      (v65.addr = BitVec.toNat v64) ∧ (domOf v65.addr = some ((domOf (BitVec.toNat v64)).getD 0)) ∧
      (slowBlockOf v65.addr = some (sbIdx SlowBlock.thyme)) ∧
      (frozenNow v66 ((domOf (BitVec.toNat v64)).getD 0) = false) ∧ (isWideHi v65.addr = false) ∧
      (isWideLo v65.addr = false) ∧ (mayWrite 1 5 = true) ∧ (bit (74565 : Word) 31 = false) ∧
      (mayRead 1 5 = true ∨ mayWrite 1 5 = true) ∧ (qosOf v66 1 < 5) ∧
      ((v66.mem.wait.any fun (w : ℕ × MatReq) => w.2.m == 1 && w.2.aged) = false)) ∧
    ((powered ag = true) ∧ (ag.regs.pairs = []) ∧ (mayRead 1 5 = true ∨ mayWrite 1 5 = true) ∧ (qosOf ag 1 < 5) ∧
      ((ag.mem.wait.any fun (w : ℕ × MatReq) => w.2.m == 1 && w.2.aged) = false)) ∧
    ((powered (ar x1 x2) = true) ∧ ((ar x1 x2).regs.pairs = []) ∧ (mayRead 1 5 = true ∨ mayWrite 1 5 = true) ∧
      (qosOf (ar x1 x2) 1 < 5) ∧ (((ar x1 x2).mem.wait.any fun (w : ℕ × MatReq) => w.2.m == 1 && w.2.aged) = false) ∧
      (mirOn (ar x1 x2) = false) ∧ ((ar x1 x2).mem.busy = [(5, r1)]) ∧ ((ar x1 x2).mem.wait = [(5, x1), (5, x2)]) ∧
      (x1.m ≤ 6) ∧ (x2.m ≤ 6) ∧ (x1.m ≠ x2.m) ∧ (targetOf v2 = some 5) ∧ ((domOf v2).isSome = true) ∧
      (guardBlock v2 = none) ∧ (isWideHi v2 = false) ∧ (isWideLo v2 = false) ∧ (stagedOf v2 = none) ∧
      (frozenNow (ar x1 x2) ((domOf v2).getD 0) = false) ∧ (∀ q ∈ [r1, x1, x2], q.addr = v2 ∧ mayWrite q.m 5 = true) ∧
      (r1.wr = some (3 : Word)) ∧ (x1.wr = some (5 : Word)) ∧ (x2.wr = some (6 : Word)) ∧
      (targetOf (BitVec.toNat (w 1610612736)) = none) ∧
      (reqQos (ar x1 x2) x2 < reqQos (ar x1 x2) x1 ∨ reqQos (ar x1 x2) x2 = reqQos (ar x1 x2) x1 ∧ tfind (ar x1 x2).mem.granted (5 * 8 + reqQos (ar x1 x2) x1) = some x2.m)) ∧
    ((powered (ar x2 x1) = true) ∧ ((ar x2 x1).regs.pairs = []) ∧ (mayRead 1 5 = true ∨ mayWrite 1 5 = true) ∧
      (qosOf (ar x2 x1) 1 < 5) ∧ (((ar x2 x1).mem.wait.any fun (w : ℕ × MatReq) => w.2.m == 1 && w.2.aged) = false) ∧
      (mirOn (ar x2 x1) = false) ∧ ((ar x2 x1).mem.busy = [(5, r1)]) ∧ ((ar x2 x1).mem.wait = [(5, x2), (5, x1)]) ∧
      (x2.m ≤ 6) ∧ (x1.m ≤ 6) ∧ (x2.m ≠ x1.m) ∧ (targetOf v2 = some 5) ∧ ((domOf v2).isSome = true) ∧
      (guardBlock v2 = none) ∧ (isWideHi v2 = false) ∧ (isWideLo v2 = false) ∧ (stagedOf v2 = none) ∧
      (frozenNow (ar x2 x1) ((domOf v2).getD 0) = false) ∧ (∀ q ∈ [r1, x2, x1], q.addr = v2 ∧ mayWrite q.m 5 = true) ∧
      (r1.wr = some (3 : Word)) ∧ (x2.wr = some (6 : Word)) ∧ (x1.wr = some (5 : Word)) ∧
      (targetOf (BitVec.toNat (w 1610612736)) = none) ∧
      (reqQos (ar x2 x1) x2 < reqQos (ar x2 x1) x1 ∨ reqQos (ar x2 x1) x2 = reqQos (ar x2 x1) x1 ∧ tfind (ar x2 x1).mem.granted (5 * 8 + reqQos (ar x2 x1) x2) = some x2.m)) ∧
    ((powered (ar x4 x3 [(45, 4)]) = true) ∧ ((ar x4 x3 [(45, 4)]).regs.pairs = []) ∧
      (mayRead 1 5 = true ∨ mayWrite 1 5 = true) ∧ (qosOf (ar x4 x3 [(45, 4)]) 1 < 5) ∧
      (((ar x4 x3 [(45, 4)]).mem.wait.any fun (w : ℕ × MatReq) => w.2.m == 1 && w.2.aged) = false) ∧
      (mirOn (ar x4 x3 [(45, 4)]) = false) ∧ ((ar x4 x3 [(45, 4)]).mem.busy = [(5, r1)]) ∧
      ((ar x4 x3 [(45, 4)]).mem.wait = [(5, x4), (5, x3)]) ∧ (x4.m ≤ 6) ∧ (x3.m ≤ 6) ∧ (x4.m ≠ x3.m) ∧
      (targetOf v2 = some 5) ∧ ((domOf v2).isSome = true) ∧ (guardBlock v2 = none) ∧ (isWideHi v2 = false) ∧
      (isWideLo v2 = false) ∧ (stagedOf v2 = none) ∧ (frozenNow (ar x4 x3 [(45, 4)]) ((domOf v2).getD 0) = false) ∧
      (∀ q ∈ [r1, x4, x3], q.addr = v2 ∧ mayWrite q.m 5 = true) ∧ (r1.wr = some (3 : Word)) ∧
      (x4.wr = some (5 : Word)) ∧ (x3.wr = some (6 : Word)) ∧ (targetOf (BitVec.toNat (w 1610612736)) = none) ∧
      (reqQos (ar x4 x3 [(45, 4)]) x4 < reqQos (ar x4 x3 [(45, 4)]) x3 ∨ reqQos (ar x4 x3 [(45, 4)]) x4 = reqQos (ar x4 x3 [(45, 4)]) x3 ∧ tfind (ar x4 x3 [(45, 4)]).mem.granted (5 * 8 + reqQos (ar x4 x3 [(45, 4)]) x4) = some x4.m)) ∧
    ((powered (ar x4 x3 [(45, 6)]) = true) ∧ ((ar x4 x3 [(45, 6)]).regs.pairs = []) ∧
      (mayRead 1 5 = true ∨ mayWrite 1 5 = true) ∧ (qosOf (ar x4 x3 [(45, 6)]) 1 < 5) ∧
      (((ar x4 x3 [(45, 6)]).mem.wait.any fun (w : ℕ × MatReq) => w.2.m == 1 && w.2.aged) = false) ∧
      (mirOn (ar x4 x3 [(45, 6)]) = false) ∧ ((ar x4 x3 [(45, 6)]).mem.busy = [(5, r1)]) ∧
      ((ar x4 x3 [(45, 6)]).mem.wait = [(5, x4), (5, x3)]) ∧ (x4.m ≤ 6) ∧ (x3.m ≤ 6) ∧ (x4.m ≠ x3.m) ∧
      (targetOf v2 = some 5) ∧ ((domOf v2).isSome = true) ∧ (guardBlock v2 = none) ∧ (isWideHi v2 = false) ∧
      (isWideLo v2 = false) ∧ (stagedOf v2 = none) ∧ (frozenNow (ar x4 x3 [(45, 6)]) ((domOf v2).getD 0) = false) ∧
      (∀ q ∈ [r1, x4, x3], q.addr = v2 ∧ mayWrite q.m 5 = true) ∧ (r1.wr = some (3 : Word)) ∧
      (x4.wr = some (5 : Word)) ∧ (x3.wr = some (6 : Word)) ∧ (targetOf (BitVec.toNat (w 1610612736)) = none) ∧
      (reqQos (ar x4 x3 [(45, 6)]) x3 < reqQos (ar x4 x3 [(45, 6)]) x4 ∨ reqQos (ar x4 x3 [(45, 6)]) x3 = reqQos (ar x4 x3 [(45, 6)]) x4 ∧ tfind (ar x4 x3 [(45, 6)]).mem.granted (5 * 8 + reqQos (ar x4 x3 [(45, 6)]) x4) = some x3.m)) :=
  ⟨by decide +kernel,
   by decide +kernel,
   by decide +kernel,
   by decide +kernel,
   by decide +kernel,
   by decide +kernel,
   by decide +kernel,
   by decide +kernel,
   by decide +kernel,
   by decide +kernel,
   by decide +kernel,
   by decide +kernel,
   by decide +kernel,
   by decide +kernel,
   by decide +kernel⟩

/-- States and operands that meet the hypotheses of GuardedRegisters. -/
theorem wit_GuardedRegisters :
    ((powered atE = true) ∧ (MatFree atE) ∧ (mayWrite 1 5 = true) ∧
      (BitVec.toNat v34 ∈ [aSys + 16, aSys + 24, aSys + 32, aSys + 40, aSys + 48, aSys + 56]) ∧
      (tfind atE.regs.pairs 0 = none)) ∧
    ((powered v38 = true) ∧ (MatFree v38) ∧ (mayWrite 1 5 = true) ∧
      (BitVec.toNat v36 ∈ [aSys + 16, aSys + 24, aSys + 32, aSys + 40, aSys + 48, aSys + 56]) ∧
      (tfind v38.regs.pairs 0 = some v37) ∧ (sfpDist v37.at_ v38.sfp ≤ (100000 : ℤ)) ∧
      (tfind v38.regs.pairs 0 = some v37 ∧ v37.addr = aSys + 16 ∧ v37.val = (1 : Word) ∧ sfpDist v37.at_ v38.sfp ≤ (100000 : ℤ)) ∧
      (tsorted v38.regs.pairs = true) ∧ (v36 ≠ ~~~(1 : Word))) ∧
    ((powered atE = true) ∧ (MatFree atE) ∧ (mayWrite 1 5 = true) ∧
      (aSys + 40 ∈ [aSys + 16, aSys + 24, aSys + 32, aSys + 40, aSys + 48, aSys + 56]) ∧
      (BitVec.toNat (w (aSys + 44)) = aSys + 40 + 4) ∧ (tfind atE.regs.pairs 0 = none)) ∧
    ((powered v41 = true) ∧ (MatFree v41) ∧ (mayWrite 1 5 = true) ∧
      (BitVec.toNat v34 ∈ [aSys + 16, aSys + 24, aSys + 32, aSys + 40, aSys + 48, aSys + 56]) ∧
      (v40.addr = BitVec.toNat v34) ∧ (tfind v41.regs.pairs 0 = some v40) ∧ ((100000 : ℤ) < sfpDist v40.at_ v41.sfp)) ∧
    ((powered v43 = true) ∧ (MatFree v43) ∧ (mayWrite 1 5 = true) ∧
      (tfind v43.regs.pairs 0 = some v42 ∧ v42.addr = aSys + 24 ∧ v42.val = (1 : Word) ∧ sfpDist v42.at_ v43.sfp ≤ (100000 : ℤ)) ∧
      (tsorted v43.regs.pairs = true) ∧ (bit (1 : Word) 0 = true) ∧ (v43.seq.devReset = none) ∧
      (devResetRuns v43 = false) ∧ ((0 : Word) ≠ ~~~(1 : Word))) ∧
    ((powered v45 = true) ∧ (MatFree v45) ∧ (mayWrite 1 5 = true) ∧
      (tfind v45.regs.pairs 0 = some v44 ∧ v44.addr = aSys + 24 ∧ v44.val = (0 : Word) ∧ sfpDist v44.at_ v45.sfp ≤ (100000 : ℤ)) ∧
      (tsorted v45.regs.pairs = true) ∧ (bit (0 : Word) 0 = false) ∧ ((0 : Word) ≠ ~~~(0 : Word))) ∧
    ((powered v46 = true) ∧ (MatFree v46) ∧ (mayWrite 1 5 = true) ∧
      (tfind v46.regs.pairs 0 = some v35 ∧ v35.addr = aSys + 32 ∧ v35.val = (1 : Word) ∧ sfpDist v35.at_ v46.sfp ≤ (100000 : ℤ)) ∧
      (tsorted v46.regs.pairs = true) ∧ ((0 : Word) ≠ ~~~(1 : Word))) ∧
    ((powered v48 = true) ∧ (MatFree v48) ∧ (mayWrite 6 5 = true) ∧
      (tfind v48.regs.pairs 0 = some v47 ∧ v47.addr = aSys + 40 ∧ v47.val = (1 : Word) ∧ sfpDist v47.at_ v48.sfp ≤ (100000 : ℤ)) ∧
      (tsorted v48.regs.pairs = true) ∧ ((0 : Word) ≠ ~~~(1 : Word))) ∧
    ((powered v50 = true) ∧ (MatFree v50) ∧ (mayWrite 1 5 = true) ∧
      (tfind v50.regs.pairs 0 = some v49 ∧ v49.addr = aSys + 48 ∧ v49.val = (1 : Word) ∧ sfpDist v49.at_ v50.sfp ≤ (100000 : ℤ)) ∧
      (tsorted v50.regs.pairs = true) ∧ (bit (1 : Word) 0 = true) ∧ ((0 : Word) ≠ ~~~(1 : Word))) ∧
    ((powered ac = true) ∧ (MatFree ac) ∧ (mayWrite 1 5 = true) ∧
      (tfind ac.regs.pairs 0 = some v51 ∧ v51.addr = aSys + 56 ∧ v51.val = (1 : Word) ∧ sfpDist v51.at_ ac.sfp ≤ (100000 : ℤ)) ∧
      (tsorted ac.regs.pairs = true) ∧ (bits (1 : Word) 2 0 = 1) ∧ (swapCheck ac ac.sfp (swapNamed ac) = none)) ∧
    ((powered v52 = true) ∧ (MatFree v52) ∧ (mayWrite 1 5 = true) ∧
      (tfind v52.regs.pairs 0 = some v51 ∧ v51.addr = aSys + 56 ∧ v51.val = (1 : Word) ∧ sfpDist v51.at_ v52.sfp ≤ (100000 : ℤ)) ∧
      (tsorted v52.regs.pairs = true) ∧ (bits (1 : Word) 2 0 = 1) ∧
      ((swapCheck v52 v52.sfp (swapNamed v52)).isSome = true)) ∧
    ((powered v54 = true) ∧ (MatFree v54) ∧ (mayWrite 1 5 = true) ∧
      (tfind v54.regs.pairs 0 = some v53 ∧ v53.addr = aSys + 56 ∧ v53.val = (2 : Word) ∧ sfpDist v53.at_ v54.sfp ≤ (100000 : ℤ)) ∧
      (tsorted v54.regs.pairs = true) ∧ (bits (2 : Word) 2 0 = 2) ∧ (cancelCheck v54 v54.sfp (swapNamed v54) = none)) ∧
    ((powered v55 = true) ∧ (MatFree v55) ∧ (mayWrite 1 5 = true) ∧
      (tfind v55.regs.pairs 0 = some v53 ∧ v53.addr = aSys + 56 ∧ v53.val = (2 : Word) ∧ sfpDist v53.at_ v55.sfp ≤ (100000 : ℤ)) ∧
      (tsorted v55.regs.pairs = true) ∧ (bits (2 : Word) 2 0 = 2) ∧
      ((cancelCheck v55 v55.sfp (swapNamed v55)).isSome = true)) ∧
    ((powered v57 = true) ∧ (MatFree v57) ∧ (mayWrite 1 5 = true) ∧
      (tfind v57.regs.pairs 0 = some v56 ∧ v56.addr = aSys + 56 ∧ v56.val = (4 : Word) ∧ sfpDist v56.at_ v57.sfp ≤ (100000 : ℤ)) ∧
      (tsorted v57.regs.pairs = true) ∧ (bits (4 : Word) 2 0 = 4) ∧ (forceCheck v57 true = none)) ∧
    ((powered v58 = true) ∧ (MatFree v58) ∧ (mayWrite 1 5 = true) ∧
      (tfind v58.regs.pairs 0 = some v56 ∧ v56.addr = aSys + 56 ∧ v56.val = (4 : Word) ∧ sfpDist v56.at_ v58.sfp ≤ (100000 : ℤ)) ∧
      (tsorted v58.regs.pairs = true) ∧ (bits (4 : Word) 2 0 = 4) ∧ ((forceCheck v58 true).isSome = true)) :=
  ⟨by decide +kernel,
   by decide +kernel,
   by decide +kernel,
   by decide +kernel,
   by decide +kernel,
   by decide +kernel,
   by decide +kernel,
   by decide +kernel,
   by decide +kernel,
   by decide +kernel,
   by decide +kernel,
   by decide +kernel,
   by decide +kernel,
   by decide +kernel,
   by decide +kernel⟩

/-- States and operands that meet the hypotheses of ManualSwitch. -/
theorem wit_ManualSwitch :
    ((powered v60 = true) ∧ (MatFree v60) ∧ (mayWrite 1 6 = true) ∧ (slowBusy v60 2 = false) ∧
      (tfind v60.regs.pairs 1 = some v59) ∧ (v59.addr = aFeedSelect) ∧ (v59.val = (1 : Word)) ∧
      (sfpDist v59.at_ v60.sfp ≤ (100000 : ℤ)) ∧ (v60.vcp.run = none) ∧ (bit (1 : Word) 0 ≠ v60.pwr.sel) ∧
      (feedGoodOf v60.pwr (bit (1 : Word) 0) = true) ∧ ((0 : Word) ≠ ~~~(1 : Word))) ∧
    ((powered v61 = true) ∧ (MatFree v61) ∧ (mayWrite 1 6 = true) ∧ (slowBusy v61 2 = false) ∧
      (tfind v61.regs.pairs 1 = some v59) ∧ (v59.addr = aFeedSelect) ∧ (v59.val = (1 : Word)) ∧
      (sfpDist v59.at_ v61.sfp ≤ (100000 : ℤ)) ∧ (v61.vcp.run = none) ∧ (bit (1 : Word) 0 ≠ v61.pwr.sel) ∧
      (feedGoodOf v61.pwr (bit (1 : Word) 0) = false) ∧ ((0 : Word) ≠ ~~~(1 : Word))) ∧
    ((powered v63 = true) ∧ (MatFree v63) ∧ (mayWrite 1 6 = true) ∧ (slowBusy v63 2 = false) ∧
      (tfind v63.regs.pairs 1 = some v62) ∧ (v62.addr = aFeedSelect) ∧ (v62.val = (0 : Word)) ∧
      (sfpDist v62.at_ v63.sfp ≤ (100000 : ℤ)) ∧ (v63.vcp.run = none) ∧ (bit (0 : Word) 0 = v63.pwr.sel) ∧
      ((0 : Word) ≠ ~~~(0 : Word))) :=
  ⟨by decide +kernel,
   by decide +kernel,
   by decide +kernel⟩


end Regs

namespace Checks

def cl (n : Nat) (s : State) : State := { s with vcp := { s.vcp with auths := [(0, { enabled := true, cls := n, holder := 7 })] } }
def l2 : Req := rq (zeros 2)
def l3 : Req := rq [0, 7, 0xE]
def resc : State := { atE with seq := { atE.seq with rescue := true } }
def sb : State := { atE with pair := { st := .standby } }
def v1 : Instr := (.mapClearPart l2 [] 0)
def v2 : Run := (rn 0x0304 l2)
def v3 : State := (runs 0x0304 l2 (cl 1 atE))
def v4 : Instr := (.hSlotStats l2)
def v5 : Run := (rn 0x0382 l2)
def v6 : State := (runs 0x0382 l2 (cl 2 atE))
def v7 : Instr := (.protRequest l3)
def v8 : Run := (rn 0x0403 l3)
def v9 : State := (runs 0x0403 l3 (cl 2 atE))
def v10 : State := (runs 0x0304 l2 sb)
def v11 : State := (runs 0x0304 l2 atE)
def gg : Req := rq (zeros 8)
def v12 : Instr := (.devReset gg)
def v13 : Run := (rn 0x010B gg)
def v14 : State := (runs 0x010B gg atE)
def ct : Req := rq [0, 1, 0, 0, 0, 1]
def v15 : Instr := (.ctrRead ct)
def v16 : Run := (rn 0x0801 ct)
def v17 : State := (runs 0x0801 ct resc)
def v20 : Run := { rn 0x0B01 l2 with verdict := none }

/-- States and operands that meet the hypotheses of CommandDispatch. -/
theorem wit_CommandDispatch :
    ((opcodeOf v1 = some (772 : BitVec 16)) ∧ (v1.req = some l2) ∧ (Begun (772 : BitVec 16) l2 v2 v3) ∧
      ((772 : BitVec 16) ≠ (2817 : BitVec 16)) ∧
      ((772 : BitVec 16) = (2818 : BitVec 16) → sfpDist v2.since v3.sfp ≤ (1562500 : ℤ)) ∧
      ((opClasses (BitVec.toNat (772 : BitVec 16))).contains (clsOf v3 v2) = false)) ∧
    ((opcodeOf v4 = some (898 : BitVec 16)) ∧ (v4.req = some l2) ∧ (Begun (898 : BitVec 16) l2 v5 v6) ∧
      ((898 : BitVec 16) ≠ (2817 : BitVec 16)) ∧
      ((898 : BitVec 16) = (2818 : BitVec 16) → sfpDist v5.since v6.sfp ≤ (1562500 : ℤ)) ∧
      ((opClasses (BitVec.toNat (898 : BitVec 16))).contains (clsOf v6 v5) = true) ∧ (clsOf v6 v5 = 2) ∧
      (896 ≤ BitVec.toNat (898 : BitVec 16)) ∧ (BitVec.toNat (898 : BitVec 16) ≤ 898) ∧ (2 ≤ List.length l2.params) ∧
      (pkNat l2.params 0 2 ≠ holderOf v6 v5)) ∧
    ((opcodeOf v7 = some (1027 : BitVec 16)) ∧ (v7.req = some l3) ∧ (Begun (1027 : BitVec 16) l3 v8 v9) ∧
      ((1027 : BitVec 16) ≠ (2817 : BitVec 16)) ∧
      ((1027 : BitVec 16) = (2818 : BitVec 16) → sfpDist v8.since v9.sfp ≤ (1562500 : ℤ)) ∧
      ((opClasses (BitVec.toNat (1027 : BitVec 16))).contains (clsOf v9 v8) = true) ∧ (clsOf v9 v8 = 2) ∧
      (BitVec.toNat (1027 : BitVec 16) = 1027) ∧ (3 ≤ List.length l3.params) ∧
      (pk1 l3.params 2 = 14 ∨ pk1 l3.params 2 = 10)) ∧
    ((opcodeOf v1 = some (772 : BitVec 16)) ∧ (v1.req = some l2) ∧ (Begun (772 : BitVec 16) l2 v2 v10) ∧
      ((772 : BitVec 16) ≠ (2817 : BitVec 16)) ∧
      ((772 : BitVec 16) = (2818 : BitVec 16) → sfpDist v2.since v10.sfp ≤ (1562500 : ℤ)) ∧
      ((opClasses (BitVec.toNat (772 : BitVec 16))).contains (clsOf v10 v2) = true) ∧ (holderCheck v10 v2 = none) ∧
      (isStandby v10 = true) ∧ (opStandby (BitVec.toNat (772 : BitVec 16)) = false)) ∧
    ((opcodeOf v1 = some (772 : BitVec 16)) ∧ (v1.req = some l2) ∧ (Begun (772 : BitVec 16) l2 v2 v11) ∧
      ((772 : BitVec 16) ≠ (2817 : BitVec 16)) ∧
      ((772 : BitVec 16) = (2818 : BitVec 16) → sfpDist v2.since v11.sfp ≤ (1562500 : ℤ)) ∧
      ((opClasses (BitVec.toNat (772 : BitVec 16))).contains (clsOf v11 v2) = true) ∧ (holderCheck v11 v2 = none) ∧
      (isStandby v11 = false ∨ opStandby (BitVec.toNat (772 : BitVec 16)) = true) ∧
      (opLenOk (BitVec.toNat (772 : BitVec 16)) l2.params = false)) ∧
    ((opcodeOf v12 = some (267 : BitVec 16)) ∧ (v12.req = some gg) ∧ (Begun (267 : BitVec 16) gg v13 v14) ∧
      ((267 : BitVec 16) ≠ (2817 : BitVec 16)) ∧
      ((267 : BitVec 16) = (2818 : BitVec 16) → sfpDist v13.since v14.sfp ≤ (1562500 : ℤ)) ∧
      ((opClasses (BitVec.toNat (267 : BitVec 16))).contains (clsOf v14 v13) = true) ∧ (holderCheck v14 v13 = none) ∧
      (isStandby v14 = false ∨ opStandby (BitVec.toNat (267 : BitVec 16)) = true) ∧
      (opLenOk (BitVec.toNat (267 : BitVec 16)) gg.params = true) ∧
      (v14.seq.rescue = false ∨ opRescue (BitVec.toNat (267 : BitVec 16)) = true) ∧
      (opGuarded (BitVec.toNat (267 : BitVec 16)) = true) ∧
      (pkNat gg.params (List.length gg.params - 4) 4 ≠ confirmOf (267 : BitVec 16) gg.seq)) ∧
    ((opcodeOf v15 = some (2049 : BitVec 16)) ∧ (v15.req = some ct) ∧ (Begun (2049 : BitVec 16) ct v16 v17) ∧
      ((2049 : BitVec 16) ≠ (2817 : BitVec 16)) ∧
      ((2049 : BitVec 16) = (2818 : BitVec 16) → sfpDist v16.since v17.sfp ≤ (1562500 : ℤ)) ∧
      ((opClasses (BitVec.toNat (2049 : BitVec 16))).contains (clsOf v17 v16) = true) ∧ (holderCheck v17 v16 = none) ∧
      (isStandby v17 = false ∨ opStandby (BitVec.toNat (2049 : BitVec 16)) = true) ∧
      (opLenOk (BitVec.toNat (2049 : BitVec 16)) ct.params = true) ∧ (v17.seq.rescue = true) ∧
      (opRescue (BitVec.toNat (2049 : BitVec 16)) = false)) ∧
    ((checkCommand v3 v2 = some ((4 : Byte), (1 : Byte)))) :=
  ⟨by decide +kernel,
   by decide +kernel,
   by decide +kernel,
   by decide +kernel,
   by decide +kernel,
   by decide +kernel,
   by decide +kernel,
   by decide +kernel⟩


end Checks

namespace Vcp

def body (v pri hop : Nat) (dest : List Byte) (auth seq op : Nat) (p : Bytes) : Bytes :=
  [by1 v, by1 (pri * 64 + hop)] ++ dest ++ [0, 0] ++ beBytes 2 auth ++ beBytes 4 seq ++ beBytes 2 op ++ beBytes 2 p.length ++ p
def key : Bytes := List.replicate 32 0xAA
def pk (v pri hop : Nat) (dest : List Byte) (p : Bytes) : Bytes := body v pri hop dest 3 9 0x0101 p ++ zeros 16
def gd (v pri hop : Nat) (dest : List Byte) (p : Bytes) : Bytes := body v pri hop dest 3 9 0x0101 p ++ tagFor key (body v pri hop dest 3 9 0x0101 p)
def fe : State := { atE with pins := { devid := 5 }, vcp := { keysLoaded := true, auths := [(3, { enabled := true, key := key, gen := 2 })], relayPorts := 0x60, route := [(7, 5), (8, 6)], dup := [{ auth := 3, seq := 9, at_ := ⟨0x100, 0, 0⟩ }] } }
def mA : Return := { via := .mgmtA, mac := 0x112233445566, vlan := none }
def run1 (s : State) (op : BitVec 16) : State := runs op (rq [] 77) s
def tk : State := put [(aPortCfg 5, 1), (aPortCfg 6, 1)] { fe with ports := [(5, { trunk := { align := .inFrame 0 } })], mgA := { link := true } }
def v1 : Bytes := (pk 0x20 0 0 [0, 5] [])
def v2 : Bytes := (pk 0x14 0 0 [0, 5] [])
def v3 : Bytes := (pk 0x10 0 0 [0, 5] [])
def v4 : Bytes := (gd 0x10 0 0 [0, 5] [1, 2])
def v5 : State := (run1 tk 0x0101)
def v7 : Bytes := (pk 0x10 0 0 [0x80, 5] [])
def v8 : Bytes := (pk 0x10 0 0 [0, 7] [])
def v9 : Bytes := (pk 0x10 2 3 [0, 8] [])
def v10 : Bytes := (pk 0x10 2 3 [0, 7] [])
def v11 : Bytes := []
def ch (h : Nat) : Bytes := by1 h :: (List.range 20).map (fun i => by1 (i + 1))
def go (h : Nat) (bad : Nat := 0) : Block := ohBlock (BitVec.ofNat 56 (beNat [0, 5, 0, 0, 0] * 65536 + ((crc16 (ch h ++ [0, 5, 0, 0, 0])).toNat + bad) % 65536))
def ra (b : Option Bytes) : State := put [(aPortCfg 5, 1)] { fe with ports := [(5, { trunk := { align := .inFrame 0, reasm := b } })] }
def bk (c : Bytes) : List Block := (List.range 3).map (fun i => ohBlock (BitVec.ofNat 56 (beNat (slice c (7 * i) 7))))
def v13 : List Block := bk (ch 0x94)
def v14 : Block := (go 0x94)
def v15 : State := (ra none)
def v16 : List Block := bk (ch 0x14)
def v17 : Block := (go 0x14)
def v18 : State := (ra (some [1, 2, 3]))
def v19 : List Block := bk (ch 0x45)
def v20 : Block := (go 0x45)
def v21 : Block := (go 0x45 1)
def ex : State := { atE with vcp := { relay := [{ auth := 1, seq := 2, ret := mA, at_ := ⟨0x100 - 2981, 0, 0⟩ }, { auth := 1, seq := 3, ret := mA, at_ := ⟨0x100, 0, 0⟩ }]
                                      dup := [{ auth := 1, seq := 2, at_ := ⟨0x100 - 596, 0, 0⟩ }, { auth := 1, seq := 3, at_ := ⟨0x100, 0, 0⟩ }] }, sfp := ⟨0x2000, 0, 0⟩ }
def ey : State := { ex with sfp := ⟨0x100, 5, 0⟩ }
def qd (pri seq : Nat) (op : BitVec 16) (g : BitVec 8 := 2) : Queued := { req := { ret := mA, pri := BitVec.ofNat 2 pri, auth := 3, seq := BitVec.ofNat 32 seq, params := [1] }, op := op, gen := g }
def dq (l : List Queued) (bi : Nat := 8192) : State := { fe with sfp := ⟨0x100, 3, bi⟩, vcp := { fe.vcp with queue := l, replay := [(3, { last := 5, win := 1 })] } }
def v25 : State := (dq [qd 1 9 0x0101] 8193)
def v26 : State := (run1 (dq [qd 1 9 0x0101]) 0x0101)
def v27 : Queued := (qd 2 9 0x0101)
def v28 : State := (dq [qd 1 8 0x0101, qd 2 9 0x0101, qd 2 7 0x0101])
def v29 : Queued := (qd 2 9 0x0FFF)
def v30 : State := (dq [qd 2 9 0x0FFF])
def v31 : Queued := (qd 2 5 0x0101)
def v32 : State := (dq [qd 2 5 0x0101])
def rpl (v : Transport) : Reply := { req := { ret := { via := v }, auth := 3, seq := 4 }, op := 0x0101, status := 0, data := [1, 2], key := key }
def cq (v : Transport) : Run := { req := (rpl v).req, op := 0x0101, accept := ⟨0x100, 0, 0⟩, reply := some (rpl v) }
def o0 : OutPkt := { ret := mA, front := false, bytes := [1, 2, 3] }
def e0 : EvPkt := { pri := 3, cls := 6, seq := 1, sub := 2, at_ := ⟨9, 0, 0⟩, data := [1] }
def c0 : ChanPkt := { pri := 2, bytes := [1] }
def dp (v : Transport) : State := { fe with mgA := { link := true, replies := [o0] }, mgB := { link := true }, vcp := { fe.vcp with run := some (cq v) }, com := { stageOpen := 3 } }
def v35 : Run := (cq .mgmtA)
def v36 : Reply := (rpl .mgmtA)
def v37 : State := (dp .mgmtA)
def v41 : Run := (cq .spi)
def v42 : Reply := (rpl .spi)
def v43 : State := (dp .spi)
def v44 : Bytes := [1]
def v45 : State := { dp .spi with vcp := { (dp .spi).vcp with spiRx := List.replicate 8 [1] } }
def v46 : State := { fe with mgA := { replies := [o0] } }
def ev (tr : Nat) : State := put [(aEvtCfg, tr + 3 * 256 + 0x3FF * 65536)] { fe with mgA := { link := true }, sage := { events := [{ e0 with pri := 2 }, e0] } }
def v47 : State := (ev 1)
def v48 : State := (ev 4)
def tx : State := put [(aPortCfg 5, 1)] { fe with ports := [(5, { txq := [{ pri := 1, bytes := [] }, c0, { pri := 2, bytes := [] }] })] }
def v60 : List Block := bk (ch 0xC7)
def v61 : Block := go 0xC7
/-- In NEAR loopback the chunk is the port's own. -/
def v62 : State := put [(aPortCfg 5, 9)] { fe with ports := [(5, { txChunk := ch 0xC7, txO7 := blkW (go 0xC7), trunk := { align := .inFrame 0 } })] }
def ce (x : EndAct) : Run := { cq .mgmtA with atEnd := some x }
def de (x : EndAct) : State := { dp .mgmtA with vcp := { fe.vcp with run := some (ce x) } }
def e1 : EndAct := .ql 3 4
def e2 : EndAct := .force (some 5)
def e3 : EndAct := .mfc (some 9)
def e5 : EndAct := .request 5 14 false
def e6 : EndAct := .net [3] [(2, 5)] 6
def e7 : EndAct := .devReset true

/-- States and operands that meet the hypotheses of CommandArrival. -/
theorem wit_CommandArrival :
    ((powered tk = true) ∧ (inbandBarred tk mA.via = false) ∧
      (inbandBarred ((waitingPacket tk mA.via).getD ((mA, v1), tk)).2 ((waitingPacket tk mA.via).getD ((mA, v1), tk)).1.1.via = false) ∧
      (vcMalformed ((waitingPacket tk mA.via).getD ((mA, v1), tk)).1.2 = true)) ∧
    ((powered tk = true) ∧ (inbandBarred tk mA.via = false) ∧
      (inbandBarred ((waitingPacket tk mA.via).getD ((mA, v2), tk)).2 ((waitingPacket tk mA.via).getD ((mA, v2), tk)).1.1.via = false) ∧
      (vcMalformed ((waitingPacket tk mA.via).getD ((mA, v2), tk)).1.2 = false) ∧
      (vcEvent ((waitingPacket tk mA.via).getD ((mA, v2), tk)).1.2 = true)) ∧
    ((powered tk = true) ∧ (inbandBarred tk mA.via = false) ∧
      (inbandBarred ((waitingPacket tk mA.via).getD ((mA, v3), tk)).2 ((waitingPacket tk mA.via).getD ((mA, v3), tk)).1.1.via = false) ∧
      (vcMalformed ((waitingPacket tk mA.via).getD ((mA, v3), tk)).1.2 = false) ∧
      (vcEvent ((waitingPacket tk mA.via).getD ((mA, v3), tk)).1.2 = false) ∧
      (vcReply ((waitingPacket tk mA.via).getD ((mA, v3), tk)).1.2 = false) ∧
      (vcGrp ((waitingPacket tk mA.via).getD ((mA, v3), tk)).1.2 = false ∧ vcDest ((waitingPacket tk mA.via).getD ((mA, v3), tk)).1.2 = ((waitingPacket tk mA.via).getD ((mA, v3), tk)).2.pins.devid) ∧
      (((waitingPacket tk mA.via).getD ((mA, v3), tk)).2.vcp.keysLoaded = true) ∧
      (anyEnabled ((waitingPacket tk mA.via).getD ((mA, v3), tk)).2 = true) ∧
      ((authOf ((waitingPacket tk mA.via).getD ((mA, v3), tk)).2 (vcAuth ((waitingPacket tk mA.via).getD ((mA, v3), tk)).1.2).toNat).enabled = true) ∧
      (tagMatches (authOf ((waitingPacket tk mA.via).getD ((mA, v3), tk)).2 (vcAuth ((waitingPacket tk mA.via).getD ((mA, v3), tk)).1.2).toNat).key ((waitingPacket tk mA.via).getD ((mA, v3), tk)).1.2 = false)) ∧
    ((powered tk = true) ∧ (inbandBarred tk mA.via = false) ∧
      (inbandBarred ((waitingPacket tk mA.via).getD ((mA, v4), tk)).2 ((waitingPacket tk mA.via).getD ((mA, v4), tk)).1.1.via = false) ∧
      (vcMalformed ((waitingPacket tk mA.via).getD ((mA, v4), tk)).1.2 = false) ∧
      (vcEvent ((waitingPacket tk mA.via).getD ((mA, v4), tk)).1.2 = false) ∧
      (vcReply ((waitingPacket tk mA.via).getD ((mA, v4), tk)).1.2 = false) ∧
      (vcGrp ((waitingPacket tk mA.via).getD ((mA, v4), tk)).1.2 = false ∧ vcDest ((waitingPacket tk mA.via).getD ((mA, v4), tk)).1.2 = ((waitingPacket tk mA.via).getD ((mA, v4), tk)).2.pins.devid) ∧
      (((waitingPacket tk mA.via).getD ((mA, v4), tk)).2.vcp.keysLoaded = true) ∧
      (anyEnabled ((waitingPacket tk mA.via).getD ((mA, v4), tk)).2 = true) ∧
      ((authOf ((waitingPacket tk mA.via).getD ((mA, v4), tk)).2 (vcAuth ((waitingPacket tk mA.via).getD ((mA, v4), tk)).1.2).toNat).enabled = true) ∧
      (tagMatches (authOf ((waitingPacket tk mA.via).getD ((mA, v4), tk)).2 (vcAuth ((waitingPacket tk mA.via).getD ((mA, v4), tk)).1.2).toNat).key ((waitingPacket tk mA.via).getD ((mA, v4), tk)).1.2 = true) ∧
      (busyNow ((waitingPacket tk mA.via).getD ((mA, v4), tk)).2 = none) ∧
      (((waitingPacket tk mA.via).getD ((mA, v4), tk)).2.vcp.queue.length < 8)) ∧
    ((powered v5 = true) ∧ (inbandBarred v5 mA.via = false) ∧
      (inbandBarred ((waitingPacket v5 mA.via).getD ((mA, v4), v5)).2 ((waitingPacket v5 mA.via).getD ((mA, v4), v5)).1.1.via = false) ∧
      (vcMalformed ((waitingPacket v5 mA.via).getD ((mA, v4), v5)).1.2 = false) ∧
      (vcEvent ((waitingPacket v5 mA.via).getD ((mA, v4), v5)).1.2 = false) ∧
      (vcReply ((waitingPacket v5 mA.via).getD ((mA, v4), v5)).1.2 = false) ∧
      (vcGrp ((waitingPacket v5 mA.via).getD ((mA, v4), v5)).1.2 = false ∧ vcDest ((waitingPacket v5 mA.via).getD ((mA, v4), v5)).1.2 = ((waitingPacket v5 mA.via).getD ((mA, v4), v5)).2.pins.devid) ∧
      (((waitingPacket v5 mA.via).getD ((mA, v4), v5)).2.vcp.keysLoaded = true) ∧
      (anyEnabled ((waitingPacket v5 mA.via).getD ((mA, v4), v5)).2 = true) ∧
      ((authOf ((waitingPacket v5 mA.via).getD ((mA, v4), v5)).2 (vcAuth ((waitingPacket v5 mA.via).getD ((mA, v4), v5)).1.2).toNat).enabled = true) ∧
      (tagMatches (authOf ((waitingPacket v5 mA.via).getD ((mA, v4), v5)).2 (vcAuth ((waitingPacket v5 mA.via).getD ((mA, v4), v5)).1.2).toNat).key ((waitingPacket v5 mA.via).getD ((mA, v4), v5)).1.2 = true) ∧
      (((waitingPacket v5 mA.via).getD ((mA, v4), v5)).2.phase = Phase.ready) ∧
      (((waitingPacket v5 mA.via).getD ((mA, v4), v5)).2.seq.running = true) ∧
      (((waitingPacket v5 mA.via).getD ((mA, v4), v5)).2.vcp.run.isSome = true)) ∧
    ((powered tk = true) ∧ (inbandBarred tk mA.via = false) ∧
      (inbandBarred ((waitingPacket tk mA.via).getD ((mA, v7), tk)).2 ((waitingPacket tk mA.via).getD ((mA, v7), tk)).1.1.via = false) ∧
      (vcMalformed ((waitingPacket tk mA.via).getD ((mA, v7), tk)).1.2 = false) ∧
      (vcEvent ((waitingPacket tk mA.via).getD ((mA, v7), tk)).1.2 = false) ∧
      (vcReply ((waitingPacket tk mA.via).getD ((mA, v7), tk)).1.2 = false) ∧
      (vcGrp ((waitingPacket tk mA.via).getD ((mA, v7), tk)).1.2 = true) ∧
      (dupHeld ((waitingPacket tk mA.via).getD ((mA, v7), tk)).2 ((waitingPacket tk mA.via).getD ((mA, v7), tk)).1.2 = true)) ∧
    ((powered tk = true) ∧ (inbandBarred tk mA.via = false) ∧
      (inbandBarred ((waitingPacket tk mA.via).getD ((mA, v8), tk)).2 ((waitingPacket tk mA.via).getD ((mA, v8), tk)).1.1.via = false) ∧
      (vcMalformed ((waitingPacket tk mA.via).getD ((mA, v8), tk)).1.2 = false) ∧
      (vcEvent ((waitingPacket tk mA.via).getD ((mA, v8), tk)).1.2 = false) ∧
      (vcReply ((waitingPacket tk mA.via).getD ((mA, v8), tk)).1.2 = false) ∧
      (vcGrp ((waitingPacket tk mA.via).getD ((mA, v8), tk)).1.2 = false) ∧
      (vcDest ((waitingPacket tk mA.via).getD ((mA, v8), tk)).1.2 ≠ ((waitingPacket tk mA.via).getD ((mA, v8), tk)).2.pins.devid) ∧
      (holdsLines ((waitingPacket tk mA.via).getD ((mA, v8), tk)).2 = true) ∧
      (vcHop ((waitingPacket tk mA.via).getD ((mA, v8), tk)).1.2 = 0)) ∧
    ((powered tk = true) ∧ (inbandBarred tk mA.via = false) ∧
      (inbandBarred ((waitingPacket tk mA.via).getD ((mA, v9), tk)).2 ((waitingPacket tk mA.via).getD ((mA, v9), tk)).1.1.via = false) ∧
      (vcMalformed ((waitingPacket tk mA.via).getD ((mA, v9), tk)).1.2 = false) ∧
      (vcEvent ((waitingPacket tk mA.via).getD ((mA, v9), tk)).1.2 = false) ∧
      (vcReply ((waitingPacket tk mA.via).getD ((mA, v9), tk)).1.2 = false) ∧
      (vcGrp ((waitingPacket tk mA.via).getD ((mA, v9), tk)).1.2 = false) ∧
      (vcDest ((waitingPacket tk mA.via).getD ((mA, v9), tk)).1.2 ≠ ((waitingPacket tk mA.via).getD ((mA, v9), tk)).2.pins.devid) ∧
      (holdsLines ((waitingPacket tk mA.via).getD ((mA, v9), tk)).2 = true) ∧
      (vcHop ((waitingPacket tk mA.via).getD ((mA, v9), tk)).1.2 ≠ 0) ∧
      (relayPort ((waitingPacket tk mA.via).getD ((mA, v9), tk)).2 (routeOf ((waitingPacket tk mA.via).getD ((mA, v9), tk)).2 (vcDest ((waitingPacket tk mA.via).getD ((mA, v9), tk)).1.2)) = false)) ∧
    ((powered tk = true) ∧ (inbandBarred tk mA.via = false) ∧
      (inbandBarred ((waitingPacket tk mA.via).getD ((mA, v10), tk)).2 ((waitingPacket tk mA.via).getD ((mA, v10), tk)).1.1.via = false) ∧
      (vcMalformed ((waitingPacket tk mA.via).getD ((mA, v10), tk)).1.2 = false) ∧
      (vcEvent ((waitingPacket tk mA.via).getD ((mA, v10), tk)).1.2 = false) ∧
      (vcReply ((waitingPacket tk mA.via).getD ((mA, v10), tk)).1.2 = false) ∧
      (vcGrp ((waitingPacket tk mA.via).getD ((mA, v10), tk)).1.2 = false) ∧
      (vcDest ((waitingPacket tk mA.via).getD ((mA, v10), tk)).1.2 ≠ ((waitingPacket tk mA.via).getD ((mA, v10), tk)).2.pins.devid) ∧
      (holdsLines ((waitingPacket tk mA.via).getD ((mA, v10), tk)).2 = true) ∧
      (vcHop ((waitingPacket tk mA.via).getD ((mA, v10), tk)).1.2 ≠ 0) ∧
      (relayPort ((waitingPacket tk mA.via).getD ((mA, v10), tk)).2 (routeOf ((waitingPacket tk mA.via).getD ((mA, v10), tk)).2 (vcDest ((waitingPacket tk mA.via).getD ((mA, v10), tk)).1.2)) = true) ∧
      (routeOf ((waitingPacket tk mA.via).getD ((mA, v10), tk)).2 (vcDest ((waitingPacket tk mA.via).getD ((mA, v10), tk)).1.2) = 5) ∧
      (viaInband ((waitingPacket tk mA.via).getD ((mA, v10), tk)).1.1.via = false) ∧
      (((waitingPacket tk mA.via).getD ((mA, v10), tk)).2.vcp.relay.length < 64) ∧
      ((portOf ((waitingPacket tk mA.via).getD ((mA, v10), tk)).2 5).txq.length + b2n (portOf ((waitingPacket tk mA.via).getD ((mA, v10), tk)).2 5).txNow.isSome < 8)) ∧
    ((powered v15 = true) ∧ (isTrunk v15 5 = true) ∧ (inFrame (portOf v15 5).trunk = true) ∧
      (((rxChunk v15 5 v13).1 && o7Good (rxChunk v15 5 v13).2 (rxOverhead v15 5 (portOf v15 5).txO7 v14)) = true) ∧
      (bits (List.getD (rxChunk v15 5 v13).2 0 (0 : Byte)) 4 0 ≤ 20) ∧
      (bit (List.getD (rxChunk v15 5 v13).2 0 (0 : Byte)) 7 = true) ∧
      (bit (List.getD (rxChunk v15 5 v13).2 0 (0 : Byte)) 6 = false) ∧ ((portOf v15 5).trunk.reasm = none) ∧
      (0 < v15.vcp.dup.length) ∧
      (sfpDist (v15.vcp.dup.getD 0 { auth := (0 : BitVec 6), seq := (0 : BitVec 32), at_ := { } }).at_ v15.sfp < (3125000000 : ℤ)) ∧
      (v15.vcp.spiBuf = none) ∧ (0 = List.length v11) ∧ (0 ≤ 1500)) ∧
    ((powered v15 = true) ∧ (isTrunk v15 5 = true) ∧ (inFrame (portOf v15 5).trunk = true) ∧
      (((rxChunk v15 5 v60).1 && o7Good (rxChunk v15 5 v60).2 (rxOverhead v15 5 (portOf v15 5).txO7 v61)) = true) ∧
      (bits (List.getD (rxChunk v15 5 v60).2 0 (0 : Byte)) 4 0 ≤ 20) ∧
      (bit (List.getD (rxChunk v15 5 v60).2 0 (0 : Byte)) 7 = true) ∧
      (bit (List.getD (rxChunk v15 5 v60).2 0 (0 : Byte)) 6 = true) ∧ ((portOf v15 5).trunk.reasm = none) ∧
      (0 < v15.vcp.dup.length) ∧
      (sfpDist (v15.vcp.dup.getD 0 { auth := (0 : BitVec 6), seq := (0 : BitVec 32), at_ := { } }).at_ v15.sfp < (3125000000 : ℤ)) ∧
      (v15.vcp.spiBuf = none) ∧ (0 = List.length v11) ∧ (0 ≤ 1500)) ∧
    ((powered v62 = true) ∧ (isTrunk v62 5 = true) ∧ (inFrame (portOf v62 5).trunk = true) ∧
      (((rxChunk v62 5 []).1 && o7Good (rxChunk v62 5 []).2 (rxOverhead v62 5 (portOf v62 5).txO7 { })) = true) ∧
      (bits (List.getD (rxChunk v62 5 []).2 0 (0 : Byte)) 4 0 ≤ 20) ∧
      (bit (List.getD (rxChunk v62 5 []).2 0 (0 : Byte)) 7 = true) ∧
      (bit (List.getD (rxChunk v62 5 []).2 0 (0 : Byte)) 6 = true) ∧ ((portOf v62 5).trunk.reasm = none) ∧
      (0 < v62.vcp.dup.length) ∧
      (sfpDist (v62.vcp.dup.getD 0 { auth := (0 : BitVec 6), seq := (0 : BitVec 32), at_ := { } }).at_ v62.sfp < (3125000000 : ℤ)) ∧
      (v62.vcp.spiBuf = none) ∧ (0 = List.length v11) ∧ (0 ≤ 1500)) ∧
    ((powered v18 = true) ∧ (isTrunk v18 5 = true) ∧ (inFrame (portOf v18 5).trunk = true) ∧
      (((rxChunk v18 5 v16).1 && o7Good (rxChunk v18 5 v16).2 (rxOverhead v18 5 (portOf v18 5).txO7 v17)) = true) ∧
      (bits (List.getD (rxChunk v18 5 v16).2 0 (0 : Byte)) 4 0 ≤ 20) ∧
      (bit (List.getD (rxChunk v18 5 v16).2 0 (0 : Byte)) 7 = false) ∧
      (bit (List.getD (rxChunk v18 5 v16).2 0 (0 : Byte)) 6 = false) ∧
      (bits (List.getD (rxChunk v18 5 v16).2 0 (0 : Byte)) 4 0 = 20) ∧
      ((portOf v18 5).trunk.reasm = some ((portOf v18 5).trunk.reasm.getD [])) ∧
      (List.length ((portOf v18 5).trunk.reasm.getD []) + 20 ≤ 2048) ∧ (0 < v18.vcp.dup.length) ∧
      (sfpDist (v18.vcp.dup.getD 0 { auth := (0 : BitVec 6), seq := (0 : BitVec 32), at_ := { } }).at_ v18.sfp < (3125000000 : ℤ)) ∧
      (v18.vcp.spiBuf = none) ∧ (0 = List.length v11) ∧ (0 ≤ 1500)) ∧
    ((powered v18 = true) ∧ (isTrunk v18 5 = true) ∧ (inFrame (portOf v18 5).trunk = true) ∧
      (((rxChunk v18 5 v19).1 && o7Good (rxChunk v18 5 v19).2 (rxOverhead v18 5 (portOf v18 5).txO7 v20)) = true) ∧
      (bits (List.getD (rxChunk v18 5 v19).2 0 (0 : Byte)) 4 0 ≤ 20) ∧
      (bit (List.getD (rxChunk v18 5 v19).2 0 (0 : Byte)) 7 = false) ∧
      (bit (List.getD (rxChunk v18 5 v19).2 0 (0 : Byte)) 6 = true) ∧
      ((portOf v18 5).trunk.reasm = some ((portOf v18 5).trunk.reasm.getD [])) ∧
      (List.length ((portOf v18 5).trunk.reasm.getD []) + bits (List.getD (rxChunk v18 5 v19).2 0 (0 : Byte)) 4 0 ≤ 2048) ∧
      (0 < v18.vcp.dup.length) ∧
      (sfpDist (v18.vcp.dup.getD 0 { auth := (0 : BitVec 6), seq := (0 : BitVec 32), at_ := { } }).at_ v18.sfp < (3125000000 : ℤ)) ∧
      (v18.vcp.spiBuf = none) ∧ (0 = List.length v11) ∧ (0 ≤ 1500)) ∧
    ((powered v18 = true) ∧ (isTrunk v18 5 = true) ∧ (inFrame (portOf v18 5).trunk = true) ∧
      (((rxChunk v18 5 v19).1 && o7Good (rxChunk v18 5 v19).2 (rxOverhead v18 5 (portOf v18 5).txO7 v21)) = false) ∧
      ((portOf v18 5).trunk.reasm.isSome = true) ∧ (0 < v18.vcp.dup.length) ∧
      (sfpDist (v18.vcp.dup.getD 0 { auth := (0 : BitVec 6), seq := (0 : BitVec 32), at_ := { } }).at_ v18.sfp < (3125000000 : ℤ)) ∧
      (v18.vcp.spiBuf = none) ∧ (0 = List.length v11) ∧ (0 ≤ 1500)) ∧
    ((powered ex = true) ∧ (0 < ex.vcp.relay.length) ∧
      ((15625000000 : ℤ) ≤ sfpDist (ex.vcp.relay.getD 0 { auth := (0 : BitVec 6), seq := (0 : BitVec 32), ret := { via := Transport.spi }, at_ := { } }).at_ ex.sfp) ∧
      (0 < ex.vcp.dup.length) ∧
      ((3125000000 : ℤ) ≤ sfpDist (ex.vcp.dup.getD 0 { auth := (0 : BitVec 6), seq := (0 : BitVec 32), at_ := { } }).at_ ex.sfp) ∧
      (ex.vcp.spiBuf = none) ∧ (0 = List.length v11) ∧ (0 ≤ 1500)) ∧
    ((powered ey = true) ∧ (1 < ey.vcp.relay.length) ∧
      (sfpDist (ey.vcp.relay.getD 1 { auth := (0 : BitVec 6), seq := (0 : BitVec 32), ret := { via := Transport.spi }, at_ := { } }).at_ ey.sfp < (15625000000 : ℤ)) ∧
      (1 < ey.vcp.dup.length) ∧
      (sfpDist (ey.vcp.dup.getD 1 { auth := (0 : BitVec 6), seq := (0 : BitVec 32), at_ := { } }).at_ ey.sfp < (3125000000 : ℤ)) ∧
      (ey.vcp.spiBuf.isSome = true ∨ 1501 ≠ [(1 : Byte)].length ∨ 1500 < 1501)) :=
  ⟨by decide +kernel,
   by decide +kernel,
   by decide +kernel,
   by decide +kernel,
   by decide +kernel,
   by decide +kernel,
   by decide +kernel,
   by decide +kernel,
   by decide +kernel,
   by decide +kernel,
   by decide +kernel,
   by decide +kernel,
   by decide +kernel,
   by decide +kernel,
   by decide +kernel,
   by decide +kernel,
   by decide +kernel⟩

/-- States and operands that meet the hypotheses of CommandDispatch. -/
theorem wit_CommandDispatch :
    ((powered v25 = true) ∧ (v25.sfp.bi % 8192 ≠ 0)) ∧
    ((powered v26 = true) ∧ ((busyNow v26).isSome = true)) ∧
    ((powered v28 = true) ∧ (v28.sfp.bi % 8192 = 0) ∧ (busyNow v28 = none) ∧ (queueBest v28.vcp.queue = some v27) ∧
      ((authOf v28 v27.req.auth.toNat).gen = v27.gen) ∧
      ((seqTake (replayOf v28 v27.req.auth.toNat) v27.req.seq).isSome = true) ∧ (opDefined v27.op.toNat = true)) ∧
    ((powered v30 = true) ∧ (v30.sfp.bi % 8192 = 0) ∧ (busyNow v30 = none) ∧ (queueBest v30.vcp.queue = some v29) ∧
      ((authOf v30 v29.req.auth.toNat).gen = v29.gen) ∧
      ((seqTake (replayOf v30 v29.req.auth.toNat) v29.req.seq).isSome = true) ∧ (opDefined v29.op.toNat = false)) ∧
    ((powered v32 = true) ∧ (v32.sfp.bi % 8192 = 0) ∧ (busyNow v32 = none) ∧ (queueBest v32.vcp.queue = some v31) ∧
      ((authOf v32 v31.req.auth.toNat).gen = v31.gen) ∧ (seqTake (replayOf v32 v31.req.auth.toNat) v31.req.seq = none)) :=
  ⟨by decide +kernel,
   by decide +kernel,
   by decide +kernel,
   by decide +kernel,
   by decide +kernel⟩

/-- States and operands that meet the hypotheses of CommandDeparture. -/
theorem wit_CommandDeparture :
    ((powered v37 = true) ∧ (v37.vcp.run = some v35) ∧ (v35.reply = some v36) ∧
      (v36.req.ret.via = if isB MgPort.a = true then Transport.mgmtB else Transport.mgmtA) ∧
      ((mgOf v37 (isB MgPort.a)).link = true) ∧ ((mgOf v37 (isB MgPort.a)).replies.length < 32) ∧ (v35.atEnd = none) ∧
      ((mgOf v37 (isB MgPort.a)).replies.head? = some o0) ∧ (∀ (k : Fin 8), bankSt v37 1 ↑k = BankSt.on) ∧
      (v37.mem.ecc = []) ∧ (v37.vcp.spiRx = [])) ∧
    ((powered v43 = true) ∧ (v43.vcp.run = some v41) ∧ (v41.reply = some v42) ∧ (v42.req.ret.via = Transport.spi) ∧
      (v43.vcp.spiRx.length < 8) ∧ (v41.atEnd = none) ∧ ((mgOf v43 (isB MgPort.a)).replies.head? = some o0) ∧
      ((mgOf v43 (isB MgPort.a)).link = true) ∧ (∀ (k : Fin 8), bankSt v43 1 ↑k = BankSt.on) ∧ (v43.mem.ecc = []) ∧
      (v43.vcp.spiRx = [])) ∧
    ((powered v45 = true) ∧ (v45.vcp.run = some v41) ∧ (v41.reply = some v42) ∧ (v42.req.ret.via = Transport.spi) ∧
      (8 ≤ v45.vcp.spiRx.length) ∧ (v41.atEnd = none) ∧ ((mgOf v45 (isB MgPort.a)).replies.head? = some o0) ∧
      ((mgOf v45 (isB MgPort.a)).link = true) ∧ (∀ (k : Fin 8), bankSt v45 1 ↑k = BankSt.on) ∧ (v45.mem.ecc = []) ∧
      (v45.vcp.spiRx.head? = some v44)) ∧
    ((powered v46 = true) ∧ ((mgOf v46 (isB MgPort.a)).replies.head? = some o0) ∧
      ((mgOf v46 (isB MgPort.a)).link = false) ∧ (v46.vcp.spiRx = [])) ∧
    ((powered v47 = true) ∧ (eventHead v47.sage.events = some e0) ∧ (evAuthOk v47 = true) ∧
      (evPorts (actv v47) = [isB MgPort.a]) ∧ ((mgOf v47 (isB MgPort.a)).link = true) ∧
      ((mgOf v47 (isB MgPort.a)).replies = []) ∧ (v47.vcp.spiRx = [])) ∧
    ((powered v48 = true) ∧ (eventHead v48.sage.events = some e0) ∧ (evAuthOk v48 = true) ∧
      (evTransport (actv v48) = 4) ∧ (v48.vcp.spiRx.length < 8) ∧ (v48.vcp.spiRx = [])) ∧
    ((powered tx = true) ∧ (isTrunk tx 5 = true) ∧ ((portOf tx 5).txNow = none) ∧ (c0 ∈ (portOf tx 5).txq) ∧
      (∀ x ∈ (portOf tx 5).txq, x.pri ≤ c0.pri) ∧
      (List.find? (fun (x : ChanPkt) => x.pri == c0.pri) (portOf tx 5).txq = some c0) ∧ (tx.vcp.spiRx = [])) ∧
    ((powered (de e1) = true) ∧ ((de e1).vcp.run = some (ce e1)) ∧ ((ce e1).reply = some (rpl Transport.mgmtA)) ∧
      ((rpl Transport.mgmtA).req.ret.via = if isB MgPort.a = true then Transport.mgmtB else Transport.mgmtA) ∧
      ((mgOf (de e1) (isB MgPort.a)).link = true) ∧ ((mgOf (de e1) (isB MgPort.a)).replies.length < 32) ∧
      ((mgOf (de e1) (isB MgPort.a)).replies.head? = some o0) ∧ (∀ (k : Fin 8), bankSt (de e1) 1 ↑k = BankSt.on) ∧
      ((de e1).mem.ecc = []) ∧ ((de e1).vcp.spiRx = [])) ∧
    ((powered (de e2) = true) ∧ ((de e2).vcp.run = some (ce e2)) ∧ ((ce e2).reply = some (rpl Transport.mgmtA)) ∧
      ((rpl Transport.mgmtA).req.ret.via = if isB MgPort.a = true then Transport.mgmtB else Transport.mgmtA) ∧
      ((mgOf (de e2) (isB MgPort.a)).link = true) ∧ ((mgOf (de e2) (isB MgPort.a)).replies.length < 32) ∧
      ((mgOf (de e2) (isB MgPort.a)).replies.head? = some o0) ∧ (∀ (k : Fin 8), bankSt (de e2) 1 ↑k = BankSt.on) ∧
      ((de e2).mem.ecc = []) ∧ ((de e2).vcp.spiRx = [])) ∧
    ((powered (de e3) = true) ∧ ((de e3).vcp.run = some (ce e3)) ∧ ((ce e3).reply = some (rpl Transport.mgmtA)) ∧
      ((rpl Transport.mgmtA).req.ret.via = if isB MgPort.a = true then Transport.mgmtB else Transport.mgmtA) ∧
      ((mgOf (de e3) (isB MgPort.a)).link = true) ∧ ((mgOf (de e3) (isB MgPort.a)).replies.length < 32) ∧
      ((mgOf (de e3) (isB MgPort.a)).replies.head? = some o0) ∧ (∀ (k : Fin 8), bankSt (de e3) 1 ↑k = BankSt.on) ∧
      ((de e3).mem.ecc = []) ∧ ((de e3).vcp.spiRx = [])) ∧
    ((powered (de EndAct.realign) = true) ∧ ((de EndAct.realign).vcp.run = some (ce EndAct.realign)) ∧
      ((ce EndAct.realign).reply = some (rpl Transport.mgmtA)) ∧
      ((rpl Transport.mgmtA).req.ret.via = if isB MgPort.a = true then Transport.mgmtB else Transport.mgmtA) ∧
      ((mgOf (de EndAct.realign) (isB MgPort.a)).link = true) ∧
      ((mgOf (de EndAct.realign) (isB MgPort.a)).replies.length < 32) ∧
      ((ce EndAct.realign).atEnd = some EndAct.realign) ∧
      ((mgOf (de EndAct.realign) (isB MgPort.a)).replies.head? = some o0) ∧
      (∀ (k : Fin 8), bankSt (de EndAct.realign) 1 ↑k = BankSt.on) ∧ ((de EndAct.realign).mem.ecc = []) ∧
      ((de EndAct.realign).vcp.spiRx = [])) ∧
    ((powered (de e5) = true) ∧ ((de e5).vcp.run = some (ce e5)) ∧ ((ce e5).reply = some (rpl Transport.mgmtA)) ∧
      ((rpl Transport.mgmtA).req.ret.via = if isB MgPort.a = true then Transport.mgmtB else Transport.mgmtA) ∧
      ((mgOf (de e5) (isB MgPort.a)).link = true) ∧ ((mgOf (de e5) (isB MgPort.a)).replies.length < 32) ∧
      ((mgOf (de e5) (isB MgPort.a)).replies.head? = some o0) ∧ (∀ (k : Fin 8), bankSt (de e5) 1 ↑k = BankSt.on) ∧
      ((de e5).mem.ecc = []) ∧ ((de e5).vcp.spiRx = [])) ∧
    ((powered (de e6) = true) ∧ ((de e6).vcp.run = some (ce e6)) ∧ ((ce e6).reply = some (rpl Transport.mgmtA)) ∧
      ((rpl Transport.mgmtA).req.ret.via = if isB MgPort.a = true then Transport.mgmtB else Transport.mgmtA) ∧
      ((mgOf (de e6) (isB MgPort.a)).link = true) ∧ ((mgOf (de e6) (isB MgPort.a)).replies.length < 32) ∧
      ((mgOf (de e6) (isB MgPort.a)).replies.head? = some o0) ∧ (∀ (k : Fin 8), bankSt (de e6) 1 ↑k = BankSt.on) ∧
      ((de e6).mem.ecc = []) ∧ ((de e6).vcp.spiRx = [])) ∧
    ((powered (de e7) = true) ∧ ((de e7).vcp.run = some (ce e7)) ∧ ((ce e7).reply = some (rpl Transport.mgmtA)) ∧
      ((rpl Transport.mgmtA).req.ret.via = if isB MgPort.a = true then Transport.mgmtB else Transport.mgmtA) ∧
      ((mgOf (de e7) (isB MgPort.a)).link = true) ∧ ((mgOf (de e7) (isB MgPort.a)).replies.length < 32) ∧
      ((mgOf (de e7) (isB MgPort.a)).replies.head? = some o0) ∧ (∀ (k : Fin 8), bankSt (de e7) 1 ↑k = BankSt.on) ∧
      ((de e7).mem.ecc = []) ∧ ((de e7).vcp.spiRx = [])) :=
  ⟨by decide +kernel,
   by decide +kernel,
   by decide +kernel,
   by decide +kernel,
   by decide +kernel,
   by decide +kernel,
   by decide +kernel,
   by decide +kernel,
   by decide +kernel,
   by decide +kernel,
   by decide +kernel,
   by decide +kernel,
   by decide +kernel,
   by decide +kernel⟩


end Vcp

namespace Boundary

def fr (dst : Bytes) (ty : Nat) (p : Bytes) : MgFrame :=
  let b := dst ++ [1, 2, 3, 4, 5, 6] ++ beBytes 2 ty ++ p
  let c := b ++ zeros (60 - b.length)
  { bytes := c ++ fcsBytes c, symbolErrs := 0 }
def bc : Bytes := List.replicate 6 0xFF
def pkt (pri : Nat) : Bytes := [0x10, by1 (pri * 64), 0, 5] ++ zeros 12 ++ zeros 16
def up : State := { atE with mgA := { link := true }, mgB := { link := true } }
def v1 : MgFrame := { bytes := zeros 63, symbolErrs := 0 }
def v2 : MgFrame := { bytes := zeros 1523, symbolErrs := 0 }
def v3 : MgFrame := { bytes := zeros 64, symbolErrs := 0 }
def v4 : MgFrame := (fr bc 0x0800 [])
def v5 : MgFrame := (fr bc 0x88B5 (pkt 1))
def v7 : State := { up with mgA := { link := true, throttled := true, admitted := 64 } }
def v8 : MgFrame := (fr bc 0x88B5 (pkt 2))
def full : List (Return × Bytes) := List.replicate 16 ({ via := .mgmtA }, pkt 0)
def v9 : State := { up with mgA := { link := true, fifo := full } }
def en (m : MgSt) (e0 : Nat := 0) : State := { atE with mgA := { m with eff := [(0, word (1 + e0))] ++ m.eff }, epochDone := some ⟨0x100, 0, 0⟩, frameDone := some ⟨0x100, 0, 0⟩ }
def v11 : State := (en {})
def v12 : State := (en { link := true, search10g := false })
def v13 : State := (en { search10g := false, searchAge := 65 })
def v14 : State := (en { link := true, mode := 1, speed := 2, quiet := 65535, eff := [(4, 0x503201)] })
def v15 : State := (en { relink := some (1, some 0), eff := [(4, 0x503201)] })
def v16 : State := (en { throttled := true, relNow := true })
def v17 : State := (en { throttled := true, limAge := 65536, eff := [(0x30, 0x00640040)] })
def v18 : State := (en { throttled := true, limAge := 100, eff := [(0x30, 0x00640040)] })
def mh (h : MgShSt) : State := { atE with mgSh := h }
def v19 : Sfp := ⟨0x100, 0, 0⟩
def v20 : State := (mh { snapPend := some (⟨0x100, 0, 0⟩, true, false) })
def v21 : Sfp := ⟨0x100, 1, 0⟩
def v22 : State := (mh { snapPend := some (⟨0x100, 1, 0⟩, true, true) })
def v23 : State := (mh { mdio := some 0xA0000000 })
def v24 : State := (mh { mdio := some 0x90000000 })
def sg (g : SageSt) : State := { atE with sage := g }
def r0 : TraceRec := { cls := 4, sub := 1, at_ := ⟨5, 0, 0⟩ }
def v26 : State := (sg { fifo := [(70000, r0), (70001, {})] })
def v27 : Sfp := ⟨3, 0, 0⟩
def v28 : State := (sg { fifo := [(65537, r0)], holes := [(65536, ⟨3, 0, 0⟩)] })
def v29 : State := (sg { sweep := some (0x50, 0, 0) })
def b0 : Bytes := by1 0x11 :: zeros 40
def v30 : State := (put [(aTraceTx, 1)] (sg { txBuf := [zeros 30, b0] }))
def v31 : Sfp := ⟨7, 0, 5⟩
def v32 : State := (sg { wraps := [(1, ⟨6, 0, 0⟩), (33, ⟨7, 0, 5⟩)] })
def v33 : State := { atE with ports := [(5, { bwLeft := some 0, bwIn := 7, bwEg := 8 })] }
def q0 : Run := rn 0x0903 (rq [1, 3, 2, 0])
def pn (src dst : Nat) : State := { runs 0x0903 (rq [1, 3, 2, 0]) atE with mem := { scratch := [(3, .moving src dst)], powerWait := some (1, 3), bytes := [(0x18001, 5), (7, 7)], ecc := [(0x100000008, 1)] } }
def v35 : State := (pn 0 2)
def v37 : State := (pn 2 1)
def v38 : State := { atE with mem := { scratch := [(4, .moving 2 0)], wram := [(15, .ret)] }, regs := { gw := [(aSys + 0x30, 1)] } }
def v39 : State := { atE with map := { lines := [(1, (7, 100))], lineMem := [(1, [{}, {}, {}])] } }
def v40 : State := (put [(aGpioFunc 15, 4)] { atE with sfp := ⟨0x100, 1, 0⟩, pins := { switching := [(15, 2)] } })
def bd : State := put [(aPortCfg 5, 1), (aGpioOut, 0xA5A5), (aMg true 8, 0x33)] { atE with ports := [(5, { bwLeft := some 7 }), (6, {})], grps := [(3, { en := true, apsAge := 2 })] , sfp := ⟨0x3A0C11F0, 0, 0⟩ }
def v41 : FrameIn := { gpio := 0x1234, feedA := 48000, feedB := 47000 }
def v42 : FrameIn := { gpio := 0x1234, monFault := true }
def v43 : State := { bd with frameDone := some bd.sfp, epochDone := some bd.sfp }
def v44 : State := { bd with sfp := ⟨9, 31, 0⟩ }
def v45 : State := { bd with sfp := ⟨9, 0, 0⟩ }
def v46 : State := (mh { snapPend := some (⟨0x100, 0, 0⟩, false, true) })
def bu : State := { bd with map := { ecc := [(eccKey false (0x8000 + 5), 2)] } }
def v47 : State := { v39 with map := { v39.map with lineMem := [(1, [{}, {}, {}])] } }

/-- States and operands that meet the hypotheses of ManagementPorts. -/
theorem wit_ManagementPorts :
    ((powered atE = true) ∧ (v1.symbolErrs = 0) ∧ ((mgOf atE (isB MgPort.a)).link = false)) ∧
    ((powered up = true) ∧ (v1.symbolErrs = 0) ∧ ((mgOf up (isB MgPort.a)).link = true) ∧ (List.length v1.bytes < 64)) ∧
    ((powered up = true) ∧ (v2.symbolErrs = 0) ∧ ((mgOf up (isB MgPort.b)).link = true) ∧ (1522 < List.length v2.bytes)) ∧
    ((powered up = true) ∧ (v3.symbolErrs = 0) ∧ ((mgOf up (isB MgPort.a)).link = true) ∧ (64 ≤ List.length v3.bytes) ∧
      (List.length v3.bytes ≤ 1522) ∧ (fcsOk v3.bytes = false)) ∧
    ((powered up = true) ∧ (v4.symbolErrs = 0) ∧ ((mgOf up (isB MgPort.a)).link = true) ∧ (64 ≤ List.length v4.bytes) ∧
      (List.length v4.bytes ≤ 1522) ∧ (fcsOk v4.bytes = true) ∧ (pkNat v4.bytes 12 2 ≠ 34824) ∧
      (macPasses up (isB MgPort.a) (slice v4.bytes 0 6) = true) ∧ (pkNat v4.bytes (typeAt v4.bytes) 2 ≠ 34997)) ∧
    ((powered up = true) ∧ (v5.symbolErrs = 0) ∧ ((mgOf up (isB MgPort.a)).link = true) ∧ (64 ≤ List.length v5.bytes) ∧
      (List.length v5.bytes ≤ 1522) ∧ (fcsOk v5.bytes = true) ∧ (pkNat v5.bytes 12 2 ≠ 34824) ∧
      (macPasses up (isB MgPort.a) (slice v5.bytes 0 6) = true) ∧ (pkNat v5.bytes (typeAt v5.bytes) 2 = 34997) ∧
      (∀ (j : Fin 8), bankSt up 1 ↑j = BankSt.on) ∧
      ((mgOf up (isB MgPort.a)).throttled = false ∨ vcPri (vcpOf v5.bytes) = (3 : BitVec 2) ∨ (mgOf up (isB MgPort.a)).admitted < thrRate up (isB MgPort.a)) ∧
      ((mgOf up (isB MgPort.a)).fifo.length < 16)) ∧
    ((powered v7 = true) ∧ (v8.symbolErrs = 0) ∧ ((mgOf v7 (isB MgPort.a)).link = true) ∧ (64 ≤ List.length v8.bytes) ∧
      (List.length v8.bytes ≤ 1522) ∧ (fcsOk v8.bytes = true) ∧ (pkNat v8.bytes 12 2 ≠ 34824) ∧
      (macPasses v7 (isB MgPort.a) (slice v8.bytes 0 6) = true) ∧ (pkNat v8.bytes (typeAt v8.bytes) 2 = 34997) ∧
      (∀ (j : Fin 8), bankSt v7 1 ↑j = BankSt.on) ∧ ((mgOf v7 (isB MgPort.a)).throttled = true) ∧
      (vcPri (vcpOf v8.bytes) ≠ (3 : BitVec 2)) ∧ (thrRate v7 (isB MgPort.a) ≤ (mgOf v7 (isB MgPort.a)).admitted)) ∧
    ((powered v9 = true) ∧ (v8.symbolErrs = 0) ∧ ((mgOf v9 (isB MgPort.a)).link = true) ∧ (64 ≤ List.length v8.bytes) ∧
      (List.length v8.bytes ≤ 1522) ∧ (fcsOk v8.bytes = true) ∧ (pkNat v8.bytes 12 2 ≠ 34824) ∧
      (macPasses v9 (isB MgPort.a) (slice v8.bytes 0 6) = true) ∧ (pkNat v8.bytes (typeAt v8.bytes) 2 = 34997) ∧
      (∀ (j : Fin 8), bankSt v9 1 ↑j = BankSt.on) ∧ ((mgOf v9 (isB MgPort.a)).throttled = false) ∧
      (vcPri (vcpOf v8.bytes) ≠ (3 : BitVec 2)) ∧ (16 ≤ (mgOf v9 (isB MgPort.a)).fifo.length)) ∧
    ((powered v11 = true) ∧ (mgEn v11 (isB MgPort.a) = true) ∧ (modeAllowed v11 (isB MgPort.a) 3 = true) ∧
      (speedAllowed 3 3 = true) ∧ ((mgOf v11 (isB MgPort.a)).link = false)) ∧
    ((powered v12 = true) ∧ (mgEn v12 (isB MgPort.a) = true) ∧ (modeAllowed v12 (isB MgPort.a) 1 = true) ∧
      (speedAllowed 1 2 = true) ∧ ((1 : Fin 4) = (1 : Fin 4)) ∧ ((mgOf v12 (isB MgPort.a)).link = true)) ∧
    ((powered v13 = true) ∧ (mgEn v13 (isB MgPort.a) = true) ∧ (modeAllowed v13 (isB MgPort.a) 1 = true) ∧
      (speedAllowed 1 2 = true) ∧ ((mgOf v13 (isB MgPort.a)).link = false) ∧ ((1 : Fin 4) = (1 : Fin 4)) ∧
      (isEpoch v13.sfp = true) ∧ (mgMode v13 (isB MgPort.a) = 0) ∧ (65 ≤ (mgOf v13 (isB MgPort.a)).searchAge)) ∧
    ((powered v14 = true) ∧ ((mgOf v14 (isB MgPort.a)).link = true) ∧ (isEpoch v14.sfp = true) ∧
      (v14.epochDone = some v14.sfp) ∧ (rsActs v14 (isB MgPort.a) = true) ∧ (rsBusy v14 (isB MgPort.a) = false) ∧
      (rsMin v14 (isB MgPort.a) < (mgOf v14 (isB MgPort.a)).speed) ∧ ((mgOf v14 (isB MgPort.a)).speed ≤ 2) ∧
      (rsDwell v14 (isB MgPort.a) ≤ (mgOf v14 (isB MgPort.a)).quiet) ∧ (rsRested v14 (isB MgPort.a) = true)) ∧
    ((powered v15 = true) ∧ ((mgOf v15 (isB MgPort.a)).relink = some (1, some 0))) ∧
    ((powered v16 = true) ∧ (isFrame v16.sfp = true) ∧ ((mgOf v16 (isB MgPort.a)).throttled = true) ∧
      (v16.frameDone = some v16.sfp) ∧ ((mgOf v16 (isB MgPort.a)).relNow = true)) ∧
    ((powered v17 = true) ∧ (isEpoch v17.sfp = true) ∧ ((mgOf v17 (isB MgPort.a)).throttled = true) ∧
      (v17.epochDone = some v17.sfp) ∧ ((mgOf v17 (isB MgPort.a)).relNow = false) ∧
      (thrRelease v17 (isB MgPort.a) ≠ 0) ∧ (thrRelease v17 (isB MgPort.a) < (mgOf v17 (isB MgPort.a)).limAge)) ∧
    ((powered v18 = true) ∧ (isEpoch v18.sfp = true) ∧ ((mgOf v18 (isB MgPort.a)).throttled = true) ∧
      (v18.epochDone = some v18.sfp) ∧ ((mgOf v18 (isB MgPort.a)).relNow = false) ∧
      (thrRelease v18 (isB MgPort.a) ≠ 0) ∧ ((mgOf v18 (isB MgPort.a)).limAge ≤ thrRelease v18 (isB MgPort.a))) ∧
    ((powered v20 = true) ∧ (v20.mgSh.snapPend = some (v19, true, false)) ∧ (v20.sfp = v19) ∧ (true = true)) ∧
    ((powered v22 = true) ∧ (v22.mgSh.snapPend = some (v21, true, true)) ∧ (v22.sfp ≠ v21)) ∧
    ((powered v23 = true) ∧ (v23.mgSh.mdio = some (2684354560 : Word)) ∧ (v23.mgSh.mdioRs = none) ∧
      (v23.mgSh.rsOps = []) ∧ (2 ≤ bits (2684354560 : Word) 29 28)) ∧
    ((powered v24 = true) ∧ (v24.mgSh.mdio = some (2415919104 : Word)) ∧ (v24.mgSh.mdioRs = none) ∧
      (v24.mgSh.rsOps = []) ∧ (bits (2415919104 : Word) 29 28 < 2)) ∧
    ((powered v46 = true) ∧ (v46.mgSh.snapPend = some (v19, false, true)) ∧ (v46.sfp = v19) ∧ (true = true)) :=
  ⟨by decide +kernel,
   by decide +kernel,
   by decide +kernel,
   by decide +kernel,
   by decide +kernel,
   by decide +kernel,
   by decide +kernel,
   by decide +kernel,
   by decide +kernel,
   by decide +kernel,
   by decide +kernel,
   by decide +kernel,
   by decide +kernel,
   by decide +kernel,
   by decide +kernel,
   by decide +kernel,
   by decide +kernel,
   by decide +kernel,
   by decide +kernel,
   by decide +kernel,
   by decide +kernel⟩

/-- States and operands that meet the hypotheses of SageRows. -/
theorem wit_SageRows :
    ((powered v26 = true) ∧ (txEn (actv v26) = false) ∧ (v26.sage.holes = []) ∧
      (v26.sage.fifo.head? = some (70000, r0)) ∧ (isEpoch v26.sfp = true) ∧ (v26.sfp.mfc % 256 = 0) ∧
      (Option.map (fun (x : ℕ × ℕ × ℕ) => x.1) v26.sage.sweep ≠ some v26.sfp.mfc) ∧ ((portOf v26 5).bwLeft ≠ some 0)) ∧
    ((powered v28 = true) ∧ (txEn (actv v28) = false) ∧ (v28.sage.holes.head? = some (65536, v27)) ∧
      (isEpoch v28.sfp = true) ∧ (v28.sfp.mfc % 256 = 0) ∧
      (Option.map (fun (x : ℕ × ℕ × ℕ) => x.1) v28.sage.sweep ≠ some v28.sfp.mfc) ∧ ((portOf v28 5).bwLeft ≠ some 0)) ∧
    ((powered v29 = true) ∧ (isEpoch v29.sfp = true) ∧ (v29.sfp.mfc % 256 = 0) ∧
      (Option.map (fun (x : ℕ × ℕ × ℕ) => x.1) v29.sage.sweep ≠ some v29.sfp.mfc) ∧ (v29.sage.sweep = some (80, 0, 0)) ∧
      (80 ≠ v29.sfp.mfc) ∧ ((List.drop 0 gatherGroups).isEmpty = false) ∧ (txEn (actv v29) = false) ∧
      ((portOf v29 5).bwLeft ≠ some 0)) ∧
    ((powered v30 = true) ∧ (isEpoch v30.sfp = true) ∧ (v30.sfp.mfc % 256 = 0) ∧
      (Option.map (fun (x : ℕ × ℕ × ℕ) => x.1) v30.sage.sweep ≠ some v30.sfp.mfc) ∧ (txEn (actv v30) = true) ∧
      (txDue v30 = false) ∧ (txHead v30.sage.txBuf = some b0) ∧ ((portOf v30 5).bwLeft ≠ some 0)) ∧
    ((powered v32 = true) ∧ (isEpoch v32.sfp = true) ∧ (v32.sfp.mfc % 256 = 0) ∧
      (Option.map (fun (x : ℕ × ℕ × ℕ) => x.1) v32.sage.sweep ≠ some v32.sfp.mfc) ∧ (txEn (actv v32) = false) ∧
      (List.find? (fun (y : ℕ × Sfp) => y.1 == 33) v32.sage.wraps = some (33, v31)) ∧ ((portOf v32 5).bwLeft ≠ some 0)) ∧
    ((powered v33 = true) ∧ (isEpoch v33.sfp = true) ∧ (v33.sfp.mfc % 256 = 0) ∧
      (Option.map (fun (x : ℕ × ℕ × ℕ) => x.1) v33.sage.sweep ≠ some v33.sfp.mfc) ∧ (txEn (actv v33) = false) ∧
      ((portOf v33 5).bwLeft = some 0)) :=
  ⟨by decide +kernel,
   by decide +kernel,
   by decide +kernel,
   by decide +kernel,
   by decide +kernel,
   by decide +kernel⟩

/-- States and operands that meet the hypotheses of MemoriesAndPins. -/
theorem wit_MemoriesAndPins :
    ((powered v35 = true) ∧ (1 = 0 ∨ 1 = 1 ∨ 1 = 3) ∧ ((9 / 8 : ℕ) * 8 < memSize 1) ∧
      (bankOn v35 1 (memBankOf 1 ((9 / 8 : ℕ) * 8)) = true) ∧ (bankSt v35 1 3 = BankSt.moving 0 2) ∧ (2 ≤ 2) ∧
      (v35.mem.powerWait = some (1, 3)) ∧ (v35.vcp.run = some q0) ∧ ((255 : Byte) ≠ (1 : Byte)) ∧
      ((255 : Byte) ≠ (2 : Byte)) ∧ ((255 : Byte) = (255 : Byte) ∨ bscanOpen v35 = false)) ∧
    ((powered v37 = true) ∧ (1 = 0 ∨ 1 = 1 ∨ 1 = 3) ∧ ((9 / 8 : ℕ) * 8 < memSize 1) ∧
      (bankOn v37 1 (memBankOf 1 ((9 / 8 : ℕ) * 8)) = true) ∧ (bankSt v37 1 3 = BankSt.moving 2 1) ∧ (1 ≤ 2) ∧
      (v37.mem.powerWait = some (1, 3)) ∧ (v37.vcp.run = some q0) ∧ (1 ≠ 2 ∨ 2 = 2) ∧ ((255 : Byte) ≠ (1 : Byte)) ∧
      ((255 : Byte) ≠ (2 : Byte)) ∧ ((255 : Byte) = (255 : Byte) ∨ bscanOpen v37 = false)) ∧
    ((powered v38 = true) ∧ (0 = 0 ∨ 0 = 1 ∨ 0 = 3) ∧ ((1048575 / 8 : ℕ) * 8 < memSize 0) ∧
      (bankOn v38 0 (memBankOf 0 ((1048575 / 8 : ℕ) * 8)) = false) ∧ (bankSt v38 1 4 = BankSt.moving 2 0) ∧ (0 ≤ 2) ∧
      (v38.mem.powerWait ≠ some (1, 4)) ∧ (0 ≠ 2 ∨ 2 = 2) ∧ ((5 : Byte) ≠ (1 : Byte)) ∧ ((5 : Byte) ≠ (2 : Byte)) ∧
      ((5 : Byte) ≠ (255 : Byte)) ∧ (bscanOpen v38 = true)) ∧
    ((powered atE = true) ∧ (5 = 5) ∧ (2047 < 2048) ∧ ((grpOf atE 2047).tblErr = false) ∧ ((5 : Byte) ≠ (1 : Byte)) ∧
      ((5 : Byte) ≠ (2 : Byte)) ∧ ((5 : Byte) = (255 : Byte) ∨ bscanOpen atE = false)) ∧
    ((powered v39 = true) ∧ (4 = 4) ∧ ((tfind v39.map.lines (2049 / 2048 : ℕ)).isSome = true) ∧
      ((5 : Byte) ≠ (1 : Byte)) ∧ ((5 : Byte) ≠ (2 : Byte)) ∧ ((5 : Byte) = (255 : Byte) ∨ bscanOpen v39 = false)) ∧
    ((powered v40 = true) ∧ (isFrame v40.sfp = true) ∧ (v40.sfp.fi = 1) ∧ (v40.pins.switching = [(15, 2)]) ∧
      ((5 : Byte) ≠ (1 : Byte)) ∧ ((5 : Byte) ≠ (2 : Byte)) ∧ ((5 : Byte) = (255 : Byte) ∨ bscanOpen v40 = false)) :=
  ⟨by decide +kernel,
   by decide +kernel,
   by decide +kernel,
   by decide +kernel,
   by decide +kernel,
   by decide +kernel⟩

/-- States and operands that meet the hypotheses of Boundaries. -/
theorem wit_Boundaries :
    ((powered bd = true) ∧ (isFrame bd.sfp = true) ∧ (bd.frameDone ≠ some bd.sfp) ∧ (MatFree bd) ∧
      (v41.monFault = false) ∧ (bd.pins.switching = []) ∧ (isTrunk bd 5 = true) ∧ (sfpOk bd.sfp = true) ∧
      (isEpoch bd.sfp = true) ∧ (bd.epochDone ≠ some bd.sfp) ∧ ((grpOf bd 3).en = true) ∧ ((grpOf bd 3).apsAge < 7)) ∧
    ((powered bu = true) ∧ (isFrame bu.sfp = true) ∧ (bu.frameDone ≠ some bu.sfp) ∧ (MatFree bu) ∧
      (v41.monFault = false) ∧ (bu.pins.switching = []) ∧ (isTrunk bu 5 = true) ∧ (sfpOk bu.sfp = true) ∧
      (isEpoch bu.sfp = true) ∧ (bu.epochDone ≠ some bu.sfp) ∧ ((grpOf bu 3).en = true) ∧ ((grpOf bu 3).apsAge < 7)) ∧
    ((powered v43 = true) ∧ (isFrame v43.sfp = true) ∧ (v43.frameDone = some v43.sfp) ∧ (isEpoch v43.sfp = true) ∧
      (v43.epochDone = some v43.sfp)) ∧
    ((powered v44 = true) ∧ (isFrame v44.sfp = true) ∧ (v44.frameDone ≠ some v44.sfp) ∧ (MatFree v44) ∧
      (v42.monFault = true) ∧ (v44.pins.switching = []) ∧ (isTrunk v44 5 = true) ∧ (sfpOk v44.sfp = true)) ∧
    ((powered v45 = true) ∧ (isFrame v45.sfp = true) ∧ (v45.frameDone ≠ some v45.sfp) ∧ (MatFree v45) ∧
      (v41.monFault = false) ∧ (v45.pins.switching = []) ∧ (isEpoch v45.sfp = true) ∧ (v45.epochDone ≠ some v45.sfp) ∧
      ((portOf v45 7).bwLeft = none) ∧ ((grpOf v45 3).en = true) ∧ ((grpOf v45 3).apsAge < 7)) :=
  ⟨by decide +kernel,
   by decide +kernel,
   by decide +kernel,
   by decide +kernel,
   by decide +kernel⟩


end Boundary

namespace Machine

def hs : State := { State.reset with thy := { State.reset.thy with hist := [{ mfc := 5 }], hbAccum := 3 } }
def v2 : State := { hs with phase := .ready, seq := { hs.seq with running := true } }
def rr : State := { State.reset with phase := .ready, seq := { State.reset.seq with running := false, boot := 1 } }
def v3 : List ℕ := [3]
def v4 : Tbl Byte := [(5, 7)]
def v5 : Tbl AuthSt := [(0, { enabled := true, key := [], cls := 0, holder := 0, gen := 1 })]
def v6 : State := { rr with flash := { rr.flash with net := some ([3], [(5, 7)], 9), keys := some [(0, { enabled := true, key := [], cls := 0, holder := 0, gen := 1 })] } }
def v10 : State := { rr with flash := { rr.flash with net := none, keys := none, resv := none } }
def sk : State := { base with pending := [.statusRead], sfp := ⟨5, 31, 163767⟩ }
def nx (s : State) : State := match step s with | .next t => t | _ => {}
def ex (i : Instr) (s : State) : State := match exec i s with | .next t => t | _ => {}
def v11 : List Instr := []
def v12 : State := { sk with pending := [] }
def v13 : State := { sk with pending := [], sfp := ⟨5, 31, 163766⟩ }
def v14 : State := { sk with pending := [], sfp := ⟨5, 30, 163767⟩ }
def v15 : State := { sk with pending := [], phase := .off }
def v16 : State := (nx sk)
def ms : State := { base with pending := [.mapScrub false false 3 (.single 2)], map := { base.map with a := [(3, 5)] } }
def v17 : State := (nx ms)
def v18 : State := (ex .statusRead sk)
def rp : ReplaySt := { last := 40, win := 0x80000005 }
def qd (seq : BitVec 32) : Queued := { req := rq [] seq, op := 0x0101, gen := 0 }
def dq (seq : BitVec 32) : State := { atE with vcp := { atE.vcp with queue := [qd seq], keysLoaded := true, replay := [(0, rp)] } }
def v19 : Queued := (qd 45)
def v20 : State := (dq 45)
def v21 : Queued := (qd 38)
def v22 : State := (dq 38)
def cmR (e : Nat) : Req := rq (3 :: 0 :: sfpBytes (epochAt e))
def cmS (e : Nat) (acc : Sfp) : State := { atE with vcp := { atE.vcp with run := some { rn 0x0B01 (cmR e) with accept := acc } } }
def cmQ (e : Nat) (acc : Sfp) : Run := { rn 0x0B01 (cmR e) with accept := acc }
def v23 : Req := (cmR 0x105)
def v24 : Run := (cmQ 0x105 ⟨0x100,0,8192⟩)
def v25 : State := (cmS 0x105 ⟨0x100,0,8192⟩)
def v26 : Run := (cmQ 0x105 ⟨0x103,0,0⟩)
def v27 : State := (cmS 0x105 ⟨0x103,0,0⟩)
def v28 : Run := (cmQ 0x105 ⟨0x103,0,1⟩)
def v29 : State := (cmS 0x105 ⟨0x103,0,1⟩)
def v30 : Run := (cmQ 0x105 ⟨0x105,0,0⟩)
def v31 : State := (cmS 0x105 ⟨0x105,0,0⟩)
def mv : State := { atE with thy := { pendMfc := some (⟨0x100,0,0⟩, some 77) } }
def v35 : State := (ex .setMfcAct mv)
def st1 : State := putStg [(aPortCfg 5, 2)] { atE with com := { ents := [(0, { epoch := 0x100, mask := 2, st := .armed })], frozen := 2 } }
def v38 : State := (ex .commitStrobe st1)
def v39 : ℕ := (aPortCfg 5)
def v40 : Return := { via := .mgmtA }
def v41 : Bytes := []
def v42 : State := (ex (.vcpPacketReceive { via := .mgmtA } []) (dq 45))
def v50 : State := { sk with pending := [], sfp := ⟨5, 30, 0⟩, frameDone := some ⟨5, 30, 0⟩, pins := { sk.pins with func := [(2, 5), (3, 3), (4, 10)] } }
def bg (q : Run) (s : State) : State :=
  { s with vcp := { s.vcp with run := some { q with verdict := commitVerdict s q } } }

/-- States and operands that meet the hypotheses of ResetValues. -/
theorem wit_ResetValues :
    ((hs.phase ≠ Phase.off)) ∧
    ((v2.phase ≠ Phase.off) ∧ (powered v2 = true) ∧ (fwStarted v2 = true)) :=
  ⟨by decide +kernel,
   by decide +kernel⟩

/-- States and operands that meet the hypotheses of RestartReloadsStores. -/
theorem wit_RestartReloadsStores :
    ((powered v6 = true) ∧ (fwStarted v6 = true) ∧ (v6.seq.running = false) ∧
      (v6.flash.net = some (v3, v4, (9 : BitVec 128))) ∧ (v6.flash.resv.isSome = true) ∧ (v6.flash.keys = some v5)) ∧
    ((powered v10 = true) ∧ (fwStarted v10 = true) ∧ (v10.seq.running = false) ∧ (v10.flash.net = none) ∧
      (v10.flash.keys = none) ∧ (v10.flash.resv = none)) :=
  ⟨by decide +kernel,
   by decide +kernel⟩

/-- States and operands that meet the hypotheses of StepRunsFront. -/
theorem wit_StepRunsFront :
    (sk.pending = Instr.statusRead :: v11) :=
  by decide +kernel

/-- States and operands that meet the hypotheses of IdleStepTicks. -/
theorem wit_IdleStepTicks :
    ((v12.pending = []) ∧ (clockRuns v12 = true) ∧ (atBoundary v12 = false) ∧ (163767 ≤ v12.sfp.bi) ∧ (31 ≤ v12.sfp.fi)) ∧
    ((v13.pending = []) ∧ (clockRuns v13 = true) ∧ (atBoundary v13 = false) ∧ (v13.sfp.bi + 1 < 163768)) ∧
    ((v14.pending = []) ∧ (clockRuns v14 = true) ∧ (atBoundary v14 = false) ∧ (163767 ≤ v14.sfp.bi) ∧
      (v14.sfp.fi + 1 < 32)) ∧
    ((v15.pending = []) ∧ (clockRuns v15 = false)) ∧
    ((v50.pending = []) ∧ (clockRuns v50 = true) ∧ (atBoundary v50 = true) ∧ (v50.sfp.bi + 1 < 163768)) :=
  ⟨by decide +kernel,
   by decide +kernel,
   by decide +kernel,
   by decide +kernel,
   by decide +kernel⟩

/-- States and operands that meet the hypotheses of ReplayWindow. -/
theorem wit_ReplayWindow :
    ((0 < BitVec.toNat ((45 : Word) - rp.last)) ∧ (BitVec.toNat ((45 : Word) - rp.last) < 2147483648) ∧
      ((44 : Word) ≠ (45 : Word)) ∧ ((((seqTake rp (45 : Word)).getD { }).last - (44 : Word)).toNat < 32)) ∧
    ((BitVec.toNat ((2147483688 : Word) - rp.last) = 0 ∨ 2147483648 ≤ BitVec.toNat ((2147483688 : Word) - rp.last)) ∧
      (¬(rp.last - (2147483688 : Word)).toNat < 32 ∨ (rp.last - (2147483688 : Word)).toNat < 32 ∧ bit rp.win (rp.last - (2147483688 : Word)).toNat = true)) ∧
    ((BitVec.toNat ((39 : Word) - rp.last) = 0 ∨ 2147483648 ≤ BitVec.toNat ((39 : Word) - rp.last)) ∧
      ((rp.last - (39 : Word)).toNat < 32) ∧
      (¬((rp.last - (39 : Word)).toNat < 32 ∧ bit rp.win (rp.last - (39 : Word)).toNat = true)) ∧
      ((40 : Word) ≠ (39 : Word))) ∧
    ((powered v20 = true) ∧ (v20.sfp.bi % 8192 = 0) ∧ (busyNow v20 = none) ∧ (queueBest v20.vcp.queue = some v19) ∧
      ((authOf v20 v19.req.auth.toNat).gen = v19.gen) ∧
      ((seqTake (replayOf v20 v19.req.auth.toNat) v19.req.seq).isSome = true) ∧ (3 ≠ v19.req.auth.toNat)) ∧
    ((powered v22 = true) ∧ (v22.sfp.bi % 8192 = 0) ∧ (busyNow v22 = none) ∧ (queueBest v22.vcp.queue = some v21) ∧
      ((authOf v22 v21.req.auth.toNat).gen = v21.gen) ∧ (seqTake (replayOf v22 v21.req.auth.toNat) v21.req.seq = none) ∧
      (3 ≠ v21.req.auth.toNat)) :=
  ⟨by decide +kernel,
   by decide +kernel,
   by decide +kernel,
   by decide +kernel,
   by decide +kernel⟩

/-- States and operands that meet the hypotheses of CommitLeadTime. -/
theorem wit_CommitLeadTime :
    ((checkCommand v25 v24 = none) ∧ (List.getD v24.req.params 0 (0 : Byte) ≠ (0 : Byte)) ∧
      (sfpOfBytes v24.req.params 2 = epochAt 261) ∧ (261 < 2 ^ 48) ∧ (v24.req.grp = false ∨ v25.thy.mfcMism = false) ∧
      ((10481152 : ℤ) ≤ sfpDist v24.accept (epochAt 261))) ∧
    ((checkCommand v27 v26 = none) ∧ (List.getD v26.req.params 0 (0 : Byte) ≠ (0 : Byte)) ∧
      (sfpOfBytes v26.req.params 2 = epochAt 261) ∧ (261 < 2 ^ 48) ∧ (v26.req.grp = false ∨ v27.thy.mfcMism = false) ∧
      ((10481152 : ℤ) ≤ sfpDist v26.accept (epochAt 261)) ∧ (v26.accept = epochAt ((261 + (2 ^ 48 - 2)) % 2 ^ 48))) ∧
    ((checkCommand v29 v28 = none) ∧ (List.getD v28.req.params 0 (0 : Byte) ≠ (0 : Byte)) ∧
      (sfpOfBytes v28.req.params 2 = epochAt 261) ∧ (261 < 2 ^ 48) ∧ (v28.req.grp = false ∨ v29.thy.mfcMism = false) ∧
      (sfpDist v28.accept (epochAt 261) < (10481152 : ℤ)) ∧
      (v28.accept = have __src := epochAt ((261 + (2 ^ 48 - 2)) % 2 ^ 48); { mfc := __src.mfc, fi := __src.fi, bi := 1 })) ∧
    ((checkCommand v31 v30 = none) ∧ (List.getD v30.req.params 0 (0 : Byte) ≠ (0 : Byte)) ∧
      (sfpOfBytes v30.req.params 2 = epochAt 261) ∧ (261 < 2 ^ 48) ∧ (v30.req.grp = false ∨ v31.thy.mfcMism = false) ∧
      (sfpDist v30.accept (epochAt 261) < (10481152 : ℤ)) ∧ (mfcDiff v30.accept.mfc 261 ≤ (0 : ℤ))) :=
  ⟨by decide +kernel,
   by decide +kernel,
   by decide +kernel,
   by decide +kernel⟩

/-- States and operands that meet the hypotheses of StepKeepsSfp. -/
theorem wit_StepKeepsSfp : SfpInv sk ∧ step sk = .next v16 := ⟨by decide +kernel, rfl⟩

/-- States and operands that meet the hypotheses of StepKeepsMemory. -/
theorem wit_StepKeepsMemory : Memory.wf ms.mem = true ∧ MapInv ms ∧ step ms = .next v17 :=
  ⟨by decide +kernel, by decide +kernel, rfl⟩

/-- States and operands that meet the hypotheses of ExecKeepsQueue. -/
theorem wit_ExecKeepsQueue : exec .statusRead sk = .next v18 := rfl

/-- States and operands that meet the hypotheses of SfpMovesOnlyAt. -/
theorem wit_SfpMovesOnlyAt :
    SfpInv mv ∧ exec .setMfcAct mv = .next v35 ∧ v35.phase ≠ .reset ∧ v35.phase ≠ .off ∧ v35.sfp ≠ mv.sfp :=
  ⟨by decide +kernel, rfl, by decide +kernel, by decide +kernel, by decide +kernel⟩

/-- States and operands that meet the hypotheses of ActiveViewsChangeOnlyAtStrobes. -/
theorem wit_ActiveViewsChangeOnlyAtStrobes :
    exec .commitStrobe st1 = .next v38 ∧ v38.phase ≠ .reset ∧ v38.phase ≠ .off ∧ (domOf v39).isSome = true
      ∧ actv v38 v39 ≠ actv st1 v39 :=
  ⟨rfl, by decide +kernel, by decide +kernel, by decide +kernel, by decide +kernel⟩

/-- States and operands that meet the hypotheses of ReplayWindow. -/
theorem wit_ReplayWindowRR : exec (.vcpPacketReceive v40 v41) (dq 45) = .next v42 := rfl

/-- The work of CommitLeadTime's last clause: a verdict of none and one of LATE_EPOCH. -/
theorem wit_CommitLeadTimeWork :
    Begun 0x0B01 v23 { v24 with verdict := commitVerdict v25 v24 } (bg v24 v25) ∧
    sfpDist v24.since (bg v24 v25).sfp ≤ 1562500 ∧
    Begun 0x0B01 v23 { v28 with verdict := commitVerdict v29 v28 } (bg v28 v29) ∧
    sfpDist v28.since (bg v28 v29).sfp ≤ 1562500 :=
  ⟨by decide +kernel, by decide +kernel, by decide +kernel, by decide +kernel⟩

end Machine

end Sys2Proof.Tests
end

section
/-! Proof of the lead-time rule of COMMIT (R89): the distance to an epoch boundary, the one check that answers LATE_EPOCH,
and the work that answers by the verdict of its acceptance. -/

namespace Sys2Proof.Machine

open Sys2Proof

/-! Distances to an epoch boundary (R81, R82). -/

/-- The distance to an epoch boundary: whole multiframes, less what of its own the position has behind it (R81). -/
theorem sfpDist_epochAt (a : Sfp) (e : Nat) :
    sfpDist a (epochAt e) = mfcDiff a.mfc e * 5240576 - (a.fi : Int) * 163768 - a.bi := by
  have wrapped : mfcDiff a.mfc (e % mfcMod) = mfcDiff a.mfc e := by simp [mfcDiff]
  simp only [sfpDist, epochAt, wrapped]
  omega

/-- An epoch is two multiframes ahead of the one two before it, the wrap of the MFC included (R82). -/
theorem mfcDiff_two_before (e : Nat) : mfcDiff (epochAt ((e + (2 ^ 48 - 2)) % 2 ^ 48)).mfc e = 2 := by
  have ahead : (e + (mfcMod - (epochAt ((e + (2 ^ 48 - 2)) % 2 ^ 48)).mfc % mfcMod)) % mfcMod = 2 := by
    simp only [epochAt, mfcMod]
    omega
  simp only [mfcDiff, ahead]
  rfl

/-- From block b of the epoch two before, b blocks fewer than two multiframes remain. -/
theorem sfpDist_two_epochs_before (e b : Nat) :
    sfpDist { epochAt ((e + (2 ^ 48 - 2)) % 2 ^ 48) with bi := b } (epochAt e) = 10481152 - b := by
  rw [sfpDist_epochAt]
  dsimp only
  rw [mfcDiff_two_before]
  simp only [epochAt]
  omega

/-- No distance is left to an epoch that is past or current. -/
theorem sfpDist_epochAt_nonpos {a : Sfp} {e : Nat} (h : mfcDiff a.mfc e ≤ 0) : sfpDist a (epochAt e) ≤ 0 := by
  rw [sfpDist_epochAt]
  omega

/-! The verdict (Table 04-3). -/

/-- Of the checks 6 to 10 the lead time alone answers LATE_EPOCH, and it comes first. -/
theorem commitRefuse_late_iff (s : State) (a : Sfp) (m : BitVec 8) (e : Nat) :
    (commitRefuse s a m e).map (·.1) = some 9 ↔ sfpDist a (epochAt e) < 10481152 := by
  unfold commitRefuse
  by_cases near : sfpDist a (epochAt e) < twoMfs
  · have late : sfpDist a (epochAt e) < 10481152 := near
    simp [if_pos near, late]
  · have early : ¬sfpDist a (epochAt e) < 10481152 := near
    simp only [if_neg near, early, iff_false]
    split_ifs <;> simp

/-- A COMMIT to an epoch boundary that passes the checks before the lead time is judged by checks 6 to 10. -/
theorem commitVerdict_eq_commitRefuse {s : State} {q : Run} {e : Nat} (hc : checkCommand s q = none)
    (hm : q.req.params.getD 0 0 ≠ 0) (hp : sfpOfBytes q.req.params 2 = epochAt e)
    (hg : q.req.grp = false ∨ s.thy.mfcMism = false) :
    (commitVerdict s q).map (·.1) = (commitRefuse s q.accept (q.req.params.getD 0 0) (epochAt e).mfc).map (·.1) := by
  have matched : ¬(q.req.grp = true ∧ s.thy.mfcMism = true) := by
    rcases hg with h | h <;> simp [h]
  have boundary : ¬((epochAt e).fi ≠ 0 ∨ (epochAt e).bi ≠ 0) := by simp [epochAt]
  simp only [commitVerdict, hc, hp, if_neg hm, if_neg boundary, if_neg matched, Option.map_map]
  rfl

/-- Its verdict is LATE_EPOCH exactly where the epoch is nearer than two multiframes (R89). -/
theorem commitVerdict_late_iff {s : State} {q : Run} {e : Nat} (hc : checkCommand s q = none)
    (hm : q.req.params.getD 0 0 ≠ 0) (hp : sfpOfBytes q.req.params 2 = epochAt e) (he : e < 2 ^ 48)
    (hg : q.req.grp = false ∨ s.thy.mfcMism = false) :
    (commitVerdict s q).map (·.1) = some 9 ↔ sfpDist q.accept (epochAt e) < 10481152 := by
  have canonical : (epochAt e).mfc = e := Nat.mod_eq_of_lt he
  rw [commitVerdict_eq_commitRefuse hc hm hp hg, canonical, commitRefuse_late_iff]

/-! The work. -/

/-- A command of the pending-commit table that its acceptance has checked does its body, within its time (R507). -/
theorem runSoon_begun {op : BitVec 16} {r : Req} {q : Run} {s : State} (h : Begun op r q s)
    (soon : sfpDist q.since s.sfp ≤ 1562500) (body : Run → State → State) :
    runSoon op r true body s = body q (onRun s (fun x => { x with work := 1 })) := by
  have ⟨_, _, _, _, _, _, fresh⟩ := h
  simp [runSoon, offer_begun h, runIs_begun h, fresh, soon]

/-! Entries of the table are no part of the command front end. -/

@[simp] theorem entPut_vcp (s : State) (i : Nat) (x : CommitEnt) : (entPut s i x).vcp = s.vcp := by
  unfold entPut
  dsimp only
  split
  · rfl
  · rw [mirror_vcp, onCom_vcp]

@[simp] theorem onEnt_vcp (s : State) (i : Nat) (f : CommitEnt → CommitEnt) : (onEnt s i f).vcp = s.vcp := by
  unfold onEnt
  split
  · exact entPut_vcp _ _ _
  · rfl

@[simp] theorem commitEnter_vcp (s : State) (m : BitVec 8) (e : Nat) (grp : Bool) (dest : BitVec 12)
    (mr : BitVec 16 × BitVec 32) (auto : Nat) : (commitEnter s m e grp dest mr auto).vcp = s.vcp := by
  unfold commitEnter
  split
  · exact onEnt_vcp _ _ _
  · split
    · exact entPut_vcp _ _ _
    · rfl

/-- A reply to the command in execution carries its status. -/
theorem setReply_status {s : State} {q : Run} (h : s.vcp.run = some q) (st d : Byte) (data : Bytes) :
    (replyNow (setReply s st d data)).map (·.status) = some st := by
  simp [replyNow, setReply, h, onVcp]

/-- COMMIT's work answers the status of its verdict, or OK where its acceptance found no fault. -/
theorem xCommit_status (q : Run) {s : State} {x : Run} (h : s.vcp.run = some x) :
    (replyNow (xCommit q s)).map (·.status) = some ((q.verdict.map (·.1)).getD 0) := by
  unfold xCommit
  rcases q.verdict with _ | ⟨st, d, data⟩
  · refine setReply_status (q := x) ?_ _ _ _
    split <;> simpa using h
  · refine setReply_status (q := x) ?_ _ _ _
    split <;> exact h

theorem exec_commit (r : Req) (s : State) :
    exec (.commit r) s = .next (live s (runSoon 0x0B01 r true xCommit s)) := rfl

/-- The row of a COMMIT whose work begins answers by the verdict it carries. -/
theorem exec_commit_status {r : Req} {q : Run} {u : State} (h : Begun 0x0B01 r q u)
    (soon : sfpDist q.since u.sfp ≤ 1562500) :
    ∃ t, exec (.commit r) u = .next t ∧ (replyNow t).map (·.status) = some ((q.verdict.map (·.1)).getD 0) := by
  have ⟨on, _, run, _⟩ := h
  refine ⟨xCommit q (onRun u (fun x => { x with work := 1 })), ?_, xCommit_status q (onRun_run run _)⟩
  rw [exec_commit, live_on on, runSoon_begun h soon]

/-- Settles O59: the verdict is LATE_EPOCH exactly below two multiframes, the boundary positions and past epochs are
distances, and the work answers by the verdict. -/
theorem commitLeadTime : Obligations.CommitLeadTime := by
  unfold Obligations.CommitLeadTime
  intro q s e hc hm hp he hg
  have late_iff := commitVerdict_late_iff hc hm hp he hg
  have from_block := sfpDist_two_epochs_before e
  dsimp only
  refine ⟨?_, ?_, ?_, ?_, ?_, ?_⟩
  · intro far late
    have near := late_iff.mp late
    omega
  · exact late_iff.mpr
  · intro atBoundary late
    have just : sfpDist q.accept (epochAt e) = 10481152 := by rw [atBoundary]; exact from_block 0
    have near := late_iff.mp late
    omega
  · intro oneLater
    have short : sfpDist q.accept (epochAt e) = 10481152 - 1 := by rw [oneLater]; exact from_block 1
    exact late_iff.mpr (by omega)
  · intro past
    have nonpos := sfpDist_epochAt_nonpos past
    exact late_iff.mpr (by omega)
  · intro u begun soon verdict
    obtain ⟨t, runs, status⟩ := exec_commit_status begun soon
    rw [verdict] at status
    refine ⟨t, runs, ?_, ?_⟩
    · exact Option.isSome_map.symm.trans (congrArg Option.isSome status)
    · rw [status]
      rcases commitVerdict s q with _ | ⟨st, d, data⟩ <;> simp

end Sys2Proof.Machine
end

section
/-! Proof of the replay window of an authority (R262): the distances in the window and what a number that passes does to the
marks, what reception and replies leave of the replay state, and what dispatch records. -/

namespace Sys2Proof.Machine

open Sys2Proof

/-! The window (R262). -/

/-- The number is LAST or one of the 31 before it. -/
def InWindow (x : ReplaySt) (k : Word) : Prop := (x.last - k).toNat < 32

/-- The number lies in the window and its mark is set. -/
def Marked (x : ReplaySt) (k : Word) : Prop := InWindow x k ∧ bit x.win (x.last - k).toNat = true

/-- The signed half-range difference of two words is that of their subtraction. -/
theorem halfDiff_words (a b : Word) : halfDiff 32 a.toNat b.toNat = (a - b).toInt := by
  unfold halfDiff
  congr 1
  bv_omega

/-- A number after LAST becomes LAST; the marks move up by its distance and its own joins them. -/
theorem seqTake_after {x : ReplaySt} {n : Word} (hpos : 0 < (n - x.last).toNat) (half : (n - x.last).toNat < 2147483648) :
    seqTake x n = some { x with
      last := n
      win := if 32 ≤ (n - x.last).toNat then 1 else (x.win <<< (n - x.last).toNat) ||| 1
      since := x.since + 1 } := by
  have dist : halfDiff 32 n.toNat x.last.toNat = ((n - x.last).toNat : Int) := by
    rw [halfDiff_words, BitVec.toInt_eq_toNat_of_lt (by omega)]
  have ahead : (0 : Int) < ((n - x.last).toNat : Int) := by omega
  have far : (32 : Int) ≤ ((n - x.last).toNat : Int) ↔ 32 ≤ (n - x.last).toNat := by omega
  simp only [seqTake, dist, if_pos ahead, far, Int.toNat_natCast]

/-- LAST itself, or a number half the range or more ahead, passes exactly where it is an unmarked one of the window. -/
theorem seqTake_upTo {x : ReplaySt} {n : Word} (h : (n - x.last).toNat = 0 ∨ 2147483648 ≤ (n - x.last).toNat) :
    seqTake x n = if (x.last - n).toNat < 32 ∧ bit x.win (x.last - n).toNat = false then
      some { x with win := setBit x.win (x.last - n).toNat true, since := x.since + 1 } else none := by
  have dist : halfDiff 32 n.toNat x.last.toNat = -((x.last - n).toNat : Int) := by
    rw [halfDiff_words, BitVec.toInt_eq_toNat_cond]
    split <;> bv_omega
  have behind : ¬(0 : Int) < -((x.last - n).toNat : Int) := by omega
  have near : (-32 : Int) < -((x.last - n).toNat : Int) ↔ (x.last - n).toNat < 32 := by omega
  simp only [seqTake, dist, if_neg behind, near, neg_neg, Int.toNat_natCast]

/-! The marks after a number that passes. -/

/-- A bit of the marks moved up, with the new number's own at 0. -/
theorem bit_moved_marks {w : Word} {d k : Nat} (hk : 0 < k) (hw : k < 32) :
    bit (if 32 ≤ d then 1 else (w <<< d) ||| 1) k = (decide (d ≤ k) && bit w (k - d)) := by
  have one : (1 : Word).getLsbD k = false := by
    simp [BitVec.getLsbD_one, Nat.ne_of_gt hk]
  unfold bit
  split
  · next far =>
    have below : ¬d ≤ k := by omega
    simp only [one, below, decide_false, Bool.false_and]
  · rw [BitVec.getLsbD_or, one, BitVec.getLsbD_shiftLeft]
    by_cases below : k < d
    · have moved : ¬d ≤ k := by omega
      simp [below, moved]
    · have moved : d ≤ k := by omega
      simp [below, moved, hw]

/-- A bit of a word with one more bit set. -/
theorem bit_setBit {w : Word} {i k : Nat} (hk : k < 32) : bit (setBit w i true) k = (bit w k || decide (i = k)) := by
  simp only [bit, setBit, if_true, BitVec.getLsbD_or, BitVec.getLsbD_ofNat, Nat.testBit_two_pow, hk, decide_true,
    Bool.true_and]

/-- A number after LAST passes, becomes LAST and is marked; the marks in its window are what they were. -/
theorem seqTake_after_marks {x : ReplaySt} {n : Word} (hpos : 0 < (n - x.last).toNat)
    (half : (n - x.last).toNat < 2147483648) :
    ∃ y, seqTake x n = some y ∧ y.last = n ∧ Marked y n ∧
      ∀ m, m ≠ n → InWindow y m → (Marked y m ↔ Marked x m) := by
  refine ⟨_, seqTake_after hpos half, rfl, ?_, ?_⟩
  · have self : (n - n).toNat = 0 := by simp
    simp only [Marked, InWindow, self, bit]
    split <;> simp
  · intro m other inside
    have back : 0 < (n - m).toNat := by bv_omega
    simp only [Marked, InWindow] at inside ⊢
    rw [bit_moved_marks back inside]
    by_cases within : (n - x.last).toNat ≤ (n - m).toNat
    · have place : (x.last - m).toNat = (n - m).toNat - (n - x.last).toNat := by bv_omega
      have old : (x.last - m).toNat < 32 := by omega
      simp only [inside, within, old, ← place, decide_true, Bool.true_and]
    · have ahead : ¬(x.last - m).toNat < 32 := by bv_omega
      simp only [within, ahead, decide_false, Bool.false_and, Bool.false_eq_true, and_false, false_and]

/-- A number outside the window or marked fails, where it is not after LAST. -/
theorem seqTake_fails {x : ReplaySt} {n : Word} (h : (n - x.last).toNat = 0 ∨ 2147483648 ≤ (n - x.last).toNat)
    (seen : ¬InWindow x n ∨ Marked x n) : seqTake x n = none := by
  rw [seqTake_upTo h, if_neg]
  rintro ⟨inside, clear⟩
  rcases seen with outside | ⟨_, mark⟩
  · exact outside inside
  · exact Bool.false_ne_true (clear.symm.trans mark)

/-- An unmarked number of the window passes and is marked; LAST and every other mark stay. -/
theorem seqTake_inside_marks {x : ReplaySt} {n : Word} (h : (n - x.last).toNat = 0 ∨ 2147483648 ≤ (n - x.last).toNat)
    (inside : InWindow x n) (clear : ¬Marked x n) :
    ∃ y, seqTake x n = some y ∧ y.last = x.last ∧ Marked y n ∧ ∀ m, m ≠ n → (Marked y m ↔ Marked x m) := by
  have unset : bit x.win (x.last - n).toNat = false :=
    Bool.eq_false_iff.mpr fun set => clear ⟨inside, set⟩
  refine ⟨_, (seqTake_upTo h).trans (if_pos ⟨inside, unset⟩), rfl, ⟨inside, ?_⟩, ?_⟩
  · simp only [bit_setBit inside, decide_true, Bool.or_true]
  · intro m other
    have place : (x.last - n).toNat ≠ (x.last - m).toNat := by bv_omega
    refine and_congr_right fun near => ?_
    simp only [bit_setBit near, place, decide_false, Bool.or_false]

/-! What counting and the queues of the ports leave of the command front end. -/

@[simp] theorem cVcp_vcp (s : State) (i : Nat) : (cVcp s i).vcp = s.vcp := rfl
@[simp] theorem cMg_vcp (s : State) (b : Bool) (i n : Nat) : (cMg s b i n).vcp = s.vcp := rfl

@[simp] theorem mgLimited_vcp (s : State) (b : Bool) (k n : Nat) : (mgLimited s b k n).vcp = s.vcp := by
  simp [mgLimited, mgWindow]

@[simp] theorem viaLimited_vcp (s : State) (v : Transport) (k : Nat) : (viaLimited s v k).vcp = s.vcp := by
  unfold viaLimited
  split
  · exact mgLimited_vcp _ _ _ _
  · rfl

@[simp] theorem replyQueue_vcp (s : State) (b : Bool) (p : OutPkt) : (replyQueue s b p).vcp = s.vcp := by
  simp only [replyQueue]
  split_ifs <;> simp

@[simp] theorem chanPut_vcp (s : State) (p : Nat) (pri : BitVec 2) (b : Bytes) : (chanPut s p pri b).1.vcp = s.vcp := by
  simp only [chanPut]
  split_ifs <;> simp

@[simp] theorem inbandOut_vcp (s : State) (o : Option (BitVec 12)) (pri : BitVec 2) (b : Bytes) :
    (inbandOut s o pri b).vcp = s.vcp := by
  unfold inbandOut
  split
  · split
    · exact chanPut_vcp _ _ _ _
    · rfl
  · rfl

@[simp] theorem relayOn_vcp (s : State) (ports : List Nat) (pri : BitVec 2) (b : Bytes) :
    (relayOn s ports pri b).vcp = s.vcp := by
  refine forEach_same (·.vcp) ports s _ fun t p => ?_
  dsimp only
  split <;> simp

/-! Replies and reception keep the replay state and the command in execution. -/

/-- The replay state of every authority, and the command in execution. -/
def replayAndRun (s : State) : Tbl ReplaySt × Option Run := (s.vcp.replay, s.vcp.run)

theorem replayAndRun_of_vcp {s t : State} (h : t.vcp = s.vcp) : replayAndRun t = replayAndRun s := by
  simp only [replayAndRun, h]

@[simp] theorem cVcp_replayAndRun (s : State) (i : Nat) : replayAndRun (cVcp s i) = replayAndRun s := rfl
@[simp] theorem cPair_replayAndRun (s : State) (i : Nat) : replayAndRun (cPair s i) = replayAndRun s := rfl

@[simp] theorem viaLimited_replayAndRun (s : State) (v : Transport) (k : Nat) :
    replayAndRun (viaLimited s v k) = replayAndRun s := replayAndRun_of_vcp (viaLimited_vcp s v k)

@[simp] theorem relayOn_replayAndRun (s : State) (ports : List Nat) (pri : BitVec 2) (b : Bytes) :
    replayAndRun (relayOn s ports pri b) = replayAndRun s := replayAndRun_of_vcp (relayOn_vcp s ports pri b)

@[simp] theorem outVia_replayAndRun (s : State) (ret : Return) (front : Bool) (o : Option (BitVec 12)) (pri : BitVec 2)
    (b : Bytes) : replayAndRun (outVia s ret front o pri b) = replayAndRun s := by
  unfold outVia
  split
  · exact replayAndRun_of_vcp (replyQueue_vcp _ _ _)
  · exact replayAndRun_of_vcp (replyQueue_vcp _ _ _)
  · unfold spiPush
    split <;> rfl
  · exact replayAndRun_of_vcp (inbandOut_vcp _ _ _ _)

@[simp] theorem frontReply_replayAndRun (s : State) (q : Req) (op : BitVec 16) (st d : Byte) (rem : BitVec 16) :
    replayAndRun (frontReply s q op st d rem) = replayAndRun s := outVia_replayAndRun _ _ _ _ _ _

@[simp] theorem answerBusy_replayAndRun (s : State) (q : Req) (op : BitVec 16) (st : Byte) (rem : BitVec 16) :
    replayAndRun (answerBusy s q op st rem) = replayAndRun s := frontReply_replayAndRun _ _ _ _ _ _

@[simp] theorem badAuth_replayAndRun (s : State) (q : Req) (op : BitVec 16) (d : Byte) (check3 : Bool) :
    replayAndRun (badAuth s q op d check3) = replayAndRun s := by
  have counted : (if check3 then viaLimited (cVcp s 3) q.ret.via 4 else cVcp s 3).vcp = s.vcp := by
    split <;> simp
  unfold badAuth
  dsimp only
  split
  · exact replayAndRun_of_vcp counted
  · rw [frontReply_replayAndRun]
    simp [replayAndRun, counted]

@[simp] theorem queueIn_replayAndRun (s : State) (q : Queued) : replayAndRun (queueIn s q) = replayAndRun s := by
  unfold queueIn
  split
  · rfl
  · split
    · dsimp only
      split
      · exact answerBusy_replayAndRun _ _ _ _ _
      · exact answerBusy_replayAndRun _ _ _ _ _
    · rfl

@[simp] theorem arrive_replayAndRun (s : State) (q : Queued) : replayAndRun (arrive s q) = replayAndRun s := by
  unfold arrive
  split
  · exact answerBusy_replayAndRun _ _ _ _ _
  · exact queueIn_replayAndRun _ _

@[simp] theorem deliver_replayAndRun (s : State) (r : Req) (op : BitVec 16) (tagOk zeroTag : Bool) :
    replayAndRun (deliver s r op tagOk zeroTag) = replayAndRun s := by
  unfold deliver
  dsimp only
  split_ifs <;> simp

@[simp] theorem relayReply_replayAndRun (s : State) (b : Bytes) : replayAndRun (relayReply s b) = replayAndRun s := by
  unfold relayReply
  split
  · split
    · split
      · exact outVia_replayAndRun _ _ _ _ _ _
      · rfl
    · split_ifs <;> simp
  · rfl

@[simp] theorem forwardCmd_replayAndRun (s : State) (ret : Return) (b : Bytes) (ports : List Nat) (deliver : Bool) :
    replayAndRun (forwardCmd s ret b ports deliver).1 = replayAndRun s := by
  simp only [forwardCmd]
  split_ifs <;> simp [replayAndRun]

@[simp] theorem dupAdd_replayAndRun (s : State) (b : Bytes) : replayAndRun (dupAdd s b) = replayAndRun s := by
  simp [dupAdd, replayAndRun]

@[simp] theorem handleCmd_replayAndRun (s : State) (ret : Return) (b : Bytes) :
    replayAndRun (handleCmd s ret b) = replayAndRun s := by
  simp only [handleCmd]
  split_ifs <;> simp

@[simp] theorem frontEnd_replayAndRun (s : State) (ret : Return) (b : Bytes) :
    replayAndRun (frontEnd s ret b) = replayAndRun s := by
  unfold frontEnd
  split_ifs <;> simp

/-- Taking the packet that waits empties its place alone. -/
theorem waitingPacket_replayAndRun {s t : State} {v : Transport} {p : Return × Bytes}
    (h : waitingPacket s v = some (p, t)) : replayAndRun t = replayAndRun s := by
  unfold waitingPacket at h
  split at h
  · split at h <;> cases h
    rfl
  · split at h <;> cases h
    rfl
  · split at h <;> cases h
    rfl
  · cases h

theorem xVcpPacketReceive_replayAndRun (ret : Return) (pkt : Bytes) (s : State) :
    replayAndRun (xVcpPacketReceive ret pkt s) = replayAndRun s := by
  unfold xVcpPacketReceive
  split
  · next taken => rw [frontEnd_replayAndRun, waitingPacket_replayAndRun taken]
  · exact frontEnd_replayAndRun _ _ _

/-! Dispatch (R262, R264). -/

/-- A row that a die without power leaves out keeps what its effect keeps. -/
theorem live_keeps {α : Type} {g : State → α} {s t : State} (h : g t = g s) : g (live s t) = g s := by
  unfold live
  split
  · exact h
  · rfl

@[simp] theorem setReply_replay (s : State) (st d : Byte) (data : Bytes) :
    (setReply s st d data).vcp.replay = s.vcp.replay := by
  unfold setReply
  split <;> rfl

theorem replayOf_congr {s t : State} (h : t.vcp.replay = s.vcp.replay) (k : Nat) : replayOf t k = replayOf s k := by
  simp only [replayOf, h]

/-- The replay state of an authority after a number of one is recorded: a saved reservation starts the count anew (R263). -/
theorem replayOf_seqRecord (s : State) (a k : Nat) (x : ReplaySt) :
    replayOf (seqRecord s a x) k =
      if k = a then (if 65536 ≤ x.since then { x with since := 0 } else x) else replayOf s k := by
  have stored : (seqRecord s a x).vcp.replay
      = tput {} s.vcp.replay a (if 65536 ≤ x.since then { x with since := 0 } else x) := by
    unfold seqRecord
    by_cases save : 65536 ≤ x.since <;> simp [save]
  rw [replayOf, stored, tget_tput]
  rfl

/-- With the sequencer idle, a tick accepts the best packet of the queue where its authority's key is the one it came
under. -/
theorem dispatch_accepts {s : State} {q : Queued} (tick : s.sfp.bi % 8192 = 0) (idle : busyNow s = none)
    (best : queueBest s.vcp.queue = some q) (key : (authOf s q.req.auth.toNat).gen = q.gen) :
    ∃ u, u.vcp.replay = s.vcp.replay ∧ dispatch s = acceptCmd u q := by
  have due : (isTick s.sfp && (busyNow s).isNone) = true := by simp [isTick, tick, idle]
  refine ⟨onVcp s (fun v => { v with queue := delFirst (fun x => x == q) v.queue }), rfl, ?_⟩
  rw [dispatch, if_pos due, dispatchN]
  simp only [best]
  exact if_pos key

/-- Acceptance judges the number of the started command against the replay state it finds, with that command in
execution: it records a number that passes, and answers one that fails with the next that would pass. -/
theorem acceptCmd_judges (s : State) (q : Queued) :
    ∃ (u : State) (r : Run), replayAndRun u = (s.vcp.replay, some r) ∧
      (∀ y, seqTake (replayOf s q.req.auth.toNat) q.req.seq = some y →
        acceptCmd s q = if opDefined q.op.toNat then seqRecord u q.req.auth.toNat y
          else setReply (seqRecord u q.req.auth.toNat y) 7 0 []) ∧
      (seqTake (replayOf s q.req.auth.toNat) q.req.seq = none →
        acceptCmd s q = viaLimited (setReply u 6 0 (beBytes 4 (nextSeq (replayOf s q.req.auth.toNat)).toNat))
          q.req.ret.via 5) := by
  have answered : ∀ (l : List Queued) (t : State) (rem : BitVec 16),
      replayAndRun (forEach l t (fun t x => answerBusy t x.req x.op 1 rem)) = replayAndRun t :=
    fun l t _ => forEach_same replayAndRun l t _ fun _ _ => answerBusy_replayAndRun _ _ _ _ _
  unfold acceptCmd
  dsimp only
  generalize (if q.op = 0x0B01 then _ else _ : Run) = r
  generalize begun : forEach s.vcp.queue _ _ = u
  have kept : replayAndRun u = (s.vcp.replay, some r) := begun ▸ answered _ _ _
  have same : replayOf u q.req.auth.toNat = replayOf s q.req.auth.toNat :=
    replayOf_congr (congrArg Prod.fst kept) _
  rw [same]
  refine ⟨u, r, kept, fun y passes => ?_, fun fails => ?_⟩
  · rw [passes]
  · rw [fails]

/-- A number that passes is its authority's LAST and marks after acceptance; no other authority's state changes. -/
theorem acceptCmd_records {s : State} {q : Queued} {y : ReplaySt}
    (passes : seqTake (replayOf s q.req.auth.toNat) q.req.seq = some y) :
    (replayOf (acceptCmd s q) q.req.auth.toNat).last = y.last ∧
      (replayOf (acceptCmd s q) q.req.auth.toNat).win = y.win ∧
      ∀ k, k ≠ q.req.auth.toNat → replayOf (acceptCmd s q) k = replayOf s k := by
  obtain ⟨u, r, kept, recorded, -⟩ := acceptCmd_judges s q
  have table : (acceptCmd s q).vcp.replay = (seqRecord u q.req.auth.toNat y).vcp.replay := by
    rw [recorded y passes]
    split
    · rfl
    · exact setReply_replay _ _ _ _
  have read : ∀ k, replayOf (acceptCmd s q) k = replayOf (seqRecord u q.req.auth.toNat y) k :=
    replayOf_congr table
  refine ⟨?_, ?_, fun k other => ?_⟩
  · rw [read, replayOf_seqRecord, if_pos rfl]
    split <;> rfl
  · rw [read, replayOf_seqRecord, if_pos rfl]
    split <;> rfl
  · rw [read, replayOf_seqRecord, if_neg other]
    exact replayOf_congr (congrArg Prod.fst kept) k

/-- A number that fails is answered STALE_SEQ, and no replay state changes. -/
theorem acceptCmd_refuses {s : State} {q : Queued}
    (fails : seqTake (replayOf s q.req.auth.toNat) q.req.seq = none) :
    (acceptCmd s q).vcp.replay = s.vcp.replay ∧ (replyNow (acceptCmd s q)).map (·.status) = some 6 := by
  obtain ⟨u, r, kept, -, refused⟩ := acceptCmd_judges s q
  have answered := refused fails
  obtain ⟨replay, run⟩ := Prod.mk.inj kept
  constructor
  · rw [answered, viaLimited_vcp, setReply_replay, replay]
  · rw [answered, replyNow, viaLimited_vcp]
    exact setReply_status run 6 0 _

/-- Settles O60: the marks follow the distances to LAST, acceptance records a number that passes for its authority alone,
and reception leaves the replay state. -/
theorem replayWindow : Obligations.ReplayWindow := by
  unfold Obligations.ReplayWindow
  refine ⟨?_, ?_, ?_⟩
  · intro x n m
    dsimp only
    constructor
    · intro hpos half
      obtain ⟨y, taken, last, mark, others⟩ := seqTake_after_marks hpos half
      rw [taken]
      exact ⟨rfl, last, mark, others m⟩
    · intro upTo
      refine ⟨seqTake_fails upTo, fun inside clear => ?_⟩
      obtain ⟨y, taken, last, mark, others⟩ := seqTake_inside_marks upTo inside clear
      rw [taken]
      exact ⟨rfl, last, mark, others m⟩
  · intro q k s on tick idle best key
    have runs : exec .dispatchTick s = .next (live s (dispatch s)) := rfl
    obtain ⟨u, same, accepts⟩ := dispatch_accepts tick idle best key
    rw [live_on on, accepts] at runs
    dsimp only
    rw [← replayOf_congr same, ← replayOf_congr same]
    refine ⟨acceptCmd u q, runs, fun passes => ?_, fun fails => ?_, fun other => ?_⟩
    · obtain ⟨y, taken⟩ := Option.isSome_iff_exists.mp passes
      obtain ⟨last, win, -⟩ := acceptCmd_records taken
      rw [taken, last, win]
      rfl
    · obtain ⟨unchanged, stale⟩ := acceptCmd_refuses fails
      exact ⟨replayOf_congr unchanged _, stale⟩
    · rcases passes : seqTake (replayOf u q.req.auth.toNat) q.req.seq with _ | y
      · exact replayOf_congr (acceptCmd_refuses passes).1 _
      · obtain ⟨-, -, others⟩ := acceptCmd_records passes
        exact others k other
  · intro ret pkt s t received
    have effect : live s (xVcpPacketReceive ret pkt s) = t := Host.Outcome.next.inj received
    rw [← effect]
    exact congrArg Prod.fst (live_keeps (g := replayAndRun) (xVcpPacketReceive_replayAndRun ret pkt s))

end Sys2Proof.Machine
end

section
/-! What every command leaves alone: the position, the phase, the active views of the commit domains and the queue
(`Fixed`), and the memories, map banks and stored configuration (`Stores`); for each function of the model one lemma says
which of the two it keeps. -/

namespace Sys2Proof.Machine

open Sys2Proof

/-- What only a few commands change: the queue, the position, the phase, and the active views of the commit domains. -/
structure Fixed where
  pending : List Instr
  sfp : Sfp
  phase : Phase
  act : View

/-- The parts that have a canonical form: the memories, both map banks and the stored configuration. -/
structure Stores where
  bytes : Tbl Byte
  junk : Tbl Nat
  ram : Tbl Byte
  a : Tbl Entry
  b : Tbl Entry
  cfg : Option SavedCfg

/-- The parts of a state that the invariants and the safety statements of the whole machine speak of. -/
def kept (s : State) : Fixed × Stores :=
  (⟨s.pending, s.sfp, s.phase, fun a => if (domOf a).isSome then act s a else 0⟩,
    ⟨s.mem.bytes, s.mem.junk, s.mem.ram, s.map.a, s.map.b, s.flash.cfg⟩)

@[simp] theorem kept_ite (c : Prop) [Decidable c] (t u : State) :
    kept (if c then t else u) = if c then kept t else kept u := apply_ite kept c t u

@[simp] theorem kept_forEach {α : Type} (l : List α) (s : State) (f : State → α → State)
    (h : ∀ t x, kept (f t x) = kept t) : kept (forEach l s f) = kept s := forEach_same kept l s f h

@[simp] theorem onRegs_kept (s : State) (f : RegSt → RegSt) (h : ∀ r, (f r).act = r.act) :
    kept (onRegs s f) = kept s := by
  simp [kept, act, onRegs, h]

@[simp] theorem onMem_kept (s : State) (f : MemSt → MemSt)
    (h : ∀ m, (f m).bytes = m.bytes ∧ (f m).junk = m.junk ∧ (f m).ram = m.ram) : kept (onMem s f) = kept s := by
  obtain ⟨b, j, r⟩ := h s.mem
  simp [kept, act, onMem, b, j, r]

@[simp] theorem onMap_kept (s : State) (f : MapSt → MapSt) (h : ∀ m, (f m).a = m.a ∧ (f m).b = m.b) :
    kept (onMap s f) = kept s := by
  obtain ⟨a, b⟩ := h s.map
  simp [kept, act, onMap, a, b]

@[simp] theorem onFlash_kept (s : State) (f : FlashSt → FlashSt) (h : ∀ x, (f x).cfg = x.cfg) :
    kept (onFlash s f) = kept s := by
  simp [kept, act, onFlash, h]

/-- A word of no commit domain is no part of an active view. -/
theorem kept_onRegs_act {s : State} {f : RegSt → RegSt}
    (h : ∀ a, (domOf a).isSome = true → tget (regReset a) (f s.regs).act a = tget (regReset a) s.regs.act a) :
    kept (onRegs s f) = kept s := by
  have view : (fun a => if (domOf a).isSome then act (onRegs s f) a else 0)
      = fun a => if (domOf a).isSome then act s a else 0 := by
    funext a
    split
    · next dom => exact h a dom
    · rfl
  simp only [kept, view]
  rfl

@[simp] theorem onRegs_setAct_kept {a : Nat} (h : domOf a = none) (s : State) (w : Word) :
    kept (onRegs s (setAct a w)) = kept s := by
  refine kept_onRegs_act fun b dom => ?_
  have other : b ≠ a := by rintro rfl; simp [h] at dom
  simp only [setAct, tget, tput]
  split
  · rw [tfind_tdel_ne _ other]
  · rw [tfind_tset_ne _ _ other]

@[simp] theorem setHistR_act (a : Nat) (m : Word) (r : RegSt) : (setHistR a m r).act = r.act := (rfl)
@[simp] theorem clrHistR_act (a : Nat) (m : Word) (r : RegSt) : (clrHistR a m r).act = r.act := (rfl)
@[simp] theorem setStg_act (a : Nat) (m : Word) (r : RegSt) : (setStg a m r).act = r.act := (rfl)
@[simp] theorem kept_fresh (s : State) (n : Nat) : kept { s with fresh := n } = kept s := (rfl)

@[simp] theorem onRegs_setStg_kept (s : State) (a : Nat) (w : Word) : kept (onRegs s (setStg a w)) = kept s := (rfl)
@[simp] theorem onRegs_clrHistR_kept (s : State) (a : Nat) (w : Word) : kept (onRegs s (clrHistR a w)) = kept s := (rfl)

@[simp] theorem kept_forEach_snd {α β : Type} (l : List α) (b : β) (s : State) (f : β × State → α → β × State)
    (h : ∀ u x, kept (f u x).2 = kept u.2) : kept (forEach l (b, s) f).2 = kept s :=
  forEach_same (fun u => kept u.2) l (b, s) f h

@[simp] theorem kept_foldl_fst {α β : Type} (l : List α) (b : β) (s : State) (f : State × β → α → State × β)
    (h : ∀ u x, kept (f u x).1 = kept u.1) : kept (l.foldl f (s, b)).1 = kept s :=
  forEach_same (fun u => kept u.1) l (s, b) f h

@[simp] theorem sticky_kept (s : State) (a : Nat) (m : Word) : kept (sticky s a m) = kept s := (rfl)

@[simp] theorem fixed_ite (c : Prop) [Decidable c] (x y : Fixed × Stores) :
    (if c then x else y).1 = if c then x.1 else y.1 := apply_ite Prod.fst c x y

@[simp] theorem fixed_forEach {α : Type} (l : List α) (s : State) (f : State → α → State)
    (h : ∀ t x, (kept (f t x)).1 = (kept t).1) : (kept (forEach l s f)).1 = (kept s).1 :=
  forEach_same (fun t => (kept t).1) l s f h

@[simp] theorem kept_epochDone (s : State) (o : Option Sfp) : kept { s with epochDone := o } = kept s := (rfl)
@[simp] theorem kept_frameDone (s : State) (o : Option Sfp) : kept { s with frameDone := o } = kept s := (rfl)

@[simp] theorem onPort_kept (s : State) (p : Nat) (f : PortSt → PortSt) : kept (onPort s p f) = kept s := (rfl)
@[simp] theorem onTrunk_kept (s : State) (p : Nat) (f : TrunkSt → TrunkSt) : kept (onTrunk s p f) = kept s := by
  simp [onTrunk]
@[simp] theorem onClient_kept (s : State) (p : Nat) (f : ClientSt → ClientSt) : kept (onClient s p f) = kept s := by
  simp [onClient]
@[simp] theorem onGrp_kept (s : State) (g : Nat) (f : GrpSt → GrpSt) : kept (onGrp s g f) = kept s := (rfl)
@[simp] theorem onChk_kept (s : State) (m : Nat) (f : ChkSt → ChkSt) : kept (onChk s m f) = kept s := (rfl)
@[simp] theorem onThy_kept (s : State) (f : ThySt → ThySt) : kept (onThy s f) = kept s := (rfl)
@[simp] theorem onCand_kept (s : State) (c : Nat) (f : CandSt → CandSt) : kept (onCand s c f) = kept s := by
  simp [onCand]
@[simp] theorem onFp_kept (s : State) (i : Nat) (f : FpSt → FpSt) : kept (onFp s i f) = kept s := by
  simp [onFp]
@[simp] theorem onCom_kept (s : State) (f : CommitSt → CommitSt) : kept (onCom s f) = kept s := (rfl)
@[simp] theorem onPwr_kept (s : State) (f : PowerSt → PowerSt) : kept (onPwr s f) = kept s := (rfl)
@[simp] theorem onPair_kept (s : State) (f : PairSt → PairSt) : kept (onPair s f) = kept s := (rfl)
@[simp] theorem onMir_kept (s : State) (f : MirSt → MirSt) : kept (onMir s f) = kept s := (rfl)
@[simp] theorem onVcp_kept (s : State) (f : VcpSt → VcpSt) : kept (onVcp s f) = kept s := (rfl)
@[simp] theorem onSage_kept (s : State) (f : SageSt → SageSt) : kept (onSage s f) = kept s := (rfl)
@[simp] theorem onSeq_kept (s : State) (f : SeqSt → SeqSt) : kept (onSeq s f) = kept s := (rfl)
@[simp] theorem onPins_kept (s : State) (f : PinSt → PinSt) : kept (onPins s f) = kept s := (rfl)
@[simp] theorem onAuto_kept (s : State) (f : AutoSt → AutoSt) : kept (onAuto s f) = kept s := (rfl)
@[simp] theorem onMgSh_kept (s : State) (f : MgShSt → MgShSt) : kept (onMgSh s f) = kept s := (rfl)
@[simp] theorem onMg_kept (s : State) (b : Bool) (f : MgSt → MgSt) : kept (onMg s b f) = kept s := by
  cases b <;> rfl

@[simp] theorem mirDrain_kept (s : State) : kept (mirDrain s) = kept s := by
  simp [mirDrain]
@[simp] theorem mirPush_kept (s : State) (full : Bool) (m : MirrorRec) : kept (mirPush s full m) = kept s := by
  simp [mirPush]
@[simp] theorem mirror_kept (s : State) (m : MirrorRec) : kept (mirror s m) = kept s := by
  simp [mirror]
@[simp] theorem mirFlush_kept (s : State) : kept (mirFlush s) = kept s := by
  simp [mirFlush]
@[simp] theorem stgPut_kept (s : State) (a : Nat) (w : Word) : kept (stgPut s a w) = kept s := by
  simp [stgPut]
@[simp] theorem setStageBits_kept (s : State) (o u : BitVec 8) : kept (setStageBits s o u) = kept s := by
  simp [setStageBits]
@[simp] theorem openDomains_kept (s : State) (m : BitVec 8) : kept (openDomains s m) = kept s := by
  simp [openDomains]
@[simp] theorem closeDomains_kept (s : State) (m : BitVec 8) : kept (closeDomains s m) = kept s := by
  simp [closeDomains]
@[simp] theorem setSnaps_kept (s : State) (l : List (Sfp × BitVec 128)) : kept (setSnaps s l) = kept s := by
  simp [setSnaps]
@[simp] theorem setSwap_kept (s : State) (w : Option (Sfp × Bool)) : kept (setSwap s w) = kept s := by
  simp [setSwap]
@[simp] theorem drawWord_kept (s : State) : kept (drawWord s).2 = kept s := by
  simp [drawWord]
@[simp] theorem drawBytes_kept (s : State) (n : Nat) : kept (drawBytes s n).2 = kept s := by
  simp [drawBytes]
@[simp] theorem count_kept (s : State) (blk idx amt : Nat) : kept (count s blk idx amt) = kept s := (rfl)
@[simp] theorem cSys_kept (s : State) (i : Nat) : kept (cSys s i) = kept s := by
  simp [cSys]
@[simp] theorem cVcp_kept (s : State) (i : Nat) : kept (cVcp s i) = kept s := by
  simp [cVcp]
@[simp] theorem cCom_kept (s : State) (i : Nat) : kept (cCom s i) = kept s := by
  simp [cCom]
@[simp] theorem cCore_kept (s : State) (i : Nat) : kept (cCore s i) = kept s := by
  simp [cCore]
@[simp] theorem cThy_kept (s : State) (i : Nat) : kept (cThy s i) = kept s := by
  simp [cThy]
@[simp] theorem cPair_kept (s : State) (i : Nat) : kept (cPair s i) = kept s := by
  simp [cPair]
@[simp] theorem cFeed_kept (s : State) (i : Nat) : kept (cFeed s i) = kept s := by
  simp [cFeed]
@[simp] theorem cSage_kept (s : State) (i : Nat) : kept (cSage s i) = kept s := by
  simp [cSage]
@[simp] theorem cMg_kept (s : State) (b : Bool) (i n : Nat) : kept (cMg s b i n) = kept s := by
  simp [cMg]
@[simp] theorem cPort_kept (s : State) (p i n : Nat) : kept (cPort s p i n) = kept s := by
  simp [cPort]
@[simp] theorem cEgr_kept (s : State) (g k n : Nat) : kept (cEgr s g k n) = kept s := by
  simp [cEgr]
@[simp] theorem cGrp_kept (s : State) (g k : Nat) : kept (cGrp s g k) = kept s := by
  simp [cGrp]
@[simp] theorem traceRec_kept (s : State) (r : TraceRec) : kept (traceRec s r) = kept s := by
  unfold traceRec
  dsimp only
  split <;> rfl

@[simp] theorem trace_kept (s : State) (cls sub obj : Nat) (data : Bytes) :
    kept (trace s cls sub obj data) = kept s := by
  simp [trace]
@[simp] theorem traceAt_kept (s : State) (p : Sfp) (cls sub obj : Nat) (data : Bytes) :
    kept (traceAt s p cls sub obj data) = kept s := by
  simp [traceAt]
@[simp] theorem flushChannel_kept (s : State) (p : Nat) : kept (flushChannel s p) = kept s := by
  simp [flushChannel]
@[simp] theorem mgmtDiscard_kept (s : State) (p : Nat) : kept (mgmtDiscard s p) = kept s := by
  simp [mgmtDiscard]
@[simp] theorem sfBegins_kept (s : State) (p : Nat) : kept (sfBegins s p) = kept s := by
  simp [sfBegins]
@[simp] theorem clientCentre_kept (s : State) (p t : Nat) : kept (clientCentre s p t) = kept s := by
  simp [clientCentre]
@[simp] theorem settle_kept (s : State) (p : Nat) : kept (settle s p) = kept s := by
  simp [settle]
@[simp] theorem setCond_kept (s : State) (p i : Nat) (on : Bool) : kept (setCond s p i on) = kept s := by
  simp [setCond]
@[simp] theorem lineCond_kept (s : State) (p i : Nat) (on : Bool) : kept (lineCond s p i on) = kept s := by
  simp [lineCond]
@[simp] theorem reportChange_kept (p : Nat) (s : State) (c : Nat × Bool) : kept (reportChange p s c) = kept s := by
  unfold reportChange
  split <;> simp

@[simp] theorem reportOnce_kept (s : State) (p : Nat) : kept (reportOnce s p) = kept s := by
  simp [reportOnce]
@[simp] theorem reportPort_kept (s : State) (p : Nat) : kept (reportPort s p) = kept s := by
  simp [reportPort]
@[simp] theorem qlTake_kept (s : State) (c : BitVec 4) : kept (qlTake s c).1 = kept s := by
  unfold qlTake
  split <;> simp
@[simp] theorem frozenWrite_kept (s : State) : kept (frozenWrite s) = kept s := by
  simp [frozenWrite]
@[simp] theorem entPut_kept (s : State) (i : Nat) (e : CommitEnt) : kept (entPut s i e) = kept s := by
  simp [entPut]
@[simp] theorem onEnt_kept (s : State) (i : Nat) (f : CommitEnt → CommitEnt) : kept (onEnt s i f) = kept s := by
  unfold onEnt
  split <;> simp
@[simp] theorem entOut_kept (s : State) (i : Nat) (st : EntState) (reason row idx : Nat) :
    kept (entOut s i st reason row idx) = kept s := by
  simp [entOut]
@[simp] theorem pairRec_kept (s : State) (sub : Nat) (old new : PairState) (reason : Nat) :
    kept (pairRec s sub old new reason) = kept s := by
  simp [pairRec]
@[simp] theorem swapAbort_kept (s : State) (reason : Nat) : kept (swapAbort s reason) = kept s := by
  simp [swapAbort]
@[simp] theorem freeReason_kept (s : State) : kept (freeReason s).2 = kept s := by
  simp [freeReason]
@[simp] theorem dropSnaps_kept (s : State) : kept (dropSnaps s) = kept s := by
  simp [dropSnaps]
@[simp] theorem dropMgSnap_kept (s : State) : kept (dropMgSnap s) = kept s := by
  unfold dropMgSnap
  split <;> simp
@[simp] theorem dropSwap_kept (s : State) : kept (dropSwap s) = kept s := by
  unfold dropSwap
  split <;> simp
@[simp] theorem reStamp_kept (old : Sfp) (s : State) : kept (reStamp old s) = kept s := by
  unfold reStamp
  extract_lets g f s1 s2 s3 s4 s5 s6
  have k6 : kept s6 = kept s := by
    simp [s6, s5, s4, s3, s2, s1]
  exact k6

@[simp] theorem autoLeave_kept (s : State) : kept (autoLeave s) = kept s := by
  unfold autoLeave
  split <;> simp
@[simp] theorem leaveLines_kept (s : State) : kept (leaveLines s) = kept s := by
  simp [leaveLines]
@[simp] theorem pairChange_kept (s : State) (sub : Nat) (n : PairState) (reason : Nat) :
    kept (pairChange s sub n reason) = kept s := by
  simp [pairChange]
@[simp] theorem pairTo_kept (s : State) (n : PairState) (reason : Nat) : kept (pairTo s n reason) = kept s := by
  simp [pairTo]
@[simp] theorem pairSticky_kept (s : State) (bitNo : Nat) : kept (pairSticky s bitNo) = kept s := by
  simp [pairSticky]
@[simp] theorem endResync_kept (s : State) (status detail : Byte) (data : Bytes) :
    kept (endResync s status detail data) = kept s := by
  unfold endResync
  split <;> simp
@[simp] theorem pairEnStrobe_kept (s : State) (now : Bool) : kept (pairEnStrobe s now) = kept s := by
  unfold pairEnStrobe
  dsimp only
  (repeat' split) <;> simp
@[simp] theorem freeBlock_kept (s : State) : kept (freeBlock s).2 = kept s := by
  simp [freeBlock]
@[simp] theorem adCounts_kept (s : State) (p : Nat) (o : AdOut) : kept (adCounts s p o) = kept s := by
  unfold adCounts
  dsimp only
  (repeat' split) <;> simp
@[simp] theorem adBlock_kept (s : State) (p : Nat) (b0 : Block) : kept (adBlock s p b0) = kept s := by
  simp [adBlock]
@[simp] theorem xAdaptBlockWrite_kept (p : Nat) (b : Block) (s : State) : kept (xAdaptBlockWrite p b s) = kept s := by
  unfold xAdaptBlockWrite
  split_ifs
  · split <;> simp
  · simp
  · rfl

@[simp] theorem storeSlot_kept (s : State) (g : Nat) (b : Block) : kept (storeSlot s g b) = kept s := by
  simp [storeSlot]
@[simp] theorem slotIn_kept (s : State) (p g : Nat) (b : Block) (ofStream : Bool) :
    kept (slotIn s p g b ofStream) = kept s := by
  simp [slotIn]
@[simp] theorem adReadStream_kept (s : State) (p g : Nat) : kept (adReadStream s p g) = kept s := by
  unfold adReadStream
  dsimp only
  (repeat' split) <;> simp
@[simp] theorem cycleLf_kept (s : State) (p k : Nat) : kept (cycleLf s p k) = kept s := by
  simp [cycleLf]
@[simp] theorem xAdaptBlockRead_kept (p : Nat) (s : State) : kept (xAdaptBlockRead p s) = kept s := by
  simp [xAdaptBlockRead]
@[simp] theorem xAdPpmReport_kept (p : Nat) (s : State) : kept (xAdPpmReport p s) = kept s := by
  simp [xAdPpmReport]
@[simp] theorem xMonFrameReceive_kept (p : Nat) (f : MonFrame) (s : State) :
    kept (xMonFrameReceive p f s) = kept s := by
  simp [xMonFrameReceive]
@[simp] theorem xOrderedSetReceive_kept (p : Nat) (remote : Bool) (gap : Nat) (s : State) :
    kept (xOrderedSetReceive p remote gap s) = kept s := by
  simp [xOrderedSetReceive]
@[simp] theorem xLfClear_kept (p : Nat) (remote : Bool) (s : State) : kept (xLfClear p remote s) = kept s := by
  simp [xLfClear]
@[simp] theorem xEsmcPduReceive_kept (p : Nat) (f : Bytes) (s : State) : kept (xEsmcPduReceive p f s) = kept s := by
  simp [xEsmcPduReceive]
@[simp] theorem xEsmcTimeout_kept (p : Nat) (s : State) : kept (xEsmcTimeout p s) = kept s := by
  unfold xEsmcTimeout
  split <;> simp
@[simp] theorem xPortSnapshotLatch_kept (s : State) : kept (xPortSnapshotLatch s) = kept s := by
  unfold xPortSnapshotLatch
  split
  · exact (onCom_kept _ _).trans (kept_forEach _ _ _ fun _ _ => onPort_kept _ _ _)
  · rfl

@[simp] theorem chkInSync_kept (s : State) (m : Nat) (b : Block) (want : BitVec 64) :
    kept (chkInSync s m b want) = kept s := by
  simp [chkInSync]
@[simp] theorem xTpCheckerBlock_kept (m : Nat) (s : State) : kept (xTpCheckerBlock m s) = kept s := by
  unfold xTpCheckerBlock
  dsimp only
  (repeat' split) <;> simp
@[simp] theorem hostStore_fixed (s : State) (b : Bool) (g : Nat) (e : Entry) (c : Bool) :
    (kept (hostStore s b g e c)).1 = (kept s).1 := by
  unfold hostStore
  split
  · simp
  · rw [mirror_kept]
    rfl

@[simp] theorem hostSmi_kept (s : State) (b : Bool) (p : Nat) (w : Word) : kept (hostSmi s b p w) = kept s := by
  cases b <;> simp [hostSmi, eccRewrite, setSmi]

@[simp] theorem selStore_fixed (s : State) (g : Nat) (sel : Bool) : (kept (selStore s g sel)).1 = (kept s).1 := (rfl)

@[simp] theorem mapUncorr_kept (s : State) (b : Bool) (i : Nat) (smi : Bool) : kept (mapUncorr s b i smi) = kept s := by
  simp [mapUncorr]
@[simp] theorem xMapScrub_kept (bankB smi : Bool) (idx : Nat) (found : EccFind) (s : State) :
    kept (xMapScrub bankB smi idx found s) = kept s := by
  unfold xMapScrub
  dsimp only
  (repeat' split) <;> simp
@[simp] theorem xMapScrubWriteback_kept (s : State) : kept (xMapScrubWriteback s) = kept s := by
  unfold xMapScrubWriteback
  split <;> simp
@[simp] theorem trunkCentre_kept (s : State) (p r : Nat) : kept (trunkCentre s p r) = kept s := by
  unfold trunkCentre
  dsimp only
  split_ifs <;> simp
@[simp] theorem loseFrame_kept (s : State) (p : Nat) : kept (loseFrame s p) = kept s := by
  simp [loseFrame]
@[simp] theorem mfcCompare_kept (s : State) (p v : Nat) : kept (mfcCompare s p v) = kept s := by
  unfold mfcCompare
  split
  · extract_lets own same t next bad good s1 src s2 s3
    have k1 : kept s1 = kept s := onTrunk_kept _ _ _
    have k2 : kept s2 = kept s := (setCond_kept _ _ _ _).trans k1
    have k3 : kept s3 = kept s := (setCond_kept _ _ _ _).trans k1
    split
    · split
      · simp [k2]
      · exact k2
    · split
      · split
        · simp [k3]
        · exact k3
      · exact k1
  · rfl

@[simp] theorem mfcLearnFrom_kept (s : State) (p v : Nat) : kept (mfcLearnFrom s p v) = kept s := by
  unfold mfcLearnFrom
  dsimp only
  (repeat' split) <;> simp
@[simp] theorem mfcCollect_kept (s : State) (p : Nat) (w : W56) : kept (mfcCollect s p w) = kept s := by
  simp [mfcCollect]
@[simp] theorem mfAlign_kept (s : State) (p fi : Nat) : kept (mfAlign s p fi) = kept s := by
  simp [mfAlign]
@[simp] theorem o0Flags_kept (s : State) (p : Nat) (w : W56) : kept (o0Flags s p w) = kept s := by
  simp [o0Flags]
@[simp] theorem o0Errored_kept (s : State) (p : Nat) (b : Block) : kept (o0Errored s p b) = kept s := by
  unfold o0Errored
  dsimp only
  (repeat' split) <;> simp
@[simp] theorem mfCollectAll_kept (s : State) (p : Nat) (w : W56) : kept (o0Correct.mfCollectAll s p w) = kept s := by
  simp [o0Correct.mfCollectAll]
@[simp] theorem o0Correct_kept (s : State) (p : Nat) (b : Block) : kept (o0Correct s p b) = kept s := by
  unfold o0Correct
  dsimp only
  split <;> simp

@[simp] theorem xO0Receive_kept (p : Nat) (b0 : Block) (s : State) : kept (xO0Receive p b0 s) = kept s := by
  simp [xO0Receive]
@[simp] theorem judgeTim_kept (s : State) (p : Nat) : kept (judgeTim s p) = kept s := by
  simp [judgeTim]
@[simp] theorem smiJudge_kept (s : State) (p : Nat) (v : BitVec 16) : kept (smiCompare.smiJudge s p v) = kept s := by
  simp [smiCompare.smiJudge]
@[simp] theorem smiCompare_kept (s : State) (p : Nat) (v : BitVec 16) : kept (smiCompare s p v) = kept s := by
  simp [smiCompare]

@[simp] theorem qlFrame_kept (s : State) (p : Nat) (c : BitVec 4) : kept (qlFrame s p c) = kept s := by
  simp [qlFrame]
@[simp] theorem ttiSlice_kept (s : State) (p fi : Nat) (two : Bytes) : kept (ttiSlice s p fi two) = kept s := by
  simp [ttiSlice]
@[simp] theorem xO1Receive_kept (p : Nat) (b0 : Block) (s : State) : kept (xO1Receive p b0 s) = kept s := by
  unfold xO1Receive
  dsimp only
  (repeat' split) <;> simp
@[simp] theorem xO7Receive_kept (p : Nat) (o4 : List Block) (b : Block) (s : State) :
    kept (xO7Receive p o4 b s) = kept s := by
  simp [xO7Receive]
@[simp] theorem xLosDeclare_kept (p : Nat) (s : State) : kept (xLosDeclare p s) = kept s := by
  simp [xLosDeclare]
@[simp] theorem xLosClear_kept (p : Nat) (s : State) : kept (xLosClear p s) = kept s := by
  simp [xLosClear]
@[simp] theorem xLolDeclare_kept (p : Nat) (s : State) : kept (xLolDeclare p s) = kept s := by
  simp [xLolDeclare]
@[simp] theorem xLolClear_kept (p : Nat) (s : State) : kept (xLolClear p s) = kept s := by
  simp [xLolClear]
@[simp] theorem fecTake_kept (s : State) (p cw sym : Nat) : kept (fecTake s p cw sym) = kept s := by
  simp [fecTake]
@[simp] theorem fecFrame_kept (s : State) (p : Nat) : kept (fecFrame s p) = kept s := by
  simp [fecFrame]
@[simp] theorem fecEpoch_kept (s : State) (p : Nat) : kept (fecEpoch s p) = kept s := by
  simp [fecEpoch]
@[simp] theorem xFecFailDeclare_kept (p cw : Nat) (s : State) : kept (xFecFailDeclare p cw s) = kept s := by
  simp [xFecFailDeclare]
@[simp] theorem xFecFailClear_kept (p : Nat) (s : State) : kept (xFecFailClear p s) = kept s := by
  simp [xFecFailClear]
@[simp] theorem xFecDegDeclare_kept (p sym : Nat) (s : State) : kept (xFecDegDeclare p sym s) = kept s := by
  simp [xFecDegDeclare]
@[simp] theorem xFecDegClear_kept (p : Nat) (s : State) : kept (xFecDegClear p s) = kept s := by
  simp [xFecDegClear]
@[simp] theorem xSlipClear_kept (p : Nat) (s : State) : kept (xSlipClear p s) = kept s := by
  unfold xSlipClear
  split <;> simp
@[simp] theorem condEval_kept (s : State) (g k : Nat) (now : Bool) (get : GrpSt → CondSt) (put : GrpSt → CondSt →
    GrpSt) : kept (condEval s g k now get put) = kept s := by
  simp [condEval]
@[simp] theorem condsEval_kept (s : State) (g : Nat) : kept (condsEval s g) = kept s := by
  simp [condsEval]
@[simp] theorem pushItem_kept (s : State) (it : ProtItem) : kept (pushItem s it) = kept s := by
  simp [pushItem]
@[simp] theorem apsCompose_kept (s : State) (g tx : Nat) (sig : Bool) : kept (apsCompose s g tx sig) = kept s := by
  unfold apsCompose
  dsimp only
  (repeat' split) <;> simp
@[simp] theorem decideGrp_fixed (s : State) (g why : Nat) : (kept (decideGrp s g why)).1 = (kept s).1 := by
  unfold decideGrp
  extract_lets x0 base0
  split
  · rfl
  · split
    next rem remSig h =>
    extract_lets dropMs x1 base st startWtr loc locSig useRem eff effSig tx target sel selCh reqCh x2 s1 s2 s3 s4
    have k2 : kept s2 = kept s := by
      simp only [s2, s1]
      split <;> simp
    have k3 : (kept s3).1 = (kept s).1 := by
      simp only [s3]
      split
      · simp [k2]
      · rw [k2]
    have k4 : (kept s4).1 = (kept s).1 := by simpa [s4] using k3
    split
    · simpa using k4
    · exact k4

@[simp] theorem grpTake_kept (s : State) (g : Nat) : kept (grpTake s g) = kept s := by
  unfold grpTake
  dsimp only
  (repeat' split) <;> simp
@[simp] theorem egressTake_kept (s : State) (g : Nat) : kept (egressTake s g) = kept s := by
  unfold egressTake
  dsimp only
  (repeat' split) <;> simp
@[simp] theorem evalGrp_fixed (s : State) (g : Nat) : (kept (evalGrp s g)).1 = (kept s).1 := by
  simp [evalGrp]
@[simp] theorem fillAps_kept (s : State) (p : Nat) (o3 : Bool) (notG : Option Nat) :
    kept (fillAps s p o3 notG).1 = kept s := by
  unfold fillAps
  dsimp only
  (repeat' split) <;> simp
@[simp] theorem apsFrame_kept (s : State) (p : Nat) : kept (apsFrame s p) = kept s := by
  simp [apsFrame]
@[simp] theorem xProtHoldoffExpire_fixed (g k : Nat) (s : State) :
    (kept (xProtHoldoffExpire g k s)).1 = (kept s).1 := by
  simp [xProtHoldoffExpire]
@[simp] theorem xProtWtrExpire_fixed (g : Nat) (s : State) : (kept (xProtWtrExpire g s)).1 = (kept s).1 := by
  simp [xProtWtrExpire]
@[simp] theorem applyReq_kept (s : State) (g : Nat) (r : BitVec 4 × Bool) : kept (applyReq s g r) = kept s := by
  simp [applyReq]
@[simp] theorem reqAct_fixed (s : State) (g : Nat) : (kept (reqAct s g)).1 = (kept s).1 := by
  simp [reqAct]
@[simp] theorem xProtRequestAct_fixed (s : State) : (kept (xProtRequestAct s)).1 = (kept s).1 := by
  simp [xProtRequestAct]
@[simp] theorem apsAccept_kept (s : State) (g : Nat) (w : W56) : kept (apsAccept s g w) = kept s := by
  simp [apsAccept]
@[simp] theorem xApsReceive_kept (p : Nat) (o3 : Bool) (arrived : Block) (s : State) :
    kept (xApsReceive p o3 arrived s) = kept s := by
  unfold xApsReceive
  dsimp only
  (repeat' split) <;> simp
@[simp] theorem xApsLoss_fixed (g : Nat) (s : State) : (kept (xApsLoss g s)).1 = (kept s).1 := by
  simp [xApsLoss]
@[simp] theorem xFopNr_fixed (g : Nat) (s : State) : (kept (xFopNr g s)).1 = (kept s).1 := by
  simp [xFopNr]
@[simp] theorem xProtectionReport_kept (s : State) : kept (xProtectionReport s) = kept s := by
  unfold xProtectionReport
  split <;> simp
@[simp] theorem grpDefaults_fixed (s : State) (g : Nat) : (kept (grpDefaults s g)).1 = (kept s).1 := by
  unfold grpDefaults
  extract_lets x s1 s2 s3 req
  have k1 : (kept s1).1 = (kept s).1 := by simp [s1]
  have k2 : kept s2 = kept s1 := by simp [s2]
  have k3 : kept s3 = kept s2 := by
    simp only [s3]
    split <;> simp
  split <;> simp [k3, k2, k1]

@[simp] theorem eqTo_kept (s : State) (g : Nat) (st : EqState) (why : Nat) : kept (eqTo s g st why) = kept s := by
  simp [eqTo]
@[simp] theorem xPathMarkerDetect_kept (g : Nat) (prot : Bool) (s : State) :
    kept (xPathMarkerDetect g prot s) = kept s := by
  unfold xPathMarkerDetect
  dsimp only
  (repeat' split) <;> simp
@[simp] theorem eqEval_kept (s : State) (g : Nat) : kept (eqEval s g) = kept s := by
  unfold eqEval
  dsimp only
  (repeat' split) <;> simp
@[simp] theorem xPmLoss_kept (g : Nat) (prot : Bool) (s : State) : kept (xPmLoss g prot s) = kept s := by
  simp [xPmLoss]
@[simp] theorem xEqEngage_kept (g : Nat) (s : State) : kept (xEqEngage g s) = kept s := by
  unfold xEqEngage
  dsimp only
  (repeat' split) <;> simp
@[simp] theorem xErrorlessSelectorChange_kept (g : Nat) (s : State) : kept (xErrorlessSelectorChange g s) = kept s := by
  unfold xErrorlessSelectorChange
  dsimp only
  (repeat' split) <;> simp
@[simp] theorem eqStart_kept (s : State) (g : Nat) : kept (eqStart s g) = kept s := by
  simp [eqStart]
@[simp] theorem eqStop_kept (s : State) (g : Nat) : kept (eqStop s g) = kept s := by
  simp [eqStop]
@[simp] theorem remeasure_kept (s : State) (g : Nat) : kept (remeasure s g) = kept s := by
  simp [remeasure]
@[simp] theorem adjustE_kept (s : State) (g : Nat) (e : Int) (line : Option (Nat × Bool)) :
    kept (adjustE s g e line) = kept s := by
  simp [adjustE]
theorem slipLines_banks (m : MapSt) (g k : Nat) (skip : Bool) :
    (slipLines m g k skip).a = m.a ∧ (slipLines m g k skip).b = m.b :=
  forEach_keeps (fun n : MapSt => n.a = m.a ∧ n.b = m.b) _ m _ ⟨rfl, rfl⟩ fun _ _ h => h

@[simp] theorem shiftLines_kept (s : State) (g : Nat) : kept (shiftLines s g) = kept s := by
  simp only [shiftLines]
  split
  · rfl
  · rw [onGrp_kept]
    refine onMap_kept s _ fun m => ?_
    refine forEach_keeps (fun n : MapSt => n.a = m.a ∧ n.b = m.b) _ m _ ⟨rfl, rfl⟩ fun n q h => ?_
    split
    · exact ⟨(slipLines_banks _ _ _ _).1.trans h.1, (slipLines_banks _ _ _ _).2.trans h.2⟩
    · exact h

@[simp] theorem eqSlip_kept (s : State) (p k : Nat) (skip : Bool) (g : Nat) : kept (eqSlip s p k skip g) = kept s := by
  simp [eqSlip]
@[simp] theorem xSlip_kept (p : Nat) (s : State) : kept (xSlip p s) = kept s := by
  unfold xSlip
  split <;> simp
@[simp] theorem sendWords_kept (s : State) (p : Nat) : kept (sendWords s p) = kept s := by
  simp [sendWords]
@[simp] theorem resend_kept (s : State) : kept (resend s) = kept s := by
  simp [resend]
@[simp] theorem onRefin_kept (s : State) (n : Nat) (f : RefinSt → RefinSt) : kept (onRefin s n f) = kept s := by
  simp [onRefin]
@[simp] theorem refinFrame_kept (i : FrameIn) (s : State) (n : Nat) : kept (refinFrame i s n) = kept s := by
  simp [refinFrame]
@[simp] theorem candEval_kept (s : State) (c : Nat) : kept (candEval s c) = kept s := by
  simp [candEval]
@[simp] theorem thyTo_kept (s : State) (n : ThyState) : kept (thyTo s n) = kept s := by
  simp [thyTo]
@[simp] theorem setBw_kept (s : State) : kept (setBw s) = kept s := by
  simp [setBw]
@[simp] theorem mirHoldover_kept (s : State) : kept (mirHoldover s) = kept s := by
  simp [mirHoldover]
@[simp] theorem lossLocked_kept (s : State) : kept (lossLocked s) = kept s := by
  simp [lossLocked]
@[simp] theorem refLoss_kept (s : State) : kept (refLoss s) = kept s := by
  unfold refLoss
  split <;> simp
@[simp] theorem allDnuEval_kept (s : State) : kept (allDnuEval s) = kept s := by
  simp [allDnuEval]
@[simp] theorem selectEval_kept (s : State) : kept (selectEval s) = kept s := by
  unfold selectEval
  split
  · rfl
  · split <;> simp

@[simp] theorem ctlEval_kept (i : FrameIn) (s : State) : kept (ctlEval i s) = kept s := by
  unfold ctlEval
  dsimp only
  (repeat' split) <;> simp
@[simp] theorem ivCtlEval_kept (s : State) : kept (ivCtlEval s) = kept s := by
  simp [ivCtlEval]
@[simp] theorem ivEval_kept (s : State) : kept (ivEval s) = kept s := by
  simp [ivEval]
@[simp] theorem lockEval_kept (i : FrameIn) (s : State) : kept (lockEval i s) = kept s := by
  simp [lockEval]
@[simp] theorem clkAlign_kept (s : State) : kept (clkAlign s) = kept s := by
  unfold clkAlign
  split <;> simp
@[simp] theorem thyFrame_kept (i : FrameIn) (s : State) : kept (thyFrame i s) = kept s := by
  simp [thyFrame]
@[simp] theorem reselect_kept (s : State) : kept (reselect s) = kept s := by
  simp [reselect]
@[simp] theorem xCandidateHoldoffExpire_kept (c : Nat) (s : State) : kept (xCandidateHoldoffExpire c s) = kept s := by
  simp [xCandidateHoldoffExpire]
@[simp] theorem xCandidateWtrExpire_kept (c : Nat) (s : State) : kept (xCandidateWtrExpire c s) = kept s := by
  simp [xCandidateWtrExpire]
@[simp] theorem xCandidateQualified_kept (c : Nat) (s : State) : kept (xCandidateQualified c s) = kept s := by
  simp [xCandidateQualified]
@[simp] theorem xFreqMeasurement_kept (ppb : List Int) (s : State) : kept (xFreqMeasurement ppb s) = kept s := by
  simp [xFreqMeasurement]
@[simp] theorem xDpllLock_kept (s : State) : kept (xDpllLock s) = kept s := by
  simp [xDpllLock]
@[simp] theorem switchTo_kept (offset : Word) (c why : Nat) (s : State) : kept (switchTo offset c why s) = kept s := by
  unfold switchTo
  split <;> simp
@[simp] theorem xRefSwitch_kept (offset : Word) (s : State) : kept (xRefSwitch offset s) = kept s := by
  unfold xRefSwitch
  split <;> simp
@[simp] theorem fpRec_kept (s : State) (k code : Nat) : kept (fpRec s k code) = kept s := by
  simp [fpRec]
@[simp] theorem fpIrregular_kept (s : State) (k : Nat) : kept (fpIrregular s k) = kept s := by
  simp [fpIrregular]
@[simp] theorem fpOffTime_kept (s : State) (k : Nat) (err : Int) : kept (fpOffTime s k err) = kept s := by
  simp [fpOffTime]
@[simp] theorem xFpMiss_kept (k : Nat) (s : State) : kept (xFpMiss k s) = kept s := by
  simp [xFpMiss]
@[simp] theorem realignWait_kept (s : State) (k : Nat) : kept (realignWait s k).2 = kept s := by
  unfold realignWait
  split <;> simp
@[simp] theorem xMfcRelearnAct_kept (s : State) : kept (xMfcRelearnAct s) = kept s := by
  unfold xMfcRelearnAct
  split <;> simp
@[simp] theorem xSetQlAct_kept (s : State) : kept (xSetQlAct s) = kept s := by
  simp [xSetQlAct]
@[simp] theorem xThymeForceAct_kept (s : State) : kept (xThymeForceAct s) = kept s := by
  unfold xThymeForceAct
  split <;> simp
@[simp] theorem xHistorySample_kept (freq : BitVec 48) (spread : Nat) (temp : BitVec 16) (s : State) :
    kept (xHistorySample freq spread temp s) = kept s := by
  simp [xHistorySample]
@[simp] theorem hbEval_kept (s : State) : kept (hbEval s) = kept s := by
  unfold hbEval
  extract_lets d t1 s1
  have k1 : kept s1 = kept s := onThy_kept _ _
  split
  · exact onThy_kept _ _
  · split
    · rw [mirHoldover_kept, onThy_kept, k1]
    · rfl

@[simp] theorem xHoldoverExpire_kept (s : State) : kept (xHoldoverExpire s) = kept s := by
  simp [xHoldoverExpire]
@[simp] theorem xOcxoDay_kept (flashOk : Bool) (s : State) : kept (xOcxoDay flashOk s) = kept s := by
  unfold xOcxoDay
  split <;> simp
@[simp] theorem thyEpoch_kept (temp : BitVec 16) (s : State) : kept (thyEpoch temp s) = kept s := by
  simp [thyEpoch]
@[simp] theorem clkStrobe_kept (old : View) (s : State) (o : Nat) : kept (clkStrobe old s o) = kept s := by
  simp [clkStrobe]
@[simp] theorem thyStrobe_kept (old : View) (s : State) : kept (thyStrobe old s) = kept s := by
  simp [thyStrobe]
@[simp] theorem xCommitArm_kept (s : State) : kept (xCommitArm s) = kept s := by
  unfold xCommitArm
  dsimp only
  (repeat' split) <;> simp
@[simp] theorem xCommitValidationDone_kept (s : State) : kept (xCommitValidationDone s) = kept s := by
  unfold xCommitValidationDone
  dsimp only
  (repeat' split) <;> simp
@[simp] theorem bankSwap_kept (s : State) : kept (bankSwap s) = kept s := by
  simp [bankSwap]
@[simp] theorem dropGroups_fixed (s : State) (was : Bool) : (kept (dropGroups s was)).1 = (kept s).1 := by
  refine fixed_forEach _ _ _ fun t g => ?_
  extract_lets t1 t2
  have k1 : (kept t1).1 = (kept t).1 := by
    simp only [t1]
    split <;> simp
  have k2 : (kept t2).1 = (kept t).1 := by
    simp only [t2]
    split <;> simp [k1]
  simpa using k2

@[simp] theorem modeChange_kept (s : State) (p new : Nat) : kept (modeChange s p new) = kept s := by
  simp [modeChange]
@[simp] theorem recentre_kept (s : State) (p : Nat) : kept (recentre s p) = kept s := by
  unfold recentre
  split <;> simp
@[simp] theorem loopChange_kept (s0 : State) (p old new : Nat) : kept (loopChange s0 p old new) = kept s0 := by
  simp [loopChange]
@[simp] theorem depthChange_kept (s : State) (p : Nat) : kept (depthChange s p) = kept s := by
  simp [depthChange]
@[simp] theorem portStrobe_kept (old : View) (s : State) (p : Nat) : kept (portStrobe old s p) = kept s := by
  simp [portStrobe]
@[simp] theorem chkStrobe_kept (old : View) (s : State) (m : Nat) : kept (chkStrobe old s m) = kept s := by
  simp [chkStrobe]
@[simp] theorem eqStrobe_kept (s : State) (g : Nat) : kept (eqStrobe s g) = kept s := by
  simp [eqStrobe]
@[simp] theorem grpDisable_fixed (s : State) (g : Nat) : (kept (grpDisable s g)).1 = (kept s).1 := by
  simp [grpDisable]
@[simp] theorem grpRestart_fixed (s : State) (g : Nat) (anew : Bool) : (kept (grpRestart s g anew)).1 = (kept s).1 := by
  simp [grpRestart]
@[simp] theorem grpTune_kept (old : View) (s : State) (g : Nat) : kept (grpTune old s g) = kept s := by
  simp [grpTune]
@[simp] theorem grpStrobe_fixed (old : View) (oe : Tbl Entry) (s : State) (g : Nat) :
    (kept (grpStrobe old oe s g)).1 = (kept s).1 := by
  simp [grpStrobe]
@[simp] theorem releaseHeld_kept (s : State) : kept (releaseHeld s) = kept s :=
  kept_forEach _ _ _ fun _ _ => onGrp_kept _ _ _

@[simp] theorem bwLatch_kept (s : State) (p w : Nat) : kept (bwLatch s p w) = kept s := by
  simp [bwLatch]
@[simp] theorem bwRestart_kept (old v : View) (s : State) (p : Nat) : kept (bwRestart old v s p) = kept s := by
  simp [bwRestart]
@[simp] theorem obsStrobe_kept (old : View) (s : State) : kept (obsStrobe old s) = kept s := by
  simp [obsStrobe]
@[simp] theorem pinStrobe_kept (old : View) (s : State) : kept (pinStrobe old s) = kept s := by
  simp [pinStrobe]
@[simp] theorem autoStrobe_kept (s : State) (stage : Nat) : kept (autoStrobe s stage) = kept s := by
  simp [autoStrobe]
@[simp] theorem afterCopy_fixed (old : View) (was : Bool) (lines : MapSt) (mask : BitVec 8) (s : State) :
    (kept (afterCopy old was lines mask s)).1 = (kept s).1 := by
  unfold afterCopy
  generalize allPorts = l
  extract_lets oe s2 s3 t s4 s5 s6
  have k2 : kept s2 = kept s := by
    simp only [s2]
    split <;> simp
  have k3 : kept s3 = kept s := by
    simp only [s3]
    split <;> simp [k2]
  have k4 : (kept s4).1 = (kept s).1 := by
    simp only [s4]
    split <;> simp [t, k3]
  have k5 : (kept s5).1 = (kept s).1 := by
    simp only [s5]
    split <;> simp [k4]
  have k6 : (kept s6).1 = (kept s).1 := by
    simp only [s6]
    split <;> simp [k5]
  split <;> simp [k6]

@[simp] theorem reportEnt_kept (s : State) (i : Nat) : kept (reportEnt s i) = kept s := by
  unfold reportEnt
  split <;> simp
@[simp] theorem xCommitReport_kept (s : State) : kept (xCommitReport s) = kept s := by
  simp [xCommitReport]
@[simp] theorem commitEnter_kept (s : State) (mask : BitVec 8) (e : Nat) (grp : Bool) (dest : BitVec 12)
    (mr : BitVec 16 × BitVec 32) (auto : Nat) : kept (commitEnter s mask e grp dest mr auto) = kept s := by
  unfold commitEnter
  dsimp only
  (repeat' split) <;> simp
@[simp] theorem disagreeEval_kept (s : State) : kept (disagreeEval s) = kept s := by
  simp [disagreeEval]
@[simp] theorem blockedEval_kept (s : State) : kept (blockedEval s) = kept s := by
  simp [blockedEval]
@[simp] theorem startResync_kept (s : State) : kept (startResync s) = kept s := by
  simp [startResync]
@[simp] theorem failResync_kept (s : State) (detail : Byte) (why : Nat) : kept (failResync s detail why) = kept s := by
  simp [failResync]
@[simp] theorem xAliveInChange_kept (level : Bool) (s : State) : kept (xAliveInChange level s) = kept s := by
  simp [xAliveInChange]
@[simp] theorem startWatch_kept (s : State) : kept (startWatch s) = kept s := by
  simp [startWatch]
@[simp] theorem txSuspectEval_kept (s : State) : kept (txSuspectEval s) = kept s := by
  unfold txSuspectEval
  split <;> simp
@[simp] theorem runOn_kept (s : State) : kept (runOn s) = kept s := by
  unfold runOn
  split
  · exact kept_forEach _ _ _ fun _ _ => onGrp_kept _ _ _
  · rfl

@[simp] theorem thyTake_kept (s : State) : kept (thyTake s) = kept s := by
  simp [thyTake]
@[simp] theorem xTakeover_kept (s : State) : kept (xTakeover s) = kept s := by
  simp [xTakeover]
@[simp] theorem xPairSwapExecute_kept (s : State) : kept (xPairSwapExecute s) = kept s := by
  unfold xPairSwapExecute
  split <;> simp
@[simp] theorem xPairSwapAssume_kept (s : State) : kept (xPairSwapAssume s) = kept s := by
  unfold xPairSwapAssume
  split <;> simp
@[simp] theorem xPairSwapAbort_kept (s : State) : kept (xPairSwapAbort s) = kept s := by
  unfold xPairSwapAbort
  split <;> simp
@[simp] theorem xPairSwapRevert_kept (s : State) : kept (xPairSwapRevert s) = kept s := by
  unfold xPairSwapRevert
  split <;> simp
@[simp] theorem xTxWatchEnd_kept (s : State) : kept (xTxWatchEnd s) = kept s := by
  unfold xTxWatchEnd
  split <;> simp
@[simp] theorem xForceActiveAct_kept (s : State) : kept (xForceActiveAct s) = kept s := by
  simp [xForceActiveAct]
@[simp] theorem pairFrame_kept (s : State) : kept (pairFrame s) = kept s := by
  unfold pairFrame
  dsimp only
  (repeat' split) <;> simp
@[simp] theorem beginStage_kept (s : State) (n : Nat) : kept (beginStage s n) = kept s := by
  simp [beginStage]
@[simp] theorem xArbitrationEnd_kept (s : State) : kept (xArbitrationEnd s) = kept s := by
  unfold xArbitrationEnd
  dsimp only
  (repeat' split) <;> simp
@[simp] theorem stageSaved_kept (s : State) (saved : Tbl Word) (mask : BitVec 8) :
    kept (stageSaved s saved mask) = kept s := by
  simp [stageSaved]
@[simp] theorem stageMap_fixed (s : State) (c : SavedCfg) : (kept (stageMap s c)).1 = (kept s).1 :=
  (fixed_forEach _ _ _ fun _ _ => congrArg Prod.fst (hostSmi_kept _ _ _ _)).trans
    (fixed_forEach _ _ _ fun _ _ => hostStore_fixed _ _ _ _ _)

@[simp] theorem xAutoRestoreStaged_fixed (s : State) : (kept (xAutoRestoreStaged s)).1 = (kept s).1 := by
  unfold xAutoRestoreStaged
  dsimp only
  (repeat' split) <;> simp
@[simp] theorem xAutoRestoreStage2_kept (s : State) : kept (xAutoRestoreStage2 s) = kept s := by
  simp [xAutoRestoreStage2]
@[simp] theorem xAutoRestoreStage2Timeout_kept (s : State) : kept (xAutoRestoreStage2Timeout s) = kept s := by
  unfold xAutoRestoreStage2Timeout
  split <;> simp
@[simp] theorem laneIn_kept (s : State) (p : Nat) (bs : List Block) : kept (laneIn s p bs) = kept s := by
  simp [laneIn]
@[simp] theorem trunkRead_kept (s : State) (p : Nat) : kept (trunkRead s p) = kept s := by
  unfold trunkRead
  dsimp only
  (repeat' split) <;> simp
@[simp] theorem clearPage_kept (s : State) : kept (clearPage s) = kept s := by
  simp [clearPage]
@[simp] theorem egressSlot_kept (s0 : State) (bad : List Nat) (s : State) (i : Nat) :
    kept (egressSlot s0 bad s i) = kept s := by
  unfold egressSlot
  dsimp only
  (repeat' split) <;> simp
@[simp] theorem parityError_kept (s : State) (src : Nat) : kept (parityError s src) = kept s := by
  simp [parityError]
@[simp] theorem transmit_kept (s : State) (p : Nat) (bs : List Block) : kept (transmit s p bs) = kept s := by
  simp [transmit]
@[simp] theorem farPayload_kept (s : State) (t : TrunkSt) : kept (farPayload s t).2 = kept s := by
  unfold farPayload
  split <;> simp
@[simp] theorem trunkEgress_kept (s : State) (p : Nat) (t : TrunkSt) : kept (trunkEgress s p t) = kept s := by
  unfold trunkEgress
  split_ifs <;> simp
@[simp] theorem egTake_kept (p : Nat) (u : List Block × State) : kept (egTake p u).2 = kept u.2 := by
  unfold egTake
  split <;> simp

@[simp] theorem gatherBlock_kept (p : Nat) (s : State) (b : Block) : kept (gatherBlock p s b) = kept s := by
  simp [gatherBlock]
@[simp] theorem deAdapt_kept (s : State) (p : Nat) : kept (deAdapt s p).2 = kept s := by
  unfold deAdapt
  extract_lets u
  have k : kept u.2 = kept s := kept_forEach_snd _ _ _ _ fun u b => by simp
  split <;> simp [k]

@[simp] theorem farTake_kept (p n : Nat) (s : State) : kept (farTake p n s).2 = kept s := by
  refine kept_forEach_snd _ _ _ _ fun u _ => ?_
  split <;> simp

@[simp] theorem clientEgress_kept (s : State) (p : Nat) : kept (clientEgress s p) = kept s := by
  unfold clientEgress
  split_ifs <;> simp
@[simp] theorem portEgress_kept (was : State) (s : State) (p : Nat) : kept (portEgress was s p) = kept s := by
  simp [portEgress]
@[simp] theorem lineArrive_kept (s : State) (pb : Nat × List Block) : kept (lineArrive s pb) = kept s := by
  simp [lineArrive]
@[simp] theorem xCalendarCycle_kept (arrived : List (Nat × List Block)) (bad : List Nat) (s : State) :
    kept (xCalendarCycle arrived bad s) = kept s := by
  simp [xCalendarCycle]
@[simp] theorem feedReg_kept (s : State) (hist : BitVec 8) (ctrs : List Nat) : kept (feedReg s hist ctrs) = kept s := by
  simp [feedReg]
@[simp] theorem feedRec_kept (s : State) (sub : Nat) (old new : Bool) (reason : Nat) :
    kept (feedRec s sub old new reason) = kept s := by
  simp [feedRec]
@[simp] theorem feedRecFree_kept (s : State) (sub : Nat) (old new : Bool) :
    kept (feedRecFree s sub old new) = kept s := by
  simp [feedRecFree]
@[simp] theorem feedIdle_kept (s : State) : kept (feedIdle s) = kept s := by
  unfold feedIdle
  split <;> simp
@[simp] theorem storeResult_kept (s : State) (n : Nat) : kept (storeResult s n) = kept s := by
  unfold storeResult
  dsimp only
  (repeat' split) <;> simp
@[simp] theorem startSwitch_kept (s : State) (t : Bool) : kept (startSwitch s t) = kept s := by
  simp [startSwitch]
@[simp] theorem failoverDone_kept (s : State) (b : Bool) : kept (failoverDone s b) = kept s := by
  simp [failoverDone]
@[simp] theorem feedDeclared_kept (s : State) : kept (feedDeclared s) = kept s := by
  simp [feedDeclared]
@[simp] theorem xFeedUvCross_kept (s : State) : kept (xFeedUvCross s) = kept s := by
  simp [xFeedUvCross]
@[simp] theorem xFeedGlitch_kept (s : State) : kept (xFeedGlitch s) = kept s := by
  simp [xFeedGlitch]
@[simp] theorem feedDeclare_kept (s : State) (ov : Bool) (hist : BitVec 8) (ctr : Nat) :
    kept (feedDeclare s ov hist ctr) = kept s := by
  simp [feedDeclare]
@[simp] theorem xFeedUvDeclare_kept (s : State) : kept (xFeedUvDeclare s) = kept s := by
  simp [xFeedUvDeclare]
@[simp] theorem xFeedOvDeclare_kept (s : State) : kept (xFeedOvDeclare s) = kept s := by
  simp [xFeedOvDeclare]
@[simp] theorem xFeedFailoverComplete_kept (s : State) : kept (xFeedFailoverComplete s) = kept s := by
  unfold xFeedFailoverComplete
  split <;> simp
@[simp] theorem xFeedGood_kept (b : Bool) (s : State) : kept (xFeedGood b s) = kept s := by
  simp [xFeedGood]
@[simp] theorem feedLost_kept (s : State) (b : Bool) : kept (feedLost s b) = kept s := by
  simp [feedLost]
@[simp] theorem xFeedNotGood_kept (b ov : Bool) (s : State) : kept (xFeedNotGood b ov s) = kept s := by
  simp [xFeedNotGood]
@[simp] theorem xOvTrip_kept (b : Bool) (s : State) : kept (xOvTrip b s) = kept s := by
  simp [xOvTrip]
@[simp] theorem xFeedSwitchResult_kept (s : State) : kept (xFeedSwitchResult s) = kept s := by
  unfold xFeedSwitchResult
  split <;> simp
@[simp] theorem xFeedSwitchTimeout_kept (s : State) : kept (xFeedSwitchTimeout s) = kept s := by
  unfold xFeedSwitchTimeout
  split <;> simp
@[simp] theorem xUvRelease_kept (ov : Bool) (s : State) : kept (xUvRelease ov s) = kept s := by
  simp [xUvRelease]
@[simp] theorem xFeedLatchRelease_kept (s : State) : kept (xFeedLatchRelease s) = kept s := by
  simp [xFeedLatchRelease]
@[simp] theorem feedTrace_kept (s : State) (r : Nat × Bool × Bool × Nat × Sfp) : kept (feedTrace s r) = kept s := by
  simp [feedTrace]
@[simp] theorem feedFrame_kept (i : FrameIn) (s : State) : kept (feedFrame i s) = kept s := by
  simp [feedFrame]
@[simp] theorem mgWindow_kept (s : State) (b : Bool) (k n : Nat) : kept (mgWindow s b k n) = kept s := by
  simp [mgWindow]
@[simp] theorem mgLimited_kept (s : State) (b : Bool) (k n : Nat) : kept (mgLimited s b k n) = kept s := by
  simp [mgLimited]
@[simp] theorem viaLimited_kept (s : State) (v : Transport) (k : Nat) : kept (viaLimited s v k) = kept s := by
  unfold viaLimited
  split <;> simp
@[simp] theorem dmaPut_kept (s : State) : kept (dmaPut s).1 = kept s := by
  unfold dmaPut
  split <;> simp
@[simp] theorem dmaTake_kept (s : State) (n : Nat) : kept (dmaTake s n).1 = kept s := by
  unfold dmaTake
  dsimp only
  split_ifs <;> simp
@[simp] theorem replyQueue_kept (s : State) (b : Bool) (p : OutPkt) : kept (replyQueue s b p) = kept s := by
  simp [replyQueue]
@[simp] theorem spiPush_kept (s : State) (b : Bytes) : kept (spiPush s b) = kept s := by
  simp [spiPush]
@[simp] theorem chanPut_kept (s : State) (p : Nat) (pri : BitVec 2) (b : Bytes) :
    kept (chanPut s p pri b).1 = kept s := by
  unfold chanPut
  dsimp only
  split_ifs <;> simp
@[simp] theorem inbandOut_kept (s : State) (origin : Option (BitVec 12)) (pri : BitVec 2) (b : Bytes) :
    kept (inbandOut s origin pri b) = kept s := by
  unfold inbandOut
  split <;> simp
@[simp] theorem outVia_kept (s : State) (ret : Return) (front : Bool) (origin : Option (BitVec 12)) (pri : BitVec 2)
    (b : Bytes) : kept (outVia s ret front origin pri b) = kept s := by
  unfold outVia
  split <;> simp
@[simp] theorem sendReply_kept (s : State) (r : Reply) : kept (sendReply s r) = kept s := by
  simp [sendReply]
@[simp] theorem frontReply_kept (s : State) (q : Req) (op : BitVec 16) (status detail : Byte) (remain : BitVec 16) :
    kept (frontReply s q op status detail remain) = kept s := by
  simp [frontReply]
@[simp] theorem badAuth_kept (s : State) (q : Req) (op : BitVec 16) (detail : Byte) (check3 : Bool) :
    kept (badAuth s q op detail check3) = kept s := by
  simp [badAuth]
@[simp] theorem answerBusy_kept (s : State) (q : Req) (op : BitVec 16) (st : Byte) (remain : BitVec 16) :
    kept (answerBusy s q op st remain) = kept s := by
  simp [answerBusy]
@[simp] theorem queueIn_kept (s : State) (q : Queued) : kept (queueIn s q) = kept s := by
  unfold queueIn
  dsimp only
  (repeat' split) <;> simp
@[simp] theorem arrive_kept (s : State) (q : Queued) : kept (arrive s q) = kept s := by
  unfold arrive
  split <;> simp
@[simp] theorem seqRecord_kept (s : State) (a : Nat) (x : ReplaySt) : kept (seqRecord s a x) = kept s := by
  simp [seqRecord]
@[simp] theorem setReply_kept (s : State) (status detail : Byte) (data : Bytes) :
    kept (setReply s status detail data) = kept s := by
  unfold setReply
  split <;> simp
@[simp] theorem replyOk_kept (s : State) (data : Bytes) : kept (replyOk s data) = kept s := by
  simp [replyOk]
@[simp] theorem onRun_kept (s : State) (f : Run → Run) : kept (onRun s f) = kept s := by
  simp [onRun]
@[simp] theorem replyEnd_kept (s : State) (e : EndAct) : kept (replyEnd s e) = kept s := by
  simp [replyEnd]
@[simp] theorem latPush_kept (s : State) (r : LatRec) : kept (latPush s r) = kept s := by
  unfold latPush
  dsimp only
  split_ifs <;> simp
@[simp] theorem relayOn_kept (s : State) (ports : List Nat) (pri : BitVec 2) (b : Bytes) :
    kept (relayOn s ports pri b) = kept s := by
  simp [relayOn]
@[simp] theorem forwardCmd_kept (s : State) (ret : Return) (b : Bytes) (ports : List Nat) (deliver : Bool) :
    kept (forwardCmd s ret b ports deliver).1 = kept s := by
  unfold forwardCmd
  dsimp only
  split_ifs <;> simp
@[simp] theorem relayReply_kept (s : State) (b : Bytes) : kept (relayReply s b) = kept s := by
  unfold relayReply
  split
  · split
    · split <;> simp
    · split_ifs <;> simp
  · simp

@[simp] theorem dupAdd_kept (s : State) (b : Bytes) : kept (dupAdd s b) = kept s := by
  simp [dupAdd]
@[simp] theorem setResp_kept (s : State) (m : Nat) (r : Resp) : kept (setResp s m r) = kept s := by
  simp [setResp]
@[simp] theorem decErr_kept (s : State) (m : Nat) : kept (decErr s m) = kept s := by
  simp [decErr]
@[simp] theorem slvErr_kept (s : State) (m : Nat) : kept (slvErr s m) = kept s := by
  simp [slvErr]
@[simp] theorem asleep_kept (s : State) (m : Nat) : kept (asleep s m) = kept s := by
  simp [asleep]
@[simp] theorem ramPut_fixed (s : State) (o : Nat) (b : Bytes) : (kept (ramPut s o b)).1 = (kept s).1 := (rfl)

@[simp] theorem scratchPut_fixed (s : State) (o : Nat) (b : Bytes) : (kept (scratchPut s o b)).1 = (kept s).1 := (rfl)

@[simp] theorem eccFresh_kept (s : State) (memory o : Nat) : kept (eccFresh s memory o) = kept s := by
  simp [eccFresh]
@[simp] theorem codeWrite_fixed (s : State) (m a : Nat) (v : Word) : (kept (codeWrite s m a v)).1 = (kept s).1 := by
  unfold codeWrite
  split
  · split_ifs <;> simp
  · split <;> simp

@[simp] theorem scratchWrite_fixed (s : State) (m a : Nat) (v : Word) (c : Bool) :
    (kept (scratchWrite s m a v c)).1 = (kept s).1 := by
  simp only [scratchWrite]
  split_ifs <;> simp

@[simp] theorem traceWrite_kept (s : State) (m a : Nat) (v : Word) : kept (traceWrite s m a v) = kept s := by
  simp [traceWrite]
@[simp] theorem mapWordWrite_fixed (s : State) (m a : Nat) (v : Word) (c : Bool) :
    (kept (mapWordWrite s m a v c)).1 = (kept s).1 := by
  simp only [mapWordWrite]
  split_ifs <;> simp

@[simp] theorem stageWord_kept (s : State) (b mask : Nat) (v : Word) : kept (stageWord s b mask v) = kept s := by
  simp [stageWord]
@[simp] theorem mdioWrite_kept (s : State) (v : Word) : kept (mdioWrite s v) = kept s := by
  have plain : domOf aMdioCmd = none := by decide
  simp [mdioWrite, plain]

theorem domOf_snapCtrl : domOf aSnapCtrl = none := by decide
@[simp] theorem snapWrite_kept (s : State) (v : Word) : kept (snapWrite s v) = kept s := by
  simp [snapWrite, domOf_snapCtrl]

theorem domOf_of_rw {a mask : Nat} {fw : Bool} (h : kindAct a = .rw mask fw) : domOf a = none := by
  simp [domOf, h]

/-- The high word below a plain low word is of no commit domain either. -/
theorem domOf_wideHi {a mask : Nat} {fw : Bool} (h : kindAct a = .rw mask fw) (lo : isWideLo a = true) :
    domOf (a - 4) = none := by
  simp only [isWideLo, isWideHi, Bool.and_eq_true, Bool.or_eq_true, beq_iff_eq, decide_eq_true_eq] at lo
  obtain ⟨le, ((((hi | hi) | hi) | hi) | hi)⟩ := lo
  · rw [hi]; decide
  · obtain rfl : a = aSage + 0x40C := by omega
    cases h
  · obtain rfl : a = aSage + 0x428 := by omega
    cases h
  · rw [hi]; decide
  · rw [hi]; decide

theorem plainWrite_kept {a mask : Nat} {fw : Bool} (h : kindAct a = .rw mask fw) (s : State) (k : Nat) (v : Word) :
    kept (plainWrite s a k v) = kept s := by
  have plain := domOf_of_rw h
  simp only [plainWrite]
  split_ifs with hi lo
  · simp
  · exact (onRegs_setAct_kept plain (onRegs s (setAct (a - 4) _)) _).trans (onRegs_setAct_kept (domOf_wideHi h lo) s _)
  all_goals simp [plain]

@[simp] theorem clearSticky_kept (s : State) (a : Nat) (w : Word) : kept (clearSticky s a w) = kept s := by
  simp [clearSticky]
@[simp] theorem guardFailed_kept (s : State) (cause addr : Nat) : kept (guardFailed s cause addr) = kept s := by
  simp [guardFailed]
@[simp] theorem closePair_kept (s : State) (k : Nat) : kept (closePair s k) = kept s := by
  simp [closePair]
@[simp] theorem pairTimeout_kept (s : State) (k : Nat) : kept (pairTimeout s k) = kept s := by
  unfold pairTimeout
  split <;> simp
@[simp] theorem interleave_kept (s : State) (k : Nat) : kept (interleave s k) = kept s := by
  unfold interleave
  dsimp only
  (repeat' split) <;> simp
@[simp] theorem interleaveAt_kept (s : State) (a : Nat) : kept (interleaveAt s a) = kept s := by
  unfold interleaveAt
  split <;> simp
@[simp] theorem openPair_kept (s : State) (k a : Nat) (v : Word) : kept (openPair s k a v) = kept s := by
  unfold openPair
  dsimp only
  (repeat' split) <;> simp
@[simp] theorem secondWrite_kept (s : State) (k a : Nat) (c : Word) : kept (secondWrite s k a c).1 = kept s := by
  unfold secondWrite
  dsimp only
  (repeat' split) <;> simp
@[simp] theorem swapRecord_kept (s : State) (f : Sfp) : kept (swapRecord s f) = kept s := by
  simp [swapRecord]
@[simp] theorem swapWithdraw_kept (s : State) : kept (swapWithdraw s) = kept s := by
  simp [swapWithdraw]
@[simp] theorem forceRecord_kept (s : State) : kept (forceRecord s) = kept s := by
  simp [forceRecord]
@[simp] theorem seqRstDue_kept (s : State) : kept (seqRstDue s) = kept s := by
  simp [seqRstDue]
@[simp] theorem gwEffect_kept (s : State) (a : Nat) (v : Word) : kept (gwEffect s a v) = kept s := by
  simp [gwEffect]
@[simp] theorem gwTake_kept (acc : Sfp) (s : State) (a mask : Nat) (v : Word) :
    kept (gwTake acc s a mask v) = kept s := by
  simp [gwTake]
@[simp] theorem sysSecond_kept (s : State) (a : Nat) (c : Word) : kept (sysSecond s a c) = kept s := by
  unfold sysSecond
  dsimp only
  (repeat' split) <;> simp
@[simp] theorem fastWrite_kept (s : State) (m a : Nat) (v : Word) : kept (fastWrite s m a v) = kept s := by
  unfold fastWrite
  split
  · split
    · dsimp only
      split <;> simp
    · simp
  · split
    case h_3 rw => simp [plainWrite_kept rw]
    case h_5 =>
      dsimp only
      split <;> simp
    all_goals simp

@[simp] theorem kpWrite_kept (s : State) (a b mask : Nat) (v : Word) : kept (kpWrite s a b mask v) = kept s := by
  simp [kpWrite]
@[simp] theorem overrun_kept (s : State) (k : Nat) : kept (overrun s k) = kept s := by
  simp [overrun]
@[simp] theorem post_kept (s : State) (k m a : Nat) (v : Word) : kept (post s k m a v) = kept s := by
  simp [post]
@[simp] theorem blkWrite_kept (s : State) (k : Nat) (v : Word) : kept (blkWrite s k v) = kept s := by
  simp [blkWrite]
@[simp] theorem feedSecond_kept (s : State) (m : Nat) (c : Word) : kept (feedSecond s m c) = kept s := by
  unfold feedSecond
  dsimp only
  (repeat' split) <;> simp
@[simp] theorem slowWrite_kept (s : State) (m a : Nat) (v : Word) : kept (slowWrite s m a v) = kept s := by
  unfold slowWrite
  dsimp only
  (repeat' split) <;> simp
@[simp] theorem slowComplete_kept (s : State) (p : Posted) : kept (slowComplete s p) = kept s := by
  unfold slowComplete
  extract_lets b
  split
  · split <;> simp
  · next rw => simp [plainWrite_kept rw]
  · simp
  · simp
  · rfl

@[simp] theorem matDoWrite_fixed (s : State) (m a : Nat) (v : Word) (collide : Bool) :
    (kept (matDoWrite s m a v collide)).1 = (kept s).1 := by
  unfold matDoWrite
  split <;> simp
@[simp] theorem setData_kept (s : State) (m : Nat) (w : Word) : kept (setData s m w) = kept s := by
  simp [setData]
@[simp] theorem eccData_kept (s : State) (m : Nat) : kept (eccData s m) = kept s := by
  simp [eccData]
@[simp] theorem memUncorr_kept (s : State) (memory o bank : Nat) : kept (memUncorr s memory o bank) = kept s := by
  simp [memUncorr]

@[simp] theorem mapWordRead_kept (s : State) (m a : Nat) : kept (mapWordRead s m a) = kept s := by
  unfold mapWordRead
  split <;> simp
@[simp] theorem memRead32_kept (s : State) (m memory o bank : Nat) (f : Nat → Byte) :
    kept (memRead32 s m memory o bank f) = kept s := by
  unfold memRead32
  split_ifs <;> simp
@[simp] theorem matRead_kept (s : State) (m a : Nat) : kept (matRead s m a) = kept s := by
  unfold matRead
  split
  · simp
  · split_ifs
    · simp
    · split
      · simp
      · split <;> simp
    all_goals simp

@[simp] theorem matPerform_fixed (s : State) (r : MatReq) : (kept (matPerform s r)).1 = (kept s).1 := by
  unfold matPerform
  split <;> simp
@[simp] theorem matGrant_fixed (s : State) (t : Nat) (r : MatReq) : (kept (matGrant s t r)).1 = (kept s).1 := by
  simp [matGrant]
@[simp] theorem matArbitrate_fixed (s : State) (t : Nat) : (kept (matArbitrate s t)).1 = (kept s).1 := by
  unfold matArbitrate
  split
  · rfl
  · split <;> simp

@[simp] theorem matServe_fixed (s : State) (t : Nat) : (kept (matServe s t)).1 = (kept s).1 := by
  unfold matServe
  split
  · split
    · rfl
    · simp
  · rfl

@[simp] theorem matRun_fixed (s : State) : (kept (matRun s)).1 = (kept s).1 := by
  simp [matRun]
@[simp] theorem matIssue_fixed (s : State) (r : MatReq) : (kept (matIssue s r)).1 = (kept s).1 := by
  unfold matIssue
  split <;> simp
@[simp] theorem matWrite_fixed (s : State) (m a : Nat) (v : Word) (collide : Bool) :
    (kept (matWrite s m a v collide)).1 = (kept s).1 := by
  simp [matWrite]
@[simp] theorem xRegisterWrite_fixed (m addr : Nat) (v : Word) (s : State) :
    (kept (xRegisterWrite m addr v s)).1 = (kept s).1 := by
  simp [xRegisterWrite]
@[simp] theorem xSfpCapPosRead_fixed (m : Nat) (s : State) : (kept (xSfpCapPosRead m s)).1 = (kept s).1 := by
  simp [xSfpCapPosRead]
@[simp] theorem xMapHighWordWrite_fixed (m addr : Nat) (v : Word) (s : State) :
    (kept (xMapHighWordWrite m addr v s)).1 = (kept s).1 := by
  simp [xMapHighWordWrite]
@[simp] theorem xMapLowWordWrite_fixed (m addr : Nat) (v : Word) (collide : Bool) (s : State) :
    (kept (xMapLowWordWrite m addr v collide s)).1 = (kept s).1 := by
  simp [xMapLowWordWrite]
@[simp] theorem xMapHighWordRead_fixed (m addr : Nat) (s : State) :
    (kept (xMapHighWordRead m addr s)).1 = (kept s).1 := by
  simp [xMapHighWordRead]
@[simp] theorem xPostedWrite_fixed (m addr : Nat) (v : Word) (s : State) :
    (kept (xPostedWrite m addr v s)).1 = (kept s).1 := by
  simp [xPostedWrite]
@[simp] theorem xPostedWriteComplete_fixed (k : Nat) (s : State) :
    (kept (xPostedWriteComplete k s)).1 = (kept s).1 := by
  unfold xPostedWriteComplete
  split <;> simp
@[simp] theorem xBlkStatWrite_fixed (m k : Nat) (v : Word) (s : State) :
    (kept (xBlkStatWrite m k v s)).1 = (kept s).1 := by
  simp [xBlkStatWrite]
@[simp] theorem xGuardPairOpen_fixed (m addr : Nat) (v : Word) (s : State) :
    (kept (xGuardPairOpen m addr v s)).1 = (kept s).1 := by
  simp [xGuardPairOpen]
@[simp] theorem xGuardTimeout_kept (addr : Nat) (s : State) : kept (xGuardTimeout addr s) = kept s := by
  unfold xGuardTimeout
  split
  · split
    · split <;> simp
    · rfl
  · rfl

@[simp] theorem xGuardOrphan_fixed (m addr : Nat) (v : Word) (s : State) :
    (kept (xGuardOrphan m addr v s)).1 = (kept s).1 := by
  simp [xGuardOrphan]
@[simp] theorem xRemap_fixed (m : Nat) (c : Word) (s : State) : (kept (xRemap m c s)).1 = (kept s).1 := by
  simp [xRemap]
@[simp] theorem xSeqRst_fixed (m : Nat) (c : Word) (s : State) : (kept (xSeqRst m c s)).1 = (kept s).1 := by
  simp [xSeqRst]
@[simp] theorem xFlashWe_fixed (m : Nat) (c : Word) (s : State) : (kept (xFlashWe m c s)).1 = (kept s).1 := by
  simp [xFlashWe]
@[simp] theorem xKeyWe_fixed (m : Nat) (c : Word) (s : State) : (kept (xKeyWe m c s)).1 = (kept s).1 := by
  simp [xKeyWe]
@[simp] theorem xBscanUnlock_fixed (m : Nat) (c : Word) (s : State) : (kept (xBscanUnlock m c s)).1 = (kept s).1 := by
  simp [xBscanUnlock]
@[simp] theorem xPairCtlSwap_fixed (m : Nat) (c : Word) (s : State) : (kept (xPairCtlSwap m c s)).1 = (kept s).1 := by
  simp [xPairCtlSwap]
@[simp] theorem xPairCtlCancel_fixed (m : Nat) (c : Word) (s : State) :
    (kept (xPairCtlCancel m c s)).1 = (kept s).1 := by
  simp [xPairCtlCancel]
@[simp] theorem xPairCtlForceActive_fixed (m : Nat) (c : Word) (s : State) :
    (kept (xPairCtlForceActive m c s)).1 = (kept s).1 := by
  simp [xPairCtlForceActive]
@[simp] theorem xFeedSelectTarget_fixed (m : Nat) (c : Word) (s : State) :
    (kept (xFeedSelectTarget m c s)).1 = (kept s).1 := by
  simp [xFeedSelectTarget]
@[simp] theorem xMdioStart_fixed (m : Nat) (v : Word) (s : State) : (kept (xMdioStart m v s)).1 = (kept s).1 := by
  simp [xMdioStart]
@[simp] theorem xMgmtSnapArm_fixed (m : Nat) (v : Word) (s : State) : (kept (xMgmtSnapArm m v s)).1 = (kept s).1 := by
  simp [xMgmtSnapArm]
@[simp] theorem xMatrixAged_kept (m t : Nat) (s : State) : kept (xMatrixAged m t s) = kept s := by
  simp [xMatrixAged]
@[simp] theorem mirTake_kept (full : Bool) (l : List MirSrc) (s : State) : kept (mirTake full l s).2 = kept s := by
  induction l generalizing s with
  | nil => rfl
  | cons x l ih =>
    unfold mirTake
    dsimp only
    split
    · simp [ih]
    · rfl
@[simp] theorem mirFill_kept (s : State) : kept (mirFill s) = kept s := by
  unfold mirFill
  dsimp only
  split <;> simp

@[simp] theorem mirFrame_fixed (s : State) : (kept (mirFrame s)).1 = (kept s).1 := by
  simp [mirFrame]
@[simp] theorem mirGroup_kept (s : State) (stamp : Sfp) (g : Nat) (x : MirGrp) :
    kept (mirGroup s stamp g x) = kept s := by
  simp [mirGroup]
@[simp] theorem mirEnt_kept (s : State) (i : Nat) (e : MirEnt) : kept (mirEnt s i e) = kept s := by
  unfold mirEnt
  dsimp only
  (repeat' split) <;> simp
@[simp] theorem mirEq_kept (s : State) (g code e : Nat) : kept (mirEq s g code e) = kept s := by
  simp [mirEq]
@[simp] theorem mirHash_kept (s : State) (slot : Nat) (h : Bytes) : kept (mirHash s slot h) = kept s := by
  simp [mirHash]
@[simp] theorem mirThyme_kept (s : State) (at_ : Sfp) (st : ThyState) (ref : Option Nat) (rf mv : Bool)
    (qls : BitVec 16) (force : Option Nat) : kept (mirThyme s at_ st ref rf mv qls force) = kept s := by
  simp [mirThyme]
@[simp] theorem xMirrorAudit_kept (crcs : List Word) (s : State) : kept (xMirrorAudit crcs s) = kept s := by
  simp only [xMirrorAudit]
  generalize (List.range 142).filter _ = bad
  split_ifs <;> simp

@[simp] theorem mirrorFull_kept (s : State) (x : MirSrc) : kept (activeTake.mirrorFull s x) = kept s := by
  simp [activeTake.mirrorFull]
@[simp] theorem activeTake_kept (m : MirrorRec) (s : State) : kept (activeTake m s) = kept s := by
  unfold activeTake
  split <;> simp

@[simp] theorem syncHeartbeat_kept (s : State) (compat : Byte) (locked : Bool) :
    kept (syncHeartbeat s compat locked) = kept s := by
  simp [syncHeartbeat]
@[simp] theorem xChiveLaneDown_kept (lane : Nat) (s : State) : kept (xChiveLaneDown lane s) = kept s := by
  simp [xChiveLaneDown]
@[simp] theorem xMirrorLost_fixed (s : State) : (kept (xMirrorLost s)).1 = (kept s).1 := by
  unfold xMirrorLost
  dsimp only
  (repeat' split) <;> simp
@[simp] theorem xResyncDone_kept (s : State) : kept (xResyncDone s) = kept s := by
  simp [xResyncDone]
@[simp] theorem deliver_kept (s : State) (r : Req) (op : BitVec 16) (tagOk zeroTag : Bool) :
    kept (deliver s r op tagOk zeroTag) = kept s := by
  simp [deliver]
@[simp] theorem handleCmd_kept (s : State) (ret : Return) (b : Bytes) : kept (handleCmd s ret b) = kept s := by
  simp [handleCmd]
@[simp] theorem frontEnd_kept (s : State) (ret : Return) (b : Bytes) : kept (frontEnd s ret b) = kept s := by
  simp [frontEnd]
theorem waitingPacket_kept {s t : State} {v : Transport} {p : Return × Bytes}
    (h : waitingPacket s v = some (p, t)) : kept t = kept s := by
  unfold waitingPacket at h
  split at h
  · split at h <;> cases h
    rfl
  · split at h <;> cases h
    rfl
  · split at h <;> cases h
    rfl
  · cases h
@[simp] theorem xVcpPacketReceive_kept (ret : Return) (pkt : Bytes) (s : State) :
    kept (xVcpPacketReceive ret pkt s) = kept s := by
  unfold xVcpPacketReceive
  split
  · next taken => rw [frontEnd_kept, waitingPacket_kept taken]
  · simp

@[simp] theorem chunkTake_kept (s : State) (p : Fin 128) (chunk : Bytes) : kept (chunkTake s p chunk) = kept s := by
  unfold chunkTake
  split <;> simp
@[simp] theorem xMgmtChunkReceive_kept (p : Fin 128) (o4 : List Block) (b : Block) (s : State) :
    kept (xMgmtChunkReceive p o4 b s) = kept s := by
  simp [xMgmtChunkReceive]
@[simp] theorem acceptCmd_kept (s : State) (q : Queued) : kept (acceptCmd s q) = kept s := by
  unfold acceptCmd
  dsimp only
  (repeat' split) <;> simp
@[simp] theorem dispatchN_kept (n : Nat) (s : State) : kept (dispatchN n s) = kept s := by
  induction n generalizing s with
  | zero => rfl
  | succ n ih =>
    unfold dispatchN
    split
    · dsimp only
      split <;> simp [ih]
    · rfl
@[simp] theorem dispatch_kept (s : State) : kept (dispatch s) = kept s := by
  simp [dispatch]

@[simp] theorem offerNew_kept (s : State) (op : BitVec 16) (r : Req) : kept (offer.offerNew op r s) = kept s := by
  simp [offer.offerNew]
@[simp] theorem offer_kept (s : State) (op : BitVec 16) (r : Req) : kept (offer s op r) = kept s := by
  unfold offer
  split
  · split <;> simp
  · simp
@[simp] theorem staging_kept (mask : BitVec 8) (s : State) (body : State → State) (h : ∀ t, kept (body t) = kept t) :
    kept (staging mask s body) = kept s := by
  unfold staging
  split_ifs <;> simp [h]
@[simp] theorem staging_fixed (mask : BitVec 8) (s : State) (body : State → State)
    (h : ∀ t, (kept (body t)).1 = (kept t).1) : (kept (staging mask s body)).1 = (kept s).1 := by
  unfold staging
  split_ifs <;> simp [h]

@[simp] theorem endAct_kept (s : State) (e : EndAct) : kept (endAct s e).1 = kept s := by
  cases e <;> simp [endAct]
@[simp] theorem endOf_kept (s : State) (q : Run) : kept (endOf s q).1 = kept s := by
  unfold endOf
  split <;> simp

@[simp] theorem xCommandComplete_kept (s : State) : kept (xCommandComplete s) = kept s := by
  unfold xCommandComplete
  dsimp only
  (repeat' split) <;> simp
@[simp] theorem xRelayEntryExpire_kept (i : Nat) (s : State) : kept (xRelayEntryExpire i s) = kept s := by
  unfold xRelayEntryExpire
  split <;> simp
@[simp] theorem xDupMemoryExpire_kept (i : Nat) (s : State) : kept (xDupMemoryExpire i s) = kept s := by
  unfold xDupMemoryExpire
  split <;> simp
@[simp] theorem mgTransmit_kept (s : State) (b : Bool) (f : Bytes) (k : Nat) : kept (mgTransmit s b f k) = kept s := by
  simp [mgTransmit]
@[simp] theorem xReplyTransmit_kept (b : Bool) (s : State) : kept (xReplyTransmit b s) = kept s := by
  unfold xReplyTransmit
  split <;> simp
@[simp] theorem eventOn_kept (p : Bytes) (s : State) (b : Bool) : kept (eventOn p s b) = kept s := by
  simp [eventOn]
@[simp] theorem xEventSend_kept (s : State) : kept (xEventSend s) = kept s := by
  unfold xEventSend
  split <;> simp
@[simp] theorem xChannelPacketSend_kept (p : Nat) (s : State) : kept (xChannelPacketSend p s) = kept s := by
  unfold xChannelPacketSend
  dsimp only
  (repeat' split) <;> simp
@[simp] theorem xPktWrite_kept (len : Nat) (b : Bytes) (s : State) : kept (xPktWrite len b s) = kept s := by
  simp [xPktWrite]
@[simp] theorem xPktRead_kept (s : State) : kept (xPktRead s) = kept s := by
  unfold xPktRead
  split <;> simp
@[simp] theorem xStatusRead_kept (s : State) : kept (xStatusRead s) = kept s := by
  simp [xStatusRead]
@[simp] theorem bad_kept (s : State) (d : Byte) : kept (bad s d) = kept s := by
  simp [bad]
@[simp] theorem badRange_kept (s : State) : kept (badRange s) = kept s := by
  simp [badRange]
@[simp] theorem denied_kept (s : State) (d : Byte) : kept (denied s d) = kept s := by
  simp [denied]
@[simp] theorem deniedState_kept (s : State) : kept (deniedState s) = kept s := by
  simp [deniedState]
@[simp] theorem flashFail_kept (s : State) : kept (flashFail s) = kept s := by
  simp [flashFail]
@[simp] theorem guardedPair_kept (s : State) (a : Nat) (v : Word) : kept (guardedPair s a v) = kept s := by
  simp [guardedPair]
@[simp] theorem pairRows_kept (a : Nat) (v : Word) (q : Run) (s : State) (go : State → State)
    (h : ∀ t, kept (go t) = kept t) : kept (pairRows a v q s go) = kept s := by
  unfold pairRows
  split
  · simp
  · dsimp only
    split <;> simp [h]

@[simp] theorem feedPairOpen_kept (s : State) (v : Word) : kept (feedPairOpen s v) = kept s := by
  simp [feedPairOpen]
@[simp] theorem feedPairClose_kept (s : State) (v : Word) : kept (feedPairClose s v) = kept s := by
  simp [feedPairClose]
@[simp] theorem savedOnce_kept (s : State) : kept (savedOnce s) = kept s := by
  simp [savedOnce]
@[simp] theorem frozenStores_kept (s : State) (n : Nat) : kept (frozenStores s n) = kept s := by
  simp [frozenStores]
theorem storeOne_fixed (hits : List Nat) (x : Stored) (ge : Nat × Entry) :
    (kept (storeOne hits x ge).st).1 = (kept x.st).1 := by
  unfold storeOne
  dsimp only
  split <;> simp
theorem storeFold_fixed (hits : List Nat) (l : List (Nat × Entry)) (x : Stored) :
    (kept (l.foldl (storeOne hits) x).st).1 = (kept x.st).1 :=
  forEach_same (fun x : Stored => (kept x.st).1) l x _ (storeOne_fixed hits)
@[simp] theorem storeItems_fixed (items : List (Nat × Entry)) (hits : List Nat) (x : Stored) (d n : Nat) :
    (kept (storeItems items hits x d n).st).1 = (kept x.st).1 := storeFold_fixed _ _ _
@[simp] theorem storeSpan_fixed (x : Stored) (lo n : Nat) (f : Nat → Entry) (hits : List Nat) :
    (kept (storeSpan x lo n f hits).st).1 = (kept x.st).1 := storeFold_fixed _ _ _
@[simp] theorem copyPart_fixed (hits : List Nat) (x : Stored) (d n : Nat) :
    (kept (copyPart hits x d n).st).1 = (kept x.st).1 := storeSpan_fixed _ _ _ _ _
@[simp] theorem copySmi_kept (x : Stored) : kept (copySmi x).st = kept x.st := by
  unfold copySmi
  generalize allPorts = l
  exact kept_forEach l x.st _ fun t p => hostSmi_kept _ _ _ _
@[simp] theorem storeRow_fixed (mask : BitVec 8) (total part : Nat) (stores : Stored → Nat → Nat → Stored)
    (fin : Stored → Stored) (q : Run) (s : State)
    (hs : ∀ x d n, (kept (stores x d n).st).1 = (kept x.st).1) (hf : ∀ x, (kept (fin x).st).1 = (kept x.st).1) :
    (kept (storeRow mask total part stores fin q s)).1 = (kept s).1 := by
  unfold storeRow
  extract_lets d x0 n go
  have goes : ∀ t, (kept (go t)).1 = (kept t).1 := fun t => by
    simp only [go]
    split <;> simp [storeReply, hs, hf, x0]
  split_ifs
  · simp [goes]
  · simp
  · rfl
  · exact goes s

@[simp] theorem revertViews_kept (s : State) (mask : BitVec 8) : kept (revertViews s mask) = kept s := by
  simp [revertViews]
@[simp] theorem clearSuspect_kept (s : State) (mask : BitVec 8) : kept (clearSuspect s mask) = kept s := by
  simp [clearSuspect]
@[simp] theorem revertEnd_kept (mask : BitVec 8) (x : Stored) : kept (revertEnd mask x).st = kept x.st :=
  clearSuspect_kept _ _

@[simp] theorem xDevInfo_kept (y0 : Run) (s : State) : kept (xDevInfo y0 s) = kept s := by
  simp [xDevInfo]
@[simp] theorem xKeyWrite_kept (flashOk : Bool) (q : Run) (s : State) : kept (xKeyWrite flashOk q s) = kept s := by
  simp [xKeyWrite]
@[simp] theorem xKeyInfo_kept (q : Run) (s : State) : kept (xKeyInfo q s) = kept s := by
  simp [xKeyInfo]
@[simp] theorem netSave_kept (s : State) (m : List Nat) (rt : Tbl Byte) (rp : BitVec 128) :
    kept (netSave s m rt rp) = kept s := by
  simp [netSave]
@[simp] theorem xGroupMemberSet_kept (flashOk : Bool) (q : Run) (s : State) :
    kept (xGroupMemberSet flashOk q s) = kept s := by
  simp [xGroupMemberSet]
@[simp] theorem xGroupMemberGet_kept (y0 : Run) (s : State) : kept (xGroupMemberGet y0 s) = kept s := by
  simp [xGroupMemberGet]
@[simp] theorem xRouteSet_kept (flashOk : Bool) (q : Run) (s : State) : kept (xRouteSet flashOk q s) = kept s := by
  simp [xRouteSet]
@[simp] theorem xRouteGet_kept (q : Run) (s : State) : kept (xRouteGet q s) = kept s := by
  simp [xRouteGet]
@[simp] theorem xRelayPortsSet_kept (flashOk : Bool) (q : Run) (s : State) :
    kept (xRelayPortsSet flashOk q s) = kept s := by
  simp [xRelayPortsSet]
@[simp] theorem xCfgSave_kept (flashOk : Bool) (q : Run) (s : State) : kept (xCfgSave flashOk q s) = kept s := by
  simp [xCfgSave]
@[simp] theorem onFlash_fixed (s : State) (f : FlashSt → FlashSt) : (kept (onFlash s f)).1 = (kept s).1 := (rfl)
@[simp] theorem cfgCapture_fixed (s : State) : (kept (cfgCapture s)).1 = (kept s).1 := by
  unfold cfgCapture
  split
  · dsimp only
    split <;> simp
  · rfl

@[simp] theorem xCfgInfo_kept (y0 : Run) (s : State) : kept (xCfgInfo y0 s) = kept s := by
  unfold xCfgInfo
  split <;> simp
@[simp] theorem xDevReset_kept (q : Run) (s : State) : kept (xDevReset q s) = kept s := by
  simp [xDevReset]
@[simp] theorem linkLoss_kept (s : State) (b : Bool) : kept (linkLoss s b) = kept s := by
  simp only [linkLoss, trace_kept, sticky_kept, cMg_kept, onMg_kept]

@[simp] theorem xMgLinkDown_kept (b : Bool) (s : State) : kept (xMgLinkDown b s) = kept s := by
  simp [xMgLinkDown]
@[simp] theorem linkUp_kept (s : State) (b : Bool) (mode speed : Nat) : kept (linkUp s b mode speed) = kept s := by
  simp [linkUp]
@[simp] theorem xMgLinkUp_kept (b : Bool) (mode speed : Nat) (half : Bool) (s : State) :
    kept (xMgLinkUp b mode speed half s) = kept s := by
  unfold xMgLinkUp
  split_ifs <;> simp

@[simp] theorem xModeSearchSwitch_kept (b : Bool) (s : State) : kept (xModeSearchSwitch b s) = kept s := by
  simp [xModeSearchSwitch]
@[simp] theorem fifoOffer_kept (s : State) (b : Bool) (x : Return × Bytes) : kept (fifoOffer s b x) = kept s := by
  simp [fifoOffer]
@[simp] theorem admitPkt_kept (s : State) (b : Bool) (x : Return × Bytes) : kept (admitPkt s b x) = kept s := by
  simp [admitPkt]
@[simp] theorem goodFrame_kept (s : State) (b : Bool) (f : Bytes) : kept (goodFrame s b f) = kept s := by
  simp [goodFrame]
@[simp] theorem xMgmtFrameReceive_kept (b : Bool) (f : MgFrame) (s : State) :
    kept (xMgmtFrameReceive b f s) = kept s := by
  simp [xMgmtFrameReceive]
@[simp] theorem limitsFrame_kept (s : State) (b : Bool) : kept (limitsFrame s b) = kept s := by
  simp [limitsFrame]
@[simp] theorem xThrottleRelease_kept (b : Bool) (s : State) : kept (xThrottleRelease b s) = kept s := by
  simp [xThrottleRelease]
@[simp] theorem mdioNext_kept (s : State) : kept (mdioNext s) = kept s := by
  unfold mdioNext
  split <;> simp
@[simp] theorem rsRestart_kept (s : State) (b : Bool) : kept (rsRestart s b) = kept s := by
  simp [rsRestart]
@[simp] theorem xMdioDone_kept (rd : BitVec 16) (s : State) : kept (xMdioDone rd s) = kept s := by
  unfold xMdioDone
  dsimp only
  (repeat' split) <;> simp
@[simp] theorem rsStart_kept (s : State) (b : Bool) (l : List Nat) : kept (rsStart s b l) = kept s := by
  simp [rsStart]
@[simp] theorem rsStep_kept (s : State) (b : Bool) (to_ k : Nat) : kept (rsStep s b to_ k) = kept s := by
  simp [rsStep]
@[simp] theorem rateStepUp_kept (s : State) (b : Bool) : kept (rateStepUp s b) = kept s := by
  simp [rateStepUp]
@[simp] theorem xRateStepDown_kept (b : Bool) (s : State) : kept (xRateStepDown b s) = kept s := by
  simp [xRateStepDown]
@[simp] theorem xRsRelinkExpire_kept (b : Bool) (s : State) : kept (xRsRelinkExpire b s) = kept s := by
  have plain : domOf (aMg b 4) = none := by cases b <;> decide
  unfold xRsRelinkExpire
  split
  · simp [plain]
  · rfl

@[simp] theorem settingsFrame_kept (s : State) (b : Bool) : kept (settingsFrame s b) = kept s := by
  simp [settingsFrame]
@[simp] theorem mgFrame_kept (s : State) (b : Bool) : kept (mgFrame s b) = kept s := by
  simp [mgFrame]
@[simp] theorem mgmtFrame_kept (s : State) : kept (mgmtFrame s) = kept s := by
  unfold mgmtFrame
  rw [mgFrame_kept, mgFrame_kept, onMgSh_kept]

@[simp] theorem mgEpoch_kept (s : State) (b : Bool) : kept (mgEpoch s b) = kept s := by
  simp [mgEpoch]
@[simp] theorem mgmtEpoch_kept (s : State) : kept (mgmtEpoch s) = kept s := by
  simp [mgmtEpoch]
@[simp] theorem xMgmtSnapshotLatch_kept (s : State) : kept (xMgmtSnapshotLatch s) = kept s := by
  unfold xMgmtSnapshotLatch
  split <;> simp
@[simp] theorem pinLatch_kept (s : State) (n : Nat) : kept (pinLatch s n) = kept s := by
  simp [pinLatch]
@[simp] theorem pinsLeave_kept (s : State) : kept (pinsLeave s) = kept s := by
  simp [pinsLeave]
@[simp] theorem pinsFrame_kept (s : State) (contacts : BitVec 16) : kept (pinsFrame s contacts) = kept s := by
  simp [pinsFrame]
@[simp] theorem xGpioSwitchDrive_kept (s : State) : kept (xGpioSwitchDrive s) = kept s := by
  simp [xGpioSwitchDrive]
@[simp] theorem tapLive_kept (s t : State) (h : kept t = kept s) : kept (tapLive s t) = kept s := by
  simp [tapLive, h]

@[simp] theorem tapLoad_kept (s : State) (ir : Byte) (dr : List Bool) : kept (tapLoad s ir dr) = kept s := by
  simp [tapLoad]
@[simp] theorem txOffer_kept (s : State) (p : Bytes) : kept (txOffer s p) = kept s := by
  simp [txOffer]
@[simp] theorem txClose_kept (s : State) : kept (txClose s) = kept s := by
  unfold txClose
  split <;> simp
@[simp] theorem txStream_kept (s : State) (n : Nat) (r : TraceRec) : kept (txStream s n r) = kept s := by
  simp [txStream]
@[simp] theorem ringWrite_kept (s : State) (n : Nat) (r : TraceRec) : kept (ringWrite s n r) = kept s := by
  simp [ringWrite]
@[simp] theorem xTraceRingWrite_kept (s : State) : kept (xTraceRingWrite s) = kept s := by
  unfold xTraceRingWrite
  split
  · simp
  · split <;> simp

@[simp] theorem gatherFrame_kept (s : State) (m k j : Nat) (l : List (Nat × Nat × Nat)) (flags : Nat) :
    kept (gatherFrame s m k j l flags) = kept s := by
  simp [gatherFrame]
@[simp] theorem gatherNext_kept (s : State) : kept (gatherNext s) = kept s := by
  unfold gatherNext
  split <;> simp
@[simp] theorem xGatherSweeps_kept (s : State) : kept (xGatherSweeps s) = kept s := by
  simp [xGatherSweeps]
@[simp] theorem xGatherIncomplete_kept (blk : Nat) (s : State) : kept (xGatherIncomplete blk s) = kept s := by
  unfold xGatherIncomplete
  split <;> simp
@[simp] theorem xSageTxFrame_kept (s : State) : kept (xSageTxFrame s) = kept s := by
  unfold xSageTxFrame
  dsimp only
  (repeat' split) <;> simp
@[simp] theorem xPctrOverflow_kept (n : Nat) (s : State) : kept (xPctrOverflow n s) = kept s := by
  unfold xPctrOverflow
  split <;> simp
@[simp] theorem xBwWindowEnd_kept (p : Nat) (s : State) : kept (xBwWindowEnd p s) = kept s := by
  simp [xBwWindowEnd]
@[simp] theorem bwEpoch_kept (s : State) (p : Nat) : kept (bwEpoch s p) = kept s := by
  unfold bwEpoch
  split <;> simp
@[simp] theorem sageFrameEnd_kept (s : State) : kept (sageFrameEnd s) = kept s := by
  unfold sageFrameEnd
  extract_lets g s1
  have k1 : kept s1 = kept s := (kept_fresh g _).trans (onSage_kept _ _)
  split
  · rw [trace_kept, onSage_kept, k1]
  · exact k1

@[simp] theorem sageEpoch_kept (s : State) : kept (sageEpoch s) = kept s := by
  simp [sageEpoch]
@[simp] theorem overheadFrame_kept (s : State) (p : Nat) : kept (overheadFrame s p) = kept s := by
  simp [overheadFrame]
@[simp] theorem clientFrame_kept (s : State) (p : Nat) : kept (clientFrame s p) = kept s := by
  unfold clientFrame
  dsimp only
  (repeat' split) <;> simp
@[simp] theorem evalAps_fixed (s : State) (g : Nat) : (kept (evalAps s g)).1 = (kept s).1 := by
  simp [evalAps]
@[simp] theorem grpMirrored_fixed (s : State) (g : Nat) : (kept (grpMirrored s g)).1 = (kept s).1 := by
  unfold grpMirrored
  dsimp only
  split_ifs <;> simp
@[simp] theorem protFrame_fixed (s : State) : (kept (protFrame s)).1 = (kept s).1 := by
  refine fixed_forEach _ _ _ fun t g => ?_
  extract_lets u
  have k : (kept u).1 = (kept t).1 := by
    simp only [u]
    split <;> simp
  split
  · rw [eqEval_kept, k]
  · exact k

@[simp] theorem saveFrame_fixed (s : State) : (kept (saveFrame s)).1 = (kept s).1 := by
  unfold saveFrame
  split
  · split <;> simp
  · rfl

@[simp] theorem fecIn_kept (s : State) (i : Nat × Nat × Nat × Nat × Nat) : kept (fecIn s i) = kept s := by
  simp [fecIn]
@[simp] theorem xFrameBoundary_fixed (i : FrameIn) (s : State) : (kept (xFrameBoundary i s)).1 = (kept s).1 := by
  unfold xFrameBoundary
  generalize allPorts = l
  split
  · rfl
  · extract_lets s0 s1 s2 s3 s4
    have k0 : kept s0 = kept s := by simp [s0]
    have k1 : kept s1 = kept s := by simp [s1, k0]
    have k2 : kept s2 = kept s := by simp [s2, k1]
    have k3 : (kept s3).1 = (kept s).1 := by simp [s3, k2]
    have k4 : (kept s4).1 = (kept s).1 := by simp [s4, k3]
    rw [kept_frameDone, mirFrame_fixed, k4]

@[simp] theorem esmcEpoch_kept (s : State) (p : Nat) : kept (esmcEpoch s p) = kept s := by
  simp [esmcEpoch]
@[simp] theorem apsEpoch_kept (s : State) (g : Nat) : kept (apsEpoch s g) = kept s := by
  simp [apsEpoch]
@[simp] theorem relayEpoch_kept (s : State) : kept (relayEpoch s) = kept s := by
  simp [relayEpoch]
@[simp] theorem xEpochBoundary_kept (temp : BitVec 16) (s : State) : kept (xEpochBoundary temp s) = kept s := by
  unfold xEpochBoundary
  generalize allPorts = l
  split
  · rfl
  · extract_lets s1 s2
    have k1 : kept s1 = kept s := by simp [s1]
    have k2 : kept s2 = kept s := by simp [s2, k1]
    rw [kept_epochDone, sageEpoch_kept, relayEpoch_kept, mgmtEpoch_kept, k2]

@[simp] theorem xCommit_kept (q : Run) (s : State) : kept (xCommit q s) = kept s := by
  unfold xCommit
  split <;> simp
@[simp] theorem xCommitCancel_kept (q : Run) (s : State) : kept (xCommitCancel q s) = kept s := by
  unfold xCommitCancel
  dsimp only
  (repeat' split) <;> simp
@[simp] theorem xCommitList_kept (y0 : Run) (s : State) : kept (xCommitList y0 s) = kept s := by
  simp [xCommitList]
@[simp] theorem xStageRevert_fixed (hits : List Nat) (part : Nat) (q : Run) (s : State) :
    (kept (xStageRevert hits part q s)).1 = (kept s).1 := by
  simp [xStageRevert]
@[simp] theorem xStageAccept_kept (q : Run) (s : State) : kept (xStageAccept q s) = kept s := by
  simp [xStageAccept]
@[simp] theorem xSfpRead_kept (y0 : Run) (s : State) : kept (xSfpRead y0 s) = kept s := by
  simp [xSfpRead]
@[simp] theorem xMapWrite_fixed (hits : List Nat) (part : Nat) (q : Run) (s : State) :
    (kept (xMapWrite hits part q s)).1 = (kept s).1 := by
  simp [xMapWrite]
@[simp] theorem mapReadReply_kept (s : State) (b : Bool) (first n : Nat) (f : Entry → Entry) :
    kept (mapReadReply s b first n f) = kept s := by
  simp [mapReadReply]
@[simp] theorem xMapRead_kept (q : Run) (s : State) : kept (xMapRead q s) = kept s := by
  simp [xMapRead]
@[simp] theorem xMapCopy_fixed (hits : List Nat) (part : Nat) (q : Run) (s : State) :
    (kept (xMapCopy hits part q s)).1 = (kept s).1 := by
  simp [xMapCopy]
@[simp] theorem xMapClear_fixed (hits : List Nat) (part : Nat) (q : Run) (s : State) :
    (kept (xMapClear hits part q s)).1 = (kept s).1 := by
  simp [xMapClear]
@[simp] theorem xSmiWrite_kept (q : Run) (s : State) : kept (xSmiWrite q s) = kept s := by
  simp [xSmiWrite]
@[simp] theorem xMapStatus_kept (y0 : Run) (s : State) : kept (xMapStatus y0 s) = kept s := by
  simp [xMapStatus]
@[simp] theorem xHMapRead_kept (q : Run) (s : State) : kept (xHMapRead q s) = kept s := by
  simp [xHMapRead]
@[simp] theorem xHMapWrite_fixed (hits : List Nat) (part : Nat) (q : Run) (s : State) :
    (kept (xHMapWrite hits part q s)).1 = (kept s).1 := by
  simp [xHMapWrite]
@[simp] theorem xHSlotStats_kept (q : Run) (s : State) : kept (xHSlotStats q s) = kept s := by
  simp [xHSlotStats]
@[simp] theorem stage_kept (s : State) (a : Nat) (v : Nat) : kept (stage s a v) = kept s := by
  simp [stage]
@[simp] theorem stageList_kept (s : State) (l : List (Nat × Nat)) : kept (stageList s l) = kept s := by
  simp [stageList]
@[simp] theorem xGrpWrite_kept (q : Run) (s : State) : kept (xGrpWrite q s) = kept s := by
  simp [xGrpWrite]
@[simp] theorem xGrpRead_kept (q : Run) (s : State) : kept (xGrpRead q s) = kept s := by
  simp [xGrpRead]
@[simp] theorem xProtRequest_kept (q : Run) (s : State) : kept (xProtRequest q s) = kept s := by
  simp [xProtRequest]
@[simp] theorem xProtGrpStatus_kept (q : Run) (s : State) : kept (xProtGrpStatus q s) = kept s := by
  simp [xProtGrpStatus]
@[simp] theorem xProtEqRealign_kept (q : Run) (s : State) : kept (xProtEqRealign q s) = kept s := by
  simp [xProtEqRealign]
@[simp] theorem memCorr_kept (s : State) : kept (memCorr s) = kept s := by
  simp [memCorr]
@[simp] theorem scrubWord_kept (s : State) (memory addr : Nat) (f : EccFind) :
    kept (scrubWord s memory addr f) = kept s := by
  unfold scrubWord
  split <;> simp
@[simp] theorem alignError_kept (s : State) (addr : Nat) : kept (alignError s addr) = kept s := by
  unfold alignError
  dsimp only
  (repeat' split) <;> simp
@[simp] theorem tableError_kept (s : State) (g : Nat) : kept (tableError s g) = kept s := by
  unfold tableError
  split <;> simp

@[simp] theorem xMemoryScrub_kept (memory addr : Nat) (f : EccFind) (s : State) :
    kept (xMemoryScrub memory addr f s) = kept s := by
  simp [xMemoryScrub]
@[simp] theorem setBank2_kept (s : State) (memory b : Nat) (x : BankSt) : kept (setBank2 s memory b x) = kept s := by
  unfold setBank2
  split_ifs <;> simp
@[simp] theorem loseContent_fixed (s : State) (m b : Nat) : (kept (loseContent s m b)).1 = (kept s).1 := by
  unfold loseContent
  split_ifs <;> rfl

@[simp] theorem xMemPowerTransitionDone_fixed (memory b : Nat) (s : State) :
    (kept (xMemPowerTransitionDone memory b s)).1 = (kept s).1 := by
  unfold xMemPowerTransitionDone
  split <;> simp
@[simp] theorem cutOpcode_kept (s : State) : kept (cutOpcode s).2 = kept s := by
  unfold cutOpcode
  split <;> simp
@[simp] theorem failPairs_kept (s : State) : kept (failPairs s) = kept s := by
  simp [failPairs]
@[simp] theorem suspectOpen_kept (s : State) : kept (suspectOpen s) = kept s := by
  unfold suspectOpen
  dsimp only
  split <;> simp

@[simp] theorem cutRun_kept (s : State) : kept (cutRun s) = kept s := by
  unfold cutRun
  split <;> simp
@[simp] theorem cutResync_kept (s : State) : kept (cutResync s) = kept s := by
  simp [cutResync]
@[simp] theorem seqReset_kept (cause : Nat) (s : State) : kept (seqReset cause s) = kept s := by
  simp [seqReset]
@[simp] theorem codeUncorr_kept (s : State) : kept (codeUncorr s) = kept s := by
  simp [codeUncorr]
@[simp] theorem causeEffect_kept (cause : Nat) (s : State) : kept (causeEffect cause s) = kept s := by
  simp [causeEffect]
@[simp] theorem xSeqException_kept (cause : Nat) (s : State) : kept (xSeqException cause s) = kept s := by
  simp [xSeqException]
@[simp] theorem memAsleep_kept (s : State) (b : BankSt) : kept (memAsleep s b) = kept s := by
  simp [memAsleep]
@[simp] theorem memFetch_kept (s : State) (k w n : Nat) : kept (memFetch s k w n).1 = kept s := by
  unfold memFetch
  rw [kept_foldl_fst _ _ _ _ fun u i => ?_]
  · simp
  · dsimp only
    split <;> simp

@[simp] theorem xMemRead_kept (q : Run) (s : State) : kept (xMemRead q s) = kept s := by
  unfold xMemRead
  dsimp only
  (repeat' split) <;> simp
@[simp] theorem rotStore_fixed (s : State) (w a n : Nat) (d : Bytes) : (kept (rotStore s w a n d)).1 = (kept s).1 :=
  fixed_forEach _ _ _ fun _ _ => by simp

@[simp] theorem xMemWrite_fixed (collides : Nat) (q : Run) (s : State) :
    (kept (xMemWrite collides q s)).1 = (kept s).1 := by
  unfold xMemWrite
  dsimp only
  (repeat' split) <;> simp
@[simp] theorem xMemPower_kept (q : Run) (s : State) : kept (xMemPower q s) = kept s := by
  unfold xMemPower
  dsimp only
  (repeat' split) <;> simp
@[simp] theorem xMemStatus_kept (y0 : Run) (s : State) : kept (xMemStatus y0 s) = kept s := by
  simp [xMemStatus]
@[simp] theorem putImage_kept (s : State) (b : Bool) (t : Tbl Byte) : kept (putImage s b t) = kept s := by
  unfold putImage
  split <;> simp
@[simp] theorem xFwInfo_kept (y0 : Run) (s : State) : kept (xFwInfo y0 s) = kept s := by
  simp [xFwInfo]
@[simp] theorem flashWe_kept (s : State) (v : Word) : kept (flashWe s v) = kept s := by
  simp [flashWe]
@[simp] theorem dlPut_kept (s : State) (o : Nat) (b : Bytes) : kept (dlPut s o b) = kept s := by
  simp [dlPut]
@[simp] theorem phaseTo_kept (s : State) (n : Nat) : kept (phaseTo s n) = kept s := by
  simp [phaseTo]
@[simp] theorem dlProgram_kept (s : State) (o : Nat) (b : Bytes) : kept (dlProgram s o b) = kept s := by
  simp [dlProgram]
@[simp] theorem xFwLoad_kept (flashOk : Bool) (q : Run) (s : State) : kept (xFwLoad flashOk q s) = kept s := by
  simp [xFwLoad]
@[simp] theorem fwReply_kept (s : State) (img changed : Bool) : kept (fwReply s img changed) = kept s := by
  simp [fwReply]
@[simp] theorem prefer_kept (s : State) (b : Bool) : kept (prefer s b) = kept s := by
  simp [prefer]
@[simp] theorem dlErase_kept (s : State) : kept (dlErase s) = kept s := by
  simp [dlErase]
@[simp] theorem dlErasing_kept (s : State) : kept (dlErasing s) = kept s := by
  simp [dlErasing]
@[simp] theorem installErase_kept (s : State) : kept (installErase s) = kept s := by
  simp [installErase]
@[simp] theorem flashPhase_kept (flashOk activate : Bool) (n : Nat) (s : State) :
    kept (flashPhase flashOk activate n s) = kept s := by
  simp [flashPhase]
@[simp] theorem xFwUpdate_kept (flashOk : Bool) (q : Run) (s : State) : kept (xFwUpdate flashOk q s) = kept s := by
  simp [xFwUpdate]
@[simp] theorem sweepOld_kept (s : State) (k : Nat) : kept (sweepOld s k) = kept s := by
  simp [sweepOld]
@[simp] theorem sweepNew_kept (s : State) : kept (sweepNew s) = kept s := by
  unfold sweepNew
  dsimp only
  (repeat' split) <;> simp
@[simp] theorem xSelfTest_kept (f : SelfTestIn) (y0 : Run) (s : State) : kept (xSelfTest f y0 s) = kept s := by
  simp [xSelfTest]
@[simp] theorem xCtrRead_kept (q : Run) (s : State) : kept (xCtrRead q s) = kept s := by
  simp [xCtrRead]
@[simp] theorem xPctrWrite_kept (q : Run) (s : State) : kept (xPctrWrite q s) = kept s := by
  simp [xPctrWrite]
@[simp] theorem xPctrRead_kept (y0 : Run) (s : State) : kept (xPctrRead y0 s) = kept s := by
  simp [xPctrRead]
@[simp] theorem xLatlogRead_kept (q : Run) (s : State) : kept (xLatlogRead q s) = kept s := by
  simp [xLatlogRead]
@[simp] theorem traceWord_kept (x : State × Bytes) (o : Nat) : kept (traceWord x o).1 = kept x.1 := by
  unfold traceWord
  split <;> simp
@[simp] theorem traceRecord_kept (x : State × Bytes) (n : Nat) : kept (traceRecord x n).1 = kept x.1 :=
  kept_foldl_fst _ x.2 x.1 _ fun _ _ => traceWord_kept _ _
@[simp] theorem xTraceRead_kept (q : Run) (s : State) : kept (xTraceRead q s) = kept s := by
  simp [xTraceRead]

@[simp] theorem xBwCfgWrite_kept (q : Run) (s : State) : kept (xBwCfgWrite q s) = kept s := by
  simp [xBwCfgWrite]
@[simp] theorem xBwRead_kept (q : Run) (s : State) : kept (xBwRead q s) = kept s := by
  unfold xBwRead
  dsimp only
  (repeat' split) <;> simp
@[simp] theorem xTraceCfgWrite_kept (q : Run) (s : State) : kept (xTraceCfgWrite q s) = kept s := by
  simp [xTraceCfgWrite]
@[simp] theorem xEvtCfgWrite_kept (q : Run) (s : State) : kept (xEvtCfgWrite q s) = kept s := by
  simp [xEvtCfgWrite]
@[simp] theorem xObsCfgRead_kept (q : Run) (s : State) : kept (xObsCfgRead q s) = kept s := by
  simp [xObsCfgRead]
@[simp] theorem pairCtlRows_kept (v : Word) (check : State → Option (Byte × Byte)) (pre : State → State) (q : Run)
    (s : State) (ok : State → State) (hp : ∀ t, kept (pre t) = kept t) (h : ∀ t, kept (ok t) = kept t) :
    kept (pairCtlRows v check pre q s ok) = kept s := by
  unfold pairCtlRows
  dsimp only
  split
  · split <;> simp [h, hp]
  · refine pairRows_kept _ _ _ _ _ fun t => ?_
    split <;> simp [h]

@[simp] theorem xPairStatus_kept (y0 : Run) (s : State) : kept (xPairStatus y0 s) = kept s := by
  simp [xPairStatus]
@[simp] theorem xPairCfgWrite_kept (q : Run) (s : State) : kept (xPairCfgWrite q s) = kept s := by
  simp [xPairCfgWrite]
@[simp] theorem xPairCfgRead_kept (q : Run) (s : State) : kept (xPairCfgRead q s) = kept s := by
  simp [xPairCfgRead]
@[simp] theorem xPairResync_kept (y0 : Run) (s : State) : kept (xPairResync y0 s) = kept s := by
  simp [xPairResync]
theorem interleave_setActs (s : State) (a b c : Nat) (u v w : Word) :
    onRegs s (fun r => setAct a u (setAct b v (setAct c w r))) =
        onRegs (onRegs (onRegs s (setAct c w)) (setAct b v)) (setAct a u) := (rfl)
@[simp] theorem swapRegs_kept (s : State) (f : Sfp) : kept (swapRegs s f) = kept s := by
  have hi : domOf aSwapHi = none := by decide
  have lo : domOf aSwapLo = none := by decide
  have fi : domOf aSwapFi = none := by decide
  rw [swapRegs, interleave_setActs]
  simp [hi, lo, fi]

@[simp] theorem xPairSwap_kept (q : Run) (s : State) : kept (xPairSwap q s) = kept s := by
  simp [xPairSwap]
@[simp] theorem xPairForceActive_kept (q : Run) (s : State) : kept (xPairForceActive q s) = kept s := by
  simp [xPairForceActive]
@[simp] theorem xPortCfgWrite_kept (q : Run) (s : State) : kept (xPortCfgWrite q s) = kept s := by
  simp [xPortCfgWrite]
@[simp] theorem xPortCfgRead_kept (q : Run) (s : State) : kept (xPortCfgRead q s) = kept s := by
  simp [xPortCfgRead]
@[simp] theorem xPortAdaptWrite_kept (q : Run) (s : State) : kept (xPortAdaptWrite q s) = kept s := by
  simp [xPortAdaptWrite]
@[simp] theorem xPortSerdesWrite_kept (q : Run) (s : State) : kept (xPortSerdesWrite q s) = kept s := by
  simp [xPortSerdesWrite]
@[simp] theorem xPortStatus_kept (q : Run) (s : State) : kept (xPortStatus q s) = kept s := by
  simp [xPortStatus]
@[simp] theorem xPortSnapshot_kept (q : Run) (s : State) : kept (xPortSnapshot q s) = kept s := by
  simp [xPortSnapshot]
@[simp] theorem xPortSnapRead_kept (q : Run) (s : State) : kept (xPortSnapRead q s) = kept s := by
  simp [xPortSnapRead]
@[simp] theorem xTpChkWrite_kept (q : Run) (s : State) : kept (xTpChkWrite q s) = kept s := by
  simp [xTpChkWrite]
@[simp] theorem xTpChkRead_kept (q : Run) (s : State) : kept (xTpChkRead q s) = kept s := by
  simp [xTpChkRead]
@[simp] theorem xFeedRead_kept (y0 : Run) (s : State) : kept (xFeedRead y0 s) = kept s := by
  simp [xFeedRead]
@[simp] theorem xFeedSelect_kept (q : Run) (s : State) : kept (xFeedSelect q s) = kept s := by
  simp [xFeedSelect]
@[simp] theorem regFetch_kept (s : State) (a n : Nat) : kept (regFetch s a n).1 = kept s := by
  simp [regFetch]
@[simp] theorem xRegRead_kept (q : Run) (s : State) : kept (xRegRead q s) = kept s := by
  simp [xRegRead]
@[simp] theorem read64_kept (a k n : Nat) (h : Word) (s : State) : kept (read64 a k n h s) = kept s := by
  induction k generalizing n h s with
  | zero => simp [read64]
  | succ k ih =>
    unfold read64
    dsimp only
    split <;> simp [ih]

@[simp] theorem xRegRead64_kept (q : Run) (s : State) : kept (xRegRead64 q s) = kept s := by
  simp [xRegRead64]
@[simp] theorem itemWrite_fixed (s : State) (q : Run) (a : Nat) (v : Word) (work worst : Nat) :
    (kept (itemWrite s q a v work worst)).1 = (kept s).1 := by
  simp [itemWrite]

@[simp] theorem regReply_kept (s : State) (n m : Nat) : kept (regReply s n m) = kept s := by
  simp [regReply]
@[simp] theorem xRegWrite_fixed (q : Run) (s : State) : (kept (xRegWrite q s)).1 = (kept s).1 := by
  unfold xRegWrite
  extract_lets p n as k it go
  have goes : ∀ t, (kept (go t)).1 = (kept t).1 := fun t => by
    simp only [go]
    split_ifs <;> simp
  clear_value go
  split_ifs
  · exact goes s
  · simp
  · split
    · simp
    · simp [goes]

@[simp] theorem waitReply_kept (s : State) (status detail : Byte) (done worst : Nat) :
    kept (waitReply s status detail done worst) = kept s := by
  simp [waitReply]
@[simp] theorem waitStep_fixed (q : Run) (k : Nat) (s : State) : (kept (waitStep q k s)).1 = (kept s).1 := by
  simp [waitStep]
@[simp] theorem xRegWriteWait_fixed (q : Run) (s : State) : (kept (xRegWriteWait q s)).1 = (kept s).1 := by
  unfold xRegWriteWait
  dsimp only
  (repeat' split) <;> simp
@[simp] theorem readBack_kept (s : State) (a : Nat) : kept (readBack s a) = kept s := by
  simp [readBack]
@[simp] theorem feedPairStep_kept (q : Run) (v : Word) (s : State) : kept (feedPairStep q v s) = kept s := by
  simp [feedPairStep]
@[simp] theorem xRegGuardedWrite_kept (q : Run) (s : State) : kept (xRegGuardedWrite q s) = kept s := by
  unfold xRegGuardedWrite
  dsimp only
  (repeat' split) <;> simp
@[simp] theorem xResetNRelease_kept (s : State) : kept (xResetNRelease s) = kept s := by
  simp [xResetNRelease]
@[simp] theorem loadKeys_kept (s : State) : kept (loadKeys s) = kept s := by
  simp [loadKeys]
@[simp] theorem loadNet_kept (s : State) : kept (loadNet s) = kept s := by
  simp [loadNet]
@[simp] theorem loadLast_kept (s : State) : kept (loadLast s) = kept s := by
  simp [loadLast]
@[simp] theorem loadDays_kept (s : State) : kept (loadDays s) = kept s := by
  simp [loadDays]
@[simp] theorem traceTestFails_kept (s : State) : kept (traceTestFails s) = kept s := by
  simp [traceTestFails]
@[simp] theorem xSeqWdtExpire_kept (s : State) : kept (xSeqWdtExpire s) = kept s := by
  simp [xSeqWdtExpire]
@[simp] theorem wramInit_fixed (s : State) : (kept (wramInit s)).1 = (kept s).1 := (rfl)

@[simp] theorem autoRestart_fixed (s : State) : (kept (autoRestart s)).1 = (kept s).1 := by
  unfold autoRestart
  extract_lets n m v s1
  have k : (kept s1).1 = (kept s).1 := by
    simp only [s1]
    split <;> simp [v]
  split
  · split <;> simp [k]
  · rfl

@[simp] theorem xSequencerRestart_fixed (s : State) : (kept (xSequencerRestart s)).1 = (kept s).1 := by
  unfold xSequencerRestart
  dsimp only
  (repeat' split) <;> simp
@[simp] theorem xThyCandWrite_kept (q : Run) (s : State) : kept (xThyCandWrite q s) = kept s := by
  simp [xThyCandWrite]
@[simp] theorem xThyCfgWrite_kept (q : Run) (s : State) : kept (xThyCfgWrite q s) = kept s := by
  simp [xThyCfgWrite]
@[simp] theorem xThyOutWrite_kept (q : Run) (s : State) : kept (xThyOutWrite q s) = kept s := by
  simp [xThyOutWrite]
@[simp] theorem xThyCfgRead_kept (q : Run) (s : State) : kept (xThyCfgRead q s) = kept s := by
  simp [xThyCfgRead]
@[simp] theorem xThyStatus_kept (y0 : Run) (s : State) : kept (xThyStatus y0 s) = kept s := by
  simp [xThyStatus]
@[simp] theorem xSetQl_kept (q : Run) (s : State) : kept (xSetQl q s) = kept s := by
  simp [xSetQl]
@[simp] theorem xThymeForce_kept (q : Run) (s : State) : kept (xThymeForce q s) = kept s := by
  simp [xThymeForce]
@[simp] theorem pendMfcAt_kept (s : State) (o : Option Nat) : kept (pendMfcAt s o) = kept s := by
  simp [pendMfcAt]
@[simp] theorem xSetMfc_kept (q : Run) (s : State) : kept (xSetMfc q s) = kept s := by
  simp [xSetMfc]
@[simp] theorem xMfcRelearn_kept (y0 : Run) (s : State) : kept (xMfcRelearn y0 s) = kept s := by
  simp [xMfcRelearn]
@[simp] theorem xFpRealign_kept (y0 : Run) (s : State) : kept (xFpRealign y0 s) = kept s := by
  simp [xFpRealign]
@[simp] theorem xThymeHistoryRead_kept (q : Run) (s : State) : kept (xThymeHistoryRead q s) = kept s := by
  simp [xThymeHistoryRead]

end Sys2Proof.Machine
end

section
/-! The functions that store in a memory, a map bank or the stored configuration keep these in their canonical form. -/

namespace Sys2Proof.Machine

open Sys2Proof

/-- The stores stand in their canonical form. -/
def Sound (x : Stores) : Prop :=
  (tsorted x.bytes = true ∧ (∀ kv ∈ x.bytes, listedOk x.junk kv) ∧ tsorted x.ram = true) ∧
  twf (fun _ => (0 : Entry)) x.a = true ∧ twf (fun _ => (0 : Entry)) x.b = true ∧
  x.cfg.all (fun c => twf (fun _ => (0 : Entry)) c.bank) = true

theorem sound_iff (s : State) : Sound (kept s).2 ↔ Memory.wf s.mem = true ∧ MapInv s := by
  rw [memory_wf_iff]
  rfl

@[simp] theorem sound_ite (c : Prop) [Decidable c] (x y : Fixed × Stores) :
    Sound (if c then x else y).2 ↔ if c then Sound x.2 else Sound y.2 := by
  split <;> rfl

theorem sound_forEach {α : Type} (l : List α) (s : State) (f : State → α → State) (h : Sound (kept s).2)
    (hf : ∀ t x, Sound (kept t).2 → Sound (kept (f t x)).2) : Sound (kept (forEach l s f)).2 :=
  forEach_keeps (fun t => Sound (kept t).2) l s f h hf

@[simp] theorem hostStore_sound (s : State) (b : Bool) (g : Nat) (e : Entry) (c : Bool) (h : Sound (kept s).2) :
    Sound (kept (hostStore s b g e c)).2 := by
  rw [sound_iff] at h ⊢
  have mem : (hostStore s b g e c).mem = s.mem := by
    unfold hostStore
    split
    · rfl
    · rw [mirror_mem]
      rfl
  exact ⟨mem ▸ h.1, hostStore_map s b g e c h.2⟩

@[simp] theorem selStore_sound (s : State) (g : Nat) (sel : Bool) (h : Sound (kept s).2) :
    Sound (kept (selStore s g sel)).2 := by
  rw [sound_iff] at h ⊢
  exact ⟨h.1, selStore_map s g sel h.2⟩

@[simp] theorem decideGrp_sound (s : State) (g why : Nat) (h : Sound (kept s).2) :
    Sound (kept (decideGrp s g why)).2 := by
  unfold decideGrp
  extract_lets x0 base0
  split
  · exact h
  · split
    next rem remSig _ =>
    extract_lets dropMs x1 base st startWtr loc locSig useRem eff effSig tx target sel selCh reqCh x2 s1 s2 s3 s4
    have k2 : Sound (kept s2).2 := by
      simp only [s2, s1]
      split <;> simp [h]
    have k3 : Sound (kept s3).2 := by
      simp only [s3]
      split <;> simp [k2]
    have k4 : Sound (kept s4).2 := by simpa [s4] using k3
    split
    · simpa using k4
    · exact k4

@[simp] theorem evalGrp_sound (s : State) (g : Nat) (h : Sound (kept s).2) : Sound (kept (evalGrp s g)).2 := by
  simp [evalGrp, h]
@[simp] theorem xProtHoldoffExpire_sound (g k : Nat) (s : State) (h : Sound (kept s).2) :
    Sound (kept (xProtHoldoffExpire g k s)).2 := by
  simp [xProtHoldoffExpire, h]
@[simp] theorem xProtWtrExpire_sound (g : Nat) (s : State) (h : Sound (kept s).2) :
    Sound (kept (xProtWtrExpire g s)).2 := by
  simp [xProtWtrExpire, h]
@[simp] theorem reqAct_sound (s : State) (g : Nat) (h : Sound (kept s).2) : Sound (kept (reqAct s g)).2 := by
  simp [reqAct, h]
@[simp] theorem xProtRequestAct_sound (s : State) (h : Sound (kept s).2) : Sound (kept (xProtRequestAct s)).2 :=
  sound_forEach _ _ _ h fun _ _ => reqAct_sound _ _

@[simp] theorem xApsLoss_sound (g : Nat) (s : State) (h : Sound (kept s).2) : Sound (kept (xApsLoss g s)).2 := by
  simp [xApsLoss, h]
@[simp] theorem xFopNr_sound (g : Nat) (s : State) (h : Sound (kept s).2) : Sound (kept (xFopNr g s)).2 := by
  simp [xFopNr, h]
@[simp] theorem grpDefaults_sound (s : State) (g : Nat) (h : Sound (kept s).2) : Sound (kept (grpDefaults s g)).2 := by
  simp [grpDefaults, h]
@[simp] theorem dropGroups_sound (s : State) (was : Bool) (h : Sound (kept s).2) :
    Sound (kept (dropGroups s was)).2 := by
  unfold dropGroups
  refine sound_forEach _ _ _ h fun t x h => ?_
  dsimp only
  (repeat' split) <;> simp [h]
@[simp] theorem grpDisable_sound (s : State) (g : Nat) (h : Sound (kept s).2) : Sound (kept (grpDisable s g)).2 := by
  simp [grpDisable, h]
@[simp] theorem grpRestart_sound (s : State) (g : Nat) (anew : Bool) (h : Sound (kept s).2) :
    Sound (kept (grpRestart s g anew)).2 := by
  simp [grpRestart, h]
@[simp] theorem grpStrobe_sound (old : View) (oe : Tbl Entry) (s : State) (g : Nat) (h : Sound (kept s).2) :
    Sound (kept (grpStrobe old oe s g)).2 := by
  simp [grpStrobe, h]
@[simp] theorem afterCopy_sound (old : View) (was : Bool) (lines : MapSt) (mask : BitVec 8) (s : State)
    (h : Sound (kept s).2) : Sound (kept (afterCopy old was lines mask s)).2 := by
  unfold afterCopy
  generalize allPorts = l
  extract_lets oe s2 s3 t s4 s5 s6
  have k2 : Sound (kept s2).2 := by
    simp only [s2]
    split <;> simp [h]
  have k3 : Sound (kept s3).2 := by
    simp only [s3]
    split <;> simp [k2]
  have k4 : Sound (kept s4).2 := by
    simp only [s4]
    split
    · exact sound_forEach _ _ _ (by simp [t, k3]) fun _ _ => grpStrobe_sound _ _ _ _
    · exact k3
  have k5 : Sound (kept s5).2 := by
    simp only [s5]
    split <;> simp [k4]
  have k6 : Sound (kept s6).2 := by
    simp only [s6]
    split <;> simp [k5]
  split <;> simp [k6]

@[simp] theorem stageMap_sound (s : State) (c : SavedCfg) (h : Sound (kept s).2) : Sound (kept (stageMap s c)).2 :=
  stageMap_keeps (fun t => Sound (kept t).2) s c h (fun t _ ht => hostStore_sound t _ _ _ _ ht)
    (fun t _ ht => by rw [hostSmi_kept]; exact ht)

@[simp] theorem xAutoRestoreStaged_sound (s : State) (h : Sound (kept s).2) :
    Sound (kept (xAutoRestoreStaged s)).2 := by
  unfold xAutoRestoreStaged
  dsimp only
  (repeat' split) <;> simp [h]
@[simp] theorem ramPut_sound (s : State) (o : Nat) (b : Bytes) (h : Sound (kept s).2) :
    Sound (kept (ramPut s o b)).2 := by
  rw [sound_iff] at h ⊢
  exact ⟨ramPut_wf s o b h.1, h.2⟩

theorem scratchPut_sound (s : State) (o : Nat) (b : Bytes) (inside : o + b.length ≤ 0x40000) (h : Sound (kept s).2) :
    Sound (kept (scratchPut s o b)).2 := by
  rw [sound_iff] at h ⊢
  exact ⟨scratchPut_wf s o b inside h.1, h.2⟩

@[simp] theorem codeWrite_sound (s : State) (m a : Nat) (v : Word) (h : Sound (kept s).2) :
    Sound (kept (codeWrite s m a v)).2 := by
  unfold codeWrite
  split <;> simp [h]
theorem wordBytes_length (v : Word) : (wordBytes v).length = 4 := rfl

@[simp] theorem scratchWrite_sound (s : State) (m a : Nat) (v : Word) (c : Bool) (h : Sound (kept s).2) :
    Sound (kept (scratchWrite s m a v c)).2 := by
  simp only [scratchWrite]
  split_ifs with outside
  · simp [h]
  · simp [h]
  · simp [h]
  · rw [setResp_kept, eccFresh_kept]
    refine scratchPut_sound _ _ _ ?_ h
    rw [wordBytes_length]
    omega

@[simp] theorem mapWordWrite_sound (s : State) (m a : Nat) (v : Word) (collide : Bool) (h : Sound (kept s).2) :
    Sound (kept (mapWordWrite s m a v collide)).2 := by
  simp [mapWordWrite, h]
@[simp] theorem matDoWrite_sound (s : State) (m a : Nat) (v : Word) (collide : Bool) (h : Sound (kept s).2) :
    Sound (kept (matDoWrite s m a v collide)).2 := by
  unfold matDoWrite
  split <;> simp [h]
@[simp] theorem matPerform_sound (s : State) (r : MatReq) (h : Sound (kept s).2) : Sound (kept (matPerform s r)).2 := by
  unfold matPerform
  split <;> simp [h]
@[simp] theorem matGrant_sound (s : State) (t : Nat) (r : MatReq) (h : Sound (kept s).2) :
    Sound (kept (matGrant s t r)).2 := by
  simp [matGrant, h]
@[simp] theorem matArbitrate_sound (s : State) (t : Nat) (h : Sound (kept s).2) :
    Sound (kept (matArbitrate s t)).2 := by
  unfold matArbitrate
  split
  · exact h
  · split
    · exact matGrant_sound _ _ _ (by simp [h])
    · exact h

@[simp] theorem matServe_sound (s : State) (t : Nat) (h : Sound (kept s).2) : Sound (kept (matServe s t)).2 := by
  unfold matServe
  split
  · split
    · exact h
    · exact sound_forEach _ _ _ (matPerform_sound _ _ (by simp [h])) fun _ _ => matArbitrate_sound _ _
  · exact h

@[simp] theorem matRun_sound (s : State) (h : Sound (kept s).2) : Sound (kept (matRun s)).2 :=
  sound_forEach _ _ _ (sound_forEach _ _ _ h fun _ _ => matServe_sound _ _) fun _ _ => matArbitrate_sound _ _

@[simp] theorem matIssue_sound (s : State) (r : MatReq) (h : Sound (kept s).2) : Sound (kept (matIssue s r)).2 := by
  unfold matIssue
  split <;> simp [h]
@[simp] theorem matWrite_sound (s : State) (m a : Nat) (v : Word) (collide : Bool) (h : Sound (kept s).2) :
    Sound (kept (matWrite s m a v collide)).2 := by
  simp [matWrite, h]
@[simp] theorem xRegisterWrite_sound (m addr : Nat) (v : Word) (s : State) (h : Sound (kept s).2) :
    Sound (kept (xRegisterWrite m addr v s)).2 := by
  simp [xRegisterWrite, h]
@[simp] theorem xSfpCapPosRead_sound (m : Nat) (s : State) (h : Sound (kept s).2) :
    Sound (kept (xSfpCapPosRead m s)).2 := by
  simp [xSfpCapPosRead, h]
@[simp] theorem xMapHighWordWrite_sound (m addr : Nat) (v : Word) (s : State) (h : Sound (kept s).2) :
    Sound (kept (xMapHighWordWrite m addr v s)).2 := by
  simp [xMapHighWordWrite, h]
@[simp] theorem xMapLowWordWrite_sound (m addr : Nat) (v : Word) (collide : Bool) (s : State) (h : Sound (kept s).2) :
    Sound (kept (xMapLowWordWrite m addr v collide s)).2 := by
  simp [xMapLowWordWrite, h]
@[simp] theorem xMapHighWordRead_sound (m addr : Nat) (s : State) (h : Sound (kept s).2) :
    Sound (kept (xMapHighWordRead m addr s)).2 := by
  simp [xMapHighWordRead, h]
@[simp] theorem xPostedWrite_sound (m addr : Nat) (v : Word) (s : State) (h : Sound (kept s).2) :
    Sound (kept (xPostedWrite m addr v s)).2 := by
  simp [xPostedWrite, h]
@[simp] theorem xPostedWriteComplete_sound (k : Nat) (s : State) (h : Sound (kept s).2) :
    Sound (kept (xPostedWriteComplete k s)).2 := by
  unfold xPostedWriteComplete
  split <;> simp [h]
@[simp] theorem xBlkStatWrite_sound (m k : Nat) (v : Word) (s : State) (h : Sound (kept s).2) :
    Sound (kept (xBlkStatWrite m k v s)).2 := by
  simp [xBlkStatWrite, h]
@[simp] theorem xGuardPairOpen_sound (m addr : Nat) (v : Word) (s : State) (h : Sound (kept s).2) :
    Sound (kept (xGuardPairOpen m addr v s)).2 := by
  simp [xGuardPairOpen, h]
@[simp] theorem xGuardOrphan_sound (m addr : Nat) (v : Word) (s : State) (h : Sound (kept s).2) :
    Sound (kept (xGuardOrphan m addr v s)).2 := by
  simp [xGuardOrphan, h]
@[simp] theorem xRemap_sound (m : Nat) (c : Word) (s : State) (h : Sound (kept s).2) :
    Sound (kept (xRemap m c s)).2 := by
  simp [xRemap, h]
@[simp] theorem xSeqRst_sound (m : Nat) (c : Word) (s : State) (h : Sound (kept s).2) :
    Sound (kept (xSeqRst m c s)).2 := by
  simp [xSeqRst, h]
@[simp] theorem xFlashWe_sound (m : Nat) (c : Word) (s : State) (h : Sound (kept s).2) :
    Sound (kept (xFlashWe m c s)).2 := by
  simp [xFlashWe, h]
@[simp] theorem xKeyWe_sound (m : Nat) (c : Word) (s : State) (h : Sound (kept s).2) :
    Sound (kept (xKeyWe m c s)).2 := by
  simp [xKeyWe, h]
@[simp] theorem xBscanUnlock_sound (m : Nat) (c : Word) (s : State) (h : Sound (kept s).2) :
    Sound (kept (xBscanUnlock m c s)).2 := by
  simp [xBscanUnlock, h]
@[simp] theorem xPairCtlSwap_sound (m : Nat) (c : Word) (s : State) (h : Sound (kept s).2) :
    Sound (kept (xPairCtlSwap m c s)).2 := by
  simp [xPairCtlSwap, h]
@[simp] theorem xPairCtlCancel_sound (m : Nat) (c : Word) (s : State) (h : Sound (kept s).2) :
    Sound (kept (xPairCtlCancel m c s)).2 := by
  simp [xPairCtlCancel, h]
@[simp] theorem xPairCtlForceActive_sound (m : Nat) (c : Word) (s : State) (h : Sound (kept s).2) :
    Sound (kept (xPairCtlForceActive m c s)).2 := by
  simp [xPairCtlForceActive, h]
@[simp] theorem xFeedSelectTarget_sound (m : Nat) (c : Word) (s : State) (h : Sound (kept s).2) :
    Sound (kept (xFeedSelectTarget m c s)).2 := by
  simp [xFeedSelectTarget, h]
@[simp] theorem xMdioStart_sound (m : Nat) (v : Word) (s : State) (h : Sound (kept s).2) :
    Sound (kept (xMdioStart m v s)).2 := by
  simp [xMdioStart, h]
@[simp] theorem xMgmtSnapArm_sound (m : Nat) (v : Word) (s : State) (h : Sound (kept s).2) :
    Sound (kept (xMgmtSnapArm m v s)).2 := by
  simp [xMgmtSnapArm, h]
@[simp] theorem mirFrame_sound (s : State) (h : Sound (kept s).2) : Sound (kept (mirFrame s)).2 := by
  simp [mirFrame, h]
@[simp] theorem xMirrorLost_sound (s : State) (h : Sound (kept s).2) : Sound (kept (xMirrorLost s)).2 := by
  unfold xMirrorLost
  dsimp only
  (repeat' split) <;> simp [h]
theorem storeFold_sound (hits : List Nat) (l : List (Nat × Entry)) (x : Stored) (h : Sound (kept x.st).2) :
    Sound (kept (l.foldl (storeOne hits) x).st).2 := by
  refine forEach_keeps (fun x : Stored => Sound (kept x.st).2) l x _ h fun x ge hx => ?_
  unfold storeOne
  dsimp only
  split <;> simp [hx]
@[simp] theorem storeItems_sound (items : List (Nat × Entry)) (hits : List Nat) (x : Stored) (d n : Nat)
    (h : Sound (kept x.st).2) : Sound (kept (storeItems items hits x d n).st).2 := storeFold_sound _ _ _ h
@[simp] theorem storeSpan_sound (x : Stored) (lo n : Nat) (f : Nat → Entry) (hits : List Nat)
    (h : Sound (kept x.st).2) : Sound (kept (storeSpan x lo n f hits).st).2 := storeFold_sound _ _ _ h
@[simp] theorem copyPart_sound (hits : List Nat) (x : Stored) (d n : Nat) (h : Sound (kept x.st).2) :
    Sound (kept (copyPart hits x d n).st).2 := storeSpan_sound _ _ _ _ _ h
theorem staging_sound (mask : BitVec 8) (s : State) (body : State → State) (h : Sound (kept s).2)
    (hb : ∀ t, Sound (kept t).2 → Sound (kept (body t)).2) : Sound (kept (staging mask s body)).2 := by
  unfold staging
  split_ifs
  · simp [h]
  · simp [h]
  · exact hb _ (by simp [h])
theorem storeRow_sound (mask : BitVec 8) (total part : Nat) (stores : Stored → Nat → Nat → Stored)
    (fin : Stored → Stored) (q : Run) (s : State) (h : Sound (kept s).2)
    (hs : ∀ x d n, Sound (kept x.st).2 → Sound (kept (stores x d n).st).2)
    (hf : ∀ x, Sound (kept x.st).2 → Sound (kept (fin x).st).2) :
    Sound (kept (storeRow mask total part stores fin q s)).2 := by
  unfold storeRow
  extract_lets d x0 n go
  have goes : ∀ t, Sound (kept t).2 → Sound (kept (go t)).2 := fun t ht => by
    simp only [go]
    split
    · simpa [storeReply] using hf _ (hs (x0 t) d n ht)
    · simpa using hs (x0 t) d n ht
  split_ifs
  · exact staging_sound _ _ _ h goes
  · simp [h]
  · exact h
  · exact goes s h

/-- A configuration that is saved takes the active bank as it stands. -/
@[simp] theorem cfgCapture_sound (s : State) (h : Sound (kept s).2) : Sound (kept (cfgCapture s)).2 := by
  unfold cfgCapture
  split
  · extract_lets s1 inDom c s2
    split
    · simp [s1, h]
    · rw [replyOk_kept]
      have bank : twf (fun _ => (0 : Entry)) c.bank = true := by
        simp only [c, bankOf]
        split
        · exact h.2.2.1
        · exact h.2.1
      simp only [s2, savedOnce_kept]
      exact ⟨h.1, h.2.1, h.2.2.1, bank⟩
  · exact h

@[simp] theorem evalAps_sound (s : State) (g : Nat) (h : Sound (kept s).2) : Sound (kept (evalAps s g)).2 := by
  simp [evalAps, h]
@[simp] theorem grpMirrored_sound (s : State) (g : Nat) (h : Sound (kept s).2) : Sound (kept (grpMirrored s g)).2 := by
  simp [grpMirrored, h]
@[simp] theorem protFrame_sound (s : State) (h : Sound (kept s).2) : Sound (kept (protFrame s)).2 := by
  refine sound_forEach _ _ _ h fun t g ht => ?_
  extract_lets u
  have k : Sound (kept u).2 := by
    simp only [u]
    split <;> simp [ht]
  split <;> simp [k]

@[simp] theorem saveFrame_sound (s : State) (h : Sound (kept s).2) : Sound (kept (saveFrame s)).2 := by
  unfold saveFrame
  split
  · split <;> simp [h]
  · exact h

@[simp] theorem xFrameBoundary_sound (i : FrameIn) (s : State) (h : Sound (kept s).2) :
    Sound (kept (xFrameBoundary i s)).2 := by
  unfold xFrameBoundary
  generalize allPorts = l
  split
  · exact h
  · extract_lets s0 s1 s2 s3 s4
    have k0 : kept s0 = kept s := by simp [s0]
    have k1 : kept s1 = kept s := by simp [s1, k0]
    have k2 : kept s2 = kept s := by simp [s2, k1]
    have k3 : Sound (kept s3).2 := by simp [s3, k2, h]
    have k4 : Sound (kept s4).2 := by simp [s4, k3]
    rw [kept_frameDone]
    exact mirFrame_sound s4 k4

@[simp] theorem xStageRevert_sound (hits : List Nat) (part : Nat) (q : Run) (s : State) (h : Sound (kept s).2) :
    Sound (kept (xStageRevert hits part q s)).2 := by
  unfold xStageRevert
  extract_lets m views
  have same : ∀ t, kept (views t) = kept t := fun t => by
    simp only [views]
    split <;> simp
  split_ifs
  · simp [h]
  · exact storeRow_sound _ _ _ _ _ _ _ h (fun x d n hx => by simp [same, hx]) fun x hx => by simp [hx]
  · refine staging_sound _ _ _ h fun t ht => by simp [same, ht]

@[simp] theorem xMapWrite_sound (hits : List Nat) (part : Nat) (q : Run) (s : State) (h : Sound (kept s).2) :
    Sound (kept (xMapWrite hits part q s)).2 := by
  simp only [xMapWrite]
  split
  · simp [h]
  · exact storeRow_sound _ _ _ _ _ _ _ h (fun x d n hx => by simp [hx]) fun _ hx => hx

@[simp] theorem xMapCopy_sound (hits : List Nat) (part : Nat) (q : Run) (s : State) (h : Sound (kept s).2) :
    Sound (kept (xMapCopy hits part q s)).2 :=
  storeRow_sound _ _ _ _ _ _ _ h (fun x d n hx => by simp [hx]) fun x hx => by simp [hx]

@[simp] theorem xMapClear_sound (hits : List Nat) (part : Nat) (q : Run) (s : State) (h : Sound (kept s).2) :
    Sound (kept (xMapClear hits part q s)).2 := by
  simp only [xMapClear]
  split
  · simp [h]
  · exact storeRow_sound _ _ _ _ _ _ _ h (fun x d n hx => by simp [hx]) fun _ hx => hx

@[simp] theorem xHMapWrite_sound (hits : List Nat) (part : Nat) (q : Run) (s : State) (h : Sound (kept s).2) :
    Sound (kept (xHMapWrite hits part q s)).2 := by
  simp only [xHMapWrite]
  split_ifs
  · simp [h]
  · simp [h]
  · exact storeRow_sound _ _ _ _ _ _ _ h (fun x d n hx => by simp [hx]) fun _ hx => hx

@[simp] theorem loseContent_sound (s : State) (m b : Nat) (h : Sound (kept s).2) :
    Sound (kept (loseContent s m b)).2 := by
  rw [sound_iff] at h ⊢
  refine ⟨loseContent_wf s m b h.1, ?_⟩
  unfold loseContent
  split_ifs <;> exact h.2

@[simp] theorem xMemPowerTransitionDone_sound (memory b : Nat) (s : State) (h : Sound (kept s).2) :
    Sound (kept (xMemPowerTransitionDone memory b s)).2 := by
  unfold xMemPowerTransitionDone
  split <;> simp [h]

/-- A command's access of the scratchpad lies inside it; a rotated one is of one word. -/
theorem memAccess_inside {s : State} {p : Bytes} {w n : Nat} (h : memAccess s p = some (1, w, n)) :
    w = pkNat p 0 4 / 4 * 4 ∧ (bit (p.getD 6 0) 0 = true → n = 1) ∧ w - 0x18000000 + 4 * n ≤ 0x40000 := by
  simp only [memAccess] at h
  split at h
  next k base size region =>
    split at h
    · cases h
    next legal =>
      simp only [Option.some.injEq, Prod.mk.injEq] at h
      obtain ⟨rfl, rfl, rfl⟩ := h
      have listed := List.mem_of_find?_eq_some region
      simp at listed
      simp only [not_or, not_lt] at legal
      obtain ⟨rfl, rfl⟩ := listed
      obtain ⟨-, few, -, one, inside⟩ := legal
      refine ⟨rfl, fun r => ?_, by omega⟩
      by_contra many
      exact one ⟨r, .inl many⟩
  · cases h

theorem rotStore_sound (s : State) (w a n : Nat) (d : Bytes) (inside : w - 0x18000000 + 4 ≤ 0x40000)
    (h : Sound (kept s).2) : Sound (kept (rotStore s w a n d)).2 := by
  refine sound_forEach _ _ _ h fun t k ht => scratchPut_sound _ _ _ ?_ ht
  simp only [List.length_singleton]
  omega

@[simp] theorem xMemWrite_sound (collides : Nat) (q : Run) (s : State) (h : Sound (kept s).2) :
    Sound (kept (xMemWrite collides q s)).2 := by
  unfold xMemWrite
  extract_lets p rot m
  split
  · simp [h]
  next k w n access =>
  split
  · simp [h]
  next legal =>
  obtain rfl : k = 1 := by
    by_contra other
    exact legal (.inl other)
  obtain ⟨-, one, inside⟩ := memAccess_inside access
  split
  · simp [h]
  · extract_lets s1 s2
    have k2 : Sound (kept s2).2 := by
      simp only [s2]
      split
      next r =>
        have single := one r
        exact rotStore_sound _ _ _ _ _ (by omega) (by simp [s1, h])
      · refine scratchPut_sound _ _ _ ?_ (by simp [s1, h])
        simpa [slice, rangeFrom] using inside
    simpa using k2

@[simp] theorem itemWrite_sound (s : State) (q : Run) (a : Nat) (v : Word) (work worst : Nat) (h : Sound (kept s).2) :
    Sound (kept (itemWrite s q a v work worst)).2 := by
  simp [itemWrite, h]
@[simp] theorem xRegWrite_sound (q : Run) (s : State) (h : Sound (kept s).2) : Sound (kept (xRegWrite q s)).2 := by
  unfold xRegWrite
  extract_lets p n as k it go
  have goes : ∀ t, Sound (kept t).2 → Sound (kept (go t)).2 := fun t ht => by
    simp only [go]
    split_ifs <;> simp [ht]
  clear_value go
  split_ifs
  · exact goes s h
  · simp [h]
  · split
    · simp [h]
    · exact goes _ (by simp [h])

@[simp] theorem waitStep_sound (q : Run) (k : Nat) (s : State) (h : Sound (kept s).2) :
    Sound (kept (waitStep q k s)).2 := by
  simp [waitStep, h]
@[simp] theorem xRegWriteWait_sound (q : Run) (s : State) (h : Sound (kept s).2) :
    Sound (kept (xRegWriteWait q s)).2 := by
  unfold xRegWriteWait
  dsimp only
  (repeat' split) <;> simp [h]
@[simp] theorem wramInit_sound (s : State) (h : Sound (kept s).2) : Sound (kept (wramInit s)).2 := by
  rw [sound_iff] at h ⊢
  exact ⟨wramInit_wf s h.1, h.2⟩

@[simp] theorem autoRestart_sound (s : State) (h : Sound (kept s).2) : Sound (kept (autoRestart s)).2 := by
  unfold autoRestart
  extract_lets n m v s1
  have k : Sound (kept s1).2 := by
    simp only [s1]
    split
    · simp [v, h]
    · simp [v, h]
  split
  · split <;> simp [k]
  · exact h

@[simp] theorem xSequencerRestart_sound (s : State) (h : Sound (kept s).2) : Sound (kept (xSequencerRestart s)).2 := by
  unfold xSequencerRestart
  dsimp only
  (repeat' split) <;> simp [h]

end Sys2Proof.Machine
end

section
/-! The step on the queue's front and the tick of the block clock, and the invariants after reset (O1, O2, O52). -/

namespace Sys2Proof.Machine

open Sys2Proof

/-- Settles O1: `step` takes the front of the queue. -/
theorem stepRunsFront : Obligations.StepRunsFront := by
  unfold Obligations.StepRunsFront
  intro c l s front
  simp only [step, front]

/-- Settles O52. -/
theorem resetMeetsInvariants : Obligations.ResetMeetsInvariants := by
  unfold Obligations.ResetMeetsInvariants
  exact ⟨by decide, memory_wf_reset, mapInv_reset⟩

/-! The tick of the block clock. -/

/-- The pins after the count leaves a frame boundary hold the levels they had there. -/
theorem pinsLeave_eq (s : State) :
    pinsLeave s = { s with pins := { s.pins with level := (pinsLeave s).pins.level } } := by
  unfold pinsLeave
  split <;> rfl

/-- A bit of a word with one bit set to a value. -/
theorem bit_setBit_of_lt {n : Nat} (w : BitVec n) {j i : Nat} (hi : i < n) (b : Bool) :
    bit (setBit w j b) i = if j = i then b else bit w i := by
  have mark : (BitVec.ofNat n (2 ^ j)).getLsbD i = decide (j = i) := by
    simp only [BitVec.getLsbD_ofNat, Nat.testBit_two_pow, hi, decide_true, Bool.true_and]
  cases b
  · simp only [bit, setBit, Bool.false_eq_true, if_false, BitVec.getLsbD_and, BitVec.getLsbD_not, mark, hi, decide_true,
      Bool.true_and]
    by_cases same : j = i <;> simp [same]
  · simp only [bit, setBit, if_true, BitVec.getLsbD_or, mark]
    by_cases same : j = i <;> simp [same]

/-- The bits of a word written one by one. -/
theorem bit_foldl_setBit {n : Nat} (f : Nat → Bool) (l : List Nat) (w : BitVec n) {i : Nat} (hi : i < n) :
    bit (l.foldl (fun w j => setBit w j (f j)) w) i = if i ∈ l then f i else bit w i := by
  induction l generalizing w with
  | nil => rfl
  | cons j l ih =>
    rw [List.foldl_cons, ih, bit_setBit_of_lt w hi]
    by_cases later : i ∈ l
    · simp [later]
    · by_cases here : j = i
      · simp [here]
      · simp [here, Ne.symm here, later]

/-- Settles O2: the tick is the next count, and the pins keep the levels of the boundary that the count leaves. -/
theorem idleStepTicks : Obligations.IdleStepTicks := by
  unfold Obligations.IdleStepTicks
  intro s idle
  have runs : step s = .next (tick s) := by simp only [step, idle]
  refine ⟨fun stands => by rw [runs, tick, stands]; rfl, fun clock => ⟨_, runs, ?_⟩⟩
  rw [tick, if_pos clock]
  refine ⟨by rw [pinsLeave_eq], fun away => ?_, fun boundary n => ?_, ?_, ?_, ?_⟩
  · simp [pinsLeave, away]
  · have listed : (n : Nat) ∈ List.range 16 := List.mem_range.mpr n.isLt
    simp only [pinsLeave, boundary, if_true, onPins]
    rw [bit_foldl_setBit _ _ _ n.isLt, if_pos listed]
  · exact fun more => if_pos more
  · intro last more
    have past : ¬ s.sfp.bi + 1 < frameBlocks := by simp only [frameBlocks]; omega
    simp only [sfpNext, if_neg past, mfFrames, if_pos more]
  · intro last end_
    have past : ¬ s.sfp.bi + 1 < frameBlocks := by simp only [frameBlocks]; omega
    have round : ¬ s.sfp.fi + 1 < mfFrames := by simp only [mfFrames]; omega
    simp only [sfpNext, if_neg past, if_neg round]
    rfl

end Sys2Proof.Machine
end

section
/-! What a command can do to the parts that are kept, command by command, and the invariants and safety statements of
the whole machine (O53 to O57). -/

namespace Sys2Proof.Machine

open Sys2Proof

/-! What a row can do. -/

/-- Nothing that is kept changes, and the stores stay canonical. -/
structure Calm (s t : State) : Prop where
  fixed : (kept t).1 = (kept s).1
  sound : Sound (kept s).2 → Sound (kept t).2

theorem Calm.of_kept {s t : State} (h : kept t = kept s) : Calm s t := ⟨by rw [h], by rw [h]; exact id⟩

/-- At most the position changes, as `R` says, and the stores stay canonical. -/
structure Moves (R : Sfp → Sfp → Prop) (s t : State) : Prop where
  fixed : (kept t).1 = { (kept s).1 with sfp := t.sfp }
  moved : t.sfp = s.sfp ∨ R s.sfp t.sfp
  sound : Sound (kept s).2 → Sound (kept t).2

theorem sfp_of_fixed {s t : State} (h : (kept t).1 = (kept s).1) : t.sfp = s.sfp := congrArg (·.sfp) h

theorem Moves.of_calm {R : Sfp → Sfp → Prop} {s t : State} (c : Calm s t) : Moves R s t := by
  have at_ := sfp_of_fixed c.fixed
  exact ⟨by rw [c.fixed, at_]; rfl, .inl at_, c.sound⟩

theorem Moves.after_calm {R : Sfp → Sfp → Prop} {s u t : State} (c : Calm s u) (m : Moves R u t) : Moves R s t := by
  have at_ := sfp_of_fixed c.fixed
  exact ⟨by rw [m.fixed, c.fixed], by rw [← at_]; exact m.moved, m.sound ∘ c.sound⟩

theorem Moves.then_calm {R : Sfp → Sfp → Prop} {s u t : State} (m : Moves R s u) (c : Calm u t) : Moves R s t := by
  have at_ := sfp_of_fixed c.fixed
  exact ⟨by rw [c.fixed, m.fixed, at_], by rw [at_]; exact m.moved, c.sound ∘ m.sound⟩

/-- At most active views change, and the stores stay canonical. -/
structure Views (s t : State) : Prop where
  fixed : (kept t).1 = { (kept s).1 with act := (kept t).1.act }
  sound : Sound (kept s).2 → Sound (kept t).2

theorem Views.of_calm {s t : State} (c : Calm s t) : Views s t := ⟨by rw [c.fixed], c.sound⟩

theorem Views.trans {s u t : State} (h : Views s u) (k : Views u t) : Views s t :=
  ⟨by rw [k.fixed, h.fixed], k.sound ∘ h.sound⟩

/-- The module is off or in reset, its stores canonical and its position legal. -/
structure Resets (s t : State) : Prop where
  pending : t.pending = s.pending
  down : t.phase = .reset ∨ t.phase = .off
  sfp : sfpOk t.sfp = true
  sound : Sound (kept s).2 → Sound (kept t).2

/-! Positions. -/

/-- A legal position of the same multiframe. -/
def SameMfc (a p : Sfp) : Prop := sfpOk p = true ∧ (a.mfc < mfcMod → p.mfc = a.mfc)
/-- The same place in another multiframe. -/
def SamePlace (a p : Sfp) : Prop := p.fi = a.fi ∧ p.bi = a.bi ∧ p.mfc < mfcMod
/-- A legal position. -/
def Legal (_ p : Sfp) : Prop := sfpOk p = true

theorem sfpAdd_ok (p : Sfp) (n : Nat) : sfpOk (sfpAdd p n) = true := by
  simp only [sfpOk, sfpAdd, Bool.and_eq_true]
  refine ⟨⟨decide_eq_true (Nat.mod_lt _ (Nat.succ_pos _)), decide_eq_true ?_⟩,
    decide_eq_true (Nat.mod_lt _ (Nat.succ_pos _))⟩
  have : (p.fi * frameBlocks + p.bi + n) % mfBlocks < mfBlocks := Nat.mod_lt _ (Nat.succ_pos _)
  simp only [frameBlocks, mfBlocks, mfFrames] at *
  omega

theorem sfpAdd_epochAt_sameMfc (a : Sfp) (n : Nat) : SameMfc a (sfpAdd (epochAt a.mfc) (n % mfBlocks)) := by
  refine ⟨sfpAdd_ok _ _, fun legal => ?_⟩
  have less : n % mfBlocks < mfBlocks := Nat.mod_lt _ (Nat.succ_pos _)
  simp only [sfpAdd, epochAt, Nat.zero_mul, Nat.zero_add]
  rw [Nat.div_eq_of_lt less, Nat.add_zero, Nat.mod_mod, Nat.mod_eq_of_lt legal]

/-! The rows that move the count. -/

theorem stepSfp_moves (s : State) (w : Nat) : Moves SameMfc s (stepSfp s w) := by
  have h : kept (stepSfp s w) = ({ (kept s).1 with sfp := (stepSfp s w).sfp }, (kept s).2) := reStamp_kept _ _
  exact ⟨by rw [h], .inr (sfpAdd_epochAt_sameMfc _ _), by rw [h]; exact id⟩

theorem firstAlign_moves (s : State) (k : Nat) : Moves SameMfc s (firstAlign s k) := by
  unfold firstAlign
  split_ifs
  · exact .of_calm (.of_kept rfl)
  · exact .of_calm (.of_kept (by simp))
  · exact Moves.after_calm (.of_kept (by simp)) (stepSfp_moves _ _)

theorem fpOnTime_moves (s : State) (k : Nat) (err : Int) : Moves SameMfc s (fpOnTime s k err) := by
  unfold fpOnTime
  extract_lets x g s1 s2 s3
  have k2 : kept s2 = kept s := by
    simp only [s2, s1]
    split <;> simp
  have k3 : kept s3 = kept s := by
    simp only [s3]
    split <;> simp [k2]
  split
  · exact Moves.after_calm (.of_kept k3) (firstAlign_moves _ _)
  · exact .of_calm (.of_kept k3)

theorem xFpPulse_moves (k : Nat) (s : State) : Moves SameMfc s (xFpPulse k s) := by
  unfold xFpPulse
  extract_lets err
  split_ifs
  · exact .of_calm (.of_kept (by simp))
  · exact fpOnTime_moves _ _ _
  · exact .of_calm (.of_kept (by simp))
  · exact fpOnTime_moves _ _ _
  · exact .of_calm (.of_kept (by simp))
  · exact .of_calm (.of_kept rfl)

theorem xFpRealignStep_moves (s : State) : Moves SameMfc s (xFpRealignStep s) := by
  unfold xFpRealignStep
  generalize allPorts = l
  split
  · extract_lets s1
    split
    · extract_lets s2 s3
      have k3 : kept s3 = kept s := by simp [s3, s2, s1]
      refine Moves.after_calm (.of_kept ?_) (stepSfp_moves _ _)
      rw [realignWait_kept, k3]
    · exact .of_calm (.of_kept (by simp [s1]))
  · exact .of_calm (.of_kept rfl)

theorem mfcChange_moves (s : State) (n : Nat) : Moves SamePlace s (mfcChange s n) := by
  have h : kept (mfcChange s n) = ({ (kept s).1 with sfp := { s.sfp with mfc := n % mfcMod } }, (kept s).2) := by
    unfold mfcChange
    extract_lets m now pos s0 s1 bad s2 held
    have k1 : kept s1 = ({ (kept s).1 with sfp := { s.sfp with mfc := n % mfcMod } }, (kept s).2) := by
      rw [show s1 = reStamp _ _ from rfl, reStamp_kept]
      rfl
    have k2 : kept s2 = kept s1 := by simp [s2]
    rw [dropSwap_kept, dropMgSnap_kept, dropSnaps_kept, onCom_kept, k2, k1]
  have at_ : (mfcChange s n).sfp = { s.sfp with mfc := n % mfcMod } := congrArg (·.1.sfp) h
  refine ⟨by rw [h, at_], .inr ?_, by rw [h]; exact id⟩
  rw [at_]
  exact ⟨rfl, rfl, Nat.mod_lt _ (Nat.succ_pos _)⟩

theorem xMfcLearn_moves (s : State) : Moves SamePlace s (xMfcLearn s) := by
  unfold xMfcLearn
  split
  · split
    · extract_lets s1
      refine Moves.then_calm (u := s1) (.after_calm (.of_kept (onThy_kept _ _)) (mfcChange_moves _ _)) (.of_kept ?_)
      simp
    · exact .of_calm (.of_kept rfl)
  · exact .of_calm (.of_kept rfl)

theorem xSetMfcAct_moves (s : State) : Moves SamePlace s (xSetMfcAct s) := by
  unfold xSetMfcAct
  split
  · split
    · extract_lets s1
      refine Moves.then_calm (u := s1) (.after_calm (.of_kept (onThy_kept _ _)) (mfcChange_moves _ _)) (.of_kept ?_)
      simp
    · exact .of_calm (.of_kept rfl)
  · exact .of_calm (.of_kept rfl)

theorem followPeer_calm {s : State} (h : isStandby s = false) (w : W56) (comp : Nat) :
    kept (followPeer s w comp) = kept s := by
  unfold followPeer
  extract_lets fi old s1 q thy
  have out : ¬ isStandby s1 = true := by simpa [s1, isStandby] using h
  rw [if_neg out, onPair_kept]

theorem followPeer_moves (s : State) (w : W56) (comp : Nat) : Moves Legal s (followPeer s w comp) := by
  unfold followPeer
  extract_lets fi old s1 q thy
  have c1 : Calm s s1 := .of_kept (onPair_kept _ _)
  split
  · split
    · refine .after_calm c1 ?_
      have h : kept (reStamp s1.sfp
          { s1 with sfp := q, frameDone := none, epochDone := none, thy := { s1.thy with ivEpochs := none } })
          = ({ (kept s1).1 with sfp := q }, (kept s1).2) := reStamp_kept _ _
      exact ⟨by rw [h]; rfl, .inr (sfpAdd_ok _ _), by rw [h]; exact id⟩
    · exact .of_calm c1
  · exact .of_calm c1

theorem xHeartbeatReceive_effect (lane : Nat) (b : Block) (comp : Nat) (locked : Bool) (s : State) :
    ∃ u, (u = s ∨ u = followPeer s (blkW b) comp) ∧ Calm u (xHeartbeatReceive lane b comp locked s) := by
  unfold xHeartbeatReceive
  split
  · extract_lets w st compat back s1 again s2 s3 s4
    have k2 : kept s2 = kept s1 := onPair_kept _ _
    have k3 : kept s3 = kept s1 := by
      simp only [s3, disagreeEval_kept]
      split <;> simp [k2]
    have k4 : kept s4 = kept s1 := by
      simp only [s4]
      split
      · simp [k3]
      · split <;> simp [k3]
    exact ⟨s1, .inr rfl, by simp [k4], fun h => by simp [k4, h]⟩
  · exact ⟨s, .inl rfl, .of_kept rfl⟩

/-! The rows that change active views. -/

theorem onRegs_views (s : State) (f : RegSt → RegSt) : Views s (onRegs s f) := ⟨rfl, id⟩

theorem Calm.trans {s u t : State} (h : Calm s u) (k : Calm u t) : Calm s t :=
  ⟨k.fixed.trans h.fixed, k.sound ∘ h.sound⟩

theorem afterCopy_calm (old : View) (was : Bool) (lines : MapSt) (mask : BitVec 8) (s : State) :
    Calm s (afterCopy old was lines mask s) := ⟨by simp, fun h => by simp [h]⟩

theorem strobe_views (s : State) (mask : BitVec 8) : Views s (strobe s mask) := by
  unfold strobe
  extract_lets old r s7 moved s8
  have v7 : Views s s7 := by
    refine Views.trans (u := r) (onRegs_views s _) (Views.of_calm (Calm.trans ?_ (afterCopy_calm _ _ _ _ _)))
    split
    · exact .of_kept (by simp)
    · exact .of_kept rfl
  have k8 : kept s8 = kept s7 := by
    simp only [s8]
    split <;> simp
  split
  · exact v7.trans (.of_calm (.of_kept (by simp [k8])))
  · exact v7.trans (.of_calm (.of_kept k8))

theorem xCommitStrobe_views (s : State) : Views s (xCommitStrobe s) := by
  unfold xCommitStrobe
  extract_lets l mask autos s1 n s2
  split
  · exact (strobe_views s mask).trans (.of_calm (.of_kept (by simp [s2, s1])))
  · exact .of_calm (.of_kept rfl)

/-- Entries stored into one bank of the map. -/
theorem storeBank_calm (s : State) (b : Bool) (g : Nat) (e : Entry) :
    Calm s (onMap s (fun m => eccRewrite (setBank m b (tput 0 (bankOf m b) g e)) b g)) := by
  refine ⟨rfl, fun ⟨mem, ha, hb, hc⟩ => ?_⟩
  cases b
  · exact ⟨mem, twf_tput _ _ _ ha, hb, hc⟩
  · exact ⟨mem, ha, twf_tput _ _ _ hb, hc⟩

theorem storeSmi_calm (s : State) (b : Bool) (p : Nat) (w : Word) :
    Calm s (onMap s (fun m => eccRewrite (setSmi m b (tput 0 (smiOf m b) p w)) b (0x8000 + p))) := by
  refine ⟨rfl, fun h => ?_⟩
  cases b <;> exact h

theorem Calm.forEach {α : Type} (l : List α) (s : State) (f : State → α → State) (h : ∀ t x, Calm t (f t x)) :
    Calm s (forEach l s f) :=
  forEach_keeps (Calm s) l s f (.of_kept rfl) fun t x c => c.trans (h t x)

theorem Views.forEach {α : Type} (l : List α) (s : State) (f : State → α → State) (h : ∀ t x, Views t (f t x)) :
    Views s (forEach l s f) :=
  forEach_keeps (Views s) l s f (.of_calm (.of_kept rfl)) fun t x c => c.trans (h t x)

theorem mirSegment_calm (s : State) (act : Bool) (k : Nat) (es : List Entry) (smi : List Word) :
    Calm s (mirSegment s act k es smi) :=
  (Calm.forEach _ s _ fun _ _ => storeBank_calm _ _ _ _).trans (Calm.forEach _ _ _ fun _ _ => storeSmi_calm _ _ _ _)

theorem mirView_views (s : State) (act : Bool) (d : Nat) (ws : List (Nat × Word)) : Views s (mirView s act d ws) := by
  unfold mirView
  extract_lets load
  split
  · exact (onRegs_views s _).trans (.of_calm (afterCopy_calm _ _ _ _ _))
  · exact onRegs_views s _

theorem mirApply_views (at_ : Sfp) (m : MirrorRec) (s : State) : Views s (mirApply at_ m s) := by
  cases m with
  | mapStore act g e => exact .of_calm (storeBank_calm s _ _ _)
  | viewWrite act a w =>
    cases act <;> exact onRegs_views s _
  | segment act k es smi => exact .of_calm (mirSegment_calm s _ _ _ _)
  | view act d ws => exact mirView_views s _ _ _
  | commitEntry i o =>
    refine .of_calm (.of_kept ?_)
    cases o <;> simp [mirApply]
  | validation ep row idx =>
    refine .of_calm (.of_kept ?_)
    simp only [mirApply]
    split
    · split <;> simp
    · rfl
  | allot line to_ =>
    refine .of_calm (.of_kept ?_)
    simp only [mirApply]
    split
    · rfl
    · cases to_ <;> simp
  | swap o =>
    refine .of_calm (.of_kept ?_)
    cases o <;> simp [mirApply]
  | _ => exact .of_calm (.of_kept (by simp [mirApply]))

theorem syncTake_views (at_ : Sfp) (m : MirrorRec) (s : State) : Views s (syncTake at_ m s) := by
  unfold syncTake
  split
  · split
    · exact .of_calm (mirSegment_calm s _ _ _ _)
    · exact mirView_views s _ _ _
    · exact .of_calm (.of_kept (by simp))
    · extract_lets s1
      exact Views.trans (u := s1) (Views.forEach _ s _ fun _ _ => mirApply_views _ _ _) (.of_calm (.of_kept (by simp)))
    · exact .of_calm (.of_kept (by simp))
  · split
    · split
      · exact .of_calm (.of_kept (by simp))
      · exact mirApply_views _ _ _
    · exact .of_calm (.of_kept rfl)

theorem xMirrorRecordReceive_views (at_ : Sfp) (m : MirrorRec) (s : State) :
    Views s (xMirrorRecordReceive at_ m s) := by
  unfold xMirrorRecordReceive
  split
  · split
    · exact .of_calm (.of_kept (by simp))
    · exact mirApply_views _ _ _
  · exact syncTake_views _ _ _
  · exact .of_calm (.of_kept (by simp))
  · exact .of_calm (.of_kept (by simp))
  · exact .of_calm (.of_kept rfl)
  · exact .of_calm (.of_kept rfl)

theorem xMirrorRecordReceive_calm {s : State} (h : isStandby s = false) (at_ : Sfp) (m : MirrorRec) :
    Calm s (xMirrorRecordReceive at_ m s) := by
  unfold xMirrorRecordReceive
  split
  next st => simp [isStandby, st] at h
  next st => simp [isStandby, st] at h
  · exact .of_kept (by simp)
  next st => simp [isStandby, st] at h
  · exact .of_kept rfl
  · exact .of_kept rfl

/-! The rows that reset or start the module. -/

theorem bare_resets (s : State) {ph : Phase} (p : PowerSt) (h : ph = .reset ∨ ph = .off) : Resets s (bare s ph p) :=
  ⟨rfl, h, rfl, fun ⟨_, _, _, cfg⟩ => ⟨⟨rfl, by simp [bare, kept], rfl⟩, rfl, rfl, cfg⟩⟩

theorem moduleReset_resets (s : State) : Resets s (moduleReset s) := bare_resets s _ (.inl rfl)

theorem Resets.after_calm {s u t : State} (c : Calm s u) (r : Resets u t) : Resets s t :=
  ⟨r.pending.trans (congrArg (·.pending) c.fixed), r.down, r.sfp, r.sound ∘ c.sound⟩

theorem Resets.then_calm {s u t : State} (r : Resets s u) (c : Calm u t) : Resets s t := by
  have pending : t.pending = u.pending := congrArg (·.pending) c.fixed
  have phase : t.phase = u.phase := congrArg (·.phase) c.fixed
  have at_ : t.sfp = u.sfp := congrArg (·.sfp) c.fixed
  exact ⟨pending.trans r.pending, phase ▸ r.down, at_ ▸ r.sfp, c.sound ∘ r.sound⟩

theorem resetIfOn_effect (s : State) : Calm s (resetIfOn s) ∨ Resets s (resetIfOn s) := by
  unfold resetIfOn
  split
  · exact .inl (.of_kept rfl)
  · exact .inr (moduleReset_resets s)

theorem xPowerUp_effect (feedB both : Bool) (s : State) :
    Calm s (xPowerUp feedB both s) ∨ Resets s (xPowerUp feedB both s) := by
  unfold xPowerUp
  split
  · exact .inr (bare_resets s _ (.inl rfl))
  · exact .inl (.of_kept rfl)

theorem xPowerDown_effect (s : State) : Calm s (xPowerDown s) ∨ Resets s (xPowerDown s) := by
  unfold xPowerDown
  extract_lets s1
  split
  · exact .inl (.of_kept (by simp [s1]))
  · exact .inr (.after_calm (.of_kept (onPwr_kept s _)) (bare_resets s1 _ (.inr rfl)))

theorem xBulkUndervoltage_effect (s : State) : Calm s (xBulkUndervoltage s) ∨ Resets s (xBulkUndervoltage s) := by
  unfold xBulkUndervoltage
  split
  · exact .inl (.of_kept rfl)
  · exact .inr (bare_resets s _ (.inr rfl))

theorem xOvercurrentTrip_effect (s : State) : Calm s (xOvercurrentTrip s) ∨ Resets s (xOvercurrentTrip s) := by
  unfold xOvercurrentTrip
  split
  · exact .inl (.of_kept rfl)
  · exact .inr ((bare_resets s _ (.inr rfl)).then_calm (.of_kept (onPwr_kept _ _)))

theorem xDevResetEffect_effect (s : State) : Calm s (xDevResetEffect s) ∨ Resets s (xDevResetEffect s) := by
  unfold xDevResetEffect
  split
  · split
    · extract_lets s1
      split
      · exact .inr (.after_calm (.of_kept (onSeq_kept s _)) (moduleReset_resets s1))
      · refine .inl (.of_kept ?_)
        split <;> simp [s1]
    · exact .inl (.of_kept rfl)
  · exact .inl (.of_kept rfl)

theorem xResetSequenceEnd_effect (devid : BitVec 12) (twinPos : Bool) (s : State) :
    xResetSequenceEnd devid twinPos s = s ∨ s.phase = .reset ∧
      kept (xResetSequenceEnd devid twinPos s) = ({ (kept s).1 with phase := .released, sfp := {} }, (kept s).2) := by
  unfold xResetSequenceEnd
  split
  next h => exact .inr ⟨h.1, rfl⟩
  · exact .inl rfl

/-- At most the phase changes. -/
def Starts (s t : State) : Prop := kept t = ({ (kept s).1 with phase := t.phase }, (kept s).2)

theorem Starts.of_kept {s t : State} (h : kept t = kept s) : Starts s t := by
  have same : t.phase = s.phase := congrArg (·.1.phase) h
  rw [Starts, h, same]
  rfl

theorem Starts.put {s u : State} (h : kept u = kept s) (p : Phase) : Starts s { u with phase := p } := by
  have put : kept { u with phase := p } = ({ (kept u).1 with phase := p }, (kept u).2) := rfl
  rw [Starts, put, h]

theorem xDieRelease_starts (f : BootIn) (s : State) : Starts s (xDieRelease f s) := by
  unfold xDieRelease
  split
  · extract_lets n s1 s2 img rescue s3 s4
    have k2 : kept s2 = kept s := by
      simp only [s2]
      split <;> simp [s1]
    have k4 : kept s4 = kept s := by
      simp only [s4, s3]
      split <;> simp [k2]
    split
    · exact Starts.put (u := onSeq s4 fun q => { q with running := false }) (by simp [k4]) _
    · exact Starts.put (u := loadDays (loadNet (loadLast (loadKeys s4)))) (by simp [k4]) _
  · exact .of_kept rfl

theorem xReady_starts (s : State) : Starts s (xReady s) := by
  unfold xReady
  split
  · extract_lets s1
    exact Starts.put (u := onPair (onFlash s1 _) _) ((onPair_kept _ _).trans (by simp [s1])) _
  · exact .of_kept rfl

theorem Calm.runSteps {op : BitVec 16} {r : Req} {body : Run → State →
    State} (h : ∀ q t, Calm t (body q t)) (s : State) :
    Calm s (runSteps op r body s) := by
  unfold Machine.runSteps
  extract_lets s1
  have c1 : Calm s s1 := .of_kept (offer_kept _ _ _)
  split
  · split
    · split
      · exact c1.trans (.of_kept (setReply_kept _ _ _ _))
      · exact c1.trans (Calm.trans (.of_kept (onRun_kept _ _)) (h _ _))
    · exact c1.trans (h _ _)
  · exact c1

theorem Calm.runOnce {op : BitVec 16} {r : Req} {body : Run → State →
    State} (h : ∀ q t, Calm t (body q t)) (s : State) :
    Calm s (runOnce op r body s) :=
  Calm.runSteps (fun q t => by
    split
    · exact h q t
    · exact .of_kept rfl) s

theorem Calm.runSoon {op : BitVec 16} {r : Req} {checked : Bool} {body : Run → State → State}
    (h : ∀ q t, Calm t (body q t)) (s : State) : Calm s (runSoon op r checked body s) := by
  unfold Machine.runSoon
  extract_lets s1
  have c1 : Calm s s1 := .of_kept (offer_kept _ _ _)
  split
  · split
    · split
      · exact c1.trans (.of_kept (setReply_kept _ _ _ _))
      · exact c1.trans (Calm.trans (.of_kept (onRun_kept _ _)) (h _ _))
    · exact c1
  · exact c1

/-- What a row does, as far as the parts that are kept go. -/
inductive Effect (i : Instr) (s t : State) : Prop
  | calm (c : Calm s t)
  | framePhase (row : (∃ k, i = .fpEdge k) ∨ i = .fpRealignAct) (m : Moves SameMfc s t)
  | newMfc (row : i = .mfcLearn ∨ i = .setMfcAct) (m : Moves SamePlace s t)
  | followsPeer (row : ∃ lane b comp l,
      i = .heartbeatTake lane b comp l) (standby : isStandby s = true) (m : Moves Legal s t)
  | views (row : i = .commitStrobe ∨ ∃ f m, i = .mirrorRecordTake f m ∧ isStandby s = true) (v : Views s t)
  | resets (r : Resets s t)
  | released (row : ∃ d p, i = .resetSequenceEnd d p) (was : s.phase = .reset)
      (only : kept t = ({ (kept s).1 with phase := .released, sfp := {} }, (kept s).2))
  | starts (b : Starts s t)

theorem Effect.of_kept {i : Instr} {s t : State} (h : kept t = kept s) : Effect i s t := .calm (.of_kept h)

theorem Effect.of_calm_or_resets {i : Instr} {s t : State} (h : Calm s t ∨ Resets s t) : Effect i s t :=
  h.elim .calm .resets

/-- A row that a module without power or in reset leaves out. -/
theorem Effect.live {i : Instr} {s u : State} (e : Effect i s u) : Effect i s (live s u) := by
  unfold Machine.live
  split
  · exact e
  · exact .of_kept rfl

theorem Effect.liveFrame {i : Instr} {s u : State} (e : Effect i s u) : Effect i s (liveFrame s u) := by
  unfold Machine.liveFrame
  split
  · exact e
  · exact .of_kept rfl

theorem Effect.liveEpoch {i : Instr} {s u : State} (e : Effect i s u) : Effect i s (liveEpoch s u) := by
  unfold Machine.liveEpoch
  split
  · exact e
  · exact .of_kept rfl

theorem Effect.next {i : Instr} {s t u : State} {φ ρ : Type} (e : Effect i s u)
    (h : (Host.Outcome.next u : Host.Outcome State φ ρ) = .next t) : Effect i s t := by
  cases h
  exact e

theorem xHeartbeatReceive_row (lane : Fin 2) (b : Block) (comp : Nat) (l : Bool) (s : State) :
    Effect (.heartbeatTake lane b comp l) s (xHeartbeatReceive lane.val b comp l s) := by
  obtain ⟨u, rfl | rfl, c⟩ := xHeartbeatReceive_effect lane.val b comp l s
  · exact .calm c
  · rcases standby : isStandby s with _ | _
    · exact .calm (Calm.trans (.of_kept (followPeer_calm standby _ _)) c)
    · exact .followsPeer ⟨lane, b, comp, l, rfl⟩ standby ((followPeer_moves _ _ _).then_calm c)

theorem xMirrorRecordReceive_row (f : Sfp) (m : MirrorRec) (s : State) :
    Effect (.mirrorRecordTake f m) s (xMirrorRecordReceive f m s) := by
  rcases standby : isStandby s with _ | _
  · exact .calm (xMirrorRecordReceive_calm standby _ _)
  · exact .views (.inr ⟨f, m, rfl, standby⟩) (xMirrorRecordReceive_views _ _ _)

theorem xResetSequenceEnd_row (d : BitVec 12) (p : Bool) (s : State) :
    Effect (.resetSequenceEnd d p) s (xResetSequenceEnd d p s) := by
  rcases xResetSequenceEnd_effect d p s with same | ⟨was, only⟩
  · rw [same]
    exact .of_kept rfl
  · exact .released ⟨d, p, rfl⟩ was only

theorem xResetNAssert_row (s : State) : Effect .resetNAssert s (xResetNAssert s) := by
  have c : Calm s (onPins s (fun p => { p with resetN := true })) := .of_kept (onPins_kept _ _)
  exact .of_calm_or_resets ((resetIfOn_effect _).imp c.trans (Resets.after_calm c))

theorem exec_effect {i : Instr} {s t : State} (h : exec i s = .next t) : Effect i s t := by
  cases i with
  | devInfo => exact Effect.next (.live (.calm (.runOnce (fun q t => .of_kept (xDevInfo_kept q t)) s))) h
  | keyWrite => exact Effect.next (.live (.calm (.runSteps (fun q t => .of_kept (xKeyWrite_kept _ q t)) s))) h
  | keyInfo => exact Effect.next (.live (.calm (.runOnce (fun q t => .of_kept (xKeyInfo_kept q t)) s))) h
  | groupMemberSet => exact Effect.next (.live (.calm (.runOnce (fun q t => .of_kept
      (xGroupMemberSet_kept _ q t)) s))) h
  | groupMemberGet => exact Effect.next (.live (.calm (.runOnce (fun q t => .of_kept (xGroupMemberGet_kept q t)) s))) h
  | routeSet => exact Effect.next (.live (.calm (.runOnce (fun q t => .of_kept (xRouteSet_kept _ q t)) s))) h
  | routeGet => exact Effect.next (.live (.calm (.runOnce (fun q t => .of_kept (xRouteGet_kept q t)) s))) h
  | relayPortsSet => exact Effect.next (.live (.calm (.runOnce (fun q t => .of_kept (xRelayPortsSet_kept _ q t)) s))) h
  | cfgSave => exact Effect.next (.live (.calm (.runOnce (fun q t => .of_kept (xCfgSave_kept _ q t)) s))) h
  | cfgInfo => exact Effect.next (.live (.calm (.runOnce (fun q t => .of_kept (xCfgInfo_kept q t)) s))) h
  | devReset => exact Effect.next (.live (.calm (.runSteps (fun q t => .of_kept (xDevReset_kept q t)) s))) h
  | mapWritePart => exact Effect.next (.live (.calm (.runSteps (fun q t => ⟨xMapWrite_fixed _ _ q t,
      xMapWrite_sound _ _ q t⟩) s))) h
  | mapRead => exact Effect.next (.live (.calm (.runOnce (fun q t => .of_kept (xMapRead_kept q t)) s))) h
  | mapCopyPart => exact Effect.next (.live (.calm (.runSteps (fun q t => ⟨xMapCopy_fixed _ _ q t,
      xMapCopy_sound _ _ q t⟩) s))) h
  | mapClearPart => exact Effect.next (.live (.calm (.runSteps (fun q t => ⟨xMapClear_fixed _ _ q t,
      xMapClear_sound _ _ q t⟩) s))) h
  | smiWrite => exact Effect.next (.live (.calm (.runOnce (fun q t => .of_kept (xSmiWrite_kept q t)) s))) h
  | mapStatus => exact Effect.next (.live (.calm (.runOnce (fun q t => .of_kept (xMapStatus_kept q t)) s))) h
  | hMapRead => exact Effect.next (.live (.calm (.runOnce (fun q t => .of_kept (xHMapRead_kept q t)) s))) h
  | hMapWritePart => exact Effect.next (.live (.calm (.runSteps (fun q t => ⟨xHMapWrite_fixed _ _ q t,
      xHMapWrite_sound _ _ q t⟩) s))) h
  | hSlotStats => exact Effect.next (.live (.calm (.runOnce (fun q t => .of_kept (xHSlotStats_kept q t)) s))) h
  | grpWrite => exact Effect.next (.live (.calm (.runOnce (fun q t => .of_kept (xGrpWrite_kept q t)) s))) h
  | grpRead => exact Effect.next (.live (.calm (.runOnce (fun q t => .of_kept (xGrpRead_kept q t)) s))) h
  | protRequest => exact Effect.next (.live (.calm (.runOnce (fun q t => .of_kept (xProtRequest_kept q t)) s))) h
  | protGrpStatus => exact Effect.next (.live (.calm (.runOnce (fun q t => .of_kept (xProtGrpStatus_kept q t)) s))) h
  | protEqRealign => exact Effect.next (.live (.calm (.runOnce (fun q t => .of_kept (xProtEqRealign_kept q t)) s))) h
  | portCfgWrite => exact Effect.next (.live (.calm (.runOnce (fun q t => .of_kept (xPortCfgWrite_kept q t)) s))) h
  | portCfgRead => exact Effect.next (.live (.calm (.runOnce (fun q t => .of_kept (xPortCfgRead_kept q t)) s))) h
  | portAdaptWrite => exact Effect.next (.live (.calm (.runOnce (fun q t => .of_kept (xPortAdaptWrite_kept q t)) s))) h
  | portSerdesWrite => exact Effect.next (.live (.calm (.runOnce (fun q t => .of_kept
      (xPortSerdesWrite_kept q t)) s))) h
  | portStatus => exact Effect.next (.live (.calm (.runOnce (fun q t => .of_kept (xPortStatus_kept q t)) s))) h
  | portSnapshot => exact Effect.next (.live (.calm (.runOnce (fun q t => .of_kept (xPortSnapshot_kept q t)) s))) h
  | portSnapRead => exact Effect.next (.live (.calm (.runOnce (fun q t => .of_kept (xPortSnapRead_kept q t)) s))) h
  | tpChkWrite => exact Effect.next (.live (.calm (.runOnce (fun q t => .of_kept (xTpChkWrite_kept q t)) s))) h
  | tpChkRead => exact Effect.next (.live (.calm (.runOnce (fun q t => .of_kept (xTpChkRead_kept q t)) s))) h
  | commit => exact Effect.next (.live (.calm (.runSoon (fun q t => .of_kept (xCommit_kept q t)) s))) h
  | commitCancel => exact Effect.next (.live (.calm (.runSoon (fun q t => .of_kept (xCommitCancel_kept q t)) s))) h
  | commitList => exact Effect.next (.live (.calm (.runOnce (fun q t => .of_kept (xCommitList_kept q t)) s))) h
  | stageRevertPart => exact Effect.next (.live (.calm (.runSteps (fun q t => ⟨xStageRevert_fixed _ _ q t,
      xStageRevert_sound _ _ q t⟩) s))) h
  | stageAccept => exact Effect.next (.live (.calm (.runOnce (fun q t => .of_kept (xStageAccept_kept q t)) s))) h
  | sfpRead => exact Effect.next (.live (.calm (.runOnce (fun q t => .of_kept (xSfpRead_kept q t)) s))) h
  | thyCandWrite => exact Effect.next (.live (.calm (.runOnce (fun q t => .of_kept (xThyCandWrite_kept q t)) s))) h
  | thyCfgWrite => exact Effect.next (.live (.calm (.runOnce (fun q t => .of_kept (xThyCfgWrite_kept q t)) s))) h
  | thyOutWrite => exact Effect.next (.live (.calm (.runOnce (fun q t => .of_kept (xThyOutWrite_kept q t)) s))) h
  | thyCfgRead => exact Effect.next (.live (.calm (.runOnce (fun q t => .of_kept (xThyCfgRead_kept q t)) s))) h
  | thyStatus => exact Effect.next (.live (.calm (.runOnce (fun q t => .of_kept (xThyStatus_kept q t)) s))) h
  | setQl => exact Effect.next (.live (.calm (.runOnce (fun q t => .of_kept (xSetQl_kept q t)) s))) h
  | thymeForce => exact Effect.next (.live (.calm (.runOnce (fun q t => .of_kept (xThymeForce_kept q t)) s))) h
  | setMfc => exact Effect.next (.live (.calm (.runOnce (fun q t => .of_kept (xSetMfc_kept q t)) s))) h
  | mfcRelearn => exact Effect.next (.live (.calm (.runOnce (fun q t => .of_kept (xMfcRelearn_kept q t)) s))) h
  | fpRealign => exact Effect.next (.live (.calm (.runOnce (fun q t => .of_kept (xFpRealign_kept q t)) s))) h
  | thymeHistoryRead =>
      exact Effect.next (.live (.calm (.runOnce (fun q t => .of_kept (xThymeHistoryRead_kept q t)) s))) h
  | pairStatus => exact Effect.next (.live (.calm (.runOnce (fun q t => .of_kept (xPairStatus_kept q t)) s))) h
  | pairCfgWrite => exact Effect.next (.live (.calm (.runOnce (fun q t => .of_kept (xPairCfgWrite_kept q t)) s))) h
  | pairCfgRead => exact Effect.next (.live (.calm (.runOnce (fun q t => .of_kept (xPairCfgRead_kept q t)) s))) h
  | pairResync => exact Effect.next (.live (.calm (.runOnce (fun q t => .of_kept (xPairResync_kept q t)) s))) h
  | pairSwap => exact Effect.next (.live (.calm (.runSteps (fun q t => .of_kept (xPairSwap_kept q t)) s))) h
  | pairForceActive => exact Effect.next (.live (.calm (.runSteps (fun q t => .of_kept
      (xPairForceActive_kept q t)) s))) h
  | ctrRead => exact Effect.next (.live (.calm (.runOnce (fun q t => .of_kept (xCtrRead_kept q t)) s))) h
  | pctrWrite => exact Effect.next (.live (.calm (.runOnce (fun q t => .of_kept (xPctrWrite_kept q t)) s))) h
  | pctrRead => exact Effect.next (.live (.calm (.runOnce (fun q t => .of_kept (xPctrRead_kept q t)) s))) h
  | latlogRead => exact Effect.next (.live (.calm (.runOnce (fun q t => .of_kept (xLatlogRead_kept q t)) s))) h
  | traceRead => exact Effect.next (.live (.calm (.runOnce (fun q t => .of_kept (xTraceRead_kept q t)) s))) h
  | bwCfgWrite => exact Effect.next (.live (.calm (.runOnce (fun q t => .of_kept (xBwCfgWrite_kept q t)) s))) h
  | bwRead => exact Effect.next (.live (.calm (.runOnce (fun q t => .of_kept (xBwRead_kept q t)) s))) h
  | traceCfgWrite => exact Effect.next (.live (.calm (.runOnce (fun q t => .of_kept (xTraceCfgWrite_kept q t)) s))) h
  | evtCfgWrite => exact Effect.next (.live (.calm (.runOnce (fun q t => .of_kept (xEvtCfgWrite_kept q t)) s))) h
  | obsCfgRead => exact Effect.next (.live (.calm (.runOnce (fun q t => .of_kept (xObsCfgRead_kept q t)) s))) h
  | memRead => exact Effect.next (.live (.calm (.runOnce (fun q t => .of_kept (xMemRead_kept q t)) s))) h
  | memWrite => exact Effect.next (.live (.calm (.runOnce (fun q t => ⟨xMemWrite_fixed _ q t,
      xMemWrite_sound _ q t⟩) s))) h
  | memPower => exact Effect.next (.live (.calm (.runOnce (fun q t => .of_kept (xMemPower_kept q t)) s))) h
  | memStatus => exact Effect.next (.live (.calm (.runOnce (fun q t => .of_kept (xMemStatus_kept q t)) s))) h
  | fwInfo => exact Effect.next (.live (.calm (.runOnce (fun q t => .of_kept (xFwInfo_kept q t)) s))) h
  | fwLoad => exact Effect.next (.live (.calm (.runSteps (fun q t => .of_kept (xFwLoad_kept _ q t)) s))) h
  | fwUpdate => exact Effect.next (.live (.calm (.runSteps (fun q t => .of_kept (xFwUpdate_kept _ q t)) s))) h
  | selfTest => exact Effect.next (.live (.calm (.runOnce (fun q t => .of_kept (xSelfTest_kept _ q t)) s))) h
  | regRead => exact Effect.next (.live (.calm (.runOnce (fun q t => .of_kept (xRegRead_kept q t)) s))) h
  | regRead64 => exact Effect.next (.live (.calm (.runOnce (fun q t => .of_kept (xRegRead64_kept q t)) s))) h
  | regWrite => exact Effect.next (.live (.calm (.runSteps (fun q t => ⟨xRegWrite_fixed q t,
      xRegWrite_sound q t⟩) s))) h
  | regWriteWait => exact Effect.next (.live (.calm (.runSteps (fun q t => ⟨xRegWriteWait_fixed q t,
      xRegWriteWait_sound q t⟩) s))) h
  | regGuardedWrite => exact Effect.next (.live (.calm (.runSteps (fun q t => .of_kept
      (xRegGuardedWrite_kept q t)) s))) h
  | feedRead => exact Effect.next (.live (.calm (.runOnce (fun q t => .of_kept (xFeedRead_kept q t)) s))) h
  | feedSelect => exact Effect.next (.live (.calm (.runSteps (fun q t => .of_kept (xFeedSelect_kept q t)) s))) h
  | pktWrite => exact Effect.next (.live (.of_kept (xPktWrite_kept _ _ s))) h
  | pktRead => exact Effect.next (.live (.of_kept (xPktRead_kept s))) h
  | statusRead => exact Effect.next (.live (.of_kept (xStatusRead_kept s))) h
  | idcode => exact Effect.next (.of_kept (tapLive_kept _ _ (tapLoad_kept _ _ _))) h
  | samplePreload => exact Effect.next (.of_kept (tapLive_kept _ _ ((onPins_kept _ _).trans (tapLoad_kept _ _ _)))) h
  | bypass code =>
    simp only [exec, execBypass] at h
    split_ifs at h
    · exact .next (.of_kept rfl) h
    · exact .next (.of_kept (tapLive_kept _ _ (tapLoad_kept _ _ _))) h
  | tapReset => exact Effect.next (.of_kept (tapLive_kept _ _ (tapLoad_kept _ _ _))) h
  | registerWrite => exact Effect.next (.live (.calm ⟨xRegisterWrite_fixed _ _ _ s, xRegisterWrite_sound _ _ _ s⟩)) h
  | sfpCapPosRead => exact Effect.next (.live (.calm ⟨xSfpCapPosRead_fixed _ s, xSfpCapPosRead_sound _ s⟩)) h
  | mapHighWordWrite =>
      exact Effect.next (.live (.calm ⟨xMapHighWordWrite_fixed _ _ _ s, xMapHighWordWrite_sound _ _ _ s⟩)) h
  | mapLowWordWrite => exact Effect.next (.live (.calm ⟨xMapLowWordWrite_fixed _ _ _ _ s,
      xMapLowWordWrite_sound _ _ _ _ s⟩)) h
  | mapHighWordRead => exact Effect.next (.live (.calm ⟨xMapHighWordRead_fixed _ _ s, xMapHighWordRead_sound _ _ s⟩)) h
  | postedWrite => exact Effect.next (.live (.calm ⟨xPostedWrite_fixed _ _ _ s, xPostedWrite_sound _ _ _ s⟩)) h
  | postedWriteComplete =>
      exact Effect.next (.live (.calm ⟨xPostedWriteComplete_fixed _ s, xPostedWriteComplete_sound _ s⟩)) h
  | blkStatWrite => exact Effect.next (.live (.calm ⟨xBlkStatWrite_fixed _ _ _ s, xBlkStatWrite_sound _ _ _ s⟩)) h
  | guardPairOpen => exact Effect.next (.live (.calm ⟨xGuardPairOpen_fixed _ _ _ s, xGuardPairOpen_sound _ _ _ s⟩)) h
  | guardTimeout => exact Effect.next (.live (.of_kept (xGuardTimeout_kept _ s))) h
  | guardOrphan => exact Effect.next (.live (.calm ⟨xGuardOrphan_fixed _ _ _ s, xGuardOrphan_sound _ _ _ s⟩)) h
  | remap => exact Effect.next (.live (.calm ⟨xRemap_fixed _ _ s, xRemap_sound _ _ s⟩)) h
  | seqRst => exact Effect.next (.live (.calm ⟨xSeqRst_fixed _ _ s, xSeqRst_sound _ _ s⟩)) h
  | flashWe => exact Effect.next (.live (.calm ⟨xFlashWe_fixed _ _ s, xFlashWe_sound _ _ s⟩)) h
  | keyWe => exact Effect.next (.live (.calm ⟨xKeyWe_fixed _ _ s, xKeyWe_sound _ _ s⟩)) h
  | bscanUnlock => exact Effect.next (.live (.calm ⟨xBscanUnlock_fixed _ _ s, xBscanUnlock_sound _ _ s⟩)) h
  | pairCtlSwap => exact Effect.next (.live (.calm ⟨xPairCtlSwap_fixed _ _ s, xPairCtlSwap_sound _ _ s⟩)) h
  | pairCtlCancel => exact Effect.next (.live (.calm ⟨xPairCtlCancel_fixed _ _ s, xPairCtlCancel_sound _ _ s⟩)) h
  | pairCtlForceActive =>
      exact Effect.next (.live (.calm ⟨xPairCtlForceActive_fixed _ _ s, xPairCtlForceActive_sound _ _ s⟩)) h
  | feedSelectTarget =>
      exact Effect.next (.live (.calm ⟨xFeedSelectTarget_fixed _ _ s, xFeedSelectTarget_sound _ _ s⟩)) h
  | mdioStart => exact Effect.next (.live (.calm ⟨xMdioStart_fixed _ _ s, xMdioStart_sound _ _ s⟩)) h
  | mdioDone => exact Effect.next (.live (.of_kept (xMdioDone_kept _ s))) h
  | mgmtSnapArm => exact Effect.next (.live (.calm ⟨xMgmtSnapArm_fixed _ _ s, xMgmtSnapArm_sound _ _ s⟩)) h
  | matrixAged => exact Effect.next (.live (.of_kept (xMatrixAged_kept _ _ s))) h
  | powerUp => exact Effect.next (.of_calm_or_resets (xPowerUp_effect _ _ s)) h
  | powerDown => exact Effect.next (.of_calm_or_resets (xPowerDown_effect s)) h
  | feedUvCross => exact Effect.next (.of_kept (xFeedUvCross_kept s)) h
  | feedGlitch => exact Effect.next (.of_kept (xFeedGlitch_kept s)) h
  | feedUvDeclare => exact Effect.next (.of_kept (xFeedUvDeclare_kept s)) h
  | feedOvDeclare => exact Effect.next (.of_kept (xFeedOvDeclare_kept s)) h
  | feedFailoverComplete => exact Effect.next (.of_kept (xFeedFailoverComplete_kept s)) h
  | feedGood => exact Effect.next (.of_kept (xFeedGood_kept _ s)) h
  | feedNotGood => exact Effect.next (.of_kept (xFeedNotGood_kept _ _ s)) h
  | ovTrip => exact Effect.next (.of_kept (xOvTrip_kept _ s)) h
  | bulkUndervoltage => exact Effect.next (.of_calm_or_resets (xBulkUndervoltage_effect s)) h
  | overcurrentTrip => exact Effect.next (.of_calm_or_resets (xOvercurrentTrip_effect s)) h
  | feedLatchRelease => exact Effect.next (.of_kept (xFeedLatchRelease_kept s)) h
  | feedSwitchResult => exact Effect.next (.of_kept (xFeedSwitchResult_kept s)) h
  | feedSwitchTimeout => exact Effect.next (.of_kept (xFeedSwitchTimeout_kept s)) h
  | resetNAssert => exact Effect.next (xResetNAssert_row s) h
  | blockClockLoss => exact Effect.next (.live (.resets (moduleReset_resets s))) h
  | bootRomParityError => exact Effect.next (.live (.resets (moduleReset_resets s))) h
  | devResetEffect => exact Effect.next (.live (.of_calm_or_resets (xDevResetEffect_effect s))) h
  | resetSequenceEnd => exact Effect.next (xResetSequenceEnd_row _ _ s) h
  | dieRelease => exact Effect.next (.starts (xDieRelease_starts _ s)) h
  | ready => exact Effect.next (.starts (xReady_starts s)) h
  | seqException => exact Effect.next (.live (.of_kept (xSeqException_kept _ s))) h
  | seqWdtExpire => exact Effect.next (.live (.of_kept (xSeqWdtExpire_kept s))) h
  | sequencerRestart => exact Effect.next (.live (.calm ⟨xSequencerRestart_fixed s, xSequencerRestart_sound s⟩)) h
  | frameBoundary => exact Effect.next (.liveFrame (.calm ⟨xFrameBoundary_fixed _ s, xFrameBoundary_sound _ s⟩)) h
  | epochBoundary => exact Effect.next (.liveEpoch (.of_kept (xEpochBoundary_kept _ s))) h
  | candidateHoldoffExpire => exact Effect.next (.liveFrame (.of_kept (xCandidateHoldoffExpire_kept _ s))) h
  | candidateWtrExpire => exact Effect.next (.liveFrame (.of_kept (xCandidateWtrExpire_kept _ s))) h
  | candidateQualified => exact Effect.next (.liveFrame (.of_kept (xCandidateQualified_kept _ s))) h
  | freqMeasurement => exact Effect.next (.live (.of_kept (xFreqMeasurement_kept _ s))) h
  | dpllLock => exact Effect.next (.liveFrame (.of_kept (xDpllLock_kept s))) h
  | refSwitch => exact Effect.next (.liveFrame (.of_kept (xRefSwitch_kept _ s))) h
  | esmcPduReceive => exact Effect.next (.live (.of_kept (xEsmcPduReceive_kept _ _ s))) h
  | esmcTimeout => exact Effect.next (.live (.of_kept (xEsmcTimeout_kept _ s))) h
  | fpEdge => exact Effect.next (.live (.framePhase (.inl ⟨_, rfl⟩) (xFpPulse_moves _ s))) h
  | fpMiss => exact Effect.next (.live (.of_kept (xFpMiss_kept _ s))) h
  | mfcLearn => exact Effect.next (.live (.newMfc (.inl rfl) (xMfcLearn_moves s))) h
  | historySample => exact Effect.next (.live (.of_kept (xHistorySample_kept _ _ _ s))) h
  | holdoverExpire => exact Effect.next (.live (.of_kept (xHoldoverExpire_kept s))) h
  | ocxoDay => exact Effect.next (.live (.of_kept (xOcxoDay_kept _ s))) h
  | setQlAct => exact Effect.next (.live (.of_kept (xSetQlAct_kept s))) h
  | thymeForceAct => exact Effect.next (.live (.of_kept (xThymeForceAct_kept s))) h
  | setMfcAct => exact Effect.next (.live (.newMfc (.inr rfl) (xSetMfcAct_moves s))) h
  | mfcRelearnAct => exact Effect.next (.live (.of_kept (xMfcRelearnAct_kept s))) h
  | fpRealignAct => exact Effect.next (.live (.framePhase (.inr rfl) (xFpRealignStep_moves s))) h
  | commitArm => exact Effect.next (.live (.of_kept (xCommitArm_kept s))) h
  | commitValidationDone => exact Effect.next (.live (.of_kept (xCommitValidationDone_kept s))) h
  | commitStrobe => exact Effect.next (.live (.views (.inl rfl) (xCommitStrobe_views s))) h
  | commitReport => exact Effect.next (.liveFrame (.of_kept (xCommitReport_kept s))) h
  | o0Block => exact Effect.next (.live (.of_kept (xO0Receive_kept _ _ s))) h
  | o1Receive => exact Effect.next (.live (.of_kept (xO1Receive_kept _ _ s))) h
  | apsReceive => exact Effect.next (.live (.of_kept (xApsReceive_kept _ _ _ s))) h
  | mgmtChunkReceive => exact Effect.next (.live (.of_kept (xMgmtChunkReceive_kept _ _ _ s))) h
  | o7Receive => exact Effect.next (.live (.of_kept (xO7Receive_kept _ _ _ s))) h
  | ebSlip => exact Effect.next (.live (.of_kept (xSlip_kept _ s))) h
  | slipClear => exact Effect.next (.live (.of_kept (xSlipClear_kept _ s))) h
  | losDeclare => exact Effect.next (.live (.of_kept (xLosDeclare_kept _ s))) h
  | losClear => exact Effect.next (.live (.of_kept (xLosClear_kept _ s))) h
  | lolDeclare => exact Effect.next (.live (.of_kept (xLolDeclare_kept _ s))) h
  | lolClear => exact Effect.next (.live (.of_kept (xLolClear_kept _ s))) h
  | fecFailDeclare => exact Effect.next (.live (.of_kept (xFecFailDeclare_kept _ _ s))) h
  | fecFailClear => exact Effect.next (.live (.of_kept (xFecFailClear_kept _ s))) h
  | fecDegDeclare => exact Effect.next (.live (.of_kept (xFecDegDeclare_kept _ _ s))) h
  | fecDegClear => exact Effect.next (.live (.of_kept (xFecDegClear_kept _ s))) h
  | adaptBlockWrite => exact Effect.next (.live (.of_kept (xAdaptBlockWrite_kept _ _ s))) h
  | adaptBlockRead => exact Effect.next (.live (.of_kept (xAdaptBlockRead_kept _ s))) h
  | adPpmReport => exact Effect.next (.live (.of_kept (xAdPpmReport_kept _ s))) h
  | monFrameReceive => exact Effect.next (.live (.of_kept (xMonFrameReceive_kept _ _ s))) h
  | orderedSetReceive => exact Effect.next (.live (.of_kept (xOrderedSetReceive_kept _ _ _ s))) h
  | lfClear => exact Effect.next (.live (.of_kept (xLfClear_kept _ _ s))) h
  | portSnapshotLatch => exact Effect.next (.live (.of_kept (xPortSnapshotLatch_kept s))) h
  | tpCheckBlock => exact Effect.next (.live (.of_kept (xTpCheckerBlock_kept _ s))) h
  | calendarCycle => exact Effect.next (.live (.of_kept (xCalendarCycle_kept _ _ s))) h
  | mapScrub => exact Effect.next (.live (.of_kept (xMapScrub_kept _ _ _ _ s))) h
  | mapScrubWriteback => exact Effect.next (.live (.of_kept (xMapScrubWriteback_kept s))) h
  | protHoldoffExpire =>
      exact Effect.next (.liveFrame (.calm ⟨xProtHoldoffExpire_fixed _ _ s, xProtHoldoffExpire_sound _ _ s⟩)) h
  | protWtrExpire => exact Effect.next (.liveFrame (.calm ⟨xProtWtrExpire_fixed _ s, xProtWtrExpire_sound _ s⟩)) h
  | protRequestAct => exact Effect.next (.liveFrame (.calm ⟨xProtRequestAct_fixed s, xProtRequestAct_sound s⟩)) h
  | apsLoss => exact Effect.next (.liveFrame (.calm ⟨xApsLoss_fixed _ s, xApsLoss_sound _ s⟩)) h
  | fopNr => exact Effect.next (.liveFrame (.calm ⟨xFopNr_fixed _ s, xFopNr_sound _ s⟩)) h
  | pathMarkerJudge => exact Effect.next (.live (.of_kept (xPathMarkerDetect_kept _ _ s))) h
  | pmLoss => exact Effect.next (.live (.of_kept (xPmLoss_kept _ _ s))) h
  | eqEngage => exact Effect.next (.live (.of_kept (xEqEngage_kept _ s))) h
  | errorlessSelectorChange => exact Effect.next (.live (.of_kept (xErrorlessSelectorChange_kept _ s))) h
  | heartbeatTake => exact Effect.next (.live (xHeartbeatReceive_row _ _ _ _ s)) h
  | chiveLaneDown => exact Effect.next (.live (.of_kept (xChiveLaneDown_kept _ s))) h
  | mirrorLost => exact Effect.next (.live (.calm ⟨xMirrorLost_fixed s, xMirrorLost_sound s⟩)) h
  | aliveInChange => exact Effect.next (.live (.of_kept (xAliveInChange_kept _ s))) h
  | takeover => exact Effect.next (.live (.of_kept (xTakeover_kept s))) h
  | mirrorRecordTake => exact Effect.next (.live (xMirrorRecordReceive_row _ _ s)) h
  | mirrorAudit => exact Effect.next (.live (.of_kept (xMirrorAudit_kept _ s))) h
  | resyncEnd => exact Effect.next (.live (.of_kept (xResyncDone_kept s))) h
  | pairSwapExecute => exact Effect.next (.live (.of_kept (xPairSwapExecute_kept s))) h
  | pairSwapAssume => exact Effect.next (.live (.of_kept (xPairSwapAssume_kept s))) h
  | pairSwapAbort => exact Effect.next (.live (.of_kept (xPairSwapAbort_kept s))) h
  | pairSwapRevert => exact Effect.next (.live (.of_kept (xPairSwapRevert_kept s))) h
  | txWatchEnd => exact Effect.next (.live (.of_kept (xTxWatchEnd_kept s))) h
  | arbitrationEnd => exact Effect.next (.liveFrame (.of_kept (xArbitrationEnd_kept s))) h
  | forceActiveAct => exact Effect.next (.live (.of_kept (xForceActiveAct_kept s))) h
  | autoRestoreStaged => exact Effect.next (.live (.calm ⟨xAutoRestoreStaged_fixed s, xAutoRestoreStaged_sound s⟩)) h
  | autoRestoreStage2 => exact Effect.next (.liveFrame (.of_kept (xAutoRestoreStage2_kept s))) h
  | autoRestoreStage2Timeout => exact Effect.next (.liveFrame (.of_kept (xAutoRestoreStage2Timeout_kept s))) h
  | vcpPacketReceive => exact Effect.next (.live (.of_kept (xVcpPacketReceive_kept _ _ s))) h
  | dispatchTick => exact Effect.next (.live (.of_kept (dispatch_kept s))) h
  | relayEntryExpire => exact Effect.next (.live (.of_kept (xRelayEntryExpire_kept _ s))) h
  | dupMemoryExpire => exact Effect.next (.live (.of_kept (xDupMemoryExpire_kept _ s))) h
  | replyTransmit => exact Effect.next (.live (.of_kept (xReplyTransmit_kept _ s))) h
  | eventSend => exact Effect.next (.live (.of_kept (xEventSend_kept s))) h
  | channelPacketSend => exact Effect.next (.live (.of_kept (xChannelPacketSend_kept _ s))) h
  | protectionReport => exact Effect.next (.live (.of_kept (xProtectionReport_kept s))) h
  | traceRingWrite => exact Effect.next (.live (.of_kept (xTraceRingWrite_kept s))) h
  | sageTxFrame => exact Effect.next (.live (.of_kept (xSageTxFrame_kept s))) h
  | gatherSweeps => exact Effect.next (.liveEpoch (.of_kept (xGatherSweeps_kept s))) h
  | gatherIncomplete => exact Effect.next (.liveEpoch (.of_kept (xGatherIncomplete_kept _ s))) h
  | pctrOverflow => exact Effect.next (.live (.of_kept (xPctrOverflow_kept _ s))) h
  | bwWindowEnd => exact Effect.next (.liveEpoch (.of_kept (xBwWindowEnd_kept _ s))) h
  | mgmtFrameReceive => exact Effect.next (.live (.of_kept (xMgmtFrameReceive_kept _ _ s))) h
  | mgLinkUp => exact Effect.next (.live (.of_kept (xMgLinkUp_kept _ _ _ _ s))) h
  | mgLinkDown => exact Effect.next (.live (.of_kept (xMgLinkDown_kept _ s))) h
  | modeSearchSwitch => exact Effect.next (.liveEpoch (.of_kept (xModeSearchSwitch_kept _ s))) h
  | rateStepDown => exact Effect.next (.liveEpoch (.of_kept (xRateStepDown_kept _ s))) h
  | rsRelinkExpire => exact Effect.next (.live (.of_kept (xRsRelinkExpire_kept _ s))) h
  | throttleRelease => exact Effect.next (.liveFrame (.of_kept (xThrottleRelease_kept _ s))) h
  | mgmtSnapshotLatch => exact Effect.next (.live (.of_kept (xMgmtSnapshotLatch_kept s))) h
  | memoryScrub => exact Effect.next (.live (.of_kept (xMemoryScrub_kept _ _ _ s))) h
  | memPowerTransitionDone =>
      exact Effect.next (.live (.calm ⟨xMemPowerTransitionDone_fixed _ _ s, xMemPowerTransitionDone_sound _ _ s⟩)) h
  | gpioSwitchDrive => exact Effect.next (.liveFrame (.of_kept (xGpioSwitchDrive_kept s))) h
  | commandComplete => exact Effect.next (.live (.of_kept (xCommandComplete_kept s))) h
  | resetNRelease => exact Effect.next (.of_kept (xResetNRelease_kept s)) h
  | uvReleased => exact Effect.next (.of_kept (xUvRelease_kept _ s)) h

/-! The statements about the whole machine. -/

theorem Effect.pending {i : Instr} {s t : State} (e : Effect i s t) : t.pending = s.pending := by
  cases e with
  | calm c => exact congrArg (·.pending) c.fixed
  | framePhase _ m => exact congrArg (·.pending) m.fixed
  | newMfc _ m => exact congrArg (·.pending) m.fixed
  | followsPeer _ _ m => exact congrArg (·.pending) m.fixed
  | views _ v => exact congrArg (·.pending) v.fixed
  | resets r => exact r.pending
  | released _ _ only => exact congrArg (·.1.pending) only
  | starts b => exact congrArg (·.1.pending) b

/-- Settles O55, row by row: what a command does leaves the queue. -/
theorem execKeepsQueue : Obligations.ExecKeepsQueue := by
  unfold Obligations.ExecKeepsQueue
  intro i s t h
  exact (exec_effect h).pending

theorem Effect.sound {i : Instr} {s t : State} (e : Effect i s t) (h : Sound (kept s).2) : Sound (kept t).2 := by
  cases e with
  | calm c => exact c.sound h
  | framePhase _ m => exact m.sound h
  | newMfc _ m => exact m.sound h
  | followsPeer _ _ m => exact m.sound h
  | views _ v => exact v.sound h
  | resets r => exact r.sound h
  | released _ _ only => rw [only]; exact h
  | starts b => rw [b]; exact h

theorem Moves.sfpOk {R : Sfp → Sfp → Prop} {s t : State} (m : Moves R s t) (h : SfpInv s)
    (legal : ∀ p, R s.sfp p → Machine.sfpOk p = true) : SfpInv t := by
  rcases m.moved with same | to_
  · rw [SfpInv, same]
    exact h
  · exact legal _ to_

theorem sfpOk_of_samePlace {a p : Sfp} (h : sfpOk a = true) (same : SamePlace a p) : sfpOk p = true := by
  obtain ⟨fi, bi, mfc⟩ := same
  simp only [sfpOk, Bool.and_eq_true, decide_eq_true_eq] at h ⊢
  exact ⟨⟨bi ▸ h.1.1, fi ▸ h.1.2⟩, mfc⟩

theorem Effect.sfpOk {i : Instr} {s t : State} (e : Effect i s t) (h : SfpInv s) : SfpInv t := by
  cases e with
  | calm c =>
    rw [SfpInv, sfp_of_fixed c.fixed]
    exact h
  | framePhase _ m => exact m.sfpOk h fun _ to_ => to_.1
  | newMfc _ m => exact m.sfpOk h fun _ to_ => sfpOk_of_samePlace h to_
  | followsPeer _ _ m => exact m.sfpOk h fun _ to_ => to_
  | views _ v =>
    rw [SfpInv, show t.sfp = s.sfp from congrArg (·.sfp) v.fixed]
    exact h
  | resets r => exact r.sfp
  | released _ _ only =>
    rw [SfpInv, show t.sfp = {} from congrArg (·.1.sfp) only]
    rfl
  | starts b =>
    rw [SfpInv, show t.sfp = s.sfp from congrArg (·.1.sfp) b]
    exact h

/-! A tick of the block clock. -/

theorem sfpNext_ok {p : Sfp} (h : sfpOk p = true) : sfpOk (sfpNext p) = true := by
  simp only [sfpOk, Bool.and_eq_true, decide_eq_true_eq] at h
  obtain ⟨⟨bi, fi⟩, mfc⟩ := h
  unfold sfpNext
  split_ifs with inFrame inMf
  · simp [sfpOk, inFrame, fi, mfc]
  · simp [sfpOk, inMf, mfc]
  · simp only [sfpOk, Bool.and_eq_true, decide_eq_true_eq]
    exact ⟨⟨by decide, by decide⟩, Nat.mod_lt _ (Nat.succ_pos _)⟩

theorem tick_kept (s : State) : kept (tick s) = ({ (kept s).1 with sfp := (tick s).sfp }, (kept s).2) := by
  unfold tick
  split
  · have put : kept { pinsLeave s with sfp := sfpNext s.sfp }
        = ({ (kept (pinsLeave s)).1 with sfp := sfpNext s.sfp }, (kept (pinsLeave s)).2) := rfl
    rw [put, pinsLeave_kept]
  · rfl

theorem step_cases {s t : State} (h : step s = .next t) :
    (s.pending = [] ∧ t = tick s) ∨ ∃ i rest, s.pending = i :: rest ∧ Effect i { s with pending := rest } t := by
  unfold step at h
  split at h
  next idle =>
    cases h
    exact .inl ⟨idle, rfl⟩
  next i rest front => exact .inr ⟨i, rest, front, exec_effect h⟩

/-- Settles O53: the tick and the few commands that move the count keep it in its ranges. -/
theorem stepKeepsSfp : Obligations.StepKeepsSfp := by
  unfold Obligations.StepKeepsSfp
  intro s t legal h
  rcases step_cases h with ⟨-, rfl⟩ | ⟨i, rest, -, e⟩
  · unfold tick
    split
    · exact sfpNext_ok legal
    · exact legal
  · exact e.sfpOk legal

/-- Settles O54, row by row: every store keeps the canonical form. -/
theorem stepKeepsMemory : Obligations.StepKeepsMemory := by
  unfold Obligations.StepKeepsMemory
  intro s t mem map h
  have sound : Sound (kept s).2 := (sound_iff s).mpr ⟨mem, map⟩
  rw [← sound_iff]
  rcases step_cases h with ⟨-, rfl⟩ | ⟨i, rest, -, e⟩
  · rw [tick_kept]
    exact sound
  · exact e.sound sound

/-- Settles O56, row by row: the commands that can move the count are those of R80, R222 and the end of a reset. -/
theorem sfpMovesOnlyAt : Obligations.SfpMovesOnlyAt := by
  unfold Obligations.SfpMovesOnlyAt
  intro i s t legal h up on moved
  have mfc : s.sfp.mfc < mfcMod := by
    simp only [SfpInv, sfpOk, Bool.and_eq_true, decide_eq_true_eq] at legal
    exact legal.2
  cases exec_effect h with
  | calm c => exact absurd (sfp_of_fixed c.fixed) moved
  | framePhase row m => exact .inl ⟨row, (m.moved.resolve_left moved).2 mfc⟩
  | newMfc row m =>
    obtain ⟨fi, bi, -⟩ := m.moved.resolve_left moved
    exact .inr (.inl ⟨row, fi, bi⟩)
  | followsPeer row standby m =>
    obtain ⟨lane, b, comp, l, rfl⟩ := row
    exact .inr (.inr (.inl ⟨lane, b, comp, l, rfl, standby⟩))
  | views _ v => exact absurd (congrArg (·.sfp) v.fixed) moved
  | resets r => exact absurd r.down (by simp [up, on])
  | released row was only =>
    obtain ⟨d, p, rfl⟩ := row
    exact .inr (.inr (.inr ⟨d, p, rfl, was⟩))
  | starts b => exact absurd (congrArg (·.1.sfp) b) moved

theorem actv_eq_of_act {s t : State} (h : (kept t).1.act = (kept s).1.act) {a : Nat} (dom : (domOf a).isSome = true) :
    actv t a = actv s a := by
  have at_ : act t a = act s a := by simpa [kept, dom] using congrFun h a
  exact at_

/-- Settles O57, row by row: the strobe and the mirrored records alone write active views. -/
theorem activeViewsChangeOnlyAtStrobes : Obligations.ActiveViewsChangeOnlyAtStrobes := by
  unfold Obligations.ActiveViewsChangeOnlyAtStrobes
  intro i s t a h up on dom changed
  cases exec_effect h with
  | calm c => exact absurd (actv_eq_of_act (congrArg (·.act) c.fixed) dom) changed
  | framePhase _ m => exact absurd (actv_eq_of_act (congrArg (·.act) m.fixed) dom) changed
  | newMfc _ m => exact absurd (actv_eq_of_act (congrArg (·.act) m.fixed) dom) changed
  | followsPeer _ _ m => exact absurd (actv_eq_of_act (congrArg (·.act) m.fixed) dom) changed
  | views row _ => exact row
  | resets r => exact absurd r.down (by simp [up, on])
  | released _ _ only => exact absurd (actv_eq_of_act (congrArg (·.1.act) only) dom) changed
  | starts b => exact absurd (actv_eq_of_act (congrArg (·.1.act) b) dom) changed

end Sys2Proof.Machine
end

section
/-! The parts of the state that a function changes: one lemma for each function says which parts it leaves, and the frames
of the statements follow from them. -/

namespace Sys2Proof.Machine

open Sys2Proof

/-- A part of the state: a field, or a field of a part that a statement takes apart; the parts `thy`, `com`, `map`, `vcp`
and `regs` are what is left of theirs. -/
inductive Part
  | pending | sfp | phase | pwr | thy | cands | com | ents | stageOpen | suspect | frozenWr | snaps | cfgSave | lastEpoch
  | ports | chks | map | mapA | mapB | mapEcc | mapScrub | mapSel | grps | pair | mir | vcp | run | mgA | mgB | mgSh
  | sage | mem | seq | flash | regs | act | stg | hist | gw | pairs | posted | resp | rdata | wide | blk | pins | auto
  | frameDone | epochDone | fresh
  deriving DecidableEq
/-- The values of a part. -/
@[reducible] def Part.Val : Part → Type
  | .pending => List Instr | .sfp => Sfp | .phase => Phase | .pwr => PowerSt | .thy => ThySt | .cands => Tbl CandSt
  | .com => CommitSt | .ents => Tbl CommitEnt | .stageOpen => BitVec 8 | .suspect => BitVec 8 | .frozenWr => Bool
  | .snaps => List (Sfp × BitVec 128) | .cfgSave => Option (Bool × Bool) | .lastEpoch => Nat
  | .ports => Tbl PortSt | .chks => Tbl ChkSt | .map => MapSt | .mapA => Tbl Entry | .mapB => Tbl Entry
  | .mapEcc => Tbl Nat | .mapScrub => Option Nat | .mapSel => List Nat × Option Sfp | .grps => Tbl GrpSt
  | .pair => PairSt | .mir => MirSt | .vcp => VcpSt | .run => Option Run | .mgA => MgSt | .mgB => MgSt
  | .mgSh => MgShSt | .sage => SageSt | .mem => MemSt | .seq => SeqSt | .flash => FlashSt | .regs => RegSt
  | .act => Tbl Word | .stg => Tbl Word | .hist => Tbl Word | .gw => Tbl Word | .pairs => Tbl GuardPair
  | .posted => Tbl Posted | .resp => Tbl Resp | .rdata => Tbl Word | .wide => Tbl Word | .blk => Tbl (BitVec 2)
  | .pins => PinSt | .auto => AutoSt | .frameDone => Option Sfp | .epochDone => Option Sfp | .fresh => Nat
/-- A part of a state. -/
def get (f : Part) (s : State) : f.Val :=
  match f with
  | .pending => s.pending | .sfp => s.sfp | .phase => s.phase | .pwr => s.pwr
  | .thy => { s.thy with cands := [] } | .cands => s.thy.cands
  | .com => { s.com with ents := [], stageOpen := 0, suspect := 0, frozenWr := false, snaps := [], cfgSave := none
                         lastEpoch := 0 }
  | .ents => s.com.ents | .stageOpen => s.com.stageOpen | .suspect => s.com.suspect | .frozenWr => s.com.frozenWr
  | .snaps => s.com.snaps | .cfgSave => s.com.cfgSave | .lastEpoch => s.com.lastEpoch
  | .ports => s.ports | .chks => s.chks
  | .map => { s.map with a := [], b := [], ecc := [], scrub := none, selPass := [], selAt := none }
  | .mapA => s.map.a | .mapB => s.map.b | .mapEcc => s.map.ecc | .mapScrub => s.map.scrub
  | .mapSel => (s.map.selPass, s.map.selAt) | .grps => s.grps
  | .pair => s.pair | .mir => s.mir | .vcp => { s.vcp with run := none } | .run => s.vcp.run
  | .mgA => s.mgA | .mgB => s.mgB | .mgSh => s.mgSh | .sage => s.sage | .mem => s.mem | .seq => s.seq
  | .flash => s.flash
  | .regs => { s.regs with act := [], stg := [], hist := [], gw := [], pairs := [], posted := [], resp := [], rdata := []
                           wide := [], blk := [] }
  | .act => s.regs.act | .stg => s.regs.stg | .hist => s.regs.hist | .gw => s.regs.gw | .pairs => s.regs.pairs
  | .posted => s.regs.posted | .resp => s.regs.resp | .rdata => s.regs.rdata | .wide => s.regs.wide | .blk => s.regs.blk
  | .pins => s.pins | .auto => s.auto | .frameDone => s.frameDone | .epochDone => s.epochDone | .fresh => s.fresh
/-- At most the parts listed change. -/
def Only (l : List Part) (s t : State) : Prop := ∀ f, f ∉ l → get f t = get f s
theorem thySt_ext {x y : ThySt} (rest : { x with cands := [] } = { y with cands := [] }) (cands : x.cands = y.cands) :
    x = y := by
  cases x; cases y; simp_all
theorem commitSt_ext {x y : CommitSt}
    (rest : { x with ents := [], stageOpen := 0, suspect := 0, frozenWr := false, snaps := [], cfgSave := none
                     lastEpoch := 0 }
      = { y with ents := [], stageOpen := 0, suspect := 0, frozenWr := false, snaps := [], cfgSave := none
                 lastEpoch := 0 })
    (ents : x.ents = y.ents) (stageOpen : x.stageOpen = y.stageOpen) (suspect : x.suspect = y.suspect)
    (frozenWr : x.frozenWr = y.frozenWr) (snaps : x.snaps = y.snaps) (cfgSave : x.cfgSave = y.cfgSave)
    (lastEpoch : x.lastEpoch = y.lastEpoch) : x = y := by
  cases x; cases y; simp_all
theorem mapSt_ext {x y : MapSt}
    (rest : { x with a := [], b := [], ecc := [], scrub := none, selPass := [], selAt := none }
      = { y with a := [], b := [], ecc := [], scrub := none, selPass := [], selAt := none })
    (a : x.a = y.a) (b : x.b = y.b) (ecc : x.ecc = y.ecc) (scrub : x.scrub = y.scrub)
    (sel : (x.selPass, x.selAt) = (y.selPass, y.selAt)) : x = y := by
  cases x; cases y; simp_all
theorem vcpSt_ext {x y : VcpSt} (rest : { x with run := none } = { y with run := none }) (run : x.run = y.run) :
    x = y := by
  cases x; cases y; simp_all
theorem regSt_ext {x y : RegSt}
    (rest : { x with act := [], stg := [], hist := [], gw := [], pairs := [], posted := [], resp := [], rdata := []
                     wide := [], blk := [] }
      = { y with act := [], stg := [], hist := [], gw := [], pairs := [], posted := [], resp := [], rdata := []
                 wide := [], blk := [] })
    (act : x.act = y.act) (stg : x.stg = y.stg) (hist : x.hist = y.hist) (gw : x.gw = y.gw) (pairs : x.pairs = y.pairs)
    (posted : x.posted = y.posted) (resp : x.resp = y.resp) (rdata : x.rdata = y.rdata) (wide : x.wide = y.wide)
    (blk : x.blk = y.blk) : x = y := by
  cases x; cases y; simp_all
/-- The parts determine the state. -/
theorem ext_get {s t : State} (h : ∀ f, get f t = get f s) : t = s := by
  have thy := thySt_ext (h .thy) (h .cands)
  have com := commitSt_ext (h .com) (h .ents) (h .stageOpen) (h .suspect) (h .frozenWr) (h .snaps) (h .cfgSave)
    (h .lastEpoch)
  have map := mapSt_ext (h .map) (h .mapA) (h .mapB) (h .mapEcc) (h .mapScrub) (h .mapSel)
  have vcp := vcpSt_ext (h .vcp) (h .run)
  have regs := regSt_ext (h .regs) (h .act) (h .stg) (h .hist) (h .gw) (h .pairs) (h .posted) (h .resp) (h .rdata)
    (h .wide) (h .blk)
  have := h .pending; have := h .sfp; have := h .phase; have := h .pwr; have := h .ports; have := h .chks
  have := h .grps; have := h .pair; have := h .mir; have := h .mgA; have := h .mgB; have := h .mgSh; have := h .sage
  have := h .mem; have := h .seq; have := h .flash; have := h .pins; have := h .auto; have := h .frameDone
  have := h .epochDone; have := h .fresh
  simp only [get] at *
  cases s; cases t; simp_all
theorem Only.refl (l : List Part) (s : State) : Only l s s := fun _ _ => rfl
theorem Only.trans {l : List Part} {s u t : State} (h : Only l s u) (k : Only l u t) : Only l s t :=
  fun f out => (k f out).trans (h f out)
theorem Only.mono {l l' : List Part} {s t : State} (h : Only l s t) (sub : ∀ f ∈ l, f ∈ l') : Only l' s t :=
  fun f out => h f (mt (sub f) out)
@[simp] theorem get_ite {f : Part} (c : Prop) [Decidable c] (t u : State) :
    get f (if c then t else u) = if c then get f t else get f u := apply_ite (get f) c t u
@[simp] theorem get_forEach {f : Part} {α : Type} (l : List α) (s : State) (g : State → α → State)
    (h : ∀ t x, get f (g t x) = get f t) : get f (forEach l s g) = get f s := forEach_same (get f) l s g h
@[simp] theorem onThy_get {f : Part} (s : State) (g : ThySt → ThySt)
    (rest : f ≠ .thy ∨ { g s.thy with cands := [] } = { s.thy with cands := [] })
    (cands : f ≠ .cands ∨ (g s.thy).cands = s.thy.cands) : get f (onThy s g) = get f s := by
  cases f
  case thy => exact rest.resolve_left (· rfl)
  case cands => exact cands.resolve_left (· rfl)
  all_goals rfl
@[simp] theorem onCom_get {f : Part} (s : State) (g : CommitSt → CommitSt)
    (rest : f ≠ .com ∨
      { g s.com with ents := [], stageOpen := 0, suspect := 0, frozenWr := false, snaps := [], cfgSave := none
                     lastEpoch := 0 }
      = { s.com with ents := [], stageOpen := 0, suspect := 0, frozenWr := false, snaps := [], cfgSave := none
                     lastEpoch := 0 })
    (ents : f ≠ .ents ∨ (g s.com).ents = s.com.ents) (stageOpen : f ≠ .stageOpen ∨
        (g s.com).stageOpen = s.com.stageOpen)
    (suspect : f ≠ .suspect ∨ (g s.com).suspect = s.com.suspect)
    (frozenWr : f ≠ .frozenWr ∨ (g s.com).frozenWr = s.com.frozenWr) (snaps : f ≠ .snaps ∨
        (g s.com).snaps = s.com.snaps)
    (cfgSave : f ≠ .cfgSave ∨ (g s.com).cfgSave = s.com.cfgSave)
    (lastEpoch : f ≠ .lastEpoch ∨ (g s.com).lastEpoch = s.com.lastEpoch) : get f (onCom s g) = get f s := by
  cases f
  case com => exact rest.resolve_left (· rfl)
  case ents => exact ents.resolve_left (· rfl)
  case stageOpen => exact stageOpen.resolve_left (· rfl)
  case suspect => exact suspect.resolve_left (· rfl)
  case frozenWr => exact frozenWr.resolve_left (· rfl)
  case snaps => exact snaps.resolve_left (· rfl)
  case cfgSave => exact cfgSave.resolve_left (· rfl)
  case lastEpoch => exact lastEpoch.resolve_left (· rfl)
  all_goals rfl
@[simp] theorem onMap_get {f : Part} (s : State) (g : MapSt → MapSt)
    (rest : f ≠ .map ∨ { g s.map with a := [], b := [], ecc := [], scrub := none, selPass := [], selAt := none }
      = { s.map with a := [], b := [], ecc := [], scrub := none, selPass := [], selAt := none })
    (a : f ≠ .mapA ∨ (g s.map).a = s.map.a) (b : f ≠ .mapB ∨ (g s.map).b = s.map.b)
    (ecc : f ≠ .mapEcc ∨ (g s.map).ecc = s.map.ecc) (scrub : f ≠ .mapScrub ∨ (g s.map).scrub = s.map.scrub)
    (sel : f ≠ .mapSel ∨ ((g s.map).selPass, (g s.map).selAt) = (s.map.selPass, s.map.selAt)) :
    get f (onMap s g) = get f s := by
  cases f
  case map => exact rest.resolve_left (· rfl)
  case mapA => exact a.resolve_left (· rfl)
  case mapB => exact b.resolve_left (· rfl)
  case mapEcc => exact ecc.resolve_left (· rfl)
  case mapScrub => exact scrub.resolve_left (· rfl)
  case mapSel => exact sel.resolve_left (· rfl)
  all_goals rfl
@[simp] theorem onVcp_get {f : Part} (s : State) (g : VcpSt → VcpSt)
    (rest : f ≠ .vcp ∨ { g s.vcp with run := none } = { s.vcp with run := none })
    (run : f ≠ .run ∨ (g s.vcp).run = s.vcp.run) : get f (onVcp s g) = get f s := by
  cases f
  case vcp => exact rest.resolve_left (· rfl)
  case run => exact run.resolve_left (· rfl)
  all_goals rfl
@[simp] theorem onRegs_get {f : Part} (s : State) (g : RegSt → RegSt)
    (rest : f ≠ .regs ∨
      { g s.regs with act := [], stg := [], hist := [], gw := [], pairs := [], posted := [], resp := [], rdata := []
                      wide := [], blk := [] }
      = { s.regs with act := [], stg := [], hist := [], gw := [], pairs := [], posted := [], resp := [], rdata := []
                      wide := [], blk := [] })
    (act : f ≠ .act ∨ (g s.regs).act = s.regs.act) (stg : f ≠ .stg ∨ (g s.regs).stg = s.regs.stg)
    (hist : f ≠ .hist ∨ (g s.regs).hist = s.regs.hist) (gw : f ≠ .gw ∨ (g s.regs).gw = s.regs.gw)
    (pairs : f ≠ .pairs ∨ (g s.regs).pairs = s.regs.pairs) (posted : f ≠ .posted ∨ (g s.regs).posted = s.regs.posted)
    (resp : f ≠ .resp ∨ (g s.regs).resp = s.regs.resp) (rdata : f ≠ .rdata ∨ (g s.regs).rdata = s.regs.rdata)
    (wide : f ≠ .wide ∨ (g s.regs).wide = s.regs.wide) (blk : f ≠ .blk ∨ (g s.regs).blk = s.regs.blk) :
    get f (onRegs s g) = get f s := by
  cases f
  case regs => exact rest.resolve_left (· rfl)
  case act => exact act.resolve_left (· rfl)
  case stg => exact stg.resolve_left (· rfl)
  case hist => exact hist.resolve_left (· rfl)
  case gw => exact gw.resolve_left (· rfl)
  case pairs => exact pairs.resolve_left (· rfl)
  case posted => exact posted.resolve_left (· rfl)
  case resp => exact resp.resolve_left (· rfl)
  case rdata => exact rdata.resolve_left (· rfl)
  case wide => exact wide.resolve_left (· rfl)
  case blk => exact blk.resolve_left (· rfl)
  all_goals rfl
@[simp] theorem onVcp_get_of_ne {f : Part} (s : State) (g : VcpSt → VcpSt) (vcp : f ≠ .vcp) (run : f ≠ .run) :
    get f (onVcp s g) = get f s := by
  cases f <;> first | rfl | contradiction
@[simp] theorem onRegs_setStg_get {f : Part} (s : State) (a : Nat) (w : Word) (stg : f ≠ .stg) :
    get f (onRegs s (setStg a w)) = get f s := by
  cases f <;> first | rfl | contradiction
@[simp] theorem onRegs_setAct_get {f : Part} (s : State) (a : Nat) (w : Word) (act : f ≠ .act) :
    get f (onRegs s (setAct a w)) = get f s := by
  cases f <;> first | rfl | contradiction
@[simp] theorem onRegs_setHistR_get {f : Part} (s : State) (a : Nat) (w : Word) (hist : f ≠ .hist) :
    get f (onRegs s (setHistR a w)) = get f s := by
  cases f <;> first | rfl | contradiction
@[simp] theorem sticky_get {f : Part} (s : State) (a : Nat) (m : Word) (hist : f ≠ .hist) :
    get f (sticky s a m) = get f s := by
  cases f <;> first | rfl | contradiction
@[simp] theorem get_fresh {f : Part} (s : State) (n : Nat) (fresh : f ≠ .fresh) :
    get f { s with fresh := n } = get f s := by
  cases f <;> first | rfl | contradiction
@[simp] theorem get_frameDone {f : Part} (s : State) (o : Option Sfp) (frameDone : f ≠ .frameDone) :
    get f { s with frameDone := o } = get f s := by
  cases f <;> first | rfl | contradiction
@[simp] theorem onPort_get {f : Part} (s : State) (p : Nat) (g : PortSt → PortSt) (ports : f ≠ .ports) :
    get f (onPort s p g) = get f s := by
  cases f <;> first | rfl | contradiction
@[simp] theorem onGrp_get {f : Part} (s : State) (p : Nat) (g : GrpSt → GrpSt) (grps : f ≠ .grps) :
    get f (onGrp s p g) = get f s := by
  cases f <;> first | rfl | contradiction
@[simp] theorem onChk_get {f : Part} (s : State) (p : Nat) (g : ChkSt → ChkSt) (chks : f ≠ .chks) :
    get f (onChk s p g) = get f s := by
  cases f <;> first | rfl | contradiction
@[simp] theorem onMem_get {f : Part} (s : State) (g : MemSt → MemSt) (mem : f ≠ .mem) :
    get f (onMem s g) = get f s := by
  cases f <;> first | rfl | contradiction
@[simp] theorem onFlash_get {f : Part} (s : State) (g : FlashSt → FlashSt) (flash : f ≠ .flash) :
    get f (onFlash s g) = get f s := by
  cases f <;> first | rfl | contradiction
@[simp] theorem onPwr_get {f : Part} (s : State) (g : PowerSt → PowerSt) (pwr : f ≠ .pwr) :
    get f (onPwr s g) = get f s := by
  cases f <;> first | rfl | contradiction
@[simp] theorem onPair_get {f : Part} (s : State) (g : PairSt → PairSt) (pair : f ≠ .pair) :
    get f (onPair s g) = get f s := by
  cases f <;> first | rfl | contradiction
@[simp] theorem onMir_get {f : Part} (s : State) (g : MirSt → MirSt) (mir : f ≠ .mir) :
    get f (onMir s g) = get f s := by
  cases f <;> first | rfl | contradiction
@[simp] theorem onSage_get {f : Part} (s : State) (g : SageSt → SageSt) (sage : f ≠ .sage) :
    get f (onSage s g) = get f s := by
  cases f <;> first | rfl | contradiction
@[simp] theorem onSeq_get {f : Part} (s : State) (g : SeqSt → SeqSt) (seq : f ≠ .seq) :
    get f (onSeq s g) = get f s := by
  cases f <;> first | rfl | contradiction
@[simp] theorem onPins_get {f : Part} (s : State) (g : PinSt → PinSt) (pins : f ≠ .pins) :
    get f (onPins s g) = get f s := by
  cases f <;> first | rfl | contradiction
@[simp] theorem onAuto_get {f : Part} (s : State) (g : AutoSt → AutoSt) (auto : f ≠ .auto) :
    get f (onAuto s g) = get f s := by
  cases f <;> first | rfl | contradiction
@[simp] theorem onMgSh_get {f : Part} (s : State) (g : MgShSt → MgShSt) (mgSh : f ≠ .mgSh) :
    get f (onMgSh s g) = get f s := by
  cases f <;> first | rfl | contradiction
@[simp] theorem onTrunk_get {f : Part} (s : State) (p : Nat) (g : TrunkSt → TrunkSt) (ports : f ≠ .ports) :
    get f (onTrunk s p g) = get f s := by simp [onTrunk, ports]
@[simp] theorem onClient_get {f : Part} (s : State) (p : Nat) (g : ClientSt → ClientSt) (ports : f ≠ .ports) :
    get f (onClient s p g) = get f s := by simp [onClient, ports]
@[simp] theorem onCand_get {f : Part} (s : State) (p : Nat) (g : CandSt → CandSt) (cands : f ≠ .cands) :
    get f (onCand s p g) = get f s := by simp [onCand, cands]
@[simp] theorem onFp_get {f : Part} (s : State) (p : Nat) (g : FpSt → FpSt) (thy : f ≠ .thy) :
    get f (onFp s p g) = get f s := by simp [onFp, thy]
@[simp] theorem onMg_get {f : Part} (s : State) (b : Bool) (g : MgSt → MgSt) (mgA : f ≠ .mgA) (mgB : f ≠ .mgB) :
    get f (onMg s b g) = get f s := by
  cases b <;> cases f <;> first | rfl | contradiction
@[simp] theorem mirDrain_get {f : Part} (s : State) (mir : f ≠ .mir) :
    get f (mirDrain s) = get f s := by
  simp [mirDrain, mir]
@[simp] theorem mirPush_get {f : Part} (s : State) (full : Bool) (m : MirrorRec) (mir : f ≠ .mir) :
    get f (mirPush s full m) = get f s := by
  simp [mirPush, mir]
@[simp] theorem mirror_get {f : Part} (s : State) (m : MirrorRec) (mir : f ≠ .mir) :
    get f (mirror s m) = get f s := by
  simp [mirror, mir]
@[simp] theorem mirFlush_get {f : Part} (s : State) (mir : f ≠ .mir) :
    get f (mirFlush s) = get f s := by
  simp [mirFlush, mir]
@[simp] theorem stgPut_get {f : Part} (s : State) (a : Nat) (w : Word) (mir : f ≠ .mir) (stg : f ≠ .stg) :
    get f (stgPut s a w) = get f s := by
  simp [stgPut, mir, stg]
@[simp] theorem setStageBits_get {f : Part} (s : State) (o u : BitVec 8) (stageOpen : f ≠ .stageOpen)
    (suspect : f ≠ .suspect) (mir : f ≠ .mir) :
    get f (setStageBits s o u) = get f s := by
  simp [setStageBits, stageOpen, suspect, mir]
@[simp] theorem openDomains_get {f : Part} (s : State) (m : BitVec 8) (stageOpen : f ≠ .stageOpen)
    (suspect : f ≠ .suspect) (mir : f ≠ .mir) :
    get f (openDomains s m) = get f s := by
  simp [openDomains, stageOpen, suspect, mir]
@[simp] theorem closeDomains_get {f : Part} (s : State) (m : BitVec 8) (stageOpen : f ≠ .stageOpen)
    (suspect : f ≠ .suspect) (mir : f ≠ .mir) :
    get f (closeDomains s m) = get f s := by
  simp [closeDomains, stageOpen, suspect, mir]
@[simp] theorem setSnaps_get {f : Part} (s : State) (l : List (Sfp × BitVec 128)) (snaps : f ≠ .snaps)
    (mir : f ≠ .mir) :
    get f (setSnaps s l) = get f s := by
  simp [setSnaps, snaps, mir]
@[simp] theorem setSwap_get {f : Part} (s : State) (w : Option (Sfp × Bool)) (pair : f ≠ .pair) (mir : f ≠ .mir) :
    get f (setSwap s w) = get f s := by
  simp [setSwap, pair, mir]
@[simp] theorem drawWord_get {f : Part} (s : State) (fresh : f ≠ .fresh) :
    get f (drawWord s).2 = get f s := by
  simp [drawWord, fresh]
@[simp] theorem drawBytes_get {f : Part} (s : State) (n : Nat) (fresh : f ≠ .fresh) :
    get f (drawBytes s n).2 = get f s := by
  simp [drawBytes, fresh]
@[simp] theorem count_get {f : Part} (s : State) (blk idx amt : Nat) (sage : f ≠ .sage) :
    get f (count s blk idx amt) = get f s := by
  cases f <;> first | rfl | contradiction
@[simp] theorem cSys_get {f : Part} (s : State) (i : Nat) (sage : f ≠ .sage) :
    get f (cSys s i) = get f s := by
  simp [cSys, sage]
@[simp] theorem cVcp_get {f : Part} (s : State) (i : Nat) (sage : f ≠ .sage) :
    get f (cVcp s i) = get f s := by
  simp [cVcp, sage]
@[simp] theorem cCom_get {f : Part} (s : State) (i : Nat) (sage : f ≠ .sage) :
    get f (cCom s i) = get f s := by
  simp [cCom, sage]
@[simp] theorem cCore_get {f : Part} (s : State) (i : Nat) (sage : f ≠ .sage) :
    get f (cCore s i) = get f s := by
  simp [cCore, sage]
@[simp] theorem cThy_get {f : Part} (s : State) (i : Nat) (sage : f ≠ .sage) :
    get f (cThy s i) = get f s := by
  simp [cThy, sage]
@[simp] theorem cPair_get {f : Part} (s : State) (i : Nat) (sage : f ≠ .sage) :
    get f (cPair s i) = get f s := by
  simp [cPair, sage]
@[simp] theorem cFeed_get {f : Part} (s : State) (i : Nat) (sage : f ≠ .sage) :
    get f (cFeed s i) = get f s := by
  simp [cFeed, sage]
@[simp] theorem cSage_get {f : Part} (s : State) (i : Nat) (sage : f ≠ .sage) :
    get f (cSage s i) = get f s := by
  simp [cSage, sage]
@[simp] theorem cMg_get {f : Part} (s : State) (b : Bool) (i n : Nat) (sage : f ≠ .sage) :
    get f (cMg s b i n) = get f s := by
  simp [cMg, sage]
@[simp] theorem cPort_get {f : Part} (s : State) (p i n : Nat) (sage : f ≠ .sage) :
    get f (cPort s p i n) = get f s := by
  simp [cPort, sage]
@[simp] theorem cGrp_get {f : Part} (s : State) (g k : Nat) (sage : f ≠ .sage) :
    get f (cGrp s g k) = get f s := by
  simp [cGrp, sage]
@[simp] theorem traceRec_get {f : Part} (s : State) (r : TraceRec) (sage : f ≠ .sage) (hist : f ≠ .hist) :
    get f (traceRec s r) = get f s := by
  unfold traceRec
  extract_lets full
  have k : get f (onRegs (onSage s fun _ => eventOf (actv s) s.sfp (fifoPush (actv s) s.sfp s.sage r) (evSent s r.cls) r)
      fun x => if full then setHistR hSage 1 x else x) = get f s := by
    split
    · exact (onRegs_setHistR_get _ _ _ hist).trans (onSage_get _ _ sage)
    · simp [sage]
  exact k
@[simp] theorem trace_get {f : Part} (s : State) (cls sub obj : Nat) (data : Bytes) (sage : f ≠ .sage)
    (hist : f ≠ .hist) :
    get f (trace s cls sub obj data) = get f s := by
  simp [trace, sage, hist]
@[simp] theorem traceAt_get {f : Part} (s : State) (p : Sfp) (cls sub obj : Nat) (data : Bytes) (sage : f ≠ .sage)
    (hist : f ≠ .hist) :
    get f (traceAt s p cls sub obj data) = get f s := by
  simp [traceAt, sage, hist]
@[simp] theorem flushChannel_get {f : Part} (s : State) (p : Nat) (ports : f ≠ .ports) (sage : f ≠ .sage) :
    get f (flushChannel s p) = get f s := by
  simp [flushChannel, ports, sage]
@[simp] theorem mgmtDiscard_get {f : Part} (s : State) (p : Nat) (ports : f ≠ .ports) (sage : f ≠ .sage) :
    get f (mgmtDiscard s p) = get f s := by
  simp [mgmtDiscard, ports, sage]
@[simp] theorem sfBegins_get {f : Part} (s : State) (p : Nat) (ports : f ≠ .ports) (sage : f ≠ .sage) :
    get f (sfBegins s p) = get f s := by
  simp [sfBegins, ports, sage]
@[simp] theorem clientCentre_get {f : Part} (s : State) (p t : Nat) (ports : f ≠ .ports) (sage : f ≠ .sage)
    (hist : f ≠ .hist) :
    get f (clientCentre s p t) = get f s := by
  simp [clientCentre, ports, sage, hist]
@[simp] theorem settle_get {f : Part} (s : State) (p : Nat) (ports : f ≠ .ports) (sage : f ≠ .sage) (hist : f ≠ .hist) :
    get f (settle s p) = get f s := by
  simp [settle, ports, sage, hist]
@[simp] theorem setCond_get {f : Part} (s : State) (p i : Nat) (on : Bool) (ports : f ≠ .ports) (sage : f ≠ .sage)
    (hist : f ≠ .hist) :
    get f (setCond s p i on) = get f s := by
  simp [setCond, ports, sage, hist]
@[simp] theorem lineCond_get {f : Part} (s : State) (p i : Nat) (on : Bool) (ports : f ≠ .ports) (sage : f ≠ .sage)
    (hist : f ≠ .hist) :
    get f (lineCond s p i on) = get f s := by
  simp [lineCond, ports, sage, hist]
@[simp] theorem reportChange_get {f : Part} (p : Nat) (s : State) (c : Nat × Bool) (sage : f ≠ .sage)
    (hist : f ≠ .hist) :
    get f (reportChange p s c) = get f s := by
  simp [reportChange, sage, hist]
@[simp] theorem reportOnce_get {f : Part} (s : State) (p : Nat) (ports : f ≠ .ports) (sage : f ≠ .sage)
    (hist : f ≠ .hist) :
    get f (reportOnce s p) = get f s := by
  simp [reportOnce, ports, sage, hist]
@[simp] theorem reportPort_get {f : Part} (s : State) (p : Nat) (ports : f ≠ .ports) (sage : f ≠ .sage)
    (hist : f ≠ .hist) :
    get f (reportPort s p) = get f s := by
  simp [reportPort, ports, sage, hist]
@[simp] theorem entPut_get {f : Part} (s : State) (i : Nat) (e : CommitEnt) (ents : f ≠ .ents) (mir : f ≠ .mir) :
    get f (entPut s i e) = get f s := by
  simp [entPut, ents, mir]
@[simp] theorem onEnt_get {part : Part} (s : State) (i : Nat) (f : CommitEnt →
    CommitEnt) (ents : part ≠ .ents) (mir : part ≠ .mir) :
    get part (onEnt s i f) = get part s := by
  unfold onEnt
  split <;> simp [ents, mir]
@[simp] theorem entOut_get {f : Part} (s : State) (i : Nat) (st : EntState) (reason row idx : Nat) (ents : f ≠ .ents)
    (mir : f ≠ .mir) :
    get f (entOut s i st reason row idx) = get f s := by
  simp [entOut, ents, mir]
@[simp] theorem pairRec_get {f : Part} (s : State) (sub : Nat) (old new : PairState) (reason : Nat) (sage : f ≠ .sage)
    (hist : f ≠ .hist) :
    get f (pairRec s sub old new reason) = get f s := by
  simp [pairRec, sage, hist]
@[simp] theorem swapAbort_get {f : Part} (s : State) (reason : Nat) (pair : f ≠ .pair) (mir : f ≠ .mir)
    (sage : f ≠ .sage) (hist : f ≠ .hist) :
    get f (swapAbort s reason) = get f s := by
  simp [swapAbort, pair, mir, sage, hist]
@[simp] theorem freeReason_get {f : Part} (s : State) (fresh : f ≠ .fresh) :
    get f (freeReason s).2 = get f s := by
  simp [freeReason, fresh]
@[simp] theorem dropSnaps_get {f : Part} (s : State) (snaps : f ≠ .snaps) (mir : f ≠ .mir) (sage : f ≠ .sage)
    (hist : f ≠ .hist) :
    get f (dropSnaps s) = get f s := by
  simp [dropSnaps, snaps, mir, sage, hist]
@[simp] theorem dropMgSnap_get {f : Part} (s : State) (mgSh : f ≠ .mgSh) :
    get f (dropMgSnap s) = get f s := by
  unfold dropMgSnap
  split <;> simp [mgSh]
@[simp] theorem dropSwap_get {f : Part} (s : State) (pair : f ≠ .pair) (mir : f ≠ .mir) (sage : f ≠ .sage)
    (hist : f ≠ .hist) :
    get f (dropSwap s) = get f s := by
  unfold dropSwap
  split <;> simp [pair, mir, sage, hist]
@[simp] theorem autoLeave_get {f : Part} (s : State) (stageOpen : f ≠ .stageOpen) (suspect : f ≠ .suspect)
    (mir : f ≠ .mir) (stg : f ≠ .stg) (auto : f ≠ .auto) :
    get f (autoLeave s) = get f s := by
  unfold autoLeave
  split <;> simp [stageOpen, suspect, mir, stg, auto]
@[simp] theorem leaveLines_get {f : Part} (s : State) (stageOpen : f ≠ .stageOpen) (suspect : f ≠ .suspect)
    (ports : f ≠ .ports) (pair : f ≠ .pair) (mir : f ≠ .mir) (sage : f ≠ .sage) (stg : f ≠ .stg) (auto : f ≠ .auto) :
    get f (leaveLines s) = get f s := by
  simp [leaveLines, stageOpen, suspect, ports, pair, mir, sage, stg, auto]
@[simp] theorem pairChange_get {f : Part} (s : State) (sub : Nat) (n : PairState) (reason : Nat)
    (stageOpen : f ≠ .stageOpen) (suspect : f ≠ .suspect) (ports : f ≠ .ports) (pair : f ≠ .pair) (mir : f ≠ .mir)
        (sage : f ≠ .sage) (stg : f ≠ .stg) (hist : f ≠ .hist) (auto : f ≠ .auto) :
    get f (pairChange s sub n reason) = get f s := by
  simp [pairChange, stageOpen, suspect, ports, pair, mir, sage, stg, hist, auto]
@[simp] theorem pairTo_get {f : Part} (s : State) (n : PairState) (reason : Nat) (stageOpen : f ≠ .stageOpen)
    (suspect : f ≠ .suspect) (ports : f ≠ .ports) (pair : f ≠ .pair) (mir : f ≠ .mir) (sage : f ≠ .sage)
        (stg : f ≠ .stg) (hist : f ≠ .hist) (auto : f ≠ .auto) :
    get f (pairTo s n reason) = get f s := by
  simp [pairTo, stageOpen, suspect, ports, pair, mir, sage, stg, hist, auto]
@[simp] theorem pairSticky_get {f : Part} (s : State) (bitNo : Nat) (hist : f ≠ .hist) :
    get f (pairSticky s bitNo) = get f s := by
  simp [pairSticky, hist]
@[simp] theorem endResync_get {f : Part} (s : State) (status detail : Byte) (data : Bytes) (pair : f ≠ .pair)
    (vcp : f ≠ .vcp) (run : f ≠ .run) :
    get f (endResync s status detail data) = get f s := by
  unfold endResync
  dsimp only
  split
  · split <;> simp [pair, vcp, run]
  · simp [pair, vcp, run]
@[simp] theorem freeBlock_get {f : Part} (s : State) (fresh : f ≠ .fresh) :
    get f (freeBlock s).2 = get f s := by
  simp [freeBlock, fresh]
@[simp] theorem adCounts_get {f : Part} (s : State) (p : Nat) (o : AdOut) (sage : f ≠ .sage) (hist : f ≠ .hist) :
    get f (adCounts s p o) = get f s := by
  unfold adCounts
  dsimp only
  (repeat' split) <;> simp [sage, hist]
@[simp] theorem storeSlot_get {f : Part} (s : State) (g : Nat) (b : Block) (ports : f ≠ .ports) (map : f ≠ .map) :
    get f (storeSlot s g b) = get f s := by
  simp [storeSlot, ports, map]
@[simp] theorem slotIn_get {f : Part} (s : State) (p g : Nat) (b : Block) (ofStream : Bool) (ports : f ≠ .ports)
    (map : f ≠ .map) :
    get f (slotIn s p g b ofStream) = get f s := by
  simp [slotIn, ports, map]
@[simp] theorem selStore_get {f : Part} (s : State) (g : Nat) (sel : Bool) (map : f ≠ .map) (mapA : f ≠ .mapA)
    (mapB : f ≠ .mapB) (mapEcc : f ≠ .mapEcc) (mapScrub : f ≠ .mapScrub) (mapSel : f ≠ .mapSel) :
    get f (selStore s g sel) = get f s := by
  simp [selStore, map, mapA, mapB, mapEcc, mapScrub, mapSel]
@[simp] theorem trunkCentre_get {f : Part} (s : State) (p r : Nat) (ports : f ≠ .ports) (sage : f ≠ .sage)
    (hist : f ≠ .hist) (fresh : f ≠ .fresh) :
    get f (trunkCentre s p r) = get f s := by
  unfold trunkCentre
  dsimp only
  split_ifs <;> simp [ports, sage, hist, fresh]
@[simp] theorem loseFrame_get {f : Part} (s : State) (p : Nat) (ports : f ≠ .ports) (sage : f ≠ .sage)
    (hist : f ≠ .hist) :
    get f (loseFrame s p) = get f s := by
  simp [loseFrame, ports, sage, hist]
@[simp] theorem mfcCompare_get {f : Part} (s : State) (p v : Nat) (thy : f ≠ .thy) (ports : f ≠ .ports)
    (sage : f ≠ .sage) (hist : f ≠ .hist) :
    get f (mfcCompare s p v) = get f s := by
  unfold mfcCompare
  split
  · extract_lets own same t next bad good s1 src s2 s3
    have k1 : get f s1 = get f s := by simp [s1, thy, ports, sage, hist]
    have k2 : get f s2 = get f s := by simp [s2, k1, thy, ports, sage, hist]
    have k3 : get f s3 = get f s := by simp [s3, k1, thy, ports, sage, hist]
    split
    · split
      · simp [k2, thy, ports, sage, hist]
      · exact k2
    · split
      · split
        · simp [k3, thy, ports, sage, hist]
        · exact k3
      · exact k1
  · rfl
@[simp] theorem mfcLearnFrom_get {f : Part} (s : State) (p v : Nat) (thy : f ≠ .thy) :
    get f (mfcLearnFrom s p v) = get f s := by
  unfold mfcLearnFrom
  dsimp only
  (repeat' split) <;> simp [thy]
@[simp] theorem mfcCollect_get {f : Part} (s : State) (p : Nat) (w : W56) (thy : f ≠ .thy) (ports : f ≠ .ports)
    (sage : f ≠ .sage) (hist : f ≠ .hist) :
    get f (mfcCollect s p w) = get f s := by
  simp [mfcCollect, thy, ports, sage, hist]
@[simp] theorem mfAlign_get {f : Part} (s : State) (p fi : Nat) (ports : f ≠ .ports) (sage : f ≠ .sage)
    (hist : f ≠ .hist) (fresh : f ≠ .fresh) :
    get f (mfAlign s p fi) = get f s := by
  simp [mfAlign, ports, sage, hist, fresh]
@[simp] theorem o0Flags_get {f : Part} (s : State) (p : Nat) (w : W56) (ports : f ≠ .ports) (sage : f ≠ .sage)
    (hist : f ≠ .hist) :
    get f (o0Flags s p w) = get f s := by
  simp [o0Flags, ports, sage, hist]
@[simp] theorem judgeTim_get {f : Part} (s : State) (p : Nat) (ports : f ≠ .ports) (sage : f ≠ .sage)
    (hist : f ≠ .hist) :
    get f (judgeTim s p) = get f s := by
  simp [judgeTim, ports, sage, hist]
@[simp] theorem fecTake_get {f : Part} (s : State) (p cw sym : Nat) (ports : f ≠ .ports) (sage : f ≠ .sage)
    (hist : f ≠ .hist) :
    get f (fecTake s p cw sym) = get f s := by
  simp [fecTake, ports, sage, hist]
@[simp] theorem fecFrame_get {f : Part} (s : State) (p : Nat) (ports : f ≠ .ports) :
    get f (fecFrame s p) = get f s := by
  simp [fecFrame, ports]
@[simp] theorem fecEpoch_get {f : Part} (s : State) (p : Nat) (ports : f ≠ .ports) :
    get f (fecEpoch s p) = get f s := by
  simp [fecEpoch, ports]
@[simp] theorem condEval_get {f : Part} (s : State) (g k : Nat) (now : Bool) (get_ : GrpSt → CondSt) (put : GrpSt →
    CondSt → GrpSt) (grps : f ≠ .grps) (sage : f ≠ .sage) :
    get f (condEval s g k now get_ put) = get f s := by
  simp [condEval, grps, sage]
@[simp] theorem condsEval_get {f : Part} (s : State) (g : Nat) (grps : f ≠ .grps) (sage : f ≠ .sage) :
    get f (condsEval s g) = get f s := by
  simp [condsEval, grps, sage]
@[simp] theorem pushItem_get {f : Part} (s : State) (it : ProtItem) (sage : f ≠ .sage) :
    get f (pushItem s it) = get f s := by
  simp [pushItem, sage]
@[simp] theorem apsCompose_get {f : Part} (s : State) (g tx : Nat) (sig : Bool) (ports : f ≠ .ports)
    (grps : f ≠ .grps) :
    get f (apsCompose s g tx sig) = get f s := by
  unfold apsCompose
  dsimp only
  (repeat' split) <;> simp [ports, grps]
@[simp] theorem decideGrp_get {f : Part} (s : State) (g why : Nat) (ports : f ≠ .ports) (map : f ≠ .map)
    (mapA : f ≠ .mapA) (mapB : f ≠ .mapB) (mapEcc : f ≠ .mapEcc) (mapScrub : f ≠ .mapScrub) (mapSel : f ≠ .mapSel)
        (grps : f ≠ .grps) (sage : f ≠ .sage) (hist : f ≠ .hist) :
    get f (decideGrp s g why) = get f s := by
  simp [decideGrp, ports, map, mapA, mapB, mapEcc, mapScrub, mapSel, grps, sage, hist]
@[simp] theorem grpTake_get {f : Part} (s : State) (g : Nat) (grps : f ≠ .grps) (sage : f ≠ .sage) :
    get f (grpTake s g) = get f s := by
  unfold grpTake
  dsimp only
  (repeat' split) <;> simp [grps, sage]
@[simp] theorem egressTake_get {f : Part} (s : State) (g : Nat) (grps : f ≠ .grps) :
    get f (egressTake s g) = get f s := by
  unfold egressTake
  dsimp only
  (repeat' split) <;> simp [grps]
@[simp] theorem evalGrp_get {f : Part} (s : State) (g : Nat) (ports : f ≠ .ports) (map : f ≠ .map) (mapA : f ≠ .mapA)
    (mapB : f ≠ .mapB) (mapEcc : f ≠ .mapEcc) (mapScrub : f ≠ .mapScrub) (mapSel : f ≠ .mapSel) (grps : f ≠ .grps)
        (sage : f ≠ .sage) (hist : f ≠ .hist) :
    get f (evalGrp s g) = get f s := by
  simp [evalGrp, ports, map, mapA, mapB, mapEcc, mapScrub, mapSel, grps, sage, hist]
@[simp] theorem fillAps_get {f : Part} (s : State) (p : Nat) (o3 : Bool) (notG : Option Nat) (ports : f ≠ .ports)
    (sage : f ≠ .sage) :
    get f (fillAps s p o3 notG).1 = get f s := by
  unfold fillAps
  dsimp only
  (repeat' split) <;> simp [ports, sage]
@[simp] theorem apsFrame_get {f : Part} (s : State) (p : Nat) (ports : f ≠ .ports) (sage : f ≠ .sage) :
    get f (apsFrame s p) = get f s := by
  simp [apsFrame, ports, sage]
@[simp] theorem grpDefaults_get {f : Part} (s : State) (g : Nat) (ports : f ≠ .ports) (map : f ≠ .map)
    (mapA : f ≠ .mapA) (mapB : f ≠ .mapB) (mapEcc : f ≠ .mapEcc) (mapScrub : f ≠ .mapScrub) (mapSel : f ≠ .mapSel)
        (grps : f ≠ .grps) (sage : f ≠ .sage) (hist : f ≠ .hist) :
    get f (grpDefaults s g) = get f s := by
  simp [grpDefaults, ports, map, mapA, mapB, mapEcc, mapScrub, mapSel, grps, sage, hist]
@[simp] theorem eqTo_get {f : Part} (s : State) (g : Nat) (st : EqState) (why : Nat) (grps : f ≠ .grps)
    (sage : f ≠ .sage) :
    get f (eqTo s g st why) = get f s := by
  simp [eqTo, grps, sage]
@[simp] theorem eqEval_get {f : Part} (s : State) (g : Nat) (grps : f ≠ .grps) (sage : f ≠ .sage) :
    get f (eqEval s g) = get f s := by
  unfold eqEval
  dsimp only
  (repeat' split) <;> simp [grps, sage]
@[simp] theorem eqStart_get {f : Part} (s : State) (g : Nat) (grps : f ≠ .grps) (sage : f ≠ .sage) :
    get f (eqStart s g) = get f s := by
  simp [eqStart, grps, sage]
@[simp] theorem eqStop_get {f : Part} (s : State) (g : Nat) (grps : f ≠ .grps) (sage : f ≠ .sage) :
    get f (eqStop s g) = get f s := by
  simp [eqStop, grps, sage]
@[simp] theorem sendWords_get {f : Part} (s : State) (p : Nat) (ports : f ≠ .ports) :
    get f (sendWords s p) = get f s := by
  simp [sendWords, ports]
@[simp] theorem resend_get {f : Part} (s : State) (ports : f ≠ .ports) :
    get f (resend s) = get f s := by
  simp [resend, ports]
@[simp] theorem onRefin_get {part : Part} (s : State) (n : Nat) (f : RefinSt → RefinSt) (thy : part ≠ .thy) :
    get part (onRefin s n f) = get part s := by
  simp [onRefin, thy]
@[simp] theorem refinFrame_get {f : Part} (i : FrameIn) (s : State) (n : Nat) (thy : f ≠ .thy) :
    get f (refinFrame i s n) = get f s := by
  simp [refinFrame, thy]
@[simp] theorem candEval_get {f : Part} (s : State) (c : Nat) (cands : f ≠ .cands) (sage : f ≠ .sage) :
    get f (candEval s c) = get f s := by
  simp [candEval, cands, sage]
@[simp] theorem thyTo_get {f : Part} (s : State) (n : ThyState) (thy : f ≠ .thy) (sage : f ≠ .sage) (hist : f ≠ .hist) :
    get f (thyTo s n) = get f s := by
  simp [thyTo, thy, sage, hist]
@[simp] theorem setBw_get {f : Part} (s : State) (thy : f ≠ .thy) :
    get f (setBw s) = get f s := by
  simp [setBw, thy]
@[simp] theorem mirHoldover_get {f : Part} (s : State) (mir : f ≠ .mir) :
    get f (mirHoldover s) = get f s := by
  simp [mirHoldover, mir]
@[simp] theorem lossLocked_get {f : Part} (s : State) (thy : f ≠ .thy) (mir : f ≠ .mir) (sage : f ≠ .sage)
    (hist : f ≠ .hist) :
    get f (lossLocked s) = get f s := by
  simp [lossLocked, thy, mir, sage, hist]
@[simp] theorem refLoss_get {f : Part} (s : State) (thy : f ≠ .thy) (mir : f ≠ .mir) (sage : f ≠ .sage)
    (hist : f ≠ .hist) :
    get f (refLoss s) = get f s := by
  unfold refLoss
  split <;> simp [thy, mir, sage, hist]
@[simp] theorem allDnuEval_get {f : Part} (s : State) (thy : f ≠ .thy) (sage : f ≠ .sage) :
    get f (allDnuEval s) = get f s := by
  simp [allDnuEval, thy, sage]
@[simp] theorem selectEval_get {f : Part} (s : State) (thy : f ≠ .thy) (mir : f ≠ .mir) (sage : f ≠ .sage)
    (hist : f ≠ .hist) :
    get f (selectEval s) = get f s := by
  unfold selectEval
  split
  · rfl
  · split
    · simp [thy, mir, sage, hist]
    · split <;> simp [thy, mir, sage, hist]
@[simp] theorem ctlEval_get {f : Part} (i : FrameIn) (s : State) (thy : f ≠ .thy) :
    get f (ctlEval i s) = get f s := by
  unfold ctlEval
  dsimp only
  (repeat' split) <;> simp [thy]
@[simp] theorem ivCtlEval_get {f : Part} (s : State) (thy : f ≠ .thy) :
    get f (ivCtlEval s) = get f s := by
  simp [ivCtlEval, thy]
@[simp] theorem ivEval_get {f : Part} (s : State) (thy : f ≠ .thy) :
    get f (ivEval s) = get f s := by
  simp [ivEval, thy]
@[simp] theorem lockEval_get {f : Part} (i : FrameIn) (s : State) (thy : f ≠ .thy) :
    get f (lockEval i s) = get f s := by
  simp [lockEval, thy]
@[simp] theorem clkAlign_get {f : Part} (s : State) (thy : f ≠ .thy) :
    get f (clkAlign s) = get f s := by
  unfold clkAlign
  split <;> simp [thy]
@[simp] theorem thyFrame_get {f : Part} (i : FrameIn) (s : State) (thy : f ≠ .thy) (cands : f ≠ .cands)
    (mir : f ≠ .mir) (sage : f ≠ .sage) (hist : f ≠ .hist) :
    get f (thyFrame i s) = get f s := by
  simp [thyFrame, thy, cands, mir, sage, hist]
@[simp] theorem reselect_get {f : Part} (s : State) (thy : f ≠ .thy) (ports : f ≠ .ports) (mir : f ≠ .mir)
    (sage : f ≠ .sage) (hist : f ≠ .hist) :
    get f (reselect s) = get f s := by
  simp [reselect, thy, ports, mir, sage, hist]
@[simp] theorem switchTo_get {f : Part} (offset : Word) (c why : Nat) (s : State) (thy : f ≠ .thy) (sage : f ≠ .sage)
    (hist : f ≠ .hist) :
    get f (switchTo offset c why s) = get f s := by
  unfold switchTo
  split <;> simp [thy, sage, hist]
@[simp] theorem fpRec_get {f : Part} (s : State) (k code : Nat) (sage : f ≠ .sage) (hist : f ≠ .hist) :
    get f (fpRec s k code) = get f s := by
  simp [fpRec, sage, hist]
@[simp] theorem hbEval_get {f : Part} (s : State) (thy : f ≠ .thy) (mir : f ≠ .mir) :
    get f (hbEval s) = get f s := by
  unfold hbEval
  extract_lets d t1 s1
  have k1 : get f s1 = get f s := by simp [s1, thy, mir]
  split
  · simp [thy, mir]
  · split
    · simp [k1, thy, mir]
    · rfl
@[simp] theorem thyEpoch_get {f : Part} (temp : BitVec 16) (s : State) (thy : f ≠ .thy) (mir : f ≠ .mir) :
    get f (thyEpoch temp s) = get f s := by
  simp [thyEpoch, thy, mir]
@[simp] theorem clkStrobe_get {f : Part} (old : View) (s : State) (o : Nat) (thy : f ≠ .thy) (fresh : f ≠ .fresh) :
    get f (clkStrobe old s o) = get f s := by
  simp [clkStrobe, thy, fresh]
@[simp] theorem thyStrobe_get {f : Part} (old : View) (s : State) (thy : f ≠ .thy) (cands : f ≠ .cands)
    (fresh : f ≠ .fresh) :
    get f (thyStrobe old s) = get f s := by
  simp [thyStrobe, thy, cands, fresh]
@[simp] theorem bankSwap_get {f : Part} (s : State) (map : f ≠ .map) (fresh : f ≠ .fresh) :
    get f (bankSwap s) = get f s := by
  simp [bankSwap, map, fresh]
@[simp] theorem dropGroups_get {f : Part} (s : State) (was : Bool) (ports : f ≠ .ports) (map : f ≠ .map)
    (mapA : f ≠ .mapA) (mapB : f ≠ .mapB) (mapEcc : f ≠ .mapEcc) (mapScrub : f ≠ .mapScrub) (mapSel : f ≠ .mapSel)
        (grps : f ≠ .grps) (sage : f ≠ .sage) (hist : f ≠ .hist) :
    get f (dropGroups s was) = get f s := by
  simp [dropGroups, ports, map, mapA, mapB, mapEcc, mapScrub, mapSel, grps, sage, hist]
@[simp] theorem modeChange_get {f : Part} (s : State) (p new : Nat) (ports : f ≠ .ports) (sage : f ≠ .sage)
    (hist : f ≠ .hist) :
    get f (modeChange s p new) = get f s := by
  simp [modeChange, ports, sage, hist]
@[simp] theorem recentre_get {f : Part} (s : State) (p : Nat) (ports : f ≠ .ports) (sage : f ≠ .sage)
    (hist : f ≠ .hist) (fresh : f ≠ .fresh) :
    get f (recentre s p) = get f s := by
  unfold recentre
  split <;> simp [ports, sage, hist, fresh]
@[simp] theorem loopChange_get {f : Part} (s0 : State) (p old new : Nat) (ports : f ≠ .ports) (sage : f ≠ .sage)
    (hist : f ≠ .hist) (fresh : f ≠ .fresh) :
    get f (loopChange s0 p old new) = get f s0 := by
  simp [loopChange, ports, sage, hist, fresh]
@[simp] theorem depthChange_get {f : Part} (s : State) (p : Nat) (ports : f ≠ .ports) (sage : f ≠ .sage)
    (hist : f ≠ .hist) (fresh : f ≠ .fresh) :
    get f (depthChange s p) = get f s := by
  simp [depthChange, ports, sage, hist, fresh]
@[simp] theorem portStrobe_get {f : Part} (old : View) (s : State) (p : Nat) (ports : f ≠ .ports) (sage : f ≠ .sage)
    (hist : f ≠ .hist) (fresh : f ≠ .fresh) :
    get f (portStrobe old s p) = get f s := by
  simp [portStrobe, ports, sage, hist, fresh]
@[simp] theorem chkStrobe_get {f : Part} (old : View) (s : State) (m : Nat) (chks : f ≠ .chks) :
    get f (chkStrobe old s m) = get f s := by
  simp [chkStrobe, chks]
@[simp] theorem eqStrobe_get {f : Part} (s : State) (g : Nat) (grps : f ≠ .grps) (sage : f ≠ .sage) :
    get f (eqStrobe s g) = get f s := by
  simp [eqStrobe, grps, sage]
@[simp] theorem grpDisable_get {f : Part} (s : State) (g : Nat) (ports : f ≠ .ports) (map : f ≠ .map)
    (mapA : f ≠ .mapA) (mapB : f ≠ .mapB) (mapEcc : f ≠ .mapEcc) (mapScrub : f ≠ .mapScrub) (mapSel : f ≠ .mapSel)
        (grps : f ≠ .grps) (sage : f ≠ .sage) (hist : f ≠ .hist) :
    get f (grpDisable s g) = get f s := by
  simp [grpDisable, ports, map, mapA, mapB, mapEcc, mapScrub, mapSel, grps, sage, hist]
@[simp] theorem grpRestart_get {f : Part} (s : State) (g : Nat) (anew : Bool) (ports : f ≠ .ports) (map : f ≠ .map)
    (mapA : f ≠ .mapA) (mapB : f ≠ .mapB) (mapEcc : f ≠ .mapEcc) (mapScrub : f ≠ .mapScrub) (mapSel : f ≠ .mapSel)
        (grps : f ≠ .grps) (sage : f ≠ .sage) (hist : f ≠ .hist) :
    get f (grpRestart s g anew) = get f s := by
  simp [grpRestart, ports, map, mapA, mapB, mapEcc, mapScrub, mapSel, grps, sage, hist]
@[simp] theorem grpTune_get {f : Part} (old : View) (s : State) (g : Nat) (grps : f ≠ .grps) (sage : f ≠ .sage) :
    get f (grpTune old s g) = get f s := by
  simp [grpTune, grps, sage]
@[simp] theorem grpStrobe_get {f : Part} (old : View) (oe : Tbl Entry) (s : State) (g : Nat) (ports : f ≠ .ports)
    (map : f ≠ .map) (mapA : f ≠ .mapA) (mapB : f ≠ .mapB) (mapEcc : f ≠ .mapEcc) (mapScrub : f ≠ .mapScrub)
        (mapSel : f ≠ .mapSel) (grps : f ≠ .grps) (sage : f ≠ .sage) (hist : f ≠ .hist) :
    get f (grpStrobe old oe s g) = get f s := by
  simp [grpStrobe, ports, map, mapA, mapB, mapEcc, mapScrub, mapSel, grps, sage, hist]
@[simp] theorem releaseHeld_get {f : Part} (s : State) (grps : f ≠ .grps) :
    get f (releaseHeld s) = get f s := by
  simp [releaseHeld, grps]
@[simp] theorem bwLatch_get {f : Part} (s : State) (p w : Nat) (ports : f ≠ .ports) :
    get f (bwLatch s p w) = get f s := by
  simp [bwLatch, ports]
@[simp] theorem bwRestart_get {f : Part} (old v : View) (s : State) (p : Nat) (ports : f ≠ .ports) :
    get f (bwRestart old v s p) = get f s := by
  simp [bwRestart, ports]
@[simp] theorem obsStrobe_get {f : Part} (old : View) (s : State) (ports : f ≠ .ports) (sage : f ≠ .sage) :
    get f (obsStrobe old s) = get f s := by
  simp [obsStrobe, ports, sage]
@[simp] theorem pinStrobe_get {f : Part} (old : View) (s : State) (pins : f ≠ .pins) :
    get f (pinStrobe old s) = get f s := by
  simp [pinStrobe, pins]
@[simp] theorem afterCopy_get {f : Part} (old : View) (was : Bool) (lines : MapSt) (mask : BitVec 8) (s1 : State)
    (thy : f ≠ .thy) (cands : f ≠ .cands) (ports : f ≠ .ports) (chks : f ≠ .chks) (map : f ≠ .map) (mapA : f ≠ .mapA)
        (mapB : f ≠ .mapB) (mapEcc : f ≠ .mapEcc) (mapScrub : f ≠ .mapScrub) (mapSel : f ≠ .mapSel) (grps : f ≠ .grps)
            (sage : f ≠ .sage) (hist : f ≠ .hist) (pins : f ≠ .pins) (fresh : f ≠ .fresh) :
    get f (afterCopy old was lines mask s1) = get f s1 := by
  simp [afterCopy, thy, cands, ports, chks, map, mapA, mapB, mapEcc, mapScrub, mapSel, grps, sage, hist, pins, fresh]
@[simp] theorem disagreeEval_get {f : Part} (s : State) (pair : f ≠ .pair) (hist : f ≠ .hist) :
    get f (disagreeEval s) = get f s := by
  simp [disagreeEval, pair, hist]
@[simp] theorem blockedEval_get {f : Part} (s : State) (pair : f ≠ .pair) (sage : f ≠ .sage) (hist : f ≠ .hist) :
    get f (blockedEval s) = get f s := by
  simp [blockedEval, pair, sage, hist]
@[simp] theorem startResync_get {f : Part} (s : State) (stageOpen : f ≠ .stageOpen) (suspect : f ≠ .suspect)
    (ports : f ≠ .ports) (pair : f ≠ .pair) (mir : f ≠ .mir) (sage : f ≠ .sage) (stg : f ≠ .stg) (hist : f ≠ .hist)
        (auto : f ≠ .auto) :
    get f (startResync s) = get f s := by
  simp [startResync, stageOpen, suspect, ports, pair, mir, sage, stg, hist, auto]
@[simp] theorem failResync_get {f : Part} (s : State) (detail : Byte) (why : Nat) (stageOpen : f ≠ .stageOpen)
    (suspect : f ≠ .suspect) (ports : f ≠ .ports) (pair : f ≠ .pair) (mir : f ≠ .mir) (vcp : f ≠ .vcp)
        (run : f ≠ .run) (sage : f ≠ .sage) (stg : f ≠ .stg) (hist : f ≠ .hist) (auto : f ≠ .auto) :
    get f (failResync s detail why) = get f s := by
  simp [failResync, stageOpen, suspect, ports, pair, mir, vcp, run, sage, stg, hist, auto]
@[simp] theorem startWatch_get {f : Part} (s : State) (pair : f ≠ .pair) :
    get f (startWatch s) = get f s := by
  simp [startWatch, pair]
@[simp] theorem txSuspectEval_get {f : Part} (s : State) (pair : f ≠ .pair) (sage : f ≠ .sage) (hist : f ≠ .hist) :
    get f (txSuspectEval s) = get f s := by
  unfold txSuspectEval
  split <;> simp [pair, sage, hist]
@[simp] theorem runOn_get {f : Part} (s : State) (grps : f ≠ .grps) :
    get f (runOn s) = get f s := by
  unfold runOn
  split <;> simp [grps]
@[simp] theorem thyTake_get {f : Part} (s : State) (thy : f ≠ .thy) :
    get f (thyTake s) = get f s := by
  simp [thyTake, thy]
@[simp] theorem pairFrame_get {f : Part} (s : State) (stageOpen : f ≠ .stageOpen) (suspect : f ≠ .suspect)
    (ports : f ≠ .ports) (pair : f ≠ .pair) (mir : f ≠ .mir) (sage : f ≠ .sage) (stg : f ≠ .stg) (hist : f ≠ .hist)
        (auto : f ≠ .auto) :
    get f (pairFrame s) = get f s := by
  unfold pairFrame
  dsimp only
  (repeat' split) <;> simp [stageOpen, suspect, ports, pair, mir, sage, stg, hist, auto]
@[simp] theorem trunkRead_get {f : Part} (s : State) (p : Nat) (ports : f ≠ .ports) (map : f ≠ .map) :
    get f (trunkRead s p) = get f s := by
  unfold trunkRead
  dsimp only
  (repeat' split) <;> simp [ports, map]
@[simp] theorem clearPage_get {f : Part} (s : State) (map : f ≠ .map) :
    get f (clearPage s) = get f s := by
  simp [clearPage, map]
@[simp] theorem feedTrace_get {f : Part} (s : State) (r : Nat × Bool × Bool × Nat × Sfp) (sage : f ≠ .sage)
    (hist : f ≠ .hist) :
    get f (feedTrace s r) = get f s := by
  simp [feedTrace, sage, hist]
@[simp] theorem feedFrame_get {f : Part} (i : FrameIn) (s : State) (pwr : f ≠ .pwr) (sage : f ≠ .sage)
    (hist : f ≠ .hist) :
    get f (feedFrame i s) = get f s := by
  simp [feedFrame, pwr, sage, hist]
@[simp] theorem mgWindow_get {f : Part} (s : State) (b : Bool) (k n : Nat) (mgA : f ≠ .mgA) (mgB : f ≠ .mgB) :
    get f (mgWindow s b k n) = get f s := by
  simp [mgWindow, mgA, mgB]
@[simp] theorem mgLimited_get {f : Part} (s : State) (b : Bool) (k n : Nat) (mgA : f ≠ .mgA) (mgB : f ≠ .mgB)
    (sage : f ≠ .sage) :
    get f (mgLimited s b k n) = get f s := by
  simp [mgLimited, mgA, mgB, sage]
@[simp] theorem viaLimited_get {f : Part} (s : State) (v : Transport) (k : Nat) (mgA : f ≠ .mgA) (mgB : f ≠ .mgB)
    (sage : f ≠ .sage) :
    get f (viaLimited s v k) = get f s := by
  unfold viaLimited
  split <;> simp [mgA, mgB, sage]
@[simp] theorem replyQueue_get {f : Part} (s : State) (b : Bool) (p : OutPkt) (mgA : f ≠ .mgA) (mgB : f ≠ .mgB)
    (sage : f ≠ .sage) :
    get f (replyQueue s b p) = get f s := by
  simp [replyQueue, mgA, mgB, sage]
@[simp] theorem spiPush_get {f : Part} (s : State) (b : Bytes) (vcp : f ≠ .vcp) (sage : f ≠ .sage) :
    get f (spiPush s b) = get f s := by
  simp [spiPush, vcp, sage]
@[simp] theorem chanPut_get {f : Part} (s : State) (p : Nat) (pri : BitVec 2) (b : Bytes) (ports : f ≠ .ports)
    (sage : f ≠ .sage) :
    get f (chanPut s p pri b).1 = get f s := by
  unfold chanPut
  dsimp only
  split_ifs <;> simp [ports, sage]
@[simp] theorem inbandOut_get {f : Part} (s : State) (origin : Option (BitVec 12)) (pri : BitVec 2) (b : Bytes)
    (ports : f ≠ .ports) (sage : f ≠ .sage) :
    get f (inbandOut s origin pri b) = get f s := by
  unfold inbandOut
  split <;> simp [ports, sage]
@[simp] theorem outVia_get {f : Part} (s : State) (ret : Return) (front : Bool) (origin : Option (BitVec 12))
    (pri : BitVec 2) (b : Bytes) (ports : f ≠ .ports) (vcp : f ≠ .vcp) (mgA : f ≠ .mgA) (mgB : f ≠ .mgB)
        (sage : f ≠ .sage) :
    get f (outVia s ret front origin pri b) = get f s := by
  unfold outVia
  split <;> simp [ports, vcp, mgA, mgB, sage]
@[simp] theorem sendReply_get {f : Part} (s : State) (r : Reply) (ports : f ≠ .ports) (vcp : f ≠ .vcp)
    (mgA : f ≠ .mgA) (mgB : f ≠ .mgB) (sage : f ≠ .sage) :
    get f (sendReply s r) = get f s := by
  simp [sendReply, ports, vcp, mgA, mgB, sage]
@[simp] theorem frontReply_get {f : Part} (s : State) (q : Req) (op : BitVec 16) (status detail : Byte)
    (remain : BitVec 16) (ports : f ≠ .ports) (vcp : f ≠ .vcp) (mgA : f ≠ .mgA) (mgB : f ≠ .mgB) (sage : f ≠ .sage) :
    get f (frontReply s q op status detail remain) = get f s := by
  simp [frontReply, ports, vcp, mgA, mgB, sage]
@[simp] theorem answerBusy_get {f : Part} (s : State) (q : Req) (op : BitVec 16) (st : Byte) (remain : BitVec 16)
    (ports : f ≠ .ports) (vcp : f ≠ .vcp) (mgA : f ≠ .mgA) (mgB : f ≠ .mgB) (sage : f ≠ .sage) (fresh : f ≠ .fresh) :
    get f (answerBusy s q op st remain) = get f s := by
  simp [answerBusy, ports, vcp, mgA, mgB, sage, fresh]
@[simp] theorem seqRecord_get {f : Part} (s : State) (a : Nat) (x : ReplaySt) (mir : f ≠ .mir) (vcp : f ≠ .vcp)
    (flash : f ≠ .flash) :
    get f (seqRecord s a x) = get f s := by
  simp [seqRecord, mir, vcp, flash]
@[simp] theorem setReply_get {f : Part} (s : State) (status detail : Byte) (data : Bytes) (vcp : f ≠ .vcp)
    (run : f ≠ .run) :
    get f (setReply s status detail data) = get f s := by
  unfold setReply
  split <;> simp [vcp, run]
@[simp] theorem replyOk_get {f : Part} (s : State) (data : Bytes) (vcp : f ≠ .vcp) (run : f ≠ .run) :
    get f (replyOk s data) = get f s := by
  simp [replyOk, vcp, run]
@[simp] theorem onRun_get {part : Part} (s : State) (f : Run → Run) (vcp : part ≠ .vcp) (run : part ≠ .run) :
    get part (onRun s f) = get part s := by
  simp [onRun, vcp, run]
@[simp] theorem replyEnd_get {f : Part} (s : State) (e : EndAct) (vcp : f ≠ .vcp) (run : f ≠ .run) :
    get f (replyEnd s e) = get f s := by
  simp [replyEnd, vcp, run]
@[simp] theorem latPush_get {f : Part} (s : State) (r : LatRec) (vcp : f ≠ .vcp) (sage : f ≠ .sage) (hist : f ≠ .hist) :
    get f (latPush s r) = get f s := by
  unfold latPush
  dsimp only
  split_ifs <;> simp [vcp, sage, hist]
@[simp] theorem setResp_get {f : Part} (s : State) (m : Nat) (r : Resp) (resp : f ≠ .resp) :
    get f (setResp s m r) = get f s := by
  simp [setResp, resp]
@[simp] theorem slvErr_get {f : Part} (s : State) (m : Nat) (sage : f ≠ .sage) (resp : f ≠ .resp) :
    get f (slvErr s m) = get f s := by
  simp [slvErr, sage, resp]
@[simp] theorem guardFailed_get {f : Part} (s : State) (cause addr : Nat) (sage : f ≠ .sage) (regs : f ≠ .regs)
    (hist : f ≠ .hist) :
    get f (guardFailed s cause addr) = get f s := by
  simp [guardFailed, sage, regs, hist]
@[simp] theorem closePair_get {f : Part} (s : State) (k : Nat) (pairs : f ≠ .pairs) :
    get f (closePair s k) = get f s := by
  simp [closePair, pairs]
@[simp] theorem swapRecord_get {part : Part} (s : State) (f : Sfp) (pair : part ≠ .pair) (mir : part ≠ .mir) :
    get part (swapRecord s f) = get part s := by
  simp [swapRecord, pair, mir]
@[simp] theorem swapWithdraw_get {f : Part} (s : State) (pair : f ≠ .pair) (mir : f ≠ .mir) :
    get f (swapWithdraw s) = get f s := by
  simp [swapWithdraw, pair, mir]
@[simp] theorem forceRecord_get {f : Part} (s : State) (pair : f ≠ .pair) :
    get f (forceRecord s) = get f s := by
  simp [forceRecord, pair]
@[simp] theorem seqRstDue_get {f : Part} (s : State) (seq : f ≠ .seq) :
    get f (seqRstDue s) = get f s := by
  simp [seqRstDue, seq]
@[simp] theorem gwEffect_get {f : Part} (s : State) (a : Nat) (v : Word) (pair : f ≠ .pair) (mir : f ≠ .mir)
    (sage : f ≠ .sage) (mem : f ≠ .mem) (seq : f ≠ .seq) (hist : f ≠ .hist) :
    get f (gwEffect s a v) = get f s := by
  simp [gwEffect, pair, mir, sage, mem, seq, hist]
@[simp] theorem kpWrite_get {f : Part} (s : State) (a b mask : Nat) (v : Word) (sage : f ≠ .sage) (regs : f ≠ .regs)
    (hist : f ≠ .hist) (blk : f ≠ .blk) :
    get f (kpWrite s a b mask v) = get f s := by
  simp [kpWrite, sage, regs, hist, blk]
@[simp] theorem overrun_get {f : Part} (s : State) (k : Nat) (sage : f ≠ .sage) (blk : f ≠ .blk) :
    get f (overrun s k) = get f s := by
  simp [overrun, sage, blk]
@[simp] theorem mirTake_get {f : Part} (full : Bool) (l : List MirSrc) (s : State) (mir : f ≠ .mir) :
    get f (mirTake full l s).2 = get f s := by
  induction l generalizing s with
  | nil => rfl
  | cons x l ih =>
    unfold mirTake
    dsimp only
    split
    · simp [ih, mir]
    · rfl
@[simp] theorem mirFill_get {f : Part} (s : State) (mir : f ≠ .mir) : get f (mirFill s) = get f s := by
  unfold mirFill
  dsimp only
  split <;> simp [mir]
@[simp] theorem syncHeartbeat_get {f : Part} (s : State) (compat : Byte) (locked : Bool) (stageOpen : f ≠ .stageOpen)
    (suspect : f ≠ .suspect) (ports : f ≠ .ports) (pair : f ≠ .pair) (mir : f ≠ .mir) (vcp : f ≠ .vcp)
        (run : f ≠ .run) (sage : f ≠ .sage) (stg : f ≠ .stg) (hist : f ≠ .hist) (auto : f ≠ .auto) :
    get f (syncHeartbeat s compat locked) = get f s := by
  simp [syncHeartbeat, stageOpen, suspect, ports, pair, mir, vcp, run, sage, stg, hist, auto]
@[simp] theorem acceptCmd_get {f : Part} (s : State) (q : Queued) (ports : f ≠ .ports) (mir : f ≠ .mir)
    (vcp : f ≠ .vcp) (run : f ≠ .run) (mgA : f ≠ .mgA) (mgB : f ≠ .mgB) (sage : f ≠ .sage) (flash : f ≠ .flash)
        (fresh : f ≠ .fresh) :
    get f (acceptCmd s q) = get f s := by
  unfold acceptCmd
  dsimp only
  (repeat' split) <;> simp [ports, mir, vcp, run, mgA, mgB, sage, flash, fresh]
@[simp] theorem endAct_get {f : Part} (s : State) (e : EndAct) (grps : f ≠ .grps) (seq : f ≠ .seq) (thy : f ≠ .thy)
    (vcp : f ≠ .vcp) : get f (endAct s e).1 = get f s := by
  cases e <;> simp [endAct, grps, seq, thy, vcp]
@[simp] theorem endOf_get {f : Part} (s : State) (q : Run) (grps : f ≠ .grps) (seq : f ≠ .seq) (thy : f ≠ .thy)
    (vcp : f ≠ .vcp) : get f (endOf s q).1 = get f s := by
  unfold endOf
  split <;> simp [grps, seq, thy, vcp]
@[simp] theorem denied_get {f : Part} (s : State) (d : Byte) (vcp : f ≠ .vcp) (run : f ≠ .run) :
    get f (denied s d) = get f s := by
  simp [denied, vcp, run]
@[simp] theorem flashFail_get {f : Part} (s : State) (vcp : f ≠ .vcp) (run : f ≠ .run) :
    get f (flashFail s) = get f s := by
  simp [flashFail, vcp, run]
@[simp] theorem savedOnce_get {f : Part} (s : State) (flash : f ≠ .flash) :
    get f (savedOnce s) = get f s := by
  simp [savedOnce, flash]
@[simp] theorem revertViews_get {f : Part} (s : State) (mask : BitVec 8) (mir : f ≠ .mir) (stg : f ≠ .stg) :
    get f (revertViews s mask) = get f s := by
  simp [revertViews, mir, stg]
@[simp] theorem clearSuspect_get {f : Part} (s : State) (mask : BitVec 8) (stageOpen : f ≠ .stageOpen)
    (suspect : f ≠ .suspect) (mir : f ≠ .mir) :
    get f (clearSuspect s mask) = get f s := by
  simp [clearSuspect, stageOpen, suspect, mir]
@[simp] theorem cfgCapture_get {f : Part} (s : State) (cfgSave : f ≠ .cfgSave) (vcp : f ≠ .vcp) (run : f ≠ .run)
    (flash : f ≠ .flash) :
    get f (cfgCapture s) = get f s := by
  unfold cfgCapture
  split <;> simp [cfgSave, vcp, run, flash]
@[simp] theorem linkLoss_get {f : Part} (s : State) (b : Bool) (mgA : f ≠ .mgA) (mgB : f ≠ .mgB) (sage : f ≠ .sage)
    (hist : f ≠ .hist) :
    get f (linkLoss s b) = get f s := by
  simp [linkLoss, mgA, mgB, sage, hist]
@[simp] theorem xMgLinkDown_get {f : Part} (b : Bool) (s : State) (mgA : f ≠ .mgA) (mgB : f ≠ .mgB) (sage : f ≠ .sage)
    (hist : f ≠ .hist) :
    get f (xMgLinkDown b s) = get f s := by
  simp [xMgLinkDown, mgA, mgB, sage, hist]
@[simp] theorem linkUp_get {f : Part} (s : State) (b : Bool) (mode speed : Nat) (mgA : f ≠ .mgA) (mgB : f ≠ .mgB)
    (sage : f ≠ .sage) (hist : f ≠ .hist) :
    get f (linkUp s b mode speed) = get f s := by
  simp [linkUp, mgA, mgB, sage, hist]
@[simp] theorem limitsFrame_get {f : Part} (s : State) (b : Bool) (mgA : f ≠ .mgA) (mgB : f ≠ .mgB) (sage : f ≠ .sage)
    (hist : f ≠ .hist) :
    get f (limitsFrame s b) = get f s := by
  simp [limitsFrame, mgA, mgB, sage, hist]
@[simp] theorem mdioNext_get {f : Part} (s : State) (mgSh : f ≠ .mgSh) :
    get f (mdioNext s) = get f s := by
  unfold mdioNext
  split <;> simp [mgSh]
@[simp] theorem rsStart_get {f : Part} (s : State) (b : Bool) (l : List Nat) (mgSh : f ≠ .mgSh) :
    get f (rsStart s b l) = get f s := by
  simp [rsStart, mgSh]
@[simp] theorem rsStep_get {f : Part} (s : State) (b : Bool) (to_ k : Nat) (mgA : f ≠ .mgA) (mgB : f ≠ .mgB)
    (mgSh : f ≠ .mgSh) (sage : f ≠ .sage) (hist : f ≠ .hist) :
    get f (rsStep s b to_ k) = get f s := by
  simp [rsStep, mgA, mgB, mgSh, sage, hist]
@[simp] theorem rateStepUp_get {f : Part} (s : State) (b : Bool) (mgA : f ≠ .mgA) (mgB : f ≠ .mgB) (mgSh : f ≠ .mgSh)
    (sage : f ≠ .sage) (hist : f ≠ .hist) :
    get f (rateStepUp s b) = get f s := by
  simp [rateStepUp, mgA, mgB, mgSh, sage, hist]
@[simp] theorem settingsFrame_get {f : Part} (s : State) (b : Bool) (mgA : f ≠ .mgA) (mgB : f ≠ .mgB)
    (sage : f ≠ .sage) (hist : f ≠ .hist) :
    get f (settingsFrame s b) = get f s := by
  simp [settingsFrame, mgA, mgB, sage, hist]
@[simp] theorem mgFrame_get {f : Part} (s : State) (b : Bool) (mgA : f ≠ .mgA) (mgB : f ≠ .mgB) (sage : f ≠ .sage)
    (hist : f ≠ .hist) :
    get f (mgFrame s b) = get f s := by
  simp [mgFrame, mgA, mgB, sage, hist]
@[simp] theorem mgmtFrame_get {f : Part} (s : State) (mgA : f ≠ .mgA) (mgB : f ≠ .mgB) (mgSh : f ≠ .mgSh)
    (sage : f ≠ .sage) (hist : f ≠ .hist) :
    get f (mgmtFrame s) = get f s := by
  simp [mgmtFrame, mgA, mgB, mgSh, sage, hist]
@[simp] theorem mgEpoch_get {f : Part} (s : State) (b : Bool) (mgA : f ≠ .mgA) (mgB : f ≠ .mgB) (mgSh : f ≠ .mgSh)
    (sage : f ≠ .sage) (hist : f ≠ .hist) :
    get f (mgEpoch s b) = get f s := by
  simp [mgEpoch, mgA, mgB, mgSh, sage, hist]
@[simp] theorem mgmtEpoch_get {f : Part} (s : State) (mgA : f ≠ .mgA) (mgB : f ≠ .mgB) (mgSh : f ≠ .mgSh)
    (sage : f ≠ .sage) (hist : f ≠ .hist) :
    get f (mgmtEpoch s) = get f s := by
  simp [mgmtEpoch, mgA, mgB, mgSh, sage, hist]
@[simp] theorem pinLatch_get {f : Part} (s : State) (n : Nat) (pins : f ≠ .pins) :
    get f (pinLatch s n) = get f s := by
  simp [pinLatch, pins]
@[simp] theorem pinsFrame_get {f : Part} (s : State) (contacts : BitVec 16) (pins : f ≠ .pins) :
    get f (pinsFrame s contacts) = get f s := by
  simp [pinsFrame, pins]
@[simp] theorem bwEpoch_get {f : Part} (s : State) (p : Nat) (ports : f ≠ .ports) :
    get f (bwEpoch s p) = get f s := by
  unfold bwEpoch
  split <;> simp [ports]
@[simp] theorem sageFrameEnd_get {f : Part} (s : State) (sage : f ≠ .sage) (hist : f ≠ .hist) (fresh : f ≠ .fresh) :
    get f (sageFrameEnd s) = get f s := by
  unfold sageFrameEnd
  extract_lets g s1
  have k1 : get f s1 = get f s := (get_fresh _ _ fresh).trans (onSage_get _ _ sage)
  split
  · exact (trace_get (sage := sage) (hist := hist) ..).trans ((onSage_get _ _ sage).trans k1)
  · exact k1
@[simp] theorem overheadFrame_get {f : Part} (s : State) (p : Nat) (ports : f ≠ .ports) :
    get f (overheadFrame s p) = get f s := by
  simp [overheadFrame, ports]
@[simp] theorem clientFrame_get {f : Part} (s : State) (p : Nat) (ports : f ≠ .ports) :
    get f (clientFrame s p) = get f s := by
  unfold clientFrame
  dsimp only
  (repeat' split) <;> simp [ports]
@[simp] theorem evalAps_get {f : Part} (s : State) (g : Nat) (ports : f ≠ .ports) (map : f ≠ .map) (mapA : f ≠ .mapA)
    (mapB : f ≠ .mapB) (mapEcc : f ≠ .mapEcc) (mapScrub : f ≠ .mapScrub) (mapSel : f ≠ .mapSel) (grps : f ≠ .grps)
        (sage : f ≠ .sage) (hist : f ≠ .hist) :
    get f (evalAps s g) = get f s := by
  simp [evalAps, ports, map, mapA, mapB, mapEcc, mapScrub, mapSel, grps, sage, hist]
@[simp] theorem grpMirrored_get {f : Part} (s : State) (g : Nat) (map : f ≠ .map) (mapA : f ≠ .mapA)
    (mapB : f ≠ .mapB) (mapEcc : f ≠ .mapEcc) (mapScrub : f ≠ .mapScrub) (mapSel : f ≠ .mapSel) (grps : f ≠ .grps) :
    get f (grpMirrored s g) = get f s := by
  simp [grpMirrored, map, mapA, mapB, mapEcc, mapScrub, mapSel, grps]
@[simp] theorem protFrame_get {f : Part} (s : State) (ports : f ≠ .ports) (map : f ≠ .map) (mapA : f ≠ .mapA)
    (mapB : f ≠ .mapB) (mapEcc : f ≠ .mapEcc) (mapScrub : f ≠ .mapScrub) (mapSel : f ≠ .mapSel) (grps : f ≠ .grps)
        (sage : f ≠ .sage) (hist : f ≠ .hist) :
    get f (protFrame s) = get f s := by
  simp [protFrame, ports, map, mapA, mapB, mapEcc, mapScrub, mapSel, grps, sage, hist]
@[simp] theorem saveFrame_get {f : Part} (s : State) (cfgSave : f ≠ .cfgSave) (vcp : f ≠ .vcp) (run : f ≠ .run)
    (flash : f ≠ .flash) :
    get f (saveFrame s) = get f s := by
  unfold saveFrame
  split <;> simp [cfgSave, vcp, run, flash]
@[simp] theorem fecIn_get {f : Part} (s : State) (i : Nat × Nat × Nat × Nat × Nat) (ports : f ≠ .ports)
    (sage : f ≠ .sage) (hist : f ≠ .hist) :
    get f (fecIn s i) = get f s := by
  simp [fecIn, ports, sage, hist]
@[simp] theorem esmcEpoch_get {f : Part} (s : State) (p : Nat) (ports : f ≠ .ports) :
    get f (esmcEpoch s p) = get f s := by
  simp [esmcEpoch, ports]
@[simp] theorem apsEpoch_get {f : Part} (s : State) (g : Nat) (grps : f ≠ .grps) :
    get f (apsEpoch s g) = get f s := by
  simp [apsEpoch, grps]
@[simp] theorem relayEpoch_get {f : Part} (s : State) (vcp : f ≠ .vcp) (sage : f ≠ .sage) (hist : f ≠ .hist) :
    get f (relayEpoch s) = get f s := by
  simp [relayEpoch, vcp, sage, hist]
@[simp] theorem stage_get {f : Part} (s : State) (a : Nat) (v : Nat) (mir : f ≠ .mir) (stg : f ≠ .stg) :
    get f (stage s a v) = get f s := by
  simp [stage, mir, stg]
@[simp] theorem stageList_get {f : Part} (s : State) (l : List (Nat × Nat)) (mir : f ≠ .mir) (stg : f ≠ .stg) :
    get f (stageList s l) = get f s := by
  simp [stageList, mir, stg]
@[simp] theorem setBank2_get {f : Part} (s : State) (memory b : Nat) (x : BankSt) (mem : f ≠ .mem) :
    get f (setBank2 s memory b x) = get f s := by
  simp [setBank2, mem]
@[simp] theorem loseContent_get {f : Part} (s : State) (memory b : Nat) (mem : f ≠ .mem) (fresh : f ≠ .fresh) :
    get f (loseContent s memory b) = get f s := by
  unfold loseContent
  split_ifs
  · exact (get_fresh _ _ fresh).trans (onMem_get _ _ mem)
  · exact (get_fresh _ _ fresh).trans (onMem_get _ _ mem)
  · rfl
@[simp] theorem cutOpcode_get {f : Part} (s : State) (fresh : f ≠ .fresh) :
    get f (cutOpcode s).2 = get f s := by
  unfold cutOpcode
  split <;> simp [fresh]
@[simp] theorem failPairs_get {f : Part} (s : State) (sage : f ≠ .sage) (regs : f ≠ .regs) (hist : f ≠ .hist)
    (pairs : f ≠ .pairs) :
    get f (failPairs s) = get f s := by
  simp [failPairs, sage, regs, hist, pairs]
@[simp] theorem suspectOpen_get {f : Part} (s : State) (stageOpen : f ≠ .stageOpen) (suspect : f ≠ .suspect)
    (cfgSave : f ≠ .cfgSave) (mir : f ≠ .mir) (hist : f ≠ .hist) :
    get f (suspectOpen s) = get f s := by
  simp [suspectOpen, stageOpen, suspect, cfgSave, mir, hist]
@[simp] theorem cutRun_get {f : Part} (s : State) (vcp : f ≠ .vcp) (run : f ≠ .run) (seq : f ≠ .seq) :
    get f (cutRun s) = get f s := by
  unfold cutRun
  split <;> simp [vcp, run, seq]
@[simp] theorem cutResync_get {f : Part} (s : State) (stageOpen : f ≠ .stageOpen) (suspect : f ≠ .suspect)
    (ports : f ≠ .ports) (pair : f ≠ .pair) (mir : f ≠ .mir) (sage : f ≠ .sage) (stg : f ≠ .stg) (hist : f ≠ .hist)
        (auto : f ≠ .auto) :
    get f (cutResync s) = get f s := by
  simp [cutResync, stageOpen, suspect, ports, pair, mir, sage, stg, hist, auto]
@[simp] theorem seqReset_get {f : Part} (cause : Nat) (s : State) (stageOpen : f ≠ .stageOpen)
    (suspect : f ≠ .suspect) (cfgSave : f ≠ .cfgSave) (ports : f ≠ .ports) (pair : f ≠ .pair) (mir : f ≠ .mir)
        (vcp : f ≠ .vcp) (run : f ≠ .run) (sage : f ≠ .sage) (mem : f ≠ .mem) (seq : f ≠ .seq) (regs : f ≠ .regs)
            (stg : f ≠ .stg) (hist : f ≠ .hist) (pairs : f ≠ .pairs) (auto : f ≠ .auto) (fresh : f ≠ .fresh) :
    get f (seqReset cause s) = get f s := by
  simp [seqReset, stageOpen, suspect, cfgSave, ports, pair, mir, vcp, run, sage, mem, seq, regs, stg, hist, pairs, auto, fresh]

/-! The frames of the statements, from the parts that change. -/

/-- The part's value of the second where it is listed, of the first otherwise. -/
def pick {α : Type} (l : List Part) (f : Part) (x y : α) : α := if l.contains f then y else x

/-- The first state with the listed parts of the second. -/
def withParts (l : List Part) (s t : State) : State where
  pending := pick l .pending s.pending t.pending
  sfp := pick l .sfp s.sfp t.sfp
  phase := pick l .phase s.phase t.phase
  pwr := pick l .pwr s.pwr t.pwr
  thy := { pick l .thy s.thy t.thy with cands := pick l .cands s.thy.cands t.thy.cands }
  com := { pick l .com s.com t.com with
    ents := pick l .ents s.com.ents t.com.ents, stageOpen := pick l .stageOpen s.com.stageOpen t.com.stageOpen
    suspect := pick l .suspect s.com.suspect t.com.suspect, frozenWr := pick l .frozenWr s.com.frozenWr t.com.frozenWr
    snaps := pick l .snaps s.com.snaps t.com.snaps, cfgSave := pick l .cfgSave s.com.cfgSave t.com.cfgSave
    lastEpoch := pick l .lastEpoch s.com.lastEpoch t.com.lastEpoch }
  ports := pick l .ports s.ports t.ports
  chks := pick l .chks s.chks t.chks
  map := { pick l .map s.map t.map with
    a := pick l .mapA s.map.a t.map.a, b := pick l .mapB s.map.b t.map.b, ecc := pick l .mapEcc s.map.ecc t.map.ecc
    scrub := pick l .mapScrub s.map.scrub t.map.scrub, selPass := pick l .mapSel s.map.selPass t.map.selPass
    selAt := pick l .mapSel s.map.selAt t.map.selAt }
  grps := pick l .grps s.grps t.grps
  pair := pick l .pair s.pair t.pair
  mir := pick l .mir s.mir t.mir
  vcp := { pick l .vcp s.vcp t.vcp with run := pick l .run s.vcp.run t.vcp.run }
  mgA := pick l .mgA s.mgA t.mgA
  mgB := pick l .mgB s.mgB t.mgB
  mgSh := pick l .mgSh s.mgSh t.mgSh
  sage := pick l .sage s.sage t.sage
  mem := pick l .mem s.mem t.mem
  seq := pick l .seq s.seq t.seq
  flash := pick l .flash s.flash t.flash
  regs := { pick l .regs s.regs t.regs with
    act := pick l .act s.regs.act t.regs.act, stg := pick l .stg s.regs.stg t.regs.stg
    hist := pick l .hist s.regs.hist t.regs.hist, gw := pick l .gw s.regs.gw t.regs.gw
    pairs := pick l .pairs s.regs.pairs t.regs.pairs, posted := pick l .posted s.regs.posted t.regs.posted
    resp := pick l .resp s.regs.resp t.regs.resp, rdata := pick l .rdata s.regs.rdata t.regs.rdata
    wide := pick l .wide s.regs.wide t.regs.wide, blk := pick l .blk s.regs.blk t.regs.blk }
  pins := pick l .pins s.pins t.pins
  auto := pick l .auto s.auto t.auto
  frameDone := pick l .frameDone s.frameDone t.frameDone
  epochDone := pick l .epochDone s.epochDone t.epochDone
  fresh := pick l .fresh s.fresh t.fresh

theorem get_withParts (l : List Part) (s t : State) (f : Part) : get f (withParts l s t) = if l.contains f then get f t else get f s := by
  cases f <;> simp only [withParts, get, pick] <;> split <;> rfl

/-- Where at most the listed parts change, the outcome is the state with these parts of it: for a list that is written
out, the frame of a statement. -/
theorem Only.frame {l : List Part} {s t : State} (h : Only l s t) : t = withParts l s t := by
  refine ext_get fun f => ?_
  rw [get_withParts]
  split
  · rfl
  · next out => exact h f (by simpa using out)

theorem onlyThyme_of_only {s t : State} (words : OnlyWords s t) (h : Only [.thy, .cands, .ports, .mir, .sage, .hist] s t) :
    OnlyThyme s t := ⟨words, h.frame⟩

/-! Overhead words. -/

theorem OnlyWords.of_ports {s t : State} (h : t.ports = s.ports) : OnlyWords s t := fun p => by
  have same : portOf t p = portOf s p := by rw [portOf, portOf, h]
  rw [same]

theorem OnlyWords.trans {s u t : State} (h : OnlyWords s u) (k : OnlyWords u t) : OnlyWords s t := fun p => by
  rw [k p, h p]

theorem OnlyWords.forEach {α : Type} (l : List α) (s : State) (g : State → α → State) (h : ∀ t x, OnlyWords t (g t x)) :
    OnlyWords s (forEach l s g) :=
  forEach_keeps (OnlyWords s) l s g (.of_ports rfl) fun t x k => k.trans (h t x)

theorem portOf_onPort (s : State) (p q : Nat) (g : PortSt → PortSt) :
    portOf (onPort s p g) q = if q = p then g (portOf s p) else portOf s q := tget_tput _ _ _ _ _

@[simp] theorem portOf_onPort_same (s : State) (p : Nat) (g : PortSt → PortSt) :
    portOf (onPort s p g) p = g (portOf s p) := tget_tput_same _ _ _ _

theorem portOf_onPort_ne (s : State) {p q : Nat} (g : PortSt → PortSt) (h : q ≠ p) :
    portOf (onPort s p g) q = portOf s q := tget_tput_ne _ _ _ h

@[simp] theorem portOf_onClient_same (s : State) (p : Nat) (g : ClientSt → ClientSt) :
    portOf (onClient s p g) p = { portOf s p with client := g (portOf s p).client } := portOf_onPort_same _ _ _

theorem portOf_onClient_ne (s : State) {p q : Nat} (g : ClientSt → ClientSt) (h : q ≠ p) :
    portOf (onClient s p g) q = portOf s q := portOf_onPort_ne _ _ h

@[simp] theorem portOf_onTrunk_same (s : State) (p : Nat) (g : TrunkSt → TrunkSt) :
    portOf (onTrunk s p g) p = { portOf s p with trunk := g (portOf s p).trunk } := portOf_onPort_same _ _ _

theorem portOf_onTrunk_ne (s : State) {p q : Nat} (g : TrunkSt → TrunkSt) (h : q ≠ p) :
    portOf (onTrunk s p g) q = portOf s q := portOf_onPort_ne _ _ h

@[simp] theorem portOf_count (s : State) (b i n p : Nat) : portOf (count s b i n) p = portOf s p := rfl
@[simp] theorem portOf_cPort (s : State) (q i n p : Nat) : portOf (cPort s q i n) p = portOf s p := rfl
@[simp] theorem portOf_cThy (s : State) (i p : Nat) : portOf (cThy s i) p = portOf s p := rfl
@[simp] theorem portOf_trace (s : State) (c u o : Nat) (d : Bytes) (p : Nat) : portOf (trace s c u o d) p = portOf s p := rfl
@[simp] theorem portOf_sticky (s : State) (a : Nat) (m : Word) (p : Nat) : portOf (sticky s a m) p = portOf s p := rfl

@[simp] theorem ctrVal_onPort (s : State) (p : Nat) (g : PortSt → PortSt) (b i : Nat) :
    ctrVal (onPort s p g) b i = ctrVal s b i := rfl
@[simp] theorem ctrVal_onClient (s : State) (p : Nat) (g : ClientSt → ClientSt) (b i : Nat) :
    ctrVal (onClient s p g) b i = ctrVal s b i := rfl
@[simp] theorem ctrVal_onTrunk (s : State) (p : Nat) (g : TrunkSt → TrunkSt) (b i : Nat) :
    ctrVal (onTrunk s p g) b i = ctrVal s b i := rfl

theorem sendWords_onlyWords (s : State) (p : Nat) : OnlyWords s (sendWords s p) := fun q => by
  rw [sendWords, portOf_onPort]
  split
  · next same => rw [same]
  · rfl

theorem resend_onlyWords (s : State) : OnlyWords s (resend s) := by
  unfold resend
  split
  · refine .forEach _ _ _ fun t p => ?_
    split
    · exact sendWords_onlyWords t p
    · exact .of_ports rfl
  · exact .of_ports rfl

/-! Parts whole again. -/

theorem thy_of_get {s t : State} (rest : get .thy t = get .thy s) (cands : get .cands t = get .cands s) : t.thy = s.thy :=
  thySt_ext rest cands

theorem actv_of_get {s t : State} (h : get .act t = get .act s) : actv t = actv s := by
  funext a
  exact congrArg (fun x : Tbl Word => tget (regReset a) x a) h

theorem candOf_of_get {s t : State} (h : get .cands t = get .cands s) (c : Nat) : candOf t c = candOf s c :=
  congrArg (fun x : Tbl CandSt => tget ({} : CandSt) x c) h

theorem portOf_of_get {s t : State} (h : get .ports t = get .ports s) (p : Nat) : portOf t p = portOf s p :=
  congrArg (fun x : Tbl PortSt => tget ({} : PortSt) x p) h

theorem grpOf_of_get {s t : State} (h : get .grps t = get .grps s) (g : Nat) : grpOf t g = grpOf s g :=
  congrArg (fun x : Tbl GrpSt => tget ({} : GrpSt) x g) h

/-! Sticky bits. -/

@[simp] theorem hist_sticky_same (s : State) (a : Nat) (m : Word) : hist (sticky s a m) a = hist s a ||| m :=
  tget_tput_same _ _ _ _

theorem hist_sticky_ne (s : State) {a b : Nat} (m : Word) (h : b ≠ a) : hist (sticky s a m) b = hist s b :=
  tget_tput_ne _ _ _ h

theorem bit_sticky {m : Word} {i : Nat} (h : bit m i = true) (s : State) (a : Nat) : bit (hist (sticky s a m) a) i = true := by
  rw [hist_sticky_same]
  simp only [bit, BitVec.getLsbD_or, Bool.or_eq_true] at *
  exact .inr h

theorem bit_hist_sticky {s : State} {a i : Nat} (h : bit (hist s a) i = true) (b : Nat) (m : Word) :
    bit (hist (sticky s b m) a) i = true := by
  rcases eq_or_ne a b with rfl | apart
  · rw [hist_sticky_same]
    simp only [bit, BitVec.getLsbD_or, Bool.or_eq_true] at *
    exact .inl h
  · rwa [hist_sticky_ne _ _ apart]

/-- A record sets at most a sticky bit of Sage. -/
theorem bit_hist_traceRec {s : State} {a i : Nat} (h : bit (hist s a) i = true) (r : TraceRec) :
    bit (hist (traceRec s r) a) i = true := by
  by_cases full : 1024 ≤ s.sage.fifo.length
  · have set : hist (traceRec s r) a = hist (sticky s hSage 1) a := by simp [hist, traceRec, full, sticky]
    rw [set]
    exact bit_hist_sticky h _ _
  · have same : hist (traceRec s r) a = hist s a := by simp [hist, traceRec, full]
    rwa [same]

theorem bit_hist_trace {s : State} {a i : Nat} (h : bit (hist s a) i = true) (c u o : Nat) (d : Bytes) :
    bit (hist (trace s c u o d) a) i = true := bit_hist_traceRec h _

theorem hist_of_get {s t : State} (h : get .hist t = get .hist s) (a : Nat) : hist t a = hist s a :=
  congrArg (tget 0 · a) h

/-! Counters. -/

theorem ctrVal_of_get {s t : State} (h : get .sage t = get .sage s) (b i : Nat) : ctrVal t b i = ctrVal s b i :=
  congrArg (fun x : SageSt => tget 0 x.ctr (b * 65536 + i)) h

theorem ctrVal_count_ne (s : State) {b i b' i' : Nat} (n : Nat) (h : b' * 65536 + i' ≠ b * 65536 + i) :
    ctrVal (count s b i n) b' i' = ctrVal s b' i' := by
  rw [ctrVal_count, if_neg fun k => h k.1]

theorem ctrVal_trace (s : State) (c u o : Nat) (d : Bytes) {b i : Nat} (h : b * 65536 + i ≠ 8 * 65536 + 1)
    (h' : b * 65536 + i ≠ 8 * 65536 + 7) : ctrVal (trace s c u o d) b i = ctrVal s b i := ctrVal_traceRec s _ b i h h'

theorem ctrVal_cPort_same (s : State) (p i : Nat) : ctrVal (cPort s p i 1) (0x100 + p) i = (ctrVal s (0x100 + p) i + 1) % 2 ^ 64 :=
  counted_count s (0x100 + p) i

theorem ctrVal_cThy_same (s : State) (i : Nat) : ctrVal (cThy s i) 5 i = (ctrVal s 5 i + 1) % 2 ^ 64 := counted_count s 5 i

/-- A port's counter is none of a block's. -/
theorem ctrVal_cPort_block (s : State) (p i n : Nat) {b j : Nat} (hb : b < 0x100) (hj : j < 65536) :
    ctrVal (cPort s p i n) b j = ctrVal s b j := ctrVal_count_ne s n (by omega)

theorem ctrVal_count_port (s : State) {b i : Nat} (n p j : Nat) (hb : b < 0x100) (hi : i < 65536) :
    ctrVal (count s b i n) (0x100 + p) j = ctrVal s (0x100 + p) j := ctrVal_count_ne s n (by omega)

theorem ctrVal_cThy_port (s : State) {i : Nat} (p j : Nat) (hi : i < 65536) :
    ctrVal (cThy s i) (0x100 + p) j = ctrVal s (0x100 + p) j := ctrVal_count_port s 1 p j (by omega) hi

/-! Rows of a module that has power, and of boundaries. -/

theorem liveFrame_on {s : State} (on : powered s = true) (boundary : isFrame s.sfp = true) (t : State) :
    liveFrame s t = t := by simp [liveFrame, on, boundary]

theorem liveEpoch_on {s : State} (on : powered s = true) (boundary : isEpoch s.sfp = true) (t : State) :
    liveEpoch s t = t := by simp [liveEpoch, on, boundary]

end Sys2Proof.Machine
end

section
/-! Thyme: qualification, selection, the DPLL, its measurements and the timing commands at their boundary (O3 to O9). -/

namespace Sys2Proof.Machine

open Sys2Proof

/-! Qualification of the timing candidates (R40 to R42). -/

theorem reselect_only (s : State) : Only [.thy, .ports, .mir, .sage, .hist] s (reselect s) := fun f out => by
  simp at out
  simp [out]

theorem reselect_cands (s : State) : (reselect s).thy.cands = s.thy.cands := reselect_only s .cands (by decide)

theorem reselect_onlyWords (s : State) : OnlyWords s (reselect s) := by
  unfold reselect
  split
  · exact .of_ports rfl
  · refine OnlyWords.trans (.of_ports ?_) (resend_onlyWords _)
    show get .ports _ = get .ports s
    simp

/-- Selection after the change of one candidate leaves every other one's state. -/
theorem reselect_onCand (s : State) (c : Nat) (g : CandSt → CandSt) :
    (reselect (onCand s c g)).thy.cands = tput {} s.thy.cands c (g (candOf s c)) ∧
    OnlyThyme s (reselect (onCand s c g)) := by
  refine ⟨reselect_cands _, onlyThyme_of_only (reselect_onlyWords (onCand s c g)) (fun f out => ?_)⟩
  simp at out
  simp [out]

/-- Settles O3: each of the three rows meets its condition and is one change of its candidate, then selection. -/
theorem candidateQualification : Obligations.CandidateQualification := by
  unfold Obligations.CandidateQualification
  intro c s on boundary en
  refine ⟨fun fault qualified hold => ?_, fun disq fault wtr => ?_, fun disq fault qualified qual => ?_⟩
  · have row : exec (.candidateHoldoffExpire c) s = .next (reselect (onCand s c (fun x =>
        { x with qualified := false, disq := true, hold := none, wtr := none }))) := by
      simp [exec, execCandidateHoldoffExpire, liveFrame_on on boundary, xCandidateHoldoffExpire, en, fault, qualified, hold]
    exact ⟨_, row, reselect_onCand s c _⟩
  · have row : exec (.candidateWtrExpire c) s = .next (reselect (onCand s c (fun x =>
        { x with qualified := true, disq := false, wtr := none }))) := by
      simp [exec, execCandidateWtrExpire, liveFrame_on on boundary, xCandidateWtrExpire, en, disq, fault, wtr]
    exact ⟨_, row, reselect_onCand s c _⟩
  · have row : exec (.candidateQualified c) s = .next (reselect (onCand s c (fun x =>
        { x with qualified := true, qual := none }))) := by
      simp [exec, execCandidateQualified, liveFrame_on on boundary, xCandidateQualified, en, disq, fault, qualified, qual]
    exact ⟨_, row, reselect_onCand s c _⟩

/-! Selection (R43, R44). -/

/-- The QL rank of a candidate, which counts in QL mode alone (R44). -/
def rankOf (s : State) (c : Nat) : Nat := if tSelMode (actv s) then 0 else qlRank (effQl s c)

/-- The order of selection as a triple: QL rank, PRIORITY, number. -/
theorem candBefore_iff (s : State) (a b : Nat) : candBefore s a b = true ↔
    rankOf s a < rankOf s b ∨ rankOf s a = rankOf s b ∧
      (cPrio (actv s) a < cPrio (actv s) b ∨ cPrio (actv s) a = cPrio (actv s) b ∧ a < b) := by
  have unfolded : candBefore s a b = if rankOf s a ≠ rankOf s b then decide (rankOf s a < rankOf s b)
      else if cPrio (actv s) a ≠ cPrio (actv s) b then decide (cPrio (actv s) a < cPrio (actv s) b)
      else decide (a < b) := rfl
  rw [unfolded]
  split_ifs <;> simp only [decide_eq_true_eq] <;> omega

theorem candBefore_trans {s : State} {a b c : Nat} (h : candBefore s a b = true) (k : candBefore s b c = true) :
    candBefore s a c = true := by
  rw [candBefore_iff] at *
  omega

theorem candBefore_total (s : State) {a b : Nat} (h : a ≠ b) : candBefore s a b = true ∨ candBefore s b a = true := by
  rw [candBefore_iff, candBefore_iff]
  omega

/-- The best of a candidate and a list. -/
theorem bestFrom_best (s : State) (l : List Nat) (b : Nat) :
    ∃ m, l.foldl (fun best c => match best with
        | some b => if candBefore s c b then some c else some b
        | none => some c) (some b) = some m ∧ (m = b ∨ m ∈ l) ∧ ∀ d, d = b ∨ d ∈ l → d ≠ m → candBefore s m d = true := by
  induction l generalizing b with
  | nil => exact ⟨b, rfl, .inl rfl, fun d from_ other => absurd (from_.resolve_right (by simp)) other⟩
  | cons c l ih =>
    simp only [List.foldl_cons]
    by_cases before : candBefore s c b = true
    · obtain ⟨m, eq, from_, best⟩ := ih c
      refine ⟨m, by rw [if_pos before, eq], .inr (by simpa using from_), fun d some_ other => ?_⟩
      rcases some_ with rfl | later
      · rcases eq_or_ne c m with rfl | apart
        · exact before
        · exact candBefore_trans (best c (.inl rfl) apart) before
      · exact best d (by simpa using later) other
    · obtain ⟨m, eq, from_, best⟩ := ih b
      refine ⟨m, by rw [if_neg before, eq], by simp only [List.mem_cons]; tauto, fun d some_ other => ?_⟩
      rcases some_ with first | later
      · exact best d (.inl first) other
      · rcases List.mem_cons.mp later with rfl | later
        · rcases eq_or_ne b d with rfl | apart
          · exact best _ (.inl rfl) other
          · have behind := (candBefore_total s apart).resolve_right before
            rcases eq_or_ne b m with rfl | apart
            · exact behind
            · exact candBefore_trans (best b (.inl rfl) apart) behind
        · exact best d (.inr later) other

/-- The best of a list: there is none exactly for the empty one. -/
theorem bestCand_best (s : State) (l : List Nat) :
    (bestCand s l = none ↔ l = []) ∧
    ∀ m, bestCand s l = some m → m ∈ l ∧ ∀ d ∈ l, d ≠ m → candBefore s m d = true := by
  cases l with
  | nil => exact ⟨by simp [bestCand], fun m h => by simp [bestCand] at h⟩
  | cons c l =>
    obtain ⟨m, eq, from_, best⟩ := bestFrom_best s l c
    have found : bestCand s (c :: l) = some m := eq
    refine ⟨by simp [found], fun n h => ?_⟩
    obtain rfl : m = n := by rw [found] at h; exact Option.some.inj h
    exact ⟨by simpa using from_, fun d listed => best d (by simpa using listed)⟩

/-- Without a force and without NONREVERT selection takes the best of the eligible candidates. -/
theorem choose_eq_bestCand {s : State} (force : s.thy.force = none) (revert : tNonrevert (actv s) = false) :
    choose s = bestCand s (freqCands.filter (eligible s)) := by
  simp only [choose, force, choose.chooseFree, revert, Bool.false_and, Bool.false_eq_true, if_false]
  split
  · next b _ found _ => exact found.symm
  · rfl

theorem mem_eligibles {s : State} {c : Nat} : c ∈ freqCands.filter (eligible s) ↔ c < 12 ∧ eligible s c = true := by
  simp [freqCands]

/-- Settles O4: the choice is the least of the eligible candidates in the order of selection. -/
theorem selectionChoosesBest : Obligations.SelectionChoosesBest := by
  unfold Obligations.SelectionChoosesBest
  intro s force revert
  obtain ⟨empty, best⟩ := bestCand_best s (freqCands.filter (eligible s))
  rw [choose_eq_bestCand force revert]
  refine ⟨?_, fun c chosen => ?_⟩
  · rw [empty, List.eq_nil_iff_forall_not_mem]
    simp only [mem_eligibles, not_and, Bool.not_eq_true]
  · obtain ⟨listed, least⟩ := best c chosen
    obtain ⟨below, ok⟩ := mem_eligibles.mp listed
    exact ⟨below, ok, fun d dBelow dOk => least d (mem_eligibles.mpr ⟨dBelow, dOk⟩)⟩

/-! Transitions of the DPLL (Table 03-2). -/

/-- A transition, its bandwidth and its overhead: Thyme is in the new state, its bit stands. -/
theorem transition_facts (s : State) (n : ThyState) :
    let t := resend (setBw (thyTo s n))
    t.thy = { s.thy with st := n, changedAt := some s.sfp, bwEff := t.thy.bwEff } ∧
      bit (hist t hThy) (thyCode n) = true ∧ OnlyThyme s t := by
  intro t
  have sent : get .thy t = get .thy (setBw (thyTo s n)) ∧ get .cands t = get .cands (setBw (thyTo s n)) ∧
      get .hist t = get .hist (thyTo s n) := by simp [t]
  obtain ⟨rest, cands, bits_⟩ := sent
  have thy : t.thy = { s.thy with st := n, changedAt := some s.sfp, bwEff := (setBw (thyTo s n)).thy.bwEff } :=
    thy_of_get rest cands
  have mark : bit (word (2 ^ thyCode n)) (thyCode n) = true := by cases n <;> decide
  refine ⟨by rw [thy], ?_, onlyThyme_of_only ?_ fun f out => ?_⟩
  · rw [hist_of_get bits_]
    unfold thyTo
    exact bit_hist_trace (s := onThy (sticky s hThy _) _) (bit_sticky mark s hThy) ..
  · exact OnlyWords.trans (.of_ports rfl) (resend_onlyWords _)
  · simp at out
    simp [t, out]

/-- Selection with a candidate to choose and no switch due here records at most the switch to make. -/
theorem selectEval_chosen {s : State} {c : Nat} (due : switchDue s = false) (chosen : choose s = some c) :
    ∃ n, selectEval s = onThy s (fun t => { t with next := n }) := by
  simp only [selectEval, due, chosen, Bool.false_eq_true, if_false]
  split
  · exact ⟨_, rfl⟩
  · exact ⟨_, rfl⟩

/-- There is a choice as long as a candidate is eligible. -/
theorem choose_isSome {s : State} {c : Nat} (below : c < 12) (ok : eligible s c = true) : ∃ d, choose s = some d := by
  have listed := mem_eligibles.mpr ⟨below, ok⟩
  obtain ⟨m, best⟩ : ∃ m, bestCand s (freqCands.filter (eligible s)) = some m := by
    refine Option.ne_none_iff_exists'.mp fun none_ => ?_
    rw [((bestCand_best s _).1.mp none_)] at listed
    exact absurd listed (by simp)
  have free : ∃ d, choose.chooseFree s (freqCands.filter (eligible s)) = some d := by
    simp only [choose.chooseFree, best]
    split
    · split
      · exact ⟨_, rfl⟩
      · exact ⟨_, rfl⟩
    · exact ⟨_, rfl⟩
  simp only [choose]
  split
  · split
    · exact ⟨_, rfl⟩
    · exact free
  · exact free

/-- The state that a switch leads to (Table 03-2). -/
def afterSwitch : ThyState → ThyState
  | .locked => .locked
  | _ => .acquiring

/-- A switch leaves the control value and the history. -/
theorem switchTo_thy (offset : Word) (c why : Nat) (s : State) :
    ∃ changed, (switchTo offset c why s).thy = { s.thy with
      ref := some c, next := none, refFault := false, pbo := offset, ivRefChange := true, lockRun := 0
      st := afterSwitch s.thy.st, changedAt := changed } := by
  unfold switchTo
  cases st : s.thy.st
  case locked => exact ⟨s.thy.changedAt, by simp only [trace_thy, cThy, count_thy, onThy_thy, st, afterSwitch]⟩
  case acquiring => exact ⟨s.thy.changedAt, by simp only [trace_thy, cThy, count_thy, onThy_thy, st, afterSwitch]⟩
  all_goals exact ⟨some s.sfp, rfl⟩

theorem counted_switchTo (offset : Word) (c why : Nat) (s : State) : Counted s (switchTo offset c why s) 5 0 := by
  have first : ∀ (u : State) (o : Nat) (d : Bytes), ctrVal (trace (cThy u 0) 2 2 o d) 5 0 = (ctrVal u 5 0 + 1) % 2 ^ 64 :=
    fun u o d => (ctrVal_trace _ _ _ _ _ (by decide) (by decide)).trans (counted_count u 5 0)
  have second : ∀ u : State, ctrVal (cThy u 1) 5 0 = ctrVal u 5 0 := fun u => ctrVal_count_ne u 1 (by decide)
  have third : ∀ u : State, ctrVal (thyTo u .acquiring) 5 0 = ctrVal u 5 0 := fun u =>
    ctrVal_trace _ _ _ _ _ (by decide) (by decide)
  unfold Counted switchTo
  dsimp only
  split <;> simp only [first, second, third] <;> rfl

theorem ctrVal_allDnuEval (s : State) : ctrVal (allDnuEval s) 5 0 = ctrVal s 5 0 := by
  unfold allDnuEval
  extract_lets q a s1
  split
  · exact ctrVal_count_ne s1 1 (by decide)
  · rfl

theorem allDnuEval_thy (s : State) : ∃ a, (allDnuEval s).thy = { s.thy with allDnu := a } := by
  unfold allDnuEval
  extract_lets q a s1
  split <;> exact ⟨a, rfl⟩

/-- What eligibility reads of a state, for a candidate without a fault. -/
theorem eligible_of_noFault {s t : State} {c : Nat} (act : get .act t = get .act s) (ports : get .ports t = get .ports s)
    (cands : get .cands t = get .cands s) (ql : t.thy.refinQl = s.thy.refinQl) (ok : eligible s c = true)
    (clear : (candOf s c).fault = false) : eligible t c = true := by
  have view := actv_of_get act
  have cand := candOf_of_get cands c
  have level : effQl t c = effQl s c := by simp only [effQl, view, portOf_of_get ports, ql]
  simp only [eligible, cand, clear, level, candEn, view] at *
  simpa using ok

/-- A switch to an eligible candidate without a fault, and the selection after it. -/
theorem refSwitch_facts {s : State} {c : Nat} (offset : Word) (why : Nat) (below : c < 12) (ok : eligible s c = true)
    (clear : (candOf s c).fault = false) :
    let t := resend (setBw (selectEval (allDnuEval (switchTo offset c why s))))
    t.thy.ref = some c ∧ t.thy.pbo = offset ∧ t.thy.st = afterSwitch s.thy.st ∧ Counted s t 5 0 ∧
      t.thy.ctl = s.thy.ctl ∧ t.thy.hist = s.thy.hist ∧ OnlyThyme s t := by
  intro t
  obtain ⟨changed, thy⟩ := switchTo_thy offset c why s
  obtain ⟨dnu, thy1⟩ := allDnuEval_thy (switchTo offset c why s)
  have still : eligible (allDnuEval (switchTo offset c why s)) c = true :=
    eligible_of_noFault (by simp) (by simp) (by simp) (by rw [thy1, thy]) ok clear
  obtain ⟨d, chosen⟩ := choose_isSome below still
  obtain ⟨n, selected⟩ := selectEval_chosen (by simp only [switchDue, thy1, thy]) chosen
  have tThy : t.thy = { (allDnuEval (switchTo offset c why s)).thy with next := n, bwEff := t.thy.bwEff } := by
    have sent : t.thy = (setBw (selectEval (allDnuEval (switchTo offset c why s)))).thy :=
      thy_of_get (by simp [t]) (by simp [t])
    rw [sent, selected]
    rfl
  rw [thy1, thy] at tThy
  refine ⟨by rw [tThy], by rw [tThy], by rw [tThy], ?_, by rw [tThy], by rw [tThy], onlyThyme_of_only ?_ fun f out => ?_⟩
  · have sage : get .sage t = get .sage (allDnuEval (switchTo offset c why s)) := by simp [t, selected]
    exact (ctrVal_of_get sage 5 0).trans ((ctrVal_allDnuEval _).trans (counted_switchTo offset c why s))
  · refine OnlyWords.trans (.of_ports ?_) (resend_onlyWords _)
    show get .ports _ = get .ports s
    simp
  · simp at out
    simp [t, out]

/-- Settles O5: lock and the budget's end are one transition each; the switch makes its candidate the reference, and with
it there is a choice, so that selection leaves the state. -/
theorem dpllTransitions : Obligations.DpllTransitions := by
  unfold Obligations.DpllTransitions
  intro s c why offset on boundary own
  have may : s.thy.changedAt ≠ some s.sfp → mayChange s = true := fun h => by simp [mayChange, h]
  refine ⟨fun st fault fresh_ run => ?_, fun next below ok clear => ?_, fun epoch st none_ fresh_ limit => ?_⟩
  · have row : exec .dpllLock s = .next (resend (setBw (thyTo s .locked))) := by
      simp [exec, execDpllLock, liveFrame_on on boundary, xDpllLock, st, fault, framesOfMf, run, may fresh_, own]
    obtain ⟨thy, mark, only⟩ := transition_facts s .locked
    exact ⟨_, row, by rw [thy], mark, thy, only⟩
  · have row : exec (.refSwitch offset) s
        = .next (resend (setBw (selectEval (allDnuEval (switchTo offset c why s))))) := by
      simp [exec, execRefSwitch, liveFrame_on on boundary, xRefSwitch, next, own]
    obtain ⟨ref, pbo, st, counted, ctl, hist_, only⟩ := refSwitch_facts offset why below ok clear
    refine ⟨_, row, ref, pbo, fun away => ?_, fun here => ?_, counted, ctl, hist_, only⟩
    · rcases away with h | h | h <;> rw [st, h] <;> rfl
    · rcases here with h | h <;> rw [st, h] <;> rfl
  · have runs : hbRuns s = true := by simp [hbRuns, st, none_, own]
    have row : exec .holdoverExpire s = .next (resend (setBw (thyTo s .expired))) := by
      simp [exec, execHoldoverExpire, live_on on, xHoldoverExpire, epoch, runs, may fresh_, limit]
    obtain ⟨thy, mark, only⟩ := transition_facts s .expired
    exact ⟨_, row, by rw [thy], mark, thy, only⟩

/-! Frequency windows and the days of the OCXO (R42, R74). -/

theorem freqOne_beyond {lim : Nat} {ppb : Int} {x : CandSt} (counts : x.winOk = true) (far : 1000 * lim < ppb.natAbs) :
    freqOne lim ppb x
      = { x with bad := min 2 (x.bad + 1), beyond := true, freqPend := decide (1 ≤ x.bad) && !x.freqFault } := by
  simp only [freqOne, counts, far, if_true]

theorem freqOne_within {lim : Nat} {ppb : Int} {x : CandSt} (counts : x.winOk = true) (near : ppb.natAbs ≤ 800 * lim) :
    freqOne lim ppb x = { x with bad := 0, beyond := false, freqFault := false, freqPend := false } := by
  have inside : ¬ 1000 * lim < ppb.natAbs := by omega
  simp only [freqOne, counts, inside, near, if_true, if_false]

theorem candOf_onCand (s : State) (c d : Nat) (g : CandSt → CandSt) :
    candOf (onCand s c g) d = if d = c then g (candOf s c) else candOf s d := tget_tput _ _ _ _ _

/-- One candidate of a frequency measurement. -/
def freqStep (l : List Int) (s : State) (c : Nat) : State :=
  if candEn s c then onCand s c (freqOne (tFreqLimit (actv s)) (l.getD c 0)) else s

theorem freqStep_actv (l : List Int) (s : State) (c : Nat) : actv (freqStep l s c) = actv s := by
  unfold freqStep
  split <;> rfl

theorem freqStep_frame (l : List Int) (s : State) (c : Nat) :
    freqStep l s c = { s with thy := { s.thy with cands := (freqStep l s c).thy.cands } } := by
  unfold freqStep
  split <;> rfl

theorem candOf_freqStep (l : List Int) (s : State) (c d : Nat) : candOf (freqStep l s c) d =
    if d = c ∧ candEn s c = true then freqOne (tFreqLimit (actv s)) (l.getD c 0) (candOf s c) else candOf s d := by
  unfold freqStep
  split
  · next en => rw [candOf_onCand]; simp [en]
  · next off => simp [off]

/-- The measurement of a list of candidates: each enabled one is judged once. -/
theorem freqSteps_cands (l : List Int) (cs : List Nat) (once : cs.Nodup) (s : State) (d : Nat) :
    candOf (forEach cs s (freqStep l)) d =
      if d ∈ cs ∧ candEn s d = true then freqOne (tFreqLimit (actv s)) (l.getD d 0) (candOf s d) else candOf s d := by
  induction cs generalizing s with
  | nil => simp
  | cons c cs ih =>
    obtain ⟨out, rest⟩ := List.nodup_cons.mp once
    have en : ∀ e, candEn (freqStep l s c) e = candEn s e := fun e => by simp only [candEn, freqStep_actv]
    rw [forEach_cons, ih rest, en, freqStep_actv, candOf_freqStep]
    rcases eq_or_ne d c with rfl | other
    · simp [out]
    · simp [other]

theorem freqSteps_frame (l : List Int) (cs : List Nat) (s : State) :
    forEach cs s (freqStep l)
      = { s with thy := { s.thy with cands := (forEach cs s (freqStep l)).thy.cands } } := by
  refine forEach_keeps (fun t => t = { s with thy := { s.thy with cands := t.thy.cands } }) cs s _ rfl fun t c h => ?_
  rw [freqStep_frame, h]

/-- Settles O6: each enabled candidate is judged once by its offset; the day is counted and saved. -/
theorem periodicMeasurements : Obligations.PeriodicMeasurements := by
  unfold Obligations.PeriodicMeasurements
  refine ⟨fun l s on epoch window => ?_, fun ok a s on day below due => ?_⟩
  · have row : exec (.freqMeasurement l) s = .next (forEach freqCands s (freqStep l)) := by
      simp only [exec, execFreqMeasurement, live_on on, xFreqMeasurement, epoch, window, decide_true, Bool.and_true,
        if_true]
      rfl
    have judged := fun d => freqSteps_cands l freqCands List.nodup_range s d
    refine ⟨_, row, fun c en counts => ?_, fun c off => ?_, freqSteps_frame l freqCands s⟩
    · have listed : (c : Nat) ∈ freqCands := by simp [freqCands]
      rw [judged, if_pos ⟨listed, en⟩]
      refine ⟨fun far => ?_, fun near => ?_⟩
      · rw [freqOne_beyond counts far]
        exact ⟨rfl, by simp⟩
      · rw [freqOne_within counts near]
        exact ⟨rfl, rfl, rfl⟩
    · rw [judged, if_neg fun h => by simp [h.2] at off]
  · have more : min 65535 (s.thy.days + 1) = s.thy.days + 1 := by omega
    have row : exec (.ocxoDay ok) s = .next (
        let s1 := onThy s (fun t => { t with days := s.thy.days + 1, dayAt := some (sfpOff a dayBlocks24) })
        if ok then onFlash s1 (fun f => { f with days := some (s.thy.days + 1), saves := f.saves + 1 }) else s1) := by
      simp only [exec, execOcxoDay, live_on on, xOcxoDay, day, more]
      rw [if_pos (by simpa [dayBlocks24] using due)]
    refine ⟨_, row, ?_⟩
    cases ok
    · exact ⟨rfl, rfl, by simp, fun _ => rfl, rfl⟩
    · exact ⟨rfl, rfl, fun _ => rfl, by simp, rfl⟩

/-! Tables: a value changed in place, and the keys of a sorted table. -/

theorem tfind_map {α β : Type} (f : α → β) (t : Tbl α) (i : Nat) :
    tfind (t.map fun kv => (kv.1, f kv.2)) i = (tfind t i).map f := by
  induction t with
  | nil => rfl
  | cons a t ih =>
    simp only [List.map_cons, tfind, ih]
    split <;> rfl

theorem tget_map {α : Type} {d : α} (f : α → α) (t : Tbl α) (i : Nat) :
    tget d (t.map fun kv => (kv.1, f kv.2)) i = (tfind t i).elim d f := by
  rw [tget, tfind_map]
  cases tfind t i <;> rfl

theorem tfind_eq_none_of_above {α : Type} {t : Tbl α} {i : Nat} (h : keysAbove i t) : tfind t i = none := by
  induction t with
  | nil => rfl
  | cons a t ih =>
    have first : i < a.1 := h a (.head _)
    rw [tfind, if_neg (Nat.ne_of_lt first)]
    exact ih fun kv k => h kv (.tail _ k)

theorem map_eq_self {α : Type} {f : α → α} {l : List α} (h : ∀ x ∈ l, f x = x) : l.map f = l :=
  (List.map_congr_left h).trans (List.map_id _)

/-- A value stored again under its key is changed in place. -/
theorem tset_found {α : Type} {t : Tbl α} {i : Nat} {x : α} (sorted : tsorted t = true) (found : tfind t i = some x)
    (g : α → α) : tset t i (g x) = t.map fun kv => if kv.1 = i then (kv.1, g kv.2) else kv := by
  induction t with
  | nil => cases found
  | cons a t ih =>
    obtain ⟨k, v⟩ := a
    obtain ⟨rest, above⟩ := tsorted_cons sorted
    rw [tfind] at found
    by_cases same : i = k
    · subst same
      obtain rfl : v = x := by simpa using found
      have later : t.map (fun kv => if kv.1 = i then (kv.1, g kv.2) else kv) = t :=
        map_eq_self fun kv listed => if_neg (Nat.ne_of_gt (above kv listed))
      simp [tset, later]
    · rw [if_neg same] at found
      have after : ¬ i < k := fun before => by
        rw [tfind_eq_none_of_above fun kv listed => Nat.lt_trans before (above kv listed)] at found
        cases found
      simp [tset, same, after, ih rest found, Ne.symm same]

theorem tsorted_mapIf {α : Type} (p : Nat × α → Prop) [DecidablePred p] (g : α → α) {t : Tbl α} (h : tsorted t = true) :
    tsorted (t.map fun kv => if p kv then (kv.1, g kv.2) else kv) = true := by
  have keyed : (fun kv : Nat × α => if p kv then (kv.1, g kv.2) else kv)
      = fun kv => (kv.1, if p kv then g kv.2 else kv.2) := by
    funext kv
    split <;> rfl
  rw [keyed]
  exact tsorted_mapVal _ t h

theorem keys_nodup {α : Type} {t : Tbl α} (h : tsorted t = true) : (t.map (·.1)).Nodup := by
  induction t with
  | nil => exact List.nodup_nil
  | cons a t ih =>
    obtain ⟨rest, above⟩ := tsorted_cons h
    refine List.nodup_cons.mpr ⟨fun listed => ?_, ih rest⟩
    obtain ⟨kv, member, key⟩ := List.mem_map.mp listed
    exact absurd (above kv member) (by simp [key])

/-- In a sorted table an entry is what is found under its key. -/
theorem tfind_of_mem {α : Type} {t : Tbl α} (h : tsorted t = true) {kv : Nat × α} (listed : kv ∈ t) :
    tfind t kv.1 = some kv.2 := by
  induction t with
  | nil => cases listed
  | cons a t ih =>
    obtain ⟨rest, above⟩ := tsorted_cons h
    rcases List.mem_cons.mp listed with rfl | later
    · simp [tfind]
    · rw [tfind, if_neg (Nat.ne_of_gt (above kv later))]
      exact ih rest later

/-- The value under a key changed, where there is one. -/
def tmod {α : Type} (g : α → α) (t : Tbl α) (i : Nat) : Tbl α :=
  match tfind t i with
  | some x => tset t i (g x)
  | none => t

theorem tmod_eq_map {α : Type} (g : α → α) {t : Tbl α} (sorted : tsorted t = true) (i : Nat) :
    tmod g t i = t.map fun kv => if kv.1 = i then (kv.1, g kv.2) else kv := by
  unfold tmod
  split
  · next x found => exact tset_found sorted found g
  · next none_ =>
    refine (map_eq_self fun kv listed => if_neg fun same => ?_).symm
    rw [← same, tfind_of_mem sorted listed] at none_
    cases none_

/-- Values changed in place one after another under keys that occur once each. -/
theorem forEach_tmod {α : Type} (g : α → α) (l : List Nat) (once : l.Nodup) (t : Tbl α) (sorted : tsorted t = true) :
    forEach l t (tmod g) = t.map fun kv => if kv.1 ∈ l then (kv.1, g kv.2) else kv := by
  induction l generalizing t with
  | nil => simp [map_eq_self]
  | cons i l ih =>
    obtain ⟨out, rest⟩ := List.nodup_cons.mp once
    rw [forEach_cons, tmod_eq_map g sorted, ih rest _ (tsorted_mapIf (fun kv => kv.1 = i) g sorted), List.map_map]
    refine List.map_congr_left fun kv _ => ?_
    by_cases here : kv.1 = i
    · simp [here, out]
    · simp [here]

/-! What operators have asked of Thyme, which selection leaves. -/

/-- The requests and recorded codes of Thyme that selection only reads. -/
def asked (s : State) : List (Sfp × Nat × BitVec 4) × BitVec 16 × Option (Sfp × Option Nat) × Option Nat :=
  (s.thy.pendQl, s.thy.refinQl, s.thy.pendForce, s.thy.force)

theorem refLoss_asked (s : State) : asked (refLoss s) = asked s := by
  unfold refLoss
  split
  · split
    · unfold lossLocked
      extract_lets v ok f s1 s2
      split
      · simp only [asked, mirHoldover, mirror_thy]
        rfl
      · rfl
    · rfl
  · split <;> rfl
  all_goals rfl

theorem selectEval_asked (s : State) : asked (selectEval s) = asked s := by
  unfold selectEval
  split
  · rfl
  · split
    · exact refLoss_asked s
    · split <;> rfl

theorem resend_thy (s : State) : (resend s).thy = s.thy := thy_of_get (by simp) (by simp)

theorem reselect_asked (s : State) : asked (reselect s) = asked s := by
  unfold reselect
  split
  · rfl
  · have sent : asked (resend (setBw (selectEval (allDnuEval s)))) = asked (selectEval (allDnuEval s)) := by
      simp only [asked, resend_thy]
      rfl
    obtain ⟨a, thy⟩ := allDnuEval_thy s
    rw [sent, selectEval_asked]
    simp only [asked, thy]

/-- Where the boundary's evaluation is still to come, selection waits for it. -/
theorem reselect_waits {s : State} (h : s.frameDone ≠ some s.sfp) : reselect s = s := by
  simp [reselect, h]

/-- Selection after a change of Thyme alone. -/
theorem reselect_onThy_onlyThyme (s : State) (g : ThySt → ThySt) : OnlyThyme s (reselect (onThy s g)) := by
  refine onlyThyme_of_only (reselect_onlyWords (onThy s g)) fun f out => ?_
  simp at out
  simp [out]

/-! A QL code recorded. -/

/-- The code of input `i` in the packed codes. -/
def putQl (w : BitVec 16) (i : Nat) (c : BitVec 4) : BitVec 16 :=
  (List.range 4).foldl (fun w j => setBit w (4 * i + j) (bit c j)) w

theorem bit_putQl (w : BitVec 16) (i : Nat) (c : BitVec 4) {k : Nat} (hk : k < 16) :
    bit (putQl w i c) k = if k / 4 = i then bit c (k % 4) else bit w k := by
  have at_ : ∀ j, j < 4 → (4 * i + j = k ↔ k / 4 = i ∧ k % 4 = j) := fun j _ => by omega
  have mod4 : k % 4 = 0 ∨ k % 4 = 1 ∨ k % 4 = 2 ∨ k % 4 = 3 := by omega
  simp only [putQl, show List.range 4 = [0, 1, 2, 3] from rfl, List.foldl_cons, List.foldl_nil, bit_setBit_of_lt _ hk]
  rw [if_congr (at_ 3 (by omega)) rfl (if_congr (at_ 2 (by omega)) rfl (if_congr (at_ 1 (by omega)) rfl
    (if_congr (at_ 0 (by omega)) rfl rfl)))]
  by_cases here : k / 4 = i
  · rcases mod4 with h | h | h | h <;> simp [here, h]
  · simp [here]

theorem testBit_bits {n : Nat} (w : BitVec n) (hi lo k : Nat) :
    (bits w hi lo).testBit k = (decide (k < hi + 1 - lo) && bit w (lo + k)) := by
  rw [bits, Nat.testBit_mod_two_pow, ← Nat.shiftRight_eq_div_pow, Nat.testBit_shiftRight]
  rfl

theorem bits_putQl (w : BitVec 16) (i : Fin 4) (c : BitVec 4) : bits (putQl w i c) (4 * i + 3) (4 * i) = c.toNat := by
  refine Nat.eq_of_testBit_eq fun k => ?_
  rw [testBit_bits]
  have four : 4 * (i : Nat) + 3 + 1 - 4 * i = 4 := by omega
  rw [four]
  by_cases inside : k < 4
  · rw [bit_putQl _ _ _ (by omega), if_pos (by omega), show (4 * (i : Nat) + k) % 4 = k by omega]
    simp [inside, bit, BitVec.getLsbD]
  · simp only [inside, decide_false, Bool.false_and]
    exact (BitVec.getLsbD_of_ge c k (by omega)).symm

/-! A change of the MFC (R59). -/

/-- The count moved to another multiframe, and everything stamped with a position moved with it. -/
def restamped (s : State) (v : Nat) : State :=
  reStamp s.sfp { onThy s (fun t => { t with ivEpochs := none }) with
    sfp := { s.sfp with mfc := v }
    frameDone := if s.frameDone = some s.sfp then some { s.sfp with mfc := v } else s.frameDone
    epochDone := if s.epochDone = some s.sfp then some { s.sfp with mfc := v } else s.epochDone }

/-- The open commits whose epoch comes too soon. -/
def tooSoon (s : State) : List Nat :=
  (s.com.ents.filter (fun kv => entOpen kv.2 && tooNear s twoMfs (epochAt kv.2.epoch))).map (·.1)

theorem mfcChange_eq (s : State) {v : Nat} (below : v < 2 ^ 48) : mfcChange s v =
    let s2 := forEach (tooSoon (restamped s v)) (restamped s v) (fun t i => entOut t i .discarded 2 0 0)
    dropSwap (dropMgSnap (dropSnaps (onCom s2 (fun c =>
      { c with frozen := if s2.com.ents.any (fun kv => decide (kv.2.st = .armed)) then c.frozen else 0 })))) := by
  have small : v % mfcMod = v := Nat.mod_eq_of_lt below
  unfold mfcChange
  rw [small]
  rfl

theorem mfcChange_get {f : Part} (s : State) {v : Nat} (below : v < 2 ^ 48) (ents : f ≠ .ents) (com : f ≠ .com)
    (snaps : f ≠ .snaps) (mir : f ≠ .mir) (pair : f ≠ .pair) (mgSh : f ≠ .mgSh) (sage : f ≠ .sage) (hist : f ≠ .hist) :
    get f (mfcChange s v) = get f (restamped s v) := by
  rw [mfcChange_eq s below]
  simp [ents, com, snaps, mir, pair, mgSh, sage, hist]

theorem restamped_grp (s : State) (v g : Nat) : (grpOf (restamped s v) g).sel = (grpOf s g).sel ∧
    (grpOf (restamped s v) g).loc = (grpOf s g).loc ∧ (grpOf (restamped s v) g).eff = (grpOf s g).eff := by
  have mapped : grpOf (restamped s v) g
      = (tfind s.grps g).elim {} (shiftGrp s.sfp { s.sfp with mfc := v }) := tget_map _ _ _
  rw [mapped, grpOf, tget]
  cases tfind s.grps g <;> exact ⟨rfl, rfl, rfl⟩

theorem restamped_port (s : State) (v p : Nat) : (portOf (restamped s v) p).rep = (portOf s p).rep ∧
    (portOf (restamped s v) p).trunk.align = (portOf s p).trunk.align := by
  obtain ⟨g, same, mapped⟩ : ∃ g : PortSt → PortSt, (∀ x, (g x).rep = x.rep ∧ (g x).trunk.align = x.trunk.align) ∧
      (restamped s v).ports = s.ports.map fun kv => (kv.1, g kv.2) :=
    ⟨fun x => { x with trunk := { x.trunk with slipAt := x.trunk.slipAt.map (shiftPos s.sfp { s.sfp with mfc := v }) } },
      fun _ => ⟨rfl, rfl⟩, rfl⟩
  rw [portOf, mapped, tget_map, portOf, tget]
  cases tfind s.ports p
  · exact ⟨rfl, rfl⟩
  · exact same _

/-- The parts that a step of the count and its record move otherwise than by the count itself. -/
theorem newMfc_only (s : State) (g : ThySt → ThySt) {v : Nat} (below : v < 2 ^ 48) (sub : Nat) (d : Bytes) :
    Only [.ents, .com, .snaps, .mir, .pair, .mgSh, .sage, .hist, .ports] (restamped (onThy s g) v)
      (resend (trace (mfcChange (onThy s g) v) 2 sub noObj d)) := fun f out => by
  simp at out
  have sent : get f (resend (trace (mfcChange (onThy s g) v) 2 sub noObj d)) = get f (mfcChange (onThy s g) v) := by
    simp [out]
  rw [sent]
  exact mfcChange_get _ below (by simp [out]) (by simp [out]) (by simp [out]) (by simp [out]) (by simp [out])
    (by simp [out]) (by simp [out]) (by simp [out])

/-- The overhead carries the new count; what the trunks report and receive stays. -/
theorem OnlyWords.reports {s t : State} (h : OnlyWords s t) (p : Fin 128) :
    (portOf t p).rep = (portOf s p).rep ∧ (portOf t p).trunk.align = (portOf s p).trunk.align := by
  rw [h p]
  exact ⟨rfl, rfl⟩

/-- What a step of the count, its record and the overhead that carries it leave. -/
theorem newMfc_facts (s : State) (g : ThySt → ThySt) {v : Nat} (below : v < 2 ^ 48) (sub : Nat) (d : Bytes) :
    let t := resend (trace (mfcChange (onThy s g) v) 2 sub noObj d)
    t.sfp = { s.sfp with mfc := v } ∧ t.thy = shiftThy s.sfp { s.sfp with mfc := v } { g s.thy with ivEpochs := none } ∧
      CountOnly s t := by
  intro t
  have keeps := newMfc_only s g below sub d
  have thy : t.thy = (restamped (onThy s g) v).thy := thy_of_get (keeps .thy (by decide)) (keeps .cands (by decide))
  have map : t.map = (restamped (onThy s g) v).map := mapSt_ext (keeps .map (by decide)) (keeps .mapA (by decide))
    (keeps .mapB (by decide)) (keeps .mapEcc (by decide)) (keeps .mapScrub (by decide)) (keeps .mapSel (by decide))
  refine ⟨keeps .sfp (by decide), thy, keeps .act (by decide), keeps .stg (by decide), by rw [map]; rfl, by rw [map]; rfl,
    by rw [map]; rfl, fun k => ?_, fun p => ?_⟩
  · rw [grpOf_of_get (keeps .grps (by decide))]
    exact restamped_grp (onThy s g) v k
  · have ports : get .ports (trace (mfcChange (onThy s g) v) 2 sub noObj d) = get .ports (restamped (onThy s g) v) :=
      (trace_get (f := .ports) _ _ _ _ _ (by decide) (by decide)).trans (mfcChange_get (onThy s g) below (by decide)
        (by decide) (by decide) (by decide) (by decide) (by decide) (by decide) (by decide))
    obtain ⟨rep, align⟩ := (resend_onlyWords (trace (mfcChange (onThy s g) v) 2 sub noObj d)).reports p
    obtain ⟨rep', align'⟩ := restamped_port (onThy s g) v p
    rw [portOf_of_get ports] at rep align
    exact ⟨rep.trans rep', align.trans align'⟩

/-! The open commits and the pending snapshots after it. -/

/-- An entry ended at a position. -/
def ended (st : EntState) (reason row idx : Nat) (p : Sfp) (e : CommitEnt) : CommitEnt :=
  { e with st := st, reason := reason, row := row, idx := idx, validating := false, outAt := some p }

theorem entOut_ents (s : State) (i : Nat) (st : EntState) (reason row idx : Nat) :
    (entOut s i st reason row idx).com.ents = tmod (ended st reason row idx s.sfp) s.com.ents i := by
  cases found : tfind s.com.ents i
  · simp only [entOut, onEnt, tmod, found]
  · simp only [entOut, onEnt, tmod, found, entPut]
    split
    · rfl
    · rw [mirror_com]
      rfl

theorem forEach_entOut_ents (l : List Nat) (s : State) (st : EntState) (reason row idx : Nat) :
    (forEach l s (fun t i => entOut t i st reason row idx)).com.ents
      = forEach l s.com.ents (tmod (ended st reason row idx s.sfp)) := by
  induction l generalizing s with
  | nil => rfl
  | cons i l ih =>
    have still : (entOut s i st reason row idx).sfp = s.sfp := by
      show get .sfp _ = get .sfp s
      simp
    rw [forEach_cons, forEach_cons, ih, entOut_ents, still]

theorem dropSnaps_snaps (s : State) :
    (dropSnaps s).com.snaps = s.com.snaps.filter fun r => !tooNear s twoFrames r.1 := by
  unfold dropSnaps
  extract_lets bad
  have traced : ∀ (l : List (Sfp × BitVec 128)) (t : State),
      get .snaps (forEach l t fun t r => trace t 10 4 noObj (beBytes 6 r.1.mfc ++ [by1 r.1.fi, 1, by1 (pop r.2)]))
        = get .snaps t := fun l t => by simp
  have set : ∀ l : List (Sfp × BitVec 128), (setSnaps s l).com.snaps = l := fun l => by
    unfold setSnaps
    dsimp only
    split
    · rfl
    · rw [mirror_com]
      rfl
  exact (traced _ _).trans (set _)

theorem restamped_ents (s : State) (v : Nat) : (restamped s v).com.ents =
    s.com.ents.map fun kv => (kv.1, { kv.2 with outAt := kv.2.outAt.map (shiftPos s.sfp { s.sfp with mfc := v }) }) := rfl

theorem tooNear_iff (s : State) (n : Int) (p : Sfp) : tooNear s n p = true ↔ sfpDist s.sfp p < n := decide_eq_true_iff

theorem mem_tooSoon {s : State} (sorted : tsorted s.com.ents = true) {kv : Nat × CommitEnt} (listed : kv ∈ s.com.ents) :
    kv.1 ∈ tooSoon s ↔ entOpen kv.2 = true ∧ sfpDist s.sfp (epochAt kv.2.epoch) < 10481152 := by
  simp only [tooSoon, List.mem_map, List.mem_filter, Bool.and_eq_true, tooNear_iff]
  constructor
  · rintro ⟨kv', ⟨listed', soon⟩, key⟩
    have same : kv'.2 = kv.2 := by
      have found := tfind_of_mem sorted listed'
      rw [key, tfind_of_mem sorted listed] at found
      exact (Option.some.inj found).symm
    rw [same] at soon
    exact soon
  · exact fun soon => ⟨kv, ⟨listed, soon⟩, rfl⟩

theorem tooSoon_nodup {s : State} (sorted : tsorted s.com.ents = true) : (tooSoon s).Nodup :=
  keys_nodup (tsorted_filter _ sorted)

/-- The entries of a change of the MFC: the open ones whose epoch comes too soon are discarded. -/
theorem mfcChange_ents (s : State) {v : Nat} (below : v < 2 ^ 48) (sorted : tsorted s.com.ents = true) :
    (mfcChange s v).com.ents = s.com.ents.map (fun kv =>
      if entOpen kv.2 ∧ sfpDist { s.sfp with mfc := v } (epochAt kv.2.epoch) < 10481152 then
        (kv.1, { kv.2 with st := .discarded, reason := 2, row := 0, idx := 0, validating := false
                           outAt := some { s.sfp with mfc := v } })
      else (kv.1, { kv.2 with outAt := kv.2.outAt.map (shiftPos s.sfp { s.sfp with mfc := v }) })) := by
  have sorted' : tsorted (restamped s v).com.ents = true := by
    rw [restamped_ents]
    exact tsorted_mapVal _ _ sorted
  have kept : get .ents (mfcChange s v)
      = get .ents (forEach (tooSoon (restamped s v)) (restamped s v) fun t i => entOut t i .discarded 2 0 0) := by
    rw [mfcChange_eq s below]
    simp
  refine kept.trans ((forEach_entOut_ents ..).trans ((forEach_tmod _ _ (tooSoon_nodup sorted') _ sorted').trans ?_))
  have moved : (restamped s v).sfp = { s.sfp with mfc := v } := rfl
  rw [List.map_congr_left fun kv listed => if_congr (mem_tooSoon sorted' listed) rfl rfl, restamped_ents, List.map_map, moved]
  refine List.map_congr_left fun kv _ => ?_
  dsimp only [Function.comp_apply]
  rfl

/-- What the pending snapshots are judged in: the new position, and the snapshots as they were. -/
theorem mfcChange_judges (s : State) {v : Nat} (below : v < 2 ^ 48) : ∃ u, mfcChange s v = dropSwap (dropMgSnap (dropSnaps u))
    ∧ u.sfp = { s.sfp with mfc := v } ∧ u.com.snaps = s.com.snaps := by
  refine ⟨_, mfcChange_eq s below, ?_, ?_⟩
  · exact (by simp : get .sfp _ = get .sfp (restamped s v)).trans rfl
  · exact (by simp : get .snaps _ = get .snaps (restamped s v)).trans rfl

theorem mfcChange_snaps (s : State) {v : Nat} (below : v < 2 ^ 48) :
    (mfcChange s v).com.snaps = s.com.snaps.filter (fun r => decide (327536 ≤ sfpDist { s.sfp with mfc := v } r.1)) := by
  obtain ⟨u, judged, sfp, snaps⟩ := mfcChange_judges s below
  have last : get .snaps (mfcChange s v) = get .snaps (dropSnaps u) := by
    rw [judged]
    simp
  refine last.trans ((dropSnaps_snaps u).trans ?_)
  have far : ∀ p, (!tooNear u twoFrames p) = decide (327536 ≤ sfpDist { s.sfp with mfc := v } p) := fun p => by
    rw [← sfp, Bool.eq_iff_iff, Bool.not_eq_true', ← Bool.not_eq_true, tooNear_iff, Int.not_lt, decide_eq_true_iff]
    rfl
  simp only [snaps, far]

/-- Settles O7: what was asked is recorded and selection leaves it; a new MFC restamps the machine, discards what comes too
soon and leaves everything that is no position. -/
theorem timingActs : Obligations.TimingActs := by
  unfold Obligations.TimingActs
  refine ⟨fun s i c o v on below => ⟨fun ql => ?_, fun force => ?_, fun mfc => ?_, fun learned epoch invalid mode own => ?_,
    fun relearn => ?_⟩, fun s v on below mfc sorted => ?_⟩
  · let u := onThy s (fun t => { t with pendQl := [], refinQl := putQl t.refinQl i c })
    have row : exec .setQlAct s = .next (reselect u) := by
      simp [exec, execSetQlAct, live_on on, xSetQlAct, ql, u, onThy, putQl]
    have kept := reselect_asked u
    simp only [asked, Prod.mk.injEq] at kept
    obtain ⟨pend, refin, -, -⟩ := kept
    refine ⟨_, row, ?_, pend, fun k other => ?_, fun waits => ?_, reselect_onThy_onlyThyme _ _⟩
    · rw [refin]
      exact bits_putQl _ i c
    · rw [refin]
      exact (bit_putQl _ _ _ k.isLt).trans (if_neg other)
    · have idle : reselect u = u := reselect_waits waits
      rw [idle]
      rfl
  · have row : exec .thymeForceAct s = .next (reselect (onThy s (fun t => { t with pendForce := none, force := o }))) := by
      simp only [exec, execThymeForceAct, live_on on, xThymeForceAct, force, if_true]
    have kept := reselect_asked (onThy s (fun t => { t with pendForce := none, force := o }))
    simp only [asked, Prod.mk.injEq] at kept
    obtain ⟨-, -, pend, to_⟩ := kept
    exact ⟨_, row, pend, to_, fun waits => reselect_waits waits, reselect_onThy_onlyThyme _ _⟩
  · have row : exec .setMfcAct s = .next (resend (trace (mfcChange (onThy s (fun t =>
        { t with pendMfc := none, mfcValid := true })) v) 2 5 noObj (beBytes 6 (mfcChange (onThy s (fun t =>
        { t with pendMfc := none, mfcValid := true })) v).sfp.mfc))) := by
      simp only [exec, execSetMfcAct, live_on on, xSetMfcAct, mfc, if_true]
    obtain ⟨sfp, thy, only⟩ := newMfc_facts s (fun t => { t with pendMfc := none, mfcValid := true }) below 5 _
    exact ⟨_, row, sfp, by rw [thy]; rfl, by rw [thy]; rfl, only⟩
  · have row : exec .mfcLearn s = .next (resend (trace (mfcChange (onThy s (fun t =>
        { t with learned := none, learn1 := none, mfcValid := true })) v) 2 3 noObj (beBytes 6 (mfcChange (onThy s (fun t =>
        { t with learned := none, learn1 := none, mfcValid := true })) v).sfp.mfc))) := by
      simp [exec, execMfcLearn, live_on on, xMfcLearn, learned, epoch, invalid, mode, own]
    obtain ⟨sfp, thy, only⟩ := newMfc_facts s (fun t => { t with learned := none, learn1 := none, mfcValid := true })
      below 3 _
    exact ⟨_, row, sfp, by rw [thy]; rfl, by rw [thy]; rfl, only⟩
  · simp only [exec, execMfcRelearnAct, live_on on, xMfcRelearnAct, relearn, if_true]
    rfl
  · have row : exec .setMfcAct s = .next (resend (trace (mfcChange (onThy s (fun t =>
        { t with pendMfc := none, mfcValid := true })) v) 2 5 noObj (beBytes 6 (mfcChange (onThy s (fun t =>
        { t with pendMfc := none, mfcValid := true })) v).sfp.mfc))) := by
      simp only [exec, execSetMfcAct, live_on on, xSetMfcAct, mfc, if_true]
    refine ⟨_, row, ?_, ?_⟩
    · have kept : ∀ u d, get .ents (resend (trace u 2 5 noObj d)) = get .ents u := fun u d => by simp
      exact (kept _ _).trans (mfcChange_ents _ below sorted)
    · have kept : ∀ u d, get .snaps (resend (trace u 2 5 noObj d)) = get .snaps u := fun u d => by simp
      exact (kept _ _).trans (mfcChange_snaps _ below)

/-! The temperature history (R64 to R66). -/

/-- A reading of the temperature that can be: between −55 °C and +125 °C. -/
def tempOk (temp : BitVec 16) : Prop := temp ≠ 0x8000 ∧ -880 ≤ temp.toInt ∧ temp.toInt ≤ 2000

theorem tempBad_iff (temp : BitVec 16) :
    (temp == 0x8000 || decide (temp.toInt < -880) || decide (2000 < temp.toInt)) = true ↔ ¬ tempOk temp := by
  simp only [tempOk, Bool.or_eq_true, beq_iff_eq, decide_eq_true_eq, ne_eq]
  constructor
  · rintro ((h | h) | h) ⟨other, low, high⟩
    · exact other h
    · omega
    · omega
  · intro h
    by_cases same : temp = 0x8000
    · exact .inl (.inl same)
    · by_cases low : temp.toInt < -880
      · exact .inl (.inr low)
      · exact .inr (by by_contra high; exact h ⟨same, by omega, by omega⟩)

/-- The entry that a complete interval leaves. -/
def histEntry (s : State) (freq : BitVec 48) (spread : Nat) (temp : BitVec 16) : HistEntry :=
  { mfc := BitVec.ofNat 48 s.sfp.mfc, freq := s.thy.ivCtl.getD freq, temp := temp
    valid := s.thy.ivLocked && !s.thy.ivFault && !s.thy.ivRefChange && decide (s.thy.ivEpochs = some 256)
    faultSeen := s.thy.ivFault
    cand := match s.thy.ref with
      | some c => BitVec.ofNat 4 c
      | none => 0xF
    spread := BitVec.ofNat 8 (if s.thy.ivCtl.isSome then 0 else min 255 spread) }

/-- A sample: the entry joins the ring and the next interval begins. -/
def sampled (s s1 : State) (e : HistEntry) : State :=
  mirror (onThy s1 (fun h => { h with
    hist := if xHistorySample.mirrored s then h.hist else (e :: h.hist).take 4096
    sampleTemp := e.temp, temp := e.temp, ivLocked := true, ivFault := false, ivRefChange := false
    ivCtl := if ctlHeld s then some h.ctl else none, ivEpochs := some 0 })) (.history (histBytes e))

theorem xHistorySample_good {s : State} {temp : BitVec 16} (epoch : isEpoch s.sfp = true) (due : s.sfp.mfc % 256 = 0)
    (begun : s.thy.ivEpochs ≠ some 0) (ok : tempOk temp) (freq : BitVec 48) (spread : Nat) :
    xHistorySample freq spread temp s = sampled s s (histEntry s freq spread temp) := by
  have bad : (temp == 0x8000 || decide (temp.toInt < -880) || decide (2000 < temp.toInt)) = false :=
    Bool.eq_false_iff.mpr fun h => (tempBad_iff temp).mp h ok
  simp only [xHistorySample, epoch, due, begun, bad, ne_eq, not_false_eq_true, decide_true, Bool.and_true, if_true,
    Bool.false_eq_true, if_false]
  rfl

theorem xHistorySample_bad {s : State} {temp : BitVec 16} (epoch : isEpoch s.sfp = true) (due : s.sfp.mfc % 256 = 0)
    (begun : s.thy.ivEpochs ≠ some 0) (bad : ¬ tempOk temp) (freq : BitVec 48) (spread : Nat) :
    xHistorySample freq spread temp s = sampled s (sticky (cThy s 4) hThy 0x40) (histEntry s freq spread 0x8000) := by
  simp only [xHistorySample, epoch, due, begun, (tempBad_iff temp).mpr bad, ne_eq, not_false_eq_true, decide_true,
    Bool.and_true, if_true]
  rfl

/-- What a sample leaves in Thyme and beside it. -/
theorem sampled_facts (s s1 : State) (e : HistEntry) (thy : s1.thy = s.thy) (only : Only [.sage, .hist] s s1) :
    (sampled s s1 e).thy.hist = (if xHistorySample.mirrored s then s.thy.hist else (e :: s.thy.hist).take 4096) ∧
      (sampled s s1 e).thy.st = s.thy.st ∧ (sampled s s1 e).thy.ctl = s.thy.ctl ∧
      Only [.thy, .cands, .mir, .sage, .hist] s (sampled s s1 e) := by
  have tThy : (sampled s s1 e).thy = _ := mirror_thy _ _
  refine ⟨by rw [tThy, onThy_thy, thy], by rw [tThy, onThy_thy, thy], by rw [tThy, onThy_thy, thy], fun f out => ?_⟩
  simp at out
  refine Eq.trans ?_ (only f (by simp [out]))
  simp [sampled, out]

/-- The entry says what the interval was. -/
theorem histEntry_facts (s : State) (freq : BitVec 48) (spread : Nat) (temp : BitVec 16) (below : s.sfp.mfc < 2 ^ 48) :
    let e := histEntry s freq spread temp
    e.mfc.toNat = s.sfp.mfc ∧ (s.thy.ivCtl = none → e.freq = freq ∧ (spread ≤ 255 → e.spread.toNat = spread)) ∧
      (∀ v, s.thy.ivCtl = some v → e.freq = v ∧ e.spread = 0) ∧
      (e.valid = true ↔ s.thy.ivLocked = true ∧ s.thy.ivFault = false ∧ s.thy.ivRefChange = false
        ∧ s.thy.ivEpochs = some 256) ∧
      e.faultSeen = s.thy.ivFault ∧ (∀ c : Fin 12, s.thy.ref = some c.val → e.cand.toNat = c) ∧
      (s.thy.ref = none → e.cand = 0xF) := by
  dsimp only [histEntry]
  refine ⟨by simp; omega, fun none_ => ⟨by simp [none_], fun small => ?_⟩, fun v held => by simp [held], ?_, rfl,
    fun c ref => ?_, fun none_ => by simp [none_]⟩
  · simp only [none_, Option.isSome_none, Bool.false_eq_true, if_false, BitVec.toNat_ofNat]
    omega
  · simp [and_assoc]
  · have := c.isLt
    simp only [ref, BitVec.toNat_ofNat]
    omega

/-! Frame pulses. -/

theorem fpOf_onFp_same (s : State) (k : Nat) (g : FpSt → FpSt) : fpOf (onFp s k g) k = g (fpOf s k) := tget_tput_same _ _ _ _

theorem fpOf_of_get {s t : State} (h : get .thy t = get .thy s) (k : Nat) : fpOf t k = fpOf s k := by
  have same := congrArg (fun x : ThySt => tget ({} : FpSt) x.fp k) h
  exact same

theorem fpRec_fpOf (s : State) (i code k : Nat) : fpOf (fpRec s i code) k = fpOf s k := fpOf_of_get (by simp) k

/-- A pulse on time that does not qualify its input. -/
theorem fpOnTime_facts {s t : State} {k : Nat} {err : Int} (below : (fpOf s k).good < 15) (h : fpOnTime s k err = t) :
    (fpOf t k).good = (fpOf s k).good + 1 ∧ (fpOf t k).onTime = true ∧ (fpOf t k).missed = 0 ∧
      (fpOf t k).last = some s.sfp ∧ (fpOf t k).present = fpRegular s k ∧ t = { s with thy := t.thy } := by
  unfold fpOnTime at h
  extract_lets x g s1 s2 s3 at h
  have g_eq : g = x.good + 1 := by simp only [g, x]; omega
  have fp1 : fpOf s1 k = { x with last := some s.sfp, present := fpRegular s k, good := g, off := 0, missed := 0
                                  onTime := true, qualified := x.qualified || g == 16 } := fpOf_onFp_same _ _ _
  have fp2 : fpOf s2 k = fpOf s1 k ∧ s2 = { s with thy := s2.thy } := by
    simp only [s2]
    split <;> exact ⟨rfl, rfl⟩
  have fp3 : fpOf s3 k = fpOf s1 k ∧ s3 = { s with thy := s3.thy } := by
    obtain ⟨fp, frame⟩ := fp2
    simp only [s3]
    split
    · exact ⟨fp, by rw [frame]; rfl⟩
    · exact ⟨fp, frame⟩
  obtain ⟨fp, frame⟩ := fp3
  have stays : (!x.qualified && (fpOf s3 k).qualified) = false := by
    have few : g ≠ 16 := by simp only [g_eq, x]; omega
    simp [fp, fp1, few]
  rw [stays, if_neg Bool.false_ne_true] at h
  rw [← h, fp, fp1]
  exact ⟨g_eq, rfl, rfl, rfl, rfl, frame⟩

theorem fpOffTime_facts {s t : State} {k : Nat} {err : Int} (h : fpOffTime s k err = t) :
    (fpOf t k).good = 0 ∧ (fpOf t k).last = some s.sfp ∧ Only [.thy, .sage, .hist] s t := by
  unfold fpOffTime at h
  extract_lets x w same n other s1 s2 at h
  have fp1 : (fpOf s1 k).good = 0 ∧ (fpOf s1 k).last = some s.sfp := by
    simp only [s1, fpOf_onFp_same, and_self]
  have only1 : Only [.thy, .sage, .hist] s s1 := fun f out => by
    simp at out
    simp [s1, out]
  have then_ : ∀ t : State, fpOf t k = fpOf s1 k → Only [.thy, .sage, .hist] s1 t →
      (fpOf t k).good = 0 ∧ (fpOf t k).last = some s.sfp ∧ Only [.thy, .sage, .hist] s t := fun t fp only => by
    rw [fp]
    exact ⟨fp1.1, fp1.2, only1.trans only⟩
  have rec2 : fpOf s2 k = fpOf s1 k ∧ Only [.thy, .sage, .hist] s1 s2 := by
    refine ⟨fpOf_of_get (by simp [s2]) k, fun f out => ?_⟩
    simp at out
    simp [s2, out]
  split at h
  · rw [← h]
    refine then_ _ (fpOf_of_get (by simp) k) fun f out => ?_
    simp at out
    simp [out]
  · split at h
    · obtain ⟨fp, only⟩ := rec2
      split at h <;> rw [← h]
      · refine then_ _ ((fpRec_fpOf _ k 5 k).trans fp) (only.trans fun f out => ?_)
        simp at out
        simp [out]
      · exact then_ _ fp only
    · rw [← h]
      exact then_ _ rfl (.refl _ _)

theorem ctrVal_fpRec (s : State) (k code : Nat) : ctrVal (fpRec s k code) 5 5 = ctrVal s 5 5 :=
  ctrVal_trace _ _ _ _ _ (by decide) (by decide)

theorem fpMiss_facts {s t : State} {k : Nat} (en : fpEnabled s k = true) (missing : fpMissing s k = true)
    (h : xFpMiss k s = t) :
    Counted s t 5 5 ∧ (fpOf t k).good = 0 ∧ (2 ≤ (fpOf s k).missed → (fpOf t k).qualified = false) ∧
      ((fpOf s k).missed < 2 → (fpOf t k).qualified = (fpOf s k).qualified) ∧ Only [.thy, .sage, .hist] s t := by
  unfold xFpMiss at h
  rw [if_pos (by simp [en, missing])] at h
  extract_lets n s1 src fly at h
  have fp1 : (fpOf s1 k).good = 0 ∧ (fpOf s1 k).qualified = ((fpOf s k).qualified && decide (n < 3)) := by
    simp only [s1, fpRec_fpOf]
    have counted : ∀ u, fpOf (cThy u 5) k = fpOf u k := fun u => rfl
    rw [counted, fpOf_onFp_same]
    exact ⟨rfl, rfl⟩
  have ctr1 : Counted s s1 5 5 := by
    simp only [s1, Counted, ctrVal_fpRec]
    exact counted_count (onFp s k _) 5 5
  have only1 : Only [.thy, .sage, .hist] s s1 := fun f out => by
    simp at out
    simp [s1, out]
  have then_ : ∀ u : State, fpOf u k = fpOf s1 k → ctrVal u 5 5 = ctrVal s1 5 5 → Only [.thy, .sage, .hist] s1 u →
      Counted s u 5 5 ∧ (fpOf u k).good = 0 ∧ (2 ≤ (fpOf s k).missed → (fpOf u k).qualified = false) ∧
      ((fpOf s k).missed < 2 → (fpOf u k).qualified = (fpOf s k).qualified) ∧ Only [.thy, .sage, .hist] s u :=
    fun u fp ctr only => by
      rw [fp, fp1.1, fp1.2]
      refine ⟨ctr.trans ctr1, rfl, fun many => ?_, fun few => ?_, only1.trans only⟩
      · have : ¬ n < 3 := by simp only [n]; omega
        simp [this]
      · have : n < 3 := by simp only [n]; omega
        simp [this]
  split at h <;> rw [← h]
  · refine then_ _ (fpRec_fpOf (onThy s1 _) k 5 k) (ctrVal_fpRec (onThy s1 _) k 5) fun f out => ?_
    simp at out
    simp [out]
  · exact then_ _ rfl rfl (.refl _ _)

/-! The step of FP_REALIGN (R54, R310). -/

/-- The alignment of every port's receiver. -/
def aligns (s : State) (p : Nat) : Aligner := (portOf s p).trunk.align

theorem onPort_aligns (s : State) (p : Nat) (g : PortSt → PortSt) (h : ∀ x, (g x).trunk.align = x.trunk.align) :
    aligns (onPort s p g) = aligns s := by
  funext q
  rw [aligns, portOf_onPort]
  split
  · next same => rw [same, h]; rfl
  · rfl

theorem aligns_of_get {s t : State} (h : get .ports t = get .ports s) : aligns t = aligns s := by
  funext q
  rw [aligns, portOf_of_get h, aligns]

theorem mgmtDiscard_aligns (s : State) (p : Nat) : aligns (mgmtDiscard s p) = aligns s := by
  unfold mgmtDiscard
  split
  · exact (aligns_of_get (cPort_get _ p 28 1 (by decide))).trans
      (onPort_aligns s p (fun x => { x with trunk := { x.trunk with reasm := none } }) fun _ => rfl)
  · rfl

theorem flushChannel_aligns (s : State) (p : Nat) : aligns (flushChannel s p) = aligns s :=
  (aligns_of_get (count_get _ 2 9 _ (by decide))).trans
    (onPort_aligns s p (fun x => { x with txq := [], txNow := none }) fun _ => rfl)

theorem onClient_aligns (s : State) (p : Nat) (g : ClientSt → ClientSt) : aligns (onClient s p g) = aligns s :=
  onPort_aligns s p (fun x => { x with client := g x.client }) fun _ => rfl

theorem sfBegins_aligns (s : State) (p : Nat) : aligns (sfBegins s p) = aligns s := by
  have flushed : aligns (flushChannel (onPort s p (fun x => { x with fillLf := true })) p) = aligns s :=
    (flushChannel_aligns _ p).trans (onPort_aligns s p (fun x => { x with fillLf := true }) fun _ => rfl)
  unfold sfBegins
  extract_lets s1
  split
  · exact (aligns_of_get (cPort_get _ p 40 1 (by decide))).trans ((onClient_aligns s1 p _).trans flushed)
  · exact flushed

theorem clientCentre_aligns (s : State) (p n : Nat) : aligns (clientCentre s p n) = aligns s :=
  (aligns_of_get (trace_get _ 5 6 p _ (by decide) (by decide))).trans
    ((aligns_of_get (cPort_get _ p 39 1 (by decide))).trans (onClient_aligns s p _))

theorem settle_aligns (s : State) (p : Nat) : aligns (settle s p) = aligns s := by
  unfold settle
  split
  · rfl
  · extract_lets x cur tgt ch s1 s1' s2
    have k1 : aligns s1' = aligns s := by
      have k : aligns s1 = aligns s := onPort_aligns s p _ fun _ => rfl
      simp only [s1']
      split
      · exact (mgmtDiscard_aligns s1 p).trans k
      · exact k
    have k2 : aligns s2 = aligns s := (forEach_same aligns _ _ _ fun u c => by split <;> rfl).trans k1
    split
    · exact (sfBegins_aligns s2 p).trans k2
    · split
      · exact (clientCentre_aligns s2 p _).trans k2
      · exact k2

theorem setCond_aligns (s : State) (p i : Nat) (on_ : Bool) : aligns (setCond s p i on_) = aligns s := by
  unfold setCond
  split
  · rfl
  · exact (settle_aligns _ p).trans (onPort_aligns s p _ fun _ => rfl)

theorem loseFrame_aligns (s : State) (p q : Nat) :
    aligns (loseFrame s p) q = if q = p then .search else aligns s q := by
  unfold loseFrame
  dsimp only
  rw [setCond_aligns, setCond_aligns, mgmtDiscard_aligns, aligns, onTrunk, portOf_onPort]
  split <;> rfl

/-- Every trunk in frame loses its frame. -/
def realigned (s : State) : State :=
  forEach allPorts s (fun t p => if isTrunk t p && inFrame (portOf t p).trunk then loseFrame t p else t)

theorem isTrunk_of_get {s t : State} (h : get .act t = get .act s) (p : Nat) : isTrunk t p = isTrunk s p := by
  simp only [isTrunk, modeOf, actv_of_get h]

theorem mem_allPorts (p : Fin 128) : (p : Nat) ∈ allPorts := by
  unfold allPorts
  exact List.mem_range.mpr p.isLt

theorem loseFrames_out (l : List Nat) (s : State) {p : Nat} (trunk : isTrunk s p = true)
    (h : p ∈ l ∨ inFrame (portOf s p).trunk = false) : inFrame (portOf (forEach l s fun t p =>
      if isTrunk t p && inFrame (portOf t p).trunk then loseFrame t p else t) p).trunk = false := by
  induction l generalizing s with
  | nil => exact h.resolve_left (by simp)
  | cons q l ih =>
    rw [forEach_cons]
    split
    · have still : isTrunk (loseFrame s q) p = true := (isTrunk_of_get (by simp) p).trans trunk
      have align := loseFrame_aligns s q p
      refine ih _ still ?_
      by_cases here : p = q
      · rw [if_pos here, aligns] at align
        simp [inFrame, align]
      · rw [if_neg here, aligns, aligns] at align
        refine h.imp (fun listed => (List.mem_cons.mp listed).resolve_left here) fun out => ?_
        simpa [inFrame, align] using out
    · next idle =>
      refine ih s trunk ?_
      rcases h with listed | out
      · rcases List.mem_cons.mp listed with rfl | later
        · exact .inr (by simpa [trunk] using idle)
        · exact .inl later
      · exact .inr out

theorem realigned_get {f : Part} (s : State) (ports : f ≠ .ports) (sage : f ≠ .sage) (hist : f ≠ .hist) :
    get f (realigned s) = get f s := by
  unfold realigned
  generalize allPorts = l
  simp [ports, sage, hist]

/-- The next epoch boundary comes at the input's next reference instant. -/
theorem sfpAdd_back (m w : Nat) (below : m < mfcMod) :
    let q := sfpAdd (epochAt m) ((mfBlocks - w % mfBlocks) % mfBlocks)
    q.mfc = m ∧ (q.fi * 163768 + q.bi + w) % 5240576 = 0 := by
  intro q
  have back : (mfBlocks - w % mfBlocks) % mfBlocks < mfBlocks := Nat.mod_lt _ (by decide)
  refine ⟨?_, ?_⟩
  · have whole : (0 * frameBlocks + 0 + (mfBlocks - w % mfBlocks) % mfBlocks) / mfBlocks = 0 := by
      rw [Nat.div_eq_of_lt (by simpa using back)]
    show (m % mfcMod + (0 * frameBlocks + 0 + (mfBlocks - w % mfBlocks) % mfBlocks) / mfBlocks) % mfcMod = m
    rw [whole, Nat.add_zero, Nat.mod_mod, Nat.mod_eq_of_lt below]
  · show ((0 * frameBlocks + 0 + (mfBlocks - w % mfBlocks) % mfBlocks) % mfBlocks / frameBlocks * 163768
      + (0 * frameBlocks + 0 + (mfBlocks - w % mfBlocks) % mfBlocks) % frameBlocks + w) % 5240576 = 0
    simp only [frameBlocks, mfBlocks, mfFrames] at *
    omega

theorem stepSfp_sfp (s : State) (w : Nat) :
    (stepSfp s w).sfp = sfpAdd (epochAt s.sfp.mfc) ((mfBlocks - w % mfBlocks) % mfBlocks) := rfl

theorem stepSfp_ports (s : State) (w p : Nat) : aligns (stepSfp s w) p = aligns s p := by
  obtain ⟨g, same, mapped⟩ : ∃ g : PortSt → PortSt, (∀ x, (g x).trunk.align = x.trunk.align) ∧
      (stepSfp s w).ports = s.ports.map fun kv => (kv.1, g kv.2) :=
    ⟨fun x => { x with trunk := { x.trunk with slipAt := x.trunk.slipAt.map (shiftPos s.sfp (stepSfp s w).sfp) } },
      fun _ => rfl, rfl⟩
  rw [aligns, portOf, mapped, tget_map, aligns, portOf, tget]
  cases tfind s.ports p
  · rfl
  · exact same _

/-- The input of FP_REALIGN counts anew. -/
def readied (s : State) (k : Nat) : State :=
  onThy (onFp (onThy s (fun t => { t with pendRealign := none })) k (fun x => { x with good := 0, off := 0, missed := 0 }))
    (fun t => { t with fpAligned := true })

theorem readied_act (s : State) (k : Nat) : get .act (readied s k) = get .act s := rfl

/-- The state in which the step of FP_REALIGN finds its way to the input's instant. -/
def beforeStep (s : State) (k : Nat) : State := realigned (readied s k)

theorem xFpRealignStep_some {s : State} {k : Nat} (due : s.thy.pendRealign = some s.sfp) (input : realignInput s = some k) :
    xFpRealignStep s = stepSfp (realignWait (beforeStep s k) k).2 (realignWait (beforeStep s k) k).1 := by
  have same : realignInput (onThy s (fun t => { t with pendRealign := none })) = some k := input
  simp only [xFpRealignStep, due, if_true, same]
  rfl

theorem xFpRealignStep_none {s : State} (due : s.thy.pendRealign = some s.sfp) (input : realignInput s = none) :
    xFpRealignStep s = { s with thy := { s.thy with pendRealign := none } } := by
  have same : realignInput (onThy s (fun t => { t with pendRealign := none })) = none := input
  simp only [xFpRealignStep, due, if_true, same]
  rfl

theorem realignWait_snd (s : State) (k : Nat) : ∃ n, (realignWait s k).2 = { s with fresh := n } := by
  unfold realignWait
  split
  · exact ⟨s.fresh, rfl⟩
  · exact ⟨_, rfl⟩

theorem realignWait_of {s t : State} {k : Nat} {a : Sfp} (found : (fpOf t k).last = some a)
    (comp : fpComp t k = fpComp s k) (count : t.sfp = s.sfp) : (realignWait t k).1 = instantWait s k a := by
  simp only [realignWait, found, instantWait, comp, count]

theorem beforeStep_get {f : Part} (s : State) (k : Nat) (ports : f ≠ .ports) (sage : f ≠ .sage) (hist : f ≠ .hist) :
    get f (beforeStep s k) = get f (readied s k) := realigned_get _ ports sage hist

theorem fpRealignStep_facts {s t : State} {k : Nat} (due : s.thy.pendRealign = some s.sfp)
    (input : realignInput s = some k) (below : s.sfp.mfc < 2 ^ 48) (h : xFpRealignStep s = t) :
    t.sfp.mfc = s.sfp.mfc ∧ t.thy.pendRealign = none ∧
      (∀ a, (fpOf s k).last = some a → (t.sfp.fi * 163768 + t.sfp.bi + instantWait s k a) % 5240576 = 0) ∧
      (∀ p : Fin 128, isTrunk s p = true → inFrame (portOf t p).trunk = false) := by
  obtain ⟨n, drawn⟩ := realignWait_snd (beforeStep s k) k
  have count : get .sfp (beforeStep s k) = s.sfp := beforeStep_get s k (by decide) (by decide) (by decide)
  have fp : fpOf (beforeStep s k) k = { fpOf s k with good := 0, off := 0, missed := 0 } :=
    (fpOf_of_get (beforeStep_get s k (by decide) (by decide) (by decide)) k).trans
      (fpOf_onFp_same (onThy s (fun t => { t with pendRealign := none })) k
        (fun x => { x with good := 0, off := 0, missed := 0 }))
  rw [xFpRealignStep_some due input, drawn] at h
  have sfp : t.sfp = sfpAdd (epochAt s.sfp.mfc)
      ((mfBlocks - (realignWait (beforeStep s k) k).1 % mfBlocks) % mfBlocks) := by
    rw [← h, stepSfp_sfp]
    exact congrArg (fun p : Sfp => sfpAdd (epochAt p.mfc) _) count
  obtain ⟨mfc, back⟩ := sfpAdd_back s.sfp.mfc (realignWait (beforeStep s k) k).1 below
  rw [← sfp] at mfc back
  refine ⟨mfc, ?_, fun a last => ?_, fun p trunk => ?_⟩
  · have thy : (beforeStep s k).thy.pendRealign = none :=
      congrArg (fun x : ThySt => x.pendRealign)
        (thy_of_get (beforeStep_get s k (by decide) (by decide) (by decide)) (beforeStep_get s k (by decide) (by decide) (by decide)))
    rw [← h]
    show Option.map _ (beforeStep s k).thy.pendRealign = none
    rw [thy]
    rfl
  · have wait : (realignWait (beforeStep s k) k).1 = instantWait s k a := by
      have found : (fpOf (beforeStep s k) k).last = some a := by rw [fp]; exact last
      have comp : fpComp (beforeStep s k) k = fpComp s k := by
        have view : actv (beforeStep s k) = actv s :=
          actv_of_get ((beforeStep_get s k (by decide) (by decide) (by decide)).trans (readied_act s k))
        rw [fpComp, view, fpComp]
      exact realignWait_of found comp count
    rwa [wait] at back
  · have trunk' : isTrunk (readied s k) p = true := by
      rwa [isTrunk_of_get (readied_act s k)]
    have out : inFrame (portOf (beforeStep s k) p).trunk = false :=
      loseFrames_out allPorts (readied s k) trunk' (.inl (mem_allPorts p))
    have align : aligns t p = aligns (beforeStep s k) p := by
      rw [← h, stepSfp_ports]
      exact congrFun (aligns_of_get (get_fresh (f := .ports) (beforeStep s k) n (by decide))) p
    simp only [aligns] at align
    simp only [inFrame, align] at out ⊢
    exact out

/-- What a row of a frame pulse does, by what the pulse is. -/
theorem exec_fpEdge {s : State} {k : Fin 3} (on : powered s = true) (en : fpEnabled s k = true)
    (ready : k.val = 2 → mfcPortReady s = true) : exec (.fpEdge k) s = .next (
      if fpExtra s k then fpRec (cThy s 6) k 2
      else if fpPredicted s k then
        (if (fpErr s k).natAbs ≤ tFpWindow (actv s) then fpOnTime s k (fpErr s k) else fpOffTime s k (fpErr s k))
      else if fpRegular s k then fpOnTime s k 0 else fpIrregular s k) := by
  have in_ : (fpEnabled s k && (decide ((k : Nat) < 2) || mfcPortReady s)) = true := by
    by_cases low : (k : Nat) < 2
    · simp [en, low]
    · simp [en, ready (by omega)]
  simp only [exec, execFpEdge, live_on on, xFpPulse, in_, if_true]

/-- Settles O8: each row meets its condition and is one change, of the history, of an input or of the count. -/
theorem historyAndPulses : Obligations.HistoryAndPulses := by
  unfold Obligations.HistoryAndPulses
  refine ⟨fun freq spread temp s on epoch due below begun => ?_, fun k s on en ready => ⟨⟨fun extra => ?_,
    fun extra predicted near few => ?_, fun extra predicted far => ?_, fun extra predicted => ⟨fun regular few => ?_,
    fun irregular => ?_⟩⟩, fun missing => ?_⟩, fun s k on due input below => ?_, fun s on due input => ?_⟩
  · have row : exec (.historySample freq spread temp) s = .next (xHistorySample freq spread temp s) := by
      simp only [exec, execHistorySample, live_on on]
    have receives : xHistorySample.mirrored s = true ↔ s.pair.st = .standby ∨ s.pair.st = .syncing := by
      simp [xHistorySample.mirrored]
    rw [row]
    by_cases ok : tempOk temp
    · rw [xHistorySample_good epoch due begun ok]
      obtain ⟨hist_, st, ctl, only⟩ := sampled_facts s s (histEntry s freq spread temp) rfl (.refl _ _)
      obtain ⟨mfc, run, held, valid, fault, cand, free⟩ := histEntry_facts s freq spread temp below
      refine ⟨_, rfl, fun twin => ?_, fun other own => ?_, fun _ => ?_, fun bad => absurd ok bad, st, ctl, only.frame⟩
      · rw [hist_, if_pos (receives.mpr twin)]
      · have alone : ¬ xHistorySample.mirrored s = true := fun h => (receives.mp h).elim other own
        rw [hist_, if_neg alone]
        exact ⟨rfl, mfc, run, held, valid, fault, cand, free, fun _ => rfl, fun bad => absurd ok bad⟩
      · simp only [ctrVal, sampled, mirror_sage, onThy_sage]
    · rw [xHistorySample_bad epoch due begun ok]
      obtain ⟨hist_, st, ctl, only⟩ := sampled_facts s (sticky (cThy s 4) hThy 0x40) (histEntry s freq spread 0x8000) rfl
        fun f out => by simp at out; simp [out]
      obtain ⟨mfc, run, held, valid, fault, cand, free⟩ := histEntry_facts s freq spread 0x8000 below
      refine ⟨_, rfl, fun twin => ?_, fun other own => ?_, fun good => absurd good ok, fun _ => ⟨?_, ?_⟩, st, ctl,
        only.frame⟩
      · rw [hist_, if_pos (receives.mpr twin)]
      · have alone : ¬ xHistorySample.mirrored s = true := fun h => (receives.mp h).elim other own
        rw [hist_, if_neg alone]
        exact ⟨rfl, mfc, run, held, valid, fault, cand, free, fun good => absurd good ok, fun _ => rfl⟩
      · simp only [Counted, ctrVal, sampled, mirror_sage, onThy_sage, sticky_sage]
        exact counted_count s 5 4
      · simp only [hist, sampled, mirror_regs, onThy_regs]
        exact bit_sticky (by decide) (cThy s 4) hThy
  · have row : exec (.fpEdge k) s = .next (fpRec (cThy s 6) k 2) := by rw [exec_fpEdge on en ready, if_pos extra]
    refine ⟨_, row, ?_, rfl, Only.frame (l := [.sage, .hist]) fun f out => ?_⟩
    · exact (ctrVal_trace _ _ _ _ _ (by decide) (by decide)).trans (counted_count s 5 6)
    · simp at out
      simp [out]
  · have row : exec (.fpEdge k) s = .next (fpOnTime s k (fpErr s k)) := by
      rw [exec_fpEdge on en ready, if_neg (by simp [extra]), if_pos predicted, if_pos near]
    obtain ⟨good, onTime, missed, last, -, frame⟩ := fpOnTime_facts (err := fpErr s k) few rfl
    exact ⟨_, row, good, onTime, missed, last, by rw [frame], frame⟩
  · have row : exec (.fpEdge k) s = .next (fpOffTime s k (fpErr s k)) := by
      rw [exec_fpEdge on en ready, if_neg (by simp [extra]), if_pos predicted, if_neg (by omega)]
    obtain ⟨good, last, only⟩ := fpOffTime_facts (s := s) (k := k) (err := fpErr s k) rfl
    exact ⟨_, row, good, last, only .sfp (by decide), (only.mono (l' := [.thy, .cands, .sage, .hist]) (by simp)).frame⟩
  · have row : exec (.fpEdge k) s = .next (fpOnTime s k 0) := by
      rw [exec_fpEdge on en ready, if_neg (by simp [extra]), if_neg (by simp [predicted]), if_pos regular]
    obtain ⟨good, -, -, -, present, frame⟩ := fpOnTime_facts (err := 0) few rfl
    exact ⟨_, row, good, present.trans regular, frame⟩
  · have row : exec (.fpEdge k) s = .next (fpIrregular s k) := by
      rw [exec_fpEdge on en ready, if_neg (by simp [extra]), if_neg (by simp [predicted]), if_neg (by simp [irregular])]
    have fp : fpOf (fpIrregular s k) k
        = { fpOf s k with last := some s.sfp, present := false, good := 0, off := 0, onTime := false } :=
      fpOf_onFp_same _ _ _
    exact ⟨_, row, by rw [fp], by rw [fp], by rw [fp], rfl⟩
  · obtain ⟨counted, good, many, few, only⟩ := fpMiss_facts en missing rfl
    have row : exec (.fpMiss k) s = .next (xFpMiss k s) := by simp only [exec, execFpMiss, live_on on]
    exact ⟨_, row, counted, good, many, few, only .sfp (by decide),
      (only.mono (l' := [.thy, .cands, .sage, .hist]) (by simp)).frame⟩
  · have row : exec .fpRealignAct s = .next (xFpRealignStep s) := by simp only [exec, execFpRealignAct, live_on on]
    exact ⟨_, row, fpRealignStep_facts due input below rfl⟩
  · simp only [exec, execFpRealignAct, live_on on, xFpRealignStep_none due input]

/-! ESMC (R36, R146). -/

theorem qlTake_listed {c : Nat} (listed : c = 2 ∨ c = 4 ∨ c = 8 ∨ c = 11 ∨ c = 15) (s : State) :
    qlTake s (BitVec.ofNat 4 c) = (s, BitVec.ofNat 4 c) := by
  rcases listed with rfl | rfl | rfl | rfl | rfl <;> rfl

theorem qlTake_other {c : Nat} (below : c < 16) (other : ¬ (c = 2 ∨ c = 4 ∨ c = 8 ∨ c = 11 ∨ c = 15)) (s : State) :
    qlTake s (BitVec.ofNat 4 c) = (cThy s 10, 0xF) := by
  have unknown : qlKnown (BitVec.ofNat 4 c) = false := by
    have all : ∀ c : Fin 16, ¬ (c.val = 2 ∨ c.val = 4 ∨ c.val = 8 ∨ c.val = 11 ∨ c.val = 15) →
      qlKnown (BitVec.ofNat 4 c) = false := by decide
    exact all ⟨c, below⟩ other
  rw [qlTake, unknown]
  rfl

/-- Settles O9: a PDU is its count and its code, the timeout its two counts and DNU. -/
theorem esmcRows : Obligations.EsmcRows := by
  unfold Obligations.EsmcRows
  intro p f n s on client
  refine ⟨fun ok => ?_, fun age old fresh_ => ?_⟩
  · have below : bits (f.getD 27 0) 3 0 < 16 := Nat.mod_lt _ (by decide)
    simp only [exec, execEsmcPduReceive, live_on on, xEsmcPduReceive, client, ok, if_true]
    generalize bits (f.getD 27 0) 3 0 = c at below ⊢
    have elsewhere : ∀ q : Fin 128, q ≠ p → q.val ≠ p.val := fun q other h => other (Fin.ext h)
    by_cases listed : c = 2 ∨ c = 4 ∨ c = 8 ∨ c = 11 ∨ c = 15
    · rw [qlTake_listed listed]
      refine ⟨_, rfl, ?_, by simp, by simp, by simp, ⟨fun _ => ⟨by simp, by simp [ctrVal_cPort_block]⟩, fun h => by tauto⟩,
        fun q other => ?_, Only.frame (l := [.ports, .sage]) fun f out => ?_⟩
      · simp only [Counted, ctrVal_onPort, ctrVal_onClient, ctrVal_cPort_same]
      · simp [portOf_onClient_ne _ _ (elsewhere q other), portOf_onPort_ne _ _ (elsewhere q other)]
      · simp at out
        simp [out]
    · rw [qlTake_other below listed]
      refine ⟨_, rfl, ?_, by simp, by simp, by simp, ⟨fun h => absurd h listed, fun _ => ⟨by simp, ?_⟩⟩,
        fun q other => ?_, Only.frame (l := [.ports, .sage]) fun f out => ?_⟩
      · simp only [Counted, ctrVal_onPort, ctrVal_onClient, ctrVal_cThy_port _ _ _ (by decide : 10 < 65536), ctrVal_cPort_same]
      · simp only [Counted, ctrVal_onPort, ctrVal_onClient, ctrVal_cThy_same]; rw [ctrVal_cPort_block _ _ _ _ (by decide) (by decide)]
      · simp [portOf_onClient_ne _ _ (elsewhere q other), portOf_onPort_ne _ _ (elsewhere q other)]
      · simp at out
        simp [out]
  · have row : exec (.esmcTimeout p) s = .next (cPort (cThy (onClient (onPort s p (fun x =>
        { x with ql := 0xF, qlStale := true })) p (fun c => { c with qlPend := none })) 11) p 43 1) := by
      simp [exec, execEsmcTimeout, live_on on, xEsmcTimeout, age, client, old, fresh_]
    refine ⟨_, row, by simp, by simp, ?_, ?_, fun q other => ?_, Only.frame (l := [.ports, .sage]) fun f out => ?_⟩
    · rw [Counted, ctrVal_cPort_block _ _ _ _ (by decide) (by decide), ctrVal_cThy_same]
      rfl
    · rw [Counted, ctrVal_cPort_same, ctrVal_cThy_port _ _ _ (by decide)]
      rfl
    · have apart : q.val ≠ p.val := fun h => other (Fin.ext h)
      simp [portOf_onClient_ne _ _ apart, portOf_onPort_ne _ _ apart]
    · simp at out
      simp [out]

end Sys2Proof.Machine
end

section
/-! Commands in execution, what they answer and stage, and the fields of packed bytes; the timing family (O10). -/

namespace Sys2Proof.Machine

open Sys2Proof

/-! Commands in execution: their work, their reply and what they stage. -/

/-- The command in execution has begun its work. -/
def started (s : State) : State := onRun s (fun x => { x with work := 1 })

theorem onRun_rest {part : Part} (s : State) (f : Run → Run) (run : part ≠ .run) : get part (onRun s f) = get part s := by
  cases part with
  | run => exact absurd rfl run
  | _ => rfl

@[simp] theorem started_get {f : Part} (s : State) (run : f ≠ .run) : get f (started s) = get f s := onRun_rest s _ run

theorem started_run {s : State} {q : Run} (h : s.vcp.run = some q) : (started s).vcp.run = some { q with work := 1 } :=
  onRun_run h _

/-- The row of an accepted command in one part is its body. -/
theorem once_row {op : BitVec 16} {r : Req} {q : Run} {s : State} (h : Accepted op r q s) (body : Run → State → State) :
    live s (runOnce op r body s) = body q (started s) := by
  rw [live_on h.1.1, runOnce_accepted h]
  rfl

/-- The row of an accepted command in several parts is its body. -/
theorem steps_row {op : BitVec 16} {r : Req} {q : Run} {s : State} (h : Accepted op r q s) (body : Run → State → State) :
    live s (runSteps op r body s) = body q (started s) := by
  rw [live_on h.1.1, runSteps_accepted h]
  rfl

/-- A command that answers and does nothing else. -/
theorem answered {s : State} {q : Run} (h : s.vcp.run = some q) (st d : Byte) (data : Bytes) :
    Answers (setReply (started s) st d data) st d data ∧ answer (setReply (started s) st d data) = data ∧
      setReply (started s) st d data = { s with vcp := (setReply (started s) st d data).vcp } :=
  ⟨setReply_answers (started_run h) _ _ _, setReply_answer (started_run h) _ _ _,
    Only.frame (l := [.vcp, .run]) fun f out => by simp at out; simp [out]⟩

/-- The row of an accepted command that answers at once. -/
theorem answer_row {op : BitVec 16} {r : Req} {q : Run} {s : State} (h : Accepted op r q s) {body : Run → State → State}
    {st d : Byte} {data : Bytes} (reply : body q (started s) = setReply (started s) st d data) :
    ∃ t, live s (runOnce op r body s) = t ∧
      Answers t st d data ∧ answer t = data ∧ t = { s with vcp := t.vcp } := by
  rw [once_row h, reply]
  exact ⟨_, rfl, answered h.1.2.2.1 _ _ _⟩

/-- A command that leaves an effect to its completion. -/
theorem replyEnd_facts {s : State} {q : Run} (h : s.vcp.run = some q) (e : EndAct) :
    Answers (replyEnd (started s) e) 0 0 [] ∧ AtEnd (replyEnd (started s) e) e ∧
      replyEnd (started s) e = { s with vcp := (replyEnd (started s) e).vcp } := by
  have run := onRun_run (started_run h) (fun r => { r with atEnd := some e })
  refine ⟨setReply_answers run _ _ _, ?_, Only.frame (l := [.vcp, .run]) fun f out => by simp at out; simp [out]⟩
  simp [AtEnd, replyEnd, replyOk, setReply, run, onVcp]

/-- The row of an accepted command that leaves an effect to its completion. -/
theorem replyEnd_row {op : BitVec 16} {r : Req} {q : Run} {s : State} (h : Accepted op r q s) {body : Run → State → State}
    {e : EndAct} (reply : body q (started s) = replyEnd (started s) e) :
    ∃ t, live s (runOnce op r body s) = t ∧ Answers t 0 0 [] ∧ AtEnd t e ∧ t = { s with vcp := t.vcp } := by
  rw [once_row h, reply]
  exact ⟨_, rfl, replyEnd_facts h.1.2.2.1 e⟩

/-! The end of a command. -/

/-- The command has left the sequencer, and its reply is on its way. -/
def replied (s : State) (q : Run) (a : Reply) : State :=
  let s1 := setStageBits (onVcp s (fun v => { v with run := none })) 0 s.com.suspect
  sendReply s1 { a with data := (endOf s1 q).2 ++ a.data }

@[simp] theorem replied_get {f : Part} (s : State) (q : Run) (a : Reply) (stageOpen : f ≠ .stageOpen)
    (suspect : f ≠ .suspect) (mir : f ≠ .mir) (ports : f ≠ .ports) (vcp : f ≠ .vcp) (run : f ≠ .run) (mgA : f ≠ .mgA)
    (mgB : f ≠ .mgB) (sage : f ≠ .sage) : get f (replied s q a) = get f s := by
  simp [replied, stageOpen, suspect, mir, ports, vcp, run, mgA, mgB, sage]

theorem replied_run (s : State) (q : Run) (a : Reply) : (replied s q a).vcp.run = none := by
  have kept : get .run (replied s q a) = get .run (onVcp s (fun v => { v with run := none })) := by simp [replied]
  exact kept

theorem complete_row {s : State} {q : Run} {a : Reply} (on : powered s = true) (run : s.vcp.run = some q)
    (reply : q.reply = some a) :
    exec .commandComplete s =
      .next (latPush (endOf (replied s q a) q).1 (latOf q a.status a.detail (some s.sfp))) := by
  show Host.Outcome.next (live s (xCommandComplete s)) = _
  rw [live_on on, xCommandComplete, run]
  simp only [reply]
  rfl

/-! Fields of packed bytes. -/

@[simp] theorem beBytes_length (n v : Nat) : (beBytes n v).length = n := by
  induction n with
  | zero => rfl
  | succ n ih => simp [beBytes, ih]

@[simp] theorem zeros_length (n : Nat) : (zeros n).length = n := List.length_replicate

@[simp] theorem length_wordBytes (w : Word) : (wordBytes w).length = 4 := beBytes_length 4 _

theorem beNat_append_one (b : Bytes) (x : Byte) : beNat (b ++ [x]) = beNat b * 256 + x.toNat := by simp [beNat]

theorem beNat_cons (x : Byte) (b : Bytes) : beNat (x :: b) = x.toNat * 256 ^ b.length + beNat b := by
  induction b using List.reverseRecOn with
  | nil => simp [beNat]
  | append_singleton b y ih =>
    rw [← List.cons_append, beNat_append_one, ih, beNat_append_one, List.length_append, List.length_singleton, pow_succ]
    ring

theorem beNat_beBytes (n v : Nat) : beNat (beBytes n v) = v % 256 ^ n := by
  induction n with
  | zero => simp [beBytes, beNat, Nat.mod_one]
  | succ n ih =>
    rw [beBytes, beNat_cons, beBytes_length, ih, BitVec.toNat_ofNat, show 256 ^ (n + 1) = 256 ^ n * 256 from rfl,
      Nat.mod_mul (a := 256 ^ n) (b := 256) (x := v)]
    ring

theorem pkNat_eq_beNat (b : Bytes) (n : Nat) (h : b.length = n) (c : Bytes) : pkNat (b ++ c) 0 n = beNat b := by
  have same : (rangeFrom 0 n).map (fun i => (b ++ c).getD i 0) = b := by
    refine List.ext_getElem (by simp [rangeFrom, h]) fun i hi hb => ?_
    simp [rangeFrom, List.getElem?_append_left hb, List.getElem?_eq_getElem hb]
  rw [pkNat, same]

@[simp] theorem pkNat_cons (x : Byte) (b : Bytes) (lo n : Nat) : pkNat (x :: b) (lo + 1) n = pkNat b lo n := by
  simp [pkNat, rangeFrom, Function.comp_def, Nat.add_right_comm lo 1]

theorem pkNat_append (a b : Bytes) (lo n : Nat) : pkNat (a ++ b) (a.length + lo) n = pkNat b lo n := by
  induction a with
  | nil => simp
  | cons x a ih => rw [List.cons_append, List.length_cons, Nat.add_right_comm, pkNat_cons, ih]

@[simp] theorem pkNat_skip (k v : Nat) (b : Bytes) (lo n : Nat) (h : k ≤ lo) :
    pkNat (beBytes k v ++ b) lo n = pkNat b (lo - k) n := by
  have := pkNat_append (beBytes k v) b (lo - k) n
  rwa [beBytes_length, Nat.add_sub_cancel' h] at this

@[simp] theorem pkNat_here (n v : Nat) (b : Bytes) : pkNat (beBytes n v ++ b) 0 n = v % 256 ^ n := by
  rw [pkNat_eq_beNat _ _ (beBytes_length n v), beNat_beBytes]

@[simp] theorem pkNat_last (n v : Nat) : pkNat (beBytes n v) 0 n = v % 256 ^ n := by
  have := pkNat_here n v []
  rwa [List.append_nil] at this

@[simp] theorem pk1_zero (x : Byte) (b : Bytes) : pk1 (x :: b) 0 = x.toNat := rfl

@[simp] theorem pk1_cons (x : Byte) (b : Bytes) (i : Nat) : pk1 (x :: b) (i + 1) = pk1 b i := rfl

@[simp] theorem pk1_skip (k v : Nat) (b : Bytes) (i : Nat) (h : k ≤ i) : pk1 (beBytes k v ++ b) i = pk1 b (i - k) := by
  simp [pk1, List.getElem?_append_right (by simp [h] : (beBytes k v).length ≤ i)]

@[simp] theorem by1_toNat (v : Nat) : (by1 v).toNat = v % 256 := BitVec.toNat_ofNat v 8

theorem bit_by1 (v i : Nat) (h : i < 8) : bit (by1 v) i = v.testBit i := by
  rw [bit, by1, BitVec.getLsbD_ofNat, decide_eq_true h, Bool.true_and]

/-! Staged words. -/

theorem tget_tput_other {α : Type} [DecidableEq α] (d d' : α) (t : Tbl α) {i j : Nat} (x : α) (h : j ≠ i) :
    tget d (tput d' t i x) j = tget d t j := by
  unfold tput tget
  split
  · rw [tfind_tdel_ne t h]
  · rw [tfind_tset_ne t x h]

theorem stg_stgPut (s : State) (a : Nat) (w : Word) (b : Nat) :
    stgv (stgPut s a w) b = if a = b then w else stgv s b := by
  have kept : stgv (stgPut s a w) b = stg (onRegs s (setStg a w)) b := by
    have : (stgPut s a w).regs.stg = (onRegs s (setStg a w)).regs.stg := by
      show get .stg (mirror _ _) = get .stg _
      simp
    rw [stgv, stg, this, stg]
  rw [kept]
  split
  · next same => rw [same]; simp [stg, onRegs, setStg]
  · next apart => exact tget_tput_other _ _ _ _ (Ne.symm apart)

theorem stg_stage (s : State) (a v b : Nat) : stgv (stage s a v) b = if a = b then word v else stgv s b :=
  stg_stgPut s a (word v) b

/-- Words staged from a view: the view's words at the addresses of the list. -/
theorem stg_forEach_stgPut (l : List Nat) (s : State) (v : View) (b : Nat) :
    stgv (forEach l s (fun t a => stgPut t a (v a))) b = if b ∈ l then v b else stgv s b := by
  induction l generalizing s with
  | nil => rfl
  | cons a l ih =>
    rw [forEach_cons, ih, stg_stgPut]
    by_cases here : a = b
    · simp [here]
    · simp [here, Ne.symm here]

/-- What a list of staged words leaves at an address: the last word for it. -/
theorem stg_stageList (l : List (Nat × Nat)) (s : State) (b : Nat) :
    stgv (stageList s l) b = l.foldl (fun w x => if x.1 = b then word x.2 else w) (stgv s b) := by
  induction l generalizing s with
  | nil => rfl
  | cons x l ih =>
    show stgv (stageList (stage s x.1 x.2) l) b = _
    rw [ih, stg_stage]
    rfl

theorem stgv_of_get {s t : State} (h : get .stg t = get .stg s) : stgv t = stgv s := by
  funext a
  show tget _ t.regs.stg a = tget _ s.regs.stg a
  rw [show t.regs.stg = s.regs.stg from h]

theorem openDomains_com (s : State) (m : BitVec 8) :
    (openDomains s m).com.stageOpen = s.com.stageOpen ||| m ∧ (openDomains s m).com.suspect = s.com.suspect := by
  show get .stageOpen _ = _ ∧ get .suspect _ = _
  unfold openDomains setStageBits
  split <;> simp [get, onCom]

/-- Opening domains changes STAGE_OPEN alone, and the mirror. -/
@[simp] theorem openDomains_rest {f : Part} (s : State) (m : BitVec 8) (open_ : f ≠ .stageOpen) (mir : f ≠ .mir) :
    get f (openDomains s m) = get f s := by
  by_cases suspect : f = .suspect
  · subst suspect
    exact (openDomains_com s m).2
  · simp [open_, suspect, mir]

/-- A staging command whose domains are not frozen stages its words and answers OK. -/
def stagedOk (m : BitVec 8) (l : List (Nat × Nat)) (s : State) : State :=
  replyOk (stageList (openDomains (started s) m) l) []

theorem staging_ok {m : BitVec 8} {s : State} (thawed : frozenAny s m = false) (free : mirHeld s = false)
    (l : List (Nat × Nat)) : staging m (started s) (fun t => replyOk (stageList t l) []) = stagedOk m l s := by
  have thawed : frozenAny (started s) m = false := thawed
  have free : mirHeld (started s) = false := free
  rw [staging, thawed, free]
  rfl

theorem stagedOk_facts {s : State} {q : Run} (h : s.vcp.run = some q) (m : BitVec 8) (l : List (Nat × Nat)) :
    Answers (stagedOk m l s) 0 0 [] ∧ Staged s (stagedOk m l s) m := by
  have run : (stageList (openDomains (started s) m) l).vcp.run = some { q with work := 1 } := by
    rw [← started_run h]
    show get .run _ = get .run _
    simp
  refine ⟨setReply_answers run _ _ _, ?_, Only.frame (l := [.vcp, .run, .stageOpen, .mir, .stg]) fun f out => ?_⟩
  · refine Eq.trans ?_ (openDomains_com (started s) m).1
    show get .stageOpen _ = get .stageOpen _
    simp [stagedOk]
  · simp at out
    simp [stagedOk, out]

theorem stg_stagedOk (m : BitVec 8) (l : List (Nat × Nat)) (s : State) (b : Nat) :
    stgv (stagedOk m l s) b = l.foldl (fun w x => if x.1 = b then word x.2 else w) (stgv s b) := by
  have opened : stgv (openDomains (started s) m) = stgv s := stgv_of_get (by simp)
  rw [← opened, ← stg_stageList, stagedOk, stgv_of_get (s := stageList (openDomains (started s) m) l) (by simp)]

/-- The row of an accepted staging command. -/
theorem staging_row {op : BitVec 16} {r : Req} {q : Run} {s : State} (h : Accepted op r q s) {body : Run → State → State}
    {m : BitVec 8} {l : List (Nat × Nat)} (thawed : frozenAny s m = false) (free : mirHeld s = false)
    (args : body q (started s) = staging m (started s) (fun t => replyOk (stageList t l) [])) :
    ∃ t, live s (runOnce op r body s) = t ∧
      Answers t 0 0 [] ∧ (∀ b, stgv t b = l.foldl (fun w x => if x.1 = b then word x.2 else w) (stgv s b)) ∧
      Staged s t m := by
  rw [once_row h, args, staging_ok thawed free]
  obtain ⟨reply, staged⟩ := stagedOk_facts h.1.2.2.1 m l
  exact ⟨_, rfl, reply, stg_stagedOk m l s, staged⟩

/-- A staging command that finds no space in the mirror queue waits. -/
theorem staging_waits {m : BitVec 8} {s : State} {q : Run} (h : s.vcp.run = some q) (idle : q.work = 0)
    (thawed : frozenAny s m = false) (full : mirHeld s = true) (body : State → State) : staging m (started s) body = s := by
  have thawed : frozenAny (started s) m = false := thawed
  have full : mirHeld (started s) = true := full
  rw [staging, thawed, full]
  refine ext_get fun f => ?_
  by_cases run : f = .run
  · subst run
    show (onRun (started s) _).vcp.run = s.vcp.run
    rw [onRun_run (started_run h), h, ← idle]
  · exact (onRun_rest _ _ run).trans (started_get s run)

theorem frozenAny_one {s : State} (m : BitVec 8) (d : Nat) (only : ∀ e < 8, bit m e = true → e = d) (thawed : frozenNow s d = false) :
    frozenAny s m = false := by
  simp only [frozenAny, List.any_eq_false, Bool.and_eq_true, not_and, Bool.not_eq_true]
  intro e below on
  rw [only e (List.mem_range.mp below) on, thawed]

/-! The timing family of commands (Table 14-3). -/

theorem bits_word (n hi lo : Nat) : bits (word n) hi lo = n % 2 ^ 32 / 2 ^ lo % 2 ^ (hi + 1 - lo) := by
  simp [bits, word]

theorem at1_cases (b : Bool) (i : Nat) : at1 b i = 0 ∨ at1 b i = 2 ^ i := by
  cases b <;> simp [at1]

theorem pk1_lt (p : Bytes) (i : Nat) : pk1 p i < 256 := (p.getD i 0).isLt

theorem candArgsOk_ranges {p : Bytes} (ok : candArgsOk p = true) :
    pk1 p 1 ≤ 15 ∧ pk1 p 2 ≤ 127 ∧ pkNat p 6 2 ≤ 600 ∧ pkNat p 8 2 ≤ 840 := by
  simp only [candArgsOk, inR, Bool.and_eq_true, decide_eq_true_eq] at ok
  obtain ⟨⟨⟨⟨_, prio⟩, _, hold⟩, _, wtr⟩, rest⟩ := ok
  refine ⟨prio, ?_, hold, wtr⟩
  split at rest
  · simp at rest
    omega
  · split at rest <;> simp at rest <;> omega

theorem candWords_fields {p : Bytes} (ok : candArgsOk p = true) {v w : View}
    (staged : ∀ b, w b = (candWords p).foldl (fun w x => if x.1 = b then word x.2 else w) (v b)) :
    cPrio w (pk1 p 0) = pk1 p 1 ∧ cLane w (pk1 p 0) = pk1 p 2 ∧ cHoldoff w (pk1 p 0) = pkNat p 6 2 ∧
      cWtr w (pk1 p 0) = pkNat p 8 2 := by
  obtain ⟨prio, lane, hold, wtr⟩ := candArgsOk_ranges ok
  have cfg : w (aCandCfg (pk1 p 0)) = word (fld (pk1 p 1) 4 0 + fld (pk1 p 2) 7 8 + fld (bits (candFlags p) 2 0) 3 16
      + at1 (bit (candFlags p) 3) 19 + at1 (bit (candFlags p) 4) 20 + fld (bits (p.getD 4 0) 3 0) 4 24) := by
    rw [staged]
    simp [candWords, aCandCfg, aCandTmr]
  have tmr : w (aCandTmr (pk1 p 0)) = word (fld (pkNat p 6 2) 10 0 + fld (pkNat p 8 2) 10 16) := by
    rw [staged]
    simp [candWords, aCandCfg, aCandTmr]
  have b3 := at1_cases (bit (candFlags p) 3) 19
  have b4 := at1_cases (bit (candFlags p) 4) 20
  refine ⟨?_, ?_, ?_, ?_⟩
  · rw [cPrio, cfg, bits_word]
    simp only [fld]
    omega
  · rw [cLane, cfg, bits_word]
    simp only [fld]
    omega
  · rw [cHoldoff, tmr, bits_word]
    simp only [fld]
    omega
  · rw [cWtr, tmr, bits_word]
    simp only [fld]
    omega

theorem thyWords_fields {p : Bytes} (ok : thyArgsOk p = true) {v w : View}
    (staged : ∀ b, w b = (thyWords p).foldl (fun w x => if x.1 = b then word x.2 else w) (v b)) :
    tMfcPort w = pk1 p 1 ∧ tAcqBw w = pk1 p 2 % 16 ∧ tTrackBw w = pk1 p 2 / 16 ∧ tLockWindow w = pk1 p 3 ∧
      tLockTime w = pkNat p 4 2 ∧ tFreqLimit w = pk1 p 7 ∧ tFpWindow w = pkNat p 8 2 := by
  simp only [thyArgsOk, inR, Bool.and_eq_true, decide_eq_true_eq, and_assoc] at ok
  obtain ⟨_, _, _, port, _, _, _, _, _, window, _, lock, _, _, _, limit, _, pulse, _⟩ := ok
  have bw := pk1_lt p 2
  have cfg0 : w aThyCfg0 = word (bits (p.getD 0 0) 5 0 + fld (pk1 p 1) 7 8 + fld (bits (p.getD 2 0) 3 0) 4 16
      + fld (bits (p.getD 2 0) 7 4) 4 20 + fld (bits (p.getD 6 0) 3 0) 4 24 + fld (bits (p.getD 6 0) 7 4) 4 28) := by
    rw [staged]
    rfl
  have cfg1 : w aThyCfg1 = word (fld (pk1 p 3) 7 0 + fld (pk1 p 7) 7 8 + fld (pkNat p 4 2) 13 16) := by
    rw [staged]
    rfl
  have fp : w aThyFp = word (fld (pkNat p 8 2) 13 0) := by
    rw [staged]
    rfl
  have low : bits (p.getD 2 0) 3 0 = pk1 p 2 % 16 := by simp [bits, pk1]
  have high : bits (p.getD 2 0) 7 4 = pk1 p 2 / 16 % 16 := by simp [bits, pk1]
  have b0 : bits (p.getD 0 0) 5 0 < 64 := Nat.mod_lt _ (by decide)
  refine ⟨?_, ?_, ?_, ?_, ?_, ?_, ?_⟩
  · rw [tMfcPort, cfg0, bits_word]
    simp only [fld]
    omega
  · rw [tAcqBw, cfg0, bits_word, ← low]
    simp only [fld]
    omega
  · rw [tTrackBw, cfg0, bits_word, high]
    simp only [fld]
    omega
  · rw [tLockWindow, cfg1, bits_word]
    simp only [fld]
    omega
  · rw [tLockTime, cfg1, bits_word]
    simp only [fld]
    omega
  · rw [tFreqLimit, cfg1, bits_word]
    simp only [fld]
    omega
  · rw [tFpWindow, fp, bits_word]
    simp only [fld]
    omega

theorem outWords_fields {p : Bytes} (ok : outArgsOk p = true) {v w : View}
    (staged : ∀ b, w b = [(aOutCfg (pk1 p 0), bits (p.getD 1 0) 4 0), (aOutCfg (pk1 p 0) + 4, pkNat p 4 4)].foldl
      (fun w x => if x.1 = b then word x.2 else w) (v b)) :
    oFreq w (pk1 p 0) = pk1 p 1 % 8 ∧ oSquelch w (pk1 p 0) = pk1 p 1 / 8 % 4 ∧
      w (aOutCfg (pk1 p 0) + 4) = word (pkNat p 4 4) := by
  have cfg : w (aOutCfg (pk1 p 0)) = word (pk1 p 1 % 32) := by
    rw [staged]
    simp [bits, pk1]
  refine ⟨?_, ?_, ?_⟩
  · rw [oFreq, cfg, bits_word]
    omega
  · rw [oSquelch, cfg, bits_word]
    omega
  · rw [staged]
    simp

/-- Where a column of flags stands alone at its bit. -/
theorem thyStatus_flags (st : ThyState) (a b c d e : Bool) :
    let v := thyCode st + at1 a 3 + at1 b 4 + at1 c 5 + at1 d 6 + at1 e 7
    v % 256 % 8 = thyCode st ∧ v.testBit 3 = a ∧ v.testBit 4 = b ∧ v.testBit 5 = c ∧ v.testBit 6 = d ∧ v.testBit 7 = e := by
  cases st <;> cases a <;> cases b <;> cases c <;> cases d <;> cases e <;> decide

theorem candWrite_body {r : Req} {q : Run} {s : State} (h : Accepted 0x0501 r q s) (ok : candArgsOk r.params = true) :
    xThyCandWrite q (started s) =
      staging 8 (started s) (fun t => replyOk (stageList t (candWords r.params)) []) := by
  simp [xThyCandWrite, h.1.2.2.2.1, ok]

theorem thyWrite_body {r : Req} {q : Run} {s : State} (h : Accepted 0x0502 r q s) (ok : thyArgsOk r.params = true) :
    xThyCfgWrite q (started s) =
      staging 8 (started s) (fun t => replyOk (stageList t (thyWords r.params)) []) := by
  simp [xThyCfgWrite, h.1.2.2.2.1, ok]

theorem outWrite_body {r : Req} {q : Run} {s : State} (h : Accepted 0x0503 r q s) (ok : outArgsOk r.params = true) :
    xThyOutWrite q (started s) = staging 8 (started s) (fun t => replyOk (stageList t
      [(aOutCfg (pk1 r.params 0), bits (r.params.getD 1 0) 4 0), (aOutCfg (pk1 r.params 0) + 4, pkNat r.params 4 4)]) []) := by
  simp only [xThyOutWrite, h.1.2.2.2.1, ok]
  rfl

theorem bits_lt {n : Nat} (w : BitVec n) (hi lo : Nat) : bits w hi lo < 2 ^ (hi + 1 - lo) :=
  Nat.mod_lt _ (Nat.two_pow_pos _)

theorem candLayout_fields (v : View) (c : Nat) (k i : Byte) :
    let b := [k, i] ++ candLayout v c
    b.length = 14 ∧ pk1 b 0 = k.toNat ∧ pk1 b 1 = i.toNat ∧ pk1 b 3 = cPrio v c ∧ pk1 b 4 = cLane v c ∧
      pkNat b 8 2 = cHoldoff v c ∧ pkNat b 10 2 = cWtr v c := by
  have prio : cPrio v c < 16 := bits_lt _ 3 0
  have lane : cLane v c < 128 := bits_lt _ 14 8
  have hold : cHoldoff v c < 1024 := bits_lt _ 9 0
  have wtr : cWtr v c < 1024 := bits_lt _ 25 16
  simp [candLayout]
  omega

theorem cfgRead_body {r : Req} {q : Run} {s : State} (h : Accepted 0x0504 r q s) (view : pk1 r.params 0 ≤ 1)
    (kind : pk1 r.params 1 = 1) (index : pk1 r.params 2 ≤ 13) :
    xThyCfgRead q (started s) = setReply (started s) 0 0
      ([by1 1, by1 (pk1 r.params 2)] ++ candLayout (viewSel s (pk1 r.params 0)) (pk1 r.params 2)) := by
  have inRange : ¬ (1 < pk1 r.params 0 ∨ 2 < pk1 r.params 1 ∨ (pk1 r.params 1 = 0 ∧ pk1 r.params 2 ≠ 0) ∨
      (pk1 r.params 1 = 1 ∧ 13 < pk1 r.params 2) ∨ (pk1 r.params 1 = 2 ∧ 5 < pk1 r.params 2)) := by omega
  rw [xThyCfgRead, h.1.2.2.2.1]
  simp only [if_neg inRange]
  rw [kind]
  rfl

/-- The fields of THY_STATUS. -/
def thyStatusBytes (s : State) : Bytes :=
  let t := s.thy
  by1 (thyCode t.st + at1 t.refFault 3 + at1 t.allDnu 4 + at1 t.mfcValid 5 + at1 t.mfcMism 6 + at1 t.flywheel 7) ::
    by1 (t.ref.getD 0xF + 16 * fpCode s) :: by1 t.bwEff.toNat :: by1 (bits (hist s hThy) 6 0) :: (wordBytes t.pbo
    ++ (beBytes 6 t.ctl.toNat ++ (by1 (at1 t.hoReady 0 + at1 (hbEarly s) 1) :: 0 :: (beBytes 6 t.hoFreq.toNat
    ++ (beBytes 2 t.hoCount ++ (beBytes 6 t.hoEnd.toNat ++ (beBytes 4 (hbAccumNs s) ++ (beBytes 4 t.hbRemain
    ++ (beBytes 2 t.days ++ (beBytes 2 t.temp.toNat ++ (zeros 4 ++ (List.range 14).flatMap (candRec s))))))))))))

theorem thyStatus_body (q : Run) (s : State) : xThyStatus q (started s) = setReply (started s) 0 0 (thyStatusBytes s) := by
  show replyOk (started s) _ = _
  rw [replyOk]
  congr 1

theorem candRec_length (s : State) (c : Nat) : (candRec s c).length = 8 := by simp [candRec]

theorem thyStatusBytes_fields (s : State) :
    let b := thyStatusBytes s
    b.length = 158 ∧ pk1 b 0 % 8 = thyCode s.thy.st ∧ bit (b.getD 0 0) 3 = s.thy.refFault ∧
      bit (b.getD 0 0) 4 = s.thy.allDnu ∧ bit (b.getD 0 0) 5 = s.thy.mfcValid ∧ bit (b.getD 0 0) 6 = s.thy.mfcMism ∧
      bit (b.getD 0 0) 7 = s.thy.flywheel ∧ pkNat b 4 4 = s.thy.pbo.toNat ∧ pkNat b 8 6 = s.thy.ctl.toNat := by
  obtain ⟨code, fault, dnu, valid, mism, fly⟩ :=
    thyStatus_flags s.thy.st s.thy.refFault s.thy.allDnu s.thy.mfcValid s.thy.mfcMism s.thy.flywheel
  have pbo := s.thy.pbo.isLt
  have ctl := s.thy.ctl.isLt
  refine ⟨?_, ?_, ?_, ?_, ?_, ?_, ?_, ?_, ?_⟩
  · simp [thyStatusBytes, candRec_length]
  · rw [thyStatusBytes, pk1_zero, by1_toNat]
    exact code
  · exact (bit_by1 _ 3 (by decide)).trans fault
  · exact (bit_by1 _ 4 (by decide)).trans dnu
  · exact (bit_by1 _ 5 (by decide)).trans valid
  · exact (bit_by1 _ 6 (by decide)).trans mism
  · exact (bit_by1 _ 7 (by decide)).trans fly
  · simp [thyStatusBytes, wordBytes]
    omega
  · simp [thyStatusBytes, wordBytes]
    omega

theorem thymeHistory_body {r : Req} {q : Run} {s : State} (h : Accepted 0x050B r q s) (first : pkNat r.params 0 2 ≤ 4095)
    (some_ : 1 ≤ pkNat r.params 2 2) (most : pkNat r.params 2 2 ≤ 80) (last : pkNat r.params 0 2 + pkNat r.params 2 2 ≤ 4096) :
    xThymeHistoryRead q (started s) = setReply (started s) 0 0 (beBytes 2 (pkNat r.params 0 2)
      ++ beBytes 2 (pkNat r.params 2 2) ++ (List.range (pkNat r.params 2 2)).flatMap
        (fun i => histBytes (s.thy.hist.getD (pkNat r.params 0 2 + i) {}))) := by
  have inRange : ¬ (4095 < pkNat r.params 0 2 ∨ pkNat r.params 2 2 = 0 ∨ 80 < pkNat r.params 2 2 ∨
      4096 < pkNat r.params 0 2 + pkNat r.params 2 2) := by omega
  rw [xThymeHistoryRead, h.1.2.2.2.1]
  simp only [if_neg inRange, rangeFrom, List.flatMap_map]
  rfl

theorem setQl_body {r : Req} {q : Run} {s : State} (h : Accepted 0x0506 r q s) (out : pk1 r.params 0 ≤ 3)
    (code : qlCode (pk1 r.params 1 % 16) = true) :
    xSetQl q (started s) = replyEnd (started s) (.ql (pk1 r.params 0) (BitVec.ofNat 4 (pk1 r.params 1 % 16))) := by
  have low : bits (r.params.getD 1 0) 3 0 = pk1 r.params 1 % 16 := by simp [bits, pk1]
  rw [xSetQl, h.1.2.2.2.1]
  simp only [low, code]
  rw [if_neg (by simp; omega)]

theorem thymeForce_body {r : Req} {q : Run} {s : State} (h : Accepted 0x0507 r q s)
    (known : pk1 r.params 0 ≤ 11 ∨ pk1 r.params 0 = 255) :
    xThymeForce q (started s) =
      replyEnd (started s) (.force (if pk1 r.params 0 = 255 then none else some (pk1 r.params 0))) := by
  have inRange : ¬ (11 < pk1 r.params 0 ∧ pk1 r.params 0 ≠ 0xFF) := by omega
  rw [xThymeForce, h.1.2.2.2.1]
  simp only [if_neg inRange]

theorem deniedState_row {op : BitVec 16} {r : Req} {q : Run} {s : State} (h : Accepted op r q s)
    {body : Run → State → State} (reply : body q (started s) = deniedState (started s)) :
    ∃ t, live s (runOnce op r body s) = t ∧ Answers t 4 9 [] ∧ t = { s with vcp := t.vcp } := by
  obtain ⟨t, row, answers, _, frame⟩ := answer_row h reply
  exact ⟨t, row, answers, frame⟩

theorem setMfc_rows {r : Req} {q : Run} {s : State} (h : Accepted 0x0508 r q s) :
    (tMfcMode (actv s) = false → xSetMfc q (started s) = replyEnd (started s) (.mfc (some (pkNat r.params 0 6)))) ∧
      (tMfcMode (actv s) = true → xSetMfc q (started s) = deniedState (started s)) := by
  have view : actv (started s) = actv s := rfl
  rw [xSetMfc, h.1.2.2.2.1, view]
  exact ⟨fun off => by rw [off]; rfl, fun on => by rw [on]; rfl⟩

theorem mfcRelearn_rows (q : Run) (s : State) :
    (tMfcMode (actv s) = true → xMfcRelearn q (started s) = replyEnd (started s) (.mfc none)) ∧
      (tMfcMode (actv s) = false → xMfcRelearn q (started s) = deniedState (started s)) := by
  have view : actv (started s) = actv s := rfl
  rw [xMfcRelearn, view]
  exact ⟨fun on => by rw [on]; rfl, fun off => by rw [off]; rfl⟩

theorem fpRealign_rows (q : Run) (s : State) :
    (tFrameSrc (actv s) ≠ 0 → (realignInput s).isSome = true → xFpRealign q (started s) = replyEnd (started s) .realign) ∧
      (tFrameSrc (actv s) = 0 ∨ realignInput s = none → xFpRealign q (started s) = deniedState (started s)) := by
  have view : actv (started s) = actv s := rfl
  have input : realignInput (started s) = realignInput s := rfl
  rw [xFpRealign, view, input]
  refine ⟨fun source found => if_neg ?_, fun none_ => if_pos ?_⟩
  · rintro (off | missing)
    · exact source off
    · simp [Option.isNone_iff_eq_none.mp missing] at found
  · exact none_.imp_right Option.isNone_iff_eq_none.mpr

/-- What the end of a timing command leaves pending. -/
theorem complete_thy {s : State} {q : Run} {a : Reply} {e : EndAct} {f : ThySt → ThySt} (on : powered s = true)
    (run : s.vcp.run = some q) (reply : q.reply = some a) (atEnd : q.atEnd = some e)
    (act : ∀ u : State, u.sfp = s.sfp → (endAct u e).1 = onThy u f) :
    ∃ t, exec .commandComplete s = .next t ∧ t.vcp.run = none ∧ t.thy = f s.thy := by
  have count : (replied s q a).sfp = s.sfp := by
    show get .sfp _ = get .sfp _
    simp
  have thy : (replied s q a).thy = s.thy := thy_of_get (by simp) (by simp)
  have ended : (endOf (replied s q a) q).1 = onThy (replied s q a) f := by
    rw [endOf, atEnd]
    exact act _ count
  refine ⟨_, complete_row on run reply, ?_, ?_⟩
  · rw [ended, ← replied_run s q a]
    show get .run _ = get .run _
    simp
  · rw [ended, ← thy]
    exact thy_of_get (t := latPush _ _) (s := onThy (replied s q a) f) (by simp) (by simp)

/-- Settles O10: each command is its body on a state that has begun its work. -/
theorem timingCommands : Obligations.TimingCommands := by
  unfold Obligations.TimingCommands
  refine ⟨fun r q s thawed free => ⟨fun h ok => ?_, fun h ok => ?_, fun h ok => ?_⟩, fun r q s thawed full h ok => ?_,
    fun r q s => ⟨fun h view kind index => ?_, fun h => ?_, fun h first some_ most last => ?_⟩,
    fun r q s => ⟨fun h out code => ?_, fun h known => ?_, fun h => ⟨fun off => ?_, fun on => ?_⟩,
      fun h => ⟨fun on => ?_, fun off => ?_⟩, fun h => ⟨fun source found => ?_, fun missing => ?_⟩⟩,
    fun s q a n c o v on run reply => ⟨fun ends => ?_, fun ends => ?_, fun ends => ?_, fun ends => ?_, ?_⟩⟩
  · obtain ⟨t, row, answers, words, staged⟩ :=
      staging_row h (frozenAny_one 8 3 (by decide) thawed) free (candWrite_body h ok)
    exact ⟨t, congrArg _ row, answers, candWords_fields ok words, staged⟩
  · obtain ⟨t, row, answers, words, staged⟩ :=
      staging_row h (frozenAny_one 8 3 (by decide) thawed) free (thyWrite_body h ok)
    exact ⟨t, congrArg _ row, answers, thyWords_fields ok words, staged⟩
  · obtain ⟨t, row, answers, words, staged⟩ :=
      staging_row h (frozenAny_one 8 3 (by decide) thawed) free (outWrite_body h ok)
    exact ⟨t, congrArg _ row, answers, outWords_fields ok words, staged⟩
  · refine congrArg _ (Eq.trans (once_row h _) ?_)
    rw [candWrite_body h ok]
    exact staging_waits h.1.2.2.1 h.1.2.2.2.2.2.2 (frozenAny_one 8 3 (by decide) thawed) full _
  · obtain ⟨t, row, answers, data, frame⟩ := answer_row h (cfgRead_body h view kind index)
    obtain ⟨length, k, i, prio, lane, hold, wtr⟩ :=
      candLayout_fields (viewSel s (pk1 r.params 0)) (pk1 r.params 2) (by1 1) (by1 (pk1 r.params 2))
    have small := pk1_lt r.params 2
    rw [← data] at answers length k i prio lane hold wtr
    rw [by1_toNat, Nat.mod_eq_of_lt small] at i
    exact ⟨t, congrArg _ row, answers, length, k, i, ⟨prio, lane, hold, wtr⟩, frame⟩
  · obtain ⟨t, row, answers, data, frame⟩ := answer_row h (thyStatus_body q s)
    obtain ⟨length, code, fault, dnu, valid, mism, fly, pbo, ctl⟩ := thyStatusBytes_fields s
    rw [← data] at answers length code fault dnu valid mism fly pbo ctl
    exact ⟨t, congrArg _ row, answers, length, code, fault, dnu, valid, mism, fly, pbo, ctl, frame⟩
  · obtain ⟨t, row, answers, _, frame⟩ := answer_row h (thymeHistory_body h first some_ most last)
    exact ⟨t, congrArg _ row, answers, frame⟩
  · obtain ⟨t, row, rest⟩ := replyEnd_row h (setQl_body h out code)
    exact ⟨t, congrArg _ row, rest⟩
  · obtain ⟨t, row, rest⟩ := replyEnd_row h (thymeForce_body h known)
    exact ⟨t, congrArg _ row, rest⟩
  · obtain ⟨t, row, rest⟩ := replyEnd_row h ((setMfc_rows h).1 off)
    exact ⟨t, congrArg _ row, rest⟩
  · obtain ⟨t, row, rest⟩ := deniedState_row h ((setMfc_rows h).2 on)
    exact ⟨t, congrArg _ row, rest⟩
  · obtain ⟨t, row, rest⟩ := replyEnd_row h ((mfcRelearn_rows q s).1 on)
    exact ⟨t, congrArg _ row, rest⟩
  · obtain ⟨t, row, rest⟩ := deniedState_row h ((mfcRelearn_rows q s).2 off)
    exact ⟨t, congrArg _ row, rest⟩
  · obtain ⟨t, row, rest⟩ := replyEnd_row h ((fpRealign_rows q s).1 source found)
    exact ⟨t, congrArg _ row, rest⟩
  · obtain ⟨t, row, rest⟩ := deniedState_row h ((fpRealign_rows q s).2 missing)
    exact ⟨t, congrArg _ row, rest⟩
  · exact complete_thy on run reply ends fun u same => by rw [endAct, same]
  · exact complete_thy on run reply ends fun u same => by rw [endAct, same]
  · exact complete_thy on run reply ends fun u same => by rw [endAct, same]
  · exact complete_thy on run reply ends fun u same => by rw [endAct, same]
  · unfold endOf
    rcases q.atEnd with _ | e
    · rfl
    · cases e <;> rfl

end Sys2Proof.Machine
end

section
/-! Commits: the commands of their family and the commit unit (O11 to O13). -/

namespace Sys2Proof.Machine

open Sys2Proof

/-! COMMIT (R88 to R91, Table 04-3). -/

theorem find_tset_none {α : Type} (p : Nat × α → Bool) (t : Tbl α) {i : Nat} {y : α} (missing : t.find? p = none)
    (hit : p (i, y) = true) : (tset t i y).find? p = some (i, y) := by
  induction t with
  | nil => simp [tset, hit]
  | cons kv t ih =>
    obtain ⟨k, v⟩ := kv
    have head : ¬ p (k, v) = true := List.find?_eq_none.mp missing _ List.mem_cons_self
    have tail : t.find? p = none := by rwa [List.find?_cons_of_neg head] at missing
    rw [tset]
    split
    · simp [hit]
    · split
      · simp [hit]
      · rw [List.find?_cons_of_neg head, ih tail]

theorem find_tset_some {α : Type} (p : Nat × α → Bool) (t : Tbl α) {i : Nat} {x y : α} (found : t.find? p = some (i, x))
    (hit : p (i, y) = true) : (tset t i y).find? p = some (i, y) := by
  induction t with
  | nil => simp at found
  | cons kv t ih =>
    obtain ⟨k, v⟩ := kv
    rw [tset]
    split
    · simp [hit]
    · split
      · simp [hit]
      · next apart =>
        cases head : p (k, v) with
        | true =>
          rw [List.find?_cons_of_pos head] at found
          injection found with same
          injection same with key
          exact absurd key.symm apart
        | false =>
          rw [List.find?_cons_of_neg (by simp [head])] at found ⊢
          exact ih found

theorem soon_row {op : BitVec 16} {r : Req} {q : Run} {s : State} (h : Begun op r q s)
    (soon : sfpDist q.since s.sfp ≤ 1562500) (body : Run → State → State) :
    live s (runSoon op r true body s) = body q (started s) := by
  rw [live_on h.1, runSoon]
  simp only [offer_begun h, runIs_begun h, h.2.2.2.2.2.2, soon]
  rfl

theorem epochAt_eq {f : Sfp} {e : Nat} (at_ : f = epochAt e) (below : e < 2 ^ 48) : f.mfc = e ∧ f.fi = 0 ∧ f.bi = 0 := by
  subst at_
  exact ⟨Nat.mod_eq_of_lt below, rfl, rfl⟩

/-- An AUTO_RESTORE that waits for lock ends with a commit. -/
def autoDone (s : State) : State := if s.auto.stage = .waitLock then onAuto s (fun a => { a with stage := .done }) else s

@[simp] theorem autoDone_get {f : Part} (s : State) (auto : f ≠ .auto) : get f (autoDone s) = get f s := by
  unfold autoDone
  split <;> simp [auto]

/-- The reply that reports the entry of a commit. -/
def replyEntry (merged : Bool) (e : Nat) (s : State) : State :=
  replyOk s [by1 (b2n merged), by1 (entIdx s e), ((tfind s.com.ents (entIdx s e)).map (·.mask)).getD 0]

theorem commit_body {q : Run} {s : State} (passed : q.verdict = none) {e : Nat}
    (at_ : (sfpOfBytes q.req.params 2).mfc = e) :
    xCommit q s = replyEntry (entFor s e).isSome e
      (autoDone (commitEnter s (q.req.params.getD 0 0) e q.req.grp q.req.dest (mergeRec q) 0)) := by
  rw [xCommit, passed, at_]
  rfl

theorem entPut_ents (s : State) (i : Nat) (y : CommitEnt) : (entPut s i y).com.ents = tset s.com.ents i y := by
  show get .ents _ = _
  unfold entPut
  dsimp only
  split
  · rfl
  · simp
    rfl

theorem autoDone_auto {s t : State} (same : t.auto = s.auto) : (autoDone t).auto = (autoDone s).auto := by
  unfold autoDone
  rw [same]
  split
  · exact congrArg (fun a : AutoSt => { a with stage := .done }) same
  · exact same

theorem replyEntry_eq {u : State} {e i : Nat} {y : CommitEnt} (merged : Bool) (idx : entIdx u e = i)
    (entry : tfind u.com.ents i = some y) : replyEntry merged e u = replyOk u [by1 (b2n merged), by1 i, y.mask] := by
  rw [replyEntry, idx, entry]
  rfl

/-- A commit puts its entry, ends a waiting AUTO_RESTORE and reports the entry. -/
theorem report_facts {s t : State} {q : Run} {i e : Nat} {y : CommitEnt} (run : s.vcp.run = some q) (merged : Bool)
    (index : (tset s.com.ents i y).find? (fun kv => entOpen kv.2 && kv.2.epoch == e) = some (i, y))
    (h : replyEntry merged e (autoDone (entPut (started s) i y)) = t) :
    Answers t 0 0 [by1 (b2n merged), by1 i, y.mask] ∧
      (s.auto.stage = .waitLock → t.auto = { s.auto with stage := .done }) ∧
      (s.auto.stage ≠ .waitLock → t.auto = s.auto) ∧
      t = { s with vcp := t.vcp, com := { s.com with ents := tset s.com.ents i y }, mir := t.mir, auto := t.auto } := by
  let u := autoDone (entPut (started s) i y)
  have ents : u.com.ents = tset s.com.ents i y := by
    refine Eq.trans (?_ : get .ents u = get .ents (entPut (started s) i y)) (entPut_ents _ i y)
    simp [u]
  have idx : entIdx u e = i := by rw [entIdx, entFor, ents, index]
  have going : u.vcp.run = some { q with work := 1 } := by
    rw [← started_run run]
    show get .run u = get .run _
    simp [u]
  have auto : t.auto = (autoDone s).auto := by
    have put : (entPut (started s) i y).auto = s.auto := by
      show get .auto _ = get .auto s
      simp
    have done : t.auto = u.auto := by
      rw [← h]
      show get .auto _ = get .auto _
      simp [replyEntry, u]
    rw [done]
    exact autoDone_auto put
  have same : t.com.ents = tset s.com.ents i y := by
    rw [← ents, ← h]
    show get .ents _ = get .ents _
    simp [replyEntry, u]
  refine ⟨?_, fun waits => ?_, fun other => ?_, ?_⟩
  · rw [← h]
    have entry : tfind u.com.ents i = some y := by rw [ents, tfind_tset_same]
    rw [replyEntry_eq merged idx entry]
    exact setReply_answers going _ _ _
  · rw [auto, autoDone, if_pos waits]
    rfl
  · rw [auto, autoDone, if_neg other]
  · rw [← same]
    refine Only.frame (l := [.vcp, .run, .ents, .mir, .auto]) fun f out => ?_
    rw [← h]
    simp at out
    simp [replyEntry, out]

/-- The entry that a COMMIT makes, and the one it leaves of an entry it merges into. -/
def newEnt (q : Run) (e : Nat) : CommitEnt :=
  { epoch := e, mask := q.req.params.getD 0 0, grp := q.req.grp, dest := q.req.dest, recs := [mergeRec q], count := 1
    st := .pending }

def mergedEnt (q : Run) (x : CommitEnt) : CommitEnt :=
  { x with mask := x.mask ||| q.req.params.getD 0 0, count := x.count + 1
           recs := if x.recs.length < 4 then x.recs ++ [mergeRec q] else x.recs }

theorem commitEnter_new {s : State} {e i : Nat} (none_ : entFor s e = none) (free : freeEnt s = some i) (q : Run) :
    commitEnter s (q.req.params.getD 0 0) e q.req.grp q.req.dest (mergeRec q) 0 = entPut s i (newEnt q e) := by
  rw [commitEnter, none_]
  simp only [free]
  rfl

theorem commitEnter_merge {s : State} {e i : Nat} {x : CommitEnt} (found : entFor s e = some (i, x))
    (entry : tfind s.com.ents i = some x) (q : Run) :
    commitEnter s (q.req.params.getD 0 0) e q.req.grp q.req.dest (mergeRec q) 0 = entPut s i (mergedEnt q x) := by
  have auto : (if x.auto = 0 then 0 else x.auto) = x.auto := by split <;> simp_all
  rw [commitEnter, found]
  simp only [onEnt, entry, auto]
  rfl

/-- An entry found for an epoch is open and names it. -/
theorem entFor_some {s : State} {e i : Nat} {x : CommitEnt} (found : entFor s e = some (i, x)) :
    entOpen x = true ∧ x.epoch = e := by
  have hit := List.find?_some found
  simpa using hit

/-- A COMMIT refused at its acceptance answers so. -/
theorem refused_row {r : Req} {q : Run} {s : State} {st d : Byte} {data : Bytes} (h : Begun 0x0B01 r q s)
    (soon : sfpDist q.since s.sfp ≤ 1562500) (verdict : q.verdict = some (st, d, data)) :
    exec (.commit r) s = .next (setReply (if st = 4 ∧ d = 5 then cCom (started s) 3 else started s) st d data) := by
  show Host.Outcome.next (live s (runSoon 0x0B01 r true xCommit s)) = _
  rw [soon_row h soon, xCommit, verdict]

/-! The checks of a COMMIT. -/

theorem commitVerdict_passed {s : State} {q : Run} (passed : checkCommand s q = none) {e : Nat}
    (at_ : sfpOfBytes q.req.params 2 = epochAt e) (below : e < 2 ^ 48) :
    commitVerdict s q =
      (if q.req.params.getD 0 0 = 0 then some (8, 0x42, [])
      else if q.req.grp ∧ s.thy.mfcMism then some (4, 5, [])
      else (commitRefuse s q.accept (q.req.params.getD 0 0) e).map (fun r =>
        (r.1, r.2, if r.1 = 9 then beBytes 6 (earliest q.accept) else []))) := by
  obtain ⟨mfc, fi, bi⟩ := epochAt_eq at_ below
  simp only [commitVerdict, passed, mfc, fi, bi]
  rfl

/-- The dispatch tick that finds one command in the queue accepts it. -/
theorem dispatch_one {x : Queued} {s : State} (tick : isTick s.sfp = true) (idle : busyNow s = none)
    (queue : s.vcp.queue = [x]) (key : (authOf s x.req.auth.toNat).gen = x.gen) :
    dispatch s = acceptCmd { s with vcp := { s.vcp with queue := [] } } x := by
  have best : queueBest s.vcp.queue = some x := by rw [queue]; rfl
  have rest : delFirst (fun y => y == x) s.vcp.queue = [] := by rw [queue]; simp [delFirst]
  rw [dispatch, tick, idle]
  show dispatchN 8 s = _
  rw [dispatchN, best]
  dsimp only
  rw [if_pos key]
  simp only [onVcp, rest]

/-- The run that the acceptance of a command begins. -/
def acceptedRun (s : State) (x : Queued) : Run :=
  { req := x.req, op := x.op, accept := s.sfp, key := (authOf s x.req.auth.toNat).key, boot := x.boot
    est := (remainFree s, s.sfp), since := s.sfp }

theorem accept_commit {x : Queued} {s : State} (queue : s.vcp.queue = []) (op : x.op = 0x0B01)
    (new : seqTake (replayOf s x.req.auth.toNat) x.req.seq ≠ none) :
    (acceptCmd s x).vcp.run = some { acceptedRun s x with verdict := commitVerdict s (acceptedRun s x) } := by
  obtain ⟨y, taken⟩ := Option.ne_none_iff_exists'.mp new
  have defined : opDefined x.op.toNat = true := by rw [op]; rfl
  rw [acceptCmd, queue]
  simp only [if_pos op, defined, if_true]
  let y0 := { acceptedRun s x with verdict := commitVerdict s (acceptedRun s x) }
  let u := cVcp (onVcp { s with fresh := s.fresh + 1 } (fun v => { v with queue := [], run := some y0 })) 0
  show (match seqTake (replayOf u x.req.auth.toNat) x.req.seq with
    | some y => seqRecord u x.req.auth.toNat y
    | none => viaLimited (setReply u 6 0 (beBytes 4 (nextSeq (replayOf u x.req.auth.toNat)).toNat)) x.req.ret.via 5).vcp.run
    = _
  have memory : replayOf u x.req.auth.toNat = replayOf s x.req.auth.toNat := rfl
  rw [memory, taken]
  have run : get .run (seqRecord u x.req.auth.toNat y) = get .run u := by simp
  exact run

/-- Settles O11: what the checks leave is one entry put, or the refusal. -/
theorem commitOutcome : Obligations.CommitOutcome := by
  unfold Obligations.CommitOutcome
  refine ⟨fun r q s e i x h soon passed at_ below => ⟨fun none_ free => ?_, fun found entry => ?_⟩,
    fun r q s st d data h soon verdict => ?_, fun q s e passed at_ below => ?_,
    fun x s on tick idle queue op key new => ?_⟩
  · obtain rfl : q.req = r := h.2.2.2.1
    have row := soon_row h soon xCommit
    rw [commit_body passed (epochAt_eq at_ below).1, commitEnter_new (s := started s) none_ free] at row
    obtain ⟨answers, rest⟩ := report_facts (y := newEnt q e) h.2.2.1 (entFor (started s) e).isSome
      (find_tset_none _ _ none_ (by simp [entOpen, newEnt])) rfl
    have new : (entFor (started s) e).isSome = false := by
      rw [show entFor (started s) e = none from none_]
      rfl
    rw [new] at answers row rest
    exact ⟨_, congrArg Host.Outcome.next row, answers, rest⟩
  · obtain rfl : q.req = r := h.2.2.2.1
    have row := soon_row h soon xCommit
    obtain ⟨opened, names⟩ := entFor_some found
    rw [commit_body passed (epochAt_eq at_ below).1, commitEnter_merge (s := started s) found entry] at row
    obtain ⟨answers, rest⟩ := report_facts (y := mergedEnt q x) h.2.2.1 (entFor (started s) e).isSome
      (find_tset_some _ _ found (by simpa [names, entOpen, mergedEnt] using opened)) rfl
    have old : (entFor (started s) e).isSome = true := by
      rw [show entFor (started s) e = some (i, x) from found]
      rfl
    rw [old] at answers row rest
    exact ⟨_, congrArg Host.Outcome.next row, answers, rest⟩
  · have run : (if st = 4 ∧ d = 5 then cCom (started s) 3 else started s).vcp.run = some { q with work := 1 } := by
      rw [← started_run h.2.2.1]
      split <;> rfl
    refine ⟨_, refused_row h soon verdict, setReply_answers run _ _ _, fun mism => ⟨?_, ?_⟩, fun other => ?_⟩
    · rw [if_pos mism, Counted, ctrVal_of_get (s := cCom (started s) 3) (by simp)]
      exact counted_count (started s) 3 3
    · rw [if_pos mism]
      exact Only.frame (l := [.vcp, .run, .sage]) fun f out => by simp at out; simp [out]
    · rw [if_neg other]
      exact Only.frame (l := [.vcp, .run]) fun f out => by simp at out; simp [out]
  · simp only [commitVerdict_passed passed at_ below]
    refine ⟨fun empty => if_pos empty, fun some_ grp mism => ?_, fun some_ clear => ?_⟩
    · rw [if_neg some_, if_pos ⟨grp, mism⟩]
    · have clear : ¬ (q.req.grp = true ∧ s.thy.mfcMism = true) := by
        rcases clear with off | off <;> simp [off]
      rw [if_neg some_, if_neg clear, commitRefuse]
      have two : twoMfs = 10481152 := rfl
      refine ⟨fun near => by rw [two, if_pos near]; rfl, fun far => ?_⟩
      rw [two, if_neg (not_lt.mpr far)]
      refine ⟨fun past => by rw [if_pos past]; rfl, fun within => ?_⟩
      rw [if_neg (not_lt.mpr within)]
      refine ⟨fun suspect => by rw [if_pos (by simpa using suspect)]; rfl, fun sound d3 => ?_⟩
      have fits : (if bit (q.req.params.getD 0 0) 3 then d3Check (stgv s) else 0) = 0 := by
        split
        · next on => exact d3 on
        · rfl
      rw [if_neg (by simpa using sound), fits, if_neg (by decide)]
      refine ⟨fun none_ full => by rw [none_, full]; rfl, fun room => ?_⟩
      rw [if_neg ?_]
      · rfl
      · simp only [Bool.and_eq_true, Option.isNone_iff_eq_none, not_and_or]
        exact room
  · obtain ⟨y, z⟩ := Option.ne_none_iff_exists'.mp new
    have row : exec .dispatchTick s = .next (acceptCmd { s with vcp := { s.vcp with queue := [] } } x) := by
      show Host.Outcome.next (live s (dispatch s)) = _
      rw [live_on on, dispatch_one tick idle queue key]
    exact ⟨_, _, row, accept_commit rfl op new, rfl, rfl, rfl, rfl⟩

/-! The other commands of the commit family (R95, R299 to R302). -/

theorem soonChecked_row {op : BitVec 16} {r : Req} {q : Run} {s : State} (h : Accepted op r q s)
    (soon : sfpDist q.since s.sfp ≤ 1562500) (body : Run → State → State) :
    live s (runSoon op r false body s) = body q (started s) := by
  rw [live_on h.1.1, runSoon]
  simp only [offer_begun h.1, runIs_begun h.1, h.1.2.2.2.2.2.2, soon, h.2]
  rfl

/-- What COMMIT_CANCEL leaves of an entry's mask, or the end of the entry. -/
theorem cancel_body {q : Run} {s : State} {e i : Nat} {x : CommitEnt} (some_ : q.req.params.getD 0 0 ≠ 0)
    (at_ : sfpOfBytes q.req.params 2 = epochAt e) (below : e < 2 ^ 48) (found : entFor s e = some (i, x)) :
    xCommitCancel q s = if x.st = .armed then setReply s 9 0 []
      else if x.mask &&& q.req.params.getD 0 0 = 0 then bad s 0x49
      else
        let left := x.mask &&& ~~~(q.req.params.getD 0 0)
        let s1 := onEnt s i (fun y =>
          { y with mask := left, removed := y.removed ||| (x.mask &&& q.req.params.getD 0 0) })
        let s2 := if left = 0 then entOut s1 i .cancelled 3 0 0 else s1
        replyOk s2 [by1 (b2n (decide (left = 0))), by1 i, left] := by
  obtain ⟨mfc, fi, bi⟩ := epochAt_eq at_ below
  simp only [xCommitCancel, if_neg some_, mfc, fi, bi, found]
  rfl

theorem cancelled_mask {n : Nat} {x m : BitVec n} (none_ : x &&& ~~~m = 0) : x &&& m = x := by
  refine BitVec.eq_of_getLsbD_eq fun j below => ?_
  have bit := congrArg (fun y => y.getLsbD j) none_
  simp [below] at bit ⊢
  exact bit

theorem onEnt_found {s : State} {i : Nat} {x : CommitEnt} (entry : tfind s.com.ents i = some x)
    (f : CommitEnt → CommitEnt) : onEnt s i f = entPut s i (f x) := by simp only [onEnt, entry]

theorem revertViews_stg {s : State} {m : BitVec 8} {a d : Nat} (known : a ∈ s.regs.act.map (·.1) ++ s.regs.stg.map (·.1))
    (dom : domOf a = some d) : stgv (revertViews s m) a = if bit m d then actv s a else stgv s a := by
  rw [revertViews, stg_forEach_stgPut _ s (actv s)]
  simp only [List.mem_filter, known, dom, true_and]

theorem map_without_D0 {m : BitVec 8} (off : bit m 0 = false) : m &&& 0xFE#8 = m := by
  refine cancelled_mask (BitVec.eq_of_getLsbD_eq fun j below => ?_)
  have other : ∀ j < 8, j ≠ 0 → (~~~(0xFE#8)).getLsbD j = false := by decide
  by_cases zero : j = 0
  · subst zero
    simpa [bit] using off
  · rw [BitVec.getLsbD_and, other j below zero, Bool.and_false]
    simp

theorem clearSuspect_com (s : State) (m : BitVec 8) : (clearSuspect s m).com.suspect = s.com.suspect &&& ~~~m := by
  show get .suspect _ = _
  unfold clearSuspect setStageBits
  split <;> simp [get, onCom]

/-- Putting an entry back and answering. -/
theorem putReply_facts {s : State} {q : Run} {i : Nat} (run : s.vcp.run = some q) (y : CommitEnt) (data : Bytes) :
    Answers (replyOk (entPut (started s) i y) data) 0 0 data ∧
      replyOk (entPut (started s) i y) data =
        { s with vcp := (replyOk (entPut (started s) i y) data).vcp
                 com := { s.com with ents := tset s.com.ents i y }
                 mir := (replyOk (entPut (started s) i y) data).mir } := by
  have going : (entPut (started s) i y).vcp.run = some { q with work := 1 } := by
    rw [← started_run run]
    show get .run _ = get .run _
    simp
  have ents : (replyOk (entPut (started s) i y) data).com.ents = tset s.com.ents i y := by
    refine Eq.trans (?_ : get .ents _ = get .ents (entPut (started s) i y)) (entPut_ents (started s) i y)
    simp
  refine ⟨setReply_answers going _ _ _, ?_⟩
  rw [← ents]
  refine Only.frame (l := [.vcp, .run, .ents, .mir]) fun f out => ?_
  simp at out
  simp [out]

theorem cancel_rows {r : Req} {q : Run} {s : State} {e i : Nat} {x : CommitEnt} (h : Accepted 0x0B02 r q s)
    (soon : sfpDist q.since s.sfp ≤ 1562500) (some_ : r.params.getD 0 0 ≠ 0)
    (at_ : sfpOfBytes r.params 2 = epochAt e) (below : e < 2 ^ 48) (found : entFor s e = some (i, x)) :
    exec (.commitCancel r) s = .next (if x.st = .armed then setReply (started s) 9 0 []
      else if x.mask &&& r.params.getD 0 0 = 0 then bad (started s) 0x49
      else
        let left := x.mask &&& ~~~(r.params.getD 0 0)
        let s1 := onEnt (started s) i (fun y =>
          { y with mask := left, removed := y.removed ||| (x.mask &&& r.params.getD 0 0) })
        let s2 := if left = 0 then entOut s1 i .cancelled 3 0 0 else s1
        replyOk s2 [by1 (b2n (decide (left = 0))), by1 i, left]) := by
  obtain rfl : q.req = r := h.1.2.2.2.1
  refine congrArg Host.Outcome.next ?_
  rw [soonChecked_row h soon, cancel_body (s := started s) some_ at_ below found]

/-- An entry without the domains of a mask. -/
def shortened (m : BitVec 8) (x : CommitEnt) : CommitEnt :=
  { x with mask := x.mask &&& ~~~m, removed := x.removed ||| (x.mask &&& m) }

theorem cancel_shortens {r : Req} {q : Run} {s : State} {e i : Nat} {x : CommitEnt} (h : Accepted 0x0B02 r q s)
    (soon : sfpDist q.since s.sfp ≤ 1562500) (some_ : r.params.getD 0 0 ≠ 0)
    (at_ : sfpOfBytes r.params 2 = epochAt e) (below : e < 2 ^ 48) (found : entFor s e = some (i, x))
    (entry : tfind s.com.ents i = some x) (pending : x.st = .pending) (shared : x.mask &&& r.params.getD 0 0 ≠ 0) :
    let y := shortened (r.params.getD 0 0) x
    (y.mask ≠ 0 → exec (.commitCancel r) s = .next (replyOk (entPut (started s) i y) [0, by1 i, y.mask])) ∧
      (y.mask = 0 → exec (.commitCancel r) s =
        .next (replyOk (entOut (entPut (started s) i y) i .cancelled 3 0 0) [1, by1 i, 0])) := by
  intro y
  have row := cancel_rows h soon some_ at_ below found
  rw [if_neg (by simp [pending]), if_neg shared] at row
  dsimp only at row
  rw [onEnt_found (s := started s) entry] at row
  refine ⟨fun left => ?_, fun none_ => ?_⟩
  · have left : ¬ x.mask &&& ~~~(r.params.getD 0 0) = 0 := left
    rw [if_neg left, decide_eq_false left] at row
    exact row
  · have none_ : x.mask &&& ~~~(r.params.getD 0 0) = 0 := none_
    rw [if_pos none_, decide_eq_true none_] at row
    exact row.trans (congrArg (fun w => Host.Outcome.next
      (replyOk (entOut (entPut (started s) i y) i .cancelled 3 0 0) [1, by1 i, w])) none_)

theorem entOut_found {s : State} {i : Nat} {x : CommitEnt} (entry : tfind s.com.ents i = some x) (st : EntState)
    (reason row idx : Nat) : entOut s i st reason row idx = entPut s i
      { x with st := st, reason := reason, row := row, idx := idx, validating := false, outAt := some s.sfp } :=
  onEnt_found entry _

theorem cancel_ends {s : State} {q : Run} {i : Nat} {y : CommitEnt} (run : s.vcp.run = some q) (data : Bytes) :
    let t := replyOk (entOut (entPut (started s) i y) i .cancelled 3 0 0) data
    Answers t 0 0 data ∧ (tfind t.com.ents i).map (fun z => (z.st, z.mask, z.removed)) = some (.cancelled, y.mask, y.removed) ∧
      t = { s with vcp := t.vcp, com := { s.com with ents := t.com.ents }, mir := t.mir } := by
  intro t
  have entry : tfind (entPut (started s) i y).com.ents i = some y := by rw [entPut_ents, tfind_tset_same]
  have ents : t.com.ents = (entOut (entPut (started s) i y) i .cancelled 3 0 0).com.ents := by
    show get .ents t = get .ents _
    simp [t]
  have going : (entOut (entPut (started s) i y) i .cancelled 3 0 0).vcp.run = some { q with work := 1 } := by
    rw [← started_run run]
    show get .run _ = get .run _
    simp
  refine ⟨setReply_answers going _ _ _, ?_, Only.frame (l := [.vcp, .run, .ents, .mir]) fun f out => ?_⟩
  · rw [ents, entOut_found entry, entPut_ents, tfind_tset_same]
    rfl
  · simp at out
    simp [t, out]

theorem revert_row {r : Req} {q : Run} {s : State} {part : Nat} (h : Accepted 0x0B04 r q s)
    (some_ : r.params.getD 0 0 ≠ 0) (noMap : bit (r.params.getD 0 0) 0 = false)
    (thawed : frozenAny s (r.params.getD 0 0) = false) (free : mirHeld s = false) :
    exec (.stageRevertPart r [] part) s = .next (replyOk (clearSuspect (revertViews
      (openDomains (started s) (r.params.getD 0 0)) (r.params.getD 0 0)) (r.params.getD 0 0)) []) := by
  obtain rfl : q.req = r := h.1.2.2.2.1
  have thawed : frozenAny (started s) (q.req.params.getD 0 0) = false := thawed
  have free : mirHeld (started s) = false := free
  refine congrArg Host.Outcome.next ?_
  rw [steps_row h, xStageRevert]
  dsimp only
  rw [if_neg some_, if_neg (by rw [noMap]; decide), staging, thawed, free, h.1.2.2.2.2.2.2, map_without_D0 noMap]
  rfl

/-- The views that STAGE_REVERT leaves. -/
theorem reverted_facts {s : State} {q : Run} (run : s.vcp.run = some q) (m : BitVec 8) :
    let t := replyOk (clearSuspect (revertViews (openDomains (started s) m) m) m) []
    Answers t 0 0 [] ∧
      (∀ kv ∈ s.regs.act ++ s.regs.stg, ∀ d : Fin 8, domOf kv.1 = some d.val →
        (bit m d = true → stgv t kv.1 = actv s kv.1) ∧ (bit m d = false → stgv t kv.1 = stgv s kv.1)) ∧
      t.com.suspect = s.com.suspect &&& ~~~m ∧
      t = { s with vcp := t.vcp, regs := { s.regs with stg := t.regs.stg }, mir := t.mir
                   com := { s.com with suspect := t.com.suspect, stageOpen := t.com.stageOpen } } := by
  intro t
  have going : (clearSuspect (revertViews (openDomains (started s) m) m) m).vcp.run = some { q with work := 1 } := by
    rw [← started_run run]
    show get .run _ = get .run _
    simp
  have view : stgv t = stgv (revertViews (openDomains (started s) m) m) := stgv_of_get (by simp [t])
  have stored : get .stg (openDomains (started s) m) = get .stg s := by simp
  have active : get .act (openDomains (started s) m) = get .act s := by simp
  refine ⟨setReply_answers going _ _ _, fun kv known d dom => ?_, ?_, ?_⟩
  · have word : stgv t kv.1 = if bit m d then actv s kv.1 else stgv s kv.1 := by
      rw [view, revertViews_stg (d := d) ?_ dom, actv_of_get active, stgv_of_get stored]
      have act : (openDomains (started s) m).regs.act = s.regs.act := active
      have stg : (openDomains (started s) m).regs.stg = s.regs.stg := stored
      rw [act, stg, ← List.map_append]
      exact List.mem_map_of_mem known
    exact ⟨fun on => by rw [word, if_pos on], fun off => by rw [word, off]; rfl⟩
  · have kept : get .suspect t = get .suspect (clearSuspect (revertViews (openDomains (started s) m) m) m) := by simp [t]
    have cleared := clearSuspect_com (revertViews (openDomains (started s) m) m) m
    have same : (revertViews (openDomains (started s) m) m).com.suspect = s.com.suspect := by
      show get .suspect _ = get .suspect s
      simp
    rw [same] at cleared
    show get .suspect t = _
    rw [kept]
    exact cleared
  · have only : Only [.vcp, .run, .stg, .mir, .suspect, .stageOpen] s t := fun f out => by
      simp at out
      simp [t, out]
    clear_value t
    exact only.frame

theorem accept_facts {s : State} {q : Run} (run : s.vcp.run = some q) (m : BitVec 8) :
    let u := clearSuspect (openDomains (started s) m) m
    let t := replyOk u [u.com.suspect]
    Answers t 0 0 [s.com.suspect &&& ~~~m] ∧
      t = { s with vcp := t.vcp, mir := t.mir
                   com := { s.com with suspect := s.com.suspect &&& ~~~m, stageOpen := t.com.stageOpen } } := by
  intro u t
  have going : u.vcp.run = some { q with work := 1 } := by
    rw [← started_run run]
    show get .run _ = get .run _
    simp [u]
  have cleared : u.com.suspect = s.com.suspect &&& ~~~m :=
    (clearSuspect_com _ m).trans (congrArg (· &&& ~~~m) (openDomains_com (started s) m).2)
  have same : t.com.suspect = s.com.suspect &&& ~~~m := by
    rw [← cleared]
    show get .suspect t = get .suspect u
    simp [t]
  refine ⟨?_, ?_⟩
  · rw [← cleared]
    exact setReply_answers going _ _ _
  · rw [← same]
    refine Only.frame (l := [.vcp, .run, .mir, .suspect, .stageOpen]) fun f out => ?_
    simp at out
    simp [t, u, out]

theorem entsRead_fields (a b c d : Byte) (rest : Bytes) :
    pk1 ([a, b, c, d] ++ rest) 0 = a.toNat ∧ ([a, b, c, d] ++ rest).getD 1 0 = b ∧ ([a, b, c, d] ++ rest).getD 2 0 = c ∧
      pk1 ([a, b, c, d] ++ rest) 3 = d.toNat := ⟨rfl, rfl, rfl, rfl⟩

/-- Settles O12: each command is its body on a state that has begun its work. -/
theorem commitFamily : Obligations.CommitFamily := by
  unfold Obligations.CommitFamily
  intro r q s e i part x
  refine ⟨fun h soon some_ at_ below found entry => ⟨fun armed => ?_, fun pending shared => ⟨fun left => ?_, fun none_ => ?_⟩⟩,
    fun h => ?_, fun h some_ noMap thawed free => ?_, fun h some_ => ?_, fun h => ?_⟩
  · refine ⟨_, cancel_rows h soon some_ at_ below found, ?_, ?_⟩
    · rw [if_pos armed]
      exact (answered h.1.2.2.1 9 0 []).1
    · rw [if_pos armed]
      exact (answered h.1.2.2.1 9 0 []).2.2
  · exact ⟨_, (cancel_shortens h soon some_ at_ below found entry pending shared).1 left, putReply_facts h.1.2.2.1 _ _⟩
  · obtain ⟨answers, entry', frame⟩ :=
      cancel_ends (i := i) (y := shortened (r.params.getD 0 0) x) h.1.2.2.1 [1, by1 i, 0]
    refine ⟨_, (cancel_shortens h soon some_ at_ below found entry pending shared).2 none_, answers, ?_, frame⟩
    rw [entry']
    simp only [shortened]
    rw [cancelled_mask none_, none_]
  · obtain ⟨t, row, answers, data, frame⟩ := answer_row (data := [by1 s.com.ents.length, s.com.suspect, s.com.stageOpen,
      by1 (b2n s.com.frozenWr)] ++ (beBytes 6 s.com.lastEpoch ++ (entsByEpoch s).flatMap entRec)) h (body := xCommitList) (by
        rw [← List.append_assoc]
        rfl)
    obtain ⟨count, suspect, opened, frozen⟩ := entsRead_fields (by1 s.com.ents.length) s.com.suspect s.com.stageOpen
      (by1 (b2n s.com.frozenWr)) (beBytes 6 s.com.lastEpoch ++ (entsByEpoch s).flatMap entRec)
    rw [← data] at answers count suspect opened frozen
    refine ⟨t, congrArg Host.Outcome.next row, answers, ?_, suspect, opened, ?_, frame⟩
    · rw [count, by1_toNat]
    · rw [frozen, by1_toNat]
      cases s.com.frozenWr <;> rfl
  · exact ⟨_, revert_row h some_ noMap thawed free, reverted_facts h.1.2.2.1 _⟩
  · obtain rfl : q.req = r := h.1.2.2.2.1
    refine ⟨_, congrArg Host.Outcome.next ((once_row h _).trans ?_), accept_facts h.1.2.2.1 _⟩
    rw [xStageAccept]
    exact if_neg some_
  · obtain ⟨t, row, answers, _, frame⟩ := answer_row h (body := xSfpRead) rfl
    refine ⟨t, congrArg Host.Outcome.next row, ?_, frame⟩
    have flags : at1 s.thy.mfcValid 0 + at1 s.thy.mfcMism 1 = b2n s.thy.mfcValid + 2 * b2n s.thy.mfcMism := by
      cases s.thy.mfcValid <;> cases s.thy.mfcMism <;> rfl
    rw [← flags]
    exact answers

/-! The commit unit (R92 to R94). Groups and the map at a strobe: the roles of the banks are the bank swap's alone. -/

/-- The map without its banks, its check bits and the selector pass. -/
def mapRest (m : MapSt) : MapSt := { m with a := [], b := [], ecc := [], scrub := none, selPass := [], selAt := none }

theorem mapRest_eccRewrites (l : List Nat) (m : MapSt) (b : Bool) :
    mapRest (l.foldl (fun m i => if eccDouble m b i then m else eccRewrite m b i) m) = mapRest m := by
  induction l generalizing m with
  | nil => rfl
  | cons i l ih =>
    rw [List.foldl_cons, ih]
    split <;> rfl

@[simp] theorem selStore_map_rest (s : State) (g : Nat) (sel : Bool) : get .map (selStore s g sel) = get .map s := by
  let m0 : MapSt := { s.map with a := selBank s.map false g sel, b := selBank s.map true g sel }
  let rewrites (m : MapSt) (b : Bool) :=
    (membersIn m b g).foldl (fun m i => if eccDouble m b i then m else eccRewrite m b i) m
  have split : get .map (selStore s g sel) = mapRest (rewrites (rewrites m0 false) true) := rfl
  rw [split]
  exact (mapRest_eccRewrites _ _ true).trans (mapRest_eccRewrites _ _ false)

@[simp] theorem grpDefaults_map (s : State) (g : Nat) : get .map (grpDefaults s g) = get .map s := by simp [grpDefaults]
@[simp] theorem grpDisable_map (s : State) (g : Nat) : get .map (grpDisable s g) = get .map s := by simp [grpDisable]
@[simp] theorem grpRestart_map (s : State) (g : Nat) (anew : Bool) : get .map (grpRestart s g anew) = get .map s := by
  simp [grpRestart]
@[simp] theorem grpStrobe_map (old : View) (oe : Tbl Entry) (s : State) (g : Nat) :
    get .map (grpStrobe old oe s g) = get .map s := by simp [grpStrobe]
@[simp] theorem dropGroups_map (s : State) (was : Bool) : get .map (dropGroups s was) = get .map s := by
  simp [dropGroups]

theorem role_of_get {s t : State} (h : get .map t = get .map s) : t.map.bActive = s.map.bActive := by
  show (get .map t).bActive = (get .map s).bActive
  rw [h]

/-- After the views and the banks the strobe leaves the roles of the banks. -/
theorem afterCopy_role (old : View) (was : Bool) (lines : MapSt) (mask : BitVec 8) (s : State) :
    (afterCopy old was lines mask s).map.bActive = s.map.bActive := by
  unfold afterCopy
  extract_lets oe s2 s3 t s4 s5 s6
  have k2 : get .map s2 = get .map s := by
    simp only [s2]
    split <;> simp
  have k3 : get .map s3 = get .map s := by
    simp only [s3]
    split <;> simp [k2]
  have k4 : s4.map.bActive = s.map.bActive := by
    simp only [s4]
    split
    · have groups : get .map (forEach (cfgGroups t) (releaseHeld t) (grpStrobe old oe)) = get .map (releaseHeld t) :=
        forEach_same (get .map) _ _ _ fun u g => grpStrobe_map old oe u g
      have held : get .map (releaseHeld t) = get .map t := by simp
      have role : t.map.bActive = s.map.bActive := (role_of_get k3 : s3.map.bActive = s.map.bActive)
      exact (role_of_get (groups.trans held)).trans role
    · exact role_of_get k3
  have k5 : get .map s5 = get .map s4 := by
    simp only [s5]
    split <;> simp
  have k6 : get .map s6 = get .map s4 := by
    simp only [s6]
    split <;> simp [k5]
  have k7 : get .map (if bit mask 6 then pinStrobe old s6 else s6) = get .map s4 := by
    split <;> simp [k6]
  exact (role_of_get k7).trans k4

/-! Thyme at a strobe: the state of the DPLL stays. -/

theorem clkStrobe_st (old : View) (s : State) (o : Nat) : (clkStrobe old s o).thy.st = s.thy.st := by
  unfold clkStrobe
  split
  · rfl
  · split <;> rfl

theorem clkAlign_st (s : State) : (clkAlign s).thy.st = s.thy.st := by
  unfold clkAlign
  split
  · split
    · exact forEach_same (fun t : State => t.thy.st) _ _ _ fun t o => by split <;> rfl
    · rfl
  · rfl

theorem thyStrobe_st (old : View) (s : State) : (thyStrobe old s).thy.st = s.thy.st := by
  unfold thyStrobe
  extract_lets s1 s2 s3 port s4
  have k1 : s1.thy.st = s.thy.st :=
    forEach_same (fun t : State => t.thy.st) _ _ _ fun t c => by dsimp only; split <;> rfl
  have k2 : s2.thy.st = s1.thy.st := forEach_same (fun t : State => t.thy.st) _ _ _ fun t c => by split <;> rfl
  have k3 : s3.thy.st = s2.thy.st := forEach_same (fun t : State => t.thy.st) _ _ _ fun t c => by split <;> rfl
  have k4 : (forEach (List.range 4) s4 (clkStrobe old)).thy.st = s4.thy.st :=
    forEach_same (fun t : State => t.thy.st) _ _ _ fun t o => clkStrobe_st old t o
  rw [clkAlign_st, k4]
  exact k3.trans (k2.trans k1)

theorem afterCopy_st (old : View) (was : Bool) (lines : MapSt) (mask : BitVec 8) (s : State) :
    (afterCopy old was lines mask s).thy.st = s.thy.st := by
  unfold afterCopy
  extract_lets oe s2 s3 t s4 s5 s6
  have k2 : get .thy s2 = get .thy s := by
    simp only [s2]
    split <;> simp
  have k3 : s3.thy.st = s.thy.st := by
    simp only [s3]
    split
    · exact (thyStrobe_st old s2).trans (congrArg (·.st) k2)
    · exact congrArg (·.st) k2
  have k4 : get .thy s4 = get .thy s3 := by
    simp only [s4]
    split <;> simp [t]
  have k5 : get .thy s5 = get .thy s3 := by
    simp only [s5]
    split <;> simp [k4]
  have k6 : get .thy s6 = get .thy s3 := by
    simp only [s6]
    split <;> simp [k5]
  have k7 : get .thy (if bit mask 6 then pinStrobe old s6 else s6) = get .thy s3 := by
    split <;> simp [k6]
  exact (congrArg (·.st) k7).trans k3

/-! PAIR_EN at a strobe never takes the lines from the twin. -/

theorem pairTo_stays {f : Part} (s : State) (n : PairState) (reason : Nat) (stays : (drives s.pair.st && !drives n) = false)
    (pair : f ≠ .pair) (mir : f ≠ .mir) (sage : f ≠ .sage) (hist : f ≠ .hist) : get f (pairTo s n reason) = get f s := by
  unfold pairTo pairChange
  dsimp only
  split
  · simp [pair]
  · rw [stays]
    simp [pair, mir, sage, hist]

theorem swapAbort_st (s : State) (reason : Nat) : (swapAbort s reason).pair.st = s.pair.st := by
  have kept : get .pair (swapAbort s reason) = get .pair (onPair s (fun p => { p with swap := none })) := by
    simp [swapAbort, setSwap]
  exact congrArg (·.st) kept

theorem endResync_st (s : State) (status detail : Byte) (data : Bytes) :
    (endResync s status detail data).pair.st = s.pair.st := by
  unfold endResync
  dsimp only
  split
  · split <;> rfl
  · rfl

theorem pairEnStrobe_rest {f : Part} (s : State) (now : Bool) (pair : f ≠ .pair) (mir : f ≠ .mir) (vcp : f ≠ .vcp)
    (run : f ≠ .run) (sage : f ≠ .sage) (hist : f ≠ .hist) : get f (pairEnStrobe s now) = get f s := by
  unfold pairEnStrobe
  split
  · split
    · next out => exact pairTo_stays s _ _ (by rw [out]; rfl) pair mir sage hist
    · rfl
  · extract_lets s1
    have kept : get f s1 = get f s := by
      simp only [s1]
      split <;> simp [pair, mir, sage, hist]
    have st : s1.pair.st = s.pair.st := by
      simp only [s1]
      split
      · exact swapAbort_st s 6
      · rfl
    split
    · next now => rw [pairTo_stays s1 _ _ (by rw [st, now]; rfl) pair mir sage hist, kept]
    · next now => rw [pairTo_stays s1 _ _ (by rw [st, now]; rfl) pair mir sage hist, kept]
    · next now =>
      rw [pairTo_stays _ _ _ (by rw [endResync_st, st, now]; rfl) pair mir sage hist,
        endResync_get _ _ _ _ pair vcp run, kept]
    · rw [onPair_get _ _ pair, kept]
    · exact kept
    · exact kept

/-! The strobe. -/

/-- The views of a mask have become active, and the banks have exchanged their roles where it names D0. -/
def copied (s : State) (mask : BitVec 8) : State :=
  let r := onRegs s (fun r => copyViews r mask)
  if bit mask 0 then bankSwap r else r

theorem copied_role (s : State) (mask : BitVec 8) :
    (copied s mask).map.bActive = if bit mask 0 then !s.map.bActive else s.map.bActive := by
  unfold copied
  dsimp only
  split <;> rfl

theorem copied_rest {f : Part} (s : State) (mask : BitVec 8) (act : f ≠ .act) (map : f ≠ .map) (fresh : f ≠ .fresh) :
    get f (copied s mask) = get f s := by
  have views : get f (onRegs s (fun r => copyViews r mask)) = get f s := by
    cases f with
    | act => exact absurd rfl act
    | _ => rfl
  unfold copied
  dsimp only
  split
  · rw [bankSwap_get _ map fresh, views]
  · exact views

theorem copied_act (s : State) (mask : BitVec 8) : (copied s mask).regs.act = (copyViews s.regs mask).act := by
  unfold copied
  dsimp only
  split <;> rfl

/-- The delay lines that the strobe allotted anew are mirrored. -/
def allotted (s : State) (mask : BitVec 8) (s7 : State) : State :=
  let moved := (List.range 1024).filter (fun l => tfind s.map.lines l != tfind s7.map.lines l)
  if bit mask 2 then forEach moved s7 (fun t l => mirror t (.allot l (tfind s7.map.lines l))) else s7

theorem allotted_get {f : Part} (s : State) (mask : BitVec 8) (s7 : State) (mir : f ≠ .mir) :
    get f (allotted s mask s7) = get f s7 := by
  unfold allotted
  dsimp only
  split <;> simp [mir]

theorem strobe_eq (s : State) (mask : BitVec 8) : strobe s mask =
    let s8 := allotted s mask (afterCopy (actv s) s.map.bActive (linesAfter s mask).1 mask (copied s mask))
    if bit mask 7 && pairEn (actv s) != pairEn (actv s8) then pairEnStrobe s8 (pairEn (actv s8)) else s8 := rfl

theorem strobe_after {f : Part} (s : State) (mask : BitVec 8) (pair : f ≠ .pair) (mir : f ≠ .mir) (vcp : f ≠ .vcp)
    (run : f ≠ .run) (sage : f ≠ .sage) (hist : f ≠ .hist) : get f (strobe s mask) =
    get f (afterCopy (actv s) s.map.bActive (linesAfter s mask).1 mask (copied s mask)) := by
  rw [strobe_eq]
  dsimp only
  split
  · rw [pairEnStrobe_rest _ _ pair mir vcp run sage hist, allotted_get _ _ _ mir]
  · exact allotted_get _ _ _ mir

theorem strobe_rest {f : Part} (s : State) (mask : BitVec 8) (map : f ≠ .map) (mapA : f ≠ .mapA) (mapB : f ≠ .mapB)
    (mapEcc : f ≠ .mapEcc) (mapScrub : f ≠ .mapScrub) (mapSel : f ≠ .mapSel) (thy : f ≠ .thy) (cands : f ≠ .cands)
    (ports : f ≠ .ports) (chks : f ≠ .chks) (grps : f ≠ .grps) (pins : f ≠ .pins) (fresh : f ≠ .fresh)
    (pair : f ≠ .pair) (mir : f ≠ .mir) (vcp : f ≠ .vcp) (run : f ≠ .run) (sage : f ≠ .sage) (hist : f ≠ .hist) :
    get f (strobe s mask) = get f (copied s mask) := by
  rw [strobe_after s mask pair mir vcp run sage hist]
  simp [map, mapA, mapB, mapEcc, mapScrub, mapSel, thy, cands, ports, chks, grps, pins, fresh, mir, sage, hist]

theorem strobe_role (s : State) (mask : BitVec 8) : (strobe s mask).map.bActive = s.map.bActive ↔ bit mask 0 = false := by
  have same := strobe_after (f := .map) s mask (by decide) (by decide) (by decide) (by decide) (by decide) (by decide)
  rw [role_of_get same, afterCopy_role, copied_role]
  cases bit mask 0 <;> simp

theorem strobe_st (s : State) (mask : BitVec 8) : (strobe s mask).thy.st = s.thy.st := by
  have same := strobe_after (f := .thy) s mask (by decide) (by decide) (by decide) (by decide) (by decide) (by decide)
  have before : get .thy (copied s mask) = get .thy s := copied_rest s mask (by decide) (by decide) (by decide)
  have st {u v : State} (h : get .thy u = get .thy v) : u.thy.st = v.thy.st := by
    show (get .thy u).st = (get .thy v).st
    rw [h]
  rw [st same, afterCopy_st, st before]

/-! The active views a strobe leaves. -/

theorem copyViews_word (keys : List Nat) (w : Nat → Word) (t : Tbl Word) (b : Nat) :
    tget (regReset b) (keys.foldl (fun t a => tput (regReset a) t a (w a)) t) b =
      if b ∈ keys then w b else tget (regReset b) t b := by
  induction keys generalizing t with
  | nil => rfl
  | cons a keys ih =>
    rw [List.foldl_cons, ih]
    by_cases here : b = a
    · subst here
      simp
    · simp [here, tget_tput_other _ _ _ _ here]

theorem strobe_views_word {s : State} {mask : BitVec 8} {a d : Nat}
    (known : a ∈ s.regs.act.map (·.1) ++ s.regs.stg.map (·.1)) (dom : domOf a = some d) :
    actv (strobe s mask) a = if bit mask d then stgv s a else actv s a := by
  have act : (strobe s mask).regs.act = (copyViews s.regs mask).act := by
    rw [← copied_act]
    exact strobe_rest (f := .act) s mask (by decide) (by decide) (by decide) (by decide) (by decide) (by decide)
      (by decide) (by decide) (by decide) (by decide) (by decide) (by decide) (by decide) (by decide) (by decide)
      (by decide) (by decide) (by decide) (by decide)
  show tget _ (strobe s mask).regs.act a = _
  rw [act, copyViews, copyViews_word _ (fun a => tget (regReset a) s.regs.stg a)]
  simp only [List.mem_filter, known, dom, true_and]
  rfl

/-! The rows of the unit, for one entry. -/

theorem com_of_get {s t : State} (rest : get .com t = get .com s) (ents : get .ents t = get .ents s)
    (open_ : get .stageOpen t = get .stageOpen s) (suspect : get .suspect t = get .suspect s)
    (frozenWr : get .frozenWr t = get .frozenWr s) (snaps : get .snaps t = get .snaps s)
    (cfgSave : get .cfgSave t = get .cfgSave s) (last : get .lastEpoch t = get .lastEpoch s) : t.com = s.com :=
  commitSt_ext rest ents open_ suspect frozenWr snaps cfgSave last

theorem entPut_com (s : State) (i : Nat) (y : CommitEnt) :
    (entPut s i y).com = { s.com with ents := tset s.com.ents i y } := by
  unfold entPut
  dsimp only
  split
  · rfl
  · rw [mirror_com]
    rfl

theorem tset_one {α : Type} (i : Nat) (x y : α) : tset [(i, x)] i y = [(i, y)] := by simp [tset]

theorem tfind_one {α : Type} (i : Nat) (x : α) : tfind [(i, x)] i = some x := by simp [tfind]

section
variable {s : State} {i : Nat} {x : CommitEnt}

theorem arm_row (ents : s.com.ents = [(i, x)]) (boundary : isEpoch s.sfp = true) (pending : x.st = .pending)
    (next : x.epoch = (s.sfp.mfc + 1) % mfcMod) :
    xCommitArm s = onCom (entPut s i { x with st := .armed, validating := true })
      (fun c => { c with frozen := x.mask, frozenTo := x.epoch }) := by
  have entry : tfind s.com.ents i = some x := by rw [ents, tfind_one]
  have found : s.com.ents.find? (fun kv => decide (kv.2.st = .pending) && kv.2.epoch == (s.sfp.mfc + 1) % mfcMod)
    = some (i, x) := by simp [ents, pending, next]
  unfold xCommitArm
  rw [if_pos boundary]
  simp only [found]
  rw [onEnt_found entry, ← next]

theorem arm_facts {y : CommitEnt} {m : BitVec 8} {e : Nat} (ents : s.com.ents = [(i, x)]) {t : State}
    (h : onCom (entPut s i y) (fun c => { c with frozen := m, frozenTo := e }) = t) :
    t = { s with mir := t.mir, com := { s.com with ents := [(i, y)], frozen := m, frozenTo := e } } := by
  have com : t.com = { s.com with ents := [(i, y)], frozen := m, frozenTo := e } := by
    rw [← h]
    simp only [onCom, entPut_com, ents, tset_one]
  rw [← com]
  refine Only.frame (l := [.mir, .com, .ents, .stageOpen, .suspect, .frozenWr, .snaps, .cfgSave, .lastEpoch])
    fun f out => ?_
  rw [← h]
  simp at out
  simp [out]

theorem report_row (ents : s.com.ents = [(i, x)]) (closed : entOpen x = false) (out : x.outAt ≠ some s.sfp) :
    xCommitReport s = reportEnt s i := by
  have due : entsWhere s (fun e => !entOpen e && e.outAt != some s.sfp) = [i] := by
    simp [entsWhere, ents, closed, out]
  rw [xCommitReport, due]
  rfl

/-- The report of an entry without its end in the table: its counter, its sticky bits and its record. -/
def reported (s : State) (i : Nat) (e : CommitEnt) : State :=
  let k := outIdx e.st
  let mask := if e.st = .cancelled then e.removed else e.mask
  let why := if e.st = .cancelled then 3 else e.reason
  let s1 := cCom (sticky s hCommit (word (2 ^ k))) k
  let s2 := if e.st = .discarded ∧ e.reason = 2 then sticky s1 hCommit 8 else s1
  traceAt s2 (epochAt e.epoch) 1 (k + 1) i ([by1 mask.toNat, by1 why] ++ beBytes 6 e.epoch ++ beBytes 2 e.changed
    ++ beBytes 2 e.idx ++ [by1 e.row])

@[simp] theorem reported_get {f : Part} (s : State) (i : Nat) (e : CommitEnt) (sage : f ≠ .sage) (hist : f ≠ .hist) :
    get f (reported s i e) = get f s := by
  unfold reported
  dsimp only
  split <;> simp [sage, hist]

theorem reported_counted (s : State) (i : Nat) (e : CommitEnt) : Counted s (reported s i e) 3 (outIdx e.st) := by
  have small : outIdx e.st ≤ 2 := by cases e.st <;> decide
  unfold reported
  dsimp only
  rw [Counted, traceAt, ctrVal_traceRec _ _ _ _ (by omega) (by omega)]
  have same : ∀ u : State, (if e.st = .discarded ∧ e.reason = 2 then sticky u hCommit 8 else u).sage = u.sage :=
    fun u => by split <;> rfl
  rw [ctrVal_of_get (same _)]
  exact counted_count (sticky s hCommit (word (2 ^ outIdx e.st))) 3 (outIdx e.st)

theorem reportEnt_eq (entry : tfind s.com.ents i = some x) (own : x.auto = 0) :
    reportEnt s i = onCom (reported s i x) (fun c => { c with lastEpoch := x.epoch, ents := tdel c.ents i }) := by
  simp only [reportEnt, entry]
  rw [if_neg (by simp [own])]
  rfl

theorem reportEnt_facts (ents : s.com.ents = [(i, x)]) (own : x.auto = 0) {t : State} (h : reportEnt s i = t) :
    t.com.ents = [] ∧ t.com.lastEpoch = x.epoch ∧ Counted s t 3 (outIdx x.st) ∧
      t = { s with com := { s.com with ents := [], lastEpoch := x.epoch }
                   sage := t.sage, regs := { s.regs with hist := t.regs.hist } } := by
  have entry : tfind s.com.ents i = some x := by rw [ents, tfind_one]
  have before : (reported s i x).com = s.com :=
    com_of_get (reported_get _ _ _ (by decide) (by decide)) (reported_get _ _ _ (by decide) (by decide))
      (reported_get _ _ _ (by decide) (by decide)) (reported_get _ _ _ (by decide) (by decide))
      (reported_get _ _ _ (by decide) (by decide)) (reported_get _ _ _ (by decide) (by decide))
      (reported_get _ _ _ (by decide) (by decide)) (reported_get _ _ _ (by decide) (by decide))
  rw [reportEnt_eq entry own] at h
  have com : t.com = { s.com with lastEpoch := x.epoch, ents := [] } := by
    rw [← h]
    simp only [onCom, before, ents]
    simp [tdel]
  refine ⟨by rw [com], by rw [com], ?_, ?_⟩
  · rw [← h]
    exact reported_counted s i x
  · have frame : t = { s with com := t.com, sage := t.sage, regs := { s.regs with hist := t.regs.hist } } := by
      refine Only.frame (l := [.com, .ents, .stageOpen, .suspect, .frozenWr, .snaps, .cfgSave, .lastEpoch, .sage, .hist])
        fun f out => ?_
      rw [← h]
      simp at out
      simp [out]
    rw [com] at frame
    exact frame

/-! The validation. -/

theorem validation_found (ents : s.com.ents = [(i, x)]) (armed : x.st = .armed) (going : x.validating = true) :
    s.com.ents.find? (fun kv => decide (kv.2.st = .armed) && kv.2.validating) = some (i, x) := by
  simp [ents, armed, going]

theorem validation_passes (ents : s.com.ents = [(i, x)]) (armed : x.st = .armed) (going : x.validating = true)
    (up : s.seq.running = true) (active : isStandby s = false) (rows : firstRow s x.mask = none)
    (ranges : bit x.mask 3 = true → d3Check (afterView s x.mask) = 0) :
    xCommitValidationDone s = mirror (entPut s i { x with validating := false }) (.validation x.epoch 0 0) := by
  have entry : tfind s.com.ents i = some x := by rw [ents, tfind_one]
  have fits : ¬ (bit x.mask 3 && d3Check (afterView s x.mask) != 0) = true := by
    simpa using ranges
  unfold xCommitValidationDone
  rw [if_pos (by simp [up, active])]
  simp only [validation_found ents armed going, rows]
  rw [if_neg fits, onEnt_found entry]

theorem validation_fails (ents : s.com.ents = [(i, x)]) (armed : x.st = .armed) (going : x.validating = true)
    (up : s.seq.running = true) (active : isStandby s = false) {r j : Nat} (rows : firstRow s x.mask = some (r, j)) :
    xCommitValidationDone s = mirror (entOut s i .discarded 1 r j) (.validation x.epoch r j) := by
  unfold xCommitValidationDone
  rw [if_pos (by simp [up, active])]
  simp only [validation_found ents armed going, rows]

theorem validation_ranges (ents : s.com.ents = [(i, x)]) (armed : x.st = .armed) (going : x.validating = true)
    (up : s.seq.running = true) (active : isStandby s = false) (rows : firstRow s x.mask = none)
    (named : bit x.mask 3 = true) (ranges : d3Check (afterView s x.mask) ≠ 0) :
    xCommitValidationDone s = mirror (entOut (freeReason s).2 i .discarded 1 (freeReason s).1 0)
      (.validation x.epoch (freeReason s).1 0) := by
  unfold xCommitValidationDone
  rw [if_pos (by simp [up, active])]
  simp only [validation_found ents armed going, rows]
  rw [if_pos (by simp [named, ranges])]

theorem discarded_facts {u t : State} (entry : tfind u.com.ents i = some x) (e r j : Nat)
    (h : mirror (entOut u i .discarded 1 r j) (.validation e r j) = t) :
    (tfind t.com.ents i).map (fun y => (y.st, y.reason, some (y.row, y.idx))) = some (.discarded, 1, some (r, j)) := by
  rw [← h, mirror_com, entOut_found entry, entPut_com, tfind_tset_same]
  rfl

theorem passes_facts {y : CommitEnt} {m : MirrorRec} (ents : s.com.ents = [(i, x)]) {t : State}
    (h : mirror (entPut s i y) m = t) : t = { s with mir := t.mir, com := { s.com with ents := [(i, y)] } } := by
  have com : t.com = { s.com with ents := [(i, y)] } := by
    rw [← h, mirror_com, entPut_com, ents, tset_one]
  rw [← com]
  refine Only.frame (l := [.mir, .com, .ents, .stageOpen, .suspect, .frozenWr, .snaps, .cfgSave, .lastEpoch])
    fun f out => ?_
  rw [← h]
  simp at out
  simp [out]

/-! The strobe of one entry. -/

theorem commitStrobe_row (ents : s.com.ents = [(i, x)]) (boundary : isEpoch s.sfp = true) (armed : x.st = .armed)
    (now : x.epoch = s.sfp.mfc) (own : x.auto = 0) : ∃ n, xCommitStrobe s =
      onCom (onEnt (entOut (strobe s x.mask) i .applied 0 0 0) i (fun e => { e with changed := n }))
        (fun c => { c with frozen := 0, strobeAt := some s.sfp }) := by
  have due : dueEnts s = [i] := by simp [dueEnts, entsWhere, ents, armed, now]
  refine ⟨if bit x.mask 0 then (strobe s x.mask).map.changed else 0, ?_⟩
  unfold xCommitStrobe
  rw [due]
  simp only [boundary, ents, tfind_one, List.foldl_cons, List.foldl_nil, BitVec.zero_or]
  simp [own, autoStrobe, tfind_one]

theorem commitStrobe_facts (ents : s.com.ents = [(i, x)]) {n : Nat} {t : State}
    (h : onCom (onEnt (entOut (strobe s x.mask) i .applied 0 0 0) i (fun e => { e with changed := n }))
      (fun c => { c with frozen := 0, strobeAt := some s.sfp }) = t) :
    (∀ kv ∈ s.regs.act ++ s.regs.stg, ∀ d : Fin 8, domOf kv.1 = some d.val →
      (bit x.mask d = true → actv t kv.1 = stgv s kv.1) ∧ (bit x.mask d = false → actv t kv.1 = actv s kv.1)) ∧
      t.regs.stg = s.regs.stg ∧ (t.map.bActive = s.map.bActive ↔ bit x.mask 0 = false) ∧
      t.sfp = s.sfp ∧ t.thy.st = s.thy.st ∧
      (tfind t.com.ents i).map (·.st) = some .applied ∧ t.com.frozen = 0 ∧ t.com.strobeAt = some s.sfp := by
  have after {f : Part} (com : f ≠ .com) (ents : f ≠ .ents) (open_ : f ≠ .stageOpen) (suspect : f ≠ .suspect)
      (frozenWr : f ≠ .frozenWr) (snaps : f ≠ .snaps) (cfgSave : f ≠ .cfgSave) (last : f ≠ .lastEpoch) (mir : f ≠ .mir) :
      get f t = get f (strobe s x.mask) := by
    rw [← h]
    simp [com, ents, open_, suspect, frozenWr, snaps, cfgSave, last, mir]
  have kept {f : Part} (list : f = .stg ∨ f = .sfp ∨ f = .ents) : get f (strobe s x.mask) = get f s := by
    rw [strobe_rest s x.mask]
    · exact copied_rest s x.mask (by rintro rfl; simp at list) (by rintro rfl; simp at list) (by rintro rfl; simp at list)
    all_goals rintro rfl; simp at list
  have entry : tfind (strobe s x.mask).com.ents i = some x := by
    have same : (strobe s x.mask).com.ents = s.com.ents := kept (f := .ents) (by simp)
    rw [same, ents, tfind_one]
  refine ⟨fun kv known d dom => ?_, ?_, ?_, ?_, ?_, ?_, by rw [← h]; rfl, by rw [← h]; rfl⟩
  · have word : actv t kv.1 = if bit x.mask d then stgv s kv.1 else actv s kv.1 := by
      rw [actv_of_get (after (f := .act) (by decide) (by decide) (by decide) (by decide) (by decide) (by decide)
        (by decide) (by decide) (by decide)), strobe_views_word (d := d) _ dom]
      rw [← List.map_append]
      exact List.mem_map_of_mem known
    exact ⟨fun on => by rw [word, if_pos on], fun off => by rw [word, off]; rfl⟩
  · exact (after (f := .stg) (by decide) (by decide) (by decide) (by decide) (by decide) (by decide) (by decide)
      (by decide) (by decide)).trans (kept (by simp))
  · rw [role_of_get (after (f := .map) (by decide) (by decide) (by decide) (by decide) (by decide) (by decide) (by decide)
      (by decide) (by decide))]
    exact strobe_role s x.mask
  · exact (after (f := .sfp) (by decide) (by decide) (by decide) (by decide) (by decide) (by decide) (by decide)
      (by decide) (by decide)).trans (kept (by simp))
  · rw [← strobe_st s x.mask]
    show (get .thy t).st = (get .thy (strobe s x.mask)).st
    rw [after (by decide) (by decide) (by decide) (by decide) (by decide) (by decide) (by decide) (by decide) (by decide)]
  · have applied : tfind (entOut (strobe s x.mask) i .applied 0 0 0).com.ents i =
        some { x with st := .applied, reason := 0, row := 0, idx := 0, validating := false
                      outAt := some (strobe s x.mask).sfp } := by
      rw [entOut_found entry, entPut_com, tfind_tset_same]
    rw [← h, onEnt_found applied]
    simp only [onCom, entPut_com, tfind_tset_same]
    rfl

/-- Settles O13: each row of the unit on the one entry it finds. -/
theorem commitUnit : Obligations.CommitUnit := by
  unfold Obligations.CommitUnit
  intro s i x on ents mfc epoch
  refine ⟨fun boundary pending next => ?_, fun boundary armed now own => ?_, fun boundary closed out own => ?_,
    fun up active armed going => ⟨fun rows ranges => ?_, fun fails => ?_, fun rows named ranges => ?_⟩⟩
  · have row : exec .commitArm s = .next _ :=
      congrArg Host.Outcome.next ((live_on on _).trans (arm_row ents boundary pending next))
    exact ⟨_, row, arm_facts ents rfl⟩
  · obtain ⟨n, strobed⟩ := commitStrobe_row ents boundary armed now own
    have row : exec .commitStrobe s = .next _ := congrArg Host.Outcome.next ((live_on on _).trans strobed)
    exact ⟨_, row, commitStrobe_facts ents rfl⟩
  · have row : exec .commitReport s = .next _ :=
      congrArg Host.Outcome.next ((liveFrame_on on boundary _).trans (report_row ents closed out))
    obtain ⟨gone, last, counted, frame⟩ := reportEnt_facts ents own (t := reportEnt s i) rfl
    refine ⟨_, row, gone, last, ?_, frame⟩
    cases st : x.st <;> rw [st] at counted <;> exact counted
  · have row : exec .commitValidationDone s = .next _ :=
      congrArg Host.Outcome.next ((live_on on _).trans (validation_passes ents armed going up active rows ranges))
    exact ⟨_, row, passes_facts ents rfl⟩
  · obtain ⟨⟨r, j⟩, rows⟩ := Option.isSome_iff_exists.mp fails
    have row : exec .commitValidationDone s = .next _ :=
      congrArg Host.Outcome.next ((live_on on _).trans (validation_fails ents armed going up active rows))
    have entry : tfind s.com.ents i = some x := by rw [ents, tfind_one]
    refine ⟨_, row, ?_, ?_⟩
    · rw [rows]
      exact discarded_facts entry _ _ _ rfl
    · exact Only.frame (l := [.mir, .ents]) fun f out => by simp at out; simp [out]
  · have row : exec .commitValidationDone s = .next _ :=
      congrArg Host.Outcome.next ((live_on on _).trans (validation_ranges ents armed going up active rows named ranges))
    have entry : tfind (freeReason s).2.com.ents i = some x := by
      have kept : (freeReason s).2.com.ents = s.com.ents := by
        show get .ents _ = get .ents s
        simp
      rw [kept, ents, tfind_one]
    refine ⟨_, row, ?_, ?_⟩
    · obtain ⟨y, found, same⟩ := Option.map_eq_some_iff.mp (discarded_facts entry x.epoch (freeReason s).1 0 rfl)
      rw [found]
      simp only [Prod.mk.injEq, Option.some.injEq] at same
      obtain ⟨st, reason, _, index⟩ := same
      rw [Option.map_some, st, reason, index]
    · exact Only.frame (l := [.mir, .fresh, .ents]) fun f out => by simp at out; simp [out]
end

end Sys2Proof.Machine
end

section
/-! Ports: conditions, what settles of them, and the receiver of a trunk (O14). -/

namespace Sys2Proof.Machine

open Sys2Proof

/-! What the settling of a port's defects may touch (R125 to R127): indications, fill, transmit queue, client and
reassembly of the port, its counters, and the record of a centring of a client. -/

/-- A port without what settling its defects may touch. -/
def portRest (x : PortSt) : PortSt :=
  { x with chg := [], fillLf := false, txq := [], txNow := none, client := {}, trunk := { x.trunk with reasm := none } }

/-- The counters that settling the defects of a port may step. -/
def SettleCtr (p b i : Nat) : Prop := (b = 2 ∧ i = 9) ∨ (b = 0x100 + p ∧ (i < 16 ∨ i = 28 ∨ i = 39 ∨ i = 40))

/-- An update of a port that settling its defects may make. -/
def SettleFn (g : PortSt → PortSt) : Prop :=
  ∀ x, portRest (g x) = portRest x ∧ (x.trunk.reasm = none → (g x).trunk.reasm = none)

/-- Steps that settling the defects of port p is made of; only a client's centring writes a record. -/
inductive Touches (p : Nat) (client : Bool) (s : State) : State → Prop
  | refl : Touches p client s s
  | port {t : State} (g : PortSt → PortSt) (h : SettleFn g) (u : Touches p client s t) :
      Touches p client s (onPort t p g)
  | count {t : State} (b i n : Nat) (h : SettleCtr p b i) (u : Touches p client s t) : Touches p client s (count t b i n)
  | trace {t : State} (a b c : Nat) (d : Bytes) (h : client = true) (u : Touches p client s t) :
      Touches p client s (trace t a b c d)

section
variable {p : Nat} {c : Bool}

theorem Touches.trans {s t u : State} (h : Touches p c s t) (k : Touches p c t u) : Touches p c s u := by
  induction k with
  | refl => exact h
  | port g hg _ ih => exact .port g hg ih
  | count b i n hb _ ih => exact .count b i n hb ih
  | trace a b d e hc _ ih => exact .trace a b d e hc ih

theorem Touches.forEach {α : Type} (l : List α) (f : State → α → State) (h : ∀ t, ∀ x ∈ l, Touches p c t (f t x))
    (s : State) : Touches p c s (forEach l s f) := by
  induction l generalizing s with
  | nil => exact .refl
  | cons x l ih =>
    rw [forEach_cons]
    exact (h s x List.mem_cons_self).trans (ih (fun t y mem => h t y (List.mem_cons_of_mem _ mem)) _)

theorem mgmtDiscard_touches (s : State) : Touches p c s (mgmtDiscard s p) := by
  unfold mgmtDiscard
  split
  · exact .count _ 28 1 (.inr ⟨rfl, .inr (.inl rfl)⟩)
      (.port (fun x => { x with trunk := { x.trunk with reasm := none } }) (fun _ => ⟨rfl, fun _ => rfl⟩) .refl)
  · exact .refl

theorem mgmtDiscard_reasm (s : State) (p : Nat) : (portOf (mgmtDiscard s p) p).trunk.reasm = none := by
  unfold mgmtDiscard
  split
  · rw [portOf_cPort, portOf_onTrunk_same]
  · next none_ => exact Option.not_isSome_iff_eq_none.mp none_

theorem flushChannel_touches (s : State) : Touches p c s (flushChannel s p) :=
  .count 2 9 _ (.inl ⟨rfl, rfl⟩) (.port (fun x => { x with txq := [], txNow := none }) (fun _ => ⟨rfl, id⟩) .refl)

theorem onClient_touches (s : State) (g : ClientSt → ClientSt) : Touches p c s (onClient s p g) :=
  .port (fun x => { x with client := g x.client }) (fun _ => ⟨rfl, id⟩) .refl

theorem sfBegins_touches (s : State) : Touches p c s (sfBegins s p) := by
  have flushed : Touches p c s (flushChannel (onPort s p (fun x => { x with fillLf := true })) p) :=
    Touches.trans (.port (fun x => { x with fillLf := true }) (fun _ => ⟨rfl, id⟩) .refl) (flushChannel_touches _)
  unfold sfBegins
  extract_lets s1
  split
  · exact .count _ 40 1 (.inr ⟨rfl, .inr (.inr (.inr rfl))⟩) (flushed.trans (onClient_touches s1 _))
  · exact flushed

theorem clientCentre_touches (s : State) (n : Nat) (client : c = true) : Touches p c s (clientCentre s p n) :=
  .trace _ _ _ _ client (.count _ 39 1 (.inr ⟨rfl, .inr (.inr (.inl rfl))⟩) (onClient_touches s _))

theorem indDiff_lt {a b : BitVec 16} {x : Nat × Bool} (h : x ∈ indDiff a b) : x.1 < 16 := by
  obtain ⟨i, mem, hit⟩ := List.mem_filterMap.mp h
  have below := List.mem_range.mp mem
  split at hit
  · injection hit with hit
    rw [← hit]
    exact below
  · simp at hit

theorem settle_touches (s : State) : Touches p (isClient s p) s (settle s p) := by
  unfold settle
  split
  · exact .refl
  · extract_lets x cur tgt ch s1 s1' s2
    have k1 : Touches p (isClient s p) s s1 := .port _ (fun _ => ⟨rfl, id⟩) .refl
    have k1' : Touches p (isClient s p) s s1' := by
      simp only [s1']
      split
      · exact k1.trans (mgmtDiscard_touches s1)
      · exact k1
    have k2 : Touches p (isClient s p) s s2 := k1'.trans (Touches.forEach ch _ (fun t d mem => by
      split
      · exact .count _ d.1 1 (.inr ⟨rfl, .inl (indDiff_lt mem)⟩) .refl
      · exact .refl) s1')
    split
    · exact k2.trans (sfBegins_touches s2)
    · split
      · next on =>
        simp only [Bool.and_eq_true] at on
        exact k2.trans (clientCentre_touches s2 _ on.2)
      · exact k2

/-! What such steps keep. -/

theorem Touches.rest {s t : State} (h : Touches p c s t) (q : Nat) : portRest (portOf t q) = portRest (portOf s q) := by
  induction h with
  | refl => rfl
  | port g hg _ ih =>
    rw [portOf_onPort]
    split
    · next same => rw [(hg _).1, ← same, ih]
    · exact ih
  | count b i n _ _ ih => exact ih
  | trace a b d e _ _ ih => rw [portOf_trace, ih]

theorem Touches.reasm {s t : State} (h : Touches p c s t) (q : Nat) (none_ : (portOf s q).trunk.reasm = none) :
    (portOf t q).trunk.reasm = none := by
  induction h with
  | refl => exact none_
  | port g hg _ ih =>
    rw [portOf_onPort]
    split
    · next same => exact (hg _).2 (same ▸ ih)
    · exact ih
  | count b i n _ _ ih => exact ih
  | trace a b d e _ _ ih => rw [portOf_trace, ih]

theorem Touches.other {s t : State} (h : Touches p c s t) {q : Nat} (apart : q ≠ p) : portOf t q = portOf s q := by
  induction h with
  | refl => rfl
  | port g _ _ ih => rw [portOf_onPort_ne _ _ apart, ih]
  | count b i n _ _ ih => exact ih
  | trace a b d e _ _ ih => rw [portOf_trace, ih]

theorem Touches.ctr {s t : State} (h : Touches p c s t) {b i : Nat} (hi : i < 65536) (quiet : ¬ SettleCtr p b i)
    (record : b * 65536 + i ≠ 8 * 65536 + 1 ∧ b * 65536 + i ≠ 8 * 65536 + 7) : ctrVal t b i = ctrVal s b i := by
  induction h with
  | refl => rfl
  | port g _ _ ih => rw [ctrVal_onPort, ih]
  | count b' i' n hb _ ih =>
    rw [ctrVal_count_ne _ _ ?_, ih]
    intro same
    refine quiet ?_
    rcases hb with ⟨rfl, rfl⟩ | ⟨rfl, hb⟩
    · exact .inl (by omega)
    · exact .inr (by omega)
  | trace a b' d e _ _ ih => rw [ctrVal_trace _ _ _ _ _ record.1 record.2, ih]

theorem Touches.get {s t : State} (h : Touches p c s t) {f : Part} (ports : f ≠ .ports) (sage : f ≠ .sage)
    (hist : c = true → f ≠ .hist) : get f t = get f s := by
  induction h with
  | refl => rfl
  | port g _ _ ih => rw [onPort_get _ _ _ ports, ih]
  | count b i n _ _ ih => rw [count_get _ _ _ _ sage, ih]
  | trace a b d e on _ ih => rw [trace_get _ _ _ _ _ sage (hist on), ih]

/-- The receiver of a trunk, but for the message it puts together. -/
def recv (s : State) (q : Nat) : TrunkSt := { (portOf s q).trunk with reasm := none }

theorem recv_of_rest {s t : State} {q : Nat} (h : portRest (portOf t q) = portRest (portOf s q)) : recv t q = recv s q :=
  congrArg (fun x : PortSt => x.trunk) h

theorem raw_of_rest {s t : State} {q : Nat} (h : portRest (portOf t q) = portRest (portOf s q)) :
    (portOf t q).raw = (portOf s q).raw := by
  show (portRest (portOf t q)).raw = (portRest (portOf s q)).raw
  rw [h]

theorem recv_of_get {s t : State} (h : Machine.get .ports t = Machine.get .ports s) (q : Nat) : recv t q = recv s q := by
  rw [recv, portOf_of_get h, recv]

theorem recv_onTrunk (s : State) (p : Nat) (g : TrunkSt → TrunkSt) :
    recv (onTrunk s p g) p = { g (portOf s p).trunk with reasm := none } := by
  rw [recv, portOf_onTrunk_same]

end

/-! A defect's condition (R125). -/

theorem isClient_of_get {s t : State} (h : Machine.get .act t = Machine.get .act s) (q : Nat) : isClient t q = isClient s q := by
  unfold isClient modeOf
  rw [actv_of_get h]

theorem setCond_from (s : State) (p i : Nat) (on : Bool) : ∃ u, Touches p (isClient s p) u (setCond s p i on) ∧
    (bit (portOf s p).raw i = on ∧ u = s ∨ u = onPort s p (fun x => { x with raw := setBit x.raw i on })) := by
  unfold setCond
  split
  · next same => exact ⟨s, .refl, .inl ⟨by simpa using same, rfl⟩⟩
  · refine ⟨_, ?_, .inr rfl⟩
    have same := isClient_of_get (s := s) (t := onPort s p (fun x => { x with raw := setBit x.raw i on })) (by simp) p
    rw [← same]
    exact settle_touches _

theorem setCond_recv (s : State) (p i : Nat) (on : Bool) (q : Nat) : recv (setCond s p i on) q = recv s q := by
  obtain ⟨u, steps, ⟨_, rfl⟩ | rfl⟩ := setCond_from s p i on
  · exact recv_of_rest (steps.rest q)
  · rw [recv_of_rest (steps.rest q), recv, portOf_onPort]
    split
    · next same => rw [same]; rfl
    · rfl

theorem setCond_port (s : State) (p i : Nat) (on : Bool) (q : Nat) :
    { portRest (portOf (setCond s p i on) q) with raw := 0 } = { portRest (portOf s q) with raw := 0 } := by
  obtain ⟨u, steps, ⟨_, rfl⟩ | rfl⟩ := setCond_from s p i on
  · rw [steps.rest q]
  · rw [steps.rest q, portOf_onPort]
    split
    · next same => rw [same]; rfl
    · rfl

theorem setCond_raw (s : State) (p i : Nat) (on : Bool) {j : Nat} (below : j < 16) :
    bit (portOf (setCond s p i on) p).raw j = if i = j then on else bit (portOf s p).raw j := by
  obtain ⟨u, steps, ⟨same, rfl⟩ | rfl⟩ := setCond_from s p i on
  · rw [raw_of_rest (steps.rest p)]
    split
    · next here => rw [← here, same]
    · rfl
  · rw [raw_of_rest (steps.rest p), portOf_onPort_same, bit_setBit_of_lt _ below]

theorem setCond_other (s : State) (p i : Nat) (on : Bool) {q : Nat} (apart : q ≠ p) :
    portOf (setCond s p i on) q = portOf s q := by
  obtain ⟨u, steps, ⟨_, rfl⟩ | rfl⟩ := setCond_from s p i on
  · exact steps.other apart
  · rw [steps.other apart, portOf_onPort_ne _ _ apart]

theorem setCond_reasm (s : State) (p i : Nat) (on : Bool) (none_ : (portOf s p).trunk.reasm = none) :
    (portOf (setCond s p i on) p).trunk.reasm = none := by
  obtain ⟨u, steps, ⟨_, rfl⟩ | rfl⟩ := setCond_from s p i on
  · exact steps.reasm p none_
  · refine steps.reasm p ?_
    rw [portOf_onPort_same]
    exact none_

theorem setCond_ctr (s : State) (p i : Nat) (on : Bool) {b j : Nat} (hj : j < 65536) (quiet : ¬ SettleCtr p b j)
    (record : b * 65536 + j ≠ 8 * 65536 + 1 ∧ b * 65536 + j ≠ 8 * 65536 + 7) :
    ctrVal (setCond s p i on) b j = ctrVal s b j := by
  obtain ⟨u, steps, ⟨_, rfl⟩ | rfl⟩ := setCond_from s p i on
  · exact steps.ctr hj quiet record
  · rw [steps.ctr hj quiet record, ctrVal_onPort]

/-- On a trunk settling writes no record. -/
theorem setCond_get_trunk {f : Part} (s : State) (p i : Nat) (on : Bool) (trunk : isTrunk s p = true) (ports : f ≠ .ports)
    (sage : f ≠ .sage) : Machine.get f (setCond s p i on) = Machine.get f s := by
  have client : isClient s p = false := by
    simp only [isTrunk, beq_iff_eq] at trunk
    simp [isClient, trunk]
  obtain ⟨u, steps, ⟨_, rfl⟩ | rfl⟩ := setCond_from s p i on
  · exact steps.get ports sage (by simp [client])
  · rw [steps.get ports sage (by simp [client]), onPort_get _ _ _ ports]

/-- Conditions of listed defects of a port, judged one after the other. -/
inductive Conds (p : Nat) (l : List Nat) (s : State) : State → Prop
  | refl : Conds p l s s
  | set {t : State} (i : Nat) (on : Bool) (mem : i ∈ l) (u : Conds p l s t) : Conds p l s (setCond t p i on)

theorem Conds.one {p : Nat} {l : List Nat} (s : State) (i : Nat) (on : Bool) (mem : i ∈ l) :
    Conds p l s (setCond s p i on) := .set i on mem .refl

section
variable {p : Nat} {l : List Nat} {s t : State}

theorem Conds.other (h : Conds p l s t) {q : Nat} (apart : q ≠ p) : portOf t q = portOf s q := by
  induction h with
  | refl => rfl
  | set i on _ _ ih => rw [setCond_other _ _ _ _ apart, ih]

theorem Conds.recv (h : Conds p l s t) (q : Nat) : Machine.recv t q = Machine.recv s q := by
  induction h with
  | refl => rfl
  | set i on _ _ ih => rw [setCond_recv, ih]

theorem Conds.port (h : Conds p l s t) (q : Nat) :
    { portRest (portOf t q) with raw := 0 } = { portRest (portOf s q) with raw := 0 } := by
  induction h with
  | refl => rfl
  | set i on _ _ ih => rw [setCond_port, ih]

/-- The received QL of the port stays. -/
theorem Conds.ql (h : Conds p l s t) (q : Nat) :
    (portOf t q).ql = (portOf s q).ql ∧ (portOf t q).qlSfp = (portOf s q).qlSfp :=
  ⟨(congrArg (fun x : PortSt => x.ql) (h.port q) :), (congrArg (fun x : PortSt => x.qlSfp) (h.port q) :)⟩

theorem Conds.raw (h : Conds p l s t) {j : Nat} (below : j < 16) (out : j ∉ l) :
    bit (portOf t p).raw j = bit (portOf s p).raw j := by
  induction h with
  | refl => rfl
  | set i on mem _ ih => rw [setCond_raw _ _ _ _ below, if_neg (fun same => out (by rwa [same] at mem)), ih]

theorem Conds.reasm (h : Conds p l s t) (none_ : (portOf s p).trunk.reasm = none) : (portOf t p).trunk.reasm = none := by
  induction h with
  | refl => exact none_
  | set i on _ _ ih => exact setCond_reasm _ _ _ _ ih

theorem Conds.ctr (h : Conds p l s t) {b j : Nat} (hj : j < 65536) (quiet : ¬ SettleCtr p b j)
    (record : b * 65536 + j ≠ 8 * 65536 + 1 ∧ b * 65536 + j ≠ 8 * 65536 + 7) : ctrVal t b j = ctrVal s b j := by
  induction h with
  | refl => rfl
  | set i on _ _ ih => rw [setCond_ctr _ _ _ _ hj quiet record, ih]

theorem Conds.get {f : Part} (h : Conds p l s t) (ports : f ≠ .ports) (sage : f ≠ .sage) (hist : f ≠ .hist) :
    Machine.get f t = Machine.get f s := by
  induction h with
  | refl => rfl
  | set i on _ _ ih => rw [setCond_get _ _ _ _ ports sage hist, ih]

theorem Conds.get_trunk {f : Part} (h : Conds p l s t) (trunk : isTrunk s p = true) (ports : f ≠ .ports)
    (sage : f ≠ .sage) : Machine.get f t = Machine.get f s := by
  induction h with
  | refl => rfl
  | @set u i on _ k ih =>
    have still : isTrunk u p = true := by
      rw [isTrunk_of_get (k.get (by decide) (by decide) (by decide)), trunk]
    rw [setCond_get_trunk _ _ _ _ still ports sage, ih]

end

/-! Frame and multiframe alignment of a trunk (R118, R119, R121). -/

/-- Every other port is as it was. -/
def Elsewhere (p : Nat) (s t : State) : Prop := ∀ q, q ≠ p → portOf t q = portOf s q

theorem Elsewhere.refl (p : Nat) (s : State) : Elsewhere p s s := fun _ _ => rfl

theorem Elsewhere.trans {p : Nat} {s u t : State} (h : Elsewhere p s u) (k : Elsewhere p u t) : Elsewhere p s t :=
  fun q apart => (k q apart).trans (h q apart)

theorem Elsewhere.of_get {p : Nat} {s t : State} (h : get .ports t = get .ports s) : Elsewhere p s t :=
  fun q _ => portOf_of_get h q

theorem Elsewhere.onPort (p : Nat) (s : State) (g : PortSt → PortSt) : Elsewhere p s (onPort s p g) :=
  fun _ apart => portOf_onPort_ne _ _ apart

theorem Elsewhere.onTrunk (p : Nat) (s : State) (g : TrunkSt → TrunkSt) : Elsewhere p s (onTrunk s p g) :=
  fun _ apart => portOf_onTrunk_ne _ _ apart

theorem Elsewhere.conds {p : Nat} {l : List Nat} {s t : State} (h : Conds p l s t) : Elsewhere p s t :=
  fun _ apart => h.other apart

theorem Elsewhere.ports {p : Fin 128} {s t : State} (h : Elsewhere p s t) :
    ∀ q : Fin 128, q ≠ p → portOf t q = portOf s q := fun q apart => h q fun same => apart (Fin.ext same)

/-! What a correct O0 in frame feeds. -/

/-- A receiver without what the flags of an O0 give. -/
def flagRest (t : TrunkSt) : TrunkSt :=
  { t with rdiOn := 0, rdiOff := 0, lpbk := false, mapSel := false, fi := 0, o0 := none }

/-- A counter that neither the settling of a port's defects nor a record steps. -/
def Quiet (p b i : Nat) : Prop :=
  i < 65536 ∧ ¬ SettleCtr p b i ∧ b * 65536 + i ≠ 8 * 65536 + 1 ∧ b * 65536 + i ≠ 8 * 65536 + 7

theorem Conds.quiet {p : Nat} {l : List Nat} {s t : State} (h : Conds p l s t) {b i : Nat} (quiet : Quiet p b i) :
    ctrVal t b i = ctrVal s b i := h.ctr quiet.1 quiet.2.1 quiet.2.2

theorem o0Flags_facts {s t : State} {p : Nat} {w : W56} (h : o0Flags s p w = t) :
    Elsewhere p s t ∧ flagRest (recv t p) = flagRest (recv s p) ∧ (recv t p).fi = o0Fi w ∧
      bit (portOf t p).raw dPeerLpbk = o0Lpbk w ∧
      (o0Rdi w = true → (portOf s p).trunk.rdiOn = 2 → bit (portOf t p).raw dRdi = true) ∧
      (o0Rdi w = false → (portOf s p).trunk.rdiOff = 2 → bit (portOf t p).raw dRdi = false) ∧
      (∀ j < 16, j ≠ dRdi → j ≠ dPeerLpbk → bit (portOf t p).raw j = bit (portOf s p).raw j) ∧
      (∀ b i, Quiet p b i → ctrVal t b i = ctrVal s b i) := by
  unfold o0Flags at h
  extract_lets x on off s1 s2 at h
  have base : recv s1 p = { (portOf s p).trunk with
      reasm := none, rdiOn := min on 3, rdiOff := min off 3, lpbk := o0Lpbk w, mapSel := o0MapSel w, fi := o0Fi w, o0 := some w } :=
    recv_onTrunk _ _ _
  have rdi : Conds p [dRdi] s1 s2 := by
    simp only [s2]
    split
    · exact .one _ _ _ (by simp)
    · split
      · exact .one _ _ _ (by simp)
      · exact .refl
  have last : Conds p [dPeerLpbk] s2 t := by
    rw [← h]
    exact .one _ _ _ (by simp)
  refine ⟨(Elsewhere.onTrunk _ _ _).trans ((Elsewhere.conds rdi).trans (.conds last)), ?_, ?_, ?_, fun set two => ?_,
    fun set two => ?_, fun j below noRdi noPeer => ?_, fun b i quiet => ?_⟩
  · rw [last.recv, rdi.recv, base]
    rfl
  · rw [last.recv, rdi.recv, base]
  · rw [← h, setCond_raw _ _ _ _ (by decide), if_pos rfl]
  · have three : on = 3 := by simp [on, x, run, set, two]
    rw [last.raw (by decide) (by decide)]
    simp only [s2, if_pos three]
    rw [setCond_raw _ _ _ _ (by decide), if_pos rfl]
  · have three : off = 3 := by simp [off, x, run, set, two]
    have zero : ¬ on = 3 := by simp [on, run, set]
    rw [last.raw (by decide) (by decide)]
    simp only [s2, if_pos three, if_neg zero]
    rw [setCond_raw _ _ _ _ (by decide), if_pos rfl]
  · rw [last.raw below (by simpa using noPeer), rdi.raw below (by simpa using noRdi), portOf_onTrunk_same]
  · rw [last.quiet quiet, rdi.quiet quiet]
    rfl

/-! Multiframe alignment. -/

theorem fillBelow_facts {n r : Nat} (room : 80 ≤ n) (below : r < 80) :
    fillBelow n r ≤ n ∧ n < fillBelow n r + 80 ∧ fillBelow n r % 80 = r := by
  unfold fillBelow
  omega

/-- The fill a centring takes: of those at which calendar positions coincide the nearest to the nominal one. -/
theorem nearFill_facts {n r : Nat} (room : 80 ≤ n) (below : r < 80) (up : Bool) :
    nearFill n r up % 80 = r ∧ nearFill n r up ≤ n + 40 ∧ n ≤ nearFill n r up + 40 := by
  obtain ⟨low, high, phase⟩ := fillBelow_facts room below
  unfold nearFill
  dsimp only
  split
  · next near => omega
  · next far =>
    have up80 : 40 ≤ n - fillBelow n r := by
      by_contra less
      exact far (.inl (by omega))
    omega

theorem trunkCentre_facts {s t : State} {p r : Nat} (h : trunkCentre s p r = t) :
    Elsewhere p s t ∧ (∃ up, recv t p = { recv s p with fill := some (nearFill (ebNominal s p) r up) }) ∧
      (portOf t p).raw = (portOf s p).raw ∧ Counted s t (0x100 + p) 29 ∧
      (∀ b i, Quiet p b i → b * 65536 + i ≠ (0x100 + p) * 65536 + 29 → ctrVal t b i = ctrVal s b i) := by
  unfold trunkCentre at h
  extract_lets n at h
  generalize draw : (if n - fillBelow n r = 40 then (bit (drawWord s).1 0, (drawWord s).2) else (false, s)) = u at h
  obtain ⟨up, s0⟩ := u
  have drawn : s0.ports = s.ports ∧ s0.sage = s.sage := by
    split at draw <;> (injection draw with _ same; rw [← same]; exact ⟨rfl, rfl⟩)
  dsimp -zeta only at h
  extract_lets f s1 at h
  have port : portOf s1 p = { portOf s p with trunk := { (portOf s p).trunk with fill := some f } } := by
    have : portOf s1 p = portOf (onTrunk s0 p (fun t => { t with fill := some f })) p := rfl
    rw [this, portOf_onTrunk_same, portOf_of_get (s := s) (t := s0) drawn.1]
  have ctr : Counted s s1 (0x100 + p) 29 := by
    have before : ctrVal (onTrunk s0 p (fun t => { t with fill := some f })) (0x100 + p) 29 = ctrVal s (0x100 + p) 29 := by
      show ctrVal s0 _ _ = _
      exact ctrVal_of_get drawn.2 _ _
    rw [Counted, ctrVal_trace _ _ _ _ _ (by omega) (by omega), ctrVal_cPort_same, before]
  have ctrs : ∀ b i, Quiet p b i → b * 65536 + i ≠ (0x100 + p) * 65536 + 29 → ctrVal s1 b i = ctrVal s b i := by
    intro b i quiet apart
    obtain ⟨_, _, record⟩ := quiet
    have before : ctrVal (onTrunk s0 p (fun t => { t with fill := some f })) b i = ctrVal s b i := by
      show ctrVal s0 _ _ = _
      exact ctrVal_of_get drawn.2 _ _
    rw [ctrVal_trace _ _ _ _ _ record.1 record.2, cPort, ctrVal_count_ne _ _ apart, before]
  have other : Elsewhere p s s1 := fun q apart => by
    have : portOf s1 q = portOf (onTrunk s0 p (fun t => { t with fill := some f })) q := rfl
    rw [this, portOf_onTrunk_ne _ _ apart, portOf_of_get (s := s) (t := s0) drawn.1]
  split at h
  · rw [← h]
    refine ⟨other, ⟨up, ?_⟩, by rw [port], ctr, ctrs⟩
    rw [recv, port]
    rfl
  · rw [← h]
    refine ⟨other.trans (.onPort _ _ _), ⟨up, ?_⟩, by rw [portOf_onPort_same, port], ?_,
      fun b i quiet apart => (ctrVal_onPort ..).trans (ctrs b i quiet apart)⟩
    · rw [recv, portOf_onPort_same, port]
      rfl
    · rw [Counted, ctrVal_onPort]
      exact ctr

/-- A receiver without its multiframe alignment. -/
def mfRest (t : TrunkSt) : TrunkSt := { t with inMf := false, nextFi := none, fiRun := 0, fiBad := 0, fill := none }

/-- What judging the multiframe alignment of port p leaves. -/
structure MfKeeps (p : Nat) (s t : State) : Prop where
  other : Elsewhere p s t
  recv : mfRest (recv t p) = mfRest (recv s p)
  raw : ∀ j < 16, j ≠ dLom → bit (portOf t p).raw j = bit (portOf s p).raw j
  ctr : ∀ b i, Quiet p b i → b * 65536 + i ≠ (0x100 + p) * 65536 + 29 → ctrVal t b i = ctrVal s b i

section
variable {p : Nat} {s t u : State}

theorem MfKeeps.trans (h : MfKeeps p s t) (k : MfKeeps p t u) : MfKeeps p s u :=
  ⟨h.other.trans k.other, k.recv.trans h.recv, fun j below apart => (k.raw j below apart).trans (h.raw j below apart),
    fun b i quiet apart => (k.ctr b i quiet apart).trans (h.ctr b i quiet apart)⟩

theorem MfKeeps.trunk (s : State) (p : Nat) (g : TrunkSt → TrunkSt)
    (keeps : ∀ x, mfRest { g x with reasm := none } = mfRest { x with reasm := none }) : MfKeeps p s (onTrunk s p g) := by
  refine ⟨.onTrunk _ _ _, ?_, fun j _ _ => by rw [portOf_onTrunk_same], fun b i _ _ => rfl⟩
  rw [recv_onTrunk]
  exact keeps _

theorem MfKeeps.lom (s : State) (p : Nat) (on : Bool) : MfKeeps p s (setCond s p dLom on) := by
  have one : Conds p [dLom] s (setCond s p dLom on) := .one _ _ _ (List.mem_singleton.mpr rfl)
  exact ⟨.conds one, by rw [one.recv], fun j below apart => one.raw below (by simpa using apart),
    fun b i quiet _ => one.quiet quiet⟩

theorem MfKeeps.centre (s : State) (p r : Nat) : MfKeeps p s (trunkCentre s p r) := by
  obtain ⟨other, ⟨up, recv⟩, raw, _, ctrs⟩ := trunkCentre_facts (s := s) (p := p) (r := r) rfl
  exact ⟨other, by rw [recv]; rfl, fun j _ _ => by rw [raw], ctrs⟩

theorem mfAlign_keeps (s : State) (p fi : Nat) : MfKeeps p s (mfAlign s p fi) := by
  unfold mfAlign
  extract_lets x expected n s1
  split
  · split
    · exact .trunk _ _ _ fun _ => rfl
    · split
      · exact .trunk _ _ _ fun _ => rfl
      · exact (MfKeeps.trunk s p (fun t => { t with inMf := false, nextFi := some ((fi + 1) % 32), fiBad := 0, fiRun := 1
                                                    fill := none }) fun _ => rfl).trans (.lom _ _ _)
  · have first : MfKeeps p s s1 := .trunk _ _ _ fun _ => rfl
    split
    · exact first
    · exact first.trans ((MfKeeps.trunk s1 p (fun t => { t with inMf := true, fiBad := 0 }) fun _ => rfl).trans
        ((MfKeeps.lom _ _ _).trans (.centre _ _ _)))

/-- In multiframe alignment an O0 in sequence goes on. -/
theorem mfAlign_goes {fi : Nat} (inMf : (portOf s p).trunk.inMf = true) (next : (portOf s p).trunk.nextFi = some fi)
    (h : mfAlign s p fi = t) :
    (Machine.recv t p).inMf = true ∧ (Machine.recv t p).nextFi = some ((fi + 1) % 32) := by
  unfold mfAlign at h
  simp only [inMf, next, decide_true, if_true] at h
  rw [← h, recv_onTrunk]
  exact ⟨inMf, rfl⟩

/-- The third O0 out of sequence ends multiframe alignment. -/
theorem mfAlign_loses {fi : Nat} (inMf : (portOf s p).trunk.inMf = true) (next : (portOf s p).trunk.nextFi ≠ some fi)
    (third : 2 ≤ (portOf s p).trunk.fiBad) (h : mfAlign s p fi = t) :
    (Machine.recv t p).inMf = false ∧ bit (portOf t p).raw dLom = true := by
  have past : ¬ (portOf s p).trunk.fiBad + 1 < 3 := by omega
  unfold mfAlign at h
  simp only [inMf, decide_eq_false next, if_true, if_neg past, Bool.false_eq_true, if_false] at h
  rw [← h]
  exact ⟨by rw [setCond_recv, recv_onTrunk], by rw [setCond_raw _ _ _ _ (by decide), if_pos rfl]⟩

/-- The third O0 in sequence reaches multiframe alignment. -/
theorem mfAlign_joins {fi : Nat} (out : (portOf s p).trunk.inMf = false) (next : (portOf s p).trunk.nextFi = some fi)
    (third : 2 ≤ (portOf s p).trunk.fiRun) (h : mfAlign s p fi = t) :
    (Machine.recv t p).inMf = true ∧ bit (portOf t p).raw dLom = false ∧ Counted s t (0x100 + p) 29 ∧
      ∃ up, (Machine.recv t p).fill = some (nearFill (ebNominal s p) (o0Phase s.sfp) up) := by
  have past : ¬ (portOf s p).trunk.fiRun + 1 < 3 := by omega
  unfold mfAlign at h
  simp only [out, next, decide_true, if_true, Bool.false_eq_true, if_false, if_neg past] at h
  generalize begun : onTrunk s p _ = s1 at h
  have trunk1 : (portOf s1 p).trunk.reasm = (portOf s p).trunk.reasm ∧ s1.sage = s.sage ∧ actv s1 = actv s := by
    rw [← begun, portOf_onTrunk_same]
    exact ⟨rfl, rfl, rfl⟩
  obtain ⟨_, sage, view⟩ := trunk1
  obtain ⟨_, ⟨up, recv⟩, raw, ctr, _⟩ := trunkCentre_facts h
  have lom : Conds p [dLom] (onTrunk s1 p (fun t => { t with inMf := true, fiBad := 0 })) _ :=
    .one _ dLom false (List.mem_singleton.mpr rfl)
  have nominal : ebNominal (Machine.setCond (onTrunk s1 p (fun t => { t with inMf := true, fiBad := 0 })) p dLom false) p
      = ebNominal s p := by
    have same : actv (Machine.setCond (onTrunk s1 p (fun t => { t with inMf := true, fiBad := 0 })) p dLom false) = actv s :=
      (actv_of_get (lom.get (by decide) (by decide) (by decide))).trans view
    rw [ebNominal, same, ebNominal]
  refine ⟨?_, ?_, ?_, up, ?_⟩
  · rw [recv, lom.recv, recv_onTrunk]
  · rw [raw, setCond_raw _ _ _ _ (by decide), if_pos rfl]
  · have before : ctrVal (Machine.setCond (onTrunk s1 p (fun t => { t with inMf := true, fiBad := 0 })) p dLom false)
        (0x100 + p) 29 = ctrVal s (0x100 + p) 29 := by
      rw [lom.quiet ⟨by decide, by simp [SettleCtr], by omega, by omega⟩]
      exact ctrVal_of_get sage _ _
    rw [Counted, ctr, before]
  · rw [recv, nominal]

end

/-! The MFC bytes (R57, R58). -/

/-- A receiver without what it collects of the MFC. -/
def mfcRest (t : TrunkSt) : TrunkSt := { t with mfcBytes := [], mfcBad := 0, mfcGood := 0, mfcAt := none }

/-- What judging the received MFC of port p leaves. -/
structure MfcKeeps (p : Nat) (s t : State) : Prop where
  other : Elsewhere p s t
  recv : mfcRest (recv t p) = mfcRest (recv s p)
  raw : ∀ j < 16, j ≠ dMfcMis → bit (portOf t p).raw j = bit (portOf s p).raw j
  ctr : ∀ b i, Quiet p b i → b * 65536 + i ≠ 5 * 65536 + 12 → ctrVal t b i = ctrVal s b i

section
variable {p : Nat} {s t u : State}

theorem MfcKeeps.refl (p : Nat) (s : State) : MfcKeeps p s s := ⟨.refl _ _, rfl, fun _ _ _ => rfl, fun _ _ _ _ => rfl⟩

theorem MfcKeeps.trans (h : MfcKeeps p s t) (k : MfcKeeps p t u) : MfcKeeps p s u :=
  ⟨h.other.trans k.other, k.recv.trans h.recv, fun j below apart => (k.raw j below apart).trans (h.raw j below apart),
    fun b i quiet apart => (k.ctr b i quiet apart).trans (h.ctr b i quiet apart)⟩

theorem MfcKeeps.trunk (s : State) (p : Nat) (g : TrunkSt → TrunkSt)
    (keeps : ∀ x, mfcRest { g x with reasm := none } = mfcRest { x with reasm := none }) : MfcKeeps p s (onTrunk s p g) := by
  refine ⟨.onTrunk _ _ _, ?_, fun j _ _ => by rw [portOf_onTrunk_same], fun b i _ _ => rfl⟩
  rw [recv_onTrunk]
  exact keeps _

theorem MfcKeeps.mis (s : State) (p : Nat) (on : Bool) : MfcKeeps p s (setCond s p dMfcMis on) := by
  have one : Conds p [dMfcMis] s (setCond s p dMfcMis on) := .one _ _ _ (List.mem_singleton.mpr rfl)
  exact ⟨.conds one, by rw [one.recv], fun j below apart => one.raw below (by simpa using apart),
    fun b i quiet _ => one.quiet quiet⟩

theorem MfcKeeps.of_sage (ports : t.ports = s.ports) (sage : t.sage = s.sage) : MfcKeeps p s t :=
  ⟨.of_get ports, by rw [recv_of_get ports], fun j _ _ => by rw [portOf_of_get ports],
    fun b i _ _ => ctrVal_of_get sage _ _⟩

theorem MfcKeeps.report (s : State) (p : Nat) (f : ThySt → ThySt) (d : Bytes) :
    MfcKeeps p s (trace (cThy (onThy s f) 12) 2 4 noObj d) := by
  refine ⟨fun q _ => rfl, rfl, fun j _ _ => rfl, fun b i quiet apart => ?_⟩
  obtain ⟨_, _, record⟩ := quiet
  rw [ctrVal_trace _ _ _ _ _ record.1 record.2]
  exact ctrVal_count_ne _ _ apart

theorem mfcCompare_keeps (s : State) (p v : Nat) : MfcKeeps p s (mfcCompare s p v) := by
  unfold mfcCompare
  split
  · extract_lets own same x next bad good s1 src s2 s3
    have k1 : MfcKeeps p s s1 := .trunk _ _ _ fun _ => rfl
    split
    · split
      · exact k1.trans ((MfcKeeps.mis s1 p true).trans (.report _ _ _ _))
      · exact k1.trans (.mis _ _ _)
    · split
      · split
        · exact k1.trans ((MfcKeeps.mis s1 p false).trans (.of_sage rfl rfl))
        · exact k1.trans (.mis _ _ _)
      · exact k1
  · exact .refl _ _

/-- Learning leaves the ports, the counters and MFC_SRC_MISMATCH. -/
theorem mfcLearnFrom_same (s : State) (p v : Nat) : (mfcLearnFrom s p v).ports = s.ports ∧
    (mfcLearnFrom s p v).sage = s.sage ∧ (mfcLearnFrom s p v).thy.mfcMism = s.thy.mfcMism := by
  refine ⟨(by simp : get .ports _ = get .ports s), (by simp : get .sage _ = get .sage s), ?_⟩
  unfold mfcLearnFrom
  split
  · dsimp only
    split
    · split <;> rfl
    · rfl
  · rfl

theorem mfcLearnFrom_keeps (s : State) (p v : Nat) : MfcKeeps p s (mfcLearnFrom s p v) := by
  obtain ⟨ports, sage, _⟩ := mfcLearnFrom_same s p v
  exact .of_sage ports sage

theorem mfcCollect_keeps (s : State) (p : Nat) (w : W56) : MfcKeeps p s (mfcCollect s p w) := by
  unfold mfcCollect
  extract_lets x fi got s1
  have k1 : MfcKeeps p s s1 := .trunk _ _ _ fun _ => rfl
  split
  · exact k1.trans ((mfcCompare_keeps _ _ _).trans (mfcLearnFrom_keeps _ _ _))
  · exact k1

/-- The second multiframe in a row with another MFC. -/
theorem mfcCompare_mismatch {v : Nat} (live : (portOf s p).trunk.inMf = true ∨ p ≠ tMfcPort (actv s))
    (bad : (portOf s p).trunk.mfcBad = 1)
    (next : (portOf s p).trunk.mfcAt = some ((pairedMfc s.sfp 818840 + 2 ^ 48 - 1) % 2 ^ 48))
    (differs : v ≠ pairedMfc s.sfp 818840) (h : mfcCompare s p v = t) :
    bit (portOf t p).raw dMfcMis = true ∧
      (p = tMfcPort (actv s) → t.thy.mfcMism = true ∧ (s.thy.mfcMism = false → Counted s t 5 12)) := by
  have on : ((portOf s p).trunk.inMf || p != tMfcPort (actv s)) = true := by
    rcases live with live | live <;> simp [live]
  have next : (portOf s p).trunk.mfcAt = some ((pairedMfc s.sfp (5 * frameBlocks) + mfcMod - 1) % mfcMod) := next
  have differs : decide (v = pairedMfc s.sfp (5 * frameBlocks)) = false := decide_eq_false differs
  unfold mfcCompare at h
  rw [if_pos on] at h
  simp only [next, decide_true, if_true, bad, differs, run, Bool.not_false] at h
  generalize begun : onTrunk s p _ = s1 at h
  have kept : s1.thy = s.thy ∧ s1.sage = s.sage := by
    rw [← begun]
    exact ⟨rfl, rfl⟩
  have one : Conds p [dMfcMis] s1 (setCond s1 p dMfcMis true) := .one _ _ _ (List.mem_singleton.mpr rfl)
  have thy : (setCond s1 p dMfcMis true).thy = s.thy :=
    (thy_of_get (one.get (by decide) (by decide) (by decide)) (one.get (by decide) (by decide) (by decide))).trans kept.1
  have ctr : ctrVal (setCond s1 p dMfcMis true) 5 12 = ctrVal s 5 12 :=
    (one.quiet ⟨by decide, by simp [SettleCtr]; omega, by decide, by decide⟩).trans (ctrVal_of_get kept.2 _ _)
  have mis : bit (portOf (setCond s1 p dMfcMis true) p).raw dMfcMis = true := by
    rw [setCond_raw _ _ _ _ (by decide), if_pos rfl]
  split at h
  · rw [← h]
    refine ⟨mis, fun _ => ⟨rfl, fun _ => ?_⟩⟩
    rw [Counted, ctrVal_trace _ _ _ _ _ (by decide) (by decide), ctrVal_cThy_same, ← ctr]
    rfl
  · next other =>
    rw [← h]
    refine ⟨mis, fun own => ?_⟩
    simp only [own, decide_true, Bool.true_and, Bool.not_eq_true', Bool.not_eq_false] at other
    rw [own.symm] at other
    exact ⟨other, fun clear => by rw [thy, clear] at other; exact absurd other (by decide)⟩

/-- The sixth byte completes an MFC. -/
theorem mfcCollect_mismatch {w : W56} (last : o0Fi w = 5) (five : (portOf s p).trunk.mfcBytes.length = 5)
    (live : (portOf s p).trunk.inMf = true ∨ p ≠ tMfcPort (actv s)) (bad : (portOf s p).trunk.mfcBad = 1)
    (next : (portOf s p).trunk.mfcAt = some ((pairedMfc s.sfp 818840 + 2 ^ 48 - 1) % 2 ^ 48))
    (differs : beNat ((portOf s p).trunk.mfcBytes ++ [o0Slice w]) ≠ pairedMfc s.sfp 818840)
    (h : mfcCollect s p w = t) : bit (portOf t p).raw dMfcMis = true ∧
      (p = tMfcPort (actv s) → t.thy.mfcMism = true ∧ (s.thy.mfcMism = false → Counted s t 5 12)) := by
  unfold mfcCollect at h
  simp only [last, five, if_neg (by decide : ¬ 5 = 0), and_self, le_refl, if_true, List.length_append, List.length_singleton] at h
  generalize begun : onTrunk s p (fun t => { t with mfcBytes := (portOf s p).trunk.mfcBytes ++ [o0Slice w] }) = u at h
  have trunk : (portOf u p).trunk = { (portOf s p).trunk with mfcBytes := (portOf s p).trunk.mfcBytes ++ [o0Slice w] } := by
    rw [← begun, portOf_onTrunk_same]
  have rest : u.sfp = s.sfp ∧ u.thy = s.thy ∧ u.sage = s.sage ∧ actv u = actv s := by
    rw [← begun]
    exact ⟨rfl, rfl, rfl, rfl⟩
  obtain ⟨sfp, thy, sage, view⟩ := rest
  have facts := mfcCompare_mismatch (s := u) (p := p) (by rw [trunk, view]; exact live) (by rw [trunk]; exact bad)
    (by rw [trunk, sfp]; exact next) (by rw [sfp]; exact differs) rfl
  rw [view, thy, Counted, ctrVal_of_get sage] at facts
  obtain ⟨ports, sage', mism⟩ := mfcLearnFrom_same
    (mfcCompare u p (beNat ((portOf s p).trunk.mfcBytes ++ [o0Slice w]))) p
    (beNat ((portOf s p).trunk.mfcBytes ++ [o0Slice w]))
  rw [h] at ports sage' mism
  rw [portOf_of_get ports, mism, Counted, ctrVal_of_get sage']
  exact facts

theorem MfKeeps.same {α : Type} (k : MfKeeps p s t) (f : TrunkSt → α) (hf : ∀ x, f (mfRest x) = f x) :
    f (Machine.recv t p) = f (Machine.recv s p) := by rw [← hf, k.recv, hf]

theorem MfcKeeps.same {α : Type} (k : MfcKeeps p s t) (f : TrunkSt → α) (hf : ∀ x, f (mfcRest x) = f x) :
    f (Machine.recv t p) = f (Machine.recv s p) := by rw [← hf, k.recv, hf]

end

/-! The rows of an O0 (R118, R119). -/

/-- The receiver stays in frame, and the O0 feeds what it carries. -/
def fed (s : State) (p : Nat) (w : W56) : State := mfcCollect (mfAlign (o0Flags s p w) p (o0Fi w)) p w

section
variable {p : Nat} {s t : State} {w : W56} (fed_ : fed s p w = t)
include fed_

theorem fed_other : Elsewhere p s t := by
  rw [← fed_]
  exact (o0Flags_facts rfl).1.trans ((mfAlign_keeps _ _ _).other.trans (mfcCollect_keeps _ _ _).other)

theorem fed_align : (recv t p).align = (recv s p).align ∧ (recv t p).fi = o0Fi w := by
  obtain ⟨_, flags, fi, _⟩ := o0Flags_facts (s := s) (p := p) (w := w) rfl
  have align : (recv (o0Flags s p w) p).align = (recv s p).align := (congrArg (fun x : TrunkSt => x.align) flags :)
  rw [← fed_, fed, (mfcCollect_keeps _ _ _).same (·.align) fun _ => rfl, (mfAlign_keeps _ _ _).same (·.align) fun _ => rfl,
    (mfcCollect_keeps _ _ _).same (·.fi) fun _ => rfl, (mfAlign_keeps _ _ _).same (·.fi) fun _ => rfl]
  exact ⟨align, fi⟩

theorem fed_raw : bit (portOf t p).raw dPeerLpbk = o0Lpbk w ∧
    (o0Rdi w = true → (portOf s p).trunk.rdiOn = 2 → bit (portOf t p).raw dRdi = true) ∧
    (o0Rdi w = false → (portOf s p).trunk.rdiOff = 2 → bit (portOf t p).raw dRdi = false) ∧
    bit (portOf t p).raw dLof = bit (portOf s p).raw dLof := by
  obtain ⟨_, _, _, peer, on, off, others, _⟩ := o0Flags_facts (s := s) (p := p) (w := w) rfl
  have raw {j : Nat} (below : j < 16) (lom : j ≠ dLom) (mis : j ≠ dMfcMis) :
      bit (portOf t p).raw j = bit (portOf (o0Flags s p w) p).raw j := by
    rw [← fed_, fed, (mfcCollect_keeps _ _ _).raw j below mis, (mfAlign_keeps _ _ _).raw j below lom]
  rw [raw (by decide) (by decide) (by decide), raw (j := dRdi) (by decide) (by decide) (by decide)]
  exact ⟨peer, on, off, (raw (by decide) (by decide) (by decide)).trans (others dLof (by decide) (by decide) (by decide))⟩

theorem fed_only : Only [.ports, .thy, .cands, .sage, .hist, .fresh] s t := fun f out => by
  simp at out
  rw [← fed_]
  simp [fed, out]

/-- Of the multiframe alignment an O0 carries its own FI into the judgement. -/
theorem fed_goes (inMf : (portOf s p).trunk.inMf = true) (next : (portOf s p).trunk.nextFi = some (o0Fi w)) :
    (portOf t p).trunk.inMf = true ∧ (portOf t p).trunk.nextFi = some ((o0Fi w + 1) % 32) := by
  obtain ⟨_, flags, _⟩ := o0Flags_facts (s := s) (p := p) (w := w) rfl
  have inMf' : (recv (o0Flags s p w) p).inMf = true := (congrArg (fun x : TrunkSt => x.inMf) flags :).trans inMf
  have next' : (recv (o0Flags s p w) p).nextFi = some (o0Fi w) := (congrArg (fun x : TrunkSt => x.nextFi) flags :).trans next
  obtain ⟨inMf'', next''⟩ := mfAlign_goes (s := o0Flags s p w) (p := p) inMf' next' rfl
  rw [← fed_]
  exact ⟨((mfcCollect_keeps _ _ _).same (·.inMf) fun _ => rfl).trans inMf'',
    ((mfcCollect_keeps _ _ _).same (·.nextFi) fun _ => rfl).trans next''⟩

theorem fed_loses (inMf : (portOf s p).trunk.inMf = true) (next : (portOf s p).trunk.nextFi ≠ some (o0Fi w))
    (third : 2 ≤ (portOf s p).trunk.fiBad) :
    (portOf t p).trunk.inMf = false ∧ bit (portOf t p).raw dLom = true := by
  obtain ⟨_, flags, _⟩ := o0Flags_facts (s := s) (p := p) (w := w) rfl
  have inMf' : (recv (o0Flags s p w) p).inMf = true := (congrArg (fun x : TrunkSt => x.inMf) flags :).trans inMf
  have next' : (recv (o0Flags s p w) p).nextFi = _ := (congrArg (fun x : TrunkSt => x.nextFi) flags :)
  have third' : (recv (o0Flags s p w) p).fiBad = _ := (congrArg (fun x : TrunkSt => x.fiBad) flags :)
  obtain ⟨out, lom⟩ := mfAlign_loses (s := o0Flags s p w) (p := p) inMf' (fun same => next (next'.symm.trans same))
    (third.trans_eq third'.symm) rfl
  rw [← fed_]
  exact ⟨((mfcCollect_keeps _ _ _).same (·.inMf) fun _ => rfl).trans out,
    ((mfcCollect_keeps _ _ _).raw dLom (by decide) (by decide)).trans lom⟩

theorem fed_joins (out : (portOf s p).trunk.inMf = false) (next : (portOf s p).trunk.nextFi = some (o0Fi w))
    (third : 2 ≤ (portOf s p).trunk.fiRun) :
    (portOf t p).trunk.inMf = true ∧ bit (portOf t p).raw dLom = false ∧ Counted s t (0x100 + p) 29 ∧
      ∃ f, (portOf t p).trunk.fill = some f ∧
        (1 ≤ pEbDepth (actv s) p → f % 80 = o0Phase s.sfp ∧ f ≤ ebNominal s p + 40 ∧ ebNominal s p ≤ f + 40) := by
  obtain ⟨_, flags, _, _, _, _, _, quiet⟩ := o0Flags_facts (s := s) (p := p) (w := w) rfl
  have out' : (recv (o0Flags s p w) p).inMf = false := (congrArg (fun x : TrunkSt => x.inMf) flags :).trans out
  have next' : (recv (o0Flags s p w) p).nextFi = some (o0Fi w) := (congrArg (fun x : TrunkSt => x.nextFi) flags :).trans next
  have third' : (recv (o0Flags s p w) p).fiRun = _ := (congrArg (fun x : TrunkSt => x.fiRun) flags :)
  have view : actv (o0Flags s p w) = actv s := actv_of_get (by simp)
  have sfp : (o0Flags s p w).sfp = s.sfp := by
    show get .sfp _ = get .sfp s
    simp
  obtain ⟨inMf, lom, counted, up, fill⟩ := mfAlign_joins (s := o0Flags s p w) (p := p) out' next'
    (third.trans_eq third'.symm) rfl
  have still : Quiet p (0x100 + p) 29 := ⟨by decide, by simp [SettleCtr], by omega, by omega⟩
  have ctr := (mfcCollect_keeps (mfAlign (o0Flags s p w) p (o0Fi w)) p w).ctr _ _ still (by omega)
  rw [Counted, quiet _ _ still] at counted
  rw [← fed_, Counted, fed, ctr]
  refine ⟨((mfcCollect_keeps _ _ _).same (·.inMf) fun _ => rfl).trans inMf,
    ((mfcCollect_keeps _ _ _).raw dLom (by decide) (by decide)).trans lom, counted, _,
    ((mfcCollect_keeps _ _ _).same (·.fill) fun _ => rfl).trans fill, fun deep => ?_⟩
  rw [sfp, ebNominal, view, ← ebNominal]
  have room : 80 ≤ ebNominal s p := by
    unfold ebNominal
    omega
  exact nearFill_facts room (Nat.mod_lt _ (by decide)) up

theorem fed_mismatch (last : o0Fi w = 5) (five : (portOf s p).trunk.mfcBytes.length = 5)
    (live : (portOf s p).trunk.inMf = true ∧ (portOf s p).trunk.nextFi = some 5 ∨ p ≠ tMfcPort (actv s))
    (bad : (portOf s p).trunk.mfcBad = 1)
    (next : (portOf s p).trunk.mfcAt = some ((pairedMfc s.sfp 818840 + 2 ^ 48 - 1) % 2 ^ 48))
    (differs : beNat ((portOf s p).trunk.mfcBytes ++ [o0Slice w]) ≠ pairedMfc s.sfp 818840) :
    bit (portOf t p).raw dMfcMis = true ∧
      (p = tMfcPort (actv s) → t.thy.mfcMism = true ∧ (s.thy.mfcMism = false → Counted s t 5 12)) := by
  obtain ⟨_, flags, _, _, _, _, _, quiet⟩ := o0Flags_facts (s := s) (p := p) (w := w) rfl
  have aligned := mfAlign_keeps (o0Flags s p w) p (o0Fi w)
  let a := mfAlign (o0Flags s p w) p (o0Fi w)
  have bytes : (portOf a p).trunk.mfcBytes = (portOf s p).trunk.mfcBytes :=
    (aligned.same (·.mfcBytes) fun _ => rfl).trans (congrArg (fun x : TrunkSt => x.mfcBytes) flags :)
  have bad' : (portOf a p).trunk.mfcBad = (portOf s p).trunk.mfcBad :=
    (aligned.same (·.mfcBad) fun _ => rfl).trans (congrArg (fun x : TrunkSt => x.mfcBad) flags :)
  have at' : (portOf a p).trunk.mfcAt = (portOf s p).trunk.mfcAt :=
    (aligned.same (·.mfcAt) fun _ => rfl).trans (congrArg (fun x : TrunkSt => x.mfcAt) flags :)
  have view : actv a = actv s := actv_of_get (by simp [a])
  have sfp : a.sfp = s.sfp := (by simp [a] : get .sfp a = get .sfp s)
  have thy : a.thy = s.thy := thy_of_get (by simp [a]) (by simp [a])
  have live' : (portOf a p).trunk.inMf = true ∨ p ≠ tMfcPort (actv a) := by
    rw [view]
    refine live.imp_left fun ⟨inMf, next⟩ => ?_
    have inMf' : (recv (o0Flags s p w) p).inMf = true := (congrArg (fun x : TrunkSt => x.inMf) flags :).trans inMf
    have next' : (recv (o0Flags s p w) p).nextFi = some (o0Fi w) := by
      rw [last, ← next]
      exact (congrArg (fun x : TrunkSt => x.nextFi) flags :)
    exact (mfAlign_goes (s := o0Flags s p w) (p := p) inMf' next' rfl).1
  have still : Quiet p 5 12 := ⟨by decide, by simp [SettleCtr]; omega, by decide, by decide⟩
  have ctr : ctrVal a 5 12 = ctrVal s 5 12 := (aligned.ctr _ _ still (by omega)).trans (quiet _ _ still)
  have facts := mfcCollect_mismatch (s := a) (p := p) (t := t) last (bytes ▸ five) live' (bad' ▸ bad)
    (by rw [at', sfp]; exact next) (by rw [bytes, sfp]; exact differs) fed_
  rw [view, thy, Counted, ctr] at facts
  exact facts

end

/-! An errored O0 where one is expected. -/

theorem loseFrame_facts {s t : State} {p : Nat} (h : loseFrame s p = t) :
    (recv t p).align = .search ∧ (recv t p).inMf = false ∧ (portOf t p).trunk.reasm = none ∧
      bit (portOf t p).raw dLof = true ∧ bit (portOf t p).raw dLom = true ∧ Elsewhere p s t ∧
      (∀ b i, Quiet p b i → ctrVal t b i = ctrVal s b i) := by
  unfold loseFrame at h
  extract_lets s1 at h
  have conds : Conds p [dLof, dLom] (mgmtDiscard s1 p) t := by
    rw [← h]
    exact .set _ _ (by simp) (.one _ _ _ (by simp))
  have drop : Touches p false s1 (mgmtDiscard s1 p) := mgmtDiscard_touches s1
  have reasm : (portOf (mgmtDiscard s1 p) p).trunk.reasm = none := mgmtDiscard_reasm s1 p
  refine ⟨?_, ?_, conds.reasm reasm, ?_, ?_, ?_, fun b i quiet => ?_⟩
  · rw [conds.recv, recv_of_rest (drop.rest p), recv_onTrunk]
  · rw [conds.recv, recv_of_rest (drop.rest p), recv_onTrunk]
  · rw [← h, setCond_raw _ _ _ _ (by decide), if_pos rfl]
  · rw [← h, setCond_raw _ _ _ _ (by decide), if_neg (by decide), setCond_raw _ _ _ _ (by decide), if_pos rfl]
  · exact (Elsewhere.onTrunk _ _ _).trans (.trans (fun q apart => drop.other apart) (.conds conds))
  · rw [conds.quiet quiet, drop.ctr quiet.1 quiet.2.1 quiet.2.2]
    rfl

theorem loseFrame_only {s : State} {p : Nat} (trunk : isTrunk s p = true) : Only [.ports, .sage] s (loseFrame s p) := by
  unfold loseFrame
  extract_lets s1
  have still : isTrunk (mgmtDiscard s1 p) p = true := by
    rw [isTrunk_of_get (s := s) (by simp [s1]), trunk]
  have conds : Conds p [dLof, dLom] (mgmtDiscard s1 p) (setCond (setCond (mgmtDiscard s1 p) p dLom true) p dLof true) :=
    .set _ _ (by simp) (.one _ _ _ (by simp))
  intro f out
  simp at out
  rw [conds.get_trunk still out.1 out.2]
  simp [s1, out]

section
variable {p : Fin 128} {b : Block} {s : State}

theorem o0_row (on : powered s = true) (trunk : isTrunk s p = true) : exec (.o0Block p b) s =
    .next (if o0Good (rxOverhead s p (portOf s p).txO0 b) then o0Correct s p (rxOverhead s p (portOf s p).txO0 b)
      else o0Errored s p (rxOverhead s p (portOf s p).txO0 b)) := by
  show Host.Outcome.next (live s (xO0Receive p.val b s)) = _
  rw [live_on on, xO0Receive]
  simp only [trunk, if_true]

/-- An O0 that only moves the aligner on. -/
theorem align_facts (q : Fin 128) (a : Aligner) (s : State) :
    (portOf (onTrunk s q (fun t => { t with align := a })) q).trunk.align = a ∧
      (∀ r : Fin 128, r ≠ q → portOf (onTrunk s q (fun t => { t with align := a })) r = portOf s r) ∧
      onTrunk s q (fun t => { t with align := a }) =
        { s with ports := (onTrunk s q (fun t => { t with align := a })).ports } :=
  ⟨by rw [portOf_onTrunk_same], (Elsewhere.onTrunk _ _ _).ports, rfl⟩

end

theorem o0Correct_verified {p n : Nat} {b : Block} {s : State} (align : (portOf s p).trunk.align = .verify (n + 1)) :
    o0Correct s p b = fed (setCond (onTrunk s p (fun t => { t with align := .inFrame 0, nextFi := none, fiRun := 0 })) p
      dLof false) p (blkW b) := by
  simp only [o0Correct, align]
  rfl

theorem o0Correct_inFrame {p n : Nat} {b : Block} {s : State} (align : (portOf s p).trunk.align = .inFrame n) :
    o0Correct s p b = fed (onTrunk s p (fun t => { t with align := .inFrame 0 })) p (blkW b) := by
  simp only [o0Correct, align]
  rfl

/-- The third correct O0 ends the search. -/
theorem verified_facts {p n : Nat} {b : Block} {s t : State} (align : (portOf s p).trunk.align = .verify (n + 1))
    (h : o0Correct s p b = t) : (portOf t p).trunk.align = .inFrame 0 ∧ bit (portOf t p).raw dLof = false ∧
      Elsewhere p s t ∧ Only [.ports, .thy, .cands, .sage, .hist, .fresh] s t := by
  rw [o0Correct_verified align] at h
  have lof : Conds p [dLof] _ (setCond (onTrunk s p (fun t => { t with align := .inFrame 0, nextFi := none, fiRun := 0 })) p
    dLof false) := .one _ _ _ (List.mem_singleton.mpr rfl)
  refine ⟨?_, ?_, ?_, ?_⟩
  · refine (fed_align h).1.trans ?_
    rw [lof.recv, recv_onTrunk]
  · obtain ⟨_, _, _, same⟩ := fed_raw h
    rw [same, setCond_raw _ _ _ _ (by decide), if_pos rfl]
  · exact (Elsewhere.onTrunk _ _ _).trans (.trans (.conds lof) (fed_other h))
  · refine Only.trans (u := setCond _ p dLof false) (fun f out => ?_) (fed_only h)
    simp at out
    simp [out]

/-- In frame an O0 that is carried into a port's receiver. -/
theorem inFrame_facts {p : Fin 128} {n : Nat} {b : Block} {s t : State} (align : (portOf s p).trunk.align = .inFrame n)
    (h : o0Correct s p b = t) : (portOf t p).trunk.align = .inFrame 0 ∧ (portOf t p).trunk.fi = o0Fi (blkW b) ∧
      Elsewhere p s t ∧ Only [.ports, .thy, .cands, .sage, .hist, .fresh] s t := by
  rw [o0Correct_inFrame align] at h
  obtain ⟨still, fi⟩ := fed_align h
  refine ⟨?_, fi, (Elsewhere.onTrunk _ _ _).trans (fed_other h), ?_⟩
  · refine Eq.trans still ?_
    rw [recv_onTrunk]
  · refine Only.trans (u := onTrunk s p _) (fun f out => ?_) (fed_only h)
    simp at out
    simp [out]

/-- An errored O0 in frame is counted, and the third in a row ends the frame. -/
theorem errored_facts {p n : Nat} {b : Block} {s t : State} (trunk : isTrunk s p = true)
    (align : (portOf s p).trunk.align = .inFrame n) (h : o0Errored s p b = t) :
    Counted s t (0x100 + p) 21 ∧ (portOf t p).trunk.reasm = none ∧
      (n < 2 → (portOf t p).trunk.align = .inFrame (n + 1) ∧ (portOf t p).trunk.inMf = (portOf s p).trunk.inMf ∧
        (portOf t p).raw = (portOf s p).raw) ∧
      (2 ≤ n → (portOf t p).trunk.align = .search ∧ (portOf t p).trunk.inMf = false ∧
        bit (portOf t p).raw dLof = true ∧ bit (portOf t p).raw dLom = true) ∧
      Elsewhere p s t ∧ Only [.ports, .sage] s t := by
  have still : Quiet p (0x100 + p) 21 := ⟨by decide, by simp [SettleCtr], by omega, by omega⟩
  have counted : ctrVal (cPort s p 21 1) (0x100 + p) 21 = (ctrVal s (0x100 + p) 21 + 1) % 2 ^ 64 := ctrVal_cPort_same ..
  unfold o0Errored at h
  extract_lets x s1 at h
  simp only [x, align] at h
  split at h
  · next less =>
    generalize begun : onTrunk s1 p _ = u at h
    have drop : Touches p false u t := by
      rw [← h]
      exact mgmtDiscard_touches u
    have trunk1 : recv u p = { (portOf s p).trunk with
        reasm := none, align := .inFrame (n + 1), o0 := some (blkW b), mfcBytes := []
        nextFi := (portOf s p).trunk.nextFi.map (fun n => (n + 1) % 32) } := by
      rw [← begun]
      exact recv_onTrunk _ _ _
    have before : Elsewhere p s u ∧ (portOf u p).raw = (portOf s p).raw ∧ u.sage = s1.sage ∧ Only [.ports, .sage] s u := by
      rw [← begun]
      exact ⟨Elsewhere.onTrunk p s1 _, by rw [portOf_onTrunk_same]; rfl, rfl, fun f out => by simp at out; simp [s1, out]⟩
    obtain ⟨other, raw, sage, only⟩ := before
    refine ⟨?_, ?_, fun _ => ⟨?_, ?_, ?_⟩, fun more => by omega, other.trans fun q apart => drop.other apart,
      only.trans fun f out => ?_⟩
    · rw [Counted, drop.ctr still.1 still.2.1 still.2.2, ctrVal_of_get sage]
      exact counted
    · rw [← h]
      exact mgmtDiscard_reasm u p
    · refine (congrArg (fun x : TrunkSt => x.align) ((recv_of_rest (drop.rest p)).trans trunk1) :)
    · refine (congrArg (fun x : TrunkSt => x.inMf) ((recv_of_rest (drop.rest p)).trans trunk1) :)
    · rw [raw_of_rest (drop.rest p), raw]
    · simp at out
      exact drop.get out.1 out.2 (by simp)
  · next more =>
    obtain ⟨align', out', reasm, lof, lom, other, ctr⟩ := loseFrame_facts h
    refine ⟨?_, reasm, fun less => by omega, fun _ => ⟨align', out', lof, lom⟩, other, ?_⟩
    · rw [Counted, ctr _ _ still]
      exact counted
    · refine Only.trans (u := s1) (fun f out => by simp at out; simp [s1, out]) ?_
      rw [← h]
      exact loseFrame_only trunk

/-! O1 (R35, R110, R111, R117). -/

/-- A receiver without its SMI comparison. -/
def smiRest (t : TrunkSt) : TrunkSt := { t with rxSmi := none, smiBad := 0, smiGood := 0 }

/-- What part of an O1 leaves of a trunk: nothing of another port, nothing but ports and Sage. -/
structure O1Step (p l : Nat) (s t : State) : Prop where
  other : Elsewhere p s t
  only : Only [.ports, .sage] s t
  raw : ∀ j < 16, j ≠ l → bit (portOf t p).raw j = bit (portOf s p).raw j

section
variable {p l : Nat} {s t u : State}

theorem O1Step.trans (h : O1Step p l s t) (k : O1Step p l t u) : O1Step p l s u :=
  ⟨h.other.trans k.other, h.only.trans k.only, fun j below apart => (k.raw j below apart).trans (h.raw j below apart)⟩

theorem O1Step.trunk (s : State) (p l : Nat) (g : TrunkSt → TrunkSt) : O1Step p l s (onTrunk s p g) :=
  ⟨.onTrunk _ _ _, fun f out => by simp at out; simp [out], fun j _ _ => by rw [portOf_onTrunk_same]⟩

theorem O1Step.cond (trunk : isTrunk s p = true) (l : Nat) (on : Bool) : O1Step p l s (setCond s p l on) := by
  have one : Conds p [l] s (setCond s p l on) := .one _ _ _ (List.mem_singleton.mpr rfl)
  exact ⟨.conds one, fun f out => by simp at out; exact one.get_trunk trunk out.1 out.2,
    fun j below apart => one.raw below (by simpa using apart)⟩

theorem O1Step.isTrunk (h : O1Step p l s t) (q : Nat) : isTrunk t q = isTrunk s q :=
  isTrunk_of_get (h.only .act (by decide)) q

theorem smiJudge_facts {v : BitVec 16} (trunk : isTrunk s p = true) (h : smiCompare.smiJudge s p v = t) :
    (recv t p).rxSmi = some v ∧ smiRest (recv t p) = smiRest (recv s p) ∧
      (v.toNat ≠ bits (activeSmi s p) 15 0 → (portOf s p).trunk.smiBad = 31 → bit (portOf t p).raw dSmi = true) ∧
      (v.toNat = bits (activeSmi s p) 15 0 → (portOf s p).trunk.smiGood = 31 → bit (portOf t p).raw dSmi = false) ∧
      (portOf t p).ql = (portOf s p).ql ∧ (∀ b i, Quiet p b i → ctrVal t b i = ctrVal s b i) ∧ O1Step p dSmi s t := by
  unfold smiCompare.smiJudge at h
  extract_lets same x bad good s1 at h
  have base : recv s1 p = { (portOf s p).trunk with
      reasm := none, rxSmi := some v, smiBad := min bad 32, smiGood := min good 32 } := recv_onTrunk _ _ _
  have first : O1Step p dSmi s s1 := .trunk _ _ _ _
  have conds : Conds p [dSmi] s1 t := by
    rw [← h]
    split
    · exact .one _ _ _ (List.mem_singleton.mpr rfl)
    · split
      · exact .one _ _ _ (List.mem_singleton.mpr rfl)
      · exact .refl
  have last : O1Step p dSmi s1 t := ⟨.conds conds, fun f out => by
    simp at out
    exact conds.get_trunk ((first.isTrunk p).trans trunk) out.1 out.2,
    fun j below apart => conds.raw below (by simpa using apart)⟩
  refine ⟨by rw [conds.recv, base], by rw [conds.recv, base]; rfl, fun differs full => ?_, fun agrees full => ?_,
    (conds.ql p).1.trans ?_, fun b i quiet => (conds.quiet quiet).trans rfl, first.trans last⟩
  · have many : 32 ≤ bad := by simp [bad, same, x, differs, run, full]
    rw [← h, if_pos many, setCond_raw _ _ _ _ (by decide), if_pos rfl]
  · have few : ¬ 32 ≤ bad := by simp [bad, same, agrees, run]
    have many : 32 ≤ good := by simp [good, same, x, agrees, run, full]
    rw [← h, if_neg few, if_pos many, setCond_raw _ _ _ _ (by decide), if_pos rfl]
  · rw [portOf_onTrunk_same]

theorem smiCompare_facts {v : BitVec 16} (trunk : isTrunk s p = true) (h : smiCompare s p v = t) :
    (recv t p).rxSmi = some v ∧ smiRest (recv t p) = smiRest (recv s p) ∧
      (smiLost s p = false →
        (v.toNat ≠ bits (activeSmi s p) 15 0 → (portOf s p).trunk.smiBad = 31 → bit (portOf t p).raw dSmi = true) ∧
        (v.toNat = bits (activeSmi s p) 15 0 → (portOf s p).trunk.smiGood = 31 → bit (portOf t p).raw dSmi = false)) ∧
      (smiLost s p = true → bit (portOf t p).raw dSmi = bit (portOf s p).raw dSmi ∧ (recv t p).smiBad = 0 ∧
        (recv t p).smiGood = 0) ∧
      (∀ b i, Quiet p b i → ctrVal t b i = ctrVal s b i) ∧ O1Step p dSmi s t := by
  unfold smiCompare at h
  split at h
  · next lost =>
    have base : recv t p = { (portOf s p).trunk with reasm := none, rxSmi := some v, smiBad := 0, smiGood := 0 } := by
      rw [← h]
      exact recv_onTrunk _ _ _
    refine ⟨by rw [base], by rw [base]; rfl, fun known => ?_, fun _ => ⟨?_, by rw [base], by rw [base]⟩, ?_, ?_⟩
    · rw [lost] at known
      exact absurd known (by decide)
    · rw [← h, portOf_onTrunk_same]
    · rw [← h]
      exact fun _ _ _ => rfl
    · rw [← h]
      exact .trunk _ _ _ _
  · next known =>
    obtain ⟨rx, rest, bad, good, _, ctr, step⟩ := smiJudge_facts trunk h
    exact ⟨rx, rest, fun _ => ⟨bad, good⟩, fun lost => absurd lost known, ctr, step⟩

/-- A receiver without the QL it collects. -/
def qlRest (t : TrunkSt) : TrunkSt := { t with qlCand := none }

theorem qlFrame_facts {c : BitVec 4} (h : qlFrame s p c = t) :
    qlRest (recv t p) = qlRest (recv s p) ∧ (portOf t p).raw = (portOf s p).raw ∧
      ((portOf s p).trunk.qlCand = some (c, 2) → (portOf t p).qlSfp = s.sfp ∧ (qlKnown c = true → (portOf t p).ql = c) ∧
        (qlKnown c = false → (portOf t p).ql = 0xF ∧ Counted s t 5 10)) ∧
      Elsewhere p s t ∧ Only [.ports, .sage] s t := by
  unfold qlFrame at h
  extract_lets n s1 at h
  have base : recv s1 p = { (portOf s p).trunk with reasm := none, qlCand := some (c, min n 4) } := recv_onTrunk _ _ _
  have kept : qlRest (recv s1 p) = qlRest (recv s p) := by rw [base]; rfl
  have first : O1Step p 0 s s1 := .trunk _ _ _ _
  split at h
  · next three =>
    cases known : qlKnown c with
    | true =>
      simp only [qlTake, known, if_true] at h
      rw [← h]
      refine ⟨?_, by rw [portOf_onPort_same, portOf_onTrunk_same], fun _ => ?_, first.other.trans (.onPort _ _ _), ?_⟩
      · rw [recv, portOf_onPort_same]
        exact kept
      · rw [portOf_onPort_same]
        exact ⟨rfl, fun _ => rfl, by simp⟩
      · exact first.only.trans fun f out => by simp at out; simp [out]
    | false =>
      simp only [qlTake, known, Bool.false_eq_true, if_false] at h
      rw [← h]
      refine ⟨?_, by rw [portOf_onPort_same, portOf_cThy, portOf_onTrunk_same], fun _ => ?_,
        first.other.trans ((Elsewhere.of_get (t := cThy s1 10) rfl).trans (.onPort _ _ _)), ?_⟩
      · rw [recv, portOf_onPort_same]
        exact kept
      · rw [portOf_onPort_same, Counted, ctrVal_onPort, ctrVal_cThy_same]
        exact ⟨rfl, by simp, fun _ => ⟨rfl, rfl⟩⟩
      · exact first.only.trans fun f out => by simp at out; simp [out]
  · next other =>
    rw [← h]
    refine ⟨by rw [base]; rfl, by rw [portOf_onTrunk_same], fun two => ?_, first.other, first.only⟩
    exact absurd (by simp [n, two]) other

/-- A receiver without the TTI it collects. -/
def ttiRest (t : TrunkSt) : TrunkSt := { t with ttiCur := [], ttiPrev := none, rxTti := none }

theorem judgeTim_conds (s : State) (p : Nat) : Conds p [dTim] s (judgeTim s p) := .one _ _ _ (List.mem_singleton.mpr rfl)

theorem ttiSlice_facts {fi : Nat} {two : Bytes} (trunk : isTrunk s p = true) (h : ttiSlice s p fi two = t) :
    ttiRest (recv t p) = ttiRest (recv s p) ∧
      (portOf t p).ql = (portOf s p).ql ∧ (portOf t p).qlSfp = (portOf s p).qlSfp ∧
      (fi = 31 → (portOf s p).trunk.ttiCur.length = 62 →
        (portOf s p).trunk.ttiPrev = some ((portOf s p).trunk.ttiCur ++ two) → (recv t p).rxTti = (portOf s p).trunk.ttiPrev) ∧
      (∀ b i, Quiet p b i → ctrVal t b i = ctrVal s b i) ∧ O1Step p dTim s t := by
  unfold ttiSlice at h
  extract_lets x cur s1 at h
  split at h
  · next zero =>
    rw [← h]
    exact ⟨by rw [recv_onTrunk]; rfl, by rw [portOf_onTrunk_same], by rw [portOf_onTrunk_same], fun last => by omega,
      fun _ _ _ => rfl, .trunk _ _ _ _⟩
  · split at h
    · next inSequence =>
      have first : O1Step p dTim s s1 := .trunk _ _ _ _
      have base : recv s1 p = { (portOf s p).trunk with reasm := none, ttiCur := cur } := recv_onTrunk _ _ _
      split at h
      · next same =>
        let u := onTrunk s1 p (fun t => { t with rxTti := some cur })
        have second : O1Step p dTim s u := first.trans (.trunk _ _ _ _)
        have conds : Conds p [dTim] u t := by
          rw [← h]
          exact judgeTim_conds _ _
        have ports : portOf u p = { portOf s p with trunk := { (portOf s p).trunk with ttiCur := cur, rxTti := some cur } } := by
          rw [portOf_onTrunk_same, portOf_onTrunk_same]
        have cond : O1Step p dTim u t := ⟨.conds conds, fun f out => by
          simp at out
          exact conds.get_trunk ((second.isTrunk p).trans trunk) out.1 out.2,
          fun j below apart => conds.raw below (by simpa using apart)⟩
        refine ⟨?_, ?_, ?_, fun _ _ prev => ?_, fun b i quiet => (conds.quiet quiet).trans rfl, second.trans cond⟩
        · rw [conds.recv, recv, ports]
          rfl
        · rw [(conds.ql p).1, ports]
        · rw [(conds.ql p).2, ports]
        · rw [conds.recv, recv, ports, prev]
      · next other =>
        rw [← h]
        refine ⟨by rw [base]; rfl, by rw [portOf_onTrunk_same], by rw [portOf_onTrunk_same], fun last _ prev => ?_,
          fun _ _ _ => rfl, first⟩
        exact absurd ⟨last, prev⟩ other
    · next out =>
      rw [← h]
      refine ⟨by rw [recv_onTrunk]; rfl, by rw [portOf_onTrunk_same], by rw [portOf_onTrunk_same], fun last len _ => ?_,
        fun _ _ _ => rfl, .trunk _ _ _ _⟩
      exact absurd (by rw [last]; exact len) out

/-- A correct O1: the SMI, the QL and the TTI it carries. -/
theorem o1_facts {v : BitVec 16} {c : BitVec 4} {fi : Nat} {two : Bytes} (trunk : isTrunk s p = true)
    (h : ttiSlice (qlFrame (smiCompare s p v) p c) p fi two = t) :
    (portOf t p).trunk.rxSmi = some v ∧
      (smiLost s p = false →
        (v.toNat ≠ bits (activeSmi s p) 15 0 → (portOf s p).trunk.smiBad = 31 → bit (portOf t p).raw dSmi = true) ∧
        (v.toNat = bits (activeSmi s p) 15 0 → (portOf s p).trunk.smiGood = 31 → bit (portOf t p).raw dSmi = false)) ∧
      (smiLost s p = true → bit (portOf t p).raw dSmi = bit (portOf s p).raw dSmi ∧ (portOf t p).trunk.smiBad = 0 ∧
        (portOf t p).trunk.smiGood = 0) ∧
      ((portOf s p).trunk.qlCand = some (c, 2) → (portOf t p).qlSfp = s.sfp ∧ (qlKnown c = true → (portOf t p).ql = c) ∧
        (qlKnown c = false → (portOf t p).ql = 0xF ∧ Counted s t 5 10)) ∧
      (fi = 31 → (portOf s p).trunk.ttiCur.length = 62 →
        (portOf s p).trunk.ttiPrev = some ((portOf s p).trunk.ttiCur ++ two) →
        (portOf t p).trunk.rxTti = (portOf s p).trunk.ttiPrev) ∧
      Elsewhere p s t ∧ Only [.ports, .sage] s t := by
  obtain ⟨rx, rest1, known, lost, ctr1, step1⟩ := smiCompare_facts (v := v) trunk rfl
  obtain ⟨rest2, raw2, take, other2, only2⟩ := qlFrame_facts (s := smiCompare s p v) (p := p) (c := c) rfl
  have trunk3 : isTrunk (qlFrame (smiCompare s p v) p c) p = true := by
    rw [isTrunk_of_get (only2 .act (by decide)), step1.isTrunk, trunk]
  obtain ⟨rest3, ql3, qlSfp3, tti, ctr3, step3⟩ := ttiSlice_facts trunk3 h
  have raw : bit (portOf t p).raw dSmi = bit (portOf (smiCompare s p v) p).raw dSmi := by
    rw [step3.raw dSmi (by decide) (by decide), raw2]
  have smi {α : Type} (f : TrunkSt → α) (h2 : ∀ x, f (qlRest x) = f x) (h3 : ∀ x, f (ttiRest x) = f x) :
      f (recv t p) = f (recv (smiCompare s p v) p) := by
    rw [← h3, rest3, h3, ← h2, rest2, h2]
  have before {α : Type} (f : TrunkSt → α) (h1 : ∀ x, f (smiRest x) = f x) (h2 : ∀ x, f (qlRest x) = f x) :
      f (recv (qlFrame (smiCompare s p v) p c) p) = f (recv s p) := by
    rw [← h2, rest2, h2, ← h1, rest1, h1]
  have quiet : Quiet p 5 10 := ⟨by decide, by simp [SettleCtr]; omega, by decide, by decide⟩
  refine ⟨?_, fun l => ?_, fun l => ?_, fun two_ => ?_, fun last len prev => ?_, ?_, ?_⟩
  · exact (smi (·.rxSmi) (fun _ => rfl) fun _ => rfl).trans rx
  · rw [raw]
    exact known l
  · obtain ⟨same, bad, good⟩ := lost l
    exact ⟨raw.trans same, (smi (·.smiBad) (fun _ => rfl) fun _ => rfl).trans bad,
      (smi (·.smiGood) (fun _ => rfl) fun _ => rfl).trans good⟩
  · have cand : (portOf (smiCompare s p v) p).trunk.qlCand = some (c, 2) :=
      (congrArg (fun x : TrunkSt => x.qlCand) rest1 :).trans two_
    have sfp : (smiCompare s p v).sfp = s.sfp := step1.only .sfp (by decide)
    obtain ⟨at_, on, off⟩ := take cand
    rw [qlSfp3, ql3, at_, sfp, Counted, ctr3 _ _ quiet]
    rw [Counted, ctr1 _ _ quiet] at off
    exact ⟨rfl, on, off⟩
  · have cur := before (·.ttiCur) (fun _ => rfl) fun _ => rfl
    have prv := before (·.ttiPrev) (fun _ => rfl) fun _ => rfl
    have len' : (portOf (qlFrame (smiCompare s p v) p c) p).trunk.ttiCur.length = 62 := (congrArg List.length cur).trans len
    refine (tti last len' ?_).trans prv
    refine prv.trans (prev.trans ?_)
    exact congrArg (fun l => some (l ++ two)) cur.symm
  · exact step1.other.trans (other2.trans step3.other)
  · exact step1.only.trans (only2.trans step3.only)

/-! O7 (R35). -/

theorem o7_facts {c : BitVec 24} (trunk : isTrunk s p = true) (own : Bool)
    (h : setCond (onTrunk (onTrunk s p (fun t => { t with peerCand := some (c, 3) })) p (fun t => { t with peer := some c })) p
      dLooped own = t) : (portOf t p).trunk.peer = some c ∧ bit (portOf t p).raw dLooped = own ∧ Elsewhere p s t ∧
      Only [.ports, .sage] s t := by
  let u := onTrunk (onTrunk s p (fun t => { t with peerCand := some (c, 3) })) p (fun t => { t with peer := some c })
  have first : O1Step p dLooped s u := (O1Step.trunk _ _ _ _).trans (.trunk _ _ _ _)
  have last : O1Step p dLooped u t := by
    rw [← h]
    exact .cond ((first.isTrunk p).trans trunk) _ _
  refine ⟨?_, ?_, first.other.trans last.other, first.only.trans last.only⟩
  · show (recv t p).peer = _
    rw [← h, setCond_recv, recv_onTrunk]
  · rw [← h, setCond_raw _ _ _ _ (by decide), if_pos rfl]

end

theorem inFrame_of {t : TrunkSt} {n : Nat} (align : t.align = .inFrame n) : inFrame t = true := by
  unfold inFrame
  rw [align]

/-- The state in which an O0 of a frame in alignment is read. -/
def atO0 (s : State) (p : Nat) : State := onTrunk s p (fun t => { t with align := .inFrame 0 })

theorem atO0_same (s : State) (p : Nat) {α : Type} (f : TrunkSt → α) (keeps : ∀ t, f { t with align := .inFrame 0 } = f t) :
    f (portOf (atO0 s p) p).trunk = f (portOf s p).trunk := by
  rw [atO0, portOf_onTrunk_same]
  exact keeps _

theorem atO0_actv (s : State) (p : Nat) : actv (atO0 s p) = actv s := actv_of_get (by simp [atO0])
theorem atO0_ctr (s : State) (p b i : Nat) : ctrVal (atO0 s p) b i = ctrVal s b i := ctrVal_of_get (by simp [atO0]) b i
theorem atO0_sfp (s : State) (p : Nat) : (atO0 s p).sfp = s.sfp := by
  show get .sfp _ = get .sfp s
  simp [atO0]

section
variable {p : Fin 128} {n : Nat} {b : Block} {s t : State} (align : (portOf s p).trunk.align = .inFrame n)
  (h : o0Correct s p b = t)
include align h

theorem inFrame_fed : fed (atO0 s p) p (blkW b) = t := (o0Correct_inFrame align).symm.trans h

theorem inFrame_multiframe :
    ((portOf s p).trunk.inMf = false → (portOf s p).trunk.nextFi = some (o0Fi (blkW b)) → 2 ≤ (portOf s p).trunk.fiRun →
      (portOf t p).trunk.inMf = true ∧ bit (portOf t p).raw dLom = false ∧ Counted s t (0x100 + p) 29 ∧
        ∃ f, (portOf t p).trunk.fill = some f ∧
          (1 ≤ pEbDepth (actv s) p → f % 80 = o0Phase s.sfp ∧ f ≤ ebNominal s p + 40 ∧ ebNominal s p ≤ f + 40)) ∧
    ((portOf s p).trunk.inMf = true → (portOf s p).trunk.nextFi = some (o0Fi (blkW b)) →
      (portOf t p).trunk.inMf = true ∧ (portOf t p).trunk.nextFi = some ((o0Fi (blkW b) + 1) % 32)) ∧
    ((portOf s p).trunk.inMf = true → (portOf s p).trunk.nextFi ≠ some (o0Fi (blkW b)) → 2 ≤ (portOf s p).trunk.fiBad →
      (portOf t p).trunk.inMf = false ∧ bit (portOf t p).raw dLom = true) := by
  have fed_ := inFrame_fed align h
  have inMf_ := atO0_same s p (·.inMf) fun _ => rfl
  have next_ := atO0_same s p (·.nextFi) fun _ => rfl
  refine ⟨fun out next third => ?_, fun inMf next => ?_, fun inMf next third => ?_⟩
  · have joined := fed_joins fed_ (inMf_.trans out) (next_.trans next)
      (third.trans_eq (atO0_same s p (·.fiRun) fun _ => rfl).symm)
    rw [Counted, atO0_ctr, atO0_sfp, ebNominal, atO0_actv, ← ebNominal] at joined
    exact joined
  · exact fed_goes fed_ (inMf_.trans inMf) (next_.trans next)
  · exact fed_loses fed_ (inMf_.trans inMf) (fun same => next (next_.symm.trans same))
      (third.trans_eq (atO0_same s p (·.fiBad) fun _ => rfl).symm)

theorem inFrame_overhead :
    (o0Rdi (blkW b) = true → (portOf s p).trunk.rdiOn = 2 → bit (portOf t p).raw dRdi = true) ∧
    (o0Rdi (blkW b) = false → (portOf s p).trunk.rdiOff = 2 → bit (portOf t p).raw dRdi = false) ∧
    bit (portOf t p).raw dPeerLpbk = o0Lpbk (blkW b) ∧
    (o0Fi (blkW b) = 5 → (portOf s p).trunk.mfcBytes.length = 5 →
      ((portOf s p).trunk.inMf = true ∧ (portOf s p).trunk.nextFi = some 5 ∨ p.val ≠ tMfcPort (actv s)) →
      (portOf s p).trunk.mfcBad = 1 →
      (portOf s p).trunk.mfcAt = some ((pairedMfc s.sfp 818840 + 2 ^ 48 - 1) % 2 ^ 48) →
      beNat ((portOf s p).trunk.mfcBytes ++ [o0Slice (blkW b)]) ≠ pairedMfc s.sfp 818840 →
      bit (portOf t p).raw dMfcMis = true ∧
        (p = tMfcPort (actv s) → t.thy.mfcMism = true ∧ (s.thy.mfcMism = false → Counted s t 5 12))) := by
  have fed_ := inFrame_fed align h
  obtain ⟨peer, rdi, noRdi, _⟩ := fed_raw fed_
  have bytes := atO0_same s p (·.mfcBytes) fun _ => rfl
  refine ⟨fun set two => rdi set ((atO0_same s p (·.rdiOn) fun _ => rfl).trans two),
    fun clear two => noRdi clear ((atO0_same s p (·.rdiOff) fun _ => rfl).trans two), peer,
    fun last five live bad next differs => ?_⟩
  have mismatched := fed_mismatch fed_ last ((congrArg List.length bytes).trans five)
    (by rw [atO0_actv]; exact live.imp_left fun both => ⟨(atO0_same s p (·.inMf) fun _ => rfl).trans both.1,
      (atO0_same s p (·.nextFi) fun _ => rfl).trans both.2⟩)
    ((atO0_same s p (·.mfcBad) fun _ => rfl).trans bad)
    (by rw [atO0_sfp]; exact (atO0_same s p (·.mfcAt) fun _ => rfl).trans next) (by rw [bytes, atO0_sfp]; exact differs)
  rw [Counted, atO0_ctr, atO0_actv] at mismatched
  exact mismatched
end

section
variable {p : Fin 128} {o4 : List Block} {b : Block} {n : Nat} {s : State} (on : powered s = true)
  (trunk : isTrunk s p = true) (align : (portOf s p).trunk.align = .inFrame n)
include on trunk align

/-- The third O7 in a row with the same identity. -/
theorem o7_third_row {c : BitVec 24} (named : c = o7Ident (blkW (rxOverhead s p (portOf s p).txO7 b)))
    (ok : (rxChunk s p o4).1 = true) (good : o7Good (rxChunk s p o4).2 (rxOverhead s p (portOf s p).txO7 b) = true)
    (cand : (portOf s p).trunk.peerCand = some (c, 2)) :
    exec (.o7Receive p o4 b) s = .next (setCond (onTrunk (onTrunk s p (fun t => { t with peerCand := some (c, 3) })) p
      (fun t => { t with peer := some c })) p dLooped (decide (bits c 23 12 = s.pins.devid.toNat ∧ bits c 11 5 = p))) := by
  show Host.Outcome.next (live s (xO7Receive p.val o4 b s)) = _
  rw [live_on on, xO7Receive]
  simp only [trunk, inFrame_of align, Bool.and_self, if_true, ok, good, cand, ← named]
  rfl

theorem o7_bad_row
    (bad : (rxChunk s p o4).1 = false ∨ o7Good (rxChunk s p o4).2 (rxOverhead s p (portOf s p).txO7 b) = false) :
    exec (.o7Receive p o4 b) s = .next (cPort (onTrunk s p (fun t => { t with peerCand := none })) p 27 1) := by
  show Host.Outcome.next (live s (xO7Receive p.val o4 b s)) = _
  rw [live_on on, xO7Receive]
  simp only [trunk, inFrame_of align, Bool.and_self, if_true]
  rw [if_neg]
  rw [Bool.and_eq_true]
  rintro ⟨ok, good⟩
  exact bad.elim (by simp [ok]) (by simp [good])
end

/-- Settles O14: the aligner's cases, and what O0, O1 and O7 carry in frame. -/
theorem trunkReceiver : Obligations.TrunkReceiver := by
  unfold Obligations.TrunkReceiver
  refine ⟨fun p b n s on trunk => ?_, fun p b o4 n w0 s on trunk align => ?_⟩
  · intro b'
    refine ⟨fun good => ⟨fun align => ?_, fun align => ?_, fun align => ?_, fun align => ?_⟩,
      fun bad => ⟨fun align => ?_, fun align => ?_, fun align => ?_⟩⟩
    · have row := o0_row (b := b) on trunk
      rw [if_pos good] at row
      simp only [o0Correct, align] at row
      exact ⟨_, row, align_facts p _ s⟩
    · have row := o0_row (b := b) on trunk
      rw [if_pos good] at row
      simp only [o0Correct, align] at row
      exact ⟨_, row, align_facts p _ s⟩
    · have row := o0_row (b := b) on trunk
      rw [if_pos good] at row
      obtain ⟨inFrame, lof, other, only⟩ := verified_facts (b := b') align rfl
      exact ⟨_, row, inFrame, lof, other.ports, only.frame⟩
    · have row := o0_row (b := b) on trunk
      rw [if_pos good] at row
      obtain ⟨inFrame, fi, other, only⟩ := inFrame_facts (b := b') align rfl
      obtain ⟨joins, goes, loses⟩ := inFrame_multiframe (b := b') align rfl
      exact ⟨_, row, inFrame, fi, joins, goes, loses, other.ports, only.frame⟩
    · have row := o0_row (b := b) on trunk
      rw [if_neg (by rw [bad]; decide)] at row
      simp only [o0Errored, align] at row
      exact row
    · have row := o0_row (b := b) on trunk
      rw [if_neg (by rw [bad]; decide)] at row
      simp only [o0Errored, align] at row
      refine ⟨_, row, by rw [portOf_onTrunk_same], ctrVal_cPort_same .., (Elsewhere.onTrunk p (cPort s p 21 1) _).ports, rfl⟩
    · have row := o0_row (b := b) on trunk
      rw [if_neg (by rw [bad]; decide)] at row
      obtain ⟨counted, reasm, few, third, other, only⟩ := errored_facts (b := b') trunk align rfl
      exact ⟨_, row, counted, reasm, few, third, other.ports, only.frame⟩
  · intro b0 b1 b7 chunk
    refine ⟨fun good => ?_, fun o0 => ⟨fun good => ?_, fun bad => ?_⟩, fun ok good cand => ?_, fun bad => ?_⟩
    · have row := o0_row (b := b) on trunk
      rw [if_pos good] at row
      obtain ⟨_, _, _, only⟩ := inFrame_facts (b := b0) align rfl
      obtain ⟨rdi, noRdi, peer, mismatch⟩ := inFrame_overhead (b := b0) align rfl
      exact ⟨_, row, rdi, noRdi, peer, mismatch, only.frame⟩
    · have row : exec (.o1Receive p b) s = .next (ttiSlice (qlFrame (smiCompare s p (o1Smi (blkW b1))) p (o1Ql (blkW b1))) p
          (o0Fi w0) (o1Tti (blkW b1))) := by
        show Host.Outcome.next (live s (xO1Receive p.val b s)) = _
        rw [live_on on, xO1Receive]
        simp only [trunk, inFrame_of align, Bool.and_self, if_true, o0]
        exact congrArg Host.Outcome.next (if_pos good)
      obtain ⟨rx, known, lost, ql, tti, other, only⟩ := o1_facts trunk (t := ttiSlice (qlFrame (smiCompare s p (o1Smi (blkW b1))) p
        (o1Ql (blkW b1))) p (o0Fi w0) (o1Tti (blkW b1))) rfl
      exact ⟨_, row, rx, known, lost, ql, tti, other.ports, only.frame⟩
    · have row : exec (.o1Receive p b) s = .next (cPort (onTrunk s p (fun t => { t with ttiCur := [], ttiPrev := none })) p 22 1) := by
        show Host.Outcome.next (live s (xO1Receive p.val b s)) = _
        rw [live_on on, xO1Receive]
        simp only [trunk, inFrame_of align, Bool.and_self, if_true, o0]
        exact congrArg Host.Outcome.next (if_neg (by rw [bad]; decide))
      refine ⟨_, row, ctrVal_cPort_same .., ?_, ?_, ?_,
        ((Elsewhere.onTrunk p s _).trans (.of_get (cPort_get _ _ _ _ (by decide)))).ports, rfl⟩
      · rw [portOf_cPort, portOf_onTrunk_same]
      · rw [portOf_cPort, portOf_onTrunk_same]
      · rw [portOf_cPort, portOf_onTrunk_same]
    · have row := o7_third_row on trunk align rfl ok good cand
      obtain ⟨peer, looped, other, only⟩ := o7_facts trunk _ rfl
      exact ⟨_, row, peer, by rw [looped, decide_eq_true_iff], other.ports, only.frame⟩
    · refine ⟨_, o7_bad_row on trunk align bad, ctrVal_cPort_same .., ?_, ?_, rfl⟩
      · rw [portOf_cPort, portOf_onTrunk_same]
      · rw [portOf_cPort, portOf_onTrunk_same]

end Sys2Proof.Machine
end

section
/-! Statements that fail where a counter's value lies outside its 64 bits: a count of nothing leaves it there (O15, O17, O20,
O27, O38). -/

namespace Sys2Proof.Machine

open Sys2Proof

/-- A trunk whose raw FEC count lies outside its 64 bits, as no run of the model leaves it. -/
def fecOverCounted : State :=
  { phase := .ready, regs := { act := [(aPortCfg 0, 1)] }, sage := { ctr := [(0x100 * 65536 + 18, 2 ^ 64)] } }

/-- Refutes O15: FEC_FAIL_DECLARE of no codeword leaves the counter as it stands, so that a value of 2^64, which the
statement's states allow, is not taken modulo 2^64. -/
theorem not_lineDefects : ¬ Obligations.LineDefects := by
  unfold Obligations.LineDefects
  intro holds
  obtain ⟨_, _, _, _, fec⟩ := holds.1 0 0 fecOverCounted (by decide) (by decide) (by decide)
  obtain ⟨⟨t, row, _, _, _, counted, _⟩, _⟩ := fec (by decide)
  have next : fecTake fecOverCounted 0 0 0 = t :=
    Host.Outcome.next.inj ((congrArg Host.Outcome.next (live_on (by decide) _)).symm.trans row)
  rw [← next] at counted
  exact absurd counted (by decide)

/-- A client whose count of the receive monitor's bytes lies outside its 64 bits. -/
def monOverCounted : State :=
  { phase := .ready, regs := { act := [(aPortCfg 0, 2)] }, sage := { ctr := [(0x100 * 65536 + 50, 2 ^ 64)] } }

/-- A frame without a correct preamble and without a byte. -/
def emptyFrame : MonFrame := { preambleOk := false, bytes := [], errBlock := false }

/-- Refutes O17: a frame without a byte leaves the byte counter as it stands, so that a value of 2^64, which the
statement's states allow, is not taken modulo 2^64. -/
theorem not_clientObservation : ¬ Obligations.ClientObservation := by
  unfold Obligations.ClientObservation
  intro holds
  obtain ⟨frame, _⟩ := holds.2 0 0 emptyFrame 0 0 0 [] monOverCounted (by decide)
  obtain ⟨t, row, ⟨counted, _⟩, _⟩ := frame (by decide)
  have next : xMonFrameReceive 0 emptyFrame monOverCounted = t :=
    Host.Outcome.next.inj ((congrArg Host.Outcome.next (live_on (by decide) _)).symm.trans row)
  rw [← next] at counted
  exact absurd counted (by decide)

/-- A standby whose count of audit segments that differ lies outside its 64 bits. -/
def auditOverCounted : State :=
  { phase := .ready, pair := { st := .standby }, sage := { ctr := [(6 * 65536 + 3, 2 ^ 64)] } }

/-- Refutes O27: an audit without a difference leaves its counter as it stands, so that a value of 2^64, which the
statement's states allow, is not taken modulo 2^64. -/
theorem not_pairMirror : ¬ Obligations.PairMirror := by
  unfold Obligations.PairMirror
  intro holds
  obtain ⟨_, _, _, audit, _⟩ := holds {} (.stageBits 0 0) 0 0 false 0 0 0 0 {} (auditCrcs auditOverCounted)
    { req := { ret := { via := .spi } }, op := 0, accept := {} } auditOverCounted (by decide)
  obtain ⟨t, row, counted, _⟩ := audit rfl
  have same : (List.range 142).filter (fun k => (auditCrcs auditOverCounted).getD k 0 != (auditCrcs auditOverCounted).getD k 0) = [] := by
    simp
  have next : xMirrorAudit (auditCrcs auditOverCounted) auditOverCounted = t :=
    Host.Outcome.next.inj ((congrArg Host.Outcome.next (live_on (by decide) _)).symm.trans row)
  have done : t = count (onPair auditOverCounted (fun p => { p with auditBad := [] })) 6 3 0 := by
    rw [← next, xMirrorAudit]
    simp only [same]
    rfl
  rw [same, done] at counted
  exact absurd counted (by decide)

/-- The self-test of a twin whose count of corrected words lies outside its 64 bits. -/
def testOverCounted (q : Run) : State :=
  { phase := .ready, seq := { running := true }, vcp := { run := some q }, sage := { ctr := [(1 * 65536 + 5, 2 ^ 64)] } }

/-- SELF_TEST as the host's SPI sends it. -/
def selfTestRun : Run := { req := { ret := { via := .spi } }, op := 0x0920, accept := {} }

/-- Refutes O38: a self-test that corrects no word leaves the counter as it stands, so that a value of 2^64, which the
statement's states allow, is not taken modulo 2^64. -/
theorem not_memoryCommands : ¬ Obligations.MemoryCommands := by
  unfold Obligations.MemoryCommands
  intro holds
  obtain ⟨_, _, _, _, _, test⟩ := holds.1 selfTestRun.req selfTestRun 0 0 {} (testOverCounted selfTestRun) rfl
  have accepted : Accepted 0x0920 selfTestRun.req selfTestRun (testOverCounted selfTestRun) := by decide
  obtain ⟨t, row, _, _, _, counted, _⟩ := test accepted rfl
  have next : xSelfTest {} selfTestRun (started (testOverCounted selfTestRun)) = t :=
    Host.Outcome.next.inj ((congrArg Host.Outcome.next (once_row accepted (xSelfTest {}))).symm.trans row)
  rw [← next] at counted
  exact absurd counted (by decide)

/-- A twin without ports whose count of parity errors lies outside its 64 bits, at the start of a calendar cycle. -/
def parityOverCounted : State :=
  { phase := .ready, sfp := { bi := 8 }, sage := { ctr := [(4 * 65536 + 4, 2 ^ 64)] } }

/-- The views and the count of parity errors are those of that twin. -/
def ParityKept (t : State) : Prop := actv t = actv parityOverCounted ∧ ctrVal t 4 4 = 2 ^ 64

theorem regReset_portCfg {p : Nat} (below : p < 128) : regReset (aPortCfg p) = 0x20 := by
  unfold regReset aPortCfg
  decide +revert

section
variable {t : State} {p : Nat}

theorem ParityKept.mode (h : ParityKept t) (port : p ∈ allPorts) : modeOf t p = 0 := by
  have below : p < 128 := List.mem_range.mp port
  have word_ : actv parityOverCounted (aPortCfg p) = 0x20 := by
    exact regReset_portCfg below
  rw [modeOf, h.1, pMode, word_]
  rfl

theorem ParityKept.trunk (h : ParityKept t) (port : p ∈ allPorts) : isTrunk t p = false := by
  rw [isTrunk, h.mode port]
  rfl

theorem ParityKept.client (h : ParityKept t) (port : p ∈ allPorts) : isClient t p = false := by
  rw [isClient, h.mode port]
  rfl

theorem ParityKept.of_get {u : State} (h : ParityKept t) (view : get .act u = get .act t) (sage : get .sage u = get .sage t) :
    ParityKept u := ⟨(actv_of_get view).trans h.1, (ctrVal_of_get sage 4 4).trans h.2⟩

theorem ParityKept.slip (h : ParityKept t) (port : p ∈ allPorts) : ParityKept (xSlip p t) := by
  unfold xSlip
  extract_lets n k
  split
  · rw [if_neg (by rw [h.trunk port]; simp)]
    exact h
  · exact h

theorem ParityKept.lines (h : ParityKept t) (g : Nat) : ParityKept (shiftLines t g) := by
  unfold shiftLines
  extract_lets now
  split
  · exact h
  · exact h

theorem ParityKept.count (h : ParityKept t) (b i n : Nat) (apart : b * 65536 + i ≠ 4 * 65536 + 4) :
    ParityKept (count t b i n) := ⟨(actv_of_get (by simp)).trans h.1, (ctrVal_count_ne t n apart.symm).trans h.2⟩

theorem ParityKept.egress (h : ParityKept t) (s0 : State) (i : Nat) : ParityKept (egressSlot s0 [] t i) := by
  unfold egressSlot
  extract_lets c s1 s2 s3 s4 s5
  have k1 : ParityKept s1 := h.of_get (by simp [s1]) (by simp [s1])
  have k2 : ParityKept s2 := k1.count _ _ _ (by omega)
  have k3 : ParityKept s3 := by
    simp only [s3]
    split
    · exact k2.count _ _ _ (by omega)
    · exact k2
  have k4 : ParityKept s4 := by
    simp only [s4]
    split
    · exact k3.count _ _ _ (by omega)
    · exact k3
  have k5 : ParityKept s5 := by
    simp only [s5]
    split
    · exact (k4.count _ _ _ (by omega)).count _ _ _ (by omega)
    · exact k4
  split
  · split
    · exact k5.of_get (by simp) (by simp)
    · exact k5
  · exact k1

theorem ParityKept.portEgress (h : ParityKept t) (s0 : State) (port : p ∈ allPorts) : ParityKept (portEgress s0 t p) := by
  unfold Machine.portEgress
  rw [if_neg (by rw [h.client port]; decide), if_neg (by rw [h.trunk port]; decide)]
  split
  · exact h
  · exact h.of_get (by simp) (by simp)
end

/-- What each part of a list keeps, the whole keeps. -/
theorem forEach_of_mem {σ α : Type} (P : σ → Prop) (l : List α) (s : σ) (f : σ → α → σ) (h : P s)
    (hf : ∀ t, ∀ x ∈ l, P t → P (f t x)) : P (forEach l s f) := by
  induction l generalizing s with
  | nil => exact h
  | cons x l ih =>
    exact ih (f s x) (hf s x List.mem_cons_self h) fun t y mem => hf t y (List.mem_cons_of_mem _ mem)

/-- Refutes O20: a calendar cycle without a parity error leaves the counter as it stands, so that a value of 2^64, which
the statement's states allow, is not taken modulo 2^64. -/
theorem not_calendarCycles : ¬ Obligations.CalendarCycles := by
  unfold Obligations.CalendarCycles
  intro holds
  obtain ⟨t, row, _, _, _, _, _, _, counted, _⟩ := holds 0 0 0 [] [] parityOverCounted (by decide) (by decide)
  have next : xCalendarCycle [(0, [])] [] parityOverCounted = t :=
    Host.Outcome.next.inj ((congrArg Host.Outcome.next (live_on (by decide) _)).symm.trans row)
  have kept : ParityKept t := by
    rw [← next, xCalendarCycle, if_pos (by decide)]
    extract_lets s0 s1 s2 s3
    have k0 : ParityKept s0 := forEach_of_mem _ _ _ _ ⟨rfl, by decide⟩ fun _ _ port kept => kept.slip port
    have k1 : ParityKept s1 :=
      forEach_keeps ParityKept _ _ shiftLines (forEach_keeps ParityKept _ _ trunkRead (k0.of_get (by simp) (by simp))
        fun u p kept => kept.of_get (by simp) (by simp)) fun u g kept => kept.lines g
    have k2 : ParityKept s2 := by simpa only [s2, forEach_nil] using k1
    have k3 : ParityKept s3 := forEach_keeps ParityKept _ s2 (egressSlot s2 []) k2 fun _ _ kept => kept.egress _ _
    have last : ParityKept (forEach allPorts s3 (portEgress s0)) :=
      forEach_of_mem _ _ _ _ k3 fun _ _ port kept => kept.portEgress _ port
    rw [forEach_cons, forEach_nil, lineArrive, if_neg (by rw [last.trunk (List.mem_range.mpr (by decide))]; decide)]
    exact last
  rw [kept.2] at counted
  exact absurd counted (by decide)

end Sys2Proof.Machine
end

section
/-! The adaptation buffer of a client (O16). -/

namespace Sys2Proof.Machine

open Sys2Proof

/-! Blocks into a client's adaptation buffer (R138 to R142). -/

theorem ctrVal_cPort (s : State) (p i n j : Nat) :
    ctrVal (cPort s p i n) (0x100 + p) j =
      if j = i ∧ n ≠ 0 then (ctrVal s (0x100 + p) j + n) % 2 ^ 64 else ctrVal s (0x100 + p) j := by
  rw [cPort, ctrVal_count]
  simp only [Nat.add_left_cancel_iff]

theorem adCounts_ctr (s : State) (p : Nat) (o : AdOut) {j : Nat} (hj : j < 65536) :
    ctrVal (adCounts s p o) (0x100 + p) j =
      ctrVal (cPort (cPort (cPort (cPort s p 32 o.del) p 34 o.pkts) p 35 o.blks) p 36 o.overl) (0x100 + p) j := by
  unfold adCounts
  extract_lets s1 s2
  have k2 : ctrVal s2 (0x100 + p) j = ctrVal s1 (0x100 + p) j := by
    simp only [s2]
    split
    · exact ctrVal_trace _ _ _ _ _ (by omega) (by omega)
    · rfl
  split
  · exact (ctrVal_traceRec _ _ _ _ (by omega) (by omega)).trans k2
  · exact k2

theorem adCounts_counts (s : State) (p : Nat) (o : AdOut) :
    (o.del = 1 → Counted s (adCounts s p o) (0x100 + p) 32) ∧ (o.pkts = 1 → Counted s (adCounts s p o) (0x100 + p) 34) ∧
      (o.blks = 1 → Counted s (adCounts s p o) (0x100 + p) 35) ∧ (o.overl = 1 → Counted s (adCounts s p o) (0x100 + p) 36) ∧
      ∀ j < 65536, j ≠ 32 → j ≠ 34 → j ≠ 35 → j ≠ 36 → ctrVal (adCounts s p o) (0x100 + p) j = ctrVal s (0x100 + p) j := by
  refine ⟨fun one => ?_, fun one => ?_, fun one => ?_, fun one => ?_, fun j hj n32 n34 n35 n36 => ?_⟩
  · rw [Counted, adCounts_ctr _ _ _ (by decide)]
    simp [ctrVal_cPort, one]
  · rw [Counted, adCounts_ctr _ _ _ (by decide)]
    simp [ctrVal_cPort, one]
  · rw [Counted, adCounts_ctr _ _ _ (by decide)]
    simp [ctrVal_cPort, one]
  · rw [Counted, adCounts_ctr _ _ _ (by decide)]
    simp [ctrVal_cPort, one]
  · rw [adCounts_ctr _ _ _ hj]
    simp [ctrVal_cPort, n32, n34, n35, n36]

theorem adCounts_portOf (s : State) (p : Nat) (o : AdOut) (q : Nat) : portOf (adCounts s p o) q = portOf s q :=
  portOf_of_get (by simp) q

/-- What the write of a block did to the buffer and to the counts. -/
def adOutcome (s : State) (p : Nat) (b : Block) : AdOut :=
  adWrite s.sfp (targetFill s p) (pDropMargin (actv s) p) (earnCredit (portOf s p).client.ad) (clientRx b)

/-- A block that becomes the error block. -/
def adBad (b : Block) : Bool := badHdr b || (isCtl b && blkType b == 0x3C)

/-- A client that has received a block. -/
def clientTakes (s : State) (p : Nat) (b : Block) (c : ClientSt) : ClientSt :=
  { c with rx16 := c.rx16 + 1, ad := earnCredit c.ad
           loop := if isFar s p then (adWrite s.sfp 128 64 (earnCredit c.loop) (clientRx b)).ad else c.loop }

/-- The block is received and counted. -/
def adTaken (s : State) (p : Nat) (b : Block) : State :=
  if adBad b then cPort (cPort (onClient s p (clientTakes s p b)) p 30 1) p 37 1
  else cPort (onClient s p (clientTakes s p b)) p 30 1

theorem adBlock_eq (s : State) (p : Nat) (b : Block) : adBlock s p b =
    if anySf (declNow (portOf (adTaken s p b) p)) then adTaken s p b
    else
      let o := adWrite s.sfp (targetFill s p) (pDropMargin (actv s) p) (portOf (adTaken s p b) p).client.ad (clientRx b)
      adCounts (onClient (adTaken s p b) p (fun c => { c with ad := o.ad })) p o := rfl

theorem adTaken_facts {s t : State} {p : Nat} {b : Block} (h : adTaken s p b = t) :
    portOf t p = { portOf s p with client := clientTakes s p b (portOf s p).client } ∧
    Counted s t (0x100 + p) 30 ∧ (adBad b = true → Counted s t (0x100 + p) 37) ∧
    (∀ j, j ≠ 30 → (j = 37 → adBad b = false) → ctrVal t (0x100 + p) j = ctrVal s (0x100 + p) j) ∧
    Elsewhere p s t ∧ Only [.ports, .sage, .hist] s t := by
  unfold adTaken at h
  rw [← h]
  have other : Elsewhere p s (onClient s p (clientTakes s p b)) := fun q apart => portOf_onClient_ne _ _ apart
  split
  · next bad =>
    refine ⟨by simp only [portOf_cPort, portOf_onClient_same], ?_, fun _ => ?_, fun j n30 n37 => ?_,
      other.trans (.of_get (by simp)), fun f out => ?_⟩
    · simp [Counted, ctrVal_cPort]
    · simp [Counted, ctrVal_cPort]
    · have n37' : j ≠ 37 := fun same => by rw [n37 same] at bad; cases bad
      simp [ctrVal_cPort, n30, n37']
    · simp at out
      simp [out]
  · next good =>
    refine ⟨by simp only [portOf_cPort, portOf_onClient_same], ?_, fun bad => absurd bad good, fun j n30 n37 => ?_,
      other.trans (.of_get (by simp)), fun f out => ?_⟩
    · simp [Counted, ctrVal_cPort]
    · simp [ctrVal_cPort, n30]
    · simp at out
      simp [out]

theorem adBlock_facts {s t : State} {p : Nat} {b : Block} (h : adBlock s p b = t) :
    Counted s t (0x100 + p) 30 ∧ (portOf t p).client.rx16 = (portOf s p).client.rx16 + 1 ∧
    (adBad b = true → Counted s t (0x100 + p) 37) ∧ (adBad b = false → ctrVal t (0x100 + p) 37 = ctrVal s (0x100 + p) 37) ∧
    (anySf (declNow (portOf s p)) = true → (portOf t p).client.ad = earnCredit (portOf s p).client.ad) ∧
    (anySf (declNow (portOf s p)) = false → (portOf t p).client.ad = (adOutcome s p b).ad ∧
      ((adOutcome s p b).del = 1 → Counted s t (0x100 + p) 32) ∧ ((adOutcome s p b).pkts = 1 → Counted s t (0x100 + p) 34) ∧
      ((adOutcome s p b).blks = 1 → Counted s t (0x100 + p) 35) ∧
      ((adOutcome s p b).overl = 1 → Counted s t (0x100 + p) 36)) ∧
    { portOf t p with client := {} } = { portOf s p with client := {} } ∧ Elsewhere p s t ∧ Only [.ports, .sage, .hist] s t := by
  rw [adBlock_eq] at h
  obtain ⟨here, c30, c37, quiet, other, only⟩ := adTaken_facts (s := s) (p := p) (b := b) rfl
  generalize adTaken s p b = u at h here c30 c37 quiet other only
  have sf : declNow (portOf u p) = declNow (portOf s p) := by rw [here]; rfl
  have taken : (portOf u p).client.ad = earnCredit (portOf s p).client.ad := by rw [here]; rfl
  have rest : { portOf u p with client := {} } = { portOf s p with client := {} } := by rw [here]
  rw [sf, taken] at h
  by_cases fault : anySf (declNow (portOf s p)) = true
  · rw [if_pos fault] at h
    subst h
    exact ⟨c30, by rw [here]; rfl, c37, fun good => quiet 37 (by decide) fun _ => good, fun _ => taken,
      fun off => absurd (fault.symm.trans off) (by decide), rest, other, only⟩
  · rw [if_neg fault] at h
    change adCounts (onClient u p (fun c => { c with ad := (adOutcome s p b).ad })) p (adOutcome s p b) = t at h
    obtain ⟨c32, c34, c35, c36, same⟩ := adCounts_counts (onClient u p (fun c => { c with ad := (adOutcome s p b).ad })) p
      (adOutcome s p b)
    rw [h] at c32 c34 c35 c36 same
    have now : portOf t p = { portOf u p with client := { (portOf u p).client with ad := (adOutcome s p b).ad } } := by
      rw [← h, adCounts_portOf, portOf_onClient_same]
    have before (j : Nat) (n30 : j ≠ 30) (n37 : j = 37 → adBad b = false) :
        ctrVal (onClient u p (fun c => { c with ad := (adOutcome s p b).ad })) (0x100 + p) j = ctrVal s (0x100 + p) j :=
      (ctrVal_onClient ..).trans (quiet j n30 n37)
    refine ⟨?_, by rw [now, here]; rfl, fun bad => ?_, fun good => ?_, fun on => absurd on fault, fun _ => ⟨by rw [now], fun one => ?_,
      fun one => ?_, fun one => ?_, fun one => ?_⟩, by rw [now]; exact rest, other.trans fun q apart => ?_, only.trans fun f out => ?_⟩
    · rw [Counted, same 30 (by decide) (by decide) (by decide) (by decide) (by decide)]
      exact c30
    · rw [Counted, same 37 (by decide) (by decide) (by decide) (by decide) (by decide)]
      exact c37 bad
    · rw [same 37 (by decide) (by decide) (by decide) (by decide) (by decide)]
      exact quiet 37 (by decide) fun _ => good
    · rw [Counted, ← before 32 (by decide) (by simp)]
      exact c32 one
    · rw [Counted, ← before 34 (by decide) (by simp)]
      exact c34 one
    · rw [Counted, ← before 35 (by decide) (by simp)]
      exact c35 one
    · rw [Counted, ← before 36 (by decide) (by simp)]
      exact c36 one
    · rw [← h, adCounts_portOf, portOf_onClient_ne _ _ apart]
    · simp at out
      rw [← h]
      simp [out]

/-! What one block does to the buffer, outside a discard. -/

theorem earnCredit_facts (a : AdaptSt) : ∃ c n, earnCredit a = { a with toCredit := c, credits := n } ∧
    (0 < a.credits → 0 < n) := by
  unfold earnCredit
  split
  · exact ⟨_, a.credits, rfl, id⟩
  · exact ⟨_, _, rfl, fun _ => by omega⟩

theorem earnCredit_buf (a : AdaptSt) : (earnCredit a).buf = a.buf := by
  obtain ⟨c, n, earned, _⟩ := earnCredit_facts a
  rw [earned]

theorem isStart_errBlock : isStart errBlock = false := by decide

/-- Outside a discard the block is offered to the buffer. -/
theorem adWrite_accept {pos : Sfp} {t m : Nat} {a : AdaptSt} {b : Block} (dropping : a.dropping = none) (overlen : a.overlen = false) :
    adWrite pos t m a b = adAccept pos t m a b := by
  obtain ⟨⟩ := a
  simp only at dropping overlen
  subst dropping overlen
  rfl

theorem clientAccepts {s : State} {p : Nat} {b : Block} (dropping : (portOf s p).client.ad.dropping = none)
    (overlen : (portOf s p).client.ad.overlen = false) : ∃ a : AdaptSt,
      adOutcome s p b = adAccept s.sfp (targetFill s p) (pDropMargin (actv s) p) a (clientRx b) ∧
      a.buf = (portOf s p).client.ad.buf ∧ adFill a = adFill (portOf s p).client.ad ∧
      a.prevW = (portOf s p).client.ad.prevW ∧ a.pkt = (portOf s p).client.ad.pkt ∧
      (0 < (portOf s p).client.ad.credits → 0 < a.credits) := by
  obtain ⟨c, n, earned, credit⟩ := earnCredit_facts (portOf s p).client.ad
  refine ⟨{ (portOf s p).client.ad with toCredit := c, credits := n }, ?_, rfl, rfl, rfl, rfl, credit⟩
  rw [adOutcome, earned]
  exact adWrite_accept dropping overlen

/-! The slot of the present calendar position (R133, R157). -/

/-- Only the slot's block, the port, its counts and the open values change. -/
structure SlotStep (p slot : Nat) (s t : State) : Prop where
  map : t.map = { s.map with store := t.map.store }
  others : ∀ k, k ≠ slot → tget lfFill t.map.store k = tget lfFill s.map.store k
  ports : Elsewhere p s t
  only : Only [.ports, .map, .sage, .fresh] s t

section
variable {p slot : Nat} {s t u : State}

theorem SlotStep.trans (h : SlotStep p slot s t) (k : SlotStep p slot t u) : SlotStep p slot s u :=
  ⟨by rw [k.map, h.map], fun i apart => (k.others i apart).trans (h.others i apart), h.ports.trans k.ports, h.only.trans k.only⟩

theorem SlotStep.of_map (map : t.map = s.map) (ports : Elsewhere p s t) (only : Only [.ports, .sage, .fresh] s t) :
    SlotStep p slot s t :=
  ⟨by rw [map], fun _ _ => by rw [map], ports, fun f out => only f (by simp at out; simp [out])⟩

theorem SlotStep.onClient (s : State) (g : ClientSt → ClientSt) : SlotStep p slot s (onClient s p g) :=
  .of_map rfl (fun _ apart => portOf_onClient_ne _ _ apart) fun f out => by
    simp at out
    simp [out]

theorem SlotStep.onPort (s : State) (g : PortSt → PortSt) : SlotStep p slot s (onPort s p g) :=
  .of_map rfl (fun _ apart => portOf_onPort_ne _ _ apart) fun f out => by
    simp at out
    simp [out]

theorem SlotStep.count (s : State) (i n : Nat) : SlotStep p slot s (cPort s p i n) :=
  .of_map rfl (fun _ _ => rfl) fun f out => by
    simp at out
    simp [out]

theorem SlotStep.free (s : State) : SlotStep p slot s (freeBlock s).2 :=
  .of_map rfl (fun _ _ => rfl) fun f out => by
    simp at out
    simp [out]

/-- The key of a slot's block in the page of the present calendar cycle. -/
def slotKey (s : State) (g : Nat) : Nat := calCycle s.sfp % 4 * 16384 + g

theorem storeSlot_step {g : Nat} (s : State) (b : Block) (mine : g / 80 = p) (here : slotKey s g = slot) :
    SlotStep p slot s (storeSlot s g b) := by
  have stored_ : SlotStep p slot s (onMap s (fun m => { m with store := tput lfFill m.store (slotKey s g) b })) := by
    refine ⟨rfl, fun k apart => tget_tput_ne _ _ _ (here ▸ apart), fun _ _ => rfl, fun f out => ?_⟩
    simp at out
    simp [out]
  unfold storeSlot
  extract_lets s1
  split
  · rw [mine]
    exact stored_.trans (.onPort _ _)
  · exact stored_

theorem cPort_map (s : State) (p i n : Nat) : (cPort s p i n).map = s.map := rfl

theorem storeSlot_block (s : State) (g : Nat) (b : Block) : tget lfFill (storeSlot s g b).map.store (slotKey s g) = b := by
  unfold storeSlot
  extract_lets s1
  have put : tget lfFill s1.map.store (slotKey s g) = b := tget_tput_same ..
  split
  · exact put
  · exact put

theorem storeSlot_client (s : State) (g : Nat) (b : Block) (q : Nat) :
    (portOf (storeSlot s g b) q).client = (portOf s q).client := by
  unfold storeSlot
  extract_lets s1
  split
  · rw [portOf_onPort]
    split
    · next same => rw [same]; rfl
    · rfl
  · rfl

theorem slotIn_step {g : Nat} (s : State) (b : Block) (ofStream : Bool) (mine : g / 80 = p) (here : slotKey s g = slot) :
    SlotStep p slot s (slotIn s p g b ofStream) := by
  unfold slotIn
  split
  · split
    · exact ((SlotStep.onClient _ _).trans (.onPort _ _)).trans (storeSlot_step _ _ mine here)
    · exact storeSlot_step _ _ mine here
  · exact storeSlot_step _ _ mine here

theorem slotIn_block {g : Nat} {b : Block} {ofStream : Bool} (h : slotIn s p g b ofStream = t) :
    ((portOf s p).client.waitStart = false →
      tget lfFill t.map.store (slotKey s g) = b ∧ (portOf t p).client = (portOf s p).client) ∧
    ((portOf s p).client.waitStart = true → (ofStream && (isStart b || isIdleB b)) = true →
      tget lfFill t.map.store (slotKey s g) = b ∧ (portOf t p).client = { (portOf s p).client with waitStart := false }) ∧
    ((portOf s p).client.waitStart = true → (ofStream && (isStart b || isIdleB b)) = false →
      tget lfFill t.map.store (slotKey s g) = lfFill ∧ (portOf t p).client = (portOf s p).client) := by
  unfold slotIn at h
  refine ⟨fun flows => ?_, fun waits start => ?_, fun waits other => ?_⟩
  · rw [if_neg (by rw [flows]; decide)] at h
    rw [← h]
    exact ⟨storeSlot_block _ _ _, storeSlot_client _ _ _ _⟩
  · rw [if_pos waits, if_pos start] at h
    rw [← h, storeSlot_client, portOf_onPort_same, portOf_onClient_same]
    exact ⟨storeSlot_block _ _ _, rfl⟩
  · rw [if_pos waits, if_neg (by rw [other]; decide)] at h
    rw [← h]
    exact ⟨storeSlot_block _ _ _, storeSlot_client _ _ _ _⟩

theorem slotIn_ctr {g : Nat} {b : Block} {ofStream : Bool} (s : State) (blk i : Nat) :
    ctrVal (slotIn s p g b ofStream) blk i = ctrVal s blk i := ctrVal_of_get (by simp) blk i

/-- What the reader of a stream in service delivers. -/
theorem adReadStream_facts {g : Nat} {b : Block} {ins : Bool} {a : AdaptSt}
    (read : adRead (targetFill s p) (portOf s p).client.ad = some (b, ins, a)) (h : adReadStream s p g = t) :
    (portOf t p).client.ad = a ∧ (ins = true → Counted s t (0x100 + p) 33) ∧
    ((portOf s p).client.waitStart = false → tget lfFill t.map.store (slotKey s g) = b) ∧
    ((portOf s p).client.waitStart = true → ins = false → (portOf s p).client.ad.pad = 0 →
      (isStart b = true ∨ isIdleB b = true →
        tget lfFill t.map.store (slotKey s g) = b ∧ (portOf t p).client.waitStart = false) ∧
      (isStart b = false → isIdleB b = false →
        tget lfFill t.map.store (slotKey s g) = lfFill ∧ (portOf t p).client.waitStart = true)) := by
  unfold adReadStream at h
  simp only [read] at h
  have base : (portOf (onClient s p (fun c => { c with ad := a })) p).client = { (portOf s p).client with ad := a } := by
    rw [portOf_onClient_same]
  generalize made : slotIn (onClient s p (fun c => { c with ad := a })) p g b (!ins && (portOf s p).client.ad.pad == 0) = u at h
  obtain ⟨flows, starts, waits⟩ := slotIn_block made
  rw [base] at flows starts waits
  have key : slotKey (onClient s p (fun c => { c with ad := a })) g = slotKey s g := rfl
  have port : portOf t p = portOf u p := by rw [← h, portOf_cPort]
  have map : t.map = u.map := by rw [← h]; rfl
  rw [port, map, ← key]
  refine ⟨?_, fun one => ?_, fun flowing => (flows flowing).1, fun waiting stream pad => ⟨fun start => ?_, fun noStart noIdle => ?_⟩⟩
  · by_cases waiting : (portOf s p).client.waitStart = true
    · cases out : (!ins && (portOf s p).client.ad.pad == 0) && (isStart b || isIdleB b) with
      | true => rw [(starts waiting out).2]
      | false => rw [(waits waiting out).2]
    · rw [(flows (by simpa using waiting)).2]
  · have same : ctrVal u (0x100 + p) 33 = ctrVal s (0x100 + p) 33 := by
      rw [← made, slotIn_ctr, ctrVal_onClient]
    rw [Counted, ← h, ctrVal_cPort, one, same]
    simp [b2n]
  · obtain ⟨block, client⟩ := starts waiting (by simp [stream, pad, start])
    exact ⟨block, by rw [client]⟩
  · obtain ⟨block, client⟩ := waits waiting (by simp [noStart, noIdle])
    exact ⟨block, by rw [client]; exact waiting⟩

theorem adReadStream_step {g : Nat} (s : State) (mine : g / 80 = p) (here : slotKey s g = slot) :
    SlotStep p slot s (adReadStream s p g) := by
  unfold adReadStream
  extract_lets c
  split
  · exact ((SlotStep.onClient s _).trans (slotIn_step _ _ _ mine here)).trans (.count _ _ _)
  · exact (SlotStep.free s).trans (slotIn_step _ _ _ mine here)

end

/-- The first block of a cycle fixes its Local Fault. -/
theorem cycleLf_facts {s t : State} {p k slot : Nat} (h : cycleLf s p k = t) :
    (∃ v, portOf t p = { portOf s p with client := { (portOf s p).client with cycLf := v } } ∧
      (v = if k = 0 then anySf (declNow (portOf s p)) else (portOf s p).client.cycLf)) ∧
      SlotStep p slot s t ∧ (∀ b i, ctrVal t b i = ctrVal s b i) ∧ t.sfp = s.sfp ∧ actv t = actv s := by
  unfold cycleLf at h
  rw [← h]
  split
  · exact ⟨⟨_, portOf_onClient_same .., rfl⟩, .onClient _ _, fun _ _ => rfl, rfl, rfl⟩
  · exact ⟨⟨_, rfl, rfl⟩, .of_map rfl (fun _ _ => rfl) fun _ _ => rfl, fun _ _ => rfl, rfl, rfl⟩

/-! The rows. -/

theorem adBlock_rows {s t : State} {p : Fin 128} {b : Block} (h : adBlock s p b = t) :
    let c := (portOf s p).client
    let bad := badHdr b || (isCtl b && blkType b == 0x3C)
    anySf (declNow (portOf s p)) = false → c.ad.dropping = none → c.ad.overlen = false →
      (bad = false → isStart b = false → 0 < c.ad.pkt → c.ad.pkt < 2048 → (portOf t p).client.ad.buf = c.ad.buf ++ [b]) ∧
      (bad = true → 0 < c.ad.pkt → c.ad.pkt < 2048 → (portOf t p).client.ad.buf = c.ad.buf ++ [errBlock]) ∧
      (bad = false → isStart b = true → c.ad.pkt ≠ 2048 → targetFill s p + pDropMargin (actv s) p ≤ adFill c.ad →
        (portOf t p).client.ad.buf = c.ad.buf ∧ (portOf t p).client.ad.dropping = some (s.sfp, adFill c.ad, 1)
          ∧ Counted s t (0x100 + p) 34 ∧ Counted s t (0x100 + p) 35) ∧
      (bad = false → isStart b = true → c.ad.pkt ≠ 2048 → adFill c.ad < targetFill s p + pDropMargin (actv s) p →
        (portOf t p).client.ad.buf = c.ad.buf ++ [b] ∧ (portOf t p).client.ad.pkt = 1) ∧
      (bad = false → c.ad.pkt = 0 → isDeletable c.ad.prevW b = true → isStart b = false →
        targetFill s p < adFill c.ad → 0 < c.ad.credits →
        (portOf t p).client.ad.buf = c.ad.buf ∧ Counted s t (0x100 + p) 32) ∧
      (bad = false → isStart b = false → c.ad.pkt = 2048 →
        (portOf t p).client.ad.buf = c.ad.buf ++ [errBlock] ∧ (portOf t p).client.ad.pkt = 0
          ∧ (portOf t p).client.ad.overlen = (!isTerm b) ∧ Counted s t (0x100 + p) 36 ∧ Counted s t (0x100 + p) 35) ∧
      (bad = false → isStart b = true → c.ad.pkt = 2048 → Counted s t (0x100 + p) 36
          ∧ (portOf t p).client.ad.buf.take (c.ad.buf.length + 1) = c.ad.buf ++ [errBlock]) := by
  intro c bad service dropping overlen
  obtain ⟨_, _, _, _, _, stream, _⟩ := adBlock_facts h
  obtain ⟨ad, c32, c34, c35, c36⟩ := stream service
  obtain ⟨a, out, buf, fill, prevW, pkt, credit⟩ := clientAccepts (s := s) (p := p.val) (b := b) dropping overlen
  rw [out] at ad c32 c34 c35 c36
  have good (ok : bad = false) : clientRx b = b := if_neg (by rw [show (badHdr b || _) = false from ok]; decide)
  rw [ad, show c.ad.buf = a.buf from buf.symm, show adFill c.ad = adFill a from fill.symm,
    show c.ad.prevW = a.prevW from prevW.symm, show c.ad.pkt = a.pkt from pkt.symm]
  refine ⟨fun ok start inside short => ?_, fun err inside short => ?_, fun ok start whole full => ?_,
    fun ok start whole room => ?_, fun ok outside deletable start above one => ?_, fun ok start long => ?_,
    fun ok start long => ?_⟩
  · rw [good ok, adAccept, if_neg (Nat.ne_of_lt short), if_neg (by rw [start]; decide), if_pos inside]
    rfl
  · rw [show clientRx b = errBlock from if_pos err, adAccept, if_neg (Nat.ne_of_lt short),
      if_neg (by rw [isStart_errBlock]; decide), if_pos inside]
    rfl
  · rw [good ok, adAccept, if_neg whole, if_pos start, if_pos full] at c34 c35 ⊢
    exact ⟨rfl, rfl, c34 rfl, c35 rfl⟩
  · rw [good ok, adAccept, if_neg whole, if_pos start, if_neg (Nat.not_le.mpr room)]
    exact ⟨rfl, rfl⟩
  · have deletes : (isDeletable a.prevW b && decide (targetFill s p < adFill a) && decide (0 < a.credits)) = true := by
      simp [deletable, above, credit one]
    rw [good ok, adAccept, if_neg (by omega), if_neg (by rw [start]; decide), if_neg (by omega), if_pos deletes] at c32 ⊢
    exact ⟨rfl, c32 rfl⟩
  · rw [good ok, adAccept, if_pos long, if_neg (by rw [start]; decide)] at c35 c36 ⊢
    exact ⟨rfl, rfl, rfl, c36 rfl, c35 rfl⟩
  · rw [good ok, adAccept, if_pos long, if_pos start] at c36 ⊢
    split at c36
    · next full =>
      rw [if_pos full]
      exact ⟨c36 rfl, List.take_of_length_le (by simp [adPush])⟩
    · next room =>
      rw [if_neg room]
      exact ⟨c36 rfl, List.take_left' (by simp [adPush])⟩

section
variable {p : Fin 128} {s t : State} (client : isClient s p = true) (late : 8 ≤ s.sfp.bi)
  (inside : (s.sfp.bi - 8) % 80 < modeSlots (modeOf s p)) (h : xAdaptBlockRead p s = t)
include client late inside h

/-- The reader's cases, after the first block of a cycle has fixed its Local Fault. -/
theorem blockRead_cases : ∃ u,
    cycleLf s p ((s.sfp.bi - 8) % 80) = u ∧
    t = if pPmEn (actv s) p && decide (s.sfp.fi = 0 ∧ s.sfp.bi = 8) then
        cPort (storeSlot u (p * 80 + (s.sfp.bi - 8) % 80) (markerBlock s.sfp.mfc)) p 38 1
      else if anySf (declNow (portOf u p)) && (portOf u p).client.cycLf then
        if (portOf u p).client.cut then
          storeSlot (onClient u p (fun c => { c with cut := false })) (p * 80 + (s.sfp.bi - 8) % 80) errBlock
        else storeSlot u (p * 80 + (s.sfp.bi - 8) % 80) lfFill
      else adReadStream u p (p * 80 + (s.sfp.bi - 8) % 80) := by
  refine ⟨_, rfl, ?_⟩
  unfold xAdaptBlockRead at h
  extract_lets k g s1 at h
  rw [if_pos (by simp [client, late, inside, k])] at h
  exact h.symm

theorem blockRead_step {g slot : Nat} (at_ : g = p * 80 + (s.sfp.bi - 8) % 80) (key : slotKey s g = slot) :
    SlotStep p slot s t := by
  obtain ⟨u, fixed, final⟩ := blockRead_cases client late inside h
  obtain ⟨_, step, _, sfp, _⟩ := cycleLf_facts (slot := slot) fixed
  have mine : g / 80 = p := by omega
  have key' : slotKey u g = slot := by rw [slotKey, sfp, ← slotKey, key]
  rw [← at_] at final
  refine step.trans ?_
  rw [final]
  split
  · exact (storeSlot_step _ _ mine key').trans (.count _ _ _)
  · split
    · split
      · exact (SlotStep.onClient u _).trans (storeSlot_step _ _ mine key')
      · exact storeSlot_step _ _ mine key'
    · exact adReadStream_step _ mine key'

theorem blockRead_facts {g slot : Nat} (at_ : g = p * 80 + (s.sfp.bi - 8) % 80) (key : slotKey s g = slot) :
    let k := (s.sfp.bi - 8) % 80
    let pm := pPmEn (actv s) p && decide (s.sfp.fi = 0 ∧ s.sfp.bi = 8)
    let c := (portOf s p).client
    let sf := anySf (declNow (portOf s p))
    (pm = true → tget lfFill t.map.store slot = markerBlock s.sfp.mfc ∧ Counted s t (0x100 + p) 38
      ∧ (portOf t p).client.ad = c.ad) ∧
    (pm = false → sf = true → (k = 0 ∨ c.cycLf = true) →
      (portOf t p).client.ad = c.ad ∧
      (c.cut = true → tget lfFill t.map.store slot = errBlock ∧ (portOf t p).client.cut = false) ∧
      (c.cut = false → tget lfFill t.map.store slot = lfFill)) ∧
    (pm = false → sf = false → ∀ b ins a, adRead (targetFill s p) c.ad = some (b, ins, a) →
      (portOf t p).client.ad = a ∧ (ins = true → Counted s t (0x100 + p) 33) ∧
      (c.waitStart = false → tget lfFill t.map.store slot = b) ∧
      (c.waitStart = true → ins = false → c.ad.pad = 0 →
        (isStart b = true ∨ isIdleB b = true → tget lfFill t.map.store slot = b ∧ (portOf t p).client.waitStart = false) ∧
        (isStart b = false → isIdleB b = false →
          tget lfFill t.map.store slot = lfFill ∧ (portOf t p).client.waitStart = true))) := by
  intro k pm c sf
  obtain ⟨u, fixed, final⟩ := blockRead_cases client late inside h
  obtain ⟨⟨v, here, lf⟩, _, ctr, sfp, view⟩ := cycleLf_facts (slot := slot) fixed
  have key' : slotKey u g = slot := by rw [slotKey, sfp, ← slotKey, key]
  have decl : declNow (portOf u p) = declNow (portOf s p) := by rw [here]; rfl
  have cyc : (portOf u p).client.cycLf = v := by rw [here]
  have cut : (portOf u p).client.cut = c.cut := by rw [here]
  have ad : (portOf u p).client.ad = c.ad := by rw [here]
  have wait : (portOf u p).client.waitStart = c.waitStart := by rw [here]
  have target : targetFill u p = targetFill s p := by simp only [targetFill, modeOf, view]
  rw [decl, cyc, cut, ← at_] at final
  rw [← key']
  have cycling (fault : sf = true) (cycle : k = 0 ∨ c.cycLf = true) : v = true := by
    rw [lf]
    split
    · exact fault
    · next later => exact cycle.resolve_left later
  refine ⟨fun marker => ?_, fun plain fault cycle => ⟨?_, fun due => ?_, fun none_ => ?_⟩, fun plain sound b ins a read => ?_⟩
  · rw [if_pos marker] at final
    have counted : ctrVal (storeSlot u g (markerBlock s.sfp.mfc)) (0x100 + p) 38 = ctrVal s (0x100 + p) 38 :=
      (ctrVal_of_get (by simp) _ _).trans (ctr _ _)
    rw [final]
    refine ⟨by rw [cPort_map, storeSlot_block], ?_, ?_⟩
    · rw [Counted, ← counted]
      exact ctrVal_cPort_same _ _ _
    · rw [portOf_cPort, storeSlot_client, ad]
  all_goals rw [if_neg (by rw [show (pPmEn (actv s) p && _) = false from plain]; decide)] at final
  · rw [cycling fault cycle, if_pos (by rw [show anySf (declNow (portOf s p)) = true from fault]; rfl)] at final
    rw [final]
    split
    · rw [storeSlot_client, portOf_onClient_same]
      exact ad
    · rw [storeSlot_client, ad]
  · rw [cycling fault cycle, if_pos (by rw [show anySf (declNow (portOf s p)) = true from fault]; rfl), if_pos due] at final
    rw [final, storeSlot_client, portOf_onClient_same]
    exact ⟨storeSlot_block _ _ _, rfl⟩
  · rw [cycling fault cycle, if_pos (by rw [show anySf (declNow (portOf s p)) = true from fault]; rfl),
      if_neg (by rw [show c.cut = false from none_]; decide)] at final
    rw [final]
    exact storeSlot_block _ _ _
  · rw [if_neg (by rw [show anySf (declNow (portOf s p)) = false from sound]; simp)] at final
    obtain ⟨ad', c33, flows, waits⟩ := adReadStream_facts (by rw [target, ad]; exact read) final.symm
    rw [wait, ad] at waits
    rw [wait] at flows
    refine ⟨ad', fun one => ?_, flows, waits⟩
    have counted := c33 one
    rwa [Counted, ctr] at counted
end

section
variable {n : Nat} {a : AdaptSt}

theorem adRead_inserts (ins : (adInsPoint a && decide (adFill a < n)) = true) :
    adRead n a = some (adIns a, true, { a with prevR := some (adIns a) }) := if_pos ins

theorem adRead_pad (ins : (adInsPoint a && decide (adFill a < n)) = false) (pad : 0 < a.pad) :
    adRead n a = some (lfFill, false, { a with pad := a.pad - 1, prevR := none, pktR := false }) := by
  rw [adRead, if_neg (by rw [ins]; decide), if_pos pad]

theorem adRead_oldest {b : Block} {rest : List Block} (ins : (adInsPoint a && decide (adFill a < n)) = false) (pad : a.pad = 0)
    (buf : a.buf = b :: rest) :
    adRead n a = some (b, false, { a with buf := rest, prevR := some b, pktR := inPkt a.pktR b }) := by
  rw [adRead, if_neg (by rw [ins]; decide), if_neg (by omega), buf]
end

/-- Settles O16: the writing side's cases and the reading side's. -/
theorem clientAdaptation : Obligations.ClientAdaptation := by
  unfold Obligations.ClientAdaptation
  refine ⟨fun p b s on client far => ?_, fun p b c rest s on client near => ⟨fun none_ => ?_, fun some_ => ?_⟩,
    fun p b rest s on client late inside => ?_⟩
  · intro c bad
    have row : exec (.adaptBlockWrite p b) s = .next (adBlock s p b) := by
      show Host.Outcome.next (live s (xAdaptBlockWrite p.val b s)) = _
      rw [live_on on, xAdaptBlockWrite, if_pos client, if_neg (by rw [far]; decide)]
    obtain ⟨c30, rx, c37, c37', fault, _, port, other, only⟩ := adBlock_facts (s := s) (p := p) (b := b) rfl
    exact ⟨_, row, c30, rx, c37, c37', fun sf => by rw [fault sf]; exact earnCredit_buf _, adBlock_rows rfl,
      (congrArg (fun x : PortSt => x.trunk) port :), (congrArg (fun x : PortSt => x.raw) port :), other.ports, only.frame⟩
  · show Host.Outcome.next (live s (xAdaptBlockWrite p.val b s)) = _
    rw [live_on on, xAdaptBlockWrite, if_pos client, if_pos near]
    simp only [none_]
  · have row : exec (.adaptBlockWrite p b) s = .next (adBlock (onPort s p (fun x => { x with near := rest })) p c) := by
      show Host.Outcome.next (live s (xAdaptBlockWrite p.val b s)) = _
      rw [live_on on, xAdaptBlockWrite, if_pos client, if_pos near]
      simp only [some_]
    obtain ⟨c30, _, _, _, _, _, port, other, only⟩ :=
      adBlock_facts (s := onPort s p (fun x => { x with near := rest })) (p := p) (b := c) rfl
    refine ⟨_, row, c30, ?_, ((Elsewhere.onPort p s _).trans other).ports, (Only.trans (fun f out => ?_) only).frame⟩
    · refine (congrArg (fun x : PortSt => x.near) port :).trans ?_
      rw [portOf_onPort_same]
    · simp at out
      simp [out]
  · intro k slot pm c sf ins
    have row : exec (.adaptBlockRead p) s = .next (xAdaptBlockRead p s) := congrArg Host.Outcome.next (live_on on _)
    have step := blockRead_step (g := p * 80 + k) (slot := slot) client late inside rfl rfl rfl
    obtain ⟨marker, fault, stream⟩ := blockRead_facts (g := p * 80 + k) (slot := slot) client late inside rfl rfl rfl
    generalize xAdaptBlockRead p s = t at row step marker fault stream
    refine ⟨t, row, marker, fault, fun plain sound flows => ⟨fun inserts => ?_, fun reads pad => ?_, fun reads pad buf => ?_⟩,
      fun plain sound waits reads pad buf => ?_, fun kv _ apart => step.others kv.1 apart, step.ports.ports, ?_⟩
    · obtain ⟨ad, c33, block, _⟩ := stream plain sound _ _ _ (adRead_inserts inserts)
      refine ⟨c33 rfl, by rw [ad], by rw [ad], ?_⟩
      rw [block flows]
      rfl
    · obtain ⟨ad, _, block, _⟩ := stream plain sound _ _ _ (adRead_pad reads pad)
      exact ⟨block flows, by rw [ad]⟩
    · obtain ⟨ad, _, block, _⟩ := stream plain sound _ _ _ (adRead_oldest reads pad buf)
      exact ⟨block flows, by rw [ad], by rw [ad]⟩
    · obtain ⟨ad, _, _, first⟩ := stream plain sound _ _ _ (adRead_oldest reads pad buf)
      exact ⟨by rw [ad], first waits rfl pad⟩
    · rw [← step.map]
      refine Only.frame (l := [.ports, .map, .mapA, .mapB, .mapEcc, .mapScrub, .mapSel, .sage, .fresh]) fun f out => ?_
      simp at out
      exact step.only f (by simp [out])

end Sys2Proof.Machine
end

section
/-! Statements that fail for what a command's own record or a register may hold (O18, O37, O39). -/

namespace Sys2Proof.Machine

open Sys2Proof

/-- A MAP_WRITE of one item that begins with five stores in its report already, as no dispatch leaves it. -/
def storedRun : Run :=
  { req := { ret := { via := .spi }, params := [0, 1] ++ zeros 10 }, op := 0x0301, accept := {}, stored := (5, 0, 0xFFFF) }

/-- The twin that has it in execution. -/
def storedState : State := { phase := .ready, seq := { running := true }, vcp := { run := some storedRun } }

/-- Refutes O18: the store report goes on from what stands in the command's record of stores, which the statement's states
leave open: with five there and one item written it reports six. -/
theorem not_mapStores : ¬ Obligations.MapStores := by
  unfold Obligations.MapStores
  intro holds
  have accepted : Accepted 0x0301 storedRun.req storedRun storedState := by decide
  obtain ⟨write, _⟩ := holds.1 storedRun.req storedRun 1 storedState (by decide) (by decide)
  obtain ⟨t, row, answers, _⟩ := write accepted (by decide) (by decide) (by decide) (by decide)
  have next : runSteps 0x0301 storedRun.req (xMapWrite [] 1) storedState = t :=
    Host.Outcome.next.inj ((congrArg Host.Outcome.next (live_on (by decide) _)).symm.trans row)
  rw [← next] at answers
  exact absurd answers (by decide)

/-- A REG_WRITE of one item to the configuration of port 0 that begins with the second of its items noted as dropped, as
no dispatch leaves it. -/
def droppedRun : Run :=
  { req := { ret := { via := .spi }, params := [0, 1] ++ beBytes 4 (aPortCfg 0) ++ zeros 4 }, op := 0x0203, accept := {},
    worst := 2 }

/-- The twin that has it in execution. -/
def droppedState : State := { phase := .ready, seq := { running := true }, vcp := { run := some droppedRun } }

/-- Refutes O39: the reply counts the items noted as dropped in the command's own record, which the statement's states
leave open: with one noted there the one item written is not reported. -/
theorem not_registerCommands : ¬ Obligations.RegisterCommands := by
  unfold Obligations.RegisterCommands
  intro holds
  have accepted : Accepted 0x0203 droppedRun.req droppedRun droppedState := by decide
  obtain ⟨_, _, write, _⟩ := holds droppedRun.req droppedRun droppedState
  obtain ⟨free, _⟩ := write accepted (by decide) (by decide) (by decide)
  obtain ⟨t, row, answers, _⟩ := free (by decide) (by decide) (by decide) (by decide) (by decide) (by decide) (by decide) (by decide)
  have next : runSteps 0x0203 droppedRun.req xRegWrite droppedState = t :=
    Host.Outcome.next.inj ((congrArg Host.Outcome.next (live_on (by decide) _)).symm.trans row)
  rw [← next] at answers
  exact absurd answers (by decide)

/-- OBS_CFG_READ of the bandwidth windows. -/
def windowsRun : Run := { req := { ret := { via := .spi }, params := [0, 1] }, op := 0x080A, accept := {} }

/-- A twin in which a window of 2,000 multiframes, beyond the 1,024 that a window may have, stands in the register of
port 0. -/
def windowsState : State :=
  { phase := .ready, seq := { running := true }, vcp := { run := some windowsRun }
    regs := { act := [(aBwWin 0, 2000)], stg := [(aBwWin 0, 2000)] } }

/-- Refutes O37: OBS_CFG_READ answers the register's bits, the window in force is that value brought into its range. -/
theorem not_observationCommands : ¬ Obligations.ObservationCommands := by
  unfold Obligations.ObservationCommands
  intro holds
  have accepted : Accepted 0x080A windowsRun.req windowsRun windowsState := by decide
  obtain ⟨_, _, _, _, _, _, _, _, _, read⟩ := holds windowsRun.req windowsRun windowsState
  obtain ⟨t, row, _, _, _, windows, _⟩ := read accepted (by decide) (by decide)
  have next : runOnce 0x080A windowsRun.req xObsCfgRead windowsState = t :=
    Host.Outcome.next.inj ((congrArg Host.Outcome.next (live_on (by decide) _)).symm.trans row)
  have window := windows rfl 0
  rw [← next] at window
  exact absurd window (by decide)

end Sys2Proof.Machine
end

section
/-! Power, resets and start-up (O32, O33). -/

namespace Sys2Proof.Machine

open Sys2Proof

/-! Power and resets: what the power stage keeps (R246 to R248, R447 to R450). -/

section
variable {s : State}

theorem powerDown_row (off : s.phase ≠ .off) : exec .powerDown s =
    .next (powerOff (onPwr s (fun p => { p with goodA := false, goodB := false, uvA := true, uvB := true })) 1) :=
  congrArg Host.Outcome.next (if_neg off)

theorem bulk_row (off : s.phase ≠ .off) : exec .bulkUndervoltage s =
    .next (powerOff s (if feedPath s.pwr s.pwr.sel = false ∧ feedOv s.pwr s.pwr.sel then 3 else 2)) :=
  congrArg Host.Outcome.next (if_neg off)

theorem overcurrent_row (off : s.phase ≠ .off) : exec .overcurrentTrip s =
    .next (onPwr (powerOff s 4) (fun p => { p with latched := true })) :=
  congrArg Host.Outcome.next (if_neg off)

/-- The feeds as a power-up finds them: those that are GOOD, and the path of the selected one closed. -/
def poweredFeeds (p : PowerSt) (b both : Bool) : PowerSt :=
  let good := fun (p : PowerSt) (f : Bool) => setFeedGood (setFeedUv (setFeedOv p f false) f false) f true
  setFeedPath (good (if both then good p (!(b && !both)) else p) (b && !both)) (b && !both) true

theorem powerUp_row (off : s.phase = .off) (latched : s.pwr.latched = false) (b both : Bool) : exec (.powerUp b both) s =
    .next (moduleReset { s with pwr := { poweredFeeds s.pwr b both with
      hasSel := true, sel := b && !both, lastOff := s.pwr.offCause } }) :=
  congrArg Host.Outcome.next (if_pos ⟨off, latched⟩)

theorem poweredFeeds_selected (p : PowerSt) (b both : Bool) :
    feedPath (poweredFeeds p b both) (b && !both) = true ∧ feedGoodOf (poweredFeeds p b both) (b && !both) = true ∧
      (both = true → (poweredFeeds p b both).goodA = true ∧ (poweredFeeds p b both).goodB = true) := by
  cases b <;> cases both <;> simp [poweredFeeds, feedPath, feedGoodOf, setFeedPath, setFeedGood, setFeedUv, setFeedOv]

end

/-- Settles O32: each stop, each start and each reset is its row, and the row keeps what it names. -/
theorem powerAndReset : Obligations.PowerAndReset := by
  unfold Obligations.PowerAndReset
  refine ⟨fun b both s => ⟨fun off => ⟨?_, ?_, ?_⟩, fun off => ⟨?_, ?_, fun latched => ?_, fun latched => ?_⟩⟩,
    fun devid twinPos s => ⟨fun off => ?_, fun on => ⟨?_, ?_, fun due => ?_⟩, rfl, fun held => ⟨fun low => ?_, fun high => ?_⟩⟩⟩
  · exact ⟨_, powerDown_row off, rfl, rfl, rfl, rfl, rfl, rfl, rfl⟩
  · refine ⟨_, bulk_row off, rfl, rfl, rfl, rfl, fun opened ov => if_pos ⟨opened, ov⟩, fun other => if_neg ?_, rfl⟩
    rintro ⟨opened, ov⟩
    rw [opened, ov] at other
    simp at other
  · exact ⟨_, overcurrent_row off, rfl, rfl, rfl, rfl, rfl, rfl, rfl⟩
  · exact ⟨_, congrArg Host.Outcome.next (if_pos off), rfl, rfl, off, rfl⟩
  · exact ⟨_, congrArg Host.Outcome.next (if_pos off), rfl, rfl, rfl⟩
  · obtain ⟨path, good, two⟩ := poweredFeeds_selected s.pwr b both
    exact ⟨_, powerUp_row off latched b both, rfl, rfl, rfl, path, good, rfl, two, rfl⟩
  · exact congrArg Host.Outcome.next (if_neg fun both => by rw [latched] at both; cases both.2)
  · exact ⟨_, congrArg Host.Outcome.next (if_neg off), rfl, rfl, rfl, rfl, rfl, rfl, rfl, rfl⟩
  · exact ⟨_, congrArg Host.Outcome.next (live_on on _), rfl, rfl, rfl, rfl, rfl, rfl, rfl, rfl⟩
  · exact ⟨_, congrArg Host.Outcome.next (live_on on _), rfl, rfl, rfl, rfl, rfl, rfl, rfl, rfl⟩
  · have row : exec .devResetEffect s = .next (moduleReset (onSeq s (fun q => { q with devReset := none }))) := by
      refine (congrArg Host.Outcome.next (live_on on _)).trans (congrArg Host.Outcome.next ?_)
      rw [xDevResetEffect, due]
      exact if_pos rfl
    exact ⟨_, row, rfl, rfl, rfl, rfl, rfl, rfl, rfl, rfl⟩
  · exact congrArg Host.Outcome.next (if_neg fun both => by rw [low] at both; cases both.2)
  · exact congrArg Host.Outcome.next (if_pos ⟨held, high⟩)

/-! The boot loader and READY (R451 to R457). -/

/-- Tables whose every slot is disabled. -/
def AllDisabled (t : Tbl AuthSt) : Prop := ∀ kv ∈ t, kv.2.enabled = false

theorem AllDisabled.tset {t : Tbl AuthSt} (h : AllDisabled t) (k : Nat) {a : AuthSt} (off : a.enabled = false) :
    AllDisabled (tset t k a) := by
  induction t with
  | nil =>
    intro kv mem
    rw [Machine.tset, List.mem_singleton] at mem
    rw [mem]
    exact off
  | cons x t ih =>
    have rest : AllDisabled t := fun kv mem => h kv (List.mem_cons_of_mem _ mem)
    intro kv mem
    unfold Machine.tset at mem
    split at mem
    · rcases List.mem_cons.mp mem with rfl | mem
      · exact off
      · exact h kv mem
    · split at mem
      · rcases List.mem_cons.mp mem with rfl | mem
        · exact off
        · exact rest kv mem
      · rcases List.mem_cons.mp mem with rfl | mem
        · exact h _ List.mem_cons_self
        · exact ih rest kv mem

theorem AllDisabled.tdel {t : Tbl AuthSt} (h : AllDisabled t) (k : Nat) : AllDisabled (tdel t k) := by
  induction t with
  | nil => exact h
  | cons x t ih =>
    have rest : AllDisabled t := fun kv mem => h kv (List.mem_cons_of_mem _ mem)
    intro kv mem
    unfold Machine.tdel at mem
    split at mem
    · exact ih rest kv mem
    · rcases List.mem_cons.mp mem with rfl | mem
      · exact h _ List.mem_cons_self
      · exact ih rest kv mem

theorem AllDisabled.tput {t : Tbl AuthSt} (h : AllDisabled t) (k : Nat) {a : AuthSt} (off : a.enabled = false) :
    AllDisabled (tput {} t k a) := by
  unfold Machine.tput
  split
  · exact h.tdel k
  · exact h.tset k off

theorem AllDisabled.load (l t : Tbl AuthSt) (h : AllDisabled t) :
    AllDisabled (l.foldl (fun u kv => Machine.tput {} u kv.1 { kv.2 with enabled := false }) t) := by
  induction l generalizing t with
  | nil => exact h
  | cons kv l ih => exact ih _ (h.tput _ rfl)

theorem loadKeys_disabled (s : State) (none_ : s.flash.resv = none) : AllDisabled (loadKeys s).vcp.auths := by
  show AllDisabled (if s.flash.resv.isSome then s.flash.keys.getD [] else _)
  rw [none_]
  exact AllDisabled.load _ _ (by intro kv mem; cases mem)

/-- No image can be started, or the RAMs fail their test: rescue firmware runs. -/
def rescueBoot (f : BootIn) (s : State) : Bool := (bootImage s).isNone || !f.ramOk || !f.someWramOk

/-- The die with its image chosen and its trace buffer good. -/
def imageChosen (f : BootIn) (s : State) : State :=
  { s with
    seq := { s.seq with boot := (s.flash.boot + 1) % 2 ^ 32, rescue := rescueBoot f s
                        imageB := (bootImage s).getD false && !rescueBoot f s, running := true }
    mem := { s.mem with remap := !rescueBoot f s }
    flash := { s.flash with boot := if f.bootSaveOk then (s.flash.boot + 1) % 2 ^ 32 else s.flash.boot } }

section
variable {f : BootIn} {s : State} (released : s.phase = .released) (trace : f.traceOk = true)
include released trace

theorem dieRelease_cases : xDieRelease f s = if !f.someWramOk then
        { onSeq (imageChosen f s) (fun q => { q with running := false }) with phase := .stuck }
      else { loadDays (loadNet (loadLast (loadKeys (imageChosen f s)))) with phase := .booting } := by
  unfold xDieRelease
  rw [if_pos released]
  extract_lets n s1 s2 img rescue s3 s4
  have chosen : s4 = imageChosen f s := by
    have kept : s2 = { s1 with flash := { s.flash with boot := if f.bootSaveOk then n else s.flash.boot } } := by
      unfold s2
      split <;> rfl
    unfold s4
    rw [if_pos trace]
    unfold s3
    rw [kept]
    rfl
  clear_value s4
  subst chosen
  rfl

theorem stuck_row (ram : f.someWramOk = false) : exec (.dieRelease f) s =
    .next { onSeq (imageChosen f s) (fun q => { q with running := false }) with phase := .stuck } := by
  refine congrArg Host.Outcome.next ((dieRelease_cases released trace).trans (if_pos ?_))
  rw [ram]
  rfl

theorem booting_row (ram : f.someWramOk = true) : exec (.dieRelease f) s =
    .next { loadDays (loadNet (loadLast (loadKeys (imageChosen f s)))) with phase := .booting } := by
  refine congrArg Host.Outcome.next ((dieRelease_cases released trace).trans (if_neg ?_))
  rw [ram]
  decide
end

/-- The stores loaded into a die that boots. -/
theorem loaded_eq (u : State) : loadDays (loadNet (loadLast (loadKeys u))) =
    { u with
      vcp := (loadNet (loadLast (loadKeys u))).vcp
      thy := if u.seq.rescue then u.thy else { u.thy with days := u.flash.days.getD 0, daysLoaded := true } } := by
  show (if u.seq.rescue then _ else _) = _
  split <;> rfl

section
variable {u : State}

theorem loadNet_normal (normal : u.seq.rescue = false) :
    ((loadNet u).vcp.members, (loadNet u).vcp.route, (loadNet u).vcp.relayPorts) = u.flash.net.getD ([], [], 0) := by
  unfold loadNet
  rw [normal]
  rfl

theorem loadNet_rescue (rescue : u.seq.rescue = true) :
    ((loadNet u).vcp.members, (loadNet u).vcp.route, (loadNet u).vcp.relayPorts) = ([], [], 0) := by
  unfold loadNet
  rw [rescue]
  rfl
end

/-- Settles O33: the image, the stores it reads, and READY. -/
theorem startUp : Obligations.StartUp := by
  unfold Obligations.StartUp
  refine fun f s => ⟨fun released trace => ?_, fun booting running => ?_⟩
  · cases ram : f.someWramOk
    · refine ⟨_, stuck_row released trace ram, rfl, rfl, fun _ => ⟨rfl, rfl⟩, fun on => absurd on (by decide), ?_, rfl, rfl, rfl⟩
      show rescueBoot f s = _
      rw [rescueBoot, ram]
    · have row := booting_row released trace ram
      rw [loaded_eq] at row
      refine ⟨_, row, rfl, rfl, fun off => absurd off (by decide), fun _ => ⟨rfl, rfl, rfl, fun normal => ?_, fun rescue => ?_,
        fun resv => ?_, fun resv => ?_⟩, ?_, rfl, rfl, rfl⟩
      · have net := loadNet_normal (u := loadLast (loadKeys (imageChosen f s))) normal
        refine ⟨congrArg (·.1) net, congrArg (·.2.1) net, ?_⟩
        rw [show (imageChosen f s).seq.rescue = false from normal]
        rfl
      · have net := loadNet_rescue (u := loadLast (loadKeys (imageChosen f s))) rescue
        refine ⟨congrArg (·.1) net, congrArg (·.2.1) net, congrArg (·.2.2) net, ?_⟩
        rw [show (imageChosen f s).seq.rescue = true from rescue]
        rfl
      · exact if_pos resv
      · exact loadKeys_disabled (imageChosen f s) resv
      · show rescueBoot f s = _
        rw [rescueBoot, ram]
  · exact ⟨_, congrArg Host.Outcome.next (if_pos ⟨booting, running⟩), rfl, rfl, rfl, rfl, rfl⟩

end Sys2Proof.Machine
end

section
/-! Feeds and guarded pairs (O30, O31). -/

namespace Sys2Proof.Machine

open Sys2Proof

/-! The two feeds (R241 to R246, R249). -/

/-! A feed's fields, written out. -/

theorem setFeedGood_eq (p : PowerSt) (b v : Bool) :
    setFeedGood p b v = { p with goodA := if b then p.goodA else v, goodB := if b then v else p.goodB } := by cases b <;> rfl
theorem setFeedUv_eq (p : PowerSt) (b v : Bool) :
    setFeedUv p b v = { p with uvA := if b then p.uvA else v, uvB := if b then v else p.uvB } := by cases b <;> rfl
theorem setFeedOv_eq (p : PowerSt) (b v : Bool) :
    setFeedOv p b v = { p with ovA := if b then p.ovA else v, ovB := if b then v else p.ovB } := by cases b <;> rfl
theorem setFeedPath_eq (p : PowerSt) (b v : Bool) :
    setFeedPath p b v = { p with pathA := if b then p.pathA else v, pathB := if b then v else p.pathB } := by cases b <;> rfl
theorem setSuspect_eq (p : PowerSt) (b v : Bool) : setSuspect p b v =
    { p with suspectA := if b then p.suspectA else v, suspectB := if b then v else p.suspectB } := by cases b <;> rfl

/-! What a feed event registers in a powered die: nothing but the power stage's pending events, and a free value. -/

/-- The power stage with events due at the next frame boundary. -/
def due (p : PowerSt) (hist : BitVec 8) (ctrs : List Nat) (recs : List (Nat × Bool × Bool × Nat × Sfp)) : PowerSt :=
  { p with pendHist := p.pendHist ||| hist, pendCtr := p.pendCtr ++ ctrs, pendRec := p.pendRec ++ recs }

section
variable {s : State} (on : powered s = true)
include on

theorem feedReg_on (hist : BitVec 8) (ctrs : List Nat) : feedReg s hist ctrs = { s with pwr := due s.pwr hist ctrs [] } := by
  rw [feedReg, if_pos on, due, List.append_nil]
  rfl

theorem feedRec_on (sub : Nat) (old new : Bool) (reason : Nat) :
    feedRec s sub old new reason = { s with pwr := due s.pwr 0#8 [] [(sub, old, new, reason, s.sfp)] } := by
  rw [feedRec, if_pos on, due, List.append_nil, BitVec.or_zero]
  rfl

theorem feedRecFree_on (sub : Nat) (old new : Bool) : ∃ r n, feedRecFree s sub old new =
    { s with pwr := due s.pwr 0#8 [] [(sub, old, new, r, s.sfp)], fresh := n } :=
  ⟨_, _, feedRec_on (s := (drawBytes s 1).2) on sub old new _⟩
end

/-! The same of any die: one in reset registers nothing. -/

theorem due_due (p : PowerSt) (h h' : BitVec 8) (c c' : List Nat) (r r' : List (Nat × Bool × Bool × Nat × Sfp)) :
    due (due p h c r) h' c' r' = due p (h ||| h') (c ++ c') (r ++ r') := by
  simp [due, BitVec.or_assoc]

theorem due_none (p : PowerSt) : due p 0#8 [] [] = p := by simp [due]

theorem feedReg_due (s : State) (hist : BitVec 8) (ctrs : List Nat) : ∃ h c,
    feedReg s hist ctrs = { s with pwr := due s.pwr h c [] } ∧ (powered s = true → c = ctrs) := by
  by_cases on : powered s = true
  · exact ⟨hist, ctrs, feedReg_on on hist ctrs, fun _ => rfl⟩
  · refine ⟨0, [], ?_, fun up => absurd up on⟩
    rw [feedReg, if_neg on]
    exact congrArg (fun p => { s with pwr := p }) (due_none _).symm

theorem feedRec_due (s : State) (sub : Nat) (old new : Bool) (reason : Nat) :
    ∃ r, feedRec s sub old new reason = { s with pwr := due s.pwr 0#8 [] r } := by
  by_cases on : powered s = true
  · exact ⟨_, feedRec_on on sub old new reason⟩
  · refine ⟨[], ?_⟩
    rw [feedRec, if_neg on]
    exact congrArg (fun p => { s with pwr := p }) (due_none _).symm

theorem feedRecFree_due (s : State) (sub : Nat) (old new : Bool) :
    ∃ r n, feedRecFree s sub old new = { s with pwr := due s.pwr 0#8 [] r, fresh := n } := by
  obtain ⟨r, eq⟩ := feedRec_due (drawBytes s 1).2 sub old new (beNat (drawBytes s 1).1)
  exact ⟨r, _, eq⟩

/-! What follows a declared UV or OV, and the end of a failover. -/

section
variable {s : State}

theorem feedDeclared_failover (good : feedGoodOf s.pwr (!s.pwr.sel) = true) (idle : s.pwr.switching ≠ some (!s.pwr.sel)) :
    feedDeclared s = { s with pwr := { s.pwr with
      failover := some (!s.pwr.sel), declared := true
      pathA := if !s.pwr.sel then s.pwr.pathA else true, pathB := if !s.pwr.sel then true else s.pwr.pathB } } := by
  unfold feedDeclared
  rw [if_pos good, if_neg idle]
  exact congrArg (fun p => { s with pwr := p }) (setFeedPath_eq _ _ _)

theorem feedDeclared_brownout (on : powered s = true) (bad : feedGoodOf s.pwr (!s.pwr.sel) = false)
    (up : s.pwr.brownout = false) : ∃ recs n, feedDeclared s =
      { s with pwr := due { s.pwr with declared := true, brownout := true } 0x10 [6] recs, fresh := n } := by
  unfold feedDeclared
  rw [if_neg (by rw [bad]; decide), if_neg (by rw [up]; decide), feedReg_on (by exact on)]
  obtain ⟨r, n, eq⟩ := feedRecFree_on (s := { s with
    pwr := due { s.pwr with declared := true, brownout := true } 0x10 [6] [] }) on 2 s.pwr.sel s.pwr.sel
  refine ⟨[(2, s.pwr.sel, s.pwr.sel, r, s.sfp)], n, eq.trans ?_⟩
  simp [due]

/-- The feeds after a failover onto feed `b`. -/
def overTo (p : PowerSt) (b : Bool) : PowerSt :=
  { p with
    sel := b, failover := none, declared := false, brownout := false
    pathA := if p.sel then p.pathA else false, pathB := if p.sel then false else p.pathB }

/-- The end of a failover onto feed `b`; a manual switch onto it ends with FAILOVER. -/
theorem failoverDone_facts (s : State) (b : Bool) : ∃ hist ctrs recs n u,
    u = { s with pwr := due (overTo s.pwr b) hist ctrs recs, fresh := n } ∧ (powered s = true → 0 ∈ ctrs) ∧
      failoverDone s b = if s.pwr.switching = some b then feedRec (storeResult u 4) 4 s.pwr.sel b 4 else u := by
  unfold failoverDone
  extract_lets old s1 s2 s3
  let u : State := { s with pwr := overTo s.pwr b }
  have moved : s1 = u := congrArg (fun p => { s with pwr := p }) (setFeedPath_eq _ _ _)
  clear_value s1
  subst moved
  obtain ⟨h, c, reg, counts⟩ := feedReg_due u 0x01 [0]
  obtain ⟨r, n, rec⟩ := feedRecFree_due (feedReg u 0x01 [0]) 1 old b
  have eq : s2 = { s with pwr := due (overTo s.pwr b) h c r, fresh := n } := by
    refine rec.trans ?_
    rw [reg]
    dsimp only
    rw [due_due, List.append_nil, BitVec.or_zero]
    rfl
  have counted : powered s = true → 0 ∈ c := fun on => by rw [counts on]; exact List.mem_singleton_self 0
  by_cases good : feedGoodOf s2.pwr old = true
  · exact ⟨h, c, r, n, s3, (if_pos good).trans eq, counted, rfl⟩
  · obtain ⟨h', c', reg', -⟩ := feedReg_due s2 0x20 [9]
    refine ⟨h ||| h', c ++ c', r, n, s3, (if_neg good).trans (reg'.trans ?_), fun on => List.mem_append_left _ (counted on), rfl⟩
    rw [eq]
    dsimp only
    rw [due_due, List.append_nil]

theorem failoverDone_plain (on : powered s = true) {b : Bool} (idle : s.pwr.switching = none) : ∃ hist ctrs recs n,
    failoverDone s b = { s with pwr := due (overTo s.pwr b) hist ctrs recs, fresh := n } ∧ 0 ∈ ctrs := by
  obtain ⟨hist, ctrs, recs, n, u, eq, counted, done⟩ := failoverDone_facts s b
  exact ⟨hist, ctrs, recs, n, (done.trans (if_neg (by rw [idle]; intro h; cases h))).trans eq, counted on⟩

/-- What the result of a manual switch leaves. -/
theorem storeResult_facts (n : Nat) : ∃ v l, storeResult s n =
    { s with pwr := { s.pwr with switching := none, result := n }, vcp := v, regs := { s.regs with posted := l } } := by
  unfold storeResult
  extract_lets s1
  have idle : ∃ l, s1 = { s with pwr := { s.pwr with switching := none, result := n }, regs := { s.regs with posted := l } } := by
    unfold s1 feedIdle
    split
    · split <;> exact ⟨_, rfl⟩
    · exact ⟨_, rfl⟩
  obtain ⟨l, eq⟩ := idle
  split
  · split
    · exact ⟨_, l, congrArg (onVcp · _) eq⟩
    · exact ⟨_, l, eq⟩
  · exact ⟨_, l, eq⟩

/-- A failover that ends a manual switch onto its feed. -/
theorem failoverDone_switch {b : Bool} (busy : s.pwr.switching = some b) :
    ∃ hist ctrs recs n v l, failoverDone s b = { s with
      pwr := due { overTo s.pwr b with switching := none, result := 4 } hist ctrs recs
      fresh := n, vcp := v, regs := { s.regs with posted := l } } := by
  obtain ⟨hist, ctrs, recs, n, u, eq, -, done⟩ := failoverDone_facts s b
  obtain ⟨v, l, stored⟩ := storeResult_facts (s := u) 4
  obtain ⟨r, rec⟩ := feedRec_due (storeResult u 4) 4 s.pwr.sel b 4
  refine ⟨hist, ctrs, recs ++ r, n, v, l, (done.trans (if_pos busy)).trans (rec.trans ?_)⟩
  rw [stored, eq]
  simp [due]
end

section
variable {b : Bool} {s : State}

theorem feedUvCross_row (sel : s.pwr.hasSel = true) :
    exec .feedUvCross s = .next (onPwr s (fun p => setFeedUv p s.pwr.sel true)) :=
  congrArg Host.Outcome.next (if_pos sel)

theorem feedGlitch_row (on : powered s = true) (sel : s.pwr.hasSel = true) (uv : feedUv s.pwr s.pwr.sel = true)
    (ok : s.pwr.declared = false) : exec .feedGlitch s =
      .next { s with pwr := due (setFeedUv s.pwr s.pwr.sel false) 0 [if s.pwr.sel then 5 else 4] [] } := by
  refine congrArg Host.Outcome.next ((if_pos ?_).trans (feedReg_on (by exact on) _ _))
  rw [sel, uv, ok]
  rfl

/-- The selected feed with a UV or an OV declared on it. -/
def faultedFeed (p : PowerSt) (ov : Bool) : PowerSt :=
  setFeedGood (if ov then setFeedOv p p.sel true else setFeedUv p p.sel true) p.sel false

/-- The first part of a declaration: the feed's bits, its count and its record. -/
theorem feedDeclare_facts (on : powered s = true) (sel : s.pwr.hasSel = true) (idle : s.pwr.failover = none)
    (ok : s.pwr.declared = false) (ov : Bool) (hist : BitVec 8) (ctr : Nat) : ∃ recs n, feedDeclare s ov hist ctr =
      feedDeclared { s with pwr := due (faultedFeed s.pwr ov) hist [ctr] recs, fresh := n } := by
  unfold feedDeclare
  rw [if_pos (by rw [sel, idle, ok]; rfl), feedReg_on (by exact on)]
  dsimp only
  split
  · obtain ⟨r, n, eq⟩ := feedRecFree_on (s := { s with pwr := due (faultedFeed s.pwr ov) hist [ctr] [] }) on 3 s.pwr.sel s.pwr.sel
    refine ⟨[(3, s.pwr.sel, s.pwr.sel, r, s.sfp)], n, congrArg feedDeclared (eq.trans ?_)⟩
    simp [due]
  · exact ⟨[], s.fresh, rfl⟩

theorem faultedFeed_facts (p : PowerSt) (ov : Bool) :
    feedGoodOf (faultedFeed p ov) p.sel = false ∧ feedGoodOf (faultedFeed p ov) (!p.sel) = feedGoodOf p (!p.sel)
      ∧ (if ov then feedOv (faultedFeed p ov) p.sel else feedUv (faultedFeed p ov) p.sel) = true
      ∧ (faultedFeed p ov).sel = p.sel ∧ (faultedFeed p ov).switching = p.switching
      ∧ (faultedFeed p ov).failover = p.failover ∧ (faultedFeed p ov).brownout = p.brownout
      ∧ (faultedFeed p ov).pendCtr = p.pendCtr := by
  cases sel : p.sel <;> cases ov <;> simp [faultedFeed, setFeedGood_eq, setFeedUv_eq, setFeedOv_eq, feedGoodOf, feedUv, feedOv, sel]

/-- A declaration with the standby feed GOOD begins the failover. -/
theorem feedDeclare_failover (on : powered s = true) (sel : s.pwr.hasSel = true) (idle : s.pwr.failover = none)
    (ok : s.pwr.declared = false) (free : s.pwr.switching = none) (good : feedGoodOf s.pwr (!s.pwr.sel) = true) (ov : Bool)
    (hist : BitVec 8) (ctr : Nat) : ∃ t, feedDeclare s ov hist ctr = t ∧ t.pwr.failover = some (!s.pwr.sel)
      ∧ feedPath t.pwr (!s.pwr.sel) = true ∧ t.pwr.sel = s.pwr.sel ∧ feedGoodOf t.pwr s.pwr.sel = false
      ∧ (if ov then feedOv t.pwr s.pwr.sel else feedUv t.pwr s.pwr.sel) = true ∧ t = { s with pwr := t.pwr, fresh := t.fresh } := by
  obtain ⟨recs, n, eq⟩ := feedDeclare_facts on sel idle ok ov hist ctr
  obtain ⟨bad, other, fault, same, switching, -, -, -⟩ := faultedFeed_facts s.pwr ov
  set p := faultedFeed s.pwr ov
  have declared := feedDeclared_failover (s := { s with pwr := due p hist [ctr] recs, fresh := n })
    (show feedGoodOf p (!p.sel) = true by rw [same, other, good])
    (show p.switching ≠ _ by rw [switching, free]; intro h; cases h)
  rw [show (due p hist [ctr] recs).sel = s.pwr.sel from same] at declared
  refine ⟨_, eq.trans declared, ?_⟩
  refine ⟨rfl, ?_, same, bad, fault, rfl⟩
  cases s.pwr.sel <;> rfl

/-- A declaration without a GOOD standby feed browns the module out. -/
theorem feedDeclare_brownout (on : powered s = true) (sel : s.pwr.hasSel = true) (idle : s.pwr.failover = none)
    (ok : s.pwr.declared = false) (bad : feedGoodOf s.pwr (!s.pwr.sel) = false) (up : s.pwr.brownout = false) (ov : Bool)
    (hist : BitVec 8) (ctr : Nat) : ∃ t, feedDeclare s ov hist ctr = t ∧ t.pwr.brownout = true ∧ t.pwr.sel = s.pwr.sel
      ∧ t.pwr.failover = none ∧ t.pwr.pendCtr = s.pwr.pendCtr ++ [ctr, 6] ∧ t = { s with pwr := t.pwr, fresh := t.fresh } := by
  obtain ⟨recs, n, eq⟩ := feedDeclare_facts on sel idle ok ov hist ctr
  obtain ⟨-, other, -, same, -, failover, brownout, counts⟩ := faultedFeed_facts s.pwr ov
  set p := faultedFeed s.pwr ov
  obtain ⟨recs', n', declared⟩ := feedDeclared_brownout (s := { s with pwr := due p hist [ctr] recs, fresh := n }) on
    (show feedGoodOf p (!p.sel) = false by rw [same, other, bad]) (brownout.trans up)
  refine ⟨_, eq.trans declared, rfl, same, failover.trans idle, ?_, rfl⟩
  show p.pendCtr ++ [ctr] ++ [6] = _
  rw [counts, List.append_assoc]
  rfl

theorem failoverComplete_row (run : s.pwr.failover = some b) : exec .feedFailoverComplete s = .next (failoverDone s b) := by
  refine congrArg Host.Outcome.next ?_
  rw [xFeedFailoverComplete, run]

/-- A feed back in range, before what it may begin. -/
def goodFeed (p : PowerSt) (b : Bool) : PowerSt :=
  let back := p.hasSel && b == p.sel && p.failover.isNone
  let q := setFeedGood (setFeedUv (setFeedOv p b false) b false) b true
  { q with declared := q.declared && !back, brownout := q.brownout && !back }

theorem goodFeed_facts (p : PowerSt) (b : Bool) :
    feedGoodOf (goodFeed p b) b = true ∧ feedUv (goodFeed p b) b = false ∧ feedOv (goodFeed p b) b = false
      ∧ (goodFeed p b).sel = p.sel ∧ (goodFeed p b).failover = p.failover ∧ (goodFeed p b).switching = p.switching
      ∧ (p.declared = true → b ≠ p.sel → (goodFeed p b).declared = true)
      ∧ (p.hasSel = true → b = p.sel → p.failover = none →
          (goodFeed p b).declared = false ∧ (goodFeed p b).brownout = false) := by
  cases b <;> simp +contextual [goodFeed, setFeedGood_eq, setFeedUv_eq, setFeedOv_eq, feedGoodOf, feedUv, feedOv]

theorem feedGood_facts (on : powered s = true) : ∃ recs n, exec (.feedGood b) s = .next
      (if s.pwr.hasSel && b != s.pwr.sel && s.pwr.declared && s.pwr.failover.isNone then
        feedDeclared { s with pwr := due (goodFeed s.pwr b) 0 [] recs, fresh := n }
      else { s with pwr := due (goodFeed s.pwr b) 0 [] recs, fresh := n }) := by
  have found : ∃ recs n, (if feedGoodOf s.pwr b then { s with pwr := goodFeed s.pwr b }
      else feedRecFree { s with pwr := goodFeed s.pwr b } 3 s.pwr.sel s.pwr.sel) =
        { s with pwr := due (goodFeed s.pwr b) 0 [] recs, fresh := n } := by
    split
    · exact ⟨[], s.fresh, by rw [due, List.append_nil, List.append_nil]; exact congrArg (fun h => { s with
        pwr := { goodFeed s.pwr b with pendHist := h } }) (BitVec.or_zero).symm⟩
    · obtain ⟨r, n, eq⟩ := feedRecFree_on (s := { s with pwr := goodFeed s.pwr b }) on 3 s.pwr.sel s.pwr.sel
      exact ⟨_, n, eq⟩
  obtain ⟨recs, n, eq⟩ := found
  refine ⟨recs, n, congrArg Host.Outcome.next ?_⟩
  rw [← eq]
  rfl
end

section
variable {b ov : Bool} {s : State}

/-- A standby feed that is no longer GOOD, with the bits of `p`. -/
theorem feedLost_facts (on : powered s = true) (standby : b ≠ s.pwr.sel) {p : PowerSt} (good : feedGoodOf p b = feedGoodOf s.pwr b)
    (sel : p.sel = s.pwr.sel) : ∃ hist ctrs recs n, feedLost { s with pwr := p } b =
        { s with pwr := due (setFeedGood p b false) hist ctrs recs, fresh := n }
      ∧ (feedGoodOf s.pwr b = true → hist = 0x20 ∧ ctrs = [9]) := by
  unfold feedLost
  have other : (b != s.pwr.sel) = true := bne_iff_ne.mpr standby
  cases was : feedGoodOf s.pwr b
  · refine ⟨0, [], [], s.fresh, (if_neg ?_).trans ?_, fun h => absurd h (by decide)⟩
    · rw [good.trans was, Bool.false_and]
      exact Bool.false_ne_true
    · simp [due, onPwr]
  · obtain ⟨r, n, eq⟩ := feedRecFree_on (s := { s with pwr := due (setFeedGood p b false) 0x20 [9] [] }) on 3 p.sel p.sel
    refine ⟨0x20, [9], [(3, p.sel, p.sel, r, s.sfp)], n, (if_pos ?_).trans (Eq.trans ?_ (eq.trans ?_)), fun _ => ⟨rfl, rfl⟩⟩
    · show (feedGoodOf p b && b != p.sel) = true
      rw [good.trans was, sel, other]
      rfl
    · exact congrArg (feedRecFree · 3 p.sel p.sel) (feedReg_on (s := onPwr { s with pwr := p } (setFeedGood · b false)) on _ _)
    · simp [due]

theorem feedNotGood_row (standby : b ≠ s.pwr.sel) : exec (.feedNotGood b ov) s = .next
    (feedLost { s with pwr := if ov then setFeedOv s.pwr b true else setFeedUv s.pwr b true } b) := by
  refine congrArg Host.Outcome.next (if_neg ?_)
  rw [Bool.and_eq_true, beq_iff_eq]
  exact fun both => standby both.2

theorem feedNotGood_facts (on : powered s = true) (standby : b ≠ s.pwr.sel) : ∃ t, exec (.feedNotGood b ov) s = .next t
    ∧ feedGoodOf t.pwr b = false ∧ t.pwr.sel = s.pwr.sel ∧ (if ov then feedOv t.pwr b else feedUv t.pwr b) = true
    ∧ (feedGoodOf s.pwr b = true → bit t.pwr.pendHist 5 = true ∧ t.pwr.pendCtr = s.pwr.pendCtr ++ [9])
    ∧ t = { s with pwr := t.pwr, fresh := t.fresh } := by
  obtain ⟨hist, ctrs, recs, n, eq, was⟩ := feedLost_facts (p := if ov then setFeedOv s.pwr b true else setFeedUv s.pwr b true)
    on standby (by cases b <;> cases ov <;> rfl) (by cases b <;> cases ov <;> rfl)
  refine ⟨_, (feedNotGood_row standby).trans (congrArg Host.Outcome.next eq), ?_, ?_, ?_, fun good => ?_, rfl⟩
  · cases b <;> rfl
  · cases b <;> cases ov <;> rfl
  · cases b <;> cases ov <;> rfl
  · obtain ⟨rfl, rfl⟩ := was good
    constructor
    · simp [due, bit]
    · cases b <;> cases ov <;> rfl

theorem ovTrip_facts (on : powered s = true) (sel : s.pwr.hasSel = true) : ∃ t, exec (.ovTrip b) s = .next t ∧ feedPath t.pwr b = false
    ∧ feedOv t.pwr b = true ∧ t.pwr.sel = s.pwr.sel ∧ t = { s with pwr := t.pwr, fresh := t.fresh } := by
  let p := setFeedPath (setFeedOv s.pwr b true) b false
  have row : exec (.ovTrip b) s = .next
      (if s.pwr.hasSel && b == s.pwr.sel then { s with pwr := p } else feedLost { s with pwr := p } b) := by
    unfold p
    cases b <;> rfl
  by_cases held : (s.pwr.hasSel && b == s.pwr.sel) = true
  · rw [if_pos held] at row
    refine ⟨_, row, ?_, ?_, ?_, rfl⟩ <;> cases b <;> rfl
  · rw [if_neg held] at row
    have standby : b ≠ s.pwr.sel := fun same => held (by rw [sel, same, beq_self_eq_true]; rfl)
    obtain ⟨hist, ctrs, recs, n, eq, -⟩ := feedLost_facts (p := p) on standby (by cases b <;> rfl) (by cases b <;> rfl)
    rw [eq] at row
    refine ⟨_, row, ?_, ?_, ?_, rfl⟩ <;> cases b <;> rfl

theorem uvReleased_facts (out : s.pwr.brownout = true)
    (fault : (if ov then feedOv s.pwr s.pwr.sel else feedUv s.pwr s.pwr.sel) = true) :
    ∃ t, exec (.uvReleased ov) s = .next t ∧ t.pwr.brownout = false ∧ t.pwr.declared = false
      ∧ (if ov then feedOv t.pwr s.pwr.sel else feedUv t.pwr s.pwr.sel) = false ∧ t.pwr.sel = s.pwr.sel
      ∧ t.pwr.pendCtr = s.pwr.pendCtr ∧ t = { s with pwr := t.pwr, fresh := t.fresh } := by
  have row : exec (.uvReleased ov) s = .next { s with pwr := { s.pwr with
      brownout := false, declared := false
      ovA := if ov && !s.pwr.sel then false else s.pwr.ovA, ovB := if ov && s.pwr.sel then false else s.pwr.ovB
      uvA := if !ov && !s.pwr.sel then false else s.pwr.uvA, uvB := if !ov && s.pwr.sel then false else s.pwr.uvB } } := by
    refine congrArg Host.Outcome.next ((if_pos (by rw [out, fault]; rfl)).trans (congrArg (fun p => { s with pwr := p }) ?_))
    cases s.pwr.sel <;> cases ov <;> rfl
  refine ⟨_, row, rfl, rfl, ?_, rfl, rfl, rfl⟩
  cases s.pwr.sel <;> cases ov <;> rfl
end

section
variable {b : Bool} {s : State}

theorem failoverComplete_facts (on : powered s = true) (run : s.pwr.failover = some b) (standby : b ≠ s.pwr.sel)
    (idle : s.pwr.switching = none) : ∃ t, exec .feedFailoverComplete s = .next t ∧ t.pwr.sel = b
      ∧ feedPath t.pwr s.pwr.sel = false ∧ t.pwr.failover = none ∧ t.pwr.brownout = false ∧ t.pwr.declared = false
      ∧ 0 ∈ t.pwr.pendCtr ∧ t = { s with pwr := t.pwr, fresh := t.fresh } := by
  obtain ⟨hist, ctrs, recs, n, eq, counted⟩ := failoverDone_plain (b := b) on idle
  refine ⟨_, (failoverComplete_row run).trans (congrArg Host.Outcome.next eq), rfl, ?_, rfl, rfl, rfl, ?_, rfl⟩
  · cases h : s.pwr.sel <;> simp [feedPath, overTo, due, h]
  · exact List.mem_append_right _ counted

theorem feedGood_settled (on : powered s = true) (healthy : s.pwr.declared = false ∨ b = s.pwr.sel ∨ s.pwr.failover ≠ none) :
    ∃ recs n, exec (.feedGood b) s = .next { s with pwr := due (goodFeed s.pwr b) 0 [] recs, fresh := n } := by
  obtain ⟨recs, n, row⟩ := feedGood_facts (b := b) on
  refine ⟨recs, n, row.trans (congrArg Host.Outcome.next (if_neg ?_))⟩
  simp only [Bool.and_eq_true, bne_iff_ne, Option.isNone_iff_eq_none]
  rintro ⟨⟨⟨-, standby⟩, declared⟩, free⟩
  rcases healthy with ok | same | busy
  · rw [ok] at declared
    cases declared
  · exact standby same
  · exact busy free

/-- A standby feed that becomes GOOD while the selected one has failed begins the failover onto it. -/
theorem feedGood_failover (on : powered s = true) (sel : s.pwr.hasSel = true) (declared : s.pwr.declared = true)
    (standby : b ≠ s.pwr.sel) (free : s.pwr.failover = none) : ∃ recs n,
      exec (.feedGood b) s = .next (feedDeclared { s with pwr := due (goodFeed s.pwr b) 0 [] recs, fresh := n }) := by
  obtain ⟨recs, n, row⟩ := feedGood_facts (b := b) on
  refine ⟨recs, n, row.trans (congrArg Host.Outcome.next (if_pos ?_))⟩
  rw [sel, declared, free, bne_iff_ne.mpr standby]
  rfl

theorem feedGood_failover_facts (on : powered s = true) (sel : s.pwr.hasSel = true) (declared : s.pwr.declared = true)
    (standby : b ≠ s.pwr.sel) (free : s.pwr.failover = none) (idle : s.pwr.switching ≠ some b) :
    ∃ t, exec (.feedGood b) s = .next t ∧ feedGoodOf t.pwr b = true ∧ feedUv t.pwr b = false ∧ feedOv t.pwr b = false
      ∧ t.pwr.failover = some b ∧ t.pwr.sel = s.pwr.sel ∧ feedPath t.pwr b = true ∧ t = { s with pwr := t.pwr, fresh := t.fresh } := by
  obtain ⟨recs, n, row⟩ := feedGood_failover on sel declared standby free
  obtain ⟨good, uv, ov, same, -, switching, -, -⟩ := goodFeed_facts s.pwr b
  have other : (!s.pwr.sel) = b := by
    revert standby
    cases b <;> cases s.pwr.sel <;> simp
  have done := feedDeclared_failover (s := { s with pwr := due (goodFeed s.pwr b) 0 [] recs, fresh := n })
    (show feedGoodOf (goodFeed s.pwr b) (!(goodFeed s.pwr b).sel) = true by rw [same, other, good])
    (show (goodFeed s.pwr b).switching ≠ some (!(goodFeed s.pwr b).sel) by rw [switching, same, other]; exact idle)
  rw [show (due (goodFeed s.pwr b) 0 [] recs).sel = s.pwr.sel from same, other] at done
  refine ⟨_, row.trans (congrArg Host.Outcome.next done), good, uv, ov, rfl, same, ?_, rfl⟩
  cases b <;> rfl

/-- A switch in progress onto the standby feed that becomes GOOD ends with that failover. -/
theorem feedGood_switched (on : powered s = true) (sel : s.pwr.hasSel = true) (declared : s.pwr.declared = true)
    (standby : b ≠ s.pwr.sel) (free : s.pwr.failover = none) (busy : s.pwr.switching = some b) : ∃ t, exec (.feedGood b) s = .next t
      ∧ feedGoodOf t.pwr b = true ∧ feedUv t.pwr b = false ∧ feedOv t.pwr b = false := by
  obtain ⟨recs, n, row⟩ := feedGood_failover on sel declared standby free
  obtain ⟨good, uv, ov, same, -, switching, -, -⟩ := goodFeed_facts s.pwr b
  have other : (!s.pwr.sel) = b := by
    revert standby
    cases b <;> cases s.pwr.sel <;> simp
  have done : feedDeclared { s with pwr := due (goodFeed s.pwr b) 0 [] recs, fresh := n } =
      failoverDone { s with pwr := due (goodFeed s.pwr b) 0 [] recs, fresh := n } b := by
    unfold feedDeclared
    dsimp only
    rw [show (due (goodFeed s.pwr b) 0 [] recs).sel = s.pwr.sel from same, other]
    exact (if_pos good).trans (if_pos (switching.trans busy))
  obtain ⟨hist, ctrs, recs', n', v, l, ended⟩ := failoverDone_switch
    (s := { s with pwr := due (goodFeed s.pwr b) 0 [] recs, fresh := n }) (switching.trans busy)
  exact ⟨_, row.trans (congrArg Host.Outcome.next (done.trans ended)), good, uv, ov⟩
end

/-- FEED_GOOD in all its cases. -/
theorem feedGood_rows {b : Bool} {s : State} (on : powered s = true) (sel : s.pwr.hasSel = true) :
    ∃ t, exec (.feedGood b) s = .next t ∧ feedGoodOf t.pwr b = true ∧ feedUv t.pwr b = false ∧ feedOv t.pwr b = false
      ∧ (s.pwr.declared = false → t.pwr.sel = s.pwr.sel ∧ t.pwr.failover = s.pwr.failover)
      ∧ (s.pwr.declared = true → b ≠ s.pwr.sel → s.pwr.failover = none → s.pwr.switching = none →
          t.pwr.failover = some b ∧ t.pwr.sel = s.pwr.sel ∧ feedPath t.pwr b = true)
      ∧ (b = s.pwr.sel → s.pwr.failover = none → t.pwr.declared = false ∧ t.pwr.brownout = false ∧ t.pwr.sel = s.pwr.sel)
      ∧ (s.pwr.switching = none → t = { s with pwr := t.pwr, fresh := t.fresh }) := by
  by_cases healthy : s.pwr.declared = false ∨ b = s.pwr.sel ∨ s.pwr.failover ≠ none
  · obtain ⟨recs, n, row⟩ := feedGood_settled on healthy
    obtain ⟨good, uv, ov, same, failover, -, -, ended⟩ := goodFeed_facts s.pwr b
    refine ⟨_, row, good, uv, ov, fun _ => ⟨same, failover⟩, fun declared standby free => ?_, fun back free => ?_, fun _ => rfl⟩
    · rcases healthy with ok | back | busy
      · rw [ok] at declared
        cases declared
      · exact absurd back standby
      · exact absurd free busy
    · obtain ⟨declared, up⟩ := ended sel back free
      exact ⟨declared, up, same⟩
  · push Not at healthy
    obtain ⟨not_ok, standby, free⟩ := healthy
    have declared := Bool.eq_true_of_not_eq_false not_ok
    by_cases busy : s.pwr.switching = some b
    · obtain ⟨t, row, good, uv, ov⟩ := feedGood_switched on sel declared standby free busy
      exact ⟨t, row, good, uv, ov, fun ok => absurd ok not_ok, fun _ _ _ idle => absurd (idle.symm.trans busy) (by simp),
        fun back => absurd back standby, fun idle => absurd (idle.symm.trans busy) (by simp)⟩
    · obtain ⟨t, row, good, uv, ov, failover, same, path, only⟩ := feedGood_failover_facts on sel declared standby free busy
      exact ⟨t, row, good, uv, ov, fun ok => absurd ok not_ok, fun _ _ _ _ => ⟨failover, same, path⟩,
        fun back => absurd back standby, fun _ => only⟩

/-- Settles O30: each event of a feed is its row. -/
theorem feedSupervision : Obligations.FeedSupervision := by
  unfold Obligations.FeedSupervision
  intro b ov s on sel
  refine ⟨?_, fun uv ok => ?_, fun idle ok free => ⟨fun good => ⟨?_, ?_⟩, fun bad up => ⟨?_, ?_⟩⟩,
    fun run standby idle => failoverComplete_facts on run standby idle, feedGood_rows on sel, fun standby => feedNotGood_facts on standby,
    ovTrip_facts on sel, fun out fault => uvReleased_facts out fault⟩
  · refine ⟨_, feedUvCross_row sel, ?_, ?_, ?_, ?_⟩ <;> rw [onPwr, setFeedUv_eq]
    · cases s.pwr.sel <;> rfl
    · rfl
  · refine ⟨_, feedGlitch_row on sel uv ok, ?_, ?_, ?_, ?_, ?_⟩ <;> rw [setFeedUv_eq]
    · cases s.pwr.sel <;> rfl
    · rfl
    · rfl
    · rfl
  · obtain ⟨t, eq, failover, path, same, bad, fault, only⟩ := feedDeclare_failover on sel idle ok free good false
      (if s.pwr.sel then 0x04 else 0x02) (if s.pwr.sel then 2 else 1)
    exact ⟨t, congrArg Host.Outcome.next eq, failover, path, same, bad, fault, only⟩
  · obtain ⟨t, eq, failover, path, same, bad, fault, only⟩ := feedDeclare_failover on sel idle ok free good true 0x08 3
    exact ⟨t, congrArg Host.Outcome.next eq, failover, path, same, bad, fault, only⟩
  · obtain ⟨t, eq, facts⟩ := feedDeclare_brownout on sel idle ok bad up false
      (if s.pwr.sel then 0x04 else 0x02) (if s.pwr.sel then 2 else 1)
    exact ⟨t, congrArg Host.Outcome.next eq, facts⟩
  · obtain ⟨t, eq, facts⟩ := feedDeclare_brownout on sel idle ok bad up true 0x08 3
    exact ⟨t, congrArg Host.Outcome.next eq, facts⟩

/-! Guarded pairs (R379, R380), and the matrix while no transaction is outstanding (R353). -/

/-! A failed pair. -/

theorem guardFailed_eq (s : State) (cause addr : Nat) : guardFailed s cause addr = { s with
    sage := (guardFailed s cause addr).sage
    regs := { s.regs with
      guardFail := true, guardCause := cause, guardAddr := word addr, hist := (guardFailed s cause addr).regs.hist } } := by
  unfold guardFailed trace traceRec
  dsimp only
  split <;> rfl

theorem guardFailed_latched (s : State) (cause addr : Nat) : (guardFailed s cause addr).regs.guardFail = true ∧
    (guardFailed s cause addr).regs.guardCause = cause ∧ (guardFailed s cause addr).regs.guardAddr = word addr ∧
    (guardFailed s cause addr).regs.gw = s.regs.gw := by
  rw [guardFailed_eq]
  exact ⟨rfl, rfl, rfl, rfl⟩

theorem guardFailed_counted (s : State) (cause addr : Nat) : Counted s (guardFailed s cause addr) 1 2 :=
  (ctrVal_trace _ _ _ _ _ (by decide) (by decide)).trans
    (counted_count (onRegs s (fun r => { r with guardFail := true, guardCause := cause, guardAddr := word addr })) 1 2)

/-! The two writes of a pair. -/

section
variable {s : State} {k a : Nat} {v : Word} {p : GuardPair}

theorem pairTimeout_none (free : tfind s.regs.pairs k = none) : pairTimeout s k = s := by
  rw [pairTimeout, free]

theorem pairTimeout_inTime (found : tfind s.regs.pairs k = some p) (inTime : sfpDist p.at_ s.sfp ≤ 100000) :
    pairTimeout s k = s := by
  rw [pairTimeout, found]
  exact if_neg fun late => absurd (of_decide_eq_true late) (by omega)

theorem pairTimeout_late (found : tfind s.regs.pairs k = some p) (late : 100000 < sfpDist p.at_ s.sfp) :
    pairTimeout s k = guardFailed (closePair s k) 1 p.addr := by
  rw [pairTimeout, found]
  exact if_pos (decide_eq_true late)

/-- A pair is open on a register of the block. -/
def pairOpened (s : State) (k a : Nat) (v : Word) (at_ : Sfp) : State :=
  onRegs s (fun r => { r with pairs := tset r.pairs k { addr := a, val := v, at_ := at_ } })

theorem openPair_free (free : tfind s.regs.pairs k = none) (a : Nat) (v : Word) : openPair s k a v = pairOpened s k a v s.sfp := by
  unfold openPair
  rw [pairTimeout_none free]
  dsimp only
  rw [free]
  rfl

theorem openPair_over (found : tfind s.regs.pairs k = some p) (inTime : sfpDist p.at_ s.sfp ≤ 100000) (a : Nat) (v : Word) :
    openPair s k a v = pairOpened (guardFailed (closePair s k) 6 p.addr) k a v s.sfp := by
  unfold openPair
  rw [pairTimeout_inTime found inTime]
  dsimp only
  rw [found]
  rfl

theorem secondWrite_orphan (free : tfind s.regs.pairs k = none) (c : Word) : secondWrite s k a c = (guardFailed s 4 a, none) := by
  unfold secondWrite
  rw [pairTimeout_none free]
  dsimp only
  rw [free]

theorem secondWrite_done (found : tfind s.regs.pairs k = some p) (inTime : sfpDist p.at_ s.sfp ≤ 100000) (addr : p.addr = a)
    {c : Word} (val : p.val = ~~~c) : secondWrite s k a c = (closePair s k, some p.val) := by
  unfold secondWrite
  rw [pairTimeout_inTime found inTime]
  dsimp only
  rw [found]
  exact (if_neg (not_not_intro addr)).trans (if_pos val)

theorem secondWrite_wrong (found : tfind s.regs.pairs k = some p) (inTime : sfpDist p.at_ s.sfp ≤ 100000) (addr : p.addr = a)
    {c : Word} (val : p.val ≠ ~~~c) : secondWrite s k a c = (guardFailed (closePair s k) 3 p.addr, none) := by
  unfold secondWrite
  rw [pairTimeout_inTime found inTime]
  dsimp only
  rw [found]
  exact (if_neg (not_not_intro addr)).trans (if_neg val)
end

/-! Commands that make a pair. -/

/-- The pair that a command's second write finds. -/
theorem SecondWrite.found {op : BitVec 16} {r : Req} {q : Run} {k a : Nat} {v : Word} {s : State} (h : SecondWrite op r q k a v s) :
    ∃ p, tfind s.regs.pairs k = some p ∧ p.addr = a ∧ p.val = v ∧ sfpDist p.at_ s.sfp ≤ 100000 := by
  obtain ⟨-, -, -, -, -, -, -, pairs, inTime⟩ := h
  obtain ⟨⟨k', p⟩, rest, split, key, tail⟩ := List.map_eq_cons_iff.mp pairs
  obtain rfl := List.map_eq_nil_iff.mp tail
  obtain ⟨rfl, rfl, rfl⟩ := key
  rw [split] at inTime
  refine ⟨p, by rw [split, tfind_one], rfl, rfl, ?_⟩
  simpa using inTime

/-- The row of a command at its second write is its body. -/
theorem second_row {op : BitVec 16} {r : Req} {q : Run} {k a : Nat} {v : Word} {s : State} (h : SecondWrite op r q k a v s)
    (body : Run → State → State) : live s (runSteps op r body s) = body q s := by
  obtain ⟨on, running, run, req, opcode, reply, work, -⟩ := h
  have offered : offer s op r = s := by simp [offer, run, req, opcode]
  have is : runIs s op r = some q := by simp [runIs, run, req, opcode, reply, running]
  rw [live_on on, runSteps]
  simp only [offered, is, work]
  rfl

/-! Transactions of a matrix that is free. -/

/-- A target has granted a master. -/
def granted (s : State) (t : Nat) (r : MatReq) : State :=
  onMem s (fun x => { x with granted := tset x.granted (t * 8 + reqQos s r) r.m })

section
variable {s : State} (free : MatFree s)
include free

theorem matRun_free : matRun s = s := by
  obtain ⟨busy, wait⟩ := free
  rw [matRun, busy, wait]
  rfl

theorem matIssue_granted {r : MatReq} {t : Nat} (target : targetOf r.addr = some t)
    (may : (if r.wr.isSome then mayWrite r.m t else mayRead r.m t) = true) (ready : reqWaits s r = false) :
    matIssue s r = matGrant s t r := by
  have run := matRun_free free
  obtain ⟨busy, wait⟩ := free
  unfold matIssue
  rw [run, target]
  simp [may, outstanding, busy, wait, ready, tfind]

/-- A write that no bridge holds is performed at once. -/
theorem matWrite_performed {m a t : Nat} {v : Word} {collide : Bool} (target : targetOf a = some t) (may : mayWrite m t = true)
    (ready : reqWaits s { m := m, addr := a, wr := some v, collide := collide } = false)
    (held : (mirHeld s && mirWrites s a) = false) : matWrite s m a v collide =
      matDoWrite (granted s t { m := m, addr := a, wr := some v, collide := collide }) m a v collide := by
  refine (matIssue_granted free (r := { m := m, addr := a, wr := some v, collide := collide }) target may ready).trans (if_neg ?_)
  show ¬(mirHeld s && mirWrites s a) = true
  rw [held]
  exact Bool.false_ne_true

/-- One whose record finds no space is held by its bridge (R435). -/
theorem matWrite_held {m a t : Nat} {v : Word} {collide : Bool} (target : targetOf a = some t) (may : mayWrite m t = true)
    (ready : reqWaits s { m := m, addr := a, wr := some v, collide := collide } = false)
    (held : (mirHeld s && mirWrites s a) = true) : matWrite s m a v collide =
      { s with mem := { s.mem with
          granted := tset s.mem.granted (t * 8 + qosOf s m) m
          busy := [(t, { m := m, addr := a, wr := some v, collide := collide })] } } := by
  refine (matIssue_granted free (r := { m := m, addr := a, wr := some v, collide := collide }) target may ready).trans
    ((if_pos held).trans ?_)
  show { s with mem := { s.mem with granted := _, busy := tset s.mem.busy t _ } } = _
  rw [free.1]
  rfl

theorem matIssue_read {m a t : Nat} (target : targetOf a = some t) (may : mayRead m t = true) :
    matIssue s { m := m, addr := a } = matRead (granted s t { m := m, addr := a }) m a := by
  refine (matIssue_granted free (r := { m := m, addr := a }) target may ?_).trans ?_
  · simp [reqWaits]
  · unfold matGrant
    extract_lets s1
    rw [if_neg (by simp [reqHeld])]
    rfl

/-- What no path carries ends at once. -/
theorem matWrite_refused {m a : Nat} {v : Word} {collide : Bool} (path : (targetOf a).all (fun x => !mayWrite m x) = true) :
    matWrite s m a v collide = decErr s m := by
  unfold matWrite matIssue matPerform matDoWrite
  dsimp only
  rw [matRun_free free]
  cases target : targetOf a with
  | none => rfl
  | some t =>
    rw [target] at path
    simp only [Option.all_some] at path
    simp [path]
end

/-- Only the processor's bus waits for a block that is BUSY (R385). -/
theorem reqWaits_other {s : State} {r : MatReq} (m : r.m ≠ 3) : reqWaits s r = false := by
  simp [reqWaits, m]

theorem reqWaits_fast {s : State} {r : MatReq} (block : slowBlockOf r.addr = none) : reqWaits s r = false := by
  simp [reqWaits, block]

/-! Manual switches (R250, R275, R329, Table 11-4). -/

section
variable {s : State}

/-- The answer of FEED_SELECT, made when the result is stored. -/
theorem storeResult_answers {q : Run} (run : s.vcp.run = some q) (op : q.op = opFeedSelect) (open_ : q.reply = none) (n : Nat) :
    Answers (storeResult s n) 0 0 ([by1 n, by1 (b2n s.pwr.sel)] ++ sfpBytes s.sfp) := by
  unfold storeResult
  extract_lets s1
  have kept : get .run s1 = get .run s ∧ get .sfp s1 = get .sfp s ∧ s1.pwr.sel = s.pwr.sel := by
    unfold s1 feedIdle
    split
    · split <;> exact ⟨rfl, rfl, rfl⟩
    · exact ⟨rfl, rfl, rfl⟩
  obtain ⟨kept, pos, sel⟩ := kept
  rw [show s1.vcp.run = some q from (show get .run s1 = get .run s from kept).trans run]
  dsimp only
  rw [if_pos ⟨op, open_⟩]
  show some (0#8, 0#8, _) = _
  rw [sel]
  rfl

/-- What the end of a manual switch registers changes the pending events alone. -/
theorem ended_eq (u : State) (n : Nat) (hist : BitVec 8) (ctrs : List Nat) (old new : Bool) : ∃ hist' ctrs' recs, feedRec (feedReg (storeResult u n) hist ctrs) 4 old new n =
      { storeResult u n with pwr := due (storeResult u n).pwr hist' ctrs' recs } := by
  obtain ⟨h, c, reg, -⟩ := feedReg_due (storeResult u n) hist ctrs
  obtain ⟨r, rec⟩ := feedRec_due (feedReg (storeResult u n) hist ctrs) 4 old new n
  refine ⟨h, c, r, rec.trans ?_⟩
  rw [reg]
  dsimp only
  rw [due_due, List.append_nil, BitVec.or_zero, List.nil_append]

theorem startSwitch_starts {t : Bool} (other : t ≠ s.pwr.sel) (good : feedGoodOf s.pwr t = true) :
    startSwitch s t = { s with pwr := setFeedPath { s.pwr with target := t, switching := some t } t true } := by
  unfold startSwitch
  rw [if_neg other, if_neg (by rw [good]; decide)]
  rfl

/-- A switch whose result is known at once: 1 where the target is selected, 2 where it is not GOOD. -/
theorem startSwitch_known (on : powered s = true) {t : Bool} {n : Nat}
    (known : t = s.pwr.sel ∧ n = 1 ∨ t ≠ s.pwr.sel ∧ feedGoodOf s.pwr t = false ∧ n = 2) :
    ∃ hist ctrs recs u, u = storeResult (onPwr s (fun p => { p with target := t })) n ∧
      startSwitch s t = { u with pwr := due u.pwr hist ctrs recs } := by
  unfold startSwitch
  rcases known with ⟨same, rfl⟩ | ⟨other, bad, rfl⟩
  · obtain ⟨v, l, stored⟩ := storeResult_facts (s := onPwr s (fun p => { p with target := t })) 1
    refine ⟨0, [], _, _, rfl, (if_pos same).trans (feedRec_on ?_ _ _ _ _)⟩
    rw [stored]
    exact on
  · obtain ⟨h, c, recs, eq⟩ := ended_eq (onPwr s (fun p => { p with target := t })) 2 0x80 [8] s.pwr.sel s.pwr.sel
    exact ⟨_, _, recs, _, rfl, (if_neg other).trans ((if_pos bad).trans eq)⟩

/-- Such a switch leaves the feeds as they are. -/
theorem startSwitch_known_facts (on : powered s = true) {t : Bool} {n : Nat}
    (known : t = s.pwr.sel ∧ n = 1 ∨ t ≠ s.pwr.sel ∧ feedGoodOf s.pwr t = false ∧ n = 2) :
    (startSwitch s t).pwr.target = t ∧ (startSwitch s t).pwr.switching = none ∧ (startSwitch s t).pwr.result = n
      ∧ (startSwitch s t).pwr.sel = s.pwr.sel ∧ (startSwitch s t).pwr.pathA = s.pwr.pathA
      ∧ (startSwitch s t).pwr.pathB = s.pwr.pathB := by
  obtain ⟨hist, ctrs, recs, u, eq, row⟩ := startSwitch_known on known
  obtain ⟨v, l, stored⟩ := storeResult_facts (s := onPwr s (fun p => { p with target := t })) n
  rw [row, eq, stored]
  exact ⟨rfl, rfl, rfl, rfl, rfl, rfl⟩

theorem startSwitch_known_answers (on : powered s = true) {t : Bool} {n : Nat} {q : Run}
    (known : t = s.pwr.sel ∧ n = 1 ∨ t ≠ s.pwr.sel ∧ feedGoodOf s.pwr t = false ∧ n = 2)
    (run : s.vcp.run = some q) (op : q.op = opFeedSelect) (open_ : q.reply = none) :
    Answers (startSwitch s t) 0 0 ([by1 n, by1 (b2n s.pwr.sel)] ++ sfpBytes s.sfp) := by
  obtain ⟨hist, ctrs, recs, u, eq, row⟩ := startSwitch_known on known
  rw [row, eq]
  exact storeResult_answers (s := onPwr s (fun p => { p with target := t })) run op open_ n

/-! The rows that end a manual switch. -/

/-- What the end of a manual switch changes. -/
abbrev SwitchEnds (s t : State) : Prop :=
  t = { s with pwr := t.pwr, vcp := t.vcp, fresh := t.fresh, regs := { s.regs with posted := t.regs.posted } }

section
variable {b : Bool} (busy : s.pwr.switching = some b)
include busy

theorem switchResult_done (standby : b ≠ s.pwr.sel) (good : feedGoodOf s.pwr b = true) : ∃ t, exec .feedSwitchResult s = .next t
    ∧ t.pwr.sel = b ∧ feedPath t.pwr s.pwr.sel = false ∧ t.pwr.result = 0 ∧ t.pwr.switching = none ∧ SwitchEnds s t := by
  let u := onPwr s (fun p => setSuspect (setFeedPath { p with sel := b } s.pwr.sel false) b false)
  obtain ⟨h, c, recs, eq⟩ := ended_eq u 0 0x40 [7] s.pwr.sel b
  obtain ⟨v, l, stored⟩ := storeResult_facts (s := u) 0
  have row : exec .feedSwitchResult s = .next (feedRec (feedReg (storeResult u 0) 0x40 [7]) 4 s.pwr.sel b 0) := by
    refine congrArg Host.Outcome.next ?_
    rw [xFeedSwitchResult, busy]
    exact if_pos good
  rw [eq, stored] at row
  refine ⟨_, row, ?_, ?_, rfl, rfl, rfl⟩
  · show (setSuspect (setFeedPath { s.pwr with sel := b } s.pwr.sel false) b false).sel = b
    rw [setSuspect_eq, setFeedPath_eq]
  · show feedPath (setSuspect (setFeedPath { s.pwr with sel := b } s.pwr.sel false) b false) s.pwr.sel = false
    rw [setSuspect_eq, setFeedPath_eq]
    cases s.pwr.sel <;> rfl

theorem switchResult_notGood (bad : feedGoodOf s.pwr b = false) : ∃ t, exec .feedSwitchResult s = .next t
    ∧ t.pwr.sel = s.pwr.sel ∧ feedPath t.pwr b = false ∧ t.pwr.result = 2 ∧ t.pwr.switching = none ∧ SwitchEnds s t := by
  let u := onPwr s (fun p => setFeedPath p b false)
  obtain ⟨h, c, recs, eq⟩ := ended_eq u 2 0x80 [8] s.pwr.sel s.pwr.sel
  obtain ⟨v, l, stored⟩ := storeResult_facts (s := u) 2
  have row : exec .feedSwitchResult s = .next (feedRec (feedReg (storeResult u 2) 0x80 [8]) 4 s.pwr.sel s.pwr.sel 2) := by
    refine congrArg Host.Outcome.next ?_
    rw [xFeedSwitchResult, busy]
    exact if_neg (by rw [bad]; decide)
  rw [eq, stored] at row
  refine ⟨_, row, ?_, ?_, rfl, rfl, rfl⟩ <;> cases b <;> rfl

theorem switchTimeout_row : ∃ t, exec .feedSwitchTimeout s = .next t
    ∧ t.pwr.sel = s.pwr.sel ∧ feedPath t.pwr b = false ∧ t.pwr.result = 3
    ∧ (if b then t.pwr.suspectB else t.pwr.suspectA) = true ∧ t.pwr.switching = none ∧ SwitchEnds s t := by
  let u := onPwr s (fun p => setSuspect (setFeedPath p b false) b true)
  obtain ⟨h, c, recs, eq⟩ := ended_eq u 3 0x80 [8] s.pwr.sel s.pwr.sel
  obtain ⟨v, l, stored⟩ := storeResult_facts (s := u) 3
  have row : exec .feedSwitchTimeout s = .next (feedRec (feedReg (storeResult u 3) 0x80 [8]) 4 s.pwr.sel s.pwr.sel 3) := by
    refine congrArg Host.Outcome.next ?_
    rw [xFeedSwitchTimeout, busy]
  rw [eq, stored] at row
  refine ⟨_, row, ?_, ?_, rfl, ?_, rfl, rfl⟩ <;> cases b <;> rfl

theorem failover_endsSwitch (run : s.pwr.failover = some b) : ∃ t, exec .feedFailoverComplete s = .next t
    ∧ t.pwr.sel = b ∧ feedPath t.pwr s.pwr.sel = false ∧ t.pwr.result = 4 ∧ t.pwr.switching = none ∧ t.pwr.failover = none
    ∧ SwitchEnds s t := by
  obtain ⟨hist, ctrs, recs, n, v, l, eq⟩ := failoverDone_switch busy
  refine ⟨_, (failoverComplete_row run).trans (congrArg Host.Outcome.next eq), rfl, ?_, rfl, rfl, rfl, rfl⟩
  cases h : s.pwr.sel <;> simp [feedPath, overTo, due, h]
end
end

/-! The second write of FEED_SELECT's pair. -/

/-- The write is posted, with its pair closed. -/
def switchPosted (s : State) (m : Nat) (v : Word) : State :=
  kpWrite (post (closePair s 1) 2 m aFeedSelect v) aFeedSelect aFeedSelect 1 v

section
variable {s : State} {p : GuardPair} (found : tfind s.regs.pairs 1 = some p) (inTime : sfpDist p.at_ s.sfp ≤ 100000)
  (addr : p.addr = aFeedSelect)
include found inTime addr

theorem feedSecond_done (m : Nat) : feedSecond s m (~~~p.val) = startSwitch (switchPosted s m p.val) (bit p.val 0) := by
  rw [feedSecond, secondWrite_done found inTime addr BitVec.not_not.symm]
  rfl

theorem feedSecond_wrong (m : Nat) {c : Word} (wrong : c ≠ ~~~p.val) : feedSecond s m c = guardFailed (closePair s 1) 3 aFeedSelect := by
  have other : p.val ≠ ~~~c := fun same => wrong (by rw [same, BitVec.not_not])
  rw [feedSecond, secondWrite_wrong found inTime addr other, addr]

theorem feedPairClose_done : feedPairClose s p.val =
    onRun (startSwitch (switchPosted s 1 p.val) (bit p.val 0)) (fun x => { x with work := 3 }) := by
  unfold feedPairClose
  rw [feedSecond_done found inTime addr, secondWrite_done found inTime addr BitVec.not_not.symm]
  rfl
end

theorem kpWrite_same {s : State} {a b mask : Nat} {v : Word} (same : v &&& ~~~(word mask) = kpOf s b mask) : kpWrite s a b mask v = s :=
  if_pos same

/-- The KP bits of a write change its register's KP bits, or its block's status and what the refusal registers. -/
theorem kpWrite_eq (s : State) (a b mask : Nat) (v : Word) : ∃ kp blk hist sage, kpWrite s a b mask v =
    { s with sage := sage, regs := { s.regs with kp := kp, blk := blk, hist := hist } } := by
  unfold kpWrite
  dsimp only
  split
  · exact ⟨_, _, _, _, rfl⟩
  · split
    · exact ⟨_, _, _, _, rfl⟩
    · unfold trace traceRec
      dsimp only
      split <;> exact ⟨_, _, _, _, rfl⟩

theorem switchValue_bit (s : State) (t : Bool) : bit (word (b2n t) ||| kpOf s aFeedSelect 1) 0 = t := by
  simp only [bit, kpOf, BitVec.getLsbD_or, BitVec.getLsbD_and]
  cases t <;> simp [b2n, word]

theorem switchValue_kp (s : State) (t : Bool) :
    (word (b2n t) ||| kpOf s aFeedSelect 1) &&& ~~~(word 1) = kpOf s aFeedSelect 1 := by
  have none_ : word (b2n t) &&& ~~~(word 1) = 0#32 := by cases t <;> decide
  rw [BitVec.and_or_distrib_right, none_, BitVec.zero_or, kpOf, BitVec.and_assoc, BitVec.and_self]

/-! The rows of FEED_SELECT and FEED_READ. -/

theorem switchPosted_own (s : State) (m : Nat) (t : Bool) : switchPosted s m (word (b2n t) ||| kpOf s aFeedSelect 1) =
    post (closePair s 1) 2 m aFeedSelect (word (b2n t) ||| kpOf s aFeedSelect 1) := kpWrite_same (switchValue_kp s t)

section
variable {r : Req} {q : Run} {b : Bool} {s : State}

theorem feedSelect_opens (h : Accepted 0x0A02 r q s) (target : pk1 r.params 0 = b2n b) (none_ : s.regs.pairs = [])
    (idle : slowBusy s 2 = false) : ∃ t, exec (.feedSelect r) s = .next t ∧ replyNow t = none ∧ t.vcp.run.map (·.work) = some 2
      ∧ t = { s with vcp := t.vcp, regs := { s.regs with
          pairs := [(1, { addr := aFeedSelect, val := word (b2n b) ||| kpOf s aFeedSelect 1, at_ := s.sfp })] } } := by
  obtain ⟨-, -, run, req, -, open_, work⟩ := h.1
  have row := steps_row h xFeedSelect
  have body : xFeedSelect q (started s) = feedPairOpen (started s) (word (b2n b) ||| kpOf s aFeedSelect 1) := by
    unfold xFeedSelect
    rw [req, target, work]
    exact (if_neg (by cases b <;> decide)).trans ((if_pos rfl).trans (if_neg (by rw [show slowBusy (started s) 2 = false from idle]; decide)))
  have pair := openPair_free (s := started s) (k := 1) (by rw [show (started s).regs.pairs = [] from none_]; rfl) aFeedSelect
    (word (b2n b) ||| kpOf s aFeedSelect 1)
  rw [body, feedPairOpen, pair] at row
  refine ⟨_, congrArg Host.Outcome.next row, ?_, ?_, ?_⟩
  · simp [replyNow, onRun, onVcp, pairOpened, onRegs, started, run, open_]
  · simp [onRun, onVcp, pairOpened, onRegs, started, run]
  · show { s with vcp := _, regs := { s.regs with pairs := tset s.regs.pairs 1 _ } } = _
    rw [none_]
    rfl

theorem setReply_regs (s : State) (st d : Byte) (data : Bytes) : (setReply s st d data).regs = s.regs := by
  unfold setReply
  split <;> rfl

theorem feedSelect_busy (h : Accepted 0x0A02 r q s) (target : pk1 r.params 0 = b2n b) (busy : slowBusy s 2 = true) :
    ∃ t, exec (.feedSelect r) s = .next t ∧ Answers t 0x0B 0 [] ∧ t.pwr = s.pwr ∧ t.regs.guardFail = true
      ∧ t.regs.guardCause = 7 := by
  obtain ⟨-, -, run, req, -, -, work⟩ := h.1
  have row := steps_row h xFeedSelect
  have body : xFeedSelect q (started s) = setReply (guardFailed (overrun (started s) 2) 7 aFeedSelect) 0x0B 0 [] := by
    unfold xFeedSelect
    rw [req, target, work]
    exact (if_neg (by cases b <;> decide)).trans ((if_pos rfl).trans (if_pos busy))
  rw [body] at row
  refine ⟨_, congrArg Host.Outcome.next row, setReply_answers (q := { q with work := 1 }) ?_ _ _ _, ?_, ?_, ?_⟩
  · rw [guardFailed_eq]
    exact started_run run
  · have kept : get .pwr (setReply (guardFailed (overrun (started s) 2) 7 aFeedSelect) 0x0B 0 []) = get .pwr s := by simp
    exact kept
  · rw [setReply_regs, guardFailed_eq]
  · rw [setReply_regs, guardFailed_eq]

/-- The second write of the command's pair starts the switch. -/
theorem feedSelect_closes (h : SecondWrite 0x0A02 r q 1 aFeedSelect (word (b2n b) ||| kpOf s aFeedSelect 1) s)
    (target : pk1 r.params 0 = b2n b) : exec (.feedSelect r) s = .next (onRun (startSwitch
      (post (closePair s 1) 2 1 aFeedSelect (word (b2n b) ||| kpOf s aFeedSelect 1)) b) (fun x => { x with work := 3 })) := by
  obtain ⟨p, found, addr, val, inTime⟩ := h.found
  have row := second_row h xFeedSelect
  obtain ⟨-, -, -, req, -, -, work, -⟩ := h
  have body : xFeedSelect q s = feedPairClose s (word (b2n b) ||| kpOf s aFeedSelect 1) := by
    unfold xFeedSelect
    rw [req, target, work]
    exact (if_neg (by cases b <;> decide)).trans ((if_neg (by decide)).trans (if_pos rfl))
  have close := feedPairClose_done found inTime addr
  rw [val, switchPosted_own, switchValue_bit] at close
  exact congrArg Host.Outcome.next (row.trans (body.trans close))

/-- A switch whose result the command answers at once. -/
theorem feedSelect_known (h : SecondWrite 0x0A02 r q 1 aFeedSelect (word (b2n b) ||| kpOf s aFeedSelect 1) s)
    (target : pk1 r.params 0 = b2n b) {n : Nat}
    (known : b = s.pwr.sel ∧ n = 1 ∨ b ≠ s.pwr.sel ∧ feedGoodOf s.pwr b = false ∧ n = 2) :
    ∃ t, exec (.feedSelect r) s = .next t ∧ Answers t 0 0 ([by1 n, by1 (b2n s.pwr.sel)] ++ sfpBytes s.sfp)
      ∧ t.pwr.result = n ∧ t.pwr.sel = s.pwr.sel ∧ t.pwr.pathA = s.pwr.pathA ∧ t.pwr.pathB = s.pwr.pathB := by
  have row := feedSelect_closes h target
  obtain ⟨on, -, run, -, op, open_, -⟩ := h
  set u := post (closePair s 1) 2 1 aFeedSelect (word (b2n b) ||| kpOf s aFeedSelect 1)
  obtain ⟨-, -, result, sel, pathA, pathB⟩ := startSwitch_known_facts (s := u) on known
  have answers := startSwitch_known_answers (s := u) on known run op open_
  refine ⟨_, row, Eq.trans ?_ answers, result, sel, pathA, pathB⟩
  show Option.map _ (Option.bind (Option.map _ _) _) = Option.map _ (Option.bind _ _)
  cases (startSwitch u b).vcp.run <;> rfl

theorem feedSelect_starts (h : SecondWrite 0x0A02 r q 1 aFeedSelect (word (b2n b) ||| kpOf s aFeedSelect 1) s)
    (target : pk1 r.params 0 = b2n b) (other : b ≠ s.pwr.sel) (good : feedGoodOf s.pwr b = true) :
    ∃ t, exec (.feedSelect r) s = .next t ∧ replyNow t = none ∧ t.pwr.switching = some b ∧ feedPath t.pwr b = true
      ∧ slowBusy t 2 = true ∧ t.pwr.sel = s.pwr.sel ∧ t.regs.act = s.regs.act ∧ t.map = s.map ∧ t.com = s.com := by
  have row := feedSelect_closes h target
  obtain ⟨-, -, run, -, -, open_, -⟩ := h
  rw [startSwitch_starts (s := post (closePair s 1) 2 1 aFeedSelect (word (b2n b) ||| kpOf s aFeedSelect 1)) other good,
    setFeedPath_eq] at row
  refine ⟨_, row, ?_, rfl, ?_, ?_, rfl, rfl, rfl, rfl⟩
  · simp [replyNow, onRun, onVcp, post, closePair, onRegs, run, open_]
  · cases b <;> rfl
  · simp [slowBusy, onRun, onVcp, post, closePair, onRegs]

theorem feedRead_row (h : Accepted 0x0A01 r q s) : ∃ t, exec (.feedRead r) s = .next t ∧ Answers t 0 0 (answer t)
    ∧ (answer t).length = 38 ∧ pkNat (answer t) 0 2 = feedStatusW s % 65536 ∧ pkNat (answer t) 4 2 = s.pwr.mvA.toNat
    ∧ pkNat (answer t) 6 2 = s.pwr.mvB.toNat ∧ pk1 (answer t) 12 = s.pwr.result % 256 ∧ t = { s with vcp := t.vcp } := by
  obtain ⟨t, row, answers, data, only⟩ := answer_row h (body := xFeedRead) rfl
  refine ⟨t, congrArg Host.Outcome.next row, ?_, ?_, ?_, ?_, ?_, ?_, only⟩
  all_goals rw [data]
  · exact answers
  · simp [ctr8]
  · simp only [List.append_assoc, pkNat_here]
    rfl
  · simp
    exact Nat.mod_eq_of_lt s.pwr.mvA.isLt
  · simp
    exact Nat.mod_eq_of_lt s.pwr.mvB.isLt
  · simp
    rfl
end

/-! FEED_SELECT by a master. -/

section
variable {m : Master} {s : State} {p : GuardPair} (on : powered s = true) (free : MatFree s) (may : mayWrite m 6 = true)
  (idle : slowBusy s 2 = false)
include on free may idle

/-- The write reaches its block. -/
theorem feedSelectTarget_row (c : Word) : exec (.feedSelectTarget m c) s = .next (setResp (feedSecond
    (granted s 6 { m := m, addr := aPower + 0x02C, wr := some c, collide := false }) m c) m .okay) := by
  refine congrArg Host.Outcome.next ((live_on on _).trans ?_)
  show matWrite s m (aPower + 0x02C) c false = _
  rw [matWrite_performed free (t := 6) (by decide) may (by simp [reqWaits, show slowBlockOf (aPower + 0x02C) = some 2 from rfl, idle])
    (by rw [show mirWrites s (aPower + 0x02C) = false from rfl, Bool.and_false])]
  set u := granted s 6 { m := m, addr := aPower + 0x02C, wr := some c, collide := false }
  show (if !mayWrite m 6 then _ else slowWrite u m (aPower + 0x02C) c) = _
  rw [may]
  show slowWrite u m (aPower + 0x02C) c = _
  unfold slowWrite
  have port : kindAct (aPower + 0x02C) = .port := rfl
  rw [port]
  refine (if_neg (by decide)).trans ((if_neg fun both => RegKind.noConfusion both.1).trans ((if_neg ?_).trans rfl))
  rw [show slowBusy u ((slowBlockOf (aPower + 0x02C)).getD 0) = false from idle]
  decide

variable (found : tfind s.regs.pairs 1 = some p) (inTime : sfpDist p.at_ s.sfp ≤ 100000) (addr : p.addr = aFeedSelect)
include found inTime addr

/-- The complement of the first write: the switch towards its target begins, with the write posted. -/
theorem feedSelectTarget_done : ∃ u, exec (.feedSelectTarget m (~~~p.val)) s = .next (setResp (startSwitch u (bit p.val 0)) m .okay)
    ∧ u.pwr = s.pwr ∧ powered u = true ∧ u.map = s.map ∧ u.ports = s.ports ∧ u.com = s.com ∧ u.regs.act = s.regs.act
    ∧ slowBusy u 2 = true ∧ tfind u.regs.pairs 1 = none := by
  have row := feedSelectTarget_row on free may idle (~~~p.val)
  set v := granted s 6 { m := m, addr := aPower + 0x02C, wr := some (~~~p.val), collide := false }
  rw [feedSecond_done (s := v) found inTime addr] at row
  obtain ⟨kp, blk, hist, sage, eq⟩ :=
    kpWrite_eq (post (closePair v 1) 2 m aFeedSelect p.val) aFeedSelect aFeedSelect 1 p.val
  rw [show switchPosted v m p.val = _ from eq] at row
  exact ⟨_, row, rfl, on, rfl, rfl, rfl, rfl, congrArg Option.isSome (tfind_tset_same _ _ _), tfind_tdel_same _ _⟩

theorem feedSelectTarget_starts (other : bit p.val 0 ≠ s.pwr.sel) (good : feedGoodOf s.pwr (bit p.val 0) = true) :
    ∃ t, exec (.feedSelectTarget m (~~~p.val)) s = .next t ∧ t.pwr.target = bit p.val 0 ∧ t.pwr.switching = some (bit p.val 0)
      ∧ feedPath t.pwr (bit p.val 0) = true ∧ slowBusy t 2 = true ∧ tfind t.regs.pairs 1 = none ∧ t.pwr.sel = s.pwr.sel
      ∧ t.map = s.map ∧ t.ports = s.ports ∧ t.com = s.com ∧ t.regs.act = s.regs.act := by
  obtain ⟨u, row, pwr, -, map, ports, com, act, busy, closed⟩ := feedSelectTarget_done on free may idle found inTime addr
  rw [startSwitch_starts (by rw [pwr]; exact other) (by rw [pwr]; exact good), setFeedPath_eq, pwr] at row
  refine ⟨_, row, rfl, rfl, ?_, busy, closed, rfl, map, ports, com, act⟩
  cases bit p.val 0 <;> rfl

theorem feedSelectTarget_known {n : Nat} (known : bit p.val 0 = s.pwr.sel ∧ n = 1 ∨
      bit p.val 0 ≠ s.pwr.sel ∧ feedGoodOf s.pwr (bit p.val 0) = false ∧ n = 2) :
    ∃ t, exec (.feedSelectTarget m (~~~p.val)) s = .next t ∧ t.pwr.target = bit p.val 0 ∧ t.pwr.switching = none
      ∧ t.pwr.result = n ∧ t.pwr.sel = s.pwr.sel ∧ t.pwr.pathA = s.pwr.pathA ∧ t.pwr.pathB = s.pwr.pathB := by
  obtain ⟨u, row, pwr, up, -⟩ := feedSelectTarget_done on free may idle found inTime addr
  have facts := startSwitch_known_facts up (by rw [pwr]; exact known)
  rw [pwr] at facts
  exact ⟨_, row, facts⟩

theorem feedSelectTarget_wrong {c : Word} (wrong : c ≠ ~~~p.val) : ∃ t, exec (.feedSelectTarget m c) s = .next t
    ∧ t.pwr = s.pwr ∧ t.regs.guardFail = true ∧ t.regs.guardCause = 3 ∧ t.regs.guardAddr = word aFeedSelect
    ∧ Counted s t 1 2 := by
  have row := feedSelectTarget_row on free may idle c
  set v := granted s 6 { m := m, addr := aPower + 0x02C, wr := some c, collide := false }
  rw [feedSecond_wrong (s := v) found inTime addr m wrong] at row
  obtain ⟨fail, cause, at_, -⟩ := guardFailed_latched (closePair v 1) 3 aFeedSelect
  have kept : get .pwr (setResp (guardFailed (closePair v 1) 3 aFeedSelect) m .okay) = get .pwr s := by simp [v, granted]
  exact ⟨_, row, kept, fail, cause, at_, guardFailed_counted (closePair v 1) 3 aFeedSelect⟩
end

/-- Settles O31: each switch is its row, by the command and by a master alike. -/
theorem manualSwitch : Obligations.ManualSwitch := by
  unfold Obligations.ManualSwitch
  refine ⟨fun r q tgt s => ⟨fun h target none_ => ⟨fun idle => feedSelect_opens h target none_ idle, fun busy => feedSelect_busy h target busy⟩,
    fun h target idle => ⟨fun other good => feedSelect_starts h target other good, fun other bad =>
      feedSelect_known h target (.inr ⟨other, bad, rfl⟩), fun same => feedSelect_known h target (.inl ⟨same, rfl⟩)⟩,
    fun h => feedRead_row h, fun busy standby => ?_⟩, fun m a v p s on free may idle found addr val inTime run => ?_⟩
  · exact ⟨fun good => switchResult_done busy standby good, fun bad => switchResult_notGood busy bad, switchTimeout_row busy,
      fun run => failover_endsSwitch busy run⟩
  · subst val
    exact ⟨fun other good => feedSelectTarget_starts on free may idle found inTime addr other good,
      fun other bad => feedSelectTarget_known on free may idle found inTime addr (.inr ⟨other, bad, rfl⟩),
      fun same => by
        obtain ⟨t, row, -, -, facts⟩ := feedSelectTarget_known on free may idle found inTime addr (.inl ⟨same, rfl⟩)
        exact ⟨t, row, facts⟩,
      fun wrong => feedSelectTarget_wrong on free may idle found inTime addr wrong⟩

end Sys2Proof.Machine
end

section
/-! Register writes of the fast bridge (O40, O43). -/

namespace Sys2Proof.Machine

open Sys2Proof

/-! Guarded pairs of the system block by a master (R379, R380, R393). -/

theorem guardFailed_shape (s : State) (cause addr : Nat) : ∃ sage hist, guardFailed s cause addr = { s with
    sage := sage
    regs := { s.regs with guardFail := true, guardCause := cause, guardAddr := word addr, hist := hist } } ∧
    Counted s { s with sage := sage } 1 2 :=
  ⟨_, _, guardFailed_eq s cause addr, guardFailed_counted s cause addr⟩

/-! Writes of the fast bridge. -/

theorem targetOf_fast {a : Nat} (target : targetOf a = some 5) : 0x40000000 ≤ a ∧ a < 0x50000000 := by
  grind [targetOf]

theorem slowBlockOf_fast {a : Nat} (target : targetOf a = some 5) : slowBlockOf a = none :=
  if_pos (.inl (targetOf_fast target).2)

/-- The state in which a target performs a write of a master. -/
abbrev writing (s : State) (t m a : Nat) (v : Word) : State := granted s t { m := m, addr := a, wr := some v, collide := false }

/-- A write of the fast bridge that no mirror record holds. -/
theorem fast_row {s : State} (free : MatFree s) {m a : Nat} (may : mayWrite m 5 = true) (target : targetOf a = some 5)
    (held : (mirHeld s && mirWrites s a) = false) (v : Word) :
    matWrite s m a v false = fastWrite (writing s 5 m a v) m a v := by
  rw [matWrite_performed free target may (reqWaits_fast (slowBlockOf_fast target)) held]
  unfold matDoWrite
  rw [target]
  dsimp only
  rw [may]
  rfl

/-! The guarded registers of the system block. -/

/-- The six registers. -/
def guarded : List Nat := [aSys + 0x010, aSys + 0x018, aSys + 0x020, aSys + 0x028, aSys + 0x030, aSys + 0x038]

theorem guarded_first {a : Nat} (mem : a ∈ guarded) : targetOf a = some 5 ∧ stagedOf a = none ∧ guardBlock a = some 0 ∧
    (∃ mask fw, kindAct a = .gw mask fw) ∧ ∀ s, mirWrites s a = false := by
  simp only [guarded, List.mem_cons, List.not_mem_nil, or_false] at mem
  rcases mem with rfl | rfl | rfl | rfl | rfl | rfl <;> exact ⟨rfl, rfl, rfl, ⟨_, _, rfl⟩, fun _ => rfl⟩

theorem guarded_second {a : Nat} (mem : a ∈ guarded) : targetOf (a + 4) = some 5 ∧ stagedOf (a + 4) = none ∧
    kindAct (a + 4) = .port ∧ ∀ s, mirWrites s (a + 4) = false := by
  simp only [guarded, List.mem_cons, List.not_mem_nil, or_false] at mem
  rcases mem with rfl | rfl | rfl | rfl | rfl | rfl <;> exact ⟨rfl, rfl, rfl, fun _ => rfl⟩

section
variable {s : State} {m : Master} {a : Nat} (free : MatFree s) (may : mayWrite m 5 = true) (mem : a ∈ guarded)
include free may mem

theorem firstWrite_row (v : Word) : matWrite s m a v false = setResp (openPair (writing s 5 m a v) 0 a v) m .okay := by
  obtain ⟨target, staged, -, ⟨mask, fw, kind⟩, mirrored⟩ := guarded_first mem
  rw [fast_row free may target (by rw [mirrored, Bool.and_false]), fastWrite, staged]
  dsimp only
  rw [kind]

theorem portWrite_row (c : Word) : matWrite s m (a + 4) c false = setResp (sysSecond (writing s 5 m (a + 4) c) a c) m .okay := by
  obtain ⟨target, staged, kind, mirrored⟩ := guarded_second mem
  rw [fast_row free may target (by rw [mirrored, Bool.and_false]), fastWrite, staged]
  dsimp only
  rw [kind]
  rfl
end

/-- A pair has failed: its cause and its register are latched, and the register keeps its value (R380). -/
abbrev PairFails (s t : State) (cause a : Nat) : Prop :=
  t.regs.guardFail = true ∧ t.regs.guardCause = cause ∧ t.regs.guardAddr = word a ∧ t.regs.gw = s.regs.gw

/-- What a guarded pair that does not take effect changes. -/
abbrev PairFrame (s t : State) : Prop := t = { s with
  mem := { s.mem with granted := t.mem.granted }, sage := t.sage
  regs := { s.regs with hist := t.regs.hist, pairs := t.regs.pairs, resp := t.regs.resp, guardFail := t.regs.guardFail
                        guardCause := t.regs.guardCause, guardAddr := t.regs.guardAddr } }

/-- The register has taken its value, and the machine keeps what no guarded register of the block has a hand in. -/
abbrev PairTaken (s t : State) (a : Nat) (v : Word) : Prop :=
  tget 0 t.regs.gw a = v &&& word (kindMask (kindAct a)) ∧ tfind t.regs.pairs 0 = none
    ∧ t.regs.guardFail = s.regs.guardFail ∧ t.ports = s.ports ∧ t.grps = s.grps ∧ t.map = s.map ∧ t.regs.act = s.regs.act
    ∧ t.regs.stg = s.regs.stg ∧ t.flash = s.flash ∧ t.vcp = s.vcp

section
variable {s : State} {m : Master} {a : Nat} {p : GuardPair} (free : MatFree s) (may : mayWrite m 5 = true) (mem : a ∈ guarded)
include free may mem

theorem firstWrite_opens (none_ : tfind s.regs.pairs 0 = none) (v : Word) : ∃ t, matWrite s m a v false = t
    ∧ tfind t.regs.pairs 0 = some { addr := a, val := v, at_ := s.sfp } ∧ t.sage = s.sage
    ∧ t.regs.guardFail = s.regs.guardFail ∧ PairFrame s t := by
  have row := firstWrite_row free may mem v
  rw [openPair_free (s := writing s 5 m a v) none_] at row
  exact ⟨_, row, tfind_tset_same _ _ _, rfl, rfl, rfl⟩

theorem firstWrite_replaces (found : tfind s.regs.pairs 0 = some p) (inTime : sfpDist p.at_ s.sfp ≤ 100000) (v : Word) :
    ∃ t, matWrite s m a v false = t ∧ PairFails s t 6 p.addr
      ∧ tfind t.regs.pairs 0 = some { addr := a, val := v, at_ := s.sfp } ∧ Counted s t 1 2 ∧ PairFrame s t := by
  have row := firstWrite_row free may mem v
  rw [openPair_over (s := writing s 5 m a v) found inTime] at row
  obtain ⟨sage, hist, failed, counted⟩ := guardFailed_shape (closePair (writing s 5 m a v) 0) 6 p.addr
  rw [failed] at row
  exact ⟨_, row, ⟨rfl, rfl, rfl, rfl⟩, tfind_tset_same _ _ _, counted, rfl⟩

theorem portWrite_orphan (none_ : tfind s.regs.pairs 0 = none) (c : Word) : ∃ t, matWrite s m (a + 4) c false = t
    ∧ PairFails s t 4 a ∧ Counted s t 1 2 ∧ PairFrame s t := by
  have row := portWrite_row free may mem c
  rw [sysSecond, secondWrite_orphan (s := writing s 5 m (a + 4) c) none_] at row
  obtain ⟨sage, hist, failed, counted⟩ := guardFailed_shape (writing s 5 m (a + 4) c) 4 a
  dsimp only at row
  rw [failed] at row
  exact ⟨_, row, ⟨rfl, rfl, rfl, rfl⟩, counted, rfl⟩

variable (found : tfind s.regs.pairs 0 = some p) (inTime : sfpDist p.at_ s.sfp ≤ 100000) (addr : p.addr = a)
include found inTime addr

theorem portWrite_wrong {c : Word} (wrong : c ≠ ~~~p.val) : ∃ t, matWrite s m (a + 4) c false = t
    ∧ PairFails s t 3 a ∧ Counted s t 1 2 ∧ PairFrame s t := by
  have other : p.val ≠ ~~~c := fun same => wrong (by rw [same, BitVec.not_not])
  have row := portWrite_row free may mem c
  rw [sysSecond, secondWrite_wrong (s := writing s 5 m (a + 4) c) found inTime addr other, addr] at row
  obtain ⟨sage, hist, failed, counted⟩ := guardFailed_shape (closePair (writing s 5 m (a + 4) c) 0) 3 a
  dsimp only at row
  rw [failed] at row
  exact ⟨_, row, ⟨rfl, rfl, rfl, rfl⟩, counted, rfl⟩

/-- The complement of the first write makes the value take effect. -/
theorem portWrite_done : matWrite s m (a + 4) (~~~p.val) false = setResp (gwTake s.sfp
    (closePair (writing s 5 m (a + 4) (~~~p.val)) 0) a (kindMask (kindAct a)) p.val) m .okay := by
  refine (portWrite_row free may mem _).trans ?_
  rw [sysSecond, secondWrite_done (s := writing s 5 m (a + 4) (~~~p.val)) found inTime addr BitVec.not_not.symm]
  rfl
end

/-! What the value does. -/

/-- The register has the value, and its pair is closed. -/
def valueTaken (s : State) (a mask : Nat) (v : Word) : State :=
  onRegs (closePair s 0) (fun r => { r with gw := tput 0 r.gw a (v &&& word mask) })

theorem gwEffect_only (s : State) (a : Nat) (v : Word) : Only [.mem, .seq, .sage, .pair, .mir, .hist] s (gwEffect s a v) :=
  fun f out => by simp at out; simp [out]

theorem Only.effect {s t : State} (only : Only [.mem, .seq, .sage, .pair, .mir, .hist] s t) : t = { s with
    mem := t.mem, seq := t.seq, sage := t.sage, pair := t.pair, mir := t.mir, regs := { s.regs with hist := t.regs.hist } } :=
  only.frame

theorem PairTaken.effect {s u t : State} {a : Nat} {v : Word} (taken : PairTaken s u a v)
    (only : Only [.mem, .seq, .sage, .pair, .mir, .hist] u t) (m : Nat) : PairTaken s (setResp t m .okay) a v := by
  obtain ⟨mem, seq, sage, pair, mir, hist, eq⟩ : ∃ mem seq sage pair mir hist, t = { u with
      mem := mem, seq := seq, sage := sage, pair := pair, mir := mir, regs := { u.regs with hist := hist } } :=
    ⟨_, _, _, _, _, _, only.effect⟩
  subst eq
  exact taken

/-- The checks of PAIR_CTL read the pair and the registers. -/
theorem pairCtlCheck_of_get {s t : State} (pair : get .pair t = get .pair s) (act_ : get .act t = get .act s)
    (pos : get .sfp t = get .sfp s) (acc : Sfp) (v : Word) :
    pairCtlCheck acc t v = pairCtlCheck acc s v := by
  have pair : t.pair = s.pair := pair
  have act_ : t.regs.act = s.regs.act := act_
  have pos : t.sfp = s.sfp := pos
  simp only [pairCtlCheck, swapCheck, cancelCheck, forceCheck, swapNamed, peerStandby, peerIs, chiveSilent, heardWithin, Machine.act, pair, act_, pos]
  rfl

section
variable {s : State} {m : Master} {a : Nat} {p : GuardPair} (free : MatFree s) (may : mayWrite m 5 = true) (mem : a ∈ guarded)
  (found : tfind s.regs.pairs 0 = some p) (inTime : sfpDist p.at_ s.sfp ≤ 100000) (addr : p.addr = a)
include free may mem found inTime addr

theorem portWrite_taken (passed : a = aSys + 0x038 → pairCtlCheck s.sfp s p.val = none) : ∃ u, u.sage = s.sage ∧ u.mem.remap = s.mem.remap
    ∧ u.seq = s.seq ∧ u.pair = s.pair ∧ u.sfp = s.sfp ∧ u.vcp = s.vcp ∧ u.regs.act = s.regs.act ∧ PairTaken s u a p.val
    ∧ matWrite s m (a + 4) (~~~p.val) false = setResp (gwEffect u a p.val) m .okay
    ∧ PairTaken s (setResp (gwEffect u a p.val) m .okay) a p.val := by
  have row := portWrite_done free may mem found inTime addr
  set w := closePair (writing s 5 m (a + 4) (~~~p.val)) 0
  have take : gwTake s.sfp w a (kindMask (kindAct a)) p.val =
      gwEffect (onRegs w (fun r => { r with gw := tput 0 r.gw a (p.val &&& word (kindMask (kindAct a))) })) a p.val := by
    refine if_neg ?_
    rintro ⟨ctl, failed⟩
    have none_ : pairCtlCheck s.sfp w p.val = none := (pairCtlCheck_of_get (s := s) (by rfl) (by rfl) (by rfl) _ _).trans (passed ctl)
    rw [none_] at failed
    cases failed
  rw [take] at row
  set u := onRegs w (fun r => { r with gw := tput 0 r.gw a (p.val &&& word (kindMask (kindAct a))) })
  have taken : PairTaken s u a p.val := ⟨tget_tput_same _ _ _ _, tfind_tdel_same _ _, rfl, rfl, rfl, rfl, rfl, rfl, rfl, rfl⟩
  exact ⟨u, rfl, rfl, rfl, rfl, rfl, rfl, rfl, taken, row, taken.effect (gwEffect_only u a p.val) m⟩

theorem portWrite_refused (ctl : a = aSys + 0x038) (failed : (pairCtlCheck s.sfp s p.val).isSome = true) :
    ∃ t, matWrite s m (a + 4) (~~~p.val) false = t ∧ PairFails s t 0 a ∧ t.pair = s.pair ∧ PairFrame s t := by
  have row := portWrite_done free may mem found inTime addr
  set w := closePair (writing s 5 m (a + 4) (~~~p.val)) 0
  have some_ : (pairCtlCheck s.sfp w p.val).isSome = true := by
    rw [pairCtlCheck_of_get (s := s) (t := w) rfl rfl rfl]
    exact failed
  have take : gwTake s.sfp w a (kindMask (kindAct a)) p.val =
      onRegs w (fun r => { r with guardFail := true, guardCause := 0, guardAddr := word a }) := if_pos ⟨ctl, some_⟩
  rw [take] at row
  exact ⟨_, row, ⟨rfl, rfl, rfl, rfl⟩, rfl, rfl⟩
end

/-- A pair out of time fails (R380, Table 17-2). -/
theorem guardTimeout_row {s : State} {a : Word} {p : GuardPair} (on : powered s = true) (mem : a.toNat ∈ guarded)
    (addr : p.addr = a.toNat) (found : tfind s.regs.pairs 0 = some p) (late : 100000 < sfpDist p.at_ s.sfp) :
    ∃ t, exec (.guardTimeout a) s = .next t ∧ PairFails s t 1 a.toNat ∧ Counted s t 1 2 ∧ tfind t.regs.pairs 0 = none
      ∧ PairFrame s t := by
  obtain ⟨-, -, block, -⟩ := guarded_first mem
  obtain ⟨sage, hist, failed, counted⟩ := guardFailed_shape (closePair s 0) 1 p.addr
  have row : xGuardTimeout a.toNat s = guardFailed (closePair s 0) 1 p.addr := by
    unfold xGuardTimeout
    rw [block]
    dsimp only
    rw [found]
    exact (if_pos addr).trans (pairTimeout_late found late)
  rw [failed] at row
  exact ⟨_, congrArg Host.Outcome.next ((live_on on _).trans row), ⟨rfl, rfl, congrArg word addr, rfl⟩, counted, tfind_tdel_same _ _, rfl⟩

theorem setSwap_pair (u : State) (w : Option (Sfp × Bool)) (m : Nat) :
    (setResp (setSwap u w) m .okay).pair = { u.pair with swap := w } := by
  have kept : get .pair (setResp (setSwap u w) m .okay) = get .pair (onPair u (fun p => { p with swap := w })) := by
    simp [setSwap]
  exact kept

/-! The effects of the six values. -/

section
variable {s : State} {m : Master} {p : GuardPair} (on : powered s = true) (free : MatFree s) (may : mayWrite m 5 = true)
  (found : tfind s.regs.pairs 0 = some p) (inTime : sfpDist p.at_ s.sfp ≤ 100000)
include on free may found inTime

theorem remap_row (addr : p.addr = aSys + 0x010) : ∃ t, exec (.remap m (~~~p.val)) s = .next t
    ∧ PairTaken s t (aSys + 0x010) p.val ∧ t.mem.remap = bit p.val 0 ∧ t.sage = s.sage := by
  obtain ⟨u, sage, -, -, -, -, -, -, -, row, taken⟩ := portWrite_taken free may (by decide) found inTime addr fun h => absurd h (by decide)
  exact ⟨_, congrArg Host.Outcome.next ((live_on on _).trans row), taken, rfl, sage⟩

theorem seqRst_row (addr : p.addr = aSys + 0x018) : ∃ t, exec (.seqRst m (~~~p.val)) s = .next t
    ∧ PairTaken s t (aSys + 0x018) p.val
    ∧ (bit p.val 0 = true → s.seq.devReset = none → devResetRuns s = false → t.seq.devReset = some (nextEpoch s.sfp, false))
    ∧ (bit p.val 0 = false → t.seq = s.seq) := by
  obtain ⟨u, -, -, seq, -, pos, vcp, -, -, row, taken⟩ :=
    portWrite_taken free may (by decide) found inTime addr fun h => absurd h (by decide)
  refine ⟨_, congrArg Host.Outcome.next ((live_on on _).trans row), taken, fun set free_ idle => ?_, fun clear => ?_⟩
  · have effect : gwEffect u (aSys + 0x018) p.val = seqRstDue u := if_pos set
    rw [effect, seqRstDue, if_neg (by rw [show devResetRuns u = false by rw [devResetRuns, vcp]; exact idle]; decide)]
    have none_ : u.seq.devReset = none := by rw [seq, free_]
    simp only [setResp, onRegs, onSeq, none_, pos]
  · have effect : gwEffect u (aSys + 0x018) p.val = u := if_neg (by rw [clear]; decide)
    rw [effect]
    exact seq

theorem flashWe_row (addr : p.addr = aSys + 0x020) :
    ∃ t, exec (.flashWe m (~~~p.val)) s = .next t ∧ PairTaken s t (aSys + 0x020) p.val := by
  obtain ⟨u, -, -, -, -, -, -, -, -, row, taken⟩ := portWrite_taken free may (by decide) found inTime addr fun h => absurd h (by decide)
  exact ⟨_, congrArg Host.Outcome.next ((live_on on _).trans row), taken⟩

theorem keyWe_row (addr : p.addr = aSys + 0x028) :
    ∃ t, exec (.keyWe m (~~~p.val)) s = .next t ∧ PairTaken s t (aSys + 0x028) p.val := by
  obtain ⟨u, -, -, -, -, -, -, -, -, row, taken⟩ := portWrite_taken free may (by decide) found inTime addr fun h => absurd h (by decide)
  exact ⟨_, congrArg Host.Outcome.next ((live_on on _).trans row), taken⟩

theorem bscanUnlock_row (addr : p.addr = aSys + 0x030) : ∃ t, exec (.bscanUnlock m (~~~p.val)) s = .next t
    ∧ PairTaken s t (aSys + 0x030) p.val ∧ bscanOpen t = bit p.val 0
    ∧ (bit p.val 0 = true → (newest t).map (fun r => (r.cls, r.sub, r.at_)) = some (11, 3, s.sfp)) := by
  obtain ⟨u, -, -, -, -, pos, -, -, -, row, taken⟩ := portWrite_taken free may (by decide) found inTime addr fun h => absurd h (by decide)
  refine ⟨_, congrArg Host.Outcome.next ((live_on on _).trans row), taken, ?_, fun set => ?_⟩
  · rw [bscanOpen, taken.1, show kindMask (kindAct (aSys + 0x030)) = 1 from rfl]
    simp [bit, word]
  · have effect : gwEffect u (aSys + 0x030) p.val = trace u 11 3 noObj [] := if_pos set
    rw [effect]
    show (newest (trace u 11 3 noObj [])).map _ = _
    rw [newest_trace, pos]
    rfl

variable (addr : p.addr = aSys + 0x038)
include addr

/-- PAIR_CTL takes a value that passes its checks, and leaves one that does not (R393). -/
theorem pairCtl_rows : (pairCtlCheck s.sfp s p.val = none → ∃ u, u.pair = s.pair ∧ swapNamed u = swapNamed s ∧ u.sfp = s.sfp
      ∧ live s (matWrite s m (aSys + 0x03C) (~~~p.val) false) = setResp (gwEffect u (aSys + 0x038) p.val) m .okay
      ∧ PairTaken s (setResp (gwEffect u (aSys + 0x038) p.val) m .okay) (aSys + 0x038) p.val) ∧
    ((pairCtlCheck s.sfp s p.val).isSome = true → ∃ t, live s (matWrite s m (aSys + 0x03C) (~~~p.val) false) = t
      ∧ PairFails s t 0 (aSys + 0x038) ∧ t.pair = s.pair ∧ PairFrame s t) := by
  refine ⟨fun passed => ?_, fun failed => ?_⟩
  · obtain ⟨u, -, -, -, pair, pos, -, act_, -, row, taken⟩ := portWrite_taken free may (by decide) found inTime addr fun _ => passed
    exact ⟨u, pair, by simp only [swapNamed, act, act_], pos, (live_on on _).trans row, taken⟩
  · obtain ⟨t, row, facts⟩ := portWrite_refused free may (by decide) found inTime addr rfl failed
    exact ⟨t, (live_on on _).trans row, facts⟩

theorem pairCtlSwap_row (code : bits p.val 2 0 = 1) : (swapCheck s s.sfp (swapNamed s) = none →
      ∃ t, exec (.pairCtlSwap m (~~~p.val)) s = .next t ∧ PairTaken s t (aSys + 0x038) p.val
        ∧ t.pair.swap = some (swapNamed s, false) ∧ t.pair = { s.pair with swap := t.pair.swap }) ∧
    ((swapCheck s s.sfp (swapNamed s)).isSome = true → ∃ t, exec (.pairCtlSwap m (~~~p.val)) s = .next t
      ∧ PairFails s t 0 (aSys + 0x038) ∧ t.pair = s.pair ∧ PairFrame s t) := by
  have check : pairCtlCheck s.sfp s p.val = swapCheck s s.sfp (swapNamed s) := by
    simp [pairCtlCheck, code]
  obtain ⟨pass, fail⟩ := pairCtl_rows on free may found inTime addr
  rw [check] at pass fail
  refine ⟨fun passed => ?_, fun failed => ?_⟩
  · obtain ⟨u, pair, named, -, row, taken⟩ := pass passed
    have effect : gwEffect u (aSys + 0x038) p.val = swapRecord u (swapNamed u) := by
      show (if bits p.val 2 0 = 1 then swapRecord u (swapNamed u) else _) = _
      exact if_pos code
    have set : (setResp (gwEffect u (aSys + 0x038) p.val) m .okay).pair = { s.pair with swap := some (swapNamed s, false) } := by
      rw [effect, swapRecord, named]
      exact (setSwap_pair u _ m).trans (by rw [pair])
    exact ⟨_, congrArg Host.Outcome.next row, taken, by rw [set], by rw [set]⟩
  · obtain ⟨t, row, facts⟩ := fail failed
    exact ⟨t, congrArg Host.Outcome.next row, facts⟩

theorem pairCtlCancel_row (code : bits p.val 2 0 = 2) : (cancelCheck s s.sfp (swapNamed s) = none →
      ∃ t, exec (.pairCtlCancel m (~~~p.val)) s = .next t ∧ PairTaken s t (aSys + 0x038) p.val
        ∧ t.pair.swap = none ∧ t.pair = { s.pair with swap := none }) ∧
    ((cancelCheck s s.sfp (swapNamed s)).isSome = true → ∃ t, exec (.pairCtlCancel m (~~~p.val)) s = .next t
      ∧ PairFails s t 0 (aSys + 0x038) ∧ t.pair = s.pair ∧ PairFrame s t) := by
  have check : pairCtlCheck s.sfp s p.val = cancelCheck s s.sfp (swapNamed s) := by
    simp [pairCtlCheck, code]
  obtain ⟨pass, fail⟩ := pairCtl_rows on free may found inTime addr
  rw [check] at pass fail
  refine ⟨fun passed => ?_, fun failed => ?_⟩
  · obtain ⟨u, pair, -, -, row, taken⟩ := pass passed
    have effect : gwEffect u (aSys + 0x038) p.val = swapWithdraw u := by
      show (if bits p.val 2 0 = 1 then _ else if bits p.val 2 0 = 2 then swapWithdraw u else _) = _
      rw [code]
      rfl
    have set : (setResp (gwEffect u (aSys + 0x038) p.val) m .okay).pair = { s.pair with swap := none } := by
      rw [effect, swapWithdraw]
      exact (setSwap_pair u _ m).trans (by rw [pair])
    exact ⟨_, congrArg Host.Outcome.next row, taken, by rw [set], by rw [set]⟩
  · obtain ⟨t, row, facts⟩ := fail failed
    exact ⟨t, congrArg Host.Outcome.next row, facts⟩

theorem pairCtlForce_row (code : bits p.val 2 0 = 4) : (forceCheck s true = none →
      ∃ t, exec (.pairCtlForceActive m (~~~p.val)) s = .next t ∧ PairTaken s t (aSys + 0x038) p.val
        ∧ t.pair.force = some (nextFrame s.sfp) ∧ t.pair = { s.pair with force := t.pair.force }) ∧
    ((forceCheck s true).isSome = true → ∃ t, exec (.pairCtlForceActive m (~~~p.val)) s = .next t
      ∧ PairFails s t 0 (aSys + 0x038) ∧ t.pair = s.pair ∧ PairFrame s t) := by
  have check : pairCtlCheck s.sfp s p.val = forceCheck s true := by
    simp [pairCtlCheck, code]
  obtain ⟨pass, fail⟩ := pairCtl_rows on free may found inTime addr
  rw [check] at pass fail
  refine ⟨fun passed => ?_, fun failed => ?_⟩
  · obtain ⟨u, pair, -, pos, row, taken⟩ := pass passed
    have effect : gwEffect u (aSys + 0x038) p.val = forceRecord u := by
      show (if bits p.val 2 0 = 1 then _ else if bits p.val 2 0 = 2 then _ else if bits p.val 2 0 = 4 then forceRecord u else _) = _
      rw [code]
      rfl
    have set : (setResp (gwEffect u (aSys + 0x038) p.val) m .okay).pair = { s.pair with force := some (nextFrame s.sfp) } := by
      rw [effect, ← pair, ← pos]
      rfl
    exact ⟨_, congrArg Host.Outcome.next row, taken, by rw [set], by rw [set]⟩
  · obtain ⟨t, row, facts⟩ := fail failed
    exact ⟨t, congrArg Host.Outcome.next row, facts⟩
end

/-- The row of a second write that is no complement. -/
theorem wrong_row {s : State} {m : Master} {a : Nat} {p : GuardPair} {c : Word} {i : Instr} (on : powered s = true) (free : MatFree s)
    (may : mayWrite m 5 = true) (mem : a ∈ guarded) (found : tfind s.regs.pairs 0 = some p)
    (inTime : sfpDist p.at_ s.sfp ≤ 100000) (addr : p.addr = a) (wrong : c ≠ ~~~p.val)
    (row : exec i s = .next (live s (matWrite s m (a + 4) c false))) :
    ∃ t, exec i s = .next t ∧ PairFails s t 3 a ∧ Counted s t 1 2 ∧ PairFrame s t := by
  obtain ⟨t, performed, facts⟩ := portWrite_wrong free may mem found inTime addr wrong
  exact ⟨t, row.trans (congrArg Host.Outcome.next ((live_on on _).trans performed)), facts⟩

/-- Settles O43: each write is its row of the bridge, and each value its effect. -/
theorem guardedRegisters : Obligations.GuardedRegisters := by
  unfold Obligations.GuardedRegisters
  intro m a v p s on free may
  refine ⟨fun mem => ⟨fun none_ => ?_, fun found inTime => ?_⟩, fun b mem second none_ => ?_,
    fun mem addr found late => guardTimeout_row on mem addr found late, ?_, ?_, ?_, ?_, ?_, ?_⟩
  · obtain ⟨t, row, facts⟩ := firstWrite_opens free may mem none_ v
    exact ⟨t, congrArg Host.Outcome.next ((live_on on _).trans row), facts⟩
  · obtain ⟨t, row, facts⟩ := firstWrite_replaces free may mem found inTime v
    exact ⟨t, congrArg Host.Outcome.next ((live_on on _).trans row), facts⟩
  · obtain ⟨t, row, facts⟩ := portWrite_orphan free may mem none_ v
    rw [← second] at row
    exact ⟨t, congrArg Host.Outcome.next ((live_on on _).trans row), facts⟩
  · rintro ⟨found, addr, rfl, inTime⟩ -
    exact ⟨remap_row on free may found inTime addr, fun wrong => wrong_row on free may (by decide) found inTime addr wrong rfl⟩
  · rintro ⟨found, addr, rfl, inTime⟩ -
    exact ⟨seqRst_row on free may found inTime addr, fun wrong => wrong_row on free may (by decide) found inTime addr wrong rfl⟩
  · rintro ⟨found, addr, rfl, inTime⟩ -
    exact ⟨flashWe_row on free may found inTime addr, fun wrong => wrong_row on free may (by decide) found inTime addr wrong rfl⟩
  · rintro ⟨found, addr, rfl, inTime⟩ -
    exact ⟨keyWe_row on free may found inTime addr, fun wrong => wrong_row on free may (by decide) found inTime addr wrong rfl⟩
  · rintro ⟨found, addr, rfl, inTime⟩ -
    exact ⟨bscanUnlock_row on free may found inTime addr, fun wrong => wrong_row on free may (by decide) found inTime addr wrong rfl⟩
  · rintro ⟨found, addr, rfl, inTime⟩ -
    exact ⟨fun code => pairCtlSwap_row on free may found inTime addr code, fun code => pairCtlCancel_row on free may found inTime addr code,
      fun code => pairCtlForce_row on free may found inTime addr code⟩

/-! Writes of fast registers by kind (R372, R374, R375, R378). -/

theorem kindAct_of_domOf {b d : Nat} (dom : domOf b = some d) : kindAct b = .rs d (kindMask (kindAct b)) := by
  unfold domOf at dom
  split at dom
  · next kind => rw [kind, Option.some.inj dom, kindMask]
  · cases dom

/-- The staged address of a register. -/
theorem stagedOf_off {b d : Nat} (dom : domOf b = some d) : stagedOf (b + stagedOff) = some b := by
  unfold stagedOf
  rw [if_pos (Nat.le_add_left _ _), Nat.add_sub_cancel, kindAct_of_domOf dom]

theorem kindAct_beyond {b : Nat} (above : aMgmt + 0x2000 ≤ b) (fast : b < 0x50000000) : kindAct b = .none := by
  grind only [kindAct, aSys, aPorts, aCore, aProt, aCommit, aSage, aMgmt, aThy, aSerdes, aPower, aPins, aOcxo]

theorem targetOf_eq_fast {a : Nat} (low : 0x40000000 ≤ a) (high : a < 0x50000000) : targetOf a = some 5 := by
  grind [targetOf]

/-- The staged views of the fast registers lie in the fast window too. -/
theorem targetOf_off {b d : Nat} (dom : domOf b = some d) (target : targetOf b = some 5) : targetOf (b + stagedOff) = some 5 := by
  obtain ⟨low, high⟩ := targetOf_fast target
  have inBlock : b < aMgmt + 0x2000 := by
    by_contra above
    rw [domOf, kindAct_beyond (by omega) high] at dom
    cases dom
  exact targetOf_eq_fast (by omega) (by simp only [aMgmt, stagedOff] at *; omega)

theorem guardBlock_off {b : Nat} (low : 0x40000000 ≤ b) (high : b < 0x50000000) (none_ : guardBlock b = none) :
    guardBlock (b + stagedOff) = none := by
  simp only [guardBlock, aSys, aPower, stagedOff] at none_ ⊢
  grind

theorem interleaveAt_free {a : Nat} (none_ : guardBlock a = none) (s : State) : interleaveAt s a = s := by
  rw [interleaveAt, none_]

/-- The write of a staged register, through either of its addresses. -/
theorem fastWrite_staged {s : State} {m a b d : Nat} {v : Word} (dom : domOf b = some d) (guard : guardBlock a = none)
    (at_ : stagedOf a = some b ∨ a = b ∧ stagedOf b = none) : fastWrite s m a v =
      if frozenNow s d then slvErr (frozenWrite s) m else setResp (stageWord s b (kindMask (kindAct b)) v) m .okay := by
  have kind := kindAct_of_domOf dom
  generalize kindMask (kindAct b) = mask at kind
  unfold fastWrite
  rcases at_ with off | ⟨rfl, own⟩
  · rw [off]
    dsimp only
    rw [kind]
    dsimp only
    rw [interleaveAt_free guard]
  · rw [own]
    dsimp only
    rw [kind]
    dsimp only
    rw [interleaveAt_free guard]

section
variable {s : State} {m : Master} {a : Word} {v : Word} (on : powered s = true) (free : MatFree s) (may : mayWrite m 5 = true)
include on free may

/-- The row of a fast write that no mirror record holds. -/
theorem registerWrite_row (target : targetOf a.toNat = some 5) (held : (mirHeld s && mirWrites s a.toNat) = false) :
    exec (.registerWrite m a v) s = .next (fastWrite (writing s 5 m a.toNat v) m a.toNat v) :=
  congrArg Host.Outcome.next ((live_on on _).trans (fast_row free may target held v))

variable {b d : Nat} (space : mirHeld s = false) (target : targetOf b = some 5) (dom : domOf b = some d) (guard : guardBlock b = none)
  (own : stagedOf b = none) (at_ : a.toNat = b ∨ a.toNat = b + stagedOff)
include space target dom guard own at_

theorem stagedWrite_row : exec (.registerWrite m a v) s = .next (if frozenNow s d then
      slvErr (frozenWrite (writing s 5 m a.toNat v)) m
    else setResp (stageWord (writing s 5 m a.toNat v) b (kindMask (kindAct b)) v) m .okay) := by
  have held : (mirHeld s && mirWrites s a.toNat) = false := by rw [space, Bool.false_and]
  obtain ⟨low, high⟩ := targetOf_fast target
  rcases at_ with same | off
  · rw [registerWrite_row on free may (by rw [same, target]) held,
      fastWrite_staged dom (by rw [same, guard]) (.inr ⟨same, own⟩)]
    rfl
  · rw [registerWrite_row on free may (by rw [off, targetOf_off dom target]) held,
      fastWrite_staged dom (by rw [off, guardBlock_off low high guard]) (.inl (by rw [off, stagedOf_off dom]))]
    rfl
end

/-! What each kind of register makes of a write. -/

theorem stgPut_frame (s : State) (b : Nat) (w : Word) : stgPut s b w =
    { s with mir := (stgPut s b w).mir, regs := { s.regs with stg := (stgPut s b w).regs.stg } } := by
  have only : Only [.mir, .stg] s (stgPut s b w) := fun f out => by simp at out; simp [out]
  generalize stgPut s b w = t at only ⊢
  exact only.frame

/-- A word of a staged view that is no half of a wide value. -/
theorem stageWord_plain {b : Nat} (hi : isWideHi b = false) (lo : isWideLo b = false) (s : State) (mask : Nat) (v : Word) :
    stageWord s b mask v = stgPut s b (v &&& word mask) := by
  unfold stageWord
  rw [if_neg (by rw [hi]; decide), if_neg (by rw [lo]; decide)]

theorem respOf_setResp (s : State) (m : Nat) (r : Resp) : respOf (setResp s m r) m = r := tget_tput_same _ _ _ _

theorem frozenWrite_facts (s : State) (m : Master) : ∃ sage, slvErr (frozenWrite s) m = { s with
      com := { s.com with frozenWr := true }, sage := sage
      regs := { s.regs with resp := tput .okay s.regs.resp m .slverr } } ∧ Counted s (slvErr (frozenWrite s) m) 3 4 ∧
    respOf (slvErr (frozenWrite s) m) m = .slverr := by
  refine ⟨_, rfl, ?_, respOf_setResp _ _ _⟩
  show ctrVal (count (frozenWrite s) 1 (24 + m.val) 1) 3 4 = _
  rw [ctrVal_count_ne _ _ (by omega)]
  exact counted_count (onCom s (fun c => { c with frozenWr := true })) 3 4

/-- A sticky register of the core or of protection. -/
theorem clearSticky_plain {b : Nat} (mem : b ∈ [hCore, hProt]) (s : State) (w : Word) :
    clearSticky s b w = onRegs s (clrHistR b w) := by
  simp only [List.mem_cons, List.not_mem_nil, or_false] at mem
  rcases mem with rfl | rfl <;> rfl

theorem w1c_kinds {b : Nat} (mem : b ∈ [hCore, hProt]) : targetOf b = some 5 ∧ stagedOf b = none ∧ guardBlock b = none ∧
    (∃ w mask, kindAct b = .w1c w mask ∧ ∀ i : Fin 4, bit (word w) i = true) ∧ ∀ s, mirWrites s b = false := by
  simp only [List.mem_cons, List.not_mem_nil, or_false] at mem
  rcases mem with rfl | rfl <;> exact ⟨rfl, rfl, rfl, ⟨_, _, rfl, by decide⟩, fun _ => rfl⟩

/-- The wide staged registers of Sage: the high word and the low word. -/
theorem wide_kinds {b : Nat} (mem : b ∈ [aSage + 0x408, aSage + 0x424]) :
    (targetOf b = some 5 ∧ domOf b = some 5 ∧ guardBlock b = none ∧ stagedOf b = none ∧ isWideHi b = true ∧ kindMask (kindAct b) = 0xFFFF) ∧
    (targetOf (b + 4) = some 5 ∧ domOf (b + 4) = some 5 ∧ guardBlock (b + 4) = none ∧ stagedOf (b + 4) = none
      ∧ isWideHi (b + 4) = false ∧ isWideLo (b + 4) = true ∧ kindMask (kindAct (b + 4)) = m32) := by
  simp only [List.mem_cons, List.not_mem_nil, or_false] at mem
  rcases mem with rfl | rfl <;> decide

theorem and_m32 (v : Word) : v &&& word m32 = v := by
  have all : word m32 = BitVec.allOnes 32 := by decide
  rw [all, BitVec.and_allOnes]

section
variable {s : State} {m : Master} {a : Word} {v : Word} {b : Nat} (on : powered s = true) (free : MatFree s) (may : mayWrite m 5 = true)
include on free may

theorem w1c_row (mem : b ∈ [hCore, hProt]) (at_ : a.toNat = b) : ∃ t, exec (.registerWrite m a v) s = .next t
    ∧ (∀ i : Fin 4, bit (hist t b) i = (bit (hist s b) i && !bit v i))
    ∧ t = { s with mem := { s.mem with granted := (tset s.mem.granted (5 * 8 + qosOf s m) m.val) }
                   regs := { s.regs with hist := t.regs.hist, resp := t.regs.resp } } := by
  obtain ⟨target, own, guard, ⟨w, mask, kind, set⟩, mirrored⟩ := w1c_kinds mem
  have row := registerWrite_row (v := v) on free may (by rw [at_, target]) (by rw [at_, mirrored, Bool.and_false])
  rw [fastWrite, at_, own] at row
  dsimp only at row
  rw [kind] at row
  dsimp only at row
  rw [interleaveAt_free guard, clearSticky_plain mem] at row
  refine ⟨_, row, fun i => ?_, rfl⟩
  show bit (tget 0 (tput 0 s.regs.hist b (hist s b &&& ~~~(v &&& word w))) b) i = _
  have here := set i
  have small : i.val < 32 := by omega
  simp only [bit] at here
  simp only [bit, tget_tput_same, BitVec.getLsbD_and, BitVec.getLsbD_not, here, small, decide_true, Bool.true_and, Bool.and_true]

variable (space : mirHeld s = false)
include space

theorem wideHi_row (mem : b ∈ [aSage + 0x408, aSage + 0x424]) (at_ : a.toNat = b) (thawed : frozenNow s 5 = false) :
    ∃ t, exec (.registerWrite m a v) s = .next t ∧ tget 0 t.regs.wide b = v &&& 0xFFFF#32
      ∧ t = { s with mem := { s.mem with granted := (tset s.mem.granted (5 * 8 + qosOf s m) m.val) }
                     regs := { s.regs with wide := t.regs.wide, resp := t.regs.resp } } := by
  obtain ⟨⟨target, dom, guard, own, hi, mask⟩, -⟩ := wide_kinds mem
  have row := stagedWrite_row (v := v) on free may space target dom guard own (.inl at_)
  rw [if_neg (by rw [thawed]; decide), stageWord, if_pos hi, mask] at row
  exact ⟨_, row, tget_tput_same _ _ _ _, rfl⟩

theorem wideLo_row (mem : b ∈ [aSage + 0x408, aSage + 0x424]) (at_ : a.toNat = b + 4) (thawed : frozenNow s 5 = false) :
    ∃ t, exec (.registerWrite m a v) s = .next t ∧ stgv t b = tget 0 s.regs.wide b ∧ stgv t (b + 4) = v
      ∧ t = { s with mem := { s.mem with granted := (tset s.mem.granted (5 * 8 + qosOf s m) m.val) }, mir := t.mir
                     regs := { s.regs with stg := t.regs.stg, resp := t.regs.resp } } := by
  obtain ⟨-, target, dom, guard, own, hi, lo, mask⟩ := wide_kinds mem
  have row := stagedWrite_row (v := v) on free may space target dom guard own (.inl at_)
  rw [if_neg (by rw [thawed]; decide), stageWord, if_neg (by rw [hi]; decide), if_pos lo, mask, and_m32, Nat.add_sub_cancel] at row
  set u := writing s 5 m a.toNat v
  have stored : ∀ x, stgv (stgPut (stgPut u b (tget 0 u.regs.wide b)) (b + 4) v) x =
      if b + 4 = x then v else if b = x then tget 0 u.regs.wide b else stgv u x := fun x => by rw [stg_stgPut, stg_stgPut]
  refine ⟨_, row, ?_, ?_, ?_⟩
  · exact (stored b).trans (by simp; rfl)
  · exact (stored (b + 4)).trans (if_pos rfl)
  · rw [stgPut_frame (stgPut u b _), stgPut_frame u]
    rfl

variable {d : Nat} (target : targetOf b = some 5) (dom : domOf b = some d) (guard : guardBlock b = none)
  (hi : isWideHi b = false) (lo : isWideLo b = false) (own : stagedOf b = none) (at_ : a.toNat = b ∨ a.toNat = b + stagedOff)
include target dom guard own at_

theorem staged_row (hi : isWideHi b = false) (lo : isWideLo b = false) (thawed : frozenNow s d = false) :
    ∃ t, exec (.registerWrite m a v) s = .next t ∧ stgv t b = v &&& word (kindMask (kindAct b)) ∧ actv t b = actv s b
      ∧ respOf t m = .okay
      ∧ t = { s with mem := { s.mem with granted := (tset s.mem.granted (5 * 8 + qosOf s m) m.val) }, mir := t.mir
                     regs := { s.regs with stg := t.regs.stg, resp := t.regs.resp } } := by
  have row := stagedWrite_row (v := v) on free may space target dom guard own at_
  rw [if_neg (by rw [thawed]; decide), stageWord_plain hi lo] at row
  set u := writing s 5 m a.toNat v
  have stored : stgv (stgPut u b (v &&& word (kindMask (kindAct b)))) b = v &&& word (kindMask (kindAct b)) := by
    rw [stg_stgPut, if_pos rfl]
  refine ⟨_, row, stored, ?_, respOf_setResp _ _ _, ?_⟩
  · rw [stgPut_frame u]
    rfl
  · rw [stgPut_frame u]
    rfl

theorem frozen_row (frozen : frozenNow s d = true) : ∃ t, exec (.registerWrite m a v) s = .next t ∧ respOf t m = .slverr
    ∧ t.com.frozenWr = true ∧ Counted s t 3 4
    ∧ t = { s with mem := { s.mem with granted := (tset s.mem.granted (5 * 8 + qosOf s m) m.val) }
                   com := { s.com with frozenWr := true }, sage := t.sage, regs := { s.regs with resp := t.regs.resp } } := by
  have row := stagedWrite_row (v := v) on free may space target dom guard own at_
  rw [if_pos frozen] at row
  obtain ⟨sage, eq, counted, resp⟩ := frozenWrite_facts (writing s 5 m a.toNat v) m
  rw [eq] at row counted resp
  exact ⟨_, row, resp, rfl, counted, rfl⟩
end

section
variable {s : State} {m : Master} {a : Word} {v : Word} (on : powered s = true)
include on

theorem decErr_row (free : MatFree s) (path : (targetOf a.toNat).all (fun x => !mayWrite m x) = true) :
    ∃ t, exec (.registerWrite m a v) s = .next t ∧ respOf t m = .decerr ∧ Counted s t 1 (16 + m)
      ∧ t = { s with sage := t.sage, regs := { s.regs with resp := t.regs.resp } } :=
  ⟨_, congrArg Host.Outcome.next ((live_on on _).trans (matWrite_refused free path)), respOf_setResp _ _ _, counted_count s 1 (16 + m), rfl⟩

theorem noRegister_row (free : MatFree s) (may : mayWrite m 5 = true) (target : targetOf a.toNat = some 5)
    (guard : guardBlock a.toNat = none) (kind : kindAct a.toNat = .none) (own : stagedOf a.toNat = none) :
    ∃ t, exec (.registerWrite m a v) s = .next t ∧ respOf t m = .okay
      ∧ t = { s with mem := { s.mem with granted := (tset s.mem.granted (5 * 8 + qosOf s m) m.val) }
                     regs := { s.regs with resp := t.regs.resp } } := by
  have mirrored : mirWrites s a.toNat = false := by
    obtain ⟨low, high⟩ := targetOf_fast target
    unfold mirWrites
    rw [if_neg (by omega), own, Option.getD_none, kind]
  have row := registerWrite_row (v := v) on free may target (by rw [mirrored, Bool.and_false])
  rw [fastWrite, own] at row
  dsimp only at row
  rw [kind] at row
  dsimp only at row
  rw [interleaveAt_free guard] at row
  exact ⟨_, row, respOf_setResp _ _ _, rfl⟩

/-- The event rate of the management block: a setting out of range is stored as the nearest in range (R404). -/
theorem clamped_row (free : MatFree s) (may : mayWrite m 5 = true) (at_ : a.toNat = aMgmt + 0x010) :
    ∃ t, exec (.registerWrite m a v) s = .next t ∧ (actv t (aMgmt + 0x010)).toNat = min 2 (v.toNat % 4)
      ∧ t = { s with mem := { s.mem with granted := (tset s.mem.granted (5 * 8 + qosOf s m) m.val) }
                     regs := { s.regs with act := t.regs.act, resp := t.regs.resp } } := by
  have row := registerWrite_row (v := v) on free may (by rw [at_]; rfl)
    (by rw [at_, show mirWrites s (aMgmt + 0x010) = false from rfl, Bool.and_false])
  have write : fastWrite (writing s 5 m a.toNat v) m a.toNat v = setResp (onRegs (writing s 5 m a.toNat v)
      (setAct (aMgmt + 0x010) (word (clampNat 0 2 (v &&& word 3).toNat)))) m .okay := by
    rw [at_]
    rfl
  rw [write] at row
  refine ⟨_, row, ?_, rfl⟩
  show (tget _ (tput _ s.regs.act _ _) _).toNat = _
  rw [tget_tput_same]
  have small : (v &&& word 3).toNat = v.toNat % 4 := by
    rw [BitVec.toNat_and]
    exact Nat.and_two_pow_sub_one_eq_mod v.toNat 2
  rw [small, word, BitVec.toNat_ofNat, clampNat]
  split_ifs <;> omega

theorem heldWrite_row (free : MatFree s) (may : mayWrite m 5 = true) (held : mirHeld s = true) (target : targetOf a.toNat = some 5)
    (mirrored : mirWrites s a.toNat = true) : exec (.registerWrite m a v) s = .next { s with mem := { s.mem with
      granted := (tset s.mem.granted (5 * 8 + qosOf s m) m.val)
      busy := [(5, { m := m.val, addr := a.toNat, wr := some v })] } } :=
  congrArg Host.Outcome.next ((live_on on _).trans (matWrite_held free target may (reqWaits_fast (slowBlockOf_fast target))
    (by rw [held, mirrored]; rfl)))

theorem waitingWrite_row {r : MatReq} (busy : s.mem.busy = [(5, r)]) (wait : s.mem.wait = []) (wr : r.wr.isSome = true)
    (held : mirHeld s = true) (mirrored : mirWrites s r.addr = true) (other : r.m ≠ m.val) (may : mayWrite m 5 = true)
    (target : targetOf a.toNat = some 5) : exec (.registerWrite m a v) s =
      .next { s with mem := { s.mem with wait := [(5, { m := m.val, addr := a.toNat, wr := some v })] } } := by
  have stays : matRun s = s := by
    rw [matRun, busy, wait]
    show matServe s 5 = s
    rw [matServe, busy, tfind_one]
    exact if_pos (by rw [reqHeld, wr, held, mirrored]; rfl)
  have issue : matWrite s m a.toNat v false =
      { s with mem := { s.mem with wait := s.mem.wait ++ [(5, { m := m.val, addr := a.toNat, wr := some v })] } } := by
    unfold matWrite matIssue
    rw [stays, target]
    simp [may, outstanding, busy, wait, other, tfind_one, onMem]
  rw [wait] at issue
  exact congrArg Host.Outcome.next ((live_on on _).trans issue)
end

/-- Settles O40: each kind of register has its row. -/
theorem registerWrites : Obligations.RegisterWrites := by
  unfold Obligations.RegisterWrites
  refine fun m a b v r0 s on => ⟨fun free space may target dom guard hi lo own at_ => ⟨?_, ?_⟩,
    fun free may mem at_ => w1c_row on free may mem at_, fun free space may mem => ⟨?_, ?_⟩, fun free may at_ => clamped_row on free may at_,
    fun free may target guard _ kind own => noRegister_row on free may target guard kind own, fun free path => decErr_row on free path,
    fun free held may target mirrored => heldWrite_row on free may held target mirrored,
    fun busy wait wr held mirrored other may target => waitingWrite_row on busy wait wr held mirrored other may target⟩
  · exact fun thawed => staged_row on free may space target dom guard own at_ hi lo thawed
  · exact fun frozen => frozen_row on free may space target dom guard own at_ frozen
  · exact fun at_ thawed => wideHi_row on free may space mem at_ thawed
  · exact fun at_ thawed => wideLo_row on free may space mem at_ thawed

end Sys2Proof.Machine
end

section
/-! The host port of the connection map (O41). -/

namespace Sys2Proof.Machine

open Sys2Proof

/-! The host port of the connection map, and the capture of the position (R84, R162 to R165, Table 07-3). -/

/-- An entry's word in the window: its offset there, its bank and its place in the bank. -/
structure EntryWord (a : Nat) (b : Bool) (r : Nat) : Prop where
  offset : ∃ o, a = 0x20000000 + o ∧ o < 0x40000 ∧ decide (0x20000 ≤ o) = b ∧ o % 0x20000 = r
  inBank : r < 0x14000

theorem entryWord {a : Nat} {b : Bool} (bank : b = decide (0x20020000 ≤ a)) (low : (if b then 0x20020000 else 0x20000000) ≤ a)
    (high : a < (if b then 0x20020000 else 0x20000000) + 0x14000) : EntryWord a b (a % 0x20000) := by
  cases b
  · simp only [Bool.false_eq_true, if_false] at low high
    exact ⟨⟨a - 0x20000000, by omega, by omega, decide_eq_false (by omega), by omega⟩, by omega⟩
  · simp only [if_true] at low high
    exact ⟨⟨a - 0x20000000, by omega, by omega, decide_eq_true (by omega), by omega⟩, by omega⟩

theorem EntryWord.target {a r : Nat} {b : Bool} (at_ : EntryWord a b r) : targetOf a = some 3 := by
  obtain ⟨⟨o, rfl, inside, -⟩, -⟩ := at_
  grind [targetOf]

theorem EntryWord.fast {a r : Nat} {b : Bool} (at_ : EntryWord a b r) : slowBlockOf a = none := by
  obtain ⟨⟨o, rfl, inside, -⟩, -⟩ := at_
  exact if_pos (.inl (by omega))

/-- The low word follows the high word. -/
theorem EntryWord.next {a r : Nat} {b : Bool} (at_ : EntryWord a b r) (aligned : r % 8 = 0) : EntryWord (a + 4) b (r + 4) := by
  obtain ⟨⟨o, rfl, inside, side, rfl⟩, inBank⟩ := at_
  exact ⟨⟨o + 4, rfl, by omega, (decide_eq_decide.mpr (by omega)).trans side, by omega⟩, by omega⟩

theorem readReg_capPos (s : State) : readReg s aCapPos = posW s.sfp &&& word 0x7FFFFF := rfl

/-- The position as SFP_CAP_POS holds it. -/
theorem capPos_toNat {s : State} (ok : sfpOk s.sfp = true) : (readReg s aCapPos).toNat = s.sfp.fi * 2 ^ 18 + s.sfp.bi := by
  simp only [sfpOk, Bool.and_eq_true, decide_eq_true_eq] at ok
  obtain ⟨⟨bi, fi⟩, -⟩ := ok
  simp only [frameBlocks, mfFrames] at bi fi
  rw [readReg_capPos, BitVec.toNat_and]
  refine (Nat.and_two_pow_sub_one_eq_mod _ 23).trans ?_
  simp only [posW, fld, word, BitVec.toNat_ofNat]
  omega

theorem hiW_toNat {n : Nat} (small : n < 2 ^ 64) : (hiW n).toNat = n / 2 ^ 32 := by
  rw [hiW, word, BitVec.toNat_ofNat]
  omega

theorem loW_toNat (n : Nat) : (loW n).toNat = n % 2 ^ 32 := by
  rw [loW, word, BitVec.toNat_ofNat, Nat.mod_mod]

theorem tget_dataOf (s : State) (m : Nat) (w : Word) : dataOf (setData s m w) m = w := tget_tput_same _ _ _ _

section
variable {s : State} {a r : Nat} {b : Bool} (at_ : EntryWord a b r)
include at_

theorem readMapWord_entry : readMapWord s a = halfW r (entryOf s.map b (r / 8)).toNat := by
  obtain ⟨⟨o, rfl, inside, side, offset⟩, slot⟩ := at_
  unfold readMapWord
  rw [Nat.add_sub_cancel_left]
  dsimp only
  rw [side, offset, if_neg (by omega), if_pos slot]

theorem mapWordRead_entry (high : r % 8 < 4) (sound : eccDouble s.map b (r / 8) = false) (n : Nat) : mapWordRead s n a = setData
    (onMap s (fun x => { x with latch := tset x.latch n (a / 4 * 4 + 4, readMapWord s (a + 4)) })) n (readMapWord s a) := by
  obtain ⟨⟨o, rfl, inside, side, offset⟩, slot⟩ := at_
  unfold mapWordRead
  rw [Nat.add_sub_cancel_left]
  dsimp only
  rw [side, offset, if_neg (by omega), if_neg (by omega), if_pos high, sound]
  rfl

theorem mapWordWrite_active (active : b = s.map.bActive) (n : Nat) (v : Word) (c : Bool) :
    mapWordWrite s n a v c = slvErr (cCore (sticky s hCore 4) 1) n := by
  obtain ⟨⟨o, rfl, inside, side, offset⟩, slot⟩ := at_
  unfold mapWordWrite
  rw [Nat.add_sub_cancel_left]
  dsimp only
  rw [side, offset, if_neg (by omega), if_pos active]

theorem mapWordWrite_frozen (staged : b ≠ s.map.bActive) (frozen : frozenNow s 0 = true) (n : Nat) (v : Word) (c : Bool) :
    mapWordWrite s n a v c = slvErr (frozenWrite s) n := by
  obtain ⟨⟨o, rfl, inside, side, offset⟩, slot⟩ := at_
  unfold mapWordWrite
  rw [Nat.add_sub_cancel_left]
  dsimp only
  rw [side, offset, if_neg (by omega), if_neg staged, if_pos frozen]

variable (staged : b ≠ s.map.bActive) (thawed : frozenNow s 0 = false)
include staged thawed

theorem mapWordWrite_high (high : r % 8 < 4) (n : Nat) (v : Word) (c : Bool) :
    mapWordWrite s n a v c = setResp (onMap s (fun x => { x with hold := v })) n .okay := by
  obtain ⟨⟨o, rfl, inside, side, offset⟩, slot⟩ := at_
  unfold mapWordWrite
  rw [Nat.add_sub_cancel_left]
  dsimp only
  rw [side, offset, if_neg (by omega), if_neg staged, if_neg (by rw [thawed]; decide), if_neg (by omega), if_pos high]

theorem mapWordWrite_low (low : 4 ≤ r % 8) (n : Nat) (v : Word) (c : Bool) : mapWordWrite s n a v c =
    setResp (hostStore s b (r / 8) (BitVec.ofNat 64 (s.map.hold.toNat * 2 ^ 32 + v.toNat)) c) n
      (if c && inPass s (r / 8) then .collision else .okay) := by
  obtain ⟨⟨o, rfl, inside, side, offset⟩, slot⟩ := at_
  unfold mapWordWrite
  rw [Nat.add_sub_cancel_left]
  dsimp only
  rw [side, offset, if_neg (by omega), if_neg staged, if_neg (by rw [thawed]; decide), if_neg (by omega), if_neg (by omega)]
end

section
variable {m : Master} {s : State} (on : powered s = true) (free : MatFree s)
include on free

theorem capPosRead_row (may : mayRead m 5 = true) (ok : sfpOk s.sfp = true) : ∃ t, exec (.sfpCapPosRead m) s = .next t
    ∧ (dataOf t m).toNat = s.sfp.fi * 2 ^ 18 + s.sfp.bi ∧ t.com.capMfc = s.sfp.mfc
    ∧ t = { s with mem := { s.mem with granted := tset s.mem.granted (5 * 8 + qosOf s m) m.val }
                   com := { s.com with capMfc := s.sfp.mfc }
                   regs := { s.regs with rdata := t.regs.rdata, resp := t.regs.resp } } := by
  have row : matIssue s { m := m.val, addr := aCapPos } = _ := matIssue_read free (t := 5) rfl may
  set u := granted s 5 { m := m.val, addr := aCapPos }
  have read : matRead u m aCapPos = setData (onCom u (fun c => { c with capMfc := u.sfp.mfc })) m (readReg u aCapPos) := by
    show (if !mayRead m 5 then _ else setData _ m (readReg u aCapPos)) = _
    rw [may]
    rfl
  rw [read] at row
  exact ⟨_, congrArg Host.Outcome.next ((live_on on _).trans row),
    (congrArg BitVec.toNat (tget_dataOf (onCom u (fun c => { c with capMfc := u.sfp.mfc })) m _)).trans (capPos_toNat (s := u) ok), rfl, rfl⟩

omit on free in
/-- The two words of an entry in its window (Table 07-3). -/
theorem readMapWord_halves {a r : Nat} {b : Bool} (at_ : EntryWord a b r) (aligned : r % 8 = 0) :
    readMapWord s a = hiW (entryOf s.map b (r / 8)).toNat ∧ readMapWord s (a + 4) = loW (entryOf s.map b (r / 8)).toNat := by
  constructor
  · rw [readMapWord_entry at_, halfW, if_pos (by omega)]
  · rw [readMapWord_entry (at_.next aligned), halfW, if_neg (by omega), show (r + 4) / 8 = r / 8 by omega]

variable {a : Word} {b : Bool} {r : Nat} (at_ : EntryWord a.toNat b r)
include at_

/-- A read of an entry's high word latches its low word (R162). -/
theorem highWordRead_row (may : mayRead m 3 = true) (aligned : r % 8 = 0) (place : a.toNat / 4 * 4 + 4 = a.toNat + 4)
    (sound : eccDouble s.map b (r / 8) = false) : ∃ t, exec (.mapHighWordRead m a) s = .next t
      ∧ (dataOf t m).toNat = (entryOf s.map b (r / 8)).toNat / 2 ^ 32
      ∧ (tfind t.map.latch m).map (fun l => (l.1, l.2.toNat)) = some (a.toNat + 4, (entryOf s.map b (r / 8)).toNat % 2 ^ 32)
      ∧ t = { s with mem := { s.mem with granted := tset s.mem.granted (3 * 8 + qosOf s m) m.val }
                     map := { s.map with latch := t.map.latch }
                     regs := { s.regs with rdata := t.regs.rdata, resp := t.regs.resp } } := by
  have row : matIssue s { m := m.val, addr := a.toNat } = _ := matIssue_read free at_.target may
  set u := granted s 3 { m := m.val, addr := a.toNat }
  have read : matRead u m a.toNat = mapWordRead u m a.toNat := by
    unfold matRead
    rw [at_.target]
    dsimp only
    exact (if_neg (by rw [may]; decide)).trans ((if_neg (by decide)).trans ((if_neg (by decide)).trans (if_pos rfl)))
  obtain ⟨hi, lo⟩ := readMapWord_halves (s := u) at_ aligned
  rw [read, mapWordRead_entry (s := u) at_ (by omega) sound, hi, lo, place] at row
  have entry := (entryOf s.map b (r / 8)).isLt
  refine ⟨_, congrArg Host.Outcome.next ((live_on on _).trans row), ?_, ?_, rfl⟩
  · rw [tget_dataOf]
    exact hiW_toNat entry
  · show (tfind (tset s.map.latch m _) m).map _ = _
    rw [tfind_tset_same]
    exact congrArg (fun n => some (a.toNat + 4, n)) (loW_toNat _)

/-! Writes of the window. -/

omit on free at_ in
theorem respOf_slvErr (s : State) (m : Nat) : respOf (slvErr s m) m = .slverr := respOf_setResp _ _ _

omit on in
theorem mapWrite_row (may : mayWrite m 3 = true) {c : Bool} (v : Word) (held : (mirHeld s && mirWrites s a.toNat) = false) :
    matWrite s m a.toNat v c = mapWordWrite (granted s 3 { m := m.val, addr := a.toNat, wr := some v, collide := c }) m a.toNat v c := by
  rw [matWrite_performed free at_.target may (reqWaits_fast at_.fast) held]
  unfold matDoWrite
  rw [at_.target]
  dsimp only
  exact (if_neg (by rw [may]; decide)).trans ((if_neg (by decide)).trans ((if_neg (by decide)).trans (if_pos rfl)))
end

/-- The entries after a store. -/
theorem entryOf_store (m : MapSt) (b c : Bool) (g x : Nat) (w : Entry) :
    entryOf (eccRewrite (setBank m b (tput 0 (bankOf m b) g w)) b g) c x = if c = b ∧ x = g then w else entryOf m c x := by
  have same : tget 0 (tput 0 (bankOf m b) g w) x = if x = g then w else entryOf m b x := by
    rw [tget_tput]
    rfl
  cases b <;> cases c
  · exact same.trans (by simp)
  · rfl
  · rfl
  · exact same.trans (by simp)

/-- What a store changes of the map. -/
theorem store_frame (m : MapSt) (b c : Bool) (g : Nat) (l : Tbl Entry) : eccRewrite (setBank m b l) c g = { m with
    a := (eccRewrite (setBank m b l) c g).a, b := (eccRewrite (setBank m b l) c g).b
    ecc := (eccRewrite (setBank m b l) c g).ecc, scrub := (eccRewrite (setBank m b l) c g).scrub } := by
  cases b <;> rfl

/-- The state of the map, of what a host store makes of a staged entry, and the rest. -/
theorem hostStore_free {s : State} {b : Bool} {g : Nat} {e : Entry} {c : Bool} (free : (c && inPass s g) = false) :
    (hostStore s b g e c).map = eccRewrite (setBank s.map b (tput 0 (bankOf s.map b) g (withSel s e))) b g ∧
      hostStore s b g e c = { s with map := (hostStore s b g e c).map, mir := (hostStore s b g e c).mir } := by
  let u := onMap s (fun m => eccRewrite (setBank m b (tput 0 (bankOf m b) g (withSel s e))) b g)
  have eq : hostStore s b g e c = mirror u (.mapStore (b == s.map.bActive) g (withSel s e)) := if_neg (by rw [free]; decide)
  have only : Only [.mir] u (hostStore s b g e c) := fun f out => by
    simp at out
    simp [eq, out]
  rw [eq] at only ⊢
  generalize mirror u (.mapStore (b == s.map.bActive) g (withSel s e)) = t at only ⊢
  have frame : t = { u with mir := t.mir } := only.frame
  have map : t.map = u.map := by rw [frame]
  refine ⟨map, frame.trans ?_⟩
  rw [map]
  rfl

/-- What a refused write of the active bank registers. -/
def activeRefused (s : State) (m : Nat) : State := slvErr (cCore (sticky s hCore 4) 1) m

theorem activeRefused_facts (s : State) (m : Master) :
    activeRefused s m = { s with
      sage := (activeRefused s m).sage, regs := { s.regs with hist := (activeRefused s m).regs.hist, resp := (activeRefused s m).regs.resp } } ∧
    Counted s (activeRefused s m) 4 1 ∧ bit (hist (activeRefused s m) hCore) 2 = true ∧ respOf (activeRefused s m) m = .slverr := by
  refine ⟨?_, ?_, ?_, respOf_slvErr _ _⟩
  · have only : Only [.sage, .hist, .resp] s (activeRefused s m) := fun f out => by simp at out; simp [activeRefused, out]
    generalize activeRefused s m = t at only ⊢
    exact only.frame
  · show ctrVal (count (cCore (sticky s hCore 4) 1) 1 (24 + m.val) 1) 4 1 = _
    rw [ctrVal_count_ne _ _ (by omega)]
    exact counted_count (sticky s hCore 4) 4 1
  · have kept : get .hist (activeRefused s m) = get .hist (sticky s hCore 4) := by simp [activeRefused]
    rw [hist_of_get kept]
    show bit (tget 0 (tput 0 s.regs.hist hCore _) hCore) 2 = true
    rw [tget_tput_same]
    simp [bit]

section
variable {m : Master} {s : State} {a : Word} {b : Bool} {r : Nat} (v : Word) (c : Bool) (free : MatFree s) (at_ : EntryWord a.toNat b r)
  (may : mayWrite m 3 = true) (held : mirHeld s = false)
include free at_ may held

theorem activeWrite_row (active : b = s.map.bActive) : ∃ t, matWrite s m a.toNat v c = t ∧ respOf t m = .slverr ∧ Counted s t 4 1
    ∧ bit (hist t hCore) 2 = true
    ∧ t = { s with mem := { s.mem with granted := tset s.mem.granted (3 * 8 + qosOf s m) m.val }, sage := t.sage
                   regs := { s.regs with hist := t.regs.hist, resp := t.regs.resp } } := by
  have row := mapWrite_row free at_ may (c := c) v (by rw [held, Bool.false_and])
  set u := granted s 3 { m := m.val, addr := a.toNat, wr := some v, collide := c }
  rw [mapWordWrite_active (s := u) at_ active] at row
  obtain ⟨eq, counted, set, resp⟩ := activeRefused_facts u m
  change _ = activeRefused u m at row
  generalize activeRefused u m = t at row eq counted set resp
  exact ⟨t, row, resp, counted, set, eq⟩

variable (staged : b ≠ s.map.bActive)
include staged

theorem frozenStore_row (frozen : frozenNow s 0 = true) : ∃ t, matWrite s m a.toNat v c = t ∧ respOf t m = .slverr ∧ t.map = s.map
    ∧ Counted s t 3 4 := by
  have row := mapWrite_row free at_ may (c := c) v (by rw [held, Bool.false_and])
  set u := granted s 3 { m := m.val, addr := a.toNat, wr := some v, collide := c } with u_eq
  rw [mapWordWrite_frozen (s := u) at_ staged frozen] at row
  obtain ⟨sage, eq, counted, resp⟩ := frozenWrite_facts u m
  exact ⟨_, row, resp, by rw [eq]; rfl, counted⟩

variable (thawed : frozenNow s 0 = false)
include thawed

theorem highWrite_row (high : r % 8 < 4) : ∃ t, matWrite s m a.toNat v c = t ∧ t.map.hold = v ∧ respOf t m = .okay
    ∧ t = { s with mem := { s.mem with granted := tset s.mem.granted (3 * 8 + qosOf s m) m.val }, map := { s.map with hold := v }
                   regs := { s.regs with resp := t.regs.resp } } := by
  have row := mapWrite_row free at_ may (c := c) v (by rw [held, Bool.false_and])
  rw [mapWordWrite_high (s := granted s 3 { m := m.val, addr := a.toNat, wr := some v, collide := c }) at_ staged thawed high] at row
  exact ⟨_, row, rfl, respOf_setResp _ _ _, rfl⟩

variable (low : 4 ≤ r % 8)
include low

theorem lowWrite_row (x : Nat) (clear : (c && inPass s (r / 8)) = false) : ∃ t, matWrite s m a.toNat v c = t ∧ respOf t m = .okay
    ∧ entryOf t.map b (r / 8) = withSel s (BitVec.ofNat 64 (s.map.hold.toNat * 2 ^ 32 + v.toNat))
    ∧ (x ≠ r / 8 → entryOf t.map b x = entryOf s.map b x) ∧ entryOf t.map (!b) x = entryOf s.map (!b) x
    ∧ t = { s with map := { s.map with a := t.map.a, b := t.map.b, ecc := t.map.ecc, scrub := t.map.scrub }
                   mem := { s.mem with granted := tset s.mem.granted (3 * 8 + qosOf s m) m.val }, mir := t.mir
                   regs := { s.regs with resp := t.regs.resp } } := by
  have row := mapWrite_row free at_ may (c := c) v (by rw [held, Bool.false_and])
  set u := granted s 3 { m := m.val, addr := a.toNat, wr := some v, collide := c }
  have hold : u.map.hold = s.map.hold := rfl
  have pass : (c && inPass u (r / 8)) = false := clear
  rw [mapWordWrite_low (s := u) at_ staged thawed low, if_neg (by rw [pass]; exact Bool.false_ne_true), hold] at row
  generalize BitVec.ofNat 64 (s.map.hold.toNat * 2 ^ 32 + v.toNat) = e at row ⊢
  obtain ⟨map, frame⟩ := hostStore_free (s := u) (b := b) (e := e) pass
  have sel : withSel u e = withSel s e := rfl
  have same : u.map = s.map := rfl
  rw [sel, same] at map
  generalize hostStore u b (r / 8) e c = w at row map frame
  have stored : ∀ c x, entryOf w.map c x = if c = b ∧ x = r / 8 then withSel s e else entryOf s.map c x := fun c x => by
    rw [map, entryOf_store]
  have kept : w.map = { s.map with a := w.map.a, b := w.map.b, ecc := w.map.ecc, scrub := w.map.scrub } := by
    rw [map]
    exact store_frame _ _ _ _ _
  refine ⟨_, row, respOf_setResp _ _ _, (stored _ _).trans (if_pos ⟨rfl, rfl⟩),
    fun other => (stored _ _).trans (if_neg fun both => other both.2),
    (stored _ _).trans (if_neg fun both => by cases b <;> cases both.1), ?_⟩
  rw [frame]
  exact congrArg (fun x => { s with
    map := x, mem := u.mem, mir := w.mir, regs := { s.regs with resp := tput .okay s.regs.resp m .okay } }) kept

theorem collision_row (met : (c && inPass s (r / 8)) = true) : ∃ t, matWrite s m a.toNat v c = t ∧ respOf t m = .collision
    ∧ Counted s t 4 0 ∧ bit (hist t hCore) 3 = true
    ∧ t = { s with mem := { s.mem with granted := tset s.mem.granted (3 * 8 + qosOf s m) m.val }, sage := t.sage
                   regs := { s.regs with hist := t.regs.hist, resp := t.regs.resp } } := by
  have row := mapWrite_row free at_ may (c := c) v (by rw [held, Bool.false_and])
  set u := granted s 3 { m := m.val, addr := a.toNat, wr := some v, collide := c } with u_eq
  have met' : (c && inPass u (r / 8)) = true := met
  rw [mapWordWrite_low (s := u) at_ staged thawed low, if_pos met', hostStore, if_pos met'] at row
  refine ⟨_, row, respOf_setResp _ _ _, counted_count (sticky u hCore 8) 4 0, ?_, rfl⟩
  show bit (tget 0 (tput 0 s.regs.hist hCore _) hCore) 3 = true
  rw [tget_tput_same]
  simp [bit]
end

/-- The write whose record finds no space is held by its bridge. -/
theorem heldStore_row {m : Master} {s : State} {a : Word} {b : Bool} {r : Nat} (v : Word) (c : Bool) (free : MatFree s)
    (at_ : EntryWord a.toNat b r) (may : mayWrite m 3 = true) (held : mirHeld s = true) (staged : b ≠ s.map.bActive) (low : 4 ≤ r % 8) :
    matWrite s m a.toNat v c = { s with mem := { s.mem with
      granted := tset s.mem.granted (3 * 8 + qosOf s m) m.val
      busy := [(3, { m := m.val, addr := a.toNat, wr := some v, collide := c })] } } := by
  refine matWrite_held free at_.target may (reqWaits_fast at_.fast) ?_
  obtain ⟨⟨o, eq, inside, side, offset⟩, inBank⟩ := at_
  have mirrored : mirWrites s (0x20000000 + o) = true := by
    have block : (0x20000000 + o) / 0x40000 = 0x800 := by omega
    have rest : (0x20000000 + o) % 0x20000 = r := by omega
    have bank : decide (0x20000 ≤ (0x20000000 + o) % 0x40000) = b := (decide_eq_decide.mpr (by omega)).trans side
    unfold mirWrites
    rw [if_pos block]
    dsimp only
    rw [rest, bank]
    simp [staged, low]
    omega
  rw [held, eq, mirrored]
  rfl

/-- Settles O41: each access of the host port is its row. -/
theorem mapPort : Obligations.MapPort := by
  unfold Obligations.MapPort
  intro m a v c x s on free b g e off gr
  refine ⟨fun may low high space => ⟨fun active => ⟨?_, ?_⟩, fun staged frozen => ?_, fun staged thawed => ⟨fun aligned => ?_,
    fun aligned => ⟨fun clear => ?_, fun met inPass_ => ?_⟩⟩⟩, fun may low high held staged aligned => ?_,
    fun may low high aligned sound => ?_, fun may ok => capPosRead_row on free may ok⟩
  · obtain ⟨t, row, facts⟩ := activeWrite_row v false free (entryWord rfl low high) may space active
    exact ⟨t, congrArg Host.Outcome.next ((live_on on _).trans row), facts⟩
  · obtain ⟨t, row, facts⟩ := activeWrite_row v c free (entryWord rfl low high) may space active
    exact ⟨t, congrArg Host.Outcome.next ((live_on on _).trans row), facts⟩
  · obtain ⟨t, row, facts⟩ := frozenStore_row v c free (entryWord rfl low high) may space staged frozen
    exact ⟨t, congrArg Host.Outcome.next ((live_on on _).trans row), facts⟩
  · obtain ⟨t, row, facts⟩ := highWrite_row v false free (entryWord rfl low high) may space staged thawed (by omega)
    exact ⟨t, congrArg Host.Outcome.next ((live_on on _).trans row), facts⟩
  · obtain ⟨t, row, facts⟩ := lowWrite_row v c free (entryWord rfl low high) may space staged thawed (by omega) x clear
    exact ⟨t, congrArg Host.Outcome.next ((live_on on _).trans row), facts⟩
  · obtain ⟨t, row, facts⟩ := collision_row v c free (entryWord rfl low high) may space staged thawed (by omega) (by rw [met, inPass_]; rfl)
    exact ⟨t, congrArg Host.Outcome.next ((live_on on _).trans row), facts⟩
  · exact congrArg Host.Outcome.next ((live_on on _).trans
      (heldStore_row v c free (entryWord rfl low high) may held staged (by omega)))
  · exact highWordRead_row on free (entryWord rfl low high) may (by omega) (by omega) sound

end Sys2Proof.Machine
end

section
/-! Slow registers, shared registers and arbitration (O42). -/

namespace Sys2Proof.Machine

open Sys2Proof

/-! Posted writes, BLK_STAT, MDIO, the management snapshot and arbitration (R337, R342, R353, R354, R376, R382, R383, R385). -/

/-! Registers of the slow blocks. -/

theorem slowBlockOf_range {a k : Nat} (block : slowBlockOf a = some k) : 0x50000000 ≤ a ∧ a < 0x50A00000 := by
  grind [slowBlockOf]

theorem targetOf_slow {a : Nat} (low : 0x50000000 ≤ a) (high : a < 0x50A00000) : targetOf a = some 6 := by
  grind [targetOf]

/-- No staged view lies at a register of a slow block. -/
theorem kindAct_below {a : Nat} (low : 0x50000000 ≤ a) (kind : kindAct a ≠ .none) : kindAct (a - stagedOff) = .none := by
  have inBlocks : a < 0x50000000 + 0x360 ∨ 0x50200000 ≤ a ∧ a < 0x50200000 + 0x2088 ∨ 0x50400000 ≤ a ∧ a < 0x50400000 + 0x38
      ∨ 0x50600000 ≤ a ∧ a < 0x50600000 + 0x60 ∨ 0x50800000 ≤ a ∧ a < 0x50800000 + 0x1C := by
    by_contra outside
    refine kind ?_
    grind only [kindAct, aSys, aPorts, aCore, aProt, aCommit, aSage, aMgmt, aThy, aSerdes, aPower, aPins, aOcxo]
  rw [stagedOff]
  generalize low_ : a - 0x00100000 = c
  have place : a = c + 0x00100000 := by omega
  subst place
  grind only [kindAct, aSys, aPorts, aCore, aProt, aCommit, aSage, aMgmt, aThy, aSerdes, aPower, aPins, aOcxo]

theorem stagedOf_slow {a d : Nat} (low : 0x50000000 ≤ a) (dom : domOf a = some d) : stagedOf a = none := by
  have kind : kindAct a ≠ .none := by
    rw [kindAct_of_domOf dom]
    exact fun h => RegKind.noConfusion h
  unfold stagedOf
  rw [if_pos (by rw [stagedOff]; omega), kindAct_below low kind]

/-- A write of a slow register makes no mirror record before it completes. -/
theorem mirWrites_slow {a : Nat} (low : 0x50000000 ≤ a) (s : State) : mirWrites s a = false := by
  have target : targetOf a ≠ some 5 := fun fast => by have := (targetOf_fast fast).2; omega
  unfold mirWrites
  rw [if_neg (by omega)]
  split
  · exact decide_eq_false target
  · rfl

theorem kpOf_of_kp {s t : State} (h : t.regs.kp = s.regs.kp) (a mask : Nat) : kpOf t a mask = kpOf s a mask := by
  rw [kpOf, kpOf, h]

/-! Posted writes. -/

/-- Without an open pair a write of any address leaves the guarded pairs. -/
theorem interleaveAt_none {s : State} (none_ : s.regs.pairs = []) (a : Nat) : interleaveAt s a = s := by
  unfold interleaveAt
  split
  · unfold interleave
    rw [pairTimeout_none (by rw [none_]; rfl)]
    dsimp only
    rw [none_]
    rfl
  · rfl

section
variable {s : State} {a k d : Nat} (none_ : s.regs.pairs = []) (block : slowBlockOf a = some k) (dom : domOf a = some d)
include none_ block dom

theorem slowWrite_posts (idle : slowBusy s k = false) (m : Nat) (v : Word) :
    slowWrite s m a v = setResp (post s k m a v) m .okay := by
  have kind := kindAct_of_domOf dom
  generalize kindMask (kindAct a) = mask at kind
  unfold slowWrite
  rw [block, Option.getD_some, kind]
  dsimp only
  rw [if_neg (fun h => RegKind.noConfusion h), if_neg (fun h => RegKind.noConfusion h.1), if_neg (by rw [idle]; decide),
    interleaveAt_none none_]

theorem slowWrite_dropped (busy : slowBusy s k = true) (m : Nat) (v : Word) :
    slowWrite s m a v = setResp (overrun s k) m .okay := by
  have kind := kindAct_of_domOf dom
  generalize kindMask (kindAct a) = mask at kind
  unfold slowWrite
  rw [block, Option.getD_some, kind]
  dsimp only
  rw [if_neg (fun h => RegKind.noConfusion h), if_neg (fun h => RegKind.noConfusion h.1), if_pos busy,
    if_neg (fun h => RegKind.noConfusion h)]
end

theorem overrun_facts (s : State) (k m : Nat) : ∃ sage, setResp (overrun s k) m .okay = { s with
      sage := sage, regs := { s.regs with
        blk := tput 0 s.regs.blk k (tget 0 s.regs.blk k ||| 1), resp := tput .okay s.regs.resp m .okay } } ∧
    Counted s { s with sage := sage } 1 3 :=
  ⟨_, rfl, counted_count (onRegs s (fun r => { r with blk := tput 0 r.blk k (tget 0 r.blk k ||| 1) })) 1 3⟩

section
variable {s : State} {m : Master} (on : powered s = true) (free : MatFree s) (may : mayWrite m 6 = true)
include on free may

theorem slow_row {a : Nat} {v : Word} (low : 0x50000000 ≤ a) (high : a < 0x50A00000)
    (ready : reqWaits s { m := m.val, addr := a, wr := some v, collide := false } = false) :
    live s (matWrite s m a v false) = slowWrite (writing s 6 m a v) m a v := by
  rw [live_on on, matWrite_performed free (targetOf_slow low high) may ready (by rw [mirWrites_slow low, Bool.and_false])]
  unfold matDoWrite
  rw [targetOf_slow low high]
  dsimp only
  exact (if_neg (by rw [may]; decide)).trans ((if_neg (by decide)).trans ((if_neg (by decide)).trans ((if_neg (by decide)).trans
    ((if_neg (by decide)).trans ((if_neg (by decide)).trans (if_pos rfl))))))

section
variable {a v : Word} {k d : Nat} (none_ : s.regs.pairs = []) (block : slowBlockOf a.toNat = some k) (dom : domOf a.toNat = some d)
include none_ block dom

theorem posted_row (idle : slowBusy s k = false) : ∃ t, exec (.postedWrite m a v) s = .next t
    ∧ tfind t.regs.posted k = some { addr := a.toNat, val := v, m := m } ∧ respOf t m = .okay
    ∧ t = { s with mem := { s.mem with granted := tset s.mem.granted (6 * 8 + qosOf s m) m.val }
                   regs := { s.regs with posted := t.regs.posted, resp := t.regs.resp } } := by
  obtain ⟨low, high⟩ := slowBlockOf_range block
  have row := slow_row (v := v) on free may low high (by simp [reqWaits, block, idle])
  rw [slowWrite_posts (s := writing s 6 m a.toNat v) none_ block dom idle] at row
  exact ⟨_, congrArg Host.Outcome.next row, tfind_tset_same _ _ _, respOf_setResp _ _ _, rfl⟩

theorem dropped_row (busy : slowBusy s k = true) (other : m ≠ 3) : ∃ t, exec (.postedWrite m a v) s = .next t
    ∧ Counted s t 1 3 ∧ bit (tget 0 t.regs.blk k) 0 = true
    ∧ t = { s with mem := { s.mem with granted := tset s.mem.granted (6 * 8 + qosOf s m) m.val }, sage := t.sage
                   regs := { s.regs with blk := t.regs.blk, resp := t.regs.resp } } := by
  obtain ⟨low, high⟩ := slowBlockOf_range block
  have row := slow_row (v := v) on free may low high (reqWaits_other fun h => other (Fin.ext h))
  rw [slowWrite_dropped (s := writing s 6 m a.toNat v) none_ block dom busy] at row
  obtain ⟨sage, eq, counted⟩ := overrun_facts (writing s 6 m a.toNat v) k m
  rw [eq] at row
  refine ⟨_, congrArg Host.Outcome.next row, counted, ?_, rfl⟩
  show bit (tget 0 (tput 0 s.regs.blk k _) k) 0 = true
  rw [tget_tput_same]
  simp [bit]

omit none_ in
/-- The processor's bus waits for BUSY (R385). -/
theorem waits_row (busy : slowBusy s k = true) (proc : m = 3) : exec (.postedWrite m a v) s =
    .next { s with mem := { s.mem with wait := [(6, { m := 3, addr := a.toNat, wr := some v })] } } := by
  subst proc
  obtain ⟨low, high⟩ := slowBlockOf_range block
  have kind := kindAct_of_domOf dom
  generalize kindMask (kindAct a.toNat) = mask at kind
  have waits : reqWaits s { m := 3, addr := a.toNat, wr := some v, collide := false } = true := by
    simp [reqWaits, block, busy, kind]
  have issue : matWrite s 3 a.toNat v false =
      { s with mem := { s.mem with wait := s.mem.wait ++ [(6, { m := 3, addr := a.toNat, wr := some v })] } } := by
    unfold matWrite matIssue
    rw [matRun_free free, targetOf_slow low high]
    simp [mayWrite, outstanding, free.1, free.2, waits, onMem]
  rw [free.2] at issue
  exact congrArg Host.Outcome.next ((live_on on _).trans issue)
end

/-! BLK_STAT. -/

theorem blkStat_row (none_ : s.regs.pairs = []) (sb : SlowBlock) (v : Word) : ∃ t, exec (.blkStatWrite m sb v) s = .next t
    ∧ bit (tget 0 t.regs.blk (sbIdx sb)) 0 = (bit (tget 0 s.regs.blk (sbIdx sb)) 0 && !bit v 1)
    ∧ bit (tget 0 t.regs.blk (sbIdx sb)) 1 = (bit (tget 0 s.regs.blk (sbIdx sb)) 1 && !bit v 2)
    ∧ t = { s with mem := { s.mem with granted := tset s.mem.granted (6 * 8 + qosOf s m) m.val }
                   regs := { s.regs with blk := t.regs.blk, resp := t.regs.resp } } := by
  have place : 0x50000000 ≤ slowBase (sbIdx sb) ∧ slowBase (sbIdx sb) < 0x50A00000 ∧ kindAct (slowBase (sbIdx sb)) = .blk
      ∧ slowBlockOf (slowBase (sbIdx sb)) = some (sbIdx sb) := by cases sb <;> decide
  obtain ⟨low, high, kind, block⟩ := place
  have row := slow_row (v := v) on free may low high (by simp [reqWaits, kind])
  have write : slowWrite (writing s 6 m (slowBase (sbIdx sb)) v) m (slowBase (sbIdx sb)) v =
      setResp (blkWrite (writing s 6 m (slowBase (sbIdx sb)) v) (sbIdx sb) v) m .okay := by
    unfold slowWrite
    rw [if_pos kind, block, Option.getD_some, interleaveAt_none (by exact none_)]
  rw [write] at row
  have cleared : ∀ i < 2, bit (tget 0 s.regs.blk (sbIdx sb) &&& ~~~(BitVec.ofNat 2 (bits v 2 1))) i =
      (bit (tget 0 s.regs.blk (sbIdx sb)) i && !bit v (i + 1)) := fun i small => by
    simp only [bit, BitVec.getLsbD_and, BitVec.getLsbD_not, BitVec.getLsbD_ofNat, testBit_bits, small, decide_true, Bool.true_and]
    rw [Nat.add_comm 1 i]
  refine ⟨_, congrArg Host.Outcome.next row, ?_, ?_, rfl⟩
  · show bit (tget 0 (tput 0 s.regs.blk _ _) _) 0 = _
    rw [tget_tput_same]
    exact cleared 0 (by decide)
  · show bit (tget 0 (tput 0 s.regs.blk _ _) _) 1 = _
    rw [tget_tput_same]
    exact cleared 1 (by decide)
end

/-! MDIO_CMD and MGMT_SNAP_CTRL. -/

theorem fastWrite_rw {a mask : Nat} {fw : Bool} (own : stagedOf a = none) (kind : kindAct a = .rw mask fw) (guard : guardBlock a = none)
    (s : State) (m : Nat) (v : Word) : fastWrite s m a v = setResp (plainWrite s a mask v) m .okay := by
  unfold fastWrite
  rw [own]
  dsimp only
  rw [kind]
  dsimp only
  rw [interleaveAt_free guard]

theorem setAct_eq (a : Nat) (w : Word) (s : State) : ∃ l, onRegs s (setAct a w) = { s with regs := { s.regs with act := l } } :=
  ⟨_, rfl⟩

theorem bit_and_word {v : Word} {mask i : Nat} (set : (word mask).getLsbD i = true) : bit (v &&& word mask) i = bit v i := by
  simp only [bit, BitVec.getLsbD_and, set, Bool.and_true]

/-- Fields that a mask lets through. -/
theorem bits_and_word {v : Word} {mask hi lo : Nat} (set : ∀ k < hi + 1 - lo, (word mask).getLsbD (lo + k) = true) :
    bits (v &&& word mask) hi lo = bits v hi lo := by
  refine Nat.eq_of_testBit_eq fun k => ?_
  rw [testBit_bits, testBit_bits]
  by_cases inside : k < hi + 1 - lo
  · rw [bit_and_word (set k inside)]
  · simp [inside]

section
variable {s : State} {m : Master} {v : Word} (on : powered s = true) (free : MatFree s) (may : mayWrite m 5 = true)
include on free may

theorem mdio_write : live s (matWrite s m aMdioCmd v false) =
    setResp (mdioWrite (writing s 5 m aMdioCmd v) (v &&& word (kindMask (kindAct aMdioCmd)))) m .okay := by
  rw [live_on on, fast_row free may rfl (by rw [show mirWrites s aMdioCmd = false from rfl, Bool.and_false])]
  rfl

theorem mdioStarts_row (start : bit v 31 = true) (idle : s.mgSh.mdio = none)
    (valid : bit v 30 = true ∨ bits v 29 28 = 1 ∨ bits v 29 28 = 2) : ∃ t, exec (.mdioStart m v) s = .next t
      ∧ t.mgSh.mdio = some (v &&& word (kindMask (kindAct aMdioCmd))) ∧ t.mgSh.mdioValid = false
      ∧ t = { s with mem := { s.mem with granted := tset s.mem.granted (5 * 8 + qosOf s m) m.val }
                     mgSh := { s.mgSh with mdio := t.mgSh.mdio, mdioValid := false }
                     regs := { s.regs with act := t.regs.act, resp := t.regs.resp } } := by
  have row := mdio_write (v := v) on free may
  have whole : v &&& word (kindMask (kindAct aMdioCmd)) = v := and_m32 v
  rw [whole] at row ⊢
  rw [mdioWrite, if_neg (by rw [start]; decide), if_neg (by rw [show (writing s 5 m aMdioCmd v).mgSh.mdio = none from idle]; decide), if_neg] at row
  · exact ⟨_, congrArg Host.Outcome.next row, rfl, rfl, rfl⟩
  · rintro ⟨off, bad⟩
    rcases valid with set | one | two
    · rw [set] at off
      cases off
    · omega
    · omega

theorem mdioDiscarded_row (start : bit v 31 = true) (busy : s.mgSh.mdio.isSome = true) : ∃ t, exec (.mdioStart m v) s = .next t
    ∧ bit (hist t hMdio) 0 = true
    ∧ t = { s with mem := { s.mem with granted := tset s.mem.granted (5 * 8 + qosOf s m) m.val }
                   regs := { s.regs with hist := t.regs.hist, resp := t.regs.resp } } := by
  have row := mdio_write (v := v) on free may
  rw [show v &&& word (kindMask (kindAct aMdioCmd)) = v from and_m32 v, mdioWrite, if_neg (by rw [start]; decide), if_pos (by exact busy)] at row
  have set := bit_sticky (m := (1 : Word)) (i := 0) (by decide) (writing s 5 m aMdioCmd v) hMdio
  exact ⟨_, congrArg Host.Outcome.next row, set, rfl⟩

theorem mdioIgnored_row (start : bit v 31 = true) (idle : s.mgSh.mdio = none) (off : bit v 30 = false)
    (bad : bits v 29 28 = 0 ∨ bits v 29 28 = 3) : ∃ t, exec (.mdioStart m v) s = .next t ∧ bit (hist t hMdio) 1 = true
    ∧ t = { s with mem := { s.mem with granted := tset s.mem.granted (5 * 8 + qosOf s m) m.val }
                   regs := { s.regs with hist := t.regs.hist, resp := t.regs.resp } } := by
  have row := mdio_write (v := v) on free may
  rw [show v &&& word (kindMask (kindAct aMdioCmd)) = v from and_m32 v, mdioWrite, if_neg (by rw [start]; decide),
    if_neg (by rw [show (writing s 5 m aMdioCmd v).mgSh.mdio = none from idle]; decide), if_pos ⟨off, bad⟩] at row
  have set := bit_sticky (m := (2 : Word)) (i := 1) (by decide) (writing s 5 m aMdioCmd v) hMdio
  exact ⟨_, congrArg Host.Outcome.next row, set, rfl⟩

theorem snap_write : live s (matWrite s m aSnapCtrl v false) =
    setResp (snapWrite (writing s 5 m aSnapCtrl v) (v &&& word 0x80001F03)) m .okay := by
  rw [live_on on, fast_row free may rfl (by rw [show mirWrites s aSnapCtrl = false from rfl, Bool.and_false]),
    fastWrite_rw (mask := 0x80001F03) (fw := false) rfl rfl rfl]
  unfold plainWrite
  dsimp only
  rw [if_neg (by decide), if_neg (by decide), if_neg (by decide), if_neg (by decide), if_pos rfl]

/-- The state after a write of MGMT_SNAP_CTRL. -/
abbrev SnapArmed (s t : State) (m : Master) (o : Option (Sfp × Bool × Bool)) (l r : Bool) : Prop :=
  t = { s with mem := { s.mem with granted := tset s.mem.granted (5 * 8 + qosOf s m) m.val }
               mgSh := { s.mgSh with snapPend := o, late := l, far := r }
               regs := { s.regs with act := t.regs.act, resp := t.regs.resp } }

theorem snapArm_rows :
    (bit v 31 = false → ∃ t, exec (.mgmtSnapArm m v) s = .next t ∧ SnapArmed s t m none s.mgSh.late s.mgSh.far) ∧
    (bit v 31 = true → sfpDist s.sfp (snapNamed s v) < 327536 →
      ∃ t, exec (.mgmtSnapArm m v) s = .next t ∧ SnapArmed s t m none true s.mgSh.far) ∧
    (bit v 31 = true → horizon < sfpDist s.sfp (snapNamed s v) →
      ∃ t, exec (.mgmtSnapArm m v) s = .next t ∧ SnapArmed s t m none s.mgSh.late true) ∧
    (bit v 31 = true → 327536 ≤ sfpDist s.sfp (snapNamed s v) → sfpDist s.sfp (snapNamed s v) ≤ horizon →
      ∃ t, exec (.mgmtSnapArm m v) s = .next t
        ∧ SnapArmed s t m (some (snapNamed s v, bit v 0, bit v 1)) s.mgSh.late s.mgSh.far) := by
  have row := snap_write (v := v) on free may
  set u := writing s 5 m aSnapCtrl v
  set w := v &&& word 0x80001F03
  have armed : bit w 31 = bit v 31 := bit_and_word (by decide)
  have modes : bit w 0 = bit v 0 ∧ bit w 1 = bit v 1 := ⟨bit_and_word (by decide), bit_and_word (by decide)⟩
  have named : snapNamed u w = snapNamed s v := by
    have field : bits w 12 8 = bits v 12 8 := bits_and_word (by decide)
    have high : act u aSnapHi = act s aSnapHi := rfl
    have low : act u aSnapLo = act s aSnapLo := rfl
    rw [snapNamed, snapNamed, field, high, low]
  have near : tooNear u twoFrames (snapNamed s v) = decide (sfpDist s.sfp (snapNamed s v) < 327536) := rfl
  have pos : u.sfp = s.sfp := rfl
  have horizonLow : (327536 : Int) ≤ horizon := by decide
  unfold snapWrite at row
  dsimp only at row
  obtain ⟨l, stored⟩ := setAct_eq aSnapCtrl w u
  rw [named, armed, near, pos, modes.1, modes.2, stored] at row
  generalize snapNamed s v = f at row ⊢
  refine ⟨fun off => ?_, fun start near => ?_, fun start far => ?_, fun start near far => ?_⟩
  · rw [if_pos off] at row
    exact ⟨_, congrArg Host.Outcome.next row, rfl⟩
  · rw [if_neg (by rw [start]; decide), if_pos (decide_eq_true near)] at row
    exact ⟨_, congrArg Host.Outcome.next row, rfl⟩
  · rw [if_neg (by rw [start]; decide), if_neg (by rw [decide_eq_true_eq]; omega), if_pos far] at row
    exact ⟨_, congrArg Host.Outcome.next row, rfl⟩
  · rw [if_neg (by rw [start]; decide), if_neg (by rw [decide_eq_true_eq]; omega), if_neg (by omega)] at row
    exact ⟨_, congrArg Host.Outcome.next row, rfl⟩
end

/-! Ageing. -/

theorem aged_row {s : State} {m : Master} {tg : Fin 8} (on : powered s = true) (may : mayRead m tg = true ∨ mayWrite m tg = true)
    (low : qosOf s m < 5) (fresh : s.mem.wait.any (fun w => w.2.m == m.val && w.2.aged) = false) :
    ∃ t, exec (.matrixAged m tg) s = .next t ∧ Counted s t 1 11
      ∧ t.mem.wait = s.mem.wait.map (fun w => if w.1 = tg.val ∧ w.2.m = m.val then (w.1, { w.2 with aged := true }) else w)
      ∧ (∀ w ∈ t.mem.wait, w.1 = tg.val → w.2.m = m.val → reqQos t w.2 = 5)
      ∧ t = { s with mem := { s.mem with wait := t.mem.wait }, sage := t.sage } := by
  have row : exec (.matrixAged m tg) s = .next (cSys (onMem s (fun x => { x with wait := x.wait.map (fun y =>
      if y.1 = tg.val ∧ y.2.m = m.val then (y.1, { y.2 with aged := true }) else y) })) 11) := by
    refine congrArg Host.Outcome.next ((live_on on _).trans (if_pos ?_))
    have reach : (mayRead m tg || mayWrite m tg) = true := by
      rw [Bool.or_eq_true]
      exact may
    rw [reach, fresh, decide_eq_true low]
    rfl
  refine ⟨_, row, counted_count (onMem s _) 1 11, rfl, fun w mem target own => ?_, rfl⟩
  obtain ⟨y, -, eq⟩ := List.mem_map.mp mem
  have raised : w.2.aged = true := by
    by_cases here : y.1 = tg.val ∧ y.2.m = m.val
    · rw [if_pos here] at eq
      rw [← eq]
    · rw [if_neg here] at eq
      exact absurd ⟨eq ▸ target, eq ▸ own⟩ here
  show (if w.2.aged then max 5 (qosOf s w.2.m) else _) = 5
  rw [raised, own]
  exact max_eq_left (by omega)

/-! A posted write completes. -/

/-- The KP bits a write asks for. -/
theorem kpOf_written (s : State) (a mask : Nat) (v : Word) (kp : Tbl Word)
    (set : tget 0 kp a = (Config.kpInit a ^^^ (v &&& ~~~(word mask))) &&& ~~~(word mask)) :
    (Config.kpInit a ^^^ tget 0 kp a) &&& ~~~(word mask) = v &&& ~~~(word mask) := by
  rw [set]
  refine BitVec.eq_of_getLsbD_eq fun i small => ?_
  simp only [BitVec.getLsbD_and, BitVec.getLsbD_xor, BitVec.getLsbD_not]
  cases (Config.kpInit a).getLsbD i <;> cases v.getLsbD i <;> cases (word mask).getLsbD i <;> simp [small]

section
variable {s : State} {a k mask : Nat} {v : Word}

/-- While BSCAN_UNLOCK is set the KP bits take their values (R375). -/
theorem kpWrite_unlocked (other : v &&& ~~~(word mask) ≠ kpOf s a mask) (open_ : unlocked s = true) :
    kpOf (kpWrite s a a mask v) a mask = v &&& ~~~(word mask) := by
  rw [kpWrite, if_neg other, if_pos open_]
  exact kpOf_written s a mask v _ (tget_tput_same _ _ _ _)

/-- While it is clear they are refused (R376). -/
theorem kpWrite_locked (block : slowBlockOf a = some k) (other : v &&& ~~~(word mask) ≠ kpOf s a mask) (locked : unlocked s = false) :
    (kpWrite s a a mask v).regs.kp = s.regs.kp ∧ bit (tget 0 (kpWrite s a a mask v).regs.blk k) 1 = true
      ∧ Counted s (kpWrite s a a mask v) 1 4 := by
  let u := onRegs s (fun r => { r with blk := tput 0 r.blk k (tget 0 r.blk k ||| 2) })
  have eq : kpWrite s a a mask v = trace (cSys u 4) 11 2 noObj ([0, 0] ++ beBytes 4 a) := by
    rw [kpWrite, if_neg other, if_neg (by rw [locked]; decide), block]
    rfl
  have regs : get .regs (kpWrite s a a mask v) = get .regs s := by
    rw [eq]
    simp [u]
  have blk : get .blk (kpWrite s a a mask v) = get .blk u := by
    rw [eq]
    simp
  refine ⟨(congrArg (fun x : RegSt => x.kp) regs :), ?_, ?_⟩
  · show bit (tget 0 (get .blk (kpWrite s a a mask v)) k) 1 = true
    rw [blk]
    show bit (tget 0 (tput 0 s.regs.blk k _) k) 1 = true
    rw [tget_tput_same]
    simp [bit]
  · rw [eq, Counted, ctrVal_trace _ _ _ _ _ (by decide) (by decide)]
    exact counted_count u 1 4
end

/-- The word that a posted write stages, with its KP bits. -/
theorem slowComplete_staged {s : State} {p : Posted} {d : Nat} (low : 0x50000000 ≤ p.addr) (dom : domOf p.addr = some d)
    (thawed : frozenNow s d = false) (hi : isWideHi p.addr = false) (lo : isWideLo p.addr = false) : slowComplete s p =
      stgPut (kpWrite s p.addr p.addr (kindMask (kindAct p.addr)) p.val) p.addr (p.val &&& word (kindMask (kindAct p.addr))) := by
  have kind := kindAct_of_domOf dom
  generalize kindMask (kindAct p.addr) = mask at kind
  unfold slowComplete
  rw [stagedOf_slow low dom]
  dsimp only [Option.getD_none]
  rw [kind]
  dsimp only
  rw [if_neg (by rw [thawed]; decide), stageWord_plain hi lo]

section
variable {s : State} {sb : SlowBlock} {p : Posted} {d : Nat} (on : powered s = true) (free : MatFree s) (space : mirHeld s = false)
  (found : tfind s.regs.posted (sbIdx sb) = some p) (dom : domOf p.addr = some d) (block : slowBlockOf p.addr = some (sbIdx sb))
  (thawed : frozenNow s d = false) (hi : isWideHi p.addr = false) (lo : isWideLo p.addr = false)
include on free space found dom block thawed hi lo

/-- The state that a completed write leaves, but for the command's own record of its posted writes. -/
def completed (s : State) (k : Nat) (p : Posted) : State :=
  let u := onRegs s (fun r => { r with posted := tdel r.posted k })
  stgPut (kpWrite u p.addr p.addr (kindMask (kindAct p.addr)) p.val) p.addr (p.val &&& word (kindMask (kindAct p.addr)))

theorem complete_row_slow : exec (.postedWriteComplete sb) s = .next (onRun (completed s (sbIdx sb) p)
    (fun q => { q with mine := q.mine.filter (· != sbIdx sb) })) := by
  obtain ⟨low, -⟩ := slowBlockOf_range block
  have own : p.addr ≠ aFeedSelect := fun same => by
    rw [same] at dom
    exact absurd (dom.symm.trans (show domOf aFeedSelect = none from rfl)) (Option.some_ne_none d)
  refine congrArg Host.Outcome.next ((live_on on _).trans ?_)
  unfold xPostedWriteComplete
  rw [found]
  dsimp only
  rw [if_neg (by rw [space, Bool.and_false, Bool.or_false, decide_eq_true_eq]; exact own),
    slowComplete_staged (s := onRegs s (fun r => { r with posted := tdel r.posted (sbIdx sb) })) low dom thawed hi lo]
  refine matRun_free ?_
  have kept : get .mem (onRun (completed s (sbIdx sb) p) (fun q => { q with mine := q.mine.filter (· != sbIdx sb) })) = get .mem s := by
    simp [completed]
  change (get .mem (onRun (completed s (sbIdx sb) p) _)).busy = [] ∧ (get .mem (onRun (completed s (sbIdx sb) p) _)).wait = []
  rw [kept]
  exact free

omit free space found dom block thawed hi lo on in
theorem completed_shape (k : Nat) (f : Run → Run) : ∃ kp blk hist sage mir stg run, onRun (completed s k p) f = { s with
      sage := sage, mir := mir, vcp := { s.vcp with run := run }
      regs := { s.regs with stg := stg, posted := tdel s.regs.posted k, kp := kp, blk := blk, hist := hist } } := by
  unfold completed
  extract_lets u
  obtain ⟨kp, blk, hist, sage, eq⟩ := kpWrite_eq u p.addr p.addr (kindMask (kindAct p.addr)) p.val
  rw [eq, stgPut_frame]
  exact ⟨kp, blk, hist, sage, _, _, _, rfl⟩

theorem completes_row {mask : Nat} (masked : kindMask (kindAct p.addr) = mask) : ∃ t, exec (.postedWriteComplete sb) s = .next t
    ∧ tfind t.regs.posted (sbIdx sb) = none ∧ stgv t p.addr = p.val &&& word mask ∧ actv t p.addr = actv s p.addr
    ∧ (p.val &&& ~~~(word mask) = kpOf s p.addr mask → t.regs.blk = s.regs.blk ∧ t.sage = s.sage ∧ t.regs.kp = s.regs.kp)
    ∧ (p.val &&& ~~~(word mask) ≠ kpOf s p.addr mask →
        (unlocked s = true → kpOf t p.addr mask = p.val &&& ~~~(word mask)) ∧
        (unlocked s = false → t.regs.kp = s.regs.kp ∧ bit (tget 0 t.regs.blk (sbIdx sb)) 1 = true ∧ Counted s t 1 4))
    ∧ t = { s with regs := { s.regs with stg := t.regs.stg, posted := t.regs.posted, kp := t.regs.kp, blk := t.regs.blk
                                         hist := t.regs.hist }
                   vcp := { s.vcp with run := t.vcp.run }, mir := t.mir, sage := t.sage } := by
  have row := complete_row_slow on free space found dom block thawed hi lo
  obtain ⟨kp, blk, hist, sage, mir, stg, run, shape⟩ := completed_shape (s := s) (p := p) (sbIdx sb) (fun q => { q with mine := q.mine.filter (· != sbIdx sb) })
  set u := onRegs s (fun r => { r with posted := tdel r.posted (sbIdx sb) })
  set w := kpWrite u p.addr p.addr mask p.val with w_eq
  have kept : ∀ f : Part, f ≠ .mir → f ≠ .stg → f ≠ .run →
      get f (onRun (completed s (sbIdx sb) p) (fun q => { q with mine := q.mine.filter (· != sbIdx sb) })) = get f w :=
    fun f mir stg run => by
      have eq : completed s (sbIdx sb) p = stgPut w p.addr (p.val &&& word mask) := by
        rw [w_eq, ← masked]
        rfl
      rw [onRun_rest _ _ run, eq, stgPut_get _ _ _ mir stg]
  have staged : stgv (onRun (completed s (sbIdx sb) p) (fun q => { q with mine := q.mine.filter (· != sbIdx sb) })) p.addr
      = p.val &&& word mask := by
    show stgv (completed s (sbIdx sb) p) p.addr = _
    rw [completed, stg_stgPut, if_pos rfl, masked]
  generalize onRun (completed s (sbIdx sb) p) (fun q => { q with mine := q.mine.filter (· != sbIdx sb) }) = t at row shape kept staged
  have blkOf : t.regs.blk = w.regs.blk := kept .blk (by decide) (by decide) (by decide)
  have sageOf : t.sage = w.sage := kept .sage (by decide) (by decide) (by decide)
  have kpOfT : t.regs.kp = w.regs.kp :=
    (congrArg (fun x : RegSt => x.kp) (kept .regs (by decide) (by decide) (by decide)) :)
  refine ⟨t, row, ?_, staged, ?_, fun same => ?_, fun other => ⟨fun open_ => ?_, fun locked => ?_⟩, ?_⟩
  · rw [shape]
    exact tfind_tdel_same _ _
  · rw [shape]
    rfl
  · have stays : w = u := kpWrite_same same
    rw [blkOf, sageOf, kpOfT, stays]
    exact ⟨rfl, rfl, rfl⟩
  · rw [kpOf_of_kp kpOfT]
    exact kpWrite_unlocked (s := u) other open_
  · obtain ⟨kept, set, counted⟩ := kpWrite_locked (s := u) block other locked
    exact ⟨kpOfT.trans kept, by rw [blkOf]; exact set, by rw [Counted, ctrVal, sageOf]; exact counted⟩
  · rw [shape]
end

/-! Arbitration (R353). -/

/-- The requests that still wait, and the masters last granted. -/
def granting (s : State) (l : List (Nat × MatReq)) (g : Tbl Nat) : State := onMem s (fun x => { x with wait := l, granted := g })

/-- A granted write of a staged register. -/
def stagedBy (s : State) (b : Nat) (r : MatReq) (v : Word) : State :=
  setResp (stgPut s b (v &&& word (kindMask (kindAct b)))) r.m .okay

/-- The best of two requests at a target is the second only where it comes before the first. -/
theorem matBest_two {s : State} {x y : MatReq} (wait : s.mem.wait = [(5, x), (5, y)]) (hx : reqWaits s x = false)
    (hy : reqWaits s y = false) : matBest s 5 = some (if before s 5 y x then y else x) := by
  rw [matBest, wait]
  simp only [List.foldl_cons, List.foldl_nil, hx, hy, and_self, if_true]
  split <;> rfl

theorem matBest_one {s : State} {x : MatReq} (wait : s.mem.wait = [(5, x)]) (hx : reqWaits s x = false) : matBest s 5 = some x := by
  rw [matBest, wait]
  simp only [List.foldl_cons, List.foldl_nil, hx, and_self, if_true]

theorem matBest_none {s : State} (wait : s.mem.wait = []) (t : Nat) : matBest s t = none := by
  rw [matBest, wait]
  rfl

theorem matArbitrate_idle {s : State} (free : s.mem.busy = []) (wait : s.mem.wait = []) (t : Nat) : matArbitrate s t = s := by
  unfold matArbitrate
  rw [free, matBest_none wait]
  rfl

section
variable {b d : Nat} (target : targetOf b = some 5) (dom : domOf b = some d) (guard : guardBlock b = none) (hi : isWideHi b = false)
  (lo : isWideLo b = false) (own : stagedOf b = none)
include target dom guard hi lo own

theorem matPerform_staged {s : State} (thawed : frozenNow s d = false) {r : MatReq} {v : Word} (addr : r.addr = b)
    (may : mayWrite r.m 5 = true) (wr : r.wr = some v) : matPerform s r = stagedBy s b r v := by
  unfold matPerform
  rw [wr]
  dsimp only
  unfold matDoWrite
  rw [addr, target]
  dsimp only
  rw [fastWrite_staged (s := s) (m := r.m) (v := v) dom guard (.inr ⟨rfl, own⟩), stageWord_plain hi lo]
  exact (if_neg (by rw [may]; decide)).trans ((if_neg (by decide)).trans ((if_neg (by decide)).trans ((if_neg (by decide)).trans
    ((if_neg (by decide)).trans ((if_pos rfl).trans (if_neg (by rw [thawed]; decide)))))))

/-- One arbitration that grants a request: its write is performed. -/
theorem matArbitrate_grants {s : State} (off : mirOn s = false) (free : s.mem.busy = []) (thawed : frozenNow s d = false) {r : MatReq}
    {v : Word} (best : matBest s 5 = some r) (addr : r.addr = b) (may : mayWrite r.m 5 = true) (wr : r.wr = some v) :
    ∃ g, matArbitrate s 5 = stagedBy (granting s (delFirst (fun y => y.2 == r) s.mem.wait) g) b r v := by
  refine ⟨tset s.mem.granted (5 * 8 + reqQos s r) r.m, ?_⟩
  unfold matArbitrate
  rw [free, best]
  have held : mirHeld s = false := by rw [mirHeld, off, Bool.false_and]
  let u := onMem s (fun x => { x with wait := delFirst (fun y => y.2 == r) x.wait })
  show matGrant u 5 r = _
  unfold matGrant
  extract_lets s1
  have heldOff : reqHeld s1 r = false := by
    rw [reqHeld, show mirHeld s1 = false from held, Bool.and_false, Bool.false_and]
  rw [if_neg (by rw [heldOff]; decide)]
  exact matPerform_staged target dom guard hi lo own (s := s1) thawed addr may wr

omit target dom guard hi lo own in
/-- What a performed write keeps for the requests that follow. -/
theorem stagedBy_kept {s : State} (off : mirOn s = false) (r : MatReq) (v : Word) : (stagedBy s b r v).mem = s.mem
    ∧ (stagedBy s b r v).pair = s.pair ∧ (stagedBy s b r v).sfp = s.sfp ∧ (stagedBy s b r v).com = s.com
    ∧ (stagedBy s b r v).regs.act = s.regs.act ∧ stgv (stagedBy s b r v) b = v &&& word (kindMask (kindAct b)) := by
  have put : stgPut s b (v &&& word (kindMask (kindAct b))) = onRegs s (setStg b (v &&& word (kindMask (kindAct b)))) :=
    if_neg (by rw [show mirOn (onRegs s (setStg b (v &&& word (kindMask (kindAct b))))) = mirOn s from rfl, off]; decide)
  rw [stagedBy, put]
  exact ⟨rfl, rfl, rfl, rfl, rfl, tget_tput_same _ _ _ _⟩

/-- The matrix is still to arbitrate: the mirror is off, the register's domain not frozen, no transaction in service. -/
structure Arbitrates (s : State) (d : Nat) : Prop where
  off : mirOn s = false
  free : s.mem.busy = []
  thawed : frozenNow s d = false

omit target dom guard hi lo own in
theorem Arbitrates.staged {s : State} (h : Arbitrates s d) (l : List (Nat × MatReq)) (g : Tbl Nat) (r : MatReq) (v : Word) :
    Arbitrates (stagedBy (granting s l g) b r v) d := by
  obtain ⟨mem, pair, pos, com, -, -⟩ := stagedBy_kept (b := b) (s := granting s l g) h.off r v
  generalize stagedBy (granting s l g) b r v = t at *
  refine ⟨?_, by rw [mem]; exact h.free, ?_⟩
  · have same : mirOn t = mirOn s := by
      simp only [mirOn, peerIs, chiveSilent, heardWithin, pair, pos]
      rfl
    rw [same, h.off]
  · rw [frozenNow, com, pos]
    exact h.thawed

omit hi lo dom guard own in
theorem reqWaits_staged {r : MatReq} (addr : r.addr = b) (s : State) : reqWaits s r = false :=
  reqWaits_fast (by rw [addr, slowBlockOf_fast target])

omit target dom guard hi lo own in
theorem arbitrations_idle {s : State} (free : s.mem.busy = []) (wait : s.mem.wait = []) (l : List Nat) :
    forEach l s (fun u _ => matArbitrate u 5) = s := by
  induction l with
  | nil => rfl
  | cons i l ih => rw [forEach_cons, matArbitrate_idle free wait, ih]

omit target dom guard hi lo own in
theorem arbitrations_two {s : State} (free : s.mem.busy = []) (wait : s.mem.wait = []) :
    forEach [5, 5] s matArbitrate = s := by
  rw [forEach_cons, forEach_cons, matArbitrate_idle free wait, matArbitrate_idle free wait, forEach_nil]

/-- The two requests that wait, in their turn. -/
theorem matArbitrate_two {s : State} {z z' : MatReq} {v v' : Word} (h : Arbitrates s d) (best : matBest s 5 = some z)
    (rest : delFirst (fun y => y.2 == z) s.mem.wait = [(5, z')]) (at_ : z.addr = b ∧ mayWrite z.m 5 = true)
    (at_' : z'.addr = b ∧ mayWrite z'.m 5 = true) (w : z.wr = some v) (w' : z'.wr = some v') (l : List Nat) :
    (forEach (0 :: 1 :: l) s (fun u _ => matArbitrate u 5)).mem.busy = []
      ∧ (forEach (0 :: 1 :: l) s (fun u _ => matArbitrate u 5)).mem.wait = []
      ∧ stgv (forEach (0 :: 1 :: l) s (fun u _ => matArbitrate u 5)) b = v' &&& word (kindMask (kindAct b)) := by
  obtain ⟨g, first⟩ := matArbitrate_grants target dom guard hi lo own h.off h.free h.thawed best at_.1 at_.2 w
  rw [rest] at first
  have h1 := h.staged (b := b) [(5, z')] g z v
  have mem1 := (stagedBy_kept (b := b) (s := granting s [(5, z')] g) h.off z v).1
  rw [forEach_cons, forEach_cons, first]
  generalize stagedBy (granting s [(5, z')] g) b z v = u at h1 mem1
  have wait1 : u.mem.wait = [(5, z')] := by rw [mem1]; rfl
  obtain ⟨g', second⟩ := matArbitrate_grants target dom guard hi lo own h1.off h1.free h1.thawed
    (matBest_one wait1 (reqWaits_staged target at_'.1 u)) at_'.1 at_'.2 w'
  rw [wait1, show delFirst (fun y : Nat × MatReq => y.2 == z') [(5, z')] = [] from if_pos (beq_self_eq_true z')] at second
  have h2 := h1.staged (b := b) [] g' z' v'
  obtain ⟨mem2, -, -, -, -, stored⟩ := stagedBy_kept (b := b) (s := granting u [] g') h1.off z' v'
  rw [second]
  generalize stagedBy (granting u [] g') b z' v' = t at h2 mem2 stored
  have wait2 : t.mem.wait = [] := by rw [mem2]; rfl
  rw [arbitrations_idle h2.free wait2]
  exact ⟨h2.free, wait2, stored⟩

/-- A transaction in service ends with its write; the two requests that wait are then performed in the order of arbitration. -/
theorem matServe_two {s : State} {r x y : MatReq} {v0 v1 v2 : Word} (off : mirOn s = false) (busy : s.mem.busy = [(5, r)])
    (wait : s.mem.wait = [(5, x), (5, y)]) (thawed : frozenNow s d = false) (apart : x.m ≠ y.m)
    (at_ : ∀ q ∈ [r, x, y], q.addr = b ∧ mayWrite q.m 5 = true) (w0 : r.wr = some v0) (w1 : x.wr = some v1) (w2 : y.wr = some v2) :
    (matServe s 5).mem.busy = [] ∧ (matServe s 5).mem.wait = [] ∧
      stgv (matServe s 5) b = (if before s 5 y x then v1 else v2) &&& word (kindMask (kindAct b)) := by
  have atR := at_ r (by simp)
  have atX := at_ x (by simp)
  have atY := at_ y (by simp)
  let s0 := onMem s (fun x => { x with busy := tdel x.busy 5 })
  have serve : matServe s 5 = forEach (0 :: 1 :: [2, 3, 4, 5, 6]) (matPerform s0 r) (fun u _ => matArbitrate u 5) := by
    unfold matServe
    rw [busy, tfind_one]
    refine if_neg ?_
    rw [reqHeld, mirHeld, off, Bool.false_and, Bool.and_false, Bool.false_and]
    exact Bool.false_ne_true
  rw [serve, matPerform_staged target dom guard hi lo own (s := s0) thawed atR.1 atR.2 w0]
  have start : Arbitrates s0 d := ⟨off, by show tdel s.mem.busy 5 = []; rw [busy]; rfl, thawed⟩
  have h := start.staged (b := b) s.mem.wait s.mem.granted r v0
  change Arbitrates (stagedBy s0 b r v0) d at h
  obtain ⟨mem, -, -, -, act_, -⟩ := stagedBy_kept (b := b) (s := s0) off r v0
  generalize stagedBy s0 b r v0 = u at h mem act_
  have wait' : u.mem.wait = [(5, x), (5, y)] := by rw [mem]; exact wait
  have turns : before u 5 y x = before s 5 y x := by
    have qos : ∀ q, reqQos u q = reqQos s q := fun q => by
      simp only [reqQos, qosOf, Machine.act, act_]
      rfl
    simp only [before, qos, mem]
    rfl
  have best := matBest_two wait' (reqWaits_staged target atX.1 u) (reqWaits_staged target atY.1 u)
  rw [turns] at best
  by_cases first : before s 5 y x = true
  · rw [if_pos first] at best ⊢
    have rest : delFirst (fun q => q.2 == y) u.mem.wait = [(5, x)] := by
      rw [wait']
      simp [delFirst, show x ≠ y from fun same => apart (congrArg MatReq.m same)]
    exact matArbitrate_two target dom guard hi lo own h best rest atY atX w2 w1 [2, 3, 4, 5, 6]
  · rw [if_neg first] at best ⊢
    have rest : delFirst (fun q => q.2 == x) u.mem.wait = [(5, y)] := by
      rw [wait']
      simp [delFirst]
    exact matArbitrate_two target dom guard hi lo own h best rest atX atY w1 w2 [2, 3, 4, 5, 6]
end

/-- The turns of two requests of the same QoS: the master last granted comes after any other. -/
theorem before_turn {s : State} {x y : MatReq} (mx : x.m ≤ 6) (my : y.m ≤ 6) (apart : x.m ≠ y.m) :
    (reqQos s x < reqQos s y ∨ (reqQos s x = reqQos s y ∧ tfind s.mem.granted (5 * 8 + reqQos s x) = some x.m) →
      before s 5 y x = true) ∧
    (reqQos s y < reqQos s x ∨ (reqQos s y = reqQos s x ∧ tfind s.mem.granted (5 * 8 + reqQos s x) = some y.m) →
      before s 5 y x = false) := by
  constructor
  · rintro (lower | ⟨same, last⟩)
    · simp [before, lower]
    · have turn : (y.m + 13 - x.m) % 7 < (x.m + 13 - x.m) % 7 := by omega
      simp only [before, ← same, tget, last, Option.getD_some, decide_eq_true turn, lt_self_iff_false, decide_false, decide_true]
      rfl
  · rintro (lower | ⟨same, last⟩)
    · simp [before, Nat.not_lt.mpr lower.le, lower.ne']
    · have turn : ¬ (y.m + 13 - y.m) % 7 < (x.m + 13 - y.m) % 7 := by omega
      simp only [before, same, tget, last, Option.getD_some, decide_eq_false turn, lt_self_iff_false, decide_false, decide_true]
      rfl

/-- A transaction that no path carries lets every target go on before it ends. -/
theorem arbitration_row {s : State} {m : Master} {a v : Word} {b : Nat} {v0 v1 v2 : Word} {r0 x y : MatReq} (on : powered s = true)
    (off : mirOn s = false) (busy : s.mem.busy = [(5, r0)]) (wait : s.mem.wait = [(5, x), (5, y)]) (mx : x.m ≤ 6) (my : y.m ≤ 6)
    (apart : x.m ≠ y.m) (target : targetOf b = some 5) (dom : (domOf b).isSome = true) (guard : guardBlock b = none)
    (hi : isWideHi b = false) (lo : isWideLo b = false) (own : stagedOf b = none) (thawed : frozenNow s ((domOf b).getD 0) = false)
    (at_ : ∀ q ∈ [r0, x, y], q.addr = b ∧ mayWrite q.m 5 = true) (w0 : r0.wr = some v0) (w1 : x.wr = some v1) (w2 : y.wr = some v2)
    (path : targetOf a.toNat = none) : ∃ t, exec (.registerWrite m a v) s = .next t ∧ t.mem.busy = [] ∧ t.mem.wait = []
      ∧ ((reqQos s x < reqQos s y ∨ (reqQos s x = reqQos s y ∧ tfind s.mem.granted (5 * 8 + reqQos s x) = some x.m)) →
          stgv t b = v1 &&& word (kindMask (kindAct b)))
      ∧ ((reqQos s y < reqQos s x ∨ (reqQos s y = reqQos s x ∧ tfind s.mem.granted (5 * 8 + reqQos s x) = some y.m)) →
          stgv t b = v2 &&& word (kindMask (kindAct b))) := by
  obtain ⟨d, dom⟩ := Option.isSome_iff_exists.mp dom
  rw [dom, Option.getD_some] at thawed
  obtain ⟨free, none_, stored⟩ := matServe_two target dom guard hi lo own off busy wait thawed apart at_ w0 w1 w2
  have run : matRun s = matServe s 5 := by
    unfold matRun
    rw [busy, wait]
    exact arbitrations_two free none_
  have row : exec (.registerWrite m a v) s = .next (decErr (matServe s 5) m) := by
    refine congrArg Host.Outcome.next ((live_on on _).trans ?_)
    show matIssue s { m := m.val, addr := a.toNat, wr := some v, collide := false } = _
    unfold matIssue
    rw [run, path]
    dsimp only
    unfold matPerform matDoWrite
    dsimp only
    rw [path]
  obtain ⟨later, sooner⟩ := before_turn (s := s) mx my apart
  refine ⟨_, row, free, none_, fun h => ?_, fun h => ?_⟩
  · rw [later h] at stored
    exact stored
  · rw [sooner h] at stored
    exact stored

/-- Settles O42: the slow bridge, the shared registers and arbitration, row by row. -/
theorem slowAndShared : Obligations.SlowAndShared := by
  unfold Obligations.SlowAndShared
  intro m sb a v tg p b v0 v1 v2 r0 x y s on none_ k d kp gr
  refine ⟨fun free may block dom => ⟨fun idle => posted_row on free may none_ block dom idle,
      fun busy other => dropped_row on free may none_ block dom busy other, fun busy proc => waits_row on free may block dom busy proc⟩,
    fun free space found val addr dom block thawed hi lo => ?_, fun free may => blkStat_row on free may none_ sb v,
    fun free may start => ⟨fun idle valid => mdioStarts_row on free may start idle valid,
      fun busy => mdioDiscarded_row on free may start busy, fun idle off bad => mdioIgnored_row on free may start idle off bad⟩,
    fun free may => snapArm_rows on free may, fun may low fresh => aged_row on may low fresh,
    fun off busy wait mx my apart target dom guard hi lo own thawed at_ w0 w1 w2 path =>
      arbitration_row on off busy wait mx my apart target dom guard hi lo own thawed at_ w0 w1 w2 path⟩
  subst val
  exact completes_row on free space found dom block thawed hi lo rfl

end Sys2Proof.Machine
end

section
/-! The port family of commands (O36). -/

namespace Sys2Proof.Machine

open Sys2Proof

/-! The port family of commands (Tables 13-9 and 13-10). -/

/-- What a list of staged words leaves of a word. -/
def lastWord (b : Nat) (w : Word) (x : Nat × Nat) : Word := if x.1 = b then word x.2 else w

theorem foldl_lastWord_absent {l : List (Nat × Nat)} {b : Nat} (absent : ∀ x ∈ l, x.1 ≠ b) (w : Word) :
    l.foldl (lastWord b) w = w := by
  induction l with
  | nil => rfl
  | cons x l ih =>
    rw [List.foldl_cons, lastWord, if_neg (absent x List.mem_cons_self)]
    exact ih fun y inside => absent y (List.mem_cons_of_mem _ inside)

/-- Words of a trail trace identifier at the array's own addresses. -/
theorem ttiWords_here (base lo : Nat) (p : Bytes) {k : Nat} (below : k < 16) (w : Word) :
    (ttiWords base p lo).foldl (lastWord (base + 4 * k)) w = word (pkNat p (lo + 4 * k) 4) := by
  have run : ∀ (l : List Nat) (w : Word), k ∈ l →
      (l.map (fun i => (base + 4 * i, pkNat p (lo + 4 * i) 4))).foldl (lastWord (base + 4 * k)) w
        = word (pkNat p (lo + 4 * k) 4) := by
    intro l
    induction l using List.reverseRecOn with
    | nil => simp
    | append_singleton l i ih =>
      intro w inside
      rw [List.map_append, List.foldl_append, List.map_singleton, List.foldl_cons, List.foldl_nil, lastWord]
      by_cases same : i = k
      · simp [same]
      · rw [if_neg (by omega)]
        exact ih w (by simpa [Ne.symm same] using inside)
  exact run _ w (List.mem_range.mpr below)

theorem ttiWords_apart {base lo b : Nat} (p : Bytes) (apart : b < base ∨ base + 64 ≤ b) (w : Word) :
    (ttiWords base p lo).foldl (lastWord b) w = w := by
  refine foldl_lastWord_absent (fun x inside => ?_) w
  obtain ⟨i, below, rfl⟩ := List.mem_map.mp inside
  have := List.mem_range.mp below
  show base + 4 * i ≠ b
  omega

theorem byte_of_word (a b c d : Byte) {i : Nat} (below : i < 4) :
    BitVec.ofNat 8 ((word (beNat [a, b, c, d])).toNat / 256 ^ (3 - i)) = [a, b, c, d].getD i 0 := by
  have ha := a.isLt
  have hb := b.isLt
  have hc := c.isLt
  have hd := d.isLt
  apply BitVec.eq_of_toNat_eq
  rw [BitVec.toNat_ofNat, word, BitVec.toNat_ofNat]
  have value : beNat [a, b, c, d] = ((a.toNat * 256 + b.toNat) * 256 + c.toNat) * 256 + d.toNat := by simp [beNat]
  rw [value]
  interval_cases i <;> simp <;> omega

/-- The bytes of an identifier from its 16 words. -/
theorem ttiOf_words {v : View} {base lo : Nat} {p : Bytes}
    (words : ∀ k < 16, v (base + 4 * k) = word (pkNat p (lo + 4 * k) 4)) : ttiOf v base = slice p lo 64 := by
  refine List.ext_getElem (by simp [ttiOf, slice, rangeFrom]) fun j inside _ => ?_
  have below : j < 64 := by simpa [ttiOf] using inside
  have word_ : pkNat p (lo + 4 * (j / 4)) 4 = beNat [p.getD (lo + 4 * (j / 4)) 0, p.getD (lo + 4 * (j / 4) + 1) 0,
      p.getD (lo + 4 * (j / 4) + 2) 0, p.getD (lo + 4 * (j / 4) + 3) 0] := rfl
  have place : lo + j = lo + 4 * (j / 4) + j % 4 := by omega
  have read : (ttiOf v base)[j] = ttiByte v base j := by simp [ttiOf]
  refine read.trans (Eq.trans ?_ (by simp [slice, rangeFrom] : p.getD (lo + j) 0 = _))
  rw [ttiByte, words _ (by omega), word_, byte_of_word _ _ _ _ (by omega), place]
  have rest : j % 4 < 4 := by omega
  generalize j % 4 = i at *
  generalize lo + 4 * (j / 4) = a at *
  interval_cases i <;> rfl

theorem portArgsOk_ranges {p : Bytes} (ok : portArgsOk p = true) :
    pk1 p 0 < 128 ∧ pk1 p 1 ≤ 6 ∧ (1 ≤ pk1 p 2 ∧ pk1 p 2 ≤ 16) ∧ bits (p.getD 3 0) 4 3 ≤ 2 ∧
      (1 ≤ pk1 p 4 ∧ pk1 p 4 ≤ 255) ∧ 1 ≤ pkNat p 6 4 ∧ pkNat p 6 4 ≤ 16777215 := by
  simp only [portArgsOk, inR, Bool.and_eq_true, decide_eq_true_eq] at ok
  omega

/-- The first word of PORT_CFG_WRITE. -/
def portCfgWord (p : Bytes) : Nat :=
  fld (pk1 p 1) 3 0 + fld (bits (p.getD 3 0) 4 3) 2 3 + at1 (bit (p.getD 3 0) 0) 5 + at1 (bit (p.getD 3 0) 1) 6
    + at1 (bit (p.getD 3 0) 2) 7

theorem bit_word (n i : Nat) (h : i < 32) : bit (word n) i = n.testBit i := by
  rw [bit, word, BitVec.getLsbD_ofNat, decide_eq_true h, Bool.true_and]

/-- A column of fields in one word. -/
theorem cfgWord_fields {m l : Nat} (mode : m < 8) (loop : l < 4) (a b c : Bool) :
    let w := fld m 3 0 + fld l 2 3 + at1 a 5 + at1 b 6 + at1 c 7
    w % 2 ^ 32 / 2 ^ 0 % 8 = m ∧ w % 2 ^ 32 / 2 ^ 3 % 4 = l ∧ w.testBit 5 = a ∧ w.testBit 6 = b ∧ w.testBit 7 = c := by
  interval_cases m <;> interval_cases l <;> cases a <;> cases b <;> cases c <;> decide

theorem portWords_at {p : Bytes} {v w : View}
    (staged : ∀ b, w b = (portWords p).foldl (fun w x => if x.1 = b then word x.2 else w) (v b)) :
    w (aPortCfg (pk1 p 0)) = word (portCfgWord p) ∧ w (aPortCfg (pk1 p 0) + 4) = word (fld (pk1 p 2) 5 0) ∧
      w (aPortCfg (pk1 p 0) + 8) = word (fld (pk1 p 4) 8 0) ∧ w (aPortCfg (pk1 p 0) + 12) = word (fld (pkNat p 6 4) 24 0) ∧
      (∀ k < 16, w (aTxTti (pk1 p 0) + 4 * k) = word (pkNat p (10 + 4 * k) 4)) ∧
      (∀ k < 16, w (aExpTti (pk1 p 0) + 4 * k) = word (pkNat p (74 + 4 * k) 4)) := by
  have parts : ∀ b, w b = (ttiWords (aExpTti (pk1 p 0)) p 74).foldl (lastWord b)
      ((ttiWords (aTxTti (pk1 p 0)) p 10).foldl (lastWord b)
        ([(aPortCfg (pk1 p 0), portCfgWord p), (aPortCfg (pk1 p 0) + 4, fld (pk1 p 2) 5 0),
          (aPortCfg (pk1 p 0) + 8, fld (pk1 p 4) 8 0), (aPortCfg (pk1 p 0) + 12, fld (pkNat p 6 4) 24 0)].foldl
            (lastWord b) (v b))) := by
    intro b
    rw [← List.foldl_append, ← List.foldl_append, ← List.append_assoc]
    exact staged b
  have low : ∀ b, b < aPortCfg (pk1 p 0) + 16 → w b =
      [(aPortCfg (pk1 p 0), portCfgWord p), (aPortCfg (pk1 p 0) + 4, fld (pk1 p 2) 5 0),
        (aPortCfg (pk1 p 0) + 8, fld (pk1 p 4) 8 0), (aPortCfg (pk1 p 0) + 12, fld (pkNat p 6 4) 24 0)].foldl
          (lastWord b) (v b) := by
    intro b below
    rw [parts, ttiWords_apart p (Or.inl (by simp only [aExpTti, aPortCfg] at *; omega)),
      ttiWords_apart p (Or.inl (by simp only [aTxTti, aPortCfg] at *; omega))]
  refine ⟨?_, ?_, ?_, ?_, fun k below => ?_, fun k below => ?_⟩
  · simp [low _ (Nat.lt_add_of_pos_right (by decide)), lastWord]
  · simp [low _ (Nat.add_lt_add_left (by decide : 4 < 16) _), lastWord]
  · simp [low _ (Nat.add_lt_add_left (by decide : 8 < 16) _), lastWord]
  · simp [low _ (Nat.add_lt_add_left (by decide : 12 < 16) _), lastWord]
  · rw [parts, ttiWords_apart p (Or.inl (by simp only [aExpTti, aTxTti]; omega)), ttiWords_here _ _ _ below]
  · rw [parts, ttiWords_here _ _ _ below]

theorem portWords_fields {p : Bytes} (ok : portArgsOk p = true) {v w : View}
    (staged : ∀ b, w b = (portWords p).foldl (fun w x => if x.1 = b then word x.2 else w) (v b)) :
    pMode w (pk1 p 0) = pk1 p 1 ∧ pEbDepth w (pk1 p 0) = pk1 p 2 ∧ pLoop w (pk1 p 0) = bits (p.getD 3 0) 4 3 ∧
      pRdiEn w (pk1 p 0) = bit (p.getD 3 0) 0 ∧ pTtiCheck w (pk1 p 0) = bit (p.getD 3 0) 1 ∧
      pTpPoly w (pk1 p 0) = bit (p.getD 3 0) 2 ∧ pFecFail w (pk1 p 0) = pk1 p 4 ∧ pFecDeg w (pk1 p 0) = pkNat p 6 4 ∧
      ttiOf w (aTxTti (pk1 p 0)) = slice p 10 64 ∧ ttiOf w (aExpTti (pk1 p 0)) = slice p 74 64 := by
  obtain ⟨_, mode, depth, loop, fail, deg⟩ := portArgsOk_ranges ok
  obtain ⟨cfg, cfg1, cfg2, cfg3, tx, expected⟩ := portWords_at staged
  obtain ⟨modeIs, loopIs, rdi, tti, poly⟩ := cfgWord_fields (m := pk1 p 1) (l := bits (p.getD 3 0) 4 3) (by omega)
    (by omega) (bit (p.getD 3 0) 0) (bit (p.getD 3 0) 1) (bit (p.getD 3 0) 2)
  refine ⟨?_, ?_, ?_, ?_, ?_, ?_, ?_, ?_, ttiOf_words tx, ttiOf_words expected⟩
  · rw [pMode, cfg, bits_word]
    exact modeIs
  · rw [pEbDepth, cfg1, bits_word]
    simp only [fld]
    omega
  · rw [pLoop, cfg, bits_word]
    exact loopIs
  · rw [pRdiEn, cfg, bit_word _ _ (by decide)]
    exact rdi
  · rw [pTtiCheck, cfg, bit_word _ _ (by decide)]
    exact tti
  · rw [pTpPoly, cfg, bit_word _ _ (by decide)]
    exact poly
  · rw [pFecFail, cfg2, bits_word]
    simp only [fld]
    omega
  · rw [pFecDeg, cfg3, bits_word]
    simp only [fld]
    omega

theorem portCfgWrite_body {r : Req} {q : Run} {s : State} (h : Accepted 0x0601 r q s) (ok : portArgsOk r.params = true) :
    xPortCfgWrite q (started s) = staging 2 (started s) (fun t => replyOk (stageList t (portWords r.params)) []) := by
  simp [xPortCfgWrite, h.1.2.2.2.1, ok]

theorem portAdaptWrite_body {r : Req} {q : Run} {s : State} (h : Accepted 0x0603 r q s) (port : pk1 r.params 0 ≤ 127)
    (low : 16 ≤ pkNat r.params 2 2) (high : pkNat r.params 2 2 ≤ 1024) :
    xPortAdaptWrite q (started s) = staging 16 (started s) (fun t => replyOk (stageList t
      [(aPortAdapt (pk1 r.params 0), at1 (bit (r.params.getD 1 0) 0) 0 + fld (pkNat r.params 2 2) 11 16)]) []) := by
  rw [xPortAdaptWrite, h.1.2.2.2.1]
  refine if_neg ?_
  simp [inR, low, high, port]

theorem portSerdesWrite_body {r : Req} {q : Run} {s : State} (h : Accepted 0x0604 r q s) (port : pk1 r.params 0 ≤ 127)
    (pre : pk1 r.params 2 ≤ 7) (mid : pk1 r.params 3 ≤ 15) (post : pk1 r.params 4 ≤ 7) :
    xPortSerdesWrite q (started s) = staging 2 (started s) (fun t => replyOk (stageList t
      [(aLane (pk1 r.params 0), fld (pk1 r.params 1) 2 0 + fld (pk1 r.params 2) 3 8 + fld (pk1 r.params 3) 4 16
        + fld (pk1 r.params 4) 3 24)]) []) := by
  rw [xPortSerdesWrite, h.1.2.2.2.1]
  exact if_neg (by omega)

theorem serdesWord_value {a b c d : Nat} (pre : b ≤ 7) (mid : c ≤ 15) (post : d ≤ 7) :
    fld a 2 0 + fld b 3 8 + fld c 4 16 + fld d 3 24 = a % 4 + b * 2 ^ 8 + c * 2 ^ 16 + d * 2 ^ 24 := by
  simp only [fld]
  omega

theorem tpChkWrite_body {r : Req} {q : Run} {s : State} (h : Accepted 0x0608 r q s) (member : pk1 r.params 0 ≤ 63)
    (slot : pkNat r.params 2 2 ≤ 10239) :
    xTpChkWrite q (started s) = staging 2 (started s) (fun t => replyOk (stageList t
      [(aTpChk (pk1 r.params 0), at1 (bit (r.params.getD 1 0) 0) 31 + pkNat r.params 2 2)]) []) := by
  rw [xTpChkWrite, h.1.2.2.2.1]
  exact if_neg (by omega)

theorem adaptWord_fields {w : View} {n m : Nat} {b : Bool} (staged : w (aPortAdapt n) = word (at1 b 0 + fld m 11 16))
    (small : m ≤ 1024) : pPmEn w n = b ∧ pDropMargin w n = m := by
  refine ⟨?_, ?_⟩
  · rw [pPmEn, staged, bit_word _ _ (by decide), Nat.testBit_zero]
    cases b <;> simp [at1, fld] <;> omega
  · rw [pDropMargin, staged, bits_word]
    rcases at1_cases b 0 with at_ | at_ <;> rw [at_, fld] <;> omega

/-! The reads. -/

theorem slice_length (b : Bytes) (lo n : Nat) : (slice b lo n).length = n := by simp [slice, rangeFrom]

theorem ttiOf_length (v : View) (base : Nat) : (ttiOf v base).length = 64 := by simp [ttiOf]

theorem portCfgRead_body {r : Req} {q : Run} {s : State} (h : Accepted 0x0602 r q s) (port : pk1 r.params 0 ≤ 127)
    (view : pk1 r.params 1 ≤ 1) : xPortCfgRead q (started s) = setReply (started s) 0 0
      (portLayout (viewSel s (pk1 r.params 1)) (pk1 r.params 0) ++ serdesLayout (viewSel s (pk1 r.params 1)) (pk1 r.params 0)
        ++ adaptLayout (viewSel s (pk1 r.params 1)) (pk1 r.params 0)) := by
  rw [xPortCfgRead, h.1.2.2.2.1]
  exact if_neg (by omega)

theorem portLayout_fields (v : View) {n : Nat} (port : n ≤ 127) :
    let b := portLayout v n ++ serdesLayout v n ++ adaptLayout v n
    b.length = 148 ∧ pk1 b 0 = n ∧ pk1 b 1 = pMode v n ∧ pk1 b 2 = pEbDepth v n ∧ pkNat b 146 2 = pDropMargin v n := by
  have mode : pMode v n < 8 := bits_lt _ 2 0
  have depth : pEbDepth v n < 32 := bits_lt _ 4 0
  have margin : pDropMargin v n < 2048 := bits_lt _ 26 16
  have first : (portLayout v n ++ serdesLayout v n ++ [by1 n, by1 (b2n (pPmEn v n))]).length = 146 := by
    simp [portLayout, serdesLayout, ttiOf_length]
  refine ⟨?_, ?_, ?_, ?_, ?_⟩
  · simp [portLayout, serdesLayout, adaptLayout, ttiOf_length]
  · exact (by1_toNat n).trans (by omega)
  · exact (by1_toNat _).trans (by omega)
  · exact (by1_toNat _).trans (by omega)
  · have split : portLayout v n ++ serdesLayout v n ++ adaptLayout v n =
        (portLayout v n ++ serdesLayout v n ++ [by1 n, by1 (b2n (pPmEn v n))]) ++ beBytes 2 (pDropMargin v n) := by
      simp [adaptLayout]
    have := pkNat_append (portLayout v n ++ serdesLayout v n ++ [by1 n, by1 (b2n (pPmEn v n))])
      (beBytes 2 (pDropMargin v n)) 0 2
    rw [first] at this
    rw [split, this, pkNat_last]
    omega

/-- The peer's identity in PORT_STATUS. -/
def peerBytes (x : PortSt) : Bytes :=
  match x.trunk.peer with
  | some w => beBytes 2 (bits w 23 12 + 32768) ++ [by1 (bits w 11 5), by1 (bits w 4 3 + 4 * bits w 2 0)]
  | none => [0, 0, 0, 0]

theorem peerBytes_length (x : PortSt) : (peerBytes x).length = 4 := by
  unfold peerBytes
  split <;> simp

/-- The bytes of PORT_STATUS after the peer's identity. -/
def portStatusRest (s : State) (n : Nat) : Bytes :=
  let x := portOf s n
  beBytes 2 (x.trunk.rxSmi.getD 0).toNat ++ (by1 (x.ql.toNat + at1 x.qlStale 4) :: 0 ::
    (beBytes 4 (x.client.adPpm.signExtend 32).toNat ++ (beBytes 2 (portFill s n)
      ++ (slice (x.trunk.rxTti.getD []) 0 64 ++ [by1 (b2n x.trunk.rxTti.isSome)]))))

/-- The bytes of PORT_STATUS. -/
def portStatusBytes (s : State) (n : Nat) : Bytes :=
  by1 n :: by1 (modeOf s n) :: (beBytes 2 (portOf s n).rep.toNat ++ (peerBytes (portOf s n) ++ portStatusRest s n))

theorem portStatus_body {r : Req} {q : Run} {s : State} (h : Accepted 0x0605 r q s) (port : pk1 r.params 0 ≤ 127) :
    xPortStatus q (started s) = setReply (started s) 0 0 (portStatusBytes s (pk1 r.params 0)) := by
  rw [xPortStatus, h.1.2.2.2.1]
  refine (if_neg (by omega)).trans ?_
  rw [replyOk]
  congr 1
  simp only [portStatusBytes, portStatusRest, peerBytes, List.append_assoc, List.cons_append, List.nil_append]
  rfl

theorem portStatusBytes_fields (s : State) {n : Nat} (port : n ≤ 127) :
    let b := portStatusBytes s n
    b.length = 83 ∧ pk1 b 0 = n ∧ pk1 b 1 = modeOf s n ∧ pkNat b 2 2 = (portOf s n).rep.toNat ∧
      pk1 b 10 % 16 = (portOf s n).ql.toNat := by
  have mode : modeOf s n < 8 := bits_lt _ 2 0
  have rep := (portOf s n).rep.isLt
  have ql := (portOf s n).ql.isLt
  have stale := at1_cases (portOf s n).qlStale 4
  have peer := peerBytes_length (portOf s n)
  have at10 : pk1 (portStatusBytes s n) 10 = pk1 (peerBytes (portOf s n) ++ portStatusRest s n) 6 := by
    simp [portStatusBytes]
  have place : pk1 (peerBytes (portOf s n) ++ portStatusRest s n) 6 = pk1 (portStatusRest s n) 2 := by
    simp [pk1, List.getElem?_append_right, peer]
  refine ⟨?_, (by1_toNat n).trans (by omega), (by1_toNat _).trans (by omega), ?_, ?_⟩
  · simp [portStatusBytes, portStatusRest, peer, slice_length]
  · rw [portStatusBytes, pkNat_cons, pkNat_cons, pkNat_here]
    omega
  · rw [at10, place]
    simp [portStatusRest]
    omega

theorem portSnapRead_body {r : Req} {q : Run} {s : State} (h : Accepted 0x0607 r q s) (port : pk1 r.params 0 ≤ 127)
    (first : pk1 r.params 1 = 0) : ∃ l : List Nat,
      l = (((portOf s (pk1 r.params 0)).snap.map (·.2)).getD (List.replicate 71 0)).take 160 ∧
      xPortSnapRead q (started s) = setReply (started s) 0 0
        ([by1 (pk1 r.params 0), by1 (b2n (portOf s (pk1 r.params 0)).snap.isSome)]
          ++ sfpBytes (((portOf s (pk1 r.params 0)).snap.map (·.1)).getD {}) ++ [by1 0, by1 l.length]
          ++ l.flatMap (beBytes 8)) := by
  refine ⟨_, rfl, ?_⟩
  rw [xPortSnapRead, h.1.2.2.2.1, first]
  exact if_neg (by omega)

theorem pkNat_flatMap (l : List Nat) {i : Nat} (inside : i < l.length) :
    pkNat (l.flatMap (beBytes 8)) (8 * i) 8 = l.getD i 0 % 2 ^ 64 := by
  induction l generalizing i with
  | nil => simp at inside
  | cons x l ih =>
    rw [List.flatMap_cons]
    cases i with
    | zero => exact pkNat_here 8 x _
    | succ i =>
      rw [pkNat_skip _ _ _ _ _ (by omega), show 8 * (i + 1) - 8 = 8 * i by omega, ih (by simpa using inside)]
      rfl

theorem sfpBytes_length (p : Sfp) : (sfpBytes p).length = 10 := by simp [sfpBytes]

theorem slice_here (a b c : Bytes) : slice (a ++ b ++ c) a.length b.length = b := by
  refine List.ext_getElem (by simp [slice, rangeFrom]) fun i inside below => ?_
  simp [slice, rangeFrom, List.getElem?_append_right, List.getElem?_append_left below, List.getElem?_eq_getElem below]

theorem tpChkRead_body {r : Req} {q : Run} {s : State} (h : Accepted 0x0609 r q s) (member : pk1 r.params 0 ≤ 63) :
    xTpChkRead q (started s) = setReply (started s) 0 0
      ([by1 (pk1 r.params 0), by1 (at1 (bit (actv s (aTpChk (pk1 r.params 0))) 31) 0 + at1 (chkOf s (pk1 r.params 0)).sync 1)]
        ++ beBytes 2 (bits (actv s (aTpChk (pk1 r.params 0))) 13 0)
        ++ (List.range 4).flatMap (fun k => beBytes 8 (ctrVal s 0xB (4 * pk1 r.params 0 + k)))) := by
  rw [xTpChkRead, h.1.2.2.2.1]
  exact if_neg (by omega)

/-! PORT_SNAPSHOT. -/

/-- A snapshot request at a position in its range, by what its position calls for. -/
theorem portSnapshot_body {r : Req} {q : Run} {s : State} (h : Accepted 0x0606 r q s) (some_ : pkMask r.params 0 ≠ 0)
    (block : (sfpOfBytes r.params 16).bi = 0) (near : sfpDist q.accept (sfpOfBytes r.params 16) ≤ horizon) :
    xPortSnapshot q (started s) =
      if sfpDist q.accept (sfpOfBytes r.params 16) < twoFrames then setReply (started s) 9 0 []
      else if !s.com.snaps.any (fun x => x.1 == sfpOfBytes r.params 16) && decide (8 ≤ s.com.snaps.length) then
        setReply (started s) 4 4 []
      else replyOk (setSnaps (started s) (snapAdd s.com.snaps (sfpOfBytes r.params 16) (pkMask r.params 0)))
        [by1 (b2n (s.com.snaps.any (fun x => x.1 == sfpOfBytes r.params 16))),
          by1 (setSnaps (started s) (snapAdd s.com.snaps (sfpOfBytes r.params 16) (pkMask r.params 0))).com.snaps.length] := by
  have reach : ¬ horizon < sfpDist q.accept (sfpOfBytes r.params 16) := Int.not_lt.mpr near
  have frame : ¬ (sfpOfBytes r.params 16).bi ≠ 0 := not_not_intro block
  rw [xPortSnapshot, h.1.2.2.2.1]
  exact (if_neg some_).trans ((if_neg frame).trans (if_neg reach))

theorem setSnaps_snaps (s : State) (l : List (Sfp × BitVec 128)) : (setSnaps s l).com.snaps = l := by
  rw [setSnaps]
  split
  · rfl
  · show get .snaps (mirror _ _) = l
    rw [mirror_get _ _ (by decide)]
    rfl

/-- A request that joins the pending ones answers how many there are. -/
theorem snapsJoined {s : State} {q : Run} (h : s.vcp.run = some q) (l : List (Sfp × BitVec 128)) (b : Byte) :
    let t := replyOk (setSnaps (started s) l) [b, by1 (setSnaps (started s) l).com.snaps.length]
    Answers t 0 0 [b, by1 l.length] ∧ t = { s with vcp := t.vcp, mir := t.mir, com := { s.com with snaps := l } } := by
  have run : (setSnaps (started s) l).vcp.run = some { q with work := 1 } := by
    rw [← started_run h]
    show get .run _ = get .run _
    simp
  have snaps : (replyOk (setSnaps (started s) l) [b, by1 l.length]).com.snaps = l := by
    refine Eq.trans ?_ (setSnaps_snaps (started s) l)
    show get .snaps _ = get .snaps _
    simp
  rw [setSnaps_snaps]
  have only : Only [.vcp, .run, .mir, .snaps] s (replyOk (setSnaps (started s) l) [b, by1 l.length]) := fun f out => by
    simp at out
    simp [out]
  refine ⟨setReply_answers run _ _ _, ?_⟩
  generalize replyOk (setSnaps (started s) l) [b, by1 l.length] = t at only snaps ⊢
  rw [← snaps]
  exact only.frame

theorem portSnapshot_rows {r : Req} {q : Run} {s : State} (h : Accepted 0x0606 r q s) (some_ : pkMask r.params 0 ≠ 0)
    (block : (sfpOfBytes r.params 16).bi = 0) (near : sfpDist q.accept (sfpOfBytes r.params 16) ≤ horizon)
    (far : 327536 ≤ sfpDist q.accept (sfpOfBytes r.params 16))
    (room : s.com.snaps.any (fun x => x.1 == sfpOfBytes r.params 16) = true ∨ s.com.snaps.length < 8) :
    let l := snapAdd s.com.snaps (sfpOfBytes r.params 16) (pkMask r.params 0)
    ∃ t, exec (.portSnapshot r) s = .next t ∧
      Answers t 0 0 [by1 (b2n (s.com.snaps.any (fun x => x.1 == sfpOfBytes r.params 16))), by1 l.length] ∧
      t = { s with vcp := t.vcp, mir := t.mir, com := { s.com with snaps := l } } := by
  have free : ¬ ((!s.com.snaps.any (fun x => x.1 == sfpOfBytes r.params 16) && decide (8 ≤ s.com.snaps.length)) = true) := by
    rcases room with found | few
    · simp [found]
    · simp [few]
  obtain ⟨answers, frame⟩ := snapsJoined h.1.2.2.1
    (snapAdd s.com.snaps (sfpOfBytes r.params 16) (pkMask r.params 0))
    (by1 (b2n (s.com.snaps.any (fun x => x.1 == sfpOfBytes r.params 16))))
  intro l
  refine ⟨_, congrArg Host.Outcome.next (Eq.trans (once_row h xPortSnapshot) ?_), answers, frame⟩
  rw [portSnapshot_body h some_ block near]
  exact (if_neg (Int.not_lt.mpr far)).trans (if_neg free)

theorem portSnapRead_row {r : Req} {q : Run} {s : State} (h : Accepted 0x0607 r q s) (port : pk1 r.params 0 ≤ 127)
    (first : pk1 r.params 1 = 0) :
    ∃ t, exec (.portSnapRead r) s = .next t
      ∧ (∀ i : Fin 71, pkNat (answer t) (14 + 8 * i) 8
            = (((portOf s (pk1 r.params 0)).snap.map (·.2)).getD []).getD i 0 % 2 ^ 64
          ∨ (((portOf s (pk1 r.params 0)).snap.map (·.2)).getD []).length ≤ i)
      ∧ Answers t 0 0 (answer t) ∧ pk1 (answer t) 0 = pk1 r.params 0
      ∧ pk1 (answer t) 1 = b2n (portOf s (pk1 r.params 0)).snap.isSome
      ∧ slice (answer t) 2 10 = sfpBytes (((portOf s (pk1 r.params 0)).snap.map (·.1)).getD {})
      ∧ t = { s with vcp := t.vcp } := by
  obtain ⟨l, values, body⟩ := portSnapRead_body h port first
  obtain ⟨t, row, answers, data, frame⟩ := answer_row h body
  have length := sfpBytes_length (((portOf s (pk1 r.params 0)).snap.map (·.1)).getD {})
  rw [← data] at answers
  refine ⟨t, congrArg _ row, fun i => ?_, answers, ?_, ?_, ?_, frame⟩
  · rw [data]
    rcases snap : (portOf s (pk1 r.params 0)).snap with _ | x
    · exact Or.inr (Nat.zero_le _)
    · rw [snap] at values
      rcases Nat.lt_or_ge i.val x.2.length with inside | beyond
      · left
        have short : i.val < l.length := by
          rw [values]
          simp [inside]
          omega
        have place := pkNat_append ([by1 (pk1 r.params 0), by1 (b2n (some x).isSome)]
          ++ sfpBytes (((some x).map (·.1)).getD {}) ++ [by1 0, by1 l.length]) (l.flatMap (beBytes 8)) (8 * i) 8
        have head : ([by1 (pk1 r.params 0), by1 (b2n (some x).isSome)]
            ++ sfpBytes (((some x).map (·.1)).getD {}) ++ [by1 0, by1 l.length]).length = 14 := by simp [sfpBytes_length]
        rw [head] at place
        rw [place, pkNat_flatMap _ short, values]
        simp [List.getElem?_take, show i.val < 160 by omega]
      · exact Or.inr beyond
  · rw [data]
    exact (by1_toNat _).trans (by omega)
  · rw [data]
    refine (by1_toNat _).trans ?_
    cases (portOf s (pk1 r.params 0)).snap <;> rfl
  · rw [data, List.append_assoc]
    have here := slice_here [by1 (pk1 r.params 0), by1 (b2n (portOf s (pk1 r.params 0)).snap.isSome)]
      (sfpBytes (((portOf s (pk1 r.params 0)).snap.map (·.1)).getD {})) ([by1 0, by1 l.length] ++ l.flatMap (beBytes 8))
    rw [length] at here
    exact here

/-- Settles O36: each command is its body on a state that has begun its work. -/
theorem portCommands : Obligations.PortCommands := by
  unfold Obligations.PortCommands
  intro r q s p n
  refine ⟨fun h thawed free ok => ?_, fun h thawed free port low high => ?_, fun h thawed free port pre mid post => ?_,
    fun h thawed free member slot => ?_, fun h port view => ?_, fun h port => ?_, fun h some_ => ?_,
    fun h port first => portSnapRead_row h port first, fun h member => ?_⟩
  · obtain ⟨t, row, answers, words, staged⟩ := staging_row h thawed free (portCfgWrite_body h ok)
    exact ⟨t, congrArg _ row, answers, portWords_fields ok words, staged⟩
  · obtain ⟨t, row, answers, words, staged⟩ := staging_row h thawed free (portAdaptWrite_body h port low high)
    obtain ⟨markers, margin⟩ := adaptWord_fields (w := stgv t) (n := n) ((words _).trans (if_pos rfl)) high
    exact ⟨t, congrArg _ row, answers, markers, margin, staged⟩
  · obtain ⟨t, row, answers, words, staged⟩ := staging_row h thawed free (portSerdesWrite_body h port pre mid post)
    refine ⟨t, congrArg _ row, answers, ((words _).trans (if_pos rfl)).trans ?_, staged⟩
    exact congrArg word (serdesWord_value pre mid post)
  · obtain ⟨t, row, answers, words, staged⟩ := staging_row h thawed free (tpChkWrite_body h member slot)
    exact ⟨t, congrArg _ row, answers, (words _).trans (if_pos rfl), staged⟩
  · obtain ⟨t, row, answers, data, frame⟩ := answer_row h (portCfgRead_body h port view)
    obtain ⟨length, n0, mode, depth, margin⟩ := portLayout_fields (viewSel s (pk1 r.params 1)) port
    rw [← data] at answers length n0 mode depth margin
    exact ⟨t, congrArg _ row, answers, length, n0, mode, depth, margin, frame⟩
  · obtain ⟨t, row, answers, data, frame⟩ := answer_row h (portStatus_body h port)
    obtain ⟨length, n0, mode, rep, ql⟩ := portStatusBytes_fields s port
    rw [← data] at answers length n0 mode rep ql
    exact ⟨t, congrArg _ row, answers, length, n0, mode, rep, ql, frame⟩
  · intro f block near
    have body := portSnapshot_body h some_ block near
    refine ⟨fun soon => ?_, fun far apart => ⟨fun full => ?_, fun room => ?_⟩, fun far found => ?_⟩
    · obtain ⟨t, row, answers, _, frame⟩ := answer_row h (body.trans (if_pos soon))
      exact ⟨t, congrArg _ row, answers, frame⟩
    · have full : (!s.com.snaps.any (fun x => x.1 == f) && decide (8 ≤ s.com.snaps.length)) = true := by
        simp only [apart, full]
        rfl
      obtain ⟨t, row, answers, _, frame⟩ :=
        answer_row h (body.trans ((if_neg (Int.not_lt.mpr far)).trans (if_pos full)))
      exact ⟨t, congrArg _ row, answers, frame⟩
    · obtain ⟨t, row, answers, frame⟩ := portSnapshot_rows h some_ block near far (Or.inr room)
      have joined : snapAdd s.com.snaps f (pkMask p 0) = s.com.snaps ++ [(f, pkMask p 0)] :=
        if_neg (by rw [apart]; decide)
      rw [show sfpOfBytes r.params 16 = f from rfl, apart, show pkMask r.params 0 = pkMask p 0 from rfl, joined,
        List.length_append] at answers
      rw [show sfpOfBytes r.params 16 = f from rfl, show pkMask r.params 0 = pkMask p 0 from rfl, joined] at frame
      exact ⟨t, row, answers, frame⟩
    · obtain ⟨t, row, answers, frame⟩ := portSnapshot_rows h some_ block near far (Or.inl found)
      have merged : snapAdd s.com.snaps f (pkMask p 0) =
          s.com.snaps.map (fun x => if x.1 = f then (x.1, x.2 ||| pkMask p 0) else x) := if_pos found
      rw [show sfpOfBytes r.params 16 = f from rfl, found, show pkMask r.params 0 = pkMask p 0 from rfl, merged,
        List.length_map] at answers
      rw [show sfpOfBytes r.params 16 = f from rfl, show pkMask r.params 0 = pkMask p 0 from rfl, merged] at frame
      exact ⟨t, row, answers, frame⟩
  · obtain ⟨t, row, answers, _, frame⟩ := answer_row h (tpChkRead_body h member)
    exact ⟨t, congrArg _ row, answers, frame⟩

end Sys2Proof.Machine
end

section
/-! The map commands that read (O19). -/

namespace Sys2Proof.Machine

open Sys2Proof

/-! The map commands that read (R281, R289). -/

/-- An entry of a bank without errors reads as its 8 bytes. -/
theorem entryBytes_sound {s : State} (sound : s.map.ecc = []) (b : Bool) (g k : Nat) (e : Entry) :
    entryBytes s b g k e = beBytes 8 e.toNat := by
  have no : eccDouble s.map b g = false := by
    rw [eccDouble, sound]
    rfl
  rw [entryBytes, no]
  rfl

/-- The free values of n entries are drawn. -/
def drawn (s : State) (n : Nat) : State := { s with fresh := s.fresh + 8 * n }

theorem drawn_started {p : Part} (s : State) (n : Nat) (run : p ≠ .run) (fresh : p ≠ .fresh) :
    get p (drawn (started s) n) = get p s := by
  refine Eq.trans ?_ (started_get s run)
  cases p with
  | fresh => exact absurd rfl fresh
  | _ => rfl

/-- The row of a command that reads entries of a bank without errors. -/
theorem mapRead_row {op : BitVec 16} {r : Req} {q : Run} {s : State} (h : Accepted op r q s) (sound : s.map.ecc = [])
    {body : Run → State → State} {b : Bool} {first n : Nat} {f : Entry → Entry}
    (reply : body q (started s) = mapReadReply (started s) b first n f) :
    ∃ t, live s (runOnce op r body s) = t ∧
      Answers t 0 0 ([by1 (b2n b), 0] ++ beBytes 2 first ++ beBytes 2 n
        ++ (List.range n).flatMap (fun k => beBytes 8 (f (entryOf s.map b (first + k))).toNat)) ∧
      t = { s with vcp := t.vcp, fresh := t.fresh } := by
  have bytes : (List.range n).flatMap (fun k => entryBytes (started s) b (first + k) k (f (entryOf (started s).map b (first + k))))
      = (List.range n).flatMap (fun k => beBytes 8 (f (entryOf s.map b (first + k))).toNat) :=
    congrArg (fun g => (List.range n).flatMap g) (funext fun k => entryBytes_sound sound b _ _ _)
  rw [once_row h, reply, mapReadReply, bytes]
  have run : (drawn (started s) n).vcp.run = some { q with work := 1 } := started_run h.1.2.2.1
  refine ⟨replyOk (drawn (started s) n) _, rfl, setReply_answers run _ _ _,
    Only.frame (l := [.vcp, .run, .fresh]) fun p out => ?_⟩
  simp at out
  refine Eq.trans (by simp [out]) (drawn_started s n out.2.1 out.2.2)

theorem mapRead_body {r : Req} {q : Run} {s : State} (h : Accepted 0x0302 r q s) (bank : pk1 r.params 0 ≤ 3)
    (span : spanOk (pkNat r.params 2 2) (pkNat r.params 4 2) 180 = true) :
    xMapRead q (started s) = mapReadReply (started s) (bankSel s (pk1 r.params 0)) (pkNat r.params 2 2)
      (pkNat r.params 4 2) (fun e => e) := by
  rw [xMapRead, h.1.2.2.2.1]
  refine if_neg ?_
  rw [span]
  simp [bank]

theorem hMapRead_body {r : Req} {q : Run} {s : State} (h : Accepted 0x0380 r q s) (holder : pkNat r.params 0 2 ≤ 1023)
    (bank : pk1 r.params 2 ≤ 3) (span : spanOk (pkNat r.params 4 2) (pkNat r.params 6 2) 180 = true) :
    xHMapRead q (started s) = mapReadReply (started s) (bankSel s (pk1 r.params 2)) (pkNat r.params 4 2)
      (pkNat r.params 6 2) (fun e => if eHolder e = pkNat r.params 0 2 then e else 0) := by
  rw [xHMapRead, h.1.2.2.2.1]
  refine if_neg ?_
  rw [span]
  simp [bank, holder]

theorem beBytes_zero (n : Nat) : beBytes n 0 = zeros n := by
  induction n with
  | zero => rfl
  | succ n ih =>
    rw [beBytes, ih, Nat.zero_div]
    rfl

theorem slotRec_eq (s : State) (h g : Nat) :
    slotRec s h g = if eHolder (activeEntry s g) = h then
      beBytes 2 g ++ [1, 0] ++ (List.range 4).flatMap (fun k => beBytes 8 (ctrVal s 0x200 (4 * g + k)))
    else beBytes 2 g ++ [0, 0] ++ zeros 32 := by
  by_cases seen : eHolder (activeEntry s g) = h
  · rw [if_pos seen, slotRec, decide_eq_true seen]
    rfl
  · rw [if_neg seen, slotRec, decide_eq_false seen]
    rfl

theorem hSlotStats_body {r : Req} {q : Run} {s : State} (h : Accepted 0x0382 r q s) (holder : pkNat r.params 0 2 ≤ 1023)
    (span : spanOk (pkNat r.params 2 2) (pk1 r.params 4) 32 = true) :
    xHSlotStats q (started s) = setReply (started s) 0 0 (sfpBytes s.sfp ++ [by1 (pk1 r.params 4), 0]
      ++ (rangeFrom (pkNat r.params 2 2) (pk1 r.params 4)).flatMap (slotRec s (pkNat r.params 0 2))) := by
  rw [xHSlotStats, h.1.2.2.2.1]
  refine if_neg ?_
  rw [span]
  simp [holder]

/-- The failing word in MAP_STATUS. -/
def eccAddrBytes (m : MapSt) : Bytes :=
  match m.eccAddr with
  | some (i, b, _) => beBytes 2 i ++ [by1 (b2n b + 2)]
  | none => [0, 0, 0]

theorem eccAddrBytes_length (m : MapSt) : (eccAddrBytes m).length = 3 := by
  unfold eccAddrBytes
  split <;> simp

/-- The bytes of MAP_STATUS. -/
def mapStatusBytes (s : State) : Bytes :=
  [(readCore s 0).setWidth 8, 0] ++ beBytes 2 s.map.changed ++ eccAddrBytes s.map ++ [0, 0, 0]
    ++ (List.range 4).flatMap (fun k => beBytes 8 (ctrVal s 4 k))

theorem mapStatus_body (q : Run) (s : State) : xMapStatus q (started s) = setReply (started s) 0 0 (mapStatusBytes s) := by
  rw [xMapStatus, replyOk]
  congr 1
  have split : (List.range 4).flatMap (fun k => beBytes 8 (ctrVal s 4 k)) =
      ctr8 s 4 0 ++ ctr8 s 4 1 ++ ctr8 s 4 2 ++ ctr8 s 4 3 := by
    simp [List.range_succ, ctr8]
  rw [mapStatusBytes, split, ← List.append_assoc, ← List.append_assoc, ← List.append_assoc]
  rfl

theorem mapStatusBytes_fields (s : State) :
    let b := mapStatusBytes s
    bit (b.getD 0 0) 0 = s.map.bActive ∧ pkNat b 2 2 = s.map.changed % 65536 ∧
      ∀ k : Fin 4, pkNat b (10 + 8 * k) 8 = ctrVal s 4 k % 2 ^ 64 := by
  refine ⟨?_, ?_, fun k => ?_⟩
  · show bit ((readCore s 0).setWidth 8) 0 = _
    rw [readCore, if_pos rfl]
    generalize (s.com.ents.any _) = armed
    cases s.map.bActive <;> cases armed <;> decide
  · rw [mapStatusBytes, List.append_assoc, List.append_assoc, List.append_assoc]
    exact (pkNat_append [_, _] _ 0 2).trans (pkNat_here 2 _ _)
  · have head : ([(readCore s 0).setWidth 8, 0] ++ beBytes 2 s.map.changed ++ eccAddrBytes s.map ++ [0, 0, 0]).length = 10 := by
      simp [eccAddrBytes_length]
    have place := pkNat_append ([(readCore s 0).setWidth 8, 0] ++ beBytes 2 s.map.changed ++ eccAddrBytes s.map ++ [0, 0, 0])
      ((List.range 4).flatMap (fun k => beBytes 8 (ctrVal s 4 k))) (8 * k) 8
    rw [head] at place
    refine place.trans ?_
    rw [← List.flatMap_map, pkNat_flatMap _ (by simp)]
    simp

/-- Settles O19: each command is its body on a state that has begun its work. -/
theorem mapReads : Obligations.MapReads := by
  unfold Obligations.MapReads
  intro r q s sound p
  refine ⟨fun h bank span => ?_, fun h holder bank span => ?_, fun h => ?_, fun h holder span => ?_⟩
  · obtain ⟨t, row, facts⟩ := mapRead_row h sound (mapRead_body h bank span)
    exact ⟨t, congrArg _ row, facts⟩
  · obtain ⟨t, row, answers, frame⟩ := mapRead_row h sound (hMapRead_body h holder bank span)
    refine ⟨t, congrArg _ row, ?_, frame⟩
    convert answers using 3
    funext k
    dsimp only
    split
    · rfl
    · exact (beBytes_zero 8).symm
  · obtain ⟨t, row, answers, data, frame⟩ := answer_row h (mapStatus_body q s)
    obtain ⟨active, changed, counts⟩ := mapStatusBytes_fields s
    rw [← data] at answers active changed counts
    exact ⟨t, congrArg _ row, answers, active, changed, counts, frame⟩
  · obtain ⟨t, row, answers, _, frame⟩ := answer_row h (hSlotStats_body h holder span)
    rw [show slotRec s (pkNat r.params 0 2) = _ from funext fun g => slotRec_eq s _ g] at answers
    exact ⟨t, congrArg _ row, answers, frame⟩

end Sys2Proof.Machine
end

section
/-! The device family of commands (O35). -/

namespace Sys2Proof.Machine

open Sys2Proof

/-! Commands that change nothing but their own execution, and commands that leave an effect to their completion. -/

/-- A state is another one but for the execution of its command. -/
abbrev RunOnly (s t : State) : Prop := t = { s with vcp := { s.vcp with run := t.vcp.run } }

theorem setReply_shape (s : State) (st d : Byte) (data : Bytes) :
    ∃ x, setReply s st d data = { s with vcp := { s.vcp with run := x } } := by
  refine ⟨(setReply s st d data).vcp.run, ?_⟩
  unfold setReply
  split <;> rfl

/-- The row of a command that answers at once and changes nothing else. -/
theorem read_row {op : BitVec 16} {r : Req} {q : Run} {s : State} (h : Accepted op r q s) {body : Run → State → State}
    {st d : Byte} {data : Bytes} (reply : body q (started s) = setReply (started s) st d data) :
    ∃ t, live s (runOnce op r body s) = t ∧ Answers t st d data ∧ answer t = data ∧ RunOnly s t := by
  obtain ⟨t, row, answers, data, -⟩ := answer_row h reply
  refine ⟨t, row, answers, data, ?_⟩
  obtain ⟨x, shape⟩ := setReply_shape (started s) st d _
  rw [← row, once_row h, reply, shape]
  rfl

/-- The same of a command in several parts. -/
theorem readSteps_row {op : BitVec 16} {r : Req} {q : Run} {s : State} (h : Accepted op r q s) {body : Run → State → State}
    {st d : Byte} {data : Bytes} (reply : body q (started s) = setReply (started s) st d data) :
    ∃ t, live s (runSteps op r body s) = t ∧ Answers t st d data ∧ RunOnly s t := by
  obtain ⟨t, row, answers, -, only⟩ := read_row h reply
  exact ⟨t, ((steps_row h body).trans (once_row h body).symm).trans row, answers, only⟩

/-- What leaves an effect to the completion. -/
theorem replyEnd_answers {s : State} {q : Run} (run : s.vcp.run = some q) (e : EndAct) :
    Answers (replyEnd s e) 0 0 [] ∧ AtEnd (replyEnd s e) e := by
  have run := onRun_run run (fun r => { r with atEnd := some e })
  refine ⟨setReply_answers run _ _ _, ?_⟩
  simp [AtEnd, replyEnd, replyOk, setReply, run, onVcp]

theorem replyEnd_shape (s : State) (e : EndAct) : ∃ x, replyEnd s e = { s with vcp := { s.vcp with run := x } } := by
  obtain ⟨x, shape⟩ := setReply_shape (onRun s (fun r => { r with atEnd := some e })) 0 0 []
  exact ⟨x, shape⟩

/-! Commands whose row makes a guarded pair. -/

/-- The first write of a command's pair opens it. -/
theorem pairFirst_row {op : BitVec 16} {r : Req} {q : Run} {s : State} (h : Accepted op r q s) (none_ : s.regs.pairs = [])
    {body : Run → State → State} {a : Nat} {v : Word}
    (opens : body q (started s) = onRun (openPair (started s) 0 a v) (fun x => { x with work := 2 })) :
    ∃ t, live s (runSteps op r body s) = t ∧ replyNow t = none ∧ t.vcp.run.map (·.work) = some 2 ∧
      t = { s with vcp := { s.vcp with run := t.vcp.run }
                   regs := { s.regs with pairs := [(0, { addr := a, val := v, at_ := s.sfp })] } } := by
  have free : tfind (started s).regs.pairs 0 = none := by
    show tfind s.regs.pairs 0 = none
    rw [none_]
    rfl
  obtain ⟨⟨-, -, run, -, -, open_, -⟩, -⟩ := id h
  rw [steps_row h, opens, openPair_free free]
  have run' := onRun_run (s := pairOpened (started s) 0 a v s.sfp) (started_run run) (fun x => { x with work := 2 })
  refine ⟨_, rfl, ?_, ?_, ?_⟩
  · exact (congrArg (·.bind (·.reply)) run').trans open_
  · exact congrArg (·.map (·.work)) run'
  · show { s with vcp := _, regs := { s.regs with pairs := tset s.regs.pairs 0 _ } } = _
    rw [none_]
    rfl

theorem pairRows_first {q : Run} (fresh : q.work = 0) (a : Nat) (v : Word) (s : State) (go : State → State) :
    pairRows a v q s go = onRun (openPair s 0 a v) (fun x => { x with work := 2 }) := if_pos fresh

/-- At its second write the value takes effect, and the command goes on. -/
theorem pairRows_second {op : BitVec 16} {r : Req} {q : Run} {a : Nat} {v : Word} {s : State}
    (h : SecondWrite op r q 0 a v s) (go : State → State) :
    pairRows a v q s go = go (gwTake q.accept (closePair s 0) a (kindMask (kindAct a)) v) := by
  obtain ⟨p, found, addr, rfl, inTime⟩ := h.found
  obtain ⟨-, -, -, -, -, -, work, -⟩ := h
  have done := secondWrite_done found inTime addr (c := ~~~p.val) BitVec.not_not.symm
  unfold pairRows
  rw [work]
  refine (if_neg (by decide)).trans ?_
  dsimp only
  rw [done]

/-- A register of the system block whose value only stands there. -/
theorem gwTake_value (acc : Sfp) (s : State) {a : Nat} (v : Word) (kept : a = aSys + 0x020 ∨ a = aSys + 0x028) :
    gwTake acc (closePair s 0) a (kindMask (kindAct a)) v = valueTaken s a (kindMask (kindAct a)) v := by
  rcases kept with rfl | rfl <;> rfl

theorem sfpDist_self (p : Sfp) : sfpDist p p = 0 := by
  have zero : (p.mfc + (mfcMod - p.mfc % mfcMod)) % mfcMod = 0 := by
    unfold mfcMod
    omega
  simp [sfpDist, mfcDiff, zero, mfcMod]

/-- A command takes the value of the register away again with a pair of its own. -/
theorem guardedPair_value (s : State) {a : Nat} (v : Word) (kept : a = aSys + 0x020 ∨ a = aSys + 0x028)
    (free : tfind s.regs.pairs 0 = none) : guardedPair s a v =
      valueTaken (pairOpened s 0 a v s.sfp) a (kindMask (kindAct a)) v := by
  have inTime : sfpDist s.sfp s.sfp ≤ 100000 := by
    rw [sfpDist_self]
    decide
  have found : tfind (pairOpened s 0 a v s.sfp).regs.pairs 0 = some { addr := a, val := v, at_ := s.sfp } :=
    tfind_tset_same _ _ _
  unfold guardedPair sysSecond
  rw [openPair_free free, secondWrite_done found inTime rfl BitVec.not_not.symm]
  exact gwTake_value _ _ _ kept

/-! The device family (Tables 13-2 and 13-3). -/

theorem getD_flatMap {α : Type} (f : α → Bytes) {n : Nat} (len : ∀ x, (f x).length = n) (l : List α) {i j : Nat}
    (inside : i < l.length) (below : j < n) : (l.flatMap f).getD (n * i + j) 0 = (f l[i]).getD j 0 := by
  induction l generalizing i with
  | nil => simp at inside
  | cons x l ih =>
    rw [List.flatMap_cons]
    cases i with
    | zero => simp [List.getElem?_append_left, len, below]
    | succ i =>
      have place : n * (i + 1) + j = (f x).length + (n * i + j) := by
        rw [len]
        ring
      have := ih (i := i) (by simpa using inside)
      simp only [List.getD_eq_getElem?_getD] at this ⊢
      rw [place, List.getElem?_append_right (Nat.le_add_right _ _), Nat.add_sub_cancel_left, this]
      rfl

theorem flatMap_length {α : Type} (f : α → Bytes) {n : Nat} (len : ∀ x, (f x).length = n) (l : List α) :
    (l.flatMap f).length = n * l.length := by
  simp [List.length_flatMap, len, Nat.mul_comm]

/-- The bits of a sum of flags. -/
theorem testBit_flags (f : Nat → Bool) (n : Nat) :
    (List.range n).foldl (fun a j => a + at1 (f j) j) 0 < 2 ^ n ∧
      ∀ j < n, ((List.range n).foldl (fun a j => a + at1 (f j) j) 0).testBit j = f j := by
  induction n with
  | zero => exact ⟨Nat.one_pos, fun j below => absurd below (Nat.not_lt_zero j)⟩
  | succ n ih =>
    obtain ⟨small, bits_⟩ := ih
    rw [List.range_succ, List.foldl_append, List.foldl_cons, List.foldl_nil]
    generalize (List.range n).foldl (fun a j => a + at1 (f j) j) 0 = x at small bits_
    rcases on : f n with _ | _
    · refine ⟨by simp only [at1, Bool.false_eq_true, if_false]; omega, fun j below => ?_⟩
      rcases Nat.lt_succ_iff_lt_or_eq.mp below with inside | rfl
      · exact bits_ j inside
      · rw [on]
        exact Nat.testBit_lt_two_pow small
    · refine ⟨by simp only [at1, if_true]; omega, fun j below => ?_⟩
      show (x + 2 ^ n).testBit j = f j
      rw [Nat.add_comm]
      rcases Nat.lt_succ_iff_lt_or_eq.mp below with inside | rfl
      · rw [Nat.testBit_two_pow_add_gt inside, bits_ j inside]
      · rw [Nat.testBit_two_pow_add_eq, Nat.testBit_lt_two_pow small, on]
        rfl

theorem groupBits_length (l : List Nat) : (groupBits l).length = 512 := by simp [groupBits]

theorem groupBits_bit (l : List Nat) (g : Fin 4095) : bit ((groupBits l).getD (g / 8) 0) (g % 8) = l.contains g.val := by
  have inside : g.val / 8 < 512 := by omega
  have byte : (groupBits l).getD (g / 8) 0 = by1 ((List.range 8).foldl
      (fun a j => a + at1 (l.contains (8 * (g / 8) + j) || 8 * (g.val / 8) + j == 4095) j) 0) := by
    simp [groupBits, inside]
  rw [byte, bit_by1 _ _ (Nat.mod_lt _ (by decide)), (testBit_flags _ 8).2 _ (Nat.mod_lt _ (by decide)), Nat.div_add_mod]
  simp [show g.val ≠ 4095 by omega]

theorem groupsOf_contains (p : Bytes) (g : Fin 4095) : (groupsOf p).contains g.val = bit (p.getD (g / 8) 0) (g % 8) := by
  rw [Bool.eq_iff_iff, List.contains_iff_mem, groupsOf, List.mem_filter, List.mem_range]
  exact and_iff_right g.isLt

/-- The last item of a device is the one that stands. -/
theorem routes_last {d : Nat → Nat} {port : Nat → Nat} (t : Tbl Byte) (n : Nat) {i : Nat} (inside : i < n)
    (last : ∀ j, i < j → j < n → d j ≠ d i) :
    tget 0xFF (((List.range n).map (fun k => (d k, port k))).foldl (fun t x => tput 0xFF t x.1 (by1 x.2)) t) (d i)
      = by1 (port i) := by
  induction n with
  | zero => exact absurd inside (Nat.not_lt_zero i)
  | succ n ih =>
    rw [List.range_succ, List.map_append, List.foldl_append]
    refine Eq.trans (tget_tput _ _ _ _ _) ?_
    rcases Nat.lt_succ_iff_lt_or_eq.mp inside with before | rfl
    · rw [if_neg (fun same => last n before (Nat.lt_succ_self n) (by simpa using same.symm))]
      exact ih before fun j after below => last j after (Nat.lt_succ_of_lt below)
    · rw [if_pos rfl]

theorem groupMemberSet_body {r : Req} {q : Run} {s : State} (h : Accepted 0x0104 r q s) : xGroupMemberSet true q (started s) =
    netSave (started s) (groupsOf r.params) s.vcp.route s.vcp.relayPorts := by
  rw [xGroupMemberSet, h.1.2.2.2.1]
  exact if_neg (by decide)

theorem groupMemberGet_body (q : Run) (s : State) :
    xGroupMemberGet q (started s) = setReply (started s) 0 0 (groupBits s.vcp.members) := rfl

/-- What a network command leaves: saved at once, in use at its completion. -/
theorem netSave_facts {s : State} {q : Run} (h : s.vcp.run = some q) (m : List Nat) (rt : Tbl Byte) (rp : BitVec 128) :
    let t := netSave (started s) m rt rp
    Answers t 0 0 [] ∧ AtEnd t (.net m rt rp) ∧ t.flash.net = some (m, rt, rp) ∧
      t = { s with vcp := { s.vcp with run := t.vcp.run }
                   flash := { s.flash with net := t.flash.net, saves := t.flash.saves } } := by
  obtain ⟨answers, ends⟩ := replyEnd_answers
    (s := savedOnce (onFlash (started s) (fun f => { f with net := some (m, rt, rp) }))) (started_run h) (.net m rt rp)
  obtain ⟨x, shape⟩ := replyEnd_shape
    (savedOnce (onFlash (started s) (fun f => { f with net := some (m, rt, rp) }))) (.net m rt rp)
  intro t
  have shape : t = _ := shape
  refine ⟨answers, ends, ?_, ?_⟩ <;> rw [shape] <;> rfl

/-- The row of a network command. -/
theorem net_row {op : BitVec 16} {r : Req} {q : Run} {s : State} (h : Accepted op r q s) {body : Run → State → State}
    {m : List Nat} {rt : Tbl Byte} {rp : BitVec 128} (saves : body q (started s) = netSave (started s) m rt rp) :
    ∃ t, live s (runOnce op r body s) = t ∧ Answers t 0 0 [] ∧ AtEnd t (.net m rt rp) ∧ t.flash.net = some (m, rt, rp) ∧
      t = { s with vcp := { s.vcp with run := t.vcp.run }
                   flash := { s.flash with net := t.flash.net, saves := t.flash.saves } } := by
  rw [once_row h, saves]
  exact ⟨_, rfl, netSave_facts h.1.2.2.1 m rt rp⟩

/-- A save that fails. -/
theorem flashFail_row {op : BitVec 16} {r : Req} {q : Run} {s : State} (h : Accepted op r q s) {body : Run → State → State}
    (fails : body q (started s) = flashFail (started s)) :
    ∃ t, live s (runOnce op r body s) = t ∧ Answers t 4 0x4B [] ∧ RunOnly s t := by
  obtain ⟨t, row, answers, -, only⟩ := read_row h fails
  exact ⟨t, row, answers, only⟩

theorem pk1_front (a b : Bytes) {i : Nat} (inside : i < a.length) : pk1 (a ++ b) i = pk1 a i := by
  simp [pk1, List.getElem?_append_left inside]

theorem pkNat_front (a b : Bytes) {lo n : Nat} (inside : lo + n ≤ a.length) : pkNat (a ++ b) lo n = pkNat a lo n := by
  unfold pkNat
  refine congrArg beNat (List.map_congr_left fun i listed => ?_)
  obtain ⟨j, below, rfl⟩ : ∃ j < n, lo + j = i := by simpa [rangeFrom] using listed
  simp [List.getElem?_append_left (show lo + j < a.length by omega)]

/-- The bytes of DEV_INFO before the position. -/
def devInfoHead (s : State) : Bytes :=
  beBytes 2 s.pins.devid.toNat ++ (by1 (b2n s.pins.twinPos + 2 * pairCode s.pair.st) ::
    (readReg s (aSys + 0x008)).setWidth 8 :: by1 (b2n (decide (s.phase = .ready)) + 2 * b2n s.seq.imageB) :: 0 ::
    (beBytes 4 (fwVersion s).toNat ++ (beBytes 4 s.seq.boot ++ (beBytes 2 Config.skoloRev.toNat ++ (0 :: 0 ::
      beBytes 8 Config.serial.toNat)))))

theorem readReg_started (s : State) : readReg (started s) (aSys + 0x008) = readReg s (aSys + 0x008) := rfl

theorem devInfo_body (q : Run) (s : State) :
    xDevInfo q (started s) = setReply (started s) 0 0 (devInfoHead s ++ sfpBytes s.sfp) := by
  rw [xDevInfo, replyOk, readReg_started]
  congr 1

theorem devInfoHead_fields (s : State) : (devInfoHead s).length = 26 ∧ pkNat (devInfoHead s) 0 2 = s.pins.devid.toNat ∧
    pk1 (devInfoHead s) 2 = b2n s.pins.twinPos + 2 * pairCode s.pair.st ∧ pkNat (devInfoHead s) 10 4 = s.seq.boot % 2 ^ 32 := by
  have devid := s.pins.devid.isLt
  refine ⟨?_, ?_, ?_, ?_⟩
  · simp [devInfoHead]
  · rw [devInfoHead, pkNat_here]
    omega
  · rw [devInfoHead, pk1_skip _ _ _ _ (by decide)]
    refine (by1_toNat _).trans ?_
    cases s.pins.twinPos <;> cases s.pair.st <;> rfl
  · simp [devInfoHead]

theorem keyRec_length (s : State) (k : Nat) : (keyRec s k).length = 44 := by
  simp [keyRec, authHash, Config.authHash]

theorem keyInfo_body {r : Req} {q : Run} {s : State} (h : Accepted 0x0103 r q s) (some_ : 1 ≤ pk1 r.params 1)
    (most : pk1 r.params 1 ≤ 32) (last : pk1 r.params 0 + pk1 r.params 1 ≤ 64) :
    xKeyInfo q (started s) = setReply (started s) 0 0 ([by1 (pk1 r.params 0), by1 (pk1 r.params 1)]
      ++ (rangeFrom (pk1 r.params 0) (pk1 r.params 1)).flatMap (keyRec s)) := by
  rw [xKeyInfo, h.1.2.2.2.1]
  exact if_neg (by omega)

theorem keyInfo_fields (s : State) {f n : Nat} (last : f + n ≤ 64) :
    let b := [by1 f, by1 n] ++ (rangeFrom f n).flatMap (keyRec s)
    b.length = 2 + 44 * n ∧ ∀ i < n, pk1 b (2 + 44 * i) = f + i ∧
      pk1 b (3 + 44 * i) = b2n (authOf s (f + i)).enabled ∧ b.getD (5 + 44 * i) 0 = (authOf s (f + i)).gen := by
  have count : (rangeFrom f n).length = n := by simp [rangeFrom]
  refine ⟨?_, fun i below => ?_⟩
  · rw [List.length_append, flatMap_length _ (keyRec_length s), count]
    rfl
  · have at_ : ∀ j < 44, ([by1 f, by1 n] ++ (rangeFrom f n).flatMap (keyRec s)).getD (2 + 44 * i + j) 0 =
        (keyRec s (f + i)).getD j 0 := by
      intro j inside
      have place := getD_flatMap (keyRec s) (keyRec_length s) (rangeFrom f n) (i := i) (by omega) inside
      have key : (rangeFrom f n)[i]'(by omega) = f + i := by simp [rangeFrom]
      rw [key] at place
      rw [← place]
      simp only [List.getD_eq_getElem?_getD]
      rw [List.getElem?_append_right (by simp; omega)]
      simp only [List.length_cons, List.length_nil]
      congr 2
      omega
    have at0 := at_ 0 (by decide)
    have at1_ := at_ 1 (by decide)
    have at3 := at_ 3 (by decide)
    refine ⟨?_, ?_, ?_⟩
    · rw [pk1, show 2 + 44 * i = 2 + 44 * i + 0 from rfl, at0]
      exact (by1_toNat (f + i)).trans (by omega)
    · rw [pk1, show 3 + 44 * i = 2 + 44 * i + 1 by omega, at1_]
      refine (by1_toNat _).trans ?_
      cases (authOf s (f + i)).enabled <;> rfl
    · rw [show 5 + 44 * i = 2 + 44 * i + 3 by omega, at3]
      rfl

theorem routeSet_body {r : Req} {q : Run} {s : State} (h : Accepted 0x0106 r q s) (some_ : 1 ≤ pkNat r.params 0 2)
    (most : pkNat r.params 0 2 ≤ 366) (ports : (routeItems r.params).all (fun x => decide (x.2 ≤ 127) || x.2 == 0xFF) = true) :
    xRouteSet true q (started s) = netSave (started s) s.vcp.members
        ((routeItems r.params).foldl (fun t x => tput 0xFF t x.1 (by1 x.2)) s.vcp.route) s.vcp.relayPorts ∧
      xRouteSet false q (started s) = flashFail (started s) := by
  have known : (routeItems r.params).any (fun x => decide (127 < x.2) && x.2 != 0xFF) = false := by
    rw [List.any_eq_false]
    intro x inside
    have := List.all_eq_true.mp ports x inside
    simp only [Bool.or_eq_true, decide_eq_true_eq, beq_iff_eq] at this
    simp only [Bool.and_eq_true, decide_eq_true_eq, bne_iff_ne]
    omega
  have inRange : ¬ (pkNat r.params 0 2 < 1 ∨ 366 < pkNat r.params 0 2 ∨
      (routeItems r.params).any (fun x => decide (127 < x.2) && x.2 != 0xFF) = true) := by
    rw [known]
    simp
    omega
  unfold xRouteSet
  rw [h.1.2.2.2.1]
  exact ⟨if_neg inRange, if_neg inRange⟩

theorem routeGet_body {r : Req} {q : Run} {s : State} (h : Accepted 0x0107 r q s) (first : pkNat r.params 0 2 ≤ 4095)
    (some_ : 1 ≤ pkNat r.params 2 2) (most : pkNat r.params 2 2 ≤ 1024)
    (last : pkNat r.params 0 2 + pkNat r.params 2 2 ≤ 4096) : xRouteGet q (started s) = setReply (started s) 0 0
      (beBytes 2 (pkNat r.params 0 2) ++ beBytes 2 (pkNat r.params 2 2) ++ beBytes 16 s.vcp.relayPorts.toNat
        ++ (rangeFrom (pkNat r.params 0 2) (pkNat r.params 2 2)).map (fun d => tget 0xFF s.vcp.route d)) := by
  rw [xRouteGet, h.1.2.2.2.1]
  exact if_neg (by omega)

theorem relayPortsSet_body {r : Req} {q : Run} {s : State} (h : Accepted 0x0108 r q s) (some_ : pkMask r.params 0 ≠ 0) :
    xRelayPortsSet true q (started s) = netSave (started s) s.vcp.members s.vcp.route (pkMask r.params 0) ∧
      xRelayPortsSet false q (started s) = flashFail (started s) := by
  unfold xRelayPortsSet
  rw [h.1.2.2.2.1]
  exact ⟨if_neg some_, if_neg some_⟩

theorem cfgSave_row {r : Req} {q : Run} {s : State} (h : Accepted 0x0109 r q s) (ok : Bool) :
    ∃ t, exec (.cfgSave r ok) s = .next t ∧ replyNow t = none ∧
      t = { s with vcp := t.vcp, com := { s.com with cfgSave := some (bit (r.params.getD 0 0) 0, ok) } } := by
  obtain ⟨⟨-, -, run, req, -, open_, -⟩, -⟩ := id h
  have row := once_row h (xCfgSave ok)
  rw [xCfgSave, req] at row
  exact ⟨_, congrArg Host.Outcome.next row, (congrArg (·.bind (·.reply)) (started_run run)).trans open_, rfl⟩

theorem cfgInfo_saved {q : Run} {s : State} {c : SavedCfg} (saved : s.flash.cfg = some c) :
    xCfgInfo q (started s) = setReply (started s) 0 0 ([by1 (1 + 2 * b2n c.auto), 0] ++ beBytes 4 s.flash.saves
      ++ beBytes 4 c.boot ++ sfpBytes c.at_ ++ beBytes 4 (Config.cfgImageCrc s.flash.saves).toNat) := by
  rw [xCfgInfo, show (started s).flash.cfg = some c from saved]
  rfl

theorem cfgInfo_fields (c : SavedCfg) (n : Nat) (crc : Bytes) :
    let b := [by1 (1 + 2 * b2n c.auto), 0] ++ beBytes 4 n ++ beBytes 4 c.boot ++ sfpBytes c.at_ ++ crc
    pk1 b 0 = 1 + 2 * b2n c.auto ∧ pkNat b 2 4 = n % 2 ^ 32 ∧ slice b 10 10 = sfpBytes c.at_ := by
  refine ⟨?_, ?_, ?_⟩
  · refine (by1_toNat _).trans ?_
    cases c.auto <;> rfl
  · rw [List.append_assoc, List.append_assoc, List.append_assoc]
    exact (pkNat_append [_, _] _ 0 4).trans (pkNat_here 4 _ _)
  · have here := slice_here ([by1 (1 + 2 * b2n c.auto), 0] ++ beBytes 4 n ++ beBytes 4 c.boot) (sfpBytes c.at_) crc
    rw [sfpBytes_length] at here
    have head : ([by1 (1 + 2 * b2n c.auto), 0] ++ beBytes 4 n ++ beBytes 4 c.boot).length = 10 := by simp
    rw [head] at here
    exact here

/-- The bytes of CFG_INFO of a configuration that is not valid. -/
def unsavedBytes (s : State) : Bytes :=
  let d := (drawBytes s 18).1
  [0, 0] ++ beBytes 4 s.flash.saves ++ d.take 4 ++ sfpBytes (sfpOfBytes d 4) ++ d.drop 14

theorem cfgInfo_unsaved {r : Req} {q : Run} {s : State} (h : Accepted 0x010A r q s) (empty : s.flash.cfg = none) :
    ∃ t, exec (.cfgInfo r) s = .next t ∧ Answers t 0 0 (answer t) ∧ pk1 (answer t) 0 = 0 ∧
      t = { s with vcp := { s.vcp with run := t.vcp.run }, fresh := t.fresh } := by
  have run : (drawBytes (started s) 18).2.vcp.run = some { q with work := 1 } := started_run h.1.2.2.1
  have body : xCfgInfo q (started s) = setReply (drawBytes (started s) 18).2 0 0 (unsavedBytes (started s)) := by
    rw [xCfgInfo, show (started s).flash.cfg = none from empty]
    rfl
  have data := setReply_answer run 0 0 (unsavedBytes (started s))
  have answers := setReply_answers run 0 0 (unsavedBytes (started s))
  obtain ⟨x, shape⟩ := setReply_shape (drawBytes (started s) 18).2 0 0 (unsavedBytes (started s))
  refine ⟨_, congrArg Host.Outcome.next ((once_row h xCfgInfo).trans body), ?_, ?_, by rw [shape]; rfl⟩
  · rw [data]
    exact answers
  · rw [data]
    rfl

/-! KEY_WRITE and DEV_RESET, which make a guarded pair. -/

/-- The key slots are stored and saved, and the slot's sequence numbers forgotten. -/
def keyStored (s : State) (k : Nat) (t : Tbl AuthSt) : State :=
  savedOnce (onFlash (onVcp s (fun v => { v with auths := t, replay := tdel v.replay k }))
    (fun f => { f with keys := some t, resv := some (tdel (f.resv.getD []) k) }))

theorem keyStored_shape (s : State) (k : Nat) (t : Tbl AuthSt) : ∃ resv saves, keyStored s k t = { s with
    vcp := { s.vcp with auths := t, replay := tdel s.vcp.replay k }
    flash := { s.flash with keys := some t, resv := resv, saves := saves } } := ⟨_, _, rfl⟩

theorem valueTaken_shape (s : State) (a mask : Nat) (v : Word) : valueTaken s a mask v = { s with regs := { s.regs with
    gw := tput 0 s.regs.gw a (v &&& word mask), pairs := tdel s.regs.pairs 0 } } := rfl

/-- KEY_WE taken back to 0. -/
theorem guardedPair_off {s : State} (free : tfind s.regs.pairs 0 = none) : ∃ gw pairs, tget 0 gw (aSys + 0x028) = (0 : Word) ∧
    guardedPair s (aSys + 0x028) 0 = { s with regs := { s.regs with gw := gw, pairs := pairs } } := by
  rw [guardedPair_value s 0 (.inr rfl) free, valueTaken_shape]
  exact ⟨_, _, (tget_tput_same _ _ _ _).trans BitVec.zero_and, rfl⟩

/-- The answer of a KEY_WRITE that has taken KEY_WE back to 0. -/
theorem keyClosed {s : State} {q : Run} (run : s.vcp.run = some q) (free : tfind s.regs.pairs 0 = none) (st d : Byte)
    (data : Bytes) : Answers (setReply (guardedPair s (aSys + 0x028) 0) st d data) st d data ∧
      ∃ x gw pairs, tget 0 gw (aSys + 0x028) = (0 : Word) ∧ setReply (guardedPair s (aSys + 0x028) 0) st d data =
        { s with vcp := { s.vcp with run := x }, regs := { s.regs with gw := gw, pairs := pairs } } := by
  obtain ⟨gw, pairs, off, same⟩ := guardedPair_off free
  rw [same]
  obtain ⟨x, shape⟩ := setReply_shape { s with regs := { s.regs with gw := gw, pairs := pairs } } st d data
  exact ⟨setReply_answers (s := { s with regs := { s.regs with gw := gw, pairs := pairs } }) run st d data, x, gw, pairs, off,
    shape⟩

section
variable {r : Req} {q : Run} {s : State} (slot : pk1 r.params 0 ≤ 63) (cls : pk1 r.params 2 ≤ 2) (holder : pkNat r.params 4 2 ≤ 1023)
include slot cls holder

theorem keyWrite_body (req : q.req = r) (ok : Bool) {u : State} (auths : u.vcp.auths = s.vcp.auths)
    (kept : hasOperator (tput {} s.vcp.auths (pk1 r.params 0) (keyNew s r.params)) = true) :
    ∃ go, xKeyWrite ok q u = pairRows (aSys + 0x028) 1 q u go ∧ ∀ s1 : State, go s1 =
      if !ok then flashFail (guardedPair s1 (aSys + 0x028) 0)
      else
        replyOk (guardedPair (keyStored s1 (pk1 r.params 0)
          (tput {} s.vcp.auths (pk1 r.params 0) (keyNew s r.params))) (aSys + 0x028) 0) [by1 (pk1 r.params 0), (keyNew s r.params).gen] := by
  have new : keyNew u r.params = keyNew s r.params := by
    simp only [keyNew, authOf, auths]
  have inRange : ¬ (63 < pk1 r.params 0 ∨ 2 < pk1 r.params 2 ∨ 1023 < pkNat r.params 4 2) := by omega
  refine ⟨_, ?_, fun s1 => rfl⟩
  unfold xKeyWrite
  rw [req]
  dsimp only
  rw [new, auths, if_neg inRange, kept]
  rfl

theorem keyWrite_opens (h : Accepted 0x0102 r q s) (ok : Bool) (none_ : s.regs.pairs = [])
    (kept : hasOperator (tput {} s.vcp.auths (pk1 r.params 0) (keyNew s r.params)) = true) :
    ∃ t, exec (.keyWrite r ok) s = .next t ∧ replyNow t = none ∧ t.vcp.run.map (·.work) = some 2 ∧
      t = { s with vcp := { s.vcp with run := t.vcp.run }
                   regs := { s.regs with pairs := [(0, { addr := aSys + 0x028, val := 1, at_ := s.sfp })] } } := by
  obtain ⟨go, body, -⟩ := keyWrite_body (u := started s) slot cls holder h.1.2.2.2.1 ok rfl kept
  obtain ⟨t, row, facts⟩ := pairFirst_row h none_ (body.trans (pairRows_first h.1.2.2.2.2.2.2 _ _ _ _))
  exact ⟨t, congrArg Host.Outcome.next row, facts⟩

theorem keyWrite_last (h : Accepted 0x0102 r q s) (ok : Bool)
    (lost : hasOperator (tput {} s.vcp.auths (pk1 r.params 0) (keyNew s r.params)) = false) :
    ∃ t, exec (.keyWrite r ok) s = .next t ∧ Answers t 4 0x4A [] ∧ RunOnly s t := by
  have inRange : ¬ (63 < pk1 r.params 0 ∨ 2 < pk1 r.params 2 ∨ 1023 < pkNat r.params 4 2) := by omega
  have body : xKeyWrite ok q (started s) = setReply (started s) 4 0x4A [] := by
    unfold xKeyWrite
    rw [h.1.2.2.2.1]
    refine (if_neg inRange).trans (if_pos ?_)
    show (!hasOperator (tput {} s.vcp.auths (pk1 r.params 0) (keyNew s r.params))) = true
    rw [lost]
    rfl
  obtain ⟨t, row, facts⟩ := readSteps_row h body
  exact ⟨t, congrArg Host.Outcome.next row, facts⟩

variable (h : SecondWrite 0x0102 r q 0 (aSys + 0x028) 1 s)
  (kept : hasOperator (tput {} s.vcp.auths (pk1 r.params 0) (keyNew s r.params)) = true)
include h kept

theorem keyWrite_stores :
    ∃ t, exec (.keyWrite r true) s = .next t ∧ Answers t 0 0 [by1 (pk1 r.params 0), (authOf s (pk1 r.params 0)).gen + 1]
      ∧ authOf t (pk1 r.params 0) = keyNew s r.params ∧ replayOf t (pk1 r.params 0) = {}
      ∧ (∀ k : Fin 64, k.val ≠ pk1 r.params 0 → authOf t k = authOf s k ∧ replayOf t k = replayOf s k)
      ∧ t.flash.keys = some t.vcp.auths ∧ tget 0 t.regs.gw (aSys + 0x028) = 0
      ∧ t = { s with vcp := t.vcp, regs := { s.regs with gw := t.regs.gw, pairs := t.regs.pairs }
                     flash := { s.flash with keys := t.flash.keys, resv := t.flash.resv, saves := t.flash.saves } } := by
  obtain ⟨go, body, goes⟩ := keyWrite_body (u := s) slot cls holder h.2.2.2.1 true rfl kept
  have row := (second_row h (xKeyWrite true)).trans (body.trans (pairRows_second h go))
  rw [gwTake_value _ _ _ (.inr rfl), goes] at row
  replace row := row.trans (if_neg (by decide))
  generalize kindMask (kindAct (aSys + 0x028)) = mask at row
  obtain ⟨resv, saves, stored⟩ := keyStored_shape (valueTaken s (aSys + 0x028) mask 1) (pk1 r.params 0)
    (tput {} s.vcp.auths (pk1 r.params 0) (keyNew s r.params))
  rw [stored, valueTaken_shape] at row
  obtain ⟨answers, x, gw, pairs, off, shape⟩ := keyClosed (s := { s with
      vcp := { s.vcp with auths := tput {} s.vcp.auths (pk1 r.params 0) (keyNew s r.params)
                          replay := tdel s.vcp.replay (pk1 r.params 0) }
      regs := { s.regs with gw := tput 0 s.regs.gw (aSys + 0x028) (1 &&& word mask), pairs := tdel s.regs.pairs 0 }
      flash := { s.flash with keys := some (tput {} s.vcp.auths (pk1 r.params 0) (keyNew s r.params))
                              resv := resv, saves := saves } })
    h.2.2.1 (tfind_tdel_same s.regs.pairs 0) 0 0 [by1 (pk1 r.params 0), (keyNew s r.params).gen]
  refine ⟨_, congrArg Host.Outcome.next (row.trans shape), ?_, ?_⟩
  · rw [shape] at answers
    exact answers
  refine ⟨tget_tput_same _ _ _ _, ?_, fun k other => ⟨tget_tput_ne _ _ _ other, ?_⟩, rfl, off, rfl⟩
  · exact congrArg (fun x => Option.getD x {}) (tfind_tdel_same s.vcp.replay (pk1 r.params 0))
  · exact congrArg (fun x => Option.getD x {}) (tfind_tdel_ne s.vcp.replay other)

theorem keyWrite_fails :
    ∃ t, exec (.keyWrite r false) s = .next t ∧ Answers t 4 0x4B [] ∧ tget 0 t.regs.gw (aSys + 0x028) = 0
      ∧ t = { s with vcp := { s.vcp with run := t.vcp.run }
                     regs := { s.regs with gw := t.regs.gw, pairs := t.regs.pairs } } := by
  obtain ⟨go, body, goes⟩ := keyWrite_body (u := s) slot cls holder h.2.2.2.1 false rfl kept
  have row := (second_row h (xKeyWrite false)).trans (body.trans (pairRows_second h go))
  rw [gwTake_value _ _ _ (.inr rfl), goes] at row
  replace row := row.trans (if_pos rfl)
  obtain ⟨answers, x, gw, pairs, off, shape⟩ := keyClosed (s := valueTaken s (aSys + 0x028)
    (kindMask (kindAct (aSys + 0x028))) 1) h.2.2.1 (tfind_tdel_same _ _) 4 0x4B []
  refine ⟨_, congrArg Host.Outcome.next row, answers, ?_⟩
  rw [flashFail, denied, shape]
  exact ⟨off, rfl⟩
end

theorem devReset_module {r : Req} {q : Run} {s : State} (h : Accepted 0x010B r q s) (module : pk1 r.params 0 = 1) :
    ∃ t, exec (.devReset r) s = .next t ∧ Answers t 0 0 [] ∧ AtEnd t (.devReset true) ∧ RunOnly s t := by
  have row := steps_row h xDevReset
  rw [xDevReset, h.1.2.2.2.1, module] at row
  obtain ⟨answers, ends⟩ := replyEnd_answers (started_run h.1.2.2.1) (.devReset true)
  obtain ⟨x, shape⟩ := replyEnd_shape (started s) (.devReset true)
  exact ⟨_, congrArg Host.Outcome.next row, answers, ends, by rw [shape]; rfl⟩

theorem devReset_opens {r : Req} {q : Run} {s : State} (h : Accepted 0x010B r q s) (sequencer : pk1 r.params 0 = 0)
    (none_ : s.regs.pairs = []) :
    ∃ t, exec (.devReset r) s = .next t ∧ replyNow t = none ∧ t.vcp.run.map (·.work) = some 2 ∧
      t = { s with vcp := { s.vcp with run := t.vcp.run }
                   regs := { s.regs with pairs := [(0, { addr := aSys + 0x018, val := 1, at_ := s.sfp })] } } := by
  have body : xDevReset q (started s) = onRun (openPair (started s) 0 (aSys + 0x018) 1) (fun x => { x with work := 2 }) := by
    rw [xDevReset, h.1.2.2.2.1, sequencer]
    exact (if_neg (by decide)).trans ((if_pos rfl).trans (pairRows_first h.1.2.2.2.2.2.2 _ _ _ _))
  obtain ⟨t, row, facts⟩ := pairFirst_row h none_ body
  exact ⟨t, congrArg Host.Outcome.next row, facts⟩

/-- The reset of a DEV_RESET is due at its own boundary, not at SEQ_RST's. -/
theorem devReset_closes {r : Req} {q : Run} {s : State} (h : SecondWrite 0x010B r q 0 (aSys + 0x018) 1 s)
    (sequencer : pk1 r.params 0 = 0) :
    ∃ t, exec (.devReset r) s = .next t ∧ Answers t 0 0 [] ∧ AtEnd t (.devReset false) ∧
      t = { s with vcp := { s.vcp with run := t.vcp.run }
                   regs := { s.regs with gw := t.regs.gw, pairs := t.regs.pairs } } := by
  have row := second_row h xDevReset
  have close := pairRows_second h (fun t => replyEnd t (.devReset false))
  obtain ⟨-, -, run, req, op, -⟩ := h
  have runs : devResetRuns (valueTaken s (aSys + 0x018) (kindMask (kindAct (aSys + 0x018))) 1) = true := by
    show s.vcp.run.any _ = true
    rw [run]
    exact beq_iff_eq.mpr op
  have take : gwTake q.accept (closePair s 0) (aSys + 0x018) (kindMask (kindAct (aSys + 0x018))) 1 =
      valueTaken s (aSys + 0x018) (kindMask (kindAct (aSys + 0x018))) 1 := by
    show seqRstDue _ = _
    exact if_pos runs
  rw [take] at close
  have body : xDevReset q s = pairRows (aSys + 0x018) 1 q s (fun t => replyEnd t (.devReset false)) := by
    rw [xDevReset, req, sequencer]
    rfl
  obtain ⟨answers, ends⟩ := replyEnd_answers
    (s := valueTaken s (aSys + 0x018) (kindMask (kindAct (aSys + 0x018))) 1) run (.devReset false)
  obtain ⟨x, shape⟩ := replyEnd_shape (valueTaken s (aSys + 0x018) (kindMask (kindAct (aSys + 0x018))) 1) (.devReset false)
  exact ⟨_, congrArg Host.Outcome.next (row.trans (body.trans close)), answers, ends, by rw [shape]; rfl⟩

/-- Settles O35: each command is its body on a state that has begun its work, KEY_WRITE and DEV_RESET in two writes. -/
theorem deviceCommands : Obligations.DeviceCommands := by
  unfold Obligations.DeviceCommands
  intro r q ok c s p keyWe seqRst only saved
  refine ⟨fun h => ?_, fun slot cls holder => ⟨fun kept => ⟨fun h none_ => keyWrite_opens slot cls holder h ok none_ kept,
      fun h => ⟨keyWrite_stores slot cls holder h kept, keyWrite_fails slot cls holder h kept⟩⟩,
      fun h lost => keyWrite_last slot cls holder h ok lost⟩,
    fun h some_ most last => ?_, fun h => ⟨?_, ?_⟩, fun h => ?_, fun h some_ most ports => ⟨?_, ?_⟩, fun h first some_ most last => ?_,
    fun h some_ => ⟨?_, ?_⟩, fun h => cfgSave_row h ok, fun h => ⟨fun saved_ => ?_, fun empty => cfgInfo_unsaved h empty⟩,
    fun h => ⟨fun module => devReset_module h module, fun sequencer none_ => devReset_opens h sequencer none_⟩,
    fun h sequencer => devReset_closes h sequencer⟩
  · obtain ⟨t, row, answers, data, frame⟩ := read_row h (devInfo_body q s)
    obtain ⟨length, devid, twin, boot⟩ := devInfoHead_fields s
    rw [← data] at answers
    refine ⟨t, congrArg _ row, answers, ?_, ?_, ?_, ?_, frame⟩
    · rw [data, pkNat_front _ _ (by rw [length]; decide), devid]
    · rw [data, pk1_front _ _ (by rw [length]; decide), twin]
    · rw [data, pkNat_front _ _ (by rw [length]; decide), boot]
    · rw [data, ← length, List.drop_left]
  · obtain ⟨t, row, answers, data, frame⟩ := read_row h (keyInfo_body h some_ most last)
    obtain ⟨length, recs⟩ := keyInfo_fields s last
    rw [← data] at answers length recs
    exact ⟨t, congrArg _ row, answers, length, fun i below => recs i below, frame⟩
  · have body := groupMemberSet_body h
    have members := groupsOf_contains r.params
    generalize groupsOf r.params = m at body members
    obtain ⟨t, row, facts⟩ := net_row h body
    exact ⟨t, m, congrArg _ row, facts, members⟩
  · obtain ⟨t, row, facts⟩ := flashFail_row h (body := xGroupMemberSet false) rfl
    exact ⟨t, congrArg _ row, facts⟩
  · obtain ⟨t, row, answers, data, frame⟩ := read_row h (groupMemberGet_body q s)
    have length := groupBits_length s.vcp.members
    have members := groupBits_bit s.vcp.members
    rw [← data] at answers length members
    exact ⟨t, congrArg _ row, answers, length, members, frame⟩
  · obtain ⟨t, row, facts⟩ := net_row h (routeSet_body h some_ most ports).1
    refine ⟨t, _, congrArg _ row, facts, fun i inside last => ?_⟩
    have stands := routes_last (d := fun k => pkNat p (2 + 4 * k) 2 % 4096) (port := fun k => pk1 p (4 + 4 * k)) s.vcp.route
      (pkNat p 0 2) inside fun j after below => last ⟨j, by omega⟩ after below
    have small := pk1_lt p (4 + 4 * i)
    exact (congrArg BitVec.toNat stands).trans ((by1_toNat _).trans (Nat.mod_eq_of_lt small))
  · obtain ⟨t, row, facts⟩ := flashFail_row h (routeSet_body h some_ most ports).2
    exact ⟨t, congrArg _ row, facts⟩
  · obtain ⟨t, row, answers, _, frame⟩ := read_row h (routeGet_body h first some_ most last)
    exact ⟨t, congrArg _ row, answers, frame⟩
  · obtain ⟨t, row, facts⟩ := net_row h (relayPortsSet_body h some_).1
    exact ⟨t, congrArg _ row, facts⟩
  · obtain ⟨t, row, facts⟩ := flashFail_row h (relayPortsSet_body h some_).2
    exact ⟨t, congrArg _ row, facts⟩
  · obtain ⟨t, row, answers, data, frame⟩ := read_row h (cfgInfo_saved saved_)
    obtain ⟨flags, saves, pos⟩ := cfgInfo_fields c s.flash.saves (beBytes 4 (Config.cfgImageCrc s.flash.saves).toNat)
    rw [← data] at answers flags saves pos
    exact ⟨t, congrArg _ row, answers, flags, saves, pos, frame⟩

end Sys2Proof.Machine
end

section
/-! Reset values (O51). -/

namespace Sys2Proof.Machine

open Sys2Proof

/-! Reset values (R79, R449, R450), and what a sequencer reset keeps of Thyme. -/

theorem hist_trace_other {a : Nat} (apart : a ≠ hSage) (s : State) (c u o : Nat) (d : Bytes) :
    hist (trace s c u o d) a = hist s a := by
  by_cases full : 1024 ≤ s.sage.fifo.length
  · have set : hist (trace s c u o d) a = hist (sticky s hSage 1) a := by simp [hist, trace, traceRec, full, sticky]
    rw [set, hist_sticky_ne _ _ apart]
  · simp [hist, trace, traceRec, full]

theorem hist_guardFailed {a : Nat} (apart : a ≠ hSage) (s : State) (cause addr : Nat) :
    hist (guardFailed s cause addr) a = hist s a := by
  unfold guardFailed
  exact (hist_trace_other apart _ _ _ _ _).trans (hist_of_get (by simp [cSys]) a)

theorem hist_failPairs {a : Nat} (apart : a ≠ hSage) (s : State) : hist (failPairs s) a = hist s a := by
  have all : ∀ (l : List (Nat × GuardPair)) (u : State),
      hist (forEach l u (fun t kv => guardFailed (closePair t kv.1) 5 kv.2.addr)) a = hist u a := by
    intro l
    induction l with
    | nil => exact fun u => rfl
    | cons x l ih => exact fun u => (ih _).trans (hist_guardFailed apart _ _ _)
  exact all _ s

theorem hist_suspectOpen {a : Nat} (apart : a ≠ hCommit) (s : State) : hist (suspectOpen s) a = hist s a := by
  unfold suspectOpen
  dsimp only
  have kept : hist (setStageBits (onCom s (fun c => { c with cfgSave := none })) 0 (s.com.suspect ||| s.com.stageOpen)) a
      = hist s a := hist_of_get (by simp) a
  split
  · exact kept
  · exact (hist_sticky_ne _ _ apart).trans kept

theorem hist_pairTo {a : Nat} (pair : a ≠ hPair) (sage : a ≠ hSage) (s : State) (n : PairState) (reason : Nat) :
    hist (pairTo s n reason) a = hist s a := by
  unfold pairTo pairChange
  dsimp only
  split
  · rfl
  · refine (hist_trace_other sage _ _ _ _ _).trans ?_
    have counted : ∀ u : State, hist (cPair u 0) a = hist u a := fun u => hist_of_get (by simp [cPair]) a
    have left : ∀ u : State, hist (leaveLines u) a = hist u a := fun u => hist_of_get (by simp) a
    split
    · exact (left _).trans ((counted _).trans (hist_sticky_ne _ _ pair))
    · exact (counted _).trans (hist_sticky_ne _ _ pair)

theorem hist_cutResync {a : Nat} (pair : a ≠ hPair) (sage : a ≠ hSage) (s : State) : hist (cutResync s) a = hist s a := by
  unfold cutResync startResync
  split
  · exact (hist_pairTo pair sage (onPair (pairTo _ _ _) _) _ _).trans (hist_pairTo pair sage (onPair s _) _ _)
  · rfl

/-- What a sequencer reset leaves of Thyme: all of it, and its sticky bits (R79). -/
theorem seqReset_thyme (cause : Nat) (s : State) :
    (seqReset cause s).thy = s.thy ∧ hist (seqReset cause s) hThy = hist s hThy := by
  refine ⟨thy_of_get (by simp) (by simp), ?_⟩
  unfold seqReset
  generalize cut : cutOpcode s = r
  obtain ⟨op, s1⟩ := r
  dsimp only
  have first : hist s1 hThy = hist s hThy := by
    have kept : get .hist (cutOpcode s).2 = get .hist s := by simp
    rw [cut] at kept
    exact hist_of_get kept hThy
  have stopped : ∀ u : State, hist (onMem (onSeq u (fun q => { q with running := false, cause := cause, resetAt := s.sfp }))
      (fun m => { m with powerWait := none })) hThy = hist u hThy := fun u => hist_of_get (by simp) hThy
  rw [stopped]
  calc hist (cutResync (cutRun (failPairs (suspectOpen (trace (sticky s1 hSys 2) 9 1 noObj ([by1 cause] ++ op)))))) hThy
      = hist (cutRun (failPairs (suspectOpen (trace (sticky s1 hSys 2) 9 1 noObj ([by1 cause] ++ op))))) hThy :=
        hist_cutResync (by decide) (by decide) _
    _ = hist (failPairs (suspectOpen (trace (sticky s1 hSys 2) 9 1 noObj ([by1 cause] ++ op)))) hThy :=
        hist_of_get (by simp) hThy
    _ = hist (suspectOpen (trace (sticky s1 hSys 2) 9 1 noObj ([by1 cause] ++ op))) hThy := hist_failPairs (by decide) _
    _ = hist (trace (sticky s1 hSys 2) 9 1 noObj ([by1 cause] ++ op)) hThy := hist_suspectOpen (by decide) _
    _ = hist (sticky s1 hSys 2) hThy := hist_trace_other (by decide) _ _ _ _ _
    _ = hist s1 hThy := hist_sticky_ne _ _ (by decide)
    _ = hist s hThy := first

/-- The history of a twin in reset is empty. -/
theorem moduleReset_history (s : State) (n a : Nat) :
    histBytes ((moduleReset s).thy.hist.getD n {}) = zeros 12 ++ [0x80, 0, 0x0F, 0] ∧ (moduleReset s).thy.hbAccum = 0 ∧
      hist (moduleReset s) a = 0 := by
  refine ⟨?_, rfl, rfl⟩
  rw [show (moduleReset s).thy.hist.getD n {} = ({} : HistEntry) from rfl]
  decide

theorem seqWdtExpire_thyme {s : State} (on : powered s = true) (runs : fwStarted s = true) :
    ∃ u, exec .seqWdtExpire s = .next u ∧ u.thy = s.thy ∧ hist u hThy = hist s hThy := by
  obtain ⟨thyme, bits_⟩ := seqReset_thyme 7 (cSys s 1)
  refine ⟨_, congrArg Host.Outcome.next ((live_on on _).trans (if_pos runs)), ?_, ?_⟩
  · exact thyme.trans (thy_of_get (by simp [cSys]) (by simp [cSys]))
  · exact bits_.trans (hist_of_get (by simp [cSys]) hThy)

/-- Settles O51. -/
theorem resetValues : Obligations.ResetValues := by
  unfold Obligations.ResetValues
  refine ⟨fun a blk idx p g => ?_, fun s n a on => ?_⟩
  · exact ⟨rfl, rfl, rfl, rfl, rfl, rfl, rfl, rfl, rfl, rfl, rfl, rfl, rfl, rfl, rfl, rfl, rfl, rfl, rfl, rfl, rfl, rfl, rfl, rfl,
      rfl, rfl, rfl, rfl, rfl⟩
  · obtain ⟨entries, accum, clear⟩ := moduleReset_history (onPins s (fun p => { p with resetN := true })) n a
    refine ⟨_, congrArg Host.Outcome.next (if_neg on), entries, accum, clear, fun powered_ runs => ?_⟩
    obtain ⟨u, row, thyme, bits_⟩ := seqWdtExpire_thyme powered_ runs
    rw [← thyme]
    exact ⟨u, row, rfl, rfl, rfl, bits_⟩

end Sys2Proof.Machine
end

section
/-! Decisions of protection groups (O21). -/

namespace Sys2Proof.Machine

open Sys2Proof

/-! The decision of a protection group at a frame boundary (R183 to R187). -/

theorem grpOf_onGrp_same (s : State) (g : Nat) (f : GrpSt → GrpSt) : grpOf (onGrp s g f) g = f (grpOf s g) := tget_tput_same _ _ _ _

theorem grpOf_onGrp_ne (s : State) {g h : Nat} (f : GrpSt → GrpSt) (apart : h ≠ g) : grpOf (onGrp s g f) h = grpOf s h :=
  tget_tput_ne _ _ _ apart

/-- No other group has changed. -/
def OthersKept (g : Nat) (s t : State) : Prop := ∀ h, h ≠ g → grpOf t h = grpOf s h

theorem OthersKept.trans {g : Nat} {s u t : State} (h : OthersKept g s u) (k : OthersKept g u t) : OthersKept g s t :=
  fun i apart => (k i apart).trans (h i apart)

theorem OthersKept.of_get {g : Nat} {s t : State} (h : get .grps t = get .grps s) : OthersKept g s t :=
  fun i _ => grpOf_of_get h i

theorem OthersKept.onGrp (g : Nat) (s : State) (f : GrpSt → GrpSt) : OthersKept g s (onGrp s g f) :=
  fun _ apart => grpOf_onGrp_ne s f apart

/-! Counters of a group. -/

theorem ctrVal_pushItem (s : State) (it : ProtItem) (b i : Nat) : ctrVal (pushItem s it) b i = ctrVal s b i := by
  have ctr : (pushItem s it).sage.ctr = s.sage.ctr := by
    unfold pushItem
    dsimp only [onSage]
    split <;> rfl
  rw [ctrVal, ctr, ctrVal]

theorem ctrVal_cGrp_ne (s : State) {g k j : Nat} (apart : j ≠ k) : ctrVal (cGrp s g k) 0x300 (32 * g + j) = ctrVal s 0x300 (32 * g + j) :=
  ctrVal_count_ne _ _ (by omega)

theorem cGrp_counted (s : State) (g k : Nat) : Counted s (cGrp s g k) 0x300 (32 * g + k) := counted_count s _ _

/-! Requests. -/

theorem remoteReq_lt (s : State) (g : Nat) : (remoteReq s g).1 < 16 := by
  unfold remoteReq
  dsimp only
  split
  · split
    · exact bits_lt _ 43 40
    · decide
  · decide

theorem baseReq_le (x : GrpSt) : baseReq x ≤ 14 := by
  unfold baseReq
  repeat' split
  all_goals decide

theorem stateReq_lt (revert : Bool) (x : GrpSt) (base rem : Nat) : stateReq revert x base rem < 16 := by
  have st := x.stReq.isLt
  unfold stateReq
  dsimp only
  repeat' split
  all_goals omega

/-- A manual switch gives way to a higher request. -/
def dropsMs (s : State) (g : Nat) : Bool := (grpOf s g).ms && decide (4 < max (baseReq (grpOf s g)) (remoteReq s g).1)

/-- The group after the drop of a manual switch. -/
def afterDrop (s : State) (g : Nat) : GrpSt := if dropsMs s g then { grpOf s g with ms := false, cmdDrop := true } else grpOf s g

/-- The local request that a group decides. -/
def decidedLoc (s : State) (g : Nat) : Nat :=
  max (baseReq (afterDrop s g)) (stateReq (gRevert (actv s) g) (afterDrop s g) (baseReq (afterDrop s g)) (remoteReq s g).1)

/-- The remote request is the higher. -/
def remoteWins (s : State) (g : Nat) : Bool := decide (decidedLoc s g < (remoteReq s g).1)

/-- The effective request, with its signal, and the selector that a group decides. -/
def decidedEff (s : State) (g : Nat) : Nat := if remoteWins s g then (remoteReq s g).1 else decidedLoc s g
def decidedSig (s : State) (g : Nat) : Bool := if remoteWins s g then (remoteReq s g).2 else reqSig (decidedLoc s g)
def decidedSel (s : State) (g : Nat) : Bool :=
  decidedSig s g && !(decide (gArch (actv s) g = 2) && !bridged (afterDrop s g))

/-- The group as its decision leaves it, but for the message that it then sends. -/
def decidedGrp (s : State) (g : Nat) : GrpSt :=
  let x := afterDrop s g
  let st := stateReq (gRevert (actv s) g) x (baseReq x) (remoteReq s g).1
  { x with
    stReq := BitVec.ofNat 4 st, wtrRun := if decide (st = 2) && !decide (x.stReq.toNat = 2) then 0 else x.wtrRun
    loc := BitVec.ofNat 4 (decidedLoc s g), locSig := reqSig (decidedLoc s g)
    rem := BitVec.ofNat 4 (remoteReq s g).1, remSig := (remoteReq s g).2
    eff := BitVec.ofNat 4 (decidedEff s g), effSig := decidedSig s g, sel := decidedSel s g
    cmdDrop := false, indChg := false, rxChg := false
    eqPend := if decidedSel s g != x.sel then some s.sfp else x.eqPend }

/-- What a decision does before the message is composed. -/
def decidePass (s : State) (g : Nat) : State :=
  let s1 := onGrp s g (fun _ => decidedGrp s g)
  let s2 := if dropsMs s g then cGrp (sticky s1 hProt 0x10) g 6 else s1
  if decidedSel s g != (afterDrop s g).sel then selStore (cGrp (sticky s2 hProt 1) g 0) g (decidedSel s g) else s2

theorem afterDrop_sel (s : State) (g : Nat) : (afterDrop s g).sel = (grpOf s g).sel := by
  unfold afterDrop
  split <;> rfl

section
variable {s : State} {g why : Nat} (sound : (grpOf s g).tblErr = false) (alone : isStandby s = false)
include sound alone

/-- A decision: the group, its map entries, its message and its report. -/
theorem decideGrp_shape : ∃ tx sig,
    decideGrp s g why = apsCompose (decidePass s g) g tx sig ∨
      ∃ it, decideGrp s g why = pushItem (apsCompose (decidePass s g) g tx sig) it := by
  have decides : ¬((grpOf s g).tblErr || isStandby s) = true := by rw [sound, alone]; decide
  refine ⟨if remoteWins s g then 0 else decidedLoc s g, decidedSig s g, ?_⟩
  unfold decideGrp
  simp only [decidePass, decidedGrp, decidedSel, decidedSig, decidedEff, remoteWins, decidedLoc, afterDrop, dropsMs]
  rw [if_neg decides]
  exact iteInduction (motive := fun u => u = _ ∨ ∃ it, u = pushItem _ it) (fun _ => .inr ⟨_, rfl⟩) (fun _ => .inl rfl)
end

/-! What composing the message and the write pass leave. -/

theorem apsCompose_grp (s : State) (g tx : Nat) (sig : Bool) :
    (∃ m q, grpOf (apsCompose s g tx sig) g = { grpOf s g with txMsg := m, seq := q }) ∧
      OthersKept g s (apsCompose s g tx sig) ∧ (apsCompose s g tx sig).sage = s.sage ∧
        (apsCompose s g tx sig).map = s.map ∧ (apsCompose s g tx sig).regs = s.regs := by
  unfold apsCompose
  split
  · dsimp only
    split
    · next o sent =>
      split
      · exact ⟨⟨_, _, rfl⟩, .of_get rfl, rfl, rfl, rfl⟩
      · have sent_ : ∀ (f : GrpSt → GrpSt) (p : Nat) (k : PortSt → PortSt), grpOf (onPort (onGrp s g f) p k) g = f (grpOf s g) :=
          fun f p k => grpOf_onGrp_same s g f
        have other : ∀ (f : GrpSt → GrpSt) (p : Nat) (k : PortSt → PortSt), OthersKept g s (onPort (onGrp s g f) p k) :=
          fun f p k => OthersKept.onGrp g s f
        split
        · exact ⟨⟨_, _, sent_ _ _ _⟩, other _ _ _, rfl, rfl, rfl⟩
        · exact ⟨⟨_, _, grpOf_onGrp_same s g _⟩, .onGrp g s _, rfl, rfl, rfl⟩
    · exact ⟨⟨_, _, grpOf_onGrp_same _ _ _⟩, .onGrp g s _, rfl, rfl, rfl⟩
  · exact ⟨⟨_, _, rfl⟩, .of_get rfl, rfl, rfl, rfl⟩

theorem eccRewrites_frame (l : List Nat) (b : Bool) (m : MapSt) : ∃ ecc scrub,
    l.foldl (fun m i => if eccDouble m b i then m else eccRewrite m b i) m = { m with ecc := ecc, scrub := scrub } := by
  induction l generalizing m with
  | nil => exact ⟨_, _, rfl⟩
  | cons i l ih =>
    rw [List.foldl_cons]
    split
    · exact ih m
    · obtain ⟨ecc, scrub, eq⟩ := ih (eccRewrite m b i)
      exact ⟨ecc, scrub, eq⟩

/-- The write pass of a selector: the members of both banks, the errors of the words it writes, and its own record. -/
theorem selStore_shape (s : State) (g : Nat) (sel : Bool) : ∃ ecc scrub pass at_, selStore s g sel = { s with
    map := { s.map with a := selBank s.map false g sel, b := selBank s.map true g sel, ecc := ecc, scrub := scrub
                        selPass := pass, selAt := at_ } } := by
  have passed : ∀ (m m1 : MapSt) (pass : List Nat), (∃ ecc scrub, m1 = { m with ecc := ecc, scrub := scrub }) →
      ∃ ecc scrub sel at_, ({ m1 with selPass := pass, selAt := some (frameOf s.sfp) } : MapSt) =
        { m with ecc := ecc, scrub := scrub, selPass := sel, selAt := at_ } := by
    rintro m m1 pass ⟨ecc, scrub, rfl⟩
    exact ⟨_, _, _, _, rfl⟩
  set m0 : MapSt := { s.map with a := selBank s.map false g sel, b := selBank s.map true g sel } with m0_def
  set m1 := (membersIn m0 false g).foldl (fun m i => if eccDouble m false i then m else eccRewrite m false i) m0 with m1_def
  obtain ⟨ecc, scrub, first⟩ := eccRewrites_frame (membersIn m0 false g) false m0
  obtain ⟨ecc', scrub', second⟩ := eccRewrites_frame (membersIn m1 true g) true m1
  rw [← m1_def] at first
  obtain ⟨e, c, p, f, eq⟩ := passed m0 _ ((if ((membersIn m1 true g).foldl
      (fun m i => if eccDouble m true i then m else eccRewrite m true i) m1).selAt = some (frameOf s.sfp) then
    ((membersIn m1 true g).foldl (fun m i => if eccDouble m true i then m else eccRewrite m true i) m1).selPass else [])
      ++ (membersIn s.map false g ++ membersIn s.map true g)) ⟨ecc', scrub', second.trans (by rw [first])⟩
  exact ⟨e, c, p, f, congrArg (fun m : MapSt => ({ s with map := m } : State)) eq⟩

theorem selStore_mapRest (s : State) (g : Nat) (sel : Bool) : get .map (selStore s g sel) = get .map s := by
  obtain ⟨_, _, _, _, stored⟩ := selStore_shape s g sel
  rw [stored]
  rfl

theorem selBank_member {m : MapSt} {b : Bool} {g : Nat} (sel : Bool) {kv : Nat × Entry} (listed : kv ∈ bankOf m b)
    (member : eMemberOf kv.2 g = true) (sound : eccDouble m b kv.1 = false) : (kv.1, Machine.setBit kv.2 10 sel) ∈ selBank m b g sel := by
  refine List.mem_map.mpr ⟨kv, listed, ?_⟩
  rw [member, sound]
  rfl

/-! The decision. -/

theorem decidePass_grp (s : State) (g : Nat) : grpOf (decidePass s g) g = decidedGrp s g ∧ OthersKept g s (decidePass s g) := by
  have grps : (decidePass s g).grps = (onGrp s g (fun _ => decidedGrp s g)).grps := by
    show get .grps _ = get .grps _
    unfold decidePass
    dsimp only
    split <;> split <;> simp
  refine ⟨(grpOf_of_get grps g).trans (grpOf_onGrp_same s g _), ?_⟩
  exact (OthersKept.onGrp g s _).trans (.of_get grps)

section
variable {s : State} {g : Nat} (why : Nat) (sound : (grpOf s g).tblErr = false) (alone : isStandby s = false)
include sound alone

theorem decideGrp_grp : (∃ m q, grpOf (decideGrp s g why) g = { decidedGrp s g with txMsg := m, seq := q }) ∧
    OthersKept g s (decideGrp s g why) := by
  obtain ⟨tx, sig, shape⟩ := decideGrp_shape (why := why) sound alone
  obtain ⟨⟨m, q, composed⟩, others, -, -, -⟩ := apsCompose_grp (decidePass s g) g tx sig
  obtain ⟨passed, rest⟩ := decidePass_grp s g
  rw [passed] at composed
  rcases shape with shape | ⟨it, shape⟩ <;> rw [shape]
  · exact ⟨⟨m, q, composed⟩, rest.trans others⟩
  · have same : get .grps (pushItem (apsCompose (decidePass s g) g tx sig) it) = get .grps (apsCompose (decidePass s g) g tx sig) := by
      simp
    exact ⟨⟨m, q, (grpOf_of_get same g).trans composed⟩, rest.trans (others.trans (.of_get same))⟩

/-- The rest of what a decision leaves, from its pass over the map. -/
theorem decideGrp_rest (b i : Nat) : ctrVal (decideGrp s g why) b i = ctrVal (decidePass s g) b i ∧
    (decideGrp s g why).map = (decidePass s g).map ∧ (decideGrp s g why).regs = (decidePass s g).regs := by
  obtain ⟨tx, sig, shape⟩ := decideGrp_shape (why := why) sound alone
  obtain ⟨-, -, sage, map⟩ := apsCompose_grp (decidePass s g) g tx sig
  have ctr : ctrVal (apsCompose (decidePass s g) g tx sig) b i = ctrVal (decidePass s g) b i := ctrVal_of_get sage b i
  rcases shape with shape | ⟨it, shape⟩ <;> rw [shape]
  · exact ⟨ctr, map⟩
  · exact ⟨(ctrVal_pushItem _ _ _ _).trans ctr, map⟩

/-- A group stands decided by R186. -/
theorem decideGrp_decided : Decided s (decideGrp s g why) g := by
  obtain ⟨⟨m, q, grp⟩, -⟩ := decideGrp_grp why sound alone
  have rem := remoteReq_lt s g
  have loc : decidedLoc s g < 16 := by
    have base := baseReq_le (afterDrop s g)
    have st := stateReq_lt (gRevert (actv s) g) (afterDrop s g) (baseReq (afterDrop s g)) (remoteReq s g).1
    unfold decidedLoc
    omega
  have locIs : (BitVec.ofNat 4 (decidedLoc s g)).toNat = decidedLoc s g := by
    rw [BitVec.toNat_ofNat]
    omega
  have remIs : (BitVec.ofNat 4 (remoteReq s g).1).toNat = (remoteReq s g).1 := by
    rw [BitVec.toNat_ofNat]
    omega
  have bridge : bridged (afterDrop s g) = bridged (grpOf s g) := by
    unfold afterDrop
    split <;> rfl
  rw [Decided, grp]
  simp only [decidedGrp, locIs, remIs]
  refine ⟨trivial, trivial, trivial, fun low => ?_, fun high => ?_, ?_⟩
  · have loses : remoteWins s g = false := decide_eq_false (by omega)
    simp only [decidedEff, decidedSig, loses]
    exact ⟨rfl, rfl⟩
  · have wins : remoteWins s g = true := decide_eq_true high
    simp only [decidedEff, decidedSig, wins]
    exact ⟨rfl, rfl⟩
  · rw [decidedSel, bridge]
    rfl

/-- The counters of a group but for those of a selector change and of a dropped switch. -/
theorem decideGrp_ctr {k : Nat} (change : k ≠ 0) (drop : k = 6 → dropsMs s g = false) :
    ctrVal (decideGrp s g why) 0x300 (32 * g + k) = ctrVal s 0x300 (32 * g + k) := by
  rw [(decideGrp_rest why sound alone _ _).1]
  have dropped : ctrVal (if dropsMs s g then cGrp (sticky (onGrp s g (fun _ => decidedGrp s g)) hProt 0x10) g 6
      else onGrp s g (fun _ => decidedGrp s g)) 0x300 (32 * g + k) = ctrVal s 0x300 (32 * g + k) := by
    split
    · next on =>
      refine (ctrVal_cGrp_ne _ fun six => ?_).trans rfl
      rw [drop six] at on
      cases on
    · rfl
  unfold decidePass
  dsimp only
  split
  · obtain ⟨_, _, _, _, stored⟩ := selStore_shape (cGrp (sticky (if dropsMs s g then
      cGrp (sticky (onGrp s g (fun _ => decidedGrp s g)) hProt 0x10) g 6 else onGrp s g (fun _ => decidedGrp s g)) hProt 1) g 0)
      g (decidedSel s g)
    rw [stored]
    exact (ctrVal_cGrp_ne _ change).trans dropped
  · exact dropped

/-- A decision that leaves the selector leaves the map. -/
theorem decideGrp_stays (same : (grpOf (decideGrp s g why) g).sel = (grpOf s g).sel) : (decideGrp s g why).map = s.map := by
  obtain ⟨⟨m, q, grp⟩, -⟩ := decideGrp_grp why sound alone
  rw [grp] at same
  have same : decidedSel s g = (afterDrop s g).sel := same.trans (afterDrop_sel s g).symm
  rw [(decideGrp_rest why sound alone 0 0).2.1]
  unfold decidePass
  dsimp only
  rw [if_neg (by rw [same]; simp)]
  split <;> rfl

/-- A selector that moves is counted, sticky and followed by every member entry of both banks (R164, R187). -/
theorem decideGrp_moves (moves : (grpOf (decideGrp s g why) g).sel ≠ (grpOf s g).sel) :
    Counted s (decideGrp s g why) 0x300 (32 * g) ∧ bit (hist (decideGrp s g why) hProt) 0 = true ∧
      MembersFollow s (decideGrp s g why) g := by
  obtain ⟨⟨m, q, grp⟩, -⟩ := decideGrp_grp why sound alone
  obtain ⟨ctr, map, regs⟩ := decideGrp_rest why sound alone 0x300 (32 * g)
  have sel : (grpOf (decideGrp s g why) g).sel = decidedSel s g := by rw [grp]; rfl
  rw [sel] at moves
  have apart : (decidedSel s g != (afterDrop s g).sel) = true := by
    rw [afterDrop_sel]
    exact bne_iff_ne.mpr moves
  have before : ctrVal (if dropsMs s g then cGrp (sticky (onGrp s g (fun _ => decidedGrp s g)) hProt 0x10) g 6
      else onGrp s g (fun _ => decidedGrp s g)) 0x300 (32 * g) = ctrVal s 0x300 (32 * g) ∧
      (if dropsMs s g then cGrp (sticky (onGrp s g (fun _ => decidedGrp s g)) hProt 0x10) g 6
      else onGrp s g (fun _ => decidedGrp s g)).map = s.map := by
    split
    · exact ⟨ctrVal_cGrp_ne (j := 0) _ (by decide), rfl⟩
    · exact ⟨rfl, rfl⟩
  have pass : decidePass s g = selStore (cGrp (sticky (if dropsMs s g then
      cGrp (sticky (onGrp s g (fun _ => decidedGrp s g)) hProt 0x10) g 6 else onGrp s g (fun _ => decidedGrp s g)) hProt 1) g 0)
      g (decidedSel s g) := if_pos apart
  generalize (if dropsMs s g then cGrp (sticky (onGrp s g (fun _ => decidedGrp s g)) hProt 0x10) g 6
    else onGrp s g (fun _ => decidedGrp s g)) = u at before pass
  obtain ⟨same, mapSame⟩ := before
  obtain ⟨_, _, _, _, stored⟩ := selStore_shape (cGrp (sticky u hProt 1) g 0) g (decidedSel s g)
  rw [stored] at pass
  rw [pass] at ctr map regs
  refine ⟨?_, ?_, ?_⟩
  · rw [Counted, ctr, ← same]
    exact cGrp_counted (sticky u hProt 1) g 0
  · have here : hist (decideGrp s g why) hProt = hist (sticky u hProt 1) hProt :=
      congrArg (fun x : RegSt => tget 0 x.hist hProt) regs
    rw [here]
    exact bit_sticky (by decide) u hProt
  · rw [MembersFollow, sel, map]
    have mapIs : (cGrp (sticky u hProt 1) g 0).map = s.map := mapSame
    rw [mapIs]
    exact ⟨fun kv listed member clean => selBank_member (b := false) _ listed member clean,
      fun kv listed member clean => selBank_member (b := true) _ listed member clean⟩

theorem decideGrp_only : Only [.grps, .mapA, .mapB, .mapEcc, .mapScrub, .mapSel, .mir, .ports, .sage, .hist] s
    (decideGrp s g why) := fun f out => by
  simp at out
  by_cases map : f = .map
  · subst map
    have kept : (decideGrp s g why).map = (decidePass s g).map := (decideGrp_rest why sound alone 0 0).2.1
    have passed : get .map (decidePass s g) = get .map s := by
      have dropped : get .map (if dropsMs s g then cGrp (sticky (onGrp s g (fun _ => decidedGrp s g)) hProt 0x10) g 6
          else onGrp s g (fun _ => decidedGrp s g)) = get .map s := by
        split <;> simp
      unfold decidePass
      dsimp only
      split
      · exact (selStore_mapRest _ _ _).trans ((by simp : get .map (cGrp (sticky _ hProt 1) g 0) = _).trans dropped)
      · exact dropped
    refine Eq.trans ?_ passed
    show (get .map _) = get .map _
    simp only [get, kept]
  · simp [out, map]

end

/-! Hold-off, WTR and operator requests (R183 to R185, R293). -/

/-- What a decision reads of another state than the one it begins in. -/
structure SameRequests (s u : State) (g : Nat) : Prop where
  remote : remoteReq u g = remoteReq s g
  bridge : bridged (grpOf u g) = bridged (grpOf s g)
  view : actv u = actv s

theorem Decided.of_same {s u t : State} {g : Nat} (same : SameRequests s u g) (h : Decided u t g) : Decided s t g := by
  obtain ⟨remote, bridge, view⟩ := same
  rw [Decided, remote, bridge, view] at h
  exact h

/-- The request state of a group reads its message, APS_LOSS and FOP_PM alone. -/
theorem SameRequests.of_grp {s u : State} {g : Nat} (act_ : get .act u = get .act s) (rx : (grpOf u g).rx = (grpOf s g).rx)
    (loss : (grpOf u g).apsLoss = (grpOf s g).apsLoss) (pm : (grpOf u g).fopPm = (grpOf s g).fopPm) : SameRequests s u g := by
  have view := actv_of_get act_
  refine ⟨?_, ?_, view⟩
  · simp only [remoteReq, view, rx, loss, pm]
  · simp only [bridged, rx]

/-- The parts that a group's row may change before its decision. -/
abbrev GroupParts : List Part := [.grps, .mapA, .mapB, .mapEcc, .mapScrub, .mapSel, .mir, .ports, .sage, .hist]

theorem OnlyGroup.of_parts {s t : State} {g : Nat} (others : OthersKept g s t) (only : Only GroupParts s t) : OnlyGroup s t g :=
  ⟨fun h apart => others h apart, only.frame⟩

theorem isStandby_of_get {s t : State} (h : get .pair t = get .pair s) : isStandby t = isStandby s := by
  have same : t.pair = s.pair := h
  rw [isStandby, isStandby, same]

/-! A condition's hold-off. -/

/-- The group with the condition raised. -/
def raisedGrp (s : State) (g k : Nat) : State :=
  cGrp (onGrp s g (fun x => setCondAt x k { condAt (grpOf s g) k with raised := true })) g (condCounter k)

theorem raisedGrp_grp (s : State) (g k : Nat) :
    grpOf (raisedGrp s g k) g = setCondAt (grpOf s g) k { condAt (grpOf s g) k with raised := true } :=
  (grpOf_of_get (s := onGrp s g (fun x => setCondAt x k { condAt (grpOf s g) k with raised := true })) rfl g).trans
    (grpOf_onGrp_same s g _)

theorem raisedGrp_others (s : State) (g k : Nat) : OthersKept g s (raisedGrp s g k) := fun h apart =>
  (grpOf_of_get (s := onGrp s g (fun x => setCondAt x k { condAt (grpOf s g) k with raised := true })) rfl h).trans
    (grpOf_onGrp_ne s _ apart)

theorem setCondAt_cases (x : GrpSt) (k : Nat) (c : CondSt) :
    setCondAt x k c = { x with sf := c } ∨ setCondAt x k c = { x with sfp := c } ∨ setCondAt x k c = { x with sd := c } := by
  unfold setCondAt
  split
  · exact .inl rfl
  · split
    · exact .inr (.inl rfl)
    · exact .inr (.inr rfl)

theorem condAt_setCondAt (x : GrpSt) (k : Nat) (c : CondSt) : condAt (setCondAt x k c) k = c := by
  unfold condAt setCondAt
  split
  · rfl
  · split <;> rfl

/-- A raised condition is a local request. -/
theorem baseReq_raised {x : GrpSt} {k : Nat} (below : k < 3) (raised : (condAt x k).raised = true) :
    (if k = 0 then 8 else if k = 1 then 12 else 6) ≤ baseReq x := by
  unfold baseReq
  unfold condAt at raised
  interval_cases k
  · have raised : x.sf.raised = true := raised
    rw [raised]
    repeat' split
    all_goals simp at *
  · have raised : x.sfp.raised = true := raised
    rw [raised]
    repeat' split
    all_goals simp at *
  · have raised : x.sd.raised = true := raised
    rw [raised]
    repeat' split
    all_goals simp at *

/-- The drop of a manual switch leaves a higher local request. -/
theorem baseReq_afterDrop (s : State) (g n : Nat) (high : 4 < n) (has : n ≤ baseReq (grpOf s g)) :
    n ≤ baseReq (afterDrop s g) := by
  unfold afterDrop
  split
  · unfold baseReq at has ⊢
    dsimp only
    split_ifs at has ⊢ <;> omega
  · exact has

theorem decided_loc {s : State} {g : Nat} (why : Nat) (sound : (grpOf s g).tblErr = false) (alone : isStandby s = false) :
    (grpOf (decideGrp s g why) g).loc.toNat = decidedLoc s g := by
  obtain ⟨⟨m, q, grp⟩, -⟩ := decideGrp_grp why sound alone
  have base := baseReq_le (afterDrop s g)
  have st := stateReq_lt (gRevert (actv s) g) (afterDrop s g) (baseReq (afterDrop s g)) (remoteReq s g).1
  rw [grp]
  show (BitVec.ofNat 4 (decidedLoc s g)).toNat = _
  rw [BitVec.toNat_ofNat]
  unfold decidedLoc
  omega

section
variable {g : Fin 2048} {s : State} (on : powered s = true) (frame : isFrame s.sfp = true) (alone : isStandby s = false)
  (enabled : (grpOf s g).en = true) (sound : (grpOf s g).tblErr = false)
include on frame alone enabled sound

theorem holdoff_row (k : Fin 3) (present : (condAt (grpOf s g) k).present = true) (idle : (condAt (grpOf s g) k).raised = false)
    (late : holdFrames s g ≤ (condAt (grpOf s g) k).run) :
    ∃ t, exec (.protHoldoffExpire g k) s = .next t ∧ (condAt (grpOf t g) k).raised = true
      ∧ Counted s t 0x300 (32 * g + (2 + k))
      ∧ ((if k.val = 0 then 8 else if k.val = 1 then 12 else 6) ≤ (grpOf t g).loc.toNat)
      ∧ Decided s t g
      ∧ ((grpOf t g).sel ≠ (grpOf s g).sel →
          Counted s t 0x300 (32 * g) ∧ bit (hist t hProt) 0 = true ∧ MembersFollow s t g)
      ∧ ((grpOf t g).sel = (grpOf s g).sel → t.map = s.map) ∧ OnlyGroup s t g := by
  set u := raisedGrp s g k with u_def
  have here : grpOf u g = setCondAt (grpOf s g) k { condAt (grpOf s g) k with raised := true } := raisedGrp_grp s g k
  have same : (grpOf u g).sel = (grpOf s g).sel ∧ (grpOf u g).tblErr = (grpOf s g).tblErr ∧ (grpOf u g).rx = (grpOf s g).rx ∧
      (grpOf u g).apsLoss = (grpOf s g).apsLoss ∧ (grpOf u g).fopPm = (grpOf s g).fopPm := by
    rw [here]
    rcases setCondAt_cases (grpOf s g) k { condAt (grpOf s g) k with raised := true } with c | c | c <;> rw [c] <;>
      exact ⟨rfl, rfl, rfl, rfl, rfl⟩
  obtain ⟨sel, tblErr, rx, loss, pm⟩ := same
  have soundU : (grpOf u g).tblErr = false := tblErr.trans sound
  have aloneU : isStandby u = false := alone
  have requests : SameRequests s u g := .of_grp rfl rx loss pm
  have raised : (condAt (grpOf u g) k).raised = true := by rw [here, condAt_setCondAt]
  have row : xProtHoldoffExpire g k s = decideGrp u g 1 := by
    unfold xProtHoldoffExpire
    dsimp only
    rw [if_pos (by simp [enabled, present, idle, late])]
    rfl
  obtain ⟨⟨m, q, grp⟩, others⟩ := decideGrp_grp 1 soundU aloneU
  refine ⟨_, congrArg Host.Outcome.next ((liveFrame_on on frame _).trans row), ?_, ?_, ?_,
    (decideGrp_decided 1 soundU aloneU).of_same requests, fun moves => ?_, fun stays => ?_, ?_⟩
  · rw [grp, ← raised]
    simp only [decidedGrp, afterDrop]
    split <;> rfl
  · rw [Counted, decideGrp_ctr 1 soundU aloneU (by omega) (fun six => by omega)]
    exact cGrp_counted (onGrp s g _) g (condCounter k)
  · rw [decided_loc 1 soundU aloneU]
    have base := baseReq_raised k.isLt raised
    refine (baseReq_afterDrop u g _ ?_ base).trans (Nat.le_max_left _ _)
    split
    · decide
    · split <;> decide
  · rw [← sel] at moves
    obtain ⟨counted, sticky_, follow⟩ := decideGrp_moves 1 soundU aloneU moves
    refine ⟨?_, sticky_, follow⟩
    rw [Counted, counted]
    have zero : ctrVal u 0x300 (32 * g) = ctrVal s 0x300 (32 * g) :=
      (ctrVal_cGrp_ne (onGrp s g _) (g := g) (j := 0) (k := condCounter k) (by unfold condCounter; omega))
    rw [zero]
  · rw [← sel] at stays
    exact decideGrp_stays 1 soundU aloneU stays
  · have before : Only GroupParts s u := fun f out => by
      simp at out
      simp [u_def, raisedGrp, out]
    exact .of_parts ((raisedGrp_others s g k).trans others) (before.trans (decideGrp_only 1 soundU aloneU))

theorem wtr_row (wtr : (grpOf s g).stReq = 2) (late : wtrFrames s g ≤ (grpOf s g).wtrRun) (lo : (grpOf s g).lo = false)
    (fs : (grpOf s g).fs = false) (ms : (grpOf s g).ms = false) (sf : (grpOf s g).sf.raised = false)
    (sfp : (grpOf s g).sfp.raised = false) (sd : (grpOf s g).sd.raised = false) (loc : (grpOf s g).loc = 2) :
    ∃ t, exec (.protWtrExpire g) s = .next t ∧ (grpOf t g).stReq = 0 ∧ (grpOf t g).loc = 0 ∧ Decided s t g
      ∧ ((grpOf t g).sel ≠ (grpOf s g).sel →
          Counted s t 0x300 (32 * g) ∧ bit (hist t hProt) 0 = true ∧ MembersFollow s t g)
      ∧ OnlyGroup s t g := by
  set u := onGrp s g (fun x => { x with stReq := 0 }) with u_def
  have here : grpOf u g = { grpOf s g with stReq := 0 } := grpOf_onGrp_same s g _
  have soundU : (grpOf u g).tblErr = false := by rw [here]; exact sound
  have aloneU : isStandby u = false := alone
  have requests : SameRequests s u g := .of_grp rfl (by rw [here]) (by rw [here]) (by rw [here])
  have row : xProtWtrExpire g s = decideGrp u g 3 := by
    unfold xProtWtrExpire
    dsimp only
    rw [if_pos (by simp [enabled, wtr, late])]
  have kept : afterDrop u g = { grpOf s g with stReq := 0 } := by
    have no : dropsMs u g = false := by rw [dropsMs, here, ms]; rfl
    rw [afterDrop, no, here]
    rfl
  have base : baseReq (afterDrop u g) = 0 := by
    rw [kept]
    simp [baseReq, lo, fs, ms, sf, sfp, sd]
  have state : stateReq (gRevert (actv u) g) (afterDrop u g) 0 (remoteReq u g).1 = 0 := by
    have two : (grpOf s g).loc.toNat = 2 := by rw [loc]; rfl
    unfold stateReq
    rw [kept]
    simp [two]
  have noReq : decidedLoc u g = 0 := by
    rw [decidedLoc, base, state]
    rfl
  obtain ⟨⟨m, q, grp⟩, others⟩ := decideGrp_grp 3 soundU aloneU
  refine ⟨_, congrArg Host.Outcome.next ((liveFrame_on on frame _).trans row), ?_, ?_,
    (decideGrp_decided 3 soundU aloneU).of_same requests, fun moves => ?_, ?_⟩
  · rw [grp]
    show BitVec.ofNat 4 (stateReq _ _ (baseReq (afterDrop u g)) _) = 0
    rw [base, state]
    rfl
  · exact BitVec.eq_of_toNat_eq ((decided_loc 3 soundU aloneU).trans noReq)
  · have sel : (grpOf u g).sel = (grpOf s g).sel := by rw [here]
    rw [← sel] at moves
    exact decideGrp_moves 3 soundU aloneU moves
  · have before : Only GroupParts s u := fun f out => by
      simp at out
      simp [u_def, out]
    exact .of_parts ((OthersKept.onGrp g s _).trans others) (before.trans (decideGrp_only 3 soundU aloneU))
end

/-! Operator requests. -/

section
variable {s : State} {g : Nat} (why : Nat) (sound : (grpOf s g).tblErr = false) (alone : isStandby s = false)
include sound alone

/-- What a decision leaves of the operator's requests. -/
theorem decideGrp_requests : (grpOf (decideGrp s g why) g).pend = (grpOf s g).pend ∧ (grpOf (decideGrp s g why) g).lo = (grpOf s g).lo ∧
    (grpOf (decideGrp s g why) g).fs = (grpOf s g).fs ∧
    (grpOf (decideGrp s g why) g).ms = ((grpOf s g).ms && !dropsMs s g) := by
  obtain ⟨⟨m, q, grp⟩, -⟩ := decideGrp_grp why sound alone
  rw [grp]
  simp only [decidedGrp, afterDrop]
  cases dropsMs s g
  · exact ⟨rfl, rfl, rfl, (Bool.and_true _).symm⟩
  · exact ⟨rfl, rfl, rfl, (Bool.and_false _).symm⟩

theorem decideGrp_bit {a i : Nat} (on : bit (hist s a) i = true) : bit (hist (decideGrp s g why) a) i = true := by
  have same : hist (decideGrp s g why) a = hist (decidePass s g) a :=
    congrArg (fun x : RegSt => tget 0 x.hist a) (decideGrp_rest why sound alone 0 0).2.2
  have dropped : bit (hist (if dropsMs s g then cGrp (sticky (onGrp s g (fun _ => decidedGrp s g)) hProt 0x10) g 6
      else onGrp s g (fun _ => decidedGrp s g)) a) i = true := by
    split
    · exact bit_hist_sticky (s := onGrp s g _) on hProt 0x10
    · exact on
  rw [same]
  unfold decidePass
  dsimp only
  split
  · obtain ⟨_, _, _, _, stored⟩ := selStore_shape (cGrp (sticky (if dropsMs s g then
      cGrp (sticky (onGrp s g (fun _ => decidedGrp s g)) hProt 0x10) g 6 else onGrp s g (fun _ => decidedGrp s g)) hProt 1) g 0)
      g (decidedSel s g)
    rw [stored]
    exact bit_hist_sticky dropped hProt 1
  · exact dropped
end

/-- A group with an operator's request taken. -/
def applied (x : GrpSt) (c : BitVec 4) (holder high : Bool) : GrpSt :=
  if c = 14 then { x with lo := true }
  else if c = 10 then { x with fs := true }
  else if c = 4 then if high then { x with cmdDrop := true } else { x with ms := true }
  else if holder then { x with ms := false }
  else { x with lo := false, fs := false, ms := false, stReq := 0 }

theorem applied_kept (x : GrpSt) (c : BitVec 4) (holder high : Bool) : (applied x c holder high).tblErr = x.tblErr ∧
    (applied x c holder high).rx = x.rx ∧ (applied x c holder high).apsLoss = x.apsLoss ∧
    (applied x c holder high).fopPm = x.fopPm ∧ (applied x c holder high).pend = x.pend := by
  unfold applied
  split_ifs <;> exact ⟨rfl, rfl, rfl, rfl, rfl⟩

/-- A higher request than a manual switch stands. -/
def msBarred (s : State) (g : Nat) : Bool := decide (4 < max (baseReq (grpOf s g)) (remoteReq s g).1)

theorem applyReq_facts (s : State) (g : Nat) (c : BitVec 4) (holder : Bool) :
    grpOf (applyReq s g (c, holder)) g = applied (grpOf s g) c holder (msBarred s g) ∧ OthersKept g s (applyReq s g (c, holder)) ∧
      Only GroupParts s (applyReq s g (c, holder)) := by
  have plain : ∀ f : GrpSt → GrpSt, grpOf (onGrp s g f) g = f (grpOf s g) ∧ OthersKept g s (onGrp s g f) ∧
      Only GroupParts s (onGrp s g f) := fun f => ⟨grpOf_onGrp_same s g f, .onGrp g s f, fun p out => by
    simp at out
    simp [out]⟩
  unfold applyReq applied msBarred
  dsimp only
  split
  · exact plain _
  · split
    · exact plain _
    · split
      · by_cases high : 4 < max (baseReq (grpOf s g)) (remoteReq s g).1
        · rw [if_pos high, decide_eq_true high, if_pos rfl]
          obtain ⟨grp, others, only⟩ := plain (fun x => { x with cmdDrop := true })
          exact ⟨grp, others, only.trans fun p out => by
            simp at out
            simp [out]⟩
        · rw [if_neg high, decide_eq_false high, if_neg Bool.false_ne_true]
          exact plain _
      · split
        · exact plain _
        · exact plain _

/-- A manual switch that a higher request bars is counted. -/
theorem applyReq_barred {s : State} {g : Nat} (holder : Bool) (high : msBarred s g = true) :
    Counted s (applyReq s g (4, holder)) 0x300 (32 * g + 6) ∧ bit (hist (applyReq s g (4, holder)) hProt) 4 = true := by
  have eq : applyReq s g (4, holder) =
      cGrp (sticky (onGrp s g (fun x => { x with cmdDrop := true })) hProt 0x10) g 6 := by
    unfold applyReq
    dsimp only
    rw [if_neg (by decide), if_neg (by decide), if_pos rfl, if_pos (of_decide_eq_true high)]
  rw [eq]
  exact ⟨cGrp_counted (sticky (onGrp s g _) hProt 0x10) g 6, bit_sticky (by decide) (onGrp s g _) hProt⟩

/-- A manual switch that no higher request bars stays. -/
theorem baseReq_ms {x : GrpSt} (low : baseReq x ≤ 4) : baseReq { x with ms := true } = 4 := by
  unfold baseReq at low ⊢
  dsimp only
  split_ifs at low ⊢ <;> simp_all

section
variable {g : Fin 2048} {x : GrpSt} {c : BitVec 4} {holder : Bool} {s : State} (on : powered s = true)
  (frame : isFrame s.sfp = true) (grps : s.grps = [(g.val, x)]) (due : x.pend = [(s.sfp, c, holder)])
include on frame grps due

theorem request_found : grpOf s g = x := by
  rw [grpOf, grps, tget, tfind_one]
  rfl

/-- The group's requests are taken off. -/
def unpended (s : State) (g : Nat) : State := onGrp s g (fun x => { x with pend := x.pend.filter (fun r => r.1 != s.sfp) })

theorem unpended_grp : grpOf (unpended s g) g = { x with pend := [] } := by
  have found := request_found on frame grps due
  rw [unpended, grpOf_onGrp_same, found]
  simp [due]

theorem request_row : xProtRequestAct s =
    if x.en then decideGrp (applyReq (unpended s g) g (c, holder)) g 1 else cGrp (unpended s g) g 6 := by
  have found := request_found on frame grps due
  have pending : (grpOf s g).pend.filter (fun r => r.1 == s.sfp) = [(s.sfp, c, holder)] := by
    rw [found, due]
    simp
  have one : xProtRequestAct s = reqAct s g := by
    unfold xProtRequestAct
    rw [grps]
    rfl
  rw [one]
  unfold reqAct
  rw [pending, found]
  rfl

theorem request_disabled (off : x.en = false) :
    ∃ t, exec .protRequestAct s = .next t ∧ grpOf t g = { x with pend := [] } ∧ Counted s t 0x300 (32 * g + 6)
      ∧ t = { s with grps := t.grps, sage := t.sage } := by
  have row := request_row on frame grps due
  rw [off] at row
  exact ⟨_, congrArg Host.Outcome.next ((liveFrame_on on frame _).trans row), unpended_grp on frame grps due,
    cGrp_counted (unpended s g) g 6, rfl⟩

variable (alone : isStandby s = false) (enabled : x.en = true) (sound : x.tblErr = false)
include alone enabled sound

theorem request_acts :
    ∃ t, exec .protRequestAct s = .next t ∧ (grpOf t g).pend = [] ∧ Decided s t g ∧ OnlyGroup s t g
      ∧ (c = 14 → (grpOf t g).lo = true ∧ (grpOf t g).loc = 14)
      ∧ (c = 10 → (grpOf t g).fs = true ∧ 10 ≤ (grpOf t g).loc.toNat)
      ∧ (c = 4 → max (baseReq x) (remoteReq s g).1 ≤ 4 → (grpOf t g).ms = true)
      ∧ (c = 4 → 4 < max (baseReq x) (remoteReq s g).1 → x.ms = false →
          (grpOf t g).ms = false ∧ Counted s t 0x300 (32 * g + 6) ∧ bit (hist t hProt) 4 = true)
      ∧ (c = 0 → holder = false → (grpOf t g).lo = false ∧ (grpOf t g).fs = false ∧ (grpOf t g).ms = false)
      ∧ (c = 0 → holder = true → (grpOf t g).lo = x.lo ∧ (grpOf t g).fs = x.fs ∧ (grpOf t g).ms = false) := by
  have row := request_row on frame grps due
  rw [enabled, if_pos rfl] at row
  have found := request_found on frame grps due
  have taken := unpended_grp on frame grps due
  obtain ⟨grp, others, only⟩ := applyReq_facts (unpended s g) g c holder
  have barredAt : ∀ (u : State), c = 4 → u = applyReq (unpended s g) g (c, holder) → msBarred (unpended s g) g = true →
      Counted s u 0x300 (32 * g + 6) ∧ bit (hist u hProt) 4 = true := by
    rintro u rfl rfl high
    exact applyReq_barred (s := unpended s g) holder high
  have before : OthersKept g s (unpended s g) ∧ Only GroupParts s (unpended s g) := ⟨.onGrp g s _, fun f out => by
    simp at out
    simp [unpended, out]⟩
  have first : SameRequests s (unpended s g) g := .of_grp rfl (by rw [taken, found]) (by rw [taken, found]) (by rw [taken, found])
  have barred : msBarred (unpended s g) g = decide (4 < max (baseReq x) (remoteReq s g).1) := by
    rw [msBarred, taken, first.remote]
    rfl
  have act_ : get .act (applyReq (unpended s g) g (c, holder)) = get .act s := (only .act (by decide)).trans rfl
  have pair_ : get .pair (applyReq (unpended s g) g (c, holder)) = get .pair s := (only .pair (by decide)).trans rfl
  generalize applied_ : applyReq (unpended s g) g (c, holder) = u at *
  rw [taken, barred] at grp
  obtain ⟨tblErr, rx, loss, pm, pend⟩ :=
    applied_kept { x with pend := [] } c holder (decide (4 < max (baseReq x) (remoteReq s g).1))
  rw [← grp] at tblErr rx loss pm pend
  have soundU : (grpOf u g).tblErr = false := tblErr.trans sound
  have aloneU : isStandby u = false := (isStandby_of_get pair_).trans alone
  have requests : SameRequests s u g := .of_grp act_ (rx.trans (by rw [found])) (loss.trans (by rw [found])) (pm.trans (by rw [found]))
  obtain ⟨pendT, loT, fsT, msT⟩ := decideGrp_requests 1 soundU aloneU
  have locT := decided_loc 1 soundU aloneU
  refine ⟨_, congrArg Host.Outcome.next ((liveFrame_on on frame _).trans row), pendT.trans pend,
    (decideGrp_decided 1 soundU aloneU).of_same requests, ?_, fun lockout => ?_, fun forced => ?_, fun manual low => ?_,
    fun manual high none_ => ?_, fun clear free => ?_, fun clear held => ?_⟩
  · exact .of_parts (before.1.trans (others.trans (decideGrp_grp 1 soundU aloneU).2))
      (before.2.trans (only.trans (decideGrp_only 1 soundU aloneU)))
  · have is : (grpOf u g).lo = true := by rw [grp, applied, if_pos lockout]
    have base : baseReq (afterDrop u g) = 14 := by
      have lo : (afterDrop u g).lo = true := by
        rw [← is, afterDrop]
        split <;> rfl
      rw [baseReq, lo]
      rfl
    refine ⟨loT.trans is, BitVec.eq_of_toNat_eq (locT.trans ?_)⟩
    rw [decidedLoc, base, stateReq, if_pos (.inl rfl)]
    rfl
  · have is : (grpOf u g).fs = true := by
      rw [grp, applied, if_neg (by rw [forced]; decide), if_pos forced]
    refine ⟨fsT.trans is, ?_⟩
    rw [locT]
    refine (baseReq_afterDrop u g 10 (by decide) ?_).trans (Nat.le_max_left _ _)
    unfold baseReq
    rw [is, if_pos rfl]
    split_ifs <;> decide
  · have grp : grpOf u g = { x with pend := [], ms := true } := by
      rw [grp, applied, if_neg (by rw [manual]; decide), if_neg (by rw [manual]; decide), if_pos manual,
        decide_eq_false (by omega)]
      rfl
    have base : baseReq (grpOf u g) = 4 := by
      rw [grp]
      exact baseReq_ms (x := { x with pend := [] }) (by
        show baseReq x ≤ 4
        omega)
    rw [msT, dropsMs, base, requests.remote, grp, decide_eq_false (by omega)]
    rfl
  · have grp : grpOf u g = { x with pend := [], cmdDrop := true } := by
      rw [grp, applied, if_neg (by rw [manual]; decide), if_neg (by rw [manual]; decide), if_pos manual, decide_eq_true high]
      rfl
    have off : (grpOf u g).ms = false := by rw [grp]; exact none_
    obtain ⟨counted, sticky_⟩ := barredAt u manual rfl (barred.trans (decide_eq_true high))
    refine ⟨by rw [msT, off]; rfl, ?_, decideGrp_bit 1 soundU aloneU sticky_⟩
    rw [Counted, decideGrp_ctr 1 soundU aloneU (by decide) (fun _ => by rw [dropsMs, off]; rfl)]
    exact counted
  · have grp : grpOf u g = { x with pend := [], lo := false, fs := false, ms := false, stReq := 0 } := by
      rw [grp, applied, if_neg (by rw [clear]; decide), if_neg (by rw [clear]; decide), if_neg (by rw [clear]; decide), free]
      rfl
    exact ⟨loT.trans (by rw [grp]), fsT.trans (by rw [grp]), by rw [msT, grp]; rfl⟩
  · have grp : grpOf u g = { x with pend := [], ms := false } := by
      rw [grp, applied, if_neg (by rw [clear]; decide), if_neg (by rw [clear]; decide), if_neg (by rw [clear]; decide), held]
      rfl
    exact ⟨loT.trans (by rw [grp]), fsT.trans (by rw [grp]), by rw [msT, grp]; rfl⟩
end

/-- Settles O21: each row is a change of the group's requests before its decision. -/
theorem protectionDecisions : Obligations.ProtectionDecisions := by
  unfold Obligations.ProtectionDecisions
  refine ⟨fun g k s on frame alone enabled sound => ⟨fun present idle late => ?_, fun wtr late lo fs ms sf sfp sd loc => ?_⟩,
    fun g x c holder s on frame alone grps due => ⟨fun enabled sound => ?_, fun off => ?_⟩⟩
  · exact holdoff_row on frame alone enabled sound k present idle late
  · exact wtr_row on frame alone enabled sound wtr late lo fs ms sf sfp sd loc
  · exact request_acts on frame grps due alone enabled sound
  · exact request_disabled on frame grps due off

end Sys2Proof.Machine
end

section
/-! The APS channel (O22). -/

namespace Sys2Proof.Machine

open Sys2Proof

/-! The APS channel (R112, R191 to R193) and the report unit (R434). -/

/-- A block on the APS positions that gives nothing but a count. -/
theorem apsCounted (s : State) (p i : Nat) : Counted s (cPort s p i 1) (0x100 + p) i ∧ cPort s p i 1 = { s with sage := (cPort s p i 1).sage } :=
  ⟨counted_count s _ _, rfl⟩

section
variable {p : Fin 128} {o3 : Bool} {b : Block} {n : Nat} {s : State} (trunk : isTrunk s p = true)
  (aligned : (portOf s p).trunk.align = .inFrame n)
include trunk aligned

section
variable {b1 : Block} (taken : rxOverhead s p (if o3 then (portOf s p).txO3 else (portOf s p).txO2) b = b1)
include taken

theorem apsReceive_bad (bad : (isOverhead b1 && (crc16 ((blkBytes b1).take 5)).toNat == bits (blkW b1) 15 0) = false) :
    xApsReceive p o3 b s = cPort s p (if o3 then 24 else 23) 1 := by
  unfold xApsReceive
  dsimp only
  rw [taken, trunk, inFrame_of aligned, bad]
  exact (if_pos rfl).trans (if_pos rfl)

variable (good : (isOverhead b1 && (crc16 ((blkBytes b1).take 5)).toNat == bits (blkW b1) 15 0) = true)
include good

theorem apsReceive_empty (empty : apsGroup (blkW b1) = 0xFFF) : xApsReceive p o3 b s = s := by
  unfold xApsReceive
  dsimp only
  rw [taken, trunk, inFrame_of aligned, good]
  exact (if_pos rfl).trans ((if_neg (by decide)).trans (if_pos empty))

theorem apsReceive_high (high : 0x800 ≤ apsGroup (blkW b1)) (some_ : apsGroup (blkW b1) ≠ 0xFFF) :
    xApsReceive p o3 b s = cPort s p 25 1 := by
  unfold xApsReceive
  dsimp only
  rw [taken, trunk, inFrame_of aligned, good]
  exact (if_pos rfl).trans ((if_neg (by decide)).trans ((if_neg some_).trans (if_pos high)))

variable (named : apsGroup (blkW b1) < 0x800)
include named

theorem apsReceive_stranger (none_ : apsGroupAt s p (apsGroup (blkW b1)) = none) : xApsReceive p o3 b s = cPort s p 26 1 := by
  unfold xApsReceive
  dsimp only
  rw [taken, trunk, inFrame_of aligned, good, none_]
  exact (if_pos rfl).trans ((if_neg (by decide)).trans ((if_neg (by omega)).trans (if_neg (by omega))))

theorem apsReceive_found {g : Nat} (found : apsGroupAt s p (apsGroup (blkW b1)) = some g) :
    xApsReceive p o3 b s = if apsValid (blkW b1) then apsAccept s g (blkW b1) else cPort s p 44 1 := by
  unfold xApsReceive
  dsimp only
  rw [taken, trunk, inFrame_of aligned, good, found]
  exact (if_pos rfl).trans ((if_neg (by decide)).trans ((if_neg (by omega)).trans (if_neg (by omega))))
end
end

/-- A message of a group in the state of its receiver. -/
def messaged (s : State) (g : Nat) (w : W56) : State :=
  let s1 := cGrp s g 9
  if ((grpOf s g).rxNew.or (grpOf s g).rx).map apsContent == some (apsContent w) then s1 else cGrp s1 g 10

theorem messaged_ctr (s : State) (g : Nat) (w : W56) : Counted s (messaged s g w) 0x300 (32 * g + 9) ∧
    (((grpOf s g).rxNew.or (grpOf s g).rx).map apsContent = some (apsContent w) →
      ctrVal (messaged s g w) 0x300 (32 * g + 10) = ctrVal s 0x300 (32 * g + 10)) ∧
    (((grpOf s g).rxNew.or (grpOf s g).rx).map apsContent ≠ some (apsContent w) →
      Counted s (messaged s g w) 0x300 (32 * g + 10)) := by
  have nine := cGrp_counted s g 9
  have ten : ctrVal (cGrp s g 9) 0x300 (32 * g + 10) = ctrVal s 0x300 (32 * g + 10) := ctrVal_cGrp_ne s (by decide)
  unfold messaged
  dsimp only
  by_cases same : ((grpOf s g).rxNew.or (grpOf s g).rx).map apsContent = some (apsContent w)
  · rw [if_pos (beq_iff_eq.mpr same)]
    exact ⟨nine, fun _ => ten, fun other => absurd same other⟩
  · rw [if_neg (fun h => same (beq_iff_eq.mp h))]
    refine ⟨(ctrVal_cGrp_ne _ (by decide)).trans nine, fun is => absurd is same, fun _ => ?_⟩
    rw [Counted, ← ten]
    exact cGrp_counted (cGrp s g 9) g 10

/-- A valid message waits for the frame boundary and ends APS_LOSS. -/
theorem apsAccept_facts (s : State) (g : Nat) (w : W56) : ∃ t, apsAccept s g w = t ∧
    (∀ k, ctrVal t 0x300 (32 * g + k) = ctrVal (messaged s g w) 0x300 (32 * g + k)) ∧
    (grpOf t g).rxNew = some w ∧ (grpOf t g).apsAge = 0 ∧ (grpOf t g).apsLoss = false ∧ (grpOf t g).sel = (grpOf s g).sel ∧
    (grpOf t g).rx = (grpOf s g).rx ∧ OnlyGroup s t g := by
  refine ⟨_, rfl, ?_⟩
  unfold apsAccept
  dsimp only
  have core : ∀ f : GrpSt → GrpSt, (f (grpOf s g)).rxNew = some w → (f (grpOf s g)).apsAge = 0 → (f (grpOf s g)).apsLoss = false →
      (f (grpOf s g)).sel = (grpOf s g).sel → (f (grpOf s g)).rx = (grpOf s g).rx → ∀ raise : Bool,
      let t := if raise then sticky (onGrp (messaged s g w) g f) hProt 2 else onGrp (messaged s g w) g f
      (∀ k, ctrVal t 0x300 (32 * g + k) = ctrVal (messaged s g w) 0x300 (32 * g + k)) ∧
      (grpOf t g).rxNew = some w ∧ (grpOf t g).apsAge = 0 ∧ (grpOf t g).apsLoss = false ∧ (grpOf t g).sel = (grpOf s g).sel ∧
      (grpOf t g).rx = (grpOf s g).rx ∧ OnlyGroup s t g := by
    intro f rxNew age loss sel rx raise
    have grps : get .grps (messaged s g w) = get .grps s := by
      unfold messaged
      split <;> simp
    have before : grpOf (messaged s g w) g = grpOf s g := grpOf_of_get grps g
    have only : Only GroupParts s (messaged s g w) := fun part out => by
      unfold messaged
      simp at out
      split <;> simp [out]
    have here : grpOf (onGrp (messaged s g w) g f) g = f (grpOf s g) := by rw [grpOf_onGrp_same, before]
    have others : OthersKept g s (onGrp (messaged s g w) g f) := (OthersKept.of_get grps).trans (.onGrp g _ f)
    have onlyT : Only GroupParts s (onGrp (messaged s g w) g f) := only.trans fun part out => by
      simp at out
      simp [out]
    cases raise
    · exact ⟨fun k => rfl, by rw [if_neg Bool.false_ne_true, here]; exact rxNew, by rw [if_neg Bool.false_ne_true, here]; exact age,
        by rw [if_neg Bool.false_ne_true, here]; exact loss, by rw [if_neg Bool.false_ne_true, here]; exact sel,
        by rw [if_neg Bool.false_ne_true, here]; exact rx, .of_parts others onlyT⟩
    · have raised : grpOf (sticky (onGrp (messaged s g w) g f) hProt 2) g = f (grpOf s g) := here
      exact ⟨fun k => rfl, by rw [if_pos rfl, raised]; exact rxNew, by rw [if_pos rfl, raised]; exact age,
        by rw [if_pos rfl, raised]; exact loss, by rw [if_pos rfl, raised]; exact sel,
        by rw [if_pos rfl, raised]; exact rx, .of_parts (others.trans (.of_get rfl)) (onlyT.trans fun part out => by
          simp at out
          simp [out])⟩
  exact core _ rfl rfl rfl rfl rfl _

section
variable {g : Fin 2048} {s : State} (on : powered s = true) (frame : isFrame s.sfp = true) (alone : isStandby s = false)
  (enabled : (grpOf s g).en = true) (sound : (grpOf s g).tblErr = false) (bidirectional : gArch (actv s) g ≠ 0)
include on frame alone enabled sound bidirectional

/-- An indication of a group begins, and the group is decided. -/
theorem indication_facts {f : GrpSt → GrpSt} (same : (f (grpOf s g)).tblErr = (grpOf s g).tblErr) {u : State}
    (u_def : u = sticky (onGrp s g f) hProt 2) : grpOf u g = f (grpOf s g) ∧ (grpOf u g).tblErr = false ∧ isStandby u = false ∧
      bit (hist (decideGrp u g 1) hProt) 1 = true ∧ OnlyGroup s (decideGrp u g 1) g := by
  have here : grpOf u g = f (grpOf s g) := by rw [u_def]; exact grpOf_onGrp_same s g f
  have soundU : (grpOf u g).tblErr = false := by rw [here, same]; exact sound
  have aloneU : isStandby u = false := by rw [u_def]; exact alone
  have others : OthersKept g s u := by rw [u_def]; exact (OthersKept.onGrp g s f).trans (.of_get rfl)
  have only : Only GroupParts s u := fun part out => by
    simp at out
    rw [u_def]
    simp [out]
  refine ⟨here, soundU, aloneU, decideGrp_bit 1 soundU aloneU ?_, .of_parts (others.trans (decideGrp_grp 1 soundU aloneU).2)
    (only.trans (decideGrp_only 1 soundU aloneU))⟩
  rw [u_def]
  exact bit_sticky (by decide) (onGrp s g f) hProt

theorem apsLoss_row (late : 5 ≤ (grpOf s g).apsAge) (idle : (grpOf s g).apsLoss = false) (free : portSf s (protPort s g) = false) :
    ∃ t, exec (.apsLoss g) s = .next t ∧ (grpOf t g).apsLoss = true ∧ (grpOf t g).rem = 0
      ∧ bit (hist t hProt) 1 = true ∧ OnlyGroup s t g := by
  have row : xApsLoss g s = decideGrp (sticky (onGrp s g (fun x => { x with apsLoss := true, indChg := true })) hProt 2) g 1 := by
    unfold xApsLoss
    dsimp only
    exact if_pos (by simp [enabled, bidirectional, late, idle, free])
  obtain ⟨here, soundU, aloneU, sticky_, only⟩ :=
    indication_facts on frame alone enabled sound bidirectional (f := fun x => { x with apsLoss := true, indChg := true }) rfl rfl
  generalize sticky (onGrp s g (fun x => { x with apsLoss := true, indChg := true })) hProt 2 = u at *
  obtain ⟨⟨m, q, grp⟩, -⟩ := decideGrp_grp 1 soundU aloneU
  have lost : (grpOf u g).apsLoss = true := by rw [here]
  have quiet : (remoteReq u g).1 = 0 := by simp [remoteReq, lost]
  refine ⟨_, congrArg Host.Outcome.next ((liveFrame_on on frame _).trans row), ?_, ?_, sticky_, only⟩
  · rw [grp, ← lost]
    simp only [decidedGrp, afterDrop]
    split <;> rfl
  · rw [grp]
    show BitVec.ofNat 4 (remoteReq u g).1 = 0
    rw [quiet]
    rfl

theorem fopNr_row (late : 512 ≤ (grpOf s g).nrRun) (idle : (grpOf s g).fopNr = false) :
    ∃ t, exec (.fopNr g) s = .next t ∧ (grpOf t g).fopNr = true ∧ bit (hist t hProt) 1 = true ∧ OnlyGroup s t g := by
  have row : xFopNr g s = decideGrp (sticky (onGrp s g (fun x => { x with fopNr := true, indChg := true })) hProt 2) g 1 := by
    unfold xFopNr
    dsimp only
    exact if_pos (by simp [enabled, bidirectional, late, idle])
  obtain ⟨here, soundU, aloneU, sticky_, only⟩ :=
    indication_facts on frame alone enabled sound bidirectional (f := fun x => { x with fopNr := true, indChg := true }) rfl rfl
  generalize sticky (onGrp s g (fun x => { x with fopNr := true, indChg := true })) hProt 2 = u at *
  obtain ⟨⟨m, q, grp⟩, -⟩ := decideGrp_grp 1 soundU aloneU
  have fails : (grpOf u g).fopNr = true := by rw [here]
  refine ⟨_, congrArg Host.Outcome.next ((liveFrame_on on frame _).trans row), ?_, sticky_, only⟩
  rw [grp, ← fails]
  simp only [decidedGrp, afterDrop]
  split <;> rfl
end

theorem pctrAdd_items (v : View) (pos : Sfp) (fuel : Nat) (g : SageSt) (m n : Nat) : (pctrAdd v pos fuel g m n).items = g.items := by
  induction fuel generalizing g m n with
  | zero => rfl
  | succ fuel ih =>
    unfold pctrAdd
    split
    · rfl
    · dsimp only
      split
      · rfl
      · split
        · exact ih _ _ _
        · rfl

/-- A record leaves the items that wait. -/
theorem traceAt_items (s : State) (p : Sfp) (c u o : Nat) (d : Bytes) : (traceAt s p c u o d).sage.items = s.sage.items := by
  have counted : ∀ (v : View) (pos : Sfp) (g : SageSt) (b i n : Nat), (sageCount v pos g b i n).items = g.items := by
    intro v pos g b i n
    have fed : ∀ (l : List Nat) (g : SageSt), (l.foldl (fun g m => if (v (aPctrEvt m)).toNat = b * 65536 + i && !pctrFed v m then
        pctrAdd v pos 64 g m n else g) g).items = g.items := by
      intro l
      induction l with
      | nil => exact fun g => rfl
      | cons m l ih =>
        intro g
        rw [List.foldl_cons, ih]
        split
        · exact pctrAdd_items _ _ _ _ _ _
        · rfl
    unfold sageCount
    split
    · rfl
    · exact fed _ _
  have pushed : ∀ (v : View) (pos : Sfp) (g : SageSt) (r : TraceRec), (fifoPush v pos g r).items = g.items := by
    intro v pos g r
    unfold fifoPush
    split
    · split
      · exact counted _ _ _ _ _ _
      · rfl
    · rfl
  unfold traceAt traceRec eventOf
  dsimp only
  split
  · exact pushed _ _ _ _
  · split <;> exact (counted _ _ _ _ _ _).trans (pushed _ _ _ _)

/-- The oldest item becomes a record. -/
theorem protectionReport_row {s : State} {it : ProtItem} {rest : List ProtItem} (on : powered s = true) (items : s.sage.items = it :: rest) :
    ∃ t, exec .protectionReport s = .next t ∧ t.sage.items = rest
      ∧ (newest t).map (fun x => (x.at_, x.cls, x.sub, x.obj, x.data))
          = some (it.at_, it.cls, it.sub, BitVec.ofNat 16 it.g, it.data)
      ∧ t = { s with sage := t.sage, regs := { s.regs with hist := t.regs.hist } } := by
  have row : xProtectionReport s = traceAt (onSage s (fun q => { q with items := rest })) it.at_ it.cls it.sub it.g it.data := by
    rw [xProtectionReport, items]
  refine ⟨_, congrArg Host.Outcome.next ((live_on on _).trans row), traceAt_items _ _ _ _ _ _, ?_, ?_⟩
  · rw [newest_traceAt]
    rfl
  · exact Only.frame (l := [.sage, .hist]) fun part out => by
      simp at out
      simp [out]

/-- Settles O22: each row is its own count, or a change of the group before its decision. -/
theorem apsChannel : Obligations.ApsChannel := by
  unfold Obligations.ApsChannel
  refine fun p o3 b n g it rest s on => ⟨fun trunk aligned => ?_, fun frame alone enabled sound => ⟨fun arch late idle free => ?_,
    fun arch late idle => ?_⟩, fun items => protectionReport_row on items⟩
  · intro b1 w ok
    refine ⟨fun bad => ?_, fun good empty => ?_, fun good high some_ => ?_, fun good named none_ => ?_, fun good named found => ⟨fun wrong => ?_,
      fun valid => ?_⟩⟩
    · obtain ⟨counted, only⟩ := apsCounted s p (if o3 then 24 else 23)
      exact ⟨_, congrArg Host.Outcome.next ((live_on on _).trans (apsReceive_bad trunk aligned rfl bad)), counted, only⟩
    · exact congrArg Host.Outcome.next ((live_on on _).trans (apsReceive_empty trunk aligned rfl good empty))
    · obtain ⟨counted, only⟩ := apsCounted s p 25
      exact ⟨_, congrArg Host.Outcome.next ((live_on on _).trans (apsReceive_high trunk aligned rfl good high some_)), counted, only⟩
    · obtain ⟨counted, only⟩ := apsCounted s p 26
      exact ⟨_, congrArg Host.Outcome.next ((live_on on _).trans (apsReceive_stranger trunk aligned rfl good named none_)), counted, only⟩
    · obtain ⟨counted, only⟩ := apsCounted s p 44
      have row := apsReceive_found trunk aligned rfl good named found
      rw [show apsValid (blkW (rxOverhead s p (if o3 then (portOf s p).txO3 else (portOf s p).txO2) b)) = false from wrong,
        if_neg Bool.false_ne_true] at row
      exact ⟨_, congrArg Host.Outcome.next ((live_on on _).trans row), counted, only⟩
    · have row := apsReceive_found trunk aligned rfl good named found
      rw [show apsValid (blkW (rxOverhead s p (if o3 then (portOf s p).txO3 else (portOf s p).txO2) b)) = true from valid,
        if_pos rfl] at row
      obtain ⟨t, accepted, ctr, facts⟩ := apsAccept_facts s g w
      obtain ⟨nine, same, other⟩ := messaged_ctr s g w
      refine ⟨t, congrArg Host.Outcome.next ((live_on on _).trans (row.trans accepted)), (ctr 9).trans nine, fun is => (ctr 10).trans (same is),
        fun not => (ctr 10).trans (other not), facts⟩
  · exact apsLoss_row on frame alone enabled sound arch late idle free
  · exact fopNr_row on frame alone enabled sound arch late idle

end Sys2Proof.Machine
end

section
/-! The protection family of commands (O23). -/

namespace Sys2Proof.Machine

open Sys2Proof

/-! The protection family of commands (Table 13-7). -/

/-- Words of an array at its own addresses. -/
theorem words_here (base n : Nat) (f : Nat → Nat) {k : Nat} (below : k < n) (w : Word) :
    ((List.range n).map (fun i => (base + 4 * i, f i))).foldl (lastWord (base + 4 * k)) w = word (f k) := by
  have run : ∀ (l : List Nat) (w : Word), k ∈ l →
      (l.map (fun i => (base + 4 * i, f i))).foldl (lastWord (base + 4 * k)) w = word (f k) := by
    intro l
    induction l using List.reverseRecOn with
    | nil => simp
    | append_singleton l i ih =>
      intro w inside
      rw [List.map_append, List.foldl_append, List.map_singleton, List.foldl_cons, List.foldl_nil, lastWord]
      by_cases same : i = k
      · simp [same]
      · rw [if_neg (by omega)]
        exact ih w (by simpa [Ne.symm same] using inside)
  exact run _ w (List.mem_range.mpr below)

theorem words_apart {base n b : Nat} (f : Nat → Nat) (apart : b < base) (w : Word) :
    ((List.range n).map (fun i => (base + 4 * i, f i))).foldl (lastWord b) w = w := by
  refine foldl_lastWord_absent (fun x inside => ?_) w
  obtain ⟨i, -, rfl⟩ := List.mem_map.mp inside
  show base + 4 * i ≠ b
  omega

/-- GRP_CFG as GRP_WRITE stages it. -/
def grpCfgWord (p : Bytes) : Nat :=
  let f := p.getD 2 0
  at1 (bit f 7) 0 + fld (bits f 2 1) 2 1 + at1 (bit f 6) 3 + at1 (bit f 5) 4 + at1 (bit f 4 || bits f 2 1 != 0) 5
    + at1 (bit f 3) 6 + fld (pk1 p 3) 7 8 + fld (pk1 p 4) 4 16 + fld (pk1 p 5) 6 24

/-- The members of a GRP_WRITE. -/
def grpMem (p : Bytes) (j : Nat) : Nat := if j < pk1 p 8 then pkNat p (10 + 2 * j) 2 else 0

theorem grpArgsOk_ranges {p : Bytes} (ok : grpArgsOk p = true) :
    pkNat p 0 2 < 2048 ∧ bits (p.getD 2 0) 2 1 ≤ 2 ∧ pk1 p 3 ≤ 100 ∧ (1 ≤ pk1 p 4 ∧ pk1 p 4 ≤ 12) ∧ pk1 p 5 ≤ 63 ∧
      pk1 p 8 ≤ 80 ∧ ∀ j < pk1 p 8, pkNat p (10 + 2 * j) 2 < 10240 := by
  simp only [grpArgsOk, Bool.and_eq_true, decide_eq_true_eq, List.all_eq_true, List.mem_range] at ok
  obtain ⟨⟨⟨⟨⟨⟨⟨⟨group, arch⟩, hold⟩, wtr⟩, wtr'⟩, home⟩, count⟩, -⟩, members⟩ := ok
  exact ⟨group, arch, hold, ⟨wtr, wtr'⟩, home, count, members⟩

theorem grpWords_at {p : Bytes} {v w : View}
    (staged : ∀ b, w b = (grpWords p).foldl (fun w x => if x.1 = b then word x.2 else w) (v b)) :
    w (aGrpCfg (pkNat p 0 2)) = word (grpCfgWord p) ∧
      w (aGrpAps (pkNat p 0 2)) = word (fld (pkNat p 6 2) 11 0 + fld (pk1 p 8) 7 16) ∧
      ∀ k < (pk1 p 8 + 1) / 2, w (aGrpMem (pkNat p 0 2) k) =
        word (fld (grpMem p (2 * k)) 14 16 + fld (grpMem p (2 * k + 1)) 14 0) := by
  have parts : ∀ b, w b = ((List.range ((pk1 p 8 + 1) / 2)).map (fun i => (aProt + 0x100 * pkNat p 0 2 + 0x40 + 4 * i,
      fld (grpMem p (2 * i)) 14 16 + fld (grpMem p (2 * i + 1)) 14 0))).foldl (lastWord b)
        ([(aGrpCfg (pkNat p 0 2), grpCfgWord p), (aGrpAps (pkNat p 0 2), fld (pkNat p 6 2) 11 0 + fld (pk1 p 8) 7 16)].foldl
          (lastWord b) (v b)) := by
    intro b
    rw [← List.foldl_append]
    exact staged b
  refine ⟨?_, ?_, fun k below => ?_⟩
  · rw [parts, words_apart _ (by simp only [aGrpCfg]; omega)]
    simp [lastWord, aGrpCfg, aGrpAps]
  · rw [parts, words_apart _ (by simp only [aGrpAps]; omega)]
    simp [lastWord]
  · rw [parts]
    exact words_here _ _ _ below _

theorem at1_split (b : Bool) (i : Nat) : (b = false ∧ at1 b i = 0) ∨ (b = true ∧ at1 b i = 2 ^ i) := by
  cases b <;> simp [at1]

theorem grpCfg_flags {arch hold wtr home : Nat} (a : arch ≤ 2) (h : hold ≤ 100) (w : wtr ≤ 12) (m : home ≤ 63)
    (en rev sd aps el : Bool) :
    let n := at1 en 0 + fld arch 2 1 + at1 rev 3 + at1 sd 4 + at1 aps 5 + at1 el 6 + fld hold 7 8 + fld wtr 4 16 + fld home 6 24
    n.testBit 0 = en ∧ n.testBit 3 = rev ∧ n.testBit 6 = el ∧ n % 2 ^ 32 / 2 ^ 1 % 4 = arch ∧ n % 2 ^ 32 / 2 ^ 8 % 128 = hold ∧
      n % 2 ^ 32 / 2 ^ 16 % 16 = wtr ∧ n % 2 ^ 32 / 2 ^ 24 % 64 = home := by
  have ea := at1_cases en 0
  have ra := at1_cases rev 3
  have sa := at1_cases sd 4
  have pa := at1_cases aps 5
  have la := at1_cases el 6
  intro n
  have value : n = at1 en 0 + arch * 2 + at1 rev 3 + at1 sd 4 + at1 aps 5 + at1 el 6 + hold * 256 + wtr * 65536 + home * 16777216 := by
    simp only [n, fld]
    omega
  clear_value n
  refine ⟨?_, ?_, ?_, ?_, ?_, ?_, ?_⟩
  · rw [Nat.testBit_eq_decide_div_mod_eq]
    rcases at1_split en 0 with ⟨is, at_⟩ | ⟨is, at_⟩
    · exact (decide_eq_false (by omega)).trans is.symm
    · exact (decide_eq_true (by omega)).trans is.symm
  · rw [Nat.testBit_eq_decide_div_mod_eq]
    rcases at1_split rev 3 with ⟨is, at_⟩ | ⟨is, at_⟩
    · exact (decide_eq_false (by omega)).trans is.symm
    · exact (decide_eq_true (by omega)).trans is.symm
  · rw [Nat.testBit_eq_decide_div_mod_eq]
    rcases at1_split el 6 with ⟨is, at_⟩ | ⟨is, at_⟩
    · exact (decide_eq_false (by omega)).trans is.symm
    · exact (decide_eq_true (by omega)).trans is.symm
  all_goals omega

theorem grpWords_fields {p : Bytes} (ok : grpArgsOk p = true) {v w : View}
    (staged : ∀ b, w b = (grpWords p).foldl (fun w x => if x.1 = b then word x.2 else w) (v b)) :
    gEn w (pkNat p 0 2) = bit (p.getD 2 0) 7 ∧ gArch w (pkNat p 0 2) = bits (p.getD 2 0) 2 1 ∧
      gRevert w (pkNat p 0 2) = bit (p.getD 2 0) 6 ∧ gErrorless w (pkNat p 0 2) = bit (p.getD 2 0) 3 ∧
      gHoldoff w (pkNat p 0 2) = pk1 p 3 ∧ gWtr w (pkNat p 0 2) = pk1 p 4 ∧ gHome w (pkNat p 0 2) = pk1 p 5 ∧
      gApsId w (pkNat p 0 2) = pkNat p 6 2 % 2048 ∧ gCount w (pkNat p 0 2) = pk1 p 8 ∧
      ∀ j : Fin 80, j < pk1 p 8 → gMember w (pkNat p 0 2) j = pkNat p (10 + 2 * j) 2 := by
  obtain ⟨group, arch, hold, wtr, home, count, members⟩ := grpArgsOk_ranges ok
  obtain ⟨cfg, aps, mem⟩ := grpWords_at staged
  obtain ⟨en, rev, el, archIs, holdIs, wtrIs, homeIs⟩ := grpCfg_flags arch hold wtr.2 home (bit (p.getD 2 0) 7) (bit (p.getD 2 0) 6)
    (bit (p.getD 2 0) 5) (bit (p.getD 2 0) 4 || bits (p.getD 2 0) 2 1 != 0) (bit (p.getD 2 0) 3)
  refine ⟨?_, ?_, ?_, ?_, ?_, ?_, ?_, ?_, ?_, fun j below => ?_⟩
  · rw [gEn, cfg, bit_word _ _ (by decide)]
    exact en
  · rw [gArch, cfg, bits_word]
    exact archIs
  · rw [gRevert, cfg, bit_word _ _ (by decide)]
    exact rev
  · rw [gErrorless, cfg, bit_word _ _ (by decide)]
    exact el
  · rw [gHoldoff, cfg, bits_word]
    exact holdIs
  · rw [gWtr, cfg, bits_word]
    exact wtrIs
  · rw [gHome, cfg, bits_word]
    exact homeIs
  · rw [gApsId, aps, bits_word]
    simp only [fld]
    omega
  · rw [gCount, aps, bits_word]
    simp only [fld]
    omega
  · have here := members j below
    rw [gMember]
    split
    · next even =>
      have first : grpMem p (2 * (j / 2)) = pkNat p (10 + 2 * j) 2 := by
        rw [grpMem, if_pos (by omega), show 2 * (j.val / 2) = j by omega]
      rw [mem _ (by omega), bits_word, first]
      simp only [fld]
      omega
    · next odd =>
      have second : grpMem p (2 * (j / 2) + 1) = pkNat p (10 + 2 * j) 2 := by
        rw [grpMem, if_pos (by omega), show 2 * (j.val / 2) + 1 = j by omega]
      rw [mem _ (by omega), bits_word, second]
      simp only [fld]
      omega

theorem grpWrite_body {r : Req} {q : Run} {s : State} (h : Accepted 0x0401 r q s) (ok : grpArgsOk r.params = true) :
    xGrpWrite q (started s) = staging 4 (started s) (fun t => replyOk (stageList t (grpWords r.params)) []) := by
  simp [xGrpWrite, h.1.2.2.2.1, ok]

/-! The reads. -/

/-- The flags byte of GRP_READ. -/
def grpFlags (v : View) (g : Nat) : Nat :=
  at1 (gEn v g) 7 + at1 (gRevert v g) 6 + at1 (gSdEn v g) 5 + at1 (gApsEn v g) 4 + at1 (gErrorless v g) 3 + fld (gArch v g) 2 1

/-- The bytes of GRP_READ. -/
def grpBytes (v : View) (g : Nat) : Bytes :=
  beBytes 2 g ++ (by1 (grpFlags v g) :: by1 (gHoldoff v g) :: by1 (gWtr v g) :: by1 (gHome v g) ::
    (beBytes 2 (gApsId v g) ++ (by1 (gCount v g) :: 0 :: (List.range (min (gCount v g) 80)).flatMap (fun j => beBytes 2 (gMember v g j)))))

theorem grpRead_body {r : Req} {q : Run} {s : State} (h : Accepted 0x0402 r q s) (group : pkNat r.params 0 2 ≤ 2047)
    (view : pk1 r.params 2 ≤ 1) : xGrpRead q (started s) =
      setReply (started s) 0 0 (grpBytes (viewSel s (pk1 r.params 2)) (pkNat r.params 0 2)) := by
  rw [xGrpRead, h.1.2.2.2.1]
  refine (if_neg (by omega)).trans ?_
  rw [replyOk]
  congr 1

theorem flag_high {n : Nat} (b : Bool) (low : n < 128) : (at1 b 7 + n).testBit 7 = b := by
  rw [Nat.testBit_eq_decide_div_mod_eq]
  cases b
  · exact decide_eq_false (by simp only [at1, Bool.false_eq_true, if_false]; omega)
  · exact decide_eq_true (by simp only [at1, if_true]; omega)

theorem grpBytes_fields (v : View) {g : Nat} (group : g ≤ 2047) :
    pkNat (grpBytes v g) 0 2 = g ∧ bit ((grpBytes v g).getD 2 0) 7 = gEn v g ∧ pk1 (grpBytes v g) 3 = gHoldoff v g ∧
      pk1 (grpBytes v g) 4 = gWtr v g ∧ pkNat (grpBytes v g) 6 2 = gApsId v g ∧
      (grpBytes v g).length = 10 + 2 * min (gCount v g) 80 := by
  have hold : gHoldoff v g < 128 := bits_lt _ 14 8
  have wtr : gWtr v g < 16 := bits_lt _ 19 16
  have aps : gApsId v g < 2048 := bits_lt _ 10 0
  refine ⟨?_, ?_, ?_, ?_, ?_, ?_⟩
  · rw [grpBytes, pkNat_here]
    omega
  · have arch : gArch v g < 4 := bits_lt _ 2 1
    have byte : (grpBytes v g).getD 2 0 = by1 (grpFlags v g) := rfl
    rw [byte, bit_by1 _ _ (by decide), grpFlags, Nat.add_assoc, Nat.add_assoc, Nat.add_assoc, Nat.add_assoc]
    refine flag_high _ ?_
    have a := at1_cases (gRevert v g) 6
    have b := at1_cases (gSdEn v g) 5
    have c := at1_cases (gApsEn v g) 4
    have d := at1_cases (gErrorless v g) 3
    simp only [fld]
    omega
  · simp [grpBytes]
    omega
  · simp [grpBytes]
    omega
  · simp [grpBytes]
    omega
  · have members : ((List.range (min (gCount v g) 80)).flatMap (fun j => beBytes 2 (gMember v g j))).length
        = 2 * min (gCount v g) 80 := by
      rw [flatMap_length _ (fun j => beBytes_length 2 _), List.length_range]
    simp only [grpBytes, List.length_append, List.length_cons, beBytes_length, members]
    omega

/-- The message a group received last, as PROT_GRP_STATUS gives it. -/
def rxBytes (x : GrpSt) : Bytes :=
  match x.rx with
  | some w => wBytes w
  | none => List.replicate 7 0xFF

theorem rxBytes_length (x : GrpSt) : (rxBytes x).length = 7 := by
  unfold rxBytes
  split
  · simp [wBytes]
  · rfl

/-- The bytes of PROT_GRP_STATUS. -/
def grpStatusBytes (s : State) (g : Nat) : Bytes :=
  let x := grpOf s g
  beBytes 2 g ++ (by1 (at1 x.sel 0 + at1 (gEn (actv s) g) 1 + fld (eqCode x.eq) 3 2) :: reqByte x.loc.toNat x.locSig ::
    reqByte x.rem.toNat x.remSig :: reqByte x.eff.toNat x.effSig :: reqByte x.stReq.toNat (reqSig x.stReq.toNat) ::
    by1 (at1 x.lo 0 + at1 x.fs 1 + at1 x.ms 2) :: (beBytes 4 (grpHoldRem s g) ++ (beBytes 4 (grpWtrRem s g) ++
      (by1 (at1 x.apsLoss 0 + at1 x.fopPm 1 + at1 x.fopNr 2 + at1 x.revMism 3 + at1 x.tblErr 4) :: by1 x.eqWhy :: rxBytes x))))

theorem grpStatus_body {r : Req} {q : Run} {s : State} (h : Accepted 0x0404 r q s) (group : pkNat r.params 0 2 ≤ 2047) :
    xProtGrpStatus q (started s) = setReply (started s) 0 0 (grpStatusBytes s (pkNat r.params 0 2)) := by
  rw [xProtGrpStatus, h.1.2.2.2.1]
  refine (if_neg (by omega)).trans ?_
  rw [replyOk]
  congr 1

theorem grpStatusBytes_fields (s : State) {g : Nat} (group : g ≤ 2047) :
    (grpStatusBytes s g).length = 25 ∧ pkNat (grpStatusBytes s g) 0 2 = g ∧
      bit ((grpStatusBytes s g).getD 2 0) 0 = (grpOf s g).sel ∧
      (grpStatusBytes s g).getD 5 0 = reqByte (grpOf s g).eff.toNat (grpOf s g).effSig := by
  refine ⟨?_, ?_, ?_, rfl⟩
  · simp [grpStatusBytes, rxBytes_length]
  · rw [grpStatusBytes, pkNat_here]
    omega
  · have byte : (grpStatusBytes s g).getD 2 0 =
        by1 (at1 (grpOf s g).sel 0 + at1 (gEn (actv s) g) 1 + fld (eqCode (grpOf s g).eq) 3 2) := rfl
    rw [byte, bit_by1 _ _ (by decide), Nat.testBit_zero]
    have en := at1_cases (gEn (actv s) g) 1
    rcases at1_split (grpOf s g).sel 0 with ⟨is, at_⟩ | ⟨is, at_⟩
    · exact (decide_eq_false (by simp only [fld]; omega)).trans is.symm
    · exact (decide_eq_true (by simp only [fld]; omega)).trans is.symm

/-! Requests and realignment. -/

theorem protRequest_body {r : Req} {q : Run} {s : State} (h : Accepted 0x0403 r q s) (group : pkNat r.params 0 2 ≤ 2047)
    (code : pk1 r.params 2 = 14 ∨ pk1 r.params 2 = 10 ∨ pk1 r.params 2 = 4 ∨ pk1 r.params 2 = 0) :
    (gEn (actv s) (pkNat r.params 0 2) = true → xProtRequest q (started s) = replyEnd (started s)
        (.request (pkNat r.params 0 2) (BitVec.ofNat 4 (pk1 r.params 2)) (clsOf s q == 2))) ∧
      (gEn (actv s) (pkNat r.params 0 2) = false → xProtRequest q (started s) = deniedState (started s)) := by
  have view : actv (started s) = actv s := rfl
  have inRange : ¬ (2047 < pkNat r.params 0 2 ∨
      (pk1 r.params 2 ≠ 14 ∧ pk1 r.params 2 ≠ 10 ∧ pk1 r.params 2 ≠ 4 ∧ pk1 r.params 2 ≠ 0)) := by omega
  rw [xProtRequest, h.1.2.2.2.1, view]
  refine ⟨fun on => (if_neg inRange).trans ?_, fun off => (if_neg inRange).trans ?_⟩
  · rw [on]
    rfl
  · rw [off]
    rfl

/-- A group whose members another holder holds is refused before the command begins its work. -/
theorem barred_row {op : BitVec 16} {r : Req} {q : Run} {s : State} (h : Begun op r q s) (kind : op = 0x0403 ∨ op = 0x0404)
    (free : op = 0x0403 → pk1 r.params 2 = 4) (long : 2 ≤ r.params.length) (group : pkNat r.params 0 2 ≤ 2047)
    (barred : groupBarred s q (pkNat r.params 0 2) = true) (body : Run → State → State) :
    ∃ t, live s (runOnce op r body s) = t ∧ Answers t 4 2 [] ∧ t = { s with vcp := t.vcp } := by
  obtain ⟨on, -, run, req, opcode, -, -⟩ := id h
  have holder : clsOf s q = 2 := by
    have := barred
    rw [groupBarred, Bool.and_eq_true, beq_iff_eq] at this
    exact this.1
  have code : q.op.toNat = 0x0403 ∨ q.op.toNat = 0x0404 := by
    rw [opcode]
    rcases kind with rfl | rfl
    · exact .inl rfl
    · exact .inr rfl
  have named : holderCheck s q = some (4, 2) := by
    have notSlots : ¬ (0x0380 ≤ q.op.toNat ∧ q.op.toNat ≤ 0x0382 ∧ 2 ≤ q.req.params.length ∧
        pkNat q.req.params 0 2 ≠ holderOf s q) := by omega
    have notHigh : ¬ (q.op.toNat = 0x0403 ∧ 3 ≤ q.req.params.length ∧ (pk1 q.req.params 2 = 0xE ∨ pk1 q.req.params 2 = 0xA)) := by
      rintro ⟨is, -, high⟩
      have four := free (BitVec.eq_of_toNat_eq (by rw [← opcode]; exact is))
      rw [req] at high
      omega
    unfold holderCheck
    dsimp only
    rw [if_neg (not_not_intro holder), if_neg notSlots, if_neg notHigh, req]
    exact if_pos ⟨code, long, by omega, barred⟩
  have fails : checkCommand s q = some (4, 2) := by
    have classes : ¬ (opClasses q.op.toNat).contains (clsOf s q) = false := by
      rw [holder]
      rcases code with code | code <;> rw [code] <;> decide
    unfold checkCommand
    dsimp only
    rw [if_neg classes, named]
    rfl
  have row : live s (runOnce op r body s) = setReply s 4 2 [] := by
    rw [live_on on, runOnce_begun h, fails]
  refine ⟨_, row, setReply_answers run 4 2 [], ?_⟩
  obtain ⟨x, shape⟩ := setReply_shape s 4 2 []
  rw [shape]

/-- PROT_EQ_REALIGN, by what the group waits for. -/
theorem eqRealign_rows {r : Req} {q : Run} {s : State} (h : Accepted 0x0405 r q s) (group : pkNat r.params 0 2 ≤ 2047) :
    ((grpOf s (pkNat r.params 0 2)).eq ≠ .unaligned → xProtEqRealign q (started s) = deniedState (started s)) ∧
      ((grpOf s (pkNat r.params 0 2)).eq = .unaligned →
        ((grpOf s (pkNat r.params 0 2)).eqWhy = 4 → xProtEqRealign q (started s) = setReply (started s) 4 0x4C []) ∧
        ((grpOf s (pkNat r.params 0 2)).eqWhy = 2 ∨ (grpOf s (pkNat r.params 0 2)).eqWhy = 3 ∨
            (grpOf s (pkNat r.params 0 2)).eqWhy = 7 → xProtEqRealign q (started s) = setReply (started s) 4 0x4D []) ∧
        ((grpOf s (pkNat r.params 0 2)).eqWhy = 1 ∨ (grpOf s (pkNat r.params 0 2)).eqWhy = 5 ∨
            (grpOf s (pkNat r.params 0 2)).eqWhy = 6 → xProtEqRealign q (started s) =
          replyOk (onGrp (started s) (pkNat r.params 0 2) (fun y => { y with grant := true, grantMeas := false }))
            [1, by1 (grpOf s (pkNat r.params 0 2)).eqWhy])) := by
  have same : grpOf (started s) (pkNat r.params 0 2) = grpOf s (pkNat r.params 0 2) := rfl
  have inRange : ¬ 2047 < pkNat r.params 0 2 := by omega
  unfold xProtEqRealign
  rw [h.1.2.2.2.1]
  dsimp only
  rw [same]
  refine ⟨fun off => (if_neg inRange).trans (if_pos off), fun is => ⟨fun why => ?_, fun why => ?_, fun why => ?_⟩⟩
  · exact (if_neg inRange).trans ((if_neg (not_not_intro is)).trans (if_pos why))
  · exact (if_neg inRange).trans ((if_neg (not_not_intro is)).trans ((if_neg (by omega)).trans (if_pos why)))
  · refine (if_neg inRange).trans ((if_neg (not_not_intro is)).trans ((if_neg (by omega)).trans ((if_neg (by omega)).trans ?_)))
    rw [is]
    rfl

/-- A granted realignment. -/
theorem granted_facts {s : State} {q : Run} (run : s.vcp.run = some q) (g : Nat) (data : Bytes) :
    let t := replyOk (onGrp (started s) g (fun y => { y with grant := true, grantMeas := false })) data
    Answers t 0 0 data ∧ grpOf t g = { grpOf s g with grant := true, grantMeas := false } ∧
      (∀ h : Fin 2048, h.val ≠ g → grpOf t h = grpOf s h) ∧ t = { s with vcp := t.vcp, grps := t.grps } := by
  obtain ⟨x, shape⟩ := setReply_shape (onGrp (started s) g (fun y => { y with grant := true, grantMeas := false })) 0 0 data
  have answers := setReply_answers (s := onGrp (started s) g (fun y => { y with grant := true, grantMeas := false }))
    (started_run run) 0 0 data
  intro t
  have shape : t = _ := shape
  refine ⟨answers, ?_, fun h apart => ?_, ?_⟩
  · rw [shape]
    exact tget_tput_same _ _ _ _
  · rw [shape]
    exact tget_tput_ne _ _ _ apart
  · rw [shape]
    rfl

/-- Settles O23: each command is its body on a state that has begun its work. -/
theorem protectionCommands : Obligations.ProtectionCommands := by
  unfold Obligations.ProtectionCommands
  intro r q s p g
  refine ⟨fun h thawed free ok => ?_, fun h group view => ?_, fun h group code => ⟨fun on => ?_, fun off => ?_⟩, fun h group => ?_,
    fun h group long barred => ?_, fun h group long code barred => ?_, fun h group => ?_⟩
  · obtain ⟨t, row, answers, words, staged⟩ := staging_row h thawed free (grpWrite_body h ok)
    exact ⟨t, congrArg _ row, answers, grpWords_fields ok words, staged⟩
  · obtain ⟨t, row, answers, data, frame⟩ := answer_row h (grpRead_body h group view)
    have fields := grpBytes_fields (viewSel s (pk1 r.params 2)) group
    rw [← data] at answers fields
    obtain ⟨g0, en, hold, wtr, aps, length⟩ := fields
    exact ⟨t, congrArg _ row, answers, g0, en, hold, wtr, aps, length, frame⟩
  · obtain ⟨t, row, facts⟩ := replyEnd_row h ((protRequest_body h group code).1 on)
    exact ⟨t, congrArg _ row, facts⟩
  · obtain ⟨t, row, facts⟩ := deniedState_row h ((protRequest_body h group code).2 off)
    exact ⟨t, congrArg _ row, facts⟩
  · obtain ⟨t, row, answers, data, frame⟩ := answer_row h (grpStatus_body h group)
    have fields := grpStatusBytes_fields s group
    rw [← data] at answers fields
    obtain ⟨length, g0, sel, eff⟩ := fields
    exact ⟨t, congrArg _ row, answers, length, g0, sel, eff, frame⟩
  · obtain ⟨t, row, facts⟩ := barred_row h (.inr rfl) (fun other => absurd other (by decide)) long group barred xProtGrpStatus
    exact ⟨t, congrArg _ row, facts⟩
  · obtain ⟨t, row, facts⟩ := barred_row h (.inl rfl) (fun _ => code) (Nat.le_of_succ_le long) group barred xProtRequest
    exact ⟨t, congrArg _ row, facts⟩
  · obtain ⟨other, waits⟩ := eqRealign_rows h group
    refine ⟨fun is why => ?_, fun is why => ?_, fun is why => ?_, fun off => ?_⟩
    · exact ⟨_, congrArg Host.Outcome.next ((once_row h xProtEqRealign).trans ((waits is).2.2 why)),
        granted_facts h.1.2.2.1 (pkNat r.params 0 2) _⟩
    · obtain ⟨t, row, answers, -, frame⟩ := answer_row h ((waits is).1 why)
      exact ⟨t, congrArg _ row, answers, frame⟩
    · obtain ⟨t, row, answers, -, frame⟩ := answer_row h ((waits is).2.1 why)
      exact ⟨t, congrArg _ row, answers, frame⟩
    · obtain ⟨t, row, facts⟩ := deniedState_row h (other off)
      exact ⟨t, congrArg _ row, facts⟩

end Sys2Proof.Machine
end

section
/-! Errorless groups (O24). -/

namespace Sys2Proof.Machine

open Sys2Proof

/-! Errorless groups (R203 to R209). -/

/-- A group's equaliser passes to another state: counted and reported. -/
theorem eqTo_facts (s : State) {g : Nat} {st : EqState} (why : Nat) (moves : (grpOf s g).eq ≠ st) :
    grpOf (eqTo s g st why) g = { grpOf s g with eq := st, eqWhy := why } ∧ OthersKept g s (eqTo s g st why) ∧
      Counted s (eqTo s g st why) 0x300 (32 * g + 16) ∧
      ∀ k ≠ 16, ctrVal (eqTo s g st why) 0x300 (32 * g + k) = ctrVal s 0x300 (32 * g + k) := by
  unfold eqTo
  dsimp only
  rw [if_neg moves]
  set u := onGrp s g (fun x => { x with eq := st, eqWhy := why }) with u_def
  have same : ∀ it, get .grps (pushItem (cGrp u g 16) it) = get .grps u := fun it => by simp
  refine ⟨(grpOf_of_get (same _) g).trans (grpOf_onGrp_same s g _), (OthersKept.onGrp g s _).trans (.of_get (same _)), ?_, fun k apart => ?_⟩
  · exact (ctrVal_pushItem _ _ _ _).trans (cGrp_counted u g 16)
  · exact (ctrVal_pushItem _ _ _ _).trans (ctrVal_cGrp_ne u apart)

theorem eqTo_only (s : State) (g : Nat) (st : EqState) (why : Nat) : Only GroupParts s (eqTo s g st why) := fun part out => by
  simp at out
  simp [out]

/-! Path markers. -/

/-- The detector of a source. -/
def markOf (prot : Bool) (x : GrpSt) : MarkSt := if prot then x.mp else x.mw

/-- The group with another detector. -/
def withMark (prot : Bool) (x : GrpSt) (m : MarkSt) : GrpSt := if prot then { x with mp := m } else { x with mw := m }

theorem markOf_withMark (prot : Bool) (x : GrpSt) (m : MarkSt) : markOf prot (withMark prot x m) = m := by
  cases prot <;> rfl

theorem withMark_kept (prot : Bool) (x : GrpSt) (m : MarkSt) : (withMark prot x m).eq = x.eq ∧ (withMark prot x m).e = x.e ∧
    (withMark prot x m).sel = x.sel := by
  cases prot <;> exact ⟨rfl, rfl, rfl⟩

theorem measure_kept (x : GrpSt) (prot : Bool) : markOf prot (measure x) = markOf prot x ∧ (measure x).eq = x.eq ∧
    (measure x).e = x.e ∧ (measure x).sel = x.sel := by
  unfold measure
  split
  · split
    · cases prot <;> exact ⟨rfl, rfl, rfl, rfl⟩
    · exact ⟨rfl, rfl, rfl, rfl⟩
  · exact ⟨rfl, rfl, rfl, rfl⟩

/-- A marker at its expected place with the next SEQ locks its source. -/
theorem markStep_next {m : MarkSt} {q : Nat} {c : Int} (last : m.last = some (q, c)) :
    markStep m ((q + 1) % mfcMod) (c + 65504) = { lock := true, last := some ((q + 1) % mfcMod, c + 65504), slipped := 0 } := by
  have one : ((q + 1) % mfcMod + mfcMod - q % mfcMod) % mfcMod = 1 := by
    unfold mfcMod
    omega
  have off : (c + 65504 - c - 65504 * ((1 : Nat) : Int)) = 0 := by omega
  unfold markStep
  rw [last]
  dsimp only
  rw [one, off]
  rfl

section
variable {g : Fin 2048} {prot : Bool} {i q : Nat} {c : Int} {s : State} (on : powered s = true) (enabled : (grpOf s g).en = true)
  (errorless : gErrorless (actv s) g = true) (inside : 8 ≤ s.sfp.bi) (source : leadSource s g prot = some i)
include on enabled errorless inside source

theorem marker_missing (none_ : markerSeq (stored s i) = none) : exec (.pathMarkerJudge g prot) s = .next s := by
  refine congrArg Host.Outcome.next ((live_on on _).trans ?_)
  unfold xPathMarkerDetect
  rw [enabled, errorless, decide_eq_true inside, source, Option.bind_some, none_]
  rfl

theorem marker_found (last : (markOf prot (grpOf s g)).last = some (q, c)) (marker : markerSeq (stored s i) = some ((q + 1) % mfcMod))
    (place : (calCycle s.sfp : Int) = c + 65504) :
    ∃ t, exec (.pathMarkerJudge g prot) s = .next t ∧ (markOf prot (grpOf t g)).lock = true
      ∧ (markOf prot (grpOf t g)).last = some ((q + 1) % mfcMod, (calCycle s.sfp : Int)) ∧ (markOf prot (grpOf t g)).slipped = 0
      ∧ (grpOf t g).eq = (grpOf s g).eq ∧ (grpOf t g).e = (grpOf s g).e ∧ (grpOf t g).sel = (grpOf s g).sel
      ∧ (∀ h : Fin 2048, h ≠ g → grpOf t h = grpOf s h) ∧ t = { s with grps := t.grps } := by
  have row : xPathMarkerDetect g prot s = onGrp s g (fun x =>
      let y := withMark prot x (markStep (markOf prot x) ((q + 1) % mfcMod) (calCycle s.sfp))
      if y.mw.last = x.mw.last ∧ y.mp.last = x.mp.last then y else measure y) := by
    unfold xPathMarkerDetect
    rw [enabled, errorless, decide_eq_true inside, source, Option.bind_some, marker]
    cases prot <;> rfl
  have step : markStep (markOf prot (grpOf s g)) ((q + 1) % mfcMod) (calCycle s.sfp) =
      { lock := true, last := some ((q + 1) % mfcMod, (calCycle s.sfp : Int)), slipped := 0 } := by
    rw [place]
    exact markStep_next last
  refine ⟨_, congrArg Host.Outcome.next ((live_on on _).trans row), ?_⟩
  have here := grpOf_onGrp_same s g (fun x =>
      let y := withMark prot x (markStep (markOf prot x) ((q + 1) % mfcMod) (calCycle s.sfp))
      if y.mw.last = x.mw.last ∧ y.mp.last = x.mp.last then y else measure y)
  have others : ∀ h : Fin 2048, h ≠ g → grpOf (onGrp s g (fun x =>
      let y := withMark prot x (markStep (markOf prot x) ((q + 1) % mfcMod) (calCycle s.sfp))
      if y.mw.last = x.mw.last ∧ y.mp.last = x.mp.last then y else measure y)) h = grpOf s h :=
    fun h apart => grpOf_onGrp_ne s _ (fun same => apart (Fin.ext same))
  dsimp only at here
  rw [step] at here
  set y := withMark prot (grpOf s g) { lock := true, last := some ((q + 1) % mfcMod, (calCycle s.sfp : Int)), slipped := 0 } with y_def
  have mark : markOf prot y = { lock := true, last := some ((q + 1) % mfcMod, (calCycle s.sfp : Int)), slipped := 0 } :=
    markOf_withMark _ _ _
  obtain ⟨eq, e, sel⟩ := withMark_kept prot (grpOf s g)
    { lock := true, last := some ((q + 1) % mfcMod, (calCycle s.sfp : Int)), slipped := 0 }
  rw [← y_def] at eq e sel
  obtain ⟨markM, eqM, eM, selM⟩ := measure_kept y prot
  rw [here]
  split
  · rw [mark]
    exact ⟨rfl, rfl, rfl, eq, e, sel, others, rfl⟩
  · rw [markM, mark, eqM, eM, selM]
    exact ⟨rfl, rfl, rfl, eq, e, sel, others, rfl⟩
end

/-- A source's lock is lost. -/
theorem pmLoss_row {g : Fin 2048} {prot : Bool} {q : Nat} {c : Int} {s : State} (on : powered s = true)
    (lock : (markOf prot (grpOf s g)).lock = true) (last : (markOf prot (grpOf s g)).last = some (q, c))
    (late : c + (markOf prot (grpOf s g)).slipped.natAbs + 2 * 65504 ≤ (calCycle s.sfp : Int)) :
    ∃ t, exec (.pmLoss g prot) s = .next t ∧ (markOf prot (grpOf t g)).lock = false ∧ (markOf prot (grpOf t g)).last = none
      ∧ Counted s t 0x300 (32 * g + (if prot then 22 else 21))
      ∧ ((grpOf s g).eq = .aligned → (grpOf t g).eq = .hold) ∧ ((grpOf s g).eq ≠ .aligned → (grpOf t g).eq = (grpOf s g).eq)
      ∧ (grpOf t g).e = (grpOf s g).e ∧ (grpOf t g).sel = (grpOf s g).sel ∧ OnlyGroup s t g := by
  set m : MarkSt := { markOf prot (grpOf s g) with lock := false, last := none, slipped := 0 } with m_def
  set f : GrpSt → GrpSt := fun x => if prot then { x with mp := m, delta := none } else { x with mw := m, delta := none } with f_def
  set u := cGrp (onGrp s g f) g (if prot then 22 else 21) with u_def
  have row : xPmLoss g prot s = if (grpOf s g).eq = .aligned then eqTo u g .hold 0 else u := by
    unfold xPmLoss
    have mine : (if prot then (grpOf s g).mp else (grpOf s g).mw) = markOf prot (grpOf s g) := rfl
    simp only [mine, lock, last, decide_eq_true late]
    rfl
  have here : grpOf u g = f (grpOf s g) := (grpOf_of_get (s := onGrp s g f) rfl g).trans (grpOf_onGrp_same s g f)
  have facts : (markOf prot (f (grpOf s g))).lock = false ∧ (markOf prot (f (grpOf s g))).last = none ∧
      (f (grpOf s g)).eq = (grpOf s g).eq ∧ (f (grpOf s g)).e = (grpOf s g).e ∧ (f (grpOf s g)).sel = (grpOf s g).sel := by
    rw [f_def]
    cases prot <;> exact ⟨rfl, rfl, rfl, rfl, rfl⟩
  obtain ⟨free, none_, eq, e, sel⟩ := facts
  have counted : Counted s u 0x300 (32 * g + (if prot then 22 else 21)) := cGrp_counted (onGrp s g f) g _
  have others : OthersKept g s u := (OthersKept.onGrp g s f).trans (.of_get (t := u) rfl)
  have only : Only GroupParts s u := fun part out => by
    simp at out
    simp [u_def, out]
  by_cases aligned : (grpOf s g).eq = .aligned
  · rw [if_pos aligned] at row
    obtain ⟨grp, rest, -, ctr⟩ := eqTo_facts u (g := g) (st := .hold) 0 (by rw [here, eq, aligned]; decide)
    refine ⟨_, congrArg Host.Outcome.next ((live_on on _).trans row), ?_, ?_, ?_, fun _ => ?_, fun not => absurd aligned not, ?_, ?_, ?_⟩
    · rw [grp, here]
      cases prot <;> exact free
    · rw [grp, here]
      cases prot <;> exact none_
    · rw [Counted, ctr _ (by split <;> decide)]
      exact counted
    · rw [grp]
    · rw [grp, here]
      exact e
    · rw [grp, here]
      exact sel
    · exact .of_parts (others.trans rest) (only.trans (eqTo_only u g .hold 0))
  · rw [if_neg aligned] at row
    refine ⟨_, congrArg Host.Outcome.next ((live_on on _).trans row), ?_, ?_, counted, fun is => absurd is aligned, fun _ => ?_, ?_, ?_,
      .of_parts others only⟩
    · rw [here]
      exact free
    · rw [here]
      exact none_
    · rw [here, eq]
    · rw [here, e]
    · rw [here, sel]

/-- Engagement at a permitted marker boundary. -/
theorem eqEngage_row {g : Fin 2048} {d : Int} {n : Nat} {s : State} (on : powered s = true) (enabled : (grpOf s g).en = true)
    (waits : (grpOf s g).eq = .unaligned) (delta : (grpOf s g).delta = some (d, n)) (two : 2 ≤ n) (near : d.natAbs ≤ 1953)
    (working : lockW s g = true) (protecting : lockP s g = true) (start : cycleStart s.sfp = true)
    (due : markerDue (if d < 0 then (grpOf s g).mw else (grpOf s g).mp) 0 (calCycle s.sfp) = true)
    (may : d = 0 ∨ (grpOf s g).egSel ≠ decide (d < 0) ∨ (grpOf s g).firstEng = true ∨
      (grpOf s g).grant = true ∧ (grpOf s g).grantMeas = true) :
    ∃ t, exec (.eqEngage g) s = .next t ∧ (grpOf t g).eq = .aligned ∧ (grpOf t g).e = d.natAbs
      ∧ (grpOf t g).delProt = decide (d < 0) ∧ (grpOf t g).grant = false ∧ Counted s t 0x300 (32 * g + 16)
      ∧ (grpOf t g).sel = (grpOf s g).sel ∧ OnlyGroup s t g := by
  set onEarly := decide (d ≠ 0) && (grpOf s g).egSel == decide (d < 0) with onEarly_def
  set u := onGrp s g (fun x => { x with e := d.natAbs, delProt := decide (d < 0), firstEng := false, grant := false, eqShift := [] })
    with u_def
  have permitted : (!onEarly || (grpOf s g).firstEng || (grpOf s g).grant && (grpOf s g).grantMeas) = true := by
    rw [onEarly_def]
    rcases may with zero | other | first | ⟨grant, meas⟩
    · simp [zero]
    · simp [other]
    · simp [first]
    · simp [grant, meas]
  have row : xEqEngage g s = if onEarly then pushItem (cGrp (eqTo u g .aligned 0) g 18)
      (eqItem (eqTo u g .aligned 0) g 2 1 (grpOf (eqTo u g .aligned 0) g)) else eqTo u g .aligned 0 := by
    unfold xEqEngage
    dsimp only
    rw [delta]
    exact if_pos (by rw [enabled, waits, start, due, working, protecting, decide_eq_true two, decide_eq_true near, permitted]; rfl)
  have here : grpOf u g = { grpOf s g with e := d.natAbs, delProt := decide (d < 0), firstEng := false, grant := false, eqShift := [] } :=
    grpOf_onGrp_same s g _
  obtain ⟨grp, rest, counted, -⟩ := eqTo_facts u (g := g) (st := .aligned) 0 (by rw [here, waits]; decide)
  have only : Only GroupParts s u := fun part out => by
    simp at out
    simp [u_def, out]
  have onlyT := only.trans (eqTo_only u g .aligned 0)
  have others : OthersKept g s (eqTo u g .aligned 0) := (OthersKept.onGrp g s _).trans rest
  rw [here] at grp
  refine ⟨_, congrArg Host.Outcome.next ((live_on on _).trans row), ?_⟩
  generalize eqTo u g .aligned 0 = v at *
  cases onEarly
  · rw [if_neg Bool.false_ne_true, grp]
    exact ⟨rfl, rfl, rfl, rfl, counted, rfl, .of_parts others onlyT⟩
  · have kept : get .grps (pushItem (cGrp v g 18) (eqItem v g 2 1 (grpOf v g))) = get .grps v := by simp
    rw [if_pos rfl, grpOf_of_get kept g, grp]
    refine ⟨rfl, rfl, rfl, rfl, ?_, rfl, .of_parts (others.trans (.of_get kept)) (onlyT.trans fun part out => ?_)⟩
    · exact (ctrVal_pushItem _ _ _ _).trans ((ctrVal_cGrp_ne v (by decide)).trans counted)
    · simp at out
      simp [out]

/-- A pending selector change reaches the egress side at a marker boundary. -/
theorem egressSelector_row {g : Fin 2048} {f : Sfp} {s : State} (on : powered s = true) (pending : (grpOf s g).eqPend = some f)
    (engaged_ : engaged (grpOf s g) = true) (after : 0 ≤ sfpDist (nextFrame f) s.sfp) (boundary : markerBoundary s g = true) :
    ∃ t, exec (.errorlessSelectorChange g) s = .next t ∧ (grpOf t g).egSel = (grpOf s g).sel ∧ (grpOf t g).eqPend = none
      ∧ (∀ h : Fin 2048, h ≠ g → grpOf t h = grpOf s h) ∧ t = { s with grps := t.grps } := by
  have row : xErrorlessSelectorChange g s = onGrp s g (fun x => { x with egSel := x.sel, eqPend := none }) := by
    unfold xErrorlessSelectorChange
    dsimp only
    rw [pending]
    exact if_pos (by simp [engaged_, after, boundary])
  have here := grpOf_onGrp_same s g (fun x => { x with egSel := x.sel, eqPend := none })
  refine ⟨_, congrArg Host.Outcome.next ((live_on on _).trans row), ?_, ?_, fun h apart => ?_, rfl⟩
  · rw [here]
  · rw [here]
  · exact grpOf_onGrp_ne s _ (fun same => apart (Fin.ext same))

/-- Settles O24: each row is a change of one group. -/
theorem errorlessRows : Obligations.ErrorlessRows := by
  unfold Obligations.ErrorlessRows
  refine fun g prot i q c d n f s on => ⟨fun enabled errorless inside source => ⟨fun last marker place => ?_, fun none_ => ?_⟩,
    fun lock last late => ?_, fun enabled waits delta two near working protecting start due may => ?_,
    fun pending engaged_ after boundary => ?_⟩
  · exact marker_found on enabled errorless inside source last marker place
  · exact marker_missing on enabled errorless inside source none_
  · exact pmLoss_row on lock last late
  · exact eqEngage_row on enabled waits delta two near working protecting start due may
  · exact egressSelector_row on pending engaged_ after boundary

end Sys2Proof.Machine
end

section
/-! The pair family of commands (O25). -/

namespace Sys2Proof.Machine

open Sys2Proof

/-! A change of the pair state that leaves the lines where they are (R214, R215, R233). -/

/-- The pair after a change of its state. -/
def pairIn (s : State) (n : PairState) (reason : Nat) : PairSt :=
  { s.pair with st := n, why := reason, changed := s.sfp, aliveOut := drives n, dualRun := 0, phase := 0, phaseAt := [], journal := [] }

/-- The state with the pair state changed, counted and sticky, before its record. -/
def pairMoved (s : State) (n : PairState) (reason : Nat) : State :=
  cPair (sticky (onPair s (fun _ => pairIn s n reason)) hPair 0x200) 0

theorem pairChange_moves {s : State} {n : PairState} (sub reason : Nat) (change : s.pair.st ≠ n)
    (stays : (drives s.pair.st && !drives n) = false) :
    pairChange s sub n reason = pairRec (pairMoved s n reason) sub s.pair.st n reason := by
  unfold pairChange
  dsimp only
  rw [if_neg change, stays]
  rfl

theorem pairChange_pair {s : State} {n : PairState} (sub reason : Nat) (change : s.pair.st ≠ n)
    (stays : (drives s.pair.st && !drives n) = false) : (pairChange s sub n reason).pair = pairIn s n reason := by
  rw [pairChange_moves sub reason change stays]
  rfl

theorem pairChange_only {s : State} {n : PairState} (sub reason : Nat) (change : s.pair.st ≠ n)
    (stays : (drives s.pair.st && !drives n) = false) : Only [.pair, .sage, .hist] s (pairChange s sub n reason) := by
  rw [pairChange_moves sub reason change stays]
  intro f out
  simp at out
  simp [pairMoved, out]

/-- A record of the pair steps no counter of the pair. -/
theorem ctrVal_pairRec (s : State) (sub : Nat) (old new : PairState) (reason i : Nat) (below : i < 65536) :
    ctrVal (pairRec s sub old new reason) 6 i = ctrVal s 6 i := ctrVal_trace _ _ _ _ _ (by omega) (by omega)

/-- Another counter of the pair than the one stepped. -/
theorem ctrVal_cPair_ne (s : State) {i j : Nat} (apart : j ≠ i) : ctrVal (cPair s i) 6 j = ctrVal s 6 j :=
  ctrVal_count_ne s 1 (by omega)

theorem pairChange_ctr {s : State} {n : PairState} (sub reason : Nat) (change : s.pair.st ≠ n)
    (stays : (drives s.pair.st && !drives n) = false) {i : Nat} (other : i ≠ 0) (below : i < 65536) :
    ctrVal (pairChange s sub n reason) 6 i = ctrVal s 6 i := by
  rw [pairChange_moves sub reason change stays, ctrVal_pairRec _ _ _ _ _ _ below, pairMoved, ctrVal_cPair_ne _ other]
  exact ctrVal_of_get (by simp) 6 i

theorem pairChange_bit {s : State} {n : PairState} (sub reason : Nat) (change : s.pair.st ≠ n)
    (stays : (drives s.pair.st && !drives n) = false) {a i : Nat} (h : bit (hist s a) i = true) :
    bit (hist (pairChange s sub n reason) a) i = true := by
  have kept : bit (hist (pairMoved s n reason) a) i = true :=
    bit_hist_sticky (s := onPair s (fun _ => pairIn s n reason)) h hPair 0x200
  rw [pairChange_moves sub reason change stays, pairRec]
  exact bit_hist_trace kept _ _ _ _

theorem drives_iff (n : PairState) : drives n = true ↔ n = .active ∨ n = .unpaired := by
  simp [drives]

/-- What is reported of a change. -/
theorem pairChange_becomes {s : State} {n : PairState} (sub reason : Nat) (change : s.pair.st ≠ n)
    (stays : (drives s.pair.st && !drives n) = false) : PairBecomes s (pairChange s sub n reason) sub n := by
  have pair := pairChange_pair sub reason change stays
  have counted : ctrVal (pairMoved s n reason) 6 0 = (ctrVal s 6 0 + 1) % 2 ^ 64 := by
    rw [pairMoved, cPair, counted_count]
    exact congrArg (fun x => (x + 1) % 2 ^ 64) (ctrVal_of_get (by simp) 6 0)
  have set : bit (hist (pairMoved s n reason) hPair) 9 = true :=
    bit_sticky (by decide) (onPair s (fun _ => pairIn s n reason)) hPair
  have pos : (pairMoved s n reason).sfp = s.sfp := rfl
  refine ⟨congrArg (·.st) pair, congrArg (·.changed) pair, ?_, ?_, ?_, ?_⟩
  · rw [pair]
    exact drives_iff n
  · rw [pairChange_moves sub reason change stays, pairRec]
    exact bit_hist_trace set _ _ _ _
  · rw [pairChange_moves sub reason change stays, Counted, ctrVal_pairRec _ _ _ _ _ _ (by decide), counted]
  · rw [pairChange_moves sub reason change stays, pairRec, newest_trace, pos]
    rfl

/-- The report stands while what it names does. -/
theorem PairBecomes.carry {s t s' t' : State} {sub : Nat} {n : PairState} (h : PairBecomes s t sub n) (pos : s.sfp = s'.sfp)
    (before : ctrVal s 6 0 = ctrVal s' 6 0) (st : t'.pair.st = t.pair.st) (changed : t'.pair.changed = t.pair.changed)
    (alive : t'.pair.aliveOut = t.pair.aliveOut) (stuck : bit (hist t hPair) 9 = true → bit (hist t' hPair) 9 = true)
    (after : ctrVal t' 6 0 = ctrVal t 6 0) (last : newest t' = newest t) : PairBecomes s' t' sub n := by
  obtain ⟨is, at_, out, set, counted, rec_⟩ := h
  refine ⟨st.trans is, (changed.trans at_).trans pos, by rw [alive]; exact out, stuck set, ?_, ?_⟩
  · rw [Counted, after, counted, before]
  · rw [last, rec_, pos]

theorem newest_of_get {s t : State} (h : get .sage t = get .sage s) : newest t = newest s := by
  have same : t.sage = s.sage := h
  rw [newest, newest, same]

/-- The same for a step that leaves the record, the counters and the sticky bits. -/
theorem PairBecomes.of_get {s t s' t' : State} {sub : Nat} {n : PairState} (h : PairBecomes s t sub n) (pos : s.sfp = s'.sfp)
    (before : get .sage s = get .sage s') (st : t'.pair.st = t.pair.st) (changed : t'.pair.changed = t.pair.changed)
    (alive : t'.pair.aliveOut = t.pair.aliveOut) (hist_ : get .hist t' = get .hist t) (sage : get .sage t' = get .sage t) :
    PairBecomes s' t' sub n :=
  h.carry pos (ctrVal_of_get before 6 0) st changed alive (fun set => by rw [hist_of_get hist_]; exact set) (ctrVal_of_get sage 6 0)
    (newest_of_get sage)

/-! Resyncs. -/

/-- The reply that ends the PAIR_RESYNC in execution. -/
theorem endResync_answers {s : State} {q : Run} (run : s.vcp.run = some q) (op : q.op = opPairResync) (open_ : q.reply = none)
    (status detail : Byte) (data : Bytes) : Answers (endResync s status detail data) status detail data := by
  unfold endResync
  dsimp only
  rw [run]
  dsimp only
  rw [if_pos ⟨op, open_⟩]
  rfl

theorem endResync_shape (s : State) (status detail : Byte) (data : Bytes) : ∃ run, endResync s status detail data =
    { s with vcp := { s.vcp with run := run }, pair := { s.pair with resync := false } } := by
  refine ⟨(endResync s status detail data).vcp.run, ?_⟩
  unfold endResync
  dsimp only
  split
  · split <;> rfl
  · rfl

/-- A resync that fails leaves STANDBY_UNSYNCED with its reason. -/
theorem failResync_facts {s : State} (syncing : s.pair.st = .syncing) (detail : Byte) (why : Nat) :
    (failResync s detail why).pair.st = .unsynced ∧ (failResync s detail why).pair.why = why ∧
    (failResync s detail why).pair.resync = false ∧ get .run (failResync s detail why) = get .run (endResync s 4 detail []) ∧
    Only [.run, .pair, .sage, .hist] s (failResync s detail why) := by
  obtain ⟨run, shape⟩ := endResync_shape s 4 detail []
  have st : (endResync s 4 detail []).pair.st = .syncing := by rw [shape, ← syncing]
  have change : (endResync s 4 detail []).pair.st ≠ .unsynced := by
    rw [st]
    decide
  have stays : (drives (endResync s 4 detail []).pair.st && !drives .unsynced) = false := by
    rw [st]
    rfl
  have pair := pairChange_pair 1 why change stays
  have only := pairChange_only 1 why change stays
  refine ⟨congrArg (·.st) pair, congrArg (·.why) pair, (congrArg (·.resync) pair).trans ?_, only .run (by decide), fun f out => ?_⟩
  · rw [pairIn, shape]
  · simp at out
    refine (only f (by simp [out])).trans ?_
    rw [shape]
    cases f <;> simp at out <;> rfl

/-- A resync that starts is in its Link phase. -/
theorem startResync_facts {s : State} (unsynced : s.pair.st = .unsynced) :
    PairBecomes s (startResync s) 1 .syncing ∧ (startResync s).pair.resync = true ∧ (startResync s).pair.phase = 1 ∧
    Only [.pair, .sage, .hist] s (startResync s) := by
  set u := onPair s (fun p => { p with resync := true })
  have change : u.pair.st ≠ .syncing := by
    show s.pair.st ≠ _
    rw [unsynced]
    decide
  have stays : (drives u.pair.st && !drives .syncing) = false := by
    show (drives s.pair.st && _) = false
    rw [unsynced]
    rfl
  have becomes := pairChange_becomes 1 0 change stays
  have pair := pairChange_pair 1 0 change stays
  have only := pairChange_only 1 0 change stays
  refine ⟨becomes.of_get rfl rfl rfl rfl rfl rfl rfl, congrArg (·.resync) pair, rfl, fun f out => ?_⟩
  simp at out
  have kept : get f (startResync s) = get f (pairTo u .syncing 0) := by
    simp [startResync, u, out]
  exact (kept.trans (only f (by simp [out]))).trans (by simp [u, out])

/-! PAIR_STATUS, PAIR_CFG_WRITE and PAIR_CFG_READ (Table 14-5). -/

/-- The bytes of PAIR_STATUS. -/
def pairStatusBytes (s : State) : Bytes :=
  let p := s.pair
  let peer := p.peer.getD (0, false, false, 0)
  let swap := match p.swap with
    | some (f, _) => sfpBytes f
    | none => zeros 10
  [by1 (pairCode p.st + at1 s.pins.twinPos 3 + at1 p.aliveIn 4 + at1 p.aliveOut 5 + at1 p.live0 6 + at1 p.live1 7), by1 p.why,
      by1 (pairLive s % 64 + at1 p.swap.isSome 6 + at1 p.resync 7), 0,
      by1 (peer.1.toNat + at1 peer.2.1 3 + at1 peer.2.2.1 4), peer.2.2.2]
    ++ swap ++ sfpBytes p.changed ++ maskBytes p.txSuspect ++ ctr8 s 6 1 ++ ctr8 s 6 3

theorem pairStatus_body {r : Req} {q : Run} {s : State} (h : Accepted 0x0701 r q s) :
    xPairStatus q (started s) = setReply (started s) 0 0 (pairStatusBytes s) := rfl

theorem pairCode_lt (p : PairState) : pairCode p < 6 := by
  cases p <;> decide

/-- Five flags above a code of three bits. -/
theorem codeFlags : ∀ (c : Fin 8) (a b d e f : Bool), let n := c.val + at1 a 3 + at1 b 4 + at1 d 5 + at1 e 6 + at1 f 7
    n < 256 ∧ n % 8 = c ∧ n.testBit 3 = a ∧ n.testBit 4 = b ∧ n.testBit 5 = d := by decide

/-- Two flags above six bits. -/
theorem topFlags : ∀ (c : Fin 64) (a b : Bool), let n := c.val + at1 a 6 + at1 b 7
    n.testBit 6 = a ∧ n.testBit 7 = b := by decide

theorem pairStatusBytes_fields (s : State) : let b := pairStatusBytes s
    b.length = 58 ∧ pk1 b 0 % 8 = pairCode s.pair.st ∧ bit (b.getD 0 0) 3 = s.pins.twinPos
      ∧ bit (b.getD 0 0) 4 = s.pair.aliveIn ∧ bit (b.getD 0 0) 5 = s.pair.aliveOut
      ∧ bit (b.getD 2 0) 6 = s.pair.swap.isSome ∧ bit (b.getD 2 0) 7 = s.pair.resync := by
  obtain ⟨small, code, pos, in_, out⟩ := codeFlags ⟨pairCode s.pair.st, Nat.lt_trans (pairCode_lt _) (by decide)⟩
    s.pins.twinPos s.pair.aliveIn s.pair.aliveOut s.pair.live0 s.pair.live1
  obtain ⟨swap, resync⟩ := topFlags ⟨pairLive s % 64, Nat.mod_lt _ (by decide)⟩ s.pair.swap.isSome s.pair.resync
  refine ⟨?_, ?_, (bit_by1 _ _ (by decide)).trans pos, (bit_by1 _ _ (by decide)).trans in_, (bit_by1 _ _ (by decide)).trans out,
    (bit_by1 _ _ (by decide)).trans swap, (bit_by1 _ _ (by decide)).trans resync⟩
  · cases named : s.pair.swap <;> simp [pairStatusBytes, named, sfpBytes_length, maskBytes, ctr8]
  · exact (congrArg (· % 8) ((by1_toNat _).trans (Nat.mod_eq_of_lt small))).trans code

/-- No pair is open: a command on the block finds none to end. -/
theorem interleave_free {s : State} {k : Nat} (free : tfind s.regs.pairs k = none) : interleave s k = s := by
  unfold interleave
  rw [pairTimeout_none free]
  dsimp only
  rw [free]

theorem staging_congr {m : BitVec 8} {s : State} {f g : State → State} (same : f (openDomains s m) = g (openDomains s m)) :
    staging m s f = staging m s g := by
  unfold staging
  rw [same]

/-- The word of PAIR_CFG. -/
def pairCfgOf (p : Bytes) : Nat := bits (p.getD 0 0) 1 0 + fld (pkNat p 2 2) 14 2 + fld (pkNat p 4 2) 13 16

theorem pairCfgWrite_body {r : Req} {q : Run} {s : State} (h : Accepted 0x0702 r q s) (none_ : s.regs.pairs = [])
    (gap : 8 ≤ pkNat r.params 2 2 ∧ pkNat r.params 2 2 ≤ 16383) (watch : 16 ≤ pkNat r.params 4 2 ∧ pkNat r.params 4 2 ≤ 4096)
    : xPairCfgWrite q (started s) =
      staging 128 (started s) (fun t => replyOk (stageList t [(aPairCfg, pairCfgOf r.params)]) []) := by
  have ranges : (!inR 8 16383 (pkNat r.params 2 2) || !inR 16 4096 (pkNat r.params 4 2)) = false := by
    simp [inR, gap, watch]
  rw [xPairCfgWrite, h.1.2.2.2.1]
  refine (if_neg (by rw [ranges]; decide)).trans ?_
  refine staging_congr ?_
  have same : (openDomains (started s) 128).regs.pairs = [] := by
    have kept : get .pairs (openDomains (started s) 128) = get .pairs s := by simp
    exact kept.trans none_
  rw [interleave_free (by rw [same]; rfl)]
  rfl

theorem pairCfgOf_fields {p : Bytes} (gap : pkNat p 2 2 ≤ 16383) (watch : pkNat p 4 2 ≤ 4096) {v : View}
    (word_ : v aPairCfg = word (pairCfgOf p)) : pairEn v = bit (p.getD 0 0) 0 ∧ autoResync v = bit (p.getD 0 0) 1 ∧
      swapGap v = pkNat p 2 2 ∧ txWatch v = pkNat p 4 2 := by
  have two : bits (p.getD 0 0) 1 0 < 4 := bits_lt _ 1 0
  have b0 : bit (p.getD 0 0) 0 = (bits (p.getD 0 0) 1 0).testBit 0 := by
    simp [bit, bits, BitVec.getLsbD, Nat.testBit_mod_two_pow]
  have b1 : bit (p.getD 0 0) 1 = (bits (p.getD 0 0) 1 0).testBit 1 := by
    simp [bit, bits, BitVec.getLsbD]
    grind
  refine ⟨?_, ?_, ?_, ?_⟩
  · rw [pairEn, word_, bit_word _ _ (by decide), b0]
    simp only [pairCfgOf, fld, Nat.testBit_eq_decide_div_mod_eq, decide_eq_decide]
    omega
  · rw [autoResync, word_, bit_word _ _ (by decide), b1]
    simp only [pairCfgOf, fld, Nat.testBit_eq_decide_div_mod_eq, decide_eq_decide]
    omega
  · rw [swapGap, word_, bits_word]
    simp only [pairCfgOf, fld]
    omega
  · rw [txWatch, word_, bits_word]
    simp only [pairCfgOf, fld]
    omega

theorem pairCfgRead_body {r : Req} {q : Run} {s : State} (h : Accepted 0x0703 r q s) (view : pk1 r.params 0 ≤ 1) :
    xPairCfgRead q (started s) = setReply (started s) 0 0
      ([by1 (at1 (pairEn (viewSel s (pk1 r.params 0))) 0 + at1 (autoResync (viewSel s (pk1 r.params 0))) 1), 0]
        ++ beBytes 2 (swapGap (viewSel s (pk1 r.params 0))) ++ beBytes 2 (txWatch (viewSel s (pk1 r.params 0)))) := by
  rw [xPairCfgRead, h.1.2.2.2.1]
  exact if_neg (by omega)

/-! PAIR_RESYNC (R231 to R233). -/

section
variable {r : Req} {q : Run} {s : State} (h : Accepted 0x0704 r q s)
include h

theorem started_only : Only [.run] s (started s) := fun f out => started_get s (by simpa using out)

theorem pairResync_starts (unsynced : s.pair.st = .unsynced) (heard : chiveSilent s = false)
    (peer : s.pair.peer.map (fun y => (y.1, y.2.2.2)) = some (2, ownCompat s)) :
    ∃ t, exec (.pairResync r) s = .next t ∧ replyNow t = none ∧ PairBecomes s t 1 .syncing ∧ t.pair.resync = true
      ∧ t.pair.phase = 1
      ∧ t = { s with vcp := t.vcp, pair := t.pair, sage := t.sage, regs := { s.regs with hist := t.regs.hist } } := by
  obtain ⟨⟨code, a, b, compat⟩, is, at_⟩ := Option.map_eq_some_iff.mp peer
  obtain ⟨rfl, rfl⟩ := Prod.mk.inj at_
  have body : xPairResync q (started s) = startResync (started s) := by
    have silent : chiveSilent (started s) = false := heard
    have peer' : (started s).pair.peer.getD (0, false, false, 0) = (2, a, b, ownCompat (started s)) := by
      show s.pair.peer.getD _ = _
      rw [is]
      rfl
    unfold xPairResync
    dsimp only
    rw [peer', silent]
    exact (if_neg (not_not_intro unsynced)).trans ((if_neg Bool.false_ne_true).trans ((if_neg (not_not_intro rfl)).trans
      (if_neg (not_not_intro rfl))))
  obtain ⟨becomes, resync, phase, only⟩ := startResync_facts (s := started s) unsynced
  have row := once_row h xPairResync
  rw [body] at row
  generalize startResync (started s) = t at row becomes resync phase only
  have frame : Only [.vcp, .run, .pair, .sage, .hist] s t := (started_only h |>.mono (by simp)).trans (only.mono (by simp))
  have open_ : replyNow t = none := by
    have run : t.vcp.run = (started s).vcp.run := only .run (by decide)
    rw [replyNow, run, started_run h.1.2.2.1]
    exact h.1.2.2.2.2.2.1
  exact ⟨t, congrArg Host.Outcome.next row, open_, becomes.of_get rfl rfl rfl rfl rfl rfl rfl, resync, phase, frame.frame⟩

theorem pairResync_silent (unsynced : s.pair.st = .unsynced) (silent : chiveSilent s = true) :
    ∃ t, exec (.pairResync r) s = .next t ∧ Answers t 4 8 [] ∧ t.pair.st = .unsynced ∧ t.pair.why = 2
      ∧ t = { s with vcp := t.vcp, pair := t.pair, sage := t.sage, regs := { s.regs with hist := t.regs.hist } } := by
  have body : xPairResync q (started s) = failResync (startResync (started s)) 8 2 :=
    (if_neg (not_not_intro unsynced)).trans (if_pos silent)
  obtain ⟨becomes, -, -, only⟩ := startResync_facts (s := started s) unsynced
  have row := once_row h xPairResync
  rw [body] at row
  generalize startResync (started s) = u at row becomes only
  obtain ⟨st, why, -, run, fails⟩ := failResync_facts becomes.1 8 2
  have runs : u.vcp.run = some { q with work := 1 } := (only .run (by decide)).trans (started_run h.1.2.2.1)
  have answers : Answers (failResync u 8 2) 4 8 [] := by
    have run : (failResync u 8 2).vcp.run = (endResync u 4 8 []).vcp.run := run
    have ends := endResync_answers runs h.1.2.2.2.2.1 h.1.2.2.2.2.2.1 4 8 []
    rw [Answers, replyNow, run]
    exact ends
  generalize failResync u 8 2 = t at row st why fails answers
  have frame : Only [.vcp, .run, .pair, .sage, .hist] s t :=
    (started_only h |>.mono (by simp)).trans ((only.mono (by simp)).trans (fails.mono (by simp)))
  exact ⟨t, congrArg Host.Outcome.next row, answers, st, why, frame.frame⟩

theorem pairResync_denied (other : s.pair.st ≠ .unsynced) :
    ∃ t, exec (.pairResync r) s = .next t ∧ Answers t 4 9 [] ∧ t = { s with vcp := t.vcp } := by
  have body : xPairResync q (started s) = deniedState (started s) := if_pos other
  obtain ⟨t, row, facts⟩ := deniedState_row h body
  exact ⟨t, congrArg Host.Outcome.next row, facts⟩
end

/-! PAIR_SWAP and PAIR_FORCE_ACTIVE make their pair on PAIR_CTL (R229, R234, R313). -/

/-- PAIR_SWAP_MFC and PAIR_SWAP_FI hold a boundary. -/
def swapHeld (s : State) (f : Sfp) : State :=
  onRegs s (fun r => setAct aSwapFi (word f.fi) (setAct aSwapLo (loW f.mfc) (setAct aSwapHi (hiW f.mfc) r)))

theorem swapNamed_held (s : State) {f : Sfp} (mfc : f.mfc < mfcMod) (fi : f.fi < 32) (bi : f.bi = 0) :
    swapNamed (swapHeld s f) = f := by
  have hi : act (swapHeld s f) aSwapHi = hiW f.mfc := by
    show tget _ (tput _ (tput _ (tput _ _ _ _) _ _) _ _) _ = _
    rw [tget_tput_other _ _ _ _ (by decide), tget_tput_other _ _ _ _ (by decide), tget_tput_same]
  have lo : act (swapHeld s f) aSwapLo = loW f.mfc := by
    show tget _ (tput _ (tput _ (tput _ _ _ _) _ _) _ _) _ = _
    rw [tget_tput_other _ _ _ _ (by decide), tget_tput_same]
  have fr : act (swapHeld s f) aSwapFi = word f.fi := tget_tput_same _ _ _ _
  have m : bits (hiW f.mfc) 15 0 * 2 ^ 32 + (loW f.mfc).toNat = f.mfc := by
    rw [hiW, bits_word, loW, word, BitVec.toNat_ofNat]
    unfold mfcMod at mfc
    omega
  have n : bits (word f.fi) 4 0 = f.fi := by
    rw [bits_word]
    omega
  rw [swapNamed, hi, lo, fr, m, n]
  cases f
  exact congrArg _ bi.symm

/-- A first write of the command. -/
theorem pairCtl_first {q : Run} (fresh : q.work = 0) (v : Word) (check : State → Option (Byte × Byte)) (pre : State → State)
    (s : State) (ok : State → State) :
    (check s = none → pairCtlRows v check pre q s ok = onRun (openPair (pre s) 0 (aSys + 0x038) v) (fun x => { x with work := 2 })) ∧
    (∀ x, check s = some x → pairCtlRows v check pre q s ok = setReply s x.1 x.2 []) := by
  refine ⟨fun passed => ?_, fun x failed => ?_⟩
  · unfold pairCtlRows
    rw [passed]
    exact (if_pos fresh).trans (pairRows_first fresh _ _ _ _)
  · unfold pairCtlRows
    rw [failed]
    exact if_pos fresh

/-- The values of PAIR_CTL that name a swap and its withdrawal. -/
theorem pairCtl_swap {v : Word} (code : bits v 2 0 = 1) (acc : Sfp) (s : State) : pairCtlCheck acc s v = swapCheck s acc (swapNamed s) ∧
    ∀ u : State, gwEffect u (aSys + 0x038) v = setSwap u (some (swapNamed u, false)) := by
  refine ⟨by simp [pairCtlCheck, code], fun u => ?_⟩
  show (if bits v 2 0 = 1 then swapRecord u (swapNamed u) else _) = _
  exact if_pos code

theorem pairCtl_cancel {v : Word} (code : bits v 2 0 = 2) (acc : Sfp) (s : State) :
    pairCtlCheck acc s v = cancelCheck s acc (swapNamed s) ∧ ∀ u : State, gwEffect u (aSys + 0x038) v = setSwap u none := by
  refine ⟨by simp [pairCtlCheck, code], fun u => ?_⟩
  show (if bits v 2 0 = 1 then _ else if bits v 2 0 = 2 then swapWithdraw u else _) = _
  rw [code]
  rfl

/-- PAIR_CTL leaves a value that fails its checks (R393). -/
def ctlLeft (s : State) : State :=
  onRegs (closePair s 0) (fun r => { r with guardFail := true, guardCause := 0, guardAddr := word (aSys + 0x038) })

/-- PAIR_CTL has taken a value. -/
def ctlTaken (s : State) (v : Word) : State := valueTaken s (aSys + 0x038) (kindMask (kindAct (aSys + 0x038))) v

section
variable {op : BitVec 16} {r : Req} {q : Run} {v : Word} {s : State} (h : SecondWrite op r q 0 (aSys + 0x038) v s)
include h

/-- Its second write. -/
theorem pairCtl_second (check : State → Option (Byte × Byte)) (pre : State → State) (ok : State → State) :
    (pairCtlCheck q.accept s v = none → pairCtlRows v check pre q s ok = ok (gwEffect (ctlTaken s v) (aSys + 0x038) v)) ∧
    (∀ x, pairCtlCheck q.accept s v = some x → pairCtlRows v check pre q s ok = setReply (ctlLeft s) x.1 x.2 []) := by
  have work : q.work ≠ 0 := by
    rw [h.2.2.2.2.2.2.1]
    decide
  have same : pairCtlCheck q.accept (closePair s 0) v = pairCtlCheck q.accept s v := pairCtlCheck_of_get rfl rfl rfl _ _
  refine ⟨fun passed => ?_, fun x failed => ?_⟩
  · unfold pairCtlRows
    rw [if_neg work, pairRows_second h]
    dsimp only
    rw [passed]
    have take : gwTake q.accept (closePair s 0) (aSys + 0x038) (kindMask (kindAct (aSys + 0x038))) v =
        gwEffect (ctlTaken s v) (aSys + 0x038) v := if_neg fun k => by
      rw [same, passed] at k
      exact Bool.false_ne_true k.2
    rw [take]
  · unfold pairCtlRows
    rw [if_neg work, pairRows_second h]
    dsimp only
    rw [failed]
    have leave_ : gwTake q.accept (closePair s 0) (aSys + 0x038) (kindMask (kindAct (aSys + 0x038))) v = ctlLeft s :=
      if_pos ⟨rfl, by rw [same, failed]; rfl⟩
    rw [leave_]

theorem pairs_closed : tdel s.regs.pairs 0 = [] := by
  obtain ⟨-, -, -, -, -, -, -, pairs, -⟩ := h
  obtain ⟨⟨k', p⟩, rest, split, key, tail⟩ := List.map_eq_cons_iff.mp pairs
  obtain rfl := List.map_eq_nil_iff.mp tail
  obtain ⟨rfl, -⟩ := Prod.mk.inj key
  rw [split]
  rfl

/-- The command ends as its check does, its pair closed. -/
theorem ctlLeft_facts (st d : Byte) : Answers (setReply (ctlLeft s) st d []) st d [] ∧ (setReply (ctlLeft s) st d []).pair = s.pair ∧
    (setReply (ctlLeft s) st d []).regs.pairs = [] := by
  have answers := setReply_answers (s := ctlLeft s) h.2.2.1 st d []
  obtain ⟨x, shape⟩ := setReply_shape (ctlLeft s) st d []
  refine ⟨answers, ?_⟩
  rw [shape]
  exact ⟨rfl, pairs_closed h⟩
end

theorem setSwap_shape (s : State) (w : Option (Sfp × Bool)) : ∃ m, setSwap s w = { s with pair := { s.pair with swap := w }, mir := m } := by
  refine ⟨(setSwap s w).mir, ?_⟩
  unfold setSwap mirror
  split <;> rfl

/-- A swap that is recorded or withdrawn at the second write. -/
theorem swapSecond_facts {op : BitVec 16} {r : Req} {q : Run} {v : Word} {s : State} (h : SecondWrite op r q 0 (aSys + 0x038) v s)
    (w : Option (Sfp × Bool)) (data : Bytes) : ∃ t, replyOk (setSwap (ctlTaken s v) w) data = t ∧ Answers t 0 0 data
      ∧ t.pair = { s.pair with swap := w } ∧ t.regs.pairs = []
      ∧ t = { s with vcp := t.vcp, pair := t.pair, mir := t.mir
                     regs := { s.regs with gw := t.regs.gw, pairs := t.regs.pairs } } := by
  obtain ⟨m, set⟩ := setSwap_shape (ctlTaken s v) w
  have answers := setReply_answers (s := setSwap (ctlTaken s v) w) (by rw [set]; exact h.2.2.1) 0 0 data
  obtain ⟨x, shape⟩ := setReply_shape (setSwap (ctlTaken s v) w) 0 0 data
  refine ⟨_, rfl, answers, ?_⟩
  rw [replyOk, shape, set]
  exact ⟨rfl, pairs_closed h, rfl⟩

section
variable {r : Req} {q : Run} {s : State}

theorem pairSwap_first (h : Accepted 0x0705 r q s) (bi : (sfpOfBytes r.params 0).bi = 0) (swap : bit (r.params.getD 10 0) 0 = false)
    (none_ : s.regs.pairs = []) : (swapCheck s q.accept (sfpOfBytes r.params 0) = none →
      ∃ t, exec (.pairSwap r) s = .next t ∧ replyNow t = none ∧ t.vcp.run.map (·.work) = some 2
        ∧ t.regs.pairs = [(0, { addr := aSys + 0x038, val := 1, at_ := s.sfp })]
        ∧ ((sfpOfBytes r.params 0).mfc < mfcMod → (sfpOfBytes r.params 0).fi < 32 → swapNamed t = sfpOfBytes r.params 0)
        ∧ t = { s with vcp := t.vcp, regs := { s.regs with act := t.regs.act, pairs := t.regs.pairs } }) ∧
    (∀ x, swapCheck s q.accept (sfpOfBytes r.params 0) = some x →
      ∃ t, exec (.pairSwap r) s = .next t ∧ Answers t x.1 x.2 [] ∧ t = { s with vcp := t.vcp }) := by
  set f := sfpOfBytes r.params 0 with f_def
  have body : xPairSwap q (started s) = pairCtlRows 1 (fun t => swapCheck t q.accept f) (fun t => swapRegs t f) q (started s)
      (fun t => replyOk t (sfpBytes f)) := by
    rw [xPairSwap, h.1.2.2.2.1, ← f_def]
    simp only [swap]
    exact if_neg (not_not_intro bi)
  obtain ⟨pass, fail⟩ := pairCtl_first h.1.2.2.2.2.2.2 1 (fun t => swapCheck t q.accept f) (fun t => swapRegs t f) (started s)
      (fun t => replyOk t (sfpBytes f))
  refine ⟨fun passed => ?_, fun x failed => ?_⟩
  · have free : ∀ t : State, t.regs.pairs = [] → tfind t.regs.pairs 0 = none := fun t e => by
      rw [e]
      rfl
    have regs : swapRegs (started s) f = swapHeld (started s) f := by
      rw [swapRegs, interleave_free (s := started s) (free _ none_), swapHeld]
    have opens : openPair (swapHeld (started s) f) 0 (aSys + 0x038) 1 = pairOpened (swapHeld (started s) f) 0 (aSys + 0x038) 1 s.sfp :=
      openPair_free (free (swapHeld (started s) f) none_) _ _
    have row := (steps_row h xPairSwap).trans (body.trans (pass passed))
    rw [regs, opens] at row
    have run := onRun_run (s := pairOpened (swapHeld (started s) f) 0 (aSys + 0x038) 1 s.sfp) (started_run h.1.2.2.1)
      (fun x => { x with work := 2 })
    refine ⟨_, congrArg Host.Outcome.next row, ?_, congrArg (·.map (·.work)) run, ?_, fun mfc fi => swapNamed_held s mfc fi bi, rfl⟩
    · exact (congrArg (·.bind (·.reply)) run).trans h.1.2.2.2.2.2.1
    · show tset s.regs.pairs 0 _ = _
      rw [none_]
      rfl
  · obtain ⟨t, row, answers, only⟩ := readSteps_row h (body.trans (fail x failed))
    refine ⟨t, congrArg Host.Outcome.next row, answers, ?_⟩
    rw [only]

/-- The body of PAIR_SWAP at its second write. -/
theorem pairSwap_body {v : Word} (h : SecondWrite 0x0705 r q 0 (aSys + 0x038) v s) (bi : (sfpOfBytes r.params 0).bi = 0)
    (kind : v = if bit (r.params.getD 10 0) 0 then 2 else 1) : ∃ check, exec (.pairSwap r) s = .next
      (pairCtlRows v check (fun t => swapRegs t (sfpOfBytes r.params 0)) q s (fun t => replyOk t (sfpBytes (sfpOfBytes r.params 0)))) := by
  refine ⟨fun t => if bit (r.params.getD 10 0) 0 then cancelCheck t q.accept (sfpOfBytes r.params 0)
    else swapCheck t q.accept (sfpOfBytes r.params 0), congrArg Host.Outcome.next ((second_row h xPairSwap).trans ?_)⟩
  rw [xPairSwap, h.2.2.2.1, kind]
  exact if_neg (not_not_intro bi)

theorem pairSwap_second (h : SecondWrite 0x0705 r q 0 (aSys + 0x038) 1 s) (bi : (sfpOfBytes r.params 0).bi = 0)
    (swap : bit (r.params.getD 10 0) 0 = false) : (swapCheck s q.accept (swapNamed s) = none →
      ∃ t, exec (.pairSwap r) s = .next t ∧ Answers t 0 0 (sfpBytes (sfpOfBytes r.params 0))
        ∧ t.pair = { s.pair with swap := some (swapNamed s, false) } ∧ t.regs.pairs = []
        ∧ t = { s with vcp := t.vcp, pair := t.pair, mir := t.mir
                       regs := { s.regs with gw := t.regs.gw, pairs := t.regs.pairs } }) ∧
    (∀ x, swapCheck s q.accept (swapNamed s) = some x →
      ∃ t, exec (.pairSwap r) s = .next t ∧ Answers t x.1 x.2 [] ∧ t.pair = s.pair ∧ t.regs.pairs = []) := by
  obtain ⟨check, row⟩ := pairSwap_body h bi (by rw [swap]; rfl)
  obtain ⟨pass, fail⟩ := pairCtl_second h check (fun t => swapRegs t (sfpOfBytes r.params 0))
    (fun t => replyOk t (sfpBytes (sfpOfBytes r.params 0)))
  obtain ⟨is, effect⟩ := pairCtl_swap (v := 1) (by decide) q.accept s
  rw [is] at pass fail
  refine ⟨fun passed => ?_, fun x failed => ?_⟩
  · have taken := pass passed
    rw [effect] at taken
    have named : swapNamed (ctlTaken s 1) = swapNamed s := rfl
    rw [named] at taken
    obtain ⟨t, is, facts⟩ := swapSecond_facts h (some (swapNamed s, false)) (sfpBytes (sfpOfBytes r.params 0))
    exact ⟨t, row.trans (congrArg Host.Outcome.next (taken.trans is)), facts⟩
  · exact ⟨_, row.trans (congrArg Host.Outcome.next (fail x failed)), ctlLeft_facts h _ _⟩

theorem pairSwap_cancels (h : SecondWrite 0x0705 r q 0 (aSys + 0x038) 2 s) (bi : (sfpOfBytes r.params 0).bi = 0)
    (cancel : bit (r.params.getD 10 0) 0 = true) (passed : cancelCheck s q.accept (swapNamed s) = none) :
    ∃ t, exec (.pairSwap r) s = .next t ∧ Answers t 0 0 (sfpBytes (sfpOfBytes r.params 0)) ∧ t.pair = { s.pair with swap := none }
      ∧ t = { s with vcp := t.vcp, pair := t.pair, mir := t.mir
                     regs := { s.regs with gw := t.regs.gw, pairs := t.regs.pairs } } := by
  obtain ⟨check, row⟩ := pairSwap_body h bi (by rw [cancel]; rfl)
  obtain ⟨pass, -⟩ := pairCtl_second h check (fun t => swapRegs t (sfpOfBytes r.params 0))
    (fun t => replyOk t (sfpBytes (sfpOfBytes r.params 0)))
  obtain ⟨is, effect⟩ := pairCtl_cancel (v := 2) (by decide) q.accept s
  have taken := pass (is.trans passed)
  rw [effect] at taken
  obtain ⟨t, is, answers, pair, -, frame⟩ := swapSecond_facts h none (sfpBytes (sfpOfBytes r.params 0))
  exact ⟨t, row.trans (congrArg Host.Outcome.next (taken.trans is)), answers, pair, frame⟩

theorem forceCheck_passes {syncing : Bool} (st : s.pair.st = .unsynced ∨ syncing = true ∧ s.pair.st = .syncing)
    (alive : s.pair.aliveIn = false) (lane0 : s.pair.live0 = false) (lane1 : s.pair.live1 = false) : forceCheck s syncing = none := by
  have serves : (decide (s.pair.st = .unsynced) || (syncing && decide (s.pair.st = .syncing))) = true := by
    rcases st with st | ⟨rfl, st⟩ <;> simp [st]
  rw [forceCheck, serves, alive, lane0, lane1]
  rfl

theorem pairForce_first (h : Accepted 0x0706 r q s) (none_ : s.regs.pairs = []) (passed : forceCheck s false = none) :
    ∃ t, exec (.pairForceActive r) s = .next t ∧ replyNow t = none ∧ t.vcp.run.map (·.work) = some 2
      ∧ t = { s with vcp := t.vcp, regs := { s.regs with pairs := [(0, { addr := aSys + 0x038, val := 4, at_ := s.sfp })] } } := by
  obtain ⟨pass, -⟩ := pairCtl_first h.1.2.2.2.2.2.2 4 (fun t => forceCheck t false) id (started s)
    (fun t => replyOk t (sfpBytes (nextFrame t.sfp)))
  obtain ⟨t, row, open_, work, frame⟩ := pairFirst_row (body := xPairForceActive) h none_ (pass passed)
  refine ⟨t, congrArg Host.Outcome.next row, open_, work, ?_⟩
  rw [show t.vcp = { s.vcp with run := t.vcp.run } from congrArg (·.vcp) frame]
  exact frame

theorem pairForce_second (h : SecondWrite 0x0706 r q 0 (aSys + 0x038) 4 s) (passed : forceCheck s true = none) :
    ∃ t, exec (.pairForceActive r) s = .next t ∧ Answers t 0 0 (sfpBytes (nextFrame s.sfp))
      ∧ t.pair = { s.pair with force := some (nextFrame s.sfp) }
      ∧ t = { s with vcp := t.vcp, pair := t.pair, regs := { s.regs with gw := t.regs.gw, pairs := t.regs.pairs } } := by
  obtain ⟨pass, -⟩ := pairCtl_second h (fun t => forceCheck t false) id (fun t => replyOk t (sfpBytes (nextFrame t.sfp)))
  have effect : gwEffect (ctlTaken s 4) (aSys + 0x038) 4 = forceRecord (ctlTaken s 4) := rfl
  have taken := pass passed
  rw [effect] at taken
  have answers := setReply_answers (s := forceRecord (ctlTaken s 4)) h.2.2.1 0 0 (sfpBytes (nextFrame s.sfp))
  obtain ⟨x, shape⟩ := setReply_shape (forceRecord (ctlTaken s 4)) 0 0 (sfpBytes (nextFrame s.sfp))
  refine ⟨_, congrArg Host.Outcome.next ((second_row h xPairForceActive).trans taken), answers, ?_⟩
  rw [replyOk, show (forceRecord (ctlTaken s 4)).sfp = s.sfp from rfl, shape]
  exact ⟨rfl, rfl⟩
end

/-- Settles O25: each command is its body on a state that has begun its work, PAIR_SWAP and PAIR_FORCE_ACTIVE in two writes. -/
theorem pairCommands : Obligations.PairCommands := by
  unfold Obligations.PairCommands
  intro r q x s p f ctl
  refine ⟨fun h => ?_, fun h thawed free none_ low high low' high' => ?_, fun h view => ?_,
    fun h => ⟨fun unsynced heard peer => pairResync_starts h unsynced heard peer, fun unsynced silent => pairResync_silent h unsynced silent,
      fun other => pairResync_denied h other⟩,
    fun h bi swap none_ => ?_, fun h bi swap => ?_, fun h bi cancel passed => pairSwap_cancels h bi cancel passed,
    fun h none_ st alive lane0 lane1 => pairForce_first h none_ (forceCheck_passes (.inl st) alive lane0 lane1),
    fun h st alive lane0 lane1 => pairForce_second h (forceCheck_passes (st.imp_right fun e => ⟨rfl, e⟩) alive lane0 lane1)⟩
  · obtain ⟨t, row, answers, data, frame⟩ := answer_row h (pairStatus_body h)
    have fields := pairStatusBytes_fields s
    rw [← data] at answers fields
    obtain ⟨length, code, pos, in_, out, swap, resync⟩ := fields
    exact ⟨t, congrArg Host.Outcome.next row, answers, length, code, pos, in_, out, swap, resync, frame⟩
  · obtain ⟨t, row, answers, words, staged⟩ := staging_row h thawed free (pairCfgWrite_body h none_ ⟨low, high⟩ ⟨low', high'⟩)
    have cfg : stgv t aPairCfg = word (pairCfgOf p) := words aPairCfg
    exact ⟨t, congrArg Host.Outcome.next row, answers, pairCfgOf_fields high high' cfg, staged⟩
  · obtain ⟨t, row, answers, -, frame⟩ := answer_row h (pairCfgRead_body h view)
    exact ⟨t, congrArg Host.Outcome.next row, answers, frame⟩
  · obtain ⟨pass, fail⟩ := pairSwap_first h bi swap none_
    exact ⟨pass, fail x⟩
  · obtain ⟨pass, fail⟩ := pairSwap_second h bi swap
    exact ⟨pass, fail x⟩

end Sys2Proof.Machine
end

section
/-! Planned swap, watch, forcing and arbitration (O28). -/

namespace Sys2Proof.Machine

open Sys2Proof

/-! Leaving the lines (R222, R443). -/

/-- A channel with nothing to send and nothing in reassembly. -/
def ChannelIdle (s : State) (p : Nat) : Prop := (portOf s p).txq = [] ∧ (portOf s p).txNow = none ∧ (portOf s p).trunk.reasm = none

theorem portOf_mgmtDiscard_same (s : State) (p : Nat) : (portOf (mgmtDiscard s p) p).trunk.reasm = none := by
  unfold mgmtDiscard
  split
  · rw [portOf_cPort, portOf_onTrunk_same]
  · next absent => simpa using absent

theorem portOf_mgmtDiscard_ne (s : State) {p q : Nat} (apart : q ≠ p) : portOf (mgmtDiscard s p) q = portOf s q := by
  unfold mgmtDiscard
  split
  · rw [portOf_cPort, portOf_onTrunk_ne _ _ apart]
  · rfl

theorem flushChannel_same (s : State) (p : Nat) :
    portOf (flushChannel s p) p = { portOf s p with txq := [], txNow := none } := by
  unfold flushChannel
  dsimp only
  rw [portOf_count, portOf_onPort_same]

theorem flushChannel_ne (s : State) {p q : Nat} (apart : q ≠ p) : portOf (flushChannel s p) q = portOf s q := by
  unfold flushChannel
  dsimp only
  rw [portOf_count, portOf_onPort_ne _ _ apart]

theorem flushed_idle (s : State) {p q : Nat} (h : q = p ∨ ChannelIdle s q) : ChannelIdle (flushChannel (mgmtDiscard s p) p) q := by
  by_cases same : q = p
  · subst same
    rw [ChannelIdle, flushChannel_same]
    exact ⟨rfl, rfl, portOf_mgmtDiscard_same s q⟩
  · rw [ChannelIdle, flushChannel_ne _ same, portOf_mgmtDiscard_ne _ same]
    exact h.resolve_left same

theorem allFlushed_idle (l : List Nat) (s : State) {q : Nat} (h : q ∈ l ∨ ChannelIdle s q) :
    ChannelIdle (forEach l s fun t p => flushChannel (mgmtDiscard t p) p) q := by
  induction l generalizing s with
  | nil => exact h.resolve_left (by simp)
  | cons p l ih =>
    refine ih _ ?_
    rcases h with mem | idle
    · rcases List.mem_cons.mp mem with same | mem
      · exact .inr (flushed_idle s (.inl same))
      · exact .inl mem
    · exact .inr (flushed_idle s (.inr idle))

theorem mgmtDiscard_ctr (s : State) (p : Nat) {i : Nat} (below : i < 65536) : ctrVal (mgmtDiscard s p) 6 i = ctrVal s 6 i := by
  unfold mgmtDiscard
  split
  · exact (ctrVal_cPort_block _ _ _ _ (by decide) below).trans (ctrVal_of_get (by simp) 6 i)
  · rfl

theorem allFlushed_ctr (l : List Nat) (s : State) {i : Nat} (below : i < 65536) :
    ctrVal (forEach l s fun t p => flushChannel (mgmtDiscard t p) p) 6 i = ctrVal s 6 i := by
  refine forEach_keeps (fun t => ctrVal t 6 i = ctrVal s 6 i) l s _ rfl fun t p kept => ?_
  have flush : ctrVal (flushChannel (mgmtDiscard t p) p) 6 i = ctrVal (mgmtDiscard t p) 6 i := by
    unfold flushChannel
    exact (ctrVal_count_ne _ _ (by omega)).trans (ctrVal_of_get (by simp) 6 i)
  rw [flush, mgmtDiscard_ctr t p below, kept]

theorem mirOn_inactive {s : State} (inactive : s.pair.st ≠ .active) : mirOn s = false := by
  rw [mirOn, decide_eq_false inactive]
  rfl

/-- Domains close without a record where nothing is mirrored. -/
theorem closeDomains_only {s : State} (off : mirOn s = false) (m : BitVec 8) : Only [.stageOpen] s (closeDomains s m) := by
  have quiet : ∀ u : State, mirOn u = false → ∀ r, mirror u r = u := fun u e r => by
    rw [mirror, e]
    rfl
  have shape : closeDomains s m = onCom s (fun c => { c with stageOpen := s.com.stageOpen &&& ~~~m }) := by
    unfold closeDomains setStageBits
    extract_lets s1
    rw [quiet s1 off]
    split <;> rfl
  rw [shape]
  intro f out
  cases f <;> simp at out <;> rfl

theorem autoLeave_only {s : State} (off : mirOn s = false) : Only [.stageOpen, .auto] s (autoLeave s) := by
  intro f out
  simp at out
  have closed : ∀ m, get f (closeDomains s m) = get f s := fun m => closeDomains_only off m f (by simp [out])
  unfold autoLeave
  split <;> simp [closed, out]

theorem leaveLines_facts {s : State} (inactive : s.pair.st ≠ .active) :
    Only [.pair, .ports, .sage, .stageOpen, .auto] s (leaveLines s) ∧ (leaveLines s).pair = { s.pair with txFrom := none } ∧
    (∀ p : Fin 128, ChannelIdle (leaveLines s) p) ∧ ∀ i < 65536, ctrVal (leaveLines s) 6 i = ctrVal s 6 i := by
  set u := onPair s (fun p => { p with txFrom := none }) with u_def
  have idle := fun p : Fin 128 => allFlushed_idle allPorts u (.inl (mem_allPorts p))
  have ctr := fun (i : Nat) (below : i < 65536) => allFlushed_ctr allPorts u below
  have flush : Only [.ports, .sage] u (forEach allPorts u fun t p => flushChannel (mgmtDiscard t p) p) := fun f out => by
    simp at out
    simp [out]
  have is : leaveLines s = autoLeave (forEach allPorts u fun t p => flushChannel (mgmtDiscard t p) p) := rfl
  rw [is]
  generalize (forEach allPorts u fun t p => flushChannel (mgmtDiscard t p) p) = v at idle ctr flush
  have pair : v.pair = u.pair := flush .pair (by decide)
  have off : mirOn v = false := mirOn_inactive (by rw [pair]; exact inactive)
  have only := autoLeave_only off
  refine ⟨fun f out => ?_, (only .pair (by decide)).trans pair, fun p => ?_, fun i below => ?_⟩
  · simp at out
    rw [only f (by simp [out]), flush f (by simp [out])]
    simp [u_def, out]
  · rw [ChannelIdle, portOf_of_get (only .ports (by decide))]
    exact idle p
  · rw [ctrVal_of_get (only .sage (by decide)), ctr i below]
    exact ctrVal_of_get (by simp [u_def]) 6 i

theorem pairChange_leaves {s : State} {n : PairState} (sub reason : Nat) (change : s.pair.st ≠ n) (drove : drives s.pair.st = true)
    (stops : drives n = false) :
    pairChange s sub n reason = pairRec (leaveLines (pairMoved s n reason)) sub s.pair.st n reason := by
  have leaves : (drives s.pair.st && !drives n) = true := by
    rw [drove, stops]
    rfl
  unfold pairChange
  dsimp only
  rw [if_neg change, leaves, if_pos rfl]
  exact congrArg (fun u => pairRec (leaveLines u) sub s.pair.st n reason) (rfl : _ = pairMoved s n reason)

/-- A change of the pair state in which the engine leaves the lines. -/
theorem pairLeaves_facts {s : State} {n : PairState} (sub reason : Nat) (change : s.pair.st ≠ n) (drove : drives s.pair.st = true)
    (stops : drives n = false) : PairBecomes s (pairChange s sub n reason) sub n ∧
    (pairChange s sub n reason).pair = { pairIn s n reason with txFrom := none } ∧
    (∀ p : Fin 128, ChannelIdle (pairChange s sub n reason) p) ∧
    Only [.pair, .ports, .sage, .stageOpen, .auto, .hist] s (pairChange s sub n reason) := by
  have inactive : (pairMoved s n reason).pair.st ≠ .active := by
    show n ≠ .active
    rintro rfl
    cases stops
  obtain ⟨only, pair, idle, ctr⟩ := leaveLines_facts inactive
  have counted : ctrVal (pairMoved s n reason) 6 0 = (ctrVal s 6 0 + 1) % 2 ^ 64 := by
    rw [pairMoved, cPair, counted_count]
    exact congrArg (fun x => (x + 1) % 2 ^ 64) (ctrVal_of_get (by simp) 6 0)
  have set : bit (hist (pairMoved s n reason) hPair) 9 = true :=
    bit_sticky (by decide) (onPair s (fun _ => pairIn s n reason)) hPair
  have moved : Only [.pair, .sage, .hist] s (pairMoved s n reason) := fun f out => by
    simp at out
    simp [pairMoved, out]
  have pair : (leaveLines (pairMoved s n reason)).pair = { pairIn s n reason with txFrom := none } := pair
  have pos : (pairMoved s n reason).sfp = s.sfp := rfl
  rw [pairChange_leaves sub reason change drove stops]
  generalize pairMoved s n reason = u at *
  generalize leaveLines u = v at *
  have at_ : v.sfp = s.sfp := (only .sfp (by decide)).trans pos
  have pair' : (pairRec v sub s.pair.st n reason).pair = { pairIn s n reason with txFrom := none } := pair
  refine ⟨⟨congrArg (·.st) pair', congrArg (·.changed) pair', ?_, ?_, ?_, ?_⟩, pair', fun p => ?_, fun f out => ?_⟩
  · rw [pair']
    exact drives_iff n
  · rw [pairRec]
    exact bit_hist_trace (by rw [hist_of_get (only .hist (by decide))]; exact set) _ _ _ _
  · rw [Counted, ctrVal_pairRec _ _ _ _ _ _ (by decide), ctr 0 (by decide), counted]
  · rw [pairRec, newest_trace, at_]
    rfl
  · exact idle p
  · simp at out
    refine Eq.trans ?_ ((only f (by simp [out])).trans (moved f (by simp [out])))
    simp [pairRec, out]

/-! The rows of a swap (R234, R235). -/

theorem pairSwapExecute_row {s : State} (on : powered s = true) (due : s.pair.swap = some (s.sfp, true)) (active : s.pair.st = .active) :
    ∃ t, exec .pairSwapExecute s = .next t ∧ PairBecomes s t 1 .standby ∧ t.pair.swap = none
      ∧ t.pair.swapped = (if s.pair.aliveIn then none else some s.sfp) ∧ t.pair.watch = none ∧ t.mir = {}
      ∧ (∀ p : Fin 128, (portOf t p).txq = [] ∧ (portOf t p).txNow = none ∧ (portOf t p).trunk.reasm = none)
      ∧ t = { s with pair := t.pair, ports := t.ports, mir := t.mir, sage := t.sage, auto := t.auto
                     com := { s.com with stageOpen := t.com.stageOpen }, regs := { s.regs with hist := t.regs.hist } } := by
  set u := onPair (mirFlush s) (fun p => { p with swap := none, swapped := if p.aliveIn then none else some s.sfp, watch := none })
    with u_def
  have row : xPairSwapExecute s = pairTo u .standby 0 := by
    unfold xPairSwapExecute
    rw [due]
    exact if_pos ⟨rfl, rfl, active⟩
  have st : u.pair.st = .active := active
  obtain ⟨becomes, pair, idle, only⟩ := pairLeaves_facts (s := u) (n := .standby) 1 0 (by rw [st]; decide) (by rw [st]; rfl) rfl
  rw [pairTo] at row
  have swap : (pairChange u 1 .standby 0).pair.swap = none := by rw [pair]; rfl
  have swapped : (pairChange u 1 .standby 0).pair.swapped = if s.pair.aliveIn then none else some s.sfp := by rw [pair]; rfl
  have watch : (pairChange u 1 .standby 0).pair.watch = none := by rw [pair]; rfl
  generalize pairChange u 1 .standby 0 = t at *
  have frame : Only [.pair, .ports, .mir, .sage, .stageOpen, .auto, .hist] s t := fun f out => by
    simp at out
    rw [only f (by simp [out])]
    simp [u_def, out]
  exact ⟨t, congrArg Host.Outcome.next ((live_on on _).trans row),
    becomes.of_get rfl rfl rfl rfl rfl rfl rfl, swap, swapped, watch, only .mir (by decide), idle, frame.frame⟩

theorem pairSwapAssume_takes {s : State} {f : Sfp} {c : Bool} (on : powered s = true) (due : s.pair.swap = some (f, c))
    (at_ : sfpAdd f 64 = s.sfp) (standby : s.pair.st = .standby) (low : s.pair.aliveIn = false) :
    ∃ t, exec .pairSwapAssume s = .next t ∧ t.pair.swap = none ∧ PairBecomes s t 3 .active ∧ Counted s t 6 4
      ∧ t.pair.txFrom = some (sfpAdd f (swapGap (actv s))) ∧ t.pair.watch.isSome = true ∧ t.mir = {}
      ∧ t = { s with pair := t.pair, thy := { s.thy with ctl := t.thy.ctl }, mir := t.mir, sage := t.sage
                     regs := { s.regs with hist := t.regs.hist } } := by
  set u := mirFlush (thyTake (cPair (onPair s (fun p => { p with swap := none })) 4)) with u_def
  have st : u.pair.st = .standby := standby
  have change : u.pair.st ≠ .active := by rw [st]; decide
  have stays : (drives u.pair.st && !drives .active) = false := by rw [st]; rfl
  have pair := pairChange_pair 3 0 change stays
  have becomes := pairChange_becomes 3 0 change stays
  have only := pairChange_only 3 0 change stays
  have ctr : ctrVal (pairChange u 3 .active 0) 6 4 = (ctrVal s 6 4 + 1) % 2 ^ 64 := by
    rw [pairChange_ctr 3 0 change stays (by decide) (by decide)]
    exact counted_count (onPair s (fun p => { p with swap := none })) 6 4
  have zero : ctrVal u 6 0 = ctrVal s 6 0 := ctrVal_cPair_ne (onPair s (fun p => { p with swap := none })) (by decide)
  have row : xPairSwapAssume s = startWatch (onPair (pairChange u 3 .active 0) (fun p => { p with
      txFrom := some (sfpAdd f (swapGap (actv s))) })) := by
    unfold xPairSwapAssume
    rw [due]
    exact (if_pos at_).trans (if_pos (And.intro standby low))
  have thy : u.thy = { s.thy with ctl := u.thy.ctl } := rfl
  have swap : (pairChange u 3 .active 0).pair.swap = none := by rw [pair]; rfl
  generalize pairChange u 3 .active 0 = v at *
  have frame : Only [.pair, .thy, .mir, .sage, .hist] s v := fun g out => by
    simp at out
    rw [only g (by simp [out])]
    simp [u_def, out]
  have thy' : v.thy = { s.thy with ctl := v.thy.ctl } := by
    have same : v.thy = u.thy := thySt_ext (only .thy (by decide)) (only .cands (by decide))
    rw [same]
    exact thy
  set w := onPair v (fun p => { p with txFrom := some (sfpAdd f (swapGap (actv s))) })
  have watched : get .hist (startWatch w) = get .hist v ∧ get .sage (startWatch w) = get .sage v := ⟨rfl, rfl⟩
  have total : Only [.pair, .thy, .cands, .mir, .sage, .hist] s (startWatch w) := (frame.mono (by simp)).trans fun g out => by
    simp at out
    simp [w, out]
  have whole : startWatch w = { s with pair := (startWatch w).pair, thy := (startWatch w).thy, mir := (startWatch w).mir
                                       sage := (startWatch w).sage
                                       regs := { s.regs with hist := (startWatch w).regs.hist } } := total.frame
  have thyW : (startWatch w).thy = { s.thy with ctl := (startWatch w).thy.ctl } := thy'
  refine ⟨startWatch w, congrArg Host.Outcome.next ((live_on on _).trans row), swap, ?_, ?_, rfl, rfl, only .mir (by decide), ?_⟩
  · exact becomes.carry rfl zero rfl rfl rfl id rfl rfl
  · exact ctr
  · rw [thyW] at whole
    exact whole

theorem pairSwapAssume_stays {s : State} {f : Sfp} {c : Bool} (on : powered s = true) (due : s.pair.swap = some (f, c))
    (at_ : sfpAdd f 64 = s.sfp) (high : s.pair.aliveIn = true) :
    exec .pairSwapAssume s = .next { s with pair := { s.pair with swap := none } } := by
  have row : xPairSwapAssume s = onPair s (fun p => { p with swap := none }) := by
    unfold xPairSwapAssume
    rw [due]
    exact (if_pos at_).trans (if_neg fun k => Bool.false_ne_true (k.2.symm.trans high))
  exact congrArg Host.Outcome.next ((live_on on _).trans row)

theorem freeReason_shape (s : State) : ∃ x, (freeReason s).2 = { s with fresh := x } := ⟨_, rfl⟩

/-- An aborted swap is withdrawn, counted and reported. -/
theorem swapAbort_facts (s : State) (reason : Nat) : (swapAbort s reason).pair = { s.pair with swap := none } ∧
    Counted s (swapAbort s reason) 6 5 ∧ Only [.pair, .mir, .sage, .hist] s (swapAbort s reason) := by
  obtain ⟨m, set⟩ := setSwap_shape s none
  refine ⟨?_, ?_, fun f out => ?_⟩
  · rw [swapAbort, set]
    rfl
  · rw [Counted, swapAbort, ctrVal_pairRec _ _ _ _ _ _ (by decide), cPair, counted_count, set]
    rfl
  · simp at out
    simp [swapAbort, setSwap, out]

theorem pairSwapAbort_row {s : State} {f : Sfp} (on : powered s = true) (open_ : s.pair.swap = some (f, false))
    (frame : isFrame s.sfp = true) (next : nextFrame s.sfp = f) (active : s.pair.st = .active) :
    ∃ t, exec .pairSwapAbort s = .next t ∧ t.pair = { s.pair with swap := none } ∧ Counted s t 6 5
      ∧ t = { s with pair := t.pair, mir := t.mir, sage := t.sage, fresh := t.fresh, regs := { s.regs with hist := t.regs.hist } } := by
  obtain ⟨x, drawn⟩ := freeReason_shape s
  have row : xPairSwapAbort s = swapAbort (freeReason s).2 (freeReason s).1 := by
    unfold xPairSwapAbort
    rw [open_]
    exact if_pos ⟨frame, next, rfl, active⟩
  rw [drawn] at row
  generalize (freeReason s).1 = reason at row
  obtain ⟨pair, counted, only⟩ := swapAbort_facts { s with fresh := x } reason
  generalize swapAbort { s with fresh := x } reason = t at *
  have frame : Only [.pair, .mir, .sage, .fresh, .hist] s t := fun f out => by
    simp at out
    refine (only f (by simp [out])).trans ?_
    cases f <;> simp at out <;> rfl
  exact ⟨t, congrArg Host.Outcome.next ((live_on on _).trans row), pair, counted, frame.frame⟩

theorem pairSwapRevert_row {s : State} {f : Sfp} (on : powered s = true) (swapped : s.pair.swapped = some f)
    (at_ : sfpAdd f 4096 = s.sfp) (standby : s.pair.st = .standby) :
    ∃ t, exec .pairSwapRevert s = .next t ∧ PairBecomes s t 4 .active ∧ Counted s t 6 5 ∧ t.pair.swapped = none
      ∧ t = { s with pair := t.pair, sage := t.sage, fresh := t.fresh, regs := { s.regs with hist := t.regs.hist } } := by
  set u := cPair (onPair s (fun p => { p with swapped := none })) 5 with u_def
  obtain ⟨x, drawn⟩ := freeReason_shape u
  have row : xPairSwapRevert s = pairChange (freeReason u).2 4 .active (freeReason u).1 := by
    unfold xPairSwapRevert
    rw [swapped]
    exact if_pos ⟨at_, standby⟩
  rw [drawn] at row
  generalize (freeReason u).1 = reason at row
  set w : State := { u with fresh := x } with w_def
  have st : w.pair.st = .standby := standby
  have change : w.pair.st ≠ .active := by rw [st]; decide
  have stays : (drives w.pair.st && !drives .active) = false := by rw [st]; rfl
  have pair := pairChange_pair 4 reason change stays
  have becomes := pairChange_becomes 4 reason change stays
  have only := pairChange_only 4 reason change stays
  have five := pairChange_ctr 4 reason change stays (i := 5) (by decide) (by decide)
  have zero : ctrVal w 6 0 = ctrVal s 6 0 := ctrVal_cPair_ne (onPair s (fun p => { p with swapped := none })) (by decide)
  have counted : ctrVal w 6 5 = (ctrVal s 6 5 + 1) % 2 ^ 64 := counted_count (onPair s (fun p => { p with swapped := none })) 6 5
  have gone : (pairChange w 4 .active reason).pair.swapped = none := by rw [pair]; rfl
  generalize pairChange w 4 .active reason = t at *
  have frame : Only [.pair, .sage, .fresh, .hist] s t := fun f out => by
    simp at out
    refine (only f (by simp [out])).trans ?_
    have kept : get f u = get f s := by simp [u_def, out]
    rw [← kept]
    cases f <;> simp at out <;> rfl
  exact ⟨t, congrArg Host.Outcome.next ((live_on on _).trans row), becomes.carry rfl zero rfl rfl rfl id rfl rfl,
    five.trans counted, gone, frame.frame⟩

/-! The transmit watch, forcing and arbitration (R229, R236, R238). -/

/-- Ports that newly report a failure in the watch. -/
def newlyBad (s : State) (was : BitVec 128) : BitVec 128 := s.pair.watchNew ||| (farBad s &&& ~~~was)

theorem newlyBad_iff (s : State) (was : BitVec 128) : newlyBad s was = s.pair.watchNew ↔ farBad s &&& ~~~was &&& ~~~s.pair.watchNew = 0 := by
  unfold newlyBad
  generalize farBad s &&& ~~~was = m
  constructor
  · intro same
    rw [← same]
    ext i
    simp
    grind
  · intro none_
    ext i inside
    have bit_ := congrArg (fun x : BitVec 128 => x.getLsbD i) none_
    simp [inside] at bit_
    simp [inside]
    grind

/-- Ports are marked, counted and reported. -/
def suspected (s : State) (m : BitVec 128) : State :=
  trace (pairSticky (cPair (onPair s (fun p => { p with txSuspect := p.txSuspect ||| m, watchNew := m })) 6) 7) 6 6 noObj (beBytes 16 m.toNat)

theorem txWatchEnd_row {s : State} {f : Sfp} {was : BitVec 128} (on : powered s = true) (watch : s.pair.watch = some (f, was))
    (over_ : 0 ≤ sfpDist f s.sfp) : ∃ t, exec .txWatchEnd s = .next t ∧ t.pair.watch = none
      ∧ (farBad s &&& ~~~was &&& ~~~s.pair.watchNew ≠ 0 →
          t.pair.txSuspect = s.pair.txSuspect ||| s.pair.watchNew ||| (farBad s &&& ~~~was) ∧ Counted s t 6 6)
      ∧ (farBad s &&& ~~~was &&& ~~~s.pair.watchNew = 0 → t.pair.txSuspect = s.pair.txSuspect ∧ t.sage = s.sage)
      ∧ t = { s with pair := t.pair, sage := t.sage, regs := { s.regs with hist := t.regs.hist } } := by
  have row : xTxWatchEnd s = onPair (txSuspectEval s) (fun p => { p with watch := none }) := by
    unfold xTxWatchEnd
    rw [watch]
    exact if_pos over_
  have eval : txSuspectEval s = if newlyBad s was = s.pair.watchNew then s else suspected s (newlyBad s was) := by
    unfold txSuspectEval
    rw [watch]
    rfl
  have only : Only [.pair, .sage, .hist] s (onPair (txSuspectEval s) (fun p => { p with watch := none })) := fun g out => by
    simp at out
    simp [out]
  refine ⟨_, congrArg Host.Outcome.next ((live_on on _).trans row), rfl, fun some_ => ?_, fun none_ => ?_, only.frame⟩
  · have new := (newlyBad_iff s was).not.mpr some_
    rw [eval, if_neg new]
    refine ⟨?_, ?_⟩
    · show s.pair.txSuspect ||| newlyBad s was = _
      rw [newlyBad, BitVec.or_assoc]
    · have counted := counted_count (onPair s (fun p => { p with txSuspect := p.txSuspect ||| newlyBad s was, watchNew := newlyBad s was })) 6 6
      show ctrVal (suspected s (newlyBad s was)) 6 6 = _
      rw [suspected, ctrVal_trace _ _ _ _ _ (by decide) (by decide)]
      exact counted
  · rw [eval, if_pos ((newlyBad_iff s was).mpr none_)]
    exact ⟨rfl, rfl⟩

theorem forceActive_row {s : State} (on : powered s = true) (due : s.pair.force = some s.sfp)
    (st : s.pair.st = .unsynced ∨ s.pair.st = .syncing) :
    ∃ t, exec .forceActiveAct s = .next t ∧ PairBecomes s t 1 .active ∧ t.pair.force = none ∧ t.pair.blocked = false
      ∧ t = { s with vcp := t.vcp, pair := t.pair, sage := t.sage, regs := { s.regs with hist := t.regs.hist } } := by
  obtain ⟨run, ends⟩ := endResync_shape (onPair s (fun p => { p with force := none, blocked := false })) 4 9 []
  have row : xForceActiveAct s = pairChange (endResync (onPair s (fun p => { p with force := none, blocked := false })) 4 9 []) 1 .active 0 :=
    (if_pos due).trans (if_pos st)
  set u := endResync (onPair s (fun p => { p with force := none, blocked := false })) 4 9 []
  have same : u.pair.st = s.pair.st := by rw [ends]; rfl
  have change : u.pair.st ≠ .active := by
    rw [same]
    rcases st with st | st <;> rw [st] <;> decide
  have stays : (drives u.pair.st && !drives .active) = false := by
    rw [same]
    rcases st with st | st <;> rw [st] <;> rfl
  have pair := pairChange_pair 1 0 change stays
  have becomes := pairChange_becomes 1 0 change stays
  have only := pairChange_only 1 0 change stays
  have force : (pairChange u 1 .active 0).pair.force = none := by rw [pair, pairIn, ends]; rfl
  have blocked : (pairChange u 1 .active 0).pair.blocked = false := by rw [pair, pairIn, ends]; rfl
  generalize pairChange u 1 .active 0 = t at *
  have frame : Only [.vcp, .run, .pair, .sage, .hist] s t := fun f out => by
    simp at out
    refine (only f (by simp [out])).trans ?_
    rw [ends]
    cases f <;> simp at out <;> rfl
  exact ⟨t, congrArg Host.Outcome.next ((live_on on _).trans row),
    becomes.of_get (by rw [ends]; rfl) (by rw [ends]; rfl) rfl rfl rfl rfl rfl, force, blocked, frame.frame⟩

theorem arbitrationEnd_row {s : State} (on : powered s = true) (frame : isFrame s.sfp = true) (ready : s.phase = .ready)
    (calm : s.seq.rescue = false) (arb : s.pair.st = .arbitrating) (low : s.pair.aliveIn = false)
    (run : (if s.pins.twinPos then 2048 else 2) ≤ s.pair.arbRun) (bare : s.flash.cfg = none) :
    ∃ t, exec .arbitrationEnd s = .next t ∧ PairBecomes s t 1 (if pairEn (actv s) then .active else .unpaired)
      ∧ t = { s with pair := t.pair, sage := t.sage, regs := { s.regs with hist := t.regs.hist } } := by
  set n : PairState := if pairEn (actv s) then .active else .unpaired with n_def
  have drive : n = .active ∨ n = .unpaired := by
    rw [n_def]
    cases pairEn (actv s)
    · exact .inr rfl
    · exact .inl rfl
  have change : s.pair.st ≠ n := by
    rw [arb]
    rcases drive with is | is <;> rw [is] <;> decide
  have stays : (drives s.pair.st && !drives n) = false := by
    rw [arb]
    rfl
  have becomes := pairChange_becomes 1 0 change stays
  have only := pairChange_only 1 0 change stays
  have row : xArbitrationEnd s = pairChange s 1 n 0 := by
    have none_ : (pairTo s n 0).flash.cfg = none := (congrArg (·.cfg) (only .flash (by decide) :)).trans bare
    unfold xArbitrationEnd
    dsimp only
    rw [if_pos ⟨ready, calm, arb, low, run⟩, ← n_def, none_]
    rfl
  generalize pairChange s 1 n 0 = t at *
  exact ⟨t, congrArg Host.Outcome.next ((liveFrame_on on frame _).trans row), becomes, only.frame⟩

/-- Settles O28, row by row. -/
theorem pairSwaps : Obligations.PairSwaps := by
  unfold Obligations.PairSwaps
  intro f c was s on
  exact ⟨fun due active => pairSwapExecute_row on due active,
    fun due at_ standby => ⟨fun low => pairSwapAssume_takes on due at_ standby low, fun high => pairSwapAssume_stays on due at_ high⟩,
    fun open_ frame next active => pairSwapAbort_row on open_ frame next active,
    fun swapped at_ standby => pairSwapRevert_row on swapped at_ standby, fun watch ended => txWatchEnd_row on watch ended,
    fun due st => forceActive_row on due st,
    fun frame ready calm arb low run bare => arbitrationEnd_row on frame ready calm arb low run bare⟩

end Sys2Proof.Machine
end

section
/-! The Chive link, ALIVE and takeover (O26). -/

namespace Sys2Proof.Machine

open Sys2Proof

/-! The pair's own indications (R227). -/

theorem disagreeEval_shape (s : State) : ∃ d, disagreeEval s = pairSticky (onPair s (fun p => { p with disagree := d })) 1 ∨
    disagreeEval s = onPair s (fun p => { p with disagree := d }) := by
  unfold disagreeEval
  extract_lets alive d s1
  exact ⟨d, ite_eq_or_eq _ _ _⟩

theorem disagreeEval_facts (s : State) : ∃ d, (disagreeEval s).pair = { s.pair with disagree := d } ∧
    Only [.pair, .hist] s (disagreeEval s) ∧ ∀ a i, bit (hist s a) i = true → bit (hist (disagreeEval s) a) i = true := by
  obtain ⟨d, shape⟩ := disagreeEval_shape s
  have only : Only [.pair, .hist] s (disagreeEval s) := fun f out => by
    simp at out
    simp [out]
  rcases shape with shape | shape <;> rw [shape] at only ⊢
  · exact ⟨d, rfl, only, fun a i set => bit_hist_sticky (s := onPair s (fun p => { p with disagree := d })) set _ _⟩
  · exact ⟨d, rfl, only, fun a i set => set⟩

theorem disagreeEval_leading {s : State} (leads : isStandby s = false) :
    disagreeEval s = onPair s (fun p => { p with disagree := false }) := by
  unfold disagreeEval
  rw [leads]
  rfl

theorem blockedEval_facts (s : State) : ∃ b, (blockedEval s).pair = { s.pair with blocked := b } ∧
    Only [.pair, .sage, .hist] s (blockedEval s) ∧ (∀ a i, bit (hist s a) i = true → bit (hist (blockedEval s) a) i = true) ∧
    (∀ i, i ≠ 2 → ctrVal (blockedEval s) 6 i = ctrVal s 6 i) ∧ newest (blockedEval s) = newest s := by
  have only : Only [.pair, .sage, .hist] s (blockedEval s) := fun f out => by
    simp at out
    simp [out]
  by_cases begins : ((decide (s.pair.st = .unsynced) || decide (s.pair.st = .syncing)) && !s.pair.aliveIn && chiveSilent s &&
      !s.pair.blocked) = true
  · have row : blockedEval s = pairSticky (cPair (onPair s (fun p => { p with blocked := true })) 2) 3 := if_pos begins
    have fifo : (cPair (onPair s (fun p => { p with blocked := true })) 2).sage.fifo = s.sage.fifo := count_fifo _ _ _ _
    have apart := fun (i : Nat) (other : i ≠ 2) => ctrVal_cPair_ne (onPair s (fun p => { p with blocked := true })) other
    have held : ∀ a i, bit (hist s a) i = true → bit (hist (cPair (onPair s (fun p => { p with blocked := true })) 2) a) i = true :=
      fun _ _ set => set
    have pair : (cPair (onPair s (fun p => { p with blocked := true })) 2).pair = { s.pair with blocked := true } := rfl
    rw [row] at only ⊢
    generalize cPair (onPair s (fun p => { p with blocked := true })) 2 = u at *
    refine ⟨true, pair, only, fun a i set => bit_hist_sticky (held a i set) _ _, apart, ?_⟩
    show Option.map _ u.sage.fifo.getLast? = Option.map _ s.sage.fifo.getLast?
    rw [fifo]
  · have row : blockedEval s = s := if_neg begins
    rw [row]
    exact ⟨s.pair.blocked, rfl, fun _ _ => rfl, fun _ _ set => set, fun _ _ => rfl, rfl⟩

/-- Both indications evaluated leave the pair's state and its report. -/
theorem evals_facts (s : State) : ∃ d b, (blockedEval (disagreeEval s)).pair = { s.pair with disagree := d, blocked := b } ∧
    Only [.pair, .sage, .hist] s (blockedEval (disagreeEval s)) ∧
    (∀ a i, bit (hist s a) i = true → bit (hist (blockedEval (disagreeEval s)) a) i = true) ∧
    (∀ i, i ≠ 2 → ctrVal (blockedEval (disagreeEval s)) 6 i = ctrVal s 6 i) ∧ newest (blockedEval (disagreeEval s)) = newest s := by
  obtain ⟨d, pair, only, set⟩ := disagreeEval_facts s
  obtain ⟨b, pair', only', set', ctr, last⟩ := blockedEval_facts (disagreeEval s)
  have sage : get .sage (disagreeEval s) = get .sage s := only .sage (by decide)
  refine ⟨d, b, ?_, (only.mono (by simp)).trans only', fun a i h => set' a i (set a i h), fun i other => ?_, ?_⟩
  · rw [pair', pair]
  · rw [ctr i other, ctrVal_of_get sage]
  · rw [last, newest_of_get sage]

theorem PairBecomes.evals {s t : State} {sub : Nat} {n : PairState} (h : PairBecomes s t sub n) :
    PairBecomes s (blockedEval (disagreeEval t)) sub n := by
  obtain ⟨d, b, pair, only, set, ctr, last⟩ := evals_facts t
  exact h.carry rfl rfl (by rw [pair]) (by rw [pair]) (by rw [pair]) (set hPair 9) (ctr 0 (by decide)) last

/-! ALIVE_IN (R224, R227, R235). -/

/-- The pair with a level of ALIVE_IN. -/
def aliveSeen (s : State) (level : Bool) : State :=
  onPair s (fun p => { p with
    aliveIn := level
    blocked := p.blocked && !level
    swapped := match p.swapped with
      | some f => if level && decide (sfpDist f s.sfp ≤ 2048) then none else some f
      | none => none })

theorem aliveIn_rows {s : State} (on : powered s = true) (level : Bool) :
    ∃ t, exec (.aliveInChange level) s = .next t ∧ t.pair.aliveIn = level
      ∧ (s.pair.st = .standby → level = true → chiveSilent s = true → PairBecomes s t 1 .unsynced)
      ∧ (s.pair.st ≠ .standby ∨ level = false ∨ chiveSilent s = false → t.pair.st = s.pair.st)
      ∧ t = { s with pair := t.pair, sage := t.sage, regs := { s.regs with hist := t.regs.hist } } := by
  have seen : Only [.pair, .sage, .hist] s (aliveSeen s level) := fun f out => by
    simp at out
    simp [aliveSeen, out]
  by_cases silent : level = true ∧ s.pair.st = .standby ∧ chiveSilent s = true
  · obtain ⟨rfl, standby, quiet⟩ := silent
    have row : xAliveInChange true s = blockedEval (disagreeEval (pairChange (aliveSeen s true) 1 .unsynced 2)) := by
      have due : (true && decide ((aliveSeen s true).pair.st = .standby) && chiveSilent (aliveSeen s true)) = true := by
        rw [show chiveSilent (aliveSeen s true) = true from quiet, show (aliveSeen s true).pair.st = .standby from standby]
        rfl
      exact congrArg (fun u => blockedEval (disagreeEval u)) (if_pos due)
    have st : (aliveSeen s true).pair.st = .standby := standby
    have change : (aliveSeen s true).pair.st ≠ .unsynced := by rw [st]; decide
    have stays : (drives (aliveSeen s true).pair.st && !drives .unsynced) = false := by rw [st]; rfl
    have pair := pairChange_pair 1 2 change stays
    have becomes := pairChange_becomes 1 2 change stays
    have only := pairChange_only 1 2 change stays
    have level : (pairChange (aliveSeen s true) 1 .unsynced 2).pair.aliveIn = true := by rw [pair]; rfl
    generalize pairChange (aliveSeen s true) 1 .unsynced 2 = u at *
    obtain ⟨d, b, pairU, onlyU, -⟩ := evals_facts u
    have becomes' := (becomes.of_get (s' := s) rfl rfl rfl rfl rfl rfl rfl).evals
    generalize blockedEval (disagreeEval u) = t at *
    refine ⟨t, congrArg Host.Outcome.next ((live_on on _).trans row), by rw [pairU]; exact level, fun _ _ _ => becomes', fun other => ?_,
      (seen.trans (only.trans onlyU)).frame⟩
    rcases other with other | other | other
    · exact absurd standby other
    · cases other
    · rw [quiet] at other
      cases other
  · have row : xAliveInChange level s = blockedEval (disagreeEval (aliveSeen s level)) := by
      have not_ : ¬ (level && decide ((aliveSeen s level).pair.st = .standby) && chiveSilent (aliveSeen s level)) = true := by
        have st : (aliveSeen s level).pair.st = s.pair.st := rfl
        have quiet : chiveSilent (aliveSeen s level) = chiveSilent s := rfl
        rw [st, quiet]
        simpa [Bool.and_eq_true, and_assoc] using silent
      exact congrArg (fun u => blockedEval (disagreeEval u)) (if_neg not_)
    obtain ⟨d, b, pairU, onlyU, -⟩ := evals_facts (aliveSeen s level)
    generalize blockedEval (disagreeEval (aliveSeen s level)) = t at *
    refine ⟨t, congrArg Host.Outcome.next ((live_on on _).trans row), by rw [pairU]; rfl, fun standby high quiet => ?_,
      fun _ => by rw [pairU]; rfl, (seen.trans onlyU).frame⟩
    exact absurd ⟨high, standby, quiet⟩ silent

/-! The lanes and the mirror (R218, R232, R435). -/

/-- The pair with a lane down. -/
def laneOut (lane : Nat) (p : PairSt) : PairSt :=
  if lane = 0 then { p with down0 := true, live0 := false } else { p with down1 := true, live1 := false }

theorem laneDown_row {s : State} (on : powered s = true) (lane : Fin 2)
    (up : (if lane.val = 0 then s.pair.down0 else s.pair.down1) = false)
    (quiet : heardWithin s (if lane.val = 0 then s.pair.hb0 else s.pair.hb1) 16384 = false) :
    ∃ t, exec (.chiveLaneDown lane) s = .next t ∧ (if lane.val = 0 then t.pair.down0 else t.pair.down1) = true
      ∧ (if lane.val = 0 then t.pair.live0 else t.pair.live1) = false ∧ Counted s t 6 8 ∧ bit (hist t hPair) 8 = true
      ∧ t.pair.st = s.pair.st
      ∧ t = { s with pair := t.pair, mir := t.mir, sage := t.sage, regs := { s.regs with hist := t.regs.hist } } := by
  have row : xChiveLaneDown lane s = pairSticky (cPair (onPair (mirDrain s) (laneOut lane)) 8) 8 := by
    unfold xChiveLaneDown
    dsimp only
    rw [up, quiet]
    rfl
  have only : Only [.pair, .mir, .sage, .hist] s (pairSticky (cPair (onPair (mirDrain s) (laneOut lane)) 8) 8) := fun f out => by
    simp at out
    simp [out]
  have pair : (pairSticky (cPair (onPair (mirDrain s) (laneOut lane)) 8) 8).pair = laneOut lane s.pair := rfl
  refine ⟨_, congrArg Host.Outcome.next ((live_on on _).trans row), ?_, ?_, counted_count (onPair (mirDrain s) (laneOut lane)) 6 8,
    bit_sticky (by decide) _ _, ?_, only.frame⟩
  · rw [pair, laneOut]
    split <;> rfl
  · rw [pair, laneOut]
    split <;> rfl
  · rw [pair, laneOut]
    split <;> rfl

/-- The link is silent. -/
def linkLost (s : State) : State :=
  pairSticky (onPair s (fun p => { p with lost := true, live0 := false, live1 := false, hbSlices := [] })) 0

/-- What the loss of the mirror does to the state of the pair. -/
def lostTo (s : State) : State :=
  match (linkLost s).pair.st with
  | .standby => if (linkLost s).pair.aliveIn then pairTo (linkLost s) .unsynced 2 else linkLost s
  | .syncing => failResync (linkLost s) 8 2
  | .unsynced => linkLost s | .arbitrating => linkLost s | .unpaired => linkLost s | .active => linkLost s

theorem linkLost_only (s : State) : Only [.pair, .hist] s (linkLost s) := fun f out => by
  simp at out
  simp [linkLost, out]

theorem linkLost_bit (s : State) : bit (hist (linkLost s) hPair) 0 = true := bit_sticky (by decide) _ _

theorem lostTo_facts (s : State) : (lostTo s).pair.lost = true ∧ bit (hist (lostTo s) hPair) 0 = true
    ∧ (s.pair.st = .standby → s.pair.aliveIn = true → (lostTo s).pair.st = .unsynced ∧ (lostTo s).pair.why = 2)
    ∧ (s.pair.st = .syncing → (lostTo s).pair.st = .unsynced ∧ (lostTo s).pair.why = 2 ∧ (lostTo s).pair.resync = false)
    ∧ (s.pair.st ≠ .syncing → (s.pair.st ≠ .standby ∨ s.pair.aliveIn = false) → (lostTo s).pair.st = s.pair.st)
    ∧ (s.pair.st ≠ .syncing → get .run (lostTo s) = get .run s) ∧ Only [.run, .pair, .sage, .hist] s (lostTo s) := by
  have same : (linkLost s).pair.st = s.pair.st := rfl
  have alive : (linkLost s).pair.aliveIn = s.pair.aliveIn := rfl
  have only := linkLost_only s
  have set := linkLost_bit s
  by_cases syncing : s.pair.st = .syncing
  · have row : lostTo s = failResync (linkLost s) 8 2 := by
      unfold lostTo
      rw [same, syncing]
    obtain ⟨run, shape⟩ := endResync_shape (linkLost s) 4 8 []
    obtain ⟨st, why, resync, -, fails⟩ := failResync_facts (s := linkLost s) syncing 8 2
    have st' : (endResync (linkLost s) 4 8 []).pair.st = .syncing := by rw [shape]; exact syncing
    have change : (endResync (linkLost s) 4 8 []).pair.st ≠ .unsynced := by rw [st']; decide
    have stays : (drives (endResync (linkLost s) 4 8 []).pair.st && !drives .unsynced) = false := by rw [st']; rfl
    have pair := pairChange_pair 1 2 change stays
    have lost : (failResync (linkLost s) 8 2).pair.lost = true := by
      rw [failResync, pairTo, pair, pairIn, shape]
      rfl
    have held : bit (hist (endResync (linkLost s) 4 8 []) hPair) 0 = true := by
      rw [shape]
      exact set
    have set := pairChange_bit 1 2 change stays held
    rw [row]
    refine ⟨lost, set, fun standby => ?_, fun _ => ⟨st, why, resync⟩, fun other => absurd syncing other, fun other => absurd syncing other,
      (only.mono (by simp)).trans fails⟩
    rw [standby] at syncing
    cases syncing
  · by_cases standby : s.pair.st = .standby ∧ s.pair.aliveIn = true
    · obtain ⟨standby, high⟩ := standby
      have row : lostTo s = pairChange (linkLost s) 1 .unsynced 2 := by
        unfold lostTo
        rw [same, standby]
        exact if_pos (alive.trans high)
      have change : (linkLost s).pair.st ≠ .unsynced := by rw [same, standby]; decide
      have stays : (drives (linkLost s).pair.st && !drives .unsynced) = false := by rw [same, standby]; rfl
      have pair := pairChange_pair 1 2 change stays
      have changes := pairChange_only 1 2 change stays
      have set := pairChange_bit 1 2 change stays set
      rw [row]
      refine ⟨by rw [pair]; rfl, set, fun _ _ => ⟨by rw [pair]; rfl, by rw [pair]; rfl⟩, fun is => absurd is syncing, fun _ other => ?_,
        fun _ => changes .run (by decide), (only.mono (by simp)).trans (changes.mono (by simp))⟩
      rcases other with other | low
      · exact absurd standby other
      · rw [high] at low
        cases low
    · have row : lostTo s = linkLost s := by
        unfold lostTo
        rw [same]
        cases st : s.pair.st
        case standby => exact if_neg fun high => standby ⟨st, high⟩
        case syncing => exact absurd st syncing
        all_goals rfl
      rw [row]
      exact ⟨rfl, set, fun is high => absurd ⟨is, high⟩ standby, fun is => absurd is syncing, fun _ _ => rfl, fun _ => rfl,
        only.mono (by simp)⟩

theorem MatFree.of_get {s t : State} (free : MatFree s) (h : get .mem t = get .mem s) : MatFree t := by
  have same : t.mem = s.mem := h
  rw [MatFree, same]
  exact free

theorem mirrorLost_row {s : State} (on : powered s = true) (silent : chiveSilent s = true) (known : s.pair.lost = false)
    (heard : s.pair.hb0.isSome = true) (free : MatFree s) :
    ∃ t, exec .mirrorLost s = .next t ∧ t.pair.lost = true ∧ bit (hist t hPair) 0 = true ∧ t.mir = {}
      ∧ (s.pair.st = .standby → s.pair.aliveIn = true → t.pair.st = .unsynced ∧ t.pair.why = 2)
      ∧ (s.pair.st = .syncing → t.pair.st = .unsynced ∧ t.pair.why = 2 ∧ t.pair.resync = false)
      ∧ (s.pair.st ≠ .syncing → (s.pair.st ≠ .standby ∨ s.pair.aliveIn = false) → t.pair.st = s.pair.st ∧ t.vcp = s.vcp)
      ∧ t = { s with vcp := t.vcp, pair := t.pair, mir := t.mir, sage := t.sage
                     regs := { s.regs with hist := t.regs.hist } } := by
  have row : xMirrorLost s = matRun (mirFlush (blockedEval (disagreeEval (lostTo s)))) := by
    have due : (chiveSilent s && !s.pair.lost && (s.pair.hb0.isSome || s.pair.hb1.isSome)) = true := by
      rw [silent, known, heard]
      rfl
    exact (if_pos due).trans rfl
  obtain ⟨lost, set, standby, syncing, same, run, only⟩ := lostTo_facts s
  generalize lostTo s = u at *
  obtain ⟨d, b, pair, evals, keeps, -, -⟩ := evals_facts u
  generalize blockedEval (disagreeEval u) = v at *
  have mem : get .mem (mirFlush v) = get .mem s := (evals .mem (by decide)).trans (only .mem (by decide))
  rw [matRun_free (free.of_get mem)] at row
  have frame : Only [.vcp, .run, .pair, .mir, .sage, .hist] s (mirFlush v) := fun f out => by
    simp at out
    have kept : get f (mirFlush v) = get f v := by simp [out]
    exact kept.trans ((evals f (by simp [out])).trans (only f (by simp [out])))
  have pair : (mirFlush v).pair = { u.pair with disagree := d, blocked := b } := pair
  refine ⟨mirFlush v, congrArg Host.Outcome.next ((live_on on _).trans row), by rw [pair]; exact lost, keeps _ _ set, rfl,
    fun is high => by rw [pair]; exact standby is high, fun is => by rw [pair]; exact syncing is,
    fun out other => ⟨by rw [pair]; exact same out other, ?_⟩, frame.frame⟩
  have runs : v.vcp.run = s.vcp.run := (evals .run (by decide)).trans (run out)
  have rest : get .vcp v = get .vcp s := (evals .vcp (by decide)).trans (only .vcp (by decide))
  exact vcpSt_ext rest runs

/-! Takeover (R224, R226). -/

theorem discards_ctr (l : List Nat) (s : State) {i : Nat} (below : i < 65536) : ctrVal (forEach l s mgmtDiscard) 6 i = ctrVal s 6 i := by
  refine forEach_keeps (fun t => ctrVal t 6 i = ctrVal s 6 i) l s _ rfl fun t p kept => ?_
  rw [mgmtDiscard_ctr t p below, kept]

theorem discards_newest (l : List Nat) (s : State) : newest (forEach l s mgmtDiscard) = newest s := by
  refine forEach_keeps (fun t => newest t = newest s) l s _ rfl fun t p kept => ?_
  refine Eq.trans ?_ kept
  unfold mgmtDiscard
  split
  · rw [newest, cPort, count_fifo]
    rfl
  · rfl

theorem thyTake_holdover {s : State} (ho : s.thy.st = .holdover) : (thyTake s).thy.ctl = s.thy.hoFreq := by
  simp [thyTake, onThy, ho]

theorem takeover_row {s : State} (on : powered s = true) (standby : s.pair.st = .standby) (paired : pairEn (actv s) = true)
    (low : s.pair.aliveIn = false) (silent : chiveSilent s = true) :
    ∃ t, exec .takeover s = .next t ∧ PairBecomes s t 2 .active ∧ Counted s t 6 1 ∧ bit (hist t hPair) 6 = true
      ∧ t.pair.swap = none ∧ t.mir = {} ∧ (t.pair.watch.map (·.1)) = some (sfpAdd s.sfp (txWatch (actv s) * 5240576))
      ∧ (s.thy.st = .holdover → t.thy.ctl = s.thy.hoFreq)
      ∧ t.map = s.map ∧ t.com = s.com ∧ t.sfp = s.sfp := by
  set u := onPair (thyTake (runOn s)) (fun p => { p with swap := none, swapped := none }) with u_def
  set v := mirFlush (pairSticky (cPair u 1) 6) with v_def
  have row : xTakeover s = startWatch (forEach allPorts (pairChange v 2 .active 0) mgmtDiscard) := by
    unfold xTakeover
    exact if_pos ⟨standby, paired, low, silent⟩
  have before : Only [.grps, .thy, .pair] s u := fun f out => by
    simp at out
    simp [u_def, out]
  have pairU : u.pair = { s.pair with swap := none, swapped := none } := by
    have kept : get .pair (thyTake (runOn s)) = get .pair s := by simp
    show { (thyTake (runOn s)).pair with swap := none, swapped := none } = _
    rw [show (thyTake (runOn s)).pair = s.pair from kept]
  have flush : Only [.mir, .sage, .hist] u v := fun f out => by
    simp at out
    simp [v_def, out]
  have pairV : v.pair = u.pair := flush .pair (by decide)
  have st : v.pair.st = .standby := by
    rw [pairV, pairU]
    exact standby
  have zero : ctrVal v 6 0 = ctrVal s 6 0 := (ctrVal_cPair_ne u (by decide)).trans (ctrVal_of_get (before .sage (by decide)) 6 0)
  have one : ctrVal v 6 1 = (ctrVal s 6 1 + 1) % 2 ^ 64 := by
    have counted : ctrVal (cPair u 1) 6 1 = (ctrVal u 6 1 + 1) % 2 ^ 64 := counted_count u 6 1
    rw [ctrVal_of_get (before .sage (by decide))] at counted
    exact counted
  have six : bit (hist v hPair) 6 = true := bit_sticky (by decide) (cPair u 1) hPair
  have gone : v.mir = {} := rfl
  have pos : v.sfp = s.sfp := (flush .sfp (by decide)).trans (before .sfp (by decide))
  have ctl : s.thy.st = .holdover → u.thy.ctl = s.thy.hoFreq := fun ho => by
    have kept : (runOn s).thy = s.thy := thy_of_get (by simp) (by simp)
    refine (thyTake_holdover (s := runOn s) ?_).trans ?_
    · rw [kept]
      exact ho
    · rw [kept]
  clear_value v
  have change : v.pair.st ≠ .active := by rw [st]; decide
  have stays : (drives v.pair.st && !drives .active) = false := by rw [st]; rfl
  have pair := pairChange_pair 2 0 change stays
  have becomes := pairChange_becomes 2 0 change stays
  have only := pairChange_only 2 0 change stays
  have one' := pairChange_ctr 2 0 change stays (i := 1) (by decide) (by decide)
  have six' := pairChange_bit 2 0 change stays six
  have swap : (pairChange v 2 .active 0).pair.swap = none := by rw [pair, pairIn, pairV, pairU]
  generalize pairChange v 2 .active 0 = w at *
  have discards : Only [.ports, .sage] w (forEach allPorts w mgmtDiscard) := fun f out => by
    simp at out
    simp [out]
  have ctr := fun (i : Nat) (below : i < 65536) => discards_ctr allPorts w below
  have last := discards_newest allPorts w
  generalize forEach allPorts w mgmtDiscard = x at *
  have pairX : x.pair = w.pair := discards .pair (by decide)
  have histX : get .hist x = get .hist w := discards .hist (by decide)
  have upTo : Only [.grps, .thy, .pair, .mir, .sage, .hist, .ports] s x :=
    (before.mono (by simp)).trans ((flush.mono (by simp)).trans ((only.mono (by simp)).trans (discards.mono (by simp))))
  have all : Only [.grps, .thy, .pair, .mir, .sage, .hist, .ports] s (startWatch x) := upTo.trans fun f out => by
    simp at out
    simp [out]
  have now : x.sfp = s.sfp := upTo .sfp (by decide)
  have view : actv x = actv s := actv_of_get (upTo .act (by decide))
  have total : PairBecomes s (startWatch x) 2 .active := becomes.carry pos zero (congrArg (·.st) pairX) (congrArg (·.changed) pairX)
    (congrArg (·.aliveOut) pairX) (fun set => by rw [← hist_of_get histX] at set; exact set) (ctr 0 (by decide)) last
  refine ⟨startWatch x, congrArg Host.Outcome.next ((live_on on _).trans row), total, ?_, ?_, (congrArg (·.swap) pairX).trans swap,
    ?_, ?_, fun ho => ?_, ?_, ?_, now⟩
  · exact (ctr 1 (by decide)).trans (one'.trans one)
  · rw [← hist_of_get histX] at six'
    exact six'
  · have mir : x.mir = w.mir := discards .mir (by decide)
    have mir' : w.mir = v.mir := only .mir (by decide)
    exact mir.trans (mir'.trans gone)
  · show some (sfpAdd x.sfp (txWatch (actv x) * mfBlocks)) = _
    rw [now, view]
  · have thyX : x.thy = u.thy := thy_of_get
      ((discards .thy (by decide)).trans ((only .thy (by decide)).trans (flush .thy (by decide))))
      ((discards .cands (by decide)).trans ((only .cands (by decide)).trans (flush .cands (by decide))))
    show x.thy.ctl = _
    rw [thyX]
    exact ctl ho
  · exact mapSt_ext (all .map (by decide)) (all .mapA (by decide)) (all .mapB (by decide)) (all .mapEcc (by decide))
      (all .mapScrub (by decide)) (all .mapSel (by decide))
  · exact com_of_get (all .com (by decide)) (all .ents (by decide)) (all .stageOpen (by decide)) (all .suspect (by decide))
      (all .frozenWr (by decide)) (all .snaps (by decide)) (all .cfgSave (by decide)) (all .lastEpoch (by decide))

/-! Heartbeats (R217, R222, R232). -/

/-- The slices of the peer's MFC that a heartbeat leaves. -/
def slicesNow (s : State) (w : W56) : Tbl Nat :=
  tset (if bits w 39 35 < s.pair.hbFi then [] else s.pair.hbSlices) (bits w 39 35 % 6) (bits w 28 21)

/-- The state with them. -/
def slicesHeard (s : State) (w : W56) : State := onPair s (fun p => { p with hbFi := bits w 39 35, hbSlices := slicesNow s w })

/-- The count at the peer's position. -/
def peerStep (s : State) (q : Sfp) : State :=
  reStamp s.sfp { s with sfp := q, frameDone := none, epochDone := none, thy := { s.thy with ivEpochs := none } }

theorem followPeer_eq (s : State) (w : W56) (comp : Nat) : followPeer s w comp =
    if isStandby (slicesHeard s w) then
      (if 4 < (sfpDist (slicesHeard s w).sfp (hbPosition (slicesHeard s w) w comp)).natAbs then
        peerStep (slicesHeard s w) (hbPosition (slicesHeard s w) w comp) else slicesHeard s w)
    else slicesHeard s w := rfl

/-- The state of the pair that a step of the count leaves. -/
theorem peerStep_pair (s : State) (q : Sfp) : (peerStep s q).pair.st = s.pair.st ∧ (peerStep s q).pair.phase = s.pair.phase ∧
    (peerStep s q).pair.hbSlices = s.pair.hbSlices := ⟨rfl, rfl, rfl⟩

theorem peerStep_grp (s : State) (q : Sfp) (g : Nat) : (grpOf (peerStep s q) g).sel = (grpOf s g).sel ∧
    (grpOf (peerStep s q) g).loc = (grpOf s g).loc ∧ (grpOf (peerStep s q) g).eff = (grpOf s g).eff := by
  have mapped : grpOf (peerStep s q) g = (tfind s.grps g).elim {} (shiftGrp s.sfp q) := tget_map _ _ _
  rw [mapped, grpOf, tget]
  cases tfind s.grps g <;> exact ⟨rfl, rfl, rfl⟩

theorem peerStep_port (s : State) (q : Sfp) (p : Nat) : (portOf (peerStep s q) p).rep = (portOf s p).rep ∧
    (portOf (peerStep s q) p).trunk.align = (portOf s p).trunk.align := by
  obtain ⟨g, same, mapped⟩ : ∃ g : PortSt → PortSt, (∀ x, (g x).rep = x.rep ∧ (g x).trunk.align = x.trunk.align) ∧
      (peerStep s q).ports = s.ports.map fun kv => (kv.1, g kv.2) :=
    ⟨fun x => { x with trunk := { x.trunk with slipAt := x.trunk.slipAt.map (shiftPos s.sfp q) } }, fun _ => ⟨rfl, rfl⟩, rfl⟩
  rw [portOf, mapped, tget_map, portOf, tget]
  cases tfind s.ports p
  · exact ⟨rfl, rfl⟩
  · exact same _

theorem peerStep_counts (s : State) (q : Sfp) : CountOnly s (peerStep s q) :=
  ⟨rfl, rfl, rfl, rfl, rfl, fun g => peerStep_grp s q g, fun p => peerStep_port s q p⟩

theorem CountOnly.trans {s t u : State} (h : CountOnly s t) (k : CountOnly t u) : CountOnly s u := by
  obtain ⟨a, b, c, d, e, grps, ports⟩ := h
  obtain ⟨a', b', c', d', e', grps', ports'⟩ := k
  refine ⟨a'.trans a, b'.trans b, c'.trans c, d'.trans d, e'.trans e, fun g => ?_, fun p => ?_⟩
  · obtain ⟨sel, loc, eff⟩ := grps g
    obtain ⟨sel', loc', eff'⟩ := grps' g
    exact ⟨sel'.trans sel, loc'.trans loc, eff'.trans eff⟩
  · exact ⟨(ports' p).1.trans (ports p).1, (ports' p).2.trans (ports p).2⟩

theorem CountOnly.of_only {s t : State} (h : Only [.pair, .mir, .sage, .hist, .vcp, .run] s t) : CountOnly s t :=
  ⟨h .act (by decide), h .stg (by decide), h .mapA (by decide), h .mapB (by decide),
    show (get .map t).bActive = (get .map s).bActive from congrArg (fun m : MapSt => m.bActive) (h .map (by decide)),
    fun g => by rw [grpOf_of_get (h .grps (by decide))]; exact ⟨rfl, rfl, rfl⟩,
    fun p => by rw [portOf_of_get (h .ports (by decide))]; exact ⟨rfl, rfl⟩⟩

/-- Six slices give the peer's MFC wherever the count stands. -/
theorem hbPosition_full {s t : State} (same : t.pair.hbSlices = s.pair.hbSlices) (full : t.pair.hbSlices.length = 6) (w : W56)
    (comp : Nat) : hbPosition t w comp = hbPosition s w comp := by
  have full' : s.pair.hbSlices.length = 6 := by rw [← same, full]
  unfold hbPosition
  dsimp only
  rw [if_pos full, if_pos full', same]

theorem peerStep_full {s : State} (q : Sfp) {w : W56} {comp : Nat} (full : (peerStep s q).pair.hbSlices.length = 6)
    (at_ : q = hbPosition s w comp) : sfpDist (peerStep s q).sfp (hbPosition (peerStep s q) w comp) = 0 := by
  have same : (peerStep s q).pair.hbSlices = s.pair.hbSlices := (peerStep_pair s q).2.2
  have pos : (peerStep s q).sfp = q := rfl
  rw [hbPosition_full same full, pos, ← at_, sfpDist_self]

/-- What a heartbeat leaves of the count and the pair. -/
theorem followPeer_facts (s : State) (w : W56) (comp : Nat) : CountOnly s (followPeer s w comp) ∧
    (followPeer s w comp).pair.st = s.pair.st ∧ (followPeer s w comp).pair.phase = s.pair.phase ∧
    ownCompat (followPeer s w comp) = ownCompat s ∧ get .mem (followPeer s w comp) = get .mem s ∧
    (isStandby s = false → Only [.pair] s (followPeer s w comp)) ∧
    (isStandby s = true → (followPeer s w comp).pair.hbSlices.length = 6 →
      (sfpDist (followPeer s w comp).sfp (hbPosition (followPeer s w comp) w comp)).natAbs ≤ 4) := by
  have heard : Only [.pair] s (slicesHeard s w) := fun f out => by
    simp at out
    simp [slicesHeard, out]
  have count := CountOnly.of_only (heard.mono (by simp))
  have standby : isStandby (slicesHeard s w) = isStandby s := rfl
  rw [followPeer_eq]
  by_cases follows : isStandby s = true
  · rw [if_pos (standby.trans follows)]
    by_cases far : 4 < (sfpDist (slicesHeard s w).sfp (hbPosition (slicesHeard s w) w comp)).natAbs
    · rw [if_pos far]
      refine ⟨count.trans (peerStep_counts _ _), rfl, rfl, rfl, rfl, fun other => ?_, fun _ full => ?_⟩
      · rw [follows] at other
        cases other
      · rw [peerStep_full _ full rfl]
        decide
    · rw [if_neg far]
      exact ⟨count, rfl, rfl, rfl, rfl, fun _ => heard, fun _ _ => Nat.le_of_not_lt far⟩
  · rw [if_neg (fun k => follows (standby.symm.trans k))]
    exact ⟨count, rfl, rfl, rfl, rfl, fun _ => heard, fun k => absurd k follows⟩

theorem ownCompat_of_get {s t : State} (seq : get .seq t = get .seq s) (flash : get .flash t = get .flash s) :
    ownCompat t = ownCompat s := by
  have seq : t.seq = s.seq := seq
  have flash : t.flash = s.flash := flash
  rw [ownCompat, seq, flash]
  rfl

/-- The active restarts the resync that it was serving. -/
def restarts (s u : State) (w : W56) : Bool :=
  decide (u.pair.st = .active) && decide (bits w 20 18 = 3) && chiveSilent s && u.pair.serving

/-- The pair after a heartbeat on a lane. -/
def heardPair (u : State) (lane : Nat) (w : W56) (again : Bool) (p : PairSt) : PairSt :=
  { p with
    hb0 := if lane = 0 then some u.sfp else p.hb0, hb1 := if lane = 0 then p.hb1 else some u.sfp
    live0 := p.live0 || decide (lane = 0), live1 := p.live1 || decide (lane ≠ 0)
    down0 := p.down0 && decide (lane ≠ 0), down1 := p.down1 && decide (lane = 0)
    lost := false, blocked := p.blocked && !(bit w 17 && (bits w 20 18 == 1 || bits w 20 18 == 2))
    peer := some (BitVec.ofNat 3 (bits w 20 18), bit w 16, bit w 17, BitVec.ofNat 8 (bits w 15 8))
    serving := if p.st = .active then decide (bits w 20 18 = 4) || again || (p.serving && bits w 20 18 != 3 && bits w 20 18 != 5)
      else p.serving }

/-- The state with it, before a resync goes on. -/
def heardState (s u : State) (lane : Nat) (w : W56) : State :=
  let v := onPair u (heardPair u lane w (restarts s u w))
  disagreeEval (if restarts s u w then mirPush v false .resyncStart else v)

/-- What a heartbeat does to a resync. -/
def heardResync (s t : State) (w : W56) (locked : Bool) : State :=
  if t.pair.st = .syncing then syncHeartbeat t (BitVec.ofNat 8 (bits w 15 8)) locked
  else if t.pair.st = .unsynced ∧ autoResync (actv t) ∧ bits w 20 18 = 2 ∧ t.seq.running ∧ t.vcp.run = none
      ∧ (chiveSilent s ∨ t.pair.why ≠ 5) then startResync t
  else t

theorem xHeartbeatReceive_good {b : Block} (good : hbGood b = true) (lane comp : Nat) (locked : Bool) (s : State) :
    xHeartbeatReceive lane b comp locked s = matRun (mirFill (heardResync s (heardState s (followPeer s (blkW b) comp) lane (blkW b))
      (blkW b) locked)) := if_pos good

theorem heardState_facts (s u : State) (lane : Nat) (w : W56) : ∃ d, (heardState s u lane w).pair =
      { heardPair u lane w (restarts s u w) u.pair with disagree := d } ∧ Only [.pair, .mir, .hist] u (heardState s u lane w) ∧
      (isStandby u = false → Only [.pair, .mir] u (heardState s u lane w)) := by
  set v := onPair u (heardPair u lane w (restarts s u w)) with v_def
  set x := if restarts s u w then mirPush v false .resyncStart else v with x_def
  have pair : x.pair = v.pair := by
    have kept : get .pair x = get .pair v := by simp [x_def]
    exact kept
  have only : Only [.pair, .mir] u x := fun f out => by
    simp at out
    simp [x_def, v_def, out]
  obtain ⟨d, evals, evalOnly, -⟩ := disagreeEval_facts x
  have is : heardState s u lane w = disagreeEval x := rfl
  refine ⟨d, ?_, ?_, fun leads => ?_⟩
  · rw [is, evals, pair]
    rfl
  · rw [is]
    exact (only.mono (by simp)).trans (evalOnly.mono (by simp))
  · have leads : isStandby x = false := by
      have st : x.pair.st = u.pair.st := congrArg (·.st) pair
      rw [isStandby, st]
      exact leads
    rw [is, disagreeEval_leading leads]
    exact only.trans fun f out => by
      simp at out
      simp [out]

section
variable {s : State} {b : Block} (on : powered s = true) (good : hbGood b = true) (free : MatFree s) (lane : Fin 2) (comp : Nat)
  (locked : Bool)
include on good free

/-- A heartbeat leaves the matrix as it is. -/
theorem heartbeat_row : exec (.heartbeatTake lane b comp locked) s =
    .next (mirFill (heardResync s (heardState s (followPeer s (blkW b) comp) lane (blkW b)) (blkW b) locked)) := by
  refine congrArg Host.Outcome.next ((live_on on _).trans ((xHeartbeatReceive_good good lane comp locked s).trans ?_))
  obtain ⟨-, -, -, -, mem, -⟩ := followPeer_facts s (blkW b) comp
  obtain ⟨d, -, heard, -⟩ := heardState_facts s (followPeer s (blkW b) comp) lane (blkW b)
  refine matRun_free (free.of_get ?_)
  have filled : get .mem (heardResync s (heardState s (followPeer s (blkW b) comp) lane (blkW b)) (blkW b) locked) =
      get .mem (heardState s (followPeer s (blkW b) comp) lane (blkW b)) := by
    unfold heardResync
    split
    · simp
    · split
      · simp
      · rfl
  rw [mirFill_get _ (by decide), filled, heard .mem (by decide), mem]

theorem heartbeat_quiet (quiet : holdsLines s = true ∨ s.pair.st = .standby) :
    ∃ t, exec (.heartbeatTake lane b comp locked) s = .next t
      ∧ t.pair.peer = some (BitVec.ofNat 3 (bits (blkW b) 20 18), bit (blkW b) 16, bit (blkW b) 17, BitVec.ofNat 8 (bits (blkW b) 15 8))
      ∧ (if lane.val = 0 then t.pair.hb0 else t.pair.hb1) = some t.sfp
      ∧ (if lane.val = 0 then t.pair.live0 else t.pair.live1) = true ∧ t.pair.lost = false
      ∧ (bit (blkW b) 17 = true → bits (blkW b) 20 18 = 2 → t.pair.blocked = false)
      ∧ t.pair.st = s.pair.st ∧ (holdsLines s = true → t = { s with pair := t.pair, mir := t.mir })
      ∧ (s.pair.st = .standby → t.pair.hbSlices.length = 6 → (sfpDist t.sfp (hbPosition t (blkW b) comp)).natAbs ≤ 4)
      ∧ CountOnly s t := by
  have row := heartbeat_row on good free lane comp locked
  set w := blkW b
  obtain ⟨counts, st, -, -, -, leads, follows⟩ := followPeer_facts s w comp
  generalize followPeer s w comp = u at *
  obtain ⟨d, pair, only, leading⟩ := heardState_facts s u lane w
  have stV : (heardState s u lane w).pair.st = s.pair.st := by rw [pair]; exact st
  have idle : heardResync s (heardState s u lane w) w locked = heardState s u lane w := by
    have apart : s.pair.st ≠ .syncing ∧ s.pair.st ≠ .unsynced := by
      cases is : s.pair.st <;> simp [holdsLines, is] at quiet ⊢
    refine (if_neg (by rw [stV]; exact apart.1)).trans (if_neg fun k => ?_)
    rw [stV] at k
    exact apart.2 k.1
  rw [idle] at row
  generalize heardState s u lane w = v at *
  have fill : Only [.mir] v (mirFill v) := fun f out => by
    simp at out
    simp [out]
  generalize mirFill v = t at *
  have pairT : t.pair = { heardPair u lane w (restarts s u w) u.pair with disagree := d } := (fill .pair (by decide)).trans pair
  have pos : t.sfp = u.sfp := (fill .sfp (by decide)).trans (only .sfp (by decide))
  refine ⟨t, row, by rw [pairT]; rfl, ?_, ?_, by rw [pairT]; rfl, fun alive active => ?_, by rw [pairT]; exact st, fun lines => ?_,
    fun standby full => ?_, counts.trans (.of_only ((only.mono (by simp)).trans (fill.mono (by simp))))⟩
  · rw [pairT, pos]
    by_cases zero : lane.val = 0 <;> simp [heardPair, zero]
  · rw [pairT]
    by_cases zero : lane.val = 0 <;> simp [heardPair, zero]
  · rw [pairT]
    simp [heardPair, alive, active]
  · have lead : isStandby s = false := by
      cases is : s.pair.st <;> simp [holdsLines, isStandby, is] at lines ⊢
    have leadU : isStandby u = false := by
      rw [isStandby, st]
      exact lead
    have total : Only [.pair, .mir] s t :=
      ((leads lead).mono (by simp)).trans ((leading leadU).trans (fill.mono (by simp)))
    exact total.frame
  · have stands : isStandby s = true := by rw [isStandby, standby]
    have slices : t.pair.hbSlices = u.pair.hbSlices := by rw [pairT]; rfl
    have near := follows stands (by rw [← slices, full])
    rw [pos, hbPosition_full slices full]
    exact near

/-- A heartbeat in the Link phase of a resync. -/
theorem heartbeat_links (syncing : s.pair.st = .syncing) (link : s.pair.phase = 1)
    (same : bits (blkW b) 15 8 = (ownCompat s).toNat) :
    ∃ t, exec (.heartbeatTake lane b comp locked) s = .next t ∧ t.pair.st = .syncing ∧ t.pair.phase = 2 ∧ CountOnly s t := by
  have row := heartbeat_row on good free lane comp locked
  set w := blkW b
  obtain ⟨counts, st, phase, compat, -, -, -⟩ := followPeer_facts s w comp
  generalize followPeer s w comp = u at *
  obtain ⟨d, pair, only, -⟩ := heardState_facts s u lane w
  have stV : (heardState s u lane w).pair.st = .syncing := by rw [pair]; exact st.trans syncing
  have phV : (heardState s u lane w).pair.phase = 1 := by rw [pair]; exact phase.trans link
  generalize heardState s u lane w = v at *
  have own : BitVec.ofNat 8 (bits w 15 8) = ownCompat v := by
    have kept : ownCompat v = ownCompat u := ownCompat_of_get (only .seq (by decide)) (only .flash (by decide))
    rw [same, BitVec.ofNat_toNat, BitVec.setWidth_eq, kept, compat]
  have goes : heardResync s v w locked = onPair v (fun p => { p with phase := 2, phaseAt := p.phaseAt ++ [v.sfp] }) :=
    (if_pos stV).trans ((if_neg (not_not_intro own)).trans (if_pos phV))
  rw [goes] at row
  set x := onPair v (fun p => { p with phase := 2, phaseAt := p.phaseAt ++ [v.sfp] }) with x_def
  have fill : Only [.mir] x (mirFill x) := fun f out => by
    simp at out
    simp [out]
  have pairT : (mirFill x).pair = x.pair := fill .pair (by decide)
  have total : Only [.pair, .mir, .sage, .hist, .vcp, .run] u (mirFill x) := fun f out => by
    simp at out
    rw [fill f (by simp [out])]
    simp [x_def, only f, out]
  exact ⟨mirFill x, row, (congrArg (·.st) pairT).trans stV, congrArg (·.phase) pairT, counts.trans (.of_only total)⟩

/-- A heartbeat of another COMPAT ends a resync. -/
theorem heartbeat_fails (syncing : s.pair.st = .syncing) (other : bits (blkW b) 15 8 ≠ (ownCompat s).toNat) :
    ∃ t, exec (.heartbeatTake lane b comp locked) s = .next t ∧ t.pair.st = .unsynced ∧ t.pair.why = 5
      ∧ t.pair.resync = false ∧ CountOnly s t := by
  have row := heartbeat_row on good free lane comp locked
  set w := blkW b
  obtain ⟨counts, st, -, compat, -, -, -⟩ := followPeer_facts s w comp
  generalize followPeer s w comp = u at *
  obtain ⟨d, pair, only, -⟩ := heardState_facts s u lane w
  have stV : (heardState s u lane w).pair.st = .syncing := by rw [pair]; exact st.trans syncing
  generalize heardState s u lane w = v at *
  have own : BitVec.ofNat 8 (bits w 15 8) ≠ ownCompat v := fun is => other <| by
    have kept : ownCompat v = ownCompat u := ownCompat_of_get (only .seq (by decide)) (only .flash (by decide))
    rw [← compat, ← kept, ← is, BitVec.toNat_ofNat]
    exact (Nat.mod_eq_of_lt (bits_lt w 15 8)).symm
  have goes : heardResync s v w locked = failResync v 7 5 := (if_pos stV).trans (if_pos own)
  rw [goes] at row
  obtain ⟨stT, why, resync, -, fails⟩ := failResync_facts stV 7 5
  generalize failResync v 7 5 = x at *
  have fill : Only [.mir] x (mirFill x) := fun f out => by
    simp at out
    simp [out]
  have pairT : (mirFill x).pair = x.pair := fill .pair (by decide)
  have total : Only [.pair, .mir, .sage, .hist, .vcp, .run] u (mirFill x) :=
    (only.mono (by simp)).trans ((fails.mono (by simp)).trans (fill.mono (by simp)))
  exact ⟨mirFill x, row, (congrArg (·.st) pairT).trans stT, (congrArg (·.why) pairT).trans why,
    (congrArg (·.resync) pairT).trans resync, counts.trans (.of_only total)⟩
end

theorem heartbeat_wrong {s : State} {b : Block} (on : powered s = true) (wrong : hbGood b = false) (lane : Fin 2) (comp : Nat) (locked : Bool) :
    exec (.heartbeatTake lane b comp locked) s = .next s :=
  congrArg Host.Outcome.next ((live_on on _).trans (if_neg (by rw [wrong]; decide)))

/-- Settles O26: heartbeats by the state of the pair, the lanes and the mirror, ALIVE_IN and the takeover. -/
theorem pairLink : Obligations.PairLink := by
  unfold Obligations.PairLink
  intro lane b comp locked level s on
  exact ⟨fun wrong => heartbeat_wrong on wrong lane comp locked, fun good free quiet => heartbeat_quiet on good free lane comp locked quiet,
    fun good free syncing => ⟨fun link same => heartbeat_links on good free lane comp locked syncing link same,
      fun other => heartbeat_fails on good free lane comp locked syncing other⟩,
    fun up quiet => laneDown_row on lane up quiet, fun silent known heard free => mirrorLost_row on silent known heard free,
    aliveIn_rows on level, fun standby paired low silent => takeover_row on standby paired low silent⟩

end Sys2Proof.Machine
end

section
/-! AUTO_RESTORE (O29). -/

namespace Sys2Proof.Machine

open Sys2Proof

/-! AUTO_RESTORE (R239, R458 to R461). -/

/-- The engine begins a stage. -/
def stageBegun (s : State) (n : Nat) : State :=
  onAuto s (fun a => { a with stage := if n = 1 then .stage1 else .stage2, retried := false })

theorem beginStage_facts (s : State) (n : Nat) : (beginStage s n).com.stageOpen = s.com.stageOpen ||| stageMask n ∧
    (beginStage s n).auto = (stageBegun s n).auto ∧ Only [.auto, .stageOpen, .mir] s (beginStage s n) := by
  have open_ := openDomains_com (stageBegun s n) (stageMask n)
  refine ⟨open_.1, openDomains_rest (f := .auto) (stageBegun s n) (stageMask n) (by decide) (by decide), fun f out => ?_⟩
  simp at out
  refine (openDomains_rest (stageBegun s n) (stageMask n) (by simp [out]) (by simp [out])).trans ?_
  simp [stageBegun, out]

theorem arbitrationEnd_stages {s : State} {c : SavedCfg} (on : powered s = true) (frame : isFrame s.sfp = true) (ready : s.phase = .ready)
    (calm : s.seq.rescue = false) (arb : s.pair.st = .arbitrating) (low : s.pair.aliveIn = false) (run : 2048 ≤ s.pair.arbRun)
    (saved : s.flash.cfg = some c) (auto : c.auto = true) :
    ∃ t, exec .arbitrationEnd s = .next t ∧ t.auto.stage = .stage1 ∧ t.com.stageOpen = s.com.stageOpen ||| 0xE8
      ∧ t = { s with pair := t.pair, auto := t.auto, com := { s.com with stageOpen := t.com.stageOpen }, mir := t.mir
                     sage := t.sage, regs := { s.regs with hist := t.regs.hist } } := by
  set n : PairState := if pairEn (actv s) then .active else .unpaired with n_def
  have drive : n = .active ∨ n = .unpaired := by
    rw [n_def]
    cases pairEn (actv s)
    · exact .inr rfl
    · exact .inl rfl
  have change : s.pair.st ≠ n := by
    rw [arb]
    rcases drive with is | is <;> rw [is] <;> decide
  have stays : (drives s.pair.st && !drives n) = false := by
    rw [arb]
    rfl
  have long : (if s.pins.twinPos then 2048 else 2) ≤ s.pair.arbRun := by
    split <;> omega
  have only := pairChange_only 1 0 change stays
  have row : xArbitrationEnd s = beginStage (pairChange s 1 n 0) 1 := by
    have cfg : (pairTo s n 0).flash.cfg = some c := (congrArg (·.cfg) (only .flash (by decide) :)).trans saved
    have calm' : (pairTo s n 0).seq.rescue = false := (congrArg (·.rescue) (only .seq (by decide) :)).trans calm
    unfold xArbitrationEnd
    dsimp only
    rw [if_pos ⟨ready, calm, arb, low, long⟩, ← n_def, cfg]
    exact if_pos (by rw [auto, calm']; rfl)
  generalize pairChange s 1 n 0 = u at *
  obtain ⟨open_, auto', begun⟩ := beginStage_facts u 1
  have com : u.com.stageOpen = s.com.stageOpen := only .stageOpen (by decide)
  have total : Only [.pair, .auto, .stageOpen, .mir, .sage, .hist] s (beginStage u 1) :=
    (only.mono (by simp)).trans (begun.mono (by simp))
  exact ⟨_, congrArg Host.Outcome.next ((liveFrame_on on frame _).trans row), by rw [auto']; rfl, by rw [open_, com]; rfl, total.frame⟩

/-! Stage 1 staged. -/

/-- The addresses that a stage stores. -/
def stageKeys (s : State) (saved : Tbl Word) (mask : BitVec 8) : List Nat :=
  (s.regs.stg.map (·.1) ++ saved.map (·.1)).filter fun a => match domOf a with
    | some d => bit mask d
    | none => false

theorem stageSaved_view (s : State) (saved : Tbl Word) (mask : BitVec 8) (b : Nat) : stgv (stageSaved s saved mask) b =
    if b ∈ stageKeys s saved mask then tget (regReset b) saved b else stgv s b :=
  stg_forEach_stgPut (stageKeys s saved mask) s (fun a => tget (regReset a) saved a) b

theorem mem_stageKeys {s : State} {saved : Tbl Word} {mask : BitVec 8} {kv : Nat × Word} {d : Nat} (mem : kv ∈ s.regs.stg ++ saved)
    (dom : domOf kv.1 = some d) : kv.1 ∈ stageKeys s saved mask ↔ bit mask d = true := by
  have listed : kv.1 ∈ s.regs.stg.map (·.1) ++ saved.map (·.1) := by
    rw [← List.map_append]
    exact List.mem_map_of_mem mem
  rw [stageKeys, List.mem_filter, dom]
  exact and_iff_right listed

theorem stageSaved_only (s : State) (saved : Tbl Word) (mask : BitVec 8) : Only [.stg, .mir] s (stageSaved s saved mask) := fun f out => by
  simp at out
  simp [stageSaved, out]

theorem closeDomains_com (s : State) (m : BitVec 8) : (closeDomains s m).com.stageOpen = s.com.stageOpen &&& ~~~m ∧
    (closeDomains s m).com.suspect = s.com.suspect := by
  show get .stageOpen _ = _ ∧ get .suspect _ = _
  unfold closeDomains setStageBits
  split <;> simp [get, onCom]

theorem closeDomains_rest {f : Part} (s : State) (m : BitVec 8) (open_ : f ≠ .stageOpen) (mir : f ≠ .mir) :
    get f (closeDomains s m) = get f s := by
  by_cases suspect : f = .suspect
  · subst suspect
    exact (closeDomains_com s m).2
  · simp [open_, suspect, mir]

theorem staged1_row {s : State} {c : SavedCfg} {i : Nat} (on : powered s = true) (stage1 : s.auto.stage = .stage1)
    (saved : s.flash.cfg = some c) (running : s.seq.running = true) (lines : holdsLines s = true)
    (passes : commitRefuse (closeDomains (stageSaved s c.regs 0xE8) 0xE8) s.sfp 0xE8 (earliest s.sfp) = none)
    (fresh : entFor s (earliest s.sfp) = none) (free : freeEnt s = some i) :
    ∃ t, exec .autoRestoreStaged s = .next t ∧ t.auto.stage = .committed1
      ∧ (tfind t.com.ents i).map (fun x => (x.epoch, x.mask, x.st)) = some (earliest s.sfp, 0xE8, .pending)
      ∧ (∀ kv ∈ s.regs.stg ++ c.regs, ∀ d : Fin 8, domOf kv.1 = some d.val →
          (bit (0xE8 : BitVec 8) d = true → stgv t kv.1 = tget (regReset kv.1) c.regs kv.1) ∧
          (bit (0xE8 : BitVec 8) d = false → stgv t kv.1 = stgv s kv.1))
      ∧ t.com.stageOpen = s.com.stageOpen &&& ~~~0xE8 ∧ t.regs.act = s.regs.act ∧ t.map = s.map := by
  set u := closeDomains (stageSaved s c.regs 0xE8) 0xE8 with u_def
  set x : CommitEnt := { epoch := earliest s.sfp, mask := 0xE8, dest := s.pins.devid, recs := [(0xFFFF, 0)], auto := 1 }
  have kept := stageSaved_only s c.regs 0xE8
  have view : stgv u = stgv (stageSaved s c.regs 0xE8) := stgv_of_get (closeDomains_rest _ _ (by decide) (by decide))
  have only : Only [.stg, .stageOpen, .mir] s u := fun f out => by
    simp at out
    exact (closeDomains_rest _ _ (by simp [out]) (by simp [out])).trans (kept f (by simp [out]))
  have open_ : u.com.stageOpen = s.com.stageOpen &&& ~~~0xE8 := by
    have same : (stageSaved s c.regs 0xE8).com.stageOpen = s.com.stageOpen := kept .stageOpen (by decide)
    rw [u_def, (closeDomains_com _ _).1, same]
  have ents : u.com.ents = s.com.ents := only .ents (by decide)
  have enters : commitEnter u 0xE8 (earliest s.sfp) false s.pins.devid (0xFFFF, 0) 1 = entPut u i x := by
    have fresh' : entFor u (earliest s.sfp) = none := by rw [entFor, ents]; exact fresh
    have free' : freeEnt u = some i := by rw [freeEnt, ents]; exact free
    unfold commitEnter
    rw [fresh', free']
  have row : xAutoRestoreStaged s = onAuto (entPut u i x) (fun a => { a with stage := .committed1 }) := by
    unfold xAutoRestoreStaged
    rw [saved, stage1]
    refine (if_pos ⟨by decide, running, lines⟩).trans ?_
    refine (if_neg ?_).trans (congrArg (fun t => onAuto t _) enters)
    show ¬ (commitRefuse u s.sfp 0xE8 (earliest s.sfp)).isSome = true
    rw [passes]
    decide
  clear_value u
  have put : Only [.ents, .mir] u (entPut u i x) := fun f out => by
    simp at out
    simp [out]
  have here : (entPut u i x).com.ents = tset u.com.ents i x := entPut_ents u i x
  generalize entPut u i x = v at *
  have stgv_ : stgv (onAuto v (fun a => { a with stage := .committed1 })) = stgv u := stgv_of_get (put .stg (by decide))
  have total : Only [.ents, .stg, .stageOpen, .mir] s v := (only.mono (by simp)).trans (put.mono (by simp))
  refine ⟨_, congrArg Host.Outcome.next ((live_on on _).trans row), rfl, ?_, fun kv mem d dom => ?_,
    (put .stageOpen (by decide)).trans open_, total .act (by decide), ?_⟩
  · show (tfind v.com.ents i).map _ = _
    rw [here, tfind_tset_same]
    rfl
  · rw [stgv_, view, stageSaved_view]
    have listed := mem_stageKeys (mask := 0xE8) mem dom
    exact ⟨fun mine => if_pos (listed.mpr mine), fun other => if_neg fun k => by
      have mine := listed.mp k
      rw [other] at mine
      cases mine⟩
  · exact mapSt_ext (total .map (by decide)) (total .mapA (by decide)) (total .mapB (by decide)) (total .mapEcc (by decide))
      (total .mapScrub (by decide)) (total .mapSel (by decide))

/-! Stage 2. -/

section
variable {s : State} (on : powered s = true) (frame : isFrame s.sfp = true) (waits : s.auto.stage = .waitLock)
  (running : s.seq.running = true) (idle : s.vcp.run = none)
include on frame

theorem stage2_standby (lines : holdsLines s = false) :
    exec .autoRestoreStage2 s = .next s ∧ exec .autoRestoreStage2Timeout s = .next s := by
  have busy : stageFree s = false := by
    rw [stageFree, lines, Bool.and_false]
  refine ⟨congrArg Host.Outcome.next ((liveFrame_on on frame _).trans ?_), congrArg Host.Outcome.next ((liveFrame_on on frame _).trans ?_)⟩
  · exact if_neg (by rw [busy]; exact Bool.false_ne_true)
  · unfold xAutoRestoreStage2Timeout
    split
    · exact if_neg (by rw [busy]; exact Bool.false_ne_true)
    · rfl

include waits running idle

theorem stageFree_lines (lines : holdsLines s = true) : stageFree s = true := by
  rw [stageFree, waits, running, idle, lines]
  rfl

theorem stage2_row (lines : holdsLines s = true) (locked : s.thy.st = .locked) (src : tFrameSrc (actv s) ≠ 1) :
    ∃ t, exec .autoRestoreStage2 s = .next t ∧ t.auto.stage = .stage2 ∧ t.com.stageOpen = s.com.stageOpen ||| 0x17
      ∧ t = { s with auto := t.auto, com := { s.com with stageOpen := t.com.stageOpen }, mir := t.mir } := by
  obtain ⟨open_, auto, only⟩ := beginStage_facts s 2
  have row : xAutoRestoreStage2 s = beginStage s 2 := if_pos (by
    rw [stageFree_lines on frame waits running idle lines, locked, bne_iff_ne.mpr src]
    rfl)
  exact ⟨_, congrArg Host.Outcome.next ((liveFrame_on on frame _).trans row), by rw [auto]; rfl, open_, only.frame⟩

theorem stage2Timeout_row {m : Sfp} (lines : holdsLines s = true) (strobe : s.auto.strobe1 = some m)
    (long : 178893 * 5240576 ≤ sfpDist m s.sfp) :
    ∃ t, exec .autoRestoreStage2Timeout s = .next t ∧ t.auto.stage = .stage2
      ∧ t.com.stageOpen = s.com.stageOpen ||| 0x17 ∧ (newest t).map (fun r => (r.cls, r.sub)) = some (2, 1)
      ∧ t = { s with auto := t.auto, com := { s.com with stageOpen := t.com.stageOpen }, mir := t.mir, sage := t.sage
                     regs := { s.regs with hist := t.regs.hist } } := by
  obtain ⟨open_, auto, only⟩ := beginStage_facts s 2
  have row : xAutoRestoreStage2Timeout s = trace (beginStage s 2) 2 1 noObj [by1 (thyCode s.thy.st), by1 (thyCode s.thy.st)] := by
    unfold xAutoRestoreStage2Timeout
    rw [strobe]
    exact if_pos (by rw [stageFree_lines on frame waits running idle lines, decide_eq_true long]; rfl)
  generalize beginStage s 2 = u at *
  have traced : Only [.auto, .stageOpen, .mir, .sage, .hist] s (trace u 2 1 noObj [by1 (thyCode s.thy.st), by1 (thyCode s.thy.st)]) :=
    fun f out => by
      simp at out
      rw [trace_get _ _ _ _ _ (by simp [out]) (by simp [out])]
      exact only f (by simp [out])
  refine ⟨_, congrArg Host.Outcome.next ((liveFrame_on on frame _).trans row), ?_, open_, ?_, traced.frame⟩
  · exact (congrArg (·.stage) auto).trans rfl
  · rw [newest_trace]
    rfl
end

/-- Settles O29, stage by stage. -/
theorem autoRestore : Obligations.AutoRestore := by
  unfold Obligations.AutoRestore
  intro c i m s on
  exact ⟨fun frame ready calm arb low run saved auto => arbitrationEnd_stages on frame ready calm arb low run saved auto,
    fun stage1 saved running lines passes fresh free => staged1_row on stage1 saved running lines passes fresh free,
    fun frame waits running idle => ⟨fun lines locked src => stage2_row on frame waits running idle lines locked src,
      fun lines strobe long => stage2Timeout_row on frame waits running idle lines strobe long, fun lines => stage2_standby on frame lines⟩⟩

end Sys2Proof.Machine
end

section
/-! The shared checks and dispatch (O44). -/

namespace Sys2Proof.Machine

open Sys2Proof

/-! The checks every command shares (Table 12-10, checks 9 to 12). -/

section
variable {op : BitVec 16} {r : Req} {q : Run} {s : State} (h : Begun op r q s) {st d : Byte} (fails : checkCommand s q = some (st, d))
include h fails

/-- A command that fails a shared check answers it and does nothing else. -/
theorem runSteps_stops (body : Run → State → State) : live s (runSteps op r body s) = setReply s st d [] := by
  obtain ⟨on, running, run, req, code, reply, work⟩ := h
  have offered : offer s op r = s := by simp [offer, run, req, code]
  have is : runIs s op r = some q := by simp [runIs, run, req, code, reply, running]
  rw [live_on on, runSteps]
  simp only [offered, is, work, fails]
  rfl

theorem runSoon_stops (soon : sfpDist q.since s.sfp ≤ 1562500) (body : Run → State → State) :
    live s (runSoon op r false body s) = setReply s st d [] := by
  obtain ⟨on, running, run, req, code, reply, work⟩ := h
  have offered : offer s op r = s := by simp [offer, run, req, code]
  have is : runIs s op r = some q := by simp [runIs, run, req, code, reply, running]
  rw [live_on on, runSoon]
  simp only [offered, is, work, fails, soon]
  rfl

theorem exec_stops {i : Instr} (code : opcodeOf i = some op) (named : i.req = some r) (other : op ≠ 0x0B01)
    (soon : op = 0x0B02 → sfpDist q.since s.sfp ≤ 1562500) : exec i s = .next (setReply s st d []) := by
  cases i <;> cases code <;> cases named
  case commit => exact absurd rfl other
  case commitCancel => exact congrArg Host.Outcome.next (runSoon_stops h fails (soon rfl) _)
  all_goals exact congrArg Host.Outcome.next (runSteps_stops h fails _)
end

theorem stops_row {op : BitVec 16} {r : Req} {q : Run} {s : State} {i : Instr} (code : opcodeOf i = some op) (named : i.req = some r)
    (h : Begun op r q s) (other : op ≠ 0x0B01) (soon : op = 0x0B02 → sfpDist q.since s.sfp ≤ 1562500) {st d : Byte}
    (fails : checkCommand s q = some (st, d)) :
    ∃ t, exec i s = .next t ∧ Answers t st d [] ∧ t = { s with vcp := { s.vcp with run := t.vcp.run } } := by
  obtain ⟨x, shape⟩ := setReply_shape s st d []
  exact ⟨_, exec_stops h fails code named other soon, setReply_answers h.2.2.1 st d [], by rw [shape]⟩

/-! Which check fails first. -/

section
variable {s : State} {q : Run}

theorem check_class (class_ : (opClasses q.op.toNat).contains (clsOf s q) = false) : checkCommand s q = some (4, 1) := if_pos class_

theorem holderCheck_entry (holder : clsOf s q = 2) (names : 0x0380 ≤ q.op.toNat ∧ q.op.toNat ≤ 0x0382 ∧ 2 ≤ q.req.params.length ∧
    pkNat q.req.params 0 2 ≠ holderOf s q) : holderCheck s q = some (4, 2) :=
  (if_neg (not_not_intro holder)).trans (if_pos names)

theorem holderCheck_kind (holder : clsOf s q = 2) (op : q.op.toNat = 0x0403) (long : 3 ≤ q.req.params.length)
    (kind : pk1 q.req.params 2 = 0xE ∨ pk1 q.req.params 2 = 0xA) : holderCheck s q = some (4, 1) :=
  (if_neg (not_not_intro holder)).trans ((if_neg fun k => by omega).trans (if_pos ⟨op, long, kind⟩))

variable (class_ : (opClasses q.op.toNat).contains (clsOf s q) = true)
include class_

theorem check_holder {st d : Byte} (holder : holderCheck s q = some (st, d)) : checkCommand s q = some (st, d) := by
  unfold checkCommand
  dsimp only
  rw [class_, holder]
  rfl

variable (free : holderCheck s q = none)
include free

/-- The checks after those of the class and the holder. -/
theorem check_rest : checkCommand s q = if isStandby s && !opStandby q.op.toNat then some (2, 0)
    else if !opLenOk q.op.toNat q.req.params then some (8, 0x40)
    else if s.seq.rescue && !opRescue q.op.toNat then some (4, 9)
    else if opGuarded q.op.toNat && !confirmOk q.op q.req then some (0x0B, 0) else none := by
  unfold checkCommand
  dsimp only
  rw [class_, free]
  rfl

theorem check_standby (standby : isStandby s = true) (barred : opStandby q.op.toNat = false) : checkCommand s q = some (2, 0) := by
  rw [check_rest class_ free, standby, barred]
  rfl

variable (leads : isStandby s = false ∨ opStandby q.op.toNat = true)
include leads

theorem standby_passes : (isStandby s && !opStandby q.op.toNat) = false := by
  rcases leads with leads | leads <;> simp [leads]

theorem check_length (wrong : opLenOk q.op.toNat q.req.params = false) : checkCommand s q = some (8, 0x40) := by
  rw [check_rest class_ free, standby_passes class_ free leads, wrong]
  rfl

variable (fits : opLenOk q.op.toNat q.req.params = true)
include fits

theorem check_rescue (rescue : s.seq.rescue = true) (barred : opRescue q.op.toNat = false) : checkCommand s q = some (4, 9) := by
  rw [check_rest class_ free, standby_passes class_ free leads, fits, rescue, barred]
  rfl

theorem check_confirm (calm : s.seq.rescue = false ∨ opRescue q.op.toNat = true) (guarded_ : opGuarded q.op.toNat = true)
    (wrong : pkNat q.req.params (q.req.params.length - 4) 4 ≠ confirmOf q.op q.req.seq) : checkCommand s q = some (0x0B, 0) := by
  have passes : (s.seq.rescue && !opRescue q.op.toNat) = false := by
    rcases calm with calm | calm <;> simp [calm]
  have fails : confirmOk q.op q.req = false := beq_eq_false_iff_ne.mpr wrong
  rw [check_rest class_ free, standby_passes class_ free leads, fits, passes, guarded_, fails]
  rfl
end

/-! The best packet of the queue (R264). -/

/-- The better of a packet and the one so far. -/
def better (o : Option Queued) (x : Queued) : Option Queued :=
  match o with
  | some b => if b.req.pri < x.req.pri then some x else o
  | none => some x

theorem foldl_better (l : List Queued) (o : Option Queued) (q : Queued) (best : l.foldl better o = some q) :
    (q ∈ l ∨ o = some q) ∧ (∀ y ∈ l, y.req.pri ≤ q.req.pri) ∧ ∀ y, o = some y → y.req.pri ≤ q.req.pri := by
  induction l generalizing o with
  | nil => exact ⟨.inr best, by simp, fun y is => by
      rw [List.foldl_nil, is] at best
      rw [Option.some.inj best]
      exact BitVec.le_refl _⟩
  | cons x l ih =>
    obtain ⟨mem, top, acc⟩ := ih (better o x) best
    cases o with
    | none =>
      refine ⟨.inl ?_, fun y inside => ?_, fun y is => by cases is⟩
      · rcases mem with inside | first
        · exact .tail _ inside
        · rw [← Option.some.inj first]
          exact .head _
      · rcases List.mem_cons.mp inside with rfl | inside
        · exact acc y rfl
        · exact top y inside
    | some b =>
      by_cases higher : b.req.pri < x.req.pri
      · have now : better (some b) x = some x := if_pos higher
        refine ⟨.inl ?_, fun y inside => ?_, fun y is => ?_⟩
        · rcases mem with inside | first
          · exact .tail _ inside
          · rw [now] at first
            rw [← Option.some.inj first]
            exact .head _
        · rcases List.mem_cons.mp inside with rfl | inside
          · exact acc y now
          · exact top y inside
        · obtain rfl := Option.some.inj is
          exact BitVec.le_trans (BitVec.le_of_lt higher) (acc x now)
      · have now : better (some b) x = some b := if_neg higher
        refine ⟨?_, fun y inside => ?_, fun y is => ?_⟩
        · rcases mem with inside | first
          · exact .inl (.tail _ inside)
          · rw [now] at first
            exact .inr first
        · rcases List.mem_cons.mp inside with rfl | inside
          · exact BitVec.le_trans (BitVec.not_lt.mp higher) (acc b now)
          · exact top y inside
        · obtain rfl := Option.some.inj is
          exact acc b now

theorem queueBest_facts {l : List Queued} {q : Queued} (best : queueBest l = some q) : q ∈ l ∧ ∀ y ∈ l, y.req.pri ≤ q.req.pri := by
  have fold : l.foldl better none = some q := best
  obtain ⟨mem, top, -⟩ := foldl_better l none q fold
  exact ⟨mem.resolve_right (by simp), top⟩

theorem delFirst_length {l : List Queued} {q : Queued} (mem : q ∈ l) : (delFirst (fun x => x == q) l).length = l.length - 1 := by
  induction l with
  | nil => cases mem
  | cons x l ih =>
    rw [delFirst]
    by_cases same : x = q
    · rw [if_pos (by simpa using same)]
      rfl
    · rw [if_neg (by simpa using same)]
      have inside : q ∈ l := (List.mem_cons.mp mem).resolve_left (Ne.symm same)
      have some_ : 0 < l.length := List.length_pos_of_mem inside
      simp only [List.length_cons, ih inside]
      omega

/-! What a packet to a transport leaves. -/

theorem outVia_vcp (s : State) (ret : Return) (front : Bool) (o : Option (BitVec 12)) (pri : BitVec 2) (b : Bytes) :
    ∃ x, (outVia s ret front o pri b).vcp = { s.vcp with spiRx := x } := by
  unfold outVia
  split
  · exact ⟨_, replyQueue_vcp _ _ _⟩
  · exact ⟨_, replyQueue_vcp _ _ _⟩
  · unfold spiPush
    split
    · exact ⟨_, rfl⟩
    · exact ⟨_, rfl⟩
  · exact ⟨_, inbandOut_vcp _ _ _ _⟩

/-- The counters of the sequencer but those of its own transports. -/
theorem ctrVal_cVcp_ne (s : State) {i j : Nat} (apart : j ≠ i) : ctrVal (cVcp s i) 2 j = ctrVal s 2 j := ctrVal_count_ne s 1 (by omega)

theorem ctrVal_cMg (s : State) (b : Bool) (i n j : Nat) (low : i < 65536) (below : j < 65536) : ctrVal (cMg s b i n) 2 j = ctrVal s 2 j :=
  ctrVal_count_ne s n (by cases b <;> simp only [Bool.false_eq_true, if_false, if_true] <;> omega)

theorem replyQueue_ctr (s : State) (b : Bool) (p : OutPkt) {j : Nat} (below : j < 65536) : ctrVal (replyQueue s b p) 2 j = ctrVal s 2 j := by
  have sent := fun (f : MgSt → MgSt) => ctrVal_of_get (s := s) (t := onMg s b f) (by simp) 2 j
  unfold replyQueue
  dsimp only
  split
  · exact ctrVal_cMg _ _ _ _ _ (by decide) below
  · split
    · exact sent _
    · split
      · exact ctrVal_cMg _ _ _ _ _ (by decide) below
      · exact (ctrVal_cMg _ _ _ _ _ (by decide) below).trans (sent _)

theorem chanPut_ctr (s : State) (p : Nat) (pri : BitVec 2) (b : Bytes) {j : Nat} (nine : j ≠ 9) :
    ctrVal (chanPut s p pri b).1 2 j = ctrVal s 2 j := by
  have put := fun (f : PortSt → PortSt) => ctrVal_of_get (s := s) (t := onPort s p f) (by simp) 2 j
  unfold chanPut
  dsimp only
  split
  · exact put _
  · split
    · exact (ctrVal_cVcp_ne _ nine).trans (put _)
    · exact ctrVal_cVcp_ne _ nine

theorem outVia_ctr (s : State) (ret : Return) (front : Bool) (o : Option (BitVec 12)) (pri : BitVec 2) (b : Bytes) {j : Nat}
    (below : j < 65536) (five : j ≠ 5) (nine : j ≠ 9) : ctrVal (outVia s ret front o pri b) 2 j = ctrVal s 2 j := by
  unfold outVia
  split
  · exact replyQueue_ctr _ _ _ below
  · exact replyQueue_ctr _ _ _ below
  · unfold spiPush
    split
    · exact ctrVal_cVcp_ne _ five
    · rfl
  · unfold inbandOut
    split
    · split
      · exact chanPut_ctr _ _ _ _ nine
      · exact ctrVal_cVcp_ne _ nine
    · exact ctrVal_cVcp_ne _ nine

theorem answerBusy_facts (s : State) (q : Req) (op : BitVec 16) (rem : BitVec 16) :
    (∃ x, (answerBusy s q op 1 rem).vcp = { s.vcp with spiRx := x }) ∧ ctrVal (answerBusy s q op 1 rem) 2 0 = ctrVal s 2 0 ∧
      ctrVal (answerBusy s q op 1 rem) 2 1 = (ctrVal s 2 1 + 1) % 2 ^ 64 := by
  set u := cVcp { s with fresh := s.fresh + 1 } 1 with u_def
  have zero : ctrVal u 2 0 = ctrVal s 2 0 := ctrVal_cVcp_ne { s with fresh := s.fresh + 1 } (by decide)
  have one : ctrVal u 2 1 = (ctrVal s 2 1 + 1) % 2 ^ 64 := counted_count { s with fresh := s.fresh + 1 } 2 1
  have vcp : u.vcp = s.vcp := rfl
  unfold answerBusy
  rw [if_pos rfl, ← u_def]
  clear_value u
  rw [← zero, ← one, ← vcp]
  exact ⟨outVia_vcp _ _ _ _ _ _, outVia_ctr _ _ _ _ _ _ (by decide) (by decide) (by decide),
    outVia_ctr _ _ _ _ _ _ (by decide) (by decide) (by decide)⟩

/-- Every packet still queued is answered BUSY. -/
theorem allBusy_facts (l : List Queued) (s : State) (rem : BitVec 16) :
    (∃ x, (forEach l s fun t x => answerBusy t x.req x.op 1 rem).vcp = { s.vcp with spiRx := x }) ∧
      ctrVal (forEach l s fun t x => answerBusy t x.req x.op 1 rem) 2 0 = ctrVal s 2 0 ∧
      (ctrVal (forEach l s fun t x => answerBusy t x.req x.op 1 rem) 2 1 = (ctrVal s 2 1 + l.length) % 2 ^ 64 ∨ 2 ^ 64 ≤ ctrVal s 2 1) := by
  induction l generalizing s with
  | nil =>
    refine ⟨⟨_, rfl⟩, rfl, ?_⟩
    by_cases small : 2 ^ 64 ≤ ctrVal s 2 1
    · exact .inr small
    · exact .inl (Nat.mod_eq_of_lt (by simpa using small)).symm
  | cons y l ih =>
    obtain ⟨⟨x, vcp⟩, zero, one⟩ := answerBusy_facts s y.req y.op rem
    obtain ⟨⟨x', vcp'⟩, zero', one'⟩ := ih (answerBusy s y.req y.op 1 rem)
    refine ⟨⟨x', by rw [forEach_cons, vcp', vcp]⟩, zero'.trans zero, .inl ?_⟩
    rw [forEach_cons]
    rcases one' with one' | large
    · rw [one', one, List.length_cons]
      omega
    · rw [one] at large
      omega

/-! Acceptance (R262, R264). -/

/-- The run that an acceptance begins. -/
def begunRun (s : State) (x : Queued) : Run :=
  if x.op = 0x0B01 then { acceptedRun s x with verdict := commitVerdict s (acceptedRun s x) } else acceptedRun s x

/-- The state with it, the packets still queued answered. -/
def begunState (s : State) (x : Queued) : State :=
  forEach s.vcp.queue (cVcp (onVcp { s with fresh := s.fresh + 1 } (fun v => { v with queue := [], run := some (begunRun s x) })) 0)
    (fun t y => answerBusy t y.req y.op 1 (begunRun s x).est.1)

theorem begunRun_facts (s : State) (x : Queued) : (begunRun s x).req = x.req ∧ (begunRun s x).op = x.op ∧
    (begunRun s x).accept = s.sfp ∧ (begunRun s x).work = 0 ∧ (begunRun s x).reply = none := by
  unfold begunRun
  split <;> exact ⟨rfl, rfl, rfl, rfl, rfl⟩

theorem begunState_facts (s : State) (x : Queued) : (begunState s x).vcp.queue = [] ∧
    (begunState s x).vcp.run = some (begunRun s x) ∧ (begunState s x).vcp.replay = s.vcp.replay ∧
    ctrVal (begunState s x) 2 0 = (ctrVal s 2 0 + 1) % 2 ^ 64 ∧
    (ctrVal (begunState s x) 2 1 = (ctrVal s 2 1 + s.vcp.queue.length) % 2 ^ 64 ∨ 2 ^ 64 ≤ ctrVal s 2 1) := by
  set u := cVcp (onVcp { s with fresh := s.fresh + 1 } (fun v => { v with queue := [], run := some (begunRun s x) })) 0 with u_def
  have zero : ctrVal u 2 0 = (ctrVal s 2 0 + 1) % 2 ^ 64 :=
    counted_count (onVcp { s with fresh := s.fresh + 1 } (fun v => { v with queue := [], run := some (begunRun s x) })) 2 0
  have one : ctrVal u 2 1 = ctrVal s 2 1 :=
    ctrVal_cVcp_ne (onVcp { s with fresh := s.fresh + 1 } (fun v => { v with queue := [], run := some (begunRun s x) })) (by decide)
  obtain ⟨⟨rx, vcp⟩, zero', one'⟩ := allBusy_facts s.vcp.queue u (begunRun s x).est.1
  have is : begunState s x = forEach s.vcp.queue u (fun t y => answerBusy t y.req y.op 1 (begunRun s x).est.1) := rfl
  rw [one] at one'
  rw [is, vcp]
  exact ⟨rfl, rfl, rfl, zero'.trans zero, one'⟩

theorem acceptCmd_passes {s : State} {x : Queued} {y : ReplaySt} (taken : seqTake (replayOf s x.req.auth.toNat) x.req.seq = some y) :
    acceptCmd s x = if opDefined x.op.toNat then seqRecord (begunState s x) x.req.auth.toNat y
      else setReply (seqRecord (begunState s x) x.req.auth.toNat y) 7 0 [] := by
  have same : replayOf (begunState s x) x.req.auth.toNat = replayOf s x.req.auth.toNat :=
    replayOf_congr (begunState_facts s x).2.2.1 _
  have taken' : seqTake (replayOf (begunState s x) x.req.auth.toNat) x.req.seq = some y := by rw [same, taken]
  unfold acceptCmd
  dsimp only
  show (match seqTake (replayOf (begunState s x) x.req.auth.toNat) x.req.seq with | some y => _ | none => _) = _
  rw [taken']
  rfl

theorem acceptCmd_stale {s : State} {x : Queued} (stale : seqTake (replayOf s x.req.auth.toNat) x.req.seq = none) :
    acceptCmd s x = viaLimited (setReply (begunState s x) 6 0 (beBytes 4 (nextSeq (replayOf s x.req.auth.toNat)).toNat))
      x.req.ret.via 5 := by
  have same : replayOf (begunState s x) x.req.auth.toNat = replayOf s x.req.auth.toNat :=
    replayOf_congr (begunState_facts s x).2.2.1 _
  have stale' : seqTake (replayOf (begunState s x) x.req.auth.toNat) x.req.seq = none := by rw [same, stale]
  unfold acceptCmd
  dsimp only
  show (match seqTake (replayOf (begunState s x) x.req.auth.toNat) x.req.seq with
    | some y => _
    | none => viaLimited (setReply (begunState s x) 6 0 (beBytes 4 (nextSeq (replayOf (begunState s x) x.req.auth.toNat)).toNat))
        x.req.ret.via 5) = _
  rw [stale', same]

/-- Recording a number leaves the queue and the counters. -/
theorem seqRecord_vcp (s : State) (a : Nat) (y : ReplaySt) : (seqRecord s a y).vcp.queue = s.vcp.queue ∧
    (seqRecord s a y).vcp.run = s.vcp.run ∧ get .sage (seqRecord s a y) = get .sage s := by
  refine ⟨?_, ?_, by simp⟩
  · unfold seqRecord
    by_cases save : 65536 ≤ y.since <;> simp [save]
  · have kept : get .run (seqRecord s a y) = get .run s := by simp
    exact kept

theorem setReply_runs {s : State} {r : Run} (run : s.vcp.run = some r) (st d : Byte) (data : Bytes) :
    (setReply s st d data).vcp.run.map (fun y => (y.req, y.op, y.accept, y.work)) = some (r.req, r.op, r.accept, r.work) := by
  unfold setReply
  rw [run]
  rfl

theorem viaLimited_ctr (s : State) (v : Transport) {k j : Nat} (limited : mgLimIdx k < 65536) (below : j < 65536) :
    ctrVal (viaLimited s v k) 2 j = ctrVal s 2 j := by
  unfold viaLimited
  split
  · next b _ =>
    have sage : get .sage (mgWindow (cMg s b (mgLimIdx k) 1) b k 1) = get .sage (cMg s b (mgLimIdx k) 1) := by simp
    exact (ctrVal_of_get sage 2 j).trans (ctrVal_cMg _ _ _ _ _ limited below)
  · rfl

/-- What an acceptance leaves of the command front end. -/
theorem acceptCmd_facts (s : State) (x : Queued) : (acceptCmd s x).vcp.queue = [] ∧
    (acceptCmd s x).vcp.run.map (fun y => (y.req, y.op, y.accept, y.work)) = some (x.req, x.op, s.sfp, 0) ∧
    Counted s (acceptCmd s x) 2 0 ∧
    ((seqTake (replayOf s x.req.auth.toNat) x.req.seq).isSome = true →
      some (replayOf (acceptCmd s x) x.req.auth.toNat).last = (seqTake (replayOf s x.req.auth.toNat) x.req.seq).map (·.last) ∧
      (opDefined x.op.toNat = true → replyNow (acceptCmd s x) = none) ∧
      (opDefined x.op.toNat = false → Answers (acceptCmd s x) 7 0 [])) ∧
    (seqTake (replayOf s x.req.auth.toNat) x.req.seq = none →
      Answers (acceptCmd s x) 6 0 (beBytes 4 (nextSeq (replayOf s x.req.auth.toNat)).toNat) ∧
        (acceptCmd s x).vcp.replay = s.vcp.replay) ∧
    (ctrVal (acceptCmd s x) 2 1 = (ctrVal s 2 1 + s.vcp.queue.length) % 2 ^ 64 ∨ 2 ^ 64 ≤ ctrVal s 2 1) := by
  obtain ⟨queue, run, replay, zero, one⟩ := begunState_facts s x
  obtain ⟨req, op, acc, work, open_⟩ := begunRun_facts s x
  cases taken : seqTake (replayOf s x.req.auth.toNat) x.req.seq with
  | none =>
    rw [acceptCmd_stale taken]
    set v := setReply (begunState s x) 6 0 (beBytes 4 (nextSeq (replayOf s x.req.auth.toNat)).toNat) with v_def
    have answers : Answers v 6 0 (beBytes 4 (nextSeq (replayOf s x.req.auth.toNat)).toNat) := setReply_answers run _ _ _
    have front : (viaLimited v x.req.ret.via 5).vcp = v.vcp := viaLimited_vcp _ _ _
    obtain ⟨r', shape⟩ := setReply_shape (begunState s x) 6 0 (beBytes 4 (nextSeq (replayOf s x.req.auth.toNat)).toNat)
    have runs : v.vcp.run.map (fun y => (y.req, y.op, y.accept, y.work)) = some (x.req, x.op, s.sfp, 0) := by
      rw [v_def, setReply_runs run, ← req, ← op, ← acc, ← work]
    have ctr : ∀ j < 65536, ctrVal (viaLimited v x.req.ret.via 5) 2 j = ctrVal (begunState s x) 2 j := fun j below => by
      rw [viaLimited_ctr v x.req.ret.via (k := 5) (by decide) below, v_def]
      exact ctrVal_of_get (by simp) 2 j
    refine ⟨?_, ?_, (ctr 0 (by decide)).trans zero, fun is => absurd is (by simp), fun _ => ⟨?_, ?_⟩, ?_⟩
    · rw [front, v_def, shape]
      exact queue
    · rw [front]
      exact runs
    · rw [Answers, replyNow, front]
      exact answers
    · rw [front, v_def, shape]
      exact replay
    · rw [ctr 1 (by decide)]
      exact one
  | some y =>
    rw [acceptCmd_passes taken]
    set u := seqRecord (begunState s x) x.req.auth.toNat y with u_def
    obtain ⟨queue', run', sage⟩ := seqRecord_vcp (begunState s x) x.req.auth.toNat y
    rw [← u_def] at queue' run' sage
    have last : (replayOf u x.req.auth.toNat).last = y.last := by
      rw [u_def, replayOf_seqRecord, if_pos rfl]
      split <;> rfl
    have runs : u.vcp.run = some (begunRun s x) := run'.trans run
    have closed : opDefined x.op.toNat = true → replyNow u = none := fun _ => by rw [replyNow, runs]; exact open_
    by_cases defined : opDefined x.op.toNat = true
    · rw [if_pos defined]
      refine ⟨queue'.trans queue, ?_, ?_, fun _ => ⟨congrArg some last, closed, fun out => ?_⟩, nofun, ?_⟩
      · rw [runs, ← req, ← op, ← acc, ← work]
        rfl
      · rw [Counted, ctrVal_of_get sage, zero]
      · rw [defined] at out
        cases out
      · rw [ctrVal_of_get sage]
        exact one
    · rw [if_neg defined]
      obtain ⟨r', shape⟩ := setReply_shape u 7 0 []
      have sage' : get .sage (setReply u 7 0 []) = get .sage (begunState s x) := Eq.trans (by simp) sage
      refine ⟨?_, ?_, ?_, fun _ => ⟨?_, fun is => absurd is defined, fun _ => setReply_answers runs 7 0 []⟩, nofun, ?_⟩
      · rw [shape]
        exact queue'.trans queue
      · rw [setReply_runs runs, ← req, ← op, ← acc, ← work]
      · rw [Counted, ctrVal_of_get sage', zero]
      · rw [replayOf_congr (setReply_replay u 7 0 []), last]
        rfl
      · rw [ctrVal_of_get sage']
        exact one

/-- A dispatch tick with a packet whose key is the one it came under. -/
theorem dispatch_best {s : State} {q : Queued} (on : powered s = true) (tick : s.sfp.bi % 8192 = 0) (idle : busyNow s = none)
    (best : queueBest s.vcp.queue = some q) (key : (authOf s q.req.auth.toNat).gen = q.gen) :
    exec .dispatchTick s = .next (acceptCmd (onVcp s (fun v => { v with queue := delFirst (fun x => x == q) v.queue })) q) := by
  have due : (isTick s.sfp && (busyNow s).isNone) = true := by simp [isTick, tick, idle]
  refine congrArg Host.Outcome.next ((live_on on _).trans ?_)
  rw [dispatch, if_pos due, dispatchN]
  simp only [best]
  exact if_pos key

/-- Settles O44: the shared checks on every command's row, COMMIT's at its acceptance, and the dispatch tick. -/
theorem commandDispatch : Obligations.CommandDispatch := by
  unfold Obligations.CommandDispatch
  refine ⟨?_, fun q s st d fails => by rw [commitVerdict, fails], fun q s on => ⟨fun off => ?_, fun busy => ?_, fun tick idle best key => ?_⟩⟩
  · intro i op r q s code named h other soon n stops
    have stop : ∀ st d, checkCommand s q = some (st, d) → stops st d := fun st d fails => stops_row code named h other soon fails
    obtain rfl : q.op = op := h.2.2.2.2.1
    obtain rfl : q.req = r := h.2.2.2.1
    exact ⟨fun class_ => stop 4 1 (check_class class_), fun class_ =>
      ⟨fun holder low high long barred => stop 4 2 (check_holder class_ (holderCheck_entry holder ⟨low, high, long, barred⟩)),
        fun holder op long kind => stop 4 1 (check_holder class_ (holderCheck_kind holder op long kind)),
        fun free => ⟨fun standby barred => stop 2 0 (check_standby class_ free standby barred), fun leads =>
          ⟨fun wrong => stop 8 0x40 (check_length class_ free leads wrong), fun fits =>
            ⟨fun rescue barred => stop 4 9 (check_rescue class_ free leads fits rescue barred),
              fun calm guarded_ wrong => stop 0x0B 0 (check_confirm class_ free leads fits calm guarded_ wrong)⟩⟩⟩⟩⟩
  · exact congrArg Host.Outcome.next ((live_on on _).trans (if_neg (by simp [isTick, off])))
  · exact congrArg Host.Outcome.next ((live_on on _).trans (if_neg (by simp [Option.isSome_iff_ne_none.mp busy])))
  · obtain ⟨mem, top⟩ := queueBest_facts best
    set u := onVcp s (fun v => { v with queue := delFirst (fun x => x == q) v.queue }) with u_def
    obtain ⟨queue, run, counted, passes, stale, busy⟩ := acceptCmd_facts u q
    have length : u.vcp.queue.length = s.vcp.queue.length - 1 := delFirst_length mem
    rw [length] at busy
    have kept : ∀ f, f ∉ ([.ports, .mir, .vcp, .run, .mgA, .mgB, .sage, .flash, .fresh] : List Part) →
        get f (acceptCmd u q) = get f s := fun f out => by
      simp at out
      rw [acceptCmd_get u q (by simp [out]) (by simp [out]) (by simp [out]) (by simp [out]) (by simp [out]) (by simp [out])
        (by simp [out]) (by simp [out]) (by simp [out])]
      simp [u_def, out]
    refine ⟨mem, top, acceptCmd u q, dispatch_best on tick idle best key, queue, run, counted, passes, stale, busy,
      mapSt_ext (kept .map (by decide)) (kept .mapA (by decide)) (kept .mapB (by decide)) (kept .mapEcc (by decide))
        (kept .mapScrub (by decide)) (kept .mapSel (by decide)), kept .act (by decide), kept .stg (by decide),
      com_of_get (kept .com (by decide)) (kept .ents (by decide)) (kept .stageOpen (by decide)) (kept .suspect (by decide))
        (kept .frozenWr (by decide)) (kept .snaps (by decide)) (kept .cfgSave (by decide)) (kept .lastEpoch (by decide)),
      thy_of_get (kept .thy (by decide)) (kept .cands (by decide)), kept .grps (by decide)⟩

end Sys2Proof.Machine
end

section
/-! Reception (O45). -/

namespace Sys2Proof.Machine

open Sys2Proof

/-! Reception (R259, R261, R264 to R266, R269, R278). -/

/-- The packet that the front end takes, with its return and the state that has given it. -/
def takenPacket (ret : Return) (pkt : Bytes) (s : State) : (Return × Bytes) × State :=
  (waitingPacket s ret.via).getD ((ret, pkt), s)

theorem receive_row {s : State} (on : powered s = true) (ret : Return) (pkt : Bytes) : exec (.vcpPacketReceive ret pkt) s =
    .next (frontEnd (takenPacket ret pkt s).2 (takenPacket ret pkt s).1.1 (takenPacket ret pkt s).1.2) := by
  refine congrArg Host.Outcome.next ((live_on on _).trans ?_)
  unfold xVcpPacketReceive takenPacket
  cases waitingPacket s ret.via <;> rfl

section
variable {u : State} {ret : Return} {b : Bytes} (free : inbandBarred u ret.via = false)
include free

theorem frontEnd_malformed (bad : vcMalformed b = true) : frontEnd u ret b = viaLimited (cVcp u 4) ret.via 3 := by
  rw [frontEnd, free, bad]
  rfl

theorem frontEnd_event (sound : vcMalformed b = false) (event : vcEvent b = true) : frontEnd u ret b = u := by
  rw [frontEnd, free, sound, event]
  rfl

theorem frontEnd_command (sound : vcMalformed b = false) (event : vcEvent b = false) (reply : vcReply b = false) :
    frontEnd u ret b = handleCmd u ret b := by
  rw [frontEnd, free, sound, event, reply]
  rfl
end

/-- A packet that is counted at its transport and dropped. -/
theorem limited_facts (u : State) (v : Transport) {i k : Nat} (limited : mgLimIdx k < 65536) (below : i < 65536) :
    Counted u (viaLimited (cVcp u i) v k) 2 i ∧ (viaLimited (cVcp u i) v k).vcp = u.vcp ∧
      Only [.sage, .mgA, .mgB] u (viaLimited (cVcp u i) v k) := by
  refine ⟨?_, viaLimited_vcp _ _ _, fun f out => ?_⟩
  · rw [Counted, viaLimited_ctr _ _ limited below]
    exact counted_count u 2 i
  · simp at out
    simp [out]

/-- One that is only counted. -/
theorem counted_facts (u : State) (i : Nat) : Counted u (cVcp u i) 2 i ∧ (cVcp u i).vcp = u.vcp ∧ Only [.sage] u (cVcp u i) := by
  refine ⟨counted_count u 2 i, rfl, fun f out => ?_⟩
  simp at out
  simp [out]

/-- The authentication of a packet of an enabled slot (checks 3 to 5). -/
theorem deliver_open {u : State} {r : Req} {op : BitVec 16} (loaded : u.vcp.keysLoaded = true) (some_ : anyEnabled u = true)
    (enabled : (authOf u r.auth.toNat).enabled = true) (tagOk zeroTag : Bool) : deliver u r op tagOk zeroTag =
      if tagOk then arrive u { req := r, op := op, gen := (authOf u r.auth.toNat).gen } else badAuth u r op 0 true := by
  unfold deliver
  dsimp only
  rw [loaded, some_, enabled]
  cases tagOk <;> rfl

theorem handleCmd_mine {u : State} {b : Bytes} (ret : Return) (single : vcGrp b = false) (mine : vcDest b = u.pins.devid)
    (loaded : u.vcp.keysLoaded = true) (some_ : anyEnabled u = true) (enabled : (authOf u (vcAuth b).toNat).enabled = true) :
    handleCmd u ret b = if tagMatches (authOf u (vcAuth b).toNat).key b then
      arrive u { req := reqOf ret b, op := vcOp b, gen := (authOf u (vcAuth b).toNat).gen }
      else badAuth u (reqOf ret b) (vcOp b) 0 true := by
  unfold handleCmd
  dsimp only
  rw [single]
  exact (if_neg Bool.false_ne_true).trans ((if_pos mine).trans (deliver_open (r := reqOf ret b) loaded some_ enabled _ _))

theorem frontReply_vcp (s : State) (q : Req) (op : BitVec 16) (st d : Byte) (rem : BitVec 16) :
    ∃ x, (frontReply s q op st d rem).vcp = { s.vcp with spiRx := x } := outVia_vcp _ _ _ _ _ _

theorem frontReply_ctr (s : State) (q : Req) (op : BitVec 16) (st d : Byte) (rem : BitVec 16) {j : Nat} (below : j < 65536)
    (five : j ≠ 5) (nine : j ≠ 9) : ctrVal (frontReply s q op st d rem) 2 j = ctrVal s 2 j := outVia_ctr _ _ _ _ _ _ below five nine

/-- A packet with a wrong tag. -/
theorem badAuth_facts (u : State) (q : Req) (op : BitVec 16) (d : Byte) : ∃ t, badAuth u q op d true = t ∧ Counted u t 2 3 ∧
    t.vcp.queue = u.vcp.queue ∧ t.vcp.run = u.vcp.run ∧ t.vcp.replay = u.vcp.replay ∧
    t = { u with sage := t.sage, mgA := t.mgA, mgB := t.mgB, vcp := t.vcp, ports := t.ports } := by
  obtain ⟨counted, vcp, only⟩ := limited_facts u q.ret.via (i := 3) (k := 4) (by decide) (by decide)
  have row : badAuth u q op d true = if u.vcp.badAuthAt = some (frameOf u.sfp) then viaLimited (cVcp u 3) q.ret.via 4
      else frontReply (onVcp (viaLimited (cVcp u 3) q.ret.via 4) (fun v => { v with badAuthAt := some (frameOf u.sfp) })) q op 5 d 0 := rfl
  rw [row]
  generalize viaLimited (cVcp u 3) q.ret.via 4 = v at *
  split
  · have frame : Only [.sage, .mgA, .mgB, .vcp, .run, .ports] u v := only.mono (by simp)
    exact ⟨v, rfl, counted, by rw [vcp], by rw [vcp], by rw [vcp], frame.frame⟩
  · set w := onVcp v (fun x => { x with badAuthAt := some (frameOf u.sfp) }) with w_def
    obtain ⟨rx, sent⟩ := frontReply_vcp w q op 5 d 0
    have ctr := frontReply_ctr w q op 5 d 0 (j := 3) (by decide) (by decide) (by decide)
    have frame : Only [.sage, .mgA, .mgB, .vcp, .run, .ports] u (frontReply w q op 5 d 0) := fun f out => by
      simp at out
      have kept : get f (frontReply w q op 5 d 0) = get f v := by simp [w_def, out]
      exact kept.trans (only f (by simp [out]))
    have left : w.vcp = { u.vcp with badAuthAt := some (frameOf u.sfp) } := by
      rw [← vcp]
      rfl
    exact ⟨_, rfl, ctr.trans counted, by rw [sent, left], by rw [sent, left], by rw [sent, left], frame.frame⟩

/-- A packet that a busy sequencer answers. -/
theorem arriveBusy_facts {u : State} (q : Queued) (ready : u.phase = .ready) (running : u.seq.running = true)
    (busy : u.vcp.run.isSome = true) : ∃ t, arrive u q = t ∧ t.vcp.run = u.vcp.run ∧ t.vcp.queue = u.vcp.queue ∧
      Counted u t 2 (if (u.vcp.run.map (fun q => slowOp q.op)).getD false then 2 else 1) ∧
      t = { u with sage := t.sage, mgA := t.mgA, mgB := t.mgB, vcp := t.vcp, ports := t.ports, fresh := t.fresh } := by
  obtain ⟨r, run⟩ := Option.isSome_iff_exists.mp busy
  have now : busyNow u = some (if slowOp r.op then 0x0C else 1, runRemain u r) := by
    unfold busyNow
    rw [ready, running, run]
    rfl
  have row : arrive u q = frontReply (cVcp { u with fresh := u.fresh + 1 } (if slowOp r.op then 2 else 1)) q.req q.op
      (if slowOp r.op then 0x0C else 1) 0 (runRemain u r) := by
    unfold arrive answerBusy
    rw [now]
    cases slowOp r.op <;> rfl
  have which : (u.vcp.run.map (fun q => slowOp q.op)).getD false = slowOp r.op := by rw [run]; rfl
  rw [row, which]
  set i := if slowOp r.op then 2 else 1 with i_def
  have place : i = 1 ∨ i = 2 := by
    rw [i_def]
    cases slowOp r.op
    · exact .inl rfl
    · exact .inr rfl
  set w := cVcp { u with fresh := u.fresh + 1 } i with w_def
  generalize (if slowOp r.op then 0x0C else 1 : Byte) = st
  obtain ⟨rx, sent⟩ := frontReply_vcp w q.req q.op st 0 (runRemain u r)
  have ctr := frontReply_ctr w q.req q.op st 0 (runRemain u r) (j := i) (by omega) (by omega) (by omega)
  have counted : ctrVal w 2 i = (ctrVal u 2 i + 1) % 2 ^ 64 := counted_count { u with fresh := u.fresh + 1 } 2 i
  have frame : Only [.sage, .mgA, .mgB, .vcp, .run, .ports, .fresh] u (frontReply w q.req q.op st 0 (runRemain u r)) := fun f out => by
    simp at out
    have kept : get f (frontReply w q.req q.op st 0 (runRemain u r)) = get f { u with fresh := u.fresh + 1 } := by simp [w_def, out]
    refine kept.trans ?_
    cases f <;> simp at out <;> rfl
  have left : w.vcp = u.vcp := rfl
  exact ⟨_, rfl, by rw [sent, left], by rw [sent, left], ctr.trans counted, frame.frame⟩

/-! Forwarding (R267, R268, R271). -/

theorem handleCmd_other {u : State} {b : Bytes} (ret : Return) (single : vcGrp b = false) (other : vcDest b ≠ u.pins.devid) :
    handleCmd u ret b = (forwardCmd u ret b [routeOf u (vcDest b)] false).1 := by
  unfold handleCmd
  dsimp only
  rw [single]
  exact (if_neg Bool.false_ne_true).trans (if_neg other)

section
variable {u : State} {b : Bytes} {k : Nat} (ret : Return) (single : vcGrp b = false) (lines : holdsLines u = true)
include single lines

theorem forward_noHop (none_ : vcHop b = 0) : (forwardCmd u ret b [k] false).1 = cVcp u 10 := by
  unfold forwardCmd
  rw [lines, if_neg (by decide), if_pos none_]
  rfl

theorem forward_noRoute (hop : vcHop b ≠ 0) (closed : relayPort u k = false) : (forwardCmd u ret b [k] false).1 = cVcp u 9 := by
  unfold forwardCmd
  rw [lines, if_neg (by decide), if_neg hop]
  simp only [List.filter_cons, closed, Bool.false_eq_true, if_false, List.filter_nil, List.isEmpty_nil, if_true, single]

/-- The relay table with the command's entry. -/
def relayed (u : State) (ret : Return) (b : Bytes) : State :=
  onVcp u (fun v => { v with relay := v.relay ++ [{ auth := vcAuth b, seq := vcSeq b, ret := ret, at_ := u.sfp }] })

theorem forward_relays (hop : vcHop b ≠ 0) (open_ : relayPort u k = true) (outside : viaInband ret.via = false)
    (room : u.vcp.relay.length < 64) : (forwardCmd u ret b [k] false).1 =
      relayOn (relayed u ret b) [k] (vcPri b) (vcTransit b (some u.pins.devid)) := by
  unfold forwardCmd
  rw [lines, if_neg (by decide), if_neg hop]
  simp only [List.filter_cons, open_, if_true, List.filter_nil, List.isEmpty_cons, Bool.false_eq_true, if_false, outside,
    if_neg (Nat.not_le_of_lt room)]
  rfl
end

/-- A packet that a channel with room takes. -/
theorem relayOn_room {v : State} {p : Nat} (room : (portOf v p).txq.length + b2n (portOf v p).txNow.isSome < 8) (pri : BitVec 2)
    (b : Bytes) : relayOn v [p] pri b =
      cVcp (onPort v p (fun x => { x with txq := (portOf v p).txq ++ [{ pri := pri, bytes := b }] })) 11 := by
  have put : chanPut v p pri b = (onPort v p (fun x => { x with txq := (portOf v p).txq ++ [{ pri := pri, bytes := b }] }), true) :=
    if_pos room
  show (if (chanPut v p pri b).2 then cVcp (chanPut v p pri b).1 11 else (chanPut v p pri b).1) = _
  rw [put]
  rfl

theorem relay_facts {u : State} {p : Nat} (ret : Return) (b : Bytes) (pri : BitVec 2) (bytes : Bytes)
    (room : (portOf u p).txq.length + b2n (portOf u p).txNow.isSome < 8) : ∃ t, relayOn (relayed u ret b) [p] pri bytes = t ∧
      Counted u t 2 11 ∧ t.vcp.relay = u.vcp.relay ++ [{ auth := vcAuth b, seq := vcSeq b, ret := ret, at_ := u.sfp }] ∧
      (portOf t p).txq = (portOf u p).txq ++ [{ pri := pri, bytes := bytes }] ∧
      t = { u with vcp := t.vcp, ports := t.ports, sage := t.sage } := by
  rw [relayOn_room (v := relayed u ret b) room]
  set w := onPort (relayed u ret b) p (fun x => { x with txq := (portOf (relayed u ret b) p).txq ++ [{ pri := pri, bytes := bytes }] })
    with w_def
  have port : portOf w p = _ := portOf_onPort_same (relayed u ret b) p _
  have counted : ctrVal (cVcp w 11) 2 11 = (ctrVal w 2 11 + 1) % 2 ^ 64 := counted_count w 2 11
  have frame : Only [.vcp, .run, .ports, .sage] u (cVcp w 11) := fun f out => by
    simp at out
    simp [w_def, relayed, out]
  refine ⟨_, rfl, counted, rfl, ?_, frame.frame⟩
  show (portOf w p).txq = _
  rw [port]
  rfl

/-- Reception of a packet on the transport `ret.via` by the state u. -/
theorem reception_rows (u : State) (ret : Return) (b : Bytes) (p : Fin 128) (free : inbandBarred u ret.via = false) :
    let mine := vcGrp b = false ∧ vcDest b = u.pins.devid
    let only := fun (t : State) => t = { u with sage := t.sage, mgA := t.mgA, mgB := t.mgB, vcp := t.vcp }
    (vcMalformed b = true → ∃ t, frontEnd u ret b = t ∧ Counted u t 2 4 ∧ t.vcp = u.vcp ∧ only t) ∧
    (vcMalformed b = false → vcEvent b = true → frontEnd u ret b = u) ∧
    (vcMalformed b = false → vcEvent b = false → vcReply b = false →
      (mine → u.vcp.keysLoaded = true → anyEnabled u = true → (authOf u (vcAuth b).toNat).enabled = true →
        (tagMatches (authOf u (vcAuth b).toNat).key b = false →
          ∃ t, frontEnd u ret b = t ∧ Counted u t 2 3 ∧ t.vcp.queue = u.vcp.queue
            ∧ t.vcp.run = u.vcp.run ∧ t.vcp.replay = u.vcp.replay
            ∧ t = { u with sage := t.sage, mgA := t.mgA, mgB := t.mgB, vcp := t.vcp, ports := t.ports }) ∧
        (tagMatches (authOf u (vcAuth b).toNat).key b = true → busyNow u = none → u.vcp.queue.length < 8 →
          ∃ t, frontEnd u ret b = t
            ∧ t = { u with vcp := { u.vcp with queue := u.vcp.queue ++ [{ req := reqOf ret b, op := vcOp b
                                                                          gen := (authOf u (vcAuth b).toNat).gen }] } }) ∧
        (tagMatches (authOf u (vcAuth b).toNat).key b = true → u.phase = .ready → u.seq.running = true → u.vcp.run.isSome = true →
          ∃ t, frontEnd u ret b = t ∧ t.vcp.run = u.vcp.run ∧ t.vcp.queue = u.vcp.queue
            ∧ Counted u t 2 (if (u.vcp.run.map (fun q => slowOp q.op)).getD false then 2 else 1)
            ∧ t = { u with sage := t.sage, mgA := t.mgA, mgB := t.mgB, vcp := t.vcp, ports := t.ports, fresh := t.fresh })) ∧
      (vcGrp b = true → dupHeld u b = true →
        ∃ t, frontEnd u ret b = t ∧ Counted u t 2 8 ∧ t.vcp = u.vcp ∧ only t) ∧
      (vcGrp b = false → vcDest b ≠ u.pins.devid → holdsLines u = true →
        (vcHop b = 0 → ∃ t, frontEnd u ret b = t ∧ Counted u t 2 10 ∧ t.vcp = u.vcp ∧ only t) ∧
        (vcHop b ≠ 0 → relayPort u (routeOf u (vcDest b)) = false →
          ∃ t, frontEnd u ret b = t ∧ Counted u t 2 9 ∧ t.vcp = u.vcp ∧ only t) ∧
        (vcHop b ≠ 0 → relayPort u (routeOf u (vcDest b)) = true → routeOf u (vcDest b) = p → viaInband ret.via = false →
          u.vcp.relay.length < 64 → (portOf u p).txq.length + b2n (portOf u p).txNow.isSome < 8 →
          ∃ t, frontEnd u ret b = t ∧ Counted u t 2 11
            ∧ t.vcp.relay = u.vcp.relay ++ [{ auth := vcAuth b, seq := vcSeq b, ret := ret, at_ := u.sfp }]
            ∧ (portOf t p).txq = (portOf u p).txq
                ++ [{ pri := vcPri b, bytes := slice b 0 1 ++ [b.getD 1 0 - 1] ++ slice b 2 2
                                               ++ beBytes 2 (0x8000 + u.pins.devid.toNat) ++ b.drop 6 }]
            ∧ t = { u with vcp := t.vcp, ports := t.ports, sage := t.sage }))) := by
  intro mine only
  have once : ∀ i, ∃ t, cVcp u i = t ∧ Counted u t 2 i ∧ t.vcp = u.vcp ∧ only t := fun i => by
    obtain ⟨counted, vcp, only⟩ := counted_facts u i
    have frame : Only [.sage, .mgA, .mgB, .vcp, .run] u (cVcp u i) := only.mono (by simp)
    exact ⟨_, rfl, counted, vcp, frame.frame⟩
  refine ⟨fun bad => ?_, fun sound event => frontEnd_event free sound event, fun sound event reply => ?_⟩
  · obtain ⟨counted, vcp, only⟩ := limited_facts u ret.via (i := 4) (k := 3) (by decide) (by decide)
    have frame : Only [.sage, .mgA, .mgB, .vcp, .run] u (viaLimited (cVcp u 4) ret.via 3) := only.mono (by simp)
    exact ⟨_, frontEnd_malformed free bad, counted, vcp, frame.frame⟩
  · rw [frontEnd_command free sound event reply]
    refine ⟨fun ⟨single, dest⟩ loaded some_ enabled => ?_, fun group held => ?_, fun single other lines => ?_⟩
    · rw [handleCmd_mine ret single dest loaded some_ enabled]
      refine ⟨fun wrong => ?_, fun right idle room => ?_, fun right ready running busy => ?_⟩
      · rw [wrong]
        exact badAuth_facts u (reqOf ret b) (vcOp b) 0
      · rw [right]
        refine ⟨_, rfl, ?_⟩
        rw [if_pos rfl, arrive, idle]
        exact if_pos room
      · rw [right]
        exact arriveBusy_facts _ ready running busy
    · have row : handleCmd u ret b = cVcp u 8 := by
        unfold handleCmd
        dsimp only
        rw [if_pos group, if_pos held]
      rw [row]
      exact once 8
    · rw [handleCmd_other ret single other]
      refine ⟨fun none_ => ?_, fun hop closed => ?_, fun hop open_ route outside room space => ?_⟩
      · rw [forward_noHop ret single lines none_]
        exact once 10
      · rw [forward_noRoute ret single lines hop closed]
        exact once 9
      · rw [route] at open_ ⊢
        rw [forward_relays ret single lines hop open_ outside room]
        exact relay_facts ret b (vcPri b) _ space

/-! Chunks of the management channel (R113, R115). -/

section
variable {s : State} {p : Fin 128} {o4 : List Block} {o7 : Block} (on : powered s = true) (trunk : isTrunk s p = true)
  (aligned : inFrame (portOf s p).trunk = true)
include on trunk aligned

theorem chunk_row : exec (.mgmtChunkReceive p o4 o7) s = .next
    (if (rxChunk s p o4).1 && o7Good (rxChunk s p o4).2 (rxOverhead s p (portOf s p).txO7 o7) then chunkTake s p (rxChunk s p o4).2
      else mgmtDiscard s p) := by
  refine congrArg Host.Outcome.next ((live_on on _).trans ?_)
  exact if_pos (by rw [trunk, aligned]; rfl)
end

/-- A chunk joins the packet in reassembly, or ends it. -/
def chunkJoins (s : State) (p : Fin 128) (h : Byte) (b : Bytes) : State :=
  if chunkEop h then frontEnd (onTrunk s p (fun x => { x with reasm := none })) { via := .inband p } b
  else onTrunk s p (fun x => { x with reasm := some b })

theorem chunkTake_first {s : State} {p : Fin 128} {chunk : Bytes} (fits : bits (chunk.getD 0 0) 4 0 ≤ 20)
    (first : bit (chunk.getD 0 0) 7 = true) (none_ : (portOf s p).trunk.reasm = none) :
    chunkTake s p chunk = chunkJoins s p (chunk.getD 0 0) (slice chunk 1 (bits (chunk.getD 0 0) 4 0)) := by
  have calm : mgmtDiscard s p = s := if_neg (by rw [none_]; exact Bool.false_ne_true)
  unfold chunkTake
  refine (if_neg (Nat.not_lt_of_le fits)).trans ((if_pos first).trans ?_)
  rw [calm]
  rfl

theorem chunkTake_next {s : State} {p : Fin 128} {chunk got : Bytes} (fits : bits (chunk.getD 0 0) 4 0 ≤ 20)
    (next : bit (chunk.getD 0 0) 7 = false) (some_ : (portOf s p).trunk.reasm = some got)
    (whole : bits (chunk.getD 0 0) 4 0 = 20 ∨ bit (chunk.getD 0 0) 6 = true) (room : got.length + bits (chunk.getD 0 0) 4 0 ≤ 2048) :
    chunkTake s p chunk = chunkJoins s p (chunk.getD 0 0) (got ++ slice chunk 1 (bits (chunk.getD 0 0) 4 0)) := by
  have joins : ¬ (chunkLen (chunk.getD 0 0) ≠ 20 ∧ chunkEop (chunk.getD 0 0) = false) := fun ⟨short, more⟩ => by
    rcases whole with full | last
    · exact short full
    · exact Bool.false_ne_true (more.symm.trans last)
  unfold chunkTake
  dsimp only
  rw [if_neg (show ¬ 20 < chunkLen (chunk.getD 0 0) from Nat.not_lt_of_le fits), if_neg (show ¬ chunkSop (chunk.getD 0 0) = true by rw [chunkSop, next]; exact Bool.false_ne_true), some_]
  exact (if_neg joins).trans (if_neg (Nat.not_lt_of_le room))

theorem chunkJoins_more {s : State} {p : Fin 128} {h : Byte} (more : bit h 6 = false) (b : Bytes) : ∃ t, chunkJoins s p h b = t ∧
    (portOf t p).trunk.reasm = some b ∧ t = { s with ports := t.ports } := by
  have row : chunkJoins s p h b = onTrunk s p (fun x => { x with reasm := some b }) :=
    if_neg (by rw [chunkEop, more]; exact Bool.false_ne_true)
  rw [row]
  refine ⟨_, rfl, ?_, rfl⟩
  rw [portOf_onTrunk_same]

theorem chunkJoins_ends {s : State} (on : powered s = true) {p : Fin 128} {h : Byte} (last : bit h 6 = true) (b : Bytes) :
    Host.Outcome.next (chunkJoins s p h b) =
      exec (.vcpPacketReceive { via := .inband p } b) (onTrunk s p (fun x => { x with reasm := none })) := by
  have row : chunkJoins s p h b = frontEnd (onTrunk s p (fun x => { x with reasm := none })) { via := .inband p } b := if_pos last
  rw [row]
  exact (receive_row (s := onTrunk s p (fun x => { x with reasm := none })) on { via := .inband p } b).symm

theorem mgmtDiscard_facts {s : State} {p : Fin 128} (some_ : (portOf s p).trunk.reasm.isSome = true) : ∃ t, mgmtDiscard s p = t ∧
    (portOf t p).trunk.reasm = none ∧ Counted s t (0x100 + p) 28 ∧ t = { s with ports := t.ports, sage := t.sage } := by
  have row : mgmtDiscard s p = cPort (onTrunk s p (fun t => { t with reasm := none })) p 28 1 := if_pos some_
  have gone := portOf_mgmtDiscard_same s p
  have frame : Only [.ports, .sage] s (mgmtDiscard s p) := fun f out => by
    simp at out
    simp [out]
  refine ⟨_, rfl, gone, ?_, frame.frame⟩
  rw [row]
  exact counted_count (onTrunk s p (fun t => { t with reasm := none })) (0x100 + p) 28

/-! The tables and the SPI buffer (R268, R269, R438). -/

theorem relayExpire_row {s : State} (on : powered s = true) {i : Fin 64} {d : RelayEnt} (inside : i < s.vcp.relay.length) :
    (15625000000 ≤ sfpDist (s.vcp.relay.getD i d).at_ s.sfp →
      exec (.relayEntryExpire i) s = .next { s with vcp := { s.vcp with relay := s.vcp.relay.eraseIdx i } }) ∧
    (sfpDist (s.vcp.relay.getD i d).at_ s.sfp < 15625000000 → exec (.relayEntryExpire i) s = .next s) := by
  have here : s.vcp.relay[i.val]? = some (s.vcp.relay.getD i d) := by
    rw [List.getD_eq_getElem?_getD, List.getElem?_eq_getElem inside]
    rfl
  have row : xRelayEntryExpire i s = if relayLife ≤ sfpDist (s.vcp.relay.getD i d).at_ s.sfp
      then onVcp s (fun v => { v with relay := v.relay.eraseIdx i }) else s := by
    unfold xRelayEntryExpire
    rw [here]
  generalize (s.vcp.relay.getD i d).at_ = a at *
  exact ⟨fun old => congrArg Host.Outcome.next ((live_on on _).trans (row.trans (if_pos old))),
    fun young => congrArg Host.Outcome.next ((live_on on _).trans (row.trans (if_neg (not_le.mpr young))))⟩

theorem dupExpire_row {s : State} (on : powered s = true) {i : Fin 64} {d : DupEnt} (inside : i < s.vcp.dup.length) :
    (3125000000 ≤ sfpDist (s.vcp.dup.getD i d).at_ s.sfp →
      exec (.dupMemoryExpire i) s = .next { s with vcp := { s.vcp with dup := s.vcp.dup.eraseIdx i } }) ∧
    (sfpDist (s.vcp.dup.getD i d).at_ s.sfp < 3125000000 → exec (.dupMemoryExpire i) s = .next s) := by
  have here : s.vcp.dup[i.val]? = some (s.vcp.dup.getD i d) := by
    rw [List.getD_eq_getElem?_getD, List.getElem?_eq_getElem inside]
    rfl
  have row : xDupMemoryExpire i s = if dupLife ≤ sfpDist (s.vcp.dup.getD i d).at_ s.sfp
      then onVcp s (fun v => { v with dup := v.dup.eraseIdx i }) else s := by
    unfold xDupMemoryExpire
    rw [here]
  generalize (s.vcp.dup.getD i d).at_ = a at *
  exact ⟨fun old => congrArg Host.Outcome.next ((live_on on _).trans (row.trans (if_pos old))),
    fun young => congrArg Host.Outcome.next ((live_on on _).trans (row.trans (if_neg (not_le.mpr young))))⟩

theorem pktWrite_row {s : State} (on : powered s = true) (n : Nat) (b : Bytes) :
    (s.vcp.spiBuf = none → n = b.length → n ≤ 1500 →
      exec (.pktWrite n b) s = .next { s with vcp := { s.vcp with spiBuf := some b, spiOut := [] } }) ∧
    ((s.vcp.spiBuf.isSome = true ∨ n ≠ b.length ∨ 1500 < n) →
      exec (.pktWrite n b) s = .next { s with vcp := { s.vcp with spiOverrun := true, spiOut := [] } }) := by
  refine ⟨fun free exact_ short => congrArg Host.Outcome.next ((live_on on _).trans (if_neg ?_)),
    fun refused => congrArg Host.Outcome.next ((live_on on _).trans (if_pos ?_))⟩
  · simp [free, ← exact_, Nat.not_lt_of_le short]
  · simpa [or_assoc] using refused

/-- Settles O45: reception by the packet, chunks by their flags, and the tables' expiry. -/
theorem commandArrival : Obligations.CommandArrival := by
  unfold Obligations.CommandArrival
  refine ⟨?_, ?_⟩
  · intro ret pkt p s on w via b u mine only open_ free
    have row := receive_row on ret pkt
    obtain ⟨bad, event, command⟩ := reception_rows u w.1.1 b p free
    have same : exec (.vcpPacketReceive ret pkt) s = .next (frontEnd u w.1.1 b) := row
    rw [same]
    simp only [Host.Outcome.next.injEq]
    exact ⟨bad, event, command⟩
  · intro p o4 b o7 i n s on chunk good h part got freed
    refine ⟨fun trunk aligned => ?_, fun inside => relayExpire_row on inside, fun inside => dupExpire_row on inside,
      pktWrite_row on n b⟩
    have row := chunk_row (o4 := o4) (o7 := o7) on trunk aligned
    refine ⟨fun sound fits => ?_, fun wrong some_ => ?_⟩
    · have taken : exec (.mgmtChunkReceive p o4 o7) s = .next (chunkTake s p chunk) :=
        row.trans (congrArg Host.Outcome.next (if_pos sound))
      refine ⟨fun first more none_ => ?_, fun first last none_ => ?_, fun next more full some_ room => ?_, fun next last some_ room => ?_⟩
      · obtain ⟨t, is, facts⟩ := chunkJoins_more (s := s) (p := p) more part
        exact ⟨t, taken.trans (congrArg Host.Outcome.next ((chunkTake_first fits first none_).trans is)), facts⟩
      · exact taken.trans ((congrArg Host.Outcome.next (chunkTake_first fits first none_)).trans (chunkJoins_ends on last part))
      · obtain ⟨t, is, facts⟩ := chunkJoins_more (s := s) (p := p) more (got ++ part)
        have joined := chunkTake_next fits next some_ (.inl full) (by rw [full]; exact room)
        exact ⟨t, taken.trans (congrArg Host.Outcome.next (joined.trans is)), facts⟩
      · have joined := chunkTake_next fits next some_ (.inr last) room
        exact taken.trans ((congrArg Host.Outcome.next joined).trans (chunkJoins_ends on last (got ++ part)))
    · have dropped : exec (.mgmtChunkReceive p o4 o7) s = .next (mgmtDiscard s p) :=
        row.trans (congrArg Host.Outcome.next (if_neg (by
          rw [show ((rxChunk s p o4).1 && o7Good (rxChunk s p o4).2 (rxOverhead s p (portOf s p).txO7 o7)) = false
            from wrong]
          exact Bool.false_ne_true)))
      obtain ⟨t, is, facts⟩ := mgmtDiscard_facts some_
      exact ⟨t, dropped.trans (congrArg Host.Outcome.next is), facts⟩

end Sys2Proof.Machine
end

section
/-! Departure: completion, replies, events, channel packets and the host's SPI (O46). -/

namespace Sys2Proof.Machine

open Sys2Proof

/-! A management port: its state, its counters and the store of a packet. -/

@[simp] theorem mgOf_onMg_same (s : State) (b : Bool) (f : MgSt → MgSt) : mgOf (onMg s b f) b = f (mgOf s b) := by
  cases b <;> rfl

@[simp] theorem mgOf_onMg_not (s : State) (b : Bool) (f : MgSt → MgSt) : mgOf (onMg s b f) (!b) = mgOf s (!b) := by
  cases b <;> rfl

@[simp] theorem mgOf_cMg (s : State) (b m : Bool) (i n : Nat) : mgOf (cMg s b i n) m = mgOf s m := rfl

theorem mgOf_of_get {s t : State} (a : get .mgA t = get .mgA s) (b : get .mgB t = get .mgB s) (m : Bool) : mgOf t m = mgOf s m := by
  cases m
  · exact a
  · exact b

@[simp] theorem mgOf_trace (s : State) (c u o : Nat) (d : Bytes) (m : Bool) : mgOf (trace s c u o d) m = mgOf s m :=
  mgOf_of_get (by simp) (by simp) m

@[simp] theorem mgOf_sticky (s : State) (a : Nat) (w : Word) (m : Bool) : mgOf (sticky s a w) m = mgOf s m := by
  cases m <;> rfl

/-- The block of counters of a management port. -/
abbrev mgBlk (b : Bool) : Nat := if b then 0xA else 9

theorem ctrVal_cMg_one (s : State) (b : Bool) (i : Nat) : ctrVal (cMg s b i 1) (mgBlk b) i = (ctrVal s (mgBlk b) i + 1) % 2 ^ 64 :=
  counted_count s (mgBlk b) i

theorem ctrVal_cMg_ne (s : State) (b : Bool) {i j : Nat} (n : Nat) (apart : j ≠ i) :
    ctrVal (cMg s b i n) (mgBlk b) j = ctrVal s (mgBlk b) j :=
  ctrVal_count_ne s n (by simpa [mgBlk] using apart)

@[simp] theorem ctrVal_onMg (s : State) (b : Bool) (f : MgSt → MgSt) (k i : Nat) : ctrVal (onMg s b f) k i = ctrVal s k i :=
  ctrVal_of_get (by simp) k i

theorem ctrVal_trace_mg (s : State) (c u o : Nat) (d : Bytes) (b : Bool) {i : Nat} (low : i < 65536) :
    ctrVal (trace s c u o d) (mgBlk b) i = ctrVal s (mgBlk b) i := by
  cases b
  · exact ctrVal_trace s c u o d (b := 9) (by omega) (by omega)
  · exact ctrVal_trace s c u o d (b := 0xA) (by omega) (by omega)

theorem count_events (s : State) (b i n : Nat) : (count s b i n).sage.events = s.sage.events := (sageCount_keeps _ _ _ _ _ _).2.1

/-- The state with the next free value drawn. -/
def drew (s : State) : State := { s with fresh := s.fresh + 1 }

@[simp] theorem drew_get {f : Part} (s : State) (fresh : f ≠ .fresh) : get f (drew s) = get f s := by
  cases f
  case fresh => exact absurd rfl fresh
  all_goals rfl

@[simp] theorem mgOf_drew (s : State) (b : Bool) : mgOf (drew s) b = mgOf s b := rfl

@[simp] theorem ctrVal_drew (s : State) (k i : Nat) : ctrVal (drew s) k i = ctrVal s k i := rfl

/-- A packet finds its place in a scratchpad that is on. -/
theorem dmaPut_on {s : State} (on : ∀ k : Fin 8, bankSt s 1 k = .on) : dmaPut s = (drew s, true) := by
  have inside : dmaOff s / 32768 < 8 := by
    unfold dmaOff
    omega
  have bank : tget BankSt.on s.mem.scratch (dmaOff s / 32768) = .on := on ⟨_, inside⟩
  unfold dmaPut
  dsimp only
  rw [if_pos bank]
  rfl

theorem dmaTake_on {s : State} (on : ∀ k : Fin 8, bankSt s 1 k = .on) (sound : s.mem.ecc = []) (n : Nat) :
    dmaTake s n = (drew s, true) := by
  unfold dmaTake
  dsimp only
  rw [dmaPut_on on, sound]
  rfl

/-- A frame goes out on a port. -/
theorem mgTransmit_facts (s : State) (b : Bool) (f : Bytes) {k : Nat} (one : k ≠ 14) (two : k ≠ 15) :
    mgOf (mgTransmit s b f k) b = { mgOf s b with lastTx := f, octTx := (mgOf s b).octTx + f.length } ∧
    mgOf (mgTransmit s b f k) (!b) = mgOf s (!b) ∧ Counted s (mgTransmit s b f k) (mgBlk b) 14 ∧
    Counted s (mgTransmit s b f k) (mgBlk b) k ∧ Only [.mgA, .mgB, .sage] s (mgTransmit s b f k) := by
  unfold mgTransmit
  refine ⟨by rw [mgOf_cMg, mgOf_cMg, mgOf_cMg, mgOf_onMg_same], by rw [mgOf_cMg, mgOf_cMg, mgOf_cMg, mgOf_onMg_not], ?_, ?_,
    fun g out => ?_⟩
  · show ctrVal _ _ _ = _
    rw [ctrVal_cMg_ne _ _ _ (Ne.symm one), ctrVal_cMg_ne _ _ _ (by decide), ctrVal_cMg_one, ctrVal_onMg]
  · show ctrVal _ _ _ = _
    rw [ctrVal_cMg_one, ctrVal_cMg_ne _ _ _ two, ctrVal_cMg_ne _ _ _ one, ctrVal_onMg]
  · simp at out
    simp [out]

/-! The end of a command: its reply, its latency record and what it leaves. -/

theorem setStageBits_com (s : State) (o u : BitVec 8) : (setStageBits s o u).com = { s.com with stageOpen := o, suspect := u } := by
  have mirrored := fun r => com_of_get (s := onCom s (fun c => { c with stageOpen := o, suspect := u }))
    (t := mirror (onCom s (fun c => { c with stageOpen := o, suspect := u })) r) (by simp) (by simp) (by simp) (by simp)
    (by simp) (by simp) (by simp) (by simp)
  unfold setStageBits
  dsimp only
  split
  · rfl
  · exact mirrored _

/-- The latency record of a command: first of its log, counted. -/
theorem latPush_facts (s : State) (r : LatRec) : (latPush s r).vcp = { s.vcp with latlog := (r :: s.vcp.latlog).take 1024 } ∧
    Counted s (latPush s r) 8 6 ∧ ∀ b i, b * 65536 + i ≠ 8 * 65536 + 6 → ctrVal (latPush s r) b i = ctrVal s b i := by
  set u := cSage (onVcp s (fun v => { v with latlog := (r :: v.latlog).take 1024 })) 6 with u_def
  have counted : Counted s u 8 6 := counted_count (onVcp s (fun v => { v with latlog := (r :: v.latlog).take 1024 })) 8 6
  have others : ∀ b i, b * 65536 + i ≠ 8 * 65536 + 6 → ctrVal u b i = ctrVal s b i := fun b i apart =>
    ctrVal_count_ne (onVcp s (fun v => { v with latlog := (r :: v.latlog).take 1024 })) 1 apart
  unfold latPush
  rw [← u_def]
  dsimp only
  split
  · exact ⟨rfl, counted, others⟩
  · exact ⟨rfl, counted, others⟩

theorem endAct_pos {s t : State} (pos : t.sfp = s.sfp) (e : EndAct) : (endAct t e).2 = (endAct s e).2 := by
  cases e <;> simp [endAct, pos]

theorem endOf_pos {s t : State} (pos : t.sfp = s.sfp) (q : Run) : (endOf t q).2 = (endOf s q).2 := by
  unfold endOf
  split
  · exact endAct_pos pos _
  · rfl

theorem replyBytes_of_pins {s t : State} (pins : t.pins = s.pins) (r : Reply) : replyBytes t r = replyBytes s r := by
  simp only [replyBytes, replyBody, pins]

/-- The sequencer with STAGE_OPEN cleared and no command in execution. -/
def idled (s : State) : State := setStageBits (onVcp s (fun v => { v with run := none })) 0 s.com.suspect

@[simp] theorem idled_get {f : Part} (s : State) (stageOpen : f ≠ .stageOpen) (mir : f ≠ .mir) (run : f ≠ .run) :
    get f (idled s) = get f s := by
  by_cases suspect : f = .suspect
  · subst suspect
    show (idled s).com.suspect = s.com.suspect
    rw [idled, setStageBits_com]
  · simp [idled, stageOpen, suspect, mir, run]

/-- The reply of a command goes out from the sequencer that has idled. -/
theorem replied_out (s : State) (q : Run) (a : Reply) : replied s q a =
    outVia (idled s) a.req.ret a.front a.req.origin a.req.pri (replyBytes s { a with data := (endOf s q).2 ++ a.data }) := by
  have pos : (idled s).sfp = s.sfp := by
    have kept : get .sfp (idled s) = get .sfp s := by simp
    exact kept
  have pins : (idled s).pins = s.pins := by
    have kept : get .pins (idled s) = get .pins s := by simp
    exact kept
  show sendReply (idled s) { a with data := (endOf (idled s) q).2 ++ a.data } = _
  rw [endOf_pos pos, sendReply, replyBytes_of_pins pins]

theorem outVia_sage6 (s : State) (ret : Return) (front : Bool) (o : Option (BitVec 12)) (pri : BitVec 2) (b : Bytes) :
    ctrVal (outVia s ret front o pri b) 8 6 = ctrVal s 8 6 := by
  have vcp := fun (u : State) (i : Nat) (low : i < 65536) => ctrVal_count_ne (b := 2) (i := i) (b' := 8) (i' := 6) u 1 (by omega)
  have mg := fun (u : State) (m : Bool) => ctrVal_count_ne (b := if m then 0xA else 9) (i := 18) (b' := 8) (i' := 6) u 1
    (by cases m <;> decide)
  have chan := fun (p : Nat) (f : PortSt → PortSt) => ctrVal_of_get (s := s) (t := onPort s p f) (by simp) 8 6
  have mgs := fun (m : Bool) (f : MgSt → MgSt) => ctrVal_of_get (s := s) (t := onMg s m f) (by simp) 8 6
  have queue : ∀ m p, ctrVal (replyQueue s m p) 8 6 = ctrVal s 8 6 := fun m p => by
    unfold replyQueue
    dsimp only
    split
    · exact mg _ _
    · split
      · exact mgs _ _
      · split
        · exact mg _ _
        · exact (mg _ _).trans (mgs _ _)
  unfold outVia
  split
  · exact queue _ _
  · exact queue _ _
  · unfold spiPush
    split
    · exact vcp _ 5 (by decide)
    · rfl
  · unfold inbandOut
    split
    · split
      · unfold chanPut
        dsimp only
        split
        · exact chan _ _
        · split
          · exact (vcp _ 9 (by decide)).trans (chan _ _)
          · exact vcp _ 9 (by decide)
      · exact vcp _ 9 (by decide)
    · exact vcp _ 9 (by decide)

theorem endOf_ctr (s : State) (q : Run) (b i : Nat) : ctrVal (endOf s q).1 b i = ctrVal s b i := ctrVal_of_get (by simp) b i

/-- A command has completed. -/
def departed (s : State) (q : Run) (a : Reply) : State :=
  latPush (endOf (replied s q a) q).1 (latOf q a.status a.detail (some s.sfp))

section
variable {s : State} {q : Run} {a : Reply}

theorem endOf_vcp (s : State) (q : Run) : (endOf s q).1.vcp.spiRx = s.vcp.spiRx ∧ (endOf s q).1.vcp.run = s.vcp.run ∧
    (endOf s q).1.vcp.latlog = s.vcp.latlog := by
  unfold endOf
  split
  case h_1 e _ => cases e <;> exact ⟨rfl, rfl, rfl⟩
  case h_2 => exact ⟨rfl, rfl, rfl⟩

theorem departed_vcp : (departed s q a).vcp.run = none ∧
    (departed s q a).vcp.latlog.head? = some (latOf q a.status a.detail (some s.sfp)) ∧
    (departed s q a).vcp.spiRx = (replied s q a).vcp.spiRx := by
  obtain ⟨vcp, -⟩ := latPush_facts (endOf (replied s q a) q).1 (latOf q a.status a.detail (some s.sfp))
  obtain ⟨spi, run, -⟩ := endOf_vcp (replied s q a) q
  unfold departed
  rw [vcp]
  exact ⟨run.trans (replied_run s q a), rfl, spi⟩

theorem departed_com : (departed s q a).com = { s.com with stageOpen := 0 } := by
  have kept : (departed s q a).com = (idled s).com := by
    have facts : ∀ f : Part, f = .com ∨ f = .ents ∨ f = .stageOpen ∨ f = .suspect ∨ f = .frozenWr ∨ f = .snaps ∨
        f = .cfgSave ∨ f = .lastEpoch → get f (departed s q a) = get f (idled s) := by
      unfold departed
      rw [replied_out]
      rintro f (rfl | rfl | rfl | rfl | rfl | rfl | rfl | rfl) <;> simp [-idled_get]
    exact com_of_get (facts _ (by simp)) (facts _ (by simp)) (facts _ (by simp)) (facts _ (by simp)) (facts _ (by simp))
      (facts _ (by simp)) (facts _ (by simp)) (facts _ (by simp))
  rw [kept, idled, setStageBits_com]
  rfl

theorem departed_ctr {b i : Nat} (apart : b * 65536 + i ≠ 8 * 65536 + 6) :
    ctrVal (departed s q a) b i = ctrVal (replied s q a) b i :=
  ((latPush_facts _ _).2.2 b i apart).trans (endOf_ctr _ _ _ _)

theorem idled_ctr (s : State) (b i : Nat) : ctrVal (idled s) b i = ctrVal s b i := ctrVal_of_get (by simp) b i

theorem departed_counted : Counted s (departed s q a) 8 6 := by
  obtain ⟨-, counted, -⟩ := latPush_facts (endOf (replied s q a) q).1 (latOf q a.status a.detail (some s.sfp))
  have before : ctrVal (endOf (replied s q a) q).1 8 6 = ctrVal s 8 6 := by
    rw [endOf_ctr, replied_out, outVia_sage6, idled_ctr]
  unfold Counted departed
  rw [counted, before]

theorem departed_only : Only [.stageOpen, .mir, .ports, .vcp, .run, .mgA, .mgB, .sage, .hist, .grps, .seq, .thy, .cands]
    s (departed s q a) := fun f out => by
  simp at out
  unfold departed
  rw [replied_out]
  simp [out]

/-- What the command leaves is done upon the state that has replied. -/
theorem departed_end {f : Part} (hist : f ≠ .hist) (sage : f ≠ .sage) (vcp : f ≠ .vcp) :
    get f (departed s q a) = get f (endOf (replied s q a) q).1 := by
  unfold departed
  simp [hist, sage, vcp]

theorem departed_mg (m : Bool) : mgOf (departed s q a) m = mgOf (replied s q a) m :=
  mgOf_of_get (by simp [departed]) (by simp [departed]) m

theorem replyQueue_joins {u : State} {m : Bool} {p : OutPkt} (link : (mgOf u m).link = true)
    (room : (mgOf u m).replies.length < 32) : (mgOf (replyQueue u m p) m).replies = (mgOf u m).replies ++ [p] := by
  unfold replyQueue
  dsimp only
  rw [if_neg (by simp [link]), if_pos room]
  cases m <;> rfl

theorem idled_mg (s : State) (m : Bool) : mgOf (idled s) m = mgOf s m := mgOf_of_get (by simp) (by simp) m

theorem departed_replies {m : Bool} {pre : Bytes} (before : (endOf s q).2 = pre) (via : a.req.ret.via = if m then .mgmtB else .mgmtA) (link : (mgOf s m).link = true)
    (room : (mgOf s m).replies.length < 32) : (mgOf (departed s q a) m).replies = (mgOf s m).replies ++
      [{ ret := a.req.ret, front := a.front, bytes := replyBytes s { a with data := pre ++ a.data } }] := by
  subst before
  have queue : replied s q a = replyQueue (idled s) m
      { ret := a.req.ret, front := a.front, bytes := replyBytes s { a with data := (endOf s q).2 ++ a.data } } := by
    rw [replied_out, outVia, via]
    cases m <;> rfl
  rw [departed_mg, queue, replyQueue_joins (by rw [idled_mg]; exact link) (by rw [idled_mg]; exact room), idled_mg]

theorem idled_spi (s : State) : (idled s).vcp.spiRx = s.vcp.spiRx := by
  have kept : get .vcp (idled s) = get .vcp s := by simp
  exact congrArg (·.spiRx) (kept :)

theorem departed_spi {pre : Bytes} (before : (endOf s q).2 = pre) (via : a.req.ret.via = .spi) : (s.vcp.spiRx.length < 8 →
      (departed s q a).vcp.spiRx = s.vcp.spiRx ++ [replyBytes s { a with data := pre ++ a.data }]) ∧
    (8 ≤ s.vcp.spiRx.length → (departed s q a).vcp.spiRx = s.vcp.spiRx ∧ Counted s (departed s q a) 2 5) := by
  subst before
  have push : replied s q a = spiPush (idled s) (replyBytes s { a with data := (endOf s q).2 ++ a.data }) := by
    rw [replied_out, outVia, via]
  refine ⟨fun room => ?_, fun full => ?_⟩
  · rw [departed_vcp.2.2, push, spiPush, if_neg (by rw [idled_spi]; omega)]
    show (idled s).vcp.spiRx ++ _ = _
    rw [idled_spi]
  · have dropped : replied s q a = cVcp (idled s) 5 := by
      rw [push, spiPush, if_pos (by rw [idled_spi]; exact full)]
    refine ⟨?_, ?_⟩
    · rw [departed_vcp.2.2, dropped]
      exact idled_spi s
    · show ctrVal _ 2 5 = _
      rw [departed_ctr (by decide), dropped, ← idled_ctr s 2 5]
      exact counted_count (idled s) 2 5

theorem replied_pos : (replied s q a).sfp = s.sfp := by
  have kept : get .sfp (replied s q a) = get .sfp s := by simp
  exact kept

theorem replied_thy : (replied s q a).thy = s.thy := thy_of_get (by simp) (by simp)

theorem departed_thy : (departed s q a).thy = (endOf (replied s q a) q).1.thy :=
  thy_of_get (departed_end (by simp) (by simp) (by simp)) (departed_end (by simp) (by simp) (by simp))

theorem departed_seq : (departed s q a).seq = (endOf (replied s q a) q).1.seq :=
  departed_end (f := .seq) (by simp) (by simp) (by simp)

theorem departed_grps : (departed s q a).grps = (endOf (replied s q a) q).1.grps :=
  departed_end (f := .grps) (by simp) (by simp) (by simp)

theorem departed_net : (departed s q a).vcp.members = (endOf (replied s q a) q).1.vcp.members ∧
    (departed s q a).vcp.route = (endOf (replied s q a) q).1.vcp.route ∧
    (departed s q a).vcp.relayPorts = (endOf (replied s q a) q).1.vcp.relayPorts := by
  obtain ⟨vcp, -⟩ := latPush_facts (endOf (replied s q a) q).1 (latOf q a.status a.detail (some s.sfp))
  unfold departed
  rw [vcp]
  exact ⟨rfl, rfl, rfl⟩

theorem endOf_is (u : State) {e : EndAct} (ends : q.atEnd = some e) : (endOf u q).1 = (endAct u e).1 := by
  rw [endOf, ends]

theorem endOf_none (u : State) (ends : q.atEnd = none) : (endOf u q).1 = u := by
  rw [endOf, ends]

/-- The timing commands leave their request pending for the next boundary. -/
theorem departed_timing : (∀ n c, q.atEnd = some (.ql n c) →
      (departed s q a).thy = { s.thy with pendQl := s.thy.pendQl ++ [(nextFrame s.sfp, n, c)] }) ∧
    (∀ c, q.atEnd = some (.force c) → (departed s q a).thy = { s.thy with pendForce := some (nextFrame s.sfp, c) }) ∧
    (∀ v, q.atEnd = some (.mfc v) → (departed s q a).thy = { s.thy with pendMfc := some (nextEpoch s.sfp, v) }) ∧
    (q.atEnd = some .realign → (departed s q a).thy = { s.thy with pendRealign := some (nextEpoch s.sfp) }) := by
  rw [departed_thy]
  refine ⟨fun n c ends => ?_, fun c ends => ?_, fun v ends => ?_, fun ends => ?_⟩
  all_goals
    rw [endOf_is _ ends]
    simp only [endAct, onThy, replied_pos, replied_thy]

theorem departed_group (g : Fin 2048) (c : BitVec 4) (h : Bool) (ends : q.atEnd = some (.request g c h)) :
    grpOf (departed s q a) g = { grpOf s g with pend := (grpOf s g).pend ++ [(nextFrame s.sfp, c, h)] } ∧
    ∀ x : Fin 2048, x ≠ g → grpOf (departed s q a) x = grpOf s x := by
  have same : ∀ x, grpOf (replied s q a) x = grpOf s x := grpOf_of_get (by simp)
  have left : ∀ x, grpOf (departed s q a) x =
      grpOf (onGrp (replied s q a) g fun x => { x with pend := x.pend ++ [(nextFrame s.sfp, c, h)] }) x := fun x => by
    refine grpOf_of_get ?_ x
    rw [departed_end (by simp) (by simp) (by simp), endOf_is _ ends]
    simp only [endAct, replied_pos]
  refine ⟨?_, fun x other => ?_⟩
  · rw [left, grpOf_onGrp_same, same]
  · rw [left, grpOf_onGrp_ne _ _ (fun is => other (Fin.ext is)), same]

theorem departed_reset (w : Bool) (ends : q.atEnd = some (.devReset w)) (none_ : ∀ f, s.seq.devReset ≠ some (f, true)) :
    (departed s q a).seq = { s.seq with devReset := some (nextEpoch s.sfp, w) } := by
  have seq : (replied s q a).seq = s.seq := by
    have kept : get .seq (replied s q a) = get .seq s := by simp
    exact kept
  rw [departed_seq, endOf_is _ ends]
  simp only [endAct, onSeq, replied_pos, seq]

theorem replied_net : (replied s q a).vcp.members = s.vcp.members ∧ (replied s q a).vcp.route = s.vcp.route ∧
    (replied s q a).vcp.relayPorts = s.vcp.relayPorts := by
  have kept : get .vcp (idled s) = get .vcp s := by simp
  obtain ⟨x, vcp⟩ := outVia_vcp (idled s) a.req.ret a.front a.req.origin a.req.pri
    (replyBytes s { a with data := (endOf s q).2 ++ a.data })
  rw [replied_out, vcp]
  exact ⟨congrArg (·.members) (kept :), congrArg (·.route) (kept :), congrArg (·.relayPorts) (kept :)⟩

theorem departed_none (ends : q.atEnd = none) : (departed s q a).thy = s.thy ∧ (departed s q a).grps = s.grps ∧
    (departed s q a).seq = s.seq ∧ (departed s q a).vcp.members = s.vcp.members ∧
    (departed s q a).vcp.route = s.vcp.route ∧ (departed s q a).vcp.relayPorts = s.vcp.relayPorts := by
  have grps : get .grps (replied s q a) = get .grps s := by simp
  have seq : get .seq (replied s q a) = get .seq s := by simp
  obtain ⟨members, route, relay⟩ := departed_net (s := s) (q := q) (a := a)
  rw [departed_thy, departed_grps, departed_seq, members, route, relay, endOf_none _ ends]
  exact ⟨replied_thy, grps, seq, replied_net⟩
end

/-! Replies and events on a management port. -/

theorem replyTransmit_row {s : State} (on : powered s = true) (port : MgPort) {o : OutPkt} {l : List OutPkt}
    (is : (mgOf s (isB port)).replies = o :: l) : exec (.replyTransmit port) s = .next
      (let s1 := onMg s (isB port) (fun m => { m with replies := l })
       if (mgOf s (isB port)).link then
         let d := dmaTake s1 o.bytes.length
         if d.2 then mgTransmit d.1 (isB port) (etherFrame o.ret.mac (ownMac (isB port)) o.ret.vlan o.bytes) 16 else d.1
       else cMg s1 (isB port) 18 1) := by
  refine congrArg Host.Outcome.next ((live_on on _).trans ?_)
  rw [xReplyTransmit, is]

/-- A port with link sends its oldest reply. -/
theorem replyTransmit_sends {s : State} (on : powered s = true) (port : MgPort) {o : OutPkt}
    (first : (mgOf s (isB port)).replies.head? = some o) (link : (mgOf s (isB port)).link = true)
    (banks : ∀ k : Fin 8, bankSt s 1 k = .on) (sound : s.mem.ecc = []) :
    ∃ t, exec (.replyTransmit port) s = .next t ∧ (mgOf t (isB port)).replies = (mgOf s (isB port)).replies.tail ∧
      (mgOf t (isB port)).lastTx = etherFrame o.ret.mac (ownMac (isB port)) o.ret.vlan o.bytes ∧
      Counted s t (mgBlk (isB port)) 14 ∧ Counted s t (mgBlk (isB port)) 16 ∧ mgOf t (!isB port) = mgOf s (!isB port) ∧
      t = { s with mgA := t.mgA, mgB := t.mgB, sage := t.sage, fresh := s.fresh + 1 } := by
  obtain ⟨l, is⟩ := List.head?_eq_some_iff.mp first
  have row := replyTransmit_row on port is
  generalize isB port = b at *
  set u := onMg s b (fun m => { m with replies := l }) with u_def
  have mem : u.mem = s.mem := by
    have kept : get .mem u = get .mem s := by simp [u_def]
    exact kept
  have fresh : u.fresh = s.fresh := by
    have kept : get .fresh u = get .fresh s := by simp [u_def]
    exact kept
  have put := dmaTake_on (s := u) (fun k => (by rw [bankSt, banksOf, mem]; exact banks k)) (by rw [mem]; exact sound) o.bytes.length
  obtain ⟨same, not_, sent, reply, only⟩ := mgTransmit_facts (drew u) b
    (etherFrame o.ret.mac (ownMac b) o.ret.vlan o.bytes) (k := 16) (by decide) (by decide)
  dsimp only at row
  rw [if_pos link, put, if_pos rfl] at row
  generalize mgTransmit (drew u) b (etherFrame o.ret.mac (ownMac b) o.ret.vlan o.bytes) 16 = t at *
  have ctr : ∀ i, ctrVal (drew u) (mgBlk b) i = ctrVal s (mgBlk b) i := ctrVal_onMg s b _ (mgBlk b)
  refine ⟨t, row, ?_, by rw [same], sent.trans (by rw [ctr]), reply.trans (by rw [ctr]), not_.trans (mgOf_onMg_not s b _), ?_⟩
  · rw [same, is]
    show (mgOf (onMg s b fun m => { m with replies := l }) b).replies = l
    rw [mgOf_onMg_same]
  · have parts : Only [.mgA, .mgB, .sage, .fresh] s t := fun f out => by
      simp at out
      refine (only f (by simp [out])).trans ?_
      simp [u_def, out]
    have drawn : t.fresh = s.fresh + 1 := (only .fresh (by simp) :).trans (congrArg (· + 1) fresh)
    have frame : t = { s with mgA := t.mgA, mgB := t.mgB, sage := t.sage, fresh := t.fresh } := parts.frame
    rw [drawn] at frame
    exact frame

/-- A port without link discards its oldest reply. -/
theorem replyTransmit_discards {s : State} (on : powered s = true) (port : MgPort) {o : OutPkt}
    (first : (mgOf s (isB port)).replies.head? = some o) (dark : (mgOf s (isB port)).link = false) :
    ∃ t, exec (.replyTransmit port) s = .next t ∧ (mgOf t (isB port)).replies = (mgOf s (isB port)).replies.tail ∧
      Counted s t (mgBlk (isB port)) 18 ∧ t = { s with mgA := t.mgA, mgB := t.mgB, sage := t.sage } := by
  obtain ⟨l, is⟩ := List.head?_eq_some_iff.mp first
  have row := replyTransmit_row on port is
  generalize isB port = b at *
  dsimp only at row
  rw [if_neg (by simp [dark])] at row
  refine ⟨_, row, ?_, ?_, Only.frame (l := [.mgA, .mgB, .sage]) fun f out => by simp at out; simp [out]⟩
  · rw [mgOf_cMg, mgOf_onMg_same, is]
    rfl
  · rw [Counted, ctrVal_cMg_one, ctrVal_onMg]

theorem eventHead_facts {l : List EvPkt} {e : EvPkt} (head : eventHead l = some e) : e ∈ l ∧ ∀ x ∈ l, x.pri ≤ e.pri := by
  have fold : ∀ (l : List EvPkt) (o : Option EvPkt), l.foldl (fun o x => match o with
      | some b => if b.pri < x.pri then some x else o
      | none => some x) o = some e → (e ∈ l ∨ o = some e) ∧ (∀ x ∈ l, x.pri ≤ e.pri) ∧ ∀ x, o = some x → x.pri ≤ e.pri := by
    intro l
    induction l with
    | nil => exact fun o is => ⟨.inr is, by simp, fun x found => by rw [List.foldl_nil, found] at is; rw [Option.some.inj is]⟩
    | cons y l ih =>
      intro o is
      rw [List.foldl_cons] at is
      obtain ⟨mem, top, acc⟩ := ih _ is
      cases o with
      | none =>
        have least : y.pri ≤ e.pri := acc y rfl
        refine ⟨.inl ?_, by simpa using ⟨least, top⟩, by simp⟩
        rcases mem with inside | now
        · exact .tail _ inside
        · rw [← Option.some.inj now]
          exact .head _
      | some b =>
        dsimp only at mem acc
        split at mem
        case isTrue higher =>
          rw [if_pos higher] at acc
          have least : y.pri ≤ e.pri := acc y rfl
          refine ⟨.inl ?_, by simpa using ⟨least, top⟩, fun x found => ?_⟩
          · rcases mem with inside | now
            · exact .tail _ inside
            · rw [← Option.some.inj now]
              exact .head _
          · rw [← Option.some.inj found]
            omega
        case isFalse lower =>
          rw [if_neg lower] at acc
          have least : b.pri ≤ e.pri := acc b rfl
          refine ⟨?_, fun x inside => ?_, fun x found => ?_⟩
          · rcases mem with inside | now
            · exact .inl (.tail _ inside)
            · exact .inr now
          · rcases List.mem_cons.mp inside with rfl | inside
            · omega
            · exact top x inside
          · rw [← Option.some.inj found]
            exact least
  obtain ⟨mem, top, -⟩ := fold l none head
  exact ⟨mem.resolve_right (by simp), top⟩

theorem evPorts_spi {v : View} (four : evTransport v = 4) : evPorts v = [] := by
  simp [evPorts, four]

theorem evTransport_port {v : View} {m : Bool} (ports : evPorts v = [m]) : evTransport v ≠ 4 := fun four => by
  rw [evPorts_spi four] at ports
  cases ports

/-- An event goes out on a port whose replies are all sent. -/
theorem eventSend_port {s : State} (on : powered s = true) {e : EvPkt} (head : eventHead s.sage.events = some e)
    (auth : evAuthOk s = true) {m : Bool} (ports : evPorts (actv s) = [m]) (link : (mgOf s m).link = true)
    (idle : (mgOf s m).replies = []) :
    ∃ t, exec .eventSend s = .next t ∧ e ∈ s.sage.events ∧ (∀ x ∈ s.sage.events, x.pri ≤ e.pri) ∧
      t.sage.events = delFirst (fun x => x == e) s.sage.events ∧
      (mgOf t m).lastTx = etherFrame (evMac (actv s)) (ownMac m) (evTag (actv s)) (eventBytes s e) ∧
      Counted s t (mgBlk m) 17 ∧ t = { s with mgA := t.mgA, mgB := t.mgB, sage := t.sage } := by
  set u := onSage s (fun g => { g with events := delFirst (fun x => x == e) g.events }) with u_def
  have sends : xEventSend s = mgTransmit u m (etherFrame (evMac (actv s)) (ownMac m) (evTag (actv s)) (eventBytes s e)) 17 := by
    have here : (mgOf u m).link = true := link
    rw [xEventSend]
    simp only [head]
    rw [ports, if_neg (by simp [idle]), if_neg (by simp [auth]), if_neg (evTransport_port ports), ← u_def]
    show eventOn (eventBytes s e) u m = _
    rw [eventOn, if_pos here]
    rfl
  obtain ⟨same, -, -, counted, only⟩ := mgTransmit_facts u m
    (etherFrame (evMac (actv s)) (ownMac m) (evTag (actv s)) (eventBytes s e)) (k := 17) (by decide) (by decide)
  have events : (mgTransmit u m (etherFrame (evMac (actv s)) (ownMac m) (evTag (actv s)) (eventBytes s e)) 17).sage.events =
      u.sage.events := by
    rw [mgTransmit, cMg, count_events, cMg, count_events, cMg, count_events]
    exact congrArg SageSt.events ((onMg_get u m _ (f := .sage) (by simp) (by simp)) :)
  rw [← sends] at same counted only events
  obtain ⟨mem, top⟩ := eventHead_facts head
  refine ⟨_, congrArg Host.Outcome.next (live_on on _), mem, top, events, by rw [same], counted, ?_⟩
  refine Only.frame (l := [.mgA, .mgB, .sage]) fun f out => ?_
  simp at out
  refine (only f (by simp [out])).trans ?_
  simp [u_def, out]

/-- An event goes to the host's SPI. -/
theorem eventSend_spi {s : State} (on : powered s = true) {e : EvPkt} (head : eventHead s.sage.events = some e)
    (auth : evAuthOk s = true) (spi : evTransport (actv s) = 4) (room : s.vcp.spiRx.length < 8) :
    ∃ t, exec .eventSend s = .next t ∧ t.vcp.spiRx = s.vcp.spiRx ++ [eventBytes s e] ∧
      t.sage.events = delFirst (fun x => x == e) s.sage.events ∧ t = { s with vcp := t.vcp, sage := t.sage } := by
  set u := onSage s (fun g => { g with events := delFirst (fun x => x == e) g.events }) with u_def
  have pushed : xEventSend s = onVcp u (fun v => { v with spiRx := v.spiRx ++ [eventBytes s e] }) := by
    have full : ¬ 8 ≤ u.vcp.spiRx.length := Nat.not_le.mpr room
    rw [xEventSend]
    simp only [head]
    rw [evPorts_spi spi, if_neg (by simp), if_neg (by simp [auth]), if_pos spi, ← u_def, spiPush, if_neg full]
  refine ⟨_, (congrArg Host.Outcome.next (live_on on _)).trans (congrArg Host.Outcome.next pushed), rfl, rfl, rfl⟩

/-! Channel packets and the host's SPI. -/

/-- The better of a channel packet and the one so far. -/
def chanBetter (o : Option ChanPkt) (c : ChanPkt) : Option ChanPkt :=
  match o with
  | some b => if b.pri < c.pri then some c else o
  | none => some c

theorem channelSend_eq (p : Nat) (s : State) : xChannelPacketSend p s = match (portOf s p).txq.foldl chanBetter none with
    | some c => if isTrunk s p && (portOf s p).txNow.isNone then
        onPort s p (fun y => { y with txq := delFirst (fun z => z == c) y.txq, txNow := some (c, 0) }) else s
    | none => s := rfl

theorem foldl_chanBest {c : ChanPkt} (l : List ChanPkt) (o : Option ChanPkt) (top : ∀ x ∈ l, x.pri ≤ c.pri)
    (below : ∀ x, o = some x → x.pri < c.pri) (first : l.find? (fun x => x.pri == c.pri) = some c) :
    l.foldl chanBetter o = some c := by
  have stays : ∀ l : List ChanPkt, (∀ x ∈ l, x.pri ≤ c.pri) → l.foldl chanBetter (some c) = some c := by
    intro l
    induction l with
    | nil => exact fun _ => rfl
    | cons x l ih =>
      intro top
      rw [List.foldl_cons, show chanBetter (some c) x = some c from if_neg (BitVec.not_lt.mpr (top x (.head _)))]
      exact ih fun y inside => top y (.tail _ inside)
  induction l generalizing o with
  | nil => cases first
  | cons x l ih =>
    rw [List.foldl_cons]
    have rest : ∀ y ∈ l, y.pri ≤ c.pri := fun y inside => top y (.tail _ inside)
    by_cases same : x.pri = c.pri
    · rw [List.find?_cons_of_pos (by simpa using same)] at first
      obtain rfl := Option.some.inj first
      cases o with
      | none => exact stays l rest
      | some b =>
        rw [show chanBetter (some b) x = some x from if_pos (below b rfl)]
        exact stays l rest
    · rw [List.find?_cons_of_neg (by simpa using same)] at first
      have lower : x.pri < c.pri := by
        have below_ := top x (.head _)
        bv_omega
      refine ih _ rest ?_ first
      cases o with
      | none => exact fun y is => by rw [← Option.some.inj is]; exact lower
      | some b =>
        unfold chanBetter
        dsimp only
        split
        · exact fun y is => by rw [← Option.some.inj is]; exact lower
        · exact below

/-- A trunk starts its packet of the highest priority, the first of them. -/
theorem channelSend_row {s : State} (on : powered s = true) {p : Fin 128} {c : ChanPkt} (trunk : isTrunk s p = true)
    (idle : (portOf s p).txNow = none) (top : ∀ x ∈ (portOf s p).txq, x.pri ≤ c.pri)
    (first : ((portOf s p).txq.find? (fun x => x.pri == c.pri)) = some c) :
    ∃ t, exec (.channelPacketSend p) s = .next t ∧ (portOf t p).txNow = some (c, 0) ∧
      (portOf t p).txq = delFirst (fun x => x == c) (portOf s p).txq ∧ t = { s with ports := t.ports } := by
  have starts : xChannelPacketSend p s = onPort s p (fun y => { y with txq := delFirst (fun z => z == c) y.txq, txNow := some (c, 0) }) := by
    rw [channelSend_eq, foldl_chanBest _ none top (by simp) first, trunk, idle]
    rfl
  refine ⟨_, (congrArg Host.Outcome.next (live_on on _)).trans (congrArg Host.Outcome.next starts), ?_, ?_,
    Only.frame (l := [.ports]) fun f out => by simp at out; simp [out]⟩
  · rw [portOf_onPort_same]
  · rw [portOf_onPort_same]

theorem spiStatus_bits (v : VcpSt) : (spiStatus v).setWidth 8 = by1 (at1 (!v.spiRx.isEmpty) 0 + at1 v.spiBuf.isNone 1 + at1 v.spiOverrun 2) := by
  unfold spiStatus
  cases v.spiRx.isEmpty <;> cases v.spiBuf.isNone <;> cases v.spiOverrun <;> rfl

theorem statusRead_row {s : State} (on : powered s = true) : ∃ t, exec .statusRead s = .next t ∧
    t.vcp.spiOut = [by1 (at1 (!s.vcp.spiRx.isEmpty) 0 + at1 s.vcp.spiBuf.isNone 1 + at1 s.vcp.spiOverrun 2)] ∧
    t = { s with vcp := { s.vcp with spiOut := t.vcp.spiOut, spiStat := t.vcp.spiStat, spiOverrun := false } } :=
  ⟨_, congrArg Host.Outcome.next (live_on on _), congrArg (fun x => [x]) (spiStatus_bits s.vcp), rfl⟩

theorem pktRead_row {s : State} (on : powered s = true) {b : Bytes} (first : s.vcp.spiRx.head? = some b) :
    exec .pktRead s = .next { s with vcp := { s.vcp with spiRx := s.vcp.spiRx.tail, spiOut := beBytes 2 b.length ++ b } } := by
  obtain ⟨l, is⟩ := List.head?_eq_some_iff.mp first
  refine congrArg Host.Outcome.next ((live_on on _).trans ?_)
  rw [xPktRead, is]
  rfl

theorem pktRead_empty {s : State} (on : powered s = true) (empty : s.vcp.spiRx = []) :
    exec .pktRead s = .next { s with vcp := { s.vcp with spiOut := [0, 0] } } := by
  refine congrArg Host.Outcome.next ((live_on on _).trans ?_)
  rw [xPktRead, empty]
  rfl

theorem endOf_before (s : State) (q : Run) : (endOf s q).2 = match q.atEnd with
      | none => [] | some (.net ..) => []
      | some (.ql ..) => sfpBytes (nextFrame s.sfp) | some (.force _) => sfpBytes (nextFrame s.sfp)
      | some (.request ..) => sfpBytes (nextFrame s.sfp)
      | some (.mfc _) => sfpBytes (nextEpoch s.sfp) | some .realign => sfpBytes (nextEpoch s.sfp)
      | some (.devReset _) => sfpBytes (nextEpoch s.sfp) := by
  unfold endOf
  cases q.atEnd with
  | none => rfl
  | some e => cases e <;> rfl

/-- Settles O46: a command that completes hands its reply to the transport as the sequencer idles, then does what it
leaves to its completion; the other clauses are rows of the ports, the event unit and the host's SPI. -/
theorem commandDeparture : Obligations.CommandDeparture := by
  unfold Obligations.CommandDeparture
  intro port q rp o e c p b s on
  refine ⟨fun run reply => ?_, fun first => ⟨replyTransmit_sends on port first, replyTransmit_discards on port first⟩,
    fun head auth => ⟨eventSend_port on head auth, eventSend_spi on head auth⟩,
    fun trunk idle _ top first => channelSend_row on trunk idle top first, pktRead_row on, pktRead_empty on, statusRead_row on⟩
  obtain ⟨idle, logged, -⟩ := departed_vcp (s := s) (q := q) (a := rp)
  obtain ⟨ql, force, mfc, realign⟩ := departed_timing (s := s) (q := q) (a := rp)
  refine ⟨departed s q rp, complete_row on run reply, idle, departed_com, logged, departed_counted, departed_replies (endOf_before s q),
    fun via => (departed_spi (endOf_before s q) via).1, fun via => (departed_spi (endOf_before s q) via).2, ql, force, mfc, realign, departed_group, fun l rt rl ends => ?_,
    departed_reset, ?_, departed_none⟩
  · obtain ⟨members, route, relay⟩ := departed_net (s := s) (q := q) (a := rp)
    rw [members, route, relay, endOf_is _ ends]
    exact ⟨rfl, rfl, rfl⟩
  · have only : Only [.com, .ents, .stageOpen, .suspect, .frozenWr, .snaps, .cfgSave, .lastEpoch, .mir, .ports, .vcp, .run,
      .mgA, .mgB, .sage, .hist, .grps, .seq, .thy, .cands] s (departed s q rp) := departed_only.mono (by simp)
    generalize departed s q rp = t at only ⊢
    exact only.frame

end Sys2Proof.Machine
end

section
/-! A statement that fails where the report of a wrap wraps a counter of its own (O48). -/

namespace Sys2Proof.Machine

open Sys2Proof

/-- Programmable counter 0 counts the records of Sage that are events and stands at its last value, while the report of
an earlier wrap of it waits. -/
def wrapsAgain : State :=
  { phase := .ready, regs := { act := [(aPctrCfg 0, 1), (aPctrEvt 0, 0x80007)] }
    sage := { pctr := [(0, 2 ^ 32 - 1)], wraps := [(0, {})] } }

/-- Refutes O48: the report of a wrap is itself an event of Sage that a programmable counter may count; where that wraps
the counter, its next report waits, and the list of the wraps to report is not the one before without its first. -/
theorem not_sageRows : ¬ Obligations.SageRows := by
  unfold Obligations.SageRows
  intro holds
  obtain ⟨_, _, _, _, _, wraps, _⟩ := holds 0 { at_ := {} } {} 0 0 0 0 0 0 [] wrapsAgain (by decide)
  obtain ⟨t, row, taken, _⟩ := wraps (by decide)
  have next : xPctrOverflow 0 wrapsAgain = t :=
    Host.Outcome.next.inj ((congrArg Host.Outcome.next (live_on (by decide) _)).symm.trans row)
  rw [← next] at taken
  exact absurd taken (by decide)

end Sys2Proof.Machine
end

section
/-! Scrubbers, power states, pins and the TAP (O49). -/

namespace Sys2Proof.Machine

open Sys2Proof

/-! The scrubbers (R167, R359). -/

theorem bit_hist_cCore {s : State} {a i : Nat} (h : bit (hist s a) i = true) (k : Nat) : bit (hist (cCore s k) a) i = true := h

/-- The scrubber of the map and a single error. -/
theorem mapScrub_single {s : State} (on : powered s = true) (bankB smi : Bool) (idx n : Nat)
    (clean : eccDouble s.map bankB (if smi then 0x8000 + idx else idx) = false) :
    ∃ t, exec (.mapScrub bankB smi idx (.single n)) s = .next t ∧ Counted s t 4 2 ∧
      tget 0 t.map.ecc (eccKey bankB (if smi then 0x8000 + idx else idx)) = 1 ∧
      t.map.scrub = some (eccKey bankB (if smi then 0x8000 + idx else idx)) ∧
      t = { s with map := { s.map with ecc := t.map.ecc, scrub := t.map.scrub }, sage := t.sage } := by
  set i := if smi then 0x8000 + idx else idx with i_def
  set u := onMap s (fun m => { m with ecc := tset m.ecc (eccKey bankB i) 1, scrub := some (eccKey bankB i) }) with u_def
  have row : xMapScrub bankB smi idx (.single n) s = cCore u 2 := if_neg (by rw [← i_def, clean]; exact Bool.false_ne_true)
  refine ⟨cCore u 2, (congrArg Host.Outcome.next (live_on on _)).trans (congrArg Host.Outcome.next row), counted_count u 4 2, ?_, rfl, rfl⟩
  show tget 0 (tset s.map.ecc (eccKey bankB i) 1) (eccKey bankB i) = 1
  rw [tget, tfind_tset_same]
  rfl

/-- The scrubber of the map and an uncorrectable word. -/
theorem mapScrub_double {s : State} (on : powered s = true) (bankB smi : Bool) (idx : Nat)
    (clean : eccDouble s.map bankB (if smi then 0x8000 + idx else idx) = false) :
    ∃ t, exec (.mapScrub bankB smi idx .double) s = .next t ∧ Counted s t 4 3 ∧
      eccDouble t.map bankB (if smi then 0x8000 + idx else idx) = true ∧ t.map.eccAddr = some (idx, bankB, smi) ∧
      bit (hist t hCore) 0 = true ∧ (newest t).map (fun x => (x.cls, x.sub, x.at_)) = some (8, 1, s.sfp) ∧
      t = { s with map := { s.map with ecc := t.map.ecc, eccAddr := t.map.eccAddr }, sage := t.sage
                   regs := { s.regs with hist := t.regs.hist } } := by
  set i := if smi then 0x8000 + idx else idx with i_def
  have row : xMapScrub bankB smi idx .double s = mapUncorr s bankB idx smi := if_neg (by rw [← i_def, clean]; exact Bool.false_ne_true)
  set u := onMap s (fun m => { m with ecc := tset m.ecc (eccKey bankB i) 2, eccAddr := some (idx, bankB, smi) }) with u_def
  set d := beBytes 4 i ++ [by1 (b2n bankB)] with d_def
  have is : mapUncorr s bankB idx smi = trace (cCore (sticky u hCore 1) 3) 8 1 2 d := rfl
  have map : (trace (cCore (sticky u hCore 1) 3) 8 1 2 d).map = u.map := rfl
  refine ⟨_, (congrArg Host.Outcome.next (live_on on _)).trans (congrArg Host.Outcome.next (row.trans is)), ?_, ?_, rfl, ?_, ?_, ?_⟩
  · show ctrVal _ 4 3 = _
    rw [ctrVal_trace _ _ _ _ _ (by decide) (by decide)]
    exact counted_count (sticky u hCore 1) 4 3
  · rw [map]
    show (tget 0 (tset s.map.ecc (eccKey bankB i) 2) (eccKey bankB i) == 2) = true
    rw [tget, tfind_tset_same]
    rfl
  · exact bit_hist_trace (bit_hist_cCore (bit_sticky (by decide) _ _) 3) _ _ _ _
  · rw [newest_trace]
    rfl
  · have only : Only [.map, .mapA, .mapB, .mapEcc, .mapScrub, .mapSel, .sage, .hist] s (trace (cCore (sticky u hCore 1) 3) 8 1 2 d) :=
      fun f out => by simp at out; simp [u_def, out]
    have ecc : u.map = { s.map with ecc := u.map.ecc, eccAddr := u.map.eccAddr } := rfl
    rw [← map] at ecc
    generalize trace (cCore (sticky u hCore 1) 3) 8 1 2 d = t at only ecc ⊢
    have frame : t = { s with map := t.map, sage := t.sage, regs := { s.regs with hist := t.regs.hist } } := only.frame
    rw [ecc] at frame
    exact frame

theorem mapWriteback_row {s : State} (on : powered s = true) {k : Nat} (waits : s.map.scrub = some k) :
    ∃ t, exec .mapScrubWriteback s = .next t ∧ tget 0 t.map.ecc k = 0 ∧ t.map.scrub = none ∧
      t = { s with map := { s.map with ecc := t.map.ecc, scrub := none } } := by
  have row : xMapScrubWriteback s = onMap s (fun m => { m with ecc := tdel m.ecc k, scrub := none }) := by
    rw [xMapScrubWriteback, waits]
  refine ⟨_, (congrArg Host.Outcome.next (live_on on _)).trans (congrArg Host.Outcome.next row), ?_, rfl, rfl⟩
  show tget 0 (tdel s.map.ecc k) k = 0
  rw [tget, tfind_tdel_same]
  rfl

theorem eccFresh_word (s : State) (m a : Nat) : tfind (eccFresh s m (a / 8 * 8)).mem.ecc (m * 2 ^ 32 + a / 8 * 8) = none := by
  have word : a / 8 * 8 / 8 * 8 = a / 8 * 8 := by omega
  show tfind (tdel s.mem.ecc (m * 2 ^ 32 + a / 8 * 8 / 8 * 8)) _ = none
  rw [word, tfind_tdel_same]

section
variable {s : State} (on : powered s = true) {mem : Fin 6} {a : Nat} (scrubbed : mem.val = 0 ∨ mem.val = 1 ∨ mem.val = 3)
include on scrubbed

theorem memoryScrub_row (f : EccFind) : exec (.memoryScrub mem a f) s = .next (scrubWord s mem a f) := by
  refine congrArg Host.Outcome.next ((live_on on _).trans ?_)
  rw [xMemoryScrub, if_neg (by omega), if_neg (by omega), if_neg (by omega)]

theorem memoryScrub_off (f : EccFind) (off : bankOn s mem (memBankOf mem (a / 8 * 8)) = false) : exec (.memoryScrub mem a f) s = .next s := by
  rw [memoryScrub_row on scrubbed f]
  exact congrArg Host.Outcome.next (if_pos (.inr off))

variable (inside : a / 8 * 8 < memSize mem) (bank : bankOn s mem (memBankOf mem (a / 8 * 8)) = true)
include inside bank

theorem memoryScrub_on (f : EccFind) : exec (.memoryScrub mem a f) s = .next (match f with
    | .clean => eccFresh s mem (a / 8 * 8)
    | .single _ => memCorr (eccFresh s mem (a / 8 * 8))
    | .double => memUncorr (onMem s (fun x => { x with ecc := tset x.ecc (mem * 2 ^ 32 + a / 8 * 8) 2 })) mem (a / 8 * 8)
        (memBankOf mem (a / 8 * 8))) := by
  rw [memoryScrub_row on scrubbed f]
  refine congrArg Host.Outcome.next ((if_neg (by rw [bank]; simpa using inside)).trans ?_)
  cases f <;> rfl

theorem memoryScrub_clean : ∃ t, exec (.memoryScrub mem a .clean) s = .next t ∧ tfind t.mem.ecc (mem * 2 ^ 32 + a / 8 * 8) = none ∧
    t.sage = s.sage ∧ t = { s with mem := { s.mem with ecc := t.mem.ecc } } :=
  ⟨_, memoryScrub_on on scrubbed inside bank .clean, eccFresh_word s mem a, rfl, rfl⟩

theorem memoryScrub_single (e : Fin 72) : ∃ t, exec (.memoryScrub mem a (.single e)) s = .next t ∧
    tfind t.mem.ecc (mem * 2 ^ 32 + a / 8 * 8) = none ∧ Counted s t 1 5 ∧
    t = { s with mem := { s.mem with ecc := t.mem.ecc }, sage := t.sage } :=
  ⟨_, memoryScrub_on on scrubbed inside bank (.single e), eccFresh_word s mem a,
    counted_count (eccFresh s mem (a / 8 * 8)) 1 5, rfl⟩

theorem memoryScrub_double : ∃ t, exec (.memoryScrub mem a .double) s = .next t ∧
    tfind t.mem.ecc (mem * 2 ^ 32 + a / 8 * 8) = some 2 ∧ Counted s t 1 6 ∧ t.mem.eccAddr = word (memBase s mem + a / 8 * 8) ∧
    bit (hist t hSys) 0 = true ∧ (newest t).map (fun r => (r.cls, r.sub, r.obj.toNat)) = some (8, 1, mem.val) ∧
    t = { s with mem := { s.mem with ecc := t.mem.ecc, eccAddr := t.mem.eccAddr }, sage := t.sage
                 regs := { s.regs with hist := t.regs.hist } } := by
  set o := a / 8 * 8 with o_def
  set u := onMem (onMem s (fun x => { x with ecc := tset x.ecc (mem * 2 ^ 32 + o) 2 }))
    (fun x => { x with eccAddr := word (memBase s mem + o) }) with u_def
  have is : memUncorr (onMem s (fun x => { x with ecc := tset x.ecc (mem * 2 ^ 32 + o) 2 })) mem o (memBankOf mem o) =
      trace (cSys (sticky u hSys 1) 6) 8 1 mem (beBytes 4 (memBase s mem + o) ++ [by1 (memBankOf mem o)]) := rfl
  refine ⟨_, (memoryScrub_on on scrubbed inside bank .double).trans (congrArg Host.Outcome.next is), ?_, ?_, rfl, ?_, ?_, ?_⟩
  · exact tfind_tset_same _ _ _
  · show ctrVal _ 1 6 = _
    rw [ctrVal_trace _ _ _ _ _ (by decide) (by decide)]
    exact counted_count (sticky u hSys 1) 1 6
  · exact bit_hist_trace (s := cSys (sticky u hSys 1) 6) (bit_sticky (by decide) _ _) _ _ _ _
  · rw [newest_trace]
    show some (8, 1, mem.val % 2 ^ 16) = _
    rw [Nat.mod_eq_of_lt (by omega)]
  · set d := beBytes 4 (memBase s mem + o) ++ [by1 (memBankOf mem o)]
    have only : Only [.mem, .sage, .hist] s (trace (cSys (sticky u hSys 1) 6) 8 1 mem d) :=
      fun f out => by simp at out; simp [u_def, out]
    have ecc : (trace (cSys (sticky u hSys 1) 6) 8 1 mem d).mem =
      { s.mem with ecc := (trace (cSys (sticky u hSys 1) 6) 8 1 mem d).mem.ecc
                   eccAddr := (trace (cSys (sticky u hSys 1) 6) 8 1 mem d).mem.eccAddr } := rfl
    generalize trace (cSys (sticky u hSys 1) 6) 8 1 mem d = t at only ecc ⊢
    have frame : t = { s with mem := t.mem, sage := t.sage, regs := { s.regs with hist := t.regs.hist } } := only.frame
    rw [ecc] at frame
    exact frame
end

/-- An uncorrectable entry of the protection table. -/
theorem tableScrub_row {s : State} (on : powered s = true) {mem : Fin 6} {a : Nat} (table : mem.val = 5) (inside : a < 2048)
    (sound : (grpOf s a).tblErr = false) : ∃ t, exec (.memoryScrub mem a .double) s = .next t ∧ (grpOf t a).tblErr = true ∧
      bit (hist t hProt) 2 = true ∧ Counted s t 4 6 ∧
      t = { s with grps := t.grps, sage := t.sage, regs := { s.regs with hist := t.regs.hist } } := by
  set u := onGrp s a (fun x => { x with tblErr := true }) with u_def
  have row : xMemoryScrub mem a .double s = trace (cCore (sticky u hProt 4) 6) 8 1 5 (beBytes 4 a ++ [0]) := by
    rw [xMemoryScrub, if_neg (by omega), if_neg (by omega), if_pos table, if_pos rfl, tableError, if_neg (by simp [sound]; omega)]
  refine ⟨_, (congrArg Host.Outcome.next (live_on on _)).trans (congrArg Host.Outcome.next row), ?_, ?_, ?_,
    Only.frame (l := [.grps, .sage, .hist]) fun f out => by simp at out; simp [u_def, out]⟩
  · rw [grpOf_of_get (s := u) (by simp), u_def, grpOf_onGrp_same]
  · exact bit_hist_trace (bit_hist_cCore (bit_sticky (by decide) _ _) 6) _ _ _ _
  · show ctrVal _ 4 6 = _
    rw [ctrVal_trace _ _ _ _ _ (by decide) (by decide)]
    exact (counted_count (sticky u hProt 4) 4 6).trans (by rw [ctrVal_of_get (s := s) (by simp [u_def])])

/-- The words of a line of the alignment store with one of them marked. -/
theorem marked_word (ws : List Block) (k : Nat) :
    (((List.range ws.length).zip ws |>.map (fun kw => if kw.1 = k then { kw.2 with mark := true } else kw.2))[k]?).map (·.mark) =
      (ws[k]?).map (fun _ => true) := by
  rw [List.getElem?_map]
  by_cases inside : k < ws.length
  · have there : ((List.range ws.length).zip ws)[k]? = some (k, ws[k]) :=
      List.getElem?_zip_eq_some.mpr ⟨List.getElem?_range inside, List.getElem?_eq_getElem inside⟩
    rw [there, List.getElem?_eq_getElem inside]
    simp
  · rw [List.getElem?_eq_none (by simpa using inside), List.getElem?_eq_none (by simpa using inside)]
    rfl

/-- An uncorrectable word of the alignment store. -/
theorem alignScrub_row {s : State} (on : powered s = true) {mem : Fin 6} {a : Nat} (store : mem.val = 4)
    (line : (tfind s.map.lines (a / 2048)).isSome = true) : ∃ t, exec (.memoryScrub mem a .double) s = .next t ∧
      ((tget [] t.map.lineMem (a / 2048))[a % 2048]?).map (·.mark) = ((tget [] s.map.lineMem (a / 2048))[a % 2048]?).map (fun _ => true) ∧
      Counted s t 0x300 (32 * ((tfind s.map.lines (a / 2048)).map (·.1)).getD 0 + 23) ∧
      t = { s with map := { s.map with lineMem := t.map.lineMem }, sage := t.sage, regs := { s.regs with hist := t.regs.hist } } := by
  obtain ⟨⟨g, n⟩, found⟩ := Option.isSome_iff_exists.mp line
  rw [found]
  set ws := (List.range (tget [] s.map.lineMem (a / 2048)).length).zip (tget [] s.map.lineMem (a / 2048)) |>.map
    (fun kw => if kw.1 = a % 2048 then { kw.2 with mark := true } else kw.2) with ws_def
  set u := onMap s (fun m => { m with lineMem := tput [] m.lineMem (a / 2048) ws }) with u_def
  set d := beBytes 4 a ++ [by1 ((lineBanks (a / 2048)).headD 0)]
  have row : xMemoryScrub mem a .double s = trace (cGrp u g 23) 8 1 4 d := by
    rw [xMemoryScrub, if_neg (by omega), if_pos store, if_pos rfl, alignError]
    simp only [found]
    rfl
  have map : (trace (cGrp u g 23) 8 1 4 d).map = u.map := rfl
  refine ⟨_, (congrArg Host.Outcome.next (live_on on _)).trans (congrArg Host.Outcome.next row), ?_, ?_, ?_⟩
  · rw [map, show u.map.lineMem = tput [] s.map.lineMem (a / 2048) ws from rfl, tget_tput_same, ws_def, marked_word]
  · show ctrVal _ 0x300 (32 * g + 23) = _
    rw [ctrVal_trace _ _ _ _ _ (by omega) (by omega)]
    exact counted_count u 0x300 (32 * g + 23)
  · have only : Only [.map, .mapA, .mapB, .mapEcc, .mapScrub, .mapSel, .sage, .hist] s (trace (cGrp u g 23) 8 1 4 d) :=
      fun f out => by simp at out; simp [u_def, out]
    have lines : u.map = { s.map with lineMem := u.map.lineMem } := rfl
    rw [← map] at lines
    generalize trace (cGrp u g 23) 8 1 4 d = t at only lines ⊢
    have frame : t = { s with map := t.map, sage := t.sage, regs := { s.regs with hist := t.regs.hist } } := only.frame
    rw [lines] at frame
    exact frame

/-! Power states of the memories (R321, R362). -/

theorem bankSt_setBank2 (s : State) (mb : Fin 3) (bank : Nat) (x : BankSt) : bankSt (setBank2 s mb bank x) mb bank = x := by
  obtain ⟨m, small⟩ := mb
  match m, small with
  | 0, _ => exact tget_tput_same _ _ _ _
  | 1, _ => exact tget_tput_same _ _ _ _
  | 2, _ => exact tget_tput_same _ _ _ _

theorem setBank2_shape (s : State) (m bank : Nat) (x : BankSt) : ∃ w c a, setBank2 s m bank x =
    { s with mem := { s.mem with wram := w, scratch := c, align := a } } := by
  unfold setBank2 onMem
  dsimp only
  split
  · exact ⟨_, _, _, rfl⟩
  · split
    · exact ⟨_, _, _, rfl⟩
    · exact ⟨_, _, _, rfl⟩

theorem loseContent_banks (s : State) (m bank k b : Nat) : bankSt (loseContent s m bank) k b = bankSt s k b := by
  unfold loseContent
  split
  · rfl
  · split
    · rfl
    · rfl

theorem loseContent_wait (s : State) (m bank : Nat) : (loseContent s m bank).mem.powerWait = s.mem.powerWait := by
  unfold loseContent
  split
  · rfl
  · split
    · rfl
    · rfl

/-- A bank has changed its state; one that is OFF has lost its content. -/
def turned (s : State) (m bank src dst : Nat) : State :=
  if dst = 2 ∧ src ≠ 2 then loseContent (setBank2 s m bank (bankOfCode dst)) m bank else setBank2 s m bank (bankOfCode dst)

theorem turned_facts (s : State) (mb : Fin 3) (bank src dst : Nat) : bankSt (turned s mb bank src dst) mb bank = bankOfCode dst ∧
    (turned s mb bank src dst).mem.powerWait = s.mem.powerWait ∧ Only [.mem, .fresh] s (turned s mb bank src dst) ∧
    (dst ≠ 2 ∨ src = 2 → (turned s mb bank src dst).mem.bytes = s.mem.bytes ∧ (turned s mb bank src dst).mem.ram = s.mem.ram) := by
  have state := bankSt_setBank2 s mb bank (bankOfCode dst)
  obtain ⟨w, c, a, shape⟩ := setBank2_shape s mb bank (bankOfCode dst)
  have only : Only [.mem, .fresh] s (setBank2 s mb bank (bankOfCode dst)) := fun f out => by simp at out; simp [out]
  have wait : (setBank2 s mb bank (bankOfCode dst)).mem.powerWait = s.mem.powerWait := by rw [shape]
  unfold turned
  split
  case isTrue lost =>
    refine ⟨(loseContent_banks _ _ _ _ _).trans state, (loseContent_wait _ _ _).trans wait, fun f out => ?_, fun kept => ?_⟩
    · rw [loseContent_get _ _ _ (by simp at out; simp [out]) (by simp at out; simp [out])]
      exact only f out
    · rcases kept with dst_ | src_
      · exact absurd lost.1 dst_
      · exact absurd src_ lost.2
  case isFalse kept => exact ⟨state, wait, only, fun _ => by rw [shape]; exact ⟨rfl, rfl⟩⟩

theorem powerDone_row {s : State} (on : powered s = true) {mb : Fin 3} {bank src dst : Nat} (moving : bankSt s mb bank = .moving src dst) :
    exec (.memPowerTransitionDone mb bank) s = .next (if s.mem.powerWait = some (mb.val, bank) then
      replyOk (onMem (turned s mb bank src dst) (fun m => { m with powerWait := none })) [by1 src, by1 dst]
      else turned s mb bank src dst) := by
  refine congrArg Host.Outcome.next ((live_on on _).trans ?_)
  rw [xMemPowerTransitionDone, moving]
  rfl

/-- A transition that ends answers the MEM_POWER that waits for it. -/
theorem powerDone_facts {s : State} (on : powered s = true) {mb : Fin 3} {bank src dst : Nat} {q : Run}
    (moving : bankSt s mb bank = .moving src dst) :
    ∃ t, exec (.memPowerTransitionDone mb bank) s = .next t ∧
      bankSt t mb bank = (if dst = 0 then .on else if dst = 1 then .ret else .off) ∧
      (s.mem.powerWait = some (mb.val, bank) → s.vcp.run = some q → Answers t 0 0 [by1 src, by1 dst] ∧ t.mem.powerWait = none) ∧
      (s.mem.powerWait ≠ some (mb.val, bank) → t.vcp = s.vcp) ∧
      (dst ≠ 2 ∨ src = 2 → t.mem.bytes = s.mem.bytes ∧ t.mem.ram = s.mem.ram) ∧
      t = { s with mem := t.mem, vcp := t.vcp, fresh := t.fresh } := by
  have row := powerDone_row on moving
  obtain ⟨state, wait, only, content⟩ := turned_facts s mb bank src dst
  generalize turned s mb bank src dst = u at *
  by_cases waits : s.mem.powerWait = some (mb.val, bank)
  · rw [if_pos waits] at row
    have mem : (replyOk (onMem u fun m => { m with powerWait := none }) [by1 src, by1 dst]).mem = { u.mem with powerWait := none } := by
      have kept : get .mem (replyOk (onMem u fun m => { m with powerWait := none }) [by1 src, by1 dst]) =
        get .mem (onMem u fun m => { m with powerWait := none }) := by simp
      exact kept
    have run : (onMem u fun m => { m with powerWait := none }).vcp.run = s.vcp.run := (only .run (by simp) :)
    refine ⟨_, row, ?_, fun _ runs => ⟨setReply_answers (run.trans runs) _ _ _, by rw [mem]⟩, fun other => absurd waits other,
      fun kept => by rw [mem]; exact content kept, ?_⟩
    · rw [bankSt, banksOf, mem]
      exact state
    · refine Only.frame (l := [.mem, .vcp, .run, .fresh]) fun f out => ?_
      simp at out
      exact Eq.trans (by simp [out]) (only f (by simp [out]))
  · rw [if_neg waits] at row
    have vcp : u.vcp = s.vcp := vcpSt_ext (only .vcp (by simp)) (only .run (by simp))
    exact ⟨u, row, state, fun is => absurd is waits, fun _ => vcp, content,
      Only.frame (l := [.mem, .vcp, .run, .fresh]) (only.mono (by simp))⟩

/-! The pins and the TAP (R428, R447, R477). -/

theorem gpioSwitch_row {s : State} (on : powered s = true) (boundary : isFrame s.sfp = true) (one : s.sfp.fi = 1) {n : Nat}
    (released : s.pins.switching = [(n, 2)]) : ∃ t, exec .gpioSwitchDrive s = .next t ∧ t.pins.switching = [(n, 1)] ∧
      tget 0 t.pins.func n = gpioFunc (actv s) n ∧
      t = { s with pins := { s.pins with switching := t.pins.switching, func := t.pins.func, gpioOut := t.pins.gpioOut
                                         level := t.pins.level } } := by
  set u := onPins s (fun p => { p with
    switching := tset p.switching n 1, func := tput 0 p.func n (gpioFunc (actv s) n)
    gpioOut := (act s aGpioOut).setWidth 16 }) with u_def
  have row : xGpioSwitchDrive s = pinLatch u n := by
    rw [xGpioSwitchDrive, if_pos one, released]
    rfl
  refine ⟨_, (congrArg Host.Outcome.next (liveFrame_on on boundary _)).trans (congrArg Host.Outcome.next row), ?_, ?_, rfl⟩
  · show tset s.pins.switching n 1 = _
    rw [released, tset, if_neg (by omega), if_pos rfl]
  · exact tget_tput_same _ _ _ _

theorem tapLive_on {s : State} (on : powered s = true) (t : State) : tapLive s t = t := by
  refine if_neg fun off => ?_
  rw [powered, off] at on
  cases on

theorem wordBits_getD (w : Word) (k : Fin 32) : (wordBits w).getD k false = bit w k := by
  rw [wordBits, List.getD_eq_getElem?_getD, List.getElem?_map, List.getElem?_range k.isLt]
  rfl

theorem idcode_row {s : State} (on : powered s = true) : ∃ t, exec .idcode s = .next t ∧ t.pins.tapIr = 1 ∧
    (∀ k : Fin 32, t.pins.tapDr.getD k false = bit Config.idcode k) ∧
    t = { s with pins := { s.pins with tapIr := 1, tapDr := t.pins.tapDr } } :=
  ⟨_, congrArg Host.Outcome.next (tapLive_on on _), rfl, wordBits_getD _, rfl⟩

theorem bypass_listed {s : State} (on : powered s = true) {code : Byte} (one : code ≠ 1) (two : code ≠ 2)
    (closed : code = 0xFF ∨ bscanOpen s = false) :
    exec (.bypass code) s = .next { s with pins := { s.pins with tapIr := code, tapDr := [false] } } := by
  show execBypass code s = _
  rw [execBypass, if_neg (not_or_intro one two), if_neg (by rcases closed with is | is <;> simp [is]), tapLive_on on]
  rfl

theorem bypass_unlisted {s : State} {code : Byte} (one : code ≠ 1) (two : code ≠ 2) (other : code ≠ 0xFF)
    (unlocked : bscanOpen s = true) : exec (.bypass code) s = .refused .bscanUnlocked := by
  show execBypass code s = _
  rw [execBypass, if_neg (not_or_intro one two), if_pos ⟨other, unlocked⟩]

/-- Settles O49: each clause is a row of a scrubber, of a bank's transition, of a pin or of the TAP. -/
theorem memoriesAndPins : Obligations.MemoriesAndPins := by
  unfold Obligations.MemoriesAndPins
  refine ⟨fun bankB smi idx n k s on => ⟨congrArg Host.Outcome.next (live_on on _),
    fun clean => ⟨mapScrub_single on bankB smi idx n clean, mapScrub_double on bankB smi idx clean⟩, mapWriteback_row on⟩, ?_⟩
  intro mem mb a e src dst bank q n l code s on
  exact ⟨fun scrubbed inside => ⟨fun bank => ⟨memoryScrub_clean on scrubbed inside bank, memoryScrub_single on scrubbed inside bank e,
      memoryScrub_double on scrubbed inside bank⟩, memoryScrub_off on scrubbed .double⟩,
    tableScrub_row on, alignScrub_row on, fun moving _ => powerDone_facts on moving,
    fun boundary one released => gpioSwitch_row on boundary one released, idcode_row on,
    congrArg Host.Outcome.next (tapLive_on on _), bypass_listed on, bypass_unlisted, congrArg Host.Outcome.next (tapLive_on on _)⟩

end Sys2Proof.Machine
end

section
/-! The management ports: reception and their own events (O47). -/

namespace Sys2Proof.Machine

open Sys2Proof

/-! Reception on a management port (R332, R334, R343 to R345). -/

theorem mgWindow_facts (s : State) (b : Bool) (k n : Nat) : (∃ w h x, mgOf (mgWindow s b k n) b =
      { mgOf s b with win := w, hit := h, hitNew := x }) ∧ mgOf (mgWindow s b k n) (!b) = mgOf s (!b) ∧
    (∀ j, ctrVal (mgWindow s b k n) (mgBlk b) j = ctrVal s (mgBlk b) j) ∧ Only [.mgA, .mgB] s (mgWindow s b k n) :=
  ⟨⟨_, _, _, mgOf_onMg_same _ _ _⟩, mgOf_onMg_not _ _ _, ctrVal_onMg _ _ _ _, fun f out => by simp at out; simp [out]⟩

/-- What the reception of a frame leaves: of its port the settings, the link and the FIFO; the other port; and everything
but the ports, Sage and the free values drawn. -/
def Receives (s t : State) (b : Bool) : Prop :=
  (mgOf t b).fifo = (mgOf s b).fifo ∧ (mgOf t b).eff = (mgOf s b).eff ∧ (mgOf t b).throttled = (mgOf s b).throttled ∧
  (mgOf t b).admitted = (mgOf s b).admitted ∧ mgOf t (!b) = mgOf s (!b) ∧ Only [.mgA, .mgB, .sage, .fresh] s t

section
variable {s t u : State} {b : Bool}

theorem Receives.trans (first : Receives s u b) (next : Receives u t b) : Receives s t b := by
  obtain ⟨fifo, eff, throttled, admitted, other, only⟩ := first
  obtain ⟨fifo', eff', throttled', admitted', other', only'⟩ := next
  exact ⟨fifo'.trans fifo, eff'.trans eff, throttled'.trans throttled, admitted'.trans admitted, other'.trans other, only.trans only'⟩

theorem cMg_receives (s : State) (b : Bool) (i n : Nat) : Receives s (cMg s b i n) b :=
  ⟨rfl, rfl, rfl, rfl, rfl, fun f out => by simp at out; simp [out]⟩

theorem mgWindow_receives (s : State) (b : Bool) (k n : Nat) : Receives s (mgWindow s b k n) b := by
  obtain ⟨⟨w, h, x, is⟩, other, -, only⟩ := mgWindow_facts s b k n
  exact ⟨by rw [is], by rw [is], by rw [is], by rw [is], other, only.mono (by simp)⟩

theorem mgLimited_receives (s : State) (b : Bool) (k n : Nat) : Receives s (mgLimited s b k n) b :=
  (cMg_receives _ _ _ _).trans (mgWindow_receives _ _ _ _)

theorem octets_receives (s : State) (b : Bool) (n : Nat) : Receives s (onMg s b (fun m => { m with octRx := m.octRx + n })) b :=
  ⟨by rw [mgOf_onMg_same], by rw [mgOf_onMg_same], by rw [mgOf_onMg_same], by rw [mgOf_onMg_same], mgOf_onMg_not _ _ _,
    fun f out => by simp at out; simp [out]⟩

theorem drew_receives (s : State) (b : Bool) : Receives s (drew s) b :=
  ⟨rfl, rfl, rfl, rfl, rfl, fun f out => by simp at out; simp [out]⟩

theorem Receives.frame (h : Receives s t b) : (mgOf t b).fifo = (mgOf s b).fifo ∧ mgOf t (!b) = mgOf s (!b) ∧
    t = { s with mgA := t.mgA, mgB := t.mgB, sage := t.sage, fresh := t.fresh } := by
  obtain ⟨fifo, -, -, -, other, only⟩ := h
  exact ⟨fifo, other, only.frame⟩

theorem mgLimited_ctr (s : State) (b : Bool) (k n j : Nat) (apart : j ≠ mgLimIdx k) : ctrVal (mgLimited s b k n) (mgBlk b) j = ctrVal s (mgBlk b) j :=
  ((mgWindow_facts _ _ _ _).2.2.1 j).trans (ctrVal_cMg_ne _ _ _ apart)

theorem mgLimited_counted (s : State) (b : Bool) (k : Nat) : Counted s (mgLimited s b k 1) (mgBlk b) (mgLimIdx k) :=
  ((mgWindow_facts _ _ _ _).2.2.1 _).trans (ctrVal_cMg_one _ _ _)
end

section
variable {s : State} (on : powered s = true) {p : MgPort} {f : MgFrame}
include on

theorem frameReceive_dark (dark : (mgOf s (isB p)).link = false) : exec (.mgmtFrameReceive p f) s = .next s := by
  refine congrArg Host.Outcome.next ((live_on on _).trans ?_)
  rw [xMgmtFrameReceive, dark]
  rfl

variable (link : (mgOf s (isB p)).link = true) (quiet : f.symbolErrs = 0)
include link quiet

/-- The state that has taken no symbol error of the frame. -/
theorem frameReceive_row : exec (.mgmtFrameReceive p f) s = .next
    (if f.bytes.length < 64 then mgLimited (mgLimited s (isB p) 1 0) (isB p) 2 1
     else if 1522 < f.bytes.length then mgWindow (cMg (mgLimited s (isB p) 1 0) (isB p) 5 1) (isB p) 2 1
     else if fcsOk f.bytes then goodFrame (mgLimited s (isB p) 1 0) (isB p) f.bytes
     else mgLimited (mgLimited s (isB p) 1 0) (isB p) 0 1) := by
  refine congrArg Host.Outcome.next ((live_on on _).trans ?_)
  rw [xMgmtFrameReceive, link, quiet]
  rfl

theorem frameReceive_runt (short : f.bytes.length < 64) : ∃ t, exec (.mgmtFrameReceive p f) s = .next t ∧
    Counted s t (mgBlk (isB p)) 4 ∧ Receives s t (isB p) := by
  refine ⟨_, (frameReceive_row on link quiet).trans (congrArg Host.Outcome.next (if_pos short)), ?_,
    (mgLimited_receives _ _ _ _).trans (mgLimited_receives _ _ _ _)⟩
  exact (mgLimited_counted _ _ 2).trans (by rw [mgLimited_ctr _ _ _ _ _ (by decide)]; rfl)

theorem frameReceive_oversize (long : 1522 < f.bytes.length) : ∃ t, exec (.mgmtFrameReceive p f) s = .next t ∧
    Counted s t (mgBlk (isB p)) 5 ∧ Receives s t (isB p) := by
  refine ⟨_, (frameReceive_row on link quiet).trans (congrArg Host.Outcome.next ((if_neg (by omega)).trans (if_pos long))), ?_,
    ((mgLimited_receives _ _ _ _).trans (cMg_receives _ _ _ _)).trans (mgWindow_receives _ _ _ _)⟩
  rw [Counted, (mgWindow_facts _ _ _ _).2.2.1, ctrVal_cMg_one, mgLimited_ctr _ _ _ _ _ (by decide)]

variable (long : 64 ≤ f.bytes.length) (fits : f.bytes.length ≤ 1522)
include long fits

theorem frameReceive_fcs (wrong : fcsOk f.bytes = false) : ∃ t, exec (.mgmtFrameReceive p f) s = .next t ∧
    Counted s t (mgBlk (isB p)) 2 ∧ Receives s t (isB p) := by
  refine ⟨_, (frameReceive_row on link quiet).trans (congrArg Host.Outcome.next
    ((if_neg (by omega)).trans ((if_neg (by omega)).trans (if_neg (by simp [wrong]))))), ?_,
    (mgLimited_receives _ _ _ _).trans (mgLimited_receives _ _ _ _)⟩
  exact (mgLimited_counted _ _ 0).trans (by rw [mgLimited_ctr _ _ _ _ _ (by decide)]; rfl)

theorem frameReceive_good (good : fcsOk f.bytes = true) : exec (.mgmtFrameReceive p f) s =
    .next (goodFrame (mgLimited s (isB p) 1 0) (isB p) f.bytes) :=
  (frameReceive_row on link quiet).trans (congrArg Host.Outcome.next
    ((if_neg (by omega)).trans ((if_neg (by omega)).trans (if_pos good))))
end

/-- A good frame is counted with its octets. -/
def octetsTaken (s : State) (b : Bool) (n : Nat) : State :=
  cMg (cMg (onMg s b (fun m => { m with octRx := m.octRx + n })) b 0 1) b 1 n

theorem octetsTaken_facts (s : State) (b : Bool) (n : Nat) : Receives s (octetsTaken s b n) b ∧ Counted s (octetsTaken s b n) (mgBlk b) 0 ∧
    ∀ j, j ≠ 0 → j ≠ 1 → ctrVal (octetsTaken s b n) (mgBlk b) j = ctrVal s (mgBlk b) j := by
  refine ⟨((octets_receives _ _ _).trans (cMg_receives _ _ _ _)).trans (cMg_receives _ _ _ _), ?_, fun j zero one => ?_⟩
  · rw [Counted, octetsTaken, ctrVal_cMg_ne _ _ _ (by decide), ctrVal_cMg_one, ctrVal_onMg]
  · rw [octetsTaken, ctrVal_cMg_ne _ _ _ one, ctrVal_cMg_ne _ _ _ zero, ctrVal_onMg]

/-- The packet of a frame with its return address. -/
def offered (b : Bool) (f : Bytes) : Return × Bytes :=
  ({ via := if b then .mgmtB else .mgmtA, mac := BitVec.ofNat 48 (pkNat f 6 6), vlan := vlanOf f }, vcpOf f)

theorem goodFrame_eq (u : State) (b : Bool) (f : Bytes) : goodFrame u b f =
    if pkNat f 12 2 = 0x8808 then cMg (octetsTaken u b f.length) b 7 1
    else if macPasses u b (slice f 0 6) = false then cMg (octetsTaken u b f.length) b 6 1
    else if pkNat f (typeAt f) 2 ≠ 0x88B5 then cMg (octetsTaken u b f.length) b 7 1
    else if (dmaPut (octetsTaken u b f.length)).2 then admitPkt (dmaPut (octetsTaken u b f.length)).1 b
      (offered b f)
    else (dmaPut (octetsTaken u b f.length)).1 := by
  rfl

theorem macPasses_of_get {s t : State} (shared : get .mgSh t = get .mgSh s) (phase : get .phase t = get .phase s)
    (vcp : get .vcp t = get .vcp s) (b : Bool) (six : Bytes) : macPasses t b six = macPasses s b six := by
  have mgSh : t.mgSh = s.mgSh := shared
  have phase_ : t.phase = s.phase := phase
  have members : t.vcp.members = s.vcp.members := congrArg (·.members) (vcp :)
  simp only [macPasses, effHash, mgSh, phase_, members]

section
variable {u : State} {b : Bool} {f : Bytes} (typed : pkNat f 12 2 ≠ 0x8808)
  (passes : macPasses u b (slice f 0 6) = true)
include typed passes

theorem goodFrame_foreign (foreign : pkNat f (typeAt f) 2 ≠ 0x88B5) : goodFrame u b f = cMg (octetsTaken u b f.length) b 7 1 := by
  rw [goodFrame_eq, if_neg typed, if_neg (by simp [passes]), if_pos foreign]

theorem goodFrame_packet (vcp : pkNat f (typeAt f) 2 = 0x88B5) (banks : ∀ j : Fin 8, bankSt (octetsTaken u b f.length) 1 j = .on) :
    goodFrame u b f = admitPkt (drew (octetsTaken u b f.length)) b
      (offered b f) := by
  rw [goodFrame_eq, if_neg typed, if_neg (by simp [passes]), if_neg (by simp [vcp]), dmaPut_on banks, if_pos rfl]
end

section
variable {u : State} {b : Bool} {x : Return × Bytes}

/-- A packet joins the FIFO. -/
theorem admitPkt_joins (admits : (mgOf u b).throttled = false ∨ vcPri x.2 = 3 ∨ (mgOf u b).admitted < thrRate u b)
    (room : (mgOf u b).fifo.length < 16) : (mgOf (admitPkt u b x) b).fifo = (mgOf u b).fifo ++ [x] ∧
      mgOf (admitPkt u b x) (!b) = mgOf u (!b) ∧ Counted u (admitPkt u b x) (mgBlk b) 8 ∧
      (∀ j, j ≠ 8 → ctrVal (admitPkt u b x) (mgBlk b) j = ctrVal u (mgBlk b) j) ∧ Only [.mgA, .mgB, .sage, .fresh] u (admitPkt u b x) := by
  have offer : ∀ v : State, (mgOf v b).fifo = (mgOf u b).fifo → mgOf v (!b) = mgOf u (!b) →
      (∀ j, ctrVal v (mgBlk b) j = ctrVal u (mgBlk b) j) → Only [.mgA, .mgB, .sage, .fresh] u v →
      (mgOf (fifoOffer v b x) b).fifo = (mgOf u b).fifo ++ [x] ∧ mgOf (fifoOffer v b x) (!b) = mgOf u (!b) ∧
      Counted u (fifoOffer v b x) (mgBlk b) 8 ∧ (∀ j, j ≠ 8 → ctrVal (fifoOffer v b x) (mgBlk b) j = ctrVal u (mgBlk b) j) ∧
      Only [.mgA, .mgB, .sage, .fresh] u (fifoOffer v b x) := fun v fifo other ctr only => by
    have put : fifoOffer v b x = cMg (onMg v b (fun m => { m with fifo := (mgOf v b).fifo ++ [x] })) b 8 1 := if_pos (by rw [fifo]; exact room)
    rw [put]
    refine ⟨?_, ?_, ?_, fun j apart => ?_, fun f out => ?_⟩
    · rw [mgOf_cMg, mgOf_onMg_same, fifo]
    · rw [mgOf_cMg, mgOf_onMg_not, other]
    · rw [Counted, ctrVal_cMg_one, ctrVal_onMg, ctr]
    · rw [ctrVal_cMg_ne _ _ _ apart, ctrVal_onMg, ctr]
    · rw [← only f out]
      simp at out
      simp [out]
  unfold admitPkt
  split
  · exact offer u rfl rfl (fun _ => rfl) (Only.refl _ _)
  · rw [if_pos ((admits.resolve_left (by tauto)).resolve_left (by tauto))]
    exact offer _ (by rw [mgOf_onMg_same]) (mgOf_onMg_not _ _ _) (ctrVal_onMg _ _ _ _) (fun f out => by simp at out; simp [out])

theorem admitPkt_throttled (throttled : (mgOf u b).throttled = true) (low : vcPri x.2 ≠ 3) (spent : thrRate u b ≤ (mgOf u b).admitted) :
    admitPkt u b x = cMg u b 12 1 := by
  rw [admitPkt, if_neg (not_or_intro (by simp [throttled]) low), if_neg (by omega)]

theorem admitPkt_full (free : (mgOf u b).throttled = false) (low : vcPri x.2 ≠ 3) (full : 16 ≤ (mgOf u b).fifo.length) :
    admitPkt u b x = cMg u b 13 1 := by
  rw [admitPkt, if_pos (.inl free), fifoOffer, if_neg (by omega), if_neg fun high => low high.1]
end

section
variable {s : State} (on : powered s = true) {p : MgPort} {f : MgFrame} (link : (mgOf s (isB p)).link = true)
  (quiet : f.symbolErrs = 0) (long : 64 ≤ f.bytes.length) (fits : f.bytes.length ≤ 1522) (good : fcsOk f.bytes = true)
  (typed : pkNat f.bytes 12 2 ≠ 0x8808) (passes : macPasses s (isB p) (slice f.bytes 0 6) = true)
include on link quiet long fits good typed passes

/-- The state that has taken a good frame and counted its octets. -/
theorem octets_facts : Receives s (octetsTaken (mgLimited s (isB p) 1 0) (isB p) f.bytes.length) (isB p) ∧
    Counted s (octetsTaken (mgLimited s (isB p) 1 0) (isB p) f.bytes.length) (mgBlk (isB p)) 0 ∧
    (∀ j, j ≠ 0 → j ≠ 1 → j ≠ 3 → ctrVal (octetsTaken (mgLimited s (isB p) 1 0) (isB p) f.bytes.length) (mgBlk (isB p)) j =
      ctrVal s (mgBlk (isB p)) j) ∧
    macPasses (mgLimited s (isB p) 1 0) (isB p) (slice f.bytes 0 6) = true := by
  obtain ⟨keeps, counted, others⟩ := octetsTaken_facts (mgLimited s (isB p) 1 0) (isB p) f.bytes.length
  have all := (mgLimited_receives s (isB p) 1 0).trans keeps
  refine ⟨all, ?_, fun j zero one three => (others j zero one).trans (mgLimited_ctr _ _ _ _ _ three), ?_⟩
  · rw [Counted, counted, mgLimited_ctr _ _ _ _ _ (by decide)]
  · rw [macPasses_of_get (s := s) (by simp) (by simp) (by simp)]
    exact passes

theorem frameReceive_foreign (foreign : pkNat f.bytes (typeAt f.bytes) 2 ≠ 0x88B5) : ∃ t, exec (.mgmtFrameReceive p f) s = .next t ∧
    Counted s t (mgBlk (isB p)) 7 ∧ Counted s t (mgBlk (isB p)) 0 ∧ Receives s t (isB p) := by
  obtain ⟨keeps, counted, others, still⟩ := octets_facts on link quiet long fits good typed passes
  refine ⟨_, (frameReceive_good on link quiet long fits good).trans (congrArg Host.Outcome.next (goodFrame_foreign typed still foreign)),
    ?_, ?_, keeps.trans (cMg_receives _ _ _ _)⟩
  · rw [Counted, ctrVal_cMg_one, others 7 (by decide) (by decide) (by decide)]
  · rw [Counted, ctrVal_cMg_ne _ _ _ (by decide), counted]

variable (vcp : pkNat f.bytes (typeAt f.bytes) 2 = 0x88B5) (banks : ∀ j : Fin 8, bankSt s 1 j = .on)
include vcp banks

/-- A packet of the management protocol is offered to its port. -/
theorem frameReceive_packet : ∃ u, exec (.mgmtFrameReceive p f) s = .next (admitPkt u (isB p)
      (offered (isB p) f.bytes)) ∧
    Receives s u (isB p) ∧ Counted s u (mgBlk (isB p)) 0 ∧
    (∀ j, j ≠ 0 → j ≠ 1 → j ≠ 3 → ctrVal u (mgBlk (isB p)) j = ctrVal s (mgBlk (isB p)) j) ∧ thrRate u (isB p) = thrRate s (isB p) := by
  obtain ⟨keeps, counted, others, still⟩ := octets_facts on link quiet long fits good typed passes
  have all := keeps.trans (drew_receives _ (isB p))
  obtain ⟨-, eff, -, -, -, only⟩ := id all
  refine ⟨_, (frameReceive_good on link quiet long fits good).trans (congrArg Host.Outcome.next (goodFrame_packet typed still vcp ?_)),
    all, counted, others, ?_⟩
  · intro j
    rw [bankSt, banksOf, show State.mem (octetsTaken _ _ _) = s.mem from only .mem (by simp)]
    exact banks j
  · rw [thrRate, mgEff, eff]
    rfl

theorem frameReceive_joins (admits : (mgOf s (isB p)).throttled = false ∨ vcPri (vcpOf f.bytes) = 3 ∨
      (mgOf s (isB p)).admitted < thrRate s (isB p)) (room : (mgOf s (isB p)).fifo.length < 16) :
    ∃ t, exec (.mgmtFrameReceive p f) s = .next t ∧ (mgOf t (isB p)).fifo = (mgOf s (isB p)).fifo ++
        [offered (isB p) f.bytes] ∧
      Counted s t (mgBlk (isB p)) 8 ∧ Counted s t (mgBlk (isB p)) 0 ∧ mgOf t (!isB p) = mgOf s (!isB p) ∧
      t = { s with mgA := t.mgA, mgB := t.mgB, sage := t.sage, fresh := t.fresh } := by
  obtain ⟨u, row, ⟨fifo, eff, throttled, admitted, other, only⟩, counted, others, rate⟩ :=
    frameReceive_packet on link quiet long fits good typed passes vcp banks
  obtain ⟨joined, other', eight, rest, only'⟩ := admitPkt_joins (x := offered (isB p) f.bytes)
    (by rw [throttled, admitted, rate]; exact admits) (by rw [fifo]; exact room)
  refine ⟨_, row, by rw [joined, fifo], ?_, ?_, other'.trans other, (only.trans only').frame⟩
  · rw [Counted, eight, others 8 (by decide) (by decide) (by decide)]
  · rw [Counted, rest 0 (by decide), counted]

theorem frameReceive_throttled (throttled : (mgOf s (isB p)).throttled = true) (low : vcPri (vcpOf f.bytes) ≠ 3)
    (spent : thrRate s (isB p) ≤ (mgOf s (isB p)).admitted) : ∃ t, exec (.mgmtFrameReceive p f) s = .next t ∧
      Receives s t (isB p) ∧ Counted s t (mgBlk (isB p)) 12 := by
  obtain ⟨u, row, keeps, -, others, rate⟩ := frameReceive_packet on link quiet long fits good typed passes vcp banks
  obtain ⟨-, -, same, admitted, -, -⟩ := id keeps
  refine ⟨_, row.trans (congrArg Host.Outcome.next (admitPkt_throttled (by rw [same]; exact throttled) low
    (by rw [rate, admitted]; exact spent))), keeps.trans (cMg_receives _ _ _ _), ?_⟩
  rw [Counted, ctrVal_cMg_one, others 12 (by decide) (by decide) (by decide)]

theorem frameReceive_full (free : (mgOf s (isB p)).throttled = false) (low : vcPri (vcpOf f.bytes) ≠ 3)
    (full : 16 ≤ (mgOf s (isB p)).fifo.length) : ∃ t, exec (.mgmtFrameReceive p f) s = .next t ∧
      Receives s t (isB p) ∧ Counted s t (mgBlk (isB p)) 13 := by
  obtain ⟨u, row, keeps, -, others, -⟩ := frameReceive_packet on link quiet long fits good typed passes vcp banks
  obtain ⟨fifo, -, same, -, -, -⟩ := id keeps
  refine ⟨_, row.trans (congrArg Host.Outcome.next (admitPkt_full (by rw [same]; exact free) low (by rw [fifo]; exact full))),
    keeps.trans (cMg_receives _ _ _ _), ?_⟩
  rw [Counted, ctrVal_cMg_one, others 13 (by decide) (by decide) (by decide)]
end

/-! The management ports' own events (R331, R332, R336 to R340, R342 to R344). -/

/-- Nothing changes but the port, what both share, Sage and the sticky registers. -/
def PortEvent (s t : State) (b : Bool) : Prop := mgOf t (!b) = mgOf s (!b) ∧ Only [.mgA, .mgB, .mgSh, .sage, .hist] s t

theorem PortEvent.frame {s t : State} {b : Bool} (h : PortEvent s t b) : mgOf t (!b) = mgOf s (!b) ∧
    t = { s with mgA := t.mgA, mgB := t.mgB, mgSh := t.mgSh, sage := t.sage, regs := { s.regs with hist := t.regs.hist } } :=
  ⟨h.1, h.2.frame⟩

@[simp] theorem mgOf_onMgSh (s : State) (f : MgShSt → MgShSt) (b : Bool) : mgOf (onMgSh s f) b = mgOf s b := rfl

@[simp] theorem ctrVal_sticky (s : State) (a : Nat) (w : Word) (k i : Nat) : ctrVal (sticky s a w) k i = ctrVal s k i := rfl

theorem bit_hist_cMg {s : State} {a i : Nat} (h : bit (hist s a) i = true) (b : Bool) (k n : Nat) :
    bit (hist (cMg s b k n) a) i = true := h

/-- The record of a port, as far as the statements tell. -/
theorem newest_fields (s : State) (c u o : Nat) (d : Bytes) : (newest (trace s c u o d)).map (fun r => (r.cls, r.sub, r.obj, r.data)) =
    some (c, u, BitVec.ofNat 16 o, d) := by
  rw [newest_trace]
  rfl

section
variable {s : State} {b : Bool}

theorem linkLoss_facts : (mgOf (linkLoss s b) b).link = false ∧ (mgOf (linkLoss s b) b).mode = 0 ∧ (mgOf (linkLoss s b) b).fifo = [] ∧
    (mgOf (linkLoss s b) b).replies = [] ∧ Counted s (linkLoss s b) (mgBlk b) 19 ∧ bit (hist (linkLoss s b) (hMg b)) 8 = true ∧
    (newest (linkLoss s b)).map (fun r => (r.cls, r.sub, r.obj, r.data)) = some (9, 6, BitVec.ofNat 16 (b2n b), [0]) ∧
    PortEvent s (linkLoss s b) b := by
  have port : mgOf (linkLoss s b) b = { mgOf s b with link := false, mode := 0, fifo := [], replies := [], searchAge := evaluated s } := by
    rw [linkLoss, mgOf_trace, mgOf_sticky, mgOf_cMg, mgOf_cMg, mgOf_onMg_same]
  refine ⟨by rw [port], by rw [port], by rw [port], by rw [port], ?_, ?_, newest_fields _ _ _ _ _, ?_, fun f out => ?_⟩
  · rw [Counted, linkLoss, ctrVal_trace_mg _ _ _ _ _ _ (by decide), ctrVal_sticky, ctrVal_cMg_one, ctrVal_cMg_ne _ _ _ (by decide),
      ctrVal_onMg]
  · exact bit_hist_trace (bit_sticky (by decide) _ _) _ _ _ _
  · rw [linkLoss, mgOf_trace, mgOf_sticky, mgOf_cMg, mgOf_cMg, mgOf_onMg_not]
  · simp at out
    simp [out]

theorem bit_hist_linkLoss {a i : Nat} (h : bit (hist s a) i = true) : bit (hist (linkLoss s b) a) i = true := by
  have kept : bit (hist (onMg s b fun m => { m with link := false, mode := 0, fifo := [], replies := [], searchAge := evaluated s }) a) i = true := by
    rw [hist_of_get (s := s) (by simp)]
    exact h
  exact bit_hist_trace (bit_hist_sticky (bit_hist_cMg (bit_hist_cMg kept _ _ _) _ _ _) _ _) _ _ _ _

theorem linkUp_facts (mode speed : Nat) : (mgOf (linkUp s b mode speed) b).link = true ∧ (mgOf (linkUp s b mode speed) b).mode = mode ∧
    (mgOf (linkUp s b mode speed) b).speed = speed ∧ (mgOf (linkUp s b mode speed) b).fifo = (mgOf s b).fifo ∧
    ((mgOf s b).link = false → (newest (linkUp s b mode speed)).map (fun r => (r.cls, r.sub, r.obj, r.data)) =
      some (9, 6, BitVec.ofNat 16 (b2n b), [1])) ∧ PortEvent s (linkUp s b mode speed) b := by
  have only : Only [.mgA, .mgB, .mgSh, .sage, .hist] s (linkUp s b mode speed) := fun f out => by simp at out; simp [out]
  unfold linkUp at only ⊢
  dsimp only at only ⊢
  split
  case isTrue was =>
    rw [if_pos was] at only
    refine ⟨?_, ?_, ?_, ?_, fun dark => absurd was (by simp [dark]), mgOf_onMg_not _ _ _, only⟩
    all_goals rw [mgOf_onMg_same]
  case isFalse was =>
    rw [if_neg was] at only
    refine ⟨?_, ?_, ?_, ?_, fun _ => newest_fields _ _ _ _ _, by rw [mgOf_trace, mgOf_onMg_not], only⟩
    all_goals rw [mgOf_trace, mgOf_onMg_same]

section
variable (on : powered s = true) {p : MgPort}
include on

theorem linkUp_row {mode speed : Fin 4} (enabled : mgEn s (isB p) = true) (allowed : modeAllowed s (isB p) mode = true)
    (fast : speedAllowed mode speed = true) : exec (.mgLinkUp p mode speed false) s = .next (linkUp s (isB p) mode speed) := by
  refine congrArg Host.Outcome.next ((live_on on _).trans ?_)
  rw [xMgLinkUp, enabled, allowed, fast]
  rfl

/-- A half-duplex link is no link. -/
theorem linkHalf_row {mode speed : Fin 4} (enabled : mgEn s (isB p) = true) (allowed : modeAllowed s (isB p) mode = true)
    (fast : speedAllowed mode speed = true) (copper : mode = 1) : ∃ t, exec (.mgLinkUp p mode speed true) s = .next t ∧
      (mgOf t (isB p)).link = false ∧ bit (hist t (hMg (isB p))) 7 = true ∧ PortEvent s t (isB p) := by
  have row : xMgLinkUp (isB p) mode speed true s = xMgLinkDown (isB p) (sticky s (hMg (isB p)) 0x80) := by
    rw [xMgLinkUp, enabled, allowed, fast, copper]
    rfl
  have seven : bit (hist (sticky s (hMg (isB p)) 0x80) (hMg (isB p))) 7 = true := bit_sticky (by decide) _ _
  have only : Only [.mgA, .mgB, .mgSh, .sage, .hist] s (xMgLinkDown (isB p) (sticky s (hMg (isB p)) 0x80)) :=
    fun f out => by simp at out; simp [out]
  refine ⟨_, (congrArg Host.Outcome.next (live_on on _)).trans (congrArg Host.Outcome.next row), ?_⟩
  unfold xMgLinkDown at only ⊢
  split
  case isTrue was =>
    rw [if_pos was] at only
    obtain ⟨dark, -, -, -, -, -, -, other, -⟩ := linkLoss_facts (s := sticky s (hMg (isB p)) 0x80) (b := isB p)
    exact ⟨dark, bit_hist_linkLoss seven, other.trans (mgOf_sticky _ _ _ _), only⟩
  case isFalse was =>
    rw [if_neg was] at only
    rw [mgOf_sticky] at was ⊢
    exact ⟨by simpa using was, seven, mgOf_sticky _ _ _ _, only⟩

theorem linkDown_row (link : (mgOf s (isB p)).link = true) : exec (.mgLinkDown p) s = .next (linkLoss s (isB p)) :=
  congrArg Host.Outcome.next ((live_on on _).trans (if_pos link))

theorem modeSearch_row (epoch : isEpoch s.sfp = true) (enabled : mgEn s (isB p) = true) (auto : mgMode s (isB p) = 0)
    (dark : (mgOf s (isB p)).link = false) (long : 65 ≤ (mgOf s (isB p)).searchAge) : ∃ t, exec (.modeSearchSwitch p) s = .next t ∧
      (mgOf t (isB p)).search10g = !(mgOf s (isB p)).search10g ∧
      (mgOf t (isB p)).searchAge = b2n (s.epochDone == some s.sfp) ∧ PortEvent s t (isB p) := by
  have row : xModeSearchSwitch (isB p) s = onMg s (isB p) (fun m => { m with search10g := !m.search10g, searchAge := evaluated s }) := by
    rw [xModeSearchSwitch, enabled, auto, dark]
    exact if_pos (by simp [long])
  refine ⟨_, (congrArg Host.Outcome.next (liveEpoch_on on epoch _)).trans (congrArg Host.Outcome.next row), ?_, ?_, mgOf_onMg_not _ _ _,
    fun f out => by simp at out; simp [out]⟩
  · rw [mgOf_onMg_same]
  · rw [mgOf_onMg_same]
    rfl
end

/-! Rate-step (R338 to R340). -/

theorem mdioNext_busy (u : State) (some_ : u.mgSh.rsOps ≠ []) : (mdioNext u).mgSh.mdio.isSome = true := by
  unfold mdioNext
  split
  · rfl
  · next none_ =>
    cases mdio : u.mgSh.mdio with
    | some w => rfl
    | none =>
      obtain ⟨⟨m, w⟩, l, is⟩ := List.exists_cons_of_ne_nil some_
      exact absurd is (none_ m w l mdio)

theorem rsStart_facts (u : State) (b : Bool) (l : List Nat) : (rsStart u b l).mgSh.mdio.isSome = true ∧ Only [.mgSh] u (rsStart u b l) := by
  refine ⟨mdioNext_busy _ ?_, fun f out => by simp at out; simp [out]⟩
  show u.mgSh.rsOps ++ (rsOpsFor (mgPhyad u b) l).map _ ≠ []
  simp [rsOpsFor]

theorem rsStep_facts (to_ : Nat) {k : Nat} (low : k < 65536) : (mgOf (rsStep s b to_ k) b).relink = some (to_, none) ∧ (mgOf (rsStep s b to_ k) b).sinceStep = some 0 ∧
    Counted s (rsStep s b to_ k) (mgBlk b) k ∧ (rsStep s b to_ k).mgSh.mdio.isSome = true ∧
    (newest (rsStep s b to_ k)).map (fun r => (r.cls, r.sub, r.data)) = some (9, 4, [by1 (mgOf s b).speed, by1 to_]) ∧
    PortEvent s (rsStep s b to_ k) b := by
  set u := onMg s b (fun m => { m with sinceStep := some 0, quiet := 0, relink := some (to_, none) }) with u_def
  obtain ⟨busy, only⟩ := rsStart_facts u b [to_]
  have port : ∀ m, mgOf (rsStep s b to_ k) m = mgOf u m := fun m => by
    rw [rsStep, mgOf_trace, mgOf_cMg]
    exact mgOf_of_get (only .mgA (by simp)) (only .mgB (by simp)) m
  have mdio : (rsStep s b to_ k).mgSh = (rsStart u b [to_]).mgSh := by
    have kept : get .mgSh (rsStep s b to_ k) = get .mgSh (rsStart u b [to_]) := by simp [rsStep, u_def]
    exact kept
  refine ⟨by rw [port, mgOf_onMg_same], by rw [port, mgOf_onMg_same], ?_, by rw [mdio]; exact busy, ?_,
    by rw [port, mgOf_onMg_not], fun f out => by simp at out; simp [out]⟩
  · rw [Counted, rsStep, ctrVal_trace_mg _ _ _ _ _ _ low, ctrVal_cMg_one, ctrVal_of_get (only .sage (by simp)), ctrVal_onMg]
  · rw [rsStep, newest_trace]
    rfl

/-- The speeds that the port advertises again. -/
def rsAll (s : State) (b : Bool) : List Nat := [0, 1, 2].filter (fun v => decide (rsMin s b ≤ v))

/-- Rate-step has given up: it is disabled in force and in the register. -/
def rsGivenUp (s : State) (b : Bool) : State :=
  onRegs (onMg s b (fun m => { m with relink := none
                                      eff := tput (regReset (aMg b 4)) m.eff 4 (setBit (mgEff s b 4) 0 false) }))
    (setAct (aMg b 4) (setBit (act s (aMg b 4)) 0 false))

theorem bit_setBit_false (w : Word) : bit (setBit w 0 false) 0 = false := by
  simp [bit, setBit]

/-- The throttled mode of a port ends. -/
def released (s : State) (b : Bool) : State :=
  trace (onMg s b (fun m => { m with throttled := false, relNow := false })) 9 3 (mgObj b) [by1 (mgOf s b).limBit]

theorem released_facts : (mgOf (released s b) b).throttled = false ∧
    (newest (released s b)).map (fun r => (r.cls, r.sub, r.obj)) = some (9, 3, BitVec.ofNat 16 (b2n b)) ∧ PortEvent s (released s b) b := by
  refine ⟨by rw [released, mgOf_trace, mgOf_onMg_same], ?_, by rw [released, mgOf_trace, mgOf_onMg_not],
    fun f out => by simp at out; simp [released, out]⟩
  rw [released, newest_trace]
  rfl

section
variable (on : powered s = true) {p : MgPort}
include on

theorem rateStepDown_row (epoch : isEpoch s.sfp = true) (evaluated_ : s.epochDone = some s.sfp) (acts : rsActs s (isB p) = true)
    (free : rsBusy s (isB p) = false) (above : rsMin s (isB p) < (mgOf s (isB p)).speed) (below : (mgOf s (isB p)).speed ≤ 2)
    (quiet : rsDwell s (isB p) ≤ (mgOf s (isB p)).quiet) (rested : rsRested s (isB p) = true) :
    exec (.rateStepDown p) s = .next (rsStep s (isB p) ((mgOf s (isB p)).speed - 1) 20) := by
  refine congrArg Host.Outcome.next ((liveEpoch_on on epoch _).trans ?_)
  rw [xRateStepDown, acts, free, evaluated_, rested]
  exact if_pos (by simp [above, below, quiet])

theorem relinkExpire_row {x : Nat} (expired : (mgOf s (isB p)).relink = some (x, some 0)) :
    ∃ t, exec (.rsRelinkExpire p) s = .next t ∧ (mgOf t (isB p)).relink = none ∧ rsEn t (isB p) = false ∧
      bit (actv t (aMg (isB p) 4)) 0 = false ∧ Counted s t (mgBlk (isB p)) 22 ∧ bit (hist t (hMg (isB p))) 6 = true ∧
      mgOf t (!isB p) = mgOf s (!isB p) ∧
      t = { s with mgA := t.mgA, mgB := t.mgB, mgSh := t.mgSh, sage := t.sage
                   regs := { s.regs with hist := t.regs.hist, act := t.regs.act } } := by
  generalize b_def : isB p = b at *
  set u := rsGivenUp s b with u_def
  obtain ⟨-, only⟩ := rsStart_facts u b (rsAll s b)
  have row : xRsRelinkExpire b s = sticky (cMg (rsStart u b (rsAll s b)) b 22 1) (hMg b) 0x40 := by
    rw [xRsRelinkExpire, expired]
    rfl
  have port : ∀ m, mgOf (sticky (cMg (rsStart u b (rsAll s b)) b 22 1) (hMg b) 0x40) m = mgOf u m := fun m => by
    rw [mgOf_sticky, mgOf_cMg]
    exact mgOf_of_get (only .mgA (by simp)) (only .mgB (by simp)) m
  have same : mgOf u b = { mgOf s b with relink := none
                                         eff := tput (regReset (aMg b 4)) (mgOf s b).eff 4 (setBit (mgEff s b 4) 0 false) } := mgOf_onMg_same s b _
  refine ⟨sticky (cMg (rsStart u b (rsAll s b)) b 22 1) (hMg b) 0x40, ?_, by rw [port, same], ?_, ?_, ?_, bit_sticky (by decide) _ _,
    by rw [port]; exact mgOf_onMg_not s b _, ?_⟩
  · rw [← b_def] at row ⊢
    exact (congrArg Host.Outcome.next (live_on on _)).trans (congrArg Host.Outcome.next row)
  · rw [rsEn, mgEff, port, same, tget_tput_same]
    exact bit_setBit_false _
  · have kept : get .act (sticky (cMg (rsStart u b (rsAll s b)) b 22 1) (hMg b) 0x40) = get .act (rsStart u b (rsAll s b)) := by simp
    rw [actv_of_get (kept.trans (only .act (by simp)))]
    show bit (tget _ (tput _ _ (aMg b 4) _) (aMg b 4)) 0 = false
    rw [tget_tput_same]
    exact bit_setBit_false _
  · rw [Counted, ctrVal_sticky, ctrVal_cMg_one, ctrVal_of_get (only .sage (by simp))]
    exact congrArg (fun n => (n + 1) % 2 ^ 64) (ctrVal_onMg s b _ _ _)
  · refine Only.frame (l := [.mgA, .mgB, .mgSh, .sage, .hist, .act]) fun f out => ?_
    simp at out
    refine Eq.trans (by simp [out]) ((only f (by simp [out])).trans ?_)
    simp [u_def, rsGivenUp, out]

/-! Throttling, the snapshot and MDIO (R337, R342, R344). -/

theorem throttleRelease_row (boundary : isFrame s.sfp = true) (throttled : (mgOf s (isB p)).throttled = true) :
    exec (.throttleRelease p) s = .next (if (isEpoch s.sfp && s.epochDone == some s.sfp && thrRelease s (isB p) != 0 &&
        decide (thrRelease s (isB p) < (mgOf s (isB p)).limAge) || s.frameDone == some s.sfp && (mgOf s (isB p)).relNow) then
      released s (isB p) else s) := by
  refine congrArg Host.Outcome.next ((liveFrame_on on boundary _).trans ?_)
  rw [xThrottleRelease, throttled]
  rfl

theorem mgmtSnapshot_row {f : Sfp} {va vb : Bool} (pending : s.mgSh.snapPend = some (f, va, vb)) (now : s.sfp = f) :
    ∃ t, exec .mgmtSnapshotLatch s = .next t ∧ t.mgSh.snapPend = none ∧ t.mgSh.snapSfp = f ∧ t.mgSh.validA = va ∧
      t.mgSh.validB = vb ∧ (va = true → t.mgA.snap = (List.range 25).map (ctrVal s 9)) ∧
      (vb = true → t.mgB.snap = (List.range 25).map (ctrVal s 0xA)) ∧
      t = { s with mgA := { s.mgA with snap := t.mgA.snap }, mgB := { s.mgB with snap := t.mgB.snap }, mgSh := t.mgSh } := by
  refine ⟨_, congrArg Host.Outcome.next (live_on on _), ?_⟩
  rw [xMgmtSnapshotLatch, pending]
  dsimp only
  rw [if_pos now]
  cases va
  · cases vb
    · exact ⟨rfl, rfl, rfl, rfl, nofun, nofun, rfl⟩
    · exact ⟨rfl, rfl, rfl, rfl, nofun, fun _ => rfl, rfl⟩
  · cases vb
    · exact ⟨rfl, rfl, rfl, rfl, fun _ => rfl, nofun, rfl⟩
    · exact ⟨rfl, rfl, rfl, rfl, fun _ => rfl, fun _ => rfl, rfl⟩

theorem mgmtSnapshot_waits {f : Sfp} {va vb : Bool} (pending : s.mgSh.snapPend = some (f, va, vb)) (later : s.sfp ≠ f) :
    exec .mgmtSnapshotLatch s = .next s := by
  refine congrArg Host.Outcome.next ((live_on on _).trans ?_)
  rw [xMgmtSnapshotLatch, pending]
  exact if_neg later

section
variable {w : Word} (busy : s.mgSh.mdio = some w) (host : s.mgSh.mdioRs = none) (alone : s.mgSh.rsOps = []) (rd : BitVec 16)
include busy host alone

theorem mdioDone_read (reads : 2 ≤ bits w 29 28) : exec (.mdioDone rd) s =
    .next { s with mgSh := { s.mgSh with mdio := none, mdioRs := none, mdioData := rd, mdioValid := true } } := by
  refine congrArg Host.Outcome.next ((live_on on _).trans ?_)
  rw [xMdioDone, busy]
  simp only [host]
  rw [if_pos (show 2 ≤ mdioOp w from reads)]
  simp only [mdioNext, onMgSh, alone]

theorem mdioDone_write (writes : bits w 29 28 < 2) : exec (.mdioDone rd) s =
    .next { s with mgSh := { s.mgSh with mdio := none, mdioRs := none } } := by
  refine congrArg Host.Outcome.next ((live_on on _).trans ?_)
  rw [xMdioDone, busy]
  simp only [host]
  rw [if_neg (show ¬ 2 ≤ mdioOp w from Nat.not_le.mpr writes)]
  simp only [mdioNext, onMgSh, alone]
end
end
end

theorem epoch_frame {p : Sfp} (epoch : isEpoch p = true) : isFrame p = true := (Bool.and_eq_true_iff.mp epoch).1

/-- Settles O47: each clause is a row of the receiver or of one of the port's own events. -/
theorem managementPorts : Obligations.ManagementPorts := by
  unfold Obligations.ManagementPorts
  refine ⟨fun p f s on quiet => ⟨frameReceive_dark on, fun link => ⟨fun short => ?_, fun long => ?_, fun long fits wrong => ?_,
    fun long fits good typed passes => ⟨fun foreign => ?_, fun vcp banks => ⟨fun admits room => ?_, fun throttled low spent => ?_,
      fun free low full => ?_⟩⟩⟩⟩, fun p mode speed rd w f va vb x s on => ⟨fun enabled allowed fast => ⟨?_, fun copper => ?_⟩,
    fun link => ?_, fun epoch enabled auto dark long => ?_, fun epoch done acts free above below still rested => ?_, relinkExpire_row on,
    fun boundary throttled done now => ?_, fun epoch throttled done later set_ => ⟨fun old => ?_, fun young => ?_⟩,
    fun pending => ⟨mgmtSnapshot_row on pending, mgmtSnapshot_waits on pending⟩,
    fun busy host alone => ⟨mdioDone_read on busy host alone rd, mdioDone_write on busy host alone rd⟩⟩⟩
  · obtain ⟨t, row, counted, keeps⟩ := frameReceive_runt on link quiet short
    obtain ⟨fifo, rest⟩ := keeps.frame
    exact ⟨t, row, counted, fifo, rest⟩
  · obtain ⟨t, row, counted, keeps⟩ := frameReceive_oversize on link quiet long
    obtain ⟨fifo, rest⟩ := keeps.frame
    exact ⟨t, row, counted, fifo, rest⟩
  · obtain ⟨t, row, counted, keeps⟩ := frameReceive_fcs on link quiet long fits wrong
    obtain ⟨fifo, rest⟩ := keeps.frame
    exact ⟨t, row, counted, fifo, rest⟩
  · obtain ⟨t, row, counted, frames, keeps⟩ := frameReceive_foreign on link quiet long fits good typed passes foreign
    obtain ⟨fifo, rest⟩ := keeps.frame
    exact ⟨t, row, counted, frames, fifo, rest⟩
  · obtain ⟨t, row, joined, counted, frames, rest⟩ := frameReceive_joins on link quiet long fits good typed passes vcp banks admits room
    exact ⟨t, row, joined, counted, frames, rest⟩
  · obtain ⟨t, row, keeps, counted⟩ := frameReceive_throttled on link quiet long fits good typed passes vcp banks throttled low spent
    obtain ⟨fifo, rest⟩ := keeps.frame
    exact ⟨t, row, fifo, counted, rest⟩
  · obtain ⟨t, row, keeps, counted⟩ := frameReceive_full on link quiet long fits good typed passes vcp banks free low full
    obtain ⟨fifo, rest⟩ := keeps.frame
    exact ⟨t, row, fifo, counted, rest⟩
  · obtain ⟨up, mode_, speed_, fifo, report, rest⟩ := linkUp_facts (s := s) (b := isB p) mode speed
    exact ⟨_, linkUp_row on enabled allowed fast, up, mode_, speed_, fifo, report, rest.frame⟩
  · obtain ⟨t, row, dark, seven, rest⟩ := linkHalf_row on enabled allowed fast copper
    exact ⟨t, row, dark, seven, rest.frame⟩
  · obtain ⟨dark, mode_, fifo, replies, counted, eight, report, rest⟩ := linkLoss_facts (s := s) (b := isB p)
    exact ⟨_, linkDown_row on link, dark, mode_, fifo, replies, counted, eight, report, rest.frame⟩
  · obtain ⟨t, row, search, age, rest⟩ := modeSearch_row on epoch enabled auto dark long
    exact ⟨t, row, search, age, rest.frame⟩
  · obtain ⟨relink, step, counted, busy, report, rest⟩ := rsStep_facts (s := s) (b := isB p) ((mgOf s (isB p)).speed - 1) (k := 20) (by decide)
    exact ⟨_, rateStepDown_row on epoch done acts free above below still rested, relink, step, counted, busy, report, rest.frame⟩
  · obtain ⟨open_, report, rest⟩ := released_facts (s := s) (b := isB p)
    exact ⟨_, (throttleRelease_row on boundary throttled).trans (congrArg Host.Outcome.next (if_pos (by simp [done, now]))), open_, report,
      rest.frame⟩
  · obtain ⟨open_, -, rest⟩ := released_facts (s := s) (b := isB p)
    exact ⟨_, (throttleRelease_row on (epoch_frame epoch) throttled).trans (congrArg Host.Outcome.next
      (if_pos (by simp [epoch, done, set_, old]))), open_, rest.frame⟩
  · exact (throttleRelease_row on (epoch_frame epoch) throttled).trans (congrArg Host.Outcome.next
      (if_neg (by simp [later, Nat.not_lt.mpr young])))

end Sys2Proof.Machine
end

section
/-! Frame and epoch boundaries (O50). -/

namespace Sys2Proof.Machine

open Sys2Proof

/-! The overhead words of a frame (Tables 05-5 and 05-6). -/

theorem bits_ofNat (w n hi lo : Nat) : bits (BitVec.ofNat w n) hi lo = n % 2 ^ w / 2 ^ lo % 2 ^ (hi + 1 - lo) := by
  rw [bits, BitVec.toNat_ofNat]

/-- The fields of O0 fill their places. -/
theorem o0Fields_parts {p : Sfp} (ok : sfpOk p = true) (rdi ms lp : Bool) : o0Fields p rdi ms lp / 2 ^ 24 = 0xE471B2 ∧
    o0Fields p rdi ms lp / 2 ^ 19 % 2 ^ 5 = p.fi ∧ o0Fields p rdi ms lp / 2 ^ 9 % 2 = b2n ms := by
  have frame : p.fi < 32 := by
    simp only [sfpOk, Bool.and_eq_true, decide_eq_true_eq] at ok
    exact ok.1.2
  have slice_ : pk1 (beBytes 6 p.mfc) (p.fi % 6) < 256 := pk1_lt _ _
  unfold o0Fields
  generalize pk1 (beBytes 6 p.mfc) (p.fi % 6) = b at slice_ ⊢
  have r := at1_cases rdi 10
  have m := at1_cases ms 9
  have l := at1_cases lp 7
  cases ms <;> simp only [at1, b2n, Bool.false_eq_true, if_false, if_true] at * <;> omega

theorem o0Word_bits (p : Sfp) (rdi ms lp : Bool) {n : Nat} (is : o0Fields p rdi ms lp = n) (small : n < 2 ^ 48) {hi lo : Nat}
    (low : 8 ≤ lo) (high : hi < 56) (order : lo ≤ hi) : bits (o0Word p rdi ms lp) hi lo = n / 2 ^ (lo - 8) % 2 ^ (hi + 1 - lo) := by
  rw [o0Word, withCrc8, is, bits_ofNat]
  have crc := (crc8 (beBytes 6 n)).isLt
  generalize (crc8 (beBytes 6 n)).toNat = c at crc
  have fits : n * 256 + c < 2 ^ 56 := by omega
  have place : (2 : Nat) ^ lo = 256 * 2 ^ (lo - 8) := by
    rw [show (256 : Nat) = 2 ^ 8 by decide, ← Nat.pow_add]
    congr 1
    omega
  have top : (n * 256 + c) / 256 = n := by omega
  rw [Nat.mod_eq_of_lt fits, place, ← Nat.div_div_eq_div_mul, top]

/-- The bytes of O0 above its CRC. -/
theorem o0Word_bytes (p : Sfp) (rdi ms lp : Bool) {n : Nat} (is : o0Fields p rdi ms lp = n) (small : n < 2 ^ 48) :
    (List.range 6).map (fun k => by1 (bits (o0Word p rdi ms lp) (55 - 8 * k) (48 - 8 * k))) = beBytes 6 n := by
  have byte : ∀ k < 6, by1 (bits (o0Word p rdi ms lp) (55 - 8 * k) (48 - 8 * k)) = BitVec.ofNat 8 (n / 256 ^ (5 - k)) := fun k inside => by
    rw [o0Word_bits p rdi ms lp is small (by omega) (by omega) (by omega), by1,
      show 55 - 8 * k + 1 - (48 - 8 * k) = 8 by omega, show 48 - 8 * k - 8 = 8 * (5 - k) by omega, Nat.pow_mul,
      show (2 : Nat) ^ 8 = 256 from rfl]
    exact BitVec.eq_of_toNat_eq (by simp)
  rw [show List.range 6 = [0, 1, 2, 3, 4, 5] from rfl]
  simp only [List.map_cons, List.map_nil, byte 0 (by decide), byte 1 (by decide), byte 2 (by decide), byte 3 (by decide),
    byte 4 (by decide), byte 5 (by decide)]
  rfl

theorem o0Word_facts {p : Sfp} (ok : sfpOk p = true) (rdi ms lp : Bool) : bits (o0Word p rdi ms lp) 55 32 = 0xE471B2 ∧
    bits (o0Word p rdi ms lp) 31 27 = p.fi ∧ bits (o0Word p rdi ms lp) 17 17 = b2n ms ∧
    crc8 ((List.range 6).map (fun k => by1 (bits (o0Word p rdi ms lp) (55 - 8 * k) (48 - 8 * k)))) =
      by1 (bits (o0Word p rdi ms lp) 7 0) := by
  obtain ⟨pattern, frame, sel⟩ := o0Fields_parts ok rdi ms lp
  have small : o0Fields p rdi ms lp < 2 ^ 48 := by omega
  refine ⟨?_, ?_, ?_, ?_⟩
  · rw [o0Word_bits p rdi ms lp rfl small (by decide) (by decide) (by decide), pattern]
    rfl
  · rw [o0Word_bits p rdi ms lp rfl small (by decide) (by decide) (by decide)]
    exact frame
  · rw [o0Word_bits p rdi ms lp rfl small (by decide) (by decide) (by decide)]
    exact sel
  · rw [o0Word_bytes p rdi ms lp rfl small, o0Word, withCrc8, bits_ofNat]
    have crc := (crc8 (beBytes 6 (o0Fields p rdi ms lp))).isLt
    generalize is : crc8 (beBytes 6 (o0Fields p rdi ms lp)) = c at crc ⊢
    have low : (o0Fields p rdi ms lp * 256 + c.toNat) % 2 ^ 56 / 2 ^ 0 % 2 ^ (7 + 1 - 0) = c.toNat := by omega
    rw [low]
    simp [by1]

theorem txQl_small (s : State) (p : Nat) : txQl s p < 256 := by
  have narrow : ∀ {n : Nat} (w : BitVec n) (hi lo : Nat), hi + 1 - lo = 4 → bits w hi lo < 256 := fun w hi lo four => by
    have small := bits_lt w hi lo
    rw [four] at small
    omega
  have candidate : ∀ c, effQl s c < 256 := fun c => by
    unfold effQl
    split
    · split
      · exact narrow _ _ _ rfl
      · have := (portOf s (cLane (actv s) c)).ql.isLt
        omega
    · exact narrow _ _ _ (by omega)
  unfold txQl
  split
  · split
    · decide
    · split
      · exact candidate _
      · split
        · exact narrow _ _ _ rfl
        · exact narrow _ _ _ rfl
  · split
    · exact narrow _ _ _ rfl
    · exact narrow _ _ _ rfl

theorem o1Word_smi (o0 : W56) {smi ql tti0 tti1 : Nat} (wide : smi < 2 ^ 16) (four : ql < 256) (first : tti0 < 256)
    (second : tti1 < 256) : bits (o1Word o0 smi ql tti0 tti1) 55 40 = smi := by
  rw [o1Word, withCrc16, bits_ofNat]
  generalize crc16 (wBytes o0 ++ beBytes 5 (smi * 2 ^ 24 + ql * 2 ^ 16 + tti0 * 256 + tti1)) = c
  have crc := c.isLt
  omega

theorem smiSent_small (s : State) (p : Nat) : smiSent s p < 2 ^ 16 := by
  unfold smiSent
  split
  · decide
  · exact bits_lt _ 31 16

/-- The words of a trunk's frame carry its position, the bank's role and the transmit SMI. -/
theorem sendWords_bits (s : State) (p : Nat) (ok : sfpOk s.sfp = true) :
    bits (portOf (sendWords s p) p).txO0 55 32 = 0xE471B2 ∧ bits (portOf (sendWords s p) p).txO0 31 27 = s.sfp.fi ∧
    bits (portOf (sendWords s p) p).txO0 17 17 = b2n s.map.bActive ∧
    crc8 ((List.range 6).map (fun k => by1 (bits (portOf (sendWords s p) p).txO0 (55 - 8 * k) (48 - 8 * k)))) =
      by1 (bits (portOf (sendWords s p) p).txO0 7 0) ∧
    bits (portOf (sendWords s p) p).txO1 55 40 = smiSent s p := by
  obtain ⟨pattern, frame, sel, crc⟩ := o0Word_facts ok (portOf s p).txRdi s.map.bActive (txLpbk s p)
  have o0 : (portOf (sendWords s p) p).txO0 = o0Word s.sfp (portOf s p).txRdi s.map.bActive (txLpbk s p) := by
    rw [sendWords, portOf_onPort_same]
  have o1 : (portOf (sendWords s p) p).txO1 = o1Word (o0Word s.sfp (portOf s p).txRdi s.map.bActive (txLpbk s p)) (smiSent s p)
      (txQl s p) (ttiByte (actv s) (aTxTti p) (2 * s.sfp.fi + 0)).toNat (ttiByte (actv s) (aTxTti p) (2 * s.sfp.fi + 1)).toNat := by
    rw [sendWords, portOf_onPort_same]
  rw [o0, o1]
  exact ⟨pattern, frame, sel, crc, o1Word_smi _ (smiSent_small s p) (txQl_small s p) (BitVec.isLt _) (BitVec.isLt _)⟩

/-! What a frame boundary leaves (R93, R125). -/

/-- The words O0 and O1 that a port sends. -/
def sentOf (s : State) (p : Nat) : W56 × W56 := ((portOf s p).txO0, (portOf s p).txO1)

/-- The staged views and the words sent are the same. -/
def Steady (s t : State) : Prop := get .stg t = get .stg s ∧ ∀ p, sentOf t p = sentOf s p

theorem Steady.trans {s u t : State} (h : Steady s u) (k : Steady u t) : Steady s t :=
  ⟨k.1.trans h.1, fun p => (k.2 p).trans (h.2 p)⟩

theorem Steady.of_get {s t : State} (stg : get .stg t = get .stg s) (ports : get .ports t = get .ports s) : Steady s t :=
  ⟨stg, fun p => by rw [sentOf, sentOf, portOf_of_get ports]⟩

theorem sentOf_onPort {s : State} {p : Nat} {f : PortSt → PortSt} (same : ∀ x, (f x).txO0 = x.txO0 ∧ (f x).txO1 = x.txO1) (q : Nat) :
    sentOf (onPort s p f) q = sentOf s q := by
  by_cases here : q = p
  · subst here
    obtain ⟨zero, one⟩ := same (portOf s q)
    rw [sentOf, portOf_onPort_same, zero, one, sentOf]
  · rw [sentOf, portOf_onPort_ne _ _ here, sentOf]

theorem mgmtDiscard_steady (s : State) (p : Nat) : Steady s (mgmtDiscard s p) := by
  have dropped : Steady s (onTrunk s p fun t => { t with reasm := none }) := ⟨by simp, sentOf_onPort fun x => ⟨rfl, rfl⟩⟩
  unfold mgmtDiscard
  split
  · exact dropped.trans (.of_get (by simp) (by simp))
  · exact .of_get rfl rfl

theorem flushChannel_steady (s : State) (p : Nat) : Steady s (flushChannel s p) := by
  have flushed : Steady s (onPort s p fun x => { x with txq := [], txNow := none }) := ⟨by simp, sentOf_onPort fun x => ⟨rfl, rfl⟩⟩
  unfold flushChannel
  exact flushed.trans (.of_get (by simp) (by simp))

theorem autoLeave_steady (s : State) : Steady s (autoLeave s) := by
  refine .of_get ?_ (by simp)
  unfold autoLeave
  split <;> simp

theorem leaveLines_steady (s : State) : Steady s (leaveLines s) := by
  have flushed := forEach_keeps (fun t => Steady s t) allPorts (onPair s (fun p => { p with txFrom := none }))
    (fun t p => flushChannel (mgmtDiscard t p) p) (.of_get (by simp) (by simp))
    (fun t p h => h.trans ((mgmtDiscard_steady t p).trans (flushChannel_steady _ p)))
  exact flushed.trans (autoLeave_steady _)

theorem pairTo_steady (s : State) (n : PairState) (reason : Nat) : Steady s (pairTo s n reason) := by
  have moved : Steady s (pairMoved s n reason) := .of_get (by simp [pairMoved]) (by simp [pairMoved])
  have recorded : ∀ u, Steady u (pairRec u 1 s.pair.st n reason) := fun u => .of_get (by simp) (by simp)
  by_cases same : s.pair.st = n
  · have only : pairTo s n reason = onPair s (fun p => { p with why := reason }) := if_pos same
    rw [only]
    exact .of_get (by simp) (by simp)
  · by_cases leaves : (drives s.pair.st && !drives n) = true
    · obtain ⟨drove, stops⟩ := Bool.and_eq_true_iff.mp leaves
      rw [pairTo, pairChange_leaves 1 reason same drove (by simpa using stops)]
      exact moved.trans ((leaveLines_steady _).trans (recorded _))
    · rw [pairTo, pairChange_moves 1 reason same (by simpa using leaves)]
      exact moved.trans (recorded _)

/-- A twin that holds the lines has seen its peer hold them for a number of boundaries (R228). -/
def dualMarked (u : State) (n : Nat) : State :=
  let t := onPair u (fun q => { q with dualRun := n, dual := decide (n = 2) })
  if decide (n = 2) && !u.pair.dual then pairSticky t 2 else t

/-- At the second of them the twin of the higher position gives way. -/
def dualEval (u : State) (n : Nat) : State :=
  if decide (n = 2) && (dualMarked u n).pins.twinPos then pairTo (dualMarked u n) .unsynced 4 else dualMarked u n

theorem dualEval_steady (u : State) (n : Nat) : Steady u (dualEval u n) := by
  have marked : Steady u (dualMarked u n) := by
    unfold dualMarked
    split
    · exact .of_get (by simp) (by simp)
    · exact .of_get (by simp) (by simp)
  unfold dualEval
  split
  · exact marked.trans (pairTo_steady _ _ _)
  · exact marked

theorem pairFrame_steady (s : State) : Steady s (pairFrame s) := by
  have arbitrated : ∀ (c d : Bool) (q q' : PairSt → PairSt), Steady s (if c then s else if d then
      pairTo (onPair s q) .unsynced 1 else onPair s q') := fun c d q q' => by
    split
    · exact .of_get rfl rfl
    · split
      · exact .trans (.of_get (by simp) (by simp)) (pairTo_steady _ _ _)
      · exact .of_get (by simp) (by simp)
  have lines : ∀ u, Steady s u → Steady s (if holdsLines u then dualEval u (if u.pair.aliveIn then min 2 (u.pair.dualRun + 1) else 0)
      else onPair u (fun q => { q with dual := false })) := fun u h => by
    split
    · exact h.trans (dualEval_steady _ _)
    · exact h.trans (.of_get (by simp) (by simp))
  have watched : ∀ u, Steady s u → Steady s (txSuspectEval u) := fun u h => h.trans (.of_get (by simp) (by simp))
  unfold pairFrame
  refine watched _ (lines _ ?_)
  cases s.pair.st
  case arbitrating => exact arbitrated _ _ _ _
  all_goals exact .of_get rfl rfl

/-! The parts of a frame boundary. -/

theorem decideGrp_mapRest (s : State) (g why : Nat) : get .map (decideGrp s g why) = get .map s := by
  by_cases held : ((grpOf s g).tblErr || isStandby s) = true
  · have same : decideGrp s g why = s := if_pos held
    rw [same]
  · simp only [Bool.or_eq_true, not_or, Bool.not_eq_true] at held
    exact decideGrp_only why held.1 held.2 .map (by simp)

theorem evalAps_mapRest (s : State) (g : Nat) : get .map (evalAps s g) = get .map s := by
  unfold evalAps evalGrp
  rw [decideGrp_mapRest]
  simp

theorem grpMirrored_mapRest (s : State) (g : Nat) : get .map (grpMirrored s g) = get .map s := by
  unfold grpMirrored
  dsimp only
  split
  · simp [selStore_mapRest]
  · rfl

/-- No group's evaluation changes the role of the banks. -/
theorem protFrame_mapRest (s : State) : get .map (protFrame s) = get .map s := by
  unfold protFrame
  refine get_forEach _ _ _ fun t g => ?_
  have evaluated : get .map (if isStandby t then grpMirrored t g else evalAps t g) = get .map t := by
    split
    · exact grpMirrored_mapRest t g
    · exact evalAps_mapRest t g
  have aligned : ∀ u, get .map u = get .map t → get .map (if gErrorless (actv u) g then eqEval u g else u) = get .map t := fun u h => by
    split
    · exact (eqEval_get _ _ (by simp) (by simp)).trans h
    · exact h
  exact aligned _ evaluated

theorem fillAps_port_ne (s : State) {p q : Nat} (apart : q ≠ p) (o3 : Bool) (g : Option Nat) : portOf (fillAps s p o3 g).1 q = portOf s q := by
  have counted := fun (u : State) (k n : Nat) => portOf_of_get (s := u) (t := cGrp u k n) (by simp) q
  unfold fillAps
  dsimp only
  split
  · split
    · rw [counted, counted, portOf_onPort_ne _ _ apart]
    · rw [counted, portOf_onPort_ne _ _ apart]
  · split
    · split
      · exact counted _ _ _
      · rfl
    · rfl

/-- The overhead of one trunk's frame, with its APS messages. -/
def overheadSent (s : State) (p : Nat) : State := overheadFrame (apsFrame s p) p

theorem overheadSent_port_ne (s : State) {p q : Nat} (apart : q ≠ p) : portOf (overheadSent s p) q = portOf s q := by
  have aps : portOf (apsFrame s p) q = portOf s q := by
    unfold apsFrame
    split
    · dsimp only
      rw [portOf_onPort_ne _ _ apart, fillAps_port_ne _ apart, fillAps_port_ne _ apart]
    · rfl
  unfold overheadSent overheadFrame sendWords
  split
  · dsimp only
    rw [portOf_onPort_ne _ _ apart, portOf_onPort_ne _ _ apart, aps]
  · exact aps

theorem overheadSent_only (s : State) (p : Nat) : Only [.ports, .sage] s (overheadSent s p) := fun f out => by
  simp at out
  simp [overheadSent, out]

/-- In a loop over distinct numbers whose step leaves the view of every other number, only its own turn changes a view. -/
theorem forEach_turn {β : Type} {f : State → Nat → State} {view : State → Nat → β} {parts : List Part}
    (only : ∀ t q, Only parts t (f t q)) (others : ∀ t p q, q ≠ p → view (f t p) q = view t q) (l : List Nat) (distinct : l.Nodup)
    {p : Nat} (mem : p ∈ l) (s : State) : ∃ u, Only parts s u ∧ view u p = view s p ∧ view (forEach l s f) p = view (f u p) p := by
  induction l generalizing s with
  | nil => cases mem
  | cons q l ih =>
    obtain ⟨absent, distinct⟩ := List.nodup_cons.mp distinct
    by_cases here : p = q
    · subst here
      refine ⟨s, Only.refl _ _, rfl, ?_⟩
      exact forEach_of_mem (fun t => view t p = view (f s p) p) l _ _ rfl fun t x inside h =>
        (others t x p (fun is => absent (by rw [is]; exact inside))).trans h
    · obtain ⟨u, before, same, turn⟩ := ih distinct ((List.mem_cons.mp mem).resolve_left here) (f s q)
      exact ⟨u, (only s q).trans before, same.trans (others s q p here), turn⟩

theorem forEach_only {parts : List Part} {f : State → Nat → State} (only : ∀ t q, Only parts t (f t q)) (l : List Nat) (s : State) :
    Only parts s (forEach l s f) :=
  forEach_keeps (fun t => Only parts s t) l s f (Only.refl _ _) fun t q h => h.trans (only t q)

/-- What the words of a trunk say of a state. -/
def Carries (s t : State) (p : Nat) : Prop := bits (sentOf t p).1 55 32 = 0xE471B2 ∧ bits (sentOf t p).1 31 27 = s.sfp.fi ∧
  bits (sentOf t p).1 17 17 = b2n s.map.bActive ∧
  crc8 ((List.range 6).map (fun k => by1 (bits (sentOf t p).1 (55 - 8 * k) (48 - 8 * k)))) = by1 (bits (sentOf t p).1 7 0) ∧
  bits (sentOf t p).2 55 40 = smiSent s p

theorem smiSent_of_get {s t : State} (map : get .map t = get .map s) (ecc : get .mapEcc t = get .mapEcc s) (p : Nat) :
    smiSent t p = smiSent s p := by
  have smi : ∀ b, smiOf t.map b = smiOf s.map b := fun b => by
    cases b
    · exact congrArg (·.smiA) (map :)
    · exact congrArg (·.smiB) (map :)
  have bank : t.map.bActive = s.map.bActive := congrArg (·.bActive) (map :)
  have ecc_ : t.map.ecc = s.map.ecc := ecc
  rw [smiSent, smiLost, eccDouble, activeSmi, smiWord, ecc_, bank, smi]
  rfl

theorem Carries.carry {s t s' t' : State} {p : Nat} (h : Carries s t p) (sent : sentOf t' p = sentOf t p) (pos : s'.sfp = s.sfp)
    (map : get .map s' = get .map s) (ecc : get .mapEcc s' = get .mapEcc s) : Carries s' t' p := by
  obtain ⟨pattern, frame, sel, crc, smi⟩ := h
  have bank : s'.map.bActive = s.map.bActive := congrArg (·.bActive) (map :)
  rw [Carries, sent, pos, bank, smiSent_of_get map ecc]
  exact ⟨pattern, frame, sel, crc, smi⟩

theorem overheadSent_carries {s u : State} (only : Only [.ports, .sage] s u) {p : Nat} (trunk : isTrunk s p = true)
    (ok : sfpOk s.sfp = true) : Carries s (overheadSent u p) p := by
  have acts : ∀ v, Only [.ports, .sage] s v → isTrunk v p = true := fun v h => by
    have same := actv_of_get (h .act (by simp))
    rw [isTrunk, modeOf, same]
    exact trunk
  set v := apsFrame u p with v_def
  have after : Only [.ports, .sage] s v := only.trans fun f out => by simp at out; simp [v_def, out]
  set w := onPort v p (fun x => { x with txRdi := pRdiEn (actv v) p && anySf (declNow (portOf v p))
                                         txChunk := (chunkNext (portOf v p).txNow).1, txNow := (chunkNext (portOf v p).txNow).2 }) with w_def
  have last : Only [.ports, .sage] s w := after.trans fun f out => by simp at out; simp [w_def, out]
  have sent : overheadSent u p = sendWords w p := if_pos (acts v after)
  have pos : w.sfp = s.sfp := last .sfp (by simp)
  obtain ⟨pattern, frame, sel, crc, carried⟩ := sendWords_bits w p (by rw [pos]; exact ok)
  rw [← sent] at pattern frame sel crc carried
  have carries : Carries w (overheadSent u p) p := ⟨pattern, frame, sel, crc, carried⟩
  exact carries.carry rfl pos.symm (last .map (by simp)).symm (last .mapEcc (by simp)).symm

/-! The settings, the pins and the feeds at a frame boundary. -/

/-- The settings in force after the registers have taken effect. -/
theorem settings_tget (d a : Nat → Word) (l : List Nat) (t : Tbl Word) (o : Nat) :
    tget (d o) (l.foldl (fun t k => tput (d (4 * k)) t (4 * k) (a (4 * k))) t) o =
      if o ∈ l.map (4 * ·) then a o else tget (d o) t o := by
  induction l generalizing t with
  | nil => rfl
  | cons k l ih =>
    rw [List.foldl_cons, ih]
    by_cases here : o = 4 * k
    · subst here
      simp [tget_tput_same]
    · rw [tget_tput_other _ _ _ _ here]
      simp [here]

theorem linkLoss_eff (s : State) (b : Bool) : (mgOf (linkLoss s b) b).eff = (mgOf s b).eff := by
  rw [linkLoss, mgOf_trace, mgOf_sticky, mgOf_cMg, mgOf_cMg, mgOf_onMg_same]

/-- The settings in force at the end of the present frame. -/
def newEff (s : State) (b : Bool) : Tbl Word :=
  (rangeFrom 0 13).foldl (fun t k => tput (regReset (aMg b (4 * k))) t (4 * k) (act s (aMg b (4 * k)))) (mgOf s b).eff

/-- A port with the settings of its registers in force. -/
def settled (s : State) (b : Bool) : State := onMg s b (fun m => { m with
  eff := (rangeFrom 0 13).foldl (fun t k => tput (regReset (aMg b (4 * k))) t (4 * k) (act s (aMg b (4 * k)))) m.eff })

theorem settingsFrame_eff (s : State) (b : Bool) : (mgOf (settingsFrame s b) b).eff = newEff s b ∧
    mgOf (settingsFrame s b) (!b) = mgOf s (!b) := by
  obtain ⟨-, -, -, -, -, -, -, other, -⟩ := linkLoss_facts (s := settled s b) (b := b)
  have same : (mgOf (settled s b) b).eff = newEff s b := congrArg (·.eff) (mgOf_onMg_same s b _)
  have not_ : mgOf (settled s b) (!b) = mgOf s (!b) := mgOf_onMg_not s b _
  show (mgOf (if _ then linkLoss (settled s b) b else settled s b) b).eff = _ ∧
    mgOf (if _ then linkLoss (settled s b) b else settled s b) (!b) = _
  split
  · exact ⟨(linkLoss_eff _ _).trans same, other.trans not_⟩
  · exact ⟨same, not_⟩

theorem limitsFrame_eff (s : State) (b : Bool) : (mgOf (limitsFrame s b) b).eff = (mgOf s b).eff ∧
    mgOf (limitsFrame s b) (!b) = mgOf s (!b) := by
  unfold limitsFrame
  dsimp only
  split
  · exact ⟨rfl, rfl⟩
  · split
    · exact ⟨by rw [mgOf_onMg_same, mgOf_cMg, mgOf_sticky], by rw [mgOf_onMg_not, mgOf_cMg, mgOf_sticky]⟩
    · exact ⟨by rw [mgOf_trace, mgOf_cMg, mgOf_onMg_same, mgOf_cMg, mgOf_sticky],
        by rw [mgOf_trace, mgOf_cMg, mgOf_onMg_not, mgOf_cMg, mgOf_sticky]⟩

theorem mgFrame_eff (s : State) (b : Bool) : (mgOf (mgFrame s b) b).eff = newEff s b ∧ mgOf (mgFrame s b) (!b) = mgOf s (!b) := by
  obtain ⟨limits, limits'⟩ := limitsFrame_eff (settingsFrame s b) b
  obtain ⟨settings, settings'⟩ := settingsFrame_eff s b
  unfold mgFrame
  exact ⟨by rw [mgOf_onMg_same, limits, settings], by rw [mgOf_onMg_not, limits', settings']⟩

theorem newEff_setting (s : State) (b : Bool) (k : Fin 13) : tget (regReset (aMg b (4 * k))) (newEff s b) (4 * k) = act s (aMg b (4 * k)) := by
  have inside : 4 * k.val ∈ (rangeFrom 0 13).map (4 * ·) := by
    simp only [rangeFrom, List.mem_map, List.mem_range]
    exact ⟨k, ⟨k, k.isLt, by simp⟩, rfl⟩
  have taken := settings_tget (fun o => regReset (aMg b o)) (fun o => act s (aMg b o)) (rangeFrom 0 13) (mgOf s b).eff (4 * k)
  rw [if_pos inside] at taken
  exact taken

/-- The management ports' settings take effect (R330). -/
theorem mgmtFrame_settings (s : State) (b : Bool) (k : Fin 13) : mgEff (mgmtFrame s) b (4 * k) = actv s (aMg b (4 * k)) := by
  set u := onMgSh s (fun h => { h with hashExtra := hashReg s, mdcDiv := (act s (aMgmt + 0x10)).toNat }) with u_def
  have is : mgmtFrame s = mgFrame (mgFrame u false) true := rfl
  have first : act u = act s := actv_of_get (s := s) (t := u) (by simp [u_def])
  have acts : act (mgFrame u false) = act s := actv_of_get (s := s) (t := mgFrame u false) (by simp [u_def])
  clear_value u
  cases b
  · have eff : (mgOf (mgmtFrame s) false).eff = newEff u false := by
      rw [is, show mgOf (mgFrame (mgFrame u false) true) false = mgOf (mgFrame u false) false from (mgFrame_eff _ true).2]
      exact (mgFrame_eff u false).1
    rw [mgEff, eff, newEff_setting, first]
    rfl
  · have eff : (mgOf (mgmtFrame s) true).eff = newEff (mgFrame u false) true := by
      rw [is]
      exact (mgFrame_eff _ true).1
    rw [mgEff, eff, newEff_setting, acts]
    rfl

/-- The pins before their levels are latched: a switch that is over ends, GPIO_OUT and the contacts are taken. -/
def pinsTaken (s : State) (contacts : BitVec 16) : State :=
  let done := ((s.pins.switching.filter (fun kv => decide (kv.2 = 1) && s.sfp.fi == 2)).map (·.1))
  let s1 := onPins s (fun p => { p with switching := tdrop (fun n => done.contains n) p.switching })
  onPins s1 (fun p => { p with
    gpioOut := (act s aGpioOut).setWidth 16
    gpioIn := (List.range 16).foldl (fun w n =>
      if (tfind p.switching n).isSome then w else setBit w n (bit contacts n)) p.gpioIn })

theorem pinsFrame_eq (s : State) (contacts : BitVec 16) : pinsFrame s contacts = forEach (List.range 16) (pinsTaken s contacts) pinLatch := rfl

theorem pinLatch_rest (s : State) (n : Nat) : (pinLatch s n).pins.gpioOut = s.pins.gpioOut ∧ (pinLatch s n).pins.gpioIn = s.pins.gpioIn :=
  ⟨rfl, rfl⟩

theorem pinsTaken_sampled {s : State} (none_ : s.pins.switching = []) (contacts : BitVec 16) :
    (pinsTaken s contacts).pins.gpioIn = (List.range 16).foldl (fun w n => setBit w n (bit contacts n)) s.pins.gpioIn := by
  have free : ∀ p, tdrop p s.pins.switching = [] := fun p => by rw [none_]; rfl
  simp only [pinsTaken, onPins, free, tfind_nil, Option.isSome_none, Bool.false_eq_true, if_false]

/-- The pins sample the contacts and take GPIO_OUT (R477). -/
theorem pinsFrame_facts (s : State) (contacts : BitVec 16) : (pinsFrame s contacts).pins.gpioOut = (actv s aGpioOut).setWidth 16 ∧
    (s.pins.switching = [] → ∀ n : Fin 16, bit (pinsFrame s contacts).pins.gpioIn n = bit contacts n) := by
  rw [pinsFrame_eq]
  refine ⟨forEach_same (fun t : State => t.pins.gpioOut) _ _ _ fun t n => (pinLatch_rest t n).1, fun none_ n => ?_⟩
  have sampled := forEach_same (fun t : State => t.pins.gpioIn) (List.range 16) (pinsTaken s contacts) pinLatch
    fun t n => (pinLatch_rest t n).2
  rw [sampled, pinsTaken_sampled none_, bit_foldl_setBit _ _ _ n.isLt, if_pos (List.mem_range.mpr n.isLt)]

/-- The measurements of the feeds are stored and their pending events cleared (R249). -/
theorem feedFrame_pwr (i : FrameIn) (s : State) : (feedFrame i s).pwr = { s.pwr with
    mvA := if i.monFault then 0xFFFF else i.feedA, mvB := if i.monFault then 0xFFFF else i.feedB
    load := i.load, monFault := i.monFault, firstFrame := true, pendHist := 0, pendCtr := [], pendRec := [] } := by
  have kept : get .pwr (feedFrame i s) = get .pwr (onPwr s (fun p => { p with
      mvA := if i.monFault then 0xFFFF else i.feedA, mvB := if i.monFault then 0xFFFF else i.feedB
      load := i.load, monFault := i.monFault, firstFrame := true, pendHist := 0, pendCtr := [], pendRec := [] })) := by
    simp [feedFrame]
  exact kept

/-- With no transaction held at the matrix only the mirror's queue moves on. -/
theorem mirFrame_only {s : State} (free : MatFree s) : Only [.mir] s (mirFrame s) := fun f out => by
  simp at out
  unfold mirFrame
  dsimp only
  split
  · rw [matRun_free (free.of_get (by simp))]
    simp [out]
  · rfl

/-! A frame boundary part by part. -/

/-- The reports of the ports, the timing and the feeds at a frame boundary. -/
def frameTaken (l : List Nat) (i : FrameIn) (s : State) : State :=
  feedFrame i (thyFrame i (forEach l (forEach l (forEach l (forEach i.fec s fecIn) fecFrame) reportPort) clientFrame))

theorem frameTaken_facts (l : List Nat) (i : FrameIn) (s : State) :
    Only [.ports, .sage, .hist, .thy, .cands, .mir, .pwr] s (frameTaken l i s) ∧
    (frameTaken l i s).pwr = { s.pwr with
      mvA := if i.monFault then 0xFFFF else i.feedA, mvB := if i.monFault then 0xFFFF else i.feedB
      load := i.load, monFault := i.monFault, firstFrame := true, pendHist := 0, pendCtr := [], pendRec := [] } := by
  refine ⟨fun f out => by simp at out; simp [frameTaken, out], ?_⟩
  have kept : get .pwr (thyFrame i (forEach l (forEach l (forEach l (forEach i.fec s fecIn) fecFrame) reportPort)
    clientFrame)) = get .pwr s := by simp
  rw [frameTaken, feedFrame_pwr, show State.pwr _ = s.pwr from kept]

/-- The groups and the overhead of the frame that begins. -/
def frameSent (l : List Nat) (i : FrameIn) (s : State) : State := forEach l (protFrame (frameTaken l i s)) overheadSent

/-- The pair, the management ports and the pins. -/
def frameEnd (l : List Nat) (i : FrameIn) (s : State) : State := pinsFrame (saveFrame (sageFrameEnd (mgmtFrame (pairFrame (frameSent l i s))))) i.gpio

theorem frameBoundary_eq (i : FrameIn) (s : State) : xFrameBoundary i s =
    if s.frameDone = some s.sfp then s else { mirFrame (frameEnd allPorts i s) with frameDone := some s.sfp } := rfl

theorem protFrame_only (s : State) : Only [.ports, .mapA, .mapB, .mapEcc, .mapScrub, .mapSel, .grps, .sage, .hist] s (protFrame s) := fun f out => by
  simp at out
  by_cases map : f = .map
  · subst map
    exact protFrame_mapRest s
  · simp [out, map]

theorem pairFrame_only (s : State) : Only [.stageOpen, .suspect, .ports, .pair, .mir, .sage, .hist, .auto] s (pairFrame s) := fun f out => by
  simp at out
  by_cases stg : f = .stg
  · subst stg
    exact (pairFrame_steady s).1
  · simp [out, stg]

section
variable (l : List Nat) (i : FrameIn) (s : State)

theorem frameEnd_rest : Only [.mgA, .mgB, .mgSh, .sage, .hist, .fresh, .cfgSave, .vcp, .run, .flash, .pins] (pairFrame (frameSent l i s))
    (frameEnd l i s) := fun f out => by
  simp at out
  simp [frameEnd, out]

/-- The settings and the pins of the frame that begins. -/
theorem frameEnd_facts : (∀ b : Bool, ∀ k : Fin 13, mgEff (frameEnd l i s) b (4 * k) = actv s (aMg b (4 * k))) ∧
    (frameEnd l i s).pins.gpioOut = (actv s aGpioOut).setWidth 16 ∧
    (s.pins.switching = [] → ∀ n : Fin 16, bit (frameEnd l i s).pins.gpioIn n = bit i.gpio n) := by
  set u := pairFrame (frameSent l i s) with u_def
  have first : Only [.ports, .sage, .hist, .thy, .cands, .mir, .pwr, .mapA, .mapB, .mapEcc, .mapScrub, .mapSel, .grps,
      .stageOpen, .suspect, .pair, .auto] s u :=
    (((frameTaken_facts l i s).1.mono (by simp)).trans ((protFrame_only _).mono (by simp))).trans
      ((forEach_only overheadSent_only l _).mono (by simp)) |>.trans ((pairFrame_only _).mono (by simp))
  have acts : actv u = actv s := actv_of_get (first .act (by simp))
  have pins : u.pins = s.pins := first .pins (by simp)
  set v := saveFrame (sageFrameEnd (mgmtFrame u)) with v_def
  have acts' : actv v = actv s := (actv_of_get (s := u) (by simp [v_def])).trans acts
  have pins' : v.pins = s.pins := by
    have kept : get .pins v = get .pins u := by simp [v_def]
    exact (kept :).trans pins
  obtain ⟨out_, in_⟩ := pinsFrame_facts v i.gpio
  have is : frameEnd l i s = pinsFrame v i.gpio := rfl
  refine ⟨fun b k => ?_, by rw [is, out_, acts'], fun none_ => by rw [is]; exact in_ (by rw [pins']; exact none_)⟩
  have port : mgOf (frameEnd l i s) b = mgOf (mgmtFrame u) b := mgOf_of_get (by rw [is]; simp [v_def]) (by rw [is]; simp [v_def]) b
  rw [mgEff, port]
  exact (mgmtFrame_settings u b k).trans (by rw [acts])

/-- What a frame boundary does while no transaction is held at the matrix. -/
theorem frameEnd_state (distinct : l.Nodup) : Only [.ports, .sage, .hist, .thy, .cands, .mir, .pwr, .mapA, .mapB, .mapEcc, .mapScrub, .mapSel, .grps,
      .stageOpen, .suspect, .pair, .auto, .mgA, .mgB, .mgSh, .fresh, .cfgSave, .vcp, .run, .flash, .pins] s (frameEnd l i s) ∧
    (frameEnd l i s).pwr = (frameTaken l i s).pwr ∧
    (∀ p : Fin 128, p.val ∈ l → isTrunk s p = true → sfpOk s.sfp = true → Carries (frameEnd l i s) (frameEnd l i s) p ∧
      (frameEnd l i s).sfp = s.sfp) := by
  set u := frameTaken l i s with u_def
  set v := protFrame u with v_def
  have taken := (frameTaken_facts l i s).1
  have decided := protFrame_only u
  have sent : Only [.ports, .sage] v (frameSent l i s) := forEach_only overheadSent_only l _
  have paired := pairFrame_only (frameSent l i s)
  have rest := frameEnd_rest l i s
  refine ⟨?_, ?_, fun p mem trunk ok => ?_⟩
  · exact ((((taken.mono (by simp)).trans (decided.mono (by simp))).trans (sent.mono (by simp))).trans (paired.mono (by simp))).trans
      (rest.mono (by simp))
  · exact (rest .pwr (by simp) :).trans ((paired .pwr (by simp) :).trans ((sent .pwr (by simp) :).trans (decided .pwr (by simp))))
  · have pos : v.sfp = s.sfp := (decided .sfp (by simp) :).trans (taken .sfp (by simp))
    have acts : actv v = actv s := actv_of_get ((decided .act (by simp) :).trans (taken .act (by simp)))
    obtain ⟨w, before, -, same⟩ := forEach_turn (view := portOf) overheadSent_only (fun t p q => overheadSent_port_ne t) l distinct mem v
    have carries := overheadSent_carries before (p := p) (by rw [isTrunk, modeOf, acts]; exact trunk) (by rw [pos]; exact ok)
    have sentAs : sentOf (frameEnd l i s) p = sentOf (overheadSent w p) p := by
      have ports : get .ports (frameEnd l i s) = get .ports (pairFrame (frameSent l i s)) := rest .ports (by simp)
      have held : sentOf (frameEnd l i s) p = sentOf (frameSent l i s) p :=
        (show sentOf (frameEnd l i s) p = sentOf (pairFrame (frameSent l i s)) p by
          rw [sentOf, sentOf, portOf_of_get ports]).trans ((pairFrame_steady _).2 p)
      exact held.trans (by rw [sentOf, frameSent, same, sentOf])
    have after : Only [.ports, .sage, .stageOpen, .suspect, .pair, .mir, .hist, .auto, .mgA, .mgB, .mgSh, .fresh, .cfgSave, .vcp,
        .run, .flash, .pins] v (frameEnd l i s) :=
      ((sent.mono (by simp)).trans (paired.mono (by simp))).trans (rest.mono (by simp))
    have endPos : (frameEnd l i s).sfp = v.sfp := after .sfp (by simp)
    exact ⟨carries.carry sentAs endPos (after .map (by simp)) (after .mapEcc (by simp)), endPos.trans pos⟩
end

/-! An epoch boundary part by part. -/

theorem rateStepUp_other (s : State) (b : Bool) : mgOf (rateStepUp s b) (!b) = mgOf s (!b) := by
  unfold rateStepUp
  split
  · obtain ⟨-, -, -, -, -, other, -⟩ := rsStep_facts (s := s) (b := b) ((mgOf s b).speed + 1) (k := 21) (by decide)
    exact other
  · rfl

/-- The counts of a port's multiframe begin again (R338, R344). -/
theorem mgEpoch_facts (s : State) (b : Bool) : (mgOf (mgEpoch s b) b).octRx = 0 ∧ (mgOf (mgEpoch s b) b).octTx = 0 ∧
    (mgOf (mgEpoch s b) b).admitted = 0 ∧ mgOf (mgEpoch s b) (!b) = mgOf s (!b) := by
  unfold mgEpoch
  dsimp only
  refine ⟨?_, ?_, ?_, ?_⟩
  · rw [mgOf_onMg_same]
  · rw [mgOf_onMg_same]
  · rw [mgOf_onMg_same]
  · rw [mgOf_onMg_not, rateStepUp_other, mgOf_onMg_not]

theorem mgmtEpoch_facts (s : State) (b : Bool) : (mgOf (mgmtEpoch s) b).octRx = 0 ∧ (mgOf (mgmtEpoch s) b).octTx = 0 ∧
    (mgOf (mgmtEpoch s) b).admitted = 0 := by
  unfold mgmtEpoch
  cases b
  · have kept : mgOf (mgEpoch (mgEpoch s false) true) false = mgOf (mgEpoch s false) false := (mgEpoch_facts _ true).2.2.2
    obtain ⟨rx, tx, admitted, -⟩ := mgEpoch_facts s false
    rw [kept]
    exact ⟨rx, tx, admitted⟩
  · obtain ⟨rx, tx, admitted, -⟩ := mgEpoch_facts (mgEpoch s false) true
    exact ⟨rx, tx, admitted⟩

theorem bwEpoch_port_ne (s : State) {p q : Nat} (apart : q ≠ p) : portOf (bwEpoch s p) q = portOf s q := by
  unfold bwEpoch
  split
  · exact portOf_onPort_ne _ _ apart
  · exact portOf_onPort_ne _ _ apart

theorem bwEpoch_some {s : State} {p n : Nat} (left : (portOf s p).bwLeft = some n) : (portOf (bwEpoch s p) p).bwLeft = some (n - 1) := by
  unfold bwEpoch
  rw [left]
  dsimp only
  rw [portOf_onPort_same]

theorem bwEpoch_none {s : State} {p : Nat} (fresh : (portOf s p).bwLeft = none) :
    (portOf (bwEpoch s p) p).bwLeft = some (bwWin (actv s) p) ∧ (portOf (bwEpoch s p) p).bwIn = 0 ∧ (portOf (bwEpoch s p) p).bwEg = 0 := by
  unfold bwEpoch
  rw [fresh]
  dsimp only
  rw [portOf_onPort_same]
  exact ⟨rfl, rfl, rfl⟩

/-- The bandwidth window of a port as the rows before it leave it. -/
def windowOf (s : State) (p : Nat) : Option Nat := (portOf s p).bwLeft

theorem windowOf_onPort {s : State} {p : Nat} {f : PortSt → PortSt} (same : ∀ x, (f x).bwLeft = x.bwLeft) (q : Nat) :
    windowOf (onPort s p f) q = windowOf s q := by
  by_cases here : q = p
  · subst here
    rw [windowOf, portOf_onPort_same, same, windowOf]
  · rw [windowOf, portOf_onPort_ne _ _ here, windowOf]

theorem esmcEpoch_window (s : State) (p q : Nat) : windowOf (esmcEpoch s p) q = windowOf s q := by
  unfold esmcEpoch onClient
  exact windowOf_onPort (by intro x; rfl) q

theorem fecEpoch_window (s : State) (p q : Nat) : windowOf (fecEpoch s p) q = windowOf s q := by
  unfold fecEpoch
  split
  · exact windowOf_onPort (by intro x; rfl) q
  · rfl

/-- Thyme, the ports' ESMC timers and the FEC of a multiframe that ends. -/
def epochTaken (l : List Nat) (temp : BitVec 16) (s : State) : State := forEach l (forEach l (thyEpoch temp s) esmcEpoch) fecEpoch

/-- The groups' ages, the management ports and the relay. -/
def epochAged (l : List Nat) (temp : BitVec 16) (s : State) : State :=
  relayEpoch (mgmtEpoch (forEach (enabledGroups (epochTaken l temp s)) (epochTaken l temp s) apsEpoch))

/-- A sweep does not run past the epoch boundary. -/
def sweepCut (s : State) : State :=
  if s.sage.sweep.map (·.1) = some s.sfp.mfc then s else onSage s (fun g => { g with sweep := none })

theorem sageEpoch_eq (s : State) : sageEpoch s = forEach allPorts (sweepCut s) bwEpoch := rfl

theorem epochBoundary_eq (temp : BitVec 16) (s : State) : xEpochBoundary temp s =
    if s.epochDone = some s.sfp then s else { sageEpoch (epochAged allPorts temp s) with epochDone := some s.sfp } := by
  unfold xEpochBoundary epochAged epochTaken
  rfl

theorem temp_of_get {s t : State} (kept : get .thy t = get .thy s) : t.thy.temp = s.thy.temp :=
  (congrArg (fun y : ThySt => y.temp) (show { t.thy with cands := [] } = { s.thy with cands := [] } from kept) :)

section
variable (l : List Nat) (temp : BitVec 16) (s : State)

theorem epochTaken_facts : Only [.thy, .mir, .ports] s (epochTaken l temp s) ∧ (epochTaken l temp s).thy.temp = temp ∧
    ∀ p, windowOf (epochTaken l temp s) p = windowOf s p := by
  have thy : get .thy (epochTaken l temp s) = get .thy (thyEpoch temp s) := by simp [epochTaken]
  refine ⟨fun f out => by simp at out; simp [epochTaken, out], (congrArg (·.temp) (thy :) :), fun p => ?_⟩
  have first := forEach_same (fun t => windowOf t p) l (thyEpoch temp s) esmcEpoch fun t q => esmcEpoch_window t q p
  have next := forEach_same (fun t => windowOf t p) l (forEach l (thyEpoch temp s) esmcEpoch) fecEpoch fun t q => fecEpoch_window t q p
  refine next.trans (first.trans ?_)
  rw [windowOf, portOf_of_get (s := s) (by simp), windowOf]

theorem apsEpoch_only (t : State) (g : Nat) : Only [.grps] t (apsEpoch t g) := fun f out => by simp at out; simp [out]

theorem apsEpoch_grp_ne (t : State) {g h : Nat} (apart : h ≠ g) : grpOf (apsEpoch t g) h = grpOf t h := grpOf_onGrp_ne _ _ apart

theorem epochAged_facts : Only [.thy, .mir, .ports, .grps, .mgA, .mgB, .mgSh, .sage, .hist, .vcp] s (epochAged l temp s) ∧
    (epochAged l temp s).thy.temp = temp ∧ (∀ p, windowOf (epochAged l temp s) p = windowOf s p) ∧
    (∀ b : Bool, (mgOf (epochAged l temp s) b).octRx = 0 ∧ (mgOf (epochAged l temp s) b).octTx = 0 ∧
      (mgOf (epochAged l temp s) b).admitted = 0) ∧
    ∀ g : Fin 2048, (grpOf s g).en = true → (grpOf s g).apsAge < 7 → (grpOf (epochAged l temp s) g).apsAge = (grpOf s g).apsAge + 1 := by
  obtain ⟨only, temp_, window⟩ := epochTaken_facts l temp s
  set u := epochTaken l temp s with u_def
  set v := forEach (enabledGroups u) u apsEpoch with v_def
  have aged : Only [.grps] u v := forEach_only apsEpoch_only _ u
  have rest : Only [.mgA, .mgB, .mgSh, .sage, .hist, .vcp] v (epochAged l temp s) := fun f out => by
    simp at out
    have is : epochAged l temp s = relayEpoch (mgmtEpoch v) := rfl
    rw [is]
    simp [out]
  have thy : get .thy (epochAged l temp s) = get .thy u := (rest .thy (by simp)).trans (aged .thy (by simp))
  have kept : (epochAged l temp s).thy.temp = u.thy.temp := temp_of_get thy
  have ports : get .ports (epochAged l temp s) = get .ports u := (rest .ports (by simp)).trans (aged .ports (by simp))
  refine ⟨((only.mono (by simp)).trans (aged.mono (by simp))).trans (rest.mono (by simp)), kept.trans temp_,
    fun p => ?_, fun b => ?_, fun g en young => ?_⟩
  · rw [← window p, windowOf, portOf_of_get ports, windowOf]
  · have port : mgOf (epochAged l temp s) b = mgOf (mgmtEpoch v) b :=
      mgOf_of_get (s := mgmtEpoch v) (t := relayEpoch (mgmtEpoch v)) (by simp) (by simp) b
    rw [port]
    exact mgmtEpoch_facts v b
  · have same : ∀ h, grpOf u h = grpOf s h := grpOf_of_get (only .grps (by simp))
    have enabled : g.val ∈ enabledGroups u := List.mem_filter.mpr ⟨List.mem_range.mpr g.isLt, by rw [same]; exact en⟩
    have distinct : (enabledGroups u).Nodup := List.Nodup.filter _ List.nodup_range
    obtain ⟨w, -, before, turn⟩ := forEach_turn (view := grpOf) apsEpoch_only (fun t p q => apsEpoch_grp_ne t) _ distinct enabled u
    have grps : grpOf (epochAged l temp s) g = grpOf v g := grpOf_of_get (rest .grps (by simp)) g
    rw [grps, v_def, turn, apsEpoch, grpOf_onGrp_same, before, same]
    show min 7 ((grpOf s g).apsAge + 1) = _
    omega

theorem bwEpoch_only (t : State) (p : Nat) : Only [.ports] t (bwEpoch t p) := fun f out => by simp at out; simp [out]

/-- What an epoch boundary does. -/
theorem epochBoundary_facts (distinct : l.Nodup) (p : Nat) (mem : p ∈ l) (t : State)
    (is : t = { forEach l (sweepCut (epochAged l temp s)) bwEpoch with epochDone := some s.sfp }) :
    Only [.thy, .mir, .ports, .grps, .mgA, .mgB, .mgSh, .sage, .hist, .vcp, .epochDone] s t ∧ t.epochDone = some s.sfp ∧
    t.thy.temp = temp ∧ (∀ b : Bool, (mgOf t b).octRx = 0 ∧ (mgOf t b).octTx = 0 ∧ (mgOf t b).admitted = 0) ∧
    (∀ n, (portOf s p).bwLeft = some n → (portOf t p).bwLeft = some (n - 1)) ∧
    ((portOf s p).bwLeft = none → (portOf t p).bwLeft = some (bwWin (actv s) p) ∧ (portOf t p).bwIn = 0 ∧ (portOf t p).bwEg = 0) ∧
    (∀ g : Fin 2048, (grpOf s g).en = true → (grpOf s g).apsAge < 7 → (grpOf t g).apsAge = (grpOf s g).apsAge + 1) := by
  obtain ⟨only, temp_, window, ports, ages⟩ := epochAged_facts l temp s
  set u := epochAged l temp s with u_def
  have cut : Only [.sage] u (sweepCut u) := fun f out => by
    simp at out
    simp [sweepCut, out]
  have windows : Only [.ports] (sweepCut u) (forEach l (sweepCut u) bwEpoch) := forEach_only bwEpoch_only l _
  obtain ⟨w, before, same, turn⟩ := forEach_turn (view := portOf) bwEpoch_only (fun t p q => bwEpoch_port_ne t) l distinct mem (sweepCut u)
  generalize forEach l (sweepCut u) bwEpoch = v at windows turn is
  have marked : Only [.epochDone] v t := fun f out => by
    subst is
    cases f
    case epochDone => simp at out
    all_goals rfl
  have last : Only [.sage, .ports, .epochDone] u t :=
    ((cut.mono (by simp)).trans (windows.mono (by simp))).trans (marked.mono (by simp))
  have port : portOf t p = portOf (bwEpoch w p) p := (portOf_of_get (marked .ports (by simp)) p).trans turn
  have left : (portOf w p).bwLeft = (portOf s p).bwLeft := by
    rw [same, portOf_of_get (cut .ports (by simp))]
    exact window p
  have acts : actv w = actv s := actv_of_get ((before .act (by simp)).trans ((cut .act (by simp)).trans (only .act (by simp))))
  have thy : get .thy t = get .thy u := last .thy (by simp)
  have kept : t.thy.temp = u.thy.temp := temp_of_get thy
  refine ⟨(only.mono (by simp)).trans (last.mono (by simp)), by rw [is], kept.trans temp_, fun b => ?_,
    fun n some_ => ?_, fun none_ => ?_, fun g en young => ?_⟩
  · rw [mgOf_of_get (last .mgA (by simp)) (last .mgB (by simp))]
    exact ports b
  · rw [port]
    exact bwEpoch_some (left.trans some_)
  · rw [port, ← acts]
    exact bwEpoch_none (left.trans none_)
  · rw [grpOf_of_get (last .grps (by simp))]
    exact ages g en young
end

/-! What the boundaries do, once each (R93, R109, R249, R330, R477). -/

/-- The parts that a frame boundary may write while no transaction is held at the matrix. -/
def frameParts : List Part := [.ports, .sage, .hist, .thy, .cands, .mir, .pwr, .mapA, .mapB, .mapEcc, .mapScrub, .mapSel, .grps,
  .stageOpen, .suspect, .pair, .auto, .mgA, .mgB, .mgSh, .fresh, .cfgSave, .vcp, .run, .flash, .pins, .frameDone]

/-- The frame boundary of an event that has not been evaluated. -/
def frameMade (l : List Nat) (i : FrameIn) (s : State) : State := { mirFrame (frameEnd l i s) with frameDone := some s.sfp }

section
variable (l : List Nat) (i : FrameIn) (s : State)

theorem frameMade_only (free : MatFree s) (distinct : l.Nodup) : Only frameParts s (frameMade l i s) ∧
    Only [.mir, .frameDone] (frameEnd l i s) (frameMade l i s) := by
  have before := (frameEnd_state l i s distinct).1
  have drained := mirFrame_only (free.of_get (before .mem (by simp)))
  have last : Only [.mir, .frameDone] (frameEnd l i s) (frameMade l i s) := fun f out => by
    simp at out
    rw [frameMade, get_frameDone _ _ out.2]
    exact drained f (by simp [out])
  exact ⟨(before.mono (by simp [frameParts])).trans (last.mono (by simp [frameParts])), last⟩

/-- What the feeds read is stored, and their events are reported (R249). -/
theorem frameMade_pwr (free : MatFree s) (distinct : l.Nodup) : (frameMade l i s).pwr = (frameTaken l i s).pwr :=
  ((frameMade_only l i s free distinct).2 .pwr (by simp) :).trans (frameEnd_state l i s distinct).2.1

theorem frameMade_settings (free : MatFree s) (distinct : l.Nodup) :
    (∀ b : Bool, ∀ k : Fin 13, mgEff (frameMade l i s) b (4 * k) = actv s (aMg b (4 * k))) ∧
    (frameMade l i s).pins.gpioOut = (actv s aGpioOut).setWidth 16 ∧
    (s.pins.switching = [] → ∀ n : Fin 16, bit (frameMade l i s).pins.gpioIn n = bit i.gpio n) := by
  obtain ⟨settings, out_, in_⟩ := frameEnd_facts l i s
  have last := (frameMade_only l i s free distinct).2
  have pins : (frameMade l i s).pins = (frameEnd l i s).pins := last .pins (by simp)
  refine ⟨fun b k => ?_, by rw [pins]; exact out_, fun none_ => by rw [pins]; exact in_ none_⟩
  rw [mgEff, mgOf_of_get (last .mgA (by simp)) (last .mgB (by simp))]
  exact settings b k

/-- The overhead that each trunk sends is that of the frame that begins (R108, R109). -/
theorem frameMade_carries (free : MatFree s) (distinct : l.Nodup) (p : Fin 128) (mem : p.val ∈ l) (trunk : isTrunk s p = true)
    (ok : sfpOk s.sfp = true) : Carries (frameMade l i s) (frameMade l i s) p := by
  have last := (frameMade_only l i s free distinct).2
  refine ((frameEnd_state l i s distinct).2.2 p mem trunk ok).1.carry ?_ (last .sfp (by simp)) (last .map (by simp)) (last .mapEcc (by simp))
  rw [sentOf, portOf_of_get (last .ports (by simp)), sentOf]
end

/-- What a frame boundary does while no transaction is held at the matrix. -/
theorem frameMade_row (l : List Nat) (i : FrameIn) (p : Fin 128) (s t : State) (is : t = frameMade l i s) (pos : t.sfp = s.sfp)
    (distinct : l.Nodup) (mem : p.val ∈ l) (free : MatFree s) :
    (i.monFault = false → t.pwr.mvA = i.feedA ∧ t.pwr.mvB = i.feedB) ∧ (i.monFault = true → t.pwr.mvA = 0xFFFF)
    ∧ t.pwr.pendHist = 0 ∧ t.pwr.pendCtr = [] ∧ t.pwr.pendRec = []
    ∧ (∀ b : Bool, ∀ k : Fin 13, mgEff t b (4 * k) = actv s (aMg b (4 * k)))
    ∧ t.pins.gpioOut = (actv s aGpioOut).setWidth 16
    ∧ (s.pins.switching = [] → ∀ n : Fin 16, bit t.pins.gpioIn n = bit i.gpio n)
    ∧ (isTrunk s p = true → sfpOk s.sfp = true → bits (portOf t p).txO0 55 32 = 0xE471B2 ∧ bits (portOf t p).txO0 31 27 = s.sfp.fi
        ∧ bits (portOf t p).txO0 17 17 = b2n t.map.bActive
        ∧ crc8 ((List.range 6).map (fun k => by1 (bits (portOf t p).txO0 (55 - 8 * k) (48 - 8 * k)))) = by1 (bits (portOf t p).txO0 7 0)
        ∧ bits (portOf t p).txO1 55 40 = smiSent t p)
    ∧ t.map.bActive = s.map.bActive ∧ t.regs.act = s.regs.act ∧ t.regs.stg = s.regs.stg ∧ t.phase = s.phase
    ∧ t.pending = s.pending := by
  have only := (frameMade_only l i s free distinct).1
  have pwr := (frameMade_pwr l i s free distinct).trans (frameTaken_facts l i s).2
  obtain ⟨settings, out_, in_⟩ := frameMade_settings l i s free distinct
  have carries := frameMade_carries l i s free distinct p mem
  rw [← is] at only pwr settings out_ in_ carries
  refine ⟨fun fault => ?_, fun fault => ?_, ?_, ?_, ?_, settings, out_, in_, fun trunk ok => ?_, ?_, only .act (by simp [frameParts]),
    only .stg (by simp [frameParts]), only .phase (by simp [frameParts]), only .pending (by simp [frameParts])⟩
  · rw [pwr]
    simp [fault]
  · rw [pwr]
    simp [fault]
  · rw [pwr]
  · rw [pwr]
  · rw [pwr]
  · obtain ⟨pattern, frame, sel, crc, smi⟩ := carries trunk ok
    exact ⟨pattern, frame.trans (by rw [pos]), sel, crc, smi⟩
  · exact congrArg (·.bActive) (only .map (by simp [frameParts]) :)

theorem epochMade_frame {s t : State} (only : Only [.thy, .mir, .ports, .grps, .mgA, .mgB, .mgSh, .sage, .hist, .vcp, .epochDone] s t) :
    t.map = s.map ∧ t.regs.act = s.regs.act ∧ t.regs.stg = s.regs.stg ∧ t.com = s.com ∧ t.flash = s.flash ∧ t.pair = s.pair ∧
    t.phase = s.phase ∧ t.pending = s.pending :=
  ⟨mapSt_ext (only .map (by simp)) (only .mapA (by simp)) (only .mapB (by simp)) (only .mapEcc (by simp))
      (only .mapScrub (by simp)) (only .mapSel (by simp)), only .act (by simp), only .stg (by simp),
    commitSt_ext (only .com (by simp)) (only .ents (by simp)) (only .stageOpen (by simp)) (only .suspect (by simp))
      (only .frozenWr (by simp)) (only .snaps (by simp)) (only .cfgSave (by simp)) (only .lastEpoch (by simp)),
    only .flash (by simp), only .pair (by simp), only .phase (by simp), only .pending (by simp)⟩

theorem frameBoundary_done {i : FrameIn} {s : State} (done : s.frameDone = some s.sfp) : xFrameBoundary i s = s :=
  (frameBoundary_eq i s).trans (if_pos done)

theorem frameBoundary_made {i : FrameIn} {s : State} (undone : s.frameDone ≠ some s.sfp) : xFrameBoundary i s = frameMade allPorts i s :=
  (frameBoundary_eq i s).trans (if_neg undone)

theorem epochBoundary_done {temp : BitVec 16} {s : State} (done : s.epochDone = some s.sfp) : xEpochBoundary temp s = s :=
  (epochBoundary_eq temp s).trans (if_pos done)

theorem epochBoundary_made {temp : BitVec 16} {s : State} (undone : s.epochDone ≠ some s.sfp) : xEpochBoundary temp s =
    { forEach allPorts (sweepCut (epochAged allPorts temp s)) bwEpoch with epochDone := some s.sfp } := by
  rw [epochBoundary_eq, if_neg undone, sageEpoch_eq]

theorem allPorts_nodup : allPorts.Nodup := List.nodup_range

/-- Settles O50: each boundary is evaluated once, part by part, and the parts that it does not name keep what they hold. -/
theorem boundaries : Obligations.Boundaries := by
  unfold Obligations.Boundaries
  intro i temp p g s on
  have frame : isFrame s.sfp = true → exec (.frameBoundary i) s = .next (xFrameBoundary i s) := fun at_ =>
    congrArg Host.Outcome.next (liveFrame_on on at_ _)
  have epoch : isEpoch s.sfp = true → exec (.epochBoundary temp) s = .next (xEpochBoundary temp s) := fun at_ =>
    congrArg Host.Outcome.next (liveEpoch_on on at_ _)
  refine ⟨fun at_ done => ?_, fun at_ undone => ?_, fun at_ done => ?_, fun at_ undone => ?_⟩
  · rw [frame at_, frameBoundary_done done]
  · have pos := sfp_of_fixed (xFrameBoundary_fixed i s)
    have made := frameBoundary_made (i := i) undone
    have done : (frameMade allPorts i s).frameDone = some s.sfp := rfl
    have here := frame at_
    rw [made] at pos here
    generalize is : frameMade allPorts i s = t at pos here done
    exact ⟨t, here, done, pos, frameMade_row allPorts i p s t is.symm pos allPorts_nodup (mem_allPorts p)⟩
  · rw [epoch at_, epochBoundary_done done]
  · have here := epoch at_
    rw [epochBoundary_made undone] at here
    generalize is : ({ forEach allPorts (sweepCut (epochAged allPorts temp s)) bwEpoch with epochDone := some s.sfp } : State) = t at here
    obtain ⟨only, done, temp_, counts, left, fresh, ages⟩ := epochBoundary_facts allPorts temp s allPorts_nodup p (mem_allPorts p) t is.symm
    exact ⟨t, here, done, only .sfp (by simp), temp_, counts, fun w => left w, fresh, ages g, epochMade_frame only⟩

end Sys2Proof.Machine
end
